-- ==== Sys2Proof/Word.lean ====
section
/-! DEFINITION. The plain data the model is written over: bytes, and finite tables kept in one sorted form. -/

namespace Sys2Proof

/-- A byte (R7). -/
abbrev Byte := BitVec 8

/-- The index of a table entry: the indices the manual writes in brackets, in order. -/
abbrev Key := List Nat

/-- Lexicographic order of indices; it fixes the one order in which a table lists its entries. -/
def keyLt : Key → Key → Bool
  | [], [] => false
  | [], _ :: _ => true
  | _ :: _, [] => false
  | a :: as, b :: bs => if a < b then true else if b < a then false else keyLt as bs

/-- A finite table. `entries` is sorted by index, without repeats. -/
structure Map (α : Type) where
  entries : List (Key × α) := []
  deriving DecidableEq, Repr

namespace Map

variable {α : Type}

def find : List (Key × α) → Key → Option α
  | [], _ => none
  | (k', v) :: t, k => if k' = k then some v else find t k

def put : List (Key × α) → Key → α → List (Key × α)
  | [], k, v => [(k, v)]
  | (k', v') :: t, k, v =>
    if k' = k then (k, v) :: t
    else if keyLt k k' then (k, v) :: (k', v') :: t
    else (k', v') :: put t k v

/-- No entry. -/
def empty : Map α := ⟨[]⟩

def get? (m : Map α) (k : Key) : Option α := find m.entries k

/-- The entry at `k`, or `d` where none is listed. -/
def get (m : Map α) (d : α) (k : Key) : α := (find m.entries k).getD d

def has (m : Map α) (k : Key) : Bool := (find m.entries k).isSome

def set (m : Map α) (k : Key) (v : α) : Map α := ⟨put m.entries k v⟩

def erase (m : Map α) (k : Key) : Map α := ⟨m.entries.filter (fun e => decide (e.1 ≠ k))⟩

/-- Keep the entries that satisfy `p`. -/
def keep (m : Map α) (p : Key → α → Bool) : Map α := ⟨m.entries.filter (fun e => p e.1 e.2)⟩

/-- Change every entry. -/
def each (m : Map α) (f : Key → α → α) : Map α := ⟨m.entries.map (fun e => (e.1, f e.1 e.2))⟩

def keys (m : Map α) : List Key := m.entries.map (·.1)

def vals (m : Map α) : List α := m.entries.map (·.2)

def size (m : Map α) : Nat := m.entries.length

/-- How many entries satisfy `p`. -/
def count (m : Map α) (p : Key → α → Bool) : Nat := (m.entries.filter (fun e => p e.1 e.2)).length

/-- Strictly rising indices. -/
def sorted : List (Key × α) → Bool
  | [] => true
  | [_] => true
  | a :: b :: t => keyLt a.1 b.1 && sorted (b :: t)

def wf (m : Map α) : Bool := sorted m.entries

end Map

/-- The field of `w` bits at bit `lo` of a little-endian number (R6, R7). -/
def bitsOf (x lo w : Nat) : Nat := (x >>> lo) % 2 ^ w

/-- The field of `w` bits at bit `lo` of the word at byte `off` of a layout (R7). -/
def fieldOf (x off lo w : Nat) : Nat := bitsOf x (8 * off + lo) w

/-- A layout built from (byte offset, low bit, width, value) rows (R7). -/
def layout : List (Nat × Nat × Nat × Nat) → Nat
  | [] => 0
  | (off, lo, w, v) :: t => ((v % 2 ^ w) <<< (8 * off + lo)) ||| layout t

/-- `x` with its field of `w` bits at `lo` replaced by `v`. -/
def setBits (x lo w v : Nat) : Nat :=
  (x ^^^ (bitsOf x lo w <<< lo)) ||| ((v % 2 ^ w) <<< lo)

def bitAt (x i : Nat) : Bool := (x >>> i) % 2 = 1

def b2n (b : Bool) : Nat := if b then 1 else 0

/-- Bytes to a little-endian number, and back (R7). -/
def natOfBytes : List Byte → Nat
  | [] => 0
  | b :: t => b.toNat + 256 * natOfBytes t

def bytesOfNat : Nat → Nat → List Byte
  | 0, _ => []
  | n + 1, x => BitVec.ofNat 8 x :: bytesOfNat n (x / 256)

/-- `(a - b) mod 2^w`, the modular distance of R8. -/
def dist (w a b : Nat) : Nat := (a % 2 ^ w + 2 ^ w - b % 2 ^ w) % 2 ^ w

/-- The number of bits set among the low `n` bits. -/
def popcount : Nat → Nat → Nat
  | 0, _ => 0
  | n + 1, x => x % 2 + popcount n (x / 2)

/-- Round up. -/
def ceilDiv (a b : Nat) : Nat := (a + b - 1) / b

/-- The first element of least measure. -/
def argMin {α : Type} (f : α → Nat) : List α → Option α
  | [] => none
  | a :: t => match argMin f t with
    | none => some a
    | some b => if f a ≤ f b then some a else some b

/-- The first element of greatest measure. -/
def argMax {α : Type} (f : α → Nat) : List α → Option α
  | [] => none
  | a :: t => match argMax f t with
    | none => some a
    | some b => if f b ≤ f a then some a else some b

end Sys2Proof
end

