-- ==== Sys2Proof/Syntax.lean ====
section
/-! DEFINITION. The commands of the block, one constructor per row of spec/opcode_table.json, with the operands each
step takes from outside, and the wire objects those operands carry. -/

namespace Sys2Proof

/-- The completion status codes of R14; `raw` carries the reserved codes 0xE and 0xF as received (R16). -/
inductive Status where
  | ok | poison | protViolation | revoked | staleMap | publishConflict | timeout | nodeLost
  | decodeError | quota | unsupported | seqWindow | shadowIncomplete | retry
  deriving DecidableEq, Repr

/-- A message: the link channel and class it travels on, the common header of R66 and its body. `body` is the body
as one little-endian number (R7) of `len` bytes. `cm` is 1 when any flit is marked (R65). -/
structure Msg where
  chan : Nat := 0
  tc : Nat := 0
  cm : Bool := false
  dst : Nat := 0
  src : Nat := 0
  ty : Nat := 0
  mapGen : Nat := 0
  status : Nat := 0
  load : Nat := 0
  ordered : Bool := false
  compressed : Bool := false
  len : Nat := 0
  flowSeq : Nat := 0
  flow : Nat := 0
  die : Nat := 0
  tenant : Nat := 0
  body : Nat := 0
  deriving DecidableEq, Repr

/-- A cricket message (R44). Times are in 1/256 ns. -/
structure Cricket where
  ty : Nat := 1
  hop : Nat := 0
  gen : Nat := 0
  seq : Nat := 0
  master : Nat := 0
  tx : Nat := 0
  rx : Nat := 0
  deriving DecidableEq, Repr

/-- The CAPS fields of R74. -/
structure Caps where
  vendor : Nat := 0
  eid : Nat := 0xFFFF
  role : Nat := 0
  widths : Nat := 0
  timeProfile : Bool := false
  lender : Bool := false
  codec : Bool := false
  caching : Bool := false
  precode : Bool := false
  goodLanes : Nat := 0
  deriving DecidableEq, Repr

/-- A flit (R62): the link header's fields and the 240 payload bytes as one little-endian number. -/
structure Flit where
  kind : Nat := 0
  last : Bool := false
  chan : Nat := 0
  tc : Nat := 0
  cm : Bool := false
  ackValid : Bool := false
  seq : Nat := 0
  ackSeq : Nat := 0
  creditVc : Nat := 0
  creditValid : Bool := false
  creditTotal : Nat := 0
  payload : Nat := 0
  deriving DecidableEq, Repr

/-- What the SPD of a module says (R203). -/
structure Spd where
  capacityGiB : Nat := 0
  mrdimm : Bool := false
  supported : Bool := true
  deriving DecidableEq, Repr

/-- What becomes of an error on a die-to-die transfer (R22). -/
inductive DieLinkErr where
  | corrected
  | replayed
  | uncorrectable (die chan : Nat)
  deriving DecidableEq, Repr

/-- One constructor per row of the table. The docstring gives the row's rule and summary; operands named `d` are a
die (0 West, 1 East), `p` a port, `c` a cluster or channel, `n` a core, `fn` a PCI Express function, `m` the message
taken, `v` the value written, `w` the 64-bit instruction word. -/
inductive Instr where
  /-- R9. A BAR0 write to a register that has no row of its own acts by the field's access type. -/
  | registerWrite (fn off v : Nat) (wide : Bool)
  /-- R22. An error on a die-to-die transfer is corrected, replayed, or delivered as POISON. -/
  | dieLinkError (link : Nat) (kind : DieLinkErr)
  /-- R22. Loss of a hub link makes requests to that die's board-tier extents complete with NODE_LOST and pauses moves. -/
  | hubLinkLoss (d : Nat)
  /-- R22. A lost hub link returns and board-tier service and paused moves resume. -/
  | hubLinkReturn (d : Nat)
  /-- R32. A PWR_MODE_REQ write schedules a power-mode change at a target beat, or is refused with RETRY while one is pending. -/
  | modeChangeRequest (mode beat : Nat)
  /-- R32. At the target beat the new mode's ECLK and stack ceilings take effect on both dies. -/
  | modeChange
  /-- R463. The regulator reports the requested engine voltage and the ECLK raise proceeds. -/
  | voltageSettled (mv : Nat)
  /-- R463. A regulator that has not settled in time leaves ECLK unchanged and a DEGRADED error is logged. -/
  | avsSettleTimeout
  /-- R32. The ECLK PLLs relock and the stalled cores resume issue. -/
  | eclkRelockDone
  /-- R462. Path monitors trim the engine-rail voltage request, at most once per beat. -/
  | voltageTrim (d : Nat) (mv : Int)
  /-- R31. At the end of each 64-beat window the power controller steps ECLK or the stack caps down or up. -/
  | powerWindow (avg : Nat)
  /-- R31. ECLK below its ceiling for more than 16 consecutive windows raises the PWR throttled interrupt. -/
  | eclkThrottledAlert
  /-- R470. Once per window the thermal controller throttles or restores ECLK and column caps from the hottest readings. -/
  | thermalWindow (west east hub stack index : Nat)
  /-- R472. A die or stack at the critical temperature stops core issue and sets every column cap to 10%. -/
  | thermalCritical (die stack : Nat)
  /-- R472. A die at 125 °C stops every clock, puts stacks in self-refresh and asserts THERMTRIP_N. -/
  | thermalTrip (source temp : Nat)
  /-- R465. A rail out of tolerance for more than 2 µs makes a part reset. -/
  | railFault (ns : Nat)
  /-- R465. Once every rail has been within tolerance for 1 ms, the held reset is released. -/
  | railRecovery (ns : Nat)
  /-- R40. A TIM_CTL.role write makes the part master, entering LOCKED, or worker, entering HOLDOVER. -/
  | roleSet (v : Nat)
  /-- R43. Every 16 beats a LOCKED part sends SYNC on each child port. -/
  | syncInterval
  /-- R43. Every 1,024 beats, or on a change of parent, a worker sends DELAY_REQ on its parent port. -/
  | delayReqInterval
  /-- R45. A received SYNC yields a fresh offset: the worker slews FT, chooses its parent and detects master conflicts. -/
  | sync (p : Nat) (c : Cricket) (rx : Nat)
  /-- R43. A received DELAY_REQ is answered with a DELAY_RSP carrying its receive time. -/
  | delayReq (p : Nat) (c : Cricket) (rx tx : Nat)
  /-- R45. A received DELAY_RSP gives the link delay and offset, or is dropped and counted when it matches no request. -/
  | delayRsp (p : Nat) (c : Cricket) (rx : Nat)
  /-- R44. A cricket message of reserved type is dropped and handled as a protocol error of the port. -/
  | cricketReservedType (p : Nat) (c : Cricket)
  /-- R49. Four missed SYNC messages make the worker try another port, or enter HOLDOVER. -/
  | syncLoss
  /-- R42. A conflicting master is silent for 4 SYNC intervals and the worker follows the remaining master. -/
  | masterWithdrawn
  /-- R49. After 64 consecutive good SYNC intervals the time unit enters LOCKED, and deferred lease expiries are evaluated. -/
  | timeLocked
  /-- R49. HOLDOVER lasting TIM_HOLD_LIMIT beats with no parent moves the time unit to LOST. -/
  | holdLimitExpiry
  /-- R49. Loss of the master's CRICKET_IN reference sets ref_lost, and the master runs free on REFCLK. -/
  | refLost
  /-- R51. A worker behind by more than 1,024 ns steps FT forward at the next beat start. -/
  | ftStep
  /-- R24. Writing TIM_SNAP.capture copies the hub's FT into TIM_SNAP_FT. -/
  | snapCapture (v : Nat)
  /-- R52. TIM_FT_LOAD command 0b01 loads TIM_FT_SET into FT on the master or on a worker in UNSYNC. -/
  | loadNow
  /-- R52. TIM_FT_LOAD command 0b10 arms a load of FT at the next PPS edge, master only. -/
  | loadAtPps
  /-- R52. A PPS edge, or its stand-in while ref_lost, performs a pending FT load and keeps PPS phase. -/
  | ppsEdge
  /-- R79. Setting PRT_PORT_CTL.enable starts training at DETECT, or is refused for overlapping lanes or mixed reach. -/
  | portEnable (p : Nat)
  /-- R78. Clearing enable takes the port to DISABLED, discarding unacknowledged flits and clearing link state. -/
  | portDisable (p : Nat)
  /-- R73. Setting admit on an ACTIVE port sends INIT_CREDIT naming the port's allowances. -/
  | portAdmit (p : Nat)
  /-- R73. Writing admit = 0 on an ACTIVE port enters RETRAIN, advertising only management credit. -/
  | portAdmitClear (p : Nat)
  /-- R80. PRT_PORT_CTL.retrain sends RETRAIN_REQ and reruns LOCK and CONFIG, keeping flows when the partner is unchanged. -/
  | retrain (p : Nat)
  /-- R84. A lane retraining narrows the port, retrains the lane alone, and widens the port again. -/
  | laneRetrain (p lane : Nat)
  /-- R84. A lane above ser_limit for 16 consecutive superframes starts a lane retraining. -/
  | laneSerExceeded (p lane : Nat)
  /-- R79. Signal held for 1 ms in DETECT moves the port to EQUALISE. -/
  | signalDetect (p : Nat)
  /-- R79. PMD link training ends, failing lanes are marked bad, and the port enters LOCK. -/
  | equaliseDone (p failed : Nat)
  /-- R57. Codeword lock, alignment, polarity, lane order and deskew complete, and the port enters CONFIG. -/
  | lockDone (p late : Nat) (reversed : Bool)
  /-- R79. A state that exceeds its limit fails the attempt; three failed attempts put the port in FAULT. -/
  | trainingTimeout (p : Nat)
  /-- R477. In CONFIG the device repeats CAPS and INIT_CREDIT every 1 µs. -/
  | configRepeat (p : Nat)
  /-- R73. After admit, the INIT_CREDIT in ACTIVE is repeated every 1 µs for 64 µs. -/
  | initCreditRepeat (p : Nat)
  /-- R76. A flit is taken: CRC checked, sequence classified, acknowledgement and credit fields applied, and ACTIVE entered from CONFIG. -/
  | flitReceived (p : Nat) (f : Flit) (crcOk : Bool)
  /-- R61. An uncorrectable codeword fails the flits it overlaps; eight consecutive on one lane enter RETRAIN. -/
  | codewordUncorrectable (p lane flits : Nat)
  /-- R77. A non-stale NAK releases older flits and replays from the named sequence number. -/
  | nak (p e : Nat)
  /-- R73. A received INIT_CREDIT sets or reconciles the transmitter's credit per VC. -/
  | initCredit (p : Nat) (cr : List Nat)
  /-- R74. A received CAPS records the partner's declarations, completes CONFIG checks, or, when changed in ACTIVE, enters RETRAIN. -/
  | caps (p : Nat) (c : Caps)
  /-- R83. A WIDTH_CHANGE request or accept agrees a new lane mask at a named superframe. -/
  | widthChange (p sf mask : Nat) (req : Bool)
  /-- R83. At the agreed superframe both ends change striping to the new lane mask. -/
  | stripingChange (p : Nat)
  /-- R477. A received RETRAIN_REQ puts the port into RETRAIN at once. -/
  | retrainReq (p : Nat)
  /-- R77. No release progress for replay_timeout replays from the oldest flit; retry_limit replays enter RETRAIN. -/
  | replayTimeout (p : Nat)
  /-- R70. At least every 500 ns the receiver reports the credit_total of every enabled VC. -/
  | creditReport (p : Nat)
  /-- R72. A VC at zero credit for 10 ms sets the credit_stall event. -/
  | creditStall (p vc : Nat)
  /-- R85. Loss of signal on all active lanes for 1 µs sends the port to DETECT and sets port_down. -/
  | signalLoss (p : Nat)
  /-- R90. At a flit boundary the egress scheduler picks an eligible VC queue and sends its next flit. -/
  | egressSchedule (p : Nat)
  /-- R26. A message cell enters the buffer and is checked, classified and either routed or consumed locally. -/
  | messageArrival (p : Nat) (m : Msg)
  /-- R103. A hole held for the resequencer timeout is skipped and its held run delivered. -/
  | reseqTimeout (output flow : Nat)
  /-- R93. A cut-through message whose next cell is absent for ct_stall is ended malformed downstream. -/
  | cutThroughStall (p vc : Nat)
  /-- R109. A mirror copy without credit beyond ct_stall is discarded and counted. -/
  | mirrorCopyStall (p : Nat)
  /-- R104. A SWC_FLOW_RESET write delivers held cells in order and clears the flow context. -/
  | flowReset (v : Nat)
  /-- R99. A relayed update writes a staged route entry. -/
  | routeStage (e entry : Nat)
  /-- R99. A relayed update writes a staged next-hop group. -/
  | groupStage (g v : Nat)
  /-- R99. A relayed update writes a staged multicast set. -/
  | mcastStage (m ports agents : Nat)
  /-- R99. A relayed update writes SWC_MAP_STAGE, marking the staged tables valid for G + 1. -/
  | stageSet (v : Nat)
  /-- R99. A write of SWC_MAP_SWITCH, or a relayed MAP_SWITCH, schedules a map switch at a beat. -/
  | mapSwitch (beat : Nat)
  /-- R99. At the scheduled beat, staged tables become current and G advances, or the switch fails with RETRY. -/
  | mapGenerationSwitch
  /-- R107. A request held for a window entry, window space or issued-class entry is issued once room frees. -/
  | issueResume (d : Nat)
  /-- R119. A home takes a non-coherent read and returns the data with RD_DATA. -/
  | rd (d : Nat) (m : Msg)
  /-- R117. A home takes a multi-packet read and sends RDM_DATA packets in increasing offset. -/
  | rdm (d : Nat) (m : Msg)
  /-- R122. A home performs a write and sends WR_ACK. -/
  | wr (d : Nat) (m : Msg)
  /-- R120. A home performs a masked line write and sends WR_ACK. -/
  | wrMask (d : Nat) (m : Msg)
  /-- R119. A home performs an atomic indivisibly and returns ATOM_RSP. -/
  | atom (d : Nat) (m : Msg)
  /-- R135. An OPEN combining entry whose window has passed closes and is issued as one request. -/
  | combWindowExpiry (d i : Nat)
  /-- R129. A read response is matched to its live tracker entry, its data placed, and the entry retired. -/
  | rdData (d : Nat) (m : Msg)
  /-- R133. An RDM packet's bytes are counted and the entry retires when all bytes, or a refusal, arrive. -/
  | rdmData (d : Nat) (m : Msg)
  /-- R129. A write acknowledgement retires its issued entry with its status. -/
  | wrAck (d : Nat) (m : Msg)
  /-- R136. An atomic response retires its entry, or is fanned out to combined members with per-member old values. -/
  | atomRsp (d : Nat) (m : Msg)
  /-- R130. An issued entry without a response by TRK_TIMEOUT.issued retires with TIMEOUT. -/
  | issuedTimeout (d i : Nat)
  /-- R130. A forwarded entry past TRK_TIMEOUT.fwd sends the requester NODE_LOST and retires. -/
  | fwdTimeout (d i : Nat)
  /-- R131. An entry completed with RETRY is reissued unchanged one beat later. -/
  | reissue (d i : Nat)
  /-- R138. At each beat start each home die computes the load field for its responses. -/
  | loadCompute (d homeFrac stackFrac : Nat)
  /-- R127. A relayed update replaces one edge or agent window entry, or is refused for a bad entry. -/
  | winWrite (sel entry : Nat)
  /-- R152. A home takes a read-for-sharing and grants from memory or forwards to the owner. -/
  | crdS (d : Nat) (m : Msg)
  /-- R152. A home takes a read-for-ownership, invalidates sharers or forwards to the owner. -/
  | crdX (d : Nat) (m : Msg)
  /-- R152. A home takes an upgrade, invalidating other sharers before granting ownership. -/
  | cupg (d : Nat) (m : Msg)
  /-- R150. A caching agent serves a forwarded read, keeps S, or holds the snoop while its data is outstanding. -/
  | fwdS (c : Nat) (m : Msg)
  /-- R150. A caching agent passes the line to the requester and gives it up. -/
  | fwdX (c : Nat) (m : Msg)
  /-- R150. A caching agent invalidates the line and answers with SNP_RSP. -/
  | snpInv (c : Nat) (m : Msg)
  /-- R150. A caching agent downgrades an owned line to S and answers. -/
  | snpClean (c : Nat) (m : Msg)
  /-- R151. A requester receives data and grant, performs its access, then serves held snoops. -/
  | cdata (c : Nat) (m : Msg)
  /-- R150. A requester receives an upgrade grant without data and enters M. -/
  | cgntX (c : Nat) (m : Msg)
  /-- R152. A home takes a snoop answer, writes dirty data, updates the record and ends the line's busy state. -/
  | snpRsp (d : Nat) (m : Msg)
  /-- R155. A home takes a dirty writeback, writing the line and closing any crossed snoop. -/
  | cwbDirty (d : Nat) (m : Msg)
  /-- R152. A home takes a clean eviction of an owned line and records I. -/
  | cwbClean (d : Nat) (m : Msg)
  /-- R157. A snoop unanswered for COH_TIMEOUT.snoop declares the agent dead. -/
  | snoopTimeout (d tag : Nat)
  /-- R157. An agent's port down longer than the grace time declares the agent dead. -/
  | graceTimeout (p : Nat)
  /-- R158. A relayed declaration marks the agent dead in its domains and starts reclaim. -/
  | declareDead (dom slot : Nat)
  /-- R159. The reclaim walk ends on both dies, setting done and telling the fabric manager. -/
  | reclaimWalkDone (dom slot : Nat)
  /-- R141. A relayed update writes a binding entry, or is refused with UNSUPPORTED, RETRY or QUOTA. -/
  | bindWrite (i v : Nat)
  /-- R140. A relayed update writes a domain member slot, first declaring a replaced agent dead. -/
  | memberWrite (dom slot v : Nat)
  /-- R144. A relayed update writes a directory store entry, or is refused. -/
  | dirStoreWrite (d k v : Nat)
  /-- R169. The Apold renews a live lease slot and answers with LEASE_ACK. -/
  | leaseRenew (d : Nat) (m : Msg)
  /-- R171. At a slot's expiry beat its extents start revocation, it leaves share groups and the host is notified. -/
  | leaseExpiry
  /-- R184. A home performs a publication as one step and answers PUBLISH_ACK, or reports PUBLISH_CONFLICT. -/
  | publish (d : Nat) (m : Msg)
  /-- R179. A lender's withdrawal request is reported to the fabric manager. -/
  | lendWithdraw (p : Nat) (m : Msg)
  /-- R179. Once a lent node holds no HELD, REVOKING or SCRUB extent, the proxy sends LEND_ACK. -/
  | lendAck (k : Nat)
  /-- R168. A command creates, changes, revives or removes a lease slot. -/
  | leaseSet (slot eid tenant dur : Nat)
  /-- R164. A command grants FREE extents to a lease slot after ordered checks, placing each by R165. -/
  | grant (slot node first last die : Nat)
  /-- R190. A command makes FREE extents INTERNAL for the Apold's own units. -/
  | grantInternal (first last die : Nat)
  /-- R166. A command attaches extents and slots to a share group. -/
  | share (node first last group : Nat) (slots : List Nat)
  /-- R166. A command removes slots from a share group or detaches extents. -/
  | unshare (node first last group : Nat) (slots : List Nat)
  /-- R172. A command moves extents to REVOKING and starts the drain. -/
  | revoke (node first last clear : Nat)
  /-- R186. A command returns QUARANTINE or LOST extents toward FREE. -/
  | release (node first last : Nat)
  /-- R180. A command sets the rate and burst of a slot or tenant bucket. -/
  | limitSet (kind die index rate burst : Nat)
  /-- R190. A command sets the extents a tenant may hold. -/
  | tenantQuota (t n : Nat)
  /-- R176. A command configures a lender behind a lending port. -/
  | lendAdd (eid node port n : Nat)
  /-- R190. A command removes a lender whose extents are all FREE, QUARANTINE or LOST. -/
  | lendRemove (eid node port n : Nat)
  /-- R186. A command moves extents to LOST. -/
  | markLost (node first last : Nat)
  /-- R187. A command writes a POL_LOST entry for a lost node range. -/
  | lostSet (k v : Nat)
  /-- R188. A command sends the host at this edge a POOL_NOTICE such as PARTITION_LOST. -/
  | notify (eid kind : Nat)
  /-- R172. A revocation's drain ends when nothing is live, completing the REVOKE and starting the scrub. -/
  | drainEnd (r : Nat)
  /-- R172. At the drain timeout, live requests complete with REVOKED and pending writes are discarded. -/
  | drainTimeout (r : Nat)
  /-- R173. The scarab engine finishes clearing an extent, which becomes FREE or QUARANTINE and its holders are notified. -/
  | scrubDone (r e : Nat)
  /-- R180. At each beat start the token buckets refill and waiting limiter queues proceed. -/
  | bucketRefill (d : Nat)
  /-- R193. Each command slot, a pseudo-channel scheduler issues one refresh, read or write command. -/
  | commandSlot (s pc err : Nat)
  /-- R195. A bank's refresh interval elapses and a refresh becomes due. -/
  | refreshDue (s pc bank : Nat)
  /-- R193. An open row with no hitting request closes after row_idle. -/
  | rowClose (s pc bank : Nat)
  /-- R196. A pseudo-channel with empty queues for pd_timer enters power-down. -/
  | powerDownEntry (s pc : Nat)
  /-- R199. Writing recal moves a pseudo-channel to DRAINING for recalibration. -/
  | recal (s pc : Nat)
  /-- R199. Queued requests complete and the pseudo-channel enters OUT, saving its delays. -/
  | pcDrained (s pc : Nat)
  /-- R199. Writing release returns the pseudo-channel to SERVICE and waiting requests issue. -/
  | recalRelease (s pc : Nat) (ok : Bool)
  /-- R199. Without release within max_window, saved delays are restored and the pseudo-channel returns to SERVICE. -/
  | recalTimeout (s pc : Nat)
  /-- R198. The pattern engine runs once on an OUT pseudo-channel and reports lane mismatches. -/
  | patternRun (s pc fail : Nat)
  /-- R201. Each beat patrol scrub reads its lines of each stack and channel, writing back corrected data. -/
  | patrolScrub (u : Nat) (corrected uncorrected : List Nat)
  /-- R202. 64 uncorrectable errors in one beat declare a pseudo-channel FAILED. -/
  | pcFailed (s pc : Nat)
  /-- R202. A stack whose PHY, power or controller fails goes FAILED and its extents go LOST. -/
  | stackFailed (s : Nat)
  /-- R446. A stack finishes initialisation and enters READY or FAILED on its own. -/
  | stackInitDone (s : Nat) (ok : Bool)
  /-- R208. At each age period every HELD or INTERNAL extent's age advances and board heat halves. -/
  | ageTick
  /-- R210. A die with too few free stack slots starts demoting its oldest eligible extents to the board tier. -/
  | demotion (d : Nat)
  /-- R211. A board extent whose heat reaches promote_heat is moved into a stack slot, by swap if needed. -/
  | promotion (e : Nat)
  /-- R212. A move locks its next chunk and starts copying it. -/
  | migrationChunk (e : Nat)
  /-- R212. A chunk copy ends; the chunk is switched to the destination or abandoned, and a finished move frees its source. -/
  | chunkCopyDone (e : Nat)
  /-- R212. After 64 beats of pause following 8 abandons, a move resumes. -/
  | movePauseEnd (e : Nat)
  /-- R214. At the next beat start after a move, both dies change the extent's home die together. -/
  | homeDieSwitch (e : Nat)
  /-- R215. A MEM_MOVE_CMD write requests a move of an extent, or is refused. -/
  | moveCmd (v : Nat)
  /-- R216. Writing retire starts moving every occupied slot out of a stack, or is refused with QUOTA. -/
  | retire (s : Nat)
  /-- R217. Writing enable reads the SPD and trains a board channel. -/
  | channelEnable (c : Nat)
  /-- R204. A board channel finishes training and enters READY, or its module is refused. -/
  | channelTrained (c : Nat) (spd : Option Spd)
  /-- R217. Writing drain moves a channel's extents elsewhere, or is refused with QUOTA. -/
  | channelDrain (c : Nat)
  /-- R217. Writing power_off puts a DRAINED or FAILED channel in self-refresh and removes its power. -/
  | powerOff (c : Nat)
  /-- R217. A channel that fails or loses its module makes its extents LOST. -/
  | channelFailed (c : Nat)
  /-- R227. A driver push places the staged descriptor on a core's deque, or is refused. -/
  | cmpTaskPush (fn v : Nat)
  /-- R228. An agent stalled on a full deque pushes its task once space frees. -/
  | pushResume (c : Nat)
  /-- R229. An idle core tries to steal the topmost fitting entry from a victim chosen by hints. -/
  | steal (n : Nat)
  /-- R229. Idleness for die_delay or pkg_delay opens the next stealing stage. -/
  | stealDelayExpiry (n : Nat)
  /-- R230. Steal hints are republished within the cluster, to the die and across the bridge. -/
  | hintRefresh (n : Nat)
  /-- R225. A CMP_CSRAM_CFG write writes back domain lines, empties the row cache and applies the new split, or is refused. -/
  | csramSplit (c v : Nat)
  /-- R240. Writing offline starts moving a cluster's work away, or starts the scrub of a FAILED cluster. -/
  | offline (c : Nat)
  /-- R240. Once tasks, deques, accumulators and handles are empty, the cluster enters SCRUBBING. -/
  | clusterScrubStart (c : Nat)
  /-- R240. The cluster scrub ends and the cluster is power-gated in OFFLINE. -/
  | clusterOffline (c : Nat)
  /-- R240. Offlining not done within the timeout sets offline_stuck. -/
  | offlineStuck (c : Nat)
  /-- R240. Writing kill ends every running task as a fault and unbinds every handle. -/
  | kill (c : Nat)
  /-- R241. Writing online powers an OFFLINE cluster up and loads its tenant's images. -/
  | online (c : Nat)
  /-- R241. An onlining cluster enters READY with its previous CSRAM split. -/
  | clusterOnlineDone (c : Nat)
  /-- R243. An uncorrectable error stops a cluster, losing its tasks and declaring its coherence slots dead. -/
  | clusterFailed (c : Nat)
  /-- R245. A core pops a task and sets its argument registers, FLAGS and pc. -/
  | taskStart (n : Nat)
  /-- R253. Scalar add modulo 2^64. -/
  | sadd (n : Nat) (w : BitVec 64)
  /-- R253. Scalar subtract. -/
  | ssub (n : Nat) (w : BitVec 64)
  /-- R253. Low 64 bits of a scalar product. -/
  | smul (n : Nat) (w : BitVec 64)
  /-- R253. High 64 bits of a scalar product. -/
  | smulh (n : Nat) (w : BitVec 64)
  /-- R253. Scalar bitwise and. -/
  | sand (n : Nat) (w : BitVec 64)
  /-- R253. Scalar bitwise or. -/
  | sor (n : Nat) (w : BitVec 64)
  /-- R253. Scalar bitwise xor. -/
  | sxor (n : Nat) (w : BitVec 64)
  /-- R253. Scalar shift left. -/
  | sshl (n : Nat) (w : BitVec 64)
  /-- R253. Scalar shift right, arithmetic for s64. -/
  | sshr (n : Nat) (w : BitVec 64)
  /-- R253. Scalar minimum. -/
  | smin (n : Nat) (w : BitVec 64)
  /-- R253. Scalar maximum. -/
  | smax (n : Nat) (w : BitVec 64)
  /-- R253. Scalar compare to 0 or 1. -/
  | scmp (n : Nat) (w : BitVec 64)
  /-- R253. Scalar select. -/
  | ssel (n : Nat) (w : BitVec 64)
  /-- R253. Scalar divide, setting div_zero on zero divisor. -/
  | sdiv (n : Nat) (w : BitVec 64)
  /-- R253. Scalar remainder. -/
  | srem (n : Nat) (w : BitVec 64)
  /-- R254. Scalar add immediate. -/
  | saddi (n : Nat) (w : BitVec 64)
  /-- R254. Scalar and immediate. -/
  | sandi (n : Nat) (w : BitVec 64)
  /-- R254. Scalar or immediate. -/
  | sori (n : Nat) (w : BitVec 64)
  /-- R254. Scalar xor immediate. -/
  | sxori (n : Nat) (w : BitVec 64)
  /-- R254. Scalar shift left by immediate. -/
  | sshli (n : Nat) (w : BitVec 64)
  /-- R254. Scalar shift right by immediate. -/
  | sshri (n : Nat) (w : BitVec 64)
  /-- R254. Load sign-extended immediate. -/
  | sli (n : Nat) (w : BitVec 64)
  /-- R254. Load immediate into the high 32 bits. -/
  | slih (n : Nat) (w : BitVec 64)
  /-- R255. Scalar floating-point add. -/
  | sfadd (n : Nat) (w : BitVec 64)
  /-- R255. Scalar floating-point subtract. -/
  | sfsub (n : Nat) (w : BitVec 64)
  /-- R255. Scalar floating-point multiply. -/
  | sfmul (n : Nat) (w : BitVec 64)
  /-- R255. Scalar fused multiply-add. -/
  | sffma (n : Nat) (w : BitVec 64)
  /-- R255. Scalar floating-point divide. -/
  | sfdiv (n : Nat) (w : BitVec 64)
  /-- R255. Scalar floating-point square root. -/
  | sfsqrt (n : Nat) (w : BitVec 64)
  /-- R255. Scalar floating-point minimum. -/
  | sfmin (n : Nat) (w : BitVec 64)
  /-- R255. Scalar floating-point maximum. -/
  | sfmax (n : Nat) (w : BitVec 64)
  /-- R255. Scalar floating-point compare. -/
  | sfcmp (n : Nat) (w : BitVec 64)
  /-- R255. Scalar type conversion. -/
  | scvt (n : Nat) (w : BitVec 64)
  /-- R257. Read a special register. -/
  | sgetr (n : Nat) (w : BitVec 64)
  /-- R257. Write FLAGS. -/
  | ssetr (n : Nat) (w : BitVec 64)
  /-- R258. Conditional branch. -/
  | bcmp (n : Nat) (w : BitVec 64)
  /-- R258. Jump and link. -/
  | jal (n : Nat) (w : BitVec 64)
  /-- R258. Jump to register and link. -/
  | jalr (n : Nat) (w : BitVec 64)
  /-- R259. Push a task descriptor from local memory and return its status. -/
  | tspawn (n : Nat) (w : BitVec 64)
  /-- R260. End the task once earlier instructions and issued entries complete, notify, and pop the next task. -/
  | tend (n : Nat) (w : BitVec 64)
  /-- R259. No operation. -/
  | snop (n : Nat) (w : BitVec 64)
  /-- R259. Fault with BREAK. -/
  | sbrk (n : Nat) (w : BitVec 64)
  /-- R261. Scalar load from local memory. -/
  | sld (n : Nat) (w : BitVec 64)
  /-- R261. Scalar store to local memory. -/
  | sst (n : Nat) (w : BitVec 64)
  /-- R261. Vector load of a register run. -/
  | vld (n : Nat) (w : BitVec 64)
  /-- R261. Vector store of a register run, lanes guarded. -/
  | vst (n : Nat) (w : BitVec 64)
  /-- R261. Strided granule vector load. -/
  | vldg (n : Nat) (w : BitVec 64)
  /-- R261. Strided granule vector store. -/
  | vstg (n : Nat) (w : BitVec 64)
  /-- R262. Vector add. -/
  | vadd (n : Nat) (w : BitVec 64)
  /-- R262. Vector subtract. -/
  | vsub (n : Nat) (w : BitVec 64)
  /-- R262. Vector multiply. -/
  | vmul (n : Nat) (w : BitVec 64)
  /-- R262. Vector fused multiply-add. -/
  | vfma (n : Nat) (w : BitVec 64)
  /-- R262. Vector negated fused multiply-add. -/
  | vfnma (n : Nat) (w : BitVec 64)
  /-- R262. Vector minimum. -/
  | vmin (n : Nat) (w : BitVec 64)
  /-- R262. Vector maximum. -/
  | vmax (n : Nat) (w : BitVec 64)
  /-- R262. Vector absolute value. -/
  | vabs (n : Nat) (w : BitVec 64)
  /-- R262. Vector negate. -/
  | vneg (n : Nat) (w : BitVec 64)
  /-- R262. Vector FP32 divide. -/
  | vdiv (n : Nat) (w : BitVec 64)
  /-- R262. Vector FP32 square root. -/
  | vsqrt (n : Nat) (w : BitVec 64)
  /-- R262. Vector bitwise and. -/
  | vand (n : Nat) (w : BitVec 64)
  /-- R262. Vector bitwise or. -/
  | vor (n : Nat) (w : BitVec 64)
  /-- R262. Vector bitwise xor. -/
  | vxor (n : Nat) (w : BitVec 64)
  /-- R262. Vector shift left. -/
  | vshl (n : Nat) (w : BitVec 64)
  /-- R262. Vector shift right. -/
  | vshr (n : Nat) (w : BitVec 64)
  /-- R262. Vector select by guard. -/
  | vsel (n : Nat) (w : BitVec 64)
  /-- R262. Vector select by a vector condition. -/
  | vselv (n : Nat) (w : BitVec 64)
  /-- R262. Broadcast a scalar to every lane. -/
  | vbcast (n : Nat) (w : BitVec 64)
  /-- R262. Vector move. -/
  | vmov (n : Nat) (w : BitVec 64)
  /-- R263. Vector type conversion across a run. -/
  | vcvt (n : Nat) (w : BitVec 64)
  /-- R263. Unpack 4-bit integers to 8-bit lanes. -/
  | vunpk4 (n : Nat) (w : BitVec 64)
  /-- R263. Pack 8-bit lanes to 4-bit integers. -/
  | vpk4 (n : Nat) (w : BitVec 64)
  /-- R264. Vector compare writing a predicate. -/
  | vcmp (n : Nat) (w : BitVec 64)
  /-- R264. Predicate and. -/
  | pand (n : Nat) (w : BitVec 64)
  /-- R264. Predicate or. -/
  | por (n : Nat) (w : BitVec 64)
  /-- R264. Predicate xor. -/
  | pxor (n : Nat) (w : BitVec 64)
  /-- R264. Predicate not. -/
  | pnot (n : Nat) (w : BitVec 64)
  /-- R264. Predicate from scalar. -/
  | pfroms (n : Nat) (w : BitVec 64)
  /-- R264. Scalar from predicate. -/
  | ptos (n : Nat) (w : BitVec 64)
  /-- R265. Fixed-order sum reduction of guarded lanes. -/
  | vredsum (n : Nat) (w : BitVec 64)
  /-- R265. Maximum reduction of guarded lanes. -/
  | vredmax (n : Nat) (w : BitVec 64)
  /-- R265. Index of the maximum guarded lane. -/
  | vredmaxi (n : Nat) (w : BitVec 64)
  /-- R265. Extract one lane to a scalar. -/
  | vext (n : Nat) (w : BitVec 64)
  /-- R267. Matrix multiply-accumulate into a tile. -/
  | mmac (n : Nat) (w : BitVec 64)
  /-- R267. Zero a tile. -/
  | mzero (n : Nat) (w : BitVec 64)
  /-- R267. Load a tile from local memory. -/
  | mld (n : Nat) (w : BitVec 64)
  /-- R267. Store a tile to local memory. -/
  | mst (n : Nat) (w : BitVec 64)
  /-- R274. Issue a fabric read into local memory. -/
  | fld (n : Nat) (w : BitVec 64)
  /-- R274. Issue a fabric write from local memory. -/
  | fst (n : Nat) (w : BitVec 64)
  /-- R274. Issue a masked line write. -/
  | fstm (n : Nat) (w : BitVec 64)
  /-- R274. Issue a fabric atomic. -/
  | fatom (n : Nat) (w : BitVec 64)
  /-- R274. Issue a 16-byte compare-and-swap. -/
  | fcas16 (n : Nat) (w : BitVec 64)
  /-- R271. Set a completion counter's value and status. -/
  | cset (n : Nat) (w : BitVec 64)
  /-- R271. Increment a completion counter, locally or on another core. -/
  | cinc (n : Nat) (w : BitVec 64)
  /-- R270. An increment reaches a counter and is applied with its status, ending any satisfied cwait. -/
  | incrementArrival (n cn amount status : Nat)
  /-- R271. Wait until a counter reaches a target or the timeout passes. -/
  | cwait (n : Nat) (w : BitVec 64)
  /-- R271. A cwait's timeout elapses and it ends with sd = 1. -/
  | cwaitTimeout (n : Nat)
  /-- R271. Read a counter's value and status. -/
  | cget (n : Nat) (w : BitVec 64)
  /-- R279. Bind a stream handle to a ring. -/
  | hbind (n : Nat) (w : BitVec 64)
  /-- R281. Unbind a stream handle, abandoning waiters and discarding attached output. -/
  | hfree (n : Nat) (w : BitVec 64)
  /-- R280. Acquire filled slots, writing sd when available. -/
  | hacq (n : Nat) (w : BitVec 64)
  /-- R280. Release consumed slots. -/
  | hrel (n : Nat) (w : BitVec 64)
  /-- R280. Reserve free slots for a core producer. -/
  | hres (n : Nat) (w : BitVec 64)
  /-- R280. Publish produced slots. -/
  | hpub (n : Nat) (w : BitVec 64)
  /-- R282. Send a core's contribution to a collective's owner. -/
  | ccontrib (n : Nat) (w : BitVec 64)
  /-- R283. Send a lookup request to the gather unit with a result handle. -/
  | gissue (n : Nat) (w : BitVec 64)
  /-- R284. Post a work request onto a queue pair's send queue. -/
  | qpost (n : Nat) (w : BitVec 64)
  /-- R285. Wait for a beat, or proceed at once with late set. -/
  | twait (n : Nat) (w : BitVec 64)
  /-- R285. The awaited beat starts and the waiting core resumes issue. -/
  | twaitWake (n : Nat)
  /-- R286. Schedule a task push at a beat. -/
  | tlaunch (n : Nat) (w : BitVec 64)
  /-- R286. At its beat a pending launch pushes its task and increments its counter. -/
  | launch (n k : Nat)
  /-- R277. Wait for the snapshot of issued entries to retire and report the worst status. -/
  | ffence (n : Nat) (w : BitVec 64)
  /-- R288. Freeze the part if permitted for the tenant, else fault. -/
  | freeze (n : Nat) (w : BitVec 64)
  /-- R298. A BAR4 doorbell write advances a ring count after tenant and window checks. -/
  | doorbell (fn v : Nat)
  /-- R299. A doorbell message from an endpoint is applied as a doorbell. -/
  | qpDoorbell (d : Nat) (m : Msg)
  /-- R305. The send queue starts its next work request in ring order once any chain condition holds. -/
  | workRequestStart (qpn : Nat)
  /-- R305. A chained work request waiting past wait_timeout completes with TIMEOUT. -/
  | waitTimeout (qpn : Nat)
  /-- R302. A target classifies a write packet by psn and applies it after the region check. -/
  | rmaWrite (d : Nat) (m : Msg)
  /-- R306. A target performs a read and returns RMA_READ_DATA. -/
  | rmaRead (d : Nat) (m : Msg)
  /-- R306. A target consumes a receive work request and writes the data and receive record. -/
  | rmaSend (d : Nat) (m : Msg)
  /-- R304. An initiator places read data, completing the READ when all bytes arrive. -/
  | rmaReadData (d : Nat) (m : Msg)
  /-- R303. An initiator releases acknowledged packets and completes their work requests. -/
  | rmaAck (d : Nat) (m : Msg)
  /-- R303. An initiator resends from the named psn, or completes with the NAK's error status. -/
  | rmaNak (d : Nat) (m : Msg)
  /-- R304. No acknowledgement within ack_timeout resends from una_psn; at retry_limit the connection enters ERROR. -/
  | ackTimeout (qpn : Nat)
  /-- R291. A command allocates a connection context. -/
  | createQp (fn target : Nat)
  /-- R310. A command moves a connection to RESET, INIT or ACTIVE. -/
  | modifyQp (fn target : Nat)
  /-- R310. A command destroys a connection in RESET. -/
  | destroyQp (fn target : Nat)
  /-- R291. A command returns a connection context. -/
  | queryQp (fn target : Nat)
  /-- R307. A command creates a completion queue. -/
  | createCq (fn target : Nat)
  /-- R307. A command destroys a completion queue. -/
  | destroyCq (fn target : Nat)
  /-- R293. A command registers a region entry with a new tag. -/
  | regRegion (fn target : Nat)
  /-- R295. A command clears a region entry so new checks fail at once. -/
  | invalRegion (fn target : Nat)
  /-- R295. Every packet checked against the cleared entry has been performed and the command completes. -/
  | invalRegionDone (key : Nat)
  /-- R293. A command allocates a protection domain. -/
  | allocPd (fn target : Nat)
  /-- R293. A command frees a protection domain. -/
  | freePd (fn target : Nat)
  /-- R325. An ingress expander checks a consumed compressible message against its stream and writes its blocks and tags into the ring. -/
  | expansion (p : Nat) (m : Msg)
  /-- R235. An expander waiting for free ring slots resumes once the consumer releases them. -/
  | expansionResume (n h : Nat)
  /-- R330. A command validates a code table and makes the staged stream the current generation. -/
  | load (fn stream die : Nat)
  /-- R330. A command changes a stream's delivery fields at the next message boundary. -/
  | config (fn stream die : Nat)
  /-- R330. A command invalidates a stream at the next message boundary. -/
  | clear (fn stream die : Nat)
  /-- R333. A CREATE command installs a collective descriptor, or is refused. -/
  | collectiveCreate (fn slot : Nat)
  /-- R334. A command writes an owner entry and binds its expansion handle. -/
  | owner (fn slot index : Nat)
  /-- R335. A command writes a member entry. -/
  | member (fn slot index : Nat)
  /-- R340. A command schedules step s at launch beat b. -/
  | collStep (fn slot : Nat)
  /-- R354. A DESTROY command frees an IDLE collective's slot and unbinds its handles. -/
  | collectiveDestroy (fn slot : Nat)
  /-- R340. At the launch beat the step opens and any periodic next step is scheduled. -/
  | stepOpen (slot : Nat)
  /-- R343. An owner classifies a compressed contribution, sums its blocks and acknowledges it. -/
  | clContrib (d : Nat) (m : Msg)
  /-- R343. An owner sums a plain contribution and acknowledges it. -/
  | clContribPlain (d : Nat) (m : Msg)
  /-- R338. A contributor's entry retires on the owner's acknowledgement. -/
  | clAck (d : Nat) (m : Msg)
  /-- R335. An Apold delivers a compressed result to its core members' rings. -/
  | clResult (d : Nat) (m : Msg)
  /-- R335. An Apold delivers a plain result to its core members' rings. -/
  | clResultPlain (d : Nat) (m : Msg)
  /-- R335. An Apold increments its core members' counters with the step status. -/
  | clDone (d : Nat) (m : Msg)
  /-- R352. update_ctr reaches 1 and the unit sends the group's results. -/
  | updateDone (slot owner group : Nat)
  /-- R352. A group not notified within update_timeout fails with TIMEOUT. -/
  | updateTimeout (slot owner group : Nat)
  /-- R347. At launch plus timeout every incomplete chunk fails with TIMEOUT. -/
  | stepTimeout (slot : Nat)
  /-- R357. A CREATE command installs an EMBED or KV table, or is refused. -/
  | tableCreate (fn slot : Nat)
  /-- R368. A command advances an EMBED table's current generation. -/
  | advance (fn slot : Nat)
  /-- R357. A DESTROY command frees a table and removes its cached rows. -/
  | tableDestroy (fn slot : Nat)
  /-- R363. The serving unit checks a bag lookup and queues it for a combine core. -/
  | gaLookup (d : Nat) (m : Msg)
  /-- R363. A waiting lookup or filter gets a free core and its reads and fetches begin. -/
  | lookupDispatch (d : Nat)
  /-- R365. A pass's counter reaches 1 and the next pass is pushed or the result delivered. -/
  | passDone (d id : Nat)
  /-- R364. A pass not notified within task_timeout fails the request with TIMEOUT. -/
  | taskTimeout (d id : Nat)
  /-- R370. The unit applies row update records in order and answers GA_UPDATE_ACK. -/
  | gaUpdate (d : Nat) (m : Msg)
  /-- R373. The unit scores KV block summaries and returns the top k blocks. -/
  | gaFilter (d : Nat) (m : Msg)
  /-- R366. A forwarding Apold writes and publishes a remote lookup's slot set. -/
  | gaFwdResult (d : Nat) (m : Msg)
  /-- R367. Every decay period every row-cache frequency count is halved. -/
  | cacheDecay
  /-- R445. RESET_N or power-on resets every block, and the boot ROM starts. -/
  | partReset (cause : Nat)
  /-- R445. Writing 0xA5 to GLB_CTL.part_reset starts a part reset. -/
  | softwarePartReset (key : Nat)
  /-- R445. PERST# makes a part reset or an endpoint reset, by perst_part. -/
  | perst
  /-- R445. Hot reset or link down resets PCI Express state, mailboxes and bounce sessions only. -/
  | endpointReset
  /-- R445. FLR of a function resets that function's endpoint state and bounce session. -/
  | functionLevelReset (f : Nat)
  /-- R385. The boot ROM finishes checking the image and record, sets measurements and jumps to firmware, or enters recovery. -/
  | bootCheckDone
  /-- R444. With a valid record and every channel resolved, N is fixed and the image store taken. -/
  | poolBringup (spds : List (Option Spd))
  /-- R386. In recovery an image is checked, written, read back, and boot restarts. -/
  | fwPush (image : List Byte)
  /-- R391. A new image is streamed into flash, checked and read back. -/
  | fwWrite (fn : Nat) (image : List Byte)
  /-- R391. A hand-over to the staged image is scheduled at a beat. -/
  | fwHandover (fn beat : Nat)
  /-- R391. At the beat the Marionette restarts into the new resident code and MS5 is extended. -/
  | handover
  /-- R391. The new firmware reports ready and running_version changes. -/
  | handoverDone
  /-- R391. New firmware not ready by b + 10 ms makes the hub restart the old firmware. -/
  | handoverTimeout
  /-- R383. A new configuration record is written to flash, effective at the next reset. -/
  | configWrite (fn : Nat) (record : List Byte)
  /-- R384. An endorsement is written to flash. -/
  | endorseWrite (fn : Nat) (record : List Byte)
  /-- R393. A signed debug authorisation opens instruments and extends MS4, replacing the nonce. -/
  | debugAuth (fn : Nat) (record : List Byte)
  /-- R249. A program image is checked and copied to every READY cluster of its tenant. -/
  | imageLoad (fn tenant index : Nat) (image : List Byte)
  /-- R249. A program image not in use is removed. -/
  | imageUnload (fn tenant index : Nat)
  /-- R390. An evidence request is checked and queued for signing, generating a KEM key pair when asked. -/
  | evidenceReq (fn scope : Nat) (kem : Bool) (nonce : Nat)
  /-- R389. Signed evidence is formed and returned. -/
  | evidenceRsp
  /-- R398. The Apold decapsulates, derives bounce keys and opens the session. -/
  | sessionFinish (fn ct : Nat)
  /-- R398. A pending decapsulation key is discarded after 1 s. -/
  | dkExpiry (fn : Nat)
  /-- R395. A FREE tenant becomes ACTIVE with a new board key. -/
  | tenantCreate (t : Nat)
  /-- R395. An ACTIVE tenant becomes RETIRING. -/
  | tenantRetire (t : Nat)
  /-- R395. A RETIRING tenant whose objects reach 0 has its key erased and becomes FREE. -/
  | tenantFreed (t : Nat)
  /-- R395. A tenant's board key is replaced when no slot carries its tag. -/
  | keyRotate (t : Nat)
  /-- R402. A SEC_ISO.strict write schedules strict isolation, or is refused by the slices condition. -/
  | strictIsolation (v : Nat)
  /-- R402. At the next beat start the isolation change takes effect on both dies. -/
  | strictApply
  /-- R400. A BB_IN_PROD write announces new inbound records. -/
  | bounceDoorbell (fn v : Nat)
  /-- R400. The bounce engine authenticates an inbound record in seq order and issues its requests, or faults the session. -/
  | inboundRecord (fn : Nat) (rec : List Byte)
  /-- R440. After all responses arrive, an encrypted outbound record and the mirror count are written. -/
  | outboundRecord (fn : Nat)
  /-- R440. The host's consumed count frees output space and stalled processing resumes. -/
  | bbOutCons (fn v : Nat)
  /-- R437. A BAR2 read is turned into tracked RD requests and completed by R438. -/
  | bar2Read (fn off len : Nat)
  /-- R437. A BAR2 write is turned into WR requests in order, failures recorded in BAR2_ERR. -/
  | bar2Write (fn off : Nat) (data : List Byte)
  /-- R441. Unmasking a vector with its Pending Bit set sends its message. -/
  | msixUnmask (fn vec : Nat)
  /-- R452. An MRN_DOORBELL write starts a mailbox request, or is ignored as an overrun. -/
  | mailboxDoorbell (fn seq : Nat) (bulk : List Byte)
  /-- R453. The manager device applies or relays a fabric-manager command. -/
  | fmCommand (target op : Nat) (operands : List Byte)
  /-- R453. The manager device verifies and sends an expel. -/
  | fmExpel (body : List Byte)
  /-- R453. Return the oldest unfetched report or acknowledgement. -/
  | reportFetch
  /-- R405. A fatal event disables every port, stops agents and holds the error. -/
  | fatalError (block cause source : Nat)
  /-- R415. A worker takes relayed updates in seq order, applies them and acknowledges. -/
  | mgUpdate (m : Msg)
  /-- R415. The manager device retires an acknowledged update and passes its status on. -/
  | mgAck (m : Msg)
  /-- R415. An unacknowledged update is resent after 1 ms; after 16 sends the worker is reported unreachable. -/
  | updateResend (eid seq : Nat)
  /-- R481. The manager device takes a worker report and acknowledges it. -/
  | mgReport (m : Msg)
  /-- R416. A worker drops an acknowledged report. -/
  | mgReportAck (m : Msg)
  /-- R416. An unacknowledged report is resent every 1 ms. -/
  | reportResend (seq : Nat)
  /-- R418. An Apold verifies an expel's signatures and answers MG_EXPEL_ACK. -/
  | mgExpel (body : List Byte) (src : Nat)
  /-- R419. An accepted expel disables ports, expires leases, replaces the manager or promotes a puppet. -/
  | expelApply
  /-- R453. The manager device holds another Apold's expel acknowledgement for fetch. -/
  | mgExpelAck (m : Msg)
  /-- R413. Image or record bytes are placed until the object's length is received. -/
  | mgFwData (m : Msg)
  /-- R412. The sender of firmware data takes the receiver's acknowledgement. -/
  | mgFwAck (m : Msg)
  /-- R388. A worker takes an evidence request over the management channel. -/
  | mgEvidReq (m : Msg)
  /-- R412. The manager device collects a worker's evidence. -/
  | mgEvidRsp (m : Msg)
  /-- R420. A primary and puppet pair, putting the primary's extents into COPYING. -/
  | puppetPair (primary puppet tc flow : Nat)
  /-- R424. The pairing ends; the primary releases withheld responses and the puppet frees its slots. -/
  | puppetBreak
  /-- R421. The primary reads its next chunk under lock and sends it as MG_SHADOW. -/
  | shadowCopy (d : Nat)
  /-- R422. A puppet writes shadow data or applies mirrored state and acknowledges. -/
  | mgShadow (m : Msg)
  /-- R422. The primary releases withheld responses or marks a chunk copied. -/
  | mgShadowAck (m : Msg)
  /-- R424. A shadow acknowledgement outstanding past ack_timeout sets puppet_stall. -/
  | puppetAckTimeout
  /-- R428. A command schedules a lossless handoff to the puppet at a beat. -/
  | handoff (beat : Nat)
  /-- R428. At the beat the primary refuses with STALE_MAP and sends the final marker. -/
  | handoffSwitch
  /-- R429. A RAS_SCRUB_SCHED write schedules a patrol pass at a beat. -/
  | scrubSchedule (v : Nat)
  /-- R429. At its beat a scheduled patrol pass begins over its stack or channel. -/
  | scrubPassStart
  /-- R430. FREEZE_N held low for 20 ns stops every clock and puts memory in self-refresh. -/
  | freezePin (ns : Nat)
  /-- R447. PWR_REST_CTL.request schedules Rest at enter_beat. -/
  | restRequest (v : Nat)
  /-- R447. At enter_beat the part enters Rest if every condition holds, else records RETRY. -/
  | restEntry
  /-- R449. A wake cause in Rest restarts clocks, memory and port retraining. -/
  | wake (cause : Nat)
  /-- R449. Full service resumes and late launches and expiries are applied. -/
  | wakeComplete
  /-- R454. The I3C reset command starts a part reset. -/
  | i3cReset
  /-- R454. The I3C wake command wakes the part. -/
  | i3cWake
  /-- R49. The master's selected CRICKET_IN reference returns, TIM_STATUS.ref_lost clears and PPS-timed loads use the real edge again. -/
  | refRestored
  /-- R85. Loss of signal on only some of a port's active lanes narrows the port by R83, or sends it to RETRAIN when LCTL flits can no longer be exchanged. -/
  | laneSignalLoss (p mask : Nat) (lctl : Bool)
  /-- R446. The PCI Express link trains up and configuration requests are answered, with Request Retry Status until boot step 6. -/
  | pcieLinkUp
  /-- R454. An I3C SETDASA or ENTDAA command assigns the target its dynamic address. -/
  | dynamicAddressAssigned (a : Nat)
  deriving DecidableEq, Repr

end Sys2Proof
end

