-- ==== Sys2Proof/Machine/Float.lean ====
section
/-! DEFINITION. Floating point as the engines, the homes and the codec compute it: exact values, and one rounding to
nearest even into a format (R118, R236, R255). -/

namespace Sys2Proof.Machine

/-- A format: exponent and fraction bits; `ocp` marks E4M3, which has no infinity and one NaN per sign. -/
structure Fmt where
  eb : Nat
  mb : Nat
  ocp : Bool := false
  deriving DecidableEq, Repr

def fp64 : Fmt := { eb := 11, mb := 52 }
def fp32 : Fmt := { eb := 8, mb := 23 }
def bf16 : Fmt := { eb := 8, mb := 7 }
def fp16 : Fmt := { eb := 5, mb := 10 }
def e5m2 : Fmt := { eb := 5, mb := 2 }
def e4m3 : Fmt := { eb := 4, mb := 3, ocp := true }

/-- The width of a format in bits. -/
def Fmt.width (f : Fmt) : Nat := 1 + f.eb + f.mb

def Fmt.bias (f : Fmt) : Int := 2 ^ (f.eb - 1) - 1

/-- The exponent of the unit in the last place of a subnormal. -/
def Fmt.minUlp (f : Fmt) : Int := 1 - f.bias - f.mb

/-- A value: `fin n m e` is plus or minus m * 2^e. -/
inductive FV where
  | nan
  | inf (neg : Bool)
  | fin (neg : Bool) (m : Nat) (e : Int)
  deriving DecidableEq, Repr

/-- The default quiet NaN. -/
def Fmt.qnan (f : Fmt) : Nat := if f.ocp then 2 ^ (f.eb + f.mb) - 1 else (2 ^ f.eb - 1) <<< f.mb + 2 ^ (f.mb - 1)

def Fmt.signBit (f : Fmt) (neg : Bool) : Nat := b2n neg <<< (f.eb + f.mb)

def Fmt.infBits (f : Fmt) (neg : Bool) : Nat := f.signBit neg + (2 ^ f.eb - 1) <<< f.mb

/-- The largest finite encoding, without sign. -/
def Fmt.maxBits (f : Fmt) : Nat := if f.ocp then 2 ^ (f.eb + f.mb) - 2 else (2 ^ f.eb - 1) <<< f.mb - 1

/-- The value of an encoding. -/
def Fmt.decode (f : Fmt) (x : Nat) : FV :=
  let neg := bitAt x (f.eb + f.mb)
  let e := bitsOf x f.mb f.eb
  let m := bitsOf x 0 f.mb
  if f.ocp then
    if e = 2 ^ f.eb - 1 ∧ m = 2 ^ f.mb - 1 then .nan
    else if e = 0 then .fin neg m f.minUlp else .fin neg (m + 2 ^ f.mb) (f.minUlp + e - 1)
  else if e = 2 ^ f.eb - 1 then (if m = 0 then .inf neg else .nan)
  else if e = 0 then .fin neg m f.minUlp
  else .fin neg (m + 2 ^ f.mb) (f.minUlp + e - 1)

/-- m * 2^sh as a whole number, rounded to nearest even where bits are dropped. -/
def shiftRne (m : Nat) (sh : Int) : Nat :=
  if 0 ≤ sh then m <<< sh.toNat
  else
    let k := (-sh).toNat
    let q := m >>> k
    let r := m % 2 ^ k
    let half := 2 ^ (k - 1)
    if half < r ∨ (r = half ∧ q % 2 = 1) then q + 1 else q

/-- Whether an overflow saturates, and otherwise what R236 gives: infinity, or NaN in E4M3. -/
def Fmt.overflow (f : Fmt) (sat neg : Bool) : Nat :=
  if sat then f.signBit neg + f.maxBits else if f.ocp then f.qnan else f.infBits neg

/-- Round m * 2^e into a format, once, to nearest even; subnormals are kept. -/
def Fmt.round (f : Fmt) (sat neg : Bool) (m : Nat) (e : Int) : Nat :=
  if m = 0 then f.signBit neg
  else
    let q := max (e + (Nat.log2 m + 1) - (f.mb + 1)) f.minUlp
    let r := shiftRne m (e - q)
    let top := decide (r = 2 ^ (f.mb + 1))
    let r := if top then 2 ^ f.mb else r
    let q := if top then q + 1 else q
    if r < 2 ^ f.mb then f.signBit neg + r
    else
      let field := (q - f.minUlp + 1).toNat
      let bits := field <<< f.mb + (r - 2 ^ f.mb)
      if f.maxBits < bits then f.overflow sat neg else f.signBit neg + bits

/-- The encoding of a value. -/
def Fmt.encode (f : Fmt) (sat : Bool) : FV → Nat
  | .nan => f.qnan
  | .inf n => if f.ocp ∨ sat then f.overflow sat n else f.infBits n
  | .fin n m e => f.round sat n m e

/-- Signed exact sum of two finite values. -/
def addFin (n1 : Bool) (m1 : Nat) (e1 : Int) (n2 : Bool) (m2 : Nat) (e2 : Int) : FV :=
  let e := min e1 e2
  let a : Int := (m1 <<< (e1 - e).toNat : Nat)
  let b : Int := (m2 <<< (e2 - e).toNat : Nat)
  let s := (if n1 then -a else a) + (if n2 then -b else b)
  if s = 0 then .fin (n1 && n2) 0 e else .fin (decide (s < 0)) s.natAbs e

namespace FV

def neg : FV → FV
  | nan => nan
  | inf n => inf (!n)
  | fin n m e => fin (!n) m e

def abs : FV → FV
  | nan => nan
  | inf _ => inf false
  | fin _ m e => fin false m e

def isNan : FV → Bool
  | nan => true
  | _ => false

def add : FV → FV → FV
  | nan, _ => nan
  | _, nan => nan
  | inf a, inf b => if a = b then inf a else nan
  | inf a, _ => inf a
  | _, inf b => inf b
  | fin n1 m1 e1, fin n2 m2 e2 => addFin n1 m1 e1 n2 m2 e2

def sub (a b : FV) : FV := a.add b.neg

def mul : FV → FV → FV
  | nan, _ => nan
  | _, nan => nan
  | inf a, inf b => inf (a != b)
  | inf a, fin b m _ => if m = 0 then nan else inf (a != b)
  | fin a m _, inf b => if m = 0 then nan else inf (a != b)
  | fin a m1 e1, fin b m2 e2 => fin (a != b) (m1 * m2) (e1 + e2)

def fma (a b c : FV) : FV := (a.mul b).add c

/-- Quotient to 140 bits below the operands' scale, with a sticky last bit: exact enough for one correct rounding. -/
def div : FV → FV → FV
  | nan, _ => nan
  | _, nan => nan
  | inf _, inf _ => nan
  | inf a, fin b _ _ => inf (a != b)
  | fin a _ _, inf b => fin (a != b) 0 0
  | fin a m1 e1, fin b m2 e2 =>
    if m2 = 0 then (if m1 = 0 then nan else inf (a != b))
    else
      let x := m1 <<< 140
      fin (a != b) (2 * (x / m2) + b2n (decide (x % m2 ≠ 0))) (e1 - e2 - 141)

/-- The whole square root of `x`, `n` bits of it from the top. -/
def isqrtFrom (x : Nat) : Nat → Nat → Nat
  | 0, r => r
  | n + 1, r =>
    let t := r + 2 ^ n
    isqrtFrom x n (if t * t ≤ x then t else r)

def isqrt (x : Nat) : Nat := isqrtFrom x (Nat.log2 x / 2 + 1) 0

/-- Square root to 140 bits below the operand's scale, with a sticky last bit. -/
def sqrt : FV → FV
  | nan => nan
  | inf n => if n then nan else inf false
  | fin n m e =>
    if m = 0 then fin n 0 e
    else if n then nan
    else
      let odd := decide (e % 2 ≠ 0)
      let x := (if odd then 2 * m else m) <<< 280
      let r := isqrt x
      let e' := ((if odd then e - 1 else e) - 280) / 2
      fin false (2 * r + b2n (decide (r * r ≠ x))) (e' - 1)

/-- a < b and a = b on ordered values; both are false on NaN. -/
def lt : FV → FV → Bool
  | nan, _ => false
  | _, nan => false
  | inf a, inf b => a && !b
  | inf a, fin _ _ _ => a
  | fin _ _ _, inf b => !b
  | fin n1 m1 e1, fin n2 m2 e2 =>
    match addFin n1 m1 e1 (!n2) m2 e2 with
    | fin s m _ => s && decide (m ≠ 0)
    | _ => false

def eq : FV → FV → Bool
  | nan, _ => false
  | _, nan => false
  | inf a, inf b => a == b
  | inf _, fin _ _ _ => false
  | fin _ _ _, inf _ => false
  | fin n1 m1 e1, fin n2 m2 e2 =>
    match addFin n1 m1 e1 (!n2) m2 e2 with
    | fin _ m _ => decide (m = 0)
    | _ => false

def isNeg : FV → Bool
  | nan => false
  | inf n => n
  | fin n _ _ => n

def isZero : FV → Bool
  | fin _ m _ => decide (m = 0)
  | _ => false

/-- An integer as a value. -/
def ofInt (x : Int) : FV := fin (decide (x < 0)) x.natAbs 0

/-- The integer nearest a finite value, ties to even. -/
def toInt (n : Bool) (m : Nat) (e : Int) : Int :=
  let r := shiftRne m e
  if n then -(r : Int) else r

/-- The integer toward zero. -/
def toIntZero (n : Bool) (m : Nat) (e : Int) : Int :=
  let r := if 0 ≤ e then m <<< e.toNat else m >>> (-e).toNat
  if n then -(r : Int) else r

end FV

/-- The arithmetic of one format: decode, compute exactly, round once. -/
def Fmt.add (f : Fmt) (a b : Nat) : Nat := f.encode false ((f.decode a).add (f.decode b))
def Fmt.sub (f : Fmt) (a b : Nat) : Nat := f.encode false ((f.decode a).sub (f.decode b))
def Fmt.mul (f : Fmt) (a b : Nat) : Nat := f.encode false ((f.decode a).mul (f.decode b))
def Fmt.fma (f : Fmt) (a b c : Nat) : Nat := f.encode false ((f.decode a).fma (f.decode b) (f.decode c))

end Sys2Proof.Machine
end

