-- ==== Sys2Proof/Config.lean ====
section
/-! DEFINITION. What the manual leaves open, and the functions it names by standard only. None of these constants has
a body, so no statement can rest on a value of one. -/

namespace Sys2Proof

/-- Free value number `n` (`State.fresh`): any number. Used where the manual leaves a result, a choice or a random
draw open; the user reduces it to the width or the range the manual gives. -/
opaque Config.freeValue : Nat → Nat

/-- Where in its bound of 1 ns the copy of a fabric die lies (R24), by die and elapsed time. -/
opaque Config.dieOffset : Nat → Nat → Nat

/-- Whether a slewing correction of 1/256 ns is made in this nanosecond (R45 bounds the rate, not the instants). -/
opaque Config.slewNow : Nat → Bool

/-- The correction of the learned frequency that falls due in a nanosecond, reduced to -1, 0 or +1 unit of 1/256 ns. -/
opaque Config.freqNow : Int → Nat → Int

/-- The frequency correction learned from an offset (R45 gives no law). -/
opaque Config.learnFreq : Int → Int → Int

/-- The cause and source codes a block writes in its log records, by block and kind of error (R409 names neither). -/
opaque Config.logCause : Nat → Nat → Nat
opaque Config.logSource : Nat → Nat → Nat

/-- The message type that carries the UNSUPPORTED completion of a request of an unallotted type (R67 names none). -/
opaque Config.refusalType : Nat → Nat

/-- What this part's CAPS declares of itself where no rule says (R74): vendor code, lender, caching. -/
opaque Config.vendor : Nat
opaque Config.capsLender : Bool
opaque Config.capsCaching : Bool

/-- The endpoint identifier that the composition map gives for the home of another node (R112): no register holds it. -/
opaque Config.homeEid : Nat → Nat

/-- Whether an endpoint identifier names an Apold, not an endpoint (R366 tells the two apart; no register does). -/
opaque Config.isApold : Nat → Bool

/-- SHA-256 (R377), of a byte string, as a number of 256 bits. -/
opaque Config.sha256 : List Byte → Nat

/-- An SLH-DSA-SHA2-128s signature over a byte string verifies under a public key and a context (R377, R378). -/
opaque Config.sigOk : Nat → Nat → List Byte → List Byte → Bool

/-- The signature the identity key makes (R384, hedged: it also depends on a fresh number). -/
opaque Config.sign : Nat → List Byte → Nat

/-- The identity public key recovered at power-up (R384). -/
opaque Config.identityPk : Nat

/-- Whether the device secret's check value matches the helper data (R384). -/
opaque Config.pufOk : List Byte → Bool

/-- The boot ROM's SHA-256 (R387). -/
opaque Config.romDigest : Nat

/-- The Evuijo public keys 0 and 1 held in the boot ROM (R380). -/
opaque Config.vendorPk : Nat → Nat

/-- ML-KEM-1024: the encapsulation key drawn with a fresh number, and the shared secret of a ciphertext (R398). -/
opaque Config.kemKey : Nat → Nat
opaque Config.kemSecret : Nat → Nat → Nat

/-- HKDF-SHA-256 giving the 88 bytes of a session (R398): secret, nonce, function, key digest. -/
opaque Config.bounceKeys : Nat → Nat → Nat → Nat → Nat

/-- AES-256-GCM (R399): whether a tag verifies, the plain text, and the sealed text with its tag; arguments are the
session keys, the direction, seq, the additional data and the text. -/
opaque Config.gcmOk : Nat → Nat → Nat → List Byte → List Byte → Bool
opaque Config.gcmOpen : Nat → Nat → Nat → List Byte → List Byte → List Byte
opaque Config.gcmSeal : Nat → Nat → Nat → List Byte → List Byte → List Byte

/-- The hash that chooses a row's cluster, its two sketch counters and the sampled victims (R367 names no function). -/
opaque Config.rowHash : Nat → Nat → Nat → Nat

end Sys2Proof
end

