-- ==== Sys2Proof/Machine/Regs.lean ====
section
/-! DEFINITION. The register fields of BAR0, one definition per field of the register tables of spec/02 to spec/19:
block, offset of the first copy, strides and counts of its indices, bits, access type (R9), reset value, and the
values that are not reserved encodings (R11). -/

namespace Sys2Proof.Machine

/-- The access types of R9. -/
inductive Acc where
  | rw | ro | w1c | w1s | wo | rwl
  deriving DecidableEq, Repr

/-- A reset value: one number for every copy, or a rule the register's table gives by index. -/
inductive Rst where
  | val (v : Nat)
  | firstLane
  | quota
  | mark
  | spray
  deriving DecidableEq, Repr

/-- A field of a register. `num` is its row in the list of all fields, which is the field's place in `State.regs`;
`least` and `most` bound the encodings that are not reserved (R11); `perFn` marks the registers of which every
function has its own copy (R435), whose copies carry the function number as a last index. -/
structure Fld where
  num : Nat
  block : Nat
  off : Nat
  strides : List Nat
  counts : List Nat
  lo : Nat
  w : Nat
  acc : Acc
  rst : Rst
  least : Nat
  most : Nat
  perFn : Bool
  deriving DecidableEq, Repr

/-- TIM_CTL.role, bits [1:0] (02). -/
def R.TIM_CTL_role : Fld := ⟨0, 2, 0x0, [], [], 0, 2, .rw, .val 0x0, 0, 0x1, false⟩

/-- TIM_CTL.ref_sel, bits [3:2] (02). -/
def R.TIM_CTL_ref_sel : Fld := ⟨1, 2, 0x0, [], [], 2, 2, .rw, .val 0x0, 0, 0x2, false⟩

/-- TIM_CTL.cricket_out_en, bits [4:4] (02). -/
def R.TIM_CTL_cricket_out_en : Fld := ⟨2, 2, 0x0, [], [], 4, 1, .rw, .val 0x0, 0, 0x1, false⟩

/-- TIM_CTL.master_gen, bits [31:16] (02). -/
def R.TIM_CTL_master_gen : Fld := ⟨3, 2, 0x0, [], [], 16, 16, .rw, .val 0x0, 0, 0xffff, false⟩

/-- TIM_STATUS.state, bits [2:0] (02). -/
def R.TIM_STATUS_state : Fld := ⟨4, 2, 0x8, [], [], 0, 3, .ro, .val 0x0, 0, 0x7, false⟩

/-- TIM_STATUS.ref_lost, bits [3:3] (02). -/
def R.TIM_STATUS_ref_lost : Fld := ⟨5, 2, 0x8, [], [], 3, 1, .ro, .val 0x0, 0, 0x1, false⟩

/-- TIM_STATUS.master_conflict, bits [4:4] (02). -/
def R.TIM_STATUS_master_conflict : Fld := ⟨6, 2, 0x8, [], [], 4, 1, .ro, .val 0x0, 0, 0x1, false⟩

/-- TIM_STATUS.parent_port, bits [15:8] (02). -/
def R.TIM_STATUS_parent_port : Fld := ⟨7, 2, 0x8, [], [], 8, 8, .ro, .val 0x0, 0, 0xff, false⟩

/-- TIM_STATUS.hop_depth, bits [19:16] (02). -/
def R.TIM_STATUS_hop_depth : Fld := ⟨8, 2, 0x8, [], [], 16, 4, .ro, .val 0x0, 0, 0xf, false⟩

/-- TIM_STATUS.followed_gen, bits [47:32] (02). -/
def R.TIM_STATUS_followed_gen : Fld := ⟨9, 2, 0x8, [], [], 32, 16, .ro, .val 0x0, 0, 0xffff, false⟩

/-- TIM_FT.ft, bits [63:0] (02). -/
def R.TIM_FT_ft : Fld := ⟨10, 2, 0x10, [], [], 0, 64, .ro, .val 0x0, 0, 0xffffffffffffffff, false⟩

/-- TIM_SNAP.capture, bits [0:0] (02). -/
def R.TIM_SNAP_capture : Fld := ⟨11, 2, 0x18, [], [], 0, 1, .wo, .val 0x0, 0, 0x1, false⟩

/-- TIM_SNAP_FT.ft, bits [63:0] (02). -/
def R.TIM_SNAP_FT_ft : Fld := ⟨12, 2, 0x20, [], [], 0, 64, .ro, .val 0x0, 0, 0xffffffffffffffff, false⟩

/-- TIM_FT_SET.value, bits [63:0] (02). -/
def R.TIM_FT_SET_value : Fld := ⟨13, 2, 0x28, [], [], 0, 64, .rw, .val 0x0, 0, 0xffffffffffffffff, false⟩

/-- TIM_FT_LOAD.cmd, bits [1:0] (02). -/
def R.TIM_FT_LOAD_cmd : Fld := ⟨14, 2, 0x30, [], [], 0, 2, .wo, .val 0x0, 0, 0x3, false⟩

/-- TIM_PPS_PHASE.phase_ns, bits [29:0] (02). -/
def R.TIM_PPS_PHASE_phase_ns : Fld := ⟨15, 2, 0x38, [], [], 0, 30, .rw, .val 0x0, 0, 0x3b9ac9ff, false⟩

/-- TIM_OFFSET.o, bits [31:0] (02). -/
def R.TIM_OFFSET_o : Fld := ⟨16, 2, 0x40, [], [], 0, 32, .ro, .val 0x0, 0, 0xffffffff, false⟩

/-- TIM_PARENT_CFG.port, bits [7:0] (02). -/
def R.TIM_PARENT_CFG_port : Fld := ⟨17, 2, 0x48, [], [], 0, 8, .rw, .val 0x0, 0, 0xff, false⟩

/-- TIM_PARENT_CFG.pin, bits [8:8] (02). -/
def R.TIM_PARENT_CFG_pin : Fld := ⟨18, 2, 0x48, [], [], 8, 1, .rw, .val 0x0, 0, 0x1, false⟩

/-- TIM_HOLD_LIMIT.beats, bits [31:0] (02). -/
def R.TIM_HOLD_LIMIT_beats : Fld := ⟨19, 2, 0x50, [], [], 0, 32, .rw, .val 0x17d78, 0, 0xffffffff, false⟩

/-- TIM_EVT.events, bits [4:0] (02). -/
def R.TIM_EVT_events : Fld := ⟨20, 2, 0x58, [], [], 0, 5, .w1c, .val 0x0, 0, 0x1f, false⟩

/-- TIM_INT_EN.enables, bits [4:0] (02). -/
def R.TIM_INT_EN_enables : Fld := ⟨21, 2, 0x60, [], [], 0, 5, .rw, .val 0x0, 0, 0x1f, false⟩

/-- TIM_LATE_COUNT.count, bits [31:0] (02). -/
def R.TIM_LATE_COUNT_count : Fld := ⟨22, 2, 0x68, [], [], 0, 32, .ro, .val 0x0, 0, 0xffffffff, false⟩

/-- TIM_DROP_COUNT.count, bits [31:0] (02). -/
def R.TIM_DROP_COUNT_count : Fld := ⟨23, 2, 0x70, [], [], 0, 32, .ro, .val 0x0, 0, 0xffffffff, false⟩

/-- TIM_PORT_DELAY[n].delay, bits [23:0] (02). -/
def R.TIM_PORT_DELAY_delay : Fld := ⟨24, 2, 0x1000, [8], [256], 0, 24, .ro, .val 0x0, 0, 0xffffff, false⟩

/-- TIM_PORT_DELAY[n].asym, bits [47:32] (02). -/
def R.TIM_PORT_DELAY_asym : Fld := ⟨25, 2, 0x1000, [8], [256], 32, 16, .rw, .val 0x0, 0, 0xffff, false⟩

/-- PRT_LANE_CFG[n].reach, bits [0:0] (03). -/
def R.PRT_LANE_CFG_reach : Fld := ⟨26, 3, 0x10000, [8], [512], 0, 1, .rw, .val 0x0, 0, 0x1, false⟩

/-- PRT_LANE_CFG[n].ser_limit, bits [31:16] (03). -/
def R.PRT_LANE_CFG_ser_limit : Fld := ⟨27, 3, 0x10000, [8], [512], 16, 16, .rw, .val 0x800, 0, 0xffff, false⟩

/-- PRT_PORT_CFG[p].first_lane, bits [8:0] (03). -/
def R.PRT_PORT_CFG_first_lane : Fld := ⟨28, 3, 0x20000, [32], [256], 0, 9, .rw, .firstLane, 0, 0x1ff, false⟩

/-- PRT_PORT_CFG[p].width, bits [10:9] (03). -/
def R.PRT_PORT_CFG_width : Fld := ⟨29, 3, 0x20000, [32], [256], 9, 2, .rw, .val 0x3, 0, 0x3, false⟩

/-- PRT_PORT_CFG[p].precode_en, bits [11:11] (03). -/
def R.PRT_PORT_CFG_precode_en : Fld := ⟨30, 3, 0x20000, [32], [256], 11, 1, .rw, .val 0x0, 0, 0x1, false⟩

/-- PRT_PORT_CFG[p].replay_timeout, bits [39:32] (03). -/
def R.PRT_PORT_CFG_replay_timeout : Fld := ⟨31, 3, 0x20000, [32], [256], 32, 8, .rw, .val 0x40, 1, 0xff, false⟩

/-- PRT_PORT_CFG[p].retry_limit, bits [43:40] (03). -/
def R.PRT_PORT_CFG_retry_limit : Fld := ⟨32, 3, 0x20000, [32], [256], 40, 4, .rw, .val 0x8, 1, 0xf, false⟩

/-- PRT_PORT_CTL[p].enable, bits [0:0] (03). -/
def R.PRT_PORT_CTL_enable : Fld := ⟨33, 3, 0x20008, [32], [256], 0, 1, .rw, .val 0x0, 0, 0x1, false⟩

/-- PRT_PORT_CTL[p].admit, bits [1:1] (03). -/
def R.PRT_PORT_CTL_admit : Fld := ⟨34, 3, 0x20008, [32], [256], 1, 1, .rw, .val 0x0, 0, 0x1, false⟩

/-- PRT_PORT_CTL[p].retrain, bits [2:2] (03). -/
def R.PRT_PORT_CTL_retrain : Fld := ⟨35, 3, 0x20008, [32], [256], 2, 1, .wo, .val 0x0, 0, 0x1, false⟩

/-- PRT_PORT_CTL[p].lane_retrain, bits [3:3] (03). -/
def R.PRT_PORT_CTL_lane_retrain : Fld := ⟨36, 3, 0x20008, [32], [256], 3, 1, .wo, .val 0x0, 0, 0x1, false⟩

/-- PRT_PORT_CTL[p].lane_sel, bits [6:4] (03). -/
def R.PRT_PORT_CTL_lane_sel : Fld := ⟨37, 3, 0x20008, [32], [256], 4, 3, .rw, .val 0x0, 0, 0x7, false⟩

/-- PRT_PORT_STATUS[p].state, bits [3:0] (03). -/
def R.PRT_PORT_STATUS_state : Fld := ⟨38, 3, 0x20010, [32], [256], 0, 4, .ro, .val 0x0, 0, 0xf, false⟩

/-- PRT_PORT_STATUS[p].width_active, bits [5:4] (03). -/
def R.PRT_PORT_STATUS_width_active : Fld := ⟨39, 3, 0x20010, [32], [256], 4, 2, .ro, .val 0x0, 0, 0x3, false⟩

/-- PRT_PORT_STATUS[p].degraded, bits [6:6] (03). -/
def R.PRT_PORT_STATUS_degraded : Fld := ⟨40, 3, 0x20010, [32], [256], 6, 1, .ro, .val 0x0, 0, 0x1, false⟩

/-- PRT_PORT_STATUS[p].lane_reversed, bits [7:7] (03). -/
def R.PRT_PORT_STATUS_lane_reversed : Fld := ⟨41, 3, 0x20010, [32], [256], 7, 1, .ro, .val 0x0, 0, 0x1, false⟩

/-- PRT_PORT_STATUS[p].good_lanes, bits [15:8] (03). -/
def R.PRT_PORT_STATUS_good_lanes : Fld := ⟨42, 3, 0x20010, [32], [256], 8, 8, .ro, .val 0x0, 0, 0xff, false⟩

/-- PRT_PORT_STATUS[p].partner_eid, bits [31:16] (03). -/
def R.PRT_PORT_STATUS_partner_eid : Fld := ⟨43, 3, 0x20010, [32], [256], 16, 16, .ro, .val 0xffff, 0, 0xffff, false⟩

/-- PRT_PORT_STATUS[p].partner_role, bits [32:32] (03). -/
def R.PRT_PORT_STATUS_partner_role : Fld := ⟨44, 3, 0x20010, [32], [256], 32, 1, .ro, .val 0x0, 0, 0x1, false⟩

/-- PRT_PORT_STATUS[p].partner_time, bits [33:33] (03). -/
def R.PRT_PORT_STATUS_partner_time : Fld := ⟨45, 3, 0x20010, [32], [256], 33, 1, .ro, .val 0x0, 0, 0x1, false⟩

/-- PRT_PORT_STATUS[p].partner_lender, bits [34:34] (03). -/
def R.PRT_PORT_STATUS_partner_lender : Fld := ⟨46, 3, 0x20010, [32], [256], 34, 1, .ro, .val 0x0, 0, 0x1, false⟩

/-- PRT_PORT_STATUS[p].partner_codec, bits [35:35] (03). -/
def R.PRT_PORT_STATUS_partner_codec : Fld := ⟨47, 3, 0x20010, [32], [256], 35, 1, .ro, .val 0x0, 0, 0x1, false⟩

/-- PRT_PORT_STATUS[p].partner_caching, bits [36:36] (03). -/
def R.PRT_PORT_STATUS_partner_caching : Fld := ⟨48, 3, 0x20010, [32], [256], 36, 1, .ro, .val 0x0, 0, 0x1, false⟩

/-- PRT_EVT.events, bits [5:0] (03). -/
def R.PRT_EVT_events : Fld := ⟨49, 3, 0x0, [], [], 0, 6, .w1c, .val 0x0, 0, 0x3f, false⟩

/-- PRT_INT_EN.enables, bits [5:0] (03). -/
def R.PRT_INT_EN_enables : Fld := ⟨50, 3, 0x8, [], [], 0, 6, .rw, .val 0x0, 0, 0x3f, false⟩

/-- PRT_EVT_PORT.port, bits [7:0] (03). -/
def R.PRT_EVT_PORT_port : Fld := ⟨51, 3, 0x10, [], [], 0, 8, .ro, .val 0x0, 0, 0xff, false⟩

/-- PRT_PORT_PARTNER[p].vendor, bits [15:0] (03). -/
def R.PRT_PORT_PARTNER_vendor : Fld := ⟨52, 3, 0x20018, [32], [256], 0, 16, .ro, .val 0x0, 0, 0xffff, false⟩

/-- PRT_PORT_CNT[p][k].count, bits [47:0] (03). -/
def R.PRT_PORT_CNT_count : Fld := ⟨53, 3, 0x30000, [64, 8], [256, 8], 0, 48, .ro, .val 0x0, 0, 0xffffffffffff, false⟩

/-- SWC_PORT_CFG[p].tenant, bits [4:0] (04). -/
def R.SWC_PORT_CFG_tenant : Fld := ⟨54, 4, 0x10000, [32], [256], 0, 5, .rw, .val 0x0, 0, 0x1f, false⟩

/-- SWC_PORT_CFG[p].saf, bits [15:8] (04). -/
def R.SWC_PORT_CFG_saf : Fld := ⟨55, 4, 0x10000, [32], [256], 8, 8, .rw, .val 0x0, 0, 0xff, false⟩

/-- SWC_PORT_QUOTA[p][vc].cells, bits [11:0] (04). -/
def R.SWC_PORT_QUOTA_cells : Fld := ⟨56, 4, 0x20000, [256, 8], [256, 32], 0, 12, .rw, .quota, 0, 0xfff, false⟩

/-- SWC_MARK_CFG[p][tc].threshold, bits [15:0] (04). -/
def R.SWC_MARK_CFG_threshold : Fld := ⟨57, 4, 0x30000, [64, 8], [256, 8], 0, 16, .rw, .mark, 0, 0xffff, false⟩

/-- SWC_MIRROR[s].mode, bits [1:0] (04). -/
def R.SWC_MIRROR_mode : Fld := ⟨58, 4, 0x40000, [16], [32], 0, 2, .rw, .val 0x0, 0, 0x2, false⟩

/-- SWC_MIRROR[s].dir, bits [2:2] (04). -/
def R.SWC_MIRROR_dir : Fld := ⟨59, 4, 0x40000, [16], [32], 2, 1, .rw, .val 0x0, 0, 0x1, false⟩

/-- SWC_MIRROR[s].match, bits [3:3] (04). -/
def R.SWC_MIRROR_match : Fld := ⟨60, 4, 0x40000, [16], [32], 3, 1, .rw, .val 0x0, 0, 0x1, false⟩

/-- SWC_MIRROR[s].port, bits [11:4] (04). -/
def R.SWC_MIRROR_port : Fld := ⟨61, 4, 0x40000, [16], [32], 4, 8, .rw, .val 0x0, 0, 0xff, false⟩

/-- SWC_MIRROR[s].dest_port, bits [19:12] (04). -/
def R.SWC_MIRROR_dest_port : Fld := ⟨62, 4, 0x40000, [16], [32], 12, 8, .rw, .val 0x0, 0, 0xff, false⟩

/-- SWC_MIRROR[s].copy_tc, bits [22:20] (04). -/
def R.SWC_MIRROR_copy_tc : Fld := ⟨63, 4, 0x40000, [16], [32], 20, 3, .rw, .val 0x0, 0, 0x6, false⟩

/-- SWC_MIRROR[s].deterministic, bits [23:23] (04). -/
def R.SWC_MIRROR_deterministic : Fld := ⟨64, 4, 0x40000, [16], [32], 23, 1, .rw, .val 0x0, 0, 0x1, false⟩

/-- SWC_MIRROR[s].n, bits [39:24] (04). -/
def R.SWC_MIRROR_n : Fld := ⟨65, 4, 0x40000, [16], [32], 24, 16, .rw, .val 0x400, 1, 0xffff, false⟩

/-- SWC_MIRROR[s].flow, bits [51:40] (04). -/
def R.SWC_MIRROR_flow : Fld := ⟨66, 4, 0x40000, [16], [32], 40, 12, .rw, .val 0x0, 0, 0xfff, false⟩

/-- SWC_MIRROR[s].dst_eid, bits [79:64] (04). -/
def R.SWC_MIRROR_dst_eid : Fld := ⟨67, 4, 0x40000, [16], [32], 64, 16, .rw, .val 0x0, 0, 0xffff, false⟩

/-- SWC_MAP_STATUS.current_gen, bits [7:0] (04). -/
def R.SWC_MAP_STATUS_current_gen : Fld := ⟨68, 4, 0x200, [], [], 0, 8, .ro, .val 0x0, 0, 0xff, false⟩

/-- SWC_MAP_STATUS.switch_pending, bits [8:8] (04). -/
def R.SWC_MAP_STATUS_switch_pending : Fld := ⟨69, 4, 0x200, [], [], 8, 1, .ro, .val 0x0, 0, 0x1, false⟩

/-- SWC_MAP_STATUS.result, bits [19:16] (04). -/
def R.SWC_MAP_STATUS_result : Fld := ⟨70, 4, 0x200, [], [], 16, 4, .ro, .val 0x0, 0, 0xf, false⟩

/-- SWC_MAP_STATUS.pending_beat, bits [63:32] (04). -/
def R.SWC_MAP_STATUS_pending_beat : Fld := ⟨71, 4, 0x200, [], [], 32, 32, .ro, .val 0x0, 0, 0xffffffff, false⟩

/-- SWC_MAP_STAGE.gen, bits [7:0] (04). -/
def R.SWC_MAP_STAGE_gen : Fld := ⟨72, 4, 0x208, [], [], 0, 8, .rw, .val 0x1, 0, 0xff, false⟩

/-- SWC_MAP_STAGE.valid, bits [8:8] (04). -/
def R.SWC_MAP_STAGE_valid : Fld := ⟨73, 4, 0x208, [], [], 8, 1, .rw, .val 0x0, 0, 0x1, false⟩

/-- SWC_MAP_SWITCH.beat, bits [31:0] (04). -/
def R.SWC_MAP_SWITCH_beat : Fld := ⟨74, 4, 0x210, [], [], 0, 32, .wo, .val 0x0, 0, 0xffffffff, false⟩

/-- SWC_ROUTE_STAGE[e].entry, bits [31:0] (04). -/
def R.SWC_ROUTE_STAGE_entry : Fld := ⟨75, 4, 0x100000, [4], [65536], 0, 32, .rw, .val 0x0, 0, 0xffffffff, false⟩

/-- SWC_GROUP_STAGE[g].group, bits [127:0] (04). -/
def R.SWC_GROUP_STAGE_group : Fld := ⟨76, 4, 0x140000, [16], [1024], 0, 128, .rw, .val 0x0, 0, 0xffffffffffffffffffffffffffffffff, false⟩

/-- SWC_MCAST_STAGE[m].ports, bits [255:0] (04). -/
def R.SWC_MCAST_STAGE_ports : Fld := ⟨77, 4, 0x150000, [64], [4095], 0, 256, .rw, .val 0x0, 0, 0xffffffffffffffffffffffffffffffffffffffffffffffffffffffffffffffff, false⟩

/-- SWC_MCAST_STAGE[m].west_agent, bits [256:256] (04). -/
def R.SWC_MCAST_STAGE_west_agent : Fld := ⟨78, 4, 0x150000, [64], [4095], 256, 1, .rw, .val 0x0, 0, 0x1, false⟩

/-- SWC_MCAST_STAGE[m].east_agent, bits [257:257] (04). -/
def R.SWC_MCAST_STAGE_east_agent : Fld := ⟨79, 4, 0x150000, [64], [4095], 257, 1, .rw, .val 0x0, 0, 0x1, false⟩

/-- SWC_EVT.events, bits [4:0] (04). -/
def R.SWC_EVT_events : Fld := ⟨80, 4, 0x0, [], [], 0, 5, .w1c, .val 0x0, 0, 0x1f, false⟩

/-- SWC_INT_EN.enables, bits [4:0] (04). -/
def R.SWC_INT_EN_enables : Fld := ⟨81, 4, 0x8, [], [], 0, 5, .rw, .val 0x0, 0, 0x1f, false⟩

/-- SWC_EVT_PORT.port, bits [7:0] (04). -/
def R.SWC_EVT_PORT_port : Fld := ⟨82, 4, 0x10, [], [], 0, 8, .ro, .val 0x0, 0, 0xff, false⟩

/-- SWC_CTL.ct_stall, bits [15:0] (04). -/
def R.SWC_CTL_ct_stall : Fld := ⟨83, 4, 0x18, [], [], 0, 16, .rw, .val 0x10, 1, 0xffff, false⟩

/-- SWC_WIN_CFG.max, bits [13:0] (04). -/
def R.SWC_WIN_CFG_max : Fld := ⟨84, 4, 0x20, [], [], 0, 14, .rw, .val 0x400, 1, 0x3fff, false⟩

/-- SWC_WIN_STATUS[d].entries, bits [12:0] (04). -/
def R.SWC_WIN_STATUS_entries : Fld := ⟨85, 4, 0x28, [8], [2], 0, 13, .ro, .val 0x0, 0, 0x1fff, false⟩

/-- SWC_BUF_CFG[d].agent_reserve, bits [18:0] (04). -/
def R.SWC_BUF_CFG_agent_reserve : Fld := ⟨86, 4, 0x100, [8], [2], 0, 19, .rw, .val 0x10000, 0, 0x7ffff, false⟩

/-- SWC_BUF_STATUS[d].free, bits [18:0] (04). -/
def R.SWC_BUF_STATUS_free : Fld := ⟨87, 4, 0x110, [8], [2], 0, 19, .ro, .val 0x60000, 0, 0x7ffff, false⟩

/-- SWC_TC_CFG[tc].spray, bits [0:0] (04). -/
def R.SWC_TC_CFG_spray : Fld := ⟨88, 4, 0x300, [8], [8], 0, 1, .rw, .spray, 0, 0x1, false⟩

/-- SWC_TC_CFG[tc].weight, bits [15:8] (04). -/
def R.SWC_TC_CFG_weight : Fld := ⟨89, 4, 0x300, [8], [8], 8, 8, .rw, .val 0x10, 1, 0xff, false⟩

/-- SWC_RESEQ_CFG.hold_cells, bits [15:0] (04). -/
def R.SWC_RESEQ_CFG_hold_cells : Fld := ⟨90, 4, 0x400, [], [], 0, 16, .rw, .val 0x800, 0, 0xffff, false⟩

/-- SWC_RESEQ_CFG.timeout, bits [31:16] (04). -/
def R.SWC_RESEQ_CFG_timeout : Fld := ⟨91, 4, 0x400, [], [], 16, 16, .rw, .val 0x40, 1, 0xffff, false⟩

/-- SWC_RESEQ_CFG.window, bits [47:32] (04). -/
def R.SWC_RESEQ_CFG_window : Fld := ⟨92, 4, 0x400, [], [], 32, 16, .rw, .val 0x800, 0, 0x4000, false⟩

/-- SWC_FLOW_RESET.flow, bits [11:0] (04). -/
def R.SWC_FLOW_RESET_flow : Fld := ⟨93, 4, 0x408, [], [], 0, 12, .wo, .val 0x0, 0, 0xfff, false⟩

/-- SWC_FLOW_RESET.port, bits [19:12] (04). -/
def R.SWC_FLOW_RESET_port : Fld := ⟨94, 4, 0x408, [], [], 12, 8, .wo, .val 0x0, 0, 0xff, false⟩

/-- SWC_FLOW_RESET.agent, bits [20:20] (04). -/
def R.SWC_FLOW_RESET_agent : Fld := ⟨95, 4, 0x408, [], [], 20, 1, .wo, .val 0x0, 0, 0x1, false⟩

/-- SWC_TENANT_QUOTA[t][d].cells, bits [18:0] (04). -/
def R.SWC_TENANT_QUOTA_cells : Fld := ⟨96, 4, 0x500, [16, 8], [32, 2], 0, 19, .rw, .val 0x60000, 0, 0x7ffff, false⟩

/-- SWC_FF_RING.base, bits [23:0] (04). -/
def R.SWC_FF_RING_base : Fld := ⟨97, 4, 0x600, [], [], 0, 24, .rw, .val 0x0, 0, 0xffffff, false⟩

/-- SWC_FF_RING.records, bits [39:24] (04). -/
def R.SWC_FF_RING_records : Fld := ⟨98, 4, 0x600, [], [], 24, 16, .rw, .val 0x0, 0, 0xffff, false⟩

/-- SWC_FF_PROD.count, bits [31:0] (04). -/
def R.SWC_FF_PROD_count : Fld := ⟨99, 4, 0x608, [], [], 0, 32, .ro, .val 0x0, 0, 0xffffffff, false⟩

/-- SWC_FF_CONS.count, bits [31:0] (04). -/
def R.SWC_FF_CONS_count : Fld := ⟨100, 4, 0x610, [], [], 0, 32, .rw, .val 0x0, 0, 0xffffffff, false⟩

/-- SWC_FF_DROP.count, bits [47:0] (04). -/
def R.SWC_FF_DROP_count : Fld := ⟨101, 4, 0x618, [], [], 0, 48, .ro, .val 0x0, 0, 0xffffffffffff, false⟩

/-- SWC_PORT_CNT[p][k].count, bits [47:0] (04). -/
def R.SWC_PORT_CNT_count : Fld := ⟨102, 4, 0x200000, [64, 8], [256, 8], 0, 48, .ro, .val 0x0, 0, 0xffffffffffff, false⟩

/-- EDG_SEL.port, bits [7:0] (05). -/
def R.EDG_SEL_port : Fld := ⟨103, 5, 0x0, [], [], 0, 8, .rw, .val 0x0, 0, 0xff, false⟩

/-- EDG_SEL.agent, bits [8:8] (05). -/
def R.EDG_SEL_agent : Fld := ⟨104, 5, 0x0, [], [], 8, 1, .rw, .val 0x0, 0, 0x1, false⟩

/-- EDG_SEL.index, bits [27:16] (05). -/
def R.EDG_SEL_index : Fld := ⟨105, 5, 0x0, [], [], 16, 12, .rw, .val 0x0, 0, 0xfff, false⟩

/-- EDG_WIN_DATA0.entry_lo, bits [63:0] (05). -/
def R.EDG_WIN_DATA0_entry_lo : Fld := ⟨106, 5, 0x8, [], [], 0, 64, .ro, .val 0x0, 0, 0xffffffffffffffff, false⟩

/-- EDG_WIN_DATA1.entry_hi, bits [63:0] (05). -/
def R.EDG_WIN_DATA1_entry_hi : Fld := ⟨107, 5, 0x10, [], [], 0, 64, .ro, .val 0x0, 0, 0xffffffffffffffff, false⟩

/-- EDG_EVT.violation, bits [0:0] (05). -/
def R.EDG_EVT_violation : Fld := ⟨108, 5, 0x18, [], [], 0, 1, .w1c, .val 0x0, 0, 0x1, false⟩

/-- EDG_EVT.stamp_error, bits [1:1] (05). -/
def R.EDG_EVT_stamp_error : Fld := ⟨109, 5, 0x18, [], [], 1, 1, .w1c, .val 0x0, 0, 0x1, false⟩

/-- EDG_EVT.unsupported, bits [2:2] (05). -/
def R.EDG_EVT_unsupported : Fld := ⟨110, 5, 0x18, [], [], 2, 1, .w1c, .val 0x0, 0, 0x1, false⟩

/-- EDG_INT_EN.enables, bits [2:0] (05). -/
def R.EDG_INT_EN_enables : Fld := ⟨111, 5, 0x20, [], [], 0, 3, .rw, .val 0x0, 0, 0x7, false⟩

/-- EDG_VIOL_INFO.port, bits [7:0] (05). -/
def R.EDG_VIOL_INFO_port : Fld := ⟨112, 5, 0x28, [], [], 0, 8, .ro, .val 0x0, 0, 0xff, false⟩

/-- EDG_VIOL_INFO.agent, bits [8:8] (05). -/
def R.EDG_VIOL_INFO_agent : Fld := ⟨113, 5, 0x28, [], [], 8, 1, .ro, .val 0x0, 0, 0x1, false⟩

/-- EDG_VIOL_INFO.step, bits [11:9] (05). -/
def R.EDG_VIOL_INFO_step : Fld := ⟨114, 5, 0x28, [], [], 9, 3, .ro, .val 0x0, 0, 0x7, false⟩

/-- EDG_VIOL_INFO.src_eid, bits [31:16] (05). -/
def R.EDG_VIOL_INFO_src_eid : Fld := ⟨115, 5, 0x28, [], [], 16, 16, .ro, .val 0x0, 0, 0xffff, false⟩

/-- EDG_VIOL_INFO.msg_type, bits [39:32] (05). -/
def R.EDG_VIOL_INFO_msg_type : Fld := ⟨116, 5, 0x28, [], [], 32, 8, .ro, .val 0x0, 0, 0xff, false⟩

/-- EDG_VIOL_INFO.tenant, bits [44:40] (05). -/
def R.EDG_VIOL_INFO_tenant : Fld := ⟨117, 5, 0x28, [], [], 40, 5, .ro, .val 0x0, 0, 0x1f, false⟩

/-- EDG_VIOL_ADDR.addr, bits [55:0] (05). -/
def R.EDG_VIOL_ADDR_addr : Fld := ⟨118, 5, 0x30, [], [], 0, 56, .ro, .val 0x0, 0, 0xffffffffffffff, false⟩

/-- EDG_CNT[p][k].count, bits [47:0] (05). -/
def R.EDG_CNT_count : Fld := ⟨119, 5, 0x10000, [32, 8], [256, 4], 0, 48, .ro, .val 0x0, 0, 0xffffffffffff, false⟩

/-- EDG_AGENT_CNT[d][k].count, bits [47:0] (05). -/
def R.EDG_AGENT_CNT_count : Fld := ⟨120, 5, 0x20000, [32, 8], [2, 4], 0, 48, .ro, .val 0x0, 0, 0xffffffffffff, false⟩

/-- TRK_SPLIT[d].home, bits [19:0] (05). -/
def R.TRK_SPLIT_home : Fld := ⟨121, 6, 0x0, [8], [2], 0, 20, .rw, .val 0x40000, 0, 0xfffff, false⟩

/-- TRK_SPLIT[d].issued, bits [39:20] (05). -/
def R.TRK_SPLIT_issued : Fld := ⟨122, 6, 0x0, [8], [2], 20, 20, .rw, .val 0x30000, 0, 0xfffff, false⟩

/-- TRK_SPLIT[d].fwd, bits [59:40] (05). -/
def R.TRK_SPLIT_fwd : Fld := ⟨123, 6, 0x0, [8], [2], 40, 20, .rw, .val 0x10000, 0, 0xfffff, false⟩

/-- TRK_COMB_CFG[d].enable, bits [0:0] (05). -/
def R.TRK_COMB_CFG_enable : Fld := ⟨124, 6, 0x30, [8], [2], 0, 1, .rw, .val 0x1, 0, 0x1, false⟩

/-- TRK_COMB_CFG[d].window, bits [8:1] (05). -/
def R.TRK_COMB_CFG_window : Fld := ⟨125, 6, 0x30, [8], [2], 1, 8, .rw, .val 0x20, 0, 0xfa, false⟩

/-- TRK_COMB_CFG[d].max_members, bits [16:9] (05). -/
def R.TRK_COMB_CFG_max_members : Fld := ⟨126, 6, 0x30, [8], [2], 9, 8, .rw, .val 0x40, 2, 0x40, false⟩

/-- TRK_COMB_CFG[d].cross_tenant, bits [17:17] (05). -/
def R.TRK_COMB_CFG_cross_tenant : Fld := ⟨127, 6, 0x30, [8], [2], 17, 1, .rw, .val 0x0, 0, 0x1, false⟩

/-- TRK_TIMEOUT.issued, bits [15:0] (05). -/
def R.TRK_TIMEOUT_issued : Fld := ⟨128, 6, 0x10, [], [], 0, 16, .rw, .val 0x7d0, 256, 0xffff, false⟩

/-- TRK_TIMEOUT.fwd, bits [31:16] (05). -/
def R.TRK_TIMEOUT_fwd : Fld := ⟨129, 6, 0x10, [], [], 16, 16, .rw, .val 0x3e8, 256, 0xffff, false⟩

/-- TRK_REISSUE.limit, bits [7:0] (05). -/
def R.TRK_REISSUE_limit : Fld := ⟨130, 6, 0x18, [], [], 0, 8, .rw, .val 0x10, 0, 0xff, false⟩

/-- TRK_STATUS[d].home_live, bits [19:0] (05). -/
def R.TRK_STATUS_home_live : Fld := ⟨131, 6, 0x20, [8], [2], 0, 20, .ro, .val 0x0, 0, 0xfffff, false⟩

/-- TRK_STATUS[d].issued_live, bits [39:20] (05). -/
def R.TRK_STATUS_issued_live : Fld := ⟨132, 6, 0x20, [8], [2], 20, 20, .ro, .val 0x0, 0, 0xfffff, false⟩

/-- TRK_STATUS[d].fwd_live, bits [59:40] (05). -/
def R.TRK_STATUS_fwd_live : Fld := ⟨133, 6, 0x20, [8], [2], 40, 20, .ro, .val 0x0, 0, 0xfffff, false⟩

/-- TRK_COMB_STATUS[d].open, bits [16:0] (05). -/
def R.TRK_COMB_STATUS_open : Fld := ⟨134, 6, 0x40, [8], [2], 0, 17, .ro, .val 0x0, 0, 0x1ffff, false⟩

/-- TRK_LOAD[d].load, bits [3:0] (05). -/
def R.TRK_LOAD_load : Fld := ⟨135, 6, 0x50, [8], [2], 0, 4, .ro, .val 0x0, 0, 0xf, false⟩

/-- TRK_LOAD[d].withheld, bits [4:4] (05). -/
def R.TRK_LOAD_withheld : Fld := ⟨136, 6, 0x50, [8], [2], 4, 1, .ro, .val 0x0, 0, 0x1, false⟩

/-- TRK_EVT.timeout, bits [0:0] (05). -/
def R.TRK_EVT_timeout : Fld := ⟨137, 6, 0x60, [], [], 0, 1, .w1c, .val 0x0, 0, 0x1, false⟩

/-- TRK_EVT.late_discard, bits [1:1] (05). -/
def R.TRK_EVT_late_discard : Fld := ⟨138, 6, 0x60, [], [], 1, 1, .w1c, .val 0x0, 0, 0x1, false⟩

/-- TRK_EVT.reissue_exhausted, bits [2:2] (05). -/
def R.TRK_EVT_reissue_exhausted : Fld := ⟨139, 6, 0x60, [], [], 2, 1, .w1c, .val 0x0, 0, 0x1, false⟩

/-- TRK_EVT.comb_full, bits [3:3] (05). -/
def R.TRK_EVT_comb_full : Fld := ⟨140, 6, 0x60, [], [], 3, 1, .w1c, .val 0x0, 0, 0x1, false⟩

/-- TRK_EVT.home_stall, bits [4:4] (05). -/
def R.TRK_EVT_home_stall : Fld := ⟨141, 6, 0x60, [], [], 4, 1, .w1c, .val 0x0, 0, 0x1, false⟩

/-- TRK_INT_EN.enables, bits [4:0] (05). -/
def R.TRK_INT_EN_enables : Fld := ⟨142, 6, 0x68, [], [], 0, 5, .rw, .val 0x0, 0, 0x1f, false⟩

/-- TRK_CNT[d][k].count, bits [47:0] (05). -/
def R.TRK_CNT_count : Fld := ⟨143, 6, 0x1000, [128, 8], [2, 12], 0, 48, .ro, .val 0x0, 0, 0xffffffffffff, false⟩

/-- COH_CFG[d].enable, bits [0:0] (06). -/
def R.COH_CFG_enable : Fld := ⟨144, 7, 0x0, [8], [2], 0, 1, .rw, .val 0x0, 0, 0x1, false⟩

/-- COH_CFG[d].slices, bits [3:1] (06). -/
def R.COH_CFG_slices : Fld := ⟨145, 7, 0x0, [8], [2], 1, 3, .rw, .val 0x2, 0, 0x4, false⟩

/-- COH_TIMEOUT.snoop, bits [15:0] (06). -/
def R.COH_TIMEOUT_snoop : Fld := ⟨146, 7, 0x10, [], [], 0, 16, .rw, .val 0x1f4, 100, 0xffff, false⟩

/-- COH_TIMEOUT.grace, bits [31:16] (06). -/
def R.COH_TIMEOUT_grace : Fld := ⟨147, 7, 0x10, [], [], 16, 16, .rw, .val 0x2710, 1, 0xffff, false⟩

/-- COH_RECLAIM_INFO.domain, bits [7:0] (06). -/
def R.COH_RECLAIM_INFO_domain : Fld := ⟨148, 7, 0x50, [], [], 0, 8, .ro, .val 0x0, 0, 0xff, false⟩

/-- COH_RECLAIM_INFO.slot, bits [12:8] (06). -/
def R.COH_RECLAIM_INFO_slot : Fld := ⟨149, 7, 0x50, [], [], 8, 5, .ro, .val 0x0, 0, 0x1f, false⟩

/-- COH_RECLAIM_INFO.cause, bits [15:13] (06). -/
def R.COH_RECLAIM_INFO_cause : Fld := ⟨150, 7, 0x50, [], [], 13, 3, .ro, .val 0x0, 0, 0x7, false⟩

/-- COH_RECLAIM_INFO.done, bits [16:16] (06). -/
def R.COH_RECLAIM_INFO_done : Fld := ⟨151, 7, 0x50, [], [], 16, 1, .ro, .val 0x0, 0, 0x1, false⟩

/-- COH_STATUS[d].bound, bits [10:0] (06). -/
def R.COH_STATUS_bound : Fld := ⟨152, 7, 0x20, [8], [2], 0, 11, .ro, .val 0x0, 0, 0x7ff, false⟩

/-- COH_STATUS[d].reclaim_active, bits [11:11] (06). -/
def R.COH_STATUS_reclaim_active : Fld := ⟨153, 7, 0x20, [8], [2], 11, 1, .ro, .val 0x0, 0, 0x1, false⟩

/-- COH_EVT.events, bits [4:0] (06). -/
def R.COH_EVT_events : Fld := ⟨154, 7, 0x40, [], [], 0, 5, .w1c, .val 0x0, 0, 0x1f, false⟩

/-- COH_INT_EN.enables, bits [4:0] (06). -/
def R.COH_INT_EN_enables : Fld := ⟨155, 7, 0x48, [], [], 0, 5, .rw, .val 0x0, 0, 0x1f, false⟩

/-- COH_DIR_STORE[d][k].extent, bits [17:0] (06). -/
def R.COH_DIR_STORE_extent : Fld := ⟨156, 7, 0x100, [512, 8], [2, 64], 0, 18, .ro, .val 0x0, 0, 0x3ffff, false⟩

/-- COH_DIR_STORE[d][k].valid, bits [18:18] (06). -/
def R.COH_DIR_STORE_valid : Fld := ⟨157, 7, 0x100, [512, 8], [2, 64], 18, 1, .ro, .val 0x0, 0, 0x1, false⟩

/-- COH_BIND[i].valid, bits [0:0] (06). -/
def R.COH_BIND_valid : Fld := ⟨158, 7, 0x10000, [8], [4096], 0, 1, .ro, .val 0x0, 0, 0x1, false⟩

/-- COH_BIND[i].domain, bits [15:8] (06). -/
def R.COH_BIND_domain : Fld := ⟨159, 7, 0x10000, [8], [4096], 8, 8, .ro, .val 0x0, 0, 0xff, false⟩

/-- COH_BIND[i].first_extent, bits [33:16] (06). -/
def R.COH_BIND_first_extent : Fld := ⟨160, 7, 0x10000, [8], [4096], 16, 18, .ro, .val 0x0, 0, 0x3ffff, false⟩

/-- COH_BIND[i].last_extent, bits [51:34] (06). -/
def R.COH_BIND_last_extent : Fld := ⟨161, 7, 0x10000, [8], [4096], 34, 18, .ro, .val 0x0, 0, 0x3ffff, false⟩

/-- COH_MEMBER[m][a].valid, bits [0:0] (06). -/
def R.COH_MEMBER_valid : Fld := ⟨162, 7, 0x20000, [256, 8], [256, 32], 0, 1, .ro, .val 0x0, 0, 0x1, false⟩

/-- COH_MEMBER[m][a].kind, bits [1:1] (06). -/
def R.COH_MEMBER_kind : Fld := ⟨163, 7, 0x20000, [256, 8], [256, 32], 1, 1, .ro, .val 0x0, 0, 0x1, false⟩

/-- COH_MEMBER[m][a].eid, bits [31:16] (06). -/
def R.COH_MEMBER_eid : Fld := ⟨164, 7, 0x20000, [256, 8], [256, 32], 16, 16, .ro, .val 0x0, 0, 0xffff, false⟩

/-- COH_MEMBER[m][a].cluster, bits [35:32] (06). -/
def R.COH_MEMBER_cluster : Fld := ⟨165, 7, 0x20000, [256, 8], [256, 32], 32, 4, .ro, .val 0x0, 0, 0xf, false⟩

/-- COH_CNT[d][k].count, bits [47:0] (06). -/
def R.COH_CNT_count : Fld := ⟨166, 7, 0x30000, [128, 8], [2, 11], 0, 48, .ro, .val 0x0, 0, 0xffffffffffff, false⟩

/-- POL_CFG.drain_timeout, bits [15:0] (07). -/
def R.POL_CFG_drain_timeout : Fld := ⟨167, 8, 0x0, [], [], 0, 16, .rw, .val 0x64, 10, 0xffff, false⟩

/-- POL_CFG.limit_queue, bits [31:16] (07). -/
def R.POL_CFG_limit_queue : Fld := ⟨168, 8, 0x0, [], [], 16, 16, .rw, .val 0x100, 1, 0xffff, false⟩

/-- POL_SEL.extent, bits [17:0] (07). -/
def R.POL_SEL_extent : Fld := ⟨169, 8, 0x20, [], [], 0, 18, .rw, .val 0x0, 0, 0x3ffff, false⟩

/-- POL_SEL.lent, bits [18:18] (07). -/
def R.POL_SEL_lent : Fld := ⟨170, 8, 0x20, [], [], 18, 1, .rw, .val 0x0, 0, 0x1, false⟩

/-- POL_SEL.lend, bits [22:19] (07). -/
def R.POL_SEL_lend : Fld := ⟨171, 8, 0x20, [], [], 19, 4, .rw, .val 0x0, 0, 0xf, false⟩

/-- POL_LEASE[i].valid, bits [0:0] (07). -/
def R.POL_LEASE_valid : Fld := ⟨172, 8, 0x10000, [16], [4096], 0, 1, .ro, .val 0x0, 0, 0x1, false⟩

/-- POL_LEASE[i].expired, bits [1:1] (07). -/
def R.POL_LEASE_expired : Fld := ⟨173, 8, 0x10000, [16], [4096], 1, 1, .ro, .val 0x0, 0, 0x1, false⟩

/-- POL_LEASE[i].tenant, bits [6:2] (07). -/
def R.POL_LEASE_tenant : Fld := ⟨174, 8, 0x10000, [16], [4096], 2, 5, .ro, .val 0x0, 0, 0x1f, false⟩

/-- POL_LEASE[i].eid, bits [31:16] (07). -/
def R.POL_LEASE_eid : Fld := ⟨175, 8, 0x10000, [16], [4096], 16, 16, .ro, .val 0x0, 0, 0xffff, false⟩

/-- POL_LEASE[i].expiry, bits [63:32] (07). -/
def R.POL_LEASE_expiry : Fld := ⟨176, 8, 0x10000, [16], [4096], 32, 32, .ro, .val 0x0, 0, 0xffffffff, false⟩

/-- POL_LEASE[i].duration, bits [89:64] (07). -/
def R.POL_LEASE_duration : Fld := ⟨177, 8, 0x10000, [16], [4096], 64, 26, .ro, .val 0x0, 0, 0x3ffffff, false⟩

/-- POL_STATUS.extents, bits [16:0] (07). -/
def R.POL_STATUS_extents : Fld := ⟨178, 8, 0x8, [], [], 0, 17, .ro, .val 0x0, 0, 0x1ffff, false⟩

/-- POL_STATUS.free, bits [33:17] (07). -/
def R.POL_STATUS_free : Fld := ⟨179, 8, 0x8, [], [], 17, 17, .ro, .val 0x0, 0, 0x1ffff, false⟩

/-- POL_STATUS.lost, bits [50:34] (07). -/
def R.POL_STATUS_lost : Fld := ⟨180, 8, 0x8, [], [], 34, 17, .ro, .val 0x0, 0, 0x1ffff, false⟩

/-- POL_EVT.events, bits [7:0] (07). -/
def R.POL_EVT_events : Fld := ⟨181, 8, 0x10, [], [], 0, 8, .w1c, .val 0x0, 0, 0xff, false⟩

/-- POL_INT_EN.enables, bits [7:0] (07). -/
def R.POL_INT_EN_enables : Fld := ⟨182, 8, 0x18, [], [], 0, 8, .rw, .val 0x0, 0, 0xff, false⟩

/-- POL_EXT_DATA.record, bits [63:0] (07). -/
def R.POL_EXT_DATA_record : Fld := ⟨183, 8, 0x28, [], [], 0, 64, .ro, .val 0x0, 0, 0xffffffffffffffff, false⟩

/-- POL_REVOKE_STATUS.active, bits [0:0] (07). -/
def R.POL_REVOKE_STATUS_active : Fld := ⟨184, 8, 0x30, [], [], 0, 1, .ro, .val 0x0, 0, 0x1, false⟩

/-- POL_REVOKE_STATUS.phase, bits [2:1] (07). -/
def R.POL_REVOKE_STATUS_phase : Fld := ⟨185, 8, 0x30, [], [], 1, 2, .ro, .val 0x0, 0, 0x3, false⟩

/-- POL_REVOKE_STATUS.first_extent, bits [20:3] (07). -/
def R.POL_REVOKE_STATUS_first_extent : Fld := ⟨186, 8, 0x30, [], [], 3, 18, .ro, .val 0x0, 0, 0x3ffff, false⟩

/-- POL_REVOKE_STATUS.last_extent, bits [38:21] (07). -/
def R.POL_REVOKE_STATUS_last_extent : Fld := ⟨187, 8, 0x30, [], [], 21, 18, .ro, .val 0x0, 0, 0x3ffff, false⟩

/-- POL_REVOKE_STATUS.node, bits [50:39] (07). -/
def R.POL_REVOKE_STATUS_node : Fld := ⟨188, 8, 0x30, [], [], 39, 12, .ro, .val 0x0, 0, 0xfff, false⟩

/-- POL_LIMIT[d][i].rate, bits [15:0] (07). -/
def R.POL_LIMIT_rate : Fld := ⟨189, 8, 0x40000, [32768, 8], [2, 4096], 0, 16, .ro, .val 0x0, 0, 0xffff, false⟩

/-- POL_LIMIT[d][i].burst, bits [31:16] (07). -/
def R.POL_LIMIT_burst : Fld := ⟨190, 8, 0x40000, [32768, 8], [2, 4096], 16, 16, .ro, .val 0x400, 0, 0xffff, false⟩

/-- POL_LIMIT[d][i].waiting, bits [47:32] (07). -/
def R.POL_LIMIT_waiting : Fld := ⟨191, 8, 0x40000, [32768, 8], [2, 4096], 32, 16, .ro, .val 0x0, 0, 0xffff, false⟩

/-- POL_TENANT_QUOTA[t].quota, bits [16:0] (07). -/
def R.POL_TENANT_QUOTA_quota : Fld := ⟨192, 8, 0x60000, [8], [32], 0, 17, .ro, .val 0x1ffff, 0, 0x1ffff, false⟩

/-- POL_TENANT_QUOTA[t].held, bits [33:17] (07). -/
def R.POL_TENANT_QUOTA_held : Fld := ⟨193, 8, 0x60000, [8], [32], 17, 17, .ro, .val 0x0, 0, 0x1ffff, false⟩

/-- POL_TENANT_LIMIT[t][d].rate, bits [15:0] (07). -/
def R.POL_TENANT_LIMIT_rate : Fld := ⟨194, 8, 0x61000, [16, 8], [32, 2], 0, 16, .ro, .val 0x0, 0, 0xffff, false⟩

/-- POL_TENANT_LIMIT[t][d].burst, bits [31:16] (07). -/
def R.POL_TENANT_LIMIT_burst : Fld := ⟨195, 8, 0x61000, [16, 8], [32, 2], 16, 16, .ro, .val 0x400, 0, 0xffff, false⟩

/-- POL_LEND[k].valid, bits [0:0] (07). -/
def R.POL_LEND_valid : Fld := ⟨196, 8, 0x70000, [16], [16], 0, 1, .ro, .val 0x0, 0, 0x1, false⟩

/-- POL_LEND[k].node, bits [12:1] (07). -/
def R.POL_LEND_node : Fld := ⟨197, 8, 0x70000, [16], [16], 1, 12, .ro, .val 0x0, 0, 0xfff, false⟩

/-- POL_LEND[k].eid, bits [31:16] (07). -/
def R.POL_LEND_eid : Fld := ⟨198, 8, 0x70000, [16], [16], 16, 16, .ro, .val 0x0, 0, 0xffff, false⟩

/-- POL_LEND[k].port, bits [39:32] (07). -/
def R.POL_LEND_port : Fld := ⟨199, 8, 0x70000, [16], [16], 32, 8, .ro, .val 0x0, 0, 0xff, false⟩

/-- POL_LEND[k].extents, bits [57:40] (07). -/
def R.POL_LEND_extents : Fld := ⟨200, 8, 0x70000, [16], [16], 40, 18, .ro, .val 0x0, 0, 0x3ffff, false⟩

/-- POL_LOST[k].valid, bits [0:0] (07). -/
def R.POL_LOST_valid : Fld := ⟨201, 8, 0x71000, [16], [64], 0, 1, .ro, .val 0x0, 0, 0x1, false⟩

/-- POL_LOST[k].node, bits [15:4] (07). -/
def R.POL_LOST_node : Fld := ⟨202, 8, 0x71000, [16], [64], 4, 12, .ro, .val 0x0, 0, 0xfff, false⟩

/-- POL_LOST[k].first_extent, bits [33:16] (07). -/
def R.POL_LOST_first_extent : Fld := ⟨203, 8, 0x71000, [16], [64], 16, 18, .ro, .val 0x0, 0, 0x3ffff, false⟩

/-- POL_LOST[k].last_extent, bits [51:34] (07). -/
def R.POL_LOST_last_extent : Fld := ⟨204, 8, 0x71000, [16], [64], 34, 18, .ro, .val 0x0, 0, 0x3ffff, false⟩

/-- POL_CNT[d][k].count, bits [47:0] (07). -/
def R.POL_CNT_count : Fld := ⟨205, 8, 0x80000, [128, 8], [2, 12], 0, 48, .ro, .val 0x0, 0, 0xffffffffffff, false⟩

/-- POL_SHARE[g][j].valid, bits [0:0] (07). -/
def R.POL_SHARE_valid : Fld := ⟨206, 8, 0x90000, [512, 8], [1024, 64], 0, 1, .ro, .val 0x0, 0, 0x1, false⟩

/-- POL_SHARE[g][j].slot, bits [12:1] (07). -/
def R.POL_SHARE_slot : Fld := ⟨207, 8, 0x90000, [512, 8], [1024, 64], 1, 12, .ro, .val 0x0, 0, 0xfff, false⟩

/-- MEM_SCHED_CFG.age_limit, bits [15:0] (08). -/
def R.MEM_SCHED_CFG_age_limit : Fld := ⟨208, 9, 0x10, [], [], 0, 16, .rw, .val 0x40, 1, 0xffff, false⟩

/-- MEM_SCHED_CFG.wq_high, bits [23:16] (08). -/
def R.MEM_SCHED_CFG_wq_high : Fld := ⟨209, 9, 0x10, [], [], 16, 8, .rw, .val 0x30, 1, 0x40, false⟩

/-- MEM_SCHED_CFG.wq_low, bits [31:24] (08). -/
def R.MEM_SCHED_CFG_wq_low : Fld := ⟨210, 9, 0x10, [], [], 24, 8, .rw, .val 0x10, 0, 0xff, false⟩

/-- MEM_SCHED_CFG.row_idle, bits [47:32] (08). -/
def R.MEM_SCHED_CFG_row_idle : Fld := ⟨211, 9, 0x10, [], [], 32, 16, .rw, .val 0x8, 0, 0xffff, false⟩

/-- MEM_TIER_CFG.enable, bits [0:0] (08). -/
def R.MEM_TIER_CFG_enable : Fld := ⟨212, 9, 0x30, [], [], 0, 1, .rw, .val 0x1, 0, 0x1, false⟩

/-- MEM_TIER_CFG.cross_die, bits [1:1] (08). -/
def R.MEM_TIER_CFG_cross_die : Fld := ⟨213, 9, 0x30, [], [], 1, 1, .rw, .val 0x1, 0, 0x1, false⟩

/-- MEM_TIER_CFG.low_free, bits [21:8] (08). -/
def R.MEM_TIER_CFG_low_free : Fld := ⟨214, 9, 0x30, [], [], 8, 14, .rw, .val 0x20, 0, 0x3fff, false⟩

/-- MEM_TIER_CFG.high_free, bits [35:22] (08). -/
def R.MEM_TIER_CFG_high_free : Fld := ⟨215, 9, 0x30, [], [], 22, 14, .rw, .val 0x40, 0, 0x3fff, false⟩

/-- MEM_TIER_CFG.promote_heat, bits [43:36] (08). -/
def R.MEM_TIER_CFG_promote_heat : Fld := ⟨216, 9, 0x30, [], [], 36, 8, .rw, .val 0x40, 1, 0xff, false⟩

/-- MEM_AGE_CFG.period_log2, bits [3:0] (08). -/
def R.MEM_AGE_CFG_period_log2 : Fld := ⟨217, 9, 0x38, [], [], 0, 4, .rw, .val 0xa, 0, 0xf, false⟩

/-- MEM_AGE_CFG.min_demote_age, bits [31:16] (08). -/
def R.MEM_AGE_CFG_min_demote_age : Fld := ⟨218, 9, 0x38, [], [], 16, 16, .rw, .val 0x10, 0, 0xffff, false⟩

/-- MEM_AGE_CFG.swap_age, bits [47:32] (08). -/
def R.MEM_AGE_CFG_swap_age : Fld := ⟨219, 9, 0x38, [], [], 32, 16, .rw, .val 0x400, 0, 0xffff, false⟩

/-- MEM_PC_CTL[s][pc].recal, bits [0:0] (08). -/
def R.MEM_PC_CTL_recal : Fld := ⟨220, 9, 0x20000, [256, 8], [20, 32], 0, 1, .w1s, .val 0x0, 0, 0x1, false⟩

/-- MEM_PC_CTL[s][pc].release, bits [1:1] (08). -/
def R.MEM_PC_CTL_release : Fld := ⟨221, 9, 0x20000, [256, 8], [20, 32], 1, 1, .wo, .val 0x0, 0, 0x1, false⟩

/-- MEM_PC_CTL[s][pc].pattern_run, bits [2:2] (08). -/
def R.MEM_PC_CTL_pattern_run : Fld := ⟨222, 9, 0x20000, [256, 8], [20, 32], 2, 1, .wo, .val 0x0, 0, 0x1, false⟩

/-- MEM_PC_CTL[s][pc].pattern_pass, bits [3:3] (08). -/
def R.MEM_PC_CTL_pattern_pass : Fld := ⟨223, 9, 0x20000, [256, 8], [20, 32], 3, 1, .ro, .val 0x0, 0, 0x1, false⟩

/-- MEM_PC_CTL[s][pc].lane_fail, bits [43:4] (08). -/
def R.MEM_PC_CTL_lane_fail : Fld := ⟨224, 9, 0x20000, [256, 8], [20, 32], 4, 40, .ro, .val 0x0, 0, 0xffffffffff, false⟩

/-- MEM_DLY_DQ[s][pc][k].rd_fine, bits [6:0] (08). -/
def R.MEM_DLY_DQ_rd_fine : Fld := ⟨225, 9, 0x100000, [16384, 512, 8], [20, 32, 40], 0, 7, .rw, .val 0x0, 0, 0x7f, false⟩

/-- MEM_DLY_DQ[s][pc][k].rd_coarse, bits [10:8] (08). -/
def R.MEM_DLY_DQ_rd_coarse : Fld := ⟨226, 9, 0x100000, [16384, 512, 8], [20, 32, 40], 8, 3, .rw, .val 0x0, 0, 0x7, false⟩

/-- MEM_DLY_DQ[s][pc][k].wr_fine, bits [22:16] (08). -/
def R.MEM_DLY_DQ_wr_fine : Fld := ⟨227, 9, 0x100000, [16384, 512, 8], [20, 32, 40], 16, 7, .rw, .val 0x0, 0, 0x7f, false⟩

/-- MEM_DLY_DQ[s][pc][k].wr_coarse, bits [26:24] (08). -/
def R.MEM_DLY_DQ_wr_coarse : Fld := ⟨228, 9, 0x100000, [16384, 512, 8], [20, 32, 40], 24, 3, .rw, .val 0x0, 0, 0x7, false⟩

/-- MEM_DLY_CA[s][ch][k].fine, bits [6:0] (08). -/
def R.MEM_DLY_CA_fine : Fld := ⟨229, 9, 0x180000, [4096, 256, 8], [20, 16, 18], 0, 7, .rw, .val 0x0, 0, 0x7f, false⟩

/-- MEM_DLY_CA[s][ch][k].coarse, bits [10:8] (08). -/
def R.MEM_DLY_CA_coarse : Fld := ⟨230, 9, 0x180000, [4096, 256, 8], [20, 16, 18], 8, 3, .rw, .val 0x0, 0, 0x7, false⟩

/-- MEM_EVT.events, bits [8:0] (08). -/
def R.MEM_EVT_events : Fld := ⟨231, 9, 0x0, [], [], 0, 9, .w1c, .val 0x0, 0, 0x1ff, false⟩

/-- MEM_INT_EN.enables, bits [8:0] (08). -/
def R.MEM_INT_EN_enables : Fld := ⟨232, 9, 0x8, [], [], 0, 9, .rw, .val 0x0, 0, 0x1ff, false⟩

/-- MEM_PD_CFG.pd_timer, bits [15:0] (08). -/
def R.MEM_PD_CFG_pd_timer : Fld := ⟨233, 9, 0x18, [], [], 0, 16, .rw, .val 0x40, 0, 0xffff, false⟩

/-- MEM_MIG_CFG.max_moves, bits [3:0] (08). -/
def R.MEM_MIG_CFG_max_moves : Fld := ⟨234, 9, 0x40, [], [], 0, 4, .rw, .val 0x4, 1, 0x8, false⟩

/-- MEM_MIG_CFG.gap, bits [15:8] (08). -/
def R.MEM_MIG_CFG_gap : Fld := ⟨235, 9, 0x40, [], [], 8, 8, .rw, .val 0x40, 0, 0xff, false⟩

/-- MEM_MIG_STATUS[d].active, bits [3:0] (08). -/
def R.MEM_MIG_STATUS_active : Fld := ⟨236, 9, 0x48, [8], [2], 0, 4, .ro, .val 0x0, 0, 0xf, false⟩

/-- MEM_MIG_STATUS[d].stack_free, bits [17:4] (08). -/
def R.MEM_MIG_STATUS_stack_free : Fld := ⟨237, 9, 0x48, [8], [2], 4, 14, .ro, .val 0x0, 0, 0x3fff, false⟩

/-- MEM_RECAL_CFG.max_window, bits [15:0] (08). -/
def R.MEM_RECAL_CFG_max_window : Fld := ⟨238, 9, 0x50, [], [], 0, 16, .rw, .val 0x7d, 0, 0xfa, false⟩

/-- MEM_PATROL_CFG.lines_per_beat, bits [7:0] (08). -/
def R.MEM_PATROL_CFG_lines_per_beat : Fld := ⟨239, 9, 0x58, [], [], 0, 8, .rw, .val 0x8, 0, 0xff, false⟩

/-- MEM_MOVE_CMD.extent, bits [17:0] (08). -/
def R.MEM_MOVE_CMD_extent : Fld := ⟨240, 9, 0x60, [], [], 0, 18, .wo, .val 0x0, 0, 0x3ffff, false⟩

/-- MEM_MOVE_CMD.dst_tier, bits [18:18] (08). -/
def R.MEM_MOVE_CMD_dst_tier : Fld := ⟨241, 9, 0x60, [], [], 18, 1, .wo, .val 0x0, 0, 0x1, false⟩

/-- MEM_MOVE_CMD.dst_die, bits [19:19] (08). -/
def R.MEM_MOVE_CMD_dst_die : Fld := ⟨242, 9, 0x60, [], [], 19, 1, .wo, .val 0x0, 0, 0x1, false⟩

/-- MEM_MOVE_RESULT.status, bits [3:0] (08). -/
def R.MEM_MOVE_RESULT_status : Fld := ⟨243, 9, 0x68, [], [], 0, 4, .ro, .val 0x0, 0, 0xf, false⟩

/-- MEM_ERR_INFO.stack, bits [4:0] (08). -/
def R.MEM_ERR_INFO_stack : Fld := ⟨244, 9, 0x70, [], [], 0, 5, .ro, .val 0x0, 0, 0x1f, false⟩

/-- MEM_ERR_INFO.pc, bits [9:5] (08). -/
def R.MEM_ERR_INFO_pc : Fld := ⟨245, 9, 0x70, [], [], 5, 5, .ro, .val 0x0, 0, 0x1f, false⟩

/-- MEM_ERR_INFO.extent, bits [27:10] (08). -/
def R.MEM_ERR_INFO_extent : Fld := ⟨246, 9, 0x70, [], [], 10, 18, .ro, .val 0x0, 0, 0x3ffff, false⟩

/-- MEM_ERR_INFO.line, bits [46:28] (08). -/
def R.MEM_ERR_INFO_line : Fld := ⟨247, 9, 0x70, [], [], 28, 19, .ro, .val 0x0, 0, 0x7ffff, false⟩

/-- MEM_STACK_CTL[s].retire, bits [0:0] (08). -/
def R.MEM_STACK_CTL_retire : Fld := ⟨248, 9, 0x1000, [32], [20], 0, 1, .wo, .val 0x0, 0, 0x1, false⟩

/-- MEM_STACK_STATUS[s].state, bits [2:0] (08). -/
def R.MEM_STACK_STATUS_state : Fld := ⟨249, 9, 0x1008, [32], [20], 0, 3, .ro, .val 0x0, 0, 0x7, false⟩

/-- MEM_STACK_STATUS[s].result, bits [6:3] (08). -/
def R.MEM_STACK_STATUS_result : Fld := ⟨250, 9, 0x1008, [32], [20], 3, 4, .ro, .val 0x0, 0, 0xf, false⟩

/-- MEM_STACK_STATUS[s].occupied, bits [17:7] (08). -/
def R.MEM_STACK_STATUS_occupied : Fld := ⟨251, 9, 0x1008, [32], [20], 7, 11, .ro, .val 0x0, 0, 0x7ff, false⟩

/-- MEM_STACK_STATUS[s].temp, bits [25:18] (08). -/
def R.MEM_STACK_STATUS_temp : Fld := ⟨252, 9, 0x1008, [32], [20], 18, 8, .ro, .val 0x0, 0, 0xff, false⟩

/-- MEM_STACK_STATUS[s].failed_pcs, bits [63:32] (08). -/
def R.MEM_STACK_STATUS_failed_pcs : Fld := ⟨253, 9, 0x1008, [32], [20], 32, 32, .ro, .val 0x0, 0, 0xffffffff, false⟩

/-- MEM_PC_STATUS[s][pc].state, bits [1:0] (08). -/
def R.MEM_PC_STATUS_state : Fld := ⟨254, 9, 0x30000, [256, 8], [20, 32], 0, 2, .ro, .val 0x0, 0, 0x3, false⟩

/-- MEM_PC_STATUS[s][pc].powered_down, bits [2:2] (08). -/
def R.MEM_PC_STATUS_powered_down : Fld := ⟨255, 9, 0x30000, [256, 8], [20, 32], 2, 1, .ro, .val 0x0, 0, 0x1, false⟩

/-- MEM_PC_STATUS[s][pc].refresh_owed, bits [6:3] (08). -/
def R.MEM_PC_STATUS_refresh_owed : Fld := ⟨256, 9, 0x30000, [256, 8], [20, 32], 3, 4, .ro, .val 0x0, 0, 0xf, false⟩

/-- MEM_CNT[s][k].count, bits [47:0] (08). -/
def R.MEM_CNT_count : Fld := ⟨257, 9, 0x40000, [64, 8], [20, 8], 0, 48, .ro, .val 0x0, 0, 0xffffffffffff, false⟩

/-- MEM_DIE_CNT[d][k].count, bits [47:0] (08). -/
def R.MEM_DIE_CNT_count : Fld := ⟨258, 9, 0x50000, [64, 8], [2, 8], 0, 48, .ro, .val 0x0, 0, 0xffffffffffff, false⟩

/-- BRD_CH_STATUS[c].state, bits [2:0] (08). -/
def R.BRD_CH_STATUS_state : Fld := ⟨259, 10, 0x1008, [32], [8], 0, 3, .ro, .val 0x0, 0, 0x7, false⟩

/-- BRD_CH_STATUS[c].mrdimm, bits [3:3] (08). -/
def R.BRD_CH_STATUS_mrdimm : Fld := ⟨260, 10, 0x1008, [32], [8], 3, 1, .ro, .val 0x0, 0, 0x1, false⟩

/-- BRD_CH_STATUS[c].result, bits [7:4] (08). -/
def R.BRD_CH_STATUS_result : Fld := ⟨261, 10, 0x1008, [32], [8], 4, 4, .ro, .val 0x0, 0, 0xf, false⟩

/-- BRD_CH_STATUS[c].slots, bits [21:8] (08). -/
def R.BRD_CH_STATUS_slots : Fld := ⟨262, 10, 0x1008, [32], [8], 8, 14, .ro, .val 0x0, 0, 0x3fff, false⟩

/-- BRD_CH_STATUS[c].occupied, bits [35:22] (08). -/
def R.BRD_CH_STATUS_occupied : Fld := ⟨263, 10, 0x1008, [32], [8], 22, 14, .ro, .val 0x0, 0, 0x3fff, false⟩

/-- BRD_CH_STATUS[c].capacity, bits [45:36] (08). -/
def R.BRD_CH_STATUS_capacity : Fld := ⟨264, 10, 0x1008, [32], [8], 36, 10, .ro, .val 0x0, 0, 0x3ff, false⟩

/-- BRD_EVT.events, bits [5:0] (08). -/
def R.BRD_EVT_events : Fld := ⟨265, 10, 0x0, [], [], 0, 6, .w1c, .val 0x0, 0, 0x3f, false⟩

/-- BRD_INT_EN.enables, bits [5:0] (08). -/
def R.BRD_INT_EN_enables : Fld := ⟨266, 10, 0x8, [], [], 0, 6, .rw, .val 0x0, 0, 0x3f, false⟩

/-- BRD_PATROL_CFG.lines_per_beat, bits [7:0] (08). -/
def R.BRD_PATROL_CFG_lines_per_beat : Fld := ⟨267, 10, 0x10, [], [], 0, 8, .rw, .val 0x2, 0, 0xff, false⟩

/-- BRD_ERR_INFO.channel, bits [2:0] (08). -/
def R.BRD_ERR_INFO_channel : Fld := ⟨268, 10, 0x18, [], [], 0, 3, .ro, .val 0x0, 0, 0x7, false⟩

/-- BRD_ERR_INFO.subchannel, bits [3:3] (08). -/
def R.BRD_ERR_INFO_subchannel : Fld := ⟨269, 10, 0x18, [], [], 3, 1, .ro, .val 0x0, 0, 0x1, false⟩

/-- BRD_ERR_INFO.extent, bits [21:4] (08). -/
def R.BRD_ERR_INFO_extent : Fld := ⟨270, 10, 0x18, [], [], 4, 18, .ro, .val 0x0, 0, 0x3ffff, false⟩

/-- BRD_ERR_INFO.line, bits [40:22] (08). -/
def R.BRD_ERR_INFO_line : Fld := ⟨271, 10, 0x18, [], [], 22, 19, .ro, .val 0x0, 0, 0x7ffff, false⟩

/-- BRD_CH_CTL[c].enable, bits [0:0] (08). -/
def R.BRD_CH_CTL_enable : Fld := ⟨272, 10, 0x1000, [32], [8], 0, 1, .wo, .val 0x0, 0, 0x1, false⟩

/-- BRD_CH_CTL[c].drain, bits [1:1] (08). -/
def R.BRD_CH_CTL_drain : Fld := ⟨273, 10, 0x1000, [32], [8], 1, 1, .wo, .val 0x0, 0, 0x1, false⟩

/-- BRD_CH_CTL[c].power_off, bits [2:2] (08). -/
def R.BRD_CH_CTL_power_off : Fld := ⟨274, 10, 0x1000, [32], [8], 2, 1, .wo, .val 0x0, 0, 0x1, false⟩

/-- BRD_KEY_STATUS[t].valid, bits [0:0] (08). -/
def R.BRD_KEY_STATUS_valid : Fld := ⟨275, 10, 0x2000, [8], [33], 0, 1, .ro, .val 0x0, 0, 0x1, false⟩

/-- BRD_KEY_STATUS[t].slots, bits [17:1] (08). -/
def R.BRD_KEY_STATUS_slots : Fld := ⟨276, 10, 0x2000, [8], [33], 1, 17, .ro, .val 0x0, 0, 0x1ffff, false⟩

/-- BRD_CNT[c][k].count, bits [47:0] (08). -/
def R.BRD_CNT_count : Fld := ⟨277, 10, 0x3000, [64, 8], [8, 6], 0, 48, .ro, .val 0x0, 0, 0xffffffffffff, false⟩

/-- CMP_STEAL_CFG.die_en, bits [0:0] (09). -/
def R.CMP_STEAL_CFG_die_en : Fld := ⟨278, 11, 0x10, [], [], 0, 1, .rw, .val 0x1, 0, 0x1, false⟩

/-- CMP_STEAL_CFG.pkg_en, bits [1:1] (09). -/
def R.CMP_STEAL_CFG_pkg_en : Fld := ⟨279, 11, 0x10, [], [], 1, 1, .rw, .val 0x1, 0, 0x1, false⟩

/-- CMP_STEAL_CFG.die_delay, bits [15:8] (09). -/
def R.CMP_STEAL_CFG_die_delay : Fld := ⟨280, 11, 0x10, [], [], 8, 8, .rw, .val 0x19, 0, 0xff, false⟩

/-- CMP_STEAL_CFG.pkg_delay, bits [31:16] (09). -/
def R.CMP_STEAL_CFG_pkg_delay : Fld := ⟨281, 11, 0x10, [], [], 16, 16, .rw, .val 0x7d, 0, 0xffff, false⟩

/-- CMP_STEAL_CFG.min_hint, bits [35:32] (09). -/
def R.CMP_STEAL_CFG_min_hint : Fld := ⟨282, 11, 0x10, [], [], 32, 4, .rw, .val 0x2, 1, 0xf, false⟩

/-- CMP_CSRAM_CFG[c].general, bits [6:0] (09). -/
def R.CMP_CSRAM_CFG_general : Fld := ⟨283, 11, 0x1010, [32], [16], 0, 7, .rw, .val 0x10, 0, 0x7f, false⟩

/-- CMP_CSRAM_CFG[c].accum, bits [14:8] (09). -/
def R.CMP_CSRAM_CFG_accum : Fld := ⟨284, 11, 0x1010, [32], [16], 8, 7, .rw, .val 0x10, 0, 0x7f, false⟩

/-- CMP_CSRAM_CFG[c].taskq, bits [22:16] (09). -/
def R.CMP_CSRAM_CFG_taskq : Fld := ⟨285, 11, 0x1010, [32], [16], 16, 7, .rw, .val 0x4, 0, 0x7f, false⟩

/-- CMP_CSRAM_CFG[c].row_cache, bits [30:24] (09). -/
def R.CMP_CSRAM_CFG_row_cache : Fld := ⟨286, 11, 0x1010, [32], [16], 24, 7, .ro, .val 0x1c, 0, 0x7f, false⟩

/-- CMP_CLUSTER_STATUS[c].state, bits [2:0] (09). -/
def R.CMP_CLUSTER_STATUS_state : Fld := ⟨287, 11, 0x1018, [32], [16], 0, 3, .ro, .val 0x0, 0, 0x7, false⟩

/-- CMP_CLUSTER_STATUS[c].result, bits [6:3] (09). -/
def R.CMP_CLUSTER_STATUS_result : Fld := ⟨288, 11, 0x1018, [32], [16], 3, 4, .ro, .val 0x0, 0, 0xf, false⟩

/-- CMP_CLUSTER_STATUS[c].accums, bits [23:8] (09). -/
def R.CMP_CLUSTER_STATUS_accums : Fld := ⟨289, 11, 0x1018, [32], [16], 8, 16, .ro, .val 0x0, 0, 0xffff, false⟩

/-- CMP_CLUSTER_STATUS[c].overflow, bits [42:24] (09). -/
def R.CMP_CLUSTER_STATUS_overflow : Fld := ⟨290, 11, 0x1018, [32], [16], 24, 19, .ro, .val 0x0, 0, 0x7ffff, false⟩

/-- CMP_CLUSTER_STATUS[c].handles, bits [50:43] (09). -/
def R.CMP_CLUSTER_STATUS_handles : Fld := ⟨291, 11, 0x1018, [32], [16], 43, 8, .ro, .val 0x0, 0, 0xff, false⟩

/-- CMP_CORE_STATUS[n].state, bits [1:0] (09). -/
def R.CMP_CORE_STATUS_state : Fld := ⟨292, 11, 0x2000, [8], [128], 0, 2, .ro, .val 0x0, 0, 0x3, false⟩

/-- CMP_CORE_STATUS[n].depth, bits [26:8] (09). -/
def R.CMP_CORE_STATUS_depth : Fld := ⟨293, 11, 0x2000, [8], [128], 8, 19, .ro, .val 0x0, 0, 0x7ffff, false⟩

/-- CMP_CORE_STATUS[n].hint_cluster, bits [30:27] (09). -/
def R.CMP_CORE_STATUS_hint_cluster : Fld := ⟨294, 11, 0x2000, [8], [128], 27, 4, .ro, .val 0x0, 0, 0xf, false⟩

/-- CMP_CORE_STATUS[n].hint_die, bits [34:31] (09). -/
def R.CMP_CORE_STATUS_hint_die : Fld := ⟨295, 11, 0x2000, [8], [128], 31, 4, .ro, .val 0x0, 0, 0xf, false⟩

/-- CMP_CORE_STATUS[n].hint_pkg, bits [38:35] (09). -/
def R.CMP_CORE_STATUS_hint_pkg : Fld := ⟨296, 11, 0x2000, [8], [128], 35, 4, .ro, .val 0x0, 0, 0xf, false⟩

/-- CMP_CORE_STATUS[n].image, bits [47:40] (09). -/
def R.CMP_CORE_STATUS_image : Fld := ⟨297, 11, 0x2000, [8], [128], 40, 8, .ro, .val 0x0, 0, 0xff, false⟩

/-- CMP_HANDLE[n][h].bound, bits [0:0] (09). -/
def R.CMP_HANDLE_bound : Fld := ⟨298, 11, 0x3000, [128, 8], [128, 16], 0, 1, .ro, .val 0x0, 0, 0x1, false⟩

/-- CMP_HANDLE[n][h].csram, bits [1:1] (09). -/
def R.CMP_HANDLE_csram : Fld := ⟨299, 11, 0x3000, [128, 8], [128, 16], 1, 1, .ro, .val 0x0, 0, 0x1, false⟩

/-- CMP_HANDLE[n][h].slot_log2, bits [5:2] (09). -/
def R.CMP_HANDLE_slot_log2 : Fld := ⟨300, 11, 0x3000, [128, 8], [128, 16], 2, 4, .ro, .val 0x0, 0, 0xf, false⟩

/-- CMP_HANDLE[n][h].producer, bits [7:6] (09). -/
def R.CMP_HANDLE_producer : Fld := ⟨301, 11, 0x3000, [128, 8], [128, 16], 6, 2, .ro, .val 0x0, 0, 0x3, false⟩

/-- CMP_HANDLE[n][h].slots_m1, bits [31:16] (09). -/
def R.CMP_HANDLE_slots_m1 : Fld := ⟨302, 11, 0x3000, [128, 8], [128, 16], 16, 16, .ro, .val 0x0, 0, 0xffff, false⟩

/-- CMP_HANDLE[n][h].prod, bits [47:32] (09). -/
def R.CMP_HANDLE_prod : Fld := ⟨303, 11, 0x3000, [128, 8], [128, 16], 32, 16, .ro, .val 0x0, 0, 0xffff, false⟩

/-- CMP_HANDLE[n][h].cons, bits [63:48] (09). -/
def R.CMP_HANDLE_cons : Fld := ⟨304, 11, 0x3000, [128, 8], [128, 16], 48, 16, .ro, .val 0x0, 0, 0xffff, false⟩

/-- CMP_EVT.events, bits [5:0] (09). -/
def R.CMP_EVT_events : Fld := ⟨305, 11, 0x0, [], [], 0, 6, .w1c, .val 0x0, 0, 0x3f, false⟩

/-- CMP_INT_EN.enables, bits [5:0] (09). -/
def R.CMP_INT_EN_enables : Fld := ⟨306, 11, 0x8, [], [], 0, 6, .rw, .val 0x0, 0, 0x3f, false⟩

/-- CMP_OFFLINE_CFG.timeout, bits [15:0] (09). -/
def R.CMP_OFFLINE_CFG_timeout : Fld := ⟨307, 11, 0x18, [], [], 0, 16, .rw, .val 0x2710, 1, 0xffff, false⟩

/-- CMP_FAULT_INFO.core, bits [6:0] (09). -/
def R.CMP_FAULT_INFO_core : Fld := ⟨308, 11, 0x20, [], [], 0, 7, .ro, .val 0x0, 0, 0x7f, false⟩

/-- CMP_FAULT_INFO.cause, bits [15:8] (09). -/
def R.CMP_FAULT_INFO_cause : Fld := ⟨309, 11, 0x20, [], [], 8, 8, .ro, .val 0x0, 0, 0xff, false⟩

/-- CMP_FAULT_INFO.image, bits [23:16] (09). -/
def R.CMP_FAULT_INFO_image : Fld := ⟨310, 11, 0x20, [], [], 16, 8, .ro, .val 0x0, 0, 0xff, false⟩

/-- CMP_FAULT_INFO.offset, bits [63:32] (09). -/
def R.CMP_FAULT_INFO_offset : Fld := ⟨311, 11, 0x20, [], [], 32, 32, .ro, .val 0x0, 0, 0xffffffff, false⟩

/-- CMP_FAULT_USER.user, bits [31:0] (09). -/
def R.CMP_FAULT_USER_user : Fld := ⟨312, 11, 0x28, [], [], 0, 32, .ro, .val 0x0, 0, 0xffffffff, false⟩

/-- CMP_TASK_STAGE[k].word, bits [63:0] (09). -/
def R.CMP_TASK_STAGE_word : Fld := ⟨313, 11, 0x40, [8], [8], 0, 64, .rw, .val 0x0, 0, 0xffffffffffffffff, true⟩

/-- CMP_TASK_PUSH.cluster, bits [3:0] (09). -/
def R.CMP_TASK_PUSH_cluster : Fld := ⟨314, 11, 0x80, [], [], 0, 4, .wo, .val 0x0, 0, 0xf, true⟩

/-- CMP_TASK_PUSH.core, bits [6:4] (09). -/
def R.CMP_TASK_PUSH_core : Fld := ⟨315, 11, 0x80, [], [], 4, 3, .wo, .val 0x0, 0, 0x7, true⟩

/-- CMP_TASK_PUSH.any, bits [7:7] (09). -/
def R.CMP_TASK_PUSH_any : Fld := ⟨316, 11, 0x80, [], [], 7, 1, .wo, .val 0x0, 0, 0x1, true⟩

/-- CMP_TASK_RESULT.status, bits [3:0] (09). -/
def R.CMP_TASK_RESULT_status : Fld := ⟨317, 11, 0x88, [], [], 0, 4, .ro, .val 0x0, 0, 0xf, true⟩

/-- CMP_CLUSTER_CTL[c].offline, bits [0:0] (09). -/
def R.CMP_CLUSTER_CTL_offline : Fld := ⟨318, 11, 0x1000, [32], [16], 0, 1, .wo, .val 0x0, 0, 0x1, false⟩

/-- CMP_CLUSTER_CTL[c].online, bits [1:1] (09). -/
def R.CMP_CLUSTER_CTL_online : Fld := ⟨319, 11, 0x1000, [32], [16], 1, 1, .wo, .val 0x0, 0, 0x1, false⟩

/-- CMP_CLUSTER_CTL[c].kill, bits [2:2] (09). -/
def R.CMP_CLUSTER_CTL_kill : Fld := ⟨320, 11, 0x1000, [32], [16], 2, 1, .wo, .val 0x0, 0, 0x1, false⟩

/-- CMP_CLUSTER_CFG[c].tenant, bits [4:0] (09). -/
def R.CMP_CLUSTER_CFG_tenant : Fld := ⟨321, 11, 0x1008, [32], [16], 0, 5, .rw, .val 0x0, 0, 0x1f, false⟩

/-- CMP_CNT[c][k].count, bits [47:0] (09). -/
def R.CMP_CNT_count : Fld := ⟨322, 11, 0x8000, [128, 8], [16, 13], 0, 48, .ro, .val 0x0, 0, 0xffffffffffff, false⟩

/-- QPE_CMD.op, bits [3:0] (12). -/
def R.QPE_CMD_op : Fld := ⟨323, 12, 0x40, [], [], 0, 4, .wo, .val 0x0, 0, 0xf, true⟩

/-- QPE_CMD.target, bits [21:4] (12). -/
def R.QPE_CMD_target : Fld := ⟨324, 12, 0x40, [], [], 4, 18, .wo, .val 0x0, 0, 0x3ffff, true⟩

/-- QPE_CMD_RESULT.status, bits [3:0] (12). -/
def R.QPE_CMD_RESULT_status : Fld := ⟨325, 12, 0x48, [], [], 0, 4, .ro, .val 0x0, 0, 0xf, true⟩

/-- QPE_CMD_RESULT.busy, bits [4:4] (12). -/
def R.QPE_CMD_RESULT_busy : Fld := ⟨326, 12, 0x48, [], [], 4, 1, .ro, .val 0x0, 0, 0x1, true⟩

/-- QPE_CMD_RESULT.result, bits [22:5] (12). -/
def R.QPE_CMD_RESULT_result : Fld := ⟨327, 12, 0x48, [], [], 5, 18, .ro, .val 0x0, 0, 0x3ffff, true⟩

/-- QPE_EVT.events, bits [4:0] (12). -/
def R.QPE_EVT_events : Fld := ⟨328, 12, 0x0, [], [], 0, 5, .w1c, .val 0x0, 0, 0x1f, false⟩

/-- QPE_INT_EN.enables, bits [4:0] (12). -/
def R.QPE_INT_EN_enables : Fld := ⟨329, 12, 0x8, [], [], 0, 5, .rw, .val 0x0, 0, 0x1f, false⟩

/-- QPE_ERR_INFO.qpn, bits [17:0] (12). -/
def R.QPE_ERR_INFO_qpn : Fld := ⟨330, 12, 0x10, [], [], 0, 18, .ro, .val 0x0, 0, 0x3ffff, false⟩

/-- QPE_ERR_INFO.status, bits [21:18] (12). -/
def R.QPE_ERR_INFO_status : Fld := ⟨331, 12, 0x10, [], [], 18, 4, .ro, .val 0x0, 0, 0xf, false⟩

/-- QPE_ERR_INFO.psn, bits [45:22] (12). -/
def R.QPE_ERR_INFO_psn : Fld := ⟨332, 12, 0x10, [], [], 22, 24, .ro, .val 0x0, 0, 0xffffff, false⟩

/-- QPE_ERR_INFO.peer_eid, bits [61:46] (12). -/
def R.QPE_ERR_INFO_peer_eid : Fld := ⟨333, 12, 0x10, [], [], 46, 16, .ro, .val 0x0, 0, 0xffff, false⟩

/-- QPE_STATUS[d].cached, bits [13:0] (12). -/
def R.QPE_STATUS_cached : Fld := ⟨334, 12, 0x18, [8], [2], 0, 14, .ro, .val 0x0, 0, 0x3fff, false⟩

/-- QPE_STATUS[d].active, bits [31:14] (12). -/
def R.QPE_STATUS_active : Fld := ⟨335, 12, 0x18, [8], [2], 14, 18, .ro, .val 0x0, 0, 0x3ffff, false⟩

/-- QPE_STATUS[d].flushing, bits [49:32] (12). -/
def R.QPE_STATUS_flushing : Fld := ⟨336, 12, 0x18, [8], [2], 32, 18, .ro, .val 0x0, 0, 0x3ffff, false⟩

/-- QPE_CMD_STAGE[k].word, bits [63:0] (12). -/
def R.QPE_CMD_STAGE_word : Fld := ⟨337, 12, 0x80, [8], [16], 0, 64, .rw, .val 0x0, 0, 0xffffffffffffffff, true⟩

/-- QPE_CNT[d][k].count, bits [47:0] (12). -/
def R.QPE_CNT_count : Fld := ⟨338, 12, 0x1000, [128, 8], [2, 12], 0, 48, .ro, .val 0x0, 0, 0xffffffffffff, false⟩

/-- CDC_CMD.op, bits [3:0] (13). -/
def R.CDC_CMD_op : Fld := ⟨339, 15, 0x40, [], [], 0, 4, .wo, .val 0x0, 0, 0xf, true⟩

/-- CDC_CMD.stream, bits [15:4] (13). -/
def R.CDC_CMD_stream : Fld := ⟨340, 15, 0x40, [], [], 4, 12, .wo, .val 0x0, 0, 0xfff, true⟩

/-- CDC_CMD.die, bits [16:16] (13). -/
def R.CDC_CMD_die : Fld := ⟨341, 15, 0x40, [], [], 16, 1, .wo, .val 0x0, 0, 0x1, true⟩

/-- CDC_CMD_RESULT.status, bits [3:0] (13). -/
def R.CDC_CMD_RESULT_status : Fld := ⟨342, 15, 0x48, [], [], 0, 4, .ro, .val 0x0, 0, 0xf, true⟩

/-- CDC_CMD_RESULT.busy, bits [4:4] (13). -/
def R.CDC_CMD_RESULT_busy : Fld := ⟨343, 15, 0x48, [], [], 4, 1, .ro, .val 0x0, 0, 0x1, true⟩

/-- CDC_CMD_RESULT.gen, bits [12:5] (13). -/
def R.CDC_CMD_RESULT_gen : Fld := ⟨344, 15, 0x48, [], [], 5, 8, .ro, .val 0x0, 0, 0xff, true⟩

/-- CDC_EVT.events, bits [3:0] (13). -/
def R.CDC_EVT_events : Fld := ⟨345, 15, 0x0, [], [], 0, 4, .w1c, .val 0x0, 0, 0xf, false⟩

/-- CDC_INT_EN.enables, bits [3:0] (13). -/
def R.CDC_INT_EN_enables : Fld := ⟨346, 15, 0x8, [], [], 0, 4, .rw, .val 0x0, 0, 0xf, false⟩

/-- CDC_ERR_INFO.stream, bits [11:0] (13). -/
def R.CDC_ERR_INFO_stream : Fld := ⟨347, 15, 0x10, [], [], 0, 12, .ro, .val 0x0, 0, 0xfff, false⟩

/-- CDC_ERR_INFO.die, bits [12:12] (13). -/
def R.CDC_ERR_INFO_die : Fld := ⟨348, 15, 0x10, [], [], 12, 1, .ro, .val 0x0, 0, 0x1, false⟩

/-- CDC_ERR_INFO.port, bits [23:16] (13). -/
def R.CDC_ERR_INFO_port : Fld := ⟨349, 15, 0x10, [], [], 16, 8, .ro, .val 0x0, 0, 0xff, false⟩

/-- CDC_ERR_INFO.src_eid, bits [39:24] (13). -/
def R.CDC_ERR_INFO_src_eid : Fld := ⟨350, 15, 0x10, [], [], 24, 16, .ro, .val 0x0, 0, 0xffff, false⟩

/-- CDC_ERR_INFO.cause, bits [42:40] (13). -/
def R.CDC_ERR_INFO_cause : Fld := ⟨351, 15, 0x10, [], [], 40, 3, .ro, .val 0x0, 0, 0x7, false⟩

/-- CDC_ERR_BLOCK.block, bits [31:0] (13). -/
def R.CDC_ERR_BLOCK_block : Fld := ⟨352, 15, 0x18, [], [], 0, 32, .ro, .val 0x0, 0, 0xffffffff, false⟩

/-- CDC_STAGE[k].word, bits [63:0] (13). -/
def R.CDC_STAGE_word : Fld := ⟨353, 15, 0x80, [8], [20], 0, 64, .rw, .val 0x0, 0, 0xffffffffffffffff, true⟩

/-- CDC_CNT[d][k].count, bits [47:0] (13). -/
def R.CDC_CNT_count : Fld := ⟨354, 15, 0x1000, [128, 8], [2, 10], 0, 48, .ro, .val 0x0, 0, 0xffffffffffff, false⟩

/-- CDC_STREAM[d][s].descriptor, bits [255:0] (13). -/
def R.CDC_STREAM_descriptor : Fld := ⟨355, 15, 0x100000, [131072, 32], [2, 4096], 0, 256, .ro, .val 0x0, 0, 0xffffffffffffffffffffffffffffffffffffffffffffffffffffffffffffffff, false⟩

/-- CDC_TABLE[d][s][g].lengths, bits [1023:0] (13). -/
def R.CDC_TABLE_lengths : Fld := ⟨356, 15, 0x200000, [1048576, 256, 128], [2, 4096, 2], 0, 1024, .ro, .val 0x0, 0, 0xffffffffffffffffffffffffffffffffffffffffffffffffffffffffffffffffffffffffffffffffffffffffffffffffffffffffffffffffffffffffffffffffffffffffffffffffffffffffffffffffffffffffffffffffffffffffffffffffffffffffffffffffffffffffffffffffffffffffffffffffffffffffffffffff, false⟩

/-- CLT_CMD.op, bits [3:0] (14). -/
def R.CLT_CMD_op : Fld := ⟨357, 13, 0x40, [], [], 0, 4, .wo, .val 0x0, 0, 0xf, true⟩

/-- CLT_CMD.slot, bits [15:4] (14). -/
def R.CLT_CMD_slot : Fld := ⟨358, 13, 0x40, [], [], 4, 12, .wo, .val 0x0, 0, 0xfff, true⟩

/-- CLT_CMD.index, bits [24:16] (14). -/
def R.CLT_CMD_index : Fld := ⟨359, 13, 0x40, [], [], 16, 9, .wo, .val 0x0, 0, 0x1ff, true⟩

/-- CLT_CMD_RESULT.status, bits [3:0] (14). -/
def R.CLT_CMD_RESULT_status : Fld := ⟨360, 13, 0x48, [], [], 0, 4, .ro, .val 0x0, 0, 0xf, true⟩

/-- CLT_CMD_RESULT.busy, bits [4:4] (14). -/
def R.CLT_CMD_RESULT_busy : Fld := ⟨361, 13, 0x48, [], [], 4, 1, .ro, .val 0x0, 0, 0x1, true⟩

/-- CLT_COLL_STATUS[i].state, bits [2:0] (14). -/
def R.CLT_COLL_STATUS_state : Fld := ⟨362, 13, 0x10000, [16], [4096], 0, 3, .ro, .val 0x0, 0, 0x7, false⟩

/-- CLT_COLL_STATUS[i].tenant, bits [7:3] (14). -/
def R.CLT_COLL_STATUS_tenant : Fld := ⟨363, 13, 0x10000, [16], [4096], 3, 5, .ro, .val 0x0, 0, 0x1f, false⟩

/-- CLT_COLL_STATUS[i].last_status, bits [11:8] (14). -/
def R.CLT_COLL_STATUS_last_status : Fld := ⟨364, 13, 0x10000, [16], [4096], 8, 4, .ro, .val 0x0, 0, 0xf, false⟩

/-- CLT_COLL_STATUS[i].tag, bits [31:12] (14). -/
def R.CLT_COLL_STATUS_tag : Fld := ⟨365, 13, 0x10000, [16], [4096], 12, 20, .ro, .val 0x0, 0, 0xfffff, false⟩

/-- CLT_COLL_STATUS[i].step, bits [63:32] (14). -/
def R.CLT_COLL_STATUS_step : Fld := ⟨366, 13, 0x10000, [16], [4096], 32, 32, .ro, .val 0x0, 0, 0xffffffff, false⟩

/-- CLT_COLL_STATUS[i].beat, bits [95:64] (14). -/
def R.CLT_COLL_STATUS_beat : Fld := ⟨367, 13, 0x10000, [16], [4096], 64, 32, .ro, .val 0x0, 0, 0xffffffff, false⟩

/-- CLT_COLL_STATUS[i].live, bits [111:96] (14). -/
def R.CLT_COLL_STATUS_live : Fld := ⟨368, 13, 0x10000, [16], [4096], 96, 16, .ro, .val 0x0, 0, 0xffff, false⟩

/-- CLT_EVT.events, bits [6:0] (14). -/
def R.CLT_EVT_events : Fld := ⟨369, 13, 0x0, [], [], 0, 7, .w1c, .val 0x0, 0, 0x7f, false⟩

/-- CLT_INT_EN.enables, bits [6:0] (14). -/
def R.CLT_INT_EN_enables : Fld := ⟨370, 13, 0x8, [], [], 0, 7, .rw, .val 0x0, 0, 0x7f, false⟩

/-- CLT_FAIL_INFO.slot, bits [11:0] (14). -/
def R.CLT_FAIL_INFO_slot : Fld := ⟨371, 13, 0x10, [], [], 0, 12, .ro, .val 0x0, 0, 0xfff, false⟩

/-- CLT_FAIL_INFO.status, bits [15:12] (14). -/
def R.CLT_FAIL_INFO_status : Fld := ⟨372, 13, 0x10, [], [], 12, 4, .ro, .val 0x0, 0, 0xf, false⟩

/-- CLT_FAIL_INFO.chunk, bits [31:16] (14). -/
def R.CLT_FAIL_INFO_chunk : Fld := ⟨373, 13, 0x10, [], [], 16, 16, .ro, .val 0x0, 0, 0xffff, false⟩

/-- CLT_FAIL_INFO.step, bits [63:32] (14). -/
def R.CLT_FAIL_INFO_step : Fld := ⟨374, 13, 0x10, [], [], 32, 32, .ro, .val 0x0, 0, 0xffffffff, false⟩

/-- CLT_CMD_STAGE[k].word, bits [63:0] (14). -/
def R.CLT_CMD_STAGE_word : Fld := ⟨375, 13, 0x80, [8], [16], 0, 64, .rw, .val 0x0, 0, 0xffffffffffffffff, true⟩

/-- CLT_SPILL[d][k].extent, bits [17:0] (14). -/
def R.CLT_SPILL_extent : Fld := ⟨376, 13, 0x200, [128, 8], [2, 16], 0, 18, .rw, .val 0x0, 0, 0x3ffff, false⟩

/-- CLT_SPILL[d][k].valid, bits [18:18] (14). -/
def R.CLT_SPILL_valid : Fld := ⟨377, 13, 0x200, [128, 8], [2, 16], 18, 1, .rw, .val 0x0, 0, 0x1, false⟩

/-- CLT_CNT[d][k].count, bits [47:0] (14). -/
def R.CLT_CNT_count : Fld := ⟨378, 13, 0x20000, [128, 8], [2, 12], 0, 48, .ro, .val 0x0, 0, 0xffffffffffff, false⟩

/-- GTH_CMD.op, bits [3:0] (15). -/
def R.GTH_CMD_op : Fld := ⟨379, 14, 0x40, [], [], 0, 4, .wo, .val 0x0, 0, 0xf, true⟩

/-- GTH_CMD.slot, bits [13:4] (15). -/
def R.GTH_CMD_slot : Fld := ⟨380, 14, 0x40, [], [], 4, 10, .wo, .val 0x0, 0, 0x3ff, true⟩

/-- GTH_CMD_RESULT.status, bits [3:0] (15). -/
def R.GTH_CMD_RESULT_status : Fld := ⟨381, 14, 0x48, [], [], 0, 4, .ro, .val 0x0, 0, 0xf, true⟩

/-- GTH_CMD_RESULT.busy, bits [4:4] (15). -/
def R.GTH_CMD_RESULT_busy : Fld := ⟨382, 14, 0x48, [], [], 4, 1, .ro, .val 0x0, 0, 0x1, true⟩

/-- GTH_CMD_RESULT.gen, bits [47:16] (15). -/
def R.GTH_CMD_RESULT_gen : Fld := ⟨383, 14, 0x48, [], [], 16, 32, .ro, .val 0x0, 0, 0xffffffff, true⟩

/-- GTH_TABLE_STATUS[i].valid, bits [0:0] (15). -/
def R.GTH_TABLE_STATUS_valid : Fld := ⟨384, 14, 0x10000, [16], [1024], 0, 1, .ro, .val 0x0, 0, 0x1, false⟩

/-- GTH_TABLE_STATUS[i].kind, bits [1:1] (15). -/
def R.GTH_TABLE_STATUS_kind : Fld := ⟨385, 14, 0x10000, [16], [1024], 1, 1, .ro, .val 0x0, 0, 0x1, false⟩

/-- GTH_TABLE_STATUS[i].tenant, bits [6:2] (15). -/
def R.GTH_TABLE_STATUS_tenant : Fld := ⟨386, 14, 0x10000, [16], [1024], 2, 5, .ro, .val 0x0, 0, 0x1f, false⟩

/-- GTH_TABLE_STATUS[i].die, bits [7:7] (15). -/
def R.GTH_TABLE_STATUS_die : Fld := ⟨387, 14, 0x10000, [16], [1024], 7, 1, .ro, .val 0x0, 0, 0x1, false⟩

/-- GTH_TABLE_STATUS[i].tag, bits [31:10] (15). -/
def R.GTH_TABLE_STATUS_tag : Fld := ⟨388, 14, 0x10000, [16], [1024], 10, 22, .ro, .val 0x0, 0, 0x3fffff, false⟩

/-- GTH_TABLE_STATUS[i].gen, bits [63:32] (15). -/
def R.GTH_TABLE_STATUS_gen : Fld := ⟨389, 14, 0x10000, [16], [1024], 32, 32, .ro, .val 0x0, 0, 0xffffffff, false⟩

/-- GTH_TABLE_STATUS[i].live, bits [79:64] (15). -/
def R.GTH_TABLE_STATUS_live : Fld := ⟨390, 14, 0x10000, [16], [1024], 64, 16, .ro, .val 0x0, 0, 0xffff, false⟩

/-- GTH_TABLE_STATUS[i].updates, bits [95:80] (15). -/
def R.GTH_TABLE_STATUS_updates : Fld := ⟨391, 14, 0x10000, [16], [1024], 80, 16, .ro, .val 0x0, 0, 0xffff, false⟩

/-- GTH_EVT.events, bits [6:0] (15). -/
def R.GTH_EVT_events : Fld := ⟨392, 14, 0x0, [], [], 0, 7, .w1c, .val 0x0, 0, 0x7f, false⟩

/-- GTH_INT_EN.enables, bits [6:0] (15). -/
def R.GTH_INT_EN_enables : Fld := ⟨393, 14, 0x8, [], [], 0, 7, .rw, .val 0x0, 0, 0x7f, false⟩

/-- GTH_FAIL_INFO.slot, bits [9:0] (15). -/
def R.GTH_FAIL_INFO_slot : Fld := ⟨394, 14, 0x10, [], [], 0, 10, .ro, .val 0x0, 0, 0x3ff, false⟩

/-- GTH_FAIL_INFO.status, bits [15:12] (15). -/
def R.GTH_FAIL_INFO_status : Fld := ⟨395, 14, 0x10, [], [], 12, 4, .ro, .val 0x0, 0, 0xf, false⟩

/-- GTH_FAIL_INFO.row, bits [47:16] (15). -/
def R.GTH_FAIL_INFO_row : Fld := ⟨396, 14, 0x10, [], [], 16, 32, .ro, .val 0x0, 0, 0xffffffff, false⟩

/-- GTH_FAIL_INFO.src_eid, bits [63:48] (15). -/
def R.GTH_FAIL_INFO_src_eid : Fld := ⟨397, 14, 0x10, [], [], 48, 16, .ro, .val 0x0, 0, 0xffff, false⟩

/-- GTH_CMD_STAGE[k].word, bits [63:0] (15). -/
def R.GTH_CMD_STAGE_word : Fld := ⟨398, 14, 0x80, [8], [8], 0, 64, .rw, .val 0x0, 0, 0xffffffffffffffff, true⟩

/-- GTH_CFG.queue, bits [15:0] (15). -/
def R.GTH_CFG_queue : Fld := ⟨399, 14, 0x100, [], [], 0, 16, .rw, .val 0x400, 1, 0xffff, false⟩

/-- GTH_CFG.pin_window, bits [47:16] (15). -/
def R.GTH_CFG_pin_window : Fld := ⟨400, 14, 0x100, [], [], 16, 32, .rw, .val 0x1000, 0, 0x7fffffff, false⟩

/-- GTH_CACHE_CFG.enable, bits [0:0] (15). -/
def R.GTH_CACHE_CFG_enable : Fld := ⟨401, 14, 0x108, [], [], 0, 1, .rw, .val 0x1, 0, 0x1, false⟩

/-- GTH_CACHE_CFG.admit, bits [1:1] (15). -/
def R.GTH_CACHE_CFG_admit : Fld := ⟨402, 14, 0x108, [], [], 1, 1, .rw, .val 0x1, 0, 0x1, false⟩

/-- GTH_CACHE_CFG.decay_log2, bits [7:4] (15). -/
def R.GTH_CACHE_CFG_decay_log2 : Fld := ⟨403, 14, 0x108, [], [], 4, 4, .rw, .val 0xa, 0, 0xf, false⟩

/-- GTH_CACHE_CFG.sample, bits [11:8] (15). -/
def R.GTH_CACHE_CFG_sample : Fld := ⟨404, 14, 0x108, [], [], 8, 4, .rw, .val 0x8, 1, 0xf, false⟩

/-- GTH_CNT[d][k].count, bits [47:0] (15). -/
def R.GTH_CNT_count : Fld := ⟨405, 14, 0x20000, [128, 8], [2, 14], 0, 48, .ro, .val 0x0, 0, 0xffffffffffff, false⟩

/-- GTH_CACHE_STATUS[c].rows, bits [19:0] (15). -/
def R.GTH_CACHE_STATUS_rows : Fld := ⟨406, 14, 0x30000, [8], [16], 0, 20, .ro, .val 0x0, 0, 0xfffff, false⟩

/-- GTH_CACHE_STATUS[c].granules, bits [39:20] (15). -/
def R.GTH_CACHE_STATUS_granules : Fld := ⟨407, 14, 0x30000, [8], [16], 20, 20, .ro, .val 0x0, 0, 0xfffff, false⟩

/-- SEC_BOOT_STATUS.stage, bits [1:0] (16). -/
def R.SEC_BOOT_STATUS_stage : Fld := ⟨408, 16, 0x10, [], [], 0, 2, .ro, .val 0x0, 0, 0x3, false⟩

/-- SEC_BOOT_STATUS.identity_ok, bits [2:2] (16). -/
def R.SEC_BOOT_STATUS_identity_ok : Fld := ⟨409, 16, 0x10, [], [], 2, 1, .ro, .val 0x0, 0, 0x1, false⟩

/-- SEC_BOOT_STATUS.config_ok, bits [3:3] (16). -/
def R.SEC_BOOT_STATUS_config_ok : Fld := ⟨410, 16, 0x10, [], [], 3, 1, .ro, .val 0x0, 0, 0x1, false⟩

/-- SEC_BOOT_STATUS.key_index, bits [4:4] (16). -/
def R.SEC_BOOT_STATUS_key_index : Fld := ⟨411, 16, 0x10, [], [], 4, 1, .ro, .val 0x0, 0, 0x1, false⟩

/-- SEC_BOOT_STATUS.fail, bits [7:5] (16). -/
def R.SEC_BOOT_STATUS_fail : Fld := ⟨412, 16, 0x10, [], [], 5, 3, .ro, .val 0x0, 0, 0x7, false⟩

/-- SEC_BOOT_STATUS.booted_version, bits [63:32] (16). -/
def R.SEC_BOOT_STATUS_booted_version : Fld := ⟨413, 16, 0x10, [], [], 32, 32, .ro, .val 0x0, 0, 0xffffffff, false⟩

/-- SEC_FW_STATUS.running_version, bits [31:0] (16). -/
def R.SEC_FW_STATUS_running_version : Fld := ⟨414, 16, 0x18, [], [], 0, 32, .ro, .val 0x0, 0, 0xffffffff, false⟩

/-- SEC_FW_STATUS.handover_pending, bits [32:32] (16). -/
def R.SEC_FW_STATUS_handover_pending : Fld := ⟨415, 16, 0x18, [], [], 32, 1, .ro, .val 0x0, 0, 0x1, false⟩

/-- SEC_FW_STATUS.staged_ok, bits [33:33] (16). -/
def R.SEC_FW_STATUS_staged_ok : Fld := ⟨416, 16, 0x18, [], [], 33, 1, .ro, .val 0x0, 0, 0x1, false⟩

/-- SEC_TENANT[t].state, bits [1:0] (16). -/
def R.SEC_TENANT_state : Fld := ⟨417, 16, 0x1000, [16], [32], 0, 2, .ro, .val 0x0, 0, 0x3, false⟩

/-- SEC_TENANT[t].key_valid, bits [2:2] (16). -/
def R.SEC_TENANT_key_valid : Fld := ⟨418, 16, 0x1000, [16], [32], 2, 1, .ro, .val 0x0, 0, 0x1, false⟩

/-- SEC_TENANT[t].session_open, bits [3:3] (16). -/
def R.SEC_TENANT_session_open : Fld := ⟨419, 16, 0x1000, [16], [32], 3, 1, .ro, .val 0x0, 0, 0x1, false⟩

/-- SEC_TENANT[t].clusters, bits [31:16] (16). -/
def R.SEC_TENANT_clusters : Fld := ⟨420, 16, 0x1000, [16], [32], 16, 16, .ro, .val 0x0, 0, 0xffff, false⟩

/-- SEC_TENANT[t].objects, bits [63:32] (16). -/
def R.SEC_TENANT_objects : Fld := ⟨421, 16, 0x1000, [16], [32], 32, 32, .ro, .val 0x0, 0, 0xffffffff, false⟩

/-- SEC_TENANT[t].rotations, bits [95:64] (16). -/
def R.SEC_TENANT_rotations : Fld := ⟨422, 16, 0x1000, [16], [32], 64, 32, .ro, .val 0x0, 0, 0xffffffff, false⟩

/-- SEC_TENANT[t].sessions, bits [127:96] (16). -/
def R.SEC_TENANT_sessions : Fld := ⟨423, 16, 0x1000, [16], [32], 96, 32, .ro, .val 0x0, 0, 0xffffffff, false⟩

/-- SEC_SESSION[f].state, bits [1:0] (16). -/
def R.SEC_SESSION_state : Fld := ⟨424, 16, 0x2000, [32], [32], 0, 2, .ro, .val 0x0, 0, 0x3, false⟩

/-- SEC_SESSION[f].status, bits [5:2] (16). -/
def R.SEC_SESSION_status : Fld := ⟨425, 16, 0x2000, [32], [32], 2, 4, .ro, .val 0x0, 0, 0xf, false⟩

/-- SEC_SESSION[f].seq_in, bits [127:64] (16). -/
def R.SEC_SESSION_seq_in : Fld := ⟨426, 16, 0x2000, [32], [32], 64, 64, .ro, .val 0x0, 0, 0xffffffffffffffff, false⟩

/-- SEC_SESSION[f].seq_out, bits [191:128] (16). -/
def R.SEC_SESSION_seq_out : Fld := ⟨427, 16, 0x2000, [32], [32], 128, 64, .ro, .val 0x0, 0, 0xffffffffffffffff, false⟩

/-- SEC_EVT.events, bits [7:0] (16). -/
def R.SEC_EVT_events : Fld := ⟨428, 16, 0x0, [], [], 0, 8, .w1c, .val 0x0, 0, 0xff, false⟩

/-- SEC_INT_EN.enables, bits [7:0] (16). -/
def R.SEC_INT_EN_enables : Fld := ⟨429, 16, 0x8, [], [], 0, 8, .rw, .val 0x0, 0, 0xff, false⟩

/-- SEC_FW_BEAT.beat, bits [31:0] (16). -/
def R.SEC_FW_BEAT_beat : Fld := ⟨430, 16, 0x20, [], [], 0, 32, .ro, .val 0x0, 0, 0xffffffff, false⟩

/-- SEC_ISO.strict, bits [0:0] (16). -/
def R.SEC_ISO_strict : Fld := ⟨431, 16, 0x28, [], [], 0, 1, .rwl, .val 0, 0, 0x1, false⟩

/-- SEC_ISO.active, bits [1:1] (16). -/
def R.SEC_ISO_active : Fld := ⟨432, 16, 0x28, [], [], 1, 1, .ro, .val 0x0, 0, 0x1, false⟩

/-- SEC_LOCK.lock, bits [0:0] (16). -/
def R.SEC_LOCK_lock : Fld := ⟨433, 16, 0x30, [], [], 0, 1, .w1s, .val 0, 0, 0x1, false⟩

/-- SEC_DEBUG_NONCE[j].nonce, bits [63:0] (16). -/
def R.SEC_DEBUG_NONCE_nonce : Fld := ⟨434, 16, 0x40, [8], [2], 0, 64, .ro, .val 0, 0, 0xffffffffffffffff, false⟩

/-- SEC_MEAS[k][j].bytes, bits [63:0] (16). -/
def R.SEC_MEAS_bytes : Fld := ⟨435, 16, 0x100, [32, 8], [8, 4], 0, 64, .ro, .val 0x0, 0, 0xffffffffffffffff, false⟩

/-- SEC_IDENTITY_PK[j].bytes, bits [63:0] (16). -/
def R.SEC_IDENTITY_PK_bytes : Fld := ⟨436, 16, 0x200, [8], [4], 0, 64, .ro, .val 0x0, 0, 0xffffffffffffffff, false⟩

/-- SEC_CNT[k].count, bits [47:0] (16). -/
def R.SEC_CNT_count : Fld := ⟨437, 16, 0x3000, [8], [10], 0, 48, .ro, .val 0x0, 0, 0xffffffffffff, false⟩

/-- RAS_MGR_CFG.role, bits [0:0] (17). -/
def R.RAS_MGR_CFG_role : Fld := ⟨438, 17, 0x100, [], [], 0, 1, .rwl, .val 0x0, 0, 0x1, false⟩

/-- RAS_MGR_CFG.manager_eid, bits [31:16] (17). -/
def R.RAS_MGR_CFG_manager_eid : Fld := ⟨439, 17, 0x100, [], [], 16, 16, .rwl, .val 0xffff, 0, 0xffff, false⟩

/-- RAS_PUPPET_CFG.tc, bits [2:0] (17). -/
def R.RAS_PUPPET_CFG_tc : Fld := ⟨440, 17, 0x200, [], [], 0, 3, .rw, .val 0x1, 0, 0x6, false⟩

/-- RAS_PUPPET_CFG.copy_rate, bits [31:16] (17). -/
def R.RAS_PUPPET_CFG_copy_rate : Fld := ⟨441, 17, 0x200, [], [], 16, 16, .rw, .val 0x0, 0, 0xffff, false⟩

/-- RAS_PUPPET_CFG.ack_timeout, bits [47:32] (17). -/
def R.RAS_PUPPET_CFG_ack_timeout : Fld := ⟨442, 17, 0x200, [], [], 32, 16, .rw, .val 0xc8, 1, 0xffff, false⟩

/-- RAS_SUMMARY.blocks, bits [31:0] (17). -/
def R.RAS_SUMMARY_blocks : Fld := ⟨443, 17, 0x0, [], [], 0, 32, .ro, .val 0x0, 0, 0xffffffff, false⟩

/-- RAS_CFG.vector, bits [10:0] (17). -/
def R.RAS_CFG_vector : Fld := ⟨444, 17, 0x8, [], [], 0, 11, .rw, .val 0x0, 0, 0x7ff, false⟩

/-- RAS_CFG.freeze_on_fatal, bits [16:16] (17). -/
def R.RAS_CFG_freeze_on_fatal : Fld := ⟨445, 17, 0x8, [], [], 16, 1, .rwl, .val 0x0, 0, 0x1, false⟩

/-- RAS_CFG.ce_threshold, bits [47:32] (17). -/
def R.RAS_CFG_ce_threshold : Fld := ⟨446, 17, 0x8, [], [], 32, 16, .rw, .val 0x100, 0, 0xffff, false⟩

/-- RAS_EVT.events, bits [9:0] (17). -/
def R.RAS_EVT_events : Fld := ⟨447, 17, 0x10, [], [], 0, 10, .w1c, .val 0x0, 0, 0x3ff, false⟩

/-- RAS_INT_EN.enables, bits [9:0] (17). -/
def R.RAS_INT_EN_enables : Fld := ⟨448, 17, 0x18, [], [], 0, 10, .rw, .val 0x0, 0, 0x3ff, false⟩

/-- RAS_PROG_ERR.block, bits [7:0] (17). -/
def R.RAS_PROG_ERR_block : Fld := ⟨449, 17, 0x20, [], [], 0, 8, .ro, .val 0x0, 0, 0xff, false⟩

/-- RAS_PROG_ERR.offset, bits [29:8] (17). -/
def R.RAS_PROG_ERR_offset : Fld := ⟨450, 17, 0x20, [], [], 8, 22, .ro, .val 0x0, 0, 0x3fffff, false⟩

/-- RAS_LOG_PROD.count, bits [31:0] (17). -/
def R.RAS_LOG_PROD_count : Fld := ⟨451, 17, 0x28, [], [], 0, 32, .ro, .val 0x0, 0, 0xffffffff, false⟩

/-- RAS_LOG_CONS.count, bits [31:0] (17). -/
def R.RAS_LOG_CONS_count : Fld := ⟨452, 17, 0x30, [], [], 0, 32, .rw, .val 0x0, 0, 0xffffffff, false⟩

/-- RAS_LOG_LOST.count, bits [47:0] (17). -/
def R.RAS_LOG_LOST_count : Fld := ⟨453, 17, 0x38, [], [], 0, 48, .ro, .val 0x0, 0, 0xffffffffffff, false⟩

/-- RAS_FATAL_INFO.block, bits [7:0] (17). -/
def R.RAS_FATAL_INFO_block : Fld := ⟨454, 17, 0x40, [], [], 0, 8, .ro, .val 0x0, 0, 0xff, false⟩

/-- RAS_FATAL_INFO.cause, bits [19:8] (17). -/
def R.RAS_FATAL_INFO_cause : Fld := ⟨455, 17, 0x40, [], [], 8, 12, .ro, .val 0x0, 0, 0xfff, false⟩

/-- RAS_FATAL_INFO.source, bits [63:32] (17). -/
def R.RAS_FATAL_INFO_source : Fld := ⟨456, 17, 0x40, [], [], 32, 32, .ro, .val 0x0, 0, 0xffffffff, false⟩

/-- RAS_LOCK.lock, bits [0:0] (17). -/
def R.RAS_LOCK_lock : Fld := ⟨457, 17, 0x108, [], [], 0, 1, .w1s, .val 0x0, 0, 0x1, false⟩

/-- RAS_PUPPET_STATUS.state, bits [1:0] (17). -/
def R.RAS_PUPPET_STATUS_state : Fld := ⟨458, 17, 0x208, [], [], 0, 2, .ro, .val 0x0, 0, 0x3, false⟩

/-- RAS_PUPPET_STATUS.partner_eid, bits [31:16] (17). -/
def R.RAS_PUPPET_STATUS_partner_eid : Fld := ⟨459, 17, 0x208, [], [], 16, 16, .ro, .val 0xffff, 0, 0xffff, false⟩

/-- RAS_PUPPET_STATUS.synced, bits [49:32] (17). -/
def R.RAS_PUPPET_STATUS_synced : Fld := ⟨460, 17, 0x208, [], [], 32, 18, .ro, .val 0x0, 0, 0x3ffff, false⟩

/-- RAS_SCRUB_SCHED.target, bits [4:0] (17). -/
def R.RAS_SCRUB_SCHED_target : Fld := ⟨461, 17, 0x300, [], [], 0, 5, .rw, .val 0x0, 0, 0x1f, false⟩

/-- RAS_SCRUB_SCHED.rate, bits [15:8] (17). -/
def R.RAS_SCRUB_SCHED_rate : Fld := ⟨462, 17, 0x300, [], [], 8, 8, .rw, .val 0x40, 1, 0xff, false⟩

/-- RAS_SCRUB_SCHED.beat, bits [63:32] (17). -/
def R.RAS_SCRUB_SCHED_beat : Fld := ⟨463, 17, 0x300, [], [], 32, 32, .rw, .val 0x0, 0, 0xffffffff, false⟩

/-- RAS_LOG[k].record, bits [255:0] (17). -/
def R.RAS_LOG_record : Fld := ⟨464, 17, 0x10000, [32], [1024], 0, 256, .ro, .val 0x0, 0, 0xffffffffffffffffffffffffffffffffffffffffffffffffffffffffffffffff, false⟩

/-- RAS_CNT[k].count, bits [47:0] (17). -/
def R.RAS_CNT_count : Fld := ⟨465, 17, 0x20000, [8], [8], 0, 48, .ro, .val 0x0, 0, 0xffffffffffff, false⟩

/-- DBG_FREEZE_CFG.instr_en, bits [31:0] (17). -/
def R.DBG_FREEZE_CFG_instr_en : Fld := ⟨466, 19, 0x0, [], [], 0, 32, .rwl, .val 0x0, 0, 0xffffffff, false⟩

/-- DBG_AUTH_STATUS.open, bits [31:0] (17). -/
def R.DBG_AUTH_STATUS_open : Fld := ⟨467, 19, 0x8, [], [], 0, 32, .ro, .val 0x0, 0, 0xffffffff, false⟩

/-- DBG_LOCK.lock, bits [0:0] (17). -/
def R.DBG_LOCK_lock : Fld := ⟨468, 19, 0x10, [], [], 0, 1, .w1s, .val 0x0, 0, 0x1, false⟩

/-- GLB_ID.part, bits [31:0] (18). -/
def R.GLB_ID_part : Fld := ⟨469, 1, 0x0, [], [], 0, 32, .ro, .val 0x11440, 0, 0xffffffff, false⟩

/-- GLB_ID.minor, bits [35:32] (18). -/
def R.GLB_ID_minor : Fld := ⟨470, 1, 0x0, [], [], 32, 4, .ro, .val 0x0, 0, 0xf, false⟩

/-- GLB_ID.major, bits [39:36] (18). -/
def R.GLB_ID_major : Fld := ⟨471, 1, 0x0, [], [], 36, 4, .ro, .val 0x1, 0, 0xf, false⟩

/-- GLB_ID.pci_device, bits [55:40] (18). -/
def R.GLB_ID_pci_device : Fld := ⟨472, 1, 0x0, [], [], 40, 16, .ro, .val 0x1440, 0, 0xffff, false⟩

/-- GLB_NODE.node, bits [11:0] (18). -/
def R.GLB_NODE_node : Fld := ⟨473, 1, 0x8, [], [], 0, 12, .rwl, .val 0x0, 0, 0xfff, false⟩

/-- GLB_NODE.eid, bits [31:16] (18). -/
def R.GLB_NODE_eid : Fld := ⟨474, 1, 0x8, [], [], 16, 16, .rwl, .val 0xffff, 0, 0xffff, false⟩

/-- GLB_CTL.part_reset, bits [7:0] (18). -/
def R.GLB_CTL_part_reset : Fld := ⟨475, 1, 0x10, [], [], 0, 8, .wo, .val 0x0, 0, 0xff, false⟩

/-- GLB_CFG.perst_part, bits [0:0] (18). -/
def R.GLB_CFG_perst_part : Fld := ⟨476, 1, 0x18, [], [], 0, 1, .rwl, .val 0x0, 0, 0x1, false⟩

/-- GLB_CFG.bar2_flow, bits [27:16] (18). -/
def R.GLB_CFG_bar2_flow : Fld := ⟨477, 1, 0x18, [], [], 16, 12, .rwl, .val 0x80, 0, 0xfe0, false⟩

/-- GLB_READY.ready, bits [31:0] (18). -/
def R.GLB_READY_ready : Fld := ⟨478, 1, 0x20, [], [], 0, 32, .ro, .val 0x0, 0, 0xffffffff, false⟩

/-- GLB_DEGRADED.degraded, bits [31:0] (18). -/
def R.GLB_DEGRADED_degraded : Fld := ⟨479, 1, 0x28, [], [], 0, 32, .ro, .val 0x0, 0, 0xffffffff, false⟩

/-- GLB_RESET_CAUSE.cause, bits [2:0] (18). -/
def R.GLB_RESET_CAUSE_cause : Fld := ⟨480, 1, 0x30, [], [], 0, 3, .ro, .val 0x0, 0, 0x7, false⟩

/-- GLB_EVT.events, bits [1:0] (18). -/
def R.GLB_EVT_events : Fld := ⟨481, 1, 0x38, [], [], 0, 2, .w1c, .val 0x0, 0, 0x3, false⟩

/-- GLB_INT_EN.enables, bits [1:0] (18). -/
def R.GLB_INT_EN_enables : Fld := ⟨482, 1, 0x40, [], [], 0, 2, .rw, .val 0x0, 0, 0x3, false⟩

/-- GLB_I3C_CFG.static_addr, bits [6:0] (18). -/
def R.GLB_I3C_CFG_static_addr : Fld := ⟨483, 1, 0x48, [], [], 0, 7, .rwl, .val 0x4c, 0, 0x7f, false⟩

/-- GLB_FLASH_STATUS.mode, bits [3:0] (18). -/
def R.GLB_FLASH_STATUS_mode : Fld := ⟨484, 1, 0x50, [], [], 0, 4, .ro, .val 0x0, 0, 0xf, false⟩

/-- GLB_FLASH_STATUS.mhz, bits [15:8] (18). -/
def R.GLB_FLASH_STATUS_mhz : Fld := ⟨485, 1, 0x50, [], [], 8, 8, .ro, .val 0x19, 0, 0xff, false⟩

/-- GLB_LOCK.lock, bits [0:0] (18). -/
def R.GLB_LOCK_lock : Fld := ⟨486, 1, 0x58, [], [], 0, 1, .w1s, .val 0x0, 0, 0x1, false⟩

/-- MRN_EVT.overrun, bits [0:0] (18). -/
def R.MRN_EVT_overrun : Fld := ⟨487, 20, 0x0, [], [], 0, 1, .w1c, .val 0x0, 0, 0x1, false⟩

/-- MRN_EVT.reply, bits [1:1] (18). -/
def R.MRN_EVT_reply : Fld := ⟨488, 20, 0x0, [], [], 1, 1, .w1c, .val 0x0, 0, 0x1, false⟩

/-- MRN_INT_EN.enables, bits [1:0] (18). -/
def R.MRN_INT_EN_enables : Fld := ⟨489, 20, 0x8, [], [], 0, 2, .rw, .val 0x0, 0, 0x3, false⟩

/-- MRN_BUSY.pending, bits [31:0] (18). -/
def R.MRN_BUSY_pending : Fld := ⟨490, 20, 0x10, [], [], 0, 32, .ro, .val 0x0, 0, 0xffffffff, false⟩

/-- MRN_DOORBELL[f].seq, bits [15:0] (18). -/
def R.MRN_DOORBELL_seq : Fld := ⟨491, 20, 0x12000, [16384], [32], 0, 16, .wo, .val 0x0, 0, 0xffff, false⟩

/-- MRN_REPLY_HDR[f].seq, bits [15:0] (18). -/
def R.MRN_REPLY_HDR_seq : Fld := ⟨492, 20, 0x12008, [16384], [32], 0, 16, .ro, .val 0x0, 0, 0xffff, false⟩

/-- MRN_REPLY_HDR[f].status, bits [19:16] (18). -/
def R.MRN_REPLY_HDR_status : Fld := ⟨493, 20, 0x12008, [16384], [32], 16, 4, .ro, .val 0x0, 0, 0xf, false⟩

/-- MRN_REPLY_HDR[f].length, bits [44:32] (18). -/
def R.MRN_REPLY_HDR_length : Fld := ⟨494, 20, 0x12008, [16384], [32], 32, 13, .ro, .val 0x0, 0, 0x1fff, false⟩

/-- MRN_CFG[f].vector, bits [10:0] (18). -/
def R.MRN_CFG_vector : Fld := ⟨495, 20, 0x12010, [16384], [32], 0, 11, .rw, .val 0x0, 0, 0x7ff, false⟩

/-- MRN_CFG[f].int_en, bits [16:16] (18). -/
def R.MRN_CFG_int_en : Fld := ⟨496, 20, 0x12010, [16384], [32], 16, 1, .rw, .val 0x0, 0, 0x1, false⟩

/-- PWR_MODE_STATUS.mode, bits [1:0] (18). -/
def R.PWR_MODE_STATUS_mode : Fld := ⟨497, 18, 0x18, [], [], 0, 2, .ro, .val 0x1, 0, 0x3, false⟩

/-- PWR_MODE_STATUS.pending, bits [2:2] (18). -/
def R.PWR_MODE_STATUS_pending : Fld := ⟨498, 18, 0x18, [], [], 2, 1, .ro, .val 0x0, 0, 0x1, false⟩

/-- PWR_MODE_STATUS.requested, bits [4:3] (18). -/
def R.PWR_MODE_STATUS_requested : Fld := ⟨499, 18, 0x18, [], [], 3, 2, .ro, .val 0x0, 0, 0x3, false⟩

/-- PWR_MODE_STATUS.result, bits [11:8] (18). -/
def R.PWR_MODE_STATUS_result : Fld := ⟨500, 18, 0x18, [], [], 8, 4, .ro, .val 0x0, 0, 0xf, false⟩

/-- PWR_MODE_STATUS.pending_beat, bits [63:32] (18). -/
def R.PWR_MODE_STATUS_pending_beat : Fld := ⟨501, 18, 0x18, [], [], 32, 32, .ro, .val 0x0, 0, 0xffffffff, false⟩

/-- PWR_REST_STATUS.state, bits [1:0] (18). -/
def R.PWR_REST_STATUS_state : Fld := ⟨502, 18, 0x50, [], [], 0, 2, .ro, .val 0x0, 0, 0x3, false⟩

/-- PWR_REST_STATUS.result, bits [7:4] (18). -/
def R.PWR_REST_STATUS_result : Fld := ⟨503, 18, 0x50, [], [], 4, 4, .ro, .val 0x0, 0, 0xf, false⟩

/-- PWR_REST_STATUS.cause, bits [10:8] (18). -/
def R.PWR_REST_STATUS_cause : Fld := ⟨504, 18, 0x50, [], [], 8, 3, .ro, .val 0x0, 0, 0x7, false⟩

/-- PWR_EVT.events, bits [6:0] (18). -/
def R.PWR_EVT_events : Fld := ⟨505, 18, 0x0, [], [], 0, 7, .w1c, .val 0x0, 0, 0x7f, false⟩

/-- PWR_INT_EN.enables, bits [6:0] (18). -/
def R.PWR_INT_EN_enables : Fld := ⟨506, 18, 0x8, [], [], 0, 7, .rw, .val 0x0, 0, 0x7f, false⟩

/-- PWR_MODE_REQ.mode, bits [1:0] (18). -/
def R.PWR_MODE_REQ_mode : Fld := ⟨507, 18, 0x10, [], [], 0, 2, .wo, .val 0x0, 0, 0x2, false⟩

/-- PWR_MODE_REQ.beat, bits [63:32] (18). -/
def R.PWR_MODE_REQ_beat : Fld := ⟨508, 18, 0x10, [], [], 32, 32, .wo, .val 0x0, 0, 0xffffffff, false⟩

/-- PWR_THROTTLE.eclk, bits [4:0] (18). -/
def R.PWR_THROTTLE_eclk : Fld := ⟨509, 18, 0x20, [], [], 0, 5, .ro, .val 0xf, 0, 0x1f, false⟩

/-- PWR_THROTTLE.stack_cap, bits [14:8] (18). -/
def R.PWR_THROTTLE_stack_cap : Fld := ⟨510, 18, 0x20, [], [], 8, 7, .ro, .val 0x46, 0, 0x7f, false⟩

/-- PWR_THROTTLE.windows, bits [31:16] (18). -/
def R.PWR_THROTTLE_windows : Fld := ⟨511, 18, 0x20, [], [], 16, 16, .ro, .val 0x0, 0, 0xffff, false⟩

/-- PWR_POWER.avg, bits [15:0] (18). -/
def R.PWR_POWER_avg : Fld := ⟨512, 18, 0x28, [], [], 0, 16, .ro, .val 0x0, 0, 0xffff, false⟩

/-- PWR_POWER.limit, bits [31:16] (18). -/
def R.PWR_POWER_limit : Fld := ⟨513, 18, 0x28, [], [], 16, 16, .ro, .val 0x2ee, 0, 0xffff, false⟩

/-- PWR_REST.enter_beat, bits [31:0] (18). -/
def R.PWR_REST_enter_beat : Fld := ⟨514, 18, 0x40, [], [], 0, 32, .rw, .val 0x0, 0, 0xffffffff, false⟩

/-- PWR_REST.wake_beat, bits [63:32] (18). -/
def R.PWR_REST_wake_beat : Fld := ⟨515, 18, 0x40, [], [], 32, 32, .rw, .val 0x0, 0, 0xffffffff, false⟩

/-- PWR_REST_CTL.request, bits [0:0] (18). -/
def R.PWR_REST_CTL_request : Fld := ⟨516, 18, 0x48, [], [], 0, 1, .wo, .val 0x0, 0, 0x1, false⟩

/-- PWR_REST_CTL.wake_en, bits [1:1] (18). -/
def R.PWR_REST_CTL_wake_en : Fld := ⟨517, 18, 0x48, [], [], 1, 1, .rw, .val 0x0, 0, 0x1, false⟩

/-- PWR_REST_CTL.wake, bits [2:2] (18). -/
def R.PWR_REST_CTL_wake : Fld := ⟨518, 18, 0x48, [], [], 2, 1, .wo, .val 0x0, 0, 0x1, false⟩

/-- PWR_CNT[k].count, bits [47:0] (18). -/
def R.PWR_CNT_count : Fld := ⟨519, 18, 0x1000, [8], [6], 0, 48, .ro, .val 0x0, 0, 0xffffffffffff, false⟩

/-- PWR_TEMP.west, bits [7:0] (19). -/
def R.PWR_TEMP_west : Fld := ⟨520, 18, 0x60, [], [], 0, 8, .ro, .val 0x0, 0, 0xff, false⟩

/-- PWR_TEMP.east, bits [15:8] (19). -/
def R.PWR_TEMP_east : Fld := ⟨521, 18, 0x60, [], [], 8, 8, .ro, .val 0x0, 0, 0xff, false⟩

/-- PWR_TEMP.hub, bits [23:16] (19). -/
def R.PWR_TEMP_hub : Fld := ⟨522, 18, 0x60, [], [], 16, 8, .ro, .val 0x0, 0, 0xff, false⟩

/-- PWR_TEMP.stack, bits [31:24] (19). -/
def R.PWR_TEMP_stack : Fld := ⟨523, 18, 0x60, [], [], 24, 8, .ro, .val 0x0, 0, 0xff, false⟩

/-- PWR_TEMP.stack_index, bits [36:32] (19). -/
def R.PWR_TEMP_stack_index : Fld := ⟨524, 18, 0x60, [], [], 32, 5, .ro, .val 0x0, 0, 0x1f, false⟩

/-- PWR_THERMAL_CFG.die_throttle, bits [7:0] (19). -/
def R.PWR_THERMAL_CFG_die_throttle : Fld := ⟨525, 18, 0x68, [], [], 0, 8, .rw, .val 0x64, 0, 0x69, false⟩

/-- PWR_THERMAL_CFG.stack_throttle, bits [15:8] (19). -/
def R.PWR_THERMAL_CFG_stack_throttle : Fld := ⟨526, 18, 0x68, [], [], 8, 8, .rw, .val 0x5c, 0, 0x5f, false⟩

/-- PWR_THERMAL_CFG.hysteresis, bits [19:16] (19). -/
def R.PWR_THERMAL_CFG_hysteresis : Fld := ⟨527, 18, 0x68, [], [], 16, 4, .rw, .val 0x5, 1, 0xf, false⟩

/-- PWR_THERMAL_STATUS.throttling, bits [0:0] (19). -/
def R.PWR_THERMAL_STATUS_throttling : Fld := ⟨528, 18, 0x70, [], [], 0, 1, .ro, .val 0x0, 0, 0x1, false⟩

/-- PWR_THERMAL_STATUS.critical, bits [1:1] (19). -/
def R.PWR_THERMAL_STATUS_critical : Fld := ⟨529, 18, 0x70, [], [], 1, 1, .ro, .val 0x0, 0, 0x1, false⟩

/-- PWR_THERMAL_STATUS.tripped, bits [2:2] (19). -/
def R.PWR_THERMAL_STATUS_tripped : Fld := ⟨530, 18, 0x70, [], [], 2, 1, .ro, .val 0x0, 0, 0x1, false⟩

/-- PWR_THERMAL_STATUS.trip_source, bits [4:3] (19). -/
def R.PWR_THERMAL_STATUS_trip_source : Fld := ⟨531, 18, 0x70, [], [], 3, 2, .ro, .val 0x0, 0, 0x3, false⟩

/-- PWR_THERMAL_STATUS.steps, bits [31:16] (19). -/
def R.PWR_THERMAL_STATUS_steps : Fld := ⟨532, 18, 0x70, [], [], 16, 16, .ro, .val 0x0, 0, 0xffff, false⟩

/-- MRN_REQ[f][k].word, bits [63:0] (18). -/
def R.MRN_REQ_word : Fld := ⟨533, 20, 0x10000, [16384, 8], [32, 512], 0, 64, .rw, .val 0x0, 0, 0xffffffffffffffff, false⟩

/-- MRN_REPLY[f][k].word, bits [63:0] (18). -/
def R.MRN_REPLY_word : Fld := ⟨534, 20, 0x11000, [16384, 8], [32, 512], 0, 64, .ro, .val 0x0, 0, 0xffffffffffffffff, false⟩

/-- The fields of block 0x1, in table order (part 1). -/
def fields1_0 : List Fld :=
  [R.GLB_ID_part,
   R.GLB_ID_minor,
   R.GLB_ID_major,
   R.GLB_ID_pci_device,
   R.GLB_NODE_node,
   R.GLB_NODE_eid,
   R.GLB_CTL_part_reset,
   R.GLB_CFG_perst_part,
   R.GLB_CFG_bar2_flow,
   R.GLB_READY_ready,
   R.GLB_DEGRADED_degraded,
   R.GLB_RESET_CAUSE_cause,
   R.GLB_EVT_events,
   R.GLB_INT_EN_enables,
   R.GLB_I3C_CFG_static_addr,
   R.GLB_FLASH_STATUS_mode,
   R.GLB_FLASH_STATUS_mhz,
   R.GLB_LOCK_lock]

/-- The fields of block 0x2, in table order (part 1). -/
def fields2_0 : List Fld :=
  [R.TIM_CTL_role,
   R.TIM_CTL_ref_sel,
   R.TIM_CTL_cricket_out_en,
   R.TIM_CTL_master_gen,
   R.TIM_STATUS_state,
   R.TIM_STATUS_ref_lost,
   R.TIM_STATUS_master_conflict,
   R.TIM_STATUS_parent_port,
   R.TIM_STATUS_hop_depth,
   R.TIM_STATUS_followed_gen,
   R.TIM_FT_ft,
   R.TIM_SNAP_capture,
   R.TIM_SNAP_FT_ft,
   R.TIM_FT_SET_value,
   R.TIM_FT_LOAD_cmd,
   R.TIM_PPS_PHASE_phase_ns,
   R.TIM_OFFSET_o,
   R.TIM_PARENT_CFG_port,
   R.TIM_PARENT_CFG_pin,
   R.TIM_HOLD_LIMIT_beats,
   R.TIM_EVT_events,
   R.TIM_INT_EN_enables,
   R.TIM_LATE_COUNT_count,
   R.TIM_DROP_COUNT_count,
   R.TIM_PORT_DELAY_delay,
   R.TIM_PORT_DELAY_asym]

/-- The fields of block 0x3, in table order (part 1). -/
def fields3_0 : List Fld :=
  [R.PRT_LANE_CFG_reach,
   R.PRT_LANE_CFG_ser_limit,
   R.PRT_PORT_CFG_first_lane,
   R.PRT_PORT_CFG_width,
   R.PRT_PORT_CFG_precode_en,
   R.PRT_PORT_CFG_replay_timeout,
   R.PRT_PORT_CFG_retry_limit,
   R.PRT_PORT_CTL_enable,
   R.PRT_PORT_CTL_admit,
   R.PRT_PORT_CTL_retrain,
   R.PRT_PORT_CTL_lane_retrain,
   R.PRT_PORT_CTL_lane_sel,
   R.PRT_PORT_STATUS_state,
   R.PRT_PORT_STATUS_width_active,
   R.PRT_PORT_STATUS_degraded,
   R.PRT_PORT_STATUS_lane_reversed,
   R.PRT_PORT_STATUS_good_lanes,
   R.PRT_PORT_STATUS_partner_eid,
   R.PRT_PORT_STATUS_partner_role,
   R.PRT_PORT_STATUS_partner_time,
   R.PRT_PORT_STATUS_partner_lender,
   R.PRT_PORT_STATUS_partner_codec,
   R.PRT_PORT_STATUS_partner_caching,
   R.PRT_EVT_events,
   R.PRT_INT_EN_enables,
   R.PRT_EVT_PORT_port,
   R.PRT_PORT_PARTNER_vendor,
   R.PRT_PORT_CNT_count]

/-- The fields of block 0x4, in table order (part 1). -/
def fields4_0 : List Fld :=
  [R.SWC_PORT_CFG_tenant,
   R.SWC_PORT_CFG_saf,
   R.SWC_PORT_QUOTA_cells,
   R.SWC_MARK_CFG_threshold,
   R.SWC_MIRROR_mode,
   R.SWC_MIRROR_dir,
   R.SWC_MIRROR_match,
   R.SWC_MIRROR_port,
   R.SWC_MIRROR_dest_port,
   R.SWC_MIRROR_copy_tc,
   R.SWC_MIRROR_deterministic,
   R.SWC_MIRROR_n,
   R.SWC_MIRROR_flow,
   R.SWC_MIRROR_dst_eid,
   R.SWC_MAP_STATUS_current_gen,
   R.SWC_MAP_STATUS_switch_pending,
   R.SWC_MAP_STATUS_result,
   R.SWC_MAP_STATUS_pending_beat,
   R.SWC_MAP_STAGE_gen,
   R.SWC_MAP_STAGE_valid,
   R.SWC_MAP_SWITCH_beat,
   R.SWC_ROUTE_STAGE_entry,
   R.SWC_GROUP_STAGE_group,
   R.SWC_MCAST_STAGE_ports,
   R.SWC_MCAST_STAGE_west_agent,
   R.SWC_MCAST_STAGE_east_agent,
   R.SWC_EVT_events,
   R.SWC_INT_EN_enables,
   R.SWC_EVT_PORT_port,
   R.SWC_CTL_ct_stall,
   R.SWC_WIN_CFG_max,
   R.SWC_WIN_STATUS_entries,
   R.SWC_BUF_CFG_agent_reserve,
   R.SWC_BUF_STATUS_free,
   R.SWC_TC_CFG_spray,
   R.SWC_TC_CFG_weight,
   R.SWC_RESEQ_CFG_hold_cells,
   R.SWC_RESEQ_CFG_timeout,
   R.SWC_RESEQ_CFG_window,
   R.SWC_FLOW_RESET_flow]

/-- The fields of block 0x4, in table order (part 2). -/
def fields4_1 : List Fld :=
  [R.SWC_FLOW_RESET_port,
   R.SWC_FLOW_RESET_agent,
   R.SWC_TENANT_QUOTA_cells,
   R.SWC_FF_RING_base,
   R.SWC_FF_RING_records,
   R.SWC_FF_PROD_count,
   R.SWC_FF_CONS_count,
   R.SWC_FF_DROP_count,
   R.SWC_PORT_CNT_count]

/-- The fields of block 0x5, in table order (part 1). -/
def fields5_0 : List Fld :=
  [R.EDG_SEL_port,
   R.EDG_SEL_agent,
   R.EDG_SEL_index,
   R.EDG_WIN_DATA0_entry_lo,
   R.EDG_WIN_DATA1_entry_hi,
   R.EDG_EVT_violation,
   R.EDG_EVT_stamp_error,
   R.EDG_EVT_unsupported,
   R.EDG_INT_EN_enables,
   R.EDG_VIOL_INFO_port,
   R.EDG_VIOL_INFO_agent,
   R.EDG_VIOL_INFO_step,
   R.EDG_VIOL_INFO_src_eid,
   R.EDG_VIOL_INFO_msg_type,
   R.EDG_VIOL_INFO_tenant,
   R.EDG_VIOL_ADDR_addr,
   R.EDG_CNT_count,
   R.EDG_AGENT_CNT_count]

/-- The fields of block 0x6, in table order (part 1). -/
def fields6_0 : List Fld :=
  [R.TRK_SPLIT_home,
   R.TRK_SPLIT_issued,
   R.TRK_SPLIT_fwd,
   R.TRK_COMB_CFG_enable,
   R.TRK_COMB_CFG_window,
   R.TRK_COMB_CFG_max_members,
   R.TRK_COMB_CFG_cross_tenant,
   R.TRK_TIMEOUT_issued,
   R.TRK_TIMEOUT_fwd,
   R.TRK_REISSUE_limit,
   R.TRK_STATUS_home_live,
   R.TRK_STATUS_issued_live,
   R.TRK_STATUS_fwd_live,
   R.TRK_COMB_STATUS_open,
   R.TRK_LOAD_load,
   R.TRK_LOAD_withheld,
   R.TRK_EVT_timeout,
   R.TRK_EVT_late_discard,
   R.TRK_EVT_reissue_exhausted,
   R.TRK_EVT_comb_full,
   R.TRK_EVT_home_stall,
   R.TRK_INT_EN_enables,
   R.TRK_CNT_count]

/-- The fields of block 0x7, in table order (part 1). -/
def fields7_0 : List Fld :=
  [R.COH_CFG_enable,
   R.COH_CFG_slices,
   R.COH_TIMEOUT_snoop,
   R.COH_TIMEOUT_grace,
   R.COH_RECLAIM_INFO_domain,
   R.COH_RECLAIM_INFO_slot,
   R.COH_RECLAIM_INFO_cause,
   R.COH_RECLAIM_INFO_done,
   R.COH_STATUS_bound,
   R.COH_STATUS_reclaim_active,
   R.COH_EVT_events,
   R.COH_INT_EN_enables,
   R.COH_DIR_STORE_extent,
   R.COH_DIR_STORE_valid,
   R.COH_BIND_valid,
   R.COH_BIND_domain,
   R.COH_BIND_first_extent,
   R.COH_BIND_last_extent,
   R.COH_MEMBER_valid,
   R.COH_MEMBER_kind,
   R.COH_MEMBER_eid,
   R.COH_MEMBER_cluster,
   R.COH_CNT_count]

/-- The fields of block 0x8, in table order (part 1). -/
def fields8_0 : List Fld :=
  [R.POL_CFG_drain_timeout,
   R.POL_CFG_limit_queue,
   R.POL_SEL_extent,
   R.POL_SEL_lent,
   R.POL_SEL_lend,
   R.POL_LEASE_valid,
   R.POL_LEASE_expired,
   R.POL_LEASE_tenant,
   R.POL_LEASE_eid,
   R.POL_LEASE_expiry,
   R.POL_LEASE_duration,
   R.POL_STATUS_extents,
   R.POL_STATUS_free,
   R.POL_STATUS_lost,
   R.POL_EVT_events,
   R.POL_INT_EN_enables,
   R.POL_EXT_DATA_record,
   R.POL_REVOKE_STATUS_active,
   R.POL_REVOKE_STATUS_phase,
   R.POL_REVOKE_STATUS_first_extent,
   R.POL_REVOKE_STATUS_last_extent,
   R.POL_REVOKE_STATUS_node,
   R.POL_LIMIT_rate,
   R.POL_LIMIT_burst,
   R.POL_LIMIT_waiting,
   R.POL_TENANT_QUOTA_quota,
   R.POL_TENANT_QUOTA_held,
   R.POL_TENANT_LIMIT_rate,
   R.POL_TENANT_LIMIT_burst,
   R.POL_LEND_valid,
   R.POL_LEND_node,
   R.POL_LEND_eid,
   R.POL_LEND_port,
   R.POL_LEND_extents,
   R.POL_LOST_valid,
   R.POL_LOST_node,
   R.POL_LOST_first_extent,
   R.POL_LOST_last_extent,
   R.POL_CNT_count,
   R.POL_SHARE_valid]

/-- The fields of block 0x8, in table order (part 2). -/
def fields8_1 : List Fld :=
  [R.POL_SHARE_slot]

/-- The fields of block 0x9, in table order (part 1). -/
def fields9_0 : List Fld :=
  [R.MEM_SCHED_CFG_age_limit,
   R.MEM_SCHED_CFG_wq_high,
   R.MEM_SCHED_CFG_wq_low,
   R.MEM_SCHED_CFG_row_idle,
   R.MEM_TIER_CFG_enable,
   R.MEM_TIER_CFG_cross_die,
   R.MEM_TIER_CFG_low_free,
   R.MEM_TIER_CFG_high_free,
   R.MEM_TIER_CFG_promote_heat,
   R.MEM_AGE_CFG_period_log2,
   R.MEM_AGE_CFG_min_demote_age,
   R.MEM_AGE_CFG_swap_age,
   R.MEM_PC_CTL_recal,
   R.MEM_PC_CTL_release,
   R.MEM_PC_CTL_pattern_run,
   R.MEM_PC_CTL_pattern_pass,
   R.MEM_PC_CTL_lane_fail,
   R.MEM_DLY_DQ_rd_fine,
   R.MEM_DLY_DQ_rd_coarse,
   R.MEM_DLY_DQ_wr_fine,
   R.MEM_DLY_DQ_wr_coarse,
   R.MEM_DLY_CA_fine,
   R.MEM_DLY_CA_coarse,
   R.MEM_EVT_events,
   R.MEM_INT_EN_enables,
   R.MEM_PD_CFG_pd_timer,
   R.MEM_MIG_CFG_max_moves,
   R.MEM_MIG_CFG_gap,
   R.MEM_MIG_STATUS_active,
   R.MEM_MIG_STATUS_stack_free,
   R.MEM_RECAL_CFG_max_window,
   R.MEM_PATROL_CFG_lines_per_beat,
   R.MEM_MOVE_CMD_extent,
   R.MEM_MOVE_CMD_dst_tier,
   R.MEM_MOVE_CMD_dst_die,
   R.MEM_MOVE_RESULT_status,
   R.MEM_ERR_INFO_stack,
   R.MEM_ERR_INFO_pc,
   R.MEM_ERR_INFO_extent,
   R.MEM_ERR_INFO_line]

/-- The fields of block 0x9, in table order (part 2). -/
def fields9_1 : List Fld :=
  [R.MEM_STACK_CTL_retire,
   R.MEM_STACK_STATUS_state,
   R.MEM_STACK_STATUS_result,
   R.MEM_STACK_STATUS_occupied,
   R.MEM_STACK_STATUS_temp,
   R.MEM_STACK_STATUS_failed_pcs,
   R.MEM_PC_STATUS_state,
   R.MEM_PC_STATUS_powered_down,
   R.MEM_PC_STATUS_refresh_owed,
   R.MEM_CNT_count,
   R.MEM_DIE_CNT_count]

/-- The fields of block 0xa, in table order (part 1). -/
def fields10_0 : List Fld :=
  [R.BRD_CH_STATUS_state,
   R.BRD_CH_STATUS_mrdimm,
   R.BRD_CH_STATUS_result,
   R.BRD_CH_STATUS_slots,
   R.BRD_CH_STATUS_occupied,
   R.BRD_CH_STATUS_capacity,
   R.BRD_EVT_events,
   R.BRD_INT_EN_enables,
   R.BRD_PATROL_CFG_lines_per_beat,
   R.BRD_ERR_INFO_channel,
   R.BRD_ERR_INFO_subchannel,
   R.BRD_ERR_INFO_extent,
   R.BRD_ERR_INFO_line,
   R.BRD_CH_CTL_enable,
   R.BRD_CH_CTL_drain,
   R.BRD_CH_CTL_power_off,
   R.BRD_KEY_STATUS_valid,
   R.BRD_KEY_STATUS_slots,
   R.BRD_CNT_count]

/-- The fields of block 0xb, in table order (part 1). -/
def fields11_0 : List Fld :=
  [R.CMP_STEAL_CFG_die_en,
   R.CMP_STEAL_CFG_pkg_en,
   R.CMP_STEAL_CFG_die_delay,
   R.CMP_STEAL_CFG_pkg_delay,
   R.CMP_STEAL_CFG_min_hint,
   R.CMP_CSRAM_CFG_general,
   R.CMP_CSRAM_CFG_accum,
   R.CMP_CSRAM_CFG_taskq,
   R.CMP_CSRAM_CFG_row_cache,
   R.CMP_CLUSTER_STATUS_state,
   R.CMP_CLUSTER_STATUS_result,
   R.CMP_CLUSTER_STATUS_accums,
   R.CMP_CLUSTER_STATUS_overflow,
   R.CMP_CLUSTER_STATUS_handles,
   R.CMP_CORE_STATUS_state,
   R.CMP_CORE_STATUS_depth,
   R.CMP_CORE_STATUS_hint_cluster,
   R.CMP_CORE_STATUS_hint_die,
   R.CMP_CORE_STATUS_hint_pkg,
   R.CMP_CORE_STATUS_image,
   R.CMP_HANDLE_bound,
   R.CMP_HANDLE_csram,
   R.CMP_HANDLE_slot_log2,
   R.CMP_HANDLE_producer,
   R.CMP_HANDLE_slots_m1,
   R.CMP_HANDLE_prod,
   R.CMP_HANDLE_cons,
   R.CMP_EVT_events,
   R.CMP_INT_EN_enables,
   R.CMP_OFFLINE_CFG_timeout,
   R.CMP_FAULT_INFO_core,
   R.CMP_FAULT_INFO_cause,
   R.CMP_FAULT_INFO_image,
   R.CMP_FAULT_INFO_offset,
   R.CMP_FAULT_USER_user,
   R.CMP_TASK_STAGE_word,
   R.CMP_TASK_PUSH_cluster,
   R.CMP_TASK_PUSH_core,
   R.CMP_TASK_PUSH_any,
   R.CMP_TASK_RESULT_status]

/-- The fields of block 0xb, in table order (part 2). -/
def fields11_1 : List Fld :=
  [R.CMP_CLUSTER_CTL_offline,
   R.CMP_CLUSTER_CTL_online,
   R.CMP_CLUSTER_CTL_kill,
   R.CMP_CLUSTER_CFG_tenant,
   R.CMP_CNT_count]

/-- The fields of block 0xc, in table order (part 1). -/
def fields12_0 : List Fld :=
  [R.QPE_CMD_op,
   R.QPE_CMD_target,
   R.QPE_CMD_RESULT_status,
   R.QPE_CMD_RESULT_busy,
   R.QPE_CMD_RESULT_result,
   R.QPE_EVT_events,
   R.QPE_INT_EN_enables,
   R.QPE_ERR_INFO_qpn,
   R.QPE_ERR_INFO_status,
   R.QPE_ERR_INFO_psn,
   R.QPE_ERR_INFO_peer_eid,
   R.QPE_STATUS_cached,
   R.QPE_STATUS_active,
   R.QPE_STATUS_flushing,
   R.QPE_CMD_STAGE_word,
   R.QPE_CNT_count]

/-- The fields of block 0xd, in table order (part 1). -/
def fields13_0 : List Fld :=
  [R.CLT_CMD_op,
   R.CLT_CMD_slot,
   R.CLT_CMD_index,
   R.CLT_CMD_RESULT_status,
   R.CLT_CMD_RESULT_busy,
   R.CLT_COLL_STATUS_state,
   R.CLT_COLL_STATUS_tenant,
   R.CLT_COLL_STATUS_last_status,
   R.CLT_COLL_STATUS_tag,
   R.CLT_COLL_STATUS_step,
   R.CLT_COLL_STATUS_beat,
   R.CLT_COLL_STATUS_live,
   R.CLT_EVT_events,
   R.CLT_INT_EN_enables,
   R.CLT_FAIL_INFO_slot,
   R.CLT_FAIL_INFO_status,
   R.CLT_FAIL_INFO_chunk,
   R.CLT_FAIL_INFO_step,
   R.CLT_CMD_STAGE_word,
   R.CLT_SPILL_extent,
   R.CLT_SPILL_valid,
   R.CLT_CNT_count]

/-- The fields of block 0xe, in table order (part 1). -/
def fields14_0 : List Fld :=
  [R.GTH_CMD_op,
   R.GTH_CMD_slot,
   R.GTH_CMD_RESULT_status,
   R.GTH_CMD_RESULT_busy,
   R.GTH_CMD_RESULT_gen,
   R.GTH_TABLE_STATUS_valid,
   R.GTH_TABLE_STATUS_kind,
   R.GTH_TABLE_STATUS_tenant,
   R.GTH_TABLE_STATUS_die,
   R.GTH_TABLE_STATUS_tag,
   R.GTH_TABLE_STATUS_gen,
   R.GTH_TABLE_STATUS_live,
   R.GTH_TABLE_STATUS_updates,
   R.GTH_EVT_events,
   R.GTH_INT_EN_enables,
   R.GTH_FAIL_INFO_slot,
   R.GTH_FAIL_INFO_status,
   R.GTH_FAIL_INFO_row,
   R.GTH_FAIL_INFO_src_eid,
   R.GTH_CMD_STAGE_word,
   R.GTH_CFG_queue,
   R.GTH_CFG_pin_window,
   R.GTH_CACHE_CFG_enable,
   R.GTH_CACHE_CFG_admit,
   R.GTH_CACHE_CFG_decay_log2,
   R.GTH_CACHE_CFG_sample,
   R.GTH_CNT_count,
   R.GTH_CACHE_STATUS_rows,
   R.GTH_CACHE_STATUS_granules]

/-- The fields of block 0xf, in table order (part 1). -/
def fields15_0 : List Fld :=
  [R.CDC_CMD_op,
   R.CDC_CMD_stream,
   R.CDC_CMD_die,
   R.CDC_CMD_RESULT_status,
   R.CDC_CMD_RESULT_busy,
   R.CDC_CMD_RESULT_gen,
   R.CDC_EVT_events,
   R.CDC_INT_EN_enables,
   R.CDC_ERR_INFO_stream,
   R.CDC_ERR_INFO_die,
   R.CDC_ERR_INFO_port,
   R.CDC_ERR_INFO_src_eid,
   R.CDC_ERR_INFO_cause,
   R.CDC_ERR_BLOCK_block,
   R.CDC_STAGE_word,
   R.CDC_CNT_count,
   R.CDC_STREAM_descriptor,
   R.CDC_TABLE_lengths]

/-- The fields of block 0x10, in table order (part 1). -/
def fields16_0 : List Fld :=
  [R.SEC_BOOT_STATUS_stage,
   R.SEC_BOOT_STATUS_identity_ok,
   R.SEC_BOOT_STATUS_config_ok,
   R.SEC_BOOT_STATUS_key_index,
   R.SEC_BOOT_STATUS_fail,
   R.SEC_BOOT_STATUS_booted_version,
   R.SEC_FW_STATUS_running_version,
   R.SEC_FW_STATUS_handover_pending,
   R.SEC_FW_STATUS_staged_ok,
   R.SEC_TENANT_state,
   R.SEC_TENANT_key_valid,
   R.SEC_TENANT_session_open,
   R.SEC_TENANT_clusters,
   R.SEC_TENANT_objects,
   R.SEC_TENANT_rotations,
   R.SEC_TENANT_sessions,
   R.SEC_SESSION_state,
   R.SEC_SESSION_status,
   R.SEC_SESSION_seq_in,
   R.SEC_SESSION_seq_out,
   R.SEC_EVT_events,
   R.SEC_INT_EN_enables,
   R.SEC_FW_BEAT_beat,
   R.SEC_ISO_strict,
   R.SEC_ISO_active,
   R.SEC_LOCK_lock,
   R.SEC_DEBUG_NONCE_nonce,
   R.SEC_MEAS_bytes,
   R.SEC_IDENTITY_PK_bytes,
   R.SEC_CNT_count]

/-- The fields of block 0x11, in table order (part 1). -/
def fields17_0 : List Fld :=
  [R.RAS_MGR_CFG_role,
   R.RAS_MGR_CFG_manager_eid,
   R.RAS_PUPPET_CFG_tc,
   R.RAS_PUPPET_CFG_copy_rate,
   R.RAS_PUPPET_CFG_ack_timeout,
   R.RAS_SUMMARY_blocks,
   R.RAS_CFG_vector,
   R.RAS_CFG_freeze_on_fatal,
   R.RAS_CFG_ce_threshold,
   R.RAS_EVT_events,
   R.RAS_INT_EN_enables,
   R.RAS_PROG_ERR_block,
   R.RAS_PROG_ERR_offset,
   R.RAS_LOG_PROD_count,
   R.RAS_LOG_CONS_count,
   R.RAS_LOG_LOST_count,
   R.RAS_FATAL_INFO_block,
   R.RAS_FATAL_INFO_cause,
   R.RAS_FATAL_INFO_source,
   R.RAS_LOCK_lock,
   R.RAS_PUPPET_STATUS_state,
   R.RAS_PUPPET_STATUS_partner_eid,
   R.RAS_PUPPET_STATUS_synced,
   R.RAS_SCRUB_SCHED_target,
   R.RAS_SCRUB_SCHED_rate,
   R.RAS_SCRUB_SCHED_beat,
   R.RAS_LOG_record,
   R.RAS_CNT_count]

/-- The fields of block 0x12, in table order (part 1). -/
def fields18_0 : List Fld :=
  [R.PWR_MODE_STATUS_mode,
   R.PWR_MODE_STATUS_pending,
   R.PWR_MODE_STATUS_requested,
   R.PWR_MODE_STATUS_result,
   R.PWR_MODE_STATUS_pending_beat,
   R.PWR_REST_STATUS_state,
   R.PWR_REST_STATUS_result,
   R.PWR_REST_STATUS_cause,
   R.PWR_EVT_events,
   R.PWR_INT_EN_enables,
   R.PWR_MODE_REQ_mode,
   R.PWR_MODE_REQ_beat,
   R.PWR_THROTTLE_eclk,
   R.PWR_THROTTLE_stack_cap,
   R.PWR_THROTTLE_windows,
   R.PWR_POWER_avg,
   R.PWR_POWER_limit,
   R.PWR_REST_enter_beat,
   R.PWR_REST_wake_beat,
   R.PWR_REST_CTL_request,
   R.PWR_REST_CTL_wake_en,
   R.PWR_REST_CTL_wake,
   R.PWR_CNT_count,
   R.PWR_TEMP_west,
   R.PWR_TEMP_east,
   R.PWR_TEMP_hub,
   R.PWR_TEMP_stack,
   R.PWR_TEMP_stack_index,
   R.PWR_THERMAL_CFG_die_throttle,
   R.PWR_THERMAL_CFG_stack_throttle,
   R.PWR_THERMAL_CFG_hysteresis,
   R.PWR_THERMAL_STATUS_throttling,
   R.PWR_THERMAL_STATUS_critical,
   R.PWR_THERMAL_STATUS_tripped,
   R.PWR_THERMAL_STATUS_trip_source,
   R.PWR_THERMAL_STATUS_steps]

/-- The fields of block 0x13, in table order (part 1). -/
def fields19_0 : List Fld :=
  [R.DBG_FREEZE_CFG_instr_en,
   R.DBG_AUTH_STATUS_open,
   R.DBG_LOCK_lock]

/-- The fields of block 0x14, in table order (part 1). -/
def fields20_0 : List Fld :=
  [R.MRN_EVT_overrun,
   R.MRN_EVT_reply,
   R.MRN_INT_EN_enables,
   R.MRN_BUSY_pending,
   R.MRN_DOORBELL_seq,
   R.MRN_REPLY_HDR_seq,
   R.MRN_REPLY_HDR_status,
   R.MRN_REPLY_HDR_length,
   R.MRN_CFG_vector,
   R.MRN_CFG_int_en,
   R.MRN_REQ_word,
   R.MRN_REPLY_word]

/-- The fields of the block whose capability identifier is `b` (00, register conventions). -/
def fieldsOfBlock (b : Nat) : List Fld :=
  match b with
  | 1 => fields1_0
  | 2 => fields2_0
  | 3 => fields3_0
  | 4 => fields4_0 ++ fields4_1
  | 5 => fields5_0
  | 6 => fields6_0
  | 7 => fields7_0
  | 8 => fields8_0 ++ fields8_1
  | 9 => fields9_0 ++ fields9_1
  | 10 => fields10_0
  | 11 => fields11_0 ++ fields11_1
  | 12 => fields12_0
  | 13 => fields13_0
  | 14 => fields14_0
  | 15 => fields15_0
  | 16 => fields16_0
  | 17 => fields17_0
  | 18 => fields18_0
  | 19 => fields19_0
  | 20 => fields20_0
  | _ => []

end Sys2Proof.Machine
end

