-- ==== Sys2Proof/Machine/State.lean ====
section
/-! DEFINITION. The state of the block: everything the manual says the part holds, as plain data. -/

namespace Sys2Proof.Machine

/-- No command of the table stops the machine: errors are effects the manual describes (R404), so there is no fault. -/
inductive Fault where
  deriving DecidableEq, Repr

/-- A command without a meaning. -/
inductive Refusal where
  /-- Raised by an arm of `exec` whose command has no meaning yet. Safe: nothing is claimed of it. -/
  | notModelled (mnemonic : String)
  deriving DecidableEq, Repr

/-! ### What leaves the part -/

/-- A link control flit's content (R74). -/
inductive Lctl where
  | nak (e : Nat)
  | initCredit (credit : List Nat)
  | caps (c : Caps)
  | widthChange (superframe mask : Nat) (request : Bool)
  | retrainReq
  deriving DecidableEq, Repr

/-- One thing that left the part on its pins. -/
inductive Out where
  /-- A flit on a port. -/
  | flit (p : Nat) (f : Flit)
  /-- A link control flit on a port. -/
  | lctl (p : Nat) (l : Lctl)
  /-- The writes of zeros that clear a lent extent, on its lending port (R178). -/
  | zeros (p node extent : Nat)
  /-- A cricket flit on a port. -/
  | cricket (p : Nat) (c : Cricket)
  /-- An MSI-X message of a function (R441). -/
  | msix (fn vec : Nat)
  /-- A PCI Express completion: function, status of PCI Express (0 successful, 1 unsupported request), data (R438). -/
  | completion (fn status : Nat) (data : List Byte)
  /-- A write to host memory by a function (R433). -/
  | hostWrite (fn addr : Nat) (data : List Byte)
  /-- An in-band interrupt or another event on the I3C bus (R454). -/
  | i3c (code : Nat)
  /-- A pin driven to a level: 0 THERMTRIP_N, 1 CRICKET_OUT, 2 + c DIMM_PWR_EN of channel c. -/
  | pin (which level : Nat)
  deriving DecidableEq, Repr

/-! ### Fabric time (02) -/

/-- A SYNC heard on a port (R41, R42). -/
structure Heard where
  gen : Nat := 0
  master : Nat := 0
  hop : Nat := 0
  time : Nat := 0
  deriving DecidableEq, Repr

/-- The fabric time unit. `ft` counts 1/256 ns; `west` and `east` are the copies of the fabric dies in ns (R24). -/
structure Tim where
  ft : Nat := 0
  west : Nat := 0
  east : Nat := 0
  /-- Correction still to slew, 1/256 ns, and the elapsed time from which the next 1/256 ns may be slewed (R45). -/
  slew : Int := 0
  nextSlew : Nat := 0
  /-- FT advances at half rate (R51). -/
  halfRate : Bool := false
  /-- A forward step waiting for the next beat start, 1/256 ns (R51). -/
  step : Option Nat := none
  freq : Int := 0
  heard : Map Heard := Map.empty
  /-- The master identifier followed (R42). -/
  master : Nat := 0
  /-- A parent port is held (R49). -/
  held : Bool := false
  good : Nat := 0
  /-- The two master identifiers in conflict (R42). -/
  conflict : Option (Nat × Nat) := none
  holdSince : Nat := 0
  /-- The time function has left UNSYNC since its reset (R34). -/
  left : Bool := false
  /-- Outstanding DELAY_REQ: port, sequence number, t1 (R45). -/
  request : Option (Nat × Nat × Nat) := none
  /-- Next sequence number by [port, type] (R44). -/
  seq : Map Nat := Map.empty
  /-- A load waits for the PPS edge (R52). -/
  ppsLoad : Bool := false
  deriving DecidableEq, Repr

/-! ### Ports (03) -/

/-- A message being received on a virtual channel (R65, R68): flits taken and payload bits so far. -/
structure Rx where
  flits : Nat := 0
  total : Nat := 1
  /-- The message has been handed to the switch core. -/
  arrived : Bool := false
  /-- Which of its flits came with cm = 1, as a mask. -/
  cms : Nat := 0
  /-- The message broke R68 and its remaining flits are discarded. -/
  bad : Bool := false
  deriving DecidableEq, Repr

/-- A port context. Virtual channels index the maps as [vc], logical lanes as [lane]. -/
structure Port where
  /-- Elapsed time at which the state of PRT_PORT_STATUS was entered (R79). -/
  since : Nat := 0
  attempts : Nat := 0
  /-- The step of R79 under way within RETRAIN, by its state number. -/
  phase : Nat := 0
  completed : Bool := false
  gotCaps : Option Caps := none
  lastCaps : Option Caps := none
  gotCredit : Option (List Nat) := none
  /-- The CONFIG to come is the first after DETECT, or follows a change of partner (R73). -/
  fresh : Bool := true
  identity : Option (Nat × Nat) := none
  /-- Logical lanes bad at this end, and the active lanes (R57, R58), as masks. -/
  badLanes : Nat := 0
  lanes : Nat := 0
  lockedAt : Nat := 0
  /-- The agreed width change: superframe and mask; our own request; the lane under retraining (R83, R84). -/
  widthAt : Option (Nat × Nat) := none
  widthReq : Option (Nat × Nat) := none
  lane : Option Nat := none
  laneReady : Bool := false
  nextSeq : Nat := 0
  /-- Unacknowledged flits, oldest first, and how many of them wait to be sent again (R75, R77). -/
  replay : List Flit := []
  resend : Nat := 0
  replays : Nat := 0
  progressAt : Nat := 0
  expected : Nat := 0
  /-- The last NAK: the value named and when (R76). -/
  lastNak : Option (Nat × Nat) := none
  credit : Map Int := Map.empty
  lastTotal : Map Nat := Map.empty
  initial : Map Nat := Map.empty
  zeroSince : Map Nat := Map.empty
  /-- Allowance in force per virtual channel, cells held under it, running total freed (R70, R72, R87). -/
  allowance : Map Nat := Map.empty
  heldCells : Map Nat := Map.empty
  /-- What INIT_CREDIT last named (R69); cells of messages that came before the link last started from 0, and the number
  of such starts. -/
  advertised : Map Nat := Map.empty
  stale : Map Nat := Map.empty
  epoch : Nat := 0
  /-- An older, larger allowance still counted by the sum of R87. -/
  counted : Map Nat := Map.empty
  freed : Map Nat := Map.empty
  /-- The running totals as last reported (R70). -/
  reported : Map Nat := Map.empty
  rx : Map Rx := Map.empty
  /-- End of the repetition of INIT_CREDIT after admit (R73). -/
  repeatUntil : Nat := 0
  badRun : Map Nat := Map.empty
  /-- Good flits in a row since the last uncorrectable codeword (R61). -/
  goodRun : Nat := 0
  /-- Elapsed time at which the port last went down (R157). -/
  downAt : Option Nat := none
  deriving DecidableEq, Repr

/-! ### The switch core (04) -/

/-- A message in the buffer, as one reader sees it. -/
structure QMsg where
  msg : Msg
  /-- The stored message; the copies of a multicast share it. -/
  id : Nat := 0
  /-- Ingress port; none for a message formed by an agent. -/
  inPort : Option Nat := none
  die : Nat := 0
  /-- Cells written, cells in all, flits sent (R91). -/
  have_ : Nat := 0
  total : Nat := 1
  sent : Nat := 0
  /-- It may leave before its last cell is written (R91). -/
  cutThrough : Bool := false
  /-- The group that routed it, and the map generation of that group (R101). -/
  group : Option (Nat × Nat) := none
  /-- One of several readers of the stored message (R96). -/
  shared : Bool := false
  /-- The ingress has failed it after it began to leave (R93): 1 it ends at once, 2 it ends past its count. -/
  failed : Nat := 0
  /-- Which of its cells came marked, as a mask (R105). -/
  cms : Nat := 0
  /-- A mirror copy (R109). -/
  copy : Bool := false
  /-- The message as it leaves, where that is not the stored form (R329). -/
  wire : Option Msg := none
  /-- The epoch of the ingress port it came in. -/
  epoch : Nat := 0
  /-- Elapsed time of the last cell written, and fabric time when its first cell was (R110). -/
  time : Nat := 0
  ft : Nat := 0
  deriving DecidableEq, Repr

/-- A flow context of a resequencer (R103): `held` is in order of sequence number from `expected`. -/
structure Flow where
  expected : Nat := 0
  held : List QMsg := []
  since : Nat := 0
  deriving DecidableEq, Repr

/-- The tables of one map generation (R94, R96, R97). -/
structure Tables where
  route : Map Nat := Map.empty
  group : Map Nat := Map.empty
  mcast : Map (Nat × Bool × Bool) := Map.empty
  deriving DecidableEq, Repr

/-- The window of a die toward a destination (R106, R107). -/
structure Win where
  w : Nat := 1
  outstanding : Nat := 0
  unmarked : Nat := 0
  lastDecrease : Option Nat := none
  deriving DecidableEq, Repr

/-! ### Tracker (05) -/

/-- What the answer to a request of the part's own agents is for. -/
inductive Purpose where
  /-- A core's read into local memory at an address (R274); counter or none. -/
  | load (core addr len : Nat) (counter : Option Nat)
  /-- A core's write (R274). -/
  | store (core : Nat) (counter : Option Nat)
  /-- A core's atomic: local address for the old value, or register for it (R274). -/
  | atomic (core : Nat) (addr sd : Option Nat) (len : Nat) (counter : Option Nat)
  /-- A coherent request of a cluster's caching agent for a line (R151). -/
  | coherent (cluster line : Nat)
  /-- The parameter block of an owner's step (R350). -/
  | params (slot owner step : Nat)
  /-- A counted contribution of a core (R282). -/
  | contribution (core : Nat) (counter : Option Nat)
  /-- A lookup of a core, forwarded to another part; its handle and slot set (R283, R366). -/
  | lookup (core handle set : Nat)
  /-- A slot of a queue pair's send or receive ring, for the incarnation `gen` of the connection (R296). -/
  | qpSlot (qpn slot : Nat) (recv : Bool) (gen : Nat)
  /-- The ring slot a core's qpost fills (R284). -/
  | qpPost (qpn slot gen : Nat)
  /-- Source data of the packet being built, checked against region `key` (R304). -/
  | qpPart (qpn id off key gen : Nat)
  /-- A home access of a packet being applied (R303). -/
  | qpJob (qpn id off key gen : Nat)
  /-- Data of a READ on its way to the local buffer (R304). -/
  | qpPlace (qpn slot key gen : Nat)
  /-- A completion record, of a connection; the job of its target that waits for it (R303, R307). -/
  | cqRecord (cqn qpn : Nat) (job : Option Nat)
  /-- A fetch of a gather or filter request (R363). -/
  | gather (die id row : Nat)
  /-- A read or write of a record of a bounce session (R440). -/
  | bounce (fn record k : Nat)
  /-- A BAR2 access (R437). -/
  | bar2 (fn access k : Nat)
  /-- A remote counter increment or any other request whose answer changes nothing more. -/
  | plain
  deriving DecidableEq, Repr

/-- The agents that issue requests (R123). -/
inductive Issuer where
  | core (n : Nat)
  | qp (n : Nat)
  | collective (d : Nat)
  | gather (d : Nat)
  | bounce (f : Nat)
  | bar2 (f : Nat)
  deriving DecidableEq, Repr

/-- A live issued entry (R128 to R133). -/
structure Issued where
  gen : Nat
  msg : Msg
  issuer : Issuer
  purpose : Purpose
  since : Nat
  reissues : Nat := 0
  remaining : Nat := 0
  status : Status := .ok
  /-- Byte ranges received, as (offset, length). -/
  got : List (Nat × Nat) := []
  data : Nat := 0
  /-- A packet of its answer came marked (R106). -/
  marked : Bool := false
  /-- Waiting to be reissued since this beat (R131). -/
  retryAt : Option Nat := none
  deriving DecidableEq, Repr

/-- A request held at issue (R107). -/
structure Held where
  msg : Msg
  issuer : Issuer
  purpose : Purpose
  deriving DecidableEq, Repr

/-- A live home entry: a request taken and not yet answered (R128). -/
structure Home where
  msg : Msg
  since : Nat
  /-- The members, where the request stands for a combining entry (R135). -/
  members : List Msg := []
  deriving DecidableEq, Repr

/-- A live forwarded entry (R128, R130): the request as sent, its members where it is combined, the port of the lender,
and the bytes of a multi-packet read still to come. -/
structure Fwd where
  msg : Msg
  members : List Msg := []
  port : Nat
  since : Nat
  remaining : Nat := 0
  deriving DecidableEq, Repr

/-- An OPEN combining entry (R134, R135), members in order of arrival. -/
structure Comb where
  members : List Msg
  since : Nat := 0
  deriving DecidableEq, Repr

/-- The sub-state of the switch core. Dies are 0 West and 1 East; outputs are ports 0 to 255 and 256 + d for the agents
of die d. -/
structure Sw where
  nextId : Nat := 0
  /-- Egress queues by [port, vc], and agent inputs by [die, channel] (R90). -/
  queues : Map (List QMsg) := Map.empty
  agentIn : Map (List QMsg) := Map.empty
  /-- Cells held by agents, by [die] and by [tenant, die] (R87, R89), and messages waiting for a cell, by [die]. -/
  agentCells : Map Nat := Map.empty
  tenantCells : Map Nat := Map.empty
  waiting : Map (List Msg) := Map.empty
  current : Tables := {}
  previous : Tables := {}
  flows : Map Flow := Map.empty
  /-- Messages not yet whole whose output restores order, with that output (R103). -/
  partials : List (Nat × QMsg) := []
  /-- Windows by [die, destination] and requests held at issue by [die] (R107). -/
  wins : Map Win := Map.empty
  held : Map (List Held) := Map.empty
  rotate : Map Nat := Map.empty
  /-- Deficit counters by [port, class], and the class under service by [port] (R90). -/
  deficit : Map Int := Map.empty
  serving : Map Nat := Map.empty
  /-- In strict isolation: the tenant last served by [port, vc] (R402). -/
  lastTenant : Map Nat := Map.empty
  mirrorCount : Map Nat := Map.empty
  sampleSeq : Map Nat := Map.empty
  /-- Firefly samples taken on a die in the current second, [die] to (second, samples) (R110). -/
  sampleRate : Map (Nat × Nat) := Map.empty
  deriving DecidableEq, Repr

/-- The transaction tracker of both dies (R128 to R137). -/
structure Trk where
  home : Map Home := Map.empty
  issued : Map Issued := Map.empty
  fwd : Map Fwd := Map.empty
  /-- Requests, by home entry, that wait for a forwarded entry of [die] (R128). -/
  fwdWait : Map (List Nat) := Map.empty
  /-- Requests, by home entry, that wait for an earlier one of their source and flow (R121). -/
  flowWait : List (Nat × Nat) := []
  /-- Generation and time of retirement of an issued index (R129). -/
  gen : Map Nat := Map.empty
  retired : Map Nat := Map.empty
  comb : Map Comb := Map.empty
  nextHome : Nat := 0
  nextFwd : Nat := 0
  nextComb : Nat := 0
  deriving DecidableEq, Repr

/-! ### Pool (07) -/

/-- The state of an extent (R161, R162). -/
inductive ExtState where
  | absent | free | held | revoking | scrub | quarantine | lost | internal
  deriving DecidableEq, Repr

/-- An extent record (R161). -/
structure Ext where
  state : ExtState := .free
  owner : Nat := 0
  group : Option Nat := none
  tenant : Nat := 0
  die : Nat := 0
  deriving DecidableEq, Repr

/-- Who waits for the outcome of a fabric-manager command: the Marionette itself, the physical function's mailbox (R453),
or the manager device that relayed update `seq` (R415). -/
inductive Asker where
  | here
  | mailbox
  | relayed (seq : Nat)
  deriving DecidableEq, Repr

/-- A revocation under way (R172, R173); `asker` is none for an expiry. -/
structure Revocation where
  node : Nat
  extents : List Nat
  clear : Bool
  since : Nat := 0
  /-- The drain timeout has passed; the drain has ended. -/
  late : Bool := false
  drained : Bool := false
  asker : Option Asker := none
  /-- Extents not yet scrubbed. -/
  left : List Nat := []
  /-- Whom to tell of each extent's end: extent and endpoint (R173). -/
  tell : List (Nat × Nat) := []
  /-- The scrub of extents a RELEASE took out of LOST (R186). -/
  release : Bool := false
  deriving DecidableEq, Repr

/-- A request waiting in a limiter queue (R181). -/
structure Waiter where
  order : Nat
  home : Nat
  deriving DecidableEq, Repr

/-- The pool (07). Extents not listed are FREE below the node's count and ABSENT above it. -/
structure Pool where
  ext : Map Ext := Map.empty
  /-- Tokens by [die, 0, slot] and [die, 1, tenant], in tenths of a byte; not listed: full (R180). -/
  tokens : Map Int := Map.empty
  /-- Limiter queues by [die, 0, slot] and [die, 1, tenant] (R181). -/
  limitQ : Map (List Waiter) := Map.empty
  nextOrder : Nat := 0
  /-- Slots whose expiry is set on first reaching LOCKED (R168, R169). -/
  provisional : Map Unit := Map.empty
  revs : Map Revocation := Map.empty
  nextRev : Nat := 0
  /-- Lenders that asked for their range back, by lend entry: tag of the request (R179). -/
  withdraw : Map Msg := Map.empty
  /-- Shadow-lost chunks by [extent, chunk] (R426). -/
  shadowLost : Map Unit := Map.empty
  deriving DecidableEq, Repr


/-! ### Coherence (06) -/

/-- A directory record (R145): `s` with the vector of slots, `x` with the owner's slot. -/
inductive Rec where
  | i
  | s (v : Nat)
  | x (o : Nat)
  deriving DecidableEq, Repr

/-- An open snoop of the home (R147, R155), by its home_tag. -/
structure Snoop where
  line : Nat
  dom : Nat
  slot : Nat
  /-- Its message type, 0x48 to 0x4B. -/
  kind : Nat
  /-- The home entry, with its die, that waits for the answer; none for a forward that keeps nobody. -/
  home : Option (Nat × Nat) := none
  reqSlot : Nat := 0
  since : Nat := 0
  /-- A crossing writeback stood for the answer; the not_held to come closes the snoop (R155). -/
  crossed : Bool := false
  deriving DecidableEq, Repr

/-- A line in a cluster's row cache: 1 S, 2 E, 3 M (R150). -/
structure CLine where
  st : Nat
  data : Nat
  deriving DecidableEq, Repr

/-- A cluster's outstanding coherent request, and the snoops held for it (R151). -/
structure Want where
  tag : Nat
  ty : Nat
  held : List Msg := []
  deriving DecidableEq, Repr

/-- Coherence (06). Lines are numbered within the own node; records not listed are I. -/
structure Coh where
  recs : Map Rec := Map.empty
  /-- Lines poisoned by reclaim while forwards of their chain are still open (R158). -/
  broken : Map Unit := Map.empty
  busy : Map (Nat × Nat) := Map.empty
  snoops : Map Snoop := Map.empty
  wait : Map (List (Nat × Nat)) := Map.empty
  nextTag : Nat := 0
  /-- Slots declared dead, by [domain, slot] (R157), and the dies whose reclaim walk is still to end (R159). -/
  dead : Map Unit := Map.empty
  walks : Map Unit := Map.empty
  /-- Member slots to be written when their walk has ended, and bindings when their recall has (R140, R142). -/
  members : Map Nat := Map.empty
  unbinding : Map (Nat × Asker) := Map.empty
  /-- Row-cache lines and outstanding requests of clusters, by [cluster, line]. -/
  lines : Map CLine := Map.empty
  want : Map Want := Map.empty
  /-- Sectors in the directory cache, by [die, slice], most recent first (R146). -/
  sectors : Map (List Nat) := Map.empty
  deriving DecidableEq, Repr

/-! ### Tiers (08) -/

/-- Where an extent or a chunk of it resides: a slot of a stack, or of a board channel. -/
structure Loc where
  board : Bool := false
  unit : Nat := 0
  slot : Nat := 0
  deriving DecidableEq, Repr

/-- The kinds of a move (R212). -/
inductive MoveKind where
  | demotion | promotion | retirement | drain | zeroFill | command
  deriving DecidableEq, Repr

/-- A move (R212). -/
structure Move where
  kind : MoveKind
  /-- The source slot; none for the all-zero source of R206. -/
  src : Option Loc
  dst : Loc
  /-- The home die after the move (R214). -/
  die : Nat
  /-- Chunks that reside at the destination, as a mask. -/
  copied : Nat := 0
  /-- The locked chunk, and when it was locked. -/
  lock : Option (Nat × Nat) := none
  gapUntil : Nat := 0
  abandons : Nat := 0
  /-- The pause of 64 beats after 8 abandons ends at this elapsed time. -/
  resumeAt : Option Nat := none
  /-- A zero-fill chunk that a waiting write wants next (R206). -/
  urgent : Option Nat := none
  /-- Requests that wait on the lock: die and home entry. -/
  wait : List (Nat × Nat) := []
  /-- Copied whole in this beat; the change of home die falls due at the start of the next one (R214). -/
  whole : Option Nat := none
  deriving DecidableEq, Repr

/-- A column-level request of a pseudo-channel (R193). -/
structure ColReq where
  write : Bool
  bank : Nat
  row : Nat
  /-- The 32-byte unit within the row. -/
  col : Nat
  since : Nat
  /-- Issued by the migration engine or by patrol scrub (R197). -/
  free : Bool := false
  /-- Order of arrival at the pseudo-channel, reads and writes together (R194). -/
  seq : Nat := 0
  deriving DecidableEq, Repr

/-- A pseudo-channel (R193 to R199). -/
structure Pc where
  reads : List ColReq := []
  writes : List ColReq := []
  /-- The write queue is being drained (R193). -/
  draining : Bool := false
  openRow : Map Nat := Map.empty
  /-- Refreshes owed by [bank]. -/
  owed : Map Nat := Map.empty
  /-- Elapsed time of the last request, and by [bank] of the last command. -/
  lastUse : Nat := 0
  nextSeq : Nat := 0
  bankUse : Map Nat := Map.empty
  /-- Recalibration: when it began, the delays saved, releases failed in a row (R199, R202). -/
  recalAt : Nat := 0
  saved : List (Key × Nat) := []
  failedReleases : Nat := 0
  /-- Uncorrectable errors in a beat: the beat and the count (R202). -/
  errors : Nat × Nat := (0, 0)
  wait : List (Nat × Nat) := []
  deriving DecidableEq, Repr

/-- The tiers (08). Extents are of the own node. -/
structure Tier where
  loc : Map Loc := Map.empty
  moves : Map Move := Map.empty
  age : Map Nat := Map.empty
  heat : Map Nat := Map.empty
  /-- Key tag carried by a board slot, by [channel, slot] (R206). -/
  tags : Map Nat := Map.empty
  pcs : Map Pc := Map.empty
  /-- Column commands issued in a beat, by [stack]: beat and count (R197). -/
  columns : Map (Nat × Nat) := Map.empty
  /-- Slots of a board channel that have left service, by [channel] (R207); dies whose demotion goes on until high_free is
  reached, by [die] (R210); the beat of the last age tick, plus 1 (R208). -/
  gone : Map Nat := Map.empty
  demoting : Map Unit := Map.empty
  ageAt : Nat := 0
  /-- Board slots the part had at pool bring-up, by [channel] (R207, R217). -/
  boot : Map Nat := Map.empty
  /-- Extents promoted once the swapped extent has left (R211). -/
  swaps : Map Nat := Map.empty
  /-- A patrol pass of R429 under way: target and lines left. -/
  passLeft : Option (Nat × Nat) := none
  /-- The beat at which a scheduled patrol pass begins (R429). -/
  passAt : Option Nat := none
  /-- The image store's extent (R249, R444). -/
  store : Option Nat := none
  deriving DecidableEq, Repr

/-! ### Puppet mode (17) -/

/-- A response withheld until its shadow messages are acknowledged (R423). -/
structure Withheld where
  die : Nat
  home : Nat
  status : Status
  data : Option Nat
  left : List Nat
  deriving DecidableEq, Repr

/-- A shadow message not yet acknowledged (R422): its extent, the chunk whose copy it ends, and when it was sent. -/
structure Sent where
  extent : Nat
  ends : Option Nat := none
  since : Nat
  deriving DecidableEq, Repr

/-- The pairing of a primary and its puppet (R420 to R428). -/
structure Pair where
  primary : Nat := 0xFFFF
  puppet : Nat := 0xFFFF
  tc : Nat := 0
  flow : Nat := 0
  /-- Next seq of MG_SHADOW, and next flow_seq of the pair's flow. -/
  seq : Nat := 0
  flowSeq : Nat := 0
  /-- Copied chunks of every shadowed extent, as masks: sent by the primary, written by the puppet. -/
  chunks : Map Nat := Map.empty
  /-- The chunk under copy of an extent, by [die] (R421). -/
  copying : Map (Nat × Nat) := Map.empty
  sent : Map Sent := Map.empty
  withheld : List Withheld := []
  /-- At the puppet: mirrored lease slots (eid, tenant, duration, expiry), share lists, and the primary's node. -/
  leases : Map (Nat × Nat × Nat × Nat) := Map.empty
  groups : Map (List Nat) := Map.empty
  node : Nat := 0
  /-- The handoff: its beat, whether it has begun at the primary, whether the puppet awaits the marker (R428). -/
  handoff : Option Nat := none
  switched : Bool := false
  holding : List (Nat × Nat) := []
  deriving DecidableEq, Repr
/-- A report a worker holds until it is acknowledged (R416, R481). -/
structure Report where
  seq : Nat
  code : Nat
  status : Status
  operands : List Byte
  sentAt : Nat
  deriving DecidableEq, Repr

/-- An object that arrives as MG_FW_DATA or MG_EVID_RSP (R413): the op it serves, its length and the bytes received. -/
structure Transfer where
  op : Nat
  total : Option Nat := none
  got : List (Nat × Nat) := []
  data : List Host.Cell := []
  deriving DecidableEq, Repr

/-- An update a worker holds until its turn (R415). -/
structure Upd where
  seq : Nat
  op : Nat
  operands : List Byte
  deriving DecidableEq, Repr

/-- An update the manager device has sent and that is not yet acknowledged, and how often it was sent (R415). -/
structure SentUpd where
  upd : Upd
  sentAt : Nat
  sends : Nat := 1
  deriving DecidableEq, Repr

/-- What the manager device keeps of a worker (R415): the next sequence number, the updates outstanding, those that wait
because 64 are, and whether it has been reported unreachable. -/
structure Worker where
  next : Nat := 0
  out : List SentUpd := []
  wait : List Upd := []
  lost : Bool := false
  deriving DecidableEq, Repr

/-- Errors and reports (17). -/
structure Ras where
  /-- Corrected errors by [block, source] in the window of 1,024 beats `ceWindow` (R409). -/
  ce : Map Nat := Map.empty
  ceWindow : Nat := 0
  reports : List Report := []
  reportSeq : Nat := 0
  /-- Reports dropped because 256 were held (R416 counts them; no register shows the count). -/
  reportsDropped : Nat := 0
  /-- The last 64 acknowledgements sent: seq, op, status (R415). -/
  acks : List (Nat × Nat × Status) := []
  /-- Reports and acknowledgements of the manager device not yet fetched (R453). -/
  fetch : List (List Byte) := []
  /-- At a worker: the update expected next, those held for their turn, those a hand-over holds back, and the object of
  each update that is still to arrive (R391, R415). -/
  expected : Nat := 0
  held : List Upd := []
  later : List Upd := []
  objects : Map Transfer := Map.empty
  /-- At the manager device: its workers, and the evidence they send, by [worker, seq]. -/
  workers : Map Worker := Map.empty
  evidence : Map Transfer := Map.empty
  deriving DecidableEq, Repr

/-! ### Cores and clusters (09 to 11) -/

/-- A bound stream handle (R233). -/
structure Handle where
  base : Nat
  slotLog2 : Nat
  producer : Nat
  slotsLog2 : Nat
  p : Nat := 0
  c : Nat := 0
  deriving DecidableEq, Repr

/-- What stops a core's issue. -/
inductive Wait where
  /-- cwait: counter, target, destination, and the fabric time at which it gives up (R271). -/
  | counter (cn target d : Nat) (deadline : Option Nat)
  /-- twait: beat and destination (R285). -/
  | beat (target d : Nat)
  /-- ffence: destination, entries of the snapshot still live, and the status so far (R277). -/
  | fence (d : Nat) (left : List Key) (worst : Status)
  /-- tend (R278). -/
  | taskEnd
  deriving DecidableEq, Repr

/-- A hacq or hres that waits (R280). -/
structure Acq where
  h : Nat
  n : Nat
  d : Nat
  reserve : Bool
  deriving DecidableEq, Repr

/-- A pending launch (R286): beat, descriptor, target and counter. -/
structure Launch where
  beat : Nat
  desc : Nat
  target : Nat
  ctr : Option Nat
  deriving DecidableEq, Repr

/-- A core (R244). Registers not listed hold 0. Descriptors are their 64 bytes as a number (R226). -/
structure Core where
  task : Option Nat := none
  /-- ECLK cycles, in fifths, when the task started (R257). -/
  start : Nat := 0
  pc : Nat := 0
  flags : Nat := 0
  s : Map Nat := Map.empty
  v : Map Nat := Map.empty
  p : Map Nat := Map.empty
  /-- Tiles t0 to t3, row-major, 32 bits an element. -/
  t : Map Nat := Map.empty
  /-- Completion counters: value and status (R270). -/
  ctr : Map (Nat × Status) := Map.empty
  handles : Map Handle := Map.empty
  /-- The deque with its overflow, bottom (newest) first (R227). -/
  deque : List Nat := []
  wait : Option Wait := none
  acqs : List Acq := []
  /-- Scalar registers that an unfinished instruction still has to write (R218). -/
  owed : List Nat := []
  launches : List Launch := []
  /-- Local ranges stored to while a fabric read was still to write them (R276). -/
  mixed : List (Nat × Nat) := []
  /-- The stealing stage reached, and since when the core is idle (R229). -/
  stage : Nat := 1
  idleSince : Nat := 0
  deriving DecidableEq, Repr

/-- An agent's push that waits for room (R228): descriptor and core. -/
structure Stalled where
  desc : Nat
  core : Option Nat
  deriving DecidableEq, Repr

/-- A cluster (R227, R230, R240). -/
structure Cluster where
  stalled : List Stalled := []
  /-- The maxima published to the die and across the bridge, and when (R230). -/
  hintDie : Nat := 0
  hintPkg : Nat := 0
  dieAt : Nat := 0
  pkgAt : Nat := 0
  /-- When the state of CMP_CLUSTER_STATUS was entered, whether offlining is stuck, and whether the scrub under way is that
  of a failed cluster (R240, R243). -/
  since : Nat := 0
  stuck : Bool := false
  failed : Bool := false
  deriving DecidableEq, Repr

/-- A program image (R249): its code words and the digest. -/
structure Image where
  code : List (BitVec 64)
  digest : Nat
  deriving DecidableEq, Repr

/-! ### The queue engine (12) -/

/-- A send work request started and not yet complete (R305): its 64 bytes, ring count, first psn and number of psns. -/
structure SendWork where
  wr : Nat
  slot : Nat
  psn : Nat
  count : Nat
  /-- Data of a READ received, as (offset, length), and its writes still under way. -/
  got : List (Nat × Nat) := []
  placing : Nat := 0
  deriving DecidableEq, Repr

/-- A packet whose source data is being read (R304). -/
structure Build where
  id : Nat
  psn : Nat
  left : Nat
  data : Nat := 0
  deriving DecidableEq, Repr

/-- A packet accepted by a target and not yet applied (R303, R306). -/
structure Job where
  id : Nat
  psn : Nat
  msg : Msg
  /-- 0 new, 1 fetching its receive work request, 2 at the homes, 3 writing its record, 4 applied, 5 failed. -/
  phase : Nat := 0
  left : Nat := 0
  data : Nat := 0
  /-- Bytes of a READ answered so far. -/
  off : Nat := 0
  status : Status := .ok
  /-- A READ performed again for a duplicate (R302). -/
  dup : Bool := false
  deriving DecidableEq, Repr

/-- A connection context (R291), and what the engine keeps of it while it runs. -/
structure Qp where
  state : Nat := 0
  tenant : Nat := 0
  pd : Nat := 0
  gen : Nat := 0
  peerEid : Nat := 0
  peerQpn : Nat := 0
  tc : Nat := 0
  flow : Nat := 0
  sqBase : Nat := 0
  rqBase : Nat := 0
  sqLog2 : Nat := 4
  rqLog2 : Nat := 4
  scq : Nat := 0
  rcq : Nat := 0
  sqProd : Nat := 0
  sqCons : Nat := 0
  rqProd : Nat := 0
  rqCons : Nat := 0
  nextPsn : Nat := 0
  unaPsn : Nat := 0
  expPsn : Nat := 0
  compCount : Nat := 0
  ackTimeout : Nat := 0
  retryLimit : Nat := 0
  retries : Nat := 0
  maxOut : Nat := 0
  /-- The peer's conn_gen (R301), and when the context entered RESET. -/
  peerGen : Nat := 0
  resetAt : Nat := 0
  /-- Next send slot to read, the one read and not yet started, since which beat it waits, whether a read is under way. -/
  sqNext : Nat := 0
  fetched : Option Nat := none
  waitSince : Nat := 0
  fetching : Bool := false
  works : List SendWork := []
  /-- Next psn to allot to a work request, and to transmit. -/
  alloc : Nat := 0
  cur : Nat := 0
  build : Option Build := none
  ackSince : Nat := 0
  jobs : List Job := []
  nextJob : Nat := 0
  /-- Every psn before it has been applied (R303). -/
  applied : Nat := 0
  /-- The receive work request of the SEND under way, the rkey of the WRITE under way, and the psn that records of an
  error name (R300, R307). -/
  recv : Option Nat := none
  key : Nat := 0
  errPsn : Nat := 0
  /-- The last NAK for a lost packet: its psn and when (R302). -/
  nak : Option (Nat × Nat) := none
  /-- The flush of R309 is not complete. -/
  flushing : Bool := false
  /-- Slots given to qpost, and those whose bytes are in the ring (R284). -/
  posted : Nat := 0
  filled : List Nat := []
  deriving DecidableEq, Repr

/-- A completion queue (R307): notify is 0 none, 1 MSI-X, 2 core counter, 3 endpoint. -/
structure Cq where
  tenant : Nat := 0
  base : Nat
  log2 : Nat
  notify : Nat := 0
  vector : Nat := 0
  endpoint : Nat := 0
  prod : Nat := 0
  cons : Nat := 0
  armed : Bool := false
  /-- Records held back, with their connections and jobs, and since which beat (R307). -/
  backlog : List (Nat × Nat × Option Nat) := []
  stallBeat : Nat := 0
  deriving DecidableEq, Repr

/-- The queue engines (12). -/
structure Qpe where
  qps : Map Qp := Map.empty
  cqs : Map Cq := Map.empty
  /-- conn_gen of every context number ever used (R291). -/
  gens : Map Nat := Map.empty
  /-- Region entries and their tags, by [key 17:0] (R293). -/
  regions : Map Nat := Map.empty
  tags : Map Nat := Map.empty
  /-- Protection domains and their tenants. -/
  pds : Map Nat := Map.empty
  /-- Next flow_seq of the flows of connections, by [endpoint, die, flow] (R102). -/
  flowSeq : Map Nat := Map.empty
  /-- Contexts cached on chip, by [die], most recent first (R290). -/
  cached : Map (List Nat) := Map.empty
  /-- INVAL_REGION commands under way: region and the function that asked (R295). -/
  invals : List (Nat × Nat) := []
  deriving DecidableEq, Repr

/-! ### The codec's streams at work (13) -/

/-- A message under expansion, or expanded and not yet taken by the collective unit (R325, R326). -/
structure Expansion where
  die : Nat
  stream : Nat
  port : Nat
  msg : Msg
  core : Nat
  handle : Nat
  /-- Bytes of a delivered block, and its element type. -/
  bytes : Nat
  out : Nat
  tagBase : Nat
  /-- Blocks still to write, each with its tag, and how many have been written. -/
  blocks : List (Nat × Nat) := []
  written : Nat := 0
  /-- Blocks the collective unit has taken, their elements, and whether one of them was in error. -/
  taken : Nat := 0
  elems : List Nat := []
  bad : Bool := false
  /-- What the collective unit has decided about the message: its status, and whether it is summed (R338). -/
  verdict : Option (Status × Bool) := none
  since : Nat := 0
  deriving DecidableEq, Repr

/-- A CONFIG, with its staged descriptor, or a CLEAR that waits for the stream's message boundary (R330). -/
structure Deferred where
  clear : Bool
  desc : Nat
  deriving DecidableEq, Repr

/-- The codec (13). -/
structure Cdc where
  work : List Expansion := []
  /-- By [die, stream, function]. -/
  deferred : Map Deferred := Map.empty
  /-- The descriptor of a stream's previous generation, by [die, stream] (R324). -/
  previous : Map Nat := Map.empty
  deriving DecidableEq, Repr

/-! ### Collectives (14) -/

/-- An accumulator record (R343): `spill` is the extent it stands in where it is spilled, `bits` the arrival bitmap,
`open_` the contributions accepted and not yet wholly summed. -/
structure Accum where
  owner : Nat
  spill : Option Nat := none
  bits : Nat := 0
  open_ : Nat := 0
  bad : Bool := false
  elems : List Nat := []
  deriving DecidableEq, Repr

/-- An update group under way (R350, R352): its core and since when. -/
structure UGroup where
  core : Nat
  since : Nat
  deriving DecidableEq, Repr

/-- What an owner keeps of the step (R346): chunks delivered or failed, results sent by member (0 for the multicast set),
updated chunks, the worst status, the parameter block. -/
structure Owned where
  finished : Map Unit := Map.empty
  results : Map Nat := Map.empty
  updated : Nat := 0
  worst : Status := .ok
  params : Option Nat := none
  ended : Bool := false
  deriving DecidableEq, Repr

/-- An installed collective (R331 to R335, R340). -/
structure Coll where
  desc : Nat
  owners : Map Nat := Map.empty
  members : Map Nat := Map.empty
  /-- Handles that OWNER bound, as (core, handle). -/
  bound : List (Nat × Nat) := []
  /-- The last step that ended, the step under way or scheduled, and the next one with its beat (R340). -/
  last : Option Nat := none
  step : Nat := 0
  next : Option (Nat × Nat) := none
  own : Map Owned := Map.empty
  accs : Map Accum := Map.empty
  groups : Map UGroup := Map.empty
  spilled : Bool := false
  deriving DecidableEq, Repr

/-- The collective units (14): collectives by slot, and when a slot was freed (R333). -/
structure Clt where
  colls : Map Coll := Map.empty
  freed : Map Nat := Map.empty
  deriving DecidableEq, Repr

/-! ### Gather and filter (15) -/

/-- Who asked for a lookup or filter: a message, or a core of this part with its handle, counter and slot set (R366). -/
inductive GFrom where
  | net (m : Msg)
  | core (n h : Nat) (ctr : Option Nat) (set : Nat)
  deriving DecidableEq, Repr

/-- The passes of a request on one core (R365, R373): those still to run, the one under way first. -/
structure GWork where
  core : Nat
  todo : List (List Nat) := []
  half : Nat := 0
  first : Bool := true
  /-- The pass under way has been pushed, and when. -/
  pushed : Bool := false
  since : Nat := 0
  deriving DecidableEq, Repr

/-- A lookup or filter in progress (R363, R373). -/
structure GReq where
  origin : GFrom
  slot : Nat
  filter : Bool := false
  req : Nat
  tenant : Nat
  /-- 0 waits for a core, 1 reads its list or query, 2 reads entries, rows or summaries, 3 passes, 4 reads blocks. -/
  phase : Nat := 0
  left : Nat := 0
  list : Nat := 0
  entries : Map Nat := Map.empty
  rows : Map Nat := Map.empty
  /-- Positions that wait for the rewriting of their row (R370). -/
  blocked : List Nat := []
  status : Status := .ok
  /-- The first row or block that contributed a status other than OK. -/
  bad : Nat := 0
  works : List GWork := []
  scores : Map Nat := Map.empty
  picks : List (Nat × Nat) := []
  deriving DecidableEq, Repr

/-- A slot set of a handle, in the order of issue (R366): the slots still to publish once it is ready. Sets whose handle was
freed before they were ready stand under the handle's number + 16 (R281). -/
structure GSet where
  id : Nat
  /-- Slot bytes of the ring. -/
  slot : Nat := 256
  ready : Bool := false
  slots : List Nat := []
  status : Status := .ok
  ctr : Option Nat := none
  deriving DecidableEq, Repr

/-- An update message (R369, R370). Phases of the record under way: 0 none, 1 entry, 2 source, 3 live copy, 4 waiting to
write, 5 writing the copy, 6 writing the entry. -/
structure GUpd where
  id : Nat
  msg : Msg
  slot : Nat
  record : Nat := 0
  phase : Nat := 0
  left : Nat := 0
  entry : Nat := 0
  source : Nat := 0
  live : Nat := 0
  applied : Nat := 0
  dropped : Nat := 0
  status : Status := .ok
  failed : Bool := false
  deriving DecidableEq, Repr

/-- A cached copy (R367): its generation, bytes, count and age. -/
structure GRow where
  data : Nat
  bytes : Nat
  freq : Nat := 0
  born : Nat := 0
  deriving DecidableEq, Repr

/-- A table (R356, R368). -/
structure GTab where
  desc : Nat
  gen : Nat
  deriving DecidableEq, Repr

/-- The gather and filter units (15). -/
structure Gth where
  tables : Map GTab := Map.empty
  freed : Map Nat := Map.empty
  reqs : Map GReq := Map.empty
  nextId : Nat := 0
  /-- Requests that wait for a core, by [die]; update messages in order, by [die]. -/
  queue : Map (List Nat) := Map.empty
  updates : Map (List GUpd) := Map.empty
  sets : Map (List GSet) := Map.empty
  /-- The row cache by [cluster, slot, row], the sketches by [die, counter], and the time of the last decay. -/
  cache : Map GRow := Map.empty
  sketch : Map Nat := Map.empty
  births : Nat := 0
  decayAt : Nat := 0
  deriving DecidableEq, Repr

/-- A mailbox request the Marionette has taken and not yet answered (R451, R452); it waits for the end of a hand-over, or
for the target of update `seq`. -/
structure MReq where
  seq : Nat
  op : Nat
  operands : List Byte
  bulk : List Byte
  target : Option (Nat × Nat) := none
  deriving DecidableEq, Repr

/-- A BAR2 access in progress (R437): BAR2 offset, fabric address, bytes, requests of it not yet answered. -/
structure Bar2 where
  id : Nat
  write : Bool
  off : Nat
  addr : Nat
  len : Nat
  data : Nat := 0
  issued : Bool := false
  left : Nat := 0
  status : Status := .ok
  /-- Its function was reset: the result is discarded (R445). -/
  dead : Bool := false
  deriving DecidableEq, Repr

/-- PCI Express and the other sideband state (18). -/
structure Hif where
  /-- MSI-X vectors that are not masked, and Pending Bits, by [function, vector] (R441). -/
  msixOpen : Map Unit := Map.empty
  msixPending : Map Unit := Map.empty
  linkUp : Bool := false
  /-- Requests the Marionette has taken, and what a hand-over holds back, in order of arrival: the request of a function, or
the next relayed update. -/
  mbox : Map MReq := Map.empty
  waiting : List (Option Nat) := []
  /-- BAR4, by [function, offset within its page, area 1 or 2] (R439). -/
  bar4 : Map Nat := Map.empty
  /-- Data objects for a function to read (R388). -/
  doe : Map (List Byte) := Map.empty
  bar2 : Map (List Bar2) := Map.empty
  nextBar2 : Nat := 0
  /-- The I3C dynamic address (R454). -/
  dynamic : Option Nat := none
  deriving DecidableEq, Repr

/-- Hub, pins and power (01, 19). ECLK values are in units of 0.2 GHz, caps in percent, voltages in thirds of a mV. -/
structure Pkg where
  /-- Dies whose hub link is lost (R22). -/
  hubLost : Map Unit := Map.empty
  /-- Freeze (R430), FATAL (R405), the thermal trip (R472), expelled (R419), rails out of tolerance (R465). -/
  frozen : Bool := false
  fatal : Bool := false
  tripped : Bool := false
  expelled : Bool := false
  railHeld : Bool := false
  /-- What the power and the thermal controller ask for (R31, R470, R471): 18 and 100 hold nothing back. -/
  powerEclk : Nat := 18
  powerCap : Nat := 100
  thermEclk : Nat := 18
  thermCap : Nat := 100
  /-- The ECLK the PLLs relock to while the cores stand (R32), and a raise that waits for its voltage (R463). -/
  relock : Option Nat := none
  raise : Option (Nat × Nat) := none
  /-- Voltage requested before trim, trim in mV by die, and the beat of the last trim (R462, R464). -/
  volt : Nat := 2280
  trim : Map Int := Map.empty
  trimBeat : Map Nat := Map.empty
  /-- The beat at which Rest is to be entered (R447). -/
  restAt : Option Nat := none
  /-- ECLK cycles passed, in fifths of a cycle (R257). -/
  cycles : Nat := 0
  deriving DecidableEq, Repr

/-- An evidence request not yet answered (R390): who asked (a function, or an Apold with its sequence number), and the
number of the key pair drawn for it. -/
structure EvReq where
  fn : Nat
  via : Option (Nat × Nat) := none
  scope : Nat
  nonce : Nat
  kem : Option Nat := none
  deriving DecidableEq, Repr

/-- A decapsulation key pending (R398): the number of its key pair, the nonce, and since when. -/
structure Dk where
  kem : Nat
  nonce : Nat
  since : Nat
  deriving DecidableEq, Repr

/-- An inbound record under way (R399, R400): its 32-byte header, the requests not yet answered, the status so far. -/
structure BRec where
  id : Nat
  head : Nat
  left : Nat := 0
  status : Status := .ok
  data : Nat := 0
  deriving DecidableEq, Repr

/-- A bounce session (R398 to R400, R440): its 88 bytes of keys, its records in order, and the output bytes produced. -/
structure Bounce where
  keys : Nat := 0
  recs : List BRec := []
  nextRec : Nat := 0
  outProd : Nat := 0
  deriving DecidableEq, Repr

/-- An expel accepted and not yet applied (R418, R419). -/
structure Expel where
  target : Nat
  apold : Bool
  newManager : Nat
  promote : Nat
  beat : Nat
  deriving DecidableEq, Repr

/-- Boot, identity and tenants (16). -/
structure Sec where
  /-- The free value that SEC_DEBUG_NONCE shows. -/
  nonce : Nat := 0
  /-- The configuration record in force: its owner's key and its entries (R382). -/
  ownerPk : Nat := 0
  entries : List (Nat × List Byte) := []
  /-- SHA-256 of the header of the image that runs (R387, R391). -/
  running : Nat := 0
  /-- The hand-over: a restart done at this elapsed time, with the header digest and the version it left. -/
  restarted : Option (Nat × Nat × Nat) := none
  /-- Board keys, by [tenant], 32 the internal one (R395, R205). -/
  keys : Map Nat := Map.empty
  evidence : List EvReq := []
  dks : Map Dk := Map.empty
  bounce : Map Bounce := Map.empty
  /-- The beat from which SEC_ISO.strict is in force (R402). -/
  isoBeat : Option Nat := none
  /-- Digests of the last 256 accepted expels, and those still to apply (R418). -/
  expels : List Nat := []
  due : List Expel := []
  deriving DecidableEq, Repr

/-- The whole state. Registers of BAR0 stand in `regs` by [field number, indices]; an entry equal to the field's reset
value is not listed. Memory of the part's own node stands in `mem` by extent * 2^26 + byte. -/
structure State where
  pending : List Instr := []
  fresh : Nat := 1
  now : Nat := 0
  out : List Out := []
  regs : Map Nat := Map.empty
  tim : Tim := {}
  ports : Map Port := Map.empty
  sw : Sw := {}
  edgeWin : Map Nat := Map.empty
  trk : Trk := {}
  pool : Pool := {}
  coh : Coh := {}
  tier : Tier := {}
  pair : Pair := {}
  /-- Statuses given to commands of the fabric manager applied here, with their op, oldest first (R190). -/
  answers : List (Nat × Status) := []
  mem : List Host.Cell := []
  poison : Map Unit := Map.empty
  ras : Ras := {}
  /-- The Marionette's SRAM (R110, R442). -/
  sram : List Host.Cell := []
  hif : Hif := {}
  pkg : Pkg := {}
  cores : Map Core := Map.empty
  clusters : Map Cluster := Map.empty
  /-- Scratchpads, by core * 2^21 + offset, and CSRAM general shares, by cluster * 2^24 + offset (R221, R222, R246). -/
  spm : List Host.Cell := []
  csram : List Host.Cell := []
  /-- Increments on their way to a counter: core, counter, amount, status (R270 to R272). -/
  flying : List (Nat × Nat × Nat × Status) := []
  qpe : Qpe := {}
  cdc : Cdc := {}
  clt : Clt := {}
  gth : Gth := {}
  /-- The program images, by [tenant, image] (R249). -/
  images : Map Image := Map.empty
  sec : Sec := {}
  /-- The SPI flash (R379); it is no part of what a reset reaches. -/
  flash : List Host.Cell := []
  deriving DecidableEq, Repr

/-- The state right after reset, nothing queued. -/
def State.reset : State := {}

end Sys2Proof.Machine
end

