-- ==== Sys2Proof/Machine/Wire.lean ====
section
/-! DEFINITION. Status codes, and messages and flits as bits: the layouts of R14, R44, R62, R66, R74, R115 and R116. -/

namespace Sys2Proof

/-! ### Status codes (R14) -/

def Status.code : Status → Nat
  | .ok => 0x0
  | .poison => 0x1
  | .protViolation => 0x2
  | .revoked => 0x3
  | .staleMap => 0x4
  | .publishConflict => 0x5
  | .timeout => 0x6
  | .nodeLost => 0x7
  | .decodeError => 0x8
  | .quota => 0x9
  | .unsupported => 0xA
  | .seqWindow => 0xB
  | .shadowIncomplete => 0xC
  | .retry => 0xD

/-- A status code as received: the reserved codes stand for UNSUPPORTED (R16). -/
def Status.ofCode (c : Nat) : Status :=
  match c with
  | 0x0 => .ok
  | 0x1 => .poison
  | 0x2 => .protViolation
  | 0x3 => .revoked
  | 0x4 => .staleMap
  | 0x5 => .publishConflict
  | 0x6 => .timeout
  | 0x7 => .nodeLost
  | 0x8 => .decodeError
  | 0x9 => .quota
  | 0xA => .unsupported
  | 0xB => .seqWindow
  | 0xC => .shadowIncomplete
  | 0xD => .retry
  | _ => .unsupported

/-- The precedence number of R14; OK has none and yields to every other. -/
def Status.precedence : Status → Nat
  | .unsupported => 1
  | .protViolation => 2
  | .staleMap => 3
  | .seqWindow => 4
  | .revoked => 5
  | .nodeLost => 6
  | .shadowIncomplete => 7
  | .quota => 8
  | .retry => 9
  | .publishConflict => 10
  | .poison => 11
  | .decodeError => 12
  | .timeout => 13
  | .ok => 14

/-- The status that stands when two conditions apply (R14). -/
def Status.join (a b : Status) : Status := if a.precedence ≤ b.precedence then a else b

/-! ### Messages (R62, R66, R115, R116) -/

/-- Channels (R62). -/
def Ch.req : Nat := 0
def Ch.rsp : Nat := 1
def Ch.snp : Nat := 2
def Ch.mgt : Nat := 3

/-- The virtual channel of a message: channel * 8 + class (R62, R64). -/
def Msg.vc (m : Msg) : Nat := m.chan * 8 + m.tc

/-- The 22 virtual channels (R64). -/
def vcs : List Nat := [0, 1, 2, 3, 4, 5, 6, 8, 9, 10, 11, 12, 13, 14, 16, 17, 18, 19, 20, 21, 22, 31]

def vcOk (vc : Nat) : Bool := vcs.contains vc

/-- The flits a message occupies (R66). -/
def Msg.flits (m : Msg) : Nat := ceilDiv (16 + m.len) 240

/-- The common message header (R66). -/
def Msg.head (m : Msg) : Nat :=
  layout [(0, 0, 16, m.dst), (0, 16, 16, m.src), (4, 0, 8, m.ty), (4, 8, 8, m.mapGen), (4, 16, 4, m.status),
    (4, 20, 4, m.load), (4, 24, 1, b2n m.ordered), (4, 25, 1, b2n m.compressed), (8, 0, 13, m.len),
    (8, 16, 16, m.flowSeq), (12, 0, 12, m.flow), (12, 12, 1, m.die), (12, 13, 5, m.tenant)]

/-- The message as payload bits: header, then body. -/
def Msg.bits (m : Msg) : Nat := m.head + m.body <<< 128

/-- A message read from payload bits that came on a channel and class. -/
def Msg.ofBits (chan tc : Nat) (cm : Bool) (x : Nat) : Msg :=
  { chan := chan, tc := tc, cm := cm, dst := fieldOf x 0 0 16, src := fieldOf x 0 16 16, ty := fieldOf x 4 0 8,
    mapGen := fieldOf x 4 8 8, status := fieldOf x 4 16 4, load := fieldOf x 4 20 4, ordered := fieldOf x 4 24 1 = 1,
    compressed := fieldOf x 4 25 1 = 1, len := fieldOf x 8 0 13, flowSeq := fieldOf x 8 16 16,
    flow := fieldOf x 12 0 12, die := fieldOf x 12 12 1, tenant := fieldOf x 12 13 5,
    body := bitsOf x 128 (8 * fieldOf x 8 0 13) }

/-- The link header (R62). -/
def Flit.head (f : Flit) : Nat :=
  layout [(0, 0, 3, f.kind), (0, 3, 1, b2n f.last), (0, 4, 2, f.chan), (0, 6, 3, f.tc), (0, 9, 1, b2n f.cm),
    (0, 10, 1, b2n f.ackValid), (0, 11, 12, f.seq), (0, 23, 12, f.ackSeq), (0, 35, 5, f.creditVc),
    (0, 40, 1, b2n f.creditValid), (0, 41, 12, f.creditTotal)]

/-- A flit's header and payload bits, without the CRC; and the flit read from them. -/
def Flit.bits (f : Flit) : Nat := f.head + (bitsOf f.payload 0 1920) <<< 64

def Flit.ofBits (x : Nat) : Flit :=
  { kind := fieldOf x 0 0 3, last := fieldOf x 0 3 1 = 1, chan := fieldOf x 0 4 2, tc := fieldOf x 0 6 3,
    cm := fieldOf x 0 9 1 = 1, ackValid := fieldOf x 0 10 1 = 1, seq := fieldOf x 0 11 12,
    ackSeq := fieldOf x 0 23 12, creditVc := fieldOf x 0 35 5, creditValid := fieldOf x 0 40 1 = 1,
    creditTotal := fieldOf x 0 41 12, payload := bitsOf x 64 1920 }

/-- Body fields by byte offset, low bit and width. -/
def Msg.f (m : Msg) (off lo w : Nat) : Nat := fieldOf m.body off lo w

/-- The request header (R115). -/
def Msg.addr (m : Msg) : Nat := m.f 0 0 56
def Msg.tag (m : Msg) : Nat := m.f 8 0 32
def Msg.rlen (m : Msg) : Nat := m.f 12 0 17
def Msg.comb (m : Msg) : Bool := m.f 12 17 1 = 1
def Msg.aop (m : Msg) : Nat := m.f 12 18 4
def Msg.fetch (m : Msg) : Bool := m.f 12 22 1 = 1

/-- `n` bytes of the body from byte `off`. -/
def Msg.bytes (m : Msg) (off n : Nat) : List Byte := bytesOfNat n (m.body >>> (8 * off))

/-- The response header (R116): tag, offset and last. -/
def Msg.rtag (m : Msg) : Nat := m.f 0 0 32
def Msg.roff (m : Msg) : Nat := m.f 4 0 17
def Msg.rlast (m : Msg) : Bool := m.f 4 17 1 = 1

/-- A request header with its data (R115). -/
def reqBody (addr tag len : Nat) (comb : Bool) (aop : Nat) (fetch : Bool) (data : Nat) : Nat :=
  layout [(0, 0, 56, addr), (8, 0, 32, tag), (12, 0, 17, len), (12, 17, 1, b2n comb), (12, 18, 4, aop),
    (12, 22, 1, b2n fetch)] + data <<< 128

/-- A response header with its data (R116). -/
def rspBody (tag offset : Nat) (last : Bool) (data : Nat) : Nat :=
  layout [(0, 0, 32, tag), (4, 0, 17, offset), (4, 17, 1, b2n last)] + data <<< 128

/-- A cricket message as payload (R44), and the one read from a payload. -/
def Cricket.bits (c : Cricket) : Nat :=
  layout [(0, 0, 8, c.ty), (0, 8, 8, c.hop), (0, 16, 16, c.gen), (4, 0, 16, c.seq), (4, 16, 16, c.master),
    (8, 0, 64, c.tx / 256), (16, 0, 8, c.tx % 256), (24, 0, 64, c.rx / 256), (32, 0, 8, c.rx % 256)]

def Cricket.ofBits (x : Nat) : Cricket :=
  { ty := fieldOf x 0 0 8, hop := fieldOf x 0 8 8, gen := fieldOf x 0 16 16, seq := fieldOf x 4 0 16,
    master := fieldOf x 4 16 16, tx := fieldOf x 8 0 64 * 256 + fieldOf x 16 0 8,
    rx := fieldOf x 24 0 64 * 256 + fieldOf x 32 0 8 }

end Sys2Proof
end

