-- ==== Sys2Proof/Machine/Ops.lean ====
section
/-! DEFINITION. The named operations every command is built from: registers, counters, events, fabric time, free values,
bytes of memory, and the fields of messages. -/

namespace Sys2Proof.Machine

/-! ### Block identifiers (00, register conventions) -/

def B.glb : Nat := 1
def B.tim : Nat := 2
def B.prt : Nat := 3
def B.swc : Nat := 4
def B.edg : Nat := 5
def B.trk : Nat := 6
def B.coh : Nat := 7
def B.pol : Nat := 8
def B.mem : Nat := 9
def B.brd : Nat := 10
def B.cmp : Nat := 11
def B.qpe : Nat := 12
def B.clt : Nat := 13
def B.gth : Nat := 14
def B.cdc : Nat := 15
def B.sec : Nat := 16
def B.ras : Nat := 17
def B.pwr : Nat := 18
def B.dbg : Nat := 19
def B.mrn : Nat := 20

/-! ### Registers -/

/-- The reset value of a field at its indices. -/
def Fld.resetAt (f : Fld) (ix : List Nat) : Nat :=
  match f.rst, ix with
  | .val v, _ => v
  | .firstLane, p :: _ => if p < 32 then 8 * p else if 128 ≤ p ∧ p < 160 then 8 * (p - 128) + 256 else 0
  | .quota, _ :: vc :: _ => if vc = 31 then 0x40 else 0
  | .mark, _ :: tc :: _ => if tc < 7 then 0x400 else 0
  | .spray, tc :: _ => if tc < 7 then 1 else 0
  | _, _ => 0

/-- The value a field holds. -/
def State.rd (s : State) (f : Fld) (ix : List Nat) : Nat := s.regs.get (f.resetAt ix) (f.num :: ix)

/-- Put a value in a field, whatever its access type: what hardware does to its own registers. -/
def State.wr (f : Fld) (ix : List Nat) (v : Nat) (s : State) : State :=
  if v % 2 ^ f.w = f.resetAt ix then { s with regs := s.regs.erase (f.num :: ix) }
  else { s with regs := s.regs.set (f.num :: ix) (v % 2 ^ f.w) }

/-- A field that is one bit, as a truth value. -/
def State.on (s : State) (f : Fld) (ix : List Nat) : Bool := s.rd f ix ≠ 0

/-- The indices at which a field is not at its reset value. -/
def State.listed (s : State) (f : Fld) : List (List Nat) :=
  (s.regs.entries.filter (fun e => decide (e.1.head? = some f.num))).map (fun e => e.1.tail)

/-- A counter that saturates (each counter register of the manual says so). -/
def State.bumpBy (f : Fld) (ix : List Nat) (n : Nat) (s : State) : State :=
  s.wr f ix (min (2 ^ f.w - 1) (s.rd f ix + n))

def State.bump (f : Fld) (ix : List Nat) (s : State) : State := s.bumpBy f ix 1

/-! ### Free values -/

/-- The next free value. -/
def State.freeVal (s : State) : Nat := Config.freeValue s.fresh

/-- Take the next free value. -/
def State.drew (s : State) : State := { s with fresh := s.fresh + 1 }

/-! ### Fabric time (R24, R34, R35, R37, R38) -/

/-- Fabric time in ns, the hub copy. -/
def State.ftHub (s : State) : Nat := s.tim.ft / 256

/-- The copy of fabric time on a fabric die (R24). -/
def State.ftDie (s : State) (d : Nat) : Nat := if d = 0 then s.tim.west else s.tim.east

/-- The beat number of a count of fabric time (R35). -/
def beatOf (ft : Nat) : Nat := bitsOf ft 10 32

def State.beat (s : State) : Nat := beatOf s.ftHub

def State.beatDie (s : State) (d : Nat) : Nat := beatOf (s.ftDie d)

/-- Whether a target beat lies ahead of the current beat (R37). -/
def ahead (target now : Nat) : Bool := 1 ≤ dist 32 target now ∧ dist 32 target now ≤ 2 ^ 31 - 1

/-! ### Events and interrupts (R408, R441) -/

/-- The field and bit that hold event `b` of a block, and the field and bit that enable it. -/
def evtBit (blk b : Nat) : Fld × Nat × Fld :=
  match blk with
  | 1 => (R.GLB_EVT_events, b, R.GLB_INT_EN_enables)
  | 2 => (R.TIM_EVT_events, b, R.TIM_INT_EN_enables)
  | 3 => (R.PRT_EVT_events, b, R.PRT_INT_EN_enables)
  | 4 => (R.SWC_EVT_events, b, R.SWC_INT_EN_enables)
  | 5 => (if b = 0 then R.EDG_EVT_violation else if b = 1 then R.EDG_EVT_stamp_error else R.EDG_EVT_unsupported, 0,
      R.EDG_INT_EN_enables)
  | 6 => (if b = 0 then R.TRK_EVT_timeout else if b = 1 then R.TRK_EVT_late_discard else if b = 2 then
      R.TRK_EVT_reissue_exhausted else if b = 3 then R.TRK_EVT_comb_full else R.TRK_EVT_home_stall, 0,
      R.TRK_INT_EN_enables)
  | 7 => (R.COH_EVT_events, b, R.COH_INT_EN_enables)
  | 8 => (R.POL_EVT_events, b, R.POL_INT_EN_enables)
  | 9 => (R.MEM_EVT_events, b, R.MEM_INT_EN_enables)
  | 10 => (R.BRD_EVT_events, b, R.BRD_INT_EN_enables)
  | 11 => (R.CMP_EVT_events, b, R.CMP_INT_EN_enables)
  | 12 => (R.QPE_EVT_events, b, R.QPE_INT_EN_enables)
  | 13 => (R.CLT_EVT_events, b, R.CLT_INT_EN_enables)
  | 14 => (R.GTH_EVT_events, b, R.GTH_INT_EN_enables)
  | 15 => (R.CDC_EVT_events, b, R.CDC_INT_EN_enables)
  | 16 => (R.SEC_EVT_events, b, R.SEC_INT_EN_enables)
  | 17 => (R.RAS_EVT_events, b, R.RAS_INT_EN_enables)
  | 18 => (R.PWR_EVT_events, b, R.PWR_INT_EN_enables)
  | _ => (if b = 0 then R.MRN_EVT_overrun else R.MRN_EVT_reply, 0, R.MRN_INT_EN_enables)

/-- The pending events of a block, as the number its EVT register reads. -/
def State.events (s : State) (blk : Nat) : Nat :=
  match blk with
  | 5 => s.rd R.EDG_EVT_violation [] + 2 * s.rd R.EDG_EVT_stamp_error [] + 4 * s.rd R.EDG_EVT_unsupported []
  | 6 => s.rd R.TRK_EVT_timeout [] + 2 * s.rd R.TRK_EVT_late_discard [] + 4 * s.rd R.TRK_EVT_reissue_exhausted []
      + 8 * s.rd R.TRK_EVT_comb_full [] + 16 * s.rd R.TRK_EVT_home_stall []
  | 20 => s.rd R.MRN_EVT_overrun [] + 2 * s.rd R.MRN_EVT_reply []
  | _ => s.rd (evtBit blk 0).1 []

def State.enables (s : State) (blk : Nat) : Nat := s.rd (evtBit blk 0).2.2 []

/-- Bit `blk` of RAS_SUMMARY (R408). -/
def State.summaryBit (s : State) (blk : Nat) : Bool := s.events blk &&& s.enables blk ≠ 0

/-- The blocks that have events. -/
def eventBlocks : List Nat := [1, 2, 3, 4, 5, 6, 7, 8, 9, 10, 11, 12, 13, 14, 15, 16, 17, 18, 20]

/-- RAS_SUMMARY.blocks (R408). -/
def State.summary (s : State) : Nat := eventBlocks.foldl (fun a b => a + b2n (s.summaryBit b) <<< b) 0

/-- Something leaves the part. -/
def State.emit (o : Out) (s : State) : State := { s with out := s.out ++ [o] }

/-- Raise an MSI-X vector of a function: sent, or held by its Pending Bit while masked (R441). -/
def State.msix (fn vec : Nat) (s : State) : State :=
  if s.hif.msixOpen.has [fn, vec] then s.emit (.msix fn vec)
  else { s with hif := { s.hif with msixPending := s.hif.msixPending.set [fn, vec] () } }

/-- Set event `b` of a block; the physical function is interrupted when RAS_SUMMARY leaves zero (R408), and I3C raises an
In-Band Interrupt then and on any PWR event (R454). -/
def State.event (blk b : Nat) (s : State) : State :=
  if bitAt (s.rd (evtBit blk b).1 []) (evtBit blk b).2.1 then s
  else
    let t := s.wr (evtBit blk b).1 [] (s.rd (evtBit blk b).1 [] + 1 <<< (evtBit blk b).2.1)
    let t := if s.summary = 0 ∧ t.summary ≠ 0 then (t.msix 0 (t.rd R.RAS_CFG_vector [])).emit (.i3c 0x10) else t
    if blk = B.pwr then t.emit (.i3c 0x18) else t

/-- A block becomes ready (R443). -/
def State.ready (blk : Nat) (s : State) : State :=
  if bitAt (s.rd R.GLB_READY_ready []) blk then s
  else (s.wr R.GLB_READY_ready [] (s.rd R.GLB_READY_ready [] + 1 <<< blk)).event B.glb 0

/-- A late launch is counted and reported (R38). -/
def State.late (s : State) : State := (s.bump R.TIM_LATE_COUNT_count []).event B.tim 3

/-- The beat at which an operation scheduled through a register or descriptor takes effect (R37, R38). -/
def launchBeat (target now : Nat) : Nat := if ahead target now then target % 2 ^ 32 else (now + 1) % 2 ^ 32

/-- Count the launch as late where R37 says so. -/
def State.lateIf (target now : Nat) (s : State) : State := if ahead target now then s else s.late

/-! ### The log (R409, R410) -/

/-- Error classes (R404). -/
inductive Cls where
  | corrected | contained | degraded | fatal
  deriving DecidableEq, Repr

def Cls.code : Cls → Nat
  | .corrected => 0
  | .contained => 1
  | .degraded => 2
  | .fatal => 3

/-- A log record (R409). -/
def logRecord (ft : Nat) (c : Cls) (blk : Nat) (st : Status) (cause source info seq : Nat) : Nat :=
  layout [(0, 0, 64, ft), (8, 0, 2, c.code), (8, 8, 8, blk), (8, 16, 4, st.code), (8, 20, 12, cause),
    (12, 0, 32, source), (16, 0, 64, info), (24, 0, 32, seq)]

/-- Write a record in the ring, or count it as lost when the ring is full (R409). -/
def State.ringPut (ft : Nat) (c : Cls) (blk : Nat) (st : Status) (cause source info : Nat) (s : State) : State :=
  let prod := s.rd R.RAS_LOG_PROD_count []
  if dist 32 prod (s.rd R.RAS_LOG_CONS_count []) = 1024 then
    (s.bump R.RAS_LOG_LOST_count []).event B.ras 5
  else (s.wr R.RAS_LOG_record [prod % 1024] (logRecord ft c blk st cause source info prod)).wr
    R.RAS_LOG_PROD_count [] (prod + 1)

/-- The fabric time a block stamps: the hub's, or a fabric die's copy (R24). -/
def State.ftAt (s : State) (where_ : Nat) : Nat := if where_ < 2 then s.ftDie where_ else s.ftHub

/-- Log a CONTAINED error (R404, R409). `at_` is the die that detected it, 2 for the hub. -/
def State.contained (at_ blk : Nat) (st : Status) (source info : Nat) (s : State) : State :=
  ((s.bump R.RAS_CNT_count [1]).ringPut (s.ftAt at_) .contained blk st (Config.logCause blk st.code) source info).event
    B.ras 0

/-- Count a CORRECTED error; it is logged once per window of 1,024 beats, when its source passes the threshold (R409). -/
def State.corrected (at_ blk source : Nat) (s : State) : State :=
  let win := s.beat / 1024
  let ce := if s.ras.ceWindow = win then s.ras.ce else Map.empty
  let n := ce.get 0 [blk, source] + 1
  let t := { s with ras := { s.ras with ce := ce.set [blk, source] n, ceWindow := win } }
  let t := t.bump R.RAS_CNT_count [0]
  if n = s.rd R.RAS_CFG_ce_threshold [] + 1 then
    t.ringPut (s.ftAt at_) .corrected blk .ok (Config.logCause blk 0) source n
  else t

/-- A programming error of a block at a block offset (R11, R410). -/
def State.progErr (blk off : Nat) (s : State) : State :=
  let t := if bitAt (s.rd R.RAS_EVT_events []) 3 then s
    else (s.wr R.RAS_PROG_ERR_block [] blk).wr R.RAS_PROG_ERR_offset [] off
  (t.contained 2 blk .ok (Config.logSource blk 3) off).event B.ras 3

/-- The offset of a field's register within its block. -/
def Fld.offAt (f : Fld) (ix : List Nat) : Nat := f.off + (List.zipWith (· * ·) f.strides ix).foldl (· + ·) 0

/-- A programming error on a write of the register that holds a field. -/
def State.badWrite (f : Fld) (ix : List Nat) (s : State) : State := s.progErr f.block (f.offAt ix)

/-! ### Memory of the own node (R7, R111, R120) -/

/-- The byte at an address; a byte nothing has written reads as zero. -/
def Mem.read : List Host.Cell → Nat → Byte
  | [], _ => 0
  | (a', b) :: t, a => if a' = a then b else Mem.read t a

/-- Write a byte. Zero bytes are not listed, so that equal memories are equal lists. -/
def Mem.write : List Host.Cell → Nat → Byte → List Host.Cell
  | [], a, b => if b = 0 then [] else [(a, b)]
  | (a', b') :: t, a, b =>
    if a' = a then (if b = 0 then t else (a, b) :: t)
    else if a < a' then (if b = 0 then (a', b') :: t else (a, b) :: (a', b') :: t)
    else (a', b') :: Mem.write t a b

/-- Addresses strictly rising from `lo`, and no zero byte listed. -/
def Mem.wfFrom (lo : Nat) : List Host.Cell → Bool
  | [] => true
  | (a, b) :: t => decide (lo ≤ a) && decide (b ≠ 0) && Mem.wfFrom (a + 1) t

/-- The canonical form of memory. -/
def Memory.wf (m : List Host.Cell) : Bool := Mem.wfFrom 0 m

def Mem.readN (m : List Host.Cell) (a n : Nat) : List Byte := (List.range n).map (fun i => Mem.read m (a + i))

def Mem.writeAll : List Host.Cell → Nat → List Byte → List Host.Cell
  | m, _, [] => m
  | m, a, b :: t => Mem.writeAll (Mem.write m a b) (a + 1) t

/-- Forget `n` bytes from `a`: they read as zero. -/
def Mem.clear (m : List Host.Cell) (a n : Nat) : List Host.Cell :=
  m.filter (fun c => decide (c.1 < a ∨ a + n ≤ c.1))

/-- The 128-byte line of an address. -/
def lineOf (a : Nat) : Nat := a / 128

/-- The lines that `n` bytes from `a` touch. -/
def linesOf (a n : Nat) : List Nat :=
  if n = 0 then [] else (List.range (lineOf (a + n - 1) + 1 - lineOf a)).map (lineOf a + ·)

/-- An address of the own node inside its memory: extent and byte. -/
def offsetOf (addr : Nat) : Nat := bitsOf addr 0 44

def nodeOf (addr : Nat) : Nat := bitsOf addr 44 12

def extentOf (addr : Nat) : Nat := bitsOf addr 26 18

def byteOf (addr : Nat) : Nat := bitsOf addr 0 26

/-- The link control payload of R74. -/
def Lctl.bits : Lctl → Nat
  | .nak e => layout [(0, 0, 8, 1), (4, 0, 12, e)]
  | .initCredit l => layout ((0, 0, 8, 2) :: (List.range 32).map (fun vc => (8 + 2 * vc, 0, 12, l.getD vc 0)))
  | .caps c => layout [(0, 0, 8, 3), (4, 0, 16, c.vendor), (4, 16, 16, c.eid), (8, 0, 1, c.role), (8, 1, 4, c.widths),
      (8, 5, 1, b2n c.timeProfile), (8, 6, 1, b2n c.lender), (8, 7, 1, b2n c.codec), (8, 8, 1, b2n c.caching),
      (8, 9, 1, b2n c.precode), (8, 10, 8, c.goodLanes)]
  | .widthChange sf mask request => layout [(0, 0, 8, 4), (4, 0, 32, sf), (8, 0, 8, mask), (9, 0, 1, b2n request)]
  | .retrainReq => layout [(0, 0, 8, 5)]

/-! ### The outcome of a command -/

/-- Every clock but that of the test port is stopped: freeze (R430), the thermal trip (R472), or a reset held by the rails
(R465). -/
def State.stopped (s : State) : Bool := s.pkg.frozen || s.pkg.tripped || s.pkg.railHeld

/-- What a command computed, with the queue and elapsed time as they were: neither is a command's to change. -/
def State.after (s t : State) : State := { t with pending := s.pending, now := s.now }

/-- The common end of every command: it answers a next state. -/
def finish (s t : State) : Host.Outcome State Fault Refusal := .next (s.after t)

/-- A command that runs on the part's own clocks: without them it changes nothing (R430, R472). -/
def clocked (s t : State) : Host.Outcome State Fault Refusal := finish s (if s.stopped then s else t)

end Sys2Proof.Machine
end

