-- ==== Sys2Proof/Machine/Send.lean ====
section
/-! DEFINITION. The buffer, routing, resequencing and egress queues of the switch core as the part's agents use them:
forming a message and sending it, and giving a consumed message's cells back (R20, R86 to R104). -/

namespace Sys2Proof.Machine

/-! ### Ports -/

def State.port (s : State) (p : Nat) : Port := s.ports.get {} [p]

def State.modPort (p : Nat) (f : Port → Port) (s : State) : State := { s with ports := s.ports.set [p] (f (s.port p)) }

/-- The die of a port context (R17). -/
def dieOfPort (p : Nat) : Nat := if p < 128 then 0 else 1

/-- The states of R79. -/
def Ps.disabled : Nat := 0
def Ps.detect : Nat := 1
def Ps.equalise : Nat := 2
def Ps.lock : Nat := 3
def Ps.config : Nat := 4
def Ps.active : Nat := 5
def Ps.retrain : Nat := 6
def Ps.fault : Nat := 7

def State.pst (s : State) (p : Nat) : Nat := s.rd R.PRT_PORT_STATUS_state [p]

def State.isActive (s : State) (p : Nat) : Bool := s.pst p = Ps.active

/-- Up means ACTIVE or RETRAIN (R479). -/
def State.isUp (s : State) (p : Nat) : Bool := s.pst p = Ps.active || s.pst p = Ps.retrain

def State.activeWidth (s : State) (p : Nat) : Nat := 2 ^ s.rd R.PRT_PORT_STATUS_width_active [p]

def State.partnerEid (s : State) (p : Nat) : Nat := s.rd R.PRT_PORT_STATUS_partner_eid [p]

/-- An edge port is one whose partner reports role 0 (R124). -/
def State.isEdge (s : State) (p : Nat) : Bool := s.isUp p && s.rd R.PRT_PORT_STATUS_partner_role [p] = 0

def State.eid (s : State) : Nat := s.rd R.GLB_NODE_eid []

def State.node (s : State) : Nat := s.rd R.GLB_NODE_node []

/-- The current map generation (R97). -/
def State.mapGen (s : State) : Nat := s.rd R.SWC_MAP_STATUS_current_gen []

/-- A protocol error of a port: counted, signalled and logged (R410); `blk` is the block that found it. -/
def State.protoErr (blk p : Nat) (s : State) : State :=
  let t := ((s.bump R.PRT_PORT_CNT_count [p, 6]).wr R.PRT_EVT_PORT_port [] p).event B.prt 4
  let t := if blk = B.swc then (t.wr R.SWC_EVT_PORT_port [] p).event B.swc 2 else t
  (t.contained (dieOfPort p) blk .ok p 0).event B.ras 4

/-! ### Extents as the switch core needs them (R19, R161, R176) -/

/-- The lend entry of a node, if it is lent through this part. -/
def State.lendOf (s : State) (node : Nat) : Option Nat :=
  ((s.listed R.POL_LEND_valid).find? (fun k => s.rd R.POL_LEND_node k = node)).map (·.headD 0)

/-- The number of extents of a node homed or proxied here. -/
def State.extents (s : State) (node : Nat) : Nat :=
  if node = s.node then s.rd R.POL_STATUS_extents [] else
    match s.lendOf node with
    | some k => s.rd R.POL_LEND_extents [k]
    | none => 0

/-- The extent record (R161). -/
def State.ext (s : State) (node e : Nat) : Ext :=
  if e < s.extents node then s.pool.ext.get {} [node, e] else { state := .absent }

/-- The die that serves an address: the home die of an extent of the own node, the die of the lending port (R19, R176). -/
def State.homeDie (s : State) (addr : Nat) : Nat :=
  if nodeOf addr = s.node then (s.ext (nodeOf addr) (extentOf addr)).die
  else match s.lendOf (nodeOf addr) with
    | some k => dieOfPort (s.rd R.POL_LEND_port [k])
    | none => 0

/-! ### Message types (R67, R113, R147, R167) -/

/-- Requests that carry a fabric address: loads, stores, atomics, coherent requests and publications. -/
def isMemory (ty : Nat) : Bool := [0x10, 0x11, 0x12, 0x13, 0x14, 0x40, 0x41, 0x42, 0x62].contains ty

/-- The types the part consumes. -/
def knownTypes : List Nat :=
  [0x10, 0x11, 0x12, 0x13, 0x14, 0x30, 0x31, 0x32, 0x33, 0x40, 0x41, 0x42, 0x48, 0x49, 0x4A, 0x4B, 0x50, 0x51, 0x52,
   0x53, 0x54, 0x60, 0x61, 0x62, 0x63, 0x64, 0x65, 0x66, 0x70, 0x71, 0x72, 0x73, 0x78, 0x79, 0x7A, 0x7C, 0x90, 0x91,
   0x98, 0x99, 0x9A, 0x9B, 0xA0, 0xA1, 0xA2, 0xA8, 0xA9, 0xAA, 0xAB, 0xAC, 0xB0, 0xB1, 0xB2, 0xB3, 0xB4, 0xB5, 0xB6,
   0xB7, 0xB8, 0xB9, 0xBA, 0xBB]

/-- The channel of each type (the owning chapters). -/
def chanOf (ty : Nat) : Nat :=
  if [0x48, 0x49, 0x4A, 0x4B].contains ty then Ch.snp
  else if ty = 0x64 ∨ ty = 0x7C ∨ (0xB0 ≤ ty ∧ ty ≤ 0xB9) then Ch.mgt
  else if ty = 0xBB ∨ (0x30 ≤ ty ∧ ty < 0x40) ∨ (0x50 ≤ ty ∧ ty < 0x60) ∨ [0x61, 0x63, 0x66].contains ty
      ∨ (0x78 ≤ ty ∧ ty < 0x80) ∨ (0x98 ≤ ty ∧ ty < 0xA0) ∨ (0xA8 ≤ ty ∧ ty < 0xB0) then Ch.rsp
  else Ch.req

/-! ### Cells (R20, R86 to R89) -/

/-- How far the other readers of a shared message have read it. -/
def State.othersSent (s : State) (q : QMsg) : Nat :=
  if q.shared then
    ((s.sw.queues.vals ++ s.sw.agentIn.vals).flatten.filter (fun r => r.id = q.id)).foldl (fun a r => min a r.sent) q.total
  else q.total

/-- The part a tenant holds of a die: its ports' allowances (R89). -/
def State.tenantAllowance (s : State) (t d : Nat) : Nat :=
  ((List.range 128).map (· + 128 * d)).foldl (fun a p =>
    if s.rd R.SWC_PORT_CFG_tenant [p] = t then vcs.foldl (fun b vc => b + s.rd R.SWC_PORT_QUOTA_cells [p, vc]) a else a) 0

/-- Whether an agent of die `d` may form `n` cells for a tenant (R87, R89). -/
def State.agentRoom (s : State) (d t n : Nat) : Bool :=
  s.sw.agentCells.get 0 [d] + n ≤ s.rd R.SWC_BUF_CFG_agent_reserve [d] &&
  (s.rd R.SWC_TENANT_QUOTA_cells [t, d] ≥ 393216 ||
   s.tenantAllowance t d + s.sw.tenantCells.get 0 [t, d] + n ≤ s.rd R.SWC_TENANT_QUOTA_cells [t, d])

def State.takeAgentCells (d t n : Nat) (s : State) : State :=
  { s with sw := { s.sw with
      agentCells := s.sw.agentCells.set [d] (s.sw.agentCells.get 0 [d] + n),
      tenantCells := s.sw.tenantCells.set [t, d] (s.sw.tenantCells.get 0 [t, d] + n) } }

/-- Free `n` cells of a stored message: its ingress virtual channel gets credits to return, or its agent reserve shrinks
(R86, R88). -/
def State.freeCells (q : QMsg) (n : Nat) (s : State) : State :=
  match q.inPort with
  | some p =>
    let vc := q.msg.vc
    s.modPort p (fun r =>
      let r := if q.epoch = r.epoch then
          { r with heldCells := r.heldCells.set [vc] (r.heldCells.get 0 [vc] - n),
                   freed := r.freed.set [vc] ((r.freed.get 0 [vc] + n) % 4096) }
        else { r with stale := r.stale.set [vc] (r.stale.get 0 [vc] - n) }
      if r.heldCells.get 0 [vc] + r.stale.get 0 [vc] ≤ r.allowance.get 0 [vc] then { r with counted := r.counted.erase [vc] }
      else r)
  | none =>
    { s with sw := { s.sw with
        agentCells := s.sw.agentCells.set [q.die] (s.sw.agentCells.get 0 [q.die] - n),
        tenantCells := s.sw.tenantCells.set [q.msg.tenant, q.die] (s.sw.tenantCells.get 0 [q.msg.tenant, q.die] - n) } }

/-- A reader has read a message up to its `upto`th cell: cells that every reader has read are freed (R86, R96). The
reader itself no longer stands in any queue. -/
def State.readUpTo (q : QMsg) (upto : Nat) (s : State) : State :=
  let o := s.othersSent q
  s.freeCells q (min upto o - min q.sent o)

/-- A reader gives up what is left of a message. -/
def State.dropReader (q : QMsg) (s : State) : State := s.readUpTo q q.have_

/-! ### Routing (R94 to R100) -/

inductive Route where
  | none
  | loc
  | group (g : Nat)
  | mcast (k : Nat)
  | bad
  deriving DecidableEq, Repr

/-- The route of a destination in one generation of tables (R94). -/
def Tables.routeOf (t : Tables) (dst : Nat) : Route :=
  if dst = 0xFFFF then .bad
  else if 0xF000 ≤ dst then .mcast (dst - 0xF000)
  else
    let e := t.route.get 0 [dst]
    if bitsOf e 0 2 = 1 then .loc else if bitsOf e 0 2 = 2 then .group (bitsOf e 2 10) else .none

/-- The ports of a next-hop group (R94). -/
def Tables.groupPorts (t : Tables) (g : Nat) : List Nat :=
  let w := t.group.get 0 [g]
  (List.range (min 8 (bitsOf w 64 4))).map (fun i => bitsOf w (8 * i) 8)

/-- The staged tables, as the registers hold them (R97, R99). -/
def State.staged (s : State) : Tables :=
  let pick (f : Fld) : Map Nat := ⟨(s.listed f).map (fun k => (k, s.rd f k))⟩
  { route := pick R.SWC_ROUTE_STAGE_entry, group := pick R.SWC_GROUP_STAGE_group,
    mcast := (pick R.SWC_MCAST_STAGE_ports).keys.foldl (fun m k => m.set k
      (s.rd R.SWC_MCAST_STAGE_ports k, s.on R.SWC_MCAST_STAGE_west_agent k, s.on R.SWC_MCAST_STAGE_east_agent k))
      ((pick R.SWC_MCAST_STAGE_west_agent).keys ++ (pick R.SWC_MCAST_STAGE_east_agent).keys |>.foldl (fun m k => m.set k
        (s.rd R.SWC_MCAST_STAGE_ports k, s.on R.SWC_MCAST_STAGE_west_agent k, s.on R.SWC_MCAST_STAGE_east_agent k))
        Map.empty) }

/-- The tables that route a message by its map generation, or the refusal (R97). -/
def State.tablesFor (s : State) (m : Msg) : Tables ⊕ Status :=
  if m.chan ≠ Ch.req then .inl s.sw.current
  else
    let d := dist 8 m.mapGen s.mapGen
    if d = 0 then .inl s.sw.current
    else if d = 255 then .inl s.sw.previous
    else if d = 1 ∧ s.on R.SWC_MAP_STAGE_valid [] then .inl s.staged
    else if d < 128 then .inr .retry
    else .inr .staleMap

/-- Cells queued on a port for a virtual channel, and for a traffic class (R100, R105). -/
def State.depthVc (s : State) (p vc : Nat) : Nat :=
  (s.sw.queues.get [] [p, vc]).foldl (fun a q => a + (q.have_ - q.sent)) 0

/-- Those of one tenant (R402). -/
def State.depthOf (s : State) (p tenant : Nat) (l : List Nat) : Nat :=
  l.foldl (fun a vc => (s.sw.queues.get [] [p, vc]).foldl (fun b q => if q.msg.tenant = tenant then b + (q.have_ - q.sent) else b) a) 0

def State.depthTc (s : State) (p tc : Nat) : Nat :=
  if tc = 7 then s.depthVc p 31 else s.depthVc p tc + s.depthVc p (8 + tc) + s.depthVc p (16 + tc)

/-- The least depth per width among ports listed with their place in the group (R100). -/
def State.shallowest (s : State) (vc : Nat) : List (Nat × Nat) → Option (Nat × Nat)
  | [] => none
  | (i, p) :: t =>
    match s.shallowest vc t with
    | none => some (i, p)
    | some (j, r) =>
      if s.depthVc p vc * s.activeWidth r ≤ s.depthVc r vc * s.activeWidth p then some (i, p) else some (j, r)

/-- The ports of a group in order from the rotating pointer. -/
def fromPointer (l : List (Nat × Nat)) (start : Nat) : List (Nat × Nat) :=
  l.filter (fun e => decide (start ≤ e.1)) ++ l.filter (fun e => decide (e.1 < start))

/-- The port of a group a message takes, with the group's new pointer (R95, R100). -/
def State.chooseHop (s : State) (t : Tables) (g : Nat) (m : Msg) : Option (Nat × Nat) :=
  let all := (t.groupPorts g).mapIdx (fun i p => (i, p))
  let act := all.filter (fun e => s.isActive e.2)
  let retr := all.filter (fun e => s.pst e.2 = Ps.retrain)
  if s.on R.SWC_TC_CFG_spray [m.tc] then
    let creditOk := act.filter (fun e => decide ((s.port e.2).credit.get 0 [m.vc] > 0))
    let cand := if creditOk ≠ [] then creditOk else if act ≠ [] then act else retr
    match s.shallowest m.vc (fromPointer cand (s.sw.rotate.get 0 [g])) with
    | some (i, p) => some (p, i + 1)
    | none => none
  else
    let cand := if act ≠ [] then act else retr
    if cand = [] then none
    else (cand[(m.src ^^^ m.flow) % cand.length]?).map (fun e => (e.2, s.sw.rotate.get 0 [g]))

/-! ### Queues and order (R90, R101 to R104) -/

/-- Put a message on the egress queue of its virtual channel (R90). -/
def State.enqueue (p : Nat) (q : QMsg) (s : State) : State :=
  { s with sw := { s.sw with queues := s.sw.queues.set [p, q.msg.vc] (s.sw.queues.get [] [p, q.msg.vc] ++ [q]) } }

/-- Put a message at the input of a die's agents. -/
def State.toInput (d : Nat) (q : QMsg) (s : State) : State :=
  { s with sw := { s.sw with agentIn := s.sw.agentIn.set [d, q.msg.chan] (s.sw.agentIn.get [] [d, q.msg.chan] ++ [q]) } }

/-- Outputs: a port, or 256 + d for the agents of die d (R102). -/
def State.deliverOut (o : Nat) (q : QMsg) (s : State) : State := if o < 256 then s.enqueue o q else s.toInput (o - 256) q

/-- Split off the run of held messages that continue the sequence (R103). -/
def takeRun : List QMsg → Nat → List QMsg × List QMsg × Nat
  | [], e => ([], [], e)
  | q :: t, e =>
    if q.msg.flowSeq = e then
      let r := takeRun t ((e + 1) % 65536)
      (q :: r.1, r.2.1, r.2.2)
    else ([], q :: t, e)

/-- Insert a held message in order of distance from `e`. -/
def holdIn (e : Nat) (q : QMsg) : List QMsg → List QMsg
  | [] => [q]
  | r :: t => if dist 16 q.msg.flowSeq e < dist 16 r.msg.flowSeq e then q :: r :: t else r :: holdIn e q t

/-- A gap or a late message is counted at the output port (R103). -/
def State.countAt (o k : Nat) (s : State) : State := if o < 256 then s.bump R.SWC_PORT_CNT_count [o, k] else s

def State.gap (o : Nat) (s : State) : State :=
  let t := s.countAt o 4
  let t := if o < 256 then t.wr R.SWC_EVT_PORT_port [] o else t
  t.event B.swc 3

def State.setFlow (o flow : Nat) (f : Flow) (s : State) : State :=
  { s with sw := { s.sw with flows := if f.expected = 0 ∧ f.held = [] then s.sw.flows.erase [o, flow]
                                      else s.sw.flows.set [o, flow] f } }

def State.deliverAll (o : Nat) (l : List QMsg) (s : State) : State := l.foldl (fun a q => a.deliverOut o q) s

/-- Skip the hole of a flow: its held run is delivered and the gap counted (R103). -/
def State.skipHole (o flow : Nat) (s : State) : State :=
  let f := s.sw.flows.get {} [o, flow]
  match f.held with
  | [] => s
  | q :: _ =>
    let r := takeRun f.held q.msg.flowSeq
    ((s.deliverAll o r.1).setFlow o flow { expected := r.2.2, held := r.2.1, since := s.now }).gap o

/-- Cells held by the resequencer of an output, and the flow whose hole is oldest. -/
def State.heldAt (s : State) (o : Nat) : Nat :=
  s.sw.flows.entries.foldl (fun a e => if e.1.head? = some o then a + e.2.held.foldl (fun b q => b + q.total) 0 else a) 0

def State.oldestHole (s : State) (o : Nat) : Option Nat :=
  (argMin (fun e => e.2.since) (s.sw.flows.entries.filter (fun e => decide (e.1.head? = some o ∧ e.2.held ≠ [])))).bind
    (fun e => e.1[1]?)

/-- Skip holes, oldest first, until the held cells fit SWC_RESEQ_CFG.hold_cells (R103). -/
def State.fitHeld (o : Nat) : Nat → State → State
  | 0, s => s
  | n + 1, s =>
    if s.heldAt o ≤ s.rd R.SWC_RESEQ_CFG_hold_cells [] then s
    else match s.oldestHole o with
      | some fl => State.fitHeld o n (s.skipHole o fl)
      | none => s

/-- The resequencer of an output, on the last cell of an ordered message (R103). -/
def State.resequence (o : Nat) (q : QMsg) (s : State) : State :=
  let fl := q.msg.flow
  let f := s.sw.flows.get {} [o, fl]
  let d := dist 16 q.msg.flowSeq f.expected
  if d = 0 then
    let r := takeRun f.held ((f.expected + 1) % 65536)
    (((s.deliverOut o q).deliverAll o r.1).setFlow o fl { expected := r.2.2, held := r.2.1, since := s.now })
  else if d ≤ s.rd R.SWC_RESEQ_CFG_window [] then
    if f.held.any (fun h => h.msg.flowSeq = q.msg.flowSeq) then (s.countAt o 5).dropReader q
    else
      let t := s.setFlow o fl { f with held := holdIn f.expected q f.held, since := if f.held = [] then s.now else f.since }
      t.fitHeld o (t.heldAt o)
  else if d < 32768 then
    (((s.deliverAll o f.held).deliverOut o q).setFlow o fl
      { expected := (q.msg.flowSeq + 1) % 65536, held := [], since := s.now }).gap o
  else (s.countAt o 5).dropReader q

/-- Hand a message to an output: ordered messages go through the resequencer once whole (R102, R103). `final` says that
the output is the message's last. -/
def State.toOutput (o : Nat) (final : Bool) (q : QMsg) (s : State) : State :=
  if final && q.msg.ordered then
    if q.have_ = q.total then s.resequence o q
    else { s with sw := { s.sw with partials := s.sw.partials ++ [(o, q)] } }
  else s.deliverOut o q

/-! ### Completions (R14, R98, R115 to R117, R148, R169, R184, R338, R366) -/

/-- A response to a message, formed by this part. -/
def State.reply (s : State) (m : Msg) (ty len body : Nat) (st : Status) (load : Nat) : Msg :=
  { chan := Ch.rsp, tc := m.tc, cm := m.cm, dst := m.src, src := s.eid, ty := ty, mapGen := s.mapGen,
    status := st.code, load := load, len := len, flow := m.flow, die := m.die, tenant := m.tenant, body := body }

/-- The packets that answer a multi-packet read (R117). -/
def rdmPackets (tag len data : Nat) : Nat → List (Nat × Nat)
  | 0 => []
  | n + 1 => rdmPackets tag len data n ++
      [(16 + min 4080 (len - 4080 * n),
        rspBody tag (4080 * n) (decide (len ≤ 4080 * (n + 1))) (bitsOf data (8 * 4080 * n) (8 * min 4080 (len - 4080 * n))))]

/-- The completion of a request, as the type's owning chapter forms it; `data` is the data read, if any. -/
def State.completion (s : State) (m : Msg) (st : Status) (load : Nat) (data : Option Nat) : List Msg :=
  match m.ty with
  | 0x10 => match data with
    | some x => [s.reply m 0x30 (16 + m.rlen) (rspBody m.tag 0 true (bitsOf x 0 (8 * m.rlen))) st load]
    | none => [s.reply m 0x30 16 (rspBody m.tag 0 true 0) st load]
  | 0x11 => match data with
    | some x => (rdmPackets m.tag m.rlen x (ceilDiv m.rlen 4080)).map (fun e => s.reply m 0x31 e.1 e.2 st load)
    | none => [s.reply m 0x31 16 (rspBody m.tag 0 true 0) st load]
  | 0x12 | 0x13 => [s.reply m 0x32 16 (rspBody m.tag 0 true 0) st load]
  | 0x14 => match data with
    | some x => [s.reply m 0x33 (16 + m.rlen) (rspBody m.tag 0 true (bitsOf x 0 (8 * m.rlen))) st load]
    | none => [s.reply m 0x33 16 (rspBody m.tag 0 true 0) st load]
  | 0x40 | 0x41 | 0x42 => [s.reply m 0x50 16 (layout [(0, 0, 32, m.tag)]) st load]
  | 0x60 => [s.reply m 0x61 16 (layout [(0, 0, 32, m.f 0 0 32), (4, 0, 96, data.getD 0)]) st load]
  | 0x62 => [s.reply m 0x63 16 (layout [(0, 0, 32, m.tag), (4, 0, 48, data.getD 0)]) st load]
  | 0x65 => [s.reply m 0x66 16 (layout [(0, 0, 32, m.f 0 0 32)]) st load]
  | 0x70 => []
  | 0x71 | 0x72 | 0x73 => [s.reply m 0x7A 32 (bitsOf m.body 0 256) st load]
  | 0x90 | 0x91 => [s.reply m 0x98 16 (layout [(0, 0, 32, m.f 12 0 32), (4, 0, 32, m.f 0 0 32), (8, 0, 32, m.f 4 0 32),
      (12, 0, 32, m.f 8 0 32)]) st load]
  | 0xA0 => [s.reply m 0xA8 16 (layout [(0, 0, 32, m.f 4 0 32), (8, 0, 32, m.f 24 0 32)]) st load]
  | 0xA1 => [s.reply m 0xA9 16 (layout [(0, 0, 32, m.f 4 0 32)]) st load]
  | 0xA2 => [s.reply m 0xAA 16 (layout [(0, 0, 32, m.f 4 0 32), (8, 0, 32, m.f 24 0 32)]) st load]
  | 0xBA => [s.reply m 0xBB 16 (setBits (setBits (bitsOf m.body 0 128) 48 4 st.code) 64 16 s.eid) st load]
  | ty => if m.chan = Ch.req ∧ ¬ knownTypes.contains ty then
      [s.reply m (Config.refusalType ty % 256) 16 (layout [(0, 0, 32, m.tag)]) st load] else []

/-- POISON and NODE_LOST completions are CONTAINED errors (R404). -/
def State.logCompletion (d : Nat) (m : Msg) (st : Status) (s : State) : State :=
  if st = .poison ∨ st = .nodeLost then
    s.contained d (if 0x40 ≤ m.ty ∧ m.ty < 0x60 then B.coh else B.trk) st (Config.logSource B.trk st.code) m.addr
  else s

/-! ### Sending (R20, R26, R91, R95, R96) -/

/-- Identifiers of the clusters as caching agents, above every endpoint identifier (model's choice for the on-die messages
of R140). -/
def clusterId (c : Nat) : Nat := 65536 + c

def dieOfCluster (c : Nat) : Nat := if c < 8 then 0 else 1

/-- The die whose agents consume a message here (R26). -/
def State.consumeDie (s : State) (m : Msg) : Nat :=
  if 65536 ≤ m.dst then dieOfCluster (m.dst - 65536)
  else if isMemory m.ty ∧ (nodeOf m.addr = s.node ∨ (s.lendOf (nodeOf m.addr)).isSome) then s.homeDie m.addr else m.die

/-- Whether the switch core consumes a message here (R26), requests proxied for a lender among them (R176). -/
def State.isLocal (s : State) (m : Msg) : Bool :=
  (isMemory m.ty && (nodeOf m.addr = s.node || (s.lendOf (nodeOf m.addr)).isSome)) || m.dst = s.eid || 65536 ≤ m.dst

/-- The zero data of a POISON completion of a read, and none otherwise (R116, R187). -/
def zeroData (m : Msg) (st : Status) : Option Nat := if st = .poison ∧ (m.ty = 0x10 ∨ m.ty = 0x11) then some 0 else none

/-- The entry of POL_LOST a request falls into (R187). -/
def State.inLostRange (s : State) (m : Msg) : Bool :=
  isMemory m.ty && (s.listed R.POL_LOST_valid).any (fun k => s.rd R.POL_LOST_node k = nodeOf m.addr &&
    s.rd R.POL_LOST_first_extent k ≤ extentOf m.addr && extentOf m.addr ≤ s.rd R.POL_LOST_last_extent k)

/-- The status of a request to lost memory (R162, R187). -/
def lostStatus (ty : Nat) : Status := if [0x10, 0x11, 0x40, 0x41].contains ty then .poison else .nodeLost

def State.countLost (d : Nat) (m : Msg) (s : State) : State :=
  s.bump R.POL_CNT_count [d, if lostStatus m.ty = .poison then 10 else 11]

/-- The completion of a request of the part's own agents, formed here and put at the input of the die that issued it. -/
def State.selfAnswer (d : Nat) (m : Msg) (st : Status) (s : State) : State :=
  (s.completion m st 0 (zeroData m st)).foldl (fun a r =>
    (({ a with sw := { a.sw with nextId := a.sw.nextId + 1 } } : State).takeAgentCells d r.tenant r.flits).toInput m.die
      { msg := r, id := a.sw.nextId, die := d, have_ := r.flits, total := r.flits, time := a.now,
        ft := a.ftDie d })
    (s.logCompletion d m st)

/-- What becomes of a message an agent formed that cannot leave: a request is completed to its own requester (R95, R98). -/
def State.failSend (d : Nat) (m : Msg) (st : Status) (q : QMsg) (s : State) : State :=
  let s := s.freeCells q q.total
  if m.chan = Ch.req ∧ m.src = s.eid then s.selfAnswer d m st else s

/-- Give a stored message to its readers, by the route of its destination. -/
def State.place (d : Nat) (m : Msg) (q : QMsg) (s : State) : State :=
  match s.tablesFor m with
  | .inr st => s.failSend d m st q
  | .inl t =>
    if s.inLostRange m then (s.countLost d m).failSend d m (lostStatus m.ty) q
    else if s.isLocal m ∨ t.routeOf m.dst = .loc then
      if isMemory m.ty ∧ nodeOf m.addr ≠ s.node ∧ (s.lendOf (nodeOf m.addr)).isNone then
        (s.bump R.TRK_CNT_count [d, 11]).failSend d m .nodeLost q
      else s.toOutput (256 + s.consumeDie m) true q
    else
      match t.routeOf m.dst with
      | .group g =>
        match s.chooseHop t g m with
        | some (p, i) =>
          State.toOutput p (s.isEdge p && s.partnerEid p = m.dst) { q with group := some (g, m.mapGen) }
            { s with sw := { s.sw with rotate := s.sw.rotate.set [g] i } }
        | none => s.failSend d m .nodeLost q
      | .mcast k =>
        let e := t.mcast.get (0, false, false) [k]
        let ports := (List.range 256).filter (fun p => bitAt e.1 p && s.isUp p)
        let dies := (if e.2.1 then [256] else []) ++ (if e.2.2 then [257] else [])
        if ports ++ dies = [] then s.freeCells q q.total
        else (ports ++ dies).foldl (fun a o => a.deliverOut o { q with shared := true }) s
      | _ => s.failSend d m .nodeLost q

/-- Store a message an agent of die `d` formed, whose cells are taken, and queue it for its readers. -/
def State.route (d : Nat) (m : Msg) (s : State) : State :=
  State.place d m { msg := m, id := s.sw.nextId, die := d, have_ := m.flits, total := m.flits, time := s.now, ft := s.ftDie d,
                    cms := if m.cm then 2 ^ m.flits - 1 else 0 }
    { s with sw := { s.sw with nextId := s.sw.nextId + 1 } }

/-- Send the messages that wait for an agent cell of a die, in order, while cells last (R89). -/
def State.flushList (d : Nat) : List Msg → State → State
  | [], s => { s with sw := { s.sw with waiting := s.sw.waiting.erase [d] } }
  | m :: t, s =>
    if s.agentRoom d m.tenant m.flits then State.flushList d t ((s.takeAgentCells d m.tenant m.flits).route d m)
    else { s with sw := { s.sw with waiting := s.sw.waiting.set [d] (m :: t) } }

def State.flush (d : Nat) (s : State) : State := State.flushList d (s.sw.waiting.get [] [d]) s

/-- An agent of die `d` forms a message. Without a free cell of its reserve or its tenant's quota it waits, behind
whatever already waits (R89). -/
def State.send (d : Nat) (m : Msg) (s : State) : State := State.flushList d (s.sw.waiting.get [] [d] ++ [m]) s

def State.sendAll (d : Nat) (l : List Msg) (s : State) : State := l.foldl (fun a m => a.send d m) s

/-- Complete a request with a status and, where it carries any, data. -/
def State.answer (d : Nat) (m : Msg) (st : Status) (load : Nat) (data : Option Nat) (s : State) : State :=
  (s.logCompletion d m st).sendAll d (s.completion m st load data)

/-- Refuse a request: its completion carries load 0 (R98, R138). -/
def State.refuse (d : Nat) (m : Msg) (st : Status) (s : State) : State := s.answer d m st 0 (zeroData m st)

/-- Remove the first message of an input that equals `m` and is whole. -/
def takeFirst (m : Msg) : List QMsg → Option (QMsg × List QMsg)
  | [] => none
  | q :: t =>
    if q.msg = m ∧ q.have_ = q.total then some (q, t)
    else match takeFirst m t with
      | some (r, t') => some (r, q :: t')
      | none => none

/-- An agent of die `d` reads a message from its input; its cells are freed (R86). A message that does not stand there
has been read already. -/
def State.consume (d : Nat) (m : Msg) (s : State) : State :=
  match takeFirst m (s.sw.agentIn.get [] [d, m.chan]) with
  | some (q, rest) =>
    let s := { s with sw := { s.sw with agentIn := if rest = [] then s.sw.agentIn.erase [d, m.chan]
                                                   else s.sw.agentIn.set [d, m.chan] rest } }
    ((s.readUpTo q q.total).flush 0).flush 1
  | none => s

end Sys2Proof.Machine
end

