-- ==== Sys2Proof/Machine/CodecOps.lean ====
section
/-! DEFINITION. The codec of compressed messages: code tables, blocks, and messages encoded and decoded whole (R311 to
R324, R329). -/

namespace Sys2Proof.Machine

/-! ### Types and sizes (R313, R314) -/

/-- Element types of the codec, by the code of R251. -/
def codecFmt (t : Nat) : Option Fmt :=
  if t = 3 then some fp32 else if t = 4 then some bf16 else if t = 5 then some fp16 else none

/-- b, by its code. -/
def bitsFor (bcode : Nat) : Nat := [2, 3, 4, 5, 6, 8].getD bcode 0

/-- Bytes of a compressed block. -/
def blockBytes (b : Nat) : Nat := 4 + 32 * b

/-- The types that may be compressed (R311, R336, R361); each has a type header of 16 bytes. -/
def compressible (ty : Nat) : Bool := ty = 0x90 || ty = 0x99 || ty = 0xA8

/-! ### Code tables (R317) -/

def lenAt (t s : Nat) : Nat := bitsOf t (4 * s) 4

/-- The symbols of a code length, in order. -/
def symbolsOf (t l : Nat) : List Nat := (List.range 256).filter (fun s => lenAt t s = l)

def blCount (t l : Nat) : Nat := if l = 0 then 0 else (symbolsOf t l).length

/-- The first codeword of each length. -/
def firstCode (t : Nat) : Nat → Nat
  | 0 => 0
  | l + 1 => 2 * (firstCode t l + blCount t l)

def codeword (t s : Nat) : Nat :=
  firstCode t (lenAt t s) + ((List.range s).filter (fun r => lenAt t r = lenAt t s)).length

def tableValid (t : Nat) : Bool :=
  lenAt t 0 = 0 && 1 ≤ lenAt t 128 &&
  ((List.range 256).foldl (fun a s => a + if lenAt t s = 0 then 0 else 2 ^ (15 - lenAt t s)) 0) ≤ 2 ^ 15

/-! ### Steps (R316, R321) -/

/-- num / den to the nearest whole number, ties to even. -/
def divRne (num den : Nat) : Nat :=
  let q := num / den
  let r := num % den
  if den < 2 * r ∨ (2 * r = den ∧ q % 2 = 1) then q + 1 else q

/-- x / step(k), rounded; x is plus or minus m * 2^e. -/
def quantise (k : Nat) (n : Bool) (m : Nat) (e : Int) : Int :=
  let sh := e + 130 - (k / 8 : Nat)
  let den := 8 + k % 8
  let q := if 0 ≤ sh then divRne (m <<< sh.toNat) den else divRne m (den <<< (-sh).toNat)
  if n then -(q : Int) else q

def quantAt (k : Nat) : FV → Int
  | .fin n m e => quantise k n m e
  | _ => 0

/-- q * step(k) in the stream's output type (R316). -/
def rebuild (out : Fmt) (k : Nat) (q : Int) : Nat :=
  let x := fp32.round true (decide (q < 0)) (q.natAbs * (8 + k % 8)) ((k / 8 : Nat) - 130)
  if out = fp32 then x else out.encode true (fp32.decode x)

/-- The smallest step index from `k` at which every element is at most `lim` in magnitude. -/
def smallestStep (xs : List FV) (lim : Nat) : Nat :=
  ((List.range 2040).find? (fun k => xs.all (fun x => decide ((quantAt k x).natAbs ≤ lim)))).getD 2039

/-! ### Encoding (R315, R318 to R321) -/

/-- Codewords as bits, each from its most significant bit, in body order. -/
def bitsMsb (x : Nat) : Nat → List Bool
  | 0 => []
  | n + 1 => bitAt x n :: bitsMsb x n

def numOfBits : List Bool → Nat
  | [] => 0
  | b :: t => b2n b + 2 * numOfBits t

/-- A block: its bytes as a number, and its mode. -/
def encodeBlock (t bcode blk : Nat) (xs : List FV) : Nat × Nat :=
  let b := bitsFor bcode
  let head (mode k : Nat) : Nat := layout [(0, 0, 2, mode), (0, 2, 3, bcode), (0, 5, 8, xs.length - 1), (0, 13, 3, k % 8),
    (0, 16, 8, k / 8), (0, 24, 8, blk)]
  if xs.any (fun x => match x with
      | .fin _ _ _ => false
      | _ => true) then (head 3 0, 3)
  else if xs.all FV.isZero then (head 2 0, 2)
  else
    let k0 := smallestStep xs 127
    let fits (k : Nat) : Bool :=
      let ls := xs.map (fun x => lenAt t ((quantAt k x + 128).toNat))
      ls.all (fun l => l ≠ 0) && ls.foldl (· + ·) 0 ≤ 256 * b
    match ((List.range 64).map (k0 + ·)).find? (fun k => decide (k ≤ 2039) && fits k) with
    | some k =>
      let bits := xs.flatMap (fun x =>
        let s := (quantAt k x + 128).toNat
        bitsMsb (codeword t s) (lenAt t s))
      (head 0 k + numOfBits bits <<< 32, 0)
    | none =>
      let k := smallestStep xs (2 ^ (b - 1) - 1)
      let qs := xs.map (fun x => ((quantAt k x) % (2 ^ b : Nat)).toNat)
      (head 1 k + (qs.foldr (fun q a => q + a <<< b) 0) <<< 32, 1)

/-! ### Decoding (R318 to R320, R323) -/

/-- One codeword read from body bit `pos`: symbol and next position. -/
def readCode (t body limit : Nat) : Nat → Nat → Nat → Nat → Option (Nat × Nat)
  | 0, _, _, _ => none
  | fuel + 1, l, code, pos =>
    if limit ≤ pos then none
    else
      let code := 2 * code + b2n (bitAt body pos)
      if firstCode t l ≤ code ∧ code - firstCode t l < blCount t l then
        ((symbolsOf t l)[code - firstCode t l]?).map (fun s => (s, pos + 1))
      else readCode t body limit fuel (l + 1) code (pos + 1)

/-- `n` codewords: their symbols and the position behind them. -/
def readCodes (t body limit : Nat) : Nat → Nat → Option (List Nat × Nat)
  | 0, pos => some ([], pos)
  | n + 1, pos =>
    match readCode t body limit 15 1 0 pos with
    | none => none
    | some (s, p) => if s = 0 then none else (readCodes t body limit n p).map (fun r => (s :: r.1, r.2))

/-- The causes of CDC_ERR_INFO. -/
def Cause.short : Nat := 0
def Cause.long : Nat := 1
def Cause.count : Nat := 2
def Cause.format : Nat := 3
def Cause.generation : Nat := 4
def Cause.length : Nat := 5

/-- A block decoded into the output type, or the cause of its error; `count` is the declared count. -/
def decodeBlock (t bcode blk count : Nat) (out : Fmt) (x : Nat) : Nat ⊕ List Nat :=
  let b := bitsFor bcode
  let mode := bitsOf x 0 2
  let k := bitsOf x 16 8 * 8 + bitsOf x 13 3
  let body := bitsOf x 32 (256 * b)
  if bitsOf x 2 3 ≠ bcode ∨ bitsOf x 16 8 = 255 ∨ bitsOf x 24 8 ≠ blk % 256 ∨ (2 ≤ mode ∧ k ≠ 0) then .inl Cause.format
  else if bitsOf x 5 8 + 1 ≠ count then .inl Cause.count
  else if mode = 2 ∨ mode = 3 then
    if body ≠ 0 then .inl Cause.long else .inr (List.replicate count (if mode = 2 then 0 else out.qnan))
  else if mode = 1 then
    if body >>> (b * count) ≠ 0 then .inl Cause.long
    else .inr ((List.range count).map (fun i =>
      let q := bitsOf body (b * i) b
      rebuild out k (if q < 2 ^ (b - 1) then q else (q : Int) - 2 ^ b)))
  else
    match readCodes t body (256 * b) count 0 with
    | none => .inl Cause.short
    | some (ss, pos) => if body >>> pos ≠ 0 then .inl Cause.long else .inr (ss.map (fun (s : Nat) => rebuild out k (Int.ofNat s - 128)))

/-! ### Messages (R313, R314) -/

/-- The codec header's fields, behind a type header of 16 bytes. -/
def cStream (m : Msg) : Nat := m.f 16 0 12
def cGen (m : Msg) : Nat := m.f 16 12 8
def cSrc (m : Msg) : Nat := m.f 16 20 4
def cCode (m : Msg) : Nat := m.f 16 24 3
def cFirst (m : Msg) : Nat := m.f 20 0 32
def cBlocks (m : Msg) : Nat := m.f 24 0 8
def cLast (m : Msg) : Nat := m.f 24 8 9
def cUser (m : Msg) : Nat := m.f 28 0 32

/-- The codec header. -/
def codecHeader (stream gen src bcode first nblocks last user : Nat) : Nat :=
  layout [(0, 0, 12, stream), (0, 12, 8, gen), (0, 20, 4, src), (0, 24, 3, bcode), (4, 0, 32, first), (8, 0, 8, nblocks),
    (8, 8, 9, last), (12, 0, 32, user)]

/-- The declared count of block `k`. -/
def countOf (m : Msg) (k : Nat) : Nat := if k + 1 = cBlocks m then cLast m else 256

/-- Bytes of the block area. -/
def areaBytes (m : Msg) : Nat :=
  if m.compressed then cBlocks m * blockBytes (bitsFor (cCode m))
  else ((cBlocks m - 1) * 256 + cLast m) * (match codecFmt (cSrc m) with
    | some f => f.width / 8
    | none => 0)

/-- A message whose length and codec header hold (R314). -/
def wellSized (m : Msg) : Bool :=
  (codecFmt (cSrc m)).isSome && (if m.compressed then cCode m ≤ 5 else cCode m = 0) && m.f 16 27 5 = 0 && 1 ≤ cBlocks m &&
  1 ≤ cLast m && cLast m ≤ 256 && m.f 24 17 15 = 0 && m.len = 32 + areaBytes m

/-! ### Streams (R324) -/

/-- The descriptor of a stream entry and its fields. -/
def State.streamAt (s : State) (d n : Nat) : Nat := s.rd R.CDC_STREAM_descriptor [d, n]

def Stream.valid (x : Nat) : Bool := bitAt x 0
def Stream.tenant (x : Nat) : Nat := bitsOf x 1 5
def Stream.bcode (x : Nat) : Nat := bitsOf x 6 3
def Stream.src (x : Nat) : Nat := bitsOf x 9 4
def Stream.out (x : Nat) : Nat := bitsOf x 13 4
def Stream.core (x : Nat) : Nat := bitsOf x 17 7
def Stream.handle (x : Nat) : Nat := bitsOf x 24 4
def Stream.gen (x : Nat) : Nat := bitsOf x 28 8
def Stream.tagBase (x : Nat) : Nat := bitsOf x 64 32

/-- The output format of a stream. -/
def Stream.outFmt (x : Nat) : Fmt := if Stream.out x = 4 then bf16 else fp32

/-- The table of a generation: the current or the previous one (R324). -/
def State.tableFor (s : State) (d n gen : Nat) : Option Nat :=
  let c := Stream.gen (s.streamAt d n)
  if gen = c then some (s.rd R.CDC_TABLE_lengths [d, n, 0])
  else if gen = (c + 255) % 256 then some (s.rd R.CDC_TABLE_lengths [d, n, 1])
  else none

/-- Block `k` of a message for its stream: 256 elements of the output type and the cause of an error (R323, R325, R327). -/
def State.expandBlock (s : State) (m : Msg) (k : Nat) : Option Nat × List Nat :=
  let x := s.streamAt m.die (cStream m)
  let out := Stream.outFmt x
  let zero (c : Nat) : Option Nat × List Nat := (some c, List.replicate 256 0)
  if ¬ wellSized m then zero Cause.length
  else if m.compressed then
    match s.tableFor m.die (cStream m) (cGen m) with
    | none => zero Cause.generation
    | some t =>
      let b := blockBytes (bitsFor (cCode m))
      match decodeBlock t (cCode m) (cFirst m + k) (countOf m k) out (m.f (32 + k * b) 0 (8 * b)) with
      | .inl c => zero c
      | .inr l => (none, (l ++ List.replicate 256 0).take 256)
  else
    match codecFmt (cSrc m) with
    | none => zero Cause.length
    | some f =>
      let w := f.width
      (none, (List.range 256).map (fun i =>
        if i < countOf m k then out.encode true (f.decode (m.f (32 + k * 32 * w) (w * i) w)) else 0))

/-- Elements of block `k` of a raw message. -/
def rawBlock (m : Msg) (f : Fmt) (k : Nat) : List FV :=
  (List.range (countOf m k)).map (fun i => f.decode (m.f (32 + k * 32 * f.width) (f.width * i) f.width))

/-- Encode a raw message with the current generation of its stream, counting its blocks at the die (R321, R329). -/
def State.encodeMsg (d : Nat) (m : Msg) (s : State) : Msg × State :=
  match codecFmt (cSrc m) with
  | none => (m, s)
  | some f =>
    let x := s.streamAt d (cStream m)
    let t := s.rd R.CDC_TABLE_lengths [d, cStream m, 0]
    let b := blockBytes (bitsFor (Stream.bcode x))
    let bl := (List.range (cBlocks m)).map (fun k => encodeBlock t (Stream.bcode x) (cFirst m + k) (rawBlock m f k))
    let area := bl.foldr (fun e a => e.1 + a <<< (8 * b)) 0
    let head := codecHeader (cStream m) (Stream.gen x) (cSrc m) (Stream.bcode x) (cFirst m) (cBlocks m) (cLast m) (cUser m)
    let n (mode : Nat) : Nat := (bl.filter (fun e => e.2 = mode)).length
    let s := (((s.bumpBy R.CDC_CNT_count [d, 0] bl.length).bumpBy R.CDC_CNT_count [d, 2] (n 1)).bumpBy
      R.CDC_CNT_count [d, 3] (n 2)).bumpBy R.CDC_CNT_count [d, 4] (n 3)
    ({ m with compressed := true, len := 32 + cBlocks m * b, body := bitsOf m.body 0 128 + head <<< 128 + area <<< 256 }, s)

end Sys2Proof.Machine
end

