-- ==== Sys2Proof/Machine/Errors.lean ====
section
/-! DEFINITION. Reports to the manager device, and DEGRADED and FATAL errors (R404, R405, R409, R413, R416, R481). -/

namespace Sys2Proof.Machine

/-- The MG header (R413). -/
def mgHead (seq op : Nat) (st : Status) (origin offset : Nat) : Nat :=
  layout [(0, 0, 32, seq), (4, 0, 16, op), (4, 16, 4, st.code), (8, 0, 16, origin), (12, 0, 32, offset)]

/-- A management message of this part (R412): it enters the switch core on West (R171). -/
def State.mgMsg (s : State) (ty dst seq op : Nat) (st : Status) (operands : List Byte) : Msg :=
  { chan := chanOf ty, tc := 7, dst := dst, src := s.eid, ty := ty, mapGen := s.mapGen, len := 16 + operands.length,
    body := mgHead seq op st s.eid 0 + natOfBytes operands <<< 128 }

/-- Operands with their length and four reserved bytes in front (R413, R475). -/
def withLength (b : List Byte) : List Byte := bytesOfNat 4 (b.length + 8) ++ bytesOfNat 4 0 ++ b

def State.sendReport (r : Report) (s : State) : State :=
  s.send 0 (s.mgMsg 0xB2 (s.rd R.RAS_MGR_CFG_manager_eid []) r.seq (0x0800 + r.code) r.status (withLength r.operands))

/-- Report to the fabric manager (R416, R481): a worker holds the report and sends it; the manager device keeps it for
REPORT_FETCH (R453). -/
def State.report (code : Nat) (st : Status) (operands : List Byte) (s : State) : State :=
  if s.rd R.RAS_MGR_CFG_role [] = 1 then
    { s with ras := { s.ras with
        fetch := s.ras.fetch ++ [bytesOfNat 16 (mgHead s.ras.reportSeq (0x0800 + code) st s.eid 0) ++ withLength operands],
        reportSeq := (s.ras.reportSeq + 1) % 2 ^ 32 } }
  else if s.rd R.RAS_MGR_CFG_manager_eid [] = 0xFFFF then s
  else
    let r : Report := { seq := s.ras.reportSeq, code := code, status := st, operands := operands, sentAt := s.now }
    let full := 256 ≤ s.ras.reports.length
    State.sendReport r { s with ras := { s.ras with
      reports := (if full then s.ras.reports.tail else s.ras.reports) ++ [r],
      reportSeq := (s.ras.reportSeq + 1) % 2 ^ 32,
      reportsDropped := s.ras.reportsDropped + b2n full } }

/-! ### Mailbox replies (R451, R452) -/

/-- The functions whose MRN_BUSY bit is set. -/
def State.setBusyBit (fn : Nat) (b : Bool) (s : State) : State :=
  let v := s.rd R.MRN_BUSY_pending []
  s.wr R.MRN_BUSY_pending [] (if bitAt v fn = b then v else v ^^^ 1 <<< fn)

/-- Write a reply: the buffer, then the header that validates it, then the vector of MRN_CFG. -/
def State.mailReply (fn seq : Nat) (st : Status) (data : List Byte) (s : State) : State :=
  let s := (List.range (ceilDiv data.length 8)).foldl (fun t k =>
    t.wr R.MRN_REPLY_word [fn, k] (natOfBytes ((data.drop (8 * k)).take 8))) s
  let s := ((s.wr R.MRN_REPLY_HDR_length [fn] data.length).wr R.MRN_REPLY_HDR_status [fn] st.code).wr R.MRN_REPLY_HDR_seq [fn] seq
  let s := (s.setBusyBit fn false).event B.mrn 1
  if s.on R.MRN_CFG_int_en [fn] then s.msix fn (s.rd R.MRN_CFG_vector [fn]) else s

/-- The outcome of a fabric-manager command: kept here, written to the mailbox that waits for it, or acknowledged to the manager device, the last 64 of whose
acknowledgements stay (R190, R415). -/
def State.tell (who : Asker) (op : Nat) (st : Status) (s : State) : State :=
  if s.pkg.expelled then s
  else match who with
  | .here => { s with answers := s.answers ++ [(op, st)] }
  | .mailbox =>
    match s.hif.mbox.get? [0] with
    | some q => State.mailReply 0 q.seq st [] { s with hif := { s.hif with mbox := s.hif.mbox.erase [0] } }
    | none => s
  | .relayed seq =>
    State.send 0 (s.mgMsg 0xB1 (s.rd R.RAS_MGR_CFG_manager_eid []) seq op st [])
      { s with ras := { s.ras with acks := (s.ras.acks ++ [(seq, op, st)]).drop (s.ras.acks.length + 1 - 64) } }

/-- A command applied here, with its status. -/
def State.told (op : Nat) (r : Status × State) : State := r.2.tell .here op r.1

/-- A block has reported ready (R443). -/
def State.isReady (blk : Nat) (s : State) : Bool := bitAt (s.rd R.GLB_READY_ready []) blk

/-- The block a fabric-manager command names, by the class of its op (R414). -/
def opBlock (op : Nat) : Nat :=
  match op / 256 with
  | 1 => B.pol
  | 2 => B.edg
  | 3 => B.coh
  | 4 => B.swc
  | 7 => B.ras
  | _ => B.sec

/-- A command is refused with RETRY until its block is READY (R443); an expelled part applies none (R419). -/
def State.gated (op : Nat) (s : State) (r : Status × State) : Status × State :=
  if s.pkg.expelled then (.unsupported, s) else if s.isReady (opBlock op) then r else (.retry, s)

/-- An action started by a register without a result status: until its block is READY it is a programming error (R443). -/
def State.started (f : Fld) (ix : List Nat) (s t : State) : State :=
  if s.isReady f.block then t else s.badWrite f ix

/-- Log a DEGRADED error: the block's capability entry shows it, and it is reported (R404). -/
def State.degraded (at_ blk : Nat) (source info : Nat) (s : State) : State :=
  let ft := s.ftAt at_
  let cause := Config.logCause blk 2
  let seq := s.rd R.RAS_LOG_PROD_count []
  let t := if bitAt (s.rd R.GLB_DEGRADED_degraded []) blk then s
    else (s.wr R.GLB_DEGRADED_degraded [] (s.rd R.GLB_DEGRADED_degraded [] ||| 1 <<< blk)).event B.glb 1
  let t := ((t.bump R.RAS_CNT_count [2]).ringPut ft .degraded blk .ok cause source info).event B.ras 1
  t.report 1 .ok (bytesOfNat 32 (logRecord ft .degraded blk .ok cause source info seq))

/-- In Rest the clocks of the fabric dies are gated (R447). -/
def State.resting (s : State) : Bool := s.rd R.PWR_REST_STATUS_state [] = 2

/-- A command of a port, an agent, a unit or a core of the fabric dies: it has no effect after a FATAL error (R405), in
Rest (R447), or without clocks. -/
def serving (s t : State) : Host.Outcome State Fault Refusal := clocked s (if s.pkg.fatal || s.resting then s else t)

end Sys2Proof.Machine
end

