-- ==== Sys2Proof/Machine/Power.lean ====
section
/-! DEFINITION. Die-to-die links, power modes, engine voltage, the power and the thermal controller, and the rails
(R22, R29 to R33, R462 to R472). -/

namespace Sys2Proof.Machine

/-! ### Ceilings (R29, R30, R471) -/

/-- The ECLK ceiling of a mode in units of 0.2 GHz, its stack ceiling in percent, and its limit in W (R29). -/
def modeEclk (m : Nat) : Nat := if m = 0 then 18 else if m = 1 then 15 else 12
def modeCap (m : Nat) : Nat := if m = 0 then 100 else if m = 1 then 70 else 30
def modeLimit (m : Nat) : Nat := if m = 0 then 900 else if m = 1 then 750 else 600

def State.mode (s : State) : Nat := s.rd R.PWR_MODE_STATUS_mode []

/-- The ECLK and the cap the three values allow (R471); critical holds the cap at 10 (R472). -/
def State.eclkTarget (s : State) : Nat := min (modeEclk s.mode) (min s.pkg.powerEclk s.pkg.thermEclk)

def State.capTarget (s : State) : Nat :=
  if s.on R.PWR_THERMAL_STATUS_critical [] then 10
  else min (modeCap s.mode) (min s.pkg.powerCap s.pkg.thermCap)

/-- The nominal voltage of an ECLK, in thirds of a mV, interpolated linearly (R462). -/
def nominal (e : Nat) : Nat :=
  if 15 ≤ e then 2280 + 90 * (min e 18 - 15) else if 12 ≤ e then 2040 + 80 * (e - 12) else 1800 + 40 * (e - 6)

/-- The voltage requested of a die's regulator, trimmed and bounded, in thirds of a mV (R462). -/
def State.voltRequest (s : State) (d : Nat) : Int :=
  max 1800 (min 2610 ((s.pkg.volt : Int) + 3 * s.pkg.trim.get 0 [d]))

/-- The cores issue nothing: an ECLK relock (R32), the critical temperature (R472), or Rest (R447). -/
def State.coresStalled (s : State) : Bool :=
  s.pkg.relock.isSome || s.on R.PWR_THERMAL_STATUS_critical [] || s.resting

/-- Move ECLK and the column caps toward their targets (R32, R463, R471): a fall relocks at once, a rise first asks for
its voltage. -/
def State.retarget (s : State) : State :=
  let s := s.wr R.PWR_THROTTLE_stack_cap [] s.capTarget
  let e := s.rd R.PWR_THROTTLE_eclk []
  let t := s.eclkTarget
  if s.pkg.relock.isSome then s
  else if t < e then { s with pkg := { s.pkg with relock := some t, raise := none } }
  else if e < t then
    if s.pkg.raise.map (·.1) = some t then s
    else { s with pkg := { s.pkg with raise := some (t, s.now), volt := nominal t } }
  else { s with pkg := { s.pkg with raise := none } }

/-! ### Die-to-die links (R22, R406) -/

/-- A response whose cells could not be read: POISON, and its data zeroed (R406). -/
def poisoned (m : Msg) : Msg :=
  { m with status := (Status.join (Status.ofCode m.status) .poison).code, body := bitsOf m.body 0 128 }

/-- The first message at an agent input was hit by an uncorrectable transfer: a response is delivered with POISON, a
request is discarded and completed with POISON (R22, R406). -/
def State.poisonInput (d chan : Nat) (s : State) : State :=
  match s.sw.agentIn.get [] [d, chan] with
  | [] => s
  | q :: t =>
    if chan = Ch.req then
      let s := { s with sw := { s.sw with agentIn := if t = [] then s.sw.agentIn.erase [d, chan]
                                                     else s.sw.agentIn.set [d, chan] t } }
      (s.readUpTo q q.total).answer d q.msg .poison 0 none
    else { s with sw := { s.sw with agentIn := s.sw.agentIn.set [d, chan] ({ q with msg := poisoned q.msg } :: t) } }

/-- R22. -/
def execDieLinkError (link : Nat) (kind : DieLinkErr) (s : State) : Host.Outcome State Fault Refusal :=
  serving s (match kind with
    | .corrected => s.corrected 2 B.ras link
    | .replayed => s
    | .uncorrectable d chan => (s.contained 2 B.ras .poison link 0).poisonInput d chan)

/-- R22: the die goes on without the hub; DEGRADED. -/
def execHubLinkLoss (d : Nat) (s : State) : Host.Outcome State Fault Refusal :=
  serving s (if s.pkg.hubLost.has [d] then s
    else ({ s with pkg := { s.pkg with hubLost := s.pkg.hubLost.set [d] () } } : State).degraded 2 B.ras d 0)

/-- R22. -/
def execHubLinkReturn (d : Nat) (s : State) : Host.Outcome State Fault Refusal :=
  serving s { s with pkg := { s.pkg with hubLost := s.pkg.hubLost.erase [d] } }

/-! ### Power modes (R32) -/

/-- R32: a write of PWR_MODE_REQ. -/
def State.modeChangeRequest (mode beat : Nat) (s : State) : State :=
  if 2 < mode then s.badWrite R.PWR_MODE_REQ_mode []
  else if ¬ s.isReady B.pwr ∨ s.on R.PWR_MODE_STATUS_pending [] then
    (s.wr R.PWR_MODE_STATUS_result [] Status.retry.code).event B.pwr 2
  else
    let t := ((s.wr R.PWR_MODE_STATUS_pending [] 1).wr R.PWR_MODE_STATUS_requested [] mode).wr
      R.PWR_MODE_STATUS_pending_beat [] (launchBeat beat s.beat)
    (t.wr R.PWR_MODE_STATUS_result [] Status.ok.code).lateIf beat s.beat

/-- R32: a write of PWR_MODE_REQ. -/
def execModeChangeRequest (mode beat : Nat) (s : State) : Host.Outcome State Fault Refusal :=
  clocked s (s.modeChangeRequest mode beat)

/-- Put a mode in force (R29, R32). -/
def State.setMode (m : Nat) (s : State) : State :=
  let t := ((s.wr R.PWR_MODE_STATUS_mode [] m).wr R.PWR_MODE_STATUS_pending [] 0).wr R.PWR_POWER_limit [] (modeLimit m)
  ((t.bump R.PWR_CNT_count [3]).event B.pwr 1).retarget

/-- R32: the target beat has come. -/
def execModeChange (s : State) : Host.Outcome State Fault Refusal :=
  clocked s (
    if s.on R.PWR_MODE_STATUS_pending [] ∧ ¬ ahead (s.rd R.PWR_MODE_STATUS_pending_beat []) s.beat ∧ ¬ s.resting then
      s.setMode (s.rd R.PWR_MODE_STATUS_requested [])
    else s)

/-- R463: the regulators report the new value, so the cores stop and the PLLs relock. -/
def execVoltageSettled (mv : Nat) (s : State) : Host.Outcome State Fault Refusal :=
  clocked s (
    match s.pkg.raise with
    | some (t, _) =>
      if (s.voltRequest 0 - 3 * (mv : Int)).natAbs ≤ 15 ∧ s.pkg.relock.isNone then
        { s with pkg := { s.pkg with raise := none, relock := some t } }
      else s
    | none => s)

/-- The time a raise may take: delta / 12.5 us + 8 us, in ns, with delta in thirds of a mV (R463). -/
def settleLimit (delta : Nat) : Nat := delta * 80 / 3 + 8000

/-- R463: a raise not settled in time leaves ECLK as it is; every value above it is given up until a next step asks. -/
def execAvsSettleTimeout (s : State) : Host.Outcome State Fault Refusal :=
  clocked s (
    match s.pkg.raise with
    | some (t, since) =>
      if settleLimit (nominal t - nominal (s.rd R.PWR_THROTTLE_eclk [])) ≤ s.now - since then
        (({ s with pkg := { s.pkg with raise := none, volt := nominal (s.rd R.PWR_THROTTLE_eclk []) } } : State).event
          B.pwr 2).degraded 2 B.pwr 0 0
      else s
    | none => s)

/-- R32: the new ECLK is in force, the cores resume, and after a fall the voltage follows (R463). -/
def execEclkRelockDone (s : State) : Host.Outcome State Fault Refusal :=
  clocked s (
    match s.pkg.relock with
    | some t =>
      State.retarget { (s.wr R.PWR_THROTTLE_eclk [] t) with pkg := { s.pkg with relock := none, volt := nominal t } }
    | none => s)

/-- R462: a trim of -30 mV to +20 mV in 5 mV steps, at most once per beat. -/
def execVoltageTrim (d : Nat) (mv : Int) (s : State) : Host.Outcome State Fault Refusal :=
  clocked s (
    if -30 ≤ mv ∧ mv ≤ 20 ∧ mv % 5 = 0 ∧ s.pkg.trimBeat.get? [d] ≠ some s.beat then
      { s with pkg := { s.pkg with trim := s.pkg.trim.set [d] mv, trimBeat := s.pkg.trimBeat.set [d] s.beat } }
    else s)

/-! ### The power controller (R31) -/

/-- One step down of a controller whose own values are `e` and `c`, from what is now allowed: ECLK to its floor, then the
caps. The third part says which was lowered. -/
def stepDown (e c te tc : Nat) : Nat × Nat × Nat :=
  if 6 < te then (min e te - 1, c, 1) else if 10 < tc then (e, max 10 (min c tc - 10), 2) else (e, c, 0)

/-- One step back, in the opposite order; a value that reaches the mode's ceiling holds nothing back any more. -/
def stepUp (e c me mc : Nat) : Nat × Nat × Nat :=
  if c < mc then (e, if c + 10 < mc then c + 10 else 100, 2)
  else if e < me then (if e + 1 < me then e + 1 else 18, c, 1)
  else (e, c, 0)

/-- R31: the end of a 64-beat window, with the average power in 0.1 W. -/
def execPowerWindow (avg : Nat) (s : State) : Host.Outcome State Fault Refusal :=
  clocked s (
    let s := s.wr R.PWR_POWER_avg [] avg
    let limit := 10 * modeLimit s.mode
    let s :=
      if limit < avg then
        let r := stepDown s.pkg.powerEclk s.pkg.powerCap s.eclkTarget s.capTarget
        let t : State := { s with pkg := { s.pkg with powerEclk := r.1, powerCap := r.2.1 } }
        if r.2.2 = 1 then t.bump R.PWR_CNT_count [0] else if r.2.2 = 2 then t.bump R.PWR_CNT_count [2] else t
      else if 100 * avg < 95 * limit then
        let r := stepUp s.pkg.powerEclk s.pkg.powerCap (modeEclk s.mode) (modeCap s.mode)
        let t : State := { s with pkg := { s.pkg with powerEclk := r.1, powerCap := r.2.1 } }
        if r.2.2 = 1 then t.bump R.PWR_CNT_count [1] else if r.2.2 = 2 then t.bump R.PWR_CNT_count [2] else t
      else s
    let s := s.retarget
    if s.rd R.PWR_THROTTLE_eclk [] < modeEclk s.mode then s.bump R.PWR_THROTTLE_windows []
    else s.wr R.PWR_THROTTLE_windows [] 0)

/-- R31: more than 16 consecutive windows below the ceiling. -/
def execEclkThrottledAlert (s : State) : Host.Outcome State Fault Refusal :=
  clocked s (if 16 < s.rd R.PWR_THROTTLE_windows [] then s.event B.pwr 0 else s)

/-! ### The thermal controller (R470 to R472) -/

/-- Store the readings (R470). -/
def State.setTemps (west east hub stack index : Nat) (s : State) : State :=
  (((((s.wr R.PWR_TEMP_west [] west).wr R.PWR_TEMP_east [] east).wr R.PWR_TEMP_hub [] hub).wr
    R.PWR_TEMP_stack [] stack).wr R.PWR_TEMP_stack_index [] index).wr R.MEM_STACK_STATUS_temp [index] stack

/-- The thermal controller's step of one window (R470). -/
def State.thermalStep (die stack : Nat) (s : State) : State :=
  let dt := s.rd R.PWR_THERMAL_CFG_die_throttle []
  let st := s.rd R.PWR_THERMAL_CFG_stack_throttle []
  let h := s.rd R.PWR_THERMAL_CFG_hysteresis []
  let n := s.rd R.PWR_THERMAL_STATUS_steps []
  let s :=
    if dt ≤ die ∨ st ≤ stack then
      let r := stepDown s.pkg.thermEclk s.pkg.thermCap s.eclkTarget s.capTarget
      let t : State := { s with pkg := { s.pkg with thermEclk := r.1, thermCap := r.2.1 } }
      if r.2.2 = 0 then t else t.wr R.PWR_THERMAL_STATUS_steps [] (n + 1)
    else if die + h < dt ∧ stack + h < st then
      let r := stepUp s.pkg.thermEclk s.pkg.thermCap (modeEclk s.mode) (modeCap s.mode)
      let t : State := { s with pkg := { s.pkg with thermEclk := r.1, thermCap := r.2.1 } }
      t.wr R.PWR_THERMAL_STATUS_steps [] (if r.1 = 18 ∧ r.2.1 = 100 then 0 else max 1 (n - 1))
    else s
  let held := s.rd R.PWR_THERMAL_STATUS_steps [] ≠ 0
  let s := s.wr R.PWR_THERMAL_STATUS_throttling [] (b2n held)
  (if held then s.event B.pwr 6 else s).retarget

/-- R470: the readings of a window; no step is taken in Rest (R471). The critical level ends below the thresholds (R472). -/
def execThermalWindow (west east hub stack index : Nat) (s : State) : Host.Outcome State Fault Refusal :=
  clocked s (
    let die := max west (max east hub)
    let t := s.setTemps west east hub stack index
    let t := if die < s.rd R.PWR_THERMAL_CFG_die_throttle [] ∧ stack < s.rd R.PWR_THERMAL_CFG_stack_throttle [] then
        t.wr R.PWR_THERMAL_STATUS_critical [] 0
      else t
    if s.resting then t else t.thermalStep die stack)

/-- R472: a die at 112 C or more, or a stack at 100 C or more. -/
def execThermalCritical (die stack : Nat) (s : State) : Host.Outcome State Fault Refusal :=
  clocked s (if 112 ≤ die ∨ 100 ≤ stack then (s.wr R.PWR_THERMAL_STATUS_critical [] 1).retarget else s)

/-- R472: a die at 125 C or more stops every clock; the detector acts in every state. -/
def execThermalTrip (source temp : Nat) (s : State) : Host.Outcome State Fault Refusal :=
  finish s (
    if 125 ≤ temp ∧ ¬ s.pkg.tripped then
      let t := ((s.wr R.PWR_THERMAL_STATUS_tripped [] 1).wr R.PWR_THERMAL_STATUS_trip_source [] source).emit (.pin 0 0)
      { t with pkg := { t.pkg with tripped := true } }
    else s)

/-! ### Rails and the part reset (R445, R465) -/

/-- Everything at its reset value but what a reset does not reach: the flash, the retention cell of R472, and the model's
own queue, clock, counter of free values and record of what left the part. -/
def State.partReset (cause : Nat) (s : State) : State :=
  let r : State := { State.reset with pending := s.pending, now := s.now, fresh := s.fresh + 1, out := s.out,
                                      flash := s.flash, sec := { nonce := s.fresh } }
  ((r.wr R.GLB_RESET_CAUSE_cause [] cause).wr R.PWR_THERMAL_STATUS_tripped [] (s.rd R.PWR_THERMAL_STATUS_tripped [])).wr
    R.PWR_THERMAL_STATUS_trip_source [] (s.rd R.PWR_THERMAL_STATUS_trip_source [])

/-- R465: a rail out of tolerance for more than 2 us makes a part reset, recorded as power-on and held. -/
def execRailFault (ns : Nat) (s : State) : Host.Outcome State Fault Refusal :=
  finish s (
    if 2000 < ns then
      let t := s.partReset 0
      { t with pkg := { t.pkg with railHeld := true } }
    else s)

/-- R465: every rail within tolerance for 1 ms releases the reset. -/
def execRailRecovery (ns : Nat) (s : State) : Host.Outcome State Fault Refusal :=
  finish s (if 1000000 ≤ ns then { s with pkg := { s.pkg with railHeld := false } } else s)

end Sys2Proof.Machine
end

