-- ==== Sys2Proof/Machine/Time.lean ====
section
/-! DEFINITION. Fabric time: its advance, the exchange of cricket messages, and the states of the time unit
(R34 to R52). -/

namespace Sys2Proof.Machine

/-! ### The advance of time (R24, R34, R45, R51) -/

/-- A die's copy follows the hub's count within 1 ns and never runs backwards (R24, R34). -/
def followHub (copy hub offset : Nat) : Nat := max copy (hub + offset % 3 - 1)

/-- The fabric time unit after one more nanosecond. -/
def Tim.advance (t : Tim) (now : Nat) : Tim :=
  let slewed := ¬ t.halfRate ∧ t.slew ≠ 0 ∧ t.nextSlew ≤ now ∧ Config.slewNow now
  let ds : Int := if slewed then (if 0 < t.slew then 1 else -1) else 0
  let df : Int := if t.freq ≠ 0 ∧ now % 80 = 0 then Config.freqNow t.freq now % 3 - 1 else 0
  let base : Int := if t.halfRate then 128 else 256
  let ft := (t.ft : Int) + base + ds + df
  let slew := if t.halfRate then t.slew + 128 else t.slew - ds
  let ft' := ft.toNat
  { t with
      ft := ft', slew := slew,
      nextSlew := if slewed then now + 20 else t.nextSlew,
      halfRate := t.halfRate && decide (slew < -262144),
      west := followHub t.west (ft' / 256) (Config.dieOffset 0 now),
      east := followHub t.east (ft' / 256) (Config.dieOffset 1 now) }

/-- One nanosecond passes with no command waiting (model's choice: the queue holds no tick). -/
def State.tick (s : State) : State :=
  { s with now := s.now + 1, tim := if s.stopped then s.tim else s.tim.advance (s.now + 1),
           pkg := if s.stopped then s.pkg else { s.pkg with cycles := s.pkg.cycles + s.rd R.PWR_THROTTLE_eclk [] } }

/-- CRICKET_OUT, derived from fabric time while TIM_CTL.cricket_out_en is set (R40, R466). -/
def State.cricketOutPps (s : State) : Bool :=
  s.on R.TIM_CTL_cricket_out_en [] &&
    decide ((s.ftHub % 1000000000 + 1000000000 - s.rd R.TIM_PPS_PHASE_phase_ns []) % 1000000000 < 100000000)

def State.cricketOut10M (s : State) : Bool := s.on R.TIM_CTL_cricket_out_en [] && decide (s.ftHub / 50 % 2 = 0)

/-! ### States of the time unit (R49) -/

def Ts.unsync : Nat := 0
def Ts.acquiring : Nat := 1
def Ts.locked : Nat := 2
def Ts.holdover : Nat := 3
def Ts.lost : Nat := 4

def State.tst (s : State) : Nat := s.rd R.TIM_STATUS_state []

def State.isMaster (s : State) : Bool := s.rd R.TIM_CTL_role [] = 1

/-- No agreed time yet: UNSYNC or ACQUIRING (R50). -/
def State.timeless (s : State) : Bool := s.tst = Ts.unsync || s.tst = Ts.acquiring

def State.setTst (v : Nat) (s : State) : State :=
  if s.tst = v then s
  else
    let t := (s.wr R.TIM_STATUS_state [] v).event B.tim 0
    { t with tim := { t.tim with left := true } }

/-- The copies of the dies after the hub's count was set. -/
def State.setFt (units : Nat) (s : State) : State :=
  { s with tim := { s.tim with ft := units, west := units / 256, east := units / 256 } }

/-! ### Cricket messages (R41, R43, R44) -/

def State.cricketSeq (p ty : Nat) (s : State) : Nat × State :=
  let n := s.tim.seq.get 0 [p, ty]
  (n, { s with tim := { s.tim with seq := s.tim.seq.set [p, ty] ((n + 1) % 65536) } })

/-- The generation and master identifier this part sends (R40, R43). -/
def State.sentGen (s : State) : Nat := if s.isMaster then s.rd R.TIM_CTL_master_gen [] else s.rd R.TIM_STATUS_followed_gen []

def State.sentMaster (s : State) : Nat := if s.isMaster then s.eid else s.tim.master

def State.sendCricket (p ty seq tx rx : Nat) (s : State) : State :=
  s.emit (.cricket p { ty := ty, hop := s.rd R.TIM_STATUS_hop_depth [], gen := s.sentGen, seq := seq,
                       master := s.sentMaster, tx := tx, rx := rx })

/-- R43: a DELAY_REQ on the parent port. -/
def State.sendDelayReq (s : State) : State :=
  let p := s.rd R.TIM_STATUS_parent_port []
  let r := s.cricketSeq p 2
  State.sendCricket p 2 r.1 0 0 { r.2 with tim := { r.2.tim with request := some (p, r.1, r.2.tim.ft) } }

/-- Four SYNC intervals in ns (R42, R49). -/
def fourIntervals : Nat := 65536

/-- The ports that offer SYNC of the followed generation and master, with hop depth and number (R41). -/
def State.offers (s : State) : List (Nat × Nat) :=
  (s.tim.heard.entries.filter (fun e =>
    decide (e.2.gen = s.rd R.TIM_STATUS_followed_gen [] ∧ e.2.master = s.tim.master ∧ s.now < e.2.time + fourIntervals) &&
    (match e.1 with
     | [p] => s.isUp p && (¬ s.on R.TIM_PARENT_CFG_pin [] || p = s.rd R.TIM_PARENT_CFG_port [])
     | _ => false))).map (fun e => (e.2.hop, e.1.headD 0))

/-- Take the parent R41 names; a change starts an exchange at once (R43). Without one no parent is held. -/
def State.chooseParent (s : State) : State :=
  match argMin (fun e => e.1 * 256 + e.2) s.offers with
  | none => { s with tim := { s.tim with held := false } }
  | some (hop, p) =>
    let changed := ¬ s.tim.held ∨ s.rd R.TIM_STATUS_parent_port [] ≠ p
    let t := (s.wr R.TIM_STATUS_parent_port [] p).wr R.TIM_STATUS_hop_depth [] (hop + 1)
    let t : State := { t with tim := { t.tim with held := true, good := if changed then 0 else t.tim.good } }
    if changed then t.sendDelayReq else t

/-- Enter HOLDOVER, with its length counted from now (R42, R49); a worker in UNSYNC has nothing to hold. -/
def State.enterHoldover (s : State) : State :=
  let t : State := { s with tim := { s.tim with held := false, holdSince := s.now, good := 0 } }
  if s.tst = Ts.unsync then t else t.setTst Ts.holdover

/-- R43: the master, and every LOCKED part, sends SYNC on its child ports. -/
def execSyncInterval (s : State) : Host.Outcome State Fault Refusal :=
  clocked s (
    if s.tst = Ts.locked then
      ((List.range 256).filter (fun p => s.isActive p && s.on R.PRT_PORT_STATUS_partner_time [p] &&
        (s.isMaster || p ≠ s.rd R.TIM_STATUS_parent_port []))).foldl (fun a p =>
          let r := a.cricketSeq p 1
          State.sendCricket p 1 r.1 r.2.tim.ft 0 r.2) s
    else s)

/-- R43: a worker that holds a parent measures its link. -/
def execDelayReqInterval (s : State) : Host.Outcome State Fault Refusal :=
  clocked s (if ¬ s.isMaster ∧ s.tim.held then s.sendDelayReq else s)

/-- R43: a part in any state answers. -/
def execDelayReq (p : Nat) (c : Cricket) (rx tx : Nat) (s : State) : Host.Outcome State Fault Refusal :=
  clocked s (s.sendCricket p 3 c.seq tx rx)

/-! ### Correction (R45, R49, R51) -/

/-- A signed count from its two's-complement field. -/
def signedOf (w x : Nat) : Int := if x < 2 ^ (w - 1) then x else (x : Int) - 2 ^ w

/-- The two's-complement field of a signed count. -/
def fieldOfInt (w : Nat) (x : Int) : Nat := (x % 2 ^ w).toNat

/-- A fresh offset, in 1/256 ns (R45): UNSYNC steps to the parent at once; otherwise FT is slewed, stepped forward or held
at half rate by R51. An offset within 0.5 ns makes the interval good (R49). -/
def State.offset (o : Int) (sync : Bool) (s : State) : State :=
  let s := s.wr R.TIM_OFFSET_o [] (fieldOfInt 32 o)
  let s : State := { s with tim := { s.tim with
    freq := Config.learnFreq s.tim.freq o,
    good := if sync then (if o.natAbs ≤ 128 then s.tim.good + 1 else 0) else s.tim.good } }
  if s.tst = Ts.unsync then
    (s.setFt ((s.tim.ft : Int) - o).toNat).setTst Ts.acquiring
  else if o.natAbs ≤ 262144 then
    { s with tim := { s.tim with slew := -o, step := none, halfRate := false } }
  else if o < 0 then { s with tim := { s.tim with slew := 0, step := some o.natAbs, halfRate := false } }
  else { s with tim := { s.tim with slew := -o, step := none, halfRate := true } }

/-- Follow a newer generation (R42). -/
def State.follow (gen master : Nat) (s : State) : State :=
  let t := (s.wr R.TIM_STATUS_followed_gen [] gen).wr R.TIM_STATUS_master_conflict [] 0
  { t with tim := { t.tim with master := master, heard := Map.empty, conflict := none, held := false } }

/-- R41, R42, R45: a SYNC received at time `rx` of this part. One on the parent port that comes half an
interval late has been missed: good intervals are no longer consecutive (R49). -/
def State.takeSync (p : Nat) (c : Cricket) (rx : Nat) (s : State) : State :=
  let followed := s.rd R.TIM_STATUS_followed_gen []
  let d := dist 16 c.gen followed
  let none_ := s.tim.heard = Map.empty ∧ s.tst = Ts.unsync
  if ¬ none_ ∧ 32768 ≤ d then s
  else
    let s := if none_ ∨ d ≠ 0 then s.follow c.gen c.master else s
    let missed := decide (s.rd R.TIM_STATUS_parent_port [] = p) &&
      (s.tim.heard.get? [p]).any (fun h => decide (h.time + 24576 ≤ s.now))
    let good := if missed then 0 else s.tim.good
    let s : State := { s with tim := { s.tim with
      good := good, heard := s.tim.heard.set [p] { gen := c.gen, master := c.master, hop := c.hop, time := s.now } } }
    if s.tim.conflict.isSome then s
    else if c.master ≠ s.tim.master then
      let t := s.enterHoldover
      let t := (t.wr R.TIM_STATUS_master_conflict [] 1).event B.tim 2
      { t with tim := { t.tim with conflict := some (s.tim.master, c.master) } }
    else
      let s := s.chooseParent
      if s.tim.held ∧ s.rd R.TIM_STATUS_parent_port [] = p then
        s.offset ((rx : Int) - c.tx - signedOf 24 (s.rd R.TIM_PORT_DELAY_delay [p])) true
      else s

/-- R45. -/
def execSync (p : Nat) (c : Cricket) (rx : Nat) (s : State) : Host.Outcome State Fault Refusal :=
  clocked s (if c.ty = 1 ∧ ¬ s.isMaster then s.takeSync p c rx else s)

/-- R45: an answer to the outstanding exchange gives the link delay and an offset; any other is dropped and counted. One
of an older generation is ignored (R42). -/
def execDelayRsp (p : Nat) (c : Cricket) (rx : Nat) (s : State) : Host.Outcome State Fault Refusal :=
  clocked s (
    if ¬ s.isMaster ∧ 32768 ≤ dist 16 c.gen (s.rd R.TIM_STATUS_followed_gen []) then s
    else match s.tim.request with
    | some (q, seq, t1) =>
      if q = p ∧ seq = c.seq then
        let dbar : Int := (((rx : Int) - t1) - ((c.tx : Int) - c.rx)) / 2
        let asym := signedOf 16 (s.rd R.TIM_PORT_DELAY_asym [p])
        let s := s.wr R.TIM_PORT_DELAY_delay [p] (fieldOfInt 24 (dbar + asym))
        let s : State := { s with tim := { s.tim with request := none } }
        if s.isMaster then s else s.offset ((t1 : Int) + (dbar - asym) - c.rx) false
      else s.bump R.TIM_DROP_COUNT_count []
    | none => s.bump R.TIM_DROP_COUNT_count [])

/-- R44. -/
def execCricketReservedType (p : Nat) (c : Cricket) (s : State) : Host.Outcome State Fault Refusal :=
  clocked s (if c.ty = 1 ∨ c.ty = 2 ∨ c.ty = 3 then s else s.protoErr B.prt p)

/-! ### Losing and regaining time (R42, R49, R51) -/

/-- R49: four SYNC messages missed on the parent port. -/
def execSyncLoss (s : State) : Host.Outcome State Fault Refusal :=
  clocked s (
    let p := s.rd R.TIM_STATUS_parent_port []
    if ¬ s.isMaster ∧ s.tim.held ∧ (s.tim.heard.get {} [p]).time + fourIntervals ≤ s.now then
      let t := State.chooseParent { s with tim := { s.tim with heard := s.tim.heard.erase [p] } }
      if t.tim.held then t else t.enterHoldover
    else s)

/-- The last time a master identifier was heard on any port. -/
def State.lastHeard (s : State) (master : Nat) : Nat :=
  s.tim.heard.entries.foldl (fun a e => if e.2.master = master then max a e.2.time else a) 0

/-- R42: one of two conflicting masters has been silent for four intervals. -/
def execMasterWithdrawn (s : State) : Host.Outcome State Fault Refusal :=
  clocked s (
    let go (gone left_ : Nat) : State :=
      let t := s.wr R.TIM_STATUS_master_conflict [] 0
      State.chooseParent { t with tim := { t.tim with
        master := left_, conflict := none, heard := t.tim.heard.keep (fun _ h => h.master ≠ gone) } }
    match s.tim.conflict with
    | some (a, b) =>
      if s.lastHeard b + fourIntervals ≤ s.now then go b a
      else if s.lastHeard a + fourIntervals ≤ s.now then go a b
      else s
    | none => s)

/-- R49. -/
def execHoldLimitExpiry (s : State) : Host.Outcome State Fault Refusal :=
  clocked s (
    if s.tst = Ts.holdover ∧ ¬ s.tim.held ∧ s.rd R.TIM_HOLD_LIMIT_beats [] * 1024 ≤ s.now - s.tim.holdSince then
      s.setTst Ts.lost
    else s)

/-- R49: the master's selected input is absent. -/
def execRefLost (s : State) : Host.Outcome State Fault Refusal :=
  clocked s (
    if s.isMaster ∧ s.rd R.TIM_CTL_ref_sel [] ≠ 0 then (s.wr R.TIM_STATUS_ref_lost [] 1).event B.tim 1 else s)

/-- R49. -/
def execRefRestored (s : State) : Host.Outcome State Fault Refusal :=
  clocked s (s.wr R.TIM_STATUS_ref_lost [] 0)

/-! ### Captures and loads (R24, R52) -/

/-- R24. -/
def State.snapCapture (v : Nat) (s : State) : State :=
  if bitAt v 0 then s.started R.TIM_SNAP_capture [] (s.wr R.TIM_SNAP_FT_ft [] s.ftHub) else s

/-- R24. -/
def execSnapCapture (v : Nat) (s : State) : Host.Outcome State Fault Refusal :=
  clocked s (s.snapCapture v)

end Sys2Proof.Machine
end

