-- ==== Sys2Proof/Machine/PoolOps.lean ====
section
/-! DEFINITION. The pool and the tiers as the homes use them: extents and their slots, lease slots, notices, bytes of
memory with their poison, and the end of a request a home has taken (R111 to R122, R160 to R192, R202, R206, R207,
R423, R480). -/

namespace Sys2Proof.Machine

/-! ### Lease slots, share groups, notices (R166, R168, R189) -/

/-- The valid lease slot that names an endpoint, live or expired (R168). -/
def State.slotOf (s : State) (eid : Nat) : Option Nat :=
  ((s.listed R.POL_LEASE_valid).find? (fun k => s.rd R.POL_LEASE_eid k = eid)).map (·.headD 0)

/-- The lease slots of a share group (R166). -/
def State.sharers (s : State) (g : Nat) : List Nat :=
  ((s.listed R.POL_SHARE_valid).filter (fun k => decide (k.head? = some g))).map (fun k => s.rd R.POL_SHARE_slot k)

/-- A tenant that may get resources: ACTIVE, and tenant 0 always (R395). -/
def State.tenantActive (s : State) (t : Nat) : Bool := t = 0 || s.rd R.SEC_TENANT_state [t] = 1

/-- A POOL_NOTICE (R189), which the Marionette forms and sends on West. -/
def State.notice (kind eid node first last : Nat) (s : State) : State :=
  s.send 0 { chan := Ch.mgt, tc := 7, dst := eid, src := s.eid, ty := 0x64, mapGen := s.mapGen, len := 24,
             body := layout [(0, 0, 8, kind), (4, 0, 12, node), (8, 0, 18, first), (12, 0, 18, last),
                             (16, 0, 32, s.beat)] }

/-- The endpoints told of what befalls an extent: its holder and each sharer (R173, R186). -/
def State.holders (s : State) (x : Ext) : List Nat :=
  (x.owner :: (x.group.map s.sharers).getD []).map (fun k => s.rd R.POL_LEASE_eid [k])

def State.tellHolders (kind node e : Nat) (x : Ext) (s : State) : State :=
  (s.holders x).foldl (fun a eid => a.notice kind eid node e e) s

/-- Extents of a range (R164). -/
def rangeOf (first last : Nat) : List Nat := (List.range (last + 1 - first)).map (first + ·)

def State.setExt (node e : Nat) (x : Ext) (s : State) : State :=
  { s with pool := { s.pool with ext := if x = {} then s.pool.ext.erase [node, e] else s.pool.ext.set [node, e] x } }

/-- The binding that covers an extent of the own node: the lowest-numbered (R141). -/
def State.bindOf (s : State) (e : Nat) : Option Nat :=
  ((s.listed R.COH_BIND_valid).find? (fun k =>
    s.rd R.COH_BIND_first_extent k ≤ e ∧ e ≤ s.rd R.COH_BIND_last_extent k)).map (fun k => s.rd R.COH_BIND_domain k)

/-- Extents of a node that are in a state, or FREE where no record is listed. -/
def State.countExt (s : State) (node : Nat) (st : ExtState) : Nat :=
  if st = .free then
    s.extents node - s.pool.ext.count (fun k x => decide (k.head? = some node ∧ x.state ≠ .free))
  else s.pool.ext.count (fun k x => decide (k.head? = some node ∧ x.state = st))

/-! ### Slots (R160, R192, R207, R480) -/

def dieOfStack (u : Nat) : Nat := if u < 10 then 0 else 1

/-- Slots taken in a stack or a board channel, the destinations of moves among them (R480). -/
def State.taken (s : State) (board : Bool) (u : Nat) : List Nat :=
  ((((s.tier.loc.vals ++ s.tier.moves.vals.map (·.dst)).filter (fun l => decide (l.board = board ∧ l.unit = u)))).map
    (·.slot)).eraseDups

/-- The slots of a stack or a board channel (R160). -/
def State.capacity (s : State) (board : Bool) (u : Nat) : Nat := if board then s.rd R.BRD_CH_STATUS_slots [u] else 1152

/-- A stack or channel that placements may use (R207). -/
def State.unitReady (s : State) (board : Bool) (u : Nat) : Bool :=
  if board then s.rd R.BRD_CH_STATUS_state [u] = 2 else s.rd R.MEM_STACK_STATUS_state [u] = 1

def State.freeSlots (s : State) (board : Bool) (u : Nat) : Nat :=
  if s.unitReady board u then s.capacity board u - (s.taken board u).length else 0

/-- The stacks of a die, and the board channels. -/
def stacksOf (d : Nat) : List Nat := (List.range 10).map (· + 10 * d)

def State.stackFree (s : State) (d : Nat) : Nat := (stacksOf d).foldl (fun a u => a + s.freeSlots false u) 0

def State.boardFree (s : State) : Nat := (List.range 8).foldl (fun a u => a + s.freeSlots true u) 0

/-- Moves that touch a stack or a board module (R212). -/
def State.movesAt (s : State) (board : Bool) (u : Nat) : Nat :=
  s.tier.moves.count (fun _ m => decide (m.dst.board = board ∧ m.dst.unit = u) ||
    (match m.src with
     | some l => decide (l.board = board ∧ l.unit = u)
     | none => false))

/-- The lowest-numbered free slot of a stack or channel. -/
def State.lowestSlot (s : State) (board : Bool) (u : Nat) : Option Nat :=
  (List.range (s.capacity board u)).find? (fun i => ¬ (s.taken board u).contains i)

/-- The choice of R480 among stacks or channels; `move` passes over those at their move limit. -/
def State.pick (s : State) (board move : Bool) (units : List Nat) : Option Loc :=
  (argMax (s.freeSlots board) (units.filter (fun u => decide (0 < s.freeSlots board u) &&
    (¬ move || decide (s.movesAt board u < if board then 1 else 2))))).bind
    (fun u => (s.lowestSlot board u).map (fun i => { board := board, unit := u, slot := i }))

/-- Where a chunk of an extent of the own node resides (R212, R213); none while it reads as the zero source. -/
def State.chunkAt (s : State) (e k : Nat) : Option Loc :=
  match s.tier.moves.get? [e] with
  | some m => if bitAt m.copied k then some m.dst else m.src
  | none => s.tier.loc.get? [e]

/-- The tier an extent record shows: the source's until a move completes (R213). -/
def State.inBoard (s : State) (e : Nat) : Bool :=
  match s.tier.loc.get? [e] with
  | some l => l.board
  | none => false

/-- Which extents of the own node carry a board slot's key tag, when their state changes (R206). -/
def carriesTag (st : ExtState) : Bool := st = .held || st = .internal || st = .revoking || st = .scrub

/-- The key tag of an extent: its tenant, or 32 for an internal one (R205). -/
def tagOf (x : Ext) : Nat := if x.state = .internal then 32 else x.tenant

/-- Change the record of an extent of the own node, and the tag of its board slot with it (R206). -/
def State.setOwn (e : Nat) (x : Ext) (s : State) : State :=
  let t := s.setExt s.node e x
  match t.tier.loc.get? [e] with
  | some l =>
    if l.board ∧ ¬ carriesTag x.state then
      { t with tier := { t.tier with tags := t.tier.tags.erase [l.unit, l.slot] } }
    else t
  | none => t

/-- Forget the contents of an extent: its bytes read as zero, without poison or shadow-lost marks. -/
def State.zeroExtent (e : Nat) (s : State) : State :=
  { s with
      mem := Mem.clear s.mem (e * 2 ^ 26) (2 ^ 26),
      poison := s.poison.keep (fun k _ => decide (k.headD 0 / 2 ^ 19 ≠ e)),
      pool := { s.pool with shadowLost := s.pool.shadowLost.keep (fun k _ => decide (k.head? ≠ some e)) },
      coh := { s.coh with recs := s.coh.recs.keep (fun k _ => decide (k.headD 0 / 2 ^ 19 ≠ e)) } }

/-- The key tags without that of a slot, where it is one of the board (R206). -/
def State.untag (s : State) (l : Option Loc) : Map Nat :=
  match l with
  | some l => if l.board then s.tier.tags.erase [l.unit, l.slot] else s.tier.tags
  | none => s.tier.tags

/-- An extent of the own node gives up its slot, and any move of it ends (R207). -/
def State.freeSlotOf (e : Nat) (s : State) : State :=
  { s with tier := { s.tier with loc := s.tier.loc.erase [e], moves := s.tier.moves.erase [e], swaps := s.tier.swaps.erase [e],
                                 age := s.tier.age.erase [e], heat := s.tier.heat.erase [e],
                                 tags := s.untag (s.tier.loc.get? [e]) } }

/-- Slots leave service: that many of the highest-numbered FREE extents become ABSENT (R207). -/
def State.loseSlots (n : Nat) (s : State) : State :=
  (((List.range (s.extents s.node)).filter (fun e => decide ((s.ext s.node e).state = .free))).reverse.take n).foldl
    (fun a e => a.setOwn e { state := .absent }) s

/-- Slots return: the lowest-numbered ABSENT extents become FREE (R207). -/
def State.regainSlots (n : Nat) (s : State) : State :=
  (((List.range (s.extents s.node)).filter (fun e => decide ((s.ext s.node e).state = .absent))).take n).foldl
    (fun a e => a.setOwn e {}) s

/-! ### Requests and their limits (R114, R115, R118) -/

def widthOk (aop w : Nat) : Bool :=
  if aop = 9 then w = 4 ∨ w = 8 ∨ w = 16 else if aop ≤ 0xA then w = 4 ∨ w = 8 else false

end Sys2Proof.Machine

namespace Sys2Proof

open Sys2Proof.Machine

/-- Whether a request that carries a fabric address keeps to the limits of its type (R114, R115, R118, R148, R184). -/
def Msg.valid (m : Msg) : Bool :=
  match m.ty with
  | 0x10 => 1 ≤ m.rlen && m.rlen ≤ 4080 && m.addr % 4096 + m.rlen ≤ 4096 && m.len = 16
  | 0x11 => 1 ≤ m.rlen && m.rlen ≤ 65536 && m.addr % 65536 + m.rlen ≤ 65536 && m.len = 16 && !m.comb
  | 0x12 => 1 ≤ m.rlen && m.rlen ≤ 4080 && m.addr % 4096 + m.rlen ≤ 4096 && m.len = 16 + m.rlen && !m.comb
  | 0x13 => m.rlen = 128 && m.addr % 128 = 0 && m.len = 160 && !m.comb
  | 0x14 => widthOk m.aop m.rlen && m.addr % m.rlen = 0 && m.len = 16 + (if m.aop = 9 then 2 * m.rlen else m.rlen)
  | 0x40 | 0x41 | 0x42 => m.addr % 128 = 0 && m.len = 16
  | 0x62 => m.addr % 128 = 0 && m.len = 40 && m.f 16 0 32 = (m.f 12 0 32 + 1) % 2 ^ 32
  | _ => false

def isCoherent (ty : Nat) : Bool := ty = 0x40 || ty = 0x41 || ty = 0x42

/-- Reads, in the sense of R162 and R187. -/
def isRead (ty : Nat) : Bool := ty = 0x10 || ty = 0x11 || ty = 0x40 || ty = 0x41

/-- The bytes of memory a request addresses. -/
def Msg.span (m : Msg) : Nat := if isCoherent m.ty ∨ m.ty = 0x62 then 128 else m.rlen

/-- The lines of the own node a request touches. -/
def Msg.lines (m : Msg) : List Nat := linesOf (offsetOf m.addr) m.span

/-- Operands A and B of an atomic (R115). -/
def Msg.opA (m : Msg) : Nat := m.f 16 0 (8 * m.rlen)
def Msg.opB (m : Msg) : Nat := m.f (16 + m.rlen) 0 (8 * m.rlen)

end Sys2Proof

namespace Sys2Proof.Machine

/-- Two's complement order for the atomics. -/
def slt (w a b : Nat) : Bool := signedOf (8 * w) a < signedOf (8 * w) b

/-- What an atomic leaves at its target (R118, R119): operation, width, old value, operands A and B. -/
def atomicResult (aop w old a b : Nat) : Nat :=
  match aop with
  | 0x0 => (old + a) % 2 ^ (8 * w)
  | 0x1 => min old a
  | 0x2 => max old a
  | 0x3 => if slt w a old then a else old
  | 0x4 => if slt w old a then a else old
  | 0x5 => old &&& a
  | 0x6 => old ||| a
  | 0x7 => old ^^^ a
  | 0x8 => a
  | 0x9 => if old = b then a else old
  | _ => if w = 4 then fp32.add old a else fp64.add old a


/-! ### Memory at a home (R120, R192 to R194, R202) -/

/-- A line of the own node whose pseudo-channel has FAILED (R202). -/
def State.lineDead (s : State) (line : Nat) : Bool :=
  match s.chunkAt (line / 2 ^ 19) (line / 512 % 1024) with
  | some l => ¬ l.board && bitAt (s.rd R.MEM_STACK_STATUS_failed_pcs [l.unit]) (bitsOf (128 * line) 8 5)
  | none => false

def State.linePoisoned (s : State) (line : Nat) : Bool := s.poison.has [line]

def State.setPoison (line : Nat) (p : Bool) (s : State) : State :=
  { s with poison := if p then s.poison.set [line] () else s.poison.erase [line] }

/-- The bytes of a read: those of poisoned or failed lines are zeros (R120, R202). -/
def State.readBytes (s : State) (a n : Nat) : List Byte :=
  (List.range n).map (fun i => if s.linePoisoned ((a + i) / 128) || s.lineDead ((a + i) / 128) then 0 else Mem.read s.mem (a + i))

/-- Poison is cleared on each line that a write covers whole (R120). -/
def State.clearCovered (a n : Nat) (s : State) : State :=
  { s with poison := s.poison.keep (fun k _ => ¬ decide (a ≤ 128 * k.headD 0 ∧ 128 * k.headD 0 + 128 ≤ a + n)) }

def State.writeBytes (a : Nat) (b : List Byte) (s : State) : State :=
  State.clearCovered a b.length { s with mem := Mem.writeAll s.mem a b }

/-- The column-level request of a 32-byte unit of an extent in a stack slot (R192). -/
def colReq (l : Loc) (write free : Bool) (now byte : Nat) : ColReq :=
  { write := write, bank := bitsOf byte 15 6, row := l.slot * 32 + bitsOf byte 21 5,
    col := bitsOf byte 13 2 * 8 + bitsOf byte 5 3, since := now, free := free }

/-- Queue a column-level request at its pseudo-channel, which wakes (R193, R194, R196). -/
def State.pushCol (l : Loc) (write free : Bool) (byte : Nat) (s : State) : State :=
  let pc := bitsOf byte 8 5
  let q := s.tier.pcs.get {} [l.unit, pc]
  let r : ColReq := { colReq l write free s.now byte with seq := q.nextSeq }
  let q := { q with nextSeq := q.nextSeq + 1 }
  let hit := ¬ write ∧ q.writes.any (fun w => w.bank = r.bank ∧ w.row = r.row ∧ w.col = r.col)
  let s := if hit then s.bump R.MEM_CNT_count [l.unit, 4] else s
  let q := if write then { q with writes := q.writes ++ [r], lastUse := s.now }
           else { q with reads := q.reads ++ [r], lastUse := s.now }
  State.wr R.MEM_PC_STATUS_powered_down [l.unit, pc] 0 { s with tier := { s.tier with pcs := s.tier.pcs.set [l.unit, pc] q } }

/-- Queue the 32-byte units of an access to the own node. -/
def State.pushCols (write free : Bool) (a n : Nat) (s : State) : State :=
  if n = 0 then s
  else ((List.range ((a + n - 1) / 32 + 1 - a / 32)).map (a / 32 + ·)).foldl (fun t u =>
    match t.chunkAt (u / 2 ^ 21) (u / 2 ^ 11 % 1024) with
    | some l => if l.board then t else t.pushCol l write free (32 * u % 2 ^ 26)
    | none => t) s

/-- A board access is counted at its channel (BRD_CNT). -/
def State.countBoard (write : Bool) (a : Nat) (s : State) : State :=
  match s.chunkAt (a / 2 ^ 26) (a / 2 ^ 16 % 1024) with
  | some l => if l.board then s.bump R.BRD_CNT_count [l.unit, b2n write] else s
  | none => s

/-- A home serves a request to an extent: its age returns to 0, and a board extent gains heat (R208). -/
def State.serveExtent (e : Nat) (s : State) : State :=
  { s with tier := { s.tier with
      age := s.tier.age.erase [e],
      heat := if s.inBoard e then s.tier.heat.set [e] (min 255 (s.tier.heat.get 0 [e] + 1)) else s.tier.heat } }

/-- Requests of the tiers' engines and of the homes, with their access queued. -/
def State.access (write : Bool) (a n : Nat) (s : State) : State := (s.pushCols write false a n).countBoard write a

/-- A chunk of the board tier cannot be reached by its home die (R22). -/
def State.boardCut (s : State) (d e k : Nat) : Bool :=
  s.pkg.hubLost.has [d] && (match s.chunkAt e k with
    | some l => l.board
    | none => s.inBoard e)

/-- The data and the publisher that PUBLISH_ACK carries (R184). -/
def publishAck (version publisher : Nat) : Nat := version + publisher <<< 32

/-- Perform a request of a non-coherent type, or a publication, at its home (R119, R120, R184): its status, and the data
its response carries. `d` is the home die. -/
def State.perform (d : Nat) (m : Msg) (s : State) : Status × Option Nat × State :=
  let a := offsetOf m.addr
  let e := extentOf m.addr
  let dead := m.lines.any s.lineDead
  let bad := m.lines.any s.linePoisoned
  let s := s.serveExtent e
  if s.boardCut d e (bitsOf m.addr 16 10) then (.nodeLost, none, s)
  else
    match m.ty with
    | 0x10 | 0x11 =>
      (if dead ∨ bad then .poison else .ok, some (natOfBytes (s.readBytes a m.rlen)), s.access false a m.rlen)
    | 0x12 =>
      if dead then (.nodeLost, none, s)
      else (.ok, none, (s.access true a m.rlen).writeBytes a (m.bytes 16 m.rlen))
    | 0x13 =>
      if dead then (.nodeLost, none, s)
      else
        let mask := m.f 16 0 128
        let old := Mem.readN s.mem a 128
        let new := List.zipWith (fun i b => if bitAt mask i then (m.bytes 32 128).getD i 0 else b) (List.range 128) old
        let t := (s.access true a 128)
        (.ok, none, if mask = 2 ^ 128 - 1 then t.writeBytes a new else { t with mem := Mem.writeAll t.mem a new })
    | 0x14 =>
      if dead then (.nodeLost, none, s)
      else if bad then (.poison, if m.fetch then some 0 else none, s.access false a m.rlen)
      else
        let old := natOfBytes (Mem.readN s.mem a m.rlen)
        let t := (s.access false a m.rlen).access true a m.rlen
        (.ok, if m.fetch then some old else none,
          { t with mem := Mem.writeAll t.mem a (bytesOfNat m.rlen (atomicResult m.aop m.rlen old m.opA m.opB)) })
    | 0x62 =>
      if dead then (.nodeLost, none, s)
      else if bad then (.poison, none, s.access false a 128)
      else
        let version := natOfBytes (Mem.readN s.mem a 4)
        let t := s.access false a 128
        if version = m.f 12 0 32 then
          let desc := layout [(0, 0, 32, m.f 16 0 32), (4, 0, 16, m.src), (8, 0, 56, m.f 24 0 56), (16, 0, 32, m.f 20 0 32),
            (20, 0, 32, s.beatDie d), (24, 0, 64, m.f 32 0 64)]
          let t := (t.access true a 128).bump R.POL_CNT_count [d, 8]
          (.ok, some (publishAck (m.f 16 0 32) 0), { t with mem := Mem.writeAll t.mem a (bytesOfNat 128 desc) })
        else
          (.publishConflict, some (publishAck version (natOfBytes (Mem.readN s.mem (a + 4) 2))),
            (t.bump R.POL_CNT_count [d, 9]).event B.pol 4)
    | _ => (.unsupported, none, s)

/-! ### The end of a request at its home (R128, R136, R138, R423) -/

def State.homeAt (s : State) (d i : Nat) : Option Home := s.trk.home.get? [d, i]

def State.dropHome (d i : Nat) (s : State) : State := { s with trk := { s.trk with home := s.trk.home.erase [d, i] } }

/-- The load field of a response of die `d` (R138). -/
def State.loadOf (s : State) (d : Nat) : Nat := if s.on R.TRK_LOAD_withheld [d] then 0 else s.rd R.TRK_LOAD_load [d]

/-- The replies of a combined atomic, one after another (R136). -/
def memberReplies : List Msg → Nat → List (Msg × Option Nat)
  | [], _ => []
  | m :: t, v => (m, if m.fetch then some v else none) :: memberReplies t (atomicResult m.aop m.rlen v m.opA 0)

/-- The answers to the members of a combined request (R136, R137). -/
def memberAnswers (ms : List Msg) (st : Status) (data : Option Nat) : List (Msg × Option Nat) :=
  match data with
  | none => ms.map (fun m => (m, none))
  | some v => if st = .ok ∧ ms.any (fun m => m.ty = 0x14) then memberReplies ms v
              else ms.map (fun m => (m, if m.ty = 0x14 ∧ ¬ m.fetch then none else some v))

/-- Answer a request taken by a home, and retire its entry (R128, R136). -/
def State.finishHome (d i : Nat) (st : Status) (data : Option Nat) (s : State) : State :=
  match s.homeAt d i with
  | some h =>
    let l := s.loadOf d
    let s := s.dropHome d i
    if h.members = [] then s.answer d h.msg st l data
    else (memberAnswers h.members st data).foldl (fun a e => a.answer d e.1 st l e.2) s
  | none => s

/-! ### Shadowing (R420 to R423) -/

def State.isPrimary (s : State) : Bool := s.rd R.RAS_PUPPET_STATUS_state [] = 1
def State.isPuppet (s : State) : Bool := s.rd R.RAS_PUPPET_STATUS_state [] = 2

/-- Whether a chunk of the own node has been copied to the puppet. -/
def State.chunkCopied (s : State) (e k : Nat) : Bool := s.isPrimary && bitAt (s.pair.chunks.get 0 [e]) k

/-- Send one MG_SHADOW (R422): kind, chunk_end and copy bits, extent, byte offset, poison mask, beat and data. -/
def State.sendShadow (d kind : Nat) (ends copy : Bool) (e off poison beat : Nat) (data : List Byte) (rec : Sent)
    (s : State) : State :=
  let seq := s.pair.seq
  let body := mgHead seq 0 .ok s.eid 0 + layout [(16, 0, 8, kind), (16, 8, 1, b2n ends), (16, 9, 1, b2n copy),
    (20, 0, 18, e), (24, 0, 26, off), (28, 0, 13, if kind = 1 then data.length else 0), (32, 0, 32, poison),
    (36, 0, 32, beat)] + natOfBytes data <<< 384
  let m : Msg := { chan := Ch.req, tc := s.pair.tc, dst := s.pair.puppet, src := s.eid, ty := 0xBA, mapGen := s.mapGen,
                   ordered := true, len := 48 + data.length, flowSeq := s.pair.flowSeq, flow := s.pair.flow, body := body }
  let s := s.bump R.RAS_CNT_count [7]
  State.send d m { s with pair := { s.pair with seq := (seq + 1) % 2 ^ 32, flowSeq := (s.pair.flowSeq + 1) % 65536,
                                                sent := s.pair.sent.set [seq] rec } }

/-- Groups of at most 31 consecutive lines (R422). -/
def groups31 : Nat → List Nat → List (List Nat)
  | 0, _ => []
  | n + 1, l => if l = [] then [] else l.take 31 :: groups31 n (l.drop 31)

/-- Send lines of an extent as they stand, in as few messages as that takes; the last of a chunk copy says so. The
sequence numbers used come back. -/
def State.shadowLines (d e : Nat) (copy : Option Nat) (lines : List Nat) (s : State) : List Nat × State :=
  let gs := groups31 lines.length lines
  gs.foldl (fun (r : List Nat × State) g =>
    let ends := copy.isSome && decide (gs.getLast? = some g)
    let mask := (g.mapIdx (fun i l => b2n (r.2.linePoisoned l) <<< i)).foldl (· + ·) 0
    let data := (g.map (fun l => r.2.readBytes (128 * l) 128)).flatten
    (r.1 ++ [r.2.pair.seq], r.2.sendShadow d 1 ends copy.isSome e (128 * g.headD 0 % 2 ^ 26) mask 0 data
      { extent := e, ends := if ends then copy else none, since := r.2.now })) ([], s)

/-- Mirror a command of the pool to the puppet (R420, R422). -/
def State.mirror (op : Nat) (operands : List Byte) (s : State) : State :=
  if s.isPrimary then s.sendShadow 0 2 false false 0 0 0 0 (bytesOfNat 2 op ++ operands) { extent := 2 ^ 18, since := s.now } else s

/-- The operands of GRANT (R475). -/
def grantOps (slot node first last_ die : Nat) : List Byte :=
  bytesOfNat 13 (layout [(0, 0, 16, slot), (2, 0, 16, node), (4, 0, 32, first), (8, 0, 32, last_), (12, 0, 8, die)])

/-- Tell the puppet of one HELD extent as it stands: its grant, with the copy bit, which says that no chunk of it has been
copied; a bound one is lost with the primary (R420, R425). -/
def State.mirrorExtent (bound : Bool) (e : Nat) (s : State) : State :=
  let x := s.ext s.node e
  let send (op : Nat) (b : List Byte) (t : State) : State :=
    t.sendShadow 0 2 false true 0 0 0 0 (bytesOfNat 2 op ++ b) { extent := 2 ^ 18, since := t.now }
  let t := send 0x0102 (grantOps x.owner s.node e e x.die) s
  if bound then send 0x010C (bytesOfNat 12 (layout [(0, 0, 16, s.node), (4, 0, 32, e), (8, 0, 32, e)])) t else t

/-- Conclude a request at its home: a write to a copied chunk is shadowed first, and its response withheld (R423). -/
def State.conclude (d i : Nat) (st : Status) (data : Option Nat) (s : State) : State :=
  match s.homeAt d i with
  | some h =>
    let e := extentOf h.msg.addr
    if st = .ok ∧ ¬ isRead h.msg.ty ∧ ¬ isCoherent h.msg.ty ∧ nodeOf h.msg.addr = s.node ∧
        s.chunkCopied e (bitsOf h.msg.addr 16 10) then
      let r := s.shadowLines d e none h.msg.lines
      { r.2 with pair := { r.2.pair with withheld := r.2.pair.withheld ++
          [{ die := d, home := i, status := st, data := data, left := r.1 }] } }
    else s.finishHome d i st data
  | none => s

end Sys2Proof.Machine
end

