-- ==== Sys2Proof/Machine/Home.lean ====
section
/-! DEFINITION. The home agents: the combining table, the checks a request meets at its home, the limiters, the directory
and its snoops (R112 to R122, R134 to R138, R141 to R159, R162, R176, R180, R181, R212 to R214, R426, R428). -/

namespace Sys2Proof.Machine

/-! ### Agents of a domain (R140, R157, R158) -/

/-- The identifier of the agent in a member slot; none where the slot is not valid. -/
def State.agentAt (s : State) (dom a : Nat) : Option Nat :=
  if s.on R.COH_MEMBER_valid [dom, a] then
    some (if s.on R.COH_MEMBER_kind [dom, a] then clusterId (s.rd R.COH_MEMBER_cluster [dom, a])
          else s.rd R.COH_MEMBER_eid [dom, a])
  else none

/-- The slot of an agent in a domain. -/
def State.slotFor (s : State) (dom agent : Nat) : Option Nat :=
  ((s.listed R.COH_MEMBER_valid).find? (fun k => k.head? = some dom ∧ s.agentAt dom (k.getD 1 0) = some agent)).map
    (fun k => k.getD 1 0)

def State.isDead (s : State) (dom a : Nat) : Bool := s.coh.dead.has [dom, a]

/-- A slot that can be snooped (R140). -/
def State.slotLive (s : State) (dom a : Nat) : Bool := (s.agentAt dom a).isSome && ¬ s.isDead dom a

/-- The identifier another agent answers to: that of this part for one of its clusters. -/
def State.wireId (s : State) (agent : Nat) : Nat := if 65536 ≤ agent then s.eid else agent

def State.recOf (s : State) (line : Nat) : Rec := s.coh.recs.get .i [line]

def State.setRec (line : Nat) (r : Rec) (s : State) : State :=
  { s with coh := { s.coh with
      recs := if r = .i then s.coh.recs.erase [line] else s.coh.recs.set [line] r,
      broken := if r = .i then s.coh.broken.erase [line] else s.coh.broken } }

/-- The slots of a sharer vector. -/
def slotsIn (v : Nat) : List Nat := (List.range 32).filter (fun a => bitAt v a)

/-- The domain of the extent of a line of the own node. -/
def State.domOf (s : State) (line : Nat) : Option Nat := s.bindOf (line / 2 ^ 19)

/-- A line that reclaim poisons (R158). -/
def State.reclaimPoison (line : Nat) (s : State) : State :=
  ((s.setPoison line true).bump R.COH_CNT_count [(s.ext s.node (line / 2 ^ 19)).die, 7]).event B.coh 1

/-- Forwards of a line that are open (R152). -/
def State.forwards (s : State) (line : Nat) : List Snoop := s.coh.snoops.vals.filter (fun n => decide (n.line = line ∧ n.kind = 0x49))

/-- A line whose chain of forwards an agent's death has broken: poisoned at once, its record I once they have closed
(R158). -/
def State.breakChain (line : Nat) (s : State) : State :=
  if s.coh.broken.has [line] then s
  else
    let s := s.reclaimPoison line
    { s with coh := { s.coh with broken := s.coh.broken.set [line] () } }

/-- A forward has closed: the last of a broken chain leaves the record I (R158). -/
def State.settleChain (line : Nat) (s : State) : State :=
  if s.coh.broken.has [line] ∧ s.forwards line = [] then s.setRec line .i else s

/-- Reclaim a line's record from the slots that are dead or no longer valid (R158, R159). -/
def State.reclaimLine (dom line : Nat) (s : State) : State :=
  match s.recOf line with
  | .i => s
  | .s v =>
    let gone := (slotsIn v).filter (fun a => ¬ s.slotLive dom a)
    let v' := gone.foldl (fun x a => x - 2 ^ a) v
    State.bumpBy R.COH_CNT_count [(s.ext s.node (line / 2 ^ 19)).die, 6] gone.length
      (s.setRec line (if v' = 0 then .i else .s v'))
  | .x o =>
    if s.slotLive dom o then s
    else if (s.forwards line).any (fun n => ¬ n.crossed) then s.breakChain line
    else (if s.coh.broken.has [line] then s else s.reclaimPoison line).setRec line .i

/-- The directory cache: the sector of a line moves to the front of its slice (R146). -/
def State.lookup (d dom line : Nat) (s : State) : State :=
  let slices := (4 : Nat) ^ s.rd R.COH_CFG_slices [d]
  let k := [d, dom % slices]
  let l := s.coh.sectors.get [] k
  let sec := line / 8
  let hit := l.contains sec
  let s := s.bump R.COH_CNT_count [d, if hit then 3 else 4]
  { s with coh := { s.coh with sectors := s.coh.sectors.set k ((sec :: l.filter (· ≠ sec)).take (524288 / slices)) } }

/-! ### Grants and snoops (R147, R148) -/

/-- CDATA from the home (R148), and the request's entry retires. Grant 0 carries no data. -/
def State.grant (d i grant : Nat) (st : Status) (line : Nat) (s : State) : State :=
  match s.homeAt d i with
  | some h =>
    let data := if grant = 0 then 0 else natOfBytes (s.readBytes (128 * line) 128)
    let body := layout [(0, 0, 32, h.msg.tag), (4, 0, 2, grant), (4, 2, 1, b2n (grant ≠ 0))] + data <<< 128
    let s := if grant = 0 then s else (s.access false (128 * line) 128).serveExtent (line / 2 ^ 19)
    let l := s.loadOf d
    ((s.logCompletion d h.msg st).dropHome d i).send d
      (s.reply h.msg 0x50 (if grant = 0 then 16 else 144) body st l)
  | none => s

/-- CGNT_X (R148). -/
def State.grantUpgrade (d i : Nat) (s : State) : State :=
  match s.homeAt d i with
  | some h =>
    (s.dropHome d i).send d (s.reply h.msg 0x51 16 (layout [(0, 0, 32, h.msg.tag)]) .ok (s.loadOf d))
  | none => s

/-- Open a snoop to a slot and send it (R147, R148). -/
def State.snoop (d dom line a kind : Nat) (home : Option (Nat × Nat)) (req : Option (Msg × Nat)) (tc : Nat) (s : State) :
    State :=
  let tag := s.coh.nextTag
  let eid := (req.map (fun r => s.wireId r.1.src)).getD 0
  let rtag := (req.map (fun r => r.1.tag)).getD 0
  let sn : Snoop := { line := line, dom := dom, slot := a, kind := kind, home := home,
                      reqSlot := (req.map (·.2)).getD 0, since := s.now }
  let s := { s with coh := { s.coh with nextTag := (tag + 1) % 2 ^ 32, snoops := s.coh.snoops.set [tag] sn } }
  let s := s.bump R.COH_CNT_count [d, if kind = 0x48 ∨ kind = 0x49 then 1 else 2]
  s.send d { chan := Ch.snp, tc := tc, dst := (s.agentAt dom a).getD 0, src := s.eid, ty := kind, mapGen := s.mapGen,
             len := 24, body := layout [(0, 0, 56, s.node * 2 ^ 44 + 128 * line), (0, 56, 8, dom), (8, 0, 32, rtag),
               (12, 0, 16, eid), (16, 0, 32, tag)] }

def State.setBusy (line : Nat) (h : Nat × Nat) (s : State) : State :=
  { s with coh := { s.coh with busy := s.coh.busy.set [line] h } }

def State.clearBusy (line : Nat) (s : State) : State := { s with coh := { s.coh with busy := s.coh.busy.erase [line] } }

/-- A request waits for a line to stop being busy (R145). -/
def State.waitLine (line : Nat) (h : Nat × Nat) (s : State) : State :=
  { s with coh := { s.coh with wait := s.coh.wait.set [line] (s.coh.wait.get [] [line] ++ [h]) } }

/-! ### The directory stage (R152, R153) -/

/-- The coherent request of an agent in slot `a` on a line that is not busy (R152, R153, R156). -/
def State.coherentStep (d i dom line a : Nat) (m : Msg) (s : State) : State :=
  if s.linePoisoned line || s.lineDead line then s.grant d i 0 .poison line
  else
    match s.recOf line with
    | .i => (s.setRec line (.x a)).grant d i 2 .ok line
    | .s v =>
      if m.ty = 0x40 then (s.setRec line (.s (if bitAt v a then v else v + 2 ^ a))).grant d i 1 .ok line
      else
        let others := (slotsIn v).filter (· ≠ a)
        if others = [] then
          let s := s.setRec line (.x a)
          if m.ty = 0x42 ∧ bitAt v a then s.grantUpgrade d i else s.grant d i 2 .ok line
        else others.foldl (fun t o => t.snoop d dom line o 0x4A (some (d, i)) none m.tc) (s.setBusy line (d, i))
    | .x o =>
      if o = a then
        if m.ty = 0x42 then
          (((s.bump R.COH_CNT_count [d, 9]).event B.coh 3).contained d B.coh .unsupported line 0).grant d i 0 .unsupported line
        else s.setBusy line (d, i)
      else if m.ty = 0x40 then (s.setBusy line (d, i)).snoop d dom line o 0x48 (some (d, i)) (some (m, a)) m.tc
      else (s.setRec line (.x a)).snoop d dom line o 0x49 (some (d, i)) (some (m, a)) m.tc

/-- The lines a non-coherent request must first recall (R152); a dead owner's snoop is taken as answered (R140, R158). -/
def State.recalls (s : State) (m : Msg) : List Nat :=
  m.lines.filter (fun l => match s.recOf l with
    | .i => false
    | .s _ => ¬ isRead m.ty
    | .x o => ((s.domOf l).map (fun dom => s.slotLive dom o)).getD true)

/-- Recall a line for a non-coherent request (R152). -/
def State.recallLine (d i dom : Nat) (m : Msg) (line : Nat) (s : State) : State :=
  match s.recOf line with
  | .i => s
  | .s v => (slotsIn v).foldl (fun t o => t.snoop d dom line o 0x4A (some (d, i)) none m.tc) (s.setBusy line (d, i))
  | .x o => (s.setBusy line (d, i)).snoop d dom line o (if isRead m.ty then 0x4B else 0x4A) (some (d, i)) none m.tc

/-- Perform a request and conclude it. -/
def State.performHome (d i : Nat) (s : State) : State :=
  match s.homeAt d i with
  | some h =>
    let r := s.perform d h.msg
    r.2.2.conclude d i r.1 r.2.1
  | none => s

/-- The directory stage of a request (R145, R152, R159). -/
def State.atDirectory (d i : Nat) (s : State) : State :=
  match s.homeAt d i with
  | none => s
  | some h =>
    match s.bindOf (extentOf h.msg.addr) with
    | none => if isCoherent h.msg.ty then s.finishHome d i .protViolation none else s.performHome d i
    | some dom =>
      match h.msg.lines.find? (fun l => s.coh.busy.has [l]) with
      | some l => s.waitLine l (d, i)
      | none =>
        let s := h.msg.lines.foldl (fun t l => (t.lookup d dom l).reclaimLine dom l) s
        if isCoherent h.msg.ty then
          match s.slotFor dom h.msg.src, h.msg.lines.head? with
          | some a, some line => (s.bump R.COH_CNT_count [d, 0]).coherentStep d i dom line a h.msg
          | _, _ => s.finishHome d i .protViolation none
        else
          let rs := s.recalls h.msg
          if rs = [] then s.performHome d i
          else rs.foldl (fun t l => t.recallLine d i dom h.msg l) s

/-- The requests that waited for a line go on, in order of arrival (R145). -/
def State.wakeLine (line : Nat) (s : State) : State :=
  let l := s.coh.wait.get [] [line]
  l.foldl (fun t h => t.atDirectory h.1 h.2) { s with coh := { s.coh with wait := s.coh.wait.erase [line] } }

/-- Snoops that a home entry still waits for. -/
def State.openFor (s : State) (h : Nat × Nat) : Nat :=
  s.coh.snoops.count (fun _ n => decide (n.home = some h ∧ ¬ n.crossed))

/-- What follows when every snoop of a waiting request has been answered (R152). -/
def State.afterSnoops (h : Nat × Nat) (s : State) : State :=
  if s.openFor h ≠ 0 then s
  else
    let lines := (s.coh.busy.entries.filter (fun e => decide (e.2 = h))).map (fun e => e.1.headD 0)
    let s := lines.foldl (fun t l => t.clearBusy l) s
    let s :=
      match s.homeAt h.1 h.2, lines.head? with
      | some e, some line =>
        if isCoherent e.msg.ty then
          match (s.domOf line).bind (fun dom => s.slotFor dom e.msg.src) with
          | some a =>
            let held : Bool := match s.recOf line with
              | .s v => bitAt v a
              | _ => false
            if e.msg.ty = 0x40 then s.atDirectory h.1 h.2
            else if s.linePoisoned line then s.grant h.1 h.2 0 .poison line
            else if e.msg.ty = 0x42 ∧ held then (s.setRec line (.x a)).grantUpgrade h.1 h.2
            else (s.setRec line (.x a)).grant h.1 h.2 2 .ok line
          | none => s.finishHome h.1 h.2 .protViolation none
        else s.performHome h.1 h.2
      | some e, none => if isCoherent e.msg.ty then s else s.performHome h.1 h.2
      | none, _ => s
    lines.foldl (fun t l => t.wakeLine l) s

/-! ### Pseudo-channels, chunk locks and the order of a flow (R121, R199, R206, R212, R213) -/

/-- The pseudo-channel of a line that is out of service (R199). -/
def State.pcOut (s : State) (line : Nat) : Option (Nat × Nat) :=
  match s.chunkAt (line / 2 ^ 19) (line / 512 % 1024) with
  | some l =>
    let pc := bitsOf (128 * line) 8 5
    let st := s.rd R.MEM_PC_STATUS_state [l.unit, pc]
    if ¬ l.board ∧ (st = 1 ∨ st = 2) then some (l.unit, pc) else none
  | none => none

/-- A request that the locks let pass waits for its pseudo-channels, then goes to the directory. -/
def State.atStack (d i : Nat) (s : State) : State :=
  match s.homeAt d i with
  | none => s
  | some h =>
    match h.msg.lines.findSome? s.pcOut with
    | some (u, pc) =>
      let q := s.tier.pcs.get {} [u, pc]
      { s with tier := { s.tier with pcs := s.tier.pcs.set [u, pc] { q with wait := q.wait ++ [(d, i)] } } }
    | none => s.atDirectory d i

/-- R206, R213: a request to a locked chunk waits; a write to a chunk not yet filled has that chunk moved next. -/
def State.atLock (d i : Nat) (s : State) : State :=
  match s.homeAt d i with
  | none => s
  | some h =>
    let e := extentOf h.msg.addr
    let k := bitsOf h.msg.addr 16 10
    match s.tier.moves.get? [e] with
    | some mv =>
      let locked := decide (mv.lock.map (·.1) = some k)
      let unfilled := decide (mv.src = none) && ¬ bitAt mv.copied k && ¬ isRead h.msg.ty
      if locked ∨ unfilled then
        let mv := { mv with wait := mv.wait ++ [(d, i)], urgent := if unfilled ∧ ¬ locked then some k else mv.urgent }
        State.bump R.MEM_DIE_CNT_count [d, 5] { s with tier := { s.tier with moves := s.tier.moves.set [e] mv } }
      else s.atStack d i
    | none => s.atStack d i

/-- The sources and flows of a home entry, and whether another shares one (R121). -/
def Home.flows (h : Home) : List (Nat × Nat) := (h.msg :: h.members).map (fun m => (m.src, m.flow))

/-- A home entry whose request has been performed: only its answer is still withheld (R423). -/
def State.isPerformed (s : State) (d i : Nat) : Bool := s.pair.withheld.any (fun w => decide (w.die = d ∧ w.home = i))

/-- Something delivered earlier comes first: a request of the same source and flow that has not been performed, or one that
waits for its turn and touches a common line (R121, R135). -/
def State.behind (s : State) (d i : Nat) (h : Home) : Bool :=
  s.trk.home.entries.any (fun e => decide (e.1.head? = some d ∧ e.1.getD 1 0 < i ∧ nodeOf e.2.msg.addr = s.node) &&
    ! s.isPerformed d (e.1.getD 1 0) &&
    (e.2.flows.any (fun f => h.flows.contains f) ||
     (s.trk.flowWait.contains (d, e.1.getD 1 0) && e.2.msg.lines.any (fun l => h.msg.lines.contains l))))

/-- R121: requests of one source and flow are performed in the order in which they were delivered. -/
def State.inOrder (d i : Nat) (s : State) : State :=
  match s.homeAt d i with
  | none => s
  | some h =>
    if s.behind d i h then { s with trk := { s.trk with flowWait := s.trk.flowWait ++ [(d, i)] } } else s.atLock d i

/-- A waiting request whose turn has come (R121). -/
def State.nextInOrder (s : State) : Option (Nat × Nat) :=
  s.trk.flowWait.find? (fun w => match s.homeAt w.1 w.2 with
    | some h => ! s.behind w.1 w.2 h
    | none => true)

/-- The requests whose turn has come go on (R121). -/
def State.advance : Nat → State → State
  | 0, s => s
  | n + 1, s =>
    match s.nextInOrder with
    | none => s
    | some w =>
      State.advance n (State.atLock w.1 w.2 { s with trk := { s.trk with flowWait := s.trk.flowWait.filter (· ≠ w) } })

def State.turns (s : State) : State := s.advance s.trk.flowWait.length

/-! ### Answers to snoops (R152, R155, R158) -/

def State.closeSnoop (tag : Nat) (s : State) : State := { s with coh := { s.coh with snoops := s.coh.snoops.erase [tag] } }

/-- Write the dirty data of an answer or a writeback (R152). -/
def State.writeBack (line : Nat) (data : Nat) (s : State) : State :=
  (s.access true (128 * line) 128).writeBytes (128 * line) (bytesOfNat 128 data)

/-- The forward's requester is refused with POISON, and the line poisoned (R155, R158). -/
def State.failForward (tag : Nat) (sn : Snoop) (s : State) : State :=
  let s := (s.closeSnoop tag).breakChain sn.line
  let s := match sn.home with
    | some h => s.grant h.1 h.2 0 .poison sn.line
    | none => s
  s.settleChain sn.line

/-- Take a slot off a line's record. -/
def State.dropSlot (line a : Nat) (s : State) : State :=
  match s.recOf line with
  | .s v => s.setRec line (if bitAt v a then (if v = 2 ^ a then .i else .s (v - 2 ^ a)) else .s v)
  | .x o => if o = a then s.setRec line .i else s
  | .i => s

/-- A snoop is answered: `held` says that its agent held the line, `lost` that the line's data is lost with it (R152, R155,
R158). -/
def State.answered (tag : Nat) (sn : Snoop) (held lost : Bool) (s : State) : State :=
  match sn.kind with
  | 0x48 =>
    if lost then
      let s := (s.failForward tag sn).clearBusy sn.line
      s.wakeLine sn.line
    else
      let s := (s.closeSnoop tag).setRec sn.line (.s (2 ^ sn.reqSlot + if held ∧ sn.slot ≠ sn.reqSlot then 2 ^ sn.slot else 0))
      let s := match sn.home with
        | some h => s.dropHome h.1 h.2
        | none => s
      (s.clearBusy sn.line).wakeLine sn.line
  | 0x49 =>
    if lost then s.failForward tag sn
    else
      let s := (s.closeSnoop tag).settleChain sn.line
      match sn.home with
      | some h => s.dropHome h.1 h.2
      | none => s
  | 0x4B =>
    let s := s.closeSnoop tag
    let s := if lost then (s.reclaimPoison sn.line).setRec sn.line .i
             else s.setRec sn.line (if held then .s (2 ^ sn.slot) else .i)
    match sn.home with
    | some h => s.afterSnoops h
    | none => s
  | _ =>
    let s := s.closeSnoop tag
    let s := if lost then s.reclaimPoison sn.line else s
    let keep := match sn.home.bind (fun h => s.homeAt h.1 h.2) with
      | some e => decide (e.msg.ty = 0x42) && decide ((s.domOf sn.line).bind (fun dom => s.slotFor dom e.msg.src) = some sn.slot)
      | none => false
    let s := if keep then s else s.dropSlot sn.line sn.slot
    match sn.home with
    | some h => s.afterSnoops h
    | none => s

/-- Whether the snooped slot is the owner the record or the forward names. -/
def State.wasOwner (s : State) (sn : Snoop) : Bool :=
  sn.kind = 0x48 || sn.kind = 0x49 || sn.kind = 0x4B || decide (s.recOf sn.line = .x sn.slot)

/-- A protocol error of coherence (R155, COH_CNT[d][9]). -/
def State.cohError (d line : Nat) (s : State) : State :=
  ((s.bump R.COH_CNT_count [d, 9]).event B.coh 3).contained d B.coh .ok line 0

/-- R155: a writeback of a slot whose snoop is open is its answer. -/
def State.crossing (tag : Nat) (sn : Snoop) (s : State) : State :=
  let s : State := { s with coh := { s.coh with snoops := s.coh.snoops.set [tag] { sn with crossed := true } } }
  match sn.kind, sn.home with
  | 0x49, some h => s.grant h.1 h.2 2 .ok sn.line
  | 0x48, some h =>
    (((s.setRec sn.line (.s (2 ^ sn.reqSlot))).grant h.1 h.2 1 .ok sn.line).clearBusy sn.line).wakeLine sn.line
  | 0x4B, some h => (s.setRec sn.line .i).afterSnoops h
  | _, some h => (s.dropSlot sn.line sn.slot).afterSnoops h
  | _, none => s.dropSlot sn.line sn.slot

/-- The open snoop to a slot for a line, not yet crossed. -/
def State.openSnoop (s : State) (line dom a : Nat) : Option (Nat × Snoop) :=
  (s.coh.snoops.entries.find? (fun e => decide (e.2.line = line ∧ e.2.dom = dom ∧ e.2.slot = a ∧ ¬ e.2.crossed))).map
    (fun e => (e.1.headD 0, e.2))

/-- The lines of an extent that a domain holds. -/
def State.heldLines (s : State) (e : Nat) : List Nat :=
  (s.coh.recs.keys.map (·.headD 0)).filter (fun l => decide (l / 2 ^ 19 = e))

/-- Recall a line: SNP_INV to every holder (R142). -/
def State.recall (line : Nat) (s : State) : State :=
  match s.domOf line with
  | none => s
  | some dom =>
    let d := (s.ext s.node (line / 2 ^ 19)).die
    let s := s.reclaimLine dom line
    if s.coh.busy.has [line] ∨ s.coh.snoops.entries.any (fun e => decide (e.2.line = line ∧ ¬ e.2.crossed)) then s
    else
      match s.recOf line with
      | .i => s
      | .s v => (slotsIn v).foldl (fun t a => t.snoop d dom line a 0x4A none none 0) s
      | .x o => s.snoop d dom line o 0x4A none none 0

def State.recallExtent (e : Nat) (s : State) : State := (s.heldLines e).foldl (fun t l => t.recall l) s

/-- Lines still held of the extents that are being unbound or revoked are recalled, those granted to requests that were
waiting among them (R142, R172). -/
def State.recallRest (s : State) : State :=
  let unbound := s.coh.unbinding.keys.flatMap (fun k => rangeOf (s.rd R.COH_BIND_first_extent k) (s.rd R.COH_BIND_last_extent k))
  let revoked := (s.pool.revs.vals.filter (fun r => decide (r.node = s.node) && !r.drained)).flatMap (fun r =>
    r.extents.filter (fun e => decide ((s.ext s.node e).state = .revoking) && (s.bindOf e).isSome))
  (unbound ++ revoked).foldl (fun t e => t.recallExtent e) s

/-- Nothing of an extent is held or snooped. -/
def State.recalled (s : State) (e : Nat) : Bool :=
  s.heldLines e = [] && ! s.coh.snoops.entries.any (fun x => decide (x.2.line / 2 ^ 19 = e ∧ ¬ x.2.crossed))

/-- Write a binding entry's image (COH_BIND). At a primary the extents it binds are no longer shadowed, and those it frees
are shadowed from their first chunk (R420). -/
def State.putBind (i v : Nat) (s : State) : State :=
  let was := (s.pool.ext.keys.filter (fun k => decide (k.head? = some s.node))).map (fun k => (k.getD 1 0, (s.bindOf (k.getD 1 0)).isSome))
  let t := (((s.wr R.COH_BIND_valid [i] (bitsOf v 0 1)).wr R.COH_BIND_domain [i] (bitsOf v 8 8)).wr
    R.COH_BIND_first_extent [i] (bitsOf v 16 18)).wr R.COH_BIND_last_extent [i] (bitsOf v 34 18)
  if ¬ s.isPrimary then t
  else was.foldl (fun u e =>
    let now_ := (u.bindOf e.1).isSome
    if now_ = e.2 ∨ (u.ext u.node e.1).state ≠ .held then u
    else if now_ then
      State.mirrorExtent true e.1 { u with pair := { u.pair with chunks := u.pair.chunks.erase [e.1] } }
    else State.mirrorExtent false e.1 { u with pair := { u.pair with chunks := u.pair.chunks.set [e.1] 0 } }) t

/-- A binding whose lines have all come home is removed or replaced, and its command completes (R142). -/
def State.settleBindings (s : State) : State :=
  let s := s.turns.recallRest
  s.coh.unbinding.entries.foldl (fun t e =>
    let i := e.1.headD 0
    if (rangeOf (t.rd R.COH_BIND_first_extent [i]) (t.rd R.COH_BIND_last_extent [i])).all t.recalled then
      State.tell e.2.2 0x0301 .ok (t.putBind i e.2.1 |> fun u =>
        { u with coh := { u.coh with unbinding := u.coh.unbinding.erase [i] } })
    else t) s

/-- A message of an agent to the home, read from the input of the die. A dead agent's is discarded (R158). -/
def State.fromAgent (d dom : Nat) (m : Msg) (k : Nat → State → State) (s : State) : State :=
  let s := s.consume d m
  match s.slotFor dom m.src with
  | some a => if s.isDead dom a then s.bump R.COH_CNT_count [d, 10] else (k a s).settleBindings
  | none => s.bump R.COH_CNT_count [d, 10]

/-- R152, R155. A recorded owner that has no copy breaks the protocol, but not where it was itself answered with POISON
(R158). -/
def execSnpRsp (d : Nat) (m : Msg) (s : State) : Host.Outcome State Fault Refusal :=
  serving s (
    if m.ty ≠ 0x52 then s
    else
      let tag := m.f 0 0 32
      let result := m.f 4 0 2
      match s.coh.snoops.get? [tag] with
      | none => (s.consume d m).cohError d 0
      | some sn =>
        s.fromAgent d sn.dom m (fun a t =>
          if a ≠ sn.slot then t.cohError d sn.line
          else if sn.crossed then ((t.closeSnoop tag).settleChain sn.line).bump R.COH_CNT_count [d, 5]
          else
            let t := if m.f 4 2 1 = 1 then t.writeBack sn.line (m.body >>> 128) else t
            if result = 0 ∧ t.wasOwner sn then (if t.coh.broken.has [sn.line] then t else t.cohError d sn.line).answered tag sn false true
            else t.answered tag sn (result = 2) false))

/-- A writeback (R152, R155, R156). -/
def State.writebackArrives (d : Nat) (dirty : Bool) (m : Msg) (s : State) : State :=
  let dom := m.f 0 56 8
  let line := offsetOf m.addr / 128
  s.fromAgent d dom m (fun a t =>
    match t.openSnoop line dom a with
    | some (tag, sn) => (if dirty then t.writeBack line (m.body >>> 128) else t).crossing tag sn
    | none =>
      if t.recOf line = .x a then
        let t := (if dirty then t.writeBack line (m.body >>> 128) else t).setRec line .i
        match t.coh.busy.get? [line] with
        | some h => ((t.clearBusy line).atDirectory h.1 h.2).wakeLine line
        | none => t
      else t.cohError d line)

/-- R152, R155. -/
def execCwbDirty (d : Nat) (m : Msg) (s : State) : Host.Outcome State Fault Refusal :=
  serving s (if m.ty = 0x53 then s.writebackArrives d true m else s)

/-- R152, R155. -/
def execCwbClean (d : Nat) (m : Msg) (s : State) : Host.Outcome State Fault Refusal :=
  serving s (if m.ty = 0x54 then s.writebackArrives d false m else s)

/-! ### The lender's egress (R128, R130, R176) -/

/-- The lend entry, port and identifier of a lent node. -/
def State.lenderOf (s : State) (node : Nat) : Option (Nat × Nat × Nat) :=
  (s.lendOf node).map (fun k => (k, s.rd R.POL_LEND_port [k], s.rd R.POL_LEND_eid [k]))

/-- The bits [31:28] that mark the tag of a combined request sent to a lender (model's choice; R129 leaves them 0 in the
tags of the part's own agents). -/
def fwdTag (i : Nat) : Nat := 2 ^ 28 + i % 2 ^ 28

/-- R176: a request for a lent node is sent on through the lending port, and holds a forwarded entry; with the forwarded
class full it waits (R128). -/
def State.forward (d i : Nat) (s : State) : State :=
  match s.homeAt d i with
  | none => s
  | some h =>
    match s.lenderOf (nodeOf h.msg.addr) with
    | none => s.finishHome d i .nodeLost none
    | some (_, p, eid) =>
      if ¬ s.isUp p then s.finishHome d i .nodeLost none
      else if s.rd R.TRK_SPLIT_fwd [d] ≤ s.trk.fwd.count (fun k _ => decide (k.head? = some d)) then
        { s with trk := { s.trk with fwdWait := s.trk.fwdWait.set [d] (s.trk.fwdWait.get [] [d] ++ [i]) } }
      else
        let n := s.trk.nextFwd
        let m : Msg := { h.msg with dst := eid }
        let m : Msg := if h.members = [] then m else
          { m with src := s.eid, body := reqBody m.addr (fwdTag n) m.rlen false m.aop m.fetch (m.body >>> 128) }
        let s := (s.dropHome d i).bump R.TRK_CNT_count [d, 2]
        let f : Fwd := { msg := m, members := h.members, port := p, since := s.now, remaining := m.rlen }
        let s : State := { s with
          trk := { s.trk with nextFwd := n + 1, fwd := s.trk.fwd.set [d, n] f },
          sw := { s.sw with nextId := s.sw.nextId + 1 } }
        (s.takeAgentCells d m.tenant m.flits).toOutput p true
          { msg := m, id := s.sw.nextId - 1, die := d, have_ := m.flits, total := m.flits, time := s.now }

/-- A forwarded entry retires, and the requests that waited for one go on (R128, R130). -/
def State.dropFwd (d n : Nat) (s : State) : State :=
  let l := s.trk.fwdWait.get [] [d]
  l.foldl (fun t i => t.forward d i)
    { s with trk := { s.trk with fwd := s.trk.fwd.erase [d, n], fwdWait := s.trk.fwdWait.erase [d] } }

/-- Past the limiters. -/
def State.afterLimit (d i : Nat) (s : State) : State :=
  match s.homeAt d i with
  | none => s
  | some h => if nodeOf h.msg.addr = s.node then s.inOrder d i else s.forward d i

/-! ### Limiters (R180, R181) -/

/-- The charge of a request in bytes (R180). -/
def charge (m : Msg) : Nat :=
  if m.ty = 0x10 ∨ m.ty = 0x11 ∨ m.ty = 0x12 then m.rlen else if m.ty = 0x14 ∨ m.ty = 0x62 then 64 else 128

/-- The buckets of a request, with their rates: the slot that names its source, and its tenant (R180). -/
def State.buckets (s : State) (d : Nat) (m : Msg) : List (Key × Nat) :=
  ((s.slotOf m.src).map (fun k => ([d, 0, k], s.rd R.POL_LIMIT_rate [d, k]))).toList ++
    [([d, 1, m.tenant], s.rd R.POL_TENANT_LIMIT_rate [m.tenant, d])]

/-- The tokens a bucket holds, in tenths of a byte; full where none are listed (R180). -/
def State.tokens (s : State) (k : Key) : Int :=
  s.pool.tokens.get
    (10240 * (match k with
      | [d, 0, i] => s.rd R.POL_LIMIT_burst [d, i]
      | [d, _, t] => s.rd R.POL_TENANT_LIMIT_burst [t, d]
      | _ => 0) : Nat) k

/-- Every bucket a request needs holds tokens; a rate of 0 is no limit. -/
def State.bucketsOpen (s : State) (d : Nat) (m : Msg) : Bool :=
  (s.buckets d m).all (fun b => b.2 = 0 || decide (0 < s.tokens b.1))

def State.chargeAll (d : Nat) (m : Msg) (s : State) : State :=
  (s.buckets d m).foldl (fun t b =>
    if b.2 = 0 then t else { t with pool := { t.pool with tokens := t.pool.tokens.set b.1 (t.tokens b.1 - 10 * charge m) } }) s

/-- The limiter queue of a request (R181). -/
def State.limitKey (s : State) (d : Nat) (m : Msg) : Key :=
  match s.slotOf m.src with
  | some k => [d, 0, k]
  | none => [d, 1, m.tenant]

/-- Whether a request comes from one of the part's own agents (R162, R180). -/
def State.ownUnit (s : State) (m : Msg) : Bool := m.src = s.eid || 65536 ≤ m.src

/-- R180, R181. -/
def State.atLimit (d i : Nat) (s : State) : State :=
  match s.homeAt d i with
  | none => s
  | some h =>
    let m := h.msg
    if s.ownUnit m ∨ (s.ext (nodeOf m.addr) (extentOf m.addr)).state = .internal then s.afterLimit d i
    else
      let k := s.limitKey d m
      let q := s.pool.limitQ.get [] k
      if q = [] ∧ s.bucketsOpen d m then (s.chargeAll d m).afterLimit d i
      else if s.rd R.POL_CFG_limit_queue [] ≤ q.length then
        ((s.bump R.POL_CNT_count [d, 7]).event B.pol 5).finishHome d i .quota none
      else
        State.bump R.POL_CNT_count [d, 6] { s with pool := { s.pool with
          limitQ := s.pool.limitQ.set k (q ++ [{ order := s.pool.nextOrder, home := i }]), nextOrder := s.pool.nextOrder + 1 } }

/-! ### What a home checks first (R112, R141, R157, R158, R162, R426, R428) -/

/-- A read of a type that carries data completes with zeros where the manual says so. -/
def State.refuseHome (d i : Nat) (m : Msg) (st : Status) (s : State) : State := s.finishHome d i st (zeroData m st)

/-- The binding of an extent is being removed: its lines are recalled, and no more are granted (R142). -/
def State.unbindingAt (s : State) (e : Nat) : Bool :=
  s.coh.unbinding.keys.any (fun k => decide (s.rd R.COH_BIND_first_extent k ≤ e ∧ e ≤ s.rd R.COH_BIND_last_extent k))

/-- The checks of a coherent request (R141, R158): none where it may go on. -/
def State.coherentRefusal (s : State) (m : Msg) : Option Status :=
  if ¬ isCoherent m.ty then none
  else
    match s.bindOf (extentOf m.addr) with
    | none => some .protViolation
    | some dom =>
      if dom ≠ m.f 0 56 8 ∨ s.unbindingAt (extentOf m.addr) then some .protViolation
      else
        match s.slotFor dom m.src with
        | none => some .protViolation
        | some a => if s.isDead dom a then some .protViolation else none

/-- A chunk that promotion left without its data (R426). -/
def State.chunkShadowLost (s : State) (m : Msg) : Bool :=
  s.pool.shadowLost.has [extentOf m.addr, bitsOf m.addr 16 10]

/-- A request of a served extent, before the limiters (R426). -/
def State.served (d i : Nat) (m : Msg) (s : State) : State :=
  if nodeOf m.addr = s.node then
    match s.coherentRefusal m with
    | some st => s.finishHome d i st none
    | none =>
      if s.chunkShadowLost m then s.refuseHome d i m (if isRead m.ty then .poison else .shadowIncomplete)
      else s.atLimit d i
  else if isCoherent m.ty ∨ m.ty = 0x62 then s.finishHome d i .unsupported none
  else s.atLimit d i

/-- The state of the extent decides (R162). -/
def State.atExtent (d i : Nat) (m : Msg) (s : State) : State :=
  let e := extentOf m.addr
  let shadow := s.isPuppet && nodeOf m.addr = s.node && s.pair.chunks.has [e]
  match if shadow then ExtState.free else (s.ext (nodeOf m.addr) e).state with
  | .absent => s.finishHome d i .nodeLost none
  | .free => s.finishHome d i .protViolation none
  | .held => s.served d i m
  | .revoking | .scrub | .quarantine => (s.bump R.POL_CNT_count [d, 4]).finishHome d i .revoked none
  | .lost => s.refuseHome d i m (lostStatus m.ty)
  | .internal => if s.ownUnit m then s.served d i m else s.finishHome d i .protViolation none

/-- A request just taken (R112, R114, R428). -/
def State.atHome (d i : Nat) (s : State) : State :=
  match s.homeAt d i with
  | none => s
  | some h =>
    let m := h.msg
    if ¬ m.valid then s.finishHome d i .unsupported none
    else if nodeOf m.addr = s.node then
      if s.pair.switched then s.finishHome d i .staleMap none else s.atExtent d i m
    else if (s.lendOf (nodeOf m.addr)).isSome then s.atExtent d i m
    else if s.isPuppet ∧ nodeOf m.addr = s.pair.node then
      { s with pair := { s.pair with holding := s.pair.holding ++ [(d, i)] } }
    else (s.bump R.TRK_CNT_count [d, 11]).finishHome d i .nodeLost none

/-! ### The combining table and the home class (R128, R134, R135) -/

def State.homeLive (s : State) (d : Nat) : Nat := s.trk.home.count (fun k _ => decide (k.head? = some d))

/-- The home class has room for `n` more (R128). -/
def State.homeRoom (s : State) (d n : Nat) : Bool := s.homeLive d + n ≤ s.rd R.TRK_SPLIT_home [d]

/-- A request takes a home entry and meets the checks. -/
def State.take (d : Nat) (m : Msg) (members : List Msg) (s : State) : State :=
  let i := s.trk.nextHome
  State.atHome d i (State.bump R.TRK_CNT_count [d, 0] { s with trk := { s.trk with
    nextHome := i + 1, home := s.trk.home.set [d, i] { msg := m, since := s.now, members := members } } })

/-- Whether a request may combine (R134). -/
def State.combinable (s : State) (d : Nat) (m : Msg) : Bool :=
  s.on R.TRK_COMB_CFG_enable [d] && m.comb && m.valid && (m.ty = 0x10 || (m.ty = 0x14 && m.aop ≤ 7)) &&
  ¬ (m.ty = 0x10 && nodeOf m.addr = s.node && m.lines.any (fun l => s.recOf l ≠ .i))

/-- Whether two requests are combinable with each other (R134). -/
def sameWork (cross : Bool) (a b : Msg) : Bool :=
  a.ty = b.ty && a.addr = b.addr && a.rlen = b.rlen && a.aop = b.aop && (cross || a.tenant = b.tenant)

/-- The combined request of a closing entry (R135). -/
def combined : List Msg → Option Msg
  | [] => none
  | [m] => some m
  | m :: t =>
    if m.ty = 0x14 then
      let fold := t.foldl (fun a x => atomicResult m.aop m.rlen a x.opA 0) m.opA
      some { m with body := reqBody m.addr m.tag m.rlen true m.aop true fold }
    else some m

/-- An OPEN entry closes and is issued as one request (R135). -/
def State.closeComb (d i : Nat) (s : State) : State :=
  match s.trk.comb.get? [d, i] with
  | none => s
  | some c =>
    let s : State := { s with trk := { s.trk with comb := s.trk.comb.erase [d, i] } }
    match combined c.members with
    | none => s
    | some m => (s.bump R.TRK_CNT_count [d, 8]).take d m (if c.members.length = 1 then [] else c.members)

/-- The OPEN entries of a die that touch a line of a request. -/
def State.openComb (s : State) (d : Nat) (m : Msg) : List Nat :=
  (s.trk.comb.entries.filter (fun e => decide (e.1.head? = some d) &&
    (match e.2.members.head? with
     | some x => decide (nodeOf x.addr = nodeOf m.addr) && x.lines.any (fun l => m.lines.contains l)
     | none => false))).map (fun e => e.1.getD 1 0)

/-- The combining table, in order of arrival, then the home agent (R134, R135). -/
def State.combine (d : Nat) (m : Msg) (s : State) : State :=
  let ok := s.combinable d m
  let cross := s.on R.TRK_COMB_CFG_cross_tenant [d] && ¬ s.on R.SEC_ISO_active []
  let hit := if ok then (s.openComb d m).find? (fun i => match s.trk.comb.get? [d, i] with
      | some c => (c.members.head?.map (sameWork cross m)).getD false
      | none => false) else none
  match hit.bind (fun i => (s.trk.comb.get? [d, i]).map (fun c => (i, c))) with
  | some (i, c) =>
    let c' : Comb := { c with members := c.members ++ [m] }
    let s := State.bump R.TRK_CNT_count [d, 7] { s with trk := { s.trk with comb := s.trk.comb.set [d, i] c' } }
    if s.rd R.TRK_COMB_CFG_max_members [d] ≤ c.members.length + 1 then s.closeComb d i else s
  | none =>
    let s := (s.openComb d m).foldl (fun t i => t.closeComb d i) s
    if ok then
      if 65536 ≤ s.trk.comb.count (fun k _ => decide (k.head? = some d)) then
        ((s.bump R.TRK_CNT_count [d, 9]).event B.trk 3).take d m []
      else { s with trk := { s.trk with nextComb := s.trk.nextComb + 1,
                                        comb := s.trk.comb.set [d, s.trk.nextComb] { members := [m], since := s.now } } }
    else s.take d m []

/-- The cluster an on-die request comes from has it outstanding from now on (R151). -/
def State.noteWant (m : Msg) (s : State) : State :=
  if 65536 ≤ m.src ∧ isCoherent m.ty then
    let w : Want := { tag := m.tag, ty := m.ty }
    { s with coh := { s.coh with want := s.coh.want.set [m.src - 65536, offsetOf m.addr / 128] w } }
  else s

/-- The home agent of a die takes a request from its input (R128). After a change of home die the old one passes it on
(R214). With the home class full nothing is taken. -/
def State.arrive (d : Nat) (m : Msg) (s : State) : State :=
  let h := s.homeDie m.addr
  if ¬ s.homeRoom h (1 + (s.openComb h m).length) then s.event B.trk 4
  else
    let s := (s.consume d m).noteWant m
    (if h = d then s else s.bump R.MEM_DIE_CNT_count [d, 6]).combine h m

/-! ### The rows of a home -/

/-- R119, R120. -/
def execRd (d : Nat) (m : Msg) (s : State) : Host.Outcome State Fault Refusal :=
  serving s (if m.ty = 0x10 then s.arrive d m else s)

/-- R117. -/
def execRdm (d : Nat) (m : Msg) (s : State) : Host.Outcome State Fault Refusal :=
  serving s (if m.ty = 0x11 then s.arrive d m else s)

/-- R120, R122. -/
def execWr (d : Nat) (m : Msg) (s : State) : Host.Outcome State Fault Refusal :=
  serving s (if m.ty = 0x12 then s.arrive d m else s)

/-- R120, R122. -/
def execWrMask (d : Nat) (m : Msg) (s : State) : Host.Outcome State Fault Refusal :=
  serving s (if m.ty = 0x13 then s.arrive d m else s)

/-- R118, R119. -/
def execAtom (d : Nat) (m : Msg) (s : State) : Host.Outcome State Fault Refusal :=
  serving s (if m.ty = 0x14 then s.arrive d m else s)

/-- R152. -/
def execCrdS (d : Nat) (m : Msg) (s : State) : Host.Outcome State Fault Refusal :=
  serving s (if m.ty = 0x40 then s.arrive d m else s)

/-- R152. -/
def execCrdX (d : Nat) (m : Msg) (s : State) : Host.Outcome State Fault Refusal :=
  serving s (if m.ty = 0x41 then s.arrive d m else s)

/-- R152. -/
def execCupg (d : Nat) (m : Msg) (s : State) : Host.Outcome State Fault Refusal :=
  serving s (if m.ty = 0x42 then s.arrive d m else s)

/-- R184. -/
def execPublish (d : Nat) (m : Msg) (s : State) : Host.Outcome State Fault Refusal :=
  serving s (if m.ty = 0x62 then s.arrive d m else s)

/-- R135: the window of an entry has passed. -/
def execCombWindowExpiry (d i : Nat) (s : State) : Host.Outcome State Fault Refusal :=
  serving s (
    match s.trk.comb.get? [d, i] with
    | some c =>
      if 8 * s.rd R.TRK_COMB_CFG_window [d] ≤ s.now - c.since then
        if s.homeRoom d 1 then s.closeComb d i else s.event B.trk 4
      else s
    | none => s)

/-- R138: occupancies of the past beat, in 1/65,536; the count of beats with the home class full goes with it. -/
def execLoadCompute (d homeFrac stackFrac : Nat) (s : State) : Host.Outcome State Fault Refusal :=
  serving s (
    let t := s.wr R.TRK_LOAD_load [d] (min 15 (16 * max homeFrac stackFrac / 65536))
    if s.homeRoom d 1 then t else t.bump R.TRK_CNT_count [d, 10])

end Sys2Proof.Machine
end

