-- ==== Sys2Proof/Machine/Coherence.lean ====
section
/-! DEFINITION. Clusters as caching agents, the death of an agent, and the fabric manager's coherence tables (R140 to
R144, R149 to R151, R157 to R159). -/

namespace Sys2Proof.Machine

/-! ### A cluster as caching agent (R150, R151) -/

/-- An answer of cluster `c` to the home of a snoop (R148). -/
def State.snpRsp (c : Nat) (m : Msg) (result : Nat) (data : Option Nat) (s : State) : State :=
  s.send (dieOfCluster c)
    { chan := Ch.rsp, tc := m.tc, dst := s.eid, src := clusterId c, ty := 0x52, mapGen := s.mapGen,
      len := if data.isSome then 144 else 16, die := s.homeDie m.addr, tenant := m.tenant,
      body := layout [(0, 0, 32, m.f 16 0 32), (4, 0, 2, result), (4, 2, 1, b2n data.isSome)] + data.getD 0 <<< 128 }

/-- The data and grant an owner passes to the requester a snoop names (R148). -/
def State.passLine (c : Nat) (m : Msg) (grant data : Nat) (s : State) : State :=
  s.send (dieOfCluster c)
    { chan := Ch.rsp, tc := m.tc, dst := m.f 12 0 16, src := s.eid, ty := 0x50, mapGen := s.mapGen, len := 144,
      die := if m.f 12 0 16 = s.eid then bitsOf (m.f 8 0 32) 19 1 else 0, tenant := m.tenant,
      body := layout [(0, 0, 32, m.f 8 0 32), (4, 0, 2, grant), (4, 2, 1, 1), (4, 3, 1, 1)] + data <<< 128 }

def State.setLine (c line : Nat) (l : Option CLine) (s : State) : State :=
  { s with coh := { s.coh with lines := match l with
      | some x => s.coh.lines.set [c, line] x
      | none => s.coh.lines.erase [c, line] } }

/-- The line of a message's address within its node. -/
def lineAt (m : Msg) : Nat := offsetOf m.addr / 128

/-- A snoop served by the table of R150. -/
def State.serveSnoop (c : Nat) (m : Msg) (s : State) : State :=
  match s.coh.lines.get? [c, lineAt m] with
  | none => s.snpRsp c m 0 none
  | some l =>
    let dirty := if l.st = 3 then some l.data else none
    match m.ty with
    | 0x48 =>
      if 2 ≤ l.st then ((s.setLine c (lineAt m) (some { l with st := 1 })).passLine c m 1 l.data).snpRsp c m 2 dirty
      else s.snpRsp c m 0 none
    | 0x49 =>
      if 2 ≤ l.st then ((s.setLine c (lineAt m) none).passLine c m (if l.st = 3 then 3 else 2) l.data).snpRsp c m 3 dirty
      else s.snpRsp c m 0 none
    | 0x4B =>
      if 2 ≤ l.st then (s.setLine c (lineAt m) (some { l with st := 1 })).snpRsp c m 2 dirty else s.snpRsp c m 0 none
    | _ => (s.setLine c (lineAt m) none).snpRsp c m 1 dirty

/-- A snoop reaches a cluster: held while its line's request awaits data, else served (R150, R151). -/
def State.snoopArrives (c : Nat) (m : Msg) (s : State) : State :=
  let s := s.consume (dieOfCluster c) m
  match s.coh.want.get? [c, lineAt m] with
  | some w =>
    let w := { w with held := w.held ++ [m] }
    { s with coh := { s.coh with want := s.coh.want.set [c, lineAt m] w } }
  | none => s.serveSnoop c m

/-- R150. -/
def execFwdS (c : Nat) (m : Msg) (s : State) : Host.Outcome State Fault Refusal :=
  serving s (if m.ty = 0x48 then s.snoopArrives c m else s)

/-- R150. -/
def execFwdX (c : Nat) (m : Msg) (s : State) : Host.Outcome State Fault Refusal :=
  serving s (if m.ty = 0x49 then s.snoopArrives c m else s)

/-- R150. -/
def execSnpInv (c : Nat) (m : Msg) (s : State) : Host.Outcome State Fault Refusal :=
  serving s (if m.ty = 0x4A then s.snoopArrives c m else s)

/-- R150. -/
def execSnpClean (c : Nat) (m : Msg) (s : State) : Host.Outcome State Fault Refusal :=
  serving s (if m.ty = 0x4B then s.snoopArrives c m else s)

/-- The outstanding request of a cluster that a tag names, with its line. -/
def State.wantOf (s : State) (c tag : Nat) : Option (Nat × Want) :=
  (s.coh.want.entries.find? (fun e => decide (e.1.head? = some c ∧ e.2.tag = tag))).map (fun e => (e.1.getD 1 0, e.2))

/-- The cluster's request is answered: it holds the line in state `st`, performs its access, and serves the held snoops
(R151). What a store leaves in the line is not the table's to say: a free value. -/
def State.granted (c line : Nat) (w : Want) (st data : Nat) (s : State) : State :=
  let store := decide (w.ty ≠ 0x40)
  let l : CLine := { st := if store then 3 else st, data := if store then s.freeVal % 2 ^ 1024 else data }
  let s := (if store then s.drew else s).setLine c line (some l)
  let s : State := { s with coh := { s.coh with want := s.coh.want.erase [c, line] } }
  w.held.foldl (fun t m => t.serveSnoop c m) s

/-- A response that matches nothing live (R129). -/
def State.lateDiscard (d : Nat) (s : State) : State := (s.bump R.TRK_CNT_count [d, 4]).event B.trk 1

/-- R151. -/
def execCdata (c : Nat) (m : Msg) (s : State) : Host.Outcome State Fault Refusal :=
  serving s (
    if m.ty ≠ 0x50 then s
    else
      let s := s.consume (dieOfCluster c) m
      match s.wantOf c (m.f 0 0 32) with
      | none => s.lateDiscard (dieOfCluster c)
      | some (line, w) =>
        if m.f 4 0 2 = 0 then
          w.held.foldl (fun t h => t.snpRsp c h 0 none)
            { s with coh := { s.coh with want := s.coh.want.erase [c, line], lines := s.coh.lines.erase [c, line] } }
        else s.granted c line w (m.f 4 0 2) (m.f 16 0 1024))

/-- R150. -/
def execCgntX (c : Nat) (m : Msg) (s : State) : Host.Outcome State Fault Refusal :=
  serving s (
    if m.ty ≠ 0x51 then s
    else
      let s := s.consume (dieOfCluster c) m
      match s.wantOf c (m.f 0 0 32) with
      | none => s.lateDiscard (dieOfCluster c)
      | some (line, w) => s.granted c line w 3 0)

/-! ### The death of an agent (R157, R158) -/

/-- Drop the waiting requests whose home entries are gone, and let those they held back go on. -/
def State.purge (s : State) : State :=
  let live (h : Nat × Nat) : Bool := s.trk.home.has [h.1, h.2]
  State.turns { s with
      trk := { s.trk with flowWait := s.trk.flowWait.filter live },
      pool := { s.pool with limitQ := s.pool.limitQ.each (fun k l => l.filter (fun w => s.trk.home.has [k.headD 0, w.home])) },
      coh := { s.coh with wait := s.coh.wait.each (fun _ l => l.filter live) },
      tier := { s.tier with
        moves := s.tier.moves.each (fun _ m => { m with wait := m.wait.filter live }),
        pcs := s.tier.pcs.each (fun _ q => { q with wait := q.wait.filter live }) } }

/-- R157, R158: the agent in a slot is declared dead in a domain. A line that only its own writeback kept busy is free. -/
def State.declareDead (dom a cause : Nat) (s : State) : State :=
  match s.agentAt dom a with
  | none => s
  | some agent =>
    if s.isDead dom a then s
    else
      let s := ((((s.wr R.COH_RECLAIM_INFO_domain [] dom).wr R.COH_RECLAIM_INFO_slot [] a).wr
        R.COH_RECLAIM_INFO_cause [] cause).wr R.COH_RECLAIM_INFO_done [] 0).event B.coh 0
      let mine (h : Home) : Bool := isCoherent h.msg.ty && decide (h.msg.src = agent ∧ h.msg.f 0 56 8 = dom)
      let idle := (s.coh.busy.entries.filter (fun e => ((s.homeAt e.2.1 e.2.2).map mine).getD false &&
        decide (s.openFor e.2 = 0))).map (fun e => e.1.headD 0)
      let s : State := { s with
        coh := { s.coh with dead := s.coh.dead.set [dom, a] (), walks := s.coh.walks.set [dom, a] () },
        trk := { s.trk with home := s.trk.home.keep (fun _ h => ¬ mine h) } }
      let s := s.purge
      let s := (s.coh.snoops.entries.filter (fun e => decide (e.2.dom = dom ∧ e.2.slot = a))).foldl (fun t e =>
        if e.2.crossed then (t.closeSnoop (e.1.headD 0)).settleChain e.2.line
        else t.answered (e.1.headD 0) e.2 false (t.wasOwner e.2)) s
      idle.foldl (fun t l => (t.clearBusy l).wakeLine l) s

/-- The agent is declared dead in every domain in which it holds a slot (R157). -/
def State.declareAgent (agent cause : Nat) (s : State) : State :=
  (s.listed R.COH_MEMBER_valid).foldl (fun t k =>
    if t.agentAt (k.headD 0) (k.getD 1 0) = some agent then t.declareDead (k.headD 0) (k.getD 1 0) cause else t) s

/-- R157: a snoop unanswered for COH_TIMEOUT.snoop. -/
def execSnoopTimeout (d tag : Nat) (s : State) : Host.Outcome State Fault Refusal :=
  serving s (
    match s.coh.snoops.get? [tag] with
    | some sn =>
      if 1000 * s.rd R.COH_TIMEOUT_snoop [] ≤ s.now - sn.since then
        let s := (s.bump R.COH_CNT_count [d, 8]).event B.coh 2
        match s.agentAt sn.dom sn.slot with
        | some agent => (s.declareAgent agent 3).settleBindings
        | none => s
      else s
    | none => s)

/-- R157: a port down for longer than the grace time. -/
def execGraceTimeout (p : Nat) (s : State) : Host.Outcome State Fault Refusal :=
  serving s (
    match (s.port p).downAt, (s.port p).identity with
    | some t, some (_, eid) =>
      if ¬ s.isUp p ∧ 1000 * s.rd R.COH_TIMEOUT_grace [] ≤ s.now - t then
        (s.modPort p (fun r => { r with downAt := none }))|>.declareAgent eid 1 |>.settleBindings
      else s
    | _, _ => s)

/-! ### The end of a walk (R140, R159) -/

/-- Write a member slot's image (COH_MEMBER), which admits its agent (R140, R158). -/
def State.putMember (dom a v : Nat) (s : State) : State :=
  let t := (((s.wr R.COH_MEMBER_valid [dom, a] (bitsOf v 0 1)).wr R.COH_MEMBER_kind [dom, a] (bitsOf v 1 1)).wr
    R.COH_MEMBER_eid [dom, a] (bitsOf v 16 16)).wr R.COH_MEMBER_cluster [dom, a] (bitsOf v 32 4)
  { t with coh := { t.coh with dead := t.coh.dead.erase [dom, a], members := t.coh.members.erase [dom, a] } }

/-- R159: every record of the domain is clear of the dead slot. -/
def execReclaimWalkDone (dom slot : Nat) (s : State) : Host.Outcome State Fault Refusal :=
  serving s (
    if s.coh.walks.has [dom, slot] then
      let s := (s.coh.recs.keys.map (·.headD 0)).foldl (fun t l =>
        if t.domOf l = some dom then t.reclaimLine dom l else t) s
      let s : State := { s with coh := { s.coh with walks := s.coh.walks.erase [dom, slot] } }
      let s := (s.wr R.COH_RECLAIM_INFO_done [] 1).report 2 .ok (bytesOfNat 1 dom ++ bytesOfNat 1 slot)
      match s.coh.members.get? [dom, slot] with
      | some v => s.putMember dom slot v
      | none => s
    else s)

/-! ### The fabric manager's tables (R140, R141, R144) -/

/-- R157, cause 0. -/
def State.cmdDeclareDead (dom a : Nat) (s : State) : Status × State := (.ok, (s.declareDead dom a 0).settleBindings)

/-- R158. -/
def execDeclareDead (dom slot : Nat) (s : State) : Host.Outcome State Fault Refusal :=
  serving s (State.told 0x0304 (s.gated 0x0304 (s.cmdDeclareDead dom slot)))

/-- The extents of a die that some binding covers, leaving out entry `i` (R144). -/
def State.boundOn (s : State) (d : Nat) (but : Option Nat) : Nat :=
  ((List.range (s.extents s.node)).filter (fun e => decide ((s.ext s.node e).die = d) &&
    (s.listed R.COH_BIND_valid).any (fun k => decide (k.head? ≠ but ∧ s.rd R.COH_BIND_first_extent k ≤ e ∧
      e ≤ s.rd R.COH_BIND_last_extent k)))).length

/-- Store extents listed for a die (R144). -/
def State.storeOn (s : State) (d : Nat) : Nat :=
  ((s.listed R.COH_DIR_STORE_valid).filter (fun k => decide (k.head? = some d))).length

/-- The refusal of a valid binding (R141): none where it may be written. -/
def State.bindRefusal (s : State) (i v : Nat) : Option Status :=
  let first := bitsOf v 16 18
  let last := bitsOf v 34 18
  let es := rangeOf first last
  let more (d : Nat) : Nat := (es.filter (fun e => decide ((s.ext s.node e).die = d))).length
  if last < first ∨ s.extents s.node ≤ last then some .unsupported
  else if es.any (fun e => decide ((s.ext s.node e).state = .absent) || ¬ s.on R.COH_CFG_enable [(s.ext s.node e).die]) then
    some .unsupported
  else if (List.range 2).any (fun d => 0 < more d && 16 * s.storeOn d < s.boundOn d (some i) + more d) then some .quota
  else if es.any (fun e => decide ((s.ext s.node e).state ≠ .held) || s.inBoard e || s.tier.moves.has [e]) then some .retry
  else none

/-- R141: a binding is written; one that takes extents out of a domain waits for their recall (R142), and its status with
it. -/
def State.cmdBindWrite (i v : Nat) (who : Asker) (s : State) : Option Status × State :=
  let old := s.on R.COH_BIND_valid [i]
  let olds := if old then rangeOf (s.rd R.COH_BIND_first_extent [i]) (s.rd R.COH_BIND_last_extent [i]) else []
  if v ≥ 2 ^ 52 ∨ bitsOf v 1 7 ≠ 0 ∨ s.coh.unbinding.has [i] then (some (if s.coh.unbinding.has [i] then .retry else .unsupported), s)
  else
    match (if bitsOf v 0 1 = 1 then s.bindRefusal i v else none) with
    | some .quota => (some .quota, s.event B.coh 4)
    | some st => (some st, s)
    | none =>
      if olds.all s.recalled then (some .ok, s.putBind i v)
      else
        (none, olds.foldl (fun t e => t.recallExtent e)
          { s with coh := { s.coh with unbinding := s.coh.unbinding.set [i] (v, who) } })

/-- A binding before COH is READY is refused (R443). -/
def State.gatedBind (i v : Nat) (who : Asker) (s : State) : Option Status × State :=
  if s.pkg.expelled then (some .unsupported, s) else if s.isReady B.coh then s.cmdBindWrite i v who else (some .retry, s)

/-- R141. -/
def execBindWrite (i v : Nat) (s : State) : Host.Outcome State Fault Refusal :=
  serving s (
    let r := s.gatedBind i v .here
    match r.1 with
    | some st => State.told 0x0301 (st, r.2)
    | none => r.2)

/-- R140. -/
def State.cmdMemberWrite (dom a v : Nat) (s : State) : Status × State :=
  if v ≥ 2 ^ 36 ∨ bitsOf v 2 14 ≠ 0 then (.unsupported, s)
  else if s.coh.walks.has [dom, a] then (.retry, s)
  else
    let next := if bitsOf v 0 1 = 0 then none
      else some (if bitsOf v 1 1 = 1 then clusterId (bitsOf v 32 4) else bitsOf v 16 16)
    if (s.agentAt dom a).isSome ∧ s.agentAt dom a ≠ next ∧ ¬ s.isDead dom a then
      let t := s.declareDead dom a 0
      (.ok, State.settleBindings { t with coh := { t.coh with members := t.coh.members.set [dom, a] v } })
    else (.ok, s.putMember dom a v)

/-- R140. -/
def execMemberWrite (dom slot v : Nat) (s : State) : Host.Outcome State Fault Refusal :=
  serving s (State.told 0x0302 (s.gated 0x0302 (s.cmdMemberWrite dom slot v)))

/-- R144. -/
def State.cmdDirStoreWrite (d k v : Nat) (s : State) : Status × State :=
  let e := bitsOf v 0 18
  let x := s.ext s.node e
  let valid := bitsOf v 18 1 = 1
  let old := s.on R.COH_DIR_STORE_valid [d, k]
  if v ≥ 2 ^ 19 then (.unsupported, s)
  else if valid ∧ (x.state ≠ .internal ∨ s.inBoard e ∨ x.die ≠ d) then (.unsupported, s)
  else if old ∧ (¬ valid ∨ s.rd R.COH_DIR_STORE_extent [d, k] ≠ e) ∧ 16 * (s.storeOn d - 1) < s.boundOn d none then (.retry, s)
  else (.ok, (s.wr R.COH_DIR_STORE_extent [d, k] e).wr R.COH_DIR_STORE_valid [d, k] (b2n valid))

/-- R144. -/
def execDirStoreWrite (d k v : Nat) (s : State) : Host.Outcome State Fault Refusal :=
  serving s (State.told 0x0303 (s.gated 0x0303 (s.cmdDirStoreWrite d k v)))

end Sys2Proof.Machine
end

