-- ==== Sys2Proof/Machine/Tracker.lean ====
section
/-! DEFINITION. The edge check, and requests of the part's own agents from issue to the match of their answers
(R106, R107, R123 to R133, R182, R475). -/

namespace Sys2Proof.Machine

/-! ### The edge check (R124 to R127, R143) -/

/-- Fields of a window entry (R126). -/
def Win.valid_ (x : Nat) : Bool := bitAt x 0
def Win.node (x : Nat) : Nat := bitsOf x 8 12
def Win.first (x : Nat) : Nat := bitsOf x 20 18
def Win.last (x : Nat) : Nat := bitsOf x 38 18

/-- Whether an entry permits an operation (R126, R143). -/
def permits (x : Nat) (m : Msg) : Bool :=
  if m.ty = 0x10 ∨ m.ty = 0x11 then bitAt x 1
  else if m.ty = 0x12 ∨ m.ty = 0x13 then bitAt x 2
  else if m.ty = 0x14 then bitAt x 3
  else if isCoherent m.ty then bitAt x 4 && bitsOf x 64 8 = m.f 0 56 8
  else m.ty = 0x62 && bitAt x 5

/-- The lowest-numbered valid entry of a table that holds every byte of a request; in the table of an agent only entries of
its tenant take part (R124 to R126). Tables are 0 to 255 for the ports and 256 + d for the agents of die d. -/
def State.winFor (s : State) (sel : Nat) (m : Msg) : Option Nat :=
  ((s.edgeWin.entries.filter (fun e => decide (e.1.head? = some sel) && Win.valid_ e.2 && decide (Win.node e.2 = nodeOf m.addr ∧
    Win.first e.2 ≤ extentOf m.addr ∧ extentOf m.addr ≤ Win.last e.2) &&
    (sel < 256 || bitsOf e.2 72 5 = m.tenant))).head?).map (·.2)

/-- Lease requests (R167). -/
def isLease (ty : Nat) : Bool := ty = 0x60 || ty = 0x65

/-- Requests without a fabric address that pass steps 1 to 3: leases, doorbells, contributions, lookups (R167, R299, R336,
R361). -/
def stamped (ty : Nat) : Bool := isLease ty || [0x70, 0x90, 0x91, 0xA0, 0xA1, 0xA2].contains ty

/-- The first check of R125 that fails, with its status; `p` is the port, none for an agent. -/
def State.edgeFails (s : State) (p : Option Nat) (sel : Nat) (m : Msg) : Option (Nat × Status) :=
  let mem := isMemory m.ty
  if (mem ∧ ¬ m.valid) ∨ (p.isSome ∧ 0x10 ≤ m.ty ∧ m.ty ≤ 0x3F ∧ ¬ mem) ∨ (isLease m.ty ∧ m.len ≠ 16) ∨
      (isCoherent m.ty ∧ (p.map (fun q => !s.on R.PRT_PORT_STATUS_partner_caching [q])).getD false) then some (1, .unsupported)
  else if (p.map (fun q => decide (m.tenant ≠ s.rd R.SWC_PORT_CFG_tenant [q]))).getD false then some (2, .protViolation)
  else if (mem ∨ stamped m.ty) ∧ (p.map (fun q => decide (m.src ≠ s.partnerEid q))).getD false then some (3, .protViolation)
  else if ¬ mem then none
  else
    match s.winFor sel m with
    | none => some (4, .protViolation)
    | some x => if permits x m then none else some (5, .protViolation)

/-- Count and record a refusal (R125): the first since EDG_EVT was clear is held. -/
def State.edgeRefused (sel step : Nat) (m : Msg) (s : State) : State :=
  let k := if step = 1 then 3 else if step ≤ 3 then 2 else 1
  let s := if sel < 256 then s.bump R.EDG_CNT_count [sel, k] else s.bump R.EDG_AGENT_CNT_count [sel - 256, k]
  let s := if s.events B.edg ≠ 0 then s
    else ((((((s.wr R.EDG_VIOL_INFO_port [] (if sel < 256 then sel else 128 * (sel - 256))).wr R.EDG_VIOL_INFO_agent []
      (b2n (decide (256 ≤ sel)))).wr R.EDG_VIOL_INFO_step [] step).wr R.EDG_VIOL_INFO_src_eid [] m.src).wr
      R.EDG_VIOL_INFO_msg_type [] m.ty).wr R.EDG_VIOL_INFO_tenant [] m.tenant).wr R.EDG_VIOL_ADDR_addr [] m.addr
  s.event B.edg (if step = 1 then 2 else if step = 3 then 1 else 0)

def State.edgeChecked (sel : Nat) (s : State) : State :=
  if sel < 256 then s.bump R.EDG_CNT_count [sel, 0] else s.bump R.EDG_AGENT_CNT_count [sel - 256, 0]

/-- The table an EDG_SEL image names (R126). -/
def selOf (v : Nat) : Nat := if bitAt v 8 then 256 + bitsOf v 7 1 else bitsOf v 0 8

/-- R126, R127: replace one window entry. -/
def State.cmdWinWrite (sel entry : Nat) (s : State) : Status × State :=
  let reserved := bitsOf entry 6 2 ≠ 0 ∨ bitsOf entry 56 8 ≠ 0 ∨ 2 ^ 77 ≤ entry ∨ (¬ bitAt sel 8 ∧ bitsOf entry 72 5 ≠ 0)
  if bitsOf sel 9 7 ≠ 0 ∨ 2 ^ 28 ≤ sel then (.unsupported, s)
  else if Win.valid_ entry ∧ (Win.last entry < Win.first entry ∨ reserved) then
    (.unsupported, s.badWrite R.EDG_WIN_DATA0_entry_lo [])
  else if Win.valid_ entry ∧ bitAt sel 8 ∧ ¬ s.tenantActive (bitsOf entry 72 5) then (.protViolation, s)
  else
    let k := [selOf sel, bitsOf sel 16 12]
    (.ok, { s with edgeWin := if entry = 0 then s.edgeWin.erase k else s.edgeWin.set k entry })

/-- R127. -/
def execWinWrite (sel entry : Nat) (s : State) : Host.Outcome State Fault Refusal :=
  serving s (State.told 0x0201 (s.gated 0x0201 (s.cmdWinWrite sel entry)))

/-! ### Windows toward destinations (R106, R107, R182) -/

def State.winMax (s : State) : Nat := s.rd R.SWC_WIN_CFG_max []

def State.winOf (s : State) (d dst : Nat) : Win := s.sw.wins.get { w := s.winMax } [d, dst]

/-- Keep a window entry, or free it once nothing is outstanding and it stands at its maximum (R107). -/
def State.setWin (d dst : Nat) (w : Win) (s : State) : State :=
  { s with sw := { s.sw with wins := if w.outstanding = 0 ∧ s.winMax ≤ w.w then s.sw.wins.erase [d, dst]
                                     else s.sw.wins.set [d, dst] w } }

/-- What one response from a destination does to its window (R106, R182). -/
def Win.react (w : Win) (max_ now : Nat) (marked : Bool) (load : Nat) : Win :=
  let w := { w with outstanding := w.outstanding - 1 }
  if marked ∨ 12 ≤ load then
    if (w.lastDecrease.map (fun t => decide (t + 2000 ≤ now))).getD true then
      { w with w := max 1 (w.w / 2), unmarked := 0, lastDecrease := some now }
    else { w with unmarked := 0 }
  else if 8 ≤ load then w
  else if w.w ≤ w.unmarked + 1 then { w with w := min max_ (w.w + 1), unmarked := 0 }
  else { w with unmarked := w.unmarked + 1 }

/-- The last packet of an answer arrives (R106). -/
def State.feedback (d dst : Nat) (marked : Bool) (load : Nat) (s : State) : State :=
  s.setWin d dst ((s.winOf d dst).react s.winMax s.now marked load)

/-- An entry retires without an answer. -/
def State.unanswered (d dst : Nat) (s : State) : State :=
  let w := s.winOf d dst
  s.setWin d dst { w with outstanding := w.outstanding - 1 }

/-! ### Issue (R107, R128, R129) -/

/-- Where each type carries the requester's tag (R115, R148, R167, R184, and the chapters of the units). -/
def tagOff (ty : Nat) : Nat :=
  if isLease ty then 0 else if ty = 0x90 ∨ ty = 0x91 then 12 else if 0xA0 ≤ ty ∧ ty ≤ 0xA2 then 4 else 8

def withTag (m : Msg) (tag : Nat) : Msg := { m with body := setBits m.body (8 * tagOff m.ty) 32 tag }

/-- The tag of an entry (R129). -/
def tagFor (d i gen : Nat) : Nat := i + d <<< 19 + gen <<< 20

def State.issuedLive (s : State) (d : Nat) : Nat := s.trk.issued.count (fun k _ => decide (k.head? = some d))

/-- The lowest entry that is free and has been for 256 ns (R129). -/
def State.freeEntry (s : State) (d : Nat) : Option Nat :=
  if s.rd R.TRK_SPLIT_issued [d] ≤ s.issuedLive d then none
  else (List.range (s.trk.issued.size + s.trk.retired.size + 1)).find? (fun i => ¬ s.trk.issued.has [d, i] ∧
    ((s.trk.retired.get? [d, i]).map (fun t => decide (t + 256 ≤ s.now))).getD true)

/-- Whether a request can be issued now: its destination's window, the window table and the issued class have room
(R107, R128). -/
def State.canIssue (s : State) (d dst : Nat) : Bool :=
  (s.freeEntry d).isSome && decide ((s.winOf d dst).outstanding < (s.winOf d dst).w) &&
  (s.sw.wins.has [d, dst] || decide (s.sw.wins.count (fun k _ => decide (k.head? = some d)) < 4160))

/-- An ordered request takes the next sequence number of its flow when it is sent (R102). -/
def State.stampFlow (s : State) (m : Msg) : Msg × State :=
  if ¬ m.ordered then (m, s)
  else
    let k := [m.dst, m.die, m.flow]
    let n := s.qpe.flowSeq.get 0 k
    ({ m with flowSeq := n }, { s with qpe := { s.qpe with flowSeq := s.qpe.flowSeq.set k ((n + 1) % 65536) } })

/-- Put a request on its way: the agents' window check (R124, R125), then the switch core. -/
def State.depart (d : Nat) (m : Msg) (s : State) : State :=
  if ¬ isMemory m.ty then
    let r := s.stampFlow m
    r.2.send d r.1
  else
    let s := s.edgeChecked (256 + d)
    match s.edgeFails none (256 + d) m with
    | some (step, st) => (s.edgeRefused (256 + d) step m).selfAnswer d m st
    | none =>
      let r := s.stampFlow m
      r.2.send d r.1

/-- Allocate an entry and issue (R128, R129). -/
def State.issueNow (d : Nat) (h : Held) (s : State) : State :=
  match s.freeEntry d with
  | none => s
  | some i =>
    let gen := (s.trk.gen.get 255 [d, i] + 1) % 256
    let m := withTag h.msg (tagFor d i gen)
    let w := s.winOf d m.dst
    let e : Issued := { gen := gen, msg := m, issuer := h.issuer, purpose := h.purpose, since := s.now, remaining := m.rlen }
    let s : State := { s with trk := { s.trk with
      issued := s.trk.issued.set [d, i] e, gen := s.trk.gen.set [d, i] gen, retired := s.trk.retired.erase [d, i] } }
    State.depart d m ((s.setWin d m.dst { w with outstanding := w.outstanding + 1 }).bump R.TRK_CNT_count [d, 1])

/-- Whether requests already held hold this one too: those of its own issuer, and those toward its destination (R107). -/
def heldBehind (l : List Held) (h : Held) : Bool :=
  l.any (fun x => decide (x.issuer = h.issuer ∨ x.msg.dst = h.msg.dst))

/-- An agent issues a request, or is held at issue (R107, R128). -/
def State.issue (d : Nat) (who : Issuer) (why : Purpose) (m : Msg) (s : State) : State :=
  let h : Held := { msg := m, issuer := who, purpose := why }
  let l := s.sw.held.get [] [d]
  if heldBehind l h ∨ ¬ s.canIssue d m.dst then { s with sw := { s.sw with held := s.sw.held.set [d] (l ++ [h]) } }
  else s.issueNow d h

/-- Go through the held requests in order, issuing each that nothing holds any more (R107). -/
def State.resumeHeld (d : Nat) : List Held → List Held → State → State
  | [], kept, s => { s with sw := { s.sw with held := if kept = [] then s.sw.held.erase [d] else s.sw.held.set [d] kept } }
  | h :: t, kept, s =>
    if heldBehind kept h ∨ ¬ s.canIssue d h.msg.dst then State.resumeHeld d t (kept ++ [h]) s
    else State.resumeHeld d t kept (s.issueNow d h)

/-- R107. -/
def execIssueResume (d : Nat) (s : State) : Host.Outcome State Fault Refusal :=
  serving s (State.resumeHeld d (s.sw.held.get [] [d]) [] s)

/-- A request of the part's own agents, as formed at issue (R115). -/
def State.request (s : State) (ty dst addr len tenant tc die : Nat) (comb : Bool) (aop : Nat) (fetch : Bool) (data nbytes : Nat) :
    Msg :=
  { chan := Ch.req, tc := tc, dst := dst, src := s.eid, ty := ty, mapGen := s.mapGen, len := 16 + nbytes, die := die,
    tenant := tenant, body := reqBody addr 0 len comb aop fetch data }

/-- The live entries of an issuer: what a fence waits for (R123). -/
def State.liveOf (s : State) (who : Issuer) : List Key :=
  (s.trk.issued.entries.filter (fun e => decide (e.2.issuer = who))).map (·.1)

/-! ### Matching answers (R129 to R133) -/

/-- The live entry a tag names (R129). -/
def State.entryOf (s : State) (tag : Nat) : Option (Nat × Nat × Issued) :=
  let d := bitsOf tag 19 1
  let i := bitsOf tag 0 19
  match s.trk.issued.get? [d, i] with
  | some e => if e.gen = bitsOf tag 20 8 ∧ bitsOf tag 28 4 = 0 then some (d, i, e) else none
  | none => none

/-- Retire an entry; it is not used again for 256 ns (R129). -/
def State.dropIssued (d i : Nat) (s : State) : State :=
  { s with trk := { s.trk with issued := s.trk.issued.erase [d, i], retired := s.trk.retired.set [d, i] s.now } }

/-- R131: an entry completed with RETRY waits a beat; with STALE_MAP it goes again at once under the current map. True
where it was reissued or will be. -/
def State.reissues (s : State) (e : Issued) (st : Status) : Bool :=
  (st = .retry || st = .staleMap) && decide (e.reissues < s.rd R.TRK_REISSUE_limit [])

/-- Send an entry's request again, under the same tag (R131). -/
def State.reissue (d i : Nat) (e : Issued) (remap : Bool) (s : State) : State :=
  let m : Msg := if remap then { e.msg with mapGen := s.mapGen } else e.msg
  let e : Issued := { e with msg := m, reissues := e.reissues + 1, retryAt := none, remaining := m.rlen, status := .ok,
                             got := [], data := 0, marked := false }
  State.depart d m (State.bump R.TRK_CNT_count [d, 5] { s with trk := { s.trk with issued := s.trk.issued.set [d, i] e } })

/-- R131: one beat after a RETRY. -/
def execReissue (d i : Nat) (s : State) : Host.Outcome State Fault Refusal :=
  serving s (
    match s.trk.issued.get? [d, i] with
    | some e => if (e.retryAt.map (fun b => decide (b + 1024 ≤ s.now))).getD false then s.reissue d i e false else s
    | none => s)

/-- R130: a forwarded entry not answered in time. -/
def execFwdTimeout (d i : Nat) (s : State) : Host.Outcome State Fault Refusal :=
  serving s (
    match s.trk.fwd.get? [d, i] with
    | some f =>
      if 1000 * s.rd R.TRK_TIMEOUT_fwd [] ≤ s.now - f.since then
        ((if f.members = [] then [f.msg] else f.members).foldl (fun t m => t.answer d m .nodeLost 0 none) s).dropFwd d i
      else s
    | none => s)

end Sys2Proof.Machine
end

