-- ==== Sys2Proof/Machine/Loss.lean ====
section
/-! DEFINITION. Extents that go to LOST, ports that go down, and what hangs on them (R78, R85, R95, R101, R130, R157, R186,
R479). -/

namespace Sys2Proof.Machine

/-! ### Lost extents (R162, R166, R186) -/

/-- Complete the live requests that satisfy `p`, each with its status. -/
def State.endLive (p : Msg → Bool) (st : Msg → Status) (s : State) : State :=
  State.purge ((s.trk.home.entries.filter (fun e => p e.2.msg)).foldl (fun t e =>
    t.refuseHome (e.1.headD 0) (e.1.getD 1 0) e.2.msg (st e.2.msg)) s)

/-- Requests to an extent of a node. -/
def toExtent (node e : Nat) (m : Msg) : Bool := isMemory m.ty && decide (nodeOf m.addr = node ∧ extentOf m.addr = e)

/-- Forwarded entries end with NODE_LOST at their requesters (R130). -/
def State.endForwards (p : Fwd → Bool) (s : State) : State :=
  (s.trk.fwd.entries.filter (fun e => p e.2)).foldl (fun t e =>
    ((if e.2.members = [] then [e.2.msg] else e.2.members).foldl (fun u m => u.answer (e.1.headD 0) m .nodeLost 0 none) t).dropFwd
      (e.1.headD 0) (e.1.getD 1 0)) s

/-- Clear a share group's list. -/
def State.clearGroup (g : Nat) (s : State) : State :=
  ((s.listed R.POL_SHARE_valid).filter (fun k => decide (k.head? = some g))).foldl (fun t k =>
    (t.wr R.POL_SHARE_valid k 0).wr R.POL_SHARE_slot k 0) s

/-- A group with no extent left is freed (R166). -/
def State.tidyGroup (g : Option Nat) (s : State) : State :=
  match g with
  | some g => if s.pool.ext.vals.any (fun x => x.group = some g) then s else s.clearGroup g
  | none => s

/-- The slot a lost extent keeps when a move of it ends: the one whose stack or channel survives (R215). -/
def State.endMove (e : Nat) (s : State) : State :=
  match s.tier.moves.get? [e], s.tier.loc.get? [e] with
  | some m, some l =>
    let keepDst := ¬ s.unitReady l.board l.unit && s.unitReady m.dst.board m.dst.unit
    let tags := s.untag (some (if keepDst then l else m.dst))
    { s with tier := { s.tier with moves := s.tier.moves.erase [e], swaps := s.tier.swaps.erase [e], tags := tags,
                                   loc := if keepDst then s.tier.loc.set [e] m.dst else s.tier.loc } }
  | _, _ => s

/-- R186: an extent goes to LOST. -/
def State.loseExtent (node e : Nat) (s : State) : State :=
  let x := s.ext node e
  if x.state = .lost ∨ x.state = .absent then s
  else
    let s := (s.endLive (toExtent node e) (fun m => lostStatus m.ty)).endForwards (fun f => toExtent node e f.msg)
    let s := if x.state = .held ∨ x.state = .revoking then s.tellHolders 2 node e x else s
    let s := s.event B.pol 3
    let s : State := if node = s.node ∧ s.isPrimary ∧ s.pair.chunks.has [e] then
      State.mirror 0x010C (bytesOfNat 12 (layout [(0, 0, 16, node), (4, 0, 32, e), (8, 0, 32, e)]))
        { s with pair := { s.pair with chunks := s.pair.chunks.erase [e] } } else s
    let lost : Ext := { x with state := .lost, owner := 0, group := none }
    (if node = s.node then (s.endMove e).setOwn e lost else s.setExt node e lost).tidyGroup x.group

def State.loseExtents (node : Nat) (l : List Nat) (s : State) : State := l.foldl (fun t e => t.loseExtent node e) s

/-- R179, R186: the lenders behind a port are gone. -/
def State.lenderGone (p : Nat) (s : State) : State :=
  let ks := (s.listed R.POL_LEND_valid).filter (fun k => decide (s.rd R.POL_LEND_port k = p))
  ks.foldl (fun t k =>
    t.loseExtents (t.rd R.POL_LEND_node k) (List.range (t.rd R.POL_LEND_extents k))) (s.endForwards (fun f => f.port = p))

/-! ### Messages of a port that goes down (R78, R93, R95, R101) -/

/-- R95: a message has nowhere to go. A request is completed with NODE_LOST. -/
def State.discardUnrouted (q : QMsg) (s : State) : State :=
  let s := match q.inPort with
    | some p => s.bump R.SWC_PORT_CNT_count [p, 3]
    | none => s
  let s := s.dropReader q
  if q.msg.chan = Ch.req then s.answer q.die q.msg .nodeLost 0 none else s

/-- The tables a queued message stays on (R97). -/
def State.tablesOf (s : State) (m : Msg) : Tables :=
  match s.tablesFor m with
  | .inl t => t
  | .inr _ => s.sw.current

/-- R101: a message queued on a port that went down. -/
def State.requeue (q : QMsg) (s : State) : State :=
  match q.group with
  | some (g, _) =>
    let t := s.tablesOf q.msg
    if (t.groupPorts g).any s.isActive then
      match s.chooseHop t g q.msg with
      | some (p, i) => State.enqueue p q { s with sw := { s.sw with rotate := s.sw.rotate.set [g] i } }
      | none => s.discardUnrouted q
    else s.discardUnrouted q
  | none => if q.shared then s.dropReader q else s.discardUnrouted q

/-- Take the queues of an egress port away, with the messages in order of channel and class, those of its resequencer
last. -/
def State.takeQueues (p : Nat) (s : State) : List QMsg × State :=
  let held := (s.sw.flows.entries.filter (fun e => decide (e.1.head? = some p))).flatMap (fun e => e.2.held)
  let part := (s.sw.partials.filter (fun e => decide (e.1 = p))).map (·.2)
  (vcs.flatMap (fun vc => s.sw.queues.get [] [p, vc]) ++ held ++ part,
    { s with sw := { s.sw with
        queues := s.sw.queues.keep (fun k _ => decide (k.head? ≠ some p)),
        flows := s.sw.flows.each (fun k f => if k.head? = some p then { f with held := [] } else f),
        partials := s.sw.partials.filter (fun e => decide (e.1 ≠ p)) } })

/-- Messages that came in on a port, on a virtual channel where one is named, and are not whole: those that have begun to
leave are failed as `kind` says, or left as they are (0), the others never become whole and are dropped (R68, R93). -/
def State.failIncomplete (p : Nat) (vc : Option Nat) (kind : Nat) (s : State) : State :=
  let mine (q : QMsg) : Bool :=
    decide (q.inPort = some p ∧ q.have_ < q.total ∧ q.failed = 0) && (vc.map (fun v => decide (v = q.msg.vc))).getD true
  let gone := (s.sw.queues.vals ++ s.sw.agentIn.vals ++ [s.sw.partials.map (·.2)]).flatten.filter (fun q => mine q && q.sent = 0)
  let keep (l : List QMsg) : List QMsg :=
    (l.filter (fun q => !(mine q && q.sent = 0))).map (fun q => if mine q then { q with failed := kind } else q)
  gone.foldl (fun t q => t.dropReader q)
    { s with sw := { s.sw with queues := s.sw.queues.each (fun _ l => keep l), agentIn := s.sw.agentIn.each (fun _ l => keep l),
                               partials := s.sw.partials.filter (fun e => !mine e.2) } }

/-! ### Going down (R78, R479) -/

/-- A port event, with its port (PRT_EVT_PORT). -/
def State.portEvent (p b : Nat) (s : State) : State := (s.wr R.PRT_EVT_PORT_port [] p).event B.prt b

def State.setPst (p st : Nat) (s : State) : State :=
  (s.wr R.PRT_PORT_STATUS_state [p] st).modPort p (fun r => { r with since := s.now })

/-- R78: unacknowledged flits are discarded and counted; replay buffer, sequence numbers and credits are cleared. -/
def State.clearLink (p : Nat) (s : State) : State :=
  let s := s.bumpBy R.PRT_PORT_CNT_count [p, 7] (s.port p).replay.length
  s.modPort p (fun r =>
    { r with
        fresh := true, nextSeq := 0, replay := [], resend := 0, replays := 0, expected := 0, lastNak := none,
        credit := Map.empty, lastTotal := Map.empty, initial := Map.empty, zeroSince := Map.empty, freed := Map.empty,
        advertised := Map.empty, reported := Map.empty, rx := Map.empty, heldCells := Map.empty, epoch := r.epoch + 1,
        stale := ⟨(vcs.map (fun vc => ([vc], r.stale.get 0 [vc] + r.heldCells.get 0 [vc]))).filter (fun e => decide (e.2 ≠ 0))⟩,
        widthAt := none, widthReq := none, lane := none, laneReady := false })

/-- A port goes down (R479): R78, R85, R101, R130, R157, R186. -/
def State.goDown (p st : Nat) (s : State) : State :=
  let wasUp := s.isUp p
  let s := ((s.clearLink p).setPst p st).modPort p (fun r =>
    { r with phase := 0, downAt := if wasUp then some s.now else r.downAt })
  if wasUp then
    let r := (s.portEvent p 1).takeQueues p
    let s := r.1.foldl (fun t q => if q.sent = 0 then t.requeue q else t.dropReader q) r.2
    (s.failIncomplete p none 0).lenderGone p
  else s

end Sys2Proof.Machine
end

