-- ==== Sys2Proof/Machine/Link.lean ====
section
/-! DEFINITION. Sorou Link: training, flits, credits, retry and lane changes of a port (R53 to R85, R477, R479). -/

namespace Sys2Proof.Machine

/-! ### Lanes and widths (R56 to R58) -/

def State.cfgWidth (s : State) (p : Nat) : Nat := 2 ^ s.rd R.PRT_PORT_CFG_width [p]

/-- The lanes of a port (R56). -/
def State.lanesOf (s : State) (p : Nat) : List Nat :=
  (List.range (s.cfgWidth p)).map (s.rd R.PRT_PORT_CFG_first_lane [p] + ·)

/-- The mask of `w` lanes from `base`. -/
def laneMask (base w : Nat) : Nat := (2 ^ w - 1) <<< base

/-- The largest aligned group of good lanes, then the lowest (R58): its mask and its width. -/
def bestGroup (good w widths : Nat) : Option (Nat × Nat) :=
  ([8, 4, 2, 1].flatMap (fun v => if v ≤ w ∧ bitAt widths (Nat.log2 v) then
      (List.range (w / v)).map (fun i => (laneMask (i * v) v, v)) else [])).find? (fun g => good &&& g.1 = g.1)

/-- A legal lane mask: an aligned group (R58, R83). -/
def legalMask (mask w : Nat) : Bool :=
  [8, 4, 2, 1].any (fun v => decide (v ≤ w) && (List.range (w / v)).any (fun i => mask = laneMask (i * v) v))

/-- Lanes good at this end. -/
def State.ownGood (s : State) (p : Nat) : Nat := (2 ^ s.cfgWidth p - 1) &&& (255 ^^^ ((s.port p).badLanes &&& 255))

/-- The lanes in use, with the width and the flags that show it (R58). -/
def State.setLanes (p mask : Nat) (s : State) : State :=
  let w := popcount 8 mask
  let degraded := decide (w < s.cfgWidth p)
  let s := ((s.wr R.PRT_PORT_STATUS_width_active [p] (Nat.log2 w)).wr R.PRT_PORT_STATUS_degraded [p] (b2n degraded)).modPort p
    (fun r => { r with lanes := mask })
  if degraded then s.degraded (dieOfPort p) B.prt p mask else s

/-! ### Flits that leave (R62, R74, R76) -/

/-- An IDLE flit with the acknowledgement, and a credit report where one is named (R70, R76). -/
def State.idle (p : Nat) (vc : Option Nat) (s : State) : State :=
  let r := s.port p
  let s := match vc with
    | some v => s.modPort p (fun x => { x with reported := x.reported.set [v] (x.freed.get 0 [v]) })
    | none => s
  s.emit (.flit p { kind := 0, ackValid := true, ackSeq := r.expected, creditVc := vc.getD 0, creditValid := vc.isSome,
                    creditTotal := (vc.map (fun v => r.freed.get 0 [v])).getD 0 })

def State.lctl (p : Nat) (l : Lctl) (s : State) : State := s.emit (.lctl p l)

/-- NAK(expected), not again for the same value within 4 us (R76). -/
def State.sendNak (p : Nat) (s : State) : State :=
  let r := s.port p
  match r.lastNak with
  | some (e, t) => if e = r.expected ∧ s.now < t + 4000 then s else go r
  | none => go r
where
  go (r : Port) : State :=
    ((s.modPort p (fun x => { x with lastNak := some (r.expected, s.now) })).bump R.PRT_PORT_CNT_count [p, 3]).lctl p
      (.nak r.expected)

/-- The credits INIT_CREDIT names: the allowances in force, or management credit only without admit (R69, R73). -/
def State.offered (s : State) (p : Nat) : List Nat :=
  (List.range 32).map (fun vc => if vcOk vc ∧ (vc = 31 ∨ s.on R.PRT_PORT_CTL_admit [p]) then (s.port p).allowance.get 0 [vc] else 0)

/-- Send INIT_CREDIT. A VC that it enables starts its running count at 0 (R73). -/
def State.sendInitCredit (p : Nat) (s : State) : State :=
  let l := s.offered p
  (s.modPort p (fun r =>
    { r with advertised := ⟨(vcs.map (fun vc => ([vc], l.getD vc 0))).filter (fun e => decide (e.2 ≠ 0))⟩,
             freed := r.freed.keep (fun k _ => decide (r.advertised.get 0 k ≠ 0)) })).lctl p (.initCredit l)

/-- This part's CAPS on a port (R74). -/
def State.ownCaps (s : State) (p : Nat) : Caps :=
  { vendor := Config.vendor % 65536, eid := s.eid, role := 1, widths := 15, timeProfile := true, lender := Config.capsLender,
    codec := true, caching := Config.capsCaching, precode := s.on R.PRT_PORT_CFG_precode_en [p], goodLanes := s.ownGood p }

/-! ### Training (R79 to R81, R477) -/

/-- A failed attempt (R79): back to DETECT, or FAULT after the third in a row. -/
def State.failAttempt (p : Nat) (s : State) : State :=
  let n := (s.port p).attempts + 1
  (s.goDown p (if 3 ≤ n then Ps.fault else Ps.detect)).modPort p (fun r => { r with attempts := n })

/-- R477: RETRAIN, after a RETRAIN_REQ where the cause is not a loss of codeword lock. -/
def State.enterRetrain (p : Nat) (request : Bool) (s : State) : State :=
  if s.pst p ≠ Ps.active then s
  else
    let s := if request then s.lctl p .retrainReq else s
    ((s.setPst p Ps.retrain).modPort p (fun r =>
      { r with phase := Ps.lock, replays := 0, widthAt := none, widthReq := none, lane := none, laneReady := false })).portEvent p 3

/-- R449: clocks return, and every enabled port that is ACTIVE runs RETRAIN. -/
def State.wakeUp (cause : Nat) (s : State) : State :=
  if ¬ s.resting then s
  else
    let s := (s.wr R.PWR_REST_STATUS_state [] 3).wr R.PWR_REST_STATUS_cause [] cause
    ((List.range 256).filter (fun p => s.on R.PRT_PORT_CTL_enable [p])).foldl (fun t p => t.enterRetrain p false) s

/-- An access of the host that is not served in Rest wakes the part, and completes then (R448). -/
def hosted (s : State) (f : State → State) : Host.Outcome State Fault Refusal :=
  clocked s (if s.pkg.fatal then s else f (s.wakeUp 2))

/-- A protocol error that also retrains the port (R72 to R74). -/
def State.retrainError (p : Nat) (s : State) : State := (s.protoErr B.prt p).enterRetrain p true

/-- The step of R79 a port is in, within RETRAIN as outside it. -/
def State.stepOf (s : State) (p : Nat) : Nat := if s.pst p = Ps.retrain then (s.port p).phase else s.pst p

def State.setStep (p st : Nat) (s : State) : State :=
  if s.pst p = Ps.retrain then s.modPort p (fun r => { r with phase := st }) else s.setPst p st

/-- CONFIG begins: allowances come into force (R88), and CAPS and INIT_CREDIT go out at once (R477). -/
def State.enterConfig (p : Nat) (s : State) : State :=
  let s := (s.setStep p Ps.config).modPort p (fun r =>
    let next : Map Nat := ⟨(vcs.map (fun vc => ([vc], s.rd R.SWC_PORT_QUOTA_cells [p, vc]))).filter (fun e => decide (e.2 ≠ 0))⟩
    { r with completed := false, gotCaps := none, gotCredit := none, lockedAt := s.now, allowance := next,
             counted := ⟨(vcs.map (fun vc => ([vc], max (r.allowance.get 0 [vc]) (r.counted.get 0 [vc])))).filter
               (fun e => decide (next.get 0 e.1 < e.2 ∧ next.get 0 e.1 < r.heldCells.get 0 e.1 + r.stale.get 0 e.1))⟩ })
  (s.lctl p (.caps (s.ownCaps p))).sendInitCredit p

/-- The allowance of a port counted by the sum of R87. -/
def State.countedAllowance (s : State) (p vc : Nat) : Nat :=
  let r := s.port p
  let old := max (r.counted.get 0 [vc]) (if r.heldCells.get 0 [vc] + r.stale.get 0 [vc] = 0 ∧ ¬ s.isUp p then 0 else r.allowance.get 0 [vc])
  max (s.rd R.SWC_PORT_QUOTA_cells [p, vc]) old

/-- What the partner's CAPS say, in the registers (PRT_PORT_STATUS, PRT_PORT_PARTNER). -/
def State.showPartner (p : Nat) (c : Caps) (s : State) : State :=
  (((((((s.wr R.PRT_PORT_STATUS_partner_eid [p] c.eid).wr R.PRT_PORT_STATUS_partner_role [p] c.role).wr
    R.PRT_PORT_STATUS_partner_time [p] (b2n c.timeProfile)).wr R.PRT_PORT_STATUS_partner_lender [p] (b2n c.lender)).wr
    R.PRT_PORT_STATUS_partner_codec [p] (b2n c.codec)).wr R.PRT_PORT_STATUS_partner_caching [p] (b2n c.caching)).wr
    R.PRT_PORT_PARTNER_vendor [p] c.vendor).wr R.PRT_PORT_STATUS_good_lanes [p] (c.goodLanes &&& s.ownGood p)

/-- A partner of another identity (R78, R80, R85, R157, R179): both ends start from 0, admit is cleared, and the old
partner is declared dead. -/
def State.newIdentity (p : Nat) (c : Caps) (s : State) : State :=
  let old := (s.port p).identity
  let s := s.modPort p (fun r => { r with identity := some (c.vendor, c.eid) })
  match old with
  | none => s
  | some (v, e) =>
    if v = c.vendor ∧ e = c.eid then s
    else
      let caps := (s.port p).gotCaps
      let credit := (s.port p).gotCredit
      let s := (s.clearLink p).modPort p (fun r => { r with gotCaps := caps, gotCredit := credit })
      let s := (s.wr R.PRT_PORT_CTL_admit [p] 0).portEvent p 0
      let s := ((s.declareAgent e 2).settleBindings).lenderGone p
      (s.lctl p (.caps (s.ownCaps p))).sendInitCredit p

/-- R58, R81, R477: once CAPS and INIT_CREDIT have come and the checks pass, CONFIG is completed at this end, and IDLE
flits go out; a mismatch fails the attempt. -/
def State.tryComplete (p : Nat) (s : State) : State :=
  let r := s.port p
  match r.gotCaps, r.gotCredit with
  | some c, some _ =>
    if r.completed then s
    else
      match bestGroup (c.goodLanes &&& s.ownGood p) (s.cfgWidth p) c.widths with
      | none => s.failAttempt p
      | some (mask, _) =>
        if c.precode ≠ s.on R.PRT_PORT_CFG_precode_en [p] then s.failAttempt p
        else
          let s := ((s.showPartner p c).newIdentity p c).setLanes p mask
          (s.modPort p (fun x => { x with completed := true, lastCaps := some c })).idle p none
  | _, _ => s

/-- One entry of INIT_CREDIT, as CONFIG applies it (R73). -/
def applyCredit (l : List Nat) (r : Port) (vc : Nat) : Port :=
  let new := l.getD vc 0
  if r.fresh then
    { r with credit := r.credit.set [vc] new, lastTotal := r.lastTotal.erase [vc], initial := r.initial.set [vc] new }
  else
    { r with credit := r.credit.set [vc] (r.credit.get 0 [vc] + new - r.initial.get 0 [vc]), initial := r.initial.set [vc] new }

/-- Virtual channels at zero credit, and since when (R72). -/
def Port.noteZero (r : Port) (now : Nat) : Port :=
  { r with zeroSince := ⟨((vcs.filter (fun vc => decide (r.initial.get 0 [vc] ≠ 0 ∧ r.credit.get 0 [vc] ≤ 0))).map
      (fun vc => ([vc], r.zeroSince.get now [vc])))⟩ }

/-- R477: ACTIVE, on a flit other than LCTL once CONFIG is completed. The interrupted flow resumes (R77, R80). -/
def State.enterActive (p : Nat) (s : State) : State :=
  let was := s.pst p
  let s := (s.setPst p Ps.active).modPort p (fun r =>
    let r := vcs.foldl (applyCredit (r.gotCredit.getD [])) r
    let r := { r with fresh := false, phase := 0, attempts := 0, resend := r.replay.length, progressAt := s.now, downAt := none }
    r.noteZero s.now)
  if was = Ps.config then s.portEvent p 0 else s

/-- The lanes of two ports meet. -/
def State.overlap (s : State) (p q : Nat) : Bool := (s.lanesOf p).any (fun n => (s.lanesOf q).contains n)

/-- What refuses an enable (R54, R56). -/
def State.enableRefused (s : State) (p : Nat) : Bool :=
  let ls := s.lanesOf p
  let base := s.rd R.PRT_PORT_CFG_first_lane [p]
  (!s.on R.SEC_BOOT_STATUS_config_ok [] && p ≠ 0 && p ≠ 128) || base % s.cfgWidth p ≠ 0 || ls.any (fun n => decide (n / 256 ≠ dieOfPort p)) ||
  ls.any (fun n => s.rd R.PRT_LANE_CFG_reach [n] ≠ s.rd R.PRT_LANE_CFG_reach [base]) ||
  (s.listed R.PRT_PORT_CTL_enable).any (fun k => decide (k ≠ [p]) && s.overlap p (k.headD 0))

def State.enablePort (p : Nat) (s : State) : State :=
  if s.on R.PRT_PORT_CTL_enable [p] then s
  else if s.enableRefused p then s.badWrite R.PRT_PORT_CTL_enable [p]
  else ((s.wr R.PRT_PORT_CTL_enable [p] 1).setPst p Ps.detect).modPort p (fun r => { r with attempts := 0, badLanes := 0, fresh := true })

/-- R79. -/
def execPortEnable (p : Nat) (s : State) : Host.Outcome State Fault Refusal := hosted s (fun s => s.enablePort p)

def State.disablePort (p : Nat) (s : State) : State :=
  (s.wr R.PRT_PORT_CTL_enable [p] 0).goDown p Ps.disabled

/-- R78. -/
def execPortDisable (p : Nat) (s : State) : Host.Outcome State Fault Refusal := hosted s (fun s => s.disablePort p)

/-- R73: admit on an ACTIVE port names its allowances, repeated for 64 us. -/
def State.admitPort (p : Nat) (s : State) : State :=
  let s := s.wr R.PRT_PORT_CTL_admit [p] 1
  if s.isActive p then (s.modPort p (fun r => { r with repeatUntil := s.now + 64000 })).sendInitCredit p else s

/-- R73. -/
def execPortAdmit (p : Nat) (s : State) : Host.Outcome State Fault Refusal := hosted s (fun s => s.admitPort p)

def State.admitClear (p : Nat) (s : State) : State := (s.wr R.PRT_PORT_CTL_admit [p] 0).enterRetrain p true

/-- R73. -/
def execPortAdmitClear (p : Nat) (s : State) : Host.Outcome State Fault Refusal := hosted s (fun s => s.admitClear p)

/-- R80. -/
def execRetrain (p : Nat) (s : State) : Host.Outcome State Fault Refusal := hosted s (fun s => s.enterRetrain p true)

/-- The superframe under way on a port: 12.434 us each (R60), counted from LOCK. -/
def State.superframe (s : State) (p : Nat) : Nat := (s.now - (s.port p).lockedAt) * 7 / 87040

/-- Ask for a new lane mask four superframes ahead (R83). -/
def State.askWidth (p mask : Nat) (s : State) : State :=
  let sf := s.superframe p + 4
  (s.modPort p (fun r => { r with widthReq := some (sf, mask) })).lctl p (.widthChange sf mask true)

/-- R84, step 1: narrow to the largest group without the lane; on x1 the port retrains. -/
def State.laneOut (p lane : Nat) (s : State) : State :=
  if ¬ s.isActive p ∨ (s.port p).lane.isSome then s
  else if s.activeWidth p ≤ 1 then s.enterRetrain p true
  else
    match bestGroup (((s.port p).lanes ^^^ 2 ^ lane) &&& (s.port p).lanes) (s.cfgWidth p) 15 with
    | some (mask, _) => (s.modPort p (fun r => { r with lane := some lane, laneReady := false })).askWidth p mask
    | none => s.enterRetrain p true

/-- R84. -/
def execLaneRetrain (p lane : Nat) (s : State) : Host.Outcome State Fault Refusal := hosted s (fun s => s.laneOut p lane)

/-- R84: the lane's limit was passed for 16 superframes. -/
def execLaneSerExceeded (p lane : Nat) (s : State) : Host.Outcome State Fault Refusal :=
  serving s (if s.rd R.PRT_LANE_CFG_ser_limit [s.rd R.PRT_PORT_CFG_first_lane [p] + lane] = 0 then s else s.laneOut p lane)

/-- R79: signal for 1 ms. -/
def execSignalDetect (p : Nat) (s : State) : Host.Outcome State Fault Refusal :=
  serving s (if s.pst p = Ps.detect then s.setPst p Ps.equalise else s)

/-- R79: link training ends; for a lane retrained alone, that lane's (R84). -/
def execEqualiseDone (p failed : Nat) (s : State) : Host.Outcome State Fault Refusal :=
  serving s (
    if s.stepOf p = Ps.equalise then
      let s := s.modPort p (fun r => { r with badLanes := r.badLanes ||| failed })
      if s.ownGood p = 0 then s.failAttempt p else s.setStep p Ps.lock
    else
      match (s.port p).lane with
      | some l =>
        if s.isActive p ∧ bitAt failed l then
          s.modPort p (fun r => { r with badLanes := r.badLanes ||| 2 ^ l, lane := none, laneReady := false })
        else s
      | none => s)

/-- R57: the lanes of a port lock, the late ones marked bad; without any the attempt fails, in RETRAIN after another
EQUALISE. A lane retrained alone widens the port again (R84). -/
def execLockDone (p late : Nat) (reversed : Bool) (s : State) : Host.Outcome State Fault Refusal :=
  serving s (
    if s.stepOf p = Ps.lock then
      let s := (s.wr R.PRT_PORT_STATUS_lane_reversed [p] (b2n reversed)).modPort p (fun r => { r with badLanes := r.badLanes ||| late })
      if s.ownGood p = 0 then
        (if s.pst p = Ps.retrain then (s.modPort p (fun r => { r with badLanes := 0 })).setStep p Ps.equalise else s.failAttempt p)
      else s.enterConfig p
    else
      match (s.port p).lane with
      | some l =>
        if s.isActive p ∧ (s.port p).laneReady then
          match bestGroup (((s.port p).lanes ||| 2 ^ l) &&& s.rd R.PRT_PORT_STATUS_good_lanes [p] ||| (s.port p).lanes)
              (s.cfgWidth p) 15 with
          | some (mask, _) => (s.modPort p (fun r => { r with lane := none, laneReady := false })).askWidth p mask
          | none => s
        else s
      | none => s)

/-- The limit of a state in ns (R79). -/
def State.trainLimit (s : State) (p : Nat) : Option Nat :=
  let st := s.pst p
  if st = Ps.equalise then
    some (if s.on R.PRT_LANE_CFG_reach [s.rd R.PRT_PORT_CFG_first_lane [p]] then 200000000 else 50000000)
  else if st = Ps.lock then some 2000000
  else if st = Ps.config then some 100000
  else if st = Ps.retrain then some 5000000
  else none

/-- R79: a state past its limit fails the attempt. -/
def execTrainingTimeout (p : Nat) (s : State) : Host.Outcome State Fault Refusal :=
  serving s (
    match s.trainLimit p with
    | some l => if l ≤ s.now - (s.port p).since then s.failAttempt p else s
    | none => s)

/-- R477: CAPS and INIT_CREDIT again, and IDLE once CONFIG is completed. -/
def execConfigRepeat (p : Nat) (s : State) : Host.Outcome State Fault Refusal :=
  serving s (
    if s.stepOf p = Ps.config then
      let t := (s.lctl p (.caps (s.ownCaps p))).sendInitCredit p
      if (s.port p).completed then t.idle p none else t
    else s)

/-- R73. -/
def execInitCreditRepeat (p : Nat) (s : State) : Host.Outcome State Fault Refusal :=
  serving s (if s.isActive p ∧ s.now ≤ (s.port p).repeatUntil then s.lctl p (.initCredit (s.offered p)) else s)

/-! ### Flits received (R61, R65, R68, R70, R72, R75 to R77) -/

/-- Release flits older than `a`, unless it is stale (R77). -/
def Port.release (r : Port) (a now : Nat) : Port × Bool :=
  match r.replay with
  | [] => (r, false)
  | f :: _ =>
    let k := dist 12 a f.seq
    if k ≤ r.replay.length then
      ({ r with replay := r.replay.drop k, resend := min r.resend (r.replay.length - k),
                replays := if k = 0 then r.replays else 0, progressAt := if k = 0 then r.progressAt else now }, true)
    else (r, false)

/-- A credit report (R70). -/
def Port.credited (r : Port) (vc total now : Nat) : Port :=
  if r.initial.get 0 [vc] = 0 then r
  else
    let back := dist 12 total (r.lastTotal.get 0 [vc])
    Port.noteZero { r with credit := r.credit.set [vc] (r.credit.get 0 [vc] + back), lastTotal := r.lastTotal.set [vc] total } now

/-- A cell of a message that is not kept is freed at once: it has used its credit (R68). -/
def Port.refund (r : Port) (vc : Nat) : Port := { r with freed := r.freed.set [vc] ((r.freed.get 0 [vc] + 1) % 4096) }

/-- Another cell of a message already in the switch core (R90, R91, R103). A cell of one that is gone, or has been failed,
is freed at once (R93). -/
def State.extend (p vc : Nat) (marked : Bool) (s : State) : State :=
  let mine (q : QMsg) : Bool :=
    decide (q.inPort = some p ∧ q.msg.vc = vc ∧ q.have_ < q.total ∧ q.failed = 0 ∧ q.epoch = (s.port p).epoch)
  let up (q : QMsg) : QMsg :=
    if mine q then
      { q with have_ := q.have_ + 1, time := s.now, cms := q.cms + b2n marked <<< q.have_,
               msg := { q.msg with cm := q.msg.cm || marked } }
    else q
  if (s.sw.queues.vals ++ s.sw.agentIn.vals ++ [s.sw.partials.map (·.2)]).flatten.any mine then
    let done := s.sw.partials.filter (fun e => decide ((up e.2).have_ = e.2.total))
    let s : State := { s with sw := { s.sw with
      queues := s.sw.queues.each (fun _ l => l.map up), agentIn := s.sw.agentIn.each (fun _ l => l.map up),
      partials := (s.sw.partials.filter (fun e => decide ((up e.2).have_ ≠ e.2.total))).map (fun e => (e.1, up e.2)) } }
    done.foldl (fun t e => t.resequence e.1 (up e.2)) s
  else
    s.modPort p (fun r => { (r.refund vc) with heldCells := r.heldCells.set [vc] (r.heldCells.get 0 [vc] - 1) })

/-- A message in the switch core fails its count (R68, R93): one that has begun to leave is failed, one that has not is
discarded whole. -/
def State.malformed (p vc kind : Nat) (s : State) : State :=
  let s := (s.protoErr B.prt p).failIncomplete p (some vc) kind
  match (s.port p).rx.get? [vc] with
  | some x =>
    if x.arrived ∨ x.bad then s
    else s.modPort p (fun r => { r with heldCells := r.heldCells.set [vc] (r.heldCells.get 0 [vc] - x.flits),
                                        freed := r.freed.set [vc] ((r.freed.get 0 [vc] + x.flits) % 4096) })
  | none => s

/-- A sequenced flit taken in order: message assembly (R65, R68, R72). -/
def State.takeCell (p : Nat) (f : Flit) (s : State) : State :=
  let vc := f.chan * 8 + f.tc
  let r := s.port p
  if ¬ vcOk vc then s.protoErr B.prt p
  else if r.advertised.get 0 [vc] ≤ r.heldCells.get 0 [vc] then s.retrainError p
  else
    let open_ := match r.rx.get? [vc] with
      | some x => decide (x.flits < x.total)
      | none => false
    if f.kind = 1 then
      let total := ceilDiv (16 + bitsOf f.payload 64 13) 240
      let s := if open_ then s.malformed p vc 1 else s
      if f.last = decide (total = 1) ∧ bitsOf f.payload 64 13 ≤ 4096 then
        s.modPort p (fun x => { x with rx := x.rx.set [vc] { flits := 1, total := total, cms := b2n f.cm },
                                       heldCells := x.heldCells.set [vc] (x.heldCells.get 0 [vc] + 1) })
      else
        (s.protoErr B.prt p).modPort p (fun x => { (x.refund vc) with rx := if f.last then x.rx.erase [vc]
                                                                        else x.rx.set [vc] { total := 18, bad := true } })
    else
      match r.rx.get? [vc] with
      | none => (s.protoErr B.prt p).modPort p (fun x => x.refund vc)
      | some x =>
        if x.bad then s.modPort p (fun y => { (y.refund vc) with rx := if f.last then y.rx.erase [vc] else y.rx })
        else if f.last = decide (x.flits + 1 = x.total) ∧ x.flits < x.total then
          let s := s.modPort p (fun y => { y with rx := y.rx.set [vc] { x with flits := x.flits + 1, cms := x.cms + b2n f.cm <<< x.flits },
                                                  heldCells := y.heldCells.set [vc] (y.heldCells.get 0 [vc] + 1) })
          if x.arrived then s.extend p vc f.cm else s
        else
          (s.malformed p vc (if f.last then 1 else 2)).modPort p (fun y =>
            { (y.refund vc) with rx := if f.last then y.rx.erase [vc] else y.rx.set [vc] { total := 18, bad := true } })

/-- A flit that passes its CRC ends the runs of uncorrectable codewords: at once on one lane; on more, where a flit does not
tell its lane, once as many have come as a codeword time brings on all of them (R57, R61). -/
def Port.sound (r : Port) : Port :=
  let w := popcount 8 r.lanes
  if (if w ≤ 1 then 1 else 3 * w) ≤ r.goodRun + 1 then { r with badRun := Map.empty, goodRun := 0 }
  else { r with goodRun := r.goodRun + 1 }

/-- The fields every flit that passes its CRC carries (R70, R76). -/
def State.takeHeader (p : Nat) (f : Flit) (s : State) : State :=
  s.modPort p (fun r =>
    let r := if f.ackValid then (r.release f.ackSeq s.now).1 else r
    let r := if f.creditValid ∧ vcOk f.creditVc then r.credited f.creditVc f.creditTotal s.now else r
    r.sound)

/-- A sequenced flit (R76). -/
def State.takeSequenced (p : Nat) (f : Flit) (s : State) : State :=
  let d := dist 12 f.seq (s.port p).expected
  if d = 0 then
    ((s.modPort p (fun r => { r with expected := (r.expected + 1) % 4096, lastNak := none })).takeCell p f).idle p none
  else if d ≤ 2047 then s.sendNak p
  else (s.bump R.PRT_PORT_CNT_count [p, 5]).idle p none

/-- R76. -/
def execFlitReceived (p : Nat) (f : Flit) (crcOk : Bool) (s : State) : Host.Outcome State Fault Refusal :=
  serving s (
    if s.stepOf p ≠ Ps.config ∧ s.stepOf p ≠ Ps.active then s
    else if ¬ crcOk then ((s.bump R.PRT_PORT_CNT_count [p, 0]).corrected (dieOfPort p) B.prt p).sendNak p
    else
      let s := s.takeHeader p f
      let s := if s.stepOf p = Ps.config ∧ (s.port p).completed ∧ f.kind ≠ 3 then s.enterActive p else s
      if 4 < f.kind then s.protoErr B.prt p
      else if f.kind = 3 ∧ (fieldOf f.payload 0 0 8 = 0 ∨ 5 < fieldOf f.payload 0 0 8) then s.bump R.PRT_PORT_CNT_count [p, 6]
      else if (f.kind = 1 ∨ f.kind = 2) ∧ s.isActive p then s.takeSequenced p f
      else s)

/-- R61. -/
def execCodewordUncorrectable (p lane flits : Nat) (s : State) : Host.Outcome State Fault Refusal :=
  serving s (
    let n := (s.port p).badRun.get 0 [lane] + 1
    let s := ((s.bump R.PRT_PORT_CNT_count [p, 1]).bumpBy R.PRT_PORT_CNT_count [p, 0] flits).modPort p
      (fun r => { r with badRun := r.badRun.set [lane] n, goodRun := 0 })
    let s := if flits = 0 ∨ ¬ s.isActive p then s else s.sendNak p
    if 8 ≤ n then s.enterRetrain p false else s)

/-- R77. -/
def execNak (p e : Nat) (s : State) : Host.Outcome State Fault Refusal :=
  serving s (
    let r := (s.port p).release e s.now
    if r.2 then (s.modPort p (fun _ => { r.1 with resend := r.1.replay.length })).bump R.PRT_PORT_CNT_count [p, 4] else s)

/-- R73, in ACTIVE: false where a value differs from the old one. -/
def creditSame (l : List Nat) (r : Port) : Bool :=
  vcs.all (fun vc => r.initial.get 0 [vc] = 0 || r.initial.get 0 [vc] = l.getD vc 0)

/-- R73. -/
def execInitCredit (p : Nat) (cr : List Nat) (s : State) : Host.Outcome State Fault Refusal :=
  serving s (
    if s.stepOf p = Ps.config then (s.modPort p (fun r => { r with gotCredit := some cr })).tryComplete p
    else if s.isActive p then
      if creditSame cr (s.port p) then
        s.modPort p (fun r => Port.noteZero (vcs.foldl (fun x vc =>
          if x.initial.get 0 [vc] = 0 ∧ cr.getD vc 0 ≠ 0 then
            { x with credit := x.credit.set [vc] (cr.getD vc 0), lastTotal := x.lastTotal.erase [vc],
                     initial := x.initial.set [vc] (cr.getD vc 0) }
          else x) r) s.now)
      else s.retrainError p
    else s)

/-- R74. -/
def execCaps (p : Nat) (c : Caps) (s : State) : Host.Outcome State Fault Refusal :=
  serving s (
    if s.stepOf p = Ps.config then (s.modPort p (fun r => { r with gotCaps := some c })).tryComplete p
    else if s.isActive p ∧ (s.port p).lastCaps ≠ some c then s.retrainError p
    else s)

/-! ### Width changes (R83, R84) -/

/-- R83. -/
def execWidthChange (p sf mask : Nat) (req : Bool) (s : State) : Host.Outcome State Fault Refusal :=
  serving s (
    if ¬ s.isActive p then s
    else if req then
      if (s.port p).widthReq.isSome ∧ s.eid < s.partnerEid p then s
      else
        let good := s.rd R.PRT_PORT_STATUS_good_lanes [p] &&& s.ownGood p
        let ok := legalMask mask (s.cfgWidth p) && mask &&& good = mask && decide (s.superframe p ≤ sf)
        let mask := if ok then mask else (s.port p).lanes
        (s.modPort p (fun r => { r with widthReq := none, widthAt := some (sf, mask) })).lctl p (.widthChange sf mask false)
    else if (s.port p).widthReq.isSome then s.modPort p (fun r => { r with widthReq := none, widthAt := some (sf, mask) })
    else s)

/-- R83: the agreed superframe starts. A lane to be retrained alone is out from then on (R84). -/
def execStripingChange (p : Nat) (s : State) : Host.Outcome State Fault Refusal :=
  serving s (
    match (s.port p).widthAt with
    | some (_, mask) =>
      let s := (s.setLanes p mask).portEvent p 2
      s.modPort p (fun r => { r with widthAt := none, laneReady := (r.lane.map (fun l => !bitAt mask l)).getD false })
    | none => s)

/-- R477. -/
def execRetrainReq (p : Nat) (s : State) : Host.Outcome State Fault Refusal := serving s (s.enterRetrain p false)

/-- R77. -/
def execReplayTimeout (p : Nat) (s : State) : Host.Outcome State Fault Refusal :=
  serving s (
    let r := s.port p
    if s.isActive p ∧ r.replay ≠ [] ∧ 64 * s.rd R.PRT_PORT_CFG_replay_timeout [p] ≤ s.now - r.progressAt then
      if s.rd R.PRT_PORT_CFG_retry_limit [p] ≤ r.replays then s.enterRetrain p true
      else (s.modPort p (fun x => { x with replays := x.replays + 1, resend := x.replay.length, progressAt := s.now })).bump
        R.PRT_PORT_CNT_count [p, 4]
    else s)

/-- R70. -/
def execCreditReport (p : Nat) (s : State) : Host.Outcome State Fault Refusal :=
  serving s (
    if s.isActive p then
      (vcs.filter (fun vc => decide ((s.port p).advertised.get 0 [vc] ≠ 0))).foldl (fun t vc => t.idle p (some vc)) s
    else s)

/-- R72. -/
def execCreditStall (p vc : Nat) (s : State) : Host.Outcome State Fault Refusal :=
  serving s (
    match (s.port p).zeroSince.get? [vc] with
    | some t => if s.isUp p ∧ 10000000 ≤ s.now - t then s.portEvent p 5 else s
    | none => s)

/-! ### Signal (R85) -/

/-- R85. -/
def execSignalLoss (p : Nat) (s : State) : Host.Outcome State Fault Refusal :=
  serving s (if s.pst p = Ps.disabled ∨ s.pst p = Ps.fault ∨ s.pst p = Ps.detect then s else s.goDown p Ps.detect)

/-- R85: loss on some lanes only. -/
def execLaneSignalLoss (p mask : Nat) (lctl : Bool) (s : State) : Host.Outcome State Fault Refusal :=
  serving s (
    if ¬ s.isActive p then s
    else
      let s := s.modPort p (fun r => { r with badLanes := r.badLanes ||| mask })
      let left := (s.port p).lanes &&& s.ownGood p
      match (if lctl then bestGroup left (s.cfgWidth p) 15 else none) with
      | some (m, _) => if m = (s.port p).lanes then s else s.askWidth p m
      | none => s.enterRetrain p true)

end Sys2Proof.Machine
end

