-- ==== Sys2Proof/Machine/Switch.lean ====
section
/-! DEFINITION. The switch core: arrival, routing, egress scheduling, resequencing limits, map generations, mirrors
(R16, R26 to R28, R65, R67, R70, R75, R86 to R110, R176, R187, R311, R312, R329, R402). -/

namespace Sys2Proof.Machine

/-! ### Mirrors and samples (R108 to R110) -/

/-- A sample's record (R110). -/
def sampleRecord (q : QMsg) (m : Msg) (out : Nat) (agent : Bool) (session depth seq : Nat) : Nat :=
  layout [(0, 0, 64, q.ft), (8, 0, 8, q.inPort.getD 0), (8, 8, 1, b2n q.inPort.isNone), (8, 16, 8, if agent then 0 else out),
    (8, 24, 1, b2n agent), (12, 0, 5, m.vc), (12, 8, 8, session), (12, 16, 16, min 0xFFFF depth), (16, 0, 32, seq)] +
  (bitsOf m.bits 0 1024) <<< 512

/-- A firefly sample of a session: written in the ring, or dropped where the ring is full or the die's rate is spent. -/
def State.sample (k : Nat) (q : QMsg) (m : Msg) (out : Nat) (agent : Bool) (s : State) : State :=
  let d := k / 16
  let records := s.rd R.SWC_FF_RING_records []
  if records = 0 then s
  else
    let prod := s.rd R.SWC_FF_PROD_count []
    let sec := s.now / 1000000000
    let used := match s.sw.sampleRate.get? [d] with
      | some (t, n) => if t = sec then n else 0
      | none => 0
    let seq := s.sw.sampleSeq.get 0 [k]
    let s : State := { s with sw := { s.sw with sampleSeq := s.sw.sampleSeq.set [k] ((seq + 1) % 2 ^ 32) } }
    if dist 32 prod (s.rd R.SWC_FF_CONS_count []) = records ∨ 16000000 ≤ used then
      (s.bump R.SWC_FF_DROP_count []).event B.swc 4
    else
      let rec_ := sampleRecord q m out agent k (if agent then 0 else s.depthVc out m.vc) seq
      let at_ := s.rd R.SWC_FF_RING_base [] + 192 * (prod % records)
      State.wr R.SWC_FF_PROD_count [] (prod + 1) { s with
        sram := Mem.writeAll s.sram at_ (bytesOfNat 192 rec_),
        sw := { s.sw with sampleRate := s.sw.sampleRate.set [d] (sec, used + 1) } }

/-- A copy for the analysis port (R108, R109). -/
def State.mirrorCopy (k : Nat) (m : Msg) (s : State) : State :=
  let d := k / 16
  let port := s.rd R.SWC_MIRROR_dest_port [k]
  let c : Msg := { m with ordered := false, tc := s.rd R.SWC_MIRROR_copy_tc [k], chan := if m.chan = Ch.mgt then Ch.req else m.chan }
  if s.agentRoom d c.tenant c.flits then
    let q : QMsg := { msg := c, id := s.sw.nextId, die := d, have_ := c.flits, total := c.flits, time := s.now, ft := s.ftDie d,
                      copy := true, cms := if m.cm then 2 ^ c.flits - 1 else 0 }
    State.enqueue port q (State.takeAgentCells d c.tenant c.flits { s with sw := { s.sw with nextId := s.sw.nextId + 1 } })
  else s.bump R.SWC_PORT_CNT_count [port, 6]

/-- Whether session `k` takes this message, and what the choice leaves behind (R108). -/
def State.selects (k : Nat) (s : State) : Bool × State :=
  let n := s.rd R.SWC_MIRROR_n [k]
  if s.on R.SWC_MIRROR_deterministic [k] then
    let c := s.sw.mirrorCount.get 0 [k] + 1
    (decide (n ≠ 0 ∧ c % n = 0), { s with sw := { s.sw with mirrorCount := s.sw.mirrorCount.set [k] c } })
  else (decide (n ≠ 0 ∧ s.freeVal % n = 0), s.drew)

/-- The sessions that observe a message on a port, `egress` or ingress (R108). -/
def State.observers (s : State) (egress : Bool) (p : Nat) (m : Msg) : List Nat :=
  ((s.listed R.SWC_MIRROR_mode).map (·.headD 0)).filter (fun k =>
    s.rd R.SWC_MIRROR_port [k] = p && s.on R.SWC_MIRROR_dir [k] = egress && k / 16 = dieOfPort p &&
    (¬ s.on R.SWC_MIRROR_match [k] ||
      (s.rd R.SWC_MIRROR_flow [k] = m.flow && s.rd R.SWC_MIRROR_dst_eid [k] = m.dst)))

/-- A message crosses an observed port. -/
def State.observe (egress : Bool) (p : Nat) (q : QMsg) (m : Msg) (out : Nat) (agent : Bool) (s : State) : State :=
  (s.observers egress p m).foldl (fun t k =>
    if t.rd R.SWC_MIRROR_mode [k] = 1 then t.mirrorCopy k m
    else if t.rd R.SWC_MIRROR_mode [k] = 2 then
      let r := t.selects k
      if r.1 then r.2.sample k q m out agent else r.2
    else t) s

/-! ### Arrival (R26, R91, R94 to R97, R125, R187) -/

/-- A message is refused to its requester, or only dropped where it is no request. -/
def State.reject (p : Nat) (q : QMsg) (st : Status) (s : State) : State :=
  let s := s.dropReader q
  if q.msg.chan = Ch.req then s.refuse (dieOfPort p) q.msg st else s

/-- The expander's die of a compressed message of an undeclared type counts it (R311). -/
def State.undeclared (p : Nat) (q : QMsg) (s : State) : State :=
  ((s.bump R.CDC_CNT_count [dieOfPort p, 7]).protoErr B.swc p).reject p q .unsupported

/-- A message consumed here (R26, R67, R112, R311). -/
def State.consumeHere (p : Nat) (q : QMsg) (s : State) : State :=
  let m := q.msg
  let d := dieOfPort p
  if ¬ knownTypes.contains m.ty ∨ m.chan ≠ chanOf m.ty then (s.protoErr B.swc p).reject p q .unsupported
  else if m.compressed ∧ ¬ compressible m.ty then s.undeclared p q
  else if isMemory m.ty ∧ nodeOf m.addr ≠ s.node ∧ (s.lendOf (nodeOf m.addr)).isNone ∧
      ¬ (s.isPuppet ∧ nodeOf m.addr = s.pair.node) then
    (s.bump R.TRK_CNT_count [d, 11]).reject p q .nodeLost
  else
    let o := s.consumeDie m
    (s.observe false p q m o true).toOutput (256 + o) true q

/-- A forwarded message may cut through (R91). -/
def State.cutsThrough (s : State) (p o : Nat) (m : Msg) : Bool :=
  ¬ bitAt (s.rd R.SWC_PORT_CFG_saf [o]) m.tc && s.activeWidth o ≤ s.activeWidth p

/-- A message goes out through a group (R95, R100, R312). -/
def State.forwardBy (t : Tables) (g p : Nat) (q : QMsg) (s : State) : State :=
  let m := q.msg
  match s.chooseHop t g m with
  | none => s.discardUnrouted q
  | some (o, i) =>
    let s : State := { s with sw := { s.sw with rotate := s.sw.rotate.set [g] i } }
    if m.compressed ∧ ¬ s.on R.PRT_PORT_STATUS_partner_codec [o] then (s.protoErr B.swc o).reject p q .unsupported
    else
      let q := { q with group := some (g, m.mapGen), cutThrough := s.cutsThrough p o m }
      (s.observe false p q m o false).toOutput o (s.isEdge o && s.partnerEid o = m.dst) q

/-- A multicast (R96). -/
def State.multicast (t : Tables) (k p : Nat) (q : QMsg) (s : State) : State :=
  let m := q.msg
  if m.ordered then (s.protoErr B.swc p).dropReader q
  else
    let e := t.mcast.get (0, false, false) [k]
    let up := (List.range 256).filter (fun o => bitAt e.1 o && s.isUp o)
    let bad := up.filter (fun o => m.compressed && ! s.on R.PRT_PORT_STATUS_partner_codec [o])
    let s := bad.foldl (fun a o => a.protoErr B.swc o) s
    let outs := up.filter (fun o => ¬ bad.contains o) ++ (if e.2.1 then [256] else []) ++ (if e.2.2 then [257] else [])
    match outs with
    | [] => if up = [] then (s.bump R.SWC_PORT_CNT_count [p, 3]).dropReader q else s.dropReader q
    | o :: _ =>
      outs.foldl (fun a x => a.deliverOut x { q with shared := true })
        (s.observe false p q m (if o < 256 then o else o - 256) (decide (256 ≤ o)))

/-- The forwarded entry that a lender's response answers (R130): type, tag and requester agree. -/
def State.fwdFor (s : State) (p : Nat) (m : Msg) : Option (Key × Fwd) :=
  s.trk.fwd.entries.find? (fun e => decide (e.2.port = p ∧ e.2.members = [] ∧ e.2.msg.src = m.dst ∧ e.2.msg.tag = m.rtag ∧
    m.ty = (if e.2.msg.ty = 0x13 then 0x32 else if e.2.msg.ty = 0x14 then 0x33 else e.2.msg.ty + 0x20)))

/-- A lender's response passes its proxy (R130, R177): none where it matches no live entry. The answer to a combined request
has its entry in the tracker (`State.respond`). -/
def State.passLender (p : Nat) (m : Msg) (s : State) : Option (Msg × State) :=
  match s.fwdFor p m with
  | none => none
  | some (k, f) =>
    let left := f.remaining - (m.len - 16)
    let m := if s.on R.SEC_ISO_active [] then { m with load := 0 } else m
    if m.ty = 0x31 ∧ m.status = 0 ∧ left ≠ 0 then
      some (m, { s with trk := { s.trk with fwd := s.trk.fwd.set k { f with remaining := left } } })
    else some (m, s.dropFwd (k.headD 0) (k.getD 1 0))

/-- Routing (R94 to R97, R176, R187). -/
def State.routeIn (p : Nat) (q : QMsg) (s : State) : State :=
  let m := q.msg
  match s.tablesFor m with
  | .inr st => (s.bump R.SWC_PORT_CNT_count [p, 2]).reject p q st
  | .inl t =>
    if s.inLostRange m then (s.countLost (dieOfPort p) m).reject p q (lostStatus m.ty)
    else if s.isLocal m ∨ t.routeOf m.dst = .loc then s.consumeHere p q
    else
      match t.routeOf m.dst with
      | .group g => s.forwardBy t g p q
      | .mcast k => s.multicast t k p q
      | _ => s.discardUnrouted q

/-- Responses of loads, stores and atomics. -/
def isAnswer (ty : Nat) : Bool := 0x30 ≤ ty && ty ≤ 0x33

/-- A port behind which a lender is (R176). -/
def State.isLending (s : State) (p : Nat) : Bool := (s.listed R.POL_LEND_valid).any (fun k => s.rd R.POL_LEND_port k = p)

/-- The checks at the port a message came in on (R16, R27, R89, R94, R125, R312, R412). -/
def State.ingress (p : Nat) (q : QMsg) (s : State) : State :=
  let m := q.msg
  let d := dieOfPort p
  let edge := s.isEdge p
  if m.dst = 0xFFFF ∨ (edge ∧ 0xB0 ≤ m.ty ∧ m.ty ≤ 0xBF) then (s.protoErr B.swc p).dropReader q
  else if edge ∧ m.chan = Ch.req then
    let s := s.edgeChecked p
    match s.edgeFails (some p) p m with
    | some (step, st) => ((s.edgeRefused p step m).dropReader q).refuse d m st
    | none =>
      if m.compressed ∧ ¬ s.on R.PRT_PORT_STATUS_partner_codec [p] then (s.protoErr B.swc p).reject p q .unsupported
      else s.routeIn p q
  else if edge ∧ (m.tenant ≠ s.rd R.SWC_PORT_CFG_tenant [p] ∨
      (m.compressed ∧ ¬ s.on R.PRT_PORT_STATUS_partner_codec [p])) then (s.protoErr B.swc p).dropReader q
  else
    let bad := edge && m.chan = Ch.rsp && decide (14 ≤ m.status)
    let m := if bad then { m with status := Status.unsupported.code } else m
    let s := if bad then s.protoErr B.swc p else s
    if isAnswer m.ty ∧ s.isLending p then
      match s.passLender p m with
      | some (m, s) => s.routeIn p { q with msg := m }
      | none => if m.dst = s.eid then s.routeIn p { q with msg := m } else (s.dropReader q).lateDiscard d
    else s.routeIn p { q with msg := m }

/-- R26: the message whose first cell stands in the buffer, or a message that comes whole. -/
def execMessageArrival (p : Nat) (m : Msg) (s : State) : Host.Outcome State Fault Refusal :=
  serving s (
    if ¬ s.isActive p then s
    else if ¬ vcOk m.vc then s.protoErr B.swc p
    else
      let r := s.port p
      let n := m.flits
      let q : QMsg := { msg := m, id := s.sw.nextId, inPort := some p, die := dieOfPort p, total := n, epoch := r.epoch,
                        time := s.now, ft := s.ftDie (dieOfPort p) }
      let s : State := { s with sw := { s.sw with nextId := s.sw.nextId + 1 } }
      let x := r.rx.get { arrived := true } [m.vc]
      if x.arrived ∨ x.bad then
        (s.modPort p (fun r => { r with heldCells := r.heldCells.set [m.vc] (r.heldCells.get 0 [m.vc] + n) })).ingress p
          { q with have_ := n, cms := if m.cm then 2 ^ n - 1 else 0 }
      else
        (s.modPort p (fun r => { r with rx := r.rx.set [m.vc] { x with arrived := true } })).ingress p
          { q with have_ := min n x.flits, cms := x.cms })

/-! ### Egress (R65, R70, R75, R90, R93, R105, R329, R402) -/

def State.setQueue (p vc : Nat) (l : List QMsg) (s : State) : State :=
  { s with sw := { s.sw with queues := if l = [] then s.sw.queues.erase [p, vc] else s.sw.queues.set [p, vc] l } }

/-- The first message of each tenant, tenants in turn after the one last served (R402). -/
def tenantTurn (l : List QMsg) (last : Nat) : Option QMsg :=
  argMin (fun q => (q.msg.tenant + 31 - last) % 32) (l.filter (fun q => (l.find? (fun r => r.msg.tenant = q.msg.tenant)) = some q))

/-- The message a queue sends from: one already begun, else the first, or in strict isolation that of the tenant whose turn
it is (R65, R90, R402). -/
def State.headOf (s : State) (p vc : Nat) : Option QMsg :=
  let l := s.sw.queues.get [] [p, vc]
  match l.find? (fun q => q.sent ≠ 0) with
  | some q => some q
  | none => if s.on R.SEC_ISO_active [] then tenantTurn l (s.sw.lastTenant.get 31 [p, vc]) else l.head?

/-- A message that may send its next flit (R91, R93). -/
def QMsg.ready (q : QMsg) : Bool :=
  q.failed ≠ 0 || q.have_ = q.total || (q.cutThrough && decide (q.sent < q.have_))

/-- An eligible queue: a ready message, and credit at the partner (R90). -/
def State.eligible (s : State) (p vc : Nat) : Bool :=
  decide (0 < (s.port p).credit.get 0 [vc]) && ((s.headOf p vc).map QMsg.ready).getD false

/-- RSP before SNP before REQ (R90). -/
def State.vcIn (s : State) (p tc : Nat) : Option Nat :=
  if tc = 7 then (if s.eligible p 31 then some 31 else none)
  else [8 + tc, 16 + tc, tc].find? (s.eligible p)

/-- The virtual channel served next: TC7, then deficit round robin over the other classes (R90). -/
def State.pickVc (p : Nat) (s : State) : Option (Nat × State) :=
  match s.vcIn p 7 with
  | some vc => some (vc, s)
  | none =>
    let cur := s.sw.serving.get 0 [p]
    match (if 0 < s.sw.deficit.get 0 [p, cur] then s.vcIn p cur else none) with
    | some vc => some (vc, s)
    | none =>
      let next := ((List.range 7).map (fun i => (cur + 1 + i) % 7)).find? (fun tc => (s.vcIn p tc).isSome)
      match next.bind (fun tc => (s.vcIn p tc).map (fun vc => (tc, vc))) with
      | none => none
      | some (tc, vc) =>
        let left : Int := if s.depthTc p cur = 0 then 0 else s.sw.deficit.get 0 [p, cur]
        let def_ := s.sw.deficit.set [p, cur] left
        some (vc, { s with sw := { s.sw with
          serving := s.sw.serving.set [p] tc,
          deficit := def_.set [p, tc] (def_.get 0 [p, tc] + s.rd R.SWC_TC_CFG_weight [tc]) } })

/-- The credit report an outgoing flit carries: a virtual channel whose running total has not been reported (R70, R88). -/
def Port.report (r : Port) : Option Nat :=
  vcs.find? (fun vc => decide (r.advertised.get 0 [vc] ≠ 0 ∧ r.freed.get 0 [vc] ≠ r.reported.get 0 [vc]))

/-- A sequenced flit goes out, new or again: its acknowledgement and credit fields are rewritten (R62, R70, R75, R76). -/
def State.putFlit (p : Nat) (f : Flit) (s : State) : State :=
  let r := s.port p
  let vc := r.report
  let s := match vc with
    | some v => s.modPort p (fun x => { x with reported := x.reported.set [v] (x.freed.get 0 [v]) })
    | none => s
  s.emit (.flit p { f with ackValid := true, ackSeq := r.expected, creditVc := vc.getD 0, creditValid := vc.isSome,
                           creditTotal := (vc.map (fun v => r.freed.get 0 [v])).getD 0 })

/-- A new flit takes a sequence number, a place in the replay buffer and a credit (R70, R75). -/
def State.newFlit (p vc : Nat) (f : Flit) (s : State) : State :=
  let f := { f with seq := (s.port p).nextSeq }
  (s.putFlit p f).modPort p (fun r => Port.noteZero
    { r with nextSeq := (r.nextSeq + 1) % 4096, replay := r.replay ++ [f],
             progressAt := if r.replay = [] then s.now else r.progressAt,
             credit := r.credit.set [vc] (r.credit.get 0 [vc] - 1) } s.now)

/-- A message marked for encoding: formed here, raw, of a compressible result type, naming a stream (R329). -/
def QMsg.marked (q : QMsg) : Bool :=
  q.inPort.isNone && ! q.copy && ! q.msg.compressed && (q.msg.ty = 0x99 || q.msg.ty = 0xA8) && decide (16 < q.msg.len) &&
  cStream q.msg ≠ 0xFFF

/-- The form in which a message leaves through a port (R329). -/
def State.onWire (p : Nat) (q : QMsg) (s : State) : QMsg × State :=
  if q.sent = 0 ∧ q.wire.isNone ∧ q.marked then
    if s.on R.PRT_PORT_STATUS_partner_codec [p] then
      let r := s.encodeMsg q.msg.die q.msg
      ({ q with wire := some r.1 }, r.2)
    else (q, s.bump R.CDC_CNT_count [q.msg.die, 9])
  else (q, s)

/-- Whether the scheduler marks a flit of a class (R105, R402). -/
def State.marks (s : State) (p : Nat) (q : QMsg) : Bool :=
  let tc := q.msg.tc
  let lim := s.rd R.SWC_MARK_CFG_threshold [p, tc]
  let depth := if s.on R.SEC_ISO_active [] then s.depthOf p q.msg.tenant [tc, 8 + tc, 16 + tc] else s.depthTc p tc
  tc ≠ 7 && lim ≠ 0 && decide (lim < depth)

/-- Replace a message of a queue, or take it out. -/
def State.putBack (p : Nat) (q : QMsg) (gone : Bool) (s : State) : State :=
  let l := s.sw.queues.get [] [p, q.msg.vc]
  s.setQueue p q.msg.vc (if gone then l.filter (fun x => x.id ≠ q.id) else l.map (fun x => if x.id = q.id then q else x))

/-- The zero-payload CONT flit that ends a failed message (R93). -/
def zeroCont (q : QMsg) (last : Bool) : Flit := { kind := 2, last := last, chan := q.msg.chan, tc := q.msg.tc }

/-- A failed message is ended so that the next device rejects it (R93). -/
def State.terminate (p : Nat) (q : QMsg) (s : State) : State :=
  if q.sent + 1 = q.total then
    (s.newFlit p q.msg.vc (zeroCont q false)).putBack p { q with sent := q.total } false
  else
    (((s.newFlit p q.msg.vc (zeroCont q true)).bump R.SWC_PORT_CNT_count [p, 7]).putBack p q true).freeCells q
      (q.have_ - min q.sent q.have_)

/-- Send the next flit of a message (R65, R86, R90, R105). -/
def State.sendNext (p : Nat) (q : QMsg) (s : State) : State :=
  let first := decide (q.sent = 0)
  let r := s.onWire p q
  let q := r.1
  let s := r.2
  let w := q.wire.getD q.msg
  let n := w.flits
  let s := if first then State.observe true p q w p false
      { s with sw := { s.sw with lastTenant := s.sw.lastTenant.set [p, w.vc] w.tenant } } else s
  let last := decide (q.sent + 1 = n) && q.failed = 0
  let mark := s.marks p q
  let f : Flit := { kind := if first then 1 else 2, last := last, chan := w.chan, tc := w.tc, cm := mark || bitAt q.cms q.sent,
                    payload := bitsOf w.bits (1920 * q.sent) 1920 }
  let s := (if mark then s.bump R.SWC_PORT_CNT_count [p, 1] else s).newFlit p w.vc f
  let s := s.bump R.SWC_PORT_CNT_count [p, 0]
  if last then (s.putBack p q true).readUpTo q q.total
  else
    let s := s.putBack p { q with sent := q.sent + 1 } false
    if q.wire.isNone then s.readUpTo q (q.sent + 1) else s

/-- The next flit of the chosen queue. -/
def State.serve (p vc : Nat) (s : State) : State :=
  match s.headOf p vc with
  | none => s
  | some q =>
    let s := if vc = 31 then s else
      { s with sw := { s.sw with deficit := s.sw.deficit.set [p, q.msg.tc] (s.sw.deficit.get 0 [p, q.msg.tc] - 1) } }
    let s := if q.failed = 1 ∨ (q.failed = 2 ∧ q.total ≤ q.sent) then s.terminate p q else s.sendNext p q
    (s.flush 0).flush 1

/-- R90. Replayed flits go first (R77). -/
def execEgressSchedule (p : Nat) (s : State) : Host.Outcome State Fault Refusal :=
  serving s (
    let r := s.port p
    if ¬ s.isActive p then s
    else if r.resend ≠ 0 then
      match r.replay[r.replay.length - r.resend]? with
      | some f => (s.putFlit p f).modPort p (fun x => { x with resend := x.resend - 1 })
      | none => s
    else if 2047 ≤ r.replay.length then s
    else
      match s.pickVc p with
      | some (vc, t) => t.serve p vc
      | none => s)

/-! ### Stalls and holes (R93, R103, R104, R109) -/

/-- SWC_CTL.ct_stall in ns. -/
def State.ctStall (s : State) : Nat := 128 * s.rd R.SWC_CTL_ct_stall []

/-- R103. -/
def execReseqTimeout (output flow : Nat) (s : State) : Host.Outcome State Fault Refusal :=
  serving s (
    let f := s.sw.flows.get {} [output, flow]
    if f.held ≠ [] ∧ 128 * s.rd R.SWC_RESEQ_CFG_timeout [] ≤ s.now - f.since then s.skipHole output flow else s)

/-- R93. -/
def execCutThroughStall (p vc : Nat) (s : State) : Host.Outcome State Fault Refusal :=
  serving s (
    match s.headOf p vc with
    | some q =>
      if q.sent ≠ 0 ∧ q.failed = 0 ∧ q.have_ < q.total ∧ q.have_ ≤ q.sent ∧ s.ctStall ≤ s.now - q.time then
        s.putBack p { q with failed := 1 } false
      else s
    | none => s)

/-- R109. -/
def execMirrorCopyStall (p : Nat) (s : State) : Host.Outcome State Fault Refusal :=
  serving s (
    let late (q : QMsg) : Bool :=
      q.copy && q.sent = 0 && decide ((s.port p).credit.get 0 [q.msg.vc] ≤ 0) &&
      decide (max q.time ((s.port p).zeroSince.get 0 [q.msg.vc]) + s.ctStall < s.now)
    (vcs.flatMap (fun vc => (s.sw.queues.get [] [p, vc]).filter late)).foldl (fun t q =>
      ((t.putBack p q true).dropReader q).bump R.SWC_PORT_CNT_count [p, 6]) s)

/-- R104: held messages are delivered in order, then the context clears. -/
def State.flowReset (v : Nat) (s : State) : State :=
  let flow := bitsOf v 0 12
  let o := if bitAt v 20 then 256 + bitsOf v 19 1 else bitsOf v 12 8
  (s.deliverAll o (s.sw.flows.get {} [o, flow]).held).setFlow o flow {}

/-- R104: held messages are delivered in order, then the context clears. -/
def execFlowReset (v : Nat) (s : State) : Host.Outcome State Fault Refusal :=
  hosted s (fun s => s.flowReset v)

/-! ### Map generations (R99) -/

/-- Staged tables may be written (R99). -/
def State.stageOpen (s : State) : Bool :=
  ¬ s.on R.SWC_MAP_STAGE_valid [] && ¬ s.on R.SWC_MAP_STATUS_switch_pending []

/-- A staged entry is written, or the write ignored (R94, R99, R478). -/
def State.stageWrite (f : Fld) (ix : List Nat) (reserved : Bool) (put : State → State) (s : State) : Status × State :=
  if reserved then (.unsupported, s.badWrite f ix)
  else if ¬ s.stageOpen then (.retry, s.badWrite f ix)
  else (.ok, put s)

def State.cmdRouteStage (e entry : Nat) (s : State) : Status × State :=
  if 65535 < e then (.unsupported, s)
  else s.stageWrite R.SWC_ROUTE_STAGE_entry [e] (bitsOf entry 0 2 = 3 || 4096 ≤ entry)
    (State.wr R.SWC_ROUTE_STAGE_entry [e] entry)

/-- R99. -/
def execRouteStage (e entry : Nat) (s : State) : Host.Outcome State Fault Refusal :=
  serving s (State.told 0x0401 (s.gated 0x0401 (s.cmdRouteStage e entry)))

def State.cmdGroupStage (g v : Nat) (s : State) : Status × State :=
  if 1023 < g then (.unsupported, s)
  else s.stageWrite R.SWC_GROUP_STAGE_group [g] (8 < bitsOf v 64 4 || 2 ^ 68 ≤ v || (bitsOf v 64 4 = 0 && v ≠ 0))
    (State.wr R.SWC_GROUP_STAGE_group [g] v)

/-- R99. -/
def execGroupStage (g v : Nat) (s : State) : Host.Outcome State Fault Refusal :=
  serving s (State.told 0x0402 (s.gated 0x0402 (s.cmdGroupStage g v)))

def State.cmdMcastStage (m ports agents : Nat) (s : State) : Status × State :=
  if 4094 < m ∨ 3 < agents then (.unsupported, s)
  else s.stageWrite R.SWC_MCAST_STAGE_ports [m] false (fun t =>
    ((t.wr R.SWC_MCAST_STAGE_ports [m] ports).wr R.SWC_MCAST_STAGE_west_agent [m] (bitsOf agents 0 1)).wr
      R.SWC_MCAST_STAGE_east_agent [m] (bitsOf agents 1 1))

/-- R99. -/
def execMcastStage (m ports agents : Nat) (s : State) : Host.Outcome State Fault Refusal :=
  serving s (State.told 0x0403 (s.gated 0x0403 (s.cmdMcastStage m ports agents)))

/-- SWC_MAP_STAGE: gen may not change while the tables are valid or a switch is pending, and valid is set only with
gen = G + 1 (R99). -/
def State.cmdStageSet (v : Nat) (s : State) : Status × State :=
  let gen := bitsOf v 0 8
  let bad := s.badWrite R.SWC_MAP_STAGE_gen []
  if 512 ≤ v then (.unsupported, bad)
  else if gen ≠ s.rd R.SWC_MAP_STAGE_gen [] ∧ ¬ s.stageOpen then (.retry, bad)
  else if bitAt v 8 ∧ gen ≠ (s.mapGen + 1) % 256 then (.unsupported, bad)
  else (.ok, (s.wr R.SWC_MAP_STAGE_gen [] gen).wr R.SWC_MAP_STAGE_valid [] (bitsOf v 8 1))

/-- R99. -/
def execStageSet (v : Nat) (s : State) : Host.Outcome State Fault Refusal :=
  serving s (State.told 0x0404 (s.gated 0x0404 (s.cmdStageSet v)))

/-- A switch is scheduled (R38, R50, R99). -/
def State.cmdMapSwitch (beat : Nat) (s : State) : Status × State :=
  if s.timeless then (.retry, s.wr R.SWC_MAP_STATUS_result [] Status.retry.code)
  else if s.on R.SWC_MAP_STATUS_switch_pending [] then (.retry, s.badWrite R.SWC_MAP_SWITCH_beat [])
  else
    (.ok, (((s.wr R.SWC_MAP_STATUS_switch_pending [] 1).wr R.SWC_MAP_STATUS_pending_beat [] (launchBeat beat s.beat)).wr
      R.SWC_MAP_STATUS_result [] 0).lateIf beat s.beat)

/-- R99. -/
def execMapSwitch (beat : Nat) (s : State) : Host.Outcome State Fault Refusal :=
  serving s (State.told 0x0405 (s.gated 0x0405 (s.cmdMapSwitch beat)))

/-- R99: at the beat the staged tables become current, where they are valid. -/
def State.switchMaps (s : State) : State :=
  let s := s.wr R.SWC_MAP_STATUS_switch_pending [] 0
  if s.on R.SWC_MAP_STAGE_valid [] then
    let t := s.staged
    let g := (s.mapGen + 1) % 256
    ((((({ s with sw := { s.sw with previous := s.sw.current, current := t } } : State).wr R.SWC_MAP_STATUS_current_gen [] g).wr
      R.SWC_MAP_STATUS_result [] 0).wr R.SWC_MAP_STAGE_valid [] 0).wr R.SWC_MAP_STAGE_gen [] (g + 1)).event B.swc 0
  else (s.wr R.SWC_MAP_STATUS_result [] Status.retry.code).event B.swc 1

/-- R99. -/
def execMapGenerationSwitch (s : State) : Host.Outcome State Fault Refusal :=
  serving s (
    if s.on R.SWC_MAP_STATUS_switch_pending [] ∧ ¬ ahead (s.rd R.SWC_MAP_STATUS_pending_beat []) s.beat then s.switchMaps
    else s)

end Sys2Proof.Machine
end

