-- ==== Sys2Proof/Machine/Pool.lean ====
section
/-! DEFINITION. Leases, revocation, sharing, lenders, limits and the pool's commands, and the states of the time unit
that leases hang on (R40, R49, R50, R160 to R190). -/

namespace Sys2Proof.Machine

/-! ### Revocation (R142, R172 to R175) -/

/-- Runs of consecutive extents, for reports and the status register. -/
def runs : List Nat → List (Nat × Nat)
  | [] => []
  | e :: t =>
    match runs t with
    | (a, b) :: r => if a = e + 1 then (e, b) :: r else (e, e) :: (a, b) :: r
    | [] => [(e, e)]

/-- What POL_REVOKE_STATUS shows of a revocation. -/
def State.showRevoke (phase : Nat) (r : Revocation) (s : State) : State :=
  ((((s.wr R.POL_REVOKE_STATUS_active [] 1).wr R.POL_REVOKE_STATUS_phase [] phase).wr R.POL_REVOKE_STATUS_first_extent []
    (r.extents.headD 0)).wr R.POL_REVOKE_STATUS_last_extent [] (r.extents.getLastD 0)).wr R.POL_REVOKE_STATUS_node [] r.node

/-- The operands of a command of a range, for the puppet's copy (R475). -/
def rangeOps (node last_ first b : Nat) : List Byte := bytesOfNat 12 (layout [(0, 0, 16, node), (2, 0, 16, b), (4, 0, 32, first),
  (8, 0, 32, last_)])

/-- Put the record of an extent of any node served here. -/
def State.putExt (node e : Nat) (x : Ext) (s : State) : State := if node = s.node then s.setOwn e x else s.setExt node e x

/-- REVOKING begins (R142, R172): bound lines are recalled. -/
def State.beginRevoke (node : Nat) (extents : List Nat) (clear : Bool) (asker : Option Asker) (s : State) : State :=
  if extents = [] then s
  else
    let r : Revocation := { node := node, extents := extents, clear := clear, since := s.now, asker := asker,
                            tell := extents.flatMap (fun e => (s.holders (s.ext node e)).map (fun h => (e, h))) }
    let s := extents.foldl (fun t e => t.putExt node e { t.ext node e with state := .revoking }) s
    let s : State := { s with pool := { s.pool with revs := s.pool.revs.set [s.pool.nextRev] r, nextRev := s.pool.nextRev + 1 } }
    let s : State := if node = s.node then
      { s with pair := { s.pair with chunks := s.pair.chunks.keep (fun k _ => ! extents.contains (k.headD 0)) } } else s
    let s := (runs extents).foldl (fun t g => if node = t.node then t.mirror 0x0106 (rangeOps node g.2 g.1 (b2n clear)) else t) s
    let s := if node = s.node then extents.foldl (fun t e => if (t.bindOf e).isSome then t.recallExtent e else t) s else s
    s.showRevoke 0 r

/-- The report REVOKE_DONE (R481). -/
def State.reportRevoke (r : Revocation) (stage : Nat) (s : State) : State :=
  (runs r.extents).foldl (fun t g => t.report 5 .ok (bytesOfNat 12 (layout [(0, 0, 16, r.node), (2, 0, 8, stage),
    (3, 0, 8, b2n r.clear), (4, 0, 32, g.1), (8, 0, 32, g.2)]))) s

/-- A request to an extent is live here (R128, R172). -/
def State.liveTo (s : State) (node e : Nat) : Bool :=
  s.trk.home.vals.any (fun h => toExtent node e h.msg) || s.trk.fwd.vals.any (fun f => toExtent node e f.msg)

/-- Nothing of a revocation's extents is live or held (R142, R172). -/
def State.drainedAll (s : State) (r : Revocation) : Bool :=
  r.extents.all (fun e => (s.ext r.node e).state ≠ .revoking ||
    (!s.liveTo r.node e && (r.node ≠ s.node || s.recalled e)))

/-- R172, R173: the drain ends; REVOKE completes and the scrub begins. -/
def State.endDrain (i : Nat) (r : Revocation) (s : State) : State :=
  let mine := r.extents.filter (fun e => (s.ext r.node e).state = .revoking)
  let s := mine.foldl (fun t e =>
    let x := t.ext r.node e
    let s := (t.bump R.POL_CNT_count [x.die, 3]).putExt r.node e { x with state := .scrub, owner := 0, group := none }
    s.tidyGroup x.group) s
  let r := { r with drained := true, left := mine }
  let s : State := { s with pool := { s.pool with revs := s.pool.revs.set [i] r } }
  let s := (s.showRevoke 2 r).event B.pol 1
  match r.asker with
  | some who => s.tell who 0x0106 .ok
  | none => s.reportRevoke r 0

/-- R172. -/
def execDrainEnd (r : Nat) (s : State) : Host.Outcome State Fault Refusal :=
  serving s (
    match s.pool.revs.get? [r] with
    | some v =>
      if v.drained then s
      else if s.drainedAll v then s.endDrain r v
      else
        let s := s.recallRest
        if v.extents.any (s.liveTo v.node) then s else s.showRevoke 1 v
    | none => s)

/-- A write or an atomic (R172). -/
def isStore (m : Msg) : Bool := m.ty = 0x12 || m.ty = 0x13 || m.ty = 0x14 || m.ty = 0x62

/-- R172: live requests to an extent complete with REVOKED. -/
def State.cutLive (node e : Nat) (s : State) : State :=
  let d := (s.ext node e).die
  let homes := s.trk.home.entries.filter (fun x => toExtent node e x.2.msg)
  let fwds := s.trk.fwd.entries.filter (fun x => toExtent node e x.2.msg)
  let writes := (homes.filter (fun x => isStore x.2.msg)).length + (fwds.filter (fun x => isStore x.2.msg)).length
  let s := (s.bumpBy R.POL_CNT_count [d, 4] (homes.length + fwds.length)).bumpBy R.POL_CNT_count [d, 5] writes
  let s := s.endLive (toExtent node e) (fun _ => .revoked)
  fwds.foldl (fun t x =>
    ((if x.2.members = [] then [x.2.msg] else x.2.members).foldl (fun u m => u.answer (x.1.headD 0) m .revoked 0 none) t).dropFwd
      (x.1.headD 0) (x.1.getD 1 0)) s

/-- R172. -/
def execDrainTimeout (r : Nat) (s : State) : Host.Outcome State Fault Refusal :=
  serving s (
    match s.pool.revs.get? [r] with
    | some v =>
      if v.drained ∨ v.late ∨ s.now - v.since < 1000 * s.rd R.POL_CFG_drain_timeout [] then s
      else
        let s := (v.extents.filter (fun e => (s.ext v.node e).state = .revoking)).foldl (fun t e => t.cutLive v.node e) s
        { s with pool := { s.pool with revs := s.pool.revs.set [r] { v with late := true } } }
    | none => s)

/-- An extent leaves its states for FREE (R173, R186, R207). -/
def State.freeExt (node e : Nat) (s : State) : State :=
  if node = s.node then (s.freeSlotOf e).setOwn e {} else s.setExt node e {}

/-- A move that the revocation stopped ends where it was going (R215). -/
def State.settleMove (e : Nat) (s : State) : State :=
  match s.tier.moves.get? [e] with
  | some m =>
    let tags := s.untag (if s.tier.loc.get? [e] = some m.dst then none else s.tier.loc.get? [e])
    let s : State := { s with tier := { s.tier with
      moves := s.tier.moves.erase [e], swaps := s.tier.swaps.erase [e], loc := s.tier.loc.set [e] m.dst, tags := tags } }
    s.setExt s.node e { s.ext s.node e with die := m.die }
  | none => s

/-- The port behind which the lender of a node is. -/
def State.lendPort (s : State) (node : Nat) : Nat := s.rd R.POL_LEND_port [(s.lendOf node).getD 0]

/-- R173, R178, R215: an extent has been cleared; a lent one by writes of zeros through its lending port. -/
def State.scrubbed (r : Revocation) (e : Nat) (s : State) : State :=
  let s := if r.node = s.node then (s.zeroExtent e).settleMove e else s.emit (.zeros (s.lendPort r.node) r.node e)
  let s := if r.clear ∨ r.release then s.freeExt r.node e
           else s.putExt r.node e { s.ext r.node e with state := .quarantine }
  (r.tell.filter (fun h => h.1 = e)).foldl (fun t h => t.notice 1 h.2 r.node e e) s

/-- The last extent of a revocation is done. -/
def State.endRevoke (i : Nat) (r : Revocation) (s : State) : State :=
  let s : State := { s with pool := { s.pool with revs := s.pool.revs.erase [i] } }
  let s := if s.pool.revs.vals.all (·.release) then s.wr R.POL_REVOKE_STATUS_active [] 0 else s
  let s := s.event B.pol 2
  if r.release then s else s.reportRevoke r 1

/-- A store to a lent extent still stands in the queues of its lending port: the zeros go after it (R178). -/
def State.storesQueued (s : State) (node e : Nat) : Bool :=
  vcs.any (fun vc => (s.sw.queues.get [] [s.lendPort node, vc]).any (fun q => toExtent node e q.msg && isStore q.msg))

/-! ### Leases (R50, R168 to R171) -/

/-- A slot owns an extent, or stands in a share group (R168). -/
def State.slotBusy (s : State) (k : Nat) : Bool :=
  s.pool.ext.vals.any (fun x => decide ((x.state = .held ∨ x.state = .revoking) ∧ x.owner = k)) ||
  (s.listed R.POL_SHARE_valid).any (fun g => s.rd R.POL_SHARE_slot g = k)

/-- Set a slot's expiry from the current beat, or leave it for the first LOCKED (R168, R169). -/
def State.setExpiry (k : Nat) (s : State) : State :=
  if s.timeless then
    State.wr R.POL_LEASE_expiry [k] 0 { s with pool := { s.pool with provisional := s.pool.provisional.set [k] () } }
  else
    State.wr R.POL_LEASE_expiry [k] (s.beat + s.rd R.POL_LEASE_duration [k])
      { s with pool := { s.pool with provisional := s.pool.provisional.erase [k] } }

/-- The operands of LEASE_SET (R475). -/
def leaseOps (slot eid tenant dur : Nat) : List Byte :=
  bytesOfNat 12 (layout [(0, 0, 16, slot), (2, 0, 16, eid), (4, 0, 8, tenant), (8, 0, 32, dur)])

def State.dropSlotEntry (k : Nat) (s : State) : State :=
  (((((s.wr R.POL_LEASE_valid [k] 0).wr R.POL_LEASE_expired [k] 0).wr R.POL_LEASE_tenant [k] 0).wr R.POL_LEASE_eid [k] 0).wr
    R.POL_LEASE_expiry [k] 0).wr R.POL_LEASE_duration [k] 0

/-- R168, R190. -/
def State.cmdLeaseSet (slot eid tenant dur : Nat) (s : State) : Status × State :=
  let old := s.on R.POL_LEASE_valid [slot]
  let busy := old && s.slotBusy slot
  if 4095 < slot ∨ 31 < tenant ∨ 65535 < eid then (.unsupported, s)
  else if dur = 0 then
    if busy then (.retry, s) else (.ok, (s.dropSlotEntry slot).mirror 0x0101 (leaseOps slot eid tenant dur))
  else if dur < 977 ∨ 58593750 < dur then (.unsupported, s)
  else if ((s.slotOf eid).map (fun k => decide (k ≠ slot))).getD false then (.unsupported, s)
  else if ¬ s.tenantActive tenant then (.protViolation, s)
  else if busy ∧ (s.rd R.POL_LEASE_eid [slot] ≠ eid ∨ s.rd R.POL_LEASE_tenant [slot] ≠ tenant) then (.retry, s)
  else
    let s : State := if old then s else
      { s with pool := { s.pool with tokens := (s.pool.tokens.erase [0, 0, slot]).erase [1, 0, slot] } }
    let s := (((((s.wr R.POL_LEASE_valid [slot] 1).wr R.POL_LEASE_expired [slot] 0).wr R.POL_LEASE_tenant [slot] tenant).wr
      R.POL_LEASE_eid [slot] eid).wr R.POL_LEASE_duration [slot] dur).setExpiry slot
    (.ok, s.mirror 0x0101 (leaseOps slot eid tenant dur))

/-- A pool command's outcome, with POL_EVT.cmd_refused where it is refused (R190). -/
def State.poolTold (op : Nat) (r : Status × State) : State :=
  State.told op (r.1, if r.1 = .ok then r.2 else r.2.event B.pol 7)

/-- R168. -/
def execLeaseSet (slot eid tenant dur : Nat) (s : State) : Host.Outcome State Fault Refusal :=
  serving s (State.poolTold 0x0101 (s.gated 0x0101 (s.cmdLeaseSet slot eid tenant dur)))

/-- The fields of LEASE_ACK behind its tag (R169). -/
def leaseAck (expiry remaining : Nat) (provisional : Bool) : Nat :=
  layout [(0, 0, 32, expiry), (4, 0, 32, remaining), (8, 0, 1, b2n provisional)]

/-- R169. -/
def execLeaseRenew (d : Nat) (m : Msg) (s : State) : Host.Outcome State Fault Refusal :=
  serving s (
    if m.ty ≠ 0x60 then s
    else
      let s := s.consume d m
      let refuse (st : Status) (t : State) : State := (t.bump R.POL_CNT_count [d, 1]).answer d m st (t.loadOf d) none
      match s.slotOf m.src with
      | none => refuse .protViolation s
      | some k =>
        if s.on R.POL_LEASE_expired [k] then refuse .revoked s
        else
          let s := (s.bump R.POL_CNT_count [d, 0]).setExpiry k
          let dur := s.rd R.POL_LEASE_duration [k]
          let s := s.mirror 0x0101 (leaseOps k m.src (s.rd R.POL_LEASE_tenant [k]) dur)
          s.answer d m .ok (s.loadOf d) (some (leaseAck (s.rd R.POL_LEASE_expiry [k]) dur s.timeless)))

/-- Take a slot off every share group; true where it was in one (R166, R171). -/
def State.leaveGroups (k : Nat) (s : State) : Bool × State :=
  let gs := (s.listed R.POL_SHARE_valid).filter (fun g => s.rd R.POL_SHARE_slot g = k)
  (decide (gs ≠ []), gs.foldl (fun t g => (t.wr R.POL_SHARE_valid g 0).wr R.POL_SHARE_slot g 0) s)

/-- The nodes whose extents are kept here. -/
def State.nodesHere (s : State) : List Nat := s.node :: (s.listed R.POL_LEND_valid).map (fun k => s.rd R.POL_LEND_node k)

/-- The extents of a node that a slot owns and that are HELD. -/
def State.ownedBy (s : State) (node k : Nat) : List Nat :=
  (s.pool.ext.entries.filter (fun e => decide (e.1.head? = some node ∧ e.2.state = .held ∧ e.2.owner = k))).map (fun e => e.1.getD 1 0)

/-- R171: a lease expires. -/
def State.expire (k : Nat) (s : State) : State :=
  let eid := s.rd R.POL_LEASE_eid [k]
  let s := (s.wr R.POL_LEASE_expired [k] 1).bump R.POL_CNT_count [0, 2]
  let s := s.nodesHere.foldl (fun t n => t.beginRevoke n (t.ownedBy n k) false none) s
  let r := s.leaveGroups k
  let s := if r.1 then r.2.report 3 .ok (bytesOfNat 4 (layout [(0, 0, 16, k), (2, 0, 16, eid)])) else r.2
  ((s.notice 4 eid s.node 0 0).event B.pol 0).report 4 .ok
    (bytesOfNat 8 (layout [(0, 0, 16, k), (2, 0, 16, eid), (4, 0, 32, s.rd R.POL_LEASE_expiry [k])]))

/-- The live slots whose expiry is not ahead, in slot order (R37, R50, R171). -/
def State.expireDue (s : State) : State :=
  if s.timeless ∨ s.tst = Ts.lost then s
  else
    (((s.listed R.POL_LEASE_valid).map (·.headD 0)).filter (fun k => ¬ s.on R.POL_LEASE_expired [k] &&
      ! s.pool.provisional.has [k] && ! ahead (s.rd R.POL_LEASE_expiry [k]) s.beat)).foldl (fun t k => t.expire k) s

/-- R171. -/
def execLeaseExpiry (s : State) : Host.Outcome State Fault Refusal := serving s s.expireDue

/-! ### LOCKED (R40, R49, R50, R168) -/

/-- LOCKED is reached: the time function is ready, provisional expiries are set, and deferred ones evaluated. -/
def State.enterLocked (s : State) : State :=
  let s := ((s.setTst Ts.locked).ready B.tim)
  let s : State := { s with tim := { s.tim with good := 0 } }
  (s.pool.provisional.keys.foldl (fun t k => t.setExpiry (k.headD 0)) s).expireDue

/-- R49. -/
def execTimeLocked (s : State) : Host.Outcome State Fault Refusal :=
  clocked s (
    if ¬ s.isMaster ∧ s.tim.held ∧ 64 ≤ s.tim.good ∧ s.tst ≠ Ts.unsync ∧ s.tst ≠ Ts.locked then s.enterLocked else s)

/-- A write of TIM_CTL (R39 to R41). A reserved encoding leaves its field as it was and is a programming error (R11). -/
def State.setRole (v : Nat) (s : State) : State :=
  let was := s.isMaster
  let s := if 1 < bitsOf v 0 2 then s.badWrite R.TIM_CTL_role [] else s.wr R.TIM_CTL_role [] (bitsOf v 0 2)
  let s := if bitsOf v 2 2 = 3 then s.badWrite R.TIM_CTL_role [] else s.wr R.TIM_CTL_ref_sel [] (bitsOf v 2 2)
  let s := (s.wr R.TIM_CTL_cricket_out_en [] (bitsOf v 4 1)).wr R.TIM_CTL_master_gen [] (bitsOf v 16 16)
  if s.isMaster ∧ ¬ was then
    let s := (s.wr R.TIM_STATUS_hop_depth [] 0).wr R.TIM_STATUS_master_conflict [] 0
    State.enterLocked { s with tim := { s.tim with held := false, conflict := none, step := none, halfRate := false, slew := 0, left := true } }
  else if ¬ s.isMaster ∧ was then s.enterHoldover
  else s

/-- R40: a write of TIM_CTL. -/
def execRoleSet (v : Nat) (s : State) : Host.Outcome State Fault Refusal := clocked s (s.setRole v)

/-! ### Grants (R164, R165, R190, R206) -/

/-- The extents a tenant holds (R164). -/
def State.heldBy (s : State) (t : Nat) : Nat :=
  s.pool.ext.count (fun _ x => decide (x.tenant = t ∧
    (x.state = .held ∨ x.state = .revoking ∨ x.state = .scrub ∨ x.state = .quarantine ∨ x.state = .lost)))

/-- This Apold homes or proxies a node. -/
def State.serves (s : State) (node : Nat) : Bool := node = s.node || (s.lendOf node).isSome

/-- Every extent of a range satisfies `p`. -/
def State.allExt (s : State) (node first last_ : Nat) (p : Ext → Bool) : Bool := (rangeOf first last_).all (fun e => p (s.ext node e))

/-- Place a new extent (R165, R206, R480): where, with its home die. -/
def State.placement (s : State) (die : Nat) : Option (Loc × Nat) :=
  match s.pick false false (stacksOf die) with
  | some l => some (l, die)
  | none =>
    match s.pick false false (stacksOf (1 - die)) with
    | some l => some (l, 1 - die)
    | none => (s.pick true false (List.range 8)).map (fun l => (l, die))

/-- Give an extent of the own node its record and its slot; a board slot is zero-filled under its tag (R206). -/
def State.placeExt (e die : Nat) (x : Ext) (s : State) : State :=
  match s.placement die with
  | none => s
  | some (l, d) =>
    let x := { x with die := d }
    let s := s.setExt s.node e x
    let s : State := { s with tier := { s.tier with loc := s.tier.loc.set [e] l, age := s.tier.age.erase [e],
                                                    heat := s.tier.heat.erase [e] } }
    if l.board then
      { s with tier := { s.tier with
          tags := s.tier.tags.set [l.unit, l.slot] (tagOf x),
          moves := s.tier.moves.set [e] { kind := .zeroFill, src := none, dst := l, die := d } } }
    else s

def State.slotsFree (s : State) : Nat := s.stackFree 0 + s.stackFree 1 + s.boardFree

/-- R164, R165, R395, R420. -/
def State.cmdGrant (slot node first last_ die : Nat) (s : State) : Status × State :=
  let t := s.rd R.POL_LEASE_tenant [slot]
  let n := last_ + 1 - first
  if ¬ s.serves node then (.nodeLost, s)
  else if 1 < die ∨ last_ < first ∨ 4095 < slot then (.unsupported, s)
  else if ¬ s.on R.POL_LEASE_valid [slot] then (.unsupported, s)
  else if s.on R.POL_LEASE_expired [slot] then (.revoked, s)
  else if s.countExt node .free = 0 then (.quota, s)
  else if ¬ s.tenantActive t then (.protViolation, s)
  else if s.rd R.POL_TENANT_QUOTA_quota [t] < s.heldBy t + n then (.quota, s)
  else if ¬ s.allExt node first last_ (fun x => x.state = .free) ∨ s.isPuppet then (.retry, s)
  else if node = s.node ∧ s.slotsFree < n then (.retry, s)
  else
    let x : Ext := { state := .held, owner := slot, tenant := t }
    let s := (rangeOf first last_).foldl (fun a e =>
      if node = a.node then a.placeExt e die x else a.setExt node e { x with die := dieOfPort (a.rd R.POL_LEND_port [(a.lendOf node).getD 0]) }) s
    if node = s.node ∧ s.isPrimary then
      let bound := (rangeOf first last_).filter (fun e => (s.bindOf e).isSome)
      let s : State := { s with pair := { s.pair with
        chunks := (rangeOf first last_).foldl (fun c e => if bound.contains e then c else c.set [e] (2 ^ 1024 - 1)) s.pair.chunks } }
      (.ok, bound.foldl (fun t e => t.mirror 0x010C (rangeOps node e e 0)) (s.mirror 0x0102 (grantOps slot node first last_ die)))
    else (.ok, s)

/-- R164. -/
def execGrant (slot node first last_ die : Nat) (s : State) : Host.Outcome State Fault Refusal :=
  serving s (State.poolTold 0x0102 (s.gated 0x0102 (s.cmdGrant slot node first last_ die)))

/-- R163, R190. -/
def State.cmdGrantInternal (first last_ die : Nat) (s : State) : Status × State :=
  if 1 < die ∨ last_ < first then (.unsupported, s)
  else if ¬ s.allExt s.node first last_ (fun x => x.state = .free) ∨ s.slotsFree < last_ + 1 - first then (.retry, s)
  else (.ok, (rangeOf first last_).foldl (fun a e => a.placeExt e die { state := .internal }) s)

/-- R190. -/
def execGrantInternal (first last_ die : Nat) (s : State) : Host.Outcome State Fault Refusal :=
  serving s (State.poolTold 0x0103 (s.gated 0x0103 (s.cmdGrantInternal first last_ die)))

/-! ### Share groups (R166) -/

/-- The operands of SHARE and UNSHARE (R475). -/
def shareOps (node first last_ group : Nat) (slots : List Nat) : List Byte :=
  bytesOfNat (14 + 2 * slots.length) (layout ([(0, 0, 16, node), (2, 0, 16, group), (4, 0, 32, first), (8, 0, 32, last_),
    (12, 0, 8, slots.length)] ++ slots.mapIdx (fun i k => (14 + 2 * i, 0, 16, k))))

/-- Extents of a share group, wherever they are. -/
def State.inGroup (s : State) (g : Nat) : List Ext := s.pool.ext.vals.filter (fun x => x.group = some g)

/-- Add a slot at the lowest free place of a group's list. -/
def State.addSharer (g k : Nat) (s : State) : State :=
  match (List.range 64).find? (fun j => ! s.on R.POL_SHARE_valid [g, j]) with
  | some j => (s.wr R.POL_SHARE_valid [g, j] 1).wr R.POL_SHARE_slot [g, j] k
  | none => s

/-- R166. -/
def State.cmdShare (node first last_ group : Nat) (slots : List Nat) (s : State) : Status × State :=
  let xs := (rangeOf first last_).map (s.ext node)
  let owners := (xs ++ s.inGroup group).map (·.owner)
  let new := slots.filter (fun k => ! (s.sharers group).contains k)
  if ¬ s.serves node then (.nodeLost, s)
  else if last_ < first ∨ 1023 < group ∨ 64 < slots.length ∨ slots.eraseDups ≠ slots ∨
      slots.any (fun k => ! s.on R.POL_LEASE_valid [k] || owners.contains k) then (.unsupported, s)
  else if slots.any (fun k => xs.any (fun x => x.tenant ≠ s.rd R.POL_LEASE_tenant [k])) then (.protViolation, s)
  else if 64 < (s.sharers group).length + new.length then (.quota, s)
  else if xs.any (fun x => decide (x.state ≠ .held) || (x.group.map (fun g => decide (g ≠ group))).getD false) then (.retry, s)
  else
    let s := (rangeOf first last_).foldl (fun t e => t.setExt node e { t.ext node e with group := some group }) s
    (.ok, (new.foldl (fun t k => t.addSharer group k) s).mirror 0x0104 (shareOps node first last_ group slots))

/-- R166. -/
def execShare (node first last_ group : Nat) (slots : List Nat) (s : State) : Host.Outcome State Fault Refusal :=
  serving s (State.poolTold 0x0104 (s.gated 0x0104 (s.cmdShare node first last_ group slots)))

/-- R166. -/
def State.cmdUnshare (node first last_ group : Nat) (slots : List Nat) (s : State) : Status × State :=
  if ¬ s.serves node then (.nodeLost, s)
  else if last_ < first ∨ 1023 < group then (.unsupported, s)
  else if ¬ s.allExt node first last_ (fun x => x.state = .held) then (.retry, s)
  else
    let s :=
      if slots ≠ [] then
        ((s.listed R.POL_SHARE_valid).filter (fun k => k.head? = some group && slots.contains (s.rd R.POL_SHARE_slot k))).foldl
          (fun t k => (t.wr R.POL_SHARE_valid k 0).wr R.POL_SHARE_slot k 0) s
      else
        ((rangeOf first last_).foldl (fun t e =>
          let x := t.ext node e
          if x.group = some group then t.setExt node e { x with group := none } else t) s).tidyGroup (some group)
    (.ok, s.mirror 0x0105 (shareOps node first last_ group slots))

/-- R166. -/
def execUnshare (node first last_ group : Nat) (slots : List Nat) (s : State) : Host.Outcome State Fault Refusal :=
  serving s (State.poolTold 0x0105 (s.gated 0x0105 (s.cmdUnshare node first last_ group slots)))

/-! ### REVOKE, RELEASE, losses (R172, R175, R186 to R188) -/

/-- R172, R175, R190: the refusal, or the revocation begun. -/
def State.cmdRevoke (node first last_ clear : Nat) (who : Asker) (s : State) : Status × State :=
  if ¬ s.serves node then (.nodeLost, s)
  else if last_ < first ∨ 1 < clear ∨ ¬ s.allExt node first last_ (fun x => x.state ≠ .free && x.state ≠ .absent && x.state ≠ .lost) ∨
      (node = s.node ∧ s.tier.store.any (fun e => decide (first ≤ e ∧ e ≤ last_))) then (.unsupported, s)
  else if ¬ s.allExt node first last_ (fun x => x.state = .held || x.state = .internal) then (.retry, s)
  else (.ok, s.beginRevoke node (rangeOf first last_) (decide (clear = 1)) (some who))

/-- REVOKE is answered at once where it is refused, and else at the end of its drain (R173, R190). -/
def State.revokeTold (who : Asker) (r : Status × State) : State :=
  if r.1 = .ok then r.2 else (r.2.event B.pol 7).tell who 0x0106 r.1

/-- R172. -/
def execRevoke (node first last_ clear : Nat) (s : State) : Host.Outcome State Fault Refusal :=
  serving s (State.revokeTold .here (s.gated 0x0106 (s.cmdRevoke node first last_ clear .here)))

/-- The memory of a LOST extent is usable (R186); one without a slot needs none. -/
def State.usable (s : State) (node e : Nat) : Bool :=
  if node = s.node then
    match s.tier.loc.get? [e] with
    | some l => s.unitReady l.board l.unit && (l.board || s.rd R.MEM_STACK_STATUS_failed_pcs [l.unit] = 0)
    | none => true
  else s.isActive (s.rd R.POL_LEND_port [(s.lendOf node).getD 0])

/-- R187: the image of a POL_LOST entry. -/
def State.cmdLostSet (k v : Nat) (s : State) : Status × State :=
  if 63 < k ∨ bitsOf v 1 3 ≠ 0 ∨ 2 ^ 52 ≤ v then (.unsupported, s)
  else
    (.ok, (((s.wr R.POL_LOST_valid [k] (bitsOf v 0 1)).wr R.POL_LOST_node [k] (bitsOf v 4 12)).wr R.POL_LOST_first_extent [k]
      (bitsOf v 16 18)).wr R.POL_LOST_last_extent [k] (bitsOf v 34 18))

/-- R187. -/
def execLostSet (k v : Nat) (s : State) : Host.Outcome State Fault Refusal :=
  serving s (State.poolTold 0x010D (s.gated 0x010D (s.cmdLostSet k v)))

/-- R188, R190. -/
def State.cmdNotify (eid kind : Nat) (s : State) : Status × State :=
  if kind = 0 ∨ 4 < kind then (.unsupported, s)
  else if (List.range 256).any (fun p => s.isEdge p && s.partnerEid p = eid) then (.ok, s.notice kind eid s.node 0 0)
  else (.nodeLost, s)

/-- R188. -/
def execNotify (eid kind : Nat) (s : State) : Host.Outcome State Fault Refusal :=
  serving s (State.poolTold 0x010E (s.gated 0x010E (s.cmdNotify eid kind)))

/-! ### Limits and quotas (R180, R181, R190) -/

/-- R180: tokens stay as they are. -/
def State.cmdLimitSet (kind die index rate burst : Nat) (s : State) : Status × State :=
  if 1 < kind ∨ 1 < die ∨ (kind = 0 ∧ 4095 < index) ∨ (kind = 1 ∧ 31 < index) ∨ 65535 < rate ∨ 65535 < burst ∨
      (burst = 0 ∧ rate ≠ 0) then (.unsupported, s)
  else
    let k := [die, kind, index]
    let s : State := { s with pool := { s.pool with tokens := s.pool.tokens.set k (s.tokens k) } }
    (.ok, if kind = 0 then (s.wr R.POL_LIMIT_rate [die, index] rate).wr R.POL_LIMIT_burst [die, index] burst
          else (s.wr R.POL_TENANT_LIMIT_rate [index, die] rate).wr R.POL_TENANT_LIMIT_burst [index, die] burst)

/-- R180. -/
def execLimitSet (kind die index rate burst : Nat) (s : State) : Host.Outcome State Fault Refusal :=
  serving s (State.poolTold 0x0108 (s.gated 0x0108 (s.cmdLimitSet kind die index rate burst)))

def State.cmdTenantQuota (t n : Nat) (s : State) : Status × State :=
  if 31 < t ∨ 0x1FFFF < n then (.unsupported, s)
  else if n < s.heldBy t then (.quota, s)
  else (.ok, s.wr R.POL_TENANT_QUOTA_quota [t] n)

/-- R190. -/
def execTenantQuota (t n : Nat) (s : State) : Host.Outcome State Fault Refusal :=
  serving s (State.poolTold 0x0109 (s.gated 0x0109 (s.cmdTenantQuota t n)))

/-- The rate of a bucket. -/
def State.rateOf (s : State) : Key → Nat
  | [d, 0, i] => s.rd R.POL_LIMIT_rate [d, i]
  | [d, _, t] => s.rd R.POL_TENANT_LIMIT_rate [t, d]
  | _ => 0

/-- What a full bucket holds, in tenths of a byte. -/
def State.fullOf (s : State) (k : Key) : Int := ({ s with pool := { s.pool with tokens := Map.empty } } : State).tokens k

/-- The limiter queue of a die whose head may proceed and arrived first (R181). -/
def State.openHead (s : State) (d : Nat) : Option (Key × Waiter) :=
  let heads := (s.pool.limitQ.entries.filter (fun e => decide (e.1.head? = some d))).filterMap (fun e => e.2.head?.map (fun w => (e.1, w)))
  argMin (fun e => e.2.order) (heads.filter (fun e => ((s.homeAt d e.2.home).map (fun h => s.bucketsOpen d h.msg)).getD true))

/-- Heads proceed, oldest first, while their buckets last (R181). -/
def State.releaseHeads (d : Nat) : Nat → State → State
  | 0, s => s
  | n + 1, s =>
    match s.openHead d with
    | none => s
    | some (k, w) =>
      let rest := (s.pool.limitQ.get [] k).tail
      let s : State := { s with pool := { s.pool with
        limitQ := if rest = [] then s.pool.limitQ.erase k else s.pool.limitQ.set k rest } }
      match s.homeAt d w.home with
      | some h => State.releaseHeads d n ((s.chargeAll d h.msg).afterLimit d w.home)
      | none => State.releaseHeads d n s

/-- R180, R181: a beat start. -/
def execBucketRefill (d : Nat) (s : State) : Host.Outcome State Fault Refusal :=
  serving s (
    let filled := s.pool.tokens.each (fun k b => if k.head? = some d then min (s.fullOf k) (b + 1024 * s.rateOf k) else b)
    let s : State := { s with pool := { s.pool with tokens := filled.keep (fun k b => k.head? ≠ some d || b ≠ s.fullOf k) } }
    let waiting := s.pool.limitQ.entries.foldl (fun a e => a + e.2.length) 0
    (s.releaseHeads d waiting).turns)

/-! ### Lenders (R176 to R179, R190) -/

/-- R176. -/
def State.cmdLendAdd (eid node port n : Nat) (s : State) : Status × State :=
  if 65535 < eid ∨ 4095 < node ∨ 255 < port ∨ 2 ^ 18 ≤ n ∨ s.serves node then (.unsupported, s)
  else if ¬ s.isUp port ∨ ¬ s.on R.PRT_PORT_STATUS_partner_lender [port] then (.unsupported, s)
  else
    match (List.range 16).find? (fun k => ! s.on R.POL_LEND_valid [k]) with
    | none => (.quota, s)
    | some k =>
      (.ok, ((((s.wr R.POL_LEND_valid [k] 1).wr R.POL_LEND_node [k] node).wr R.POL_LEND_eid [k] eid).wr R.POL_LEND_port [k] port).wr
        R.POL_LEND_extents [k] n)

/-- R176. -/
def execLendAdd (eid node port n : Nat) (s : State) : Host.Outcome State Fault Refusal :=
  serving s (State.poolTold 0x010A (s.gated 0x010A (s.cmdLendAdd eid node port n)))

/-- R190. -/
def State.cmdLendRemove (eid node port n : Nat) (s : State) : Status × State :=
  match s.lendOf node with
  | none => (.unsupported, s)
  | some k =>
    if s.rd R.POL_LEND_eid [k] ≠ eid ∨ s.rd R.POL_LEND_port [k] ≠ port ∨ s.rd R.POL_LEND_extents [k] ≠ n then (.unsupported, s)
    else if s.pool.ext.entries.any (fun e => decide (e.1.head? = some node ∧ e.2.state ≠ .free ∧ e.2.state ≠ .quarantine ∧
        e.2.state ≠ .lost)) then (.retry, s)
    else
      let s : State := { s with pool := { s.pool with ext := s.pool.ext.keep (fun e _ => decide (e.head? ≠ some node)) } }
      (.ok, ((((s.wr R.POL_LEND_valid [k] 0).wr R.POL_LEND_node [k] 0).wr R.POL_LEND_eid [k] 0).wr R.POL_LEND_port [k] 0).wr
        R.POL_LEND_extents [k] 0)

/-- R190. -/
def execLendRemove (eid node port n : Nat) (s : State) : Host.Outcome State Fault Refusal :=
  serving s (State.poolTold 0x010B (s.gated 0x010B (s.cmdLendRemove eid node port n)))

/-- R179. -/
def execLendWithdraw (p : Nat) (m : Msg) (s : State) : Host.Outcome State Fault Refusal :=
  serving s (
    if m.ty ≠ 0x65 then s
    else
      let d := s.consumeDie m
      let s := s.consume d m
      match (s.listed R.POL_LEND_valid).find? (fun k => s.rd R.POL_LEND_port k = p && s.rd R.POL_LEND_eid k = m.src) with
      | none => s.answer d m .unsupported 0 none
      | some k =>
        let s : State := { s with pool := { s.pool with withdraw := s.pool.withdraw.set k m } }
        (s.event B.pol 6).report 6 .ok (bytesOfNat 4 (layout [(0, 0, 16, m.src), (2, 0, 16, s.rd R.POL_LEND_node k)])))

/-- R179. -/
def execLendAck (k : Nat) (s : State) : Host.Outcome State Fault Refusal :=
  serving s (
    match s.pool.withdraw.get? [k] with
    | none => s
    | some m =>
      let node := s.rd R.POL_LEND_node [k]
      if s.pool.ext.entries.any (fun e => decide (e.1.head? = some node ∧
          (e.2.state = .held ∨ e.2.state = .revoking ∨ e.2.state = .scrub))) then s
      else
        State.answer (dieOfPort (s.rd R.POL_LEND_port [k])) m .ok 0 none
          { s with pool := { s.pool with withdraw := s.pool.withdraw.erase [k] } })

end Sys2Proof.Machine
end

