-- ==== Sys2Proof/Machine/Tier.lean ====
section
/-! DEFINITION. Stacks, board memory and tier movement (R173, R186, R191 to R217, R480). -/

namespace Sys2Proof.Machine

/-! ### Pseudo-channels (R193 to R197) -/

def State.pc (s : State) (u pc : Nat) : Pc := s.tier.pcs.get {} [u, pc]

def State.modPc (u pc : Nat) (f : Pc → Pc) (s : State) : State :=
  { s with tier := { s.tier with pcs := s.tier.pcs.set [u, pc] (f (s.pc u pc)) } }

def State.pcState (s : State) (u pc : Nat) : Nat := s.rd R.MEM_PC_STATUS_state [u, pc]

/-- A stack whose controller runs: READY or RETIRING. -/
def State.stackRuns (s : State) (u : Nat) : Bool :=
  s.rd R.MEM_STACK_STATUS_state [u] = 1 || s.rd R.MEM_STACK_STATUS_state [u] = 2

def ColReq.sameUnit (a b : ColReq) : Bool := a.bank = b.bank && a.row = b.row && a.col = b.col

/-- A read that an earlier write of its unit holds, and a write that an earlier read or write of its unit holds (R194). -/
def Pc.blocked (q : Pc) (r : ColReq) : Bool :=
  (q.writes.any (fun w => w.sameUnit r && decide (w.seq < r.seq))) ||
    (r.write && q.reads.any (fun x => x.sameUnit r && decide (x.seq < r.seq)))

/-- A write that a later read of its unit waits for (R194). -/
def Pc.wanted (q : Pc) (w : ColReq) : Bool := (q.reads.take 64).any (fun r => r.sameUnit w && decide (w.seq < r.seq))

def Pc.hits (q : Pc) (r : ColReq) : Bool := q.openRow.get? [r.bank] = some r.row

/-- A request that hits an open row, else any; each time the oldest. -/
def Pc.hitFirst (q : Pc) (l : List ColReq) : Option ColReq :=
  (argMin (·.seq) (l.filter q.hits)).or (argMin (·.seq) l)

/-- The scheduler's choice of a request (R193, R194), among those that `ok` allows. The queues hold 64 entries each; those
after them wait in order of arrival. -/
def Pc.choose (q : Pc) (now limit : Nat) (ok : ColReq → Bool) : Option ColReq :=
  let may (r : ColReq) : Bool := ok r && !q.blocked r
  let rs := (q.reads.take 64).filter may
  let ws := (q.writes.take 64).filter may
  (argMin (·.seq) ((rs ++ ws).filter (fun r => decide (limit < now - r.since)))).or <|
    (if q.draining then q.hitFirst ws else none).or <|
      (argMin (·.seq) (ws.filter q.wanted)).or <| (q.hitFirst rs).or (q.hitFirst ws)

/-- Whether the write queue is being drained (R193). -/
def Pc.drain (q : Pc) (high low : Nat) : Pc :=
  { q with draining := if high ≤ q.writes.length then true else if q.writes.length ≤ low then false else q.draining }

/-- The refresh due now: of a bank that owes 8, or of one no request is queued for (R195). -/
def Pc.refresh (q : Pc) : Option Nat :=
  let busy (b : Nat) : Bool := (q.reads ++ q.writes).any (fun r => r.bank = b)
  let due := q.owed.entries.filter (fun e => decide (8 ≤ e.2) || (decide (0 < e.2) && !busy (e.1.headD 0)))
  (argMax (·.2) due).map (fun e => e.1.headD 0)

/-- Column commands a stack has issued in this beat, and the cap of R197. -/
def State.columnsNow (s : State) (u : Nat) : Nat :=
  if (s.tier.columns.get (0, 0) [u]).1 = s.beat then (s.tier.columns.get (0, 0) [u]).2 else 0

def State.columnCap (s : State) : Nat := 32768 * s.capTarget / 100

def State.countColumns (u n : Nat) (s : State) : State :=
  { s with tier := { s.tier with columns := s.tier.columns.set [u] (s.beat, s.columnsNow u + n) } }

/-- The line of the own node that an access of a stack touches, where the slot holds an extent. -/
def State.lineOfCol (s : State) (u pc : Nat) (r : ColReq) : Option Nat :=
  let slot := r.row / 32
  let off := 256 * pc + 2 ^ 13 * (r.col / 8) + 32 * (r.col % 8) + 2 ^ 15 * r.bank + 2 ^ 21 * (r.row % 32)
  let l : Loc := { board := false, unit := u, slot := slot }
  ((s.tier.loc.entries.find? (fun e => e.2 = l)).or ((s.tier.moves.entries.find? (fun e => e.2.dst = l)).map
    (fun e => (e.1, l)))).map (fun e => (e.1.headD 0 * 2 ^ 26 + off) / 128)

/-- R200: an uncorrectable error poisons its line and is reported. -/
def State.uncorrectedStack (u pc line : Nat) (s : State) : State :=
  let n := if (s.pc u pc).errors.1 = s.beat then (s.pc u pc).errors.2 + 1 else 1
  let beat := s.beat
  let s := (s.modPc u pc (fun q => { q with errors := (beat, n) })).setPoison line true
  let s := if bitAt (s.rd R.MEM_EVT_events []) 4 then s else
    (((s.wr R.MEM_ERR_INFO_stack [] u).wr R.MEM_ERR_INFO_pc [] pc).wr R.MEM_ERR_INFO_extent [] (line / 2 ^ 19)).wr
      R.MEM_ERR_INFO_line [] (line % 2 ^ 19)
  ((s.bump R.MEM_CNT_count [u, 3]).event B.mem 4).contained (dieOfStack u) B.mem .poison u line

def State.correctedStack (u : Nat) (s : State) : State :=
  ((s.bump R.MEM_CNT_count [u, 2]).event B.mem 3).corrected (dieOfStack u) B.mem u

/-- A refresh is issued: the bank's row closes, and one interval less is owed. -/
def State.issueRefresh (u pc bank : Nat) (s : State) : State :=
  let now := s.now
  (s.modPc u pc (fun q => { q with
    openRow := q.openRow.erase [bank],
    owed := if q.owed.get 0 [bank] ≤ 1 then q.owed.erase [bank] else q.owed.set [bank] (q.owed.get 0 [bank] - 1),
    bankUse := q.bankUse.set [bank] now }))

/-- A read or write is issued. -/
def State.issueColumn (u pc err : Nat) (r : ColReq) (s : State) : State :=
  let now := s.now
  let line := s.lineOfCol u pc r
  let s := (s.modPc u pc (fun q => { q with
    reads := q.reads.filter (fun x => decide (x.seq ≠ r.seq)),
    writes := q.writes.filter (fun x => decide (x.seq ≠ r.seq)),
    openRow := q.openRow.set [r.bank] r.row,
    bankUse := q.bankUse.set [r.bank] now, lastUse := now })).countColumns u 1
  let s := s.bump R.MEM_CNT_count [u, b2n r.write]
  match err, line with
  | 1, some _ => if r.write then s else s.correctedStack u
  | 2, some l => if r.write then s else s.uncorrectedStack u pc l
  | _, _ => s

/-- R193. `err` says how a read comes out: 0 clean, 1 corrected, 2 uncorrectable (R200). -/
def execCommandSlot (u pc err : Nat) (s : State) : Host.Outcome State Fault Refusal :=
  serving s (
    if ¬ s.stackRuns u ∨ s.pcState u pc = 3 then s
    else
      let s := s.modPc u pc (fun q => q.drain (s.rd R.MEM_SCHED_CFG_wq_high []) (s.rd R.MEM_SCHED_CFG_wq_low []))
      let q := s.pc u pc
      match q.refresh with
      | some b => s.issueRefresh u pc b
      | none =>
        let full := decide (s.columnCap ≤ s.columnsNow u)
        let limit := 8 * s.rd R.MEM_SCHED_CFG_age_limit []
        match q.choose s.now limit (fun r => r.free || !full) with
        | some r => s.issueColumn u pc err r
        | none => if full ∧ (q.choose s.now limit (fun _ => true)).isSome then s.bump R.MEM_CNT_count [u, 7] else s)

/-- R195. -/
def execRefreshDue (u pc bank : Nat) (s : State) : Host.Outcome State Fault Refusal :=
  serving s (
    if ¬ s.stackRuns u ∨ s.pcState u pc = 3 then s
    else
      let now := s.now
      (s.modPc u pc (fun q => { q with owed := q.owed.set [bank] (q.owed.get 0 [bank] + 1), lastUse := now })).wr
        R.MEM_PC_STATUS_powered_down [u, pc] 0)

/-- R193. -/
def execRowClose (u pc bank : Nat) (s : State) : Host.Outcome State Fault Refusal :=
  serving s (
    let q := s.pc u pc
    if (q.reads ++ q.writes).any (fun r => r.bank = bank && q.hits r) ∨
        s.now < q.bankUse.get 0 [bank] + 8 * s.rd R.MEM_SCHED_CFG_row_idle [] then s
    else s.modPc u pc (fun q => { q with openRow := q.openRow.erase [bank] }))

/-- R196. -/
def execPowerDownEntry (u pc : Nat) (s : State) : Host.Outcome State Fault Refusal :=
  serving s (
    let q := s.pc u pc
    let timer := 16 * s.rd R.MEM_PD_CFG_pd_timer []
    if s.stackRuns u ∧ s.pcState u pc = 0 ∧ q.reads = [] ∧ q.writes = [] ∧ 0 < timer ∧ q.lastUse + timer ≤ s.now ∧
        ¬ s.on R.MEM_PC_STATUS_powered_down [u, pc] then
      (s.wr R.MEM_PC_STATUS_powered_down [u, pc] 1).bump R.MEM_CNT_count [u, 5]
    else s)

/-! ### Recalibration (R198, R199) -/

/-- The delay registers of a pseudo-channel, those of its channel's command and address lanes among them. -/
def isDelay (u pc : Nat) (k : Key) : Bool :=
  match k with
  | [f, a, b, _] =>
    (([R.MEM_DLY_DQ_rd_fine, R.MEM_DLY_DQ_rd_coarse, R.MEM_DLY_DQ_wr_fine, R.MEM_DLY_DQ_wr_coarse].any
      (fun x => x.num = f)) && a = u && b = pc) ||
    (([R.MEM_DLY_CA_fine, R.MEM_DLY_CA_coarse].any (fun x => x.num = f)) && a = u && b = pc / 2)
  | _ => false

/-- R199 step 1: refused while another pseudo-channel of the stack is out of SERVICE. -/
def State.startRecal (u pc : Nat) (s : State) : State :=
  s.started R.MEM_PC_CTL_recal [u, pc] (
    if s.stackRuns u ∧ s.pcState u pc = 0 ∧ (List.range 32).all (fun k => s.pcState u k = 0 || s.pcState u k = 3) then
      let now := s.now
      ((s.wr R.MEM_PC_STATUS_state [u, pc] 1).wr R.MEM_PC_CTL_recal [u, pc] 1).modPc u pc
        (fun q => { q with recalAt := now })
    else s.badWrite R.MEM_PC_CTL_recal [u, pc])

def execRecal (u pc : Nat) (s : State) : Host.Outcome State Fault Refusal := hosted s (fun s => s.startRecal u pc)

/-- R199 step 2. -/
def execPcDrained (u pc : Nat) (s : State) : Host.Outcome State Fault Refusal :=
  serving s (
    if s.pcState u pc = 1 ∧ (s.pc u pc).reads = [] ∧ (s.pc u pc).writes = [] then
      let saved := s.regs.entries.filter (fun e => isDelay u pc e.1)
      (s.wr R.MEM_PC_STATUS_state [u, pc] 2).modPc u pc (fun q => { q with saved := saved })
    else s)

/-- The pseudo-channel returns to SERVICE and what waited for it goes on, in order of arrival. -/
def State.backInService (u pc : Nat) (s : State) : State :=
  let l := (s.pc u pc).wait
  let s := (s.wr R.MEM_PC_STATUS_state [u, pc] 0).wr R.MEM_PC_CTL_recal [u, pc] 0
  let s := s.modPc u pc (fun q => { q with wait := [], saved := [], recalAt := 0 })
  (l.foldl (fun t h => t.atStack h.1 h.2) s).turns

/-- R199 step 4; `ok` says whether the release completes (R202). -/
def State.releaseRecal (u pc : Nat) (ok : Bool) (s : State) : State :=
  s.started R.MEM_PC_CTL_release [u, pc] (
    if s.pcState u pc ≠ 2 then s.badWrite R.MEM_PC_CTL_release [u, pc]
    else if ok then ((s.modPc u pc (fun q => { q with failedReleases := 0 })).bump R.MEM_CNT_count [u, 6]).backInService u pc
    else s.modPc u pc (fun q => { q with failedReleases := q.failedReleases + 1 }))

def execRecalRelease (u pc : Nat) (ok : Bool) (s : State) : Host.Outcome State Fault Refusal :=
  hosted s (fun s => s.releaseRecal u pc ok)

/-- R199: without a release in time, the saved delays return. -/
def execRecalTimeout (u pc : Nat) (s : State) : Host.Outcome State Fault Refusal :=
  serving s (
    let q := s.pc u pc
    if (s.pcState u pc = 1 ∨ s.pcState u pc = 2) ∧ q.recalAt + 128 * s.rd R.MEM_RECAL_CFG_max_window [] ≤ s.now then
      let s : State := if s.pcState u pc = 2 then
          { s with regs := q.saved.foldl (fun r e => r.set e.1 e.2) (s.regs.keep (fun k _ => !isDelay u pc k)) }
        else s
      (s.backInService u pc).event B.mem 5
    else s)

/-- R198: the pattern engine, on an OUT pseudo-channel or in a stack in INIT. -/
def State.runPattern (u pc fail : Nat) (s : State) : State :=
  if s.pcState u pc = 2 ∨ s.rd R.MEM_STACK_STATUS_state [u] = 0 then
    (s.wr R.MEM_PC_CTL_lane_fail [u, pc] fail).wr R.MEM_PC_CTL_pattern_pass [u, pc] (b2n (decide (fail % 2 ^ 40 = 0)))
  else s.badWrite R.MEM_PC_CTL_pattern_run [u, pc]

def execPatternRun (u pc fail : Nat) (s : State) : Host.Outcome State Fault Refusal := hosted s (fun s => s.runPattern u pc fail)

/-! ### Errors (R200 to R202) -/

def State.uncorrectedBoard (c line : Nat) (s : State) : State :=
  let s := s.setPoison line true
  let s := if bitAt (s.rd R.BRD_EVT_events []) 5 then s else
    (((s.wr R.BRD_ERR_INFO_channel [] c).wr R.BRD_ERR_INFO_subchannel [] (s.freeVal % 2)).wr R.BRD_ERR_INFO_extent []
      (line / 2 ^ 19)).wr R.BRD_ERR_INFO_line [] (line % 2 ^ 19) |>.drew
  ((s.bump R.BRD_CNT_count [c, 3]).event B.brd 5).contained 2 B.brd .poison c line

def State.correctedBoard (c : Nat) (s : State) : State :=
  ((s.bump R.BRD_CNT_count [c, 2]).event B.brd 4).corrected 2 B.brd c

/-- A line of the own node lies in stack `u`, or in board channel `u - 20`. -/
def State.lineIn (s : State) (u line : Nat) : Bool :=
  match s.chunkAt (line / 2 ^ 19) (line / 512 % 1024) with
  | some l => if l.board then decide (u = 20 + l.unit) else decide (u = l.unit)
  | none => false

/-- What a patrol read of `lines` lines of a unit brings up (R200, R201). -/
def State.patrol (u lines : Nat) (corrected uncorrected : List Nat) (s : State) : State :=
  let fixd := (corrected.filter (s.lineIn u)).take lines
  let bad := (uncorrected.filter (s.lineIn u)).take lines
  if u < 20 then
    let s := (s.countColumns u (4 * lines)).bumpBy R.MEM_CNT_count [u, 0] (4 * lines)
    let s := fixd.foldl (fun t _ => t.correctedStack u) s
    bad.foldl (fun t l => t.uncorrectedStack u (bitsOf (128 * l) 8 5) l) s
  else
    let s := s.bumpBy R.BRD_CNT_count [u - 20, 4] lines
    let s := fixd.foldl (fun t _ => t.correctedBoard (u - 20)) s
    bad.foldl (fun t l => t.uncorrectedBoard (u - 20) l) s

/-- The unit that a target of RAS_SCRUB_SCHED names (R429). -/
def passUnit (target : Nat) : Nat := if target < 24 then target else target - 4

/-- Lines of a pass of R429 that a beat reads of a unit. -/
def State.passRate (s : State) (u : Nat) : Nat :=
  match s.tier.passLeft with
  | some (target, left) => if passUnit target = u then min left (s.rd R.RAS_SCRUB_SCHED_rate []) else 0
  | none => 0

/-- The pass is so many lines further, and ends with its last one. -/
def State.passStep (u : Nat) (s : State) : State :=
  match s.tier.passLeft with
  | some (target, left) =>
    if passUnit target ≠ u then s
    else if left ≤ s.passRate u then ({ s with tier := { s.tier with passLeft := none } } : State).event B.ras 9
    else { s with tier := { s.tier with passLeft := some (target, left - s.passRate u) } }
  | none => s

/-- R201, R429: the lines of one beat. Units 0 to 19 are stacks, 20 to 27 board channels. -/
def execPatrolScrub (u : Nat) (corrected uncorrected : List Nat) (s : State) : Host.Outcome State Fault Refusal :=
  serving s (
    if u < 20 then
      if s.stackRuns u ∧ s.columnsNow u < s.columnCap then
        (s.patrol u (s.rd R.MEM_PATROL_CFG_lines_per_beat [] + s.passRate u) corrected uncorrected).passStep u
      else s
    else if u < 28 ∧ (s.rd R.BRD_CH_STATUS_state [u - 20] = 2 ∨ s.rd R.BRD_CH_STATUS_state [u - 20] = 3) then
      (s.patrol u (s.rd R.BRD_PATROL_CFG_lines_per_beat [] + s.passRate u) corrected uncorrected).passStep u
    else s)

/-- R202: what waited for the pseudo-channel meets its lines as FAILED. -/
def execPcFailed (u pc : Nat) (s : State) : Host.Outcome State Fault Refusal :=
  serving s (
    let q := s.pc u pc
    if s.pcState u pc ≠ 3 ∧ ((q.errors.1 = s.beat ∧ 64 ≤ q.errors.2) ∨ 2 ≤ q.failedReleases) then
      let s := ((s.wr R.MEM_PC_STATUS_state [u, pc] 3).wr R.MEM_PC_CTL_recal [u, pc] 0).wr R.MEM_STACK_STATUS_failed_pcs [u]
        (s.rd R.MEM_STACK_STATUS_failed_pcs [u] ||| 1 <<< pc)
      let s : State := { s with tier := { s.tier with pcs := s.tier.pcs.erase [u, pc] } }
      let s := (s.event B.mem 2).degraded (dieOfStack u) B.mem u pc
      (q.wait.foldl (fun t h => t.atStack h.1 h.2) s).turns
    else s)

/-- Extents with a slot of a stack or a channel, as source or destination. -/
def State.extentsIn (s : State) (board : Bool) (u : Nat) : List Nat :=
  let at_ (l : Loc) : Bool := l.board = board && l.unit = u
  (s.tier.loc.entries.filter (fun e => at_ e.2 ||
    (match s.tier.moves.get? e.1 with
     | some m => at_ m.dst
     | none => false))).map (fun e => e.1.headD 0)

/-- A stack or a channel fails: its free slots leave service and its extents are lost (R186, R202, R207, R217). -/
def State.unitFails (board : Bool) (u : Nat) (set : State → State) (s : State) : State :=
  let n := s.freeSlots board u
  let lost := s.extentsIn board u
  ((set s).loseSlots n).loseExtents s.node lost

/-- R202. -/
def execStackFailed (u : Nat) (s : State) : Host.Outcome State Fault Refusal :=
  serving s (
    if s.stackRuns u then
      ((s.unitFails false u (fun t => t.wr R.MEM_STACK_STATUS_state [u] 4)).event B.mem 1).degraded (dieOfStack u) B.mem u 32
    else s)

/-- R383, R446: a stack leaves INIT, with a valid configuration record only; one that fails takes its slots out of service (R444). -/
def execStackInitDone (u : Nat) (ok : Bool) (s : State) : Host.Outcome State Fault Refusal :=
  serving s (
    if s.rd R.MEM_STACK_STATUS_state [u] ≠ 0 ∨ ¬ s.on R.SEC_BOOT_STATUS_config_ok [] then s
    else if ok then (s.wr R.MEM_STACK_STATUS_state [u] 1).event B.mem 0
    else
      let lost := s.extentsIn false u
      let held := (s.taken false u).length
      let s := ((s.wr R.MEM_STACK_STATUS_state [u] 4).event B.mem 1).degraded (dieOfStack u) B.mem u 32
      if s.isReady B.pol then (s.loseSlots (1152 - held)).loseExtents s.node lost else s)

/-! ### Residency (R208 to R211) -/

/-- Extents of the own node whose age advances. -/
def State.aged (s : State) : List Nat :=
  (s.tier.loc.keys.map (·.headD 0)).filter (fun e =>
    (s.ext s.node e).state = .held || (s.ext s.node e).state = .internal)

/-- R208: at a beat whose number is a multiple of 2^period_log2, once. -/
def execAgeTick (s : State) : Host.Outcome State Fault Refusal :=
  serving s (
    if s.beat % 2 ^ s.rd R.MEM_AGE_CFG_period_log2 [] ≠ 0 ∨ s.tier.ageAt = s.beat + 1 then s
    else { s with tier := { s.tier with
      ageAt := s.beat + 1,
      age := s.aged.foldl (fun m e => m.set [e] (min 65535 (m.get 0 [e] + 1))) s.tier.age,
      heat := ⟨((s.tier.heat.each (fun _ h => h / 2)).entries.filter (fun e => decide (e.2 ≠ 0)))⟩ } })

/-- Moves a die runs (R212); the die of a move is its extent's home die. -/
def State.movesOf (s : State) (d : Nat) : Nat := s.tier.moves.count (fun k _ => decide ((s.ext s.node (k.headD 0)).die = d))

def State.mayMove (s : State) (d : Nat) : Bool := decide (s.movesOf d < s.rd R.MEM_MIG_CFG_max_moves [])

/-- A move begins; a board destination takes the extent's tag (R206). -/
def State.startMove (e : Nat) (kind : MoveKind) (zero : Bool) (dst : Loc) (die : Nat) (s : State) : State :=
  { s with tier := { s.tier with
      moves := s.tier.moves.set [e] { kind := kind, src := if zero then none else s.tier.loc.get? [e], dst := dst, die := die },
      tags := if dst.board then s.tier.tags.set [dst.unit, dst.slot] (tagOf (s.ext s.node e)) else s.tier.tags } }

/-- R209. -/
def State.eligibleAway (s : State) (e : Nat) : Bool :=
  (s.ext s.node e).state = .held && (s.bindOf e).isNone && !s.tier.moves.has [e] && !s.inBoard e &&
    decide (s.rd R.MEM_AGE_CFG_min_demote_age [] ≤ s.tier.age.get 0 [e])

/-- The eligible extent of a die's stacks with the greatest age, lowest number first; only those whose stack may still
begin a move. -/
def State.oldestEligible (s : State) (d : Nat) : Option Nat :=
  argMax (fun e => s.tier.age.get 0 [e]) ((s.tier.loc.entries.filter (fun e =>
    decide (dieOfStack e.2.unit = d) && s.eligibleAway (e.1.headD 0) && decide (s.movesAt false e.2.unit < 2))).map (·.1.headD 0))

/-- A board slot for a move of die `d` (R480); none while the hub link is lost (R22). -/
def State.boardDst (s : State) (d : Nat) : Option Loc :=
  if s.pkg.hubLost.has [d] then none else s.pick true true (List.range 8)

/-- R210. -/
def execDemotion (d : Nat) (s : State) : Host.Outcome State Fault Refusal :=
  serving s (
    if ¬ s.on R.MEM_TIER_CFG_enable [] then s
    else
      let free := s.stackFree d
      let on_ := decide (free < s.rd R.MEM_TIER_CFG_low_free []) ||
        (s.tier.demoting.has [d] && decide (free < s.rd R.MEM_TIER_CFG_high_free []))
      let s : State := { s with tier := { s.tier with
        demoting := if on_ then s.tier.demoting.set [d] () else s.tier.demoting.erase [d] } }
      if ¬ on_ ∨ ¬ s.mayMove d then s
      else
        match s.oldestEligible d, s.boardDst d with
        | some e, some l => s.startMove e .demotion false l d
        | _, _ => s)

/-- A die that has more than low_free free stack slots, and a slot there for a move (R211). -/
def State.promoteTo (s : State) (d : Nat) : Option Loc :=
  if s.rd R.MEM_TIER_CFG_low_free [] < s.stackFree d then s.pick false true (stacksOf d) else none

/-- R211. -/
def execPromotion (e : Nat) (s : State) : Host.Outcome State Fault Refusal :=
  serving s (
    let x := s.ext s.node e
    let d := x.die
    let free := x.state = .held ∧ s.bindOf e = none
    if ¬ s.on R.MEM_TIER_CFG_enable [] ∨ ¬ s.inBoard e ∨ s.tier.moves.has [e] ∨ (x.state ≠ .held ∧ x.state ≠ .internal) ∨
        s.tier.heat.get 0 [e] < s.rd R.MEM_TIER_CFG_promote_heat [] ∨ ¬ s.mayMove d ∨ s.pkg.hubLost.has [d] ∨
        1 ≤ s.movesAt true ((s.tier.loc.get {} [e]).unit) ∨ s.tier.swaps.vals.contains e then s
    else
      match s.promoteTo d with
      | some l => s.startMove e .promotion false l d
      | none =>
        match if s.on R.MEM_TIER_CFG_cross_die [] ∧ free then s.promoteTo (1 - d) else none with
        | some l => s.startMove e .promotion false l (1 - d)
        | none =>
          match s.oldestEligible d with
          | some v =>
            if s.rd R.MEM_AGE_CFG_swap_age [] ≤ s.tier.age.get 0 [v] then
              match s.boardDst d with
              | some l =>
                let s := s.startMove v .demotion false l d
                { s with tier := { s.tier with swaps := s.tier.swaps.set [v] e } }
              | none => s
            else s
          | none => s)

/-! ### Retiring a stack, draining a channel (R216, R217) -/

/-- Where an extent goes that a retirement or a drain takes from its slot, with its home die after the move. -/
def State.refuge (s : State) (e : Nat) : Option (Loc × Nat) :=
  let x := s.ext s.node e
  let d := x.die
  let stay (l : Option Loc) (die : Nat) := l.map (fun l => (l, die))
  if x.state = .internal ∨ (s.bindOf e).isSome then stay (s.pick false true (stacksOf d)) d
  else
    (stay (s.boardDst d) d).or <|
      if s.inBoard e then stay (s.pick false true (stacksOf d)) d
      else if 0 < s.boardFree then none
      else if 0 < s.stackFree (1 - d) then stay (s.pick false true (stacksOf (1 - d))) (1 - d)
      else stay (s.pick false true (stacksOf d)) d

/-- A stack RETIRING or a channel DRAINING. -/
def State.leaving (s : State) (l : Loc) : Bool :=
  if l.board then s.rd R.BRD_CH_STATUS_state [l.unit] = 3 else s.rd R.MEM_STACK_STATUS_state [l.unit] = 2

/-- The moves of retirements and drains that may begin now (R212). -/
def State.pump (s : State) : State :=
  (s.tier.loc.entries.filter (fun e => s.leaving e.2)).foldl (fun t en =>
    let e := en.1.headD 0
    let x := t.ext t.node e
    if t.tier.moves.has [e] ∨ ¬ t.mayMove x.die ∨ (if en.2.board then 1 else 2) ≤ t.movesAt en.2.board en.2.unit then t
    else if x.state = .held ∨ x.state = .internal ∨ x.state = .quarantine then
      match t.refuge e with
      | some (l, die) =>
        t.startMove e (if en.2.board then .drain else .retirement) (decide (x.state = .quarantine)) l die
      | none => t
    else t) s

/-- Extents that sit in a unit. -/
def State.sitting (s : State) (board : Bool) (u : Nat) : List Nat :=
  (s.tier.loc.entries.filter (fun e => decide (e.2.board = board ∧ e.2.unit = u))).map (·.1.headD 0)

/-- LOST extents give up their slot without a move (R207). -/
def State.giveUpLost (board : Bool) (u : Nat) (s : State) : State :=
  ((s.sitting board u).filter (fun e => (s.ext s.node e).state = .lost)).foldl (fun t e => t.freeSlotOf e) s

/-- A RETIRING stack or DRAINING channel that has emptied leaves service (R216, R217). -/
def State.emptied (s : State) : State :=
  let st := (List.range 20).filter (fun u => decide (s.rd R.MEM_STACK_STATUS_state [u] = 2 ∧ s.taken false u = []))
  let ch := (List.range 8).filter (fun c => decide (s.rd R.BRD_CH_STATUS_state [c] = 3 ∧ s.taken true c = []))
  let s := st.foldl (fun t u =>
    (((t.wr R.MEM_STACK_STATUS_state [u] 3).loseSlots 1152).event B.mem 7).degraded (dieOfStack u) B.mem u 33) s
  ch.foldl (fun t c =>
    let n := t.rd R.BRD_CH_STATUS_slots [c]
    let t := (t.wr R.BRD_CH_STATUS_state [c] 4).loseSlots n
    { t with tier := { t.tier with gone := t.tier.gone.set [c] n } }) s

/-- What RETIRING stacks and DRAINING channels do as soon as they can: LOST extents give up their slots, an empty one
leaves service, and the others' moves begin (R207, R212, R216, R217). -/
def State.leave (s : State) : State :=
  let s := ((List.range 20).filter (fun u => decide (s.rd R.MEM_STACK_STATUS_state [u] = 2))).foldl (fun t u => t.giveUpLost false u) s
  let s := ((List.range 8).filter (fun c => decide (s.rd R.BRD_CH_STATUS_state [c] = 3))).foldl (fun t c => t.giveUpLost true c) s
  s.emptied.pump

/-! ### Moving an extent (R212 to R215) -/

/-- A move is over: the extent lies at the destination alone, and what waited for its slot begins. -/
def State.endOfMove (e : Nat) (m : Move) (s : State) : State :=
  let old := (s.ext s.node e).die
  let src := s.tier.loc.get? [e]
  let s := match m.kind with
    | .demotion => s.bump R.MEM_DIE_CNT_count [old, 0]
    | .promotion => s.bump R.MEM_DIE_CNT_count [old, 1]
    | _ => s
  let s := if m.die = old then s else s.bump R.MEM_DIE_CNT_count [old, 2]
  let s := s.setExt s.node e { s.ext s.node e with die := m.die }
  let s : State := { s with tier := { s.tier with
    moves := s.tier.moves.erase [e], loc := s.tier.loc.set [e] m.dst, heat := s.tier.heat.erase [e],
    swaps := s.tier.swaps.erase [e],
    tags := (s.untag (if src = some m.dst then none else src)).keep (fun k _ => carriesTag (s.ext s.node e).state ||
      ! m.dst.board || decide (k ≠ [m.dst.unit, m.dst.slot])) } }
  let s := match s.tier.swaps.get? [e], src with
    | some b, some l => if s.inBoard b ∧ ¬ s.tier.moves.has [b] then s.startMove b .promotion false l m.die else s
    | _, _ => s
  s.leave

/-- A move that touches the board tier of a die whose hub link is lost pauses (R22, R215). -/
def State.moveCut (s : State) (e : Nat) (m : Move) : Bool :=
  s.pkg.hubLost.has [(s.ext s.node e).die] && (m.dst.board || (m.src.map (·.board)).getD false)

/-- R212: the next chunk is locked. No chunk is locked of an extent that is being revoked (R172). -/
def State.lockChunk (e : Nat) (s : State) : State :=
  match s.tier.moves.get? [e] with
  | none => s
  | some m =>
    let st := (s.ext s.node e).state
    if m.lock.isSome ∨ m.whole.isSome ∨ m.resumeAt.isSome ∨ s.now < m.gapUntil ∨ s.moveCut e m ∨
        st = .revoking ∨ st = .scrub then s
    else
      let next := m.urgent.or ((List.range 1024).find? (fun k => !bitAt m.copied k))
      match next with
      | none => s
      | some k =>
        let now := s.now
        { s with tier := { s.tier with moves := s.tier.moves.set [e] { m with lock := some (k, now), urgent := none } } }

def execMigrationChunk (e : Nat) (s : State) : Host.Outcome State Fault Refusal := serving s (s.leave.lockChunk e)

/-- Lines of a chunk on FAILED pseudo-channels of its source are written poisoned at the destination (R202). -/
def State.carryPoison (e k : Nat) (s : State) : State :=
  ((List.range 512).map (e * 2 ^ 19 + 512 * k + ·)).foldl (fun t l => if s.lineDead l then t.setPoison l true else t) s

/-- The column commands of a copied chunk count toward the cap of each stack it touches (R197). -/
def State.countCopy (src : Option Loc) (dst : Loc) (s : State) : State :=
  let s := match src with
    | some l => if l.board then s.bumpBy R.BRD_CNT_count [l.unit, 0] 512
      else (s.countColumns l.unit 2048).bumpBy R.MEM_CNT_count [l.unit, 0] 2048
    | none => if dst.board then s.bump R.BRD_CNT_count [dst.unit, 5] else s
  if dst.board then s.bumpBy R.BRD_CNT_count [dst.unit, 1] 512
  else (s.countColumns dst.unit 2048).bumpBy R.MEM_CNT_count [dst.unit, 1] 2048

/-- What waited on a chunk's lock is served, in order of arrival (R213). -/
def State.unlockWaiters (e k : Nat) (s : State) : State :=
  match s.tier.moves.get? [e] with
  | none => s
  | some m =>
    let mine (h : Nat × Nat) : Bool :=
      match s.homeAt h.1 h.2 with
      | some x => decide (bitsOf x.msg.addr 16 10 = k)
      | none => true
    let s : State := { s with tier := { s.tier with
      moves := s.tier.moves.set [e] { m with wait := m.wait.filter (fun h => !mine h) } } }
    ((m.wait.filter mine).foldl (fun t h => t.atLock h.1 h.2) s).turns

/-- R212: a copy ends, within 2 µs of its lock or abandoned. -/
def State.copyDone (e : Nat) (s : State) : State :=
  match s.tier.moves.get? [e] with
  | none => s
  | some m =>
    match m.lock with
    | none => s
    | some (k, t0) =>
      let d := (s.ext s.node e).die
      let gap := s.now + 8 * s.rd R.MEM_MIG_CFG_gap []
      if t0 + 2000 < s.now then
        let n := m.abandons + 1
        let m := { m with lock := none, gapUntil := gap, abandons := if 8 ≤ n then 0 else n,
                          resumeAt := if 8 ≤ n then some (s.now + 65536) else none }
        let s : State := { s with tier := { s.tier with moves := s.tier.moves.set [e] m } }
        ((s.bump R.MEM_DIE_CNT_count [d, 4]).event B.mem 6).unlockWaiters e k
      else
        let s := (((s.carryPoison e k).countCopy m.src m.dst).bump R.MEM_DIE_CNT_count [d, 3])
        let all := m.copied ||| 1 <<< k
        let done := decide (all % 2 ^ 1024 = 2 ^ 1024 - 1)
        let beat := s.beat
        let m := { m with lock := none, gapUntil := gap, abandons := 0, copied := all,
                          whole := if done ∧ m.die ≠ d then some beat else none }
        let s : State := { s with tier := { s.tier with moves := s.tier.moves.set [e] m } }
        let s := s.unlockWaiters e k
        if done ∧ m.die = d then s.endOfMove e m else s

def execChunkCopyDone (e : Nat) (s : State) : Host.Outcome State Fault Refusal := serving s (s.copyDone e)

/-- R212. -/
def execMovePauseEnd (e : Nat) (s : State) : Host.Outcome State Fault Refusal :=
  serving s (
    match s.tier.moves.get? [e] with
    | some m =>
      match m.resumeAt with
      | some t => if t ≤ s.now then { s with tier := { s.tier with moves := s.tier.moves.set [e] { m with resumeAt := none } } }
                  else s
      | none => s
    | none => s)

/-- R214. -/
def execHomeDieSwitch (e : Nat) (s : State) : Host.Outcome State Fault Refusal :=
  serving s (
    match s.tier.moves.get? [e] with
    | some m =>
      match m.whole with
      | some b => if s.beat = b then s else s.endOfMove e m
      | none => s
    | none => s)

/-- R215: the outcome of MEM_MOVE_CMD. -/
def State.moveCmd (v : Nat) (s : State) : State :=
  let e := bitsOf v 0 18
  let board := bitAt v 18
  let die := bitsOf v 19 1
  let x := s.ext s.node e
  let refuse (st : Status) : State :=
    ((s.wr R.MEM_MOVE_RESULT_status [] st.code).event B.mem 8).bump R.MEM_DIE_CNT_count [x.die, 7]
  if ¬ s.isReady B.mem ∨ x.state ≠ .held ∨ s.tier.moves.has [e] ∨ (s.bindOf e).isSome ∨ ¬ s.mayMove x.die then refuse .retry
  else
    let units := if board then List.range 8 else stacksOf die
    match s.tier.loc.get? [e] with
    | none => refuse .retry
    | some l =>
      if units.all (fun u => s.freeSlots board u = 0) then refuse .quota
      else if (if l.board then 1 else 2) ≤ s.movesAt l.board l.unit then refuse .retry
      else
        match s.pick board true units with
        | some dst => (s.startMove e .command false dst (if board then x.die else die)).wr R.MEM_MOVE_RESULT_status [] 0
        | none => refuse .retry

def execMoveCmd (v : Nat) (s : State) : Host.Outcome State Fault Refusal := hosted s (fun s => s.moveCmd v)

/-- R216. -/
def State.retire (u : Nat) (s : State) : State :=
  let fixed := (s.extentsIn false u).filter (fun e => (s.ext s.node e).state = .internal || (s.bindOf e).isSome)
  let d := dieOfStack u
  s.started R.MEM_STACK_CTL_retire [u] (
    if s.rd R.MEM_STACK_STATUS_state [u] ≠ 1 then s.badWrite R.MEM_STACK_CTL_retire [u]
    else if s.slotsFree - s.freeSlots false u < (s.taken false u).length ∨ s.stackFree d - s.freeSlots false u < fixed.length then
      s.wr R.MEM_STACK_STATUS_result [u] Status.quota.code
    else
      ((s.wr R.MEM_STACK_STATUS_result [u] 0).wr R.MEM_STACK_STATUS_state [u] 2).leave)

def execRetire (u : Nat) (s : State) : Host.Outcome State Fault Refusal := hosted s (fun s => s.retire u)

/-! ### Board channels (R203, R204, R217) -/

def State.chState (s : State) (c : Nat) : Nat := s.rd R.BRD_CH_STATUS_state [c]

/-- R217 step 6: power, SPD and training. -/
def State.enableChannel (c : Nat) (s : State) : State :=
  s.started R.BRD_CH_CTL_enable [c] (
    if s.chState c = 0 ∨ s.chState c = 5 then (s.wr R.BRD_CH_STATUS_state [c] 1).emit (.pin (2 + c) 1)
    else s.badWrite R.BRD_CH_CTL_enable [c])

def execChannelEnable (c : Nat) (s : State) : Host.Outcome State Fault Refusal := hosted s (fun s => s.enableChannel c)

/-- The modules the Apold supports (R203). -/
def accepted (d : Spd) : Bool :=
  d.supported && decide (32 ≤ d.capacityGiB ∧ d.capacityGiB ≤ 512 ∧ d.capacityGiB % 16 = 0)

def State.showModule (c : Nat) (d : Spd) (s : State) : State :=
  (s.wr R.BRD_CH_STATUS_mrdimm [c] (b2n d.mrdimm)).wr R.BRD_CH_STATUS_capacity [c] d.capacityGiB

/-- R203, R204, R217: training ends. `spd` is none where no module answers. -/
def execChannelTrained (c : Nat) (spd : Option Spd) (s : State) : Host.Outcome State Fault Refusal :=
  serving s (
    if s.chState c ≠ 1 then s
    else
      match spd with
      | none => s.wr R.BRD_CH_STATUS_state [c] 0
      | some d =>
        let s := s.showModule c d
        if ¬ accepted d then
          let n := s.rd R.BRD_CH_STATUS_slots [c] - s.tier.gone.get 0 [c]
          let s := (s.wr R.BRD_CH_STATUS_state [c] 6).loseSlots n
          let s : State := { s with tier := { s.tier with gone := s.tier.gone.set [c] (s.rd R.BRD_CH_STATUS_slots [c]) } }
          ((s.event B.brd 1).event B.brd 2).degraded 2 B.brd c 1
        else if 16 * d.capacityGiB < s.tier.boot.get 0 [c] then (s.wr R.BRD_CH_STATUS_state [c] 5).event B.brd 3
        else
          let n := s.tier.gone.get 0 [c]
          let s : State := { s with tier := { s.tier with gone := s.tier.gone.erase [c] } }
          (((s.wr R.BRD_CH_STATUS_state [c] 2).regainSlots n).event B.brd 0).leave)

/-- R217 step 1: the slots elsewhere must take the channel's extents, other modules first, then each home die's stacks. -/
def State.drainChannel (c : Nat) (s : State) : State :=
  let excess (d : Nat) : Nat := ((s.extentsIn true c).filter (fun e => (s.ext s.node e).die = d)).length - s.stackFree d
  s.started R.BRD_CH_CTL_drain [c] (
    if s.chState c ≠ 2 then s.badWrite R.BRD_CH_CTL_drain [c]
    else if s.boardFree - s.freeSlots true c < excess 0 + excess 1 then s.wr R.BRD_CH_STATUS_result [c] Status.quota.code
    else
      ((s.wr R.BRD_CH_STATUS_result [c] 0).wr R.BRD_CH_STATUS_state [c] 3).leave)

def execChannelDrain (c : Nat) (s : State) : Host.Outcome State Fault Refusal := hosted s (fun s => s.drainChannel c)

/-- R217 step 4. -/
def State.powerOffChannel (c : Nat) (s : State) : State :=
  s.started R.BRD_CH_CTL_power_off [c] (
    if s.chState c = 4 ∨ s.chState c = 6 then (s.wr R.BRD_CH_STATUS_state [c] 5).emit (.pin (2 + c) 0)
    else s.badWrite R.BRD_CH_CTL_power_off [c])

def execPowerOff (c : Nat) (s : State) : Host.Outcome State Fault Refusal := hosted s (fun s => s.powerOffChannel c)

/-- R217, R186. -/
def execChannelFailed (c : Nat) (s : State) : Host.Outcome State Fault Refusal :=
  serving s (
    if s.chState c = 1 ∨ s.chState c = 2 ∨ s.chState c = 3 then
      let n := s.freeSlots true c
      let s := s.unitFails true c (fun t => t.wr R.BRD_CH_STATUS_state [c] 6)
      let s : State := { s with tier := { s.tier with gone := s.tier.gone.set [c] (s.tier.gone.get 0 [c] + n) } }
      (s.event B.brd 1).degraded 2 B.brd c 0
    else s)

/-! ### Extents that leave their slots (R173, R186, R190) -/

/-- R173. -/
def execScrubDone (r e : Nat) (s : State) : Host.Outcome State Fault Refusal :=
  serving s (
    match s.pool.revs.get? [r] with
    | some v =>
      let locked := if v.node = s.node then ((s.tier.moves.get? [e]).bind (·.lock)).isSome else s.storesQueued v.node e
      if ¬ v.drained ∨ ¬ v.left.contains e ∨ locked then s
      else
        let s := if (s.ext v.node e).state = .scrub then s.scrubbed v e else s
        let v := { v with left := v.left.filter (· ≠ e) }
        let s : State := { s with pool := { s.pool with revs := s.pool.revs.set [r] v } }
        (if v.left = [] then s.endRevoke r v else s).leave
    | none => s)

/-- R186, R190. -/
def State.cmdRelease (node first last_ : Nat) (s : State) : Status × State :=
  let es := rangeOf first last_
  if ¬ s.serves node then (.nodeLost, s)
  else if last_ < first then (.unsupported, s)
  else if es.any (fun e => decide ((s.ext node e).state ≠ .quarantine ∧ ((s.ext node e).state ≠ .lost ∨ ¬ s.usable node e))) then (.retry, s)
  else
    let scrub := es.filter (fun e => decide ((s.ext node e).state = .lost) && (node ≠ s.node || s.tier.loc.has [e]))
    let s := (es.filter (fun e => ! scrub.contains e)).foldl (fun t e => t.freeExt node e) s
    if scrub = [] then (.ok, s.leave)
    else
      let s := scrub.foldl (fun t e => t.putExt node e { t.ext node e with state := .scrub, owner := 0, group := none }) s
      let r : Revocation := { node := node, extents := scrub, clear := true, since := s.now, drained := true, left := scrub,
                              release := true }
      (.ok, { s with pool := { s.pool with revs := s.pool.revs.set [s.pool.nextRev] r, nextRev := s.pool.nextRev + 1 } })

/-- R186. -/
def execRelease (node first last_ : Nat) (s : State) : Host.Outcome State Fault Refusal :=
  serving s (State.poolTold 0x0107 (s.gated 0x0107 (s.cmdRelease node first last_)))

def State.cmdMarkLost (node first last_ : Nat) (s : State) : Status × State :=
  if ¬ s.serves node then (.nodeLost, s)
  else if last_ < first then (.unsupported, s)
  else (.ok, (s.loseExtents node (rangeOf first last_)).leave)

/-- R186. -/
def execMarkLost (node first last_ : Nat) (s : State) : Host.Outcome State Fault Refusal :=
  serving s (State.poolTold 0x010C (s.gated 0x010C (s.cmdMarkLost node first last_)))

end Sys2Proof.Machine
end

