-- ==== Sys2Proof/Machine/Compute.lean ====
section
/-! DEFINITION. What the instructions of a core are built from: its registers, local memory, tasks and pushes, completion
counters, stream handles and faults (R218, R226 to R235, R244 to R252, R270, R279 to R281). -/

namespace Sys2Proof.Machine

/-! ### Task descriptors (R226) -/

def dEntry (x : Nat) : Nat := fieldOf x 0 0 32
def dImage (x : Nat) : Nat := fieldOf x 4 0 8
def dScope (x : Nat) : Nat := fieldOf x 4 8 2
def dTenant (x : Nat) : Nat := fieldOf x 4 10 5
def dNotify (x : Nat) : Bool := fieldOf x 4 15 1 = 1
def dNotifyCore (x : Nat) : Nat := fieldOf x 4 16 7
def dNotifyCtr (x : Nat) : Nat := fieldOf x 4 23 6
def dUser (x : Nat) : Nat := fieldOf x 12 0 32
def dArg (x k : Nat) : Nat := fieldOf x (16 + 8 * k) 0 64

/-- A descriptor with its tenant forced (R259, R286, R435). -/
def withTenant (x t : Nat) : Nat := setBits x 42 5 t

/-! ### Cores and clusters -/

def State.core (s : State) (n : Nat) : Core := s.cores.get {} [n]

def State.modCore (n : Nat) (f : Core → Core) (s : State) : State := { s with cores := s.cores.set [n] (f (s.core n)) }

def State.cluster (s : State) (c : Nat) : Cluster := s.clusters.get {} [c]

def State.modCluster (c : Nat) (f : Cluster → Cluster) (s : State) : State :=
  { s with clusters := s.clusters.set [c] (f (s.cluster c)) }

/-- The states of R239. -/
def Cs.ready : Nat := 0
def Cs.offlining : Nat := 1
def Cs.scrubbing : Nat := 2
def Cs.offline : Nat := 3
def Cs.onlining : Nat := 4
def Cs.failed : Nat := 5

def State.cst (s : State) (c : Nat) : Nat := s.rd R.CMP_CLUSTER_STATUS_state [c]

/-- Whether the part's clusters are there at all: from boot step 6 on (R443). -/
def State.clusterUp (s : State) (c : Nat) : Bool := s.isReady B.cmp && s.cst c = Cs.ready

def State.clusterTenant (s : State) (c : Nat) : Nat := s.rd R.CMP_CLUSTER_CFG_tenant [c]

def dieOfCore (n : Nat) : Nat := n / 64

def coresOf (c : Nat) : List Nat := (List.range 8).map (· + 8 * c)

/-- CMP_CNT. -/
def State.countCmp (c k : Nat) (s : State) : State := s.bump R.CMP_CNT_count [c, k]

/-! ### Completion counters (R270, R271) -/

/-- Whether a counter has not reached a target (R271). -/
def notReached (target value : Nat) : Bool :=
  decide (1 ≤ dist 32 target value ∧ dist 32 target value ≤ 2 ^ 31 - 1)

def Core.setS (k : Core) (i v : Nat) : Core := if i = 0 then k else { k with s := k.s.set [i] (v % 2 ^ 64) }

/-- Scalar register `i`; s0 reads 0 (R244). -/
def Core.sr (k : Core) (i : Nat) : Nat := if i = 0 then 0 else k.s.get 0 [i]

def Core.counter (k : Core) (cn : Nat) : Nat × Status := k.ctr.get (0, .ok) [cn]

/-- The words of the running task's image (R249). -/
def State.codeOf (s : State) (k : Core) : List (BitVec 64) :=
  match k.task with
  | some d => ((s.images.get? [dTenant d, dImage d]).map (·.code)).getD []
  | none => []

/-- Fault causes (R248, R289). -/
def Fc.illegal : Nat := 0x01
def Fc.align : Nat := 0x02
def Fc.range : Nat := 0x03
def Fc.fetch : Nat := 0x04
def Fc.brk : Nat := 0x05
def Fc.killed : Nat := 0x06
def Fc.faddr : Nat := 0x20
def Fc.flen : Nat := 0x21
def Fc.hbound : Nat := 0x22
def Fc.hunbound : Nat := 0x23
def Fc.hrel : Nat := 0x24
def Fc.hcount : Nat := 0x25
def Fc.tenant : Nat := 0x26
def Fc.freezeOff : Nat := 0x27
def Fc.hkind : Nat := 0x28

/-- A core without a task: it is idle from now on. -/
def Core.ended (k : Core) (now : Nat) : Core :=
  { k with task := none, wait := none, acqs := [], owed := [], mixed := [], stage := 1, idleSince := now }

/-- A task ends by a fault (R232, R248). -/
def State.taskFault (n cause : Nat) (s : State) : State :=
  let k := s.core n
  let d := k.task.getD 0
  let s := if bitAt (s.rd R.CMP_EVT_events []) 0 then s else
    ((((s.wr R.CMP_FAULT_INFO_core [] n).wr R.CMP_FAULT_INFO_cause [] cause).wr R.CMP_FAULT_INFO_image [] (dImage d)).wr
      R.CMP_FAULT_INFO_offset [] k.pc).wr R.CMP_FAULT_USER_user [] (dUser d)
  let now := s.now
  ((s.modCore n (·.ended now)).event B.cmp 0).countCmp (n / 8) 9

/-- A task ends by tend: the notify increment is on its way (R232, R271). -/
def State.taskEnd (n : Nat) (s : State) : State :=
  let d := (s.core n).task.getD 0
  let now := s.now
  let s := s.modCore n (·.ended now)
  if dNotify d then { s with flying := s.flying ++ [(dNotifyCore d, dNotifyCtr d, 1, .ok)] } else s

/-- The next instruction; a task that runs past its last one faults (R258). -/
def State.setPc (n pc : Nat) (s : State) : State :=
  let k := s.core n
  let s := s.modCore n (fun k => { k with pc := pc })
  if pc < 8 * (s.codeOf k).length then s else s.taskFault n Fc.fetch

/-- A waiting instruction is done: its result is written and the core issues on. -/
def State.wake (n d v : Nat) (s : State) : State :=
  let pc := (s.core n).pc
  (s.modCore n (fun k => ({ k with wait := none } : Core).setS d v)).setPc n ((pc + 8) % 2 ^ 32)

/-- An increment is applied, and ends a cwait it satisfies (R270, R272). -/
def State.increment (n cn amount : Nat) (st : Status) (s : State) : State :=
  let c := (s.core n).counter cn
  let v := (c.1 + amount) % 2 ^ 32
  let s := s.modCore n (fun k => { k with ctr := k.ctr.set [cn] (v, Status.join c.2 st) })
  match (s.core n).wait with
  | some (.counter cn' target d _) => if cn' = cn ∧ ¬ notReached target v then s.wake n d 0 else s
  | _ => s

/-! ### Pushes (R227, R228) -/

/-- Descriptors of a cluster in its taskq share. -/
def State.overflow (s : State) (c : Nat) : Nat :=
  (coresOf c).foldl (fun a n => a + ((s.core n).deque.length - 64)) 0

def State.dequeRoom (s : State) (n : Nat) : Bool :=
  decide ((s.core n).deque.length < 64) || decide (s.overflow (n / 8) < 4096 * s.rd R.CMP_CSRAM_CFG_taskq [n / 8])

/-- The status of a push (R227, R228), the tenant check first. -/
def State.pushStatus (s : State) (desc n : Nat) : Status :=
  if dTenant desc ≠ s.clusterTenant (n / 8) then .protViolation
  else if ¬ s.images.has [dTenant desc, dImage desc] then .unsupported
  else if ¬ s.clusterUp (n / 8) then .retry
  else if ¬ s.dequeRoom n then .quota
  else .ok

/-- The core a cluster chooses: the fewest entries, then the lowest number. -/
def State.fewest (s : State) (c : Nat) : Nat := (argMin (fun n => (s.core n).deque.length) (coresOf c)).getD (8 * c)

/-- An entry reaches the bottom of a deque; the core stops stealing. -/
def State.enqueueTask (n desc : Nat) (s : State) : State :=
  s.modCore n (fun k => { k with deque := desc :: k.deque, stage := 1 })

/-- Push a descriptor to a core, or to the core its cluster chooses. -/
def State.push (desc n : Nat) (any : Bool) (s : State) : Status × State :=
  let n := if any then s.fewest (n / 8) else n
  let st := s.pushStatus desc n
  (st, if st = .ok then s.enqueueTask n desc else s)

/-- An agent pushes to cluster `c`, naming a core or not; where the deques are full it stalls, and so do later pushes to
the same place (R227, R228). -/
def State.agentPush (c : Nat) (core : Option Nat) (desc : Nat) (s : State) : Status × State :=
  let l := (s.cluster c).stalled
  let n := core.getD (8 * c)
  let r := s.push desc n core.isNone
  if r.1 = .quota ∨ (r.1 = .ok ∧ l.any (fun q => decide (q.core = core))) then
    (.ok, s.modCluster c (fun k => { k with stalled := l ++ [{ desc := desc, core := core }] }))
  else (r.1, if r.1 = .ok then r.2.countCmp c 1 else r.2.event B.cmp 5)

/-! ### Local memory (R246) -/

/-- Bytes of the cluster's general share. -/
def State.general (s : State) (c : Nat) : Nat := 262144 * s.rd R.CMP_CSRAM_CFG_general [c]

/-- Where a local range lies: in CSRAM or not, and the offset there; none where a byte of it is out of range. -/
def State.localAt (s : State) (n a len : Nat) : Option (Bool × Nat) :=
  if a + len ≤ 0x200000 then some (false, n * 2 ^ 21 + a)
  else if 0x1000000 ≤ a ∧ a + len ≤ 0x1000000 + s.general (n / 8) then some (true, n / 8 * 2 ^ 24 + (a - 0x1000000))
  else none

/-- Local ranges that live fabric reads of a core are still to write (R276). -/
def State.arriving (s : State) (n : Nat) : List (Nat × Nat) :=
  s.trk.issued.vals.filterMap (fun e =>
    match e.purpose with
    | .load c a len _ => if c = n then some (a, len) else none
    | .atomic c (some a) _ len _ => if c = n then some (a, len) else none
    | _ => none)

/-- Whether byte `a` lies in a 64-byte granule that one of the ranges touches. -/
def inGranule (l : List (Nat × Nat)) (a : Nat) : Bool :=
  l.any (fun r => decide (r.1 / 64 ≤ a / 64 ∧ a / 64 ≤ (r.1 + r.2 - 1) / 64))

/-- The bytes of a local range as a number, the range being valid. -/
def State.peek (s : State) (n a len : Nat) : Nat :=
  match s.localAt n a len with
  | some (true, o) => natOfBytes (Mem.readN s.csram o len)
  | some (false, o) => natOfBytes (Mem.readN s.spm o len)
  | none => 0

/-- Write the low `len` bytes of a number to a local range. -/
def State.poke (n a len x : Nat) (s : State) : State :=
  match s.localAt n a len with
  | some (true, o) => { s with csram := Mem.writeAll s.csram o (bytesOfNat len x) }
  | some (false, o) => { s with spm := Mem.writeAll s.spm o (bytesOfNat len x) }
  | none => s

/-- Bytes of `x` where `p` does not hold of their address, bytes of `y` where it does. -/
def mixBytes (p : Nat → Bool) (a len x y : Nat) : Nat :=
  natOfBytes ((List.range len).map (fun i => BitVec.ofNat 8 ((if p (a + i) then y else x) >>> (8 * i))))

/-- A local read: bytes that a fabric read is still to write are a mixture nobody knows (R276). -/
def State.readLocal (n a len : Nat) (s : State) : Nat × State :=
  let l := s.arriving n
  let x := s.peek n a len
  if (List.range len).any (fun i => inGranule l (a + i)) then (mixBytes (inGranule l) a len x s.freeVal, s.drew)
  else (x, s)

/-- A local store: bytes that a fabric read is still to write stay undefined (R276). -/
def State.writeLocal (n a len x : Nat) (s : State) : State :=
  let l := s.arriving n
  let hit (b : Nat) : Bool := l.any (fun r => decide (r.1 ≤ b ∧ b < r.1 + r.2))
  if (List.range len).any (fun i => hit (a + i)) then
    ((s.poke n a len (mixBytes hit a len x s.freeVal)).drew).modCore n (fun k => { k with mixed := k.mixed ++ [(a, len)] })
  else s.poke n a len x

/-! ### Stream handles (R233, R234, R279 to R281) -/

def Handle.slots (h : Handle) : Nat := 2 ^ h.slotsLog2

def Handle.slot (h : Handle) : Nat := 256 * 2 ^ h.slotLog2

def Handle.full (h : Handle) : Nat := dist 32 h.p h.c

/-- The local address of the slot of a count. -/
def Handle.at_ (h : Handle) (count : Nat) : Nat := h.base + count % h.slots * h.slot

def Handle.csram (h : Handle) : Bool := decide (0x1000000 ≤ h.base)

def State.setHandle (n i : Nat) (h : Handle) (s : State) : State :=
  s.modCore n (fun k => { k with handles := k.handles.set [i] h })

/-- The address a hacq or hres writes, once its condition holds (R280). -/
def Acq.ready (a : Acq) (h : Handle) : Option Nat :=
  if a.reserve then (if a.n ≤ h.slots - h.full then some (h.at_ h.p) else none)
  else (if a.n ≤ h.full then some (h.at_ h.c) else none)

/-- Satisfy the waiters of a handle, in program order. -/
def settleList (i : Nat) (h : Handle) : List Acq → Core → List Acq × Core
  | [], k => ([], k)
  | a :: t, k =>
    if a.h ≠ i then
      let r := settleList i h t k
      (a :: r.1, r.2)
    else match a.ready h with
      | some v => settleList i h t (({ k with owed := k.owed.filter (fun r => decide (r ≠ a.d)) } : Core).setS a.d v)
      | none => (a :: t, k)

def State.settleHandle (n i : Nat) (s : State) : State :=
  match (s.core n).handles.get? [i] with
  | some h => s.modCore n (fun k =>
      let r := settleList i h k.acqs k
      { r.2 with acqs := r.1 })
  | none => s

/-- A producer fills the next slot with `len` bytes; P advances and waiters are satisfied (R234). -/
def State.produce (n i len x : Nat) (s : State) : State :=
  match (s.core n).handles.get? [i] with
  | some h => ((s.poke n (h.at_ h.p) (min len h.slot) x).setHandle n i { h with p := (h.p + 1) % 2 ^ 32 }).settleHandle n i
  | none => s

/-- Free slots of a handle bound to a producer kind; none where it is unbound or of another kind (R279). -/
def State.freeIn (s : State) (n i kind : Nat) : Option Nat :=
  match (s.core n).handles.get? [i] with
  | some h => if h.producer = kind then some (h.slots - h.full) else none
  | none => none

/-- Blocks under expansion into a ring are discarded with it, and a message not wholly written is counted (R326). -/
def State.dropExpansions (n i : Nat) (s : State) : State :=
  let mine (e : Expansion) : Bool := decide (e.core = n ∧ e.handle = i)
  let s := (s.cdc.work.filter (fun e => mine e && !e.blocks.isEmpty)).foldl (fun t e =>
    t.bump R.CDC_CNT_count [dieOfPort e.port, 7]) s
  { s with cdc := { s.cdc with work := s.cdc.work.filter (fun e => !mine e) } }

/-- Unbind a handle; what waits on it is abandoned (R281). -/
def State.unbind (n i : Nat) (s : State) : State :=
  let t := (s.dropExpansions n i).modCore n (fun k => { k with
    handles := k.handles.erase [i],
    owed := k.owed.filter (fun r => !k.acqs.any (fun a => decide (a.h = i ∧ a.d = r))),
    acqs := k.acqs.filter (fun a => decide (a.h ≠ i)) })
  { t with gth := { t.gth with sets := t.gth.sets.erase [n, i] } }

/-- Slots of unit output discarded because their handle was unbound (CMP_CNT[c][12]). -/
def State.discard (n k : Nat) (s : State) : State := if k = 0 then s else s.bumpBy R.CMP_CNT_count [n / 8, 12] k

/-- hfree or kill unbinds a handle (R240, R281): the slots that units still had for it are discarded and counted, those of a
slot set that is not ready yet once it is. -/
def State.release (n i : Nat) (s : State) : State :=
  let sets := s.gth.sets.get [] [n, i]
  let k := (s.cdc.work.filter (fun e => decide (e.core = n ∧ e.handle = i))).foldl (fun a e => a + e.blocks.length) 0 +
    sets.foldl (fun a g => a + g.slots.length) 0
  let wait := sets.filter (fun g => !g.ready)
  let t := (s.unbind n i).discard n k
  if wait = [] then t
  else { t with gth := { t.gth with sets := t.gth.sets.set [n, i + 16] (t.gth.sets.get [] [n, i + 16] ++ wait) } }

/-! ### Instruction words (R250, R268) -/

def fD (w : Nat) : Nat := bitsOf w 8 5
def fA (w : Nat) : Nat := bitsOf w 13 5
def fB (w : Nat) : Nat := bitsOf w 18 5
def fC (w : Nat) : Nat := bitsOf w 23 5
def fG (w : Nat) : Nat := bitsOf w 28 3
def fZ (w : Nat) : Bool := bitAt w 31
def fR (w : Nat) : Nat := bitsOf w 32 3 + 1
def fT (w : Nat) : Nat := bitsOf w 37 4
def fT2 (w : Nat) : Nat := bitsOf w 41 4
def fSat (w : Nat) : Bool := bitAt w 45
def fF (w : Nat) : Nat := bitsOf w 46 4
def fBs (w : Nat) : Bool := bitAt w 50

/-- The bits of format A's and M's fields. -/
def mD : Nat := 0x1F <<< 8
def mA : Nat := 0x1F <<< 13
def mB : Nat := 0x1F <<< 18
def mC : Nat := 0x1F <<< 23
def mG : Nat := 0x7 <<< 28
def mZ : Nat := 1 <<< 31
def mR : Nat := 0x7 <<< 32
def mE : Nat := 0x3 <<< 35
def mT : Nat := 0xF <<< 37
def mT2 : Nat := 0xF <<< 41
def mSat : Nat := 1 <<< 45
def mF : Nat := 0xF <<< 46
def mBs : Nat := 1 <<< 50

/-- Every field outside these is 0 (R250). -/
def only (w : Nat) (fields : List Nat) : Bool := w &&& (fields.foldl (· ||| ·) 0xFF) = w

/-- The opcodes in use (R252, R269). -/
def opcodes : List Nat :=
  (List.range 0x0F).map (· + 0x01) ++ (List.range 8).map (· + 0x10) ++ (List.range 12).map (· + 0x18) ++
    [0x28, 0x29, 0x2A] ++ (List.range 6).map (· + 0x30) ++ (List.range 4).map (· + 0x38) ++
    (List.range 0x1C).map (· + 0x40) ++ (List.range 6).map (· + 0x60) ++ (List.range 4).map (· + 0x80) ++
    [0xC0, 0xC1, 0xC2, 0xC3, 0xC4, 0xD0, 0xD1, 0xD2, 0xD3, 0xD8, 0xD9, 0xDA, 0xDB, 0xDC, 0xDD, 0xE0, 0xE4, 0xE8, 0xF0,
     0xF1, 0xF8, 0xFF]

/-- The scalar registers an instruction reads or writes (R218). -/
def scalarsOf (op w : Nat) : List Nat :=
  if op ≤ 0x23 ∨ 0x28 ≤ op ∧ op ≤ 0x2A ∨ 0x38 ≤ op ∧ op ≤ 0x3B then
    if 0x10 ≤ op ∧ op ≤ 0x17 ∨ op = 0x22 ∨ op = 0x23 then [fD w, fA w]
    else if 0x28 ≤ op ∧ op ≤ 0x2A then [fD w, fA w, fB w] else [fD w, fA w, fB w, fC w]
  else if op = 0x30 ∨ op = 0x31 then [fD w, fA w]
  else if op ≤ 0x35 then [fA w, fB w]
  else if op = 0x56 then [fA w]
  else if 0x58 ≤ op ∧ op ≤ 0x5A then [fD w]
  else if op = 0x5B then [fD w, fB w]
  else if op ≤ 0x57 then (if fBs w then [fB w] else [])
  else if op = 0x64 then [fA w]
  else if op = 0x65 then [fD w]
  else if op ≤ 0x63 then []
  else if op ≤ 0x83 then [fA w, fB w]
  else [fD w, fA w, fB w, fC w]

/-! ### Issue (R218, R244) -/

/-- How an instruction comes out. -/
inductive Done where
  | fault (cause : Nat)
  /-- Complete: the next instruction follows. -/
  | next (s : State)
  /-- A branch taken. -/
  | jump (pc : Nat) (s : State)
  /-- The instruction stays: it waits, or it cannot issue yet. -/
  | stay (s : State)

/-- The word a core would issue now; none while it has no task, waits, is held at issue, or stands for its clock. -/
def State.atPc (s : State) (n : Nat) : Option (BitVec 64) :=
  let k := s.core n
  let held := (s.sw.held.get [] [dieOfCore n]).any (fun h => decide (h.issuer = .core n))
  let alive := s.cst (n / 8) = Cs.ready || s.cst (n / 8) = Cs.offlining
  if k.wait.isSome || held || !alive || s.coresStalled then none else (s.codeOf k)[k.pc / 8]?

/-- A branch or a fall-through: what becomes of the core (R248, R258). -/
def State.complete (n : Nat) (s : State) : Done → State
  | .fault c => s.taskFault n c
  | .next t => t.setPc n (((s.core n).pc + 8) % 2 ^ 32)
  | .jump pc t => if pc % 8 ≠ 0 ∨ 8 * (s.codeOf (s.core n)).length ≤ pc then s.taskFault n Fc.fetch else t.setPc n pc
  | .stay t => t

/-- Core `n` issues the word `w`, which must stand at its pc, as the instruction of opcode `op`. A reserved opcode at the
pc raises ILLEGAL (R248); a register still owed by an unfinished instruction stalls the issue (R218). -/
def State.issueAt (n op : Nat) (w : BitVec 64) (f : Nat → State → Done) (s : State) : State :=
  if s.atPc n ≠ some w then s
  else if w.toNat % 256 ≠ op then (if opcodes.contains (w.toNat % 256) then s else s.taskFault n Fc.illegal)
  else if (scalarsOf op w.toNat).any (fun r => (s.core n).owed.contains r) then s
  else s.complete n (f w.toNat s)

/-- Set sticky FLAGS bits (R256). -/
def State.flag (n bits : Nat) (s : State) : State :=
  if bits = 0 then s else s.modCore n (fun k => { k with flags := k.flags ||| bits })

end Sys2Proof.Machine
end

