-- ==== Sys2Proof/Machine/Types.lean ====
section
/-! DEFINITION. The type codes of R251: widths, values and conversions, with the FLAGS of R256. -/

namespace Sys2Proof.Machine

/-- The width of a type in bytes. -/
def tyBytes (t : Nat) : Nat :=
  if t ≤ 2 then 8 else if t = 3 ∨ t = 8 ∨ t = 9 then 4 else if t = 4 ∨ t = 5 ∨ t = 10 ∨ t = 11 then 2 else 1

def tyBits (t : Nat) : Nat := 8 * tyBytes t

/-- The format of a floating-point type. -/
def tyFmt (t : Nat) : Option Fmt :=
  match t with
  | 2 => some fp64
  | 3 => some fp32
  | 4 => some bf16
  | 5 => some fp16
  | 6 => some e4m3
  | 7 => some e5m2
  | _ => none

def tyFloat (t : Nat) : Bool := (tyFmt t).isSome

def tySigned (t : Nat) : Bool := t = 1 || t = 9 || t = 11 || t = 13

/-- The vector types (R251, R262). -/
def tyVFloat (t : Nat) : Bool := 3 ≤ t && t ≤ 7
def tyVInt (t : Nat) : Bool := 8 ≤ t && t ≤ 13
def tyVec (t : Nat) : Bool := 3 ≤ t && t ≤ 13

/-- Lanes of a vector register. -/
def lanes (t : Nat) : Nat := if t = 14 then 512 else 256 / tyBytes t

/-- The integer a register value stands for in an integer type. -/
def tyInt (t x : Nat) : Int := if tySigned t then signedOf (tyBits t) (bitsOf x 0 (tyBits t)) else (bitsOf x 0 (tyBits t) : Nat)

/-- The scalar form of a value (R251): signed integers are sign-extended, everything else zero-extended. -/
def scalarForm (t x : Nat) : Nat := if tySigned t then fieldOfInt 64 (tyInt t x) else bitsOf x 0 (tyBits t)

/-- The range of an integer type. -/
def tyLeast (t : Nat) : Int := if tySigned t then -(2 ^ (tyBits t - 1)) else 0
def tyMost (t : Nat) : Int := if tySigned t then 2 ^ (tyBits t - 1) - 1 else 2 ^ tyBits t - 1

def clampTo (lo hi x : Int) : Int := if x < lo then lo else if hi < x then hi else x

/-- FLAGS bits (R256, R287). -/
def Fl.invalid : Nat := 1
def Fl.divZero : Nat := 2
def Fl.overflow : Nat := 4
def Fl.underflow : Nat := 8
def Fl.saturated : Nat := 16
def Fl.late : Nat := 256
def Fl.fabricErr : Nat := 512

/-- Whether a finite value rounds beyond a format's largest finite value. -/
def Fmt.tooBig (f : Fmt) : FV → Bool
  | .fin n m e => match f.decode (f.round false n m e) with
    | .fin _ _ _ => false
    | _ => true
  | _ => false

/-- Whether a result is subnormal or zero after rounding, and inexact. -/
def Fmt.tiny (f : Fmt) (x : FV) (r : Nat) : Bool :=
  match f.decode r with
  | .fin n m e => decide (m < 2 ^ f.mb) && !FV.eq (.fin n m e) x
  | _ => false

/-- The encoding of an exact result and the flags it sets; `nanIn` says that an operand was a NaN (R236, R256). -/
def Fmt.result (f : Fmt) (sat nanIn : Bool) (x : FV) : Nat × Nat :=
  let r := f.encode sat x
  let inf : Bool := match x with
    | .inf _ => true
    | _ => false
  (r, (if (f.decode r).isNan ∧ ¬ nanIn then Fl.invalid else 0) ||| (if f.tooBig x then Fl.overflow else 0) |||
    (if f.tiny x r then Fl.underflow else 0) ||| (if sat ∧ (f.tooBig x ∨ inf) then Fl.saturated else 0))

/-- The smaller (or greater) of two values; a NaN loses to a number, and +0 counts above -0 (R255, R262, R344). -/
def FV.pick (greatest : Bool) (a b : FV) : FV :=
  if a.isNan then b
  else if b.isNan then a
  else if a.isZero ∧ b.isZero ∧ a.isNeg ≠ b.isNeg then .fin (!greatest) 0 0
  else if greatest then (if a.lt b then b else a) else (if b.lt a then b else a)

/-- A comparison of R253's f on ordered values. -/
def cmpFV (f : Nat) (a b : FV) : Bool :=
  match f with
  | 0 => a.eq b
  | 1 => !a.eq b
  | 2 => a.lt b
  | _ => a.lt b || a.eq b

def cmpInt (f : Nat) (a b : Int) : Bool :=
  match f with
  | 0 => decide (a = b)
  | 1 => decide (a ≠ b)
  | 2 => decide (a < b)
  | _ => decide (a ≤ b)

/-- The value of a type's bits: exact, for integers too. -/
def tyValue (t x : Nat) : FV :=
  match tyFmt t with
  | some f => f.decode (bitsOf x 0 f.width)
  | none => FV.ofInt (tyInt t x)

/-- An integer result of a conversion: NaN gives 0, other values out of range saturate, both with FLAGS.invalid (R255);
the saturating form has then clamped a value (R256). -/
def toIntResult (t : Nat) (sat : Bool) (x : FV) : Nat × Nat :=
  let out := Fl.invalid ||| if sat then Fl.saturated else 0
  match x with
  | .nan => (0, Fl.invalid)
  | .inf n => (fieldOfInt (tyBits t) (if n then tyLeast t else tyMost t), out)
  | .fin n m e =>
    let i := FV.toInt n m e
    let c := clampTo (tyLeast t) (tyMost t) i
    (fieldOfInt (tyBits t) c, if c = i then 0 else out)

/-- Conversion of R255 from type `t2` to type `t`: the bits and the flags. -/
def convert (t2 t : Nat) (sat : Bool) (x : Nat) : Nat × Nat :=
  let v := tyValue t2 x
  match tyFmt t with
  | some f => f.result sat v.isNan v
  | none => toIntResult t sat v

end Sys2Proof.Machine
end

