-- ==== Sys2Proof/Machine/Scalar.lean ====
section
/-! DEFINITION. Scalar instructions, branches, task control and scalar local memory (R253 to R261). -/

namespace Sys2Proof.Machine

/-- An instruction that writes sd from the core's registers and sets FLAGS: `fields` are the fields it uses, `ok` the
values it defines. -/
def State.alu (n op : Nat) (w : BitVec 64) (fields : List Nat) (ok : Nat → Bool) (f : Core → Nat → Nat × Nat) (s : State) :
    State :=
  s.issueAt n op w (fun x s =>
    if only x fields && ok x then
      let r := f (s.core n) x
      .next ((s.flag n r.2).modCore n (fun k => k.setS (fD x) r.1))
    else .fault Fc.illegal)

/-! ### Integers (R253) -/

/-- A two-operand integer instruction; `f` takes the type, a and b. -/
def State.intOp (n op : Nat) (w : BitVec 64) (f : Nat → Nat → Nat → Nat × Nat) (s : State) : State :=
  s.alu n op w [mD, mA, mB, mT] (fun x => decide (fT x ≤ 1)) (fun k x => f (fT x) (k.sr (fA x)) (k.sr (fB x)))

/-- The integer of a 64-bit value, signed for s64. -/
def val64 (t x : Nat) : Int := if t = 1 then signedOf 64 x else x

def execSadd (n : Nat) (w : BitVec 64) (s : State) : Host.Outcome State Fault Refusal :=
  serving s (s.intOp n 0x01 w (fun _ a b => (a + b, 0)))

def execSsub (n : Nat) (w : BitVec 64) (s : State) : Host.Outcome State Fault Refusal :=
  serving s (s.intOp n 0x02 w (fun _ a b => (a + 2 ^ 64 - b, 0)))

def execSmul (n : Nat) (w : BitVec 64) (s : State) : Host.Outcome State Fault Refusal :=
  serving s (s.intOp n 0x03 w (fun _ a b => (a * b, 0)))

def execSmulh (n : Nat) (w : BitVec 64) (s : State) : Host.Outcome State Fault Refusal :=
  serving s (s.intOp n 0x04 w (fun t a b => (fieldOfInt 128 (val64 t a * val64 t b) >>> 64, 0)))

def execSand (n : Nat) (w : BitVec 64) (s : State) : Host.Outcome State Fault Refusal :=
  serving s (s.intOp n 0x05 w (fun _ a b => (a &&& b, 0)))

def execSor (n : Nat) (w : BitVec 64) (s : State) : Host.Outcome State Fault Refusal :=
  serving s (s.intOp n 0x06 w (fun _ a b => (a ||| b, 0)))

def execSxor (n : Nat) (w : BitVec 64) (s : State) : Host.Outcome State Fault Refusal :=
  serving s (s.intOp n 0x07 w (fun _ a b => (a ^^^ b, 0)))

def execSshl (n : Nat) (w : BitVec 64) (s : State) : Host.Outcome State Fault Refusal :=
  serving s (s.intOp n 0x08 w (fun _ a b => (a <<< (b % 64), 0)))

/-- A right shift, arithmetic for s64. -/
def shr64 (t a k : Nat) : Nat := if t = 1 then fieldOfInt 64 (signedOf 64 a / 2 ^ k) else a >>> k

def execSshr (n : Nat) (w : BitVec 64) (s : State) : Host.Outcome State Fault Refusal :=
  serving s (s.intOp n 0x09 w (fun t a b => (shr64 t a (b % 64), 0)))

def execSmin (n : Nat) (w : BitVec 64) (s : State) : Host.Outcome State Fault Refusal :=
  serving s (s.intOp n 0x0A w (fun t a b => (if val64 t b < val64 t a then b else a, 0)))

def execSmax (n : Nat) (w : BitVec 64) (s : State) : Host.Outcome State Fault Refusal :=
  serving s (s.intOp n 0x0B w (fun t a b => (if val64 t a < val64 t b then b else a, 0)))

def execScmp (n : Nat) (w : BitVec 64) (s : State) : Host.Outcome State Fault Refusal :=
  serving s (s.alu n 0x0C w [mD, mA, mB, mT, mF] (fun x => decide (fT x ≤ 1 ∧ fF x ≤ 3))
    (fun k x => (b2n (cmpInt (fF x) (val64 (fT x) (k.sr (fA x))) (val64 (fT x) (k.sr (fB x)))), 0)))

def execSsel (n : Nat) (w : BitVec 64) (s : State) : Host.Outcome State Fault Refusal :=
  serving s (s.alu n 0x0D w [mD, mA, mB, mC, mT] (fun x => decide (fT x ≤ 1))
    (fun k x => (if k.sr (fC x) ≠ 0 then k.sr (fA x) else k.sr (fB x), 0)))

def execSdiv (n : Nat) (w : BitVec 64) (s : State) : Host.Outcome State Fault Refusal :=
  serving s (s.intOp n 0x0E w (fun t a b =>
    if b = 0 then (2 ^ 64 - 1, Fl.divZero) else (fieldOfInt 64 ((val64 t a).tdiv (val64 t b)), 0)))

def execSrem (n : Nat) (w : BitVec 64) (s : State) : Host.Outcome State Fault Refusal :=
  serving s (s.intOp n 0x0F w (fun t a b =>
    if b = 0 then (a, Fl.divZero) else (fieldOfInt 64 ((val64 t a).tmod (val64 t b)), 0)))

/-! ### Immediates (R254) -/

/-- Format I: the type, the immediate, and the immediate sign-extended. -/
def iT (w : Nat) : Nat := bitsOf w 18 4
def iImm (w : Nat) : Nat := bitsOf w 32 32
def iSext (w : Nat) : Nat := fieldOfInt 64 (signedOf 32 (iImm w))
def mIT : Nat := 0xF <<< 18
def mImm : Nat := 0xFFFFFFFF <<< 32

def State.immOp (n op : Nat) (w : BitVec 64) (ok : Nat → Bool) (f : Nat → Nat → Nat) (s : State) : State :=
  s.alu n op w [mD, mA, mIT, mImm] ok (fun k x => (f (k.sr (fA x)) x, 0))

def tZero (w : Nat) : Bool := iT w = 0

def execSaddi (n : Nat) (w : BitVec 64) (s : State) : Host.Outcome State Fault Refusal :=
  serving s (s.immOp n 0x10 w tZero (fun a x => a + iSext x))

def execSandi (n : Nat) (w : BitVec 64) (s : State) : Host.Outcome State Fault Refusal :=
  serving s (s.immOp n 0x11 w tZero (fun a x => a &&& iSext x))

def execSori (n : Nat) (w : BitVec 64) (s : State) : Host.Outcome State Fault Refusal :=
  serving s (s.immOp n 0x12 w tZero (fun a x => a ||| iSext x))

def execSxori (n : Nat) (w : BitVec 64) (s : State) : Host.Outcome State Fault Refusal :=
  serving s (s.immOp n 0x13 w tZero (fun a x => a ^^^ iSext x))

def execSshli (n : Nat) (w : BitVec 64) (s : State) : Host.Outcome State Fault Refusal :=
  serving s (s.immOp n 0x14 w (fun x => tZero x && decide (iImm x < 64)) (fun a x => a <<< iImm x))

def execSshri (n : Nat) (w : BitVec 64) (s : State) : Host.Outcome State Fault Refusal :=
  serving s (s.immOp n 0x15 w (fun x => decide (iT x ≤ 1 ∧ iImm x < 64)) (fun a x => shr64 (iT x) a (iImm x)))

def execSli (n : Nat) (w : BitVec 64) (s : State) : Host.Outcome State Fault Refusal :=
  serving s (s.immOp n 0x16 w (fun x => tZero x && decide (fA x = 0)) (fun _ x => iSext x))

def execSlih (n : Nat) (w : BitVec 64) (s : State) : Host.Outcome State Fault Refusal :=
  serving s (s.alu n 0x17 w [mD, mA, mIT, mImm] (fun x => tZero x && decide (fA x = 0))
    (fun k x => (bitsOf (k.sr (fD x)) 0 32 + iImm x <<< 32, 0)))

/-! ### Floating point (R255) -/

/-- fp32 or fp64. -/
def sFmt (w : Nat) : Fmt := if fT w = 2 then fp64 else fp32
def sFloat (w : Nat) : Bool := fT w = 2 || fT w = 3

/-- A register's value in the instruction's format. -/
def fpVal (k : Core) (w r : Nat) : FV := (sFmt w).decode (bitsOf (k.sr r) 0 (sFmt w).width)

/-- A floating-point instruction of two operands: the exact result, rounded once. -/
def State.fpOp (n op : Nat) (w : BitVec 64) (f : FV → FV → FV) (s : State) : State :=
  s.alu n op w [mD, mA, mB, mT] sFloat (fun k x =>
    let a := fpVal k x (fA x)
    let b := fpVal k x (fB x)
    (sFmt x).result false (a.isNan || b.isNan) (f a b))

def execSfadd (n : Nat) (w : BitVec 64) (s : State) : Host.Outcome State Fault Refusal := serving s (s.fpOp n 0x18 w FV.add)

def execSfsub (n : Nat) (w : BitVec 64) (s : State) : Host.Outcome State Fault Refusal := serving s (s.fpOp n 0x19 w FV.sub)

def execSfmul (n : Nat) (w : BitVec 64) (s : State) : Host.Outcome State Fault Refusal := serving s (s.fpOp n 0x1A w FV.mul)

def execSffma (n : Nat) (w : BitVec 64) (s : State) : Host.Outcome State Fault Refusal :=
  serving s (s.alu n 0x1B w [mD, mA, mB, mC, mT] sFloat (fun k x =>
    let a := fpVal k x (fA x)
    let b := fpVal k x (fB x)
    let c := fpVal k x (fC x)
    (sFmt x).result false (a.isNan || b.isNan || c.isNan) (a.fma b c)))

/-- A quotient with its flags: a zero divisor of a number sets div_zero (R256). -/
def divResult (f : Fmt) (a b : FV) : Nat × Nat :=
  let r := f.result false (a.isNan || b.isNan) (a.div b)
  (r.1, r.2 ||| if b.isZero ∧ ¬ a.isNan then Fl.divZero else 0)

def execSfdiv (n : Nat) (w : BitVec 64) (s : State) : Host.Outcome State Fault Refusal :=
  serving s (s.alu n 0x1C w [mD, mA, mB, mT] sFloat (fun k x => divResult (sFmt x) (fpVal k x (fA x)) (fpVal k x (fB x))))

def execSfsqrt (n : Nat) (w : BitVec 64) (s : State) : Host.Outcome State Fault Refusal :=
  serving s (s.alu n 0x1D w [mD, mA, mT] sFloat (fun k x =>
    let a := fpVal k x (fA x)
    (sFmt x).result false a.isNan a.sqrt))

/-- min and max set no flag. -/
def State.fpPick (n op : Nat) (w : BitVec 64) (greatest : Bool) (s : State) : State :=
  s.alu n op w [mD, mA, mB, mT] sFloat (fun k x =>
    ((sFmt x).encode false (FV.pick greatest (fpVal k x (fA x)) (fpVal k x (fB x))), 0))

def execSfmin (n : Nat) (w : BitVec 64) (s : State) : Host.Outcome State Fault Refusal := serving s (s.fpPick n 0x1E w false)

def execSfmax (n : Nat) (w : BitVec 64) (s : State) : Host.Outcome State Fault Refusal := serving s (s.fpPick n 0x1F w true)

def execSfcmp (n : Nat) (w : BitVec 64) (s : State) : Host.Outcome State Fault Refusal :=
  serving s (s.alu n 0x20 w [mD, mA, mB, mT, mF] (fun x => sFloat x && decide (fF x ≤ 3))
    (fun k x => (b2n (cmpFV (fF x) (fpVal k x (fA x)) (fpVal k x (fB x))), 0)))

/-- The saturating form exists for conversions to BF16, FP16 and FP8 (R255). -/
def satTo (t : Nat) (sat : Bool) : Bool := !sat || (4 ≤ t && t ≤ 7)

def execScvt (n : Nat) (w : BitVec 64) (s : State) : Host.Outcome State Fault Refusal :=
  serving s (s.alu n 0x21 w [mD, mA, mT, mT2, mSat]
    (fun x => decide (fT x ≤ 13 ∧ fT2 x ≤ 13) && satTo (fT x) (fSat x))
    (fun k x =>
      let r := convert (fT2 x) (fT x) (fSat x) (k.sr (fA x))
      (scalarForm (fT x) r.1, r.2)))

/-! ### Special registers (R257, R287) -/

def State.special (s : State) (n i : Nat) : Option Nat :=
  let k := s.core n
  let d := k.task.getD 0
  match i with
  | 0x00 => some k.flags
  | 0x01 => some n
  | 0x02 => some (n / 8)
  | 0x03 => some (dTenant d)
  | 0x04 => some (dImage d)
  | 0x05 => some (dUser d)
  | 0x06 => some ((s.pkg.cycles - k.start) / 5)
  | 0x07 => some k.pc
  | 0x08 => some (s.general (n / 8))
  | 0x10 => some (s.ftDie (dieOfCore n))
  | 0x11 => some (s.beatDie (dieOfCore n))
  | 0x12 => some (s.liveOf (.core n)).length
  | 0x13 => some s.node
  | 0x14 => some s.eid
  | 0x15 => some s.mapGen
  | 0x16 => some k.launches.length
  | _ => none

def execSgetr (n : Nat) (w : BitVec 64) (s : State) : Host.Outcome State Fault Refusal :=
  serving s (s.issueAt n 0x22 w (fun x s =>
    match s.special n (iImm x) with
    | some v => if only x [mD, mImm] then .next (s.modCore n (fun k => k.setS (fD x) v)) else .fault Fc.illegal
    | none => .fault Fc.illegal))

/-- FLAGS keeps its reserved bits 0 (R256, R287). -/
def flagBits : Nat := 0x31F

def execSsetr (n : Nat) (w : BitVec 64) (s : State) : Host.Outcome State Fault Refusal :=
  serving s (s.issueAt n 0x23 w (fun x s =>
    if only x [mA, mImm] ∧ iImm x = 0 then .next (s.modCore n (fun k => { k with flags := k.sr (fA x) &&& flagBits }))
    else .fault Fc.illegal))

/-! ### Branches (R258) -/

def bF (w : Nat) : Nat := bitsOf w 23 3
def mBF : Nat := 0x7 <<< 23
def bOff (w : Nat) : Int := signedOf 32 (bitsOf w 32 32)

def branchTaken (f a b : Nat) : Bool :=
  match f with
  | 0 => decide (a = b)
  | 1 => decide (a ≠ b)
  | 2 => decide (signedOf 64 a < signedOf 64 b)
  | 3 => decide (signedOf 64 b ≤ signedOf 64 a)
  | 4 => decide (a < b)
  | _ => decide (b ≤ a)

/-- A target relative to the pc; one before the image is no offset of any image. -/
def relative (pc w : Nat) : Nat := if (pc : Int) + 8 * bOff w < 0 then 2 ^ 32 else ((pc : Int) + 8 * bOff w).toNat

def execBcmp (n : Nat) (w : BitVec 64) (s : State) : Host.Outcome State Fault Refusal :=
  serving s (s.issueAt n 0x28 w (fun x s =>
    let k := s.core n
    if only x [mA, mB, mBF, mImm] ∧ bF x ≤ 5 then
      (if branchTaken (bF x) (k.sr (fA x)) (k.sr (fB x)) then .jump (relative k.pc x) s else .next s)
    else .fault Fc.illegal))

def execJal (n : Nat) (w : BitVec 64) (s : State) : Host.Outcome State Fault Refusal :=
  serving s (s.issueAt n 0x29 w (fun x s =>
    let pc := (s.core n).pc
    if only x [mD, mImm] then .jump (relative pc x) (s.modCore n (fun k => k.setS (fD x) (pc + 8))) else .fault Fc.illegal))

def execJalr (n : Nat) (w : BitVec 64) (s : State) : Host.Outcome State Fault Refusal :=
  serving s (s.issueAt n 0x2A w (fun x s =>
    let k := s.core n
    let target := fieldOfInt 32 ((k.sr (fA x) : Int) + 8 * bOff x)
    if only x [mD, mA, mImm] then .jump target (s.modCore n (fun c => c.setS (fD x) (k.pc + 8))) else .fault Fc.illegal))

/-! ### Task control (R259, R260, R278) -/

/-- A push by a core, of a descriptor whose tenant is the task's (R259). -/
def State.spawn (n desc target : Nat) (s : State) : Status × State :=
  let r := s.push (withTenant desc (dTenant ((s.core n).task.getD 0))) (target % 128) (bitAt target 8)
  (r.1, r.2.countCmp (n / 8) (if r.1 = .ok then 3 else 4))

def execTspawn (n : Nat) (w : BitVec 64) (s : State) : Host.Outcome State Fault Refusal :=
  serving s (s.issueAt n 0x38 w (fun x s =>
    let k := s.core n
    let a := k.sr (fA x)
    let b := k.sr (fB x)
    if ¬ only x [mD, mA, mB] ∨ b &&& 0x17F ≠ b then .fault Fc.illegal
    else if a % 64 ≠ 0 then .fault Fc.align
    else if (s.localAt n a 64).isNone then .fault Fc.range
    else
      let m := s.readLocal n a 64
      let r := m.2.spawn n m.1 b
      .next (r.2.modCore n (fun c => c.setS (fD x) r.1.code))))

/-- tend waits for the task's issued entries, and abandons a waiting hacq or hres (R278). -/
def execTend (n : Nat) (w : BitVec 64) (s : State) : Host.Outcome State Fault Refusal :=
  serving s (s.issueAt n 0x39 w (fun x s =>
    if ¬ only x [] then .fault Fc.illegal
    else
      let s := s.modCore n (fun k => { k with
        acqs := [], owed := k.owed.filter (fun r => !k.acqs.any (fun a => decide (a.d = r))) })
      if s.liveOf (.core n) = [] then .stay (s.taskEnd n)
      else .stay (s.modCore n (fun k => { k with wait := some .taskEnd }))))

def execSnop (n : Nat) (w : BitVec 64) (s : State) : Host.Outcome State Fault Refusal :=
  serving s (s.issueAt n 0x3A w (fun x s => if only x [] then .next s else .fault Fc.illegal))

def execSbrk (n : Nat) (w : BitVec 64) (s : State) : Host.Outcome State Fault Refusal :=
  serving s (s.issueAt n 0x3B w (fun x _ => .fault (if only x [] then Fc.brk else Fc.illegal)))

/-! ### Scalar loads and stores (R261) -/

/-- Format M: the offset, and the effective address (R246). -/
def mOff : Nat := 0x7FFFFF <<< 41
def effective (k : Core) (w : Nat) : Nat := fieldOfInt 64 ((k.sr (fA w) : Int) + signedOf 23 (bitsOf w 41 23))

def execSld (n : Nat) (w : BitVec 64) (s : State) : Host.Outcome State Fault Refusal :=
  serving s (s.issueAt n 0x30 w (fun x s =>
    let a := effective (s.core n) x
    let len := tyBytes (fT x)
    if ¬ only x [mD, mA, mT, mOff] ∨ 13 < fT x then .fault Fc.illegal
    else if a % len ≠ 0 then .fault Fc.align
    else if (s.localAt n a len).isNone then .fault Fc.range
    else
      let m := s.readLocal n a len
      .next (m.2.modCore n (fun k => k.setS (fD x) (scalarForm (fT x) m.1)))))

def execSst (n : Nat) (w : BitVec 64) (s : State) : Host.Outcome State Fault Refusal :=
  serving s (s.issueAt n 0x31 w (fun x s =>
    let k := s.core n
    let a := effective k x
    let len := tyBytes (fT x)
    if ¬ only x [mD, mA, mT, mOff] ∨ 13 < fT x then .fault Fc.illegal
    else if a % len ≠ 0 then .fault Fc.align
    else if (s.localAt n a len).isNone then .fault Fc.range
    else .next (s.writeLocal n a len (k.sr (fD x)))))

end Sys2Proof.Machine
end

