-- ==== Sys2Proof/Machine/Vector.lean ====
section
/-! DEFINITION. Vector memory, vector, predicate and reduction instructions (R261 to R265). -/

namespace Sys2Proof.Machine

/-! ### Lanes and guards (R251, R264) -/

def Core.vr (k : Core) (i : Nat) : Nat := k.v.get 0 [i]

def Core.setV (k : Core) (i x : Nat) : Core := { k with v := k.v.set [i] (x % 2 ^ 2048) }

/-- Predicate `i`; p0 reads all ones (R244). -/
def Core.pr (k : Core) (i : Nat) : Nat := if i = 0 then 2 ^ 64 - 1 else k.p.get 0 [i]

def Core.setP (k : Core) (i x : Nat) : Core := if i = 0 then k else { k with p := k.p.set [i] (x % 2 ^ 64) }

/-- Bits of a lane: 4 for i4. -/
def laneBits (t : Nat) : Nat := if t = 14 then 4 else tyBits t

def laneOf (t x l : Nat) : Nat := bitsOf x (l * laneBits t) (laneBits t)

/-- A register from its lanes. -/
def packLanes (t : Nat) (f : Nat → Nat) : Nat :=
  (List.range (lanes t)).foldl (fun a l => a + (f l % 2 ^ laneBits t) <<< (l * laneBits t)) 0

/-- The guard bit of lane `l` (R264). -/
def guards (p t l : Nat) : Bool := bitAt p (l * 64 / lanes t)

/-- One register of a run: guarded lanes get `f l`, the others keep `old` or become 0. -/
def mergeLanes (t p : Nat) (z : Bool) (old : Nat) (f : Nat → Nat) : Nat :=
  packLanes t (fun l => if guards p t l then f l else if z then 0 else laneOf t old l)

/-- The flags of the guarded lanes. -/
def flagLanes (t p : Nat) (f : Nat → Nat) : Nat :=
  (List.range (lanes t)).foldl (fun a l => if guards p t l then a ||| f l else a) 0

/-- Process the registers of a run in ascending order (R262): `f k i l` is the value and the flags of lane `l`. -/
def vecRun (w t : Nat) (f : Core → Nat → Nat → Nat × Nat) : Nat → Core → Core
  | 0, k => k
  | n + 1, k =>
    let k := vecRun w t f n k
    let p := k.pr (fG w)
    let k' := k.setV (fD w + n) (mergeLanes t p (fZ w) (k.vr (fD w + n)) (fun l => (f k n l).1))
    { k' with flags := k'.flags ||| flagLanes t p (fun l => (f k n l).2) }

/-- A vector instruction of format A. -/
def State.vec (n op : Nat) (w : BitVec 64) (fields : List Nat) (ok : Nat → Bool) (f : Nat → Core → Nat → Nat → Nat × Nat)
    (s : State) : State :=
  s.issueAt n op w (fun x s =>
    if only x ([mD, mG, mZ, mR, mE, mT] ++ fields) && ok x && decide (fD x + fR x ≤ 32) then
      .next (s.modCore n (vecRun x (fT x) (f x) (fR x)))
    else .fault Fc.illegal)

/-- The lane of operand b: of the run, or the broadcast scalar (R262). -/
def laneB (w : Nat) (k : Core) (i l : Nat) : Nat :=
  if fBs w then bitsOf (k.sr (fB w)) 0 (tyBits (fT w)) else laneOf (fT w) (k.vr (fB w + i)) l

def laneA (w : Nat) (k : Core) (i l : Nat) : Nat := laneOf (fT w) (k.vr (fA w + i)) l
def laneC (w : Nat) (k : Core) (i l : Nat) : Nat := laneOf (fT w) (k.vr (fC w + i)) l

def runA (w : Nat) : Bool := decide (fA w + fR w ≤ 32)
def runB (w : Nat) : Bool := fBs w || decide (fB w + fR w ≤ 32)
def runC (w : Nat) : Bool := decide (fC w + fR w ≤ 32)

/-- Two operands a and b, of the types `ok` allows; `g` takes the word and the lanes. -/
def State.vec2 (n op : Nat) (w : BitVec 64) (fields : List Nat) (ok : Nat → Bool) (g : Nat → Nat → Nat → Nat × Nat)
    (s : State) : State :=
  s.vec n op w ([mA, mB, mBs] ++ fields) (fun x => ok x && runA x && runB x)
    (fun x k i l => g x (laneA x k i l) (laneB x k i l))

/-- One operand a. -/
def State.vec1 (n op : Nat) (w : BitVec 64) (fields : List Nat) (ok : Nat → Bool) (g : Nat → Nat → Nat × Nat) (s : State) :
    State :=
  s.vec n op w ([mA] ++ fields) (fun x => ok x && runA x) (fun x k i l => g x (laneA x k i l))

/-! ### Arithmetic (R236, R262) -/

/-- An integer result: modulo the lane, or clamped (R236). -/
def intLane (t : Nat) (sat : Bool) (x : Int) : Nat × Nat :=
  if sat then
    let c := clampTo (tyLeast t) (tyMost t) x
    (fieldOfInt (tyBits t) c, if c = x then 0 else Fl.saturated)
  else (fieldOfInt (tyBits t) x, 0)

/-- A floating-point result; FP8 is computed in FP32 and rounded once to the destination (R236). -/
def floatLane (t : Nat) (sat nanIn : Bool) (x : FV) : Nat × Nat :=
  let f := (tyFmt t).getD fp32
  f.result sat nanIn (if t = 6 ∨ t = 7 then fp32.decode (fp32.encode false x) else x)

/-- The saturating form exists for FP8 and integer results (R236). -/
def satArith (w : Nat) : Bool := !fSat w || fT w = 6 || fT w = 7 || tyVInt (fT w)

def numeric (w : Nat) : Bool := (tyVFloat (fT w) || tyVInt (fT w)) && satArith w

/-- An operation on floats or integers. -/
def arith (ff : FV → FV → FV) (fi : Int → Int → Int) (w a b : Nat) : Nat × Nat :=
  let t := fT w
  if tyVFloat t then
    let x := tyValue t a
    let y := tyValue t b
    floatLane t (fSat w) (x.isNan || y.isNan) (ff x y)
  else intLane t (fSat w) (fi (tyInt t a) (tyInt t b))

def execVadd (n : Nat) (w : BitVec 64) (s : State) : Host.Outcome State Fault Refusal :=
  serving s (s.vec2 n 0x40 w [mSat] numeric (arith FV.add (· + ·)))

def execVsub (n : Nat) (w : BitVec 64) (s : State) : Host.Outcome State Fault Refusal :=
  serving s (s.vec2 n 0x41 w [mSat] numeric (arith FV.sub (· - ·)))

def execVmul (n : Nat) (w : BitVec 64) (s : State) : Host.Outcome State Fault Refusal :=
  serving s (s.vec2 n 0x42 w [mSat] numeric (arith FV.mul (· * ·)))

/-- A fused multiply-add of lanes, the product negated for vfnma. -/
def State.vecFma (n op : Nat) (w : BitVec 64) (minus : Bool) (s : State) : State :=
  s.vec n op w [mA, mB, mC, mBs, mSat] (fun x => tyVFloat (fT x) && satArith x && runA x && runB x && runC x)
    (fun x k i l =>
      let a := tyValue (fT x) (laneA x k i l)
      let b := tyValue (fT x) (laneB x k i l)
      let c := tyValue (fT x) (laneC x k i l)
      let ab := if minus then (a.mul b).neg else a.mul b
      floatLane (fT x) (fSat x) (a.isNan || b.isNan || c.isNan) (ab.add c))

def execVfma (n : Nat) (w : BitVec 64) (s : State) : Host.Outcome State Fault Refusal := serving s (s.vecFma n 0x43 w false)

def execVfnma (n : Nat) (w : BitVec 64) (s : State) : Host.Outcome State Fault Refusal := serving s (s.vecFma n 0x44 w true)

/-- min and max set no flag. -/
def pickLane (greatest : Bool) (w a b : Nat) : Nat × Nat :=
  let t := fT w
  if tyVFloat t then (((tyFmt t).getD fp32).encode false (FV.pick greatest (tyValue t a) (tyValue t b)), 0)
  else
    let less := decide (tyInt t a < tyInt t b)
    (if less = greatest then b else a, 0)

def plain (w : Nat) : Bool := tyVFloat (fT w) || tyVInt (fT w)

def execVmin (n : Nat) (w : BitVec 64) (s : State) : Host.Outcome State Fault Refusal :=
  serving s (s.vec2 n 0x45 w [] plain (pickLane false))

def execVmax (n : Nat) (w : BitVec 64) (s : State) : Host.Outcome State Fault Refusal :=
  serving s (s.vec2 n 0x46 w [] plain (pickLane true))

/-- Floats and signed integers. -/
def signedNumeric (w : Nat) : Bool := (tyVFloat (fT w) || (tyVInt (fT w) && tySigned (fT w))) && satArith w

def unaryLane (ff : FV → FV) (fi : Int → Int) (w a : Nat) : Nat × Nat :=
  let t := fT w
  if tyVFloat t then (((tyFmt t).getD fp32).encode false (ff (tyValue t a)), 0) else intLane t (fSat w) (fi (tyInt t a))

def execVabs (n : Nat) (w : BitVec 64) (s : State) : Host.Outcome State Fault Refusal :=
  serving s (s.vec1 n 0x47 w [mSat] signedNumeric (unaryLane FV.abs (fun x => (x.natAbs : Int))))

def execVneg (n : Nat) (w : BitVec 64) (s : State) : Host.Outcome State Fault Refusal :=
  serving s (s.vec1 n 0x48 w [mSat] signedNumeric (unaryLane FV.neg (fun x => -x)))

def isFp32 (w : Nat) : Bool := fT w = 3

def execVdiv (n : Nat) (w : BitVec 64) (s : State) : Host.Outcome State Fault Refusal :=
  serving s (s.vec2 n 0x49 w [] isFp32 (fun _ a b => divResult fp32 (fp32.decode a) (fp32.decode b)))

def execVsqrt (n : Nat) (w : BitVec 64) (s : State) : Host.Outcome State Fault Refusal :=
  serving s (s.vec1 n 0x4A w [] isFp32 (fun _ a => fp32.result false (fp32.decode a).isNan (fp32.decode a).sqrt))

def anyVec (w : Nat) : Bool := tyVec (fT w)

def execVand (n : Nat) (w : BitVec 64) (s : State) : Host.Outcome State Fault Refusal :=
  serving s (s.vec2 n 0x4B w [] anyVec (fun _ a b => (a &&& b, 0)))

def execVor (n : Nat) (w : BitVec 64) (s : State) : Host.Outcome State Fault Refusal :=
  serving s (s.vec2 n 0x4C w [] anyVec (fun _ a b => (a ||| b, 0)))

def execVxor (n : Nat) (w : BitVec 64) (s : State) : Host.Outcome State Fault Refusal :=
  serving s (s.vec2 n 0x4D w [] anyVec (fun _ a b => (a ^^^ b, 0)))

def isInt (w : Nat) : Bool := tyVInt (fT w)

def execVshl (n : Nat) (w : BitVec 64) (s : State) : Host.Outcome State Fault Refusal :=
  serving s (s.vec2 n 0x4E w [] isInt (fun x a b => (a <<< (b % tyBits (fT x)), 0)))

def execVshr (n : Nat) (w : BitVec 64) (s : State) : Host.Outcome State Fault Refusal :=
  serving s (s.vec2 n 0x4F w [] isInt (fun x a b =>
    (fieldOfInt (tyBits (fT x)) (tyInt (fT x) a / 2 ^ (b % tyBits (fT x))), 0)))

/-! ### Selects and moves (R262) -/

/-- vsel writes every lane: a where the guard bit is 1, b elsewhere; z must be 0. -/
def selRun (w : Nat) : Nat → Core → Core
  | 0, k => k
  | n + 1, k =>
    let k := selRun w n k
    k.setV (fD w + n) (packLanes (fT w) (fun l =>
      if guards (k.pr (fG w)) (fT w) l then laneA w k n l else laneB w k n l))

def execVsel (n : Nat) (w : BitVec 64) (s : State) : Host.Outcome State Fault Refusal :=
  serving s (s.issueAt n 0x54 w (fun x s =>
    if only x [mD, mA, mB, mG, mR, mE, mT, mBs] && anyVec x && runA x && runB x && decide (fD x + fR x ≤ 32) then
      .next (s.modCore n (selRun x (fR x)))
    else .fault Fc.illegal))

def execVselv (n : Nat) (w : BitVec 64) (s : State) : Host.Outcome State Fault Refusal :=
  serving s (s.vec n 0x55 w [mA, mB, mC, mBs] (fun x => anyVec x && runA x && runB x && runC x)
    (fun x k i l => (if laneC x k i l ≠ 0 then laneA x k i l else laneB x k i l, 0)))

def execVbcast (n : Nat) (w : BitVec 64) (s : State) : Host.Outcome State Fault Refusal :=
  serving s (s.vec n 0x56 w [mA] anyVec (fun x k _ _ => (bitsOf (k.sr (fA x)) 0 (tyBits (fT x)), 0)))

def execVmov (n : Nat) (w : BitVec 64) (s : State) : Host.Outcome State Fault Refusal :=
  serving s (s.vec1 n 0x57 w [] anyVec (fun _ a => (a, 0)))

/-! ### Conversion and packing (R263) -/

/-- Element `e` of a source run at register `a` (R263). -/
def element (t a : Nat) (k : Core) (e : Nat) : Nat := laneOf t (k.vr (a + e / lanes t)) (e % lanes t)

/-- Conversion of a lane; integers to integers go modulo, or clamped. -/
def convLane (t2 t : Nat) (sat : Bool) (x : Nat) : Nat × Nat :=
  if tyVInt t2 ∧ tyVInt t then intLane t sat (tyInt t2 x) else convert t2 t sat x

/-- Registers of the source run of vcvt; 0 where that is no whole number. -/
def cvtRegs (w : Nat) : Nat :=
  if fR w * lanes (fT w) % lanes (fT2 w) = 0 then fR w * lanes (fT w) / lanes (fT2 w) else 0

def cvtOk (w : Nat) : Bool :=
  tyVec (fT w) && tyVec (fT2 w) && decide (cvtRegs w ≠ 0 ∧ fA w + cvtRegs w ≤ 32) && (!fSat w || 4 ≤ fT w)

def execVcvt (n : Nat) (w : BitVec 64) (s : State) : Host.Outcome State Fault Refusal :=
  serving s (s.vec n 0x50 w [mA, mT2, mSat] cvtOk
    (fun x k i l => convLane (fT2 x) (fT x) (fSat x) (element (fT2 x) (fA x) k (i * lanes (fT x) + l))))

def isByte (t : Nat) : Bool := t = 12 || t = 13

def execVunpk4 (n : Nat) (w : BitVec 64) (s : State) : Host.Outcome State Fault Refusal :=
  serving s (s.vec n 0x51 w [mA, mT2]
    (fun x => isByte (fT x) && decide (fT2 x = 14 ∧ fR x % 2 = 0 ∧ fA x + fR x / 2 ≤ 32))
    (fun x k i l =>
      let q := element 14 (fA x) k (i * 256 + l)
      (if fT x = 13 then fieldOfInt 8 (signedOf 4 q) else q, 0)))

def execVpk4 (n : Nat) (w : BitVec 64) (s : State) : Host.Outcome State Fault Refusal :=
  serving s (s.vec n 0x52 w [mA, mT2, mSat]
    (fun x => isByte (fT2 x) && decide (fT x = 14 ∧ fA x + 2 * fR x ≤ 32))
    (fun x k i l =>
      let q := tyInt (fT2 x) (element (fT2 x) (fA x) k (i * 512 + l))
      if fSat x then
        let c := if fT2 x = 13 then clampTo (-8) 7 q else clampTo 0 15 q
        (fieldOfInt 4 c, if c = q then 0 else Fl.saturated)
      else (fieldOfInt 4 q, 0)))

/-! ### Predicates (R264) -/

def execVcmp (n : Nat) (w : BitVec 64) (s : State) : Host.Outcome State Fault Refusal :=
  serving s (s.issueAt n 0x53 w (fun x s =>
    let k := s.core n
    let t := fT x
    if only x [mD, mA, mB, mT, mF] && anyVec x && decide (1 ≤ fD x ∧ fD x ≤ 7 ∧ fF x ≤ 3) then
      let holds (l : Nat) : Bool :=
        if tyVFloat t then cmpFV (fF x) (tyValue t (laneA x k 0 l)) (tyValue t (laneB x k 0 l))
        else cmpInt (fF x) (tyInt t (laneA x k 0 l)) (tyInt t (laneB x k 0 l))
      let bit (j : Nat) : Bool := (List.range (lanes t / 64)).all (fun i => holds (j * (lanes t / 64) + i))
      .next (s.modCore n (fun c => c.setP (fD x) ((List.range 64).foldl (fun a j => a + b2n (bit j) <<< j) 0)))
    else .fault Fc.illegal))

/-- A predicate instruction: pd from the predicates or the scalar it names. -/
def State.predOp (n op : Nat) (w : BitVec 64) (fields : List Nat) (ok : Nat → Bool) (f : Core → Nat → Nat) (s : State) :
    State :=
  s.issueAt n op w (fun x s =>
    if only x (mD :: fields) && ok x && decide (1 ≤ fD x ∧ fD x ≤ 7) then
      .next (s.modCore n (fun k => k.setP (fD x) (f k x)))
    else .fault Fc.illegal)

def predA (w : Nat) : Bool := decide (fA w ≤ 7)
def predAB (w : Nat) : Bool := decide (fA w ≤ 7 ∧ fB w ≤ 7)

def execPand (n : Nat) (w : BitVec 64) (s : State) : Host.Outcome State Fault Refusal :=
  serving s (s.predOp n 0x60 w [mA, mB] predAB (fun k x => k.pr (fA x) &&& k.pr (fB x)))

def execPor (n : Nat) (w : BitVec 64) (s : State) : Host.Outcome State Fault Refusal :=
  serving s (s.predOp n 0x61 w [mA, mB] predAB (fun k x => k.pr (fA x) ||| k.pr (fB x)))

def execPxor (n : Nat) (w : BitVec 64) (s : State) : Host.Outcome State Fault Refusal :=
  serving s (s.predOp n 0x62 w [mA, mB] predAB (fun k x => k.pr (fA x) ^^^ k.pr (fB x)))

def execPnot (n : Nat) (w : BitVec 64) (s : State) : Host.Outcome State Fault Refusal :=
  serving s (s.predOp n 0x63 w [mA] predA (fun k x => (2 ^ 64 - 1) ^^^ k.pr (fA x)))

def execPfroms (n : Nat) (w : BitVec 64) (s : State) : Host.Outcome State Fault Refusal :=
  serving s (s.predOp n 0x64 w [mA] (fun _ => true) (fun k x => k.sr (fA x)))

def execPtos (n : Nat) (w : BitVec 64) (s : State) : Host.Outcome State Fault Refusal :=
  serving s (s.alu n 0x65 w [mD, mA] predA (fun k x => (k.pr (fA x), 0)))

/-! ### Reductions (R265) -/

/-- A sum of FP32 values, rounded, with its flags. -/
def addFp32 (a b : Nat × Nat) : Nat × Nat :=
  let x := fp32.decode a.1
  let y := fp32.decode b.1
  let r := fp32.result false (x.isNan || y.isNan) (x.add y)
  (r.1, r.2 ||| a.2 ||| b.2)

/-- One level of the tree: lanes 2m and 2m + 1. -/
def pairUp : List (Nat × Nat) → List (Nat × Nat)
  | a :: b :: t => addFp32 a b :: pairUp t
  | l => l

def treeSum : Nat → List (Nat × Nat) → Nat × Nat
  | 0, l => l.headD (0, 0)
  | n + 1, l => treeSum n (pairUp l)

/-- The lanes of the run at `a`, register by register, masked lanes as none. -/
def runLanes (k : Core) (w : Nat) (i : Nat) : List (Option Nat) :=
  (List.range (lanes (fT w))).map (fun l =>
    if guards (k.pr (fG w)) (fT w) l then some (laneA w k i l) else none)

/-- Fold the registers lane by lane, in ascending order. -/
def foldRun (k : Core) (w : Nat) : Nat → List (Nat × Nat)
  | 0 => []
  | n + 1 =>
    let here := (runLanes k w n).map (fun x =>
      (match x with
       | some y => fp32.encode false (tyValue (fT w) y)
       | none => 0, 0))
    if n = 0 then here else List.zipWith addFp32 (foldRun k w n) here

def redOk (w : Nat) : Bool := anyVec w && runA w

def execVredsum (n : Nat) (w : BitVec 64) (s : State) : Host.Outcome State Fault Refusal :=
  serving s (s.alu n 0x58 w [mD, mA, mG, mR, mE, mT] redOk (fun k x =>
    if tyVFloat (fT x) then treeSum 8 (foldRun k x (fR x))
    else
      let all := (List.range (fR x)).flatMap (runLanes k x)
      (fieldOfInt 64 (all.foldl (fun a y => a + (y.map (tyInt (fT x))).getD 0) 0), 0)))

/-- The first guarded number of greatest value, with its element index. -/
def greatestOf (t : Nat) : List (Nat × Option Nat) → Option (Nat × Nat) → Option (Nat × Nat)
  | [], best => best
  | (_, none) :: l, best => greatestOf t l best
  | (i, some y) :: l, best =>
    if (tyValue t y).isNan then greatestOf t l best
    else match best with
      | none => greatestOf t l (some (i, y))
      | some (j, z) => greatestOf t l (if (tyValue t z).lt (tyValue t y) then some (i, y) else some (j, z))

def maxOfRun (k : Core) (w : Nat) : Option (Nat × Nat) :=
  greatestOf (fT w) (((List.range (fR w)).flatMap (runLanes k w)).mapIdx (fun i y => (i, y))) none

/-- With no guarded lane an integer maximum is a free value: the manual gives a NaN, which integers have not. -/
def execVredmax (n : Nat) (w : BitVec 64) (s : State) : Host.Outcome State Fault Refusal :=
  serving s (s.issueAt n 0x59 w (fun x s =>
    if only x [mD, mA, mG, mR, mE, mT] && redOk x then
      match maxOfRun (s.core n) x, tyFmt (fT x) with
      | some (_, y), _ => .next (s.modCore n (fun k => k.setS (fD x) (scalarForm (fT x) y)))
      | none, some f => .next (s.modCore n (fun k => k.setS (fD x) f.qnan))
      | none, none => .next (s.drew.modCore n (fun k => k.setS (fD x) (scalarForm (fT x) s.freeVal)))
    else .fault Fc.illegal))

def execVredmaxi (n : Nat) (w : BitVec 64) (s : State) : Host.Outcome State Fault Refusal :=
  serving s (s.alu n 0x5A w [mD, mA, mG, mR, mE, mT] redOk (fun k x =>
    (match maxOfRun k x with
     | some (i, _) => i
     | none => 0xFFFFFFFF, 0)))

def execVext (n : Nat) (w : BitVec 64) (s : State) : Host.Outcome State Fault Refusal :=
  serving s (s.alu n 0x5B w [mD, mA, mB, mE, mT] anyVec (fun k x =>
    (scalarForm (fT x) (laneOf (fT x) (k.vr (fA x)) (k.sr (fB x) % lanes (fT x))), 0)))

/-! ### Vector loads and stores (R261) -/

/-- Each guard bit governs four bytes of a register. -/
def maskWord (p : Nat) (z : Bool) (old new : Nat) : Nat :=
  (List.range 64).foldl (fun a j =>
    a + (if bitAt p j then bitsOf new (32 * j) 32 else if z then 0 else bitsOf old (32 * j) 32) <<< (32 * j)) 0

/-- Load registers 0 to `n - 1` of the run; `rd` reads register `i` from local memory. -/
def loadRun (n : Nat) (w : Nat) (rd : Nat → State → Nat × State) : Nat → State → State
  | 0, s => s
  | i + 1, s =>
    let r := rd i (loadRun n w rd i s)
    r.2.modCore n (fun k => k.setV (fD w + i) (maskWord (k.pr (fG w)) (fZ w) (k.vr (fD w + i)) r.1))

/-- Store `len` bytes at `a`, only the groups of four whose guard bit, from bit `j`, is 1. -/
def State.storeMasked (n a len j p x : Nat) (s : State) : State :=
  if (List.range (len / 4)).all (fun i => bitAt p (j + i)) then s.writeLocal n a len x
  else (List.range (len / 4)).foldl (fun t i =>
    if bitAt p (j + i) then t.writeLocal n (a + 4 * i) 4 (bitsOf x (32 * i) 32) else t) s

def vldFields : List Nat := [mD, mA, mG, mZ, mR, mT, mOff]

/-- The local addresses of the 64-byte granules of a strided access (R261). -/
def granule (k : Core) (w i q : Nat) : Nat := (effective k w + (4 * i + q) * k.sr (fB w)) % 2 ^ 64

def granules (k : Core) (w : Nat) : List Nat :=
  (List.range (fR w)).flatMap (fun i => (List.range 4).map (granule k w i))

def execVld (n : Nat) (w : BitVec 64) (s : State) : Host.Outcome State Fault Refusal :=
  serving s (s.issueAt n 0x32 w (fun x s =>
    let a := effective (s.core n) x
    if ¬ only x vldFields ∨ ¬ anyVec x ∨ 32 < fD x + fR x then .fault Fc.illegal
    else if a % 64 ≠ 0 then .fault Fc.align
    else if (s.localAt n a (256 * fR x)).isNone then .fault Fc.range
    else .next (loadRun n x (fun i t => t.readLocal n (a + 256 * i) 256) (fR x) s)))

def execVst (n : Nat) (w : BitVec 64) (s : State) : Host.Outcome State Fault Refusal :=
  serving s (s.issueAt n 0x33 w (fun x s =>
    let k := s.core n
    let a := effective k x
    if ¬ only x [mD, mA, mG, mR, mT, mOff] ∨ ¬ anyVec x ∨ 32 < fD x + fR x then .fault Fc.illegal
    else if a % 64 ≠ 0 then .fault Fc.align
    else if (s.localAt n a (256 * fR x)).isNone then .fault Fc.range
    else .next ((List.range (fR x)).foldl (fun t i =>
      t.storeMasked n (a + 256 * i) 256 0 (k.pr (fG x)) (k.vr (fD x + i))) s)))

def execVldg (n : Nat) (w : BitVec 64) (s : State) : Host.Outcome State Fault Refusal :=
  serving s (s.issueAt n 0x34 w (fun x s =>
    let k := s.core n
    if ¬ only x (mB :: vldFields) ∨ ¬ anyVec x ∨ 32 < fD x + fR x then .fault Fc.illegal
    else if effective k x % 64 ≠ 0 ∨ k.sr (fB x) % 64 ≠ 0 then .fault Fc.align
    else if (granules k x).any (fun a => (s.localAt n a 64).isNone) then .fault Fc.range
    else .next (loadRun n x (fun i t =>
      (List.range 4).foldl (fun r q =>
        let m := r.2.readLocal n (granule k x i q) 64
        (r.1 + m.1 <<< (512 * q), m.2)) (0, t)) (fR x) s)))

/-- Granules are stored in ascending order, so that the later of two that overlap stands (R261). -/
def execVstg (n : Nat) (w : BitVec 64) (s : State) : Host.Outcome State Fault Refusal :=
  serving s (s.issueAt n 0x35 w (fun x s =>
    let k := s.core n
    if ¬ only x [mD, mA, mB, mG, mR, mT, mOff] ∨ ¬ anyVec x ∨ 32 < fD x + fR x then .fault Fc.illegal
    else if effective k x % 64 ≠ 0 ∨ k.sr (fB x) % 64 ≠ 0 then .fault Fc.align
    else if (granules k x).any (fun a => (s.localAt n a 64).isNone) then .fault Fc.range
    else .next ((List.range (fR x)).foldl (fun t i =>
      (List.range 4).foldl (fun u q =>
        u.storeMasked n (granule k x i q) 64 (16 * q) (k.pr (fG x)) (bitsOf (k.vr (fD x + i)) (512 * q) 512)) t) s)))

end Sys2Proof.Machine
end

