-- ==== Sys2Proof/Machine/Matrix.lean ====
section
/-! DEFINITION. Matrix instructions (R220, R236, R266, R267). -/

namespace Sys2Proof.Machine

/-- Format X (R250). -/
def xTile (w : Nat) : Nat := bitsOf w 8 2
def xK (w : Nat) : Nat := 32 * (bitsOf w 23 5 + 1)
def xClr (w : Nat) : Bool := bitAt w 28
def xTa (w : Nat) : Nat := bitsOf w 32 4
def xTb (w : Nat) : Nat := bitsOf w 36 4
def mTile : Nat := 0x3 <<< 8
def mKq : Nat := 0x1F <<< 23
def mClr : Nat := 1 <<< 28
def mTa : Nat := 0xF <<< 32
def mTb : Nat := 0xF <<< 36

def Core.tile (k : Core) (i : Nat) : Nat := k.t.get 0 [i]

def Core.setTile (k : Core) (i x : Nat) : Core := { k with t := k.t.set [i] (x % 2 ^ 32768) }

/-- Element [i][j] of a tile, and a tile from its elements. -/
def tileAt (x i j : Nat) : Nat := bitsOf x (32 * (32 * i + j)) 32

def packTile (f : Nat → Nat → Nat) : Nat :=
  (List.range 1024).foldl (fun a e => a + (f (e / 32) (e % 32) % 2 ^ 32) <<< (32 * e)) 0

/-- The pairs of operand types of mmac (R267). -/
def pairOk (a b : Nat) : Bool :=
  (a = 4 && b = 4) || (a = 5 && b = 5) || ((a = 6 || a = 7) && (b = 6 || b = 7)) || ((a = 12 || a = 13) && (b = 12 || b = 13))

/-- An FP32 accumulation, rounded once, with its flags. -/
def accumulate (acc : Nat × Nat) (terms : List (FV × Bool)) : Nat × Nat :=
  let a := fp32.decode acc.1
  let r := fp32.result false (a.isNan || terms.any (·.2)) (terms.foldl (fun x y => x.add y.1) a)
  (r.1, r.2 ||| acc.2)

/-- One element's sum over `k`: BF16 and FP16 one product at a time, FP8 two with a single rounding, integers exactly
(R236). `a k` and `b k` are the operands' elements. -/
def dot (ta tb : Nat) (a b : Nat → Nat) : Nat → Nat × Nat → Nat × Nat
  | 0, acc => acc
  | n + 1, acc =>
    let term (k : Nat) : FV × Bool :=
      ((tyValue ta (a k)).mul (tyValue tb (b k)), (tyValue ta (a k)).isNan || (tyValue tb (b k)).isNan)
    if 12 ≤ ta then
      let r := dot ta tb a b n acc
      (fieldOfInt 32 ((r.1 : Int) + tyInt ta (a n) * tyInt tb (b n)), r.2)
    else if ta ≤ 5 then accumulate (dot ta tb a b n acc) [term n]
    else accumulate (dot ta tb a b n acc) [term (2 * n), term (2 * n + 1)]

def execMmac (n : Nat) (w : BitVec 64) (s : State) : Host.Outcome State Fault Refusal :=
  serving s (s.issueAt n 0x80 w (fun x s =>
    let k := s.core n
    let ta := xTa x
    let tb := xTb x
    let size := 32 * xK x * tyBytes ta
    let a := k.sr (fA x)
    let b := k.sr (fB x)
    if ¬ only x [mTile, mA, mB, mKq, mClr, mTa, mTb] ∨ ¬ pairOk ta tb then .fault Fc.illegal
    else if a % 64 ≠ 0 ∨ b % 64 ≠ 0 then .fault Fc.align
    else if (s.localAt n a size).isNone ∨ (s.localAt n b size).isNone then .fault Fc.range
    else
      let ra := s.readLocal n a size
      let rb := ra.2.readLocal n b size
      let bits := tyBits ta
      let old := if xClr x then 0 else k.tile (xTile x)
      let steps := if 6 ≤ ta ∧ ta ≤ 7 then xK x / 2 else xK x
      let at_ (i j : Nat) : Nat × Nat :=
        dot ta tb (fun e => bitsOf ra.1 ((32 * e + i) * bits) bits) (fun e => bitsOf rb.1 ((32 * e + j) * bits) bits)
          steps (tileAt old i j, 0)
      let flags := (List.range 1024).foldl (fun f e => f ||| (at_ (e / 32) (e % 32)).2) 0
      .next ((rb.2.flag n flags).modCore n (fun c => c.setTile (xTile x) (packTile (fun i j => (at_ i j).1))))))

def execMzero (n : Nat) (w : BitVec 64) (s : State) : Host.Outcome State Fault Refusal :=
  serving s (s.issueAt n 0x81 w (fun x s =>
    if only x [mTile] then .next (s.modCore n (fun k => k.setTile (xTile x) 0)) else .fault Fc.illegal))

def execMld (n : Nat) (w : BitVec 64) (s : State) : Host.Outcome State Fault Refusal :=
  serving s (s.issueAt n 0x82 w (fun x s =>
    let a := (s.core n).sr (fA x)
    if ¬ only x [mTile, mA, mTa] ∨ (xTa x ≠ 3 ∧ xTa x ≠ 9) then .fault Fc.illegal
    else if (s.localAt n a 4096).isNone then .fault Fc.range
    else
      let r := s.readLocal n a 4096
      .next (r.2.modCore n (fun k => k.setTile (xTile x) r.1))))

/-- Format X has no sat bit, so a store to BF16 or FP16 is never of the saturating form. -/
def execMst (n : Nat) (w : BitVec 64) (s : State) : Host.Outcome State Fault Refusal :=
  serving s (s.issueAt n 0x83 w (fun x s =>
    let k := s.core n
    let a := k.sr (fA x)
    let t := xTa x
    let len := 1024 * tyBytes t
    if ¬ only x [mTile, mA, mTa] ∨ ¬ (t = 3 ∨ t = 4 ∨ t = 5 ∨ t = 9) then .fault Fc.illegal
    else if (s.localAt n a len).isNone then .fault Fc.range
    else
      let el (e : Nat) : Nat × Nat :=
        let y := tileAt (k.tile (xTile x)) (e / 32) (e % 32)
        if t = 4 ∨ t = 5 then convert 3 t false y else (y, 0)
      let flags := (List.range 1024).foldl (fun f e => f ||| (el e).2) 0
      let data := (List.range 1024).foldl (fun d e => d + (el e).1 <<< (tyBits t * e)) 0
      .next ((s.flag n flags).writeLocal n a len data)))

end Sys2Proof.Machine
end

