-- ==== Sys2Proof/Machine/FabricIsa.lean ====
section
/-! DEFINITION. The instructions that reach beyond the core: fabric accesses, counters, stream handles, fences, time and
freeze (R268 to R281, R285 to R289), and what becomes of a core's requests when they retire (R275). -/

namespace Sys2Proof.Machine

/-! ### Format F (R268) -/

def gCn (w : Nat) : Nat := bitsOf w 28 6
def gH (w : Nat) : Nat := bitsOf w 34 4
def gT (w : Nat) : Nat := bitsOf w 38 4
def gAop (w : Nat) : Nat := bitsOf w 42 4
def gFetch (w : Nat) : Bool := bitAt w 46
def gComb (w : Nat) : Bool := bitAt w 47
def gTc (w : Nat) : Nat := bitsOf w 48 3
def gRem (w : Nat) : Bool := bitAt w 51
def gCnen (w : Nat) : Bool := bitAt w 52
def mCn : Nat := 0x3F <<< 28
def mH : Nat := 0xF <<< 34
def mGT : Nat := 0xF <<< 38
def mAop : Nat := 0xF <<< 42
def mFetch : Nat := 1 <<< 46
def mComb : Nat := 1 <<< 47
def mTc : Nat := 0x7 <<< 48
def mRem : Nat := 1 <<< 51
def mCnen : Nat := 1 <<< 52

/-- The counter an instruction increments on completion. -/
def gCounter (w : Nat) : Option Nat := if gCnen w then some (gCn w) else none

/-- The endpoint a request for an address goes to (R112): this part for its own node and those it proxies. -/
def State.homeOf (s : State) (addr : Nat) : Nat :=
  if nodeOf addr = s.node ∨ (s.lendOf (nodeOf addr)).isSome then s.eid else Config.homeEid (nodeOf addr) % 65536

/-- A core's request (R273). -/
def State.coreRequest (s : State) (n w ty addr len : Nat) (aop : Nat) (fetch : Bool) (data nbytes : Nat) : Msg :=
  { s.request ty (s.homeOf addr) addr len (dTenant ((s.core n).task.getD 0)) (gTc w) (s.homeDie addr) (gComb w) aop fetch
      data nbytes with flow := n, die := dieOfCore n }

/-- A core has room for one more issued entry (R273). -/
def State.coreMayIssue (s : State) (n : Nat) : Bool := decide ((s.liveOf (.core n)).length < 1024)

/-- A core issues a request: it waits at issue while the core holds 1,024 entries (R273). -/
def State.coreIssue (n : Nat) (why : Purpose) (m : Msg) (t s : State) : Done :=
  if s.coreMayIssue n then .next (t.issue (dieOfCore n) (.core n) why m) else .stay s

def execFld (n : Nat) (w : BitVec 64) (s : State) : Host.Outcome State Fault Refusal :=
  serving s (s.issueAt n 0xC0 w (fun x s =>
    let k := s.core n
    let addr := k.sr (fA x)
    let dst := k.sr (fB x)
    let len := k.sr (fC x)
    if ¬ only x [mA, mB, mC, mCn, mComb, mTc, mCnen] ∨ gTc x = 7 ∨ (gComb x ∧ 4080 < len) then .fault Fc.illegal
    else if addr >>> 56 ≠ 0 then .fault Fc.faddr
    else if len = 0 ∨ 65536 < len then .fault Fc.flen
    else if (s.localAt n dst len).isNone then .fault Fc.range
    else
      s.coreIssue n (.load n dst len (gCounter x))
        (s.coreRequest n x (if len ≤ 4080 then 0x10 else 0x11) addr len 0 false 0 0) s))

def execFst (n : Nat) (w : BitVec 64) (s : State) : Host.Outcome State Fault Refusal :=
  serving s (s.issueAt n 0xC1 w (fun x s =>
    let k := s.core n
    let addr := k.sr (fA x)
    let src := k.sr (fB x)
    let len := k.sr (fC x)
    if ¬ only x [mA, mB, mC, mCn, mTc, mCnen] ∨ gTc x = 7 then .fault Fc.illegal
    else if addr >>> 56 ≠ 0 then .fault Fc.faddr
    else if len = 0 ∨ 4080 < len then .fault Fc.flen
    else if (s.localAt n src len).isNone then .fault Fc.range
    else
      let r := s.readLocal n src len
      r.2.coreIssue n (.store n (gCounter x)) (s.coreRequest n x 0x12 addr len 0 false r.1 len) s))

def execFstm (n : Nat) (w : BitVec 64) (s : State) : Host.Outcome State Fault Refusal :=
  serving s (s.issueAt n 0xC2 w (fun x s =>
    let k := s.core n
    let addr := k.sr (fA x)
    let src := k.sr (fB x)
    if ¬ only x [mA, mB, mCn, mTc, mCnen] ∨ gTc x = 7 then .fault Fc.illegal
    else if addr >>> 56 ≠ 0 then .fault Fc.faddr
    else if src % 64 ≠ 0 then .fault Fc.align
    else if (s.localAt n src 144).isNone then .fault Fc.range
    else
      let r := s.readLocal n src 144
      let data := bitsOf r.1 1024 128 + bitsOf r.1 0 1024 <<< 128
      r.2.coreIssue n (.store n (gCounter x)) (s.coreRequest n x 0x13 addr 128 0 false data 144) s))

/-- The width of fatom's type, 0 where it has none (R274). -/
def atomWidth (t : Nat) : Nat :=
  if t = 3 ∨ t = 8 ∨ t = 9 then 4 else if t ≤ 2 then 8 else 0

def execFatom (n : Nat) (w : BitVec 64) (s : State) : Host.Outcome State Fault Refusal :=
  serving s (s.issueAt n 0xC3 w (fun x s =>
    let k := s.core n
    let addr := k.sr (fA x)
    let width := atomWidth (gT x)
    let cas := decide (gAop x = 9)
    if ¬ only x [mD, mA, mB, mC, mCn, mGT, mAop, mFetch, mComb, mTc, mCnen] ∨ gTc x = 7 ∨ width = 0 ∨ 0xA < gAop x ∨
        (tyFloat (gT x) ∧ gAop x ≠ 0xA) ∨ (gComb x ∧ 7 < gAop x) ∨ (¬ gFetch x ∧ fD x ≠ 0) ∨ (¬ cas ∧ fC x ≠ 0) then
      .fault Fc.illegal
    else if addr >>> 56 ≠ 0 then .fault Fc.faddr
    else
      let a := bitsOf (k.sr (fB x)) 0 (8 * width)
      let b := bitsOf (k.sr (fC x)) 0 (8 * width)
      let data := if cas then a + b <<< (8 * width) else a
      let m := s.coreRequest n x 0x14 addr width (gAop x) (gFetch x) data (if cas then 2 * width else width)
      let sd := if gFetch x ∧ fD x ≠ 0 then some (fD x) else none
      let t := match sd with
        | some d => s.modCore n (fun c => { c with owed := d :: c.owed })
        | none => s
      t.coreIssue n (.atomic n none sd width (gCounter x)) m s))

def execFcas16 (n : Nat) (w : BitVec 64) (s : State) : Host.Outcome State Fault Refusal :=
  serving s (s.issueAt n 0xC4 w (fun x s =>
    let k := s.core n
    let addr := k.sr (fA x)
    let src := k.sr (fB x)
    if ¬ only x [mA, mB, mCn, mTc, mCnen] ∨ gTc x = 7 then .fault Fc.illegal
    else if addr >>> 56 ≠ 0 then .fault Fc.faddr
    else if src % 16 ≠ 0 then .fault Fc.align
    else if (s.localAt n src 48).isNone then .fault Fc.range
    else
      let r := s.readLocal n src 32
      r.2.coreIssue n (.atomic n (some (src + 32)) none 16 (gCounter x))
        (s.coreRequest n x 0x14 addr 16 9 true r.1 32) s))

/-! ### What a retired entry does (R275, R277, R278) -/

/-- Stores made over bytes a fabric read was still to write have left them undefined (R276). -/
def State.unmix (n a len : Nat) (s : State) : State :=
  let meets (r : Nat × Nat) : Bool := decide (r.1 < a + len ∧ a < r.1 + r.2)
  match (s.core n).mixed.filter meets with
  | [] => s
  | l =>
    let s := s.modCore n (fun k => { k with mixed := k.mixed.filter (fun r => !meets r) })
    let mine (b : Nat) : Bool := l.any (fun r => decide (r.1 ≤ b ∧ b < r.1 + r.2))
    (s.poke n a len (mixBytes mine a len (s.peek n a len) s.freeVal)).drew

/-- A core's entry has retired with a status: its counter, FLAGS, and a fence or a task end that waits for it. The entry
itself is gone already. -/
def State.coreRetired (n : Nat) (key : Key) (st : Status) (ctr : Option Nat) (s : State) : State :=
  let s := if st = .ok then s else s.flag n Fl.fabricErr
  let s := match ctr with
    | some cn => s.increment n cn 1 st
    | none => s
  match (s.core n).wait with
  | some (.fence d left worst) =>
    let left' := left.filter (fun e => decide (e ≠ key))
    let worst := if left.contains key then Status.join worst st else worst
    if left' = [] then s.wake n d worst.code
    else s.modCore n (fun k => { k with wait := some (.fence d left' worst) })
  | some .taskEnd => if s.liveOf (.core n) = [] then s.taskEnd n else s
  | _ => s

/-- The old value of a fetching atomic reaches its register, 0 where the status is not OK (R275). -/
def State.payFetch (n d v : Nat) (st : Status) (s : State) : State :=
  if (s.core n).owed.contains d then
    s.modCore n (fun k => ({ k with owed := k.owed.filter (fun r => decide (r ≠ d)) } : Core).setS d (if st = .ok then v else 0))
  else s

/-! ### Counters (R271) -/

def execCset (n : Nat) (w : BitVec 64) (s : State) : Host.Outcome State Fault Refusal :=
  serving s (s.issueAt n 0xD0 w (fun x s =>
    if only x [mA, mCn] then
      .next (s.modCore n (fun k => { k with ctr := k.ctr.set [gCn x] (k.sr (fA x) % 2 ^ 32, .ok) }))
    else .fault Fc.illegal))

def execCinc (n : Nat) (w : BitVec 64) (s : State) : Host.Outcome State Fault Refusal :=
  serving s (s.issueAt n 0xD1 w (fun x s =>
    let k := s.core n
    let b := k.sr (fB x)
    let amount := k.sr (fA x) % 2 ^ 32
    if ¬ only x [mA, mB, mCn, mRem] ∨ (¬ gRem x ∧ fB x ≠ 0) ∨ (gRem x ∧ 128 ≤ b) then .fault Fc.illegal
    else if ¬ gRem x ∨ b = n then .next (s.increment n (gCn x) amount .ok)
    else if s.clusterTenant (b / 8) ≠ s.clusterTenant (n / 8) then .fault Fc.tenant
    else .next { s with flying := s.flying ++ [(b, gCn x, amount, .ok)] }))

/-- The first of a list that equals `x` is taken out. -/
def takeOut {α : Type} [DecidableEq α] (x : α) : List α → Option (List α)
  | [] => none
  | y :: t => if y = x then some t else (takeOut x t).map (y :: ·)

/-- R270: an increment on its way arrives. -/
def execIncrementArrival (n cn amount status : Nat) (s : State) : Host.Outcome State Fault Refusal :=
  serving s (
    match takeOut (n, cn, amount, Status.ofCode status) s.flying with
    | some l => State.increment n cn amount (Status.ofCode status) { s with flying := l }
    | none => s)

def execCwait (n : Nat) (w : BitVec 64) (s : State) : Host.Outcome State Fault Refusal :=
  serving s (s.issueAt n 0xD2 w (fun x s =>
    let k := s.core n
    let target := k.sr (fA x) % 2 ^ 32
    let limit := k.sr (fB x)
    if ¬ only x [mD, mA, mB, mCn] then .fault Fc.illegal
    else if ¬ notReached target (k.counter (gCn x)).1 then .next (s.modCore n (fun c => c.setS (fD x) 0))
    else
      let until_ := if limit = 0 then none else some (s.ftDie (dieOfCore n) + limit)
      .stay (s.modCore n (fun c => { c with wait := some (.counter (gCn x) target (fD x) until_) }))))

/-- R271: sb ns of fabric time have passed. -/
def execCwaitTimeout (n : Nat) (s : State) : Host.Outcome State Fault Refusal :=
  serving s (
    match (s.core n).wait with
    | some (.counter _ _ d (some t)) => if t ≤ s.ftDie (dieOfCore n) then s.wake n d 1 else s
    | _ => s)

def execCget (n : Nat) (w : BitVec 64) (s : State) : Host.Outcome State Fault Refusal :=
  serving s (s.issueAt n 0xD3 w (fun x s =>
    let c := (s.core n).counter (gCn x)
    if only x [mD, mCn] then .next (s.modCore n (fun k => k.setS (fD x) (c.1 + c.2.code <<< 32))) else .fault Fc.illegal))

/-! ### Stream handles (R279 to R281) -/

def execHbind (n : Nat) (w : BitVec 64) (s : State) : Host.Outcome State Fault Refusal :=
  serving s (s.issueAt n 0xD8 w (fun x s =>
    let k := s.core n
    let a := k.sr (fA x)
    if ¬ only x [mA, mH] then .fault Fc.illegal
    else if a % 16 ≠ 0 then .fault Fc.align
    else if (s.localAt n a 16).isNone then .fault Fc.range
    else
      let r := s.readLocal n a 16
      let b := fieldOf r.1 0 0 32
      let h : Handle := { base := b, slotLog2 := fieldOf r.1 4 0 4, producer := fieldOf r.1 4 4 2, slotsLog2 := fieldOf r.1 4 6 5 }
      if (k.handles.has [gH x]) then .fault Fc.hbound
      else if 12 < h.slotLog2 ∨ 16 < h.slotsLog2 ∨ fieldOf r.1 4 11 21 ≠ 0 ∨ fieldOf r.1 8 0 64 ≠ 0 then .fault Fc.illegal
      else if b % 256 ≠ 0 then .fault Fc.align
      else if (s.localAt n b (h.slots * h.slot)).isNone then .fault Fc.range
      else .next (r.2.setHandle n (gH x) h)))

def execHfree (n : Nat) (w : BitVec 64) (s : State) : Host.Outcome State Fault Refusal :=
  serving s (s.issueAt n 0xD9 w (fun x s =>
    if ¬ only x [mH] then .fault Fc.illegal
    else if ¬ (s.core n).handles.has [gH x] then .fault Fc.hunbound
    else .next (s.release n (gH x))))

/-- A handle instruction with its count n = sa, from 1 to the slot count (R280). -/
def State.handleOp (n op : Nat) (w : BitVec 64) (dest : Bool) (f : Nat → Nat → Handle → State → Done) (s : State) : State :=
  s.issueAt n op w (fun x s =>
    let k := s.core n
    let c := k.sr (fA x)
    if ¬ only x ([mA, mH] ++ if dest then [mD] else []) then .fault Fc.illegal
    else match k.handles.get? [gH x] with
      | none => .fault Fc.hunbound
      | some h => if c = 0 ∨ h.slots < c then .fault Fc.hcount else f x c h s)

/-- hacq and hres do not stop issue: sd is owed until the condition holds (R280). -/
def State.acquire (n x c : Nat) (reserve : Bool) (s : State) : State :=
  (s.modCore n (fun k => { k with
    owed := if fD x = 0 then k.owed else fD x :: k.owed,
    acqs := k.acqs ++ [{ h := gH x, n := c, d := fD x, reserve := reserve }] })).settleHandle n (gH x)

def execHacq (n : Nat) (w : BitVec 64) (s : State) : Host.Outcome State Fault Refusal :=
  serving s (s.handleOp n 0xDA w true (fun x c _ s => .next (s.acquire n x c false)))

def execHrel (n : Nat) (w : BitVec 64) (s : State) : Host.Outcome State Fault Refusal :=
  serving s (s.handleOp n 0xDB w false (fun x c h s =>
    if h.full < c then .fault Fc.hrel
    else .next ((s.setHandle n (gH x) { h with c := (h.c + c) % 2 ^ 32 }).settleHandle n (gH x))))

def execHres (n : Nat) (w : BitVec 64) (s : State) : Host.Outcome State Fault Refusal :=
  serving s (s.handleOp n 0xDC w true (fun x c h s =>
    if h.producer ≠ 0 then .fault Fc.hkind else .next (s.acquire n x c true)))

def execHpub (n : Nat) (w : BitVec 64) (s : State) : Host.Outcome State Fault Refusal :=
  serving s (s.handleOp n 0xDD w false (fun x c h s =>
    if h.producer ≠ 0 then .fault Fc.hkind
    else if h.slots - h.full < c then .fault Fc.hrel
    else .next ((s.setHandle n (gH x) { h with p := (h.p + c) % 2 ^ 32 }).settleHandle n (gH x))))

/-! ### Time (R285, R286) -/

def execTwait (n : Nat) (w : BitVec 64) (s : State) : Host.Outcome State Fault Refusal :=
  serving s (s.issueAt n 0xF0 w (fun x s =>
    let target := (s.core n).sr (fA x) % 2 ^ 32
    if ¬ only x [mD, mA] then .fault Fc.illegal
    else if ahead target (s.beatDie (dieOfCore n)) then
      .stay (s.modCore n (fun k => { k with wait := some (.beat target (fD x)) }))
    else .next ((s.late.flag n Fl.late).modCore n (fun k => k.setS (fD x) 1))))

def execTwaitWake (n : Nat) (s : State) : Host.Outcome State Fault Refusal :=
  serving s (
    match (s.core n).wait with
    | some (.beat target d) => if ahead target (s.beatDie (dieOfCore n)) then s else s.wake n d 0
    | _ => s)

def execTlaunch (n : Nat) (w : BitVec 64) (s : State) : Host.Outcome State Fault Refusal :=
  serving s (s.issueAt n 0xF1 w (fun x s =>
    let k := s.core n
    let target := k.sr (fA x) % 2 ^ 32
    let a := k.sr (fB x)
    let who := k.sr (fC x)
    let now := s.beatDie (dieOfCore n)
    if ¬ only x [mD, mA, mB, mC, mCn, mCnen] ∨ who &&& 0x17F ≠ who then .fault Fc.illegal
    else if a % 64 ≠ 0 then .fault Fc.align
    else if (s.localAt n a 64).isNone then .fault Fc.range
    else if 8 ≤ k.launches.length then .next (s.modCore n (fun c => c.setS (fD x) Status.quota.code))
    else
      let r := s.readLocal n a 64
      let l : Launch := { beat := launchBeat target now, desc := withTenant r.1 (dTenant (k.task.getD 0)), target := who,
                          ctr := gCounter x }
      let t := (r.2.lateIf target now).flag n (if ahead target now then 0 else Fl.late)
      .next (t.modCore n (fun c => ({ c with launches := c.launches ++ [l] } : Core).setS (fD x) 0))))

/-- R286: a pending launch falls due. While the launching core's cluster is OFFLINING it is refused with RETRY. -/
def execLaunch (n k : Nat) (s : State) : Host.Outcome State Fault Refusal :=
  serving s (
    match (s.core n).launches[k]? with
    | none => s
    | some l =>
      if ahead l.beat (s.beatDie (dieOfCore n)) then s
      else
        let s := s.modCore n (fun c => { c with launches := c.launches.eraseIdx k })
        let r : Status × State :=
          if s.cst (n / 8) = Cs.offlining then (.retry, s.countCmp (n / 8) 4)
          else s.push l.desc (l.target % 128) (bitAt l.target 8)
        match l.ctr with
        | some cn => r.2.increment n cn 1 r.1
        | none => r.2)

/-! ### Fences and freeze (R277, R288) -/

def execFfence (n : Nat) (w : BitVec 64) (s : State) : Host.Outcome State Fault Refusal :=
  serving s (s.issueAt n 0xF8 w (fun x s =>
    if ¬ only x [mD] then .fault Fc.illegal
    else
      let l := s.liveOf (.core n)
      if l = [] then .next (s.modCore n (fun k => k.setS (fD x) 0))
      else .stay (s.modCore n (fun k => { k with wait := some (.fence (fD x) l .ok) }))))

def execFreeze (n : Nat) (w : BitVec 64) (s : State) : Host.Outcome State Fault Refusal :=
  serving s (s.issueAt n 0xFF w (fun x s =>
    let t := dTenant ((s.core n).task.getD 0)
    if ¬ only x [] then .fault Fc.illegal
    else if bitAt (s.rd R.DBG_FREEZE_CFG_instr_en []) t then .next { s with pkg := { s.pkg with frozen := true } }
    else .fault Fc.freezeOff))

end Sys2Proof.Machine
end

