-- ==== Sys2Proof/Machine/Queue.lean ====
section
/-! DEFINITION. The queue engines: doorbells, work requests, packets, completion records, errors and commands (R290 to
R310), and the core's qpost (R284). -/

namespace Sys2Proof.Machine

/-! ### Contexts (R290, R291) -/

def State.modQp (qpn : Nat) (f : Qp → Qp) (s : State) : State :=
  match s.qpe.qps.get? [qpn] with
  | some q => { s with qpe := { s.qpe with qps := s.qpe.qps.set [qpn] (f q) } }
  | none => s

/-- The states of R291. -/
def Qs.reset : Nat := 0
def Qs.init : Nat := 1
def Qs.active : Nat := 2
def Qs.error : Nat := 3

def dieOfQp (qpn : Nat) : Nat := bitsOf qpn 17 1

def State.countQp (qpn k : Nat) (s : State) : State := s.bump R.QPE_CNT_count [dieOfQp qpn, k]

/-- Work on a context brings it into its die's cache (R290). -/
def State.touchQp (qpn : Nat) (s : State) : State :=
  let d := dieOfQp qpn
  let l := s.qpe.cached.get [] [d]
  let t := if l.contains qpn then s else s.countQp qpn 8
  { t with qpe := { t.qpe with cached := t.qpe.cached.set [d] ((qpn :: l.filter (fun x => decide (x ≠ qpn))).take 8192) } }

/-- The context image QUERY_QP reads (R291). -/
def Qp.image (q : Qp) : Nat :=
  layout [(0, 0, 3, q.state), (0, 3, 5, q.tenant), (0, 8, 16, q.pd), (0, 24, 8, q.gen), (4, 0, 16, q.peerEid),
    (8, 0, 18, q.peerQpn), (8, 18, 3, q.tc), (12, 0, 12, q.flow), (16, 0, 56, q.sqBase), (24, 0, 56, q.rqBase),
    (32, 0, 5, q.sqLog2), (32, 8, 5, q.rqLog2), (36, 0, 17, q.scq), (40, 0, 17, q.rcq), (44, 0, 32, q.sqProd),
    (48, 0, 32, q.sqCons), (52, 0, 32, q.rqProd), (56, 0, 32, q.rqCons), (60, 0, 24, q.nextPsn), (64, 0, 24, q.unaPsn),
    (68, 0, 24, q.expPsn), (72, 0, 32, q.compCount), (76, 0, 16, q.ackTimeout), (76, 16, 4, q.retryLimit),
    (76, 20, 4, q.retries), (80, 0, 14, q.maxOut)]

/-- The bits of the image that hold no field. -/
def imageReserved (x : Nat) : Bool :=
  fieldOf x 4 16 16 ≠ 0 || fieldOf x 8 21 11 ≠ 0 || fieldOf x 12 12 20 ≠ 0 || fieldOf x 16 56 8 ≠ 0 ||
  fieldOf x 24 56 8 ≠ 0 || fieldOf x 32 5 3 ≠ 0 || fieldOf x 32 13 19 ≠ 0 || fieldOf x 36 17 15 ≠ 0 ||
  fieldOf x 40 17 15 ≠ 0 || fieldOf x 60 24 8 ≠ 0 || fieldOf x 64 24 8 ≠ 0 || fieldOf x 68 24 8 ≠ 0 ||
  fieldOf x 76 24 8 ≠ 0 || fieldOf x 80 14 18 ≠ 0 || fieldOf x 84 0 352 ≠ 0

/-- A request of a queue pair: its tenant, class and flow (R123, R292). -/
def State.qpAsk (qpn : Nat) (q : Qp) (why : Purpose) (ty addr len data nbytes : Nat) (s : State) : State :=
  s.issue (dieOfQp qpn) (.qp qpn) why
    { s.request ty (s.homeOf addr) addr len q.tenant q.tc (s.homeDie addr) false 0 false data nbytes with
      flow := q.flow, die := dieOfQp qpn }

/-! ### Regions (R293 to R295) -/

/-- The rights of a region entry, by bit (R293). -/
def Rg.lrd : Nat := 1
def Rg.lwr : Nat := 2
def Rg.rrd : Nat := 3
def Rg.rwr : Nat := 4

def Rg.tag (x : Nat) : Nat := bitsOf x 26 14
def Rg.base (x : Nat) : Nat := bitsOf x 64 56
def Rg.length (x : Nat) : Nat := bitsOf x 128 40

/-- The region check of R294. -/
def State.regionOk (s : State) (q : Qp) (key right addr n : Nat) : Bool :=
  let e := s.qpe.regions.get 0 [key % 2 ^ 18]
  bitAt e 0 && decide (Rg.tag e = bitsOf key 18 14) && decide (bitsOf e 10 16 = q.pd) && decide (bitsOf e 5 5 = q.tenant) &&
    decide (Rg.base e ≤ addr) && decide (addr + n ≤ Rg.base e + Rg.length e) && bitAt e right

/-- Whether memory accesses that were checked against a region entry are still under way (R295). -/
def State.regionBusy (s : State) (ix : Nat) : Bool :=
  (s.trk.issued.vals.map (·.purpose) ++ s.sw.held.vals.flatten.map (·.purpose)).any (fun p =>
    match p with
    | .qpPart _ _ _ key _ => decide (key % 2 ^ 18 = ix)
    | .qpJob _ _ _ key _ => decide (key % 2 ^ 18 = ix)
    | .qpPlace _ _ key _ => decide (key % 2 ^ 18 = ix)
    | _ => false)

/-- `n` bytes from `a` cut into requests that R114 allows: at 4 KiB boundaries for writes, and for reads at 64 KiB ones
where an RD does not do. Each is (type, offset, length). -/
def cutsAt (size a : Nat) : Nat → Nat → Nat → List (Nat × Nat)
  | 0, _, _ => []
  | fuel + 1, off, n =>
    if n = 0 then []
    else
      let k := min n (size - (a + off) % size)
      (off, k) :: cutsAt size a fuel (off + k) (n - k)

def writeCuts (a n : Nat) : List (Nat × Nat) := cutsAt 4096 a 3 0 n

def readCuts (a n : Nat) : List (Nat × Nat × Nat) :=
  (cutsAt 65536 a 3 0 n).map (fun e => (if (a + e.1) / 4096 = (a + e.1 + e.2 - 1) / 4096 ∧ e.2 ≤ 4080 then 0x10 else 0x11,
    e.1, e.2))

/-! ### Work requests (R296) -/

def wOp (x : Nat) : Nat := fieldOf x 0 0 8
def wSignal (x : Nat) : Bool := fieldOf x 0 8 1 = 1
def wFence (x : Nat) : Bool := fieldOf x 0 9 1 = 1
def wWait (x : Nat) : Bool := fieldOf x 0 10 1 = 1
def wLen (x : Nat) : Nat := fieldOf x 4 0 32
def wId (x : Nat) : Nat := fieldOf x 8 0 64
def wLaddr (x : Nat) : Nat := fieldOf x 16 0 56
def wLkey (x : Nat) : Nat := fieldOf x 24 0 32
def wRkey (x : Nat) : Nat := fieldOf x 28 0 32
def wRaddr (x : Nat) : Nat := fieldOf x 32 0 56
def wImm (x : Nat) : Nat := fieldOf x 40 0 32
def wWaitQpn (x : Nat) : Nat := fieldOf x 48 0 18
def wWaitCount (x : Nat) : Nat := fieldOf x 52 0 32
def wWaitLimit (x : Nat) : Nat := fieldOf x 56 0 32

/-- A work request without reserved values, of a permitted length and an opcode of its ring. -/
def wOk (recv : Bool) (x : Nat) : Bool :=
  fieldOf x 0 11 21 = 0 && fieldOf x 16 56 8 = 0 && fieldOf x 32 56 8 = 0 && fieldOf x 44 0 32 = 0 &&
    fieldOf x 48 18 14 = 0 && fieldOf x 60 0 32 = 0 && decide (wLen x ≤ 2 ^ 30) &&
    (if recv then decide (wOp x = 0x10) else decide (1 ≤ wOp x ∧ wOp x ≤ 7))

/-! ### Completion records (R307) -/

/-- A record without its phase. -/
def cqRecord (id len op : Nat) (st : Status) (recv immValid : Bool) (imm qpn psn : Nat) : Nat :=
  layout [(0, 0, 64, id), (8, 0, 32, len), (12, 0, 8, op), (12, 8, 4, st.code), (12, 12, 1, b2n recv),
    (12, 13, 1, b2n immValid), (16, 0, 32, imm), (20, 0, 18, qpn), (24, 0, 24, psn)]

def State.modCq (cqn : Nat) (f : Cq → Cq) (s : State) : State :=
  match s.qpe.cqs.get? [cqn] with
  | some c => { s with qpe := { s.qpe with cqs := s.qpe.cqs.set [cqn] (f c) } }
  | none => s

/-- A queue holds as many records not yet consumed as it has slots, or holds some back. -/
def Cq.full (c : Cq) : Bool := decide (2 ^ c.log2 ≤ dist 32 c.prod c.cons)

def State.cqFull (s : State) (cqn : Nat) : Bool :=
  match s.qpe.cqs.get? [cqn] with
  | some c => c.full || !c.backlog.isEmpty
  | none => false

/-- Write record k at slot k mod 2^m. -/
def State.writeRecord (cqn : Nat) (r : Nat × Nat × Option Nat) (s : State) : State :=
  match s.qpe.cqs.get? [cqn], s.qpe.qps.get? [r.1] with
  | some c, some q =>
    let phase := 1 - c.prod / 2 ^ c.log2 % 2
    let s := s.modCq cqn (fun c => { c with prod := (c.prod + 1) % 2 ^ 32 })
    s.qpAsk r.1 q (.cqRecord cqn r.1 r.2.2) 0x12 (c.base + 32 * (c.prod % 2 ^ c.log2)) 32 (r.2.1 + phase <<< 224) 32
  | _, _ => s

/-- A record falls due: written, or held back while the queue is full. -/
def State.putRecord (cqn qpn rec_ : Nat) (job : Option Nat) (s : State) : State :=
  if s.cqFull cqn then
    let b := s.beat
    let s := s.modCq cqn (fun c =>
      let since := if c.backlog.isEmpty then b else c.stallBeat
      { c with backlog := c.backlog ++ [(qpn, rec_, job)], stallBeat := since })
    s.event B.qpe 3
  else s.writeRecord cqn (qpn, rec_, job)

/-- Records held back are written as room appears; the beats of the stall are counted when it ends. -/
def State.drainCq (cqn : Nat) : Nat → State → State
  | 0, s => s
  | n + 1, s =>
    match s.qpe.cqs.get? [cqn] with
    | some c =>
      match c.backlog with
      | r :: t =>
        if c.full then s
        else
          let s := (s.modCq cqn (fun c => { c with backlog := t })).writeRecord cqn r
          let s := if t.isEmpty then s.bumpBy R.QPE_CNT_count [bitsOf cqn 16 1, 10] (dist 32 s.beat c.stallBeat) else s
          State.drainCq cqn n s
      | [] => s
    | none => s

/-- The notification of an armed queue. -/
def State.notify (cqn : Nat) (s : State) : State :=
  match s.qpe.cqs.get? [cqn] with
  | some c =>
    if ¬ c.armed then s
    else
      let s := s.modCq cqn (fun c => { c with armed := false })
      match c.notify with
      | 1 => s.msix c.tenant (c.vector % 2048)
      | 2 => { s with flying := s.flying ++ [(bitsOf c.vector 0 7, bitsOf c.vector 7 6, 1, .ok)] }
      | 3 => s.send (bitsOf cqn 16 1)
          { chan := Ch.mgt, tc := 7, dst := c.endpoint, src := s.eid, ty := 0x7C, mapGen := s.mapGen, len := 8,
            tenant := c.tenant, body := cqn }
      | _ => s
  | none => s

/-! ### Packets (R299, R300) -/

end Machine

def Msg.psn (m : Msg) : Nat := m.f 0 0 24
def Msg.gen (m : Msg) : Nat := m.f 0 24 8
def Msg.qpn (m : Msg) : Nat := m.f 4 0 18
def Msg.key (m : Msg) : Nat := m.f 8 0 32
def Msg.first (m : Msg) : Bool := m.f 12 0 1 = 1
def Msg.last_ (m : Msg) : Bool := m.f 12 1 1 = 1
def Msg.immValid (m : Msg) : Bool := m.f 12 2 1 = 1
def Msg.raddr (m : Msg) : Nat := m.f 16 0 56
def Msg.total (m : Msg) : Nat := m.f 24 0 32
def Msg.off (m : Msg) : Nat := m.f 28 0 32
def Msg.dataLen (m : Msg) : Nat := m.len - 32
def Msg.data (m : Msg) : Nat := bitsOf m.body 256 (8 * (m.len - 32))

namespace Machine

/-- The RMA header of a connection's packet. -/
def Qp.header (q : Qp) (psn key : Nat) (first last immValid : Bool) (raddr total off : Nat) : Nat :=
  layout [(0, 0, 24, psn), (0, 24, 8, q.peerGen), (4, 0, 18, q.peerQpn), (8, 0, 32, key), (12, 0, 1, b2n first),
    (12, 1, 1, b2n last), (12, 2, 1, b2n immValid), (16, 0, 56, raddr), (24, 0, 32, total), (28, 0, 32, off)]

/-- A packet leaves on the connection's flow and class (R102, R299). -/
def State.sendRma (qpn : Nat) (q : Qp) (ty head data n : Nat) (st : Status) (s : State) : State :=
  let k := [q.peerEid, dieOfQp q.peerQpn, q.flow]
  let fs := s.qpe.flowSeq.get 0 k
  State.send (dieOfQp qpn)
    { chan := chanOf ty, tc := q.tc, dst := q.peerEid, src := s.eid, ty := ty, mapGen := s.mapGen, status := st.code,
      ordered := true, len := 32 + n, flowSeq := fs, flow := q.flow, die := dieOfQp q.peerQpn, tenant := q.tenant,
      body := head + bitsOf data 0 (8 * n) <<< 256 }
    { s with qpe := { s.qpe with flowSeq := s.qpe.flowSeq.set k ((fs + 1) % 65536) } }

/-- RMA_ACK(E): every psn before E has been applied (R303). -/
def State.sendAck (qpn : Nat) (s : State) : State :=
  match s.qpe.qps.get? [qpn] with
  | some q => s.sendRma qpn q 0x79 (q.header q.applied 0 false false false 0 0 0) 0 0 .ok
  | none => s

def State.rmaNak (qpn psn : Nat) (st : Status) (s : State) : State :=
  match s.qpe.qps.get? [qpn] with
  | some q => (s.sendRma qpn q 0x7A (q.header psn 0 false false false 0 0 0) 0 0 st).countQp qpn 4
  | none => s

/-! ### The ERROR state (R309) -/

/-- A work request of the receive queue completes. -/
def State.recvDone (qpn wr : Nat) (op len : Nat) (st : Status) (immValid : Bool) (imm psn : Nat) (job : Option Nat)
    (s : State) : State :=
  match s.qpe.qps.get? [qpn] with
  | some q => (s.putRecord q.rcq qpn (cqRecord (wId wr) len op st true immValid imm qpn psn) job).countQp qpn 0
  | none => s

/-- A send work request completes: it advances sq_cons, with OK comp_count too, and writes a record where it is signalled
or did not go well. -/
def State.sendDone (qpn wr len : Nat) (st : Status) (s : State) : State :=
  match s.qpe.qps.get? [qpn] with
  | some q =>
    let ok := decide (st = .ok)
    let s := (s.countQp qpn 0).modQp qpn (fun q => { q with sqCons := (q.sqCons + 1) % 2 ^ 32,
                                                            compCount := (q.compCount + b2n ok) % 2 ^ 32 })
    if ok ∧ ¬ wSignal wr then s
    else s.putRecord q.scq qpn (cqRecord (wId wr) len (if ok then wOp wr else 0) st false false 0 qpn
      (if ok then 0 else q.errPsn)) none
  | none => s

/-- Records of a connection not yet written. -/
def State.recordsOut (s : State) (qpn : Nat) : Bool :=
  (s.trk.issued.vals.map (·.purpose) ++ s.sw.held.vals.flatten.map (·.purpose)).any (fun p =>
    match p with
    | .cqRecord _ n _ => decide (n = qpn)
    | _ => false) || s.qpe.cqs.vals.any (fun c => c.backlog.any (fun r => decide (r.1 = qpn)))

/-- Go on with the flush: read the next slot to complete, or note that the last record is written. -/
def State.flushNext (qpn : Nat) (s : State) : State :=
  match s.qpe.qps.get? [qpn] with
  | some q =>
    if ¬ q.flushing ∨ q.fetching then s
    else if q.sqNext ≠ q.sqProd then
      State.qpAsk qpn q (.qpSlot qpn q.sqNext false q.gen) 0x10 (q.sqBase + 64 * (q.sqNext % 2 ^ q.sqLog2)) 64 0 0
        (s.modQp qpn (fun q => { q with fetching := true }))
    else if q.rqCons ≠ q.rqProd then
      State.qpAsk qpn q (.qpSlot qpn q.rqCons true q.gen) 0x10 (q.rqBase + 64 * (q.rqCons % 2 ^ q.rqLog2)) 64 0 0
        (s.modQp qpn (fun q => { q with fetching := true }))
    else if s.recordsOut qpn then s
    else s.modQp qpn (fun q => { q with flushing := false })
  | none => s

/-- The work request that caused the error (R309). -/
inductive Culprit where
  | nobody
  /-- The oldest incomplete one, or the one a psn belongs to. -/
  | oldest
  | holding (psn : Nat)
  /-- The one read and not yet started. -/
  | next
  deriving DecidableEq, Repr

/-- Whether a psn belongs to a work request. -/
def SendWork.holds (w : SendWork) (psn : Nat) : Bool := decide (dist 24 psn w.psn < w.count)

/-- A connection enters ERROR with a status (R309). -/
def State.qpError (qpn psn : Nat) (st : Status) (who : Culprit) (s : State) : State :=
  match s.qpe.qps.get? [qpn] with
  | none => s
  | some q =>
    if q.state ≠ Qs.active ∧ q.state ≠ Qs.init then s
    else
      let s := if bitAt (s.rd R.QPE_EVT_events []) 1 then s else
        (((s.wr R.QPE_ERR_INFO_qpn [] qpn).wr R.QPE_ERR_INFO_status [] st.code).wr R.QPE_ERR_INFO_psn [] psn).wr
          R.QPE_ERR_INFO_peer_eid [] q.peerEid
      let s := (s.event B.qpe 1).modQp qpn (fun q => { q with
        state := Qs.error, errPsn := psn, works := [], fetched := none, build := none, jobs := [], recv := none,
        nak := none, flushing := true })
      let cause : Option SendWork := match who with
        | .nobody => none
        | .next => none
        | .oldest => q.works.head?
        | .holding p => q.works.find? (fun w => w.holds p)
      let s := match cause with
        | some w => (s.drew).sendDone qpn w.wr s.freeVal st
        | none => s
      let s := match who, q.fetched with
        | .next, some wr => s.sendDone qpn wr 0 st
        | _, _ => s
      let s := (q.works.filter (fun w => decide (some w ≠ cause))).foldl (fun t w =>
        (t.drew).sendDone qpn w.wr t.freeVal .timeout) s
      let s := match who, q.fetched with
        | .next, _ => s
        | _, some wr => s.sendDone qpn wr 0 .retry
        | _, none => s
      let s := match q.recv with
        | some wr => s.recvDone qpn wr 0 0 .retry false 0 psn none
        | none => s
      s.flushNext qpn

/-- Connections that name a completion queue enter ERROR (R292). -/
def State.cqError (cqn : Nat) (st : Status) (s : State) : State :=
  s.qpe.qps.entries.foldl (fun t e =>
    if e.2.scq = cqn ∨ e.2.rcq = cqn then t.qpError (e.1.headD 0) 0 st .nobody else t) s

/-! ### The initiator: transmission (R300, R303, R304) -/

def SendWork.read (w : SendWork) : Bool := decide (wOp w.wr = 3)

/-- Every byte of a READ is in its buffer (R133, R304). -/
def SendWork.whole (w : SendWork) : Bool :=
  w.got ≠ [] && w.placing = 0 && decide (w.got.foldl (fun a r => a + r.2) 0 = wLen w.wr)

/-- Send a packet of a work request, with its data. -/
def State.transmit (qpn : Nat) (q : Qp) (w : SendWork) (data n : Nat) (s : State) : State :=
  let psn := q.cur
  let k := dist 24 psn w.psn
  let op := wOp w.wr
  let first := decide (k = 0)
  let last := decide (k + 1 = w.count)
  let again := decide (psn ≠ q.nextPsn)
  let imm := last && (op = 2 || op = 5)
  let key := if op = 1 ∨ op = 3 ∨ (op = 2 ∧ first) then wRkey w.wr else if imm then wImm w.wr else 0
  let addr := if op ≤ 3 then wRaddr w.wr + 4064 * k else 0
  let ty := if op = 3 then 0x72 else if op ≤ 2 then 0x71 else 0x73
  let now := s.now
  let s := (s.countQp qpn 1).modQp qpn (fun q => { q with
    build := none, cur := (psn + 1) % 2 ^ 24, nextPsn := if again then q.nextPsn else (psn + 1) % 2 ^ 24,
    ackSince := if q.unaPsn = psn ∧ ¬ again then now else q.ackSince })
  let s := if again then s.countQp qpn 2 else s
  s.sendRma qpn q ty (q.header psn key first last imm addr (wLen w.wr) (4064 * k)) data n .ok

/-- Go on transmitting: from `cur` in order, never more than max_out unacknowledged; a packet's data is read from the
local buffer first (R304). -/
def State.pumpSend (qpn : Nat) : Nat → State → State
  | 0, s => s
  | fuel + 1, s =>
    match s.qpe.qps.get? [qpn] with
    | none => s
    | some q =>
      if q.state ≠ Qs.active ∨ q.build.isSome ∨ q.cur = q.alloc ∨ q.maxOut ≤ dist 24 q.cur q.unaPsn then s
      else
        match q.works.find? (fun w => w.holds q.cur) with
        | none => s
        | some w =>
          let off := 4064 * dist 24 q.cur w.psn
          let n := if w.read then 0 else min 4064 (wLen w.wr - off)
          if n = 0 then State.pumpSend qpn fuel (s.transmit qpn q w 0 0)
          else if ¬ s.regionOk q (wLkey w.wr) Rg.lrd (wLaddr w.wr + off) n then
            (s.countQp qpn 7).qpError qpn q.cur .protViolation (.holding q.cur)
          else
            let cuts := readCuts (wLaddr w.wr + off) n
            let id := q.nextJob
            let s := s.modQp qpn (fun q => { q with nextJob := id + 1,
                                                    build := some { id := id, psn := q.cur, left := cuts.length } })
            cuts.foldl (fun t c => t.qpAsk qpn q (.qpPart qpn id c.2.1 (wLkey w.wr) q.gen) c.1 (wLaddr w.wr + off + c.2.1)
              c.2.2 0 0) s

/-- Read the next slot of the send ring that a doorbell covers. -/
def State.pumpFetch (qpn : Nat) (s : State) : State :=
  match s.qpe.qps.get? [qpn] with
  | some q =>
    if q.state ≠ Qs.active ∨ q.fetching ∨ q.fetched.isSome ∨ q.sqNext = q.sqProd then s
    else State.qpAsk qpn q (.qpSlot qpn q.sqNext false q.gen) 0x10 (q.sqBase + 64 * (q.sqNext % 2 ^ q.sqLog2)) 64 0 0
      (s.modQp qpn (fun q => { q with fetching := true }))
  | none => s

def State.qpPump (qpn : Nat) (s : State) : State :=
  match s.qpe.qps.get? [qpn] with
  | some q => (s.pumpFetch qpn).pumpSend qpn (q.maxOut + 1)
  | none => s

/-- The source data of a packet arrives, or its read fails. -/
def State.qpPartDone (qpn id off gen : Nat) (st : Status) (data : Nat) (s : State) : State :=
  match s.qpe.qps.get? [qpn] with
  | none => s
  | some q =>
    match q.build with
    | none => s
    | some b =>
      if b.id ≠ id ∨ q.gen ≠ gen then s
      else if st ≠ .ok then s.qpError qpn b.psn st (.holding b.psn)
      else if 1 < b.left then
        s.modQp qpn (fun q => { q with build := some { b with left := b.left - 1, data := b.data + data <<< (8 * off) } })
      else match q.works.find? (fun w => w.holds b.psn) with
        | none => s
        | some w =>
          (s.transmit qpn q w (b.data + data <<< (8 * off)) (min 4064 (wLen w.wr - 4064 * dist 24 b.psn w.psn))).qpPump qpn

/-! ### The initiator: acknowledgements (R303, R304) -/

/-- Complete the work requests at the front that are wholly acknowledged. -/
def State.releaseWorks (qpn : Nat) : List SendWork → State → State
  | [], s => s.modQp qpn (fun q => { q with works := [] })
  | w :: t, s =>
    match s.qpe.qps.get? [qpn] with
    | some q =>
      if dist 24 q.unaPsn w.psn < w.count ∨ 2 ^ 23 ≤ dist 24 q.unaPsn w.psn then
        s.modQp qpn (fun q => { q with works := w :: t })
      else State.releaseWorks qpn t (s.sendDone qpn w.wr (wLen w.wr) .ok)
    | none => s

/-- An acknowledgement of every psn before `a`. A READ is released only by its data, which would otherwise never be sent
again. -/
def State.ackTo (qpn a : Nat) (s : State) : State :=
  match s.qpe.qps.get? [qpn] with
  | none => s
  | some q =>
    if dist 24 q.nextPsn q.unaPsn < dist 24 a q.unaPsn then s
    else
      let limit := match q.works.find? (fun w => w.read && !w.whole) with
        | some w => min (dist 24 w.psn q.unaPsn) (dist 24 a q.unaPsn)
        | none => dist 24 a q.unaPsn
      if limit = 0 then s
      else
        let una := (q.unaPsn + limit) % 2 ^ 24
        let now := s.now
        let s := s.modQp qpn (fun q => { q with
          unaPsn := una, retries := 0, ackSince := now,
          cur := if dist 24 q.cur q.unaPsn < limit then una else q.cur,
          build := if dist 24 q.cur q.unaPsn < limit then none else q.build })
        s.releaseWorks qpn q.works

/-- Resend from a psn, in order, before any new packet (R303, R304). -/
def State.rewind (qpn psn : Nat) (s : State) : State :=
  let now := s.now
  (s.modQp qpn (fun q => { q with
    cur := psn, build := none, ackSince := now,
    works := q.works.map (fun w => if w.read && !w.whole then { w with got := [] } else w) })).qpPump qpn

/-- The context a response names on this die, ACTIVE and of the incarnation the packet carries (R301); a refusal formed on
the way carries the header of the packet it refuses, and is taken to the connection that sent it. -/
def State.responder (s : State) (d : Nat) (m : Msg) : Option (Nat × Qp) :=
  match s.qpe.qps.get? [m.qpn] with
  | some q =>
    if dieOfQp m.qpn = d ∧ q.gen = m.gen ∧ q.peerEid = m.src ∧ q.state = Qs.active then some (m.qpn, q)
    else none
  | none => none

def State.refusedSender (s : State) (d : Nat) (m : Msg) : Option (Nat × Qp) :=
  (s.qpe.qps.entries.find? (fun e => decide (e.2.peerQpn = m.qpn ∧ e.2.peerGen = m.gen ∧ e.2.state = Qs.active ∧
    dieOfQp e.2.peerQpn = d ∧ e.2.works.any (fun w => w.holds m.psn)))).map (fun e => (e.1.headD 0, e.2))

/-- R303. -/
def execRmaAck (d : Nat) (m : Msg) (s : State) : Host.Outcome State Fault Refusal :=
  serving s (
    if m.ty ≠ 0x79 then s
    else
      let s := s.consume d m
      match s.responder d m with
      | some (n, _) => ((s.touchQp n).ackTo n m.psn).qpPump n
      | none => s.bump R.QPE_CNT_count [d, 6])

/-- R303, R301, R308. -/
def execRmaNak (d : Nat) (m : Msg) (s : State) : Host.Outcome State Fault Refusal :=
  serving s (
    if m.ty ≠ 0x7A then s
    else
      let s := s.consume d m
      match (s.responder d m).or (s.refusedSender d m) with
      | none => s.bump R.QPE_CNT_count [d, 6]
      | some (n, q) =>
        let s := s.touchQp n
        if dist 24 q.nextPsn q.unaPsn < dist 24 m.psn q.unaPsn then s
        else
          let own := (s.responder d m).isSome
          let t := if own then s.ackTo n m.psn else s
          match Status.ofCode m.status with
          | .ok => t.rewind n (((t.qpe.qps.get? [n]).map (·.unaPsn)).getD m.psn)
          | .staleMap => t.rewind n (((t.qpe.qps.get? [n]).map (·.unaPsn)).getD m.psn)
          | .retry => t.qpPump n
          | .revoked => t.qpError n m.psn .revoked .oldest
          | st =>
            if ((t.qpe.qps.get? [n]).map (fun q => q.works.any (fun w => w.holds m.psn))).getD false then
              t.qpError n m.psn st (.holding m.psn)
            else t.qpError n m.psn st .oldest)

/-- R304. -/
def execAckTimeout (qpn : Nat) (s : State) : Host.Outcome State Fault Refusal :=
  serving s (
    match s.qpe.qps.get? [qpn] with
    | none => s
    | some q =>
      if q.state ≠ Qs.active ∨ q.unaPsn = q.nextPsn ∨ s.now < q.ackSince + 1000 * q.ackTimeout then s
      else
        let s := ((s.touchQp qpn).countQp qpn 5).modQp qpn (fun q => { q with retries := q.retries + 1 })
        if q.retryLimit ≤ q.retries + 1 then s.qpError qpn q.unaPsn .timeout .oldest else s.rewind qpn q.unaPsn)

/-- A CONTAINED protocol error of the queue engine (R133, R410). -/
def State.qpProtocol (d qpn : Nat) (s : State) : State :=
  (s.contained d B.qpe .ok (Config.logSource B.qpe 4) qpn).event B.ras 4

def State.modWork (qpn psn : Nat) (f : SendWork → SendWork) (s : State) : State :=
  s.modQp qpn (fun q => { q with works := q.works.map (fun w => if w.psn = psn then f w else w) })

/-- A READ's data is whole: it is released with every earlier psn (R303, R304). -/
def State.readSettled (qpn psn : Nat) (s : State) : State :=
  match s.qpe.qps.get? [qpn] with
  | some q => if q.works.any (fun w => decide (w.psn = psn) && w.read && w.whole) then (s.ackTo qpn ((psn + 1) % 2 ^ 24)).qpPump qpn
              else s
  | none => s

/-- R304. -/
def execRmaReadData (d : Nat) (m : Msg) (s : State) : Host.Outcome State Fault Refusal :=
  serving s (
    if m.ty ≠ 0x78 then s
    else
      let s := s.consume d m
      match s.responder d m with
      | none => s.bump R.QPE_CNT_count [d, 6]
      | some (n, q) =>
        let s := (s.touchQp n).ackTo n m.psn
        match q.works.find? (fun w => decide (w.psn = m.psn) && w.read) with
        | none => s
        | some w =>
          let again := w.got.any (fun r => decide (r.1 < m.off + m.dataLen ∧ m.off < r.1 + r.2))
          if wLen w.wr < m.off + m.dataLen ∨ again ∨ (w.got ≠ [] ∧ m.dataLen = 0) then s.qpProtocol d n
          else if ¬ s.regionOk q (wLkey w.wr) Rg.lwr (wLaddr w.wr + m.off) m.dataLen then
            (s.countQp n 7).qpError n m.psn .protViolation (.holding m.psn)
          else
            let a := wLaddr w.wr + m.off
            let cuts := writeCuts a m.dataLen
            let s := s.modWork n m.psn (fun w => { w with got := (m.off, m.dataLen) :: w.got,
                                                          placing := w.placing + cuts.length })
            let s := cuts.foldl (fun t c => t.qpAsk n q (.qpPlace n m.psn (wLkey w.wr) q.gen) 0x12 (a + c.1) c.2
              (bitsOf m.data (8 * c.1) (8 * c.2)) c.2) s
            s.readSettled n m.psn)

/-- A write of READ data into the local buffer is done. -/
def State.qpPlaceDone (qpn psn gen : Nat) (st : Status) (s : State) : State :=
  match s.qpe.qps.get? [qpn] with
  | some q =>
    if q.gen ≠ gen ∨ ¬ q.works.any (fun w => decide (w.psn = psn)) then s
    else if st ≠ .ok then s.qpError qpn psn st (.holding psn)
    else (s.modWork qpn psn (fun w => { w with placing := w.placing - 1 })).readSettled qpn psn
  | none => s

/-! ### Starting work (R305) -/

/-- The chain condition (R305): none where it holds, a status where the chain is broken, `retry`-less waiting as `ok`. -/
inductive Chain where
  | holds
  | waits
  | broken (st : Status)
  deriving DecidableEq, Repr

def State.chain (s : State) (q : Qp) (wr : Nat) : Chain :=
  if ¬ wWait wr then .holds
  else match s.qpe.qps.get? [wWaitQpn wr] with
    | none => .broken .protViolation
    | some a =>
      if a.tenant ≠ q.tenant then .broken .protViolation
      else if a.state = Qs.reset ∨ a.state = Qs.error then .broken .retry
      else if dist 32 a.compCount (wWaitCount wr) < 2 ^ 31 then .holds
      else .waits

/-- Start the work request that has been read. -/
def State.startWork (qpn : Nat) (q : Qp) (wr : Nat) (s : State) : State :=
  let op := wOp wr
  let s' := s.modQp qpn (fun q => { q with fetched := none })
  if 6 ≤ op then (s'.sendDone qpn wr 0 .ok).qpPump qpn
  else if ¬ s.regionOk q (wLkey wr) (if op = 3 then Rg.lwr else Rg.lrd) (wLaddr wr) (wLen wr) then
    (s.countQp qpn 7).qpError qpn 0 .protViolation .next
  else
    let n := if op = 3 then 1 else max 1 (ceilDiv (wLen wr) 4064)
    let w : SendWork := { wr := wr, slot := (q.sqNext + 2 ^ 32 - 1) % 2 ^ 32, psn := q.alloc, count := n }
    (s'.modQp qpn (fun q => { q with works := q.works ++ [w], alloc := (q.alloc + n) % 2 ^ 24 })).qpPump qpn

/-- R305. -/
def execWorkRequestStart (qpn : Nat) (s : State) : Host.Outcome State Fault Refusal :=
  serving s (
    match s.qpe.qps.get? [qpn] with
    | none => s
    | some q =>
      if q.state ≠ Qs.active then s
      else
        let s := s.touchQp qpn
        match q.fetched with
        | none => s.qpPump qpn
        | some wr =>
          if s.cqFull q.scq ∨ s.cqFull q.rcq then s
          else if ¬ wOk false wr then s.qpError qpn 0 .unsupported .next
          else match s.chain q wr with
            | .broken st => s.qpError qpn 0 st .next
            | .waits => s
            | .holds => if wFence wr ∧ q.works.any (·.read) then s else s.startWork qpn q wr)

/-- R305: wait_timeout beats have passed without the condition holding. -/
def execWaitTimeout (qpn : Nat) (s : State) : Host.Outcome State Fault Refusal :=
  serving s (
    match s.qpe.qps.get? [qpn] with
    | none => s
    | some q =>
      match q.fetched with
      | some wr =>
        if q.state = Qs.active ∧ wOk false wr ∧ wWaitLimit wr ≠ 0 ∧ s.chain q wr = .waits ∧
            wWaitLimit wr ≤ dist 32 (s.beatDie (dieOfQp qpn)) q.waitSince then
          s.qpError qpn 0 .timeout .next
        else s
      | none => s)

/-! ### The target (R301 to R303, R306, R308) -/

/-- R308: both ends are told, and the connection enters ERROR. `recv` completes a receive work request that is in hand. -/
def State.violation (qpn psn raddr : Nat) (st : Status) (s : State) : State :=
  match s.qpe.qps.get? [qpn] with
  | none => s
  | some q =>
    let s := s.rmaNak qpn psn st
    let s := match q.recv with
      | some wr => (s.recvDone qpn wr 0 0 st false 0 psn none).modQp qpn (fun q => { q with recv := none })
      | none => s
    let s := s.putRecord q.rcq qpn (cqRecord 0 (raddr % 2 ^ 32) 0 st true false 0 qpn psn) none
    let s := (s.event B.qpe 0).contained (dieOfQp qpn) B.qpe st (Config.logSource B.qpe st.code) raddr
    s.qpError qpn psn st .nobody

/-- R306: a SEND longer than its receive buffer completes both sides with PROT_VIOLATION. -/
def State.sendTooLong (qpn psn wr : Nat) (s : State) : State :=
  let s := (s.rmaNak qpn psn .protViolation).recvDone qpn wr 0 0 .protViolation false 0 psn none
  (s.modQp qpn (fun q => { q with recv := none })).qpError qpn psn .protViolation .nobody

def State.modJob (qpn id : Nat) (f : Job → Job) (s : State) : State :=
  s.modQp qpn (fun q => { q with jobs := q.jobs.map (fun j => if j.id = id then f j else j) })

def Job.isRead (j : Job) : Bool := decide (j.msg.ty = 0x72)

/-- The packets that take a receive work request: the first of a SEND, the last of a WRITE_IMM (R306). -/
def Job.takesRecv (j : Job) : Bool := takes j.msg
where takes (m : Msg) : Bool := (m.ty = 0x73 && m.first) || (m.ty = 0x71 && m.last_ && m.immValid)

/-- Read the receive work request at rq_cons for a job. -/
def State.fetchRecv (qpn : Nat) (q : Qp) (id : Nat) (s : State) : State :=
  State.qpAsk qpn q (.qpSlot qpn q.rqCons true q.gen) 0x10 (q.rqBase + 64 * (q.rqCons % 2 ^ q.rqLog2)) 64 0 0
    (s.modJob qpn id (fun j => { j with phase := 1 }))

/-- Write a packet's data at an address, checked against a key. -/
def State.jobWrites (qpn : Nat) (q : Qp) (j : Job) (key addr : Nat) (s : State) : State :=
  let cuts := writeCuts addr j.msg.dataLen
  cuts.foldl (fun t c => t.qpAsk qpn q (.qpJob qpn j.id c.1 key q.gen) 0x12 (addr + c.1) c.2
    (bitsOf j.msg.data (8 * c.1) (8 * c.2)) c.2) (s.modJob qpn j.id (fun j => { j with phase := 2, left := cuts.length }))

/-- Read the next 4,064 bytes of a READ. -/
def State.jobReads (qpn : Nat) (q : Qp) (j : Job) (s : State) : State :=
  let a := j.msg.raddr + j.off
  let cuts := readCuts a (min 4064 (j.msg.total - j.off))
  cuts.foldl (fun t c => t.qpAsk qpn q (.qpJob qpn j.id c.2.1 j.msg.key q.gen) c.1 (a + c.2.1) c.2.2 0 0)
    (s.modJob qpn j.id (fun j => { j with phase := 2, left := cuts.length, data := 0 }))

/-- Go through the jobs of a connection in psn order and issue what may be issued: a READ and a SEND's first packet only
at the head; nothing past a READ (R306). -/
def State.issueJobs (qpn : Nat) : List Job → Bool → State → State
  | [], _, s => s
  | j :: t, head, s =>
    match s.qpe.qps.get? [qpn] with
    | none => s
    | some q =>
      if j.phase ≠ 0 then
        if j.phase = 2 ∧ ¬ j.isRead then State.issueJobs qpn t false s else s
      else if j.isRead then
        if ¬ head then s
        else if ¬ s.regionOk q j.msg.key Rg.rrd j.msg.raddr j.msg.total then
          (s.countQp qpn 7).violation qpn j.psn j.msg.raddr .protViolation
        else s.jobReads qpn q j
      else if j.msg.ty = 0x73 then
        if j.msg.first ∧ (¬ head ∨ q.recv.isNone) then (if head then s.fetchRecv qpn q j.id else s)
        else match q.recv with
          | none => s
          | some wr =>
            if ¬ wOk true wr then (if head then s.violation qpn j.psn (wLaddr wr) .unsupported else s)
            else if wLen wr < j.msg.total ∨ j.msg.total < j.msg.off + j.msg.dataLen then
              (if head then s.sendTooLong qpn j.psn wr else s)
            else if ¬ s.regionOk q (wLkey wr) Rg.lwr (wLaddr wr + j.msg.off) j.msg.dataLen then
              (if head then (s.countQp qpn 7).violation qpn j.psn (wLaddr wr) .protViolation else s)
            else State.issueJobs qpn t false (s.jobWrites qpn q j (wLkey wr) (wLaddr wr + j.msg.off))
      else
        let key := if j.msg.first then j.msg.key else q.key
        let s := s.modQp qpn (fun q => { q with key := key })
        if ¬ s.regionOk q key Rg.rwr j.msg.raddr j.msg.dataLen then
          (if head then (s.countQp qpn 7).violation qpn j.psn j.msg.raddr .protViolation else s)
        else State.issueJobs qpn t false (s.jobWrites qpn q j key j.msg.raddr)

/-- The receive record of a job falls due. Where a WRITE_IMM fits one packet its rkey stands in the one field that could
hold the immediate (R300), which the record therefore does not know. -/
def State.recvRecord (qpn : Nat) (j : Job) (wr : Nat) (s : State) : State :=
  let lostImm := decide (j.msg.ty = 0x71) && j.msg.first
  let imm := if ¬ j.msg.immValid then 0 else if lostImm then s.freeVal % 2 ^ 32 else j.msg.key
  let s := if j.msg.immValid && lostImm then s.drew else s
  (s.modJob qpn j.id (fun j => { j with phase := 3 })).recvDone qpn wr (wOp wr) j.msg.total .ok j.msg.immValid imm 0
    (some j.id)

/-- The job at the head has been applied: E has been reached (R303). -/
def State.applied (qpn : Nat) (j : Job) (s : State) : State :=
  let s := s.modQp qpn (fun q => { q with
    jobs := q.jobs.filter (fun x => decide (x.id ≠ j.id)),
    applied := if j.dup then q.applied else (j.psn + 1) % 2 ^ 24,
    recv := if j.msg.ty = 0x73 && j.msg.last_ then none else q.recv })
  if j.isRead then s else s.sendAck qpn

/-- Send the data read for a READ, or its next part. -/
def State.sendReadData (qpn : Nat) (q : Qp) (j : Job) (s : State) : State :=
  let n := min 4064 (j.msg.total - j.off)
  s.sendRma qpn q 0x78 (q.header j.psn 0 (decide (j.off = 0)) (decide (j.msg.total ≤ j.off + n)) false 0 j.msg.total j.off)
    j.data n .ok

/-- Carry the jobs of a connection on, oldest first. -/
def State.runJobs (qpn : Nat) : Nat → State → State
  | 0, s => s
  | fuel + 1, s =>
    match s.qpe.qps.get? [qpn] with
    | none => s
    | some q =>
      match q.jobs with
      | [] => s
      | j :: _ =>
        if q.state ≠ Qs.active then s
        else if j.phase = 5 then s.violation qpn j.psn j.msg.raddr j.status
        else if j.phase = 4 then State.runJobs qpn fuel (s.applied qpn j)
        else if j.phase = 2 ∧ j.left = 0 then
          if j.isRead then
            let s := s.sendReadData qpn q j
            if j.off + 4064 < j.msg.total then s.jobReads qpn q { j with off := j.off + 4064 } |>.modJob qpn j.id
              (fun j => { j with off := j.off + 4064 })
            else State.runJobs qpn fuel (s.applied qpn j)
          else if j.msg.ty = 0x73 ∧ j.msg.last_ then
            match q.recv with
            | some wr => State.runJobs qpn fuel ((s.modQp qpn (fun q => { q with recv := none })).recvRecord qpn j wr)
            | none => s
          else if j.takesRecv ∧ j.msg.ty = 0x71 then s.fetchRecv qpn q j.id
          else State.runJobs qpn fuel (s.applied qpn j)
        else
          let t := State.issueJobs qpn q.jobs true s
          match (t.qpe.qps.get? [qpn]).bind (fun q => q.jobs.head?) with
          | some j' => if j'.phase = 2 ∧ j'.left = 0 ∧ j.phase = 0 then State.runJobs qpn fuel t else t
          | none => t

def State.jobsGo (qpn : Nat) (s : State) : State :=
  match s.qpe.qps.get? [qpn] with
  | some q => s.runJobs qpn (3 * q.jobs.length + 3)
  | none => s

/-- A home access of a job is done (R303, R308). -/
def State.qpJobDone (qpn id off gen : Nat) (st : Status) (data : Nat) (s : State) : State :=
  match s.qpe.qps.get? [qpn] with
  | some q =>
    if q.gen ≠ gen then s
    else if st ≠ .ok then (s.modJob qpn id (fun j => { j with phase := 5, status := st })).jobsGo qpn
    else (s.modJob qpn id (fun j => { j with left := j.left - 1, data := j.data + data <<< (8 * off) })).jobsGo qpn
  | none => s

/-- A record has been written (R307): its notification, the job that waited for it, and a flush it may end. -/
def State.cqRecordDone (cqn qpn : Nat) (job : Option Nat) (st : Status) (s : State) : State :=
  let s := if st ≠ Status.ok then s.cqError cqn st else s.notify cqn
  let s := match job with
    | some id => if st = Status.ok then (s.modJob qpn id (fun j => { j with phase := 4 })).jobsGo qpn else s
    | none => s
  s.flushNext qpn

/-- A slot of a ring has been read (R292, R305, R306, R309). -/
def State.qpSlotDone (qpn slot : Nat) (recv : Bool) (gen : Nat) (st : Status) (wr : Nat) (s : State) : State :=
  match s.qpe.qps.get? [qpn] with
  | none => s
  | some q =>
    if q.gen ≠ gen then s
    else if q.flushing then
      if st ≠ .ok then
        (s.modQp qpn (fun q => { q with fetching := false, sqNext := q.sqProd, rqCons := q.rqProd })).flushNext qpn
      else if recv then
        State.flushNext qpn (State.recvDone qpn wr 0 0 .retry false 0 q.errPsn none
          (s.modQp qpn (fun q => { q with fetching := false, rqCons := if q.rqCons = slot then (slot + 1) % 2 ^ 32 else q.rqCons })))
      else
        State.flushNext qpn (State.sendDone qpn wr 0 .retry
          (s.modQp qpn (fun q => { q with fetching := false, sqNext := (slot + 1) % 2 ^ 32 })))
    else if st ≠ .ok then s.qpError qpn 0 st .nobody
    else if recv then
      let s := s.modQp qpn (fun q => { q with rqCons := (slot + 1) % 2 ^ 32 })
      match q.jobs.find? (fun j => decide (j.phase = 1)) with
      | none => s.modQp qpn (fun q => { q with recv := some wr })
      | some j =>
        if j.msg.ty = 0x73 then
          ((s.modQp qpn (fun q => { q with recv := some wr })).modJob qpn j.id (fun j => { j with phase := 0 })).jobsGo qpn
        else if ¬ wOk true wr then
          (s.modQp qpn (fun q => { q with recv := some wr })).violation qpn j.psn (wLaddr wr) .unsupported
        else (s.recvRecord qpn j wr).jobsGo qpn
    else
      let b := s.beatDie (dieOfQp qpn)
      s.modQp qpn (fun q => { q with fetching := false, fetched := some wr, sqNext := (slot + 1) % 2 ^ 32, waitSince := b })

/-- Receive work requests posted and not spoken for. -/
def Qp.posted_ (q : Qp) : Nat :=
  dist 32 q.rqProd q.rqCons - (q.jobs.filter (fun j => j.takesRecv && decide (j.phase ≤ 2) && !(j.msg.ty = 0x73 && q.recv.isSome &&
    decide (some j.id = (q.jobs.find? (fun x => x.takesRecv)).map (·.id))))).length

/-- A packet at its target (R301, R302, R306). -/
def State.target (d : Nat) (m : Msg) (s : State) : State :=
  let s := s.consume d m
  let n := m.qpn
  match s.qpe.qps.get? [n] with
  | none => s.bump R.QPE_CNT_count [d, 6]
  | some q =>
    let s := s.touchQp n
    if dieOfQp n ≠ d ∨ q.gen ≠ m.gen then s.bump R.QPE_CNT_count [d, 6]
    else if q.state = Qs.error then s.rmaNak n q.applied .revoked
    else if q.state ≠ Qs.active then s.bump R.QPE_CNT_count [d, 6]
    else
      let x := dist 24 m.psn q.expPsn
      if x = 0 then
        if Job.takesRecv.takes m ∧ q.posted_ = 0 then s.rmaNak n m.psn .retry
        else
          let j : Job := { id := q.nextJob, psn := m.psn, msg := m }
          State.jobsGo n (s.modQp n (fun q => { q with
            jobs := q.jobs ++ [j], nextJob := q.nextJob + 1, expPsn := (m.psn + 1) % 2 ^ 24, nak := none }))
      else if x ≤ 16383 then
        if (q.nak.map (fun k => decide (k.1 = q.expPsn ∧ s.now < k.2 + 4000))).getD false then s
        else
          let now := s.now
          (s.modQp n (fun q => { q with nak := some (q.expPsn, now) })).rmaNak n q.applied .ok
      else if 2 ^ 24 - 65536 ≤ x then
        let s := s.countQp n 3
        if m.ty = 0x72 then
          let j : Job := { id := q.nextJob, psn := m.psn, msg := m, dup := true }
          State.jobsGo n (s.modQp n (fun q => { q with jobs := q.jobs ++ [j], nextJob := q.nextJob + 1 }))
        else s.sendAck n
      else ((s.rmaNak n q.expPsn .seqWindow).countQp n 11).event B.qpe 2 |>.qpError n m.psn .seqWindow .nobody

/-- R302. -/
def execRmaWrite (d : Nat) (m : Msg) (s : State) : Host.Outcome State Fault Refusal :=
  serving s (if m.ty = 0x71 then s.target d m else s)

/-- R306. -/
def execRmaRead (d : Nat) (m : Msg) (s : State) : Host.Outcome State Fault Refusal :=
  serving s (if m.ty = 0x72 then s.target d m else s)

/-- R306. -/
def execRmaSend (d : Nat) (m : Msg) (s : State) : Host.Outcome State Fault Refusal :=
  serving s (if m.ty = 0x73 then s.target d m else s)

/-! ### Doorbells (R297, R298) -/

/-- A doorbell is refused, and counted (R298). -/
def State.bellIgnored (d : Nat) (s : State) : State := (s.bump R.QPE_CNT_count [d, 9]).event B.qpe 4

/-- What R298 makes of an index: none where it is ignored, and whether it is a programming error. -/
def bell (i c cons slots : Nat) : Option Bool :=
  if dist 32 i c = 0 ∨ 2 ^ 31 ≤ dist 32 i c then none
  else if slots < dist 32 i cons then some false
  else some true

/-- A doorbell of a tenant (R297, R298). -/
def State.doorbell (tenant v : Nat) (s : State) : State :=
  let kind := bitsOf v 18 2
  let i := bitsOf v 32 32
  if kind ≤ 1 then
    let n := bitsOf v 0 18
    let d := dieOfQp n
    match s.qpe.qps.get? [n] with
    | none => s.bellIgnored d
    | some q =>
      let s := s.touchQp n
      if q.tenant ≠ tenant ∨ (q.state ≠ Qs.init ∧ q.state ≠ Qs.active) then s.bellIgnored d
      else if kind = 0 then
        match bell i q.sqProd q.sqCons (2 ^ q.sqLog2) with
        | none => s
        | some false => s.progErr B.qpe 0
        | some true => (s.modQp n (fun q => { q with sqProd := i, posted := if dist 32 i q.posted < 2 ^ 31 then i else q.posted })).qpPump n
      else
        match bell i q.rqProd q.rqCons (2 ^ q.rqLog2) with
        | none => s
        | some false => s.progErr B.qpe 0
        | some true => s.modQp n (fun q => { q with rqProd := i })
  else
    let n := bitsOf v 0 17
    let d := bitsOf n 16 1
    match s.qpe.cqs.get? [n] with
    | none => s.bellIgnored d
    | some c =>
      if c.tenant ≠ tenant then s.bellIgnored d
      else if kind = 3 then s.modCq n (fun c => { c with armed := true })
      else
        match bell i c.cons c.cons (2 ^ c.log2) with
        | none => s
        | some false => s.progErr B.qpe 0
        | some true => (s.modCq n (fun c => { c with cons := i })).drainCq n (c.backlog.length + 1)

/-- R298: a function's doorbell page. -/
def execDoorbell (fn v : Nat) (s : State) : Host.Outcome State Fault Refusal :=
  hosted s (fun s => if s.isReady B.qpe then s.doorbell fn v else s.progErr B.qpe 0)

/-- R299. -/
def execQpDoorbell (d : Nat) (m : Msg) (s : State) : Host.Outcome State Fault Refusal :=
  serving s (if m.ty = 0x70 then (s.consume d m).doorbell m.tenant (m.f 0 0 64) else s)

/-! ### qpost (R284) -/

def State.qpostStatus (s : State) (n qpn wr : Nat) : Status :=
  if ¬ wOk false wr then .unsupported
  else match s.qpe.qps.get? [qpn] with
    | none => .protViolation
    | some q =>
      if q.tenant ≠ dTenant ((s.core n).task.getD 0) then .protViolation
      else if 2 ^ q.sqLog2 ≤ dist 32 q.posted q.sqCons then .quota
      else if q.state ≠ Qs.init ∧ q.state ≠ Qs.active then .retry
      else .ok

def execQpost (n : Nat) (w : BitVec 64) (s : State) : Host.Outcome State Fault Refusal :=
  serving s (s.issueAt n 0xE8 w (fun x s =>
    let k := s.core n
    let qpn := k.sr (fA x)
    let a := k.sr (fB x)
    if ¬ only x [mD, mA, mB] ∨ qpn >>> 18 ≠ 0 then .fault Fc.illegal
    else if a % 64 ≠ 0 then .fault Fc.align
    else if (s.localAt n a 64).isNone then .fault Fc.range
    else
      let r := s.readLocal n a 64
      let st := s.qpostStatus n qpn r.1
      let s := r.2.modCore n (fun c => c.setS (fD x) st.code)
      match s.qpe.qps.get? [qpn] with
      | some q =>
        if st = .ok then
          .next (State.qpAsk qpn q (.qpPost qpn q.posted q.gen) 0x12 (q.sqBase + 64 * (q.posted % 2 ^ q.sqLog2)) 64 r.1 64
            ((s.touchQp qpn).modQp qpn (fun q => { q with posted := (q.posted + 1) % 2 ^ 32 })))
        else .next s
      | none => .next s))

/-- sq_prod passes every slot whose bytes are in the ring. -/
def Qp.advance : Nat → Qp → Qp
  | 0, q => q
  | n + 1, q =>
    if q.filled.contains q.sqProd then
      Qp.advance n { q with filled := q.filled.filter (fun x => decide (x ≠ q.sqProd)), sqProd := (q.sqProd + 1) % 2 ^ 32 }
    else q

/-- The ring slot of a qpost has been written. -/
def State.qpPostDone (qpn slot gen : Nat) (st : Status) (s : State) : State :=
  match s.qpe.qps.get? [qpn] with
  | some q =>
    if q.gen ≠ gen then s
    else if st ≠ .ok then s.qpError qpn 0 st .nobody
    else (s.modQp qpn (fun q => Qp.advance (q.filled.length + 1) { q with filled := slot :: q.filled })).qpPump qpn
  | none => s

/-! ### Commands (QPE_CMD, R291, R293, R295, R307, R310) -/

/-- Word `k` staged by a function, and the staged words as one image. -/
def State.qpeStage (s : State) (fn k : Nat) : Nat := s.rd R.QPE_CMD_STAGE_word [k, fn]

def State.qpeImage (s : State) (fn n : Nat) : Nat :=
  (List.range n).foldl (fun a k => a + s.qpeStage fn k <<< (64 * k)) 0

def State.qpeResult (fn : Nat) (st : Status) (busy : Bool) (result : Nat) (s : State) : State :=
  ((s.wr R.QPE_CMD_RESULT_status [fn] st.code).wr R.QPE_CMD_RESULT_busy [fn] (b2n busy)).wr R.QPE_CMD_RESULT_result [fn] result

/-- A command of a function: one at a time, and only while the block is READY (R443, R478). -/
def State.qpeCommand (fn : Nat) (f : State → Status × Nat × State) (s : State) : State :=
  if s.on R.QPE_CMD_RESULT_busy [fn] then s.progErr B.qpe 0x40
  else if ¬ s.isReady B.qpe then s.qpeResult fn .retry false 0
  else
    let r := f s
    r.2.2.qpeResult fn r.1 false r.2.1

/-- Whether a function may act on an object of a tenant: the physical function on any. -/
def mayAct (fn tenant : Nat) : Bool := fn = 0 || fn = tenant

/-- The lowest number at or above `lo` that is not in use. -/
def lowestFree (used : Nat → Bool) (lo : Nat) : Nat → Nat
  | 0 => lo
  | n + 1 => if used lo then lowestFree used (lo + 1) n else lo

/-- CREATE_QP: the lowest free context of the die that bit 17 of the target names. -/
def State.createQp (fn target : Nat) (s : State) : State :=
  s.qpeCommand fn (fun s =>
    let d := bitsOf target 17 1
    let n := lowestFree (fun i => s.qpe.qps.has [i]) (d * 2 ^ 17) s.qpe.qps.size
    if ¬ s.tenantActive fn then (.protViolation, 0, s)
    else if (d + 1) * 2 ^ 17 ≤ n then (.quota, 0, s)
    else
      let q : Qp := { tenant := fn, gen := (s.qpe.gens.get 255 [n] + 1) % 256, resetAt := s.now }
      (.ok, n, { s with qpe := { s.qpe with qps := s.qpe.qps.set [n] q, gens := s.qpe.gens.set [n] q.gen } }))

/-- CREATE_QP: the lowest free context of the die that bit 17 of the target names. -/
def execCreateQp (fn target : Nat) (s : State) : Host.Outcome State Fault Refusal :=
  hosted s (fun s => s.createQp fn target)

/-- A ring lies within one extent (R292). -/
def ringOk (base bytes : Nat) : Bool := decide (base / 2 ^ 26 = (base + bytes - 1) / 2 ^ 26)

/-- The refusal of an image for INIT: none where it may be taken. -/
def State.initRefusal (s : State) (fn x : Nat) : Option Status :=
  let t := fieldOf x 0 3 5
  let ok := ¬ imageReserved x ∧ fieldOf x 8 18 3 ≤ 6 ∧ 4 ≤ fieldOf x 32 0 5 ∧ fieldOf x 32 0 5 ≤ 16 ∧
    4 ≤ fieldOf x 32 8 5 ∧ fieldOf x 32 8 5 ≤ 16 ∧ 10 ≤ fieldOf x 76 0 16 ∧ 1 ≤ fieldOf x 76 16 4 ∧ 1 ≤ fieldOf x 80 0 14 ∧
    ringOk (fieldOf x 16 0 56) (64 * 2 ^ fieldOf x 32 0 5) ∧ ringOk (fieldOf x 24 0 56) (64 * 2 ^ fieldOf x 32 8 5)
  let cq (n : Nat) : Bool := ((s.qpe.cqs.get? [n]).map (fun c => decide (c.tenant = t))).getD false
  if ¬ ok then some .unsupported
  else if ¬ mayAct fn t ∨ ¬ s.tenantActive t ∨ s.qpe.pds.get? [fieldOf x 0 8 16] ≠ some t ∨ ¬ cq (fieldOf x 36 0 17) ∨ ¬ cq (fieldOf x 40 0 17) then
    some .protViolation
  else none

/-- The context an image gives, entering INIT. -/
def Qp.init (q : Qp) (x : Nat) : Qp :=
  { state := Qs.init, gen := q.gen, resetAt := q.resetAt, tenant := fieldOf x 0 3 5, pd := fieldOf x 0 8 16,
    compCount := q.compCount, peerGen := fieldOf x 0 24 8, peerEid := fieldOf x 4 0 16, peerQpn := fieldOf x 8 0 18, tc := fieldOf x 8 18 3,
    flow := fieldOf x 12 0 12, sqBase := fieldOf x 16 0 56, rqBase := fieldOf x 24 0 56, sqLog2 := fieldOf x 32 0 5,
    rqLog2 := fieldOf x 32 8 5, scq := fieldOf x 36 0 17, rcq := fieldOf x 40 0 17, nextPsn := fieldOf x 60 0 24,
    unaPsn := fieldOf x 60 0 24, alloc := fieldOf x 60 0 24, cur := fieldOf x 60 0 24, expPsn := fieldOf x 68 0 24,
    applied := fieldOf x 68 0 24, ackTimeout := fieldOf x 76 0 16, retryLimit := fieldOf x 76 16 4, maxOut := fieldOf x 80 0 14 }

/-- The context on entry to RESET: its attributes stay, conn_gen is new, ring counts and sequence numbers are cleared. -/
def Qp.cleared (q : Qp) (gen now : Nat) : Qp :=
  { state := Qs.reset, tenant := q.tenant, pd := q.pd, gen := gen, resetAt := now, peerEid := q.peerEid,
    peerQpn := q.peerQpn, tc := q.tc, flow := q.flow, sqBase := q.sqBase, rqBase := q.rqBase, sqLog2 := q.sqLog2,
    rqLog2 := q.rqLog2, scq := q.scq, rcq := q.rcq, ackTimeout := q.ackTimeout, retryLimit := q.retryLimit,
    maxOut := q.maxOut, compCount := q.compCount }

/-- MODIFY_QP (R301, R310). -/
def State.modifyQp (fn target : Nat) (s : State) : State :=
  s.qpeCommand fn (fun s =>
    let x := s.qpeImage fn 16
    match s.qpe.qps.get? [target] with
    | none => (.unsupported, 0, s)
    | some q =>
      let s := s.touchQp target
      if ¬ mayAct fn q.tenant then (.protViolation, 0, s)
      else match fieldOf x 0 0 3 with
        | 0 =>
          if q.state = Qs.reset then (.ok, 0, s)
          else if q.flushing ∨ s.recordsOut target then (.retry, 0, s)
          else
            let g := (q.gen + 1) % 256
            let now := s.now
            let s := s.modQp target (fun q => q.cleared g now)
            (.ok, 0, { s with qpe := { s.qpe with gens := s.qpe.gens.set [target] g } })
        | 1 =>
          match s.initRefusal fn x with
          | some st => (st, 0, s)
          | none =>
            if q.state ≠ Qs.reset ∨ s.now < q.resetAt + 1000000 then (.retry, 0, s)
            else (.ok, 0, s.modQp target (fun q => q.init x))
        | 2 =>
          if q.state ≠ Qs.init then (.retry, 0, s)
          else (.ok, 0, (s.modQp target (fun q => { q with state := Qs.active })).qpPump target)
        | _ => (.unsupported, 0, s))

/-- MODIFY_QP (R301, R310). -/
def execModifyQp (fn target : Nat) (s : State) : Host.Outcome State Fault Refusal :=
  hosted s (fun s => s.modifyQp fn target)

/-- DESTROY_QP: accepted only in RESET (R310). -/
def State.destroyQp (fn target : Nat) (s : State) : State :=
  s.qpeCommand fn (fun s =>
    match s.qpe.qps.get? [target] with
    | none => (.unsupported, 0, s)
    | some q =>
      if ¬ mayAct fn q.tenant then (.protViolation, 0, s)
      else if q.state ≠ Qs.reset then (.retry, 0, s)
      else (.ok, 0, { s with qpe := { s.qpe with
        qps := s.qpe.qps.erase [target],
        cached := s.qpe.cached.each (fun _ l => l.filter (fun x => decide (x ≠ target))) } }))

/-- DESTROY_QP: accepted only in RESET (R310). -/
def execDestroyQp (fn target : Nat) (s : State) : Host.Outcome State Fault Refusal :=
  hosted s (fun s => s.destroyQp fn target)

/-- QUERY_QP: the image replaces the function's staged words. -/
def State.queryQp (fn target : Nat) (s : State) : State :=
  s.qpeCommand fn (fun s =>
    match s.qpe.qps.get? [target] with
    | none => (.unsupported, 0, s)
    | some q =>
      if ¬ mayAct fn q.tenant then (.protViolation, 0, s)
      else (.ok, 0, (List.range 16).foldl (fun t k => t.wr R.QPE_CMD_STAGE_word [k, fn] (bitsOf q.image (64 * k) 64))
        (s.touchQp target)))

/-- QUERY_QP: the image replaces the function's staged words. -/
def execQueryQp (fn target : Nat) (s : State) : Host.Outcome State Fault Refusal :=
  hosted s (fun s => s.queryQp fn target)

/-- CREATE_CQ (R307). -/
def State.createCq (fn target : Nat) (s : State) : State :=
  s.qpeCommand fn (fun s =>
    let d := bitsOf target 16 1
    let w0 := s.qpeStage fn 0
    let w1 := s.qpeStage fn 1
    let n := lowestFree (fun i => s.qpe.cqs.has [i]) (d * 2 ^ 16) s.qpe.cqs.size
    if bitsOf w0 56 8 ≠ 0 ∨ bitsOf w1 5 3 ≠ 0 ∨ bitsOf w1 10 6 ≠ 0 ∨ bitsOf w1 48 16 ≠ 0 ∨ bitsOf w1 0 5 < 4 ∨
        20 < bitsOf w1 0 5 ∨ ¬ ringOk w0 (32 * 2 ^ bitsOf w1 0 5) ∨ (bitsOf w1 8 2 = 1 ∧ (if fn = 0 then 2048 else 64) ≤ bitsOf w1 16 16) then
      (.unsupported, 0, s)
    else if (d + 1) * 2 ^ 16 ≤ n then (.quota, 0, s)
    else
      let c : Cq := { tenant := fn, base := w0, log2 := bitsOf w1 0 5, notify := bitsOf w1 8 2, vector := bitsOf w1 16 16,
                      endpoint := bitsOf w1 32 16 }
      (.ok, n, { s with qpe := { s.qpe with cqs := s.qpe.cqs.set [n] c } }))

/-- CREATE_CQ (R307). -/
def execCreateCq (fn target : Nat) (s : State) : Host.Outcome State Fault Refusal :=
  hosted s (fun s => s.createCq fn target)

/-- DESTROY_CQ: not while a connection names the queue. -/
def State.destroyCq (fn target : Nat) (s : State) : State :=
  s.qpeCommand fn (fun s =>
    match s.qpe.cqs.get? [target] with
    | none => (.unsupported, 0, s)
    | some c =>
      if ¬ mayAct fn c.tenant then (.protViolation, 0, s)
      else if s.qpe.qps.vals.any (fun q => decide (q.scq = target ∨ q.rcq = target) && decide (q.state ≠ Qs.reset)) then (.retry, 0, s)
      else (.ok, 0, { s with qpe := { s.qpe with cqs := s.qpe.cqs.erase [target] } }))

/-- DESTROY_CQ: not while a connection names the queue. -/
def execDestroyCq (fn target : Nat) (s : State) : Host.Outcome State Fault Refusal :=
  hosted s (fun s => s.destroyCq fn target)

/-- REG_REGION (R293): the entry gets a new tag, which the result shows. -/
def State.regRegion (fn target : Nat) (s : State) : State :=
  s.qpeCommand fn (fun s =>
    let x := s.qpeImage fn 3
    let t := bitsOf x 5 5
    if ¬ bitAt x 0 ∨ bitsOf x 40 24 ≠ 0 ∨ bitsOf x 120 8 ≠ 0 ∨ 2 ^ 168 ≤ x ∨ Rg.length x = 0 then
      (.unsupported, 0, s)
    else if ¬ mayAct fn t ∨ ¬ s.tenantActive t ∨ s.qpe.pds.get? [bitsOf x 10 16] ≠ some t then (.protViolation, 0, s)
    else if bitAt (s.qpe.regions.get 0 [target]) 0 ∨ s.qpe.invals.any (fun v => decide (v.1 = target)) then (.retry, 0, s)
    else
      let tag := (s.qpe.tags.get 0 [target] + 1) % 2 ^ 14
      (.ok, tag, { s with qpe := { s.qpe with regions := s.qpe.regions.set [target] (setBits x 26 14 tag),
                                              tags := s.qpe.tags.set [target] tag } }))

/-- REG_REGION (R293): the entry gets a new tag, which the result shows. -/
def execRegRegion (fn target : Nat) (s : State) : Host.Outcome State Fault Refusal :=
  hosted s (fun s => s.regRegion fn target)

/-- INVAL_REGION (R295): new checks fail at once; the command stays in progress. -/
def State.invalRegion (fn target : Nat) (s : State) : State :=
  let e := s.qpe.regions.get 0 [target]
  if s.on R.QPE_CMD_RESULT_busy [fn] ∨ ¬ s.isReady B.qpe ∨ ¬ bitAt e 0 ∨ ¬ mayAct fn (bitsOf e 5 5) then
    s.qpeCommand fn (fun s => (if bitAt e 0 then .protViolation else .unsupported, 0, s))
  else State.qpeResult fn .ok true 0
    { s with qpe := { s.qpe with regions := s.qpe.regions.erase [target], invals := s.qpe.invals ++ [(target, fn)] } }

/-- INVAL_REGION (R295): new checks fail at once; the command stays in progress. -/
def execInvalRegion (fn target : Nat) (s : State) : Host.Outcome State Fault Refusal :=
  hosted s (fun s => s.invalRegion fn target)

/-- R295: every access of a packet checked against the entry has been performed. -/
def execInvalRegionDone (key : Nat) (s : State) : Host.Outcome State Fault Refusal :=
  serving s (
    match s.qpe.invals.find? (fun v => decide (v.1 = key % 2 ^ 18)) with
    | some (ix, fn) =>
      if s.regionBusy ix then s
      else State.qpeResult fn .ok false 0
        { s with qpe := { s.qpe with invals := s.qpe.invals.filter (fun v => decide (v ≠ (ix, fn))) } }
    | none => s)

/-- ALLOC_PD: the lowest free protection domain, for the function's tenant. -/
def State.allocPd (fn target : Nat) (s : State) : State :=
  s.qpeCommand fn (fun s =>
    let n := lowestFree (fun i => s.qpe.pds.has [i]) 0 s.qpe.pds.size
    if target ≠ 0 then (.unsupported, 0, s)
    else if ¬ s.tenantActive fn then (.protViolation, 0, s)
    else if 65536 ≤ n then (.quota, 0, s)
    else (.ok, n, { s with qpe := { s.qpe with pds := s.qpe.pds.set [n] fn } }))

/-- ALLOC_PD: the lowest free protection domain, for the function's tenant. -/
def execAllocPd (fn target : Nat) (s : State) : Host.Outcome State Fault Refusal :=
  hosted s (fun s => s.allocPd fn target)

/-- FREE_PD: not while a connection or a region is in the domain. -/
def State.freePd (fn target : Nat) (s : State) : State :=
  s.qpeCommand fn (fun s =>
    match s.qpe.pds.get? [target] with
    | none => (.unsupported, 0, s)
    | some t =>
      if ¬ mayAct fn t then (.protViolation, 0, s)
      else if s.qpe.qps.vals.any (fun q => decide (q.pd = target ∧ q.state ≠ Qs.reset)) ∨
          s.qpe.regions.vals.any (fun e => decide (bitsOf e 10 16 = target)) then (.retry, 0, s)
      else (.ok, 0, { s with qpe := { s.qpe with pds := s.qpe.pds.erase [target] } }))

/-- FREE_PD: not while a connection or a region is in the domain. -/
def execFreePd (fn target : Nat) (s : State) : Host.Outcome State Fault Refusal :=
  hosted s (fun s => s.freePd fn target)

end Sys2Proof.Machine
end

