-- ==== Sys2Proof/Machine/Codec.lean ====
section
/-! DEFINITION. The ingress expanders and the commands on streams (R325 to R330). -/

namespace Sys2Proof.Machine

/-! ### Delivery (R325 to R328) -/

/-- Bytes of a block of 256 elements of an output type. -/
def blockWidth (out : Nat) : Nat := if out = 4 then 512 else 1024

/-- The check of a message against its stream: none where it passes, else the status its requester receives (R325). -/
def State.expandRefusal (s : State) (m : Msg) : Option Status :=
  let x := s.streamAt m.die (cStream m)
  if ¬ Stream.valid x then some .unsupported
  else if Stream.tenant x ≠ m.tenant then some .protViolation
  else match (s.core (Stream.core x)).handles.get? [Stream.handle x] with
    | some h => if h.producer = 1 ∧ blockWidth (Stream.out x) ≤ h.slot then none else some .unsupported
    | none => some .unsupported

/-- The first block in error since the event was clear is held (R323). -/
def State.decodeError (p : Nat) (m : Msg) (k cause : Nat) (s : State) : State :=
  let s := s.bump R.CDC_CNT_count [dieOfPort p, 5]
  let s := if bitAt (s.rd R.CDC_EVT_events []) 0 then s else
    (((((s.wr R.CDC_ERR_INFO_stream [] (cStream m)).wr R.CDC_ERR_INFO_die [] m.die).wr R.CDC_ERR_INFO_port [] p).wr
      R.CDC_ERR_INFO_src_eid [] m.src).wr R.CDC_ERR_INFO_cause [] cause).wr R.CDC_ERR_BLOCK_block [] (cFirst m + k)
  s.event B.cdc 0

/-- The delivery tag of block `k` (R326). -/
def deliveryTag (m : Msg) (k : Nat) (bad : Bool) : Nat :=
  layout [(0, 0, 32, cFirst m + k), (4, 0, 16, m.src), (4, 16, 4, if bad then Status.decodeError.code else 0),
    (4, 20, 9, countOf m k), (8, 0, 32, cUser m)]

/-- The number of a list of elements of `w` bits. -/
def packElems (w : Nat) (l : List Nat) : Nat := l.foldr (fun x a => x % 2 ^ w + a <<< w) 0

/-- Decode the blocks of a message, counting them (R323, R327). -/
def State.decodeAll (p : Nat) (m : Msg) (out : Nat) (s : State) : List (Nat × Nat) × State :=
  (List.range (cBlocks m)).foldl (fun r k =>
    let b := s.expandBlock m k
    let mode := m.f (32 + k * blockBytes (bitsFor (cCode m))) 0 2
    let t := match b.1 with
      | some c => r.2.decodeError p m k c
      | none =>
        if ¬ m.compressed then r.2.bump R.CDC_CNT_count [dieOfPort p, 6]
        else
          let t := r.2.bump R.CDC_CNT_count [dieOfPort p, 1]
          if mode = 2 then t.bump R.CDC_CNT_count [dieOfPort p, 3]
          else if mode = 3 then t.bump R.CDC_CNT_count [dieOfPort p, 4] else t
    (r.1 ++ [(packElems (blockWidth out / 32) b.2, deliveryTag m k b.1.isSome)], t)) ([], s)

/-- Whether a message of a stream is being written: its boundary has not been reached (R330). -/
def State.midMessage (s : State) (d n : Nat) : Bool :=
  s.cdc.work.any (fun e => decide (e.die = d ∧ e.stream = n) && !e.blocks.isEmpty)

def State.cdcResult (fn : Nat) (st : Status) (busy : Bool) (gen : Nat) (s : State) : State :=
  ((s.wr R.CDC_CMD_RESULT_status [fn] st.code).wr R.CDC_CMD_RESULT_busy [fn] (b2n busy)).wr R.CDC_CMD_RESULT_gen [fn] gen

/-- What CONFIG or CLEAR makes of a descriptor (R330). -/
def Deferred.apply (c : Deferred) (old : Nat) : Nat :=
  if c.clear then setBits old 0 1 0
  else setBits (setBits (setBits (setBits old 13 4 (Stream.out c.desc)) 17 7 (Stream.core c.desc)) 24 4
    (Stream.handle c.desc)) 64 32 (Stream.tagBase c.desc)

/-- Commands that waited for the message boundaries now reached take effect (R330). -/
def State.cdcBoundary (s : State) : State :=
  s.cdc.deferred.entries.foldl (fun t e =>
    let d := e.1.headD 0
    let n := e.1.getD 1 0
    if t.midMessage d n then t
    else
      let x := e.2.apply (t.streamAt d n)
      State.cdcResult (e.1.getD 2 0) .ok false (Stream.gen x)
        { (t.wr R.CDC_STREAM_descriptor [d, n] x) with
          cdc := { t.cdc with deferred := t.cdc.deferred.erase e.1 } }) s

/-- Write the blocks of one message into its ring while slots are free, each with its tag (R326). -/
def State.writeBlocks : Expansion → List (Nat × Nat) → State → Expansion × State
  | e, [], s => ({ e with blocks := [] }, s)
  | e, b :: t, s =>
    match (s.core e.core).handles.get? [e.handle] with
    | some h =>
      if h.slots ≤ h.full then ({ e with blocks := b :: t }, s)
      else
        let s := (s.poke e.core (e.tagBase + 16 * (h.p % h.slots)) 16 b.2).produce e.core e.handle e.bytes b.1
        State.writeBlocks { e with written := e.written + 1 } t s
    | none => ({ e with blocks := b :: t }, s)

/-- Go through the messages of a ring in the order in which they reached expansion; slots are reserved in that order. -/
def State.writeRing (n h : Nat) : List Expansion → Bool → State → List Expansion × State
  | [], _, s => ([], s)
  | e :: t, stop, s =>
    if e.core ≠ n ∨ e.handle ≠ h ∨ stop then
      let r := State.writeRing n h t stop s
      (e :: r.1, r.2)
    else
      let w := State.writeBlocks e e.blocks s
      let r := State.writeRing n h t (!w.1.blocks.isEmpty) w.2
      (w.1 :: r.1, r.2)

/-- Results that only a program consumes are done once they are written; the wait of the others ends (R328). -/
def State.ringGo (n h : Nat) (s : State) : State :=
  let r := State.writeRing n h s.cdc.work false s
  let s := r.2
  State.cdcBoundary
    { s with cdc := { s.cdc with work := r.1.filter (fun e => !(e.blocks.isEmpty && e.msg.ty = 0xA8)) } }

/-- R325: a compressible message at the input of this part's agents reaches an expander. -/
def execExpansion (p : Nat) (m : Msg) (s : State) : Host.Outcome State Fault Refusal :=
  serving s (
    if ¬ compressible m.ty ∨ (m.ty = 0xA8 ∧ m.len = 16) then s
    else
      let s := s.consume m.die m
      match s.expandRefusal m with
      | some st =>
        let s := (s.bump R.CDC_CNT_count [dieOfPort p, 7]).event B.cdc 1
        if m.chan = Ch.req then s.answer m.die m st 0 none else s
      | none =>
        let x := s.streamAt m.die (cStream m)
        let r := s.decodeAll p m (Stream.out x)
        let e : Expansion :=
          { die := m.die, stream := cStream m, port := p, msg := m, core := Stream.core x, handle := Stream.handle x,
            bytes := blockWidth (Stream.out x), out := Stream.out x, tagBase := Stream.tagBase x, blocks := r.1,
            since := s.now }
        State.ringGo e.core e.handle { r.2 with cdc := { r.2.cdc with work := r.2.cdc.work ++ [e] } })

/-- R235: the consumer has released slots; the wait is counted in SCLK cycles (R328). -/
def State.resumeExpansion (n h : Nat) (s : State) : State :=
  let waiting := s.cdc.work.filter (fun e => decide (e.core = n ∧ e.handle = h) && !e.blocks.isEmpty)
  let room : Bool := match (s.core n).handles.get? [h] with
    | some x => decide (x.full < x.slots)
    | none => false
  match waiting with
  | [] => s
  | e :: _ =>
    if ¬ room then s
    else
      let now := s.now
      let s := s.bumpBy R.CDC_CNT_count [dieOfPort e.port, 8] ((now - e.since) * 9 / 5)
      let s : State := { s with cdc := { s.cdc with work := s.cdc.work.map (fun e =>
        if e.core = n ∧ e.handle = h then { e with since := now } else e) } }
      s.ringGo n h

/-! ### Commands (R330) -/

/-- The staged descriptor and table of a function. -/
def State.cdcStage (s : State) (fn lo n : Nat) : Nat :=
  (List.range n).foldl (fun a k => a + s.rd R.CDC_STAGE_word [lo + k, fn] <<< (64 * k)) 0

/-- A descriptor without reserved values (R324). -/
def streamOk (x : Nat) : Bool :=
  decide (Stream.bcode x ≤ 5) && decide (3 ≤ Stream.src x ∧ Stream.src x ≤ 5) && decide (3 ≤ Stream.out x ∧ Stream.out x ≤ 4) &&
    bitsOf x 36 28 = 0 && decide (Stream.tagBase x % 16 = 0) && decide (x >>> 96 = 0)

/-- A command on a stream: one at a time for each function, and only while the block is READY (R443). The descriptor and
table in force and the staged ones are given to the command. -/
def State.cdcCommand (fn d n : Nat) (f : Nat → Nat → State → State) (s : State) : State :=
  if s.on R.CDC_CMD_RESULT_busy [fn] then s.progErr B.cdc 0x40
  else if ¬ s.isReady B.cdc then s.cdcResult fn .retry false (Stream.gen (s.streamAt d n))
  else
    let old := s.streamAt d n
    if fn ≠ 0 ∧ Stream.valid old ∧ Stream.tenant old ≠ fn then
      (s.cdcResult fn .protViolation false (Stream.gen old)).event B.cdc 3
    else f old (s.cdcStage fn 0 4) s

def State.cdcRefuse (fn : Nat) (st : Status) (old : Nat) (s : State) : State :=
  (s.cdcResult fn st false (Stream.gen old)).event B.cdc 3

/-- R330: the staged descriptor and table become the current generation. -/
def State.codecLoad (fn stream die : Nat) (s : State) : State :=
  s.cdcCommand fn die stream (fun old x s =>
    let t := s.cdcStage fn 4 16
    if ¬ streamOk x ∨ ¬ tableValid t then s.cdcRefuse fn .unsupported old
    else if (fn ≠ 0 ∧ Stream.tenant x ≠ fn) ∨ ¬ s.tenantActive (Stream.tenant x) then s.cdcRefuse fn .protViolation old
    else
      let g := (Stream.gen old + 1) % 256
      let s := s.wr R.CDC_TABLE_lengths [die, stream, 1] (s.rd R.CDC_TABLE_lengths [die, stream, 0])
      let s := (s.wr R.CDC_TABLE_lengths [die, stream, 0] t).wr R.CDC_STREAM_descriptor [die, stream] (setBits x 28 8 g)
      State.cdcResult fn .ok false g { s with cdc := { s.cdc with previous := s.cdc.previous.set [die, stream] old } })

/-- R330: the staged descriptor and table become the current generation. -/
def execLoad (fn stream die : Nat) (s : State) : Host.Outcome State Fault Refusal :=
  hosted s (fun s => s.codecLoad fn stream die)

/-- A change of a descriptor at the next message boundary (R330). -/
def State.cdcChange (fn d n : Nat) (c : Deferred) (s : State) : State :=
  State.cdcBoundary (State.cdcResult fn .ok true (Stream.gen (s.streamAt d n))
    { s with cdc := { s.cdc with deferred := s.cdc.deferred.set [d, n, fn] c } })

/-- R330. -/
def State.codecConfig (fn stream die : Nat) (s : State) : State :=
  s.cdcCommand fn die stream (fun old x s =>
    if ¬ streamOk x then s.cdcRefuse fn .unsupported old
    else s.cdcChange fn die stream { clear := false, desc := x })

/-- R330. -/
def execConfig (fn stream die : Nat) (s : State) : Host.Outcome State Fault Refusal :=
  hosted s (fun s => s.codecConfig fn stream die)

/-- R330. -/
def State.codecClear (fn stream die : Nat) (s : State) : State := s.cdcCommand fn die stream (fun _ _ s => s.cdcChange fn die stream { clear := true, desc := 0 })

/-- R330. -/
def execClear (fn stream die : Nat) (s : State) : Host.Outcome State Fault Refusal :=
  hosted s (fun s => s.codecClear fn stream die)

end Sys2Proof.Machine
end

