-- ==== Sys2Proof/Machine/Collective.lean ====
section
/-! DEFINITION. The collective units: descriptors, steps, accumulation, results, reduce-update and delivery (R331 to R354),
and the core's ccontrib (R282). -/

namespace Sys2Proof.Machine

/-! ### Descriptors (R332, R334, R335) -/

def coOp (x : Nat) : Nat := fieldOf x 4 0 4
def coUpdate (x : Nat) : Bool := fieldOf x 4 4 1 = 1
def coRedop (x : Nat) : Nat := fieldOf x 4 5 3
def coIn (x : Nat) : Nat := fieldOf x 4 8 4
def coOut (x : Nat) : Nat := fieldOf x 4 12 4
def coSat (x : Nat) : Bool := fieldOf x 4 16 1 = 1
def coTenant (x : Nat) : Nat := fieldOf x 4 17 5
def coTwo (x : Nat) : Bool := fieldOf x 4 22 1 = 1
def coBlocks (x : Nat) : Nat := fieldOf x 8 0 5
def coOwners (x : Nat) : Nat := fieldOf x 8 8 7
def coChunks (x : Nat) : Nat := fieldOf x 8 16 16 + 1
def coShards (x : Nat) : Nat := fieldOf x 12 0 11
def coMembers (x : Nat) : Nat := fieldOf x 12 12 9
def coMcast (x : Nat) : Nat := fieldOf x 16 0 16
def coPace (x : Nat) : Nat := fieldOf x 16 16 16
def coTimeout (x : Nat) : Nat := fieldOf x 20 0 32
def coPeriod (x : Nat) : Nat := fieldOf x 24 0 32
def coImage (x : Nat) : Nat := fieldOf x 28 0 8
def coBatch (x : Nat) : Nat := fieldOf x 28 8 4
def coCtr (x : Nat) : Nat := fieldOf x 28 12 6
def coEntry (x : Nat) : Nat := fieldOf x 32 0 32
def coStride (x : Nat) : Nat := fieldOf x 36 0 32
def coState (x : Nat) : Nat := fieldOf x 40 0 56
def coParams (x : Nat) : Nat := fieldOf x 48 0 56
def coCopy (x : Nat) : Nat := fieldOf x 56 0 32
def coSpm (x : Nat) : Nat := fieldOf x 60 0 32
def coLimit (x : Nat) : Nat := fieldOf x 64 0 16

/-- Elements of a chunk, and chunks of an owner (R332, R334). -/
def coLen (x : Nat) : Nat := 256 * coBlocks x
def coPer (x : Nat) : Nat := ceilDiv (coChunks x) (coOwners x)

/-- The chunks of owner `k`. -/
def ownedChunks (x k : Nat) : List Nat :=
  (List.range (min ((k + 1) * coPer x) (coChunks x) - k * coPer x)).map (k * coPer x + ·)

/-- Element types that travel with a codec header (R336). -/
def coded (t : Nat) : Bool := 3 ≤ t && t ≤ 5

/-- The type codes of fp32, bf16, fp16, e4m3, e5m2 and s32 (R251, R332). -/
def coType (t : Nat) : Bool := (3 ≤ t && t ≤ 7) || t = 9

/-- Whether a chunk fits one message in raw or plain form (R339). -/
def chunkFits (t len : Nat) : Bool := decide (len * tyBytes t ≤ if coded t then 4064 else 4080)

def owEid (x : Nat) : Nat := fieldOf x 0 0 16
def owCluster (x : Nat) : Nat := fieldOf x 0 16 4
def owIn (x : Nat) : Nat := fieldOf x 0 20 12
def owOut (x : Nat) : Nat := fieldOf x 4 0 12
def owRing (x : Nat) : Nat := fieldOf x 8 0 32
def owSlots (x : Nat) : Nat := fieldOf x 12 0 5

def mbCore (x : Nat) : Bool := bitAt x 0
def mbEid (x : Nat) : Nat := bitsOf x 1 16
def mbN (x : Nat) : Nat := bitsOf x 17 7
def mbHandle (x : Nat) : Nat := bitsOf x 24 4
def mbCtr (x : Nat) : Nat := bitsOf x 28 6

/-! ### Collectives and their states (R340) -/

def Cl.free : Nat := 0
def Cl.idle : Nat := 1
def Cl.scheduled : Nat := 2
def Cl.open_ : Nat := 3
def Cl.ending : Nat := 4

def State.clst (s : State) (slot : Nat) : Nat := s.rd R.CLT_COLL_STATUS_state [slot]

def State.running (s : State) (slot : Nat) : Bool := s.clst slot = Cl.open_ || s.clst slot = Cl.ending

def State.modColl (slot : Nat) (f : Coll → Coll) (s : State) : State :=
  match s.clt.colls.get? [slot] with
  | some c => { s with clt := { s.clt with colls := s.clt.colls.set [slot] (f c) } }
  | none => s

/-- The collective an identifier names (R331). -/
def State.collOf (s : State) (coll : Nat) : Option (Nat × Coll) :=
  match s.clt.colls.get? [coll % 4096] with
  | some c => if fieldOf c.desc 0 0 32 = coll then some (coll % 4096, c) else none
  | none => none

/-- Owner entries of this part. -/
def State.ownHere (s : State) (c : Coll) : List (Nat × Nat) :=
  (c.owners.entries.filter (fun e => decide (owEid e.2 = s.eid))).map (fun e => (e.1.headD 0, e.2))

def ownerOf (c : Coll) (k : Nat) : Nat := c.owners.get 0 [k]

def dieOfOwner (c : Coll) (k : Nat) : Nat := dieOfCluster (owCluster (ownerOf c k))

def State.countClt (d k : Nat) (s : State) : State := s.bump R.CLT_CNT_count [d, k]

def Coll.owned (c : Coll) (k : Nat) : Owned := c.own.get {} [k]

def State.modOwned (slot k : Nat) (f : Owned → Owned) (s : State) : State :=
  s.modColl slot (fun c => { c with own := c.own.set [k] (f (c.owned k)) })

/-! ### Accumulator records (R343, R348) -/

/-- Bytes of a record. -/
def accBytes (x : Nat) : Nat := 192 + 4 * coLen x

/-- Records with their collectives. -/
def State.allAccs (s : State) : List (Coll × Accum) :=
  s.clt.colls.vals.flatMap (fun c => c.accs.vals.map (fun a => (c, a)))

/-- Bytes of records in a cluster's accum share, and in a spill extent. -/
def State.accumUsed (s : State) (cl : Nat) : Nat :=
  s.allAccs.foldl (fun t r => if r.2.spill.isNone ∧ owCluster (ownerOf r.1 r.2.owner) = cl then t + accBytes r.1.desc else t) 0

def State.spillUsed (s : State) (e : Nat) : Nat :=
  s.allAccs.foldl (fun t r => if r.2.spill = some e then t + accBytes r.1.desc else t) 0

/-- A spill extent of a die with room for a record. -/
def State.spillRoom (s : State) (d n : Nat) : Option Nat :=
  ((List.range 16).filter (fun k => s.on R.CLT_SPILL_valid [d, k])).map (fun k => s.rd R.CLT_SPILL_extent [d, k]) |>.find?
    (fun e => decide (s.spillUsed e + n ≤ 2 ^ 26))

/-- Show how many records live (CLT_COLL_STATUS.live, CMP_CLUSTER_STATUS.accums). -/
def State.tally (s : State) : State :=
  let s := s.clt.colls.entries.foldl (fun t e => t.wr R.CLT_COLL_STATUS_live e.1 e.2.accs.size) s
  (List.range 16).foldl (fun t c => t.wr R.CMP_CLUSTER_STATUS_accums [c]
    (t.allAccs.filter (fun r => decide (r.2.spill.isNone ∧ owCluster (ownerOf r.1 r.2.owner) = c))).length) s

/-- Allocate the record of a chunk: in the owner cluster's share while it serves, else in spill memory. -/
def State.allocAcc (slot k chunk shard : Nat) (c : Coll) (s : State) : Option State :=
  let cl := owCluster (ownerOf c k)
  let d := dieOfCluster cl
  let a : Accum := { owner := k, bits := 2 ^ shard, open_ := 1 }
  if s.clusterUp cl ∧ s.accumUsed cl + accBytes c.desc ≤ 262144 * s.rd R.CMP_CSRAM_CFG_accum [cl] then
    some (s.modColl slot (fun c => { c with accs := c.accs.set [chunk] a }))
  else match s.spillRoom d (accBytes c.desc) with
    | some e =>
      let t := if c.spilled then s else s.event B.clt 3
      some ((t.modColl slot (fun c => { c with spilled := true, accs := c.accs.set [chunk] { a with spill := some e } })).countClt d 6)
    | none => none

/-! ### Results and completions (R337, R345, R346) -/

/-- Recipients: 0 is the multicast set, 1 + m member m (R335). -/
def resultTo (c : Coll) (chunk : Nat) : Option Nat :=
  match coOp c.desc with
  | 1 => if coMembers c.desc = 0 then none else some (1 + chunk / ceilDiv (coChunks c.desc) (coMembers c.desc))
  | 3 => none
  | _ => if coMcast c.desc = 0xFFFF then none else some 0

def doneTo (c : Coll) : List Nat :=
  if coOp c.desc = 1 then c.members.keys.map (fun k => 1 + k.headD 0)
  else if coMcast c.desc = 0xFFFF then [] else [0]

/-- The endpoint identifier of a recipient; none for a member that has no entry. -/
def State.recipient (s : State) (c : Coll) (r : Nat) : Option Nat :=
  if r = 0 then some (coMcast c.desc)
  else (c.members.get? [r - 1]).map (fun m => if mbCore m then s.eid else mbEid m)

/-- A message of the collective unit for owner `k`. -/
def State.collMsg (s : State) (c : Coll) (k ty dst len body : Nat) (st : Status) : Msg :=
  { chan := Ch.rsp, tc := 0, dst := dst, src := s.eid, ty := ty, mapGen := s.mapGen, status := st.code, len := len,
    die := dieOfOwner c k, tenant := coTenant c.desc, body := body }

/-- Send the result of a chunk, its elements given as bits of out_type (R345). -/
def State.sendResult (slot k chunk data : Nat) (st : Status) (s : State) : State :=
  match s.clt.colls.get? [slot] with
  | none => s
  | some c =>
    let x := c.desc
    let head := layout [(0, 0, 32, fieldOf x 0 0 32), (4, 0, 32, c.step), (8, 0, 16, chunk), (8, 16, 16, k)]
    let n := coLen x * tyBytes (coOut x)
    match resultTo c chunk with
    | none => s
    | some r =>
      match s.recipient c r with
      | none => s
      | some dst =>
        let m :=
          if coded (coOut x) then
            s.collMsg c k 0x99 dst (32 + n)
              (head + codecHeader (owOut (ownerOf c k)) 0 (coOut x) 0 (c.step % 4096 * 2 ^ 20 + chunk * 16) (coBlocks x) 256 0
                <<< 128 + data <<< 256) st
          else s.collMsg c k 0x9A dst (16 + n) (head + data <<< 128) st
        ((s.send (dieOfOwner c k) m).countClt (dieOfOwner c k) 5).modOwned slot k (fun o =>
          { o with results := o.results.set [r] (o.results.get 0 [r] + 1) })

/-- CL_DONE to each recipient of an owner (R346). -/
def State.sendDone_ (slot k : Nat) (s : State) : State :=
  match s.clt.colls.get? [slot] with
  | none => s
  | some c =>
    let o := c.owned k
    (doneTo c).foldl (fun t r =>
      match t.recipient c r with
      | none => t
      | some dst => t.send (dieOfOwner c k) (t.collMsg c k 0x9B dst 24
          (layout [(0, 0, 32, fieldOf c.desc 0 0 32), (4, 0, 32, c.step), (8, 0, 16, k), (12, 0, 32, o.results.get 0 [r]),
            (16, 0, 32, o.updated)]) o.worst)) s

/-- The step ends at this part once every owner here has ended it (R340, R346). -/
def State.stepGo (slot : Nat) (s : State) : State :=
  match s.clt.colls.get? [slot] with
  | none => s
  | some c =>
    let here := s.ownHere c
    if ¬ s.running slot then s
    else if here.any (fun e => !(c.owned e.1).ended) then
      if here.any (fun e => (c.owned e.1).ended) then s.wr R.CLT_COLL_STATUS_state [slot] Cl.ending else s
    else
      let st := here.foldl (fun a e => Status.join a (c.owned e.1).worst) Status.ok
      let s := (s.wr R.CLT_COLL_STATUS_last_status [slot] st.code).wr R.CLT_COLL_STATUS_state [slot] Cl.idle
      let s := s.modColl slot (fun c => { c with last := some c.step, accs := Map.empty, groups := Map.empty })
      let s := s.event B.clt 0
      let s := match c.next with
        | none => s
        | some (_, b) =>
          let t := (s.wr R.CLT_COLL_STATUS_state [slot] Cl.scheduled).wr R.CLT_COLL_STATUS_beat [slot] (launchBeat b s.beat)
          if ahead b s.beat then t else t.late.event B.clt 2
      s.tally

/-- An owner ends its step when every chunk of its range is delivered or failed. -/
def State.ownerGo (slot k : Nat) (s : State) : State :=
  match s.clt.colls.get? [slot] with
  | none => s
  | some c =>
    let o := c.owned k
    if ¬ s.running slot ∨ o.ended ∨ (ownedChunks c.desc k).any (fun i => !o.finished.has [i]) then s
    else
      let s := (s.sendDone_ slot k).modOwned slot k (fun o => { o with ended := true })
      (if o.worst = .ok then s else s.countClt (dieOfOwner c k) 10).stepGo slot

/-- A chunk is delivered. -/
def State.finishChunk (slot k chunk : Nat) (st : Status) (s : State) : State :=
  (s.modColl slot (fun c => { c with accs := c.accs.erase [chunk] })).modOwned slot k (fun o =>
    { o with finished := o.finished.set [chunk] (), worst := Status.join o.worst st })

/-- A chunk fails: no result is sent, and the first one is held (R347, R353). -/
def State.failChunk (slot k chunk : Nat) (st : Status) (s : State) : State :=
  match s.clt.colls.get? [slot] with
  | none => s
  | some c =>
    if (c.owned k).finished.has [chunk] then s
    else
      let s := if bitAt (s.rd R.CLT_EVT_events []) 1 then s else
        (((s.wr R.CLT_FAIL_INFO_slot [] slot).wr R.CLT_FAIL_INFO_status [] st.code).wr R.CLT_FAIL_INFO_chunk [] chunk).wr
          R.CLT_FAIL_INFO_step [] c.step
      (s.event B.clt 1).finishChunk slot k chunk st

/-! ### Reduce-update (R350 to R352) -/

/-- Group of a chunk, chunks of a group. -/
def groupOf (x k chunk : Nat) : Nat := (chunk - k * coPer x) / coBatch x

def groupChunks (x k g : Nat) : List Nat := (ownedChunks x k).filter (fun i => decide (groupOf x k i = g))

/-- Every shard of a chunk has been summed. -/
def Accum.complete (a : Accum) (x : Nat) : Bool := a.open_ = 0 && decide (popcount 1024 a.bits = coShards x)

/-- Local address of the outputs of a group's work area. -/
def outputsAt (x : Nat) : Nat := coSpm x + 4 * coLen x * coBatch x + 256

/-- Update tasks outstanding on a core. -/
def State.updating (s : State) (n : Nat) : Bool :=
  s.clt.colls.vals.any (fun c => c.groups.vals.any (fun g => decide (g.core = n)))

/-- The read copy of a chunk's state, and its write copy (R351). -/
def stateCopy (x step chunk : Nat) (write : Bool) : Nat :=
  coState x + chunk * coStride x + (if coTwo x then ((step + b2n write) % 2) * coCopy x else 0)

/-- Dispatch a group: the sums and parameters to a core's work area, its counter to 0, a task pushed (R350). -/
def State.dispatchGroup (slot k g n params : Nat) (c : Coll) (s : State) : State :=
  let x := c.desc
  let chunks := groupChunks x k g
  let first := chunks.headD 0
  let s := (chunks.mapIdx (fun j i => (j, i))).foldl (fun t e =>
    t.poke n (coSpm x + 4 * coLen x * e.1) (4 * coLen x) (packElems 32 (c.accs.get { owner := k } [e.2]).elems)) s
  let s := s.poke n (coSpm x + 4 * coLen x * coBatch x) 32 params
  let now := s.now
  let s := s.modCore n (fun q => { q with ctr := q.ctr.set [coCtr x] (0, .ok) })
  let s := s.modColl slot (fun c => { c with groups := c.groups.set [k, g] { core := n, since := now } })
  let desc := layout [(0, 0, 32, coEntry x), (4, 0, 8, coImage x), (4, 10, 5, coTenant x), (4, 15, 1, 1), (4, 16, 7, n),
    (4, 23, 6, coCtr x), (16, 0, 64, coSpm x), (24, 0, 64, stateCopy x c.step first false),
    (32, 0, 64, coSpm x + 4 * coLen x * coBatch x), (40, 0, 64, outputsAt x), (48, 0, 64, chunks.length),
    (56, 0, 64, stateCopy x c.step first true)]
  ((s.agentPush (n / 8) (some n) desc).2).countClt (dieOfOwner c k) 8

/-- The core an update goes to: without one outstanding, with the fewest deque entries. -/
def State.updateCore (s : State) (cl : Nat) : Option Nat :=
  argMin (fun n => (s.core n).deque.length) ((coresOf cl).filter (fun n => !s.updating n))

/-- Groups of an owner that may be dispatched. -/
def readyGroups (c : Coll) (k : Nat) : List Nat :=
  (List.range (ceilDiv (ownedChunks c.desc k).length (max 1 (coBatch c.desc)))).filter (fun g =>
    !c.groups.has [k, g] && (groupChunks c.desc k g).all (fun i =>
      ((c.accs.get? [i]).map (fun a => a.complete c.desc)).getD false))

/-- Dispatch what may be dispatched for a collective. -/
def State.updateGo (slot : Nat) (s : State) : State :=
  match s.clt.colls.get? [slot] with
  | none => s
  | some c =>
    if ¬ coUpdate c.desc ∨ ¬ s.running slot then s
    else (s.ownHere c).foldl (fun t e =>
      match (c.owned e.1).params with
      | none => t
      | some p => (readyGroups c e.1).foldl (fun u g =>
          match u.updateCore (owCluster e.2), u.clt.colls.get? [slot] with
          | some n, some c' => u.dispatchGroup slot e.1 g n p c'
          | _, _ => u) t) s

/-- A core has become free: any collective may have a group that waits for it. -/
def State.updateAll (s : State) : State :=
  s.clt.colls.keys.foldl (fun t k => t.updateGo (k.headD 0)) s

/-- A group fails (R352, R353). -/
def State.failGroup (slot k g : Nat) (st : Status) (s : State) : State :=
  match s.clt.colls.get? [slot] with
  | none => s
  | some c =>
    let s := s.modColl slot (fun c => { c with groups := c.groups.erase [k, g] })
    (groupChunks c.desc k g).foldl (fun t i => t.failChunk slot k i st) s

/-- A failing chunk takes its update group with it, whose task can no longer be formed. -/
def State.failWith (slot k chunk : Nat) (st : Status) (s : State) : State :=
  match s.clt.colls.get? [slot] with
  | some c => if coUpdate c.desc then s.failGroup slot k (groupOf c.desc k chunk) st else s.failChunk slot k chunk st
  | none => s

/-- R352: update_ctr has reached 1. -/
def execUpdateDone (slot owner group : Nat) (s : State) : Host.Outcome State Fault Refusal :=
  serving s (
    match s.clt.colls.get? [slot] with
    | none => s
    | some c =>
      match c.groups.get? [owner, group] with
      | none => s
      | some g =>
        let ctr := (s.core g.core).counter (coCtr c.desc)
        if ctr.1 ≠ 1 ∨ ¬ s.running slot then s
        else if ctr.2 ≠ .ok then
          ((((s.countClt (dieOfOwner c owner) 9).failGroup slot owner group .timeout).ownerGo slot owner).tally).updateAll
        else
          let x := c.desc
          let n := coLen x * tyBytes (coOut x)
          let chunks := groupChunks x owner group
          let s := s.modColl slot (fun c => { c with groups := c.groups.erase [owner, group] })
          let s := (chunks.mapIdx (fun j i => (j, i))).foldl (fun t e =>
            (t.sendResult slot owner e.2 (t.peek g.core (outputsAt x + n * e.1) n) .ok).finishChunk slot owner e.2 .ok) s
          (((s.modOwned slot owner (fun o => { o with updated := o.updated + chunks.length })).ownerGo slot owner).tally).updateAll)

/-- R352: update_timeout has passed first. -/
def execUpdateTimeout (slot owner group : Nat) (s : State) : Host.Outcome State Fault Refusal :=
  serving s (
    match s.clt.colls.get? [slot] with
    | none => s
    | some c =>
      match c.groups.get? [owner, group] with
      | none => s
      | some g =>
        if s.now < g.since + 1000 * coLimit c.desc ∨ ¬ s.running slot then s
        else
          let s := ((s.event B.clt 5).countClt (dieOfOwner c owner) 9).failGroup slot owner group .timeout
          ((s.ownerGo slot owner).tally).updateAll)

/-- The parameter block has been read (R350, R353). -/
def State.paramsDone (slot k step : Nat) (st : Status) (data : Nat) (s : State) : State :=
  match s.clt.colls.get? [slot] with
  | none => s
  | some c =>
    if c.step ≠ step ∨ ¬ s.running slot then s
    else if st = .ok then (s.modOwned slot k (fun o => { o with params := some data })).updateGo slot
    else (((ownedChunks c.desc k).foldl (fun t i => t.failChunk slot k i st) s).ownerGo slot k).tally

/-! ### Accumulation (R343, R344) -/

/-- The accumulator's element of an element of type `t` (R344): FP32 for a float, s32 otherwise. -/
def toAccum (t x : Nat) : Nat := if t = 9 then x % 2 ^ 32 else (convert t 3 false x).1

/-- One combination of R344. -/
def reduceStep (redop inType a b : Nat) : Nat :=
  if inType = 9 then
    match redop with
    | 0 => (a + b) % 2 ^ 32
    | 1 => if signedOf 32 a < signedOf 32 b then b else a
    | 2 => if signedOf 32 b < signedOf 32 a then b else a
    | 3 => a &&& b
    | _ => a ||| b
  else match redop with
    | 0 => fp32.add a b
    | 1 => fp32.encode false (FV.pick true (fp32.decode a) (fp32.decode b))
    | _ => fp32.encode false (FV.pick false (fp32.decode a) (fp32.decode b))

/-- The status spill memory gives a record whose extent has been lost (R353). -/
def State.spillStatus (s : State) (a : Accum) : Status :=
  match a.spill with
  | some e => if (s.ext s.node e).state = .internal then .ok else .nodeLost
  | none => .ok

/-- A chunk is complete: its result goes out, or it waits for its group (R345, R350). -/
def State.chunkDone (slot chunk : Nat) (c : Coll) (a : Accum) (s : State) : State :=
  let x := c.desc
  let k := a.owner
  let s := s.countClt (dieOfOwner c k) 4
  if s.spillStatus a ≠ .ok then (s.failWith slot k chunk (s.spillStatus a)).ownerGo slot k
  else if coUpdate x then s.updateGo slot
  else
    let st := if a.bad then Status.decodeError else .ok
    let out := a.elems.map (fun v => (convert (if coIn x = 9 then 9 else 3) (coOut x) (coSat x) v).1)
    ((s.sendResult slot k chunk (packElems (tyBits (coOut x)) out) st).finishChunk slot k chunk st).ownerGo slot k

/-- A contribution's elements are summed (R344). -/
def State.sumInto (slot chunk : Nat) (elems : List Nat) (t : Nat) (bad : Bool) (s : State) : State :=
  match s.clt.colls.get? [slot] with
  | none => s
  | some c =>
    match c.accs.get? [chunk] with
    | none => s
    | some a =>
      let x := c.desc
      let v := elems.map (toAccum t)
      let a := { a with
        elems := if a.elems = [] then v else List.zipWith (reduceStep (coRedop x) (coIn x)) a.elems v,
        open_ := a.open_ - 1, bad := a.bad || bad }
      let d := dieOfOwner c a.owner
      let s := (s.modColl slot (fun c => { c with accs := c.accs.set [chunk] a })).countClt d 0
      let s := if a.spill.isSome then s.countClt d 7 else s
      (if a.complete x then s.chunkDone slot chunk c a else s).tally

/-! ### Classification (R331, R336 to R338, R342) -/

/-- A contribution's codec header is the one R337 lays down. -/
def codedShape (c : Coll) (k : Nat) (m : Msg) : Bool :=
  let x := c.desc
  coded (coIn x) && m.ty = 0x90 && wellSized m && decide (cSrc m = coIn x ∧ cBlocks m = coBlocks x ∧ cLast m = 256 ∧
    cStream m = owIn (ownerOf c k) ∧ cFirst m = m.f 4 0 32 % 4096 * 2 ^ 20 + m.f 8 0 16 * 16 ∧
    cUser m = m.f 8 16 16 + (m.f 0 0 12) * 2 ^ 16) && (!m.compressed || coRedop x = 0)

def plainShape (x : Nat) (m : Msg) : Bool :=
  !coded (coIn x) && m.ty = 0x91 && !m.compressed && m.len = 16 + coLen x * tyBytes (coIn x)

/-- The step's place against the open step (R342): o is the open step or the last that ended. A collective that has run no
step has none. -/
def State.openStep (s : State) (slot : Nat) (c : Coll) : Option Nat := if s.running slot then some c.step else c.last

/-- What the unit decides about a contribution: its status, and whether it is summed (R338). -/
def State.judge (m : Msg) (s : State) : (Status × Bool) × State :=
  match s.collOf (m.f 0 0 32) with
  | none => ((.unsupported, false), s)
  | some (slot, c) =>
    let x := c.desc
    let chunk := m.f 8 0 16
    let shard := m.f 8 16 16
    let k := chunk / coPer x
    let d := dieOfOwner c k
    if coChunks x ≤ chunk ∨ ¬ c.owners.has [k] ∨ owEid (ownerOf c k) ≠ s.eid ∨ coShards x ≤ shard ∨
        ¬ (codedShape c k m ∨ plainShape x m) then ((.unsupported, false), s)
    else if m.tenant ≠ coTenant x then ((.protViolation, false), s)
    else match s.openStep slot c with
      | none => ((.retry, false), s.countClt d 3)
      | some o =>
        let e := dist 32 (m.f 4 0 32) o
        if e = 1 then ((.retry, false), s.countClt d 3)
        else if e = 2 ^ 32 - 1 ∨ (e = 0 ∧ ¬ s.running slot) then ((.ok, false), s.countClt d 2)
        else if e ≠ 0 then ((.unsupported, false), s)
        else if (c.owned k).ended ∨ (c.owned k).finished.has [chunk] then ((.ok, false), s.countClt d 1)
        else
          let b := s.rd R.CLT_COLL_STATUS_beat [slot]
          let early := coPace x ≠ 0 ∧ ahead (b + (chunk - k * coPer x) / coPace x) (s.beatDie d)
          let s := if early then s.countClt d 11 else s
          match c.accs.get? [chunk] with
          | some a =>
            if bitAt a.bits shard then ((.ok, false), s.countClt d 1)
            else ((.ok, true), s.modColl slot (fun c => { c with
              accs := c.accs.set [chunk] { a with bits := a.bits + 2 ^ shard, open_ := a.open_ + 1 } }))
          | none =>
            match s.allocAcc slot k chunk shard c with
            | some t => ((.ok, true), t.tally)
            | none => ((.retry, false), (s.countClt d 3).event B.clt 4)

/-! ### Contributions (R336 to R338) -/

/-- The first expanded message of a ring that has not been taken whole. -/
def State.frontOf (s : State) (m : Msg) : Option Expansion :=
  match s.cdc.work.find? (fun e => decide (e.msg = m)) with
  | some e => if s.cdc.work.find? (fun x => decide (x.core = e.core ∧ x.handle = e.handle)) = some e then some e else none
  | none => none

/-- Replace the first entry that equals `e`. -/
def replaceFirst (e : Expansion) (f : Option Expansion) : List Expansion → List Expansion
  | [] => []
  | x :: t => if x = e then (match f with
      | some y => y :: t
      | none => t) else x :: replaceFirst e f t

/-- The elements of a slot of the ring, and whether its tag carries an error. -/
def State.takeSlot (s : State) (e : Expansion) (h : Handle) : List Nat × Bool :=
  let x := s.peek e.core (h.at_ h.c) e.bytes
  let tag := s.peek e.core (e.tagBase + 16 * (h.c % h.slots)) 16
  let w := e.bytes / 32
  ((List.range (bitsOf tag 52 9)).map (fun i => bitsOf x (w * i) w), bitsOf tag 48 4 ≠ 0)

/-- Take the blocks of a message that stand in its ring; their slots are released (R325, R337). -/
def State.takeBlocks : Nat → Expansion → State → Expansion × State
  | 0, e, s => (e, s)
  | n + 1, e, s =>
    match (s.core e.core).handles.get? [e.handle] with
    | some h =>
      if e.written ≤ e.taken ∨ h.full = 0 then (e, s)
      else
        let r := s.takeSlot e h
        State.takeBlocks n { e with taken := e.taken + 1, elems := e.elems ++ r.1, bad := e.bad || r.2 }
          ((s.setHandle e.core e.handle { h with c := (h.c + 1) % 2 ^ 32 }).settleHandle e.core e.handle)
    | none => (e, s)

/-- The collective unit takes what it can of an expanded message; the entry comes back with what it holds now. -/
def State.absorb (e : Expansion) (s : State) : Expansion × State :=
  let r := State.takeBlocks (e.written - e.taken) e s
  (r.1, { r.2 with cdc := { r.2.cdc with work := replaceFirst e (some r.1) r.2.cdc.work } })

/-- Every block of a message has been written and taken. -/
def Expansion.whole (e : Expansion) : Bool := e.blocks.isEmpty && e.taken = e.written

def State.doneWith (e : Expansion) (s : State) : State :=
  { s with cdc := { s.cdc with work := replaceFirst e none s.cdc.work } }

/-- R343: a contribution that has been expanded. -/
def execClContrib (d : Nat) (m : Msg) (s : State) : Host.Outcome State Fault Refusal :=
  serving s (
    if m.ty ≠ 0x90 then s
    else match s.frontOf m with
      | none => s
      | some e =>
        let j : (Status × Bool) × State := match e.verdict with
          | some v => (v, s)
          | none => s.judge m
        let e' : Expansion := { e with verdict := some j.1 }
        let s : State := { j.2 with cdc := { j.2.cdc with work := replaceFirst e (some e') j.2.cdc.work } }
        let r := s.absorb e'
        if ¬ r.1.whole then r.2
        else
          let s := r.2.doneWith r.1
          let st := if r.1.bad ∧ j.1.1 = .ok then Status.decodeError else j.1.1
          let s := s.answer d m st 0 none
          if j.1.2 then s.sumInto (m.f 0 0 12) (m.f 8 0 16) r.1.elems r.1.out r.1.bad else s)

/-- R343. -/
def execClContribPlain (d : Nat) (m : Msg) (s : State) : Host.Outcome State Fault Refusal :=
  serving s (
    if m.ty ≠ 0x91 then s
    else
      let j := (s.consume d m).judge m
      let s := j.2.answer d m j.1.1 0 none
      match s.collOf (m.f 0 0 32) with
      | none => s
      | some (slot, c) =>
        let w := tyBits (coIn c.desc)
        if j.1.2 then s.sumInto slot (m.f 8 0 16) ((List.range (coLen c.desc)).map (fun i => m.f 16 (w * i) w)) (coIn c.desc) false
        else s)

/-! ### Delivery to core members (R335) -/

/-- The core members a result of a chunk goes to: with REDUCE_SCATTER the one whose share it is. -/
def coreMembers (c : Coll) (chunk : Option Nat) : List Nat :=
  (c.members.entries.filter (fun e => mbCore e.2 && (match chunk with
    | some i => coOp c.desc ≠ 1 || resultTo c i = some (1 + e.1.headD 0)
    | none => true))).map (·.2)

/-- Those whose ring can take a result. -/
def State.takers (s : State) (c : Coll) (chunk : Nat) : List (Nat × Handle) :=
  (coreMembers c (some chunk)).filterMap (fun m =>
    match (s.core (mbN m)).handles.get? [mbHandle m] with
    | some h => if h.producer = 3 ∧ coLen c.desc * tyBytes (coOut c.desc) ≤ h.slot then some (m, h) else none
    | none => none)

/-- Deliver a result's elements, once every ring has room (R234, R235). -/
def State.deliverResult (c : Coll) (chunk data : Nat) (s : State) : Option State :=
  let l := s.takers c chunk
  if l.all (fun e => decide (e.2.full < e.2.slots)) then
    let lost := (coreMembers c (some chunk)).filter (fun m => !(s.core (mbN m)).handles.has [mbHandle m])
    let t := lost.foldl (fun t m => t.discard (mbN m) 1) s
    some (l.foldl (fun t e => t.produce (mbN e.1) (mbHandle e.1) (coLen c.desc * tyBytes (coOut c.desc)) data) t)
  else none

/-- R335. -/
def execClResult (_d : Nat) (m : Msg) (s : State) : Host.Outcome State Fault Refusal :=
  serving s (
    if m.ty ≠ 0x99 then s
    else match s.frontOf m with
      | none => s
      | some e =>
        let r := s.absorb e
        if ¬ r.1.whole then r.2
        else match r.2.collOf (m.f 0 0 32) with
          | none => r.2.doneWith r.1
          | some (_, c) =>
            let o := coOut c.desc
            let data := packElems (tyBits o) (r.1.elems.map (fun v => (convert r.1.out o true v).1))
            match (r.2.doneWith r.1).deliverResult c (m.f 8 0 16) data with
            | some t => t
            | none => r.2)

/-- R335. -/
def execClResultPlain (d : Nat) (m : Msg) (s : State) : Host.Outcome State Fault Refusal :=
  serving s (
    if m.ty ≠ 0x9A then s
    else match s.collOf (m.f 0 0 32) with
      | none => s.consume d m
      | some (_, c) =>
        match (s.consume d m).deliverResult c (m.f 8 0 16) (bitsOf m.body 128 (8 * (m.len - 16))) with
        | some t => t
        | none => s)

/-- R335. -/
def execClDone (d : Nat) (m : Msg) (s : State) : Host.Outcome State Fault Refusal :=
  serving s (
    if m.ty ≠ 0x9B then s
    else
      let s := s.consume d m
      match s.collOf (m.f 0 0 32) with
      | none => s
      | some (_, c) => (coreMembers c none).foldl (fun t e => t.increment (mbN e) (mbCtr e) 1 (Status.ofCode m.status)) s)

/-! ### Steps (R340, R347) -/

/-- Launches by beat are refused in these time states (R50). -/
def State.noLaunch (s : State) : Bool := s.timeless || s.tst = Ts.lost

/-- R340: the launch beat has come. -/
def execStepOpen (slot : Nat) (s : State) : Host.Outcome State Fault Refusal :=
  serving s (
    match s.clt.colls.get? [slot] with
    | none => s
    | some c =>
      match c.next with
      | none => s
      | some (step, b) =>
        if s.clst slot ≠ Cl.scheduled ∨ ahead (s.rd R.CLT_COLL_STATUS_beat [slot]) s.beat then s
        else
          let s := (s.wr R.CLT_COLL_STATUS_state [slot] Cl.open_).wr R.CLT_COLL_STATUS_step [slot] step
          let p := coPeriod c.desc
          let s := s.modColl slot (fun c => { c with
            step := step, own := Map.empty, accs := Map.empty, groups := Map.empty, spilled := false,
            next := if p = 0 then none else some ((step + 1) % 2 ^ 32, (b + p) % 2 ^ 32) })
          let here := s.ownHere c
          let s := if ¬ coUpdate c.desc then s else here.foldl (fun t e =>
            let d := dieOfOwner c e.1
            let a := coParams c.desc
            t.issue d (.collective d) (.params slot e.1 step)
              { t.request 0x10 (t.homeOf a) a 32 (coTenant c.desc) 0 (t.homeDie a) false 0 false 0 0 with die := d }) s
          (here.foldl (fun t e => t.ownerGo slot e.1) s).stepGo slot)

/-- R347: at launch plus timeout. -/
def execStepTimeout (slot : Nat) (s : State) : Host.Outcome State Fault Refusal :=
  serving s (
    match s.clt.colls.get? [slot] with
    | none => s
    | some c =>
      if ¬ s.running slot ∨ ahead (s.rd R.CLT_COLL_STATUS_beat [slot] + coTimeout c.desc) s.beat then s
      else
        let s := (s.ownHere c).foldl (fun t e =>
          let bad := (ownedChunks c.desc e.1).filter (fun i => !((c.accs.get? [i]).map (fun a => a.complete c.desc)).getD false)
          (bad.foldl (fun u i => if (c.owned e.1).finished.has [i] then u else u.failWith slot e.1 i .timeout) t).ownerGo slot e.1) s
        s.tally)

/-! ### Commands (R333 to R335, R340, R354) -/

def State.cltStage (s : State) (fn n : Nat) : Nat :=
  (List.range n).foldl (fun a k => a + s.rd R.CLT_CMD_STAGE_word [k, fn] <<< (64 * k)) 0

def State.cltResult (fn : Nat) (st : Status) (s : State) : State :=
  let s := (s.wr R.CLT_CMD_RESULT_status [fn] st.code).wr R.CLT_CMD_RESULT_busy [fn] 0
  if st = .ok then s else s.event B.clt 6

/-- A command of a function (R435, R443). -/
def State.cltCommand (fn : Nat) (f : State → Status × State) (s : State) : State :=
  if ¬ s.isReady B.clt then s.cltResult fn .retry
  else
    let r := f s
    r.2.cltResult fn r.1

/-- A command on an installed collective of the function's tenant. -/
def State.cltOn (fn slot : Nat) (f : Coll → State → Status × State) (s : State) : State :=
  s.cltCommand fn (fun s =>
    match s.clt.colls.get? [slot] with
    | none => (.unsupported, s)
    | some c => if mayAct fn (coTenant c.desc) then f c s else (.protViolation, s))

/-- A descriptor without reserved values that keeps the rules of R333. -/
def collOk (slot x : Nat) : Bool :=
  let up := coUpdate x
  let float := coIn x ≠ 9
  decide (fieldOf x 0 0 12 = slot ∧ coOp x ≤ 3 ∧ coRedop x ≤ 4 ∧ fieldOf x 4 23 9 = 0 ∧ fieldOf x 8 5 3 = 0 ∧
    fieldOf x 8 15 1 = 0 ∧ fieldOf x 12 11 1 = 0 ∧ fieldOf x 12 21 11 = 0 ∧ fieldOf x 28 18 14 = 0 ∧ fieldOf x 40 56 8 = 0 ∧
    fieldOf x 48 56 8 = 0 ∧ fieldOf x 66 0 496 = 0) &&
  coType (coIn x) && coType (coOut x) &&
  decide (1 ≤ coBlocks x ∧ coBlocks x ≤ 16 ∧ 1 ≤ coOwners x ∧ coOwners x ≤ 64 ∧ 1 ≤ coShards x ∧ coShards x ≤ 1024 ∧
    coMembers x ≤ 256 ∧ 0xF000 ≤ coMcast x ∧ 1 ≤ coTimeout x ∧ coTimeout x < 2 ^ 31) &&
  (if float then coRedop x ≤ 2 else true) &&
  (coOp x ≠ 2 || (coShards x = 1 && coRedop x = 0)) &&
  (coOp x ≠ 3 || (coIn x = 9 && coOut x = 9 && coRedop x = 4 && coBlocks x = 1 && coChunks x = 1)) &&
  (!up || (coOp x = 0 && coRedop x = 0 && float && decide (1 ≤ coBatch x ∧ coBatch x ≤ 8 ∧ coStride x % 128 = 0 ∧
    coParams x % 32 = 0 ∧ 1 ≤ coLimit x))) &&
  (coOp x = 3 || coded (coOut x) || chunkFits (coOut x) (coLen x))

/-- R333. -/
def State.collectiveCreate (fn slot : Nat) (s : State) : State :=
  s.cltCommand fn (fun s =>
    let x := s.cltStage fn 16
    if ¬ collOk slot x then (.unsupported, s)
    else if ¬ mayAct fn (coTenant x) ∨ ¬ s.tenantActive (coTenant x) then (.protViolation, s)
    else if s.clt.colls.has [slot] ∨ ((s.clt.freed.get? [slot]).map (fun t => decide (s.now < t + 1000000))).getD false then
      (.retry, s)
    else
      let s := ((s.wr R.CLT_COLL_STATUS_state [slot] Cl.idle).wr R.CLT_COLL_STATUS_tenant [slot] (coTenant x)).wr
        R.CLT_COLL_STATUS_tag [slot] (fieldOf x 0 12 20)
      (.ok, { s with clt := { s.clt with colls := s.clt.colls.set [slot] { desc := x } } }))

/-- R333. -/
def execCollectiveCreate (fn slot : Nat) (s : State) : Host.Outcome State Fault Refusal :=
  hosted s (fun s => s.collectiveCreate fn slot)

/-- The handle OWNER binds: a slot holds one expanded block (R334). -/
def ownerHandle (x out : Nat) : Handle :=
  { base := owRing x, slotLog2 := if out = 4 then 1 else 2, producer := 1, slotsLog2 := owSlots x }

/-- The checks of OWNER on the part it names (R334, R350). -/
def State.ownerOk (s : State) (c : Coll) (x : Nat) : Bool :=
  let cl := owCluster x
  let d := dieOfCluster cl
  let y := c.desc
  let i := s.streamAt d (owIn x)
  let o := s.streamAt d (owOut x)
  let h := ownerHandle x (Stream.out i)
  s.clusterUp cl && s.clusterTenant cl = coTenant y && Stream.valid i && Stream.tenant i = coTenant y &&
  (!coded (coIn y) || Stream.src i = coIn y) && (Stream.out i = 3 || (Stream.out i = 4 && coIn y = 4)) &&
  (owOut x = 0xFFF || (Stream.valid o && Stream.tenant o = coTenant y && Stream.src o = coOut y)) &&
  (owOut x ≠ 0xFFF || coOp y = 3 || chunkFits (coOut y) (coLen y)) &&
  h.base % 256 = 0 && (s.localAt (Stream.core i) h.base (h.slots * h.slot)).isSome &&
  (!coUpdate y || decide (outputsAt y + coLen y * tyBytes (coOut y) * coBatch y ≤ 2 ^ 21))

/-- R334. -/
def State.collectiveOwner (fn slot index : Nat) (s : State) : State :=
  s.cltOn fn slot (fun c s =>
    let x := s.cltStage fn 2
    let i := s.streamAt (dieOfCluster (owCluster x)) (owIn x)
    if coOwners c.desc ≤ index ∨ fieldOf x 4 12 20 ≠ 0 ∨ fieldOf x 12 5 27 ≠ 0 ∨ 16 < owSlots x then (.unsupported, s)
    else
      let put (c : Coll) : Coll := { c with owners := c.owners.set [index] x }
      if owEid x ≠ s.eid then (.ok, s.modColl slot put)
      else if ¬ s.ownerOk c x then (.unsupported, s)
      else if (s.core (Stream.core i)).handles.has [Stream.handle i] then (.retry, s)
      else
        let b := (Stream.core i, Stream.handle i)
        (.ok, (s.setHandle b.1 b.2 (ownerHandle x (Stream.out i))).modColl slot (fun c =>
          { put c with bound := c.bound ++ [b] })))

/-- R334. -/
def execOwner (fn slot index : Nat) (s : State) : Host.Outcome State Fault Refusal :=
  hosted s (fun s => s.collectiveOwner fn slot index)

/-- An endpoint member at this part's edge without a capability its collective needs (R333). -/
def State.memberLacks (s : State) (c : Coll) (x : Nat) : Bool :=
  !mbCore x && (List.range 256).any (fun p => s.isEdge p && s.partnerEid p = mbEid x &&
    ((coPace c.desc ≠ 0 && !s.on R.PRT_PORT_STATUS_partner_time [p]) ||
     (coOp c.desc ≠ 3 && coded (coOut c.desc) && !chunkFits (coOut c.desc) (coLen c.desc) &&
      !s.on R.PRT_PORT_STATUS_partner_codec [p])))

/-- R335. -/
def State.collectiveMember (fn slot index : Nat) (s : State) : State :=
  s.cltOn fn slot (fun c s =>
    let x := s.cltStage fn 1
    if coMembers c.desc ≤ index ∨ x >>> 34 ≠ 0 ∨ s.memberLacks c x then (.unsupported, s)
    else (.ok, s.modColl slot (fun c => { c with members := c.members.set [index] x })))

/-- R335. -/
def execMember (fn slot index : Nat) (s : State) : Host.Outcome State Fault Refusal :=
  hosted s (fun s => s.collectiveMember fn slot index)

/-- R340. -/
def State.collStep (fn slot : Nat) (s : State) : State :=
  s.cltOn fn slot (fun c s =>
    let x := s.cltStage fn 1
    let b := bitsOf x 32 32
    if s.clst slot ≠ Cl.idle ∨ s.noLaunch ∨ (s.ownHere c).any (fun e => s.cst (owCluster e.2) = Cs.offlining) then (.retry, s)
    else
      let t := if ahead b s.beat then s else s.late.event B.clt 2
      let t := (t.wr R.CLT_COLL_STATUS_state [slot] Cl.scheduled).wr R.CLT_COLL_STATUS_beat [slot] (launchBeat b s.beat)
      (.ok, t.modColl slot (fun c => { c with next := some (bitsOf x 0 32, b) })))

/-- R340. -/
def execCollStep (fn slot : Nat) (s : State) : Host.Outcome State Fault Refusal :=
  hosted s (fun s => s.collStep fn slot)

/-- R354. -/
def State.collectiveDestroy (fn slot : Nat) (s : State) : State :=
  s.cltOn fn slot (fun c s =>
    if s.clst slot ≠ Cl.idle then (.retry, s)
    else
      let s := c.bound.foldl (fun t b => t.unbind b.1 b.2) s
      let s := (((s.wr R.CLT_COLL_STATUS_state [slot] 0).wr R.CLT_COLL_STATUS_tenant [slot] 0).wr
        R.CLT_COLL_STATUS_tag [slot] 0).wr R.CLT_COLL_STATUS_live [slot] 0
      (.ok, { s with clt := { s.clt with colls := s.clt.colls.erase [slot], freed := s.clt.freed.set [slot] s.now } }))

/-- R354. -/
def execCollectiveDestroy (fn slot : Nat) (s : State) : Host.Outcome State Fault Refusal :=
  hosted s (fun s => s.collectiveDestroy fn slot)

/-! ### Cluster events (R349) -/

/-- A cluster goes offline: its live records move to spill memory while there is room. -/
def State.collOffline (cl : Nat) (s : State) : State :=
  let s := s.clt.colls.entries.foldl (fun t e =>
    e.2.accs.entries.foldl (fun u a =>
      if a.2.spill.isNone ∧ owCluster (ownerOf e.2 a.2.owner) = cl then
        match u.spillRoom (dieOfCluster cl) (accBytes e.2.desc) with
        | some x =>
          let u := if e.2.spilled then u else u.event B.clt 3
          (u.modColl (e.1.headD 0) (fun c => { c with spilled := true, accs := c.accs.set a.1 { a.2 with spill := some x } })).countClt
            (dieOfCluster cl) 6
        | none => u
      else u) t) s
  s.tally

/-- A cluster has failed: what its owners have not delivered fails with NODE_LOST. -/
def State.collFailed (cl : Nat) (s : State) : State :=
  let s := s.clt.colls.entries.foldl (fun t e =>
    if ¬ t.running (e.1.headD 0) then t
    else (t.ownHere e.2).foldl (fun u o =>
      if owCluster o.2 = cl then
        ((ownedChunks e.2.desc o.1).foldl (fun v i => v.failChunk (e.1.headD 0) o.1 i .nodeLost)
          (u.modColl (e.1.headD 0) (fun c => { c with groups := c.groups.keep (fun k _ => decide (k.head? ≠ some o.1)) }))).ownerGo
          (e.1.headD 0) o.1
      else u) t) s
  s.tally

/-! ### ccontrib (R282, R338, R339) -/

/-- The step a core contributes to: the open one, else the next to open. -/
def State.stepToCome (s : State) (slot : Nat) (c : Coll) : Nat :=
  if s.running slot then c.step
  else match c.next, c.last with
    | some (x, _), _ => x
    | none, some l => (l + 1) % 2 ^ 32
    | none, none => 0

/-- A core's contribution as a message; none where the table here says that no owner would take it. -/
def State.coreContribution (s : State) (n id t len tc data : Nat) : Option Msg :=
  match s.collOf (bitsOf id 0 32) with
  | none => none
  | some (_, c) =>
    let x := c.desc
    let chunk := bitsOf id 32 16
    let shard := bitsOf id 48 16
    let k := chunk / coPer x
    let o := ownerOf c k
    if coChunks x ≤ chunk ∨ ¬ c.owners.has [k] ∨ coIn x ≠ t ∨ len ≠ coLen x * tyBytes t ∨ ¬ chunkFits t (coLen x) then none
    else
      let step := s.stepToCome (bitsOf id 0 12) c
      let head := layout [(0, 0, 32, bitsOf id 0 32), (4, 0, 32, step), (8, 0, 16, chunk), (8, 16, 16, shard)]
      let codec := codecHeader (owIn o) 0 t 0 (step % 4096 * 2 ^ 20 + chunk * 16) (coBlocks x) 256
        (shard + bitsOf id 0 12 * 2 ^ 16)
      some { chan := Ch.req, tc := tc, dst := owEid o, src := s.eid, ty := if coded t then 0x90 else 0x91, mapGen := s.mapGen,
             len := (if coded t then 32 else 16) + len, flow := n, die := dieOfCluster (owCluster o),
             tenant := dTenant ((s.core n).task.getD 0),
             body := if coded t then head + codec <<< 128 + data <<< 256 else head + data <<< 128 }

def execCcontrib (n : Nat) (w : BitVec 64) (s : State) : Host.Outcome State Fault Refusal :=
  serving s (s.issueAt n 0xE0 w (fun x s =>
    let k := s.core n
    let src := k.sr (fB x)
    let len := k.sr (fC x)
    if ¬ only x [mA, mB, mC, mCn, mGT, mTc, mCnen] ∨ gTc x = 7 ∨ gT x = 15 then .fault Fc.illegal
    else if len = 0 then .fault Fc.flen
    else if (s.localAt n src len).isNone then .fault Fc.range
    else
      let r := s.readLocal n src len
      match s.coreContribution n (k.sr (fA x)) (gT x) len (gTc x) r.1 with
      | some m => r.2.coreIssue n (.contribution n (gCounter x)) m s
      | none =>
        let t := s.flag n Fl.fabricErr
        .next (match gCounter x with
          | some cn => t.increment n cn 1 .unsupported
          | none => t)))

end Sys2Proof.Machine
end

