-- ==== Sys2Proof/Machine/Gather.lean ====
section
/-! DEFINITION. The gather and filter units: tables, the row cache, lookups, updates and filters (R355 to R376), and the
core's gissue (R283). -/

namespace Sys2Proof.Machine

/-! ### Tables (R355, R356) -/

def tbKv (x : Nat) : Bool := fieldOf x 4 0 1 = 1
def tbTenant (x : Nat) : Nat := fieldOf x 4 1 5
def tbDie (x : Nat) : Nat := fieldOf x 4 6 1
def tbImage (x : Nat) : Nat := fieldOf x 4 7 8
def tbCtr (x : Nat) : Nat := fieldOf x 4 15 6
def tbMask (x : Nat) : Nat := fieldOf x 4 21 8
def tbEntry (x : Nat) : Nat := fieldOf x 8 0 32
def tbSpm (x : Nat) : Nat := fieldOf x 12 0 32
def tbBytes (x : Nat) : Nat := fieldOf x 16 0 32
def tbLimit (x : Nat) : Nat := fieldOf x 20 0 16
def tbBase (x : Nat) : Nat := fieldOf x 24 0 56
def tbGen (x : Nat) : Nat := fieldOf x 32 0 32
def tbRows (x : Nat) : Nat := fieldOf x 36 0 32
/-- E of an EMBED table, D of a KV table. -/
def tbElems (x : Nat) : Nat := fieldOf x 40 0 13
/-- copy_offset, or block_bytes. -/
def tbCopy (x : Nat) : Nat := fieldOf x 44 0 32
def tbStride (x : Nat) : Nat := fieldOf x 48 0 32
def tbBlocks (x : Nat) : Nat := fieldOf x 56 0 56

/-- The clusters of a mask (R356). -/
def maskClusters (x : Nat) : List Nat := ((List.range 8).filter (fun i => bitAt (tbMask x) i)).map (· + 8 * tbDie x)

/-- Rows per pass of a lookup, tiles per pass of a filter (R365, R373). -/
def rowsPerPass (x : Nat) : Nat := min 1024 ((tbBytes x - 4 * tbElems x - 8192) / (8 * tbElems x))
def tilesPerPass (x : Nat) : Nat := min 64 ((tbBytes x - 64 * tbElems x) / (2 * (64 * tbElems x + 128)))

def State.table (s : State) (slot : Nat) : Option GTab := s.gth.tables.get? [slot]

/-- The table an identifier names (R355). -/
def State.tableOf (s : State) (id : Nat) : Option (Nat × GTab) :=
  match s.table (id % 1024) with
  | some t => if fieldOf t.desc 0 0 32 = id then some (id % 1024, t) else none
  | none => none

def State.countGth (d k : Nat) (s : State) : State := s.bump R.GTH_CNT_count [d, k]

def State.modReq (d id : Nat) (f : GReq → GReq) (s : State) : State :=
  match s.gth.reqs.get? [d, id] with
  | some q => { s with gth := { s.gth with reqs := s.gth.reqs.set [d, id] (f q) } }
  | none => s

/-- Show what is in progress on a table (GTH_TABLE_STATUS). -/
def State.tableTally (s : State) : State :=
  s.gth.tables.keys.foldl (fun t k =>
    (t.wr R.GTH_TABLE_STATUS_live k (t.gth.reqs.vals.filter (fun q => decide (some q.slot = k.head?))).length).wr
      R.GTH_TABLE_STATUS_updates k (t.gth.updates.vals.flatten.filter (fun u => decide (some u.slot = k.head?))).length) s

/-- A failed request: the first is held (GTH_FAIL_INFO). -/
def State.gatherFailure (slot row src : Nat) (st : Status) (s : State) : State :=
  let s := if bitAt (s.rd R.GTH_EVT_events []) 0 then s else
    (((s.wr R.GTH_FAIL_INFO_slot [] slot).wr R.GTH_FAIL_INFO_status [] st.code).wr R.GTH_FAIL_INFO_row [] row).wr
      R.GTH_FAIL_INFO_src_eid [] src
  s.event B.gth 0

/-! ### Reads of the unit (R363) -/

/-- A tracked request of the unit for a table's tenant. -/
def State.gatherAsk (d tenant id row ty addr len data nbytes : Nat) (s : State) : State :=
  s.issue d (.gather d) (.gather d id row)
    { s.request ty (s.homeOf addr) addr len tenant 0 (s.homeDie addr) false 0 false data nbytes with die := d }

/-- The pieces in which `n` bytes from `a` are read; each piece's byte offset rides in the row number. -/
def State.gatherRead (d tenant id row a n : Nat) (s : State) : State :=
  (readCuts a n).foldl (fun t c => t.gatherAsk d tenant id (row + c.2.1 * 2 ^ 40) c.1 (a + c.2.1) c.2.2 0 0) s

def readsFor (a n : Nat) : Nat := (readCuts a n).length

/-! ### Rows (R358 to R360) -/

def ixAddr (e : Nat) : Nat := fieldOf e 0 0 56
def ixWidth (e : Nat) : Nat := fieldOf e 0 56 2
def ixFmt (e : Nat) : Nat := fieldOf e 0 58 1
def ixCopy (e : Nat) : Nat := fieldOf e 0 59 1
def ixRgen (e : Nat) : Nat := fieldOf e 8 0 16
def ixOther (e : Nat) : Bool := fieldOf e 8 16 1 = 1
def ixOwidth (e : Nat) : Nat := fieldOf e 8 17 2
def ixOfmt (e : Nat) : Nat := fieldOf e 8 19 1
def ixWgen (e : Nat) : Nat := fieldOf e 16 0 32
def ixOwgen (e : Nat) : Nat := fieldOf e 20 0 32

/-- Bytes of a stored copy of a width, its header included. -/
def copyBytes (elems width : Nat) : Nat := 16 + (if width = 1 then 2 * elems else if width = 2 then elems else elems / 2)

/-- The format of 8- and 16-bit rows. -/
def rowFmt (width fmt : Nat) : Fmt :=
  if width = 1 then (if fmt = 1 then fp16 else bf16) else if fmt = 1 then e5m2 else e4m3

/-- Element `k` of a stored copy in FP32 (R360). -/
def dequant (x k : Nat) : Nat :=
  let width := fieldOf x 0 16 2
  let fmt := fieldOf x 0 18 1
  let scale := fp32.decode (fieldOf x 4 0 32)
  let off := fp32.decode (fieldOf x 8 0 32)
  if width = 1 then fp32.encode false ((rowFmt 1 fmt).decode (fieldOf x 16 (16 * k) 16))
  else if width = 2 then
    let v := (rowFmt 2 fmt).decode (fieldOf x 16 (8 * k) 8)
    match v with
    | .fin _ _ _ => fp32.encode false (scale.mul v)
    | _ => fp32.encode false v
  else fp32.encode false ((FV.ofInt (signedOf 4 (fieldOf x 16 (4 * k) 4))).fma scale off)

def dequantAll (elems x : Nat) : List Nat := (List.range elems).map (dequant x)

/-- The greatest and the least of a list of FP32 numbers. -/
def extreme (greatest : Bool) (l : List FV) : FV := l.foldl (FV.pick greatest) .nan

/-- A copy in a width (R370): header and elements. -/
def quantRow (width fmt rgen wgen : Nat) (l : List Nat) : Nat :=
  let v := l.map fp32.decode
  let head (w scale off : Nat) : Nat :=
    layout [(0, 0, 16, rgen), (0, 16, 2, w), (0, 18, 1, if w = 3 then 0 else fmt), (4, 0, 32, scale), (8, 0, 32, off), (12, 0, 32, wgen)]
  if width = 1 ∨ v.any FV.isNan then
    head 1 0 0 + packElems 16 (v.map (fun x => (rowFmt 1 fmt).encode true x)) <<< 128
  else if width = 2 then
    let m := extreme true (v.map FV.abs)
    let lim : FV := FV.ofInt (if fmt = 1 then 57344 else 448)
    let scale := fp32.encode false (m.div lim)
    if m.isZero then head 2 0 0
    else head 2 scale 0 + packElems 8 (v.map (fun x =>
      (rowFmt 2 fmt).encode true (fp32.decode (fp32.encode false (x.div (fp32.decode scale)))))) <<< 128
  else
    let lo := extreme false v
    let hi := extreme true v
    if lo.eq hi then head 3 0 (fp32.encode false lo)
    else
      let scale := fp32.encode false ((fp32.decode (fp32.encode false (hi.sub lo))).div (FV.ofInt 15))
      let off := fp32.encode false ((FV.ofInt 8).fma (fp32.decode scale) lo)
      let q := v.map (fun x =>
        match fp32.decode (fp32.encode false ((fp32.decode (fp32.encode false (x.sub (fp32.decode off)))).div (fp32.decode scale))) with
        | .fin n m e => fieldOfInt 4 (clampTo (-8) 7 (FV.toInt n m e))
        | .inf n => if n then 8 else 7
        | .nan => 0)
      head 3 scale off + packElems 4 q <<< 128

/-- The choice of R368: the copy to read as (address, width, expected generation), a dropped row, or a lost version. -/
inductive Choice where
  | copy (addr width rgen : Nat)
  | drop
  | lost
  deriving DecidableEq, Repr

def chooseCopy (x e : Nat) (pin : Option Nat) : Choice :=
  let at_ (c : Nat) : Nat := ixAddr e + c * tbCopy x
  let live := Choice.copy (at_ (ixCopy e)) (ixWidth e) (ixRgen e)
  match pin with
  | none => if ixWidth e = 0 then .drop else live
  | some p =>
    let before (w : Nat) : Bool := decide (dist 32 p w < 2 ^ 31)
    if ixWidth e = 0 then .drop
    else if before (ixWgen e) then live
    else if ¬ ixOther e then .drop
    else if before (ixOwgen e) then
      (if ixOwidth e = 0 then .drop else .copy (at_ (1 - ixCopy e)) (ixOwidth e) ((ixRgen e + 65535) % 65536))
    else .lost

/-! ### The row cache (R367) -/

def cacheGranules (bytes : Nat) : Nat := ceilDiv bytes 64

/-- The cluster that caches a row of a table. -/
def cacheCluster (x slot row : Nat) : Option Nat :=
  let l := maskClusters x
  l[Config.rowHash 0 slot row % l.length]?

/-- Entries of a cluster's cache. -/
def State.cached (s : State) (c : Nat) : List (Key × GRow) :=
  s.gth.cache.entries.filter (fun e => decide (e.1.head? = some c))

/-- Granules of the row-cache share that hold nothing: coherence-domain lines live there too (R224). -/
def State.cacheFree (s : State) (c : Nat) : Nat :=
  4096 * (64 - s.rd R.CMP_CSRAM_CFG_general [c] - s.rd R.CMP_CSRAM_CFG_accum [c] - s.rd R.CMP_CSRAM_CFG_taskq [c]) -
    (s.cached c).foldl (fun a e => a + cacheGranules e.2.bytes) 0 - 2 * s.coh.lines.count (fun k _ => decide (k.head? = some c))

def State.cacheTally (s : State) : State :=
  (List.range 16).foldl (fun t c =>
    (t.wr R.GTH_CACHE_STATUS_rows [c] (t.cached c).length).wr R.GTH_CACHE_STATUS_granules [c]
      ((t.cached c).foldl (fun a e => a + cacheGranules e.2.bytes) 0)) s

/-- A hit: the copy, whose count rises. -/
def State.cacheHit (s : State) (x slot row rgen : Nat) : Option (Nat × State) :=
  if ¬ s.on R.GTH_CACHE_CFG_enable [] then none
  else match cacheCluster x slot row with
    | none => none
    | some c =>
      match s.gth.cache.get? [c, slot, row, rgen] with
      | some e =>
        if s.cst c ≠ Cs.ready then none
        else some (e.data, { s with gth := { s.gth with
          cache := s.gth.cache.set [c, slot, row, rgen] { e with freq := min 15 (e.freq + 1) } } })
      | none => none

/-- The two sketch counters of a row. -/
def sketchAt (d slot row : Nat) : List Key := [[d, Config.rowHash 1 slot row % 2 ^ 20], [d, Config.rowHash 2 slot row % 2 ^ 20]]

def State.missed (d slot row : Nat) (s : State) : State :=
  { s with gth := { s.gth with
    sketch := (sketchAt d slot row).foldl (fun m k => m.set k (min 15 (m.get 0 k + 1))) s.gth.sketch } }

def State.estimate (s : State) (d slot row : Nat) : Nat := (sketchAt d slot row).foldl (fun a k => min a (s.gth.sketch.get 0 k)) 15

/-- The candidates of a cluster: sampled by hash, least frequent first, oldest first on a tie. -/
def State.candidates (s : State) (c slot row : Nat) : List (Key × GRow) :=
  let l := s.cached c
  let pick := ((List.range (s.rd R.GTH_CACHE_CFG_sample [])).filterMap (fun i =>
    l[Config.rowHash (3 + i) slot row % l.length]?)).eraseDups
  pick.mergeSort (fun a b => decide (a.2.freq < b.2.freq ∨ (a.2.freq = b.2.freq ∧ a.2.born ≤ b.2.born)))

/-- The candidates that have to go until `need` granules are free. -/
def victims (need : Nat) : List (Key × GRow) → Nat → Option (List (Key × GRow))
  | [], free => if need ≤ free then some [] else none
  | e :: t, free => if need ≤ free then some [] else (victims need t (free + cacheGranules e.2.bytes)).map (e :: ·)

/-- A missed row has been fetched: it is cached where it is admitted, else the refusal is counted. -/
def State.cacheFill (d x slot row rgen data bytes : Nat) (s : State) : State :=
  if ¬ s.on R.GTH_CACHE_CFG_enable [] then s
  else match cacheCluster x slot row with
    | none => s
    | some c =>
      if s.cst c ≠ Cs.ready then s
      else match victims (cacheGranules bytes) (s.candidates c slot row) (s.cacheFree c) with
        | none => s.countGth d 5
        | some v =>
          let most := v.foldl (fun a e => max a e.2.freq) 0
          if v ≠ [] ∧ s.on R.GTH_CACHE_CFG_admit [] ∧ s.estimate d slot row ≤ most then s.countGth d 5
          else
            let m := v.foldl (fun m e => m.erase e.1) s.gth.cache
            let e : GRow := { data := data, bytes := bytes, born := s.gth.births }
            State.cacheTally { s with gth := { s.gth with cache := m.set [c, slot, row, rgen] e, births := s.gth.births + 1 } }

/-- The overwritten copy of a row leaves the cache: the live one of generation `rgen` where it was rewritten in place, else
whatever is not the live one. -/
def State.cacheDrop (x slot row rgen : Nat) (inPlace : Bool) (s : State) : State :=
  match cacheCluster x slot row with
  | some c => State.cacheTally { s with gth := { s.gth with
      cache := s.gth.cache.keep (fun k _ => !(decide (k.take 3 = [c, slot, row]) && decide (k.getD 3 0 = rgen) == inPlace)) } }
  | none => s

/-- A cluster's cache share is emptied (R225, R240, R376). -/
def State.cacheEmpty (c : Nat) (s : State) : State :=
  State.cacheTally { s with gth := { s.gth with cache := s.gth.cache.keep (fun k _ => decide (k.head? ≠ some c)) } }

/-- R367: every decay period. -/
def execCacheDecay (s : State) : Host.Outcome State Fault Refusal :=
  serving s (
    if s.now < s.gth.decayAt + 1024 * 2 ^ s.rd R.GTH_CACHE_CFG_decay_log2 [] then s
    else { s with gth := { s.gth with cache := s.gth.cache.each (fun _ e => { e with freq := e.freq / 2 }), decayAt := s.now } })

/-! ### Slot sets (R366) -/

/-- Publish the slots of the sets at the head of a handle, in order of issue, while the ring has room. -/
def State.publishSets (n h : Nat) : Nat → State → State
  | 0, s => s
  | fuel + 1, s =>
    match s.gth.sets.get [] [n, h], (s.core n).handles.get? [h] with
    | g :: t, some x =>
      if ¬ g.ready then s
      else match g.slots with
        | [] =>
          let s : State := { s with gth := { s.gth with
            sets := if t = [] then s.gth.sets.erase [n, h] else s.gth.sets.set [n, h] t } }
          let s := match g.ctr with
            | some c => s.increment n c 1 g.status
            | none => s
          State.publishSets n h fuel s
        | y :: r =>
          if x.slots ≤ x.full then s
          else State.publishSets n h fuel (State.produce n h x.slot y
            { s with gth := { s.gth with sets := s.gth.sets.set [n, h] ({ g with slots := r } :: t) } })
    | _, _ => s

def State.publish (n h : Nat) (s : State) : State :=
  s.publishSets n h ((s.gth.sets.get [] [n, h]).foldl (fun a g => a + g.slots.length + 1) 1)

/-- Bytes cut into slots, the rest of the last one zero; a set has one slot at least. -/
def cutSlots (slot data bytes : Nat) : List Nat :=
  (List.range (max 1 (ceilDiv bytes slot))).map (fun i => bitsOf data (8 * slot * i) (8 * slot))

/-- A core's request is done: its slot set is ready. A set whose handle was freed meanwhile is discarded (R281). -/
def State.setReady (n h set : Nat) (slots : List Nat) (st : Status) (s : State) : State :=
  let gone := s.gth.sets.get [] [n, h + 16]
  let here := s.gth.sets.get [] [n, h]
  if gone.any (fun g => decide (g.id = set)) then
    let rest := gone.filter (fun g => decide (g.id ≠ set))
    State.discard n slots.length { s with gth := { s.gth with
      sets := if rest = [] then s.gth.sets.erase [n, h + 16] else s.gth.sets.set [n, h + 16] rest } }
  else if here.any (fun g => decide (g.id = set)) then
    State.publish n h { s with gth := { s.gth with
      sets := s.gth.sets.set [n, h] (here.map (fun g =>
        if g.id = set then { g with ready := true, slots := slots, status := st } else g)) } }
  else s

/-- Slot bytes of a set. -/
def State.slotBytes (s : State) (n h set : Nat) : Nat :=
  (((s.gth.sets.get [] [n, h] ++ s.gth.sets.get [] [n, h + 16]).find? (fun g => decide (g.id = set))).map (·.slot)).getD 256

/-! ### Requests (R362, R372) -/

def rqTable (x : Nat) : Nat := fieldOf x 0 0 32
def rqTag (x : Nat) : Nat := fieldOf x 4 0 32
def rqCount (x : Nat) : Nat := fieldOf x 8 0 11
def rqNoWeight (x : Nat) : Bool := fieldOf x 8 11 1 = 1
def rqOut (x : Nat) : Nat := fieldOf x 8 12 4
def rqPin (x : Nat) : Option Nat := if fieldOf x 8 16 1 = 1 then some (fieldOf x 12 0 32) else none
def rqFar (x : Nat) : Bool := fieldOf x 8 17 1 = 1
def rqHome (x : Nat) : Nat := fieldOf x 16 0 16
def rqDie (x : Nat) : Nat := fieldOf x 16 16 1
def rqStream (x : Nat) : Nat := fieldOf x 16 17 12
def rqUser (x : Nat) : Nat := fieldOf x 24 0 32
def rqLen (x : Nat) : Nat := fieldOf x 28 0 13
def fqFirst (x : Nat) : Nat := fieldOf x 8 0 32
def fqBlocks (x : Nat) : Nat := fieldOf x 12 0 32
def fqK (x : Nat) : Nat := fieldOf x 20 0 9
def fqRows (x : Nat) : Nat := fieldOf x 20 9 5 + 1
def fqSum (x : Nat) : Bool := fieldOf x 20 15 1 = 1
def fqStream (x : Nat) : Bool := fieldOf x 20 16 1 = 1
def fqFar (x : Nat) : Bool := fieldOf x 20 17 1 = 1

/-- Bytes of the list or the query. -/
def listBytes (x : Nat) : Nat := if rqNoWeight x then 4 * rqCount x else 8 * rqCount x
def queryBytes (t x : Nat) : Nat := 2 * fqRows x * tbElems t

/-- A list held by address must not cross 64 KiB. -/
def farOk (a n : Nat) : Bool := decide (a / 65536 = (a + n - 1) / 65536)

def lookupShape (x : Nat) : Bool :=
  decide (1 ≤ rqCount x ∧ rqCount x ≤ 1024 ∧ 3 ≤ rqOut x ∧ rqOut x ≤ 5 ∧ fieldOf x 8 18 14 = 0 ∧ fieldOf x 16 29 3 = 0 ∧
    fieldOf x 20 0 32 = 0 ∧ fieldOf x 28 13 19 = 0) &&
  (if rqFar x then rqLen x = 40 && fieldOf x 32 56 8 = 0 && farOk (fieldOf x 32 0 56) (listBytes x)
   else rqLen x = 32 + listBytes x)

def filterShape (t x : Nat) : Bool :=
  decide (fqFirst x + fqBlocks x ≤ tbRows t ∧ 1 ≤ fqK x ∧ fqK x ≤ 256 ∧ fieldOf x 16 17 15 = 0 ∧ fieldOf x 20 18 14 = 0 ∧
    fieldOf x 28 13 19 = 0) &&
  (if fqFar x then rqLen x = 40 && fieldOf x 32 56 8 = 0 else rqLen x = 32 + queryBytes t x)

/-- Cores of a table's mask that run no gather or filter task. -/
def State.freeCores (s : State) (x : Nat) : List Nat :=
  ((maskClusters x).filter s.clusterUp).flatMap coresOf |>.filter (fun n =>
    !s.gth.reqs.vals.any (fun q => q.works.any (fun w => decide (w.core = n))))

/-- The refusal of a request, by the die's unit (R355, R361, R363, R368, R376): none where it is taken. -/
def State.gatherRefusal (s : State) (d : Nat) (filter : Bool) (tenant x bytes : Nat) : Option Status :=
  match s.tableOf (rqTable x) with
  | none => some .unsupported
  | some (_, t) =>
    let pinOk : Bool := match rqPin x with
      | some p => decide (dist 32 t.gen p ≤ s.rd R.GTH_CFG_pin_window [])
      | none => true
    if tbKv t.desc ≠ filter ∨ tbDie t.desc ≠ d ∨ rqDie x ≠ d ∨ rqLen x ≠ bytes ∨
        ¬ (if filter then filterShape t.desc x else lookupShape x && pinOk) then some .unsupported
    else if tbTenant t.desc ≠ tenant then some .protViolation
    else if ¬ (maskClusters t.desc).any s.clusterUp ∨ s.rd R.GTH_CFG_queue [] ≤ (s.gth.queue.get [] [d]).length then some .retry
    else none

/-! ### Outcomes (R364, R366, R374) -/

/-- A response of the unit to a message. -/
def State.gatherMsg (s : State) (m : Msg) (ty len body : Nat) (st : Status) : Msg :=
  { s.reply m ty len body st 0 with flow := 0 }

/-- The type header of GA_RESULT and GA_FWD_RESULT. -/
def resultHead (tag elems out user off : Nat) : Nat :=
  layout [(0, 0, 32, tag), (4, 0, 13, elems), (4, 13, 4, out), (8, 0, 32, user), (12, 0, 16, off)]

/-- Blocks of a result in one packet. -/
def packetBlocks (out : Nat) : Nat := if out = 3 then 3 else 7

/-- GA_RESULT packets (R366). -/
def State.resultPackets (s : State) (m : Msg) (x elems data : Nat) (st : Status) : List Msg :=
  let out := rqOut x
  let w := tyBytes out
  let n := ceilDiv elems 256
  (List.range (ceilDiv n (packetBlocks out))).map (fun i =>
    let b := i * packetBlocks out
    let nb := min (packetBlocks out) (n - b)
    let last := if b + nb = n then elems - 256 * (n - 1) else 256
    let bytes := ((nb - 1) * 256 + last) * w
    s.gatherMsg m 0xA8 (32 + bytes)
      (resultHead (rqTag x) elems out (rqUser x) 0 + codecHeader (rqStream x) 0 out 0 b nb last (rqUser x) <<< 128 +
        bitsOf data (8 * 256 * w * b) (8 * bytes) <<< 256) st)

/-- GA_FWD_RESULT packets (R366). -/
def State.fwdPackets (s : State) (m : Msg) (x elems data : Nat) (st : Status) : List Msg :=
  let n := elems * tyBytes (rqOut x)
  (List.range (max 1 (ceilDiv n 4080))).map (fun i =>
    let k := min 4080 (n - 4080 * i)
    s.gatherMsg m 0xAC (16 + k) (resultHead (rqTag x) elems (rqOut x) (rqUser x) (4080 * i) + bitsOf data (8 * 4080 * i) (8 * k) <<< 128) st)

/-- A request is refused, or fails before it has a result of its own (R366). -/
def State.gatherRefuse (d : Nat) (o : GFrom) (x row : Nat) (st : Status) (s : State) : State :=
  let s := if st = .retry then s.countGth d 13 else s
  match o with
  | .net m =>
    let s := if st = .retry then s else s.gatherFailure (rqTable x % 1024) row m.src st
    if m.ty = 0xA0 ∧ Config.isApold m.src then s.sendAll d (s.fwdPackets m x 0 0 st) else s.answer d m st 0 none
  | .core n h _ set =>
    let s := if st = .retry then s else s.gatherFailure (rqTable x % 1024) row s.eid st
    let slot := s.slotBytes n h set
    let bytes := match s.tableOf (rqTable x) with
      | none => 0
      | some (_, t) => if tbKv t.desc then 8 * fqK x else tbElems t.desc * tyBytes (rqOut x)
    s.setReady n h set (cutSlots slot 0 bytes) st

/-- A request leaves the unit. -/
def State.dropReq (d id : Nat) (s : State) : State :=
  State.tableTally { s with gth := { s.gth with
    reqs := s.gth.reqs.erase [d, id],
    queue := s.gth.queue.set [d] ((s.gth.queue.get [] [d]).filter (fun i => decide (i ≠ id))) } }

/-- The sum of a lookup is delivered in out_type (R363, R366). -/
def State.deliverSum (d id : Nat) (q : GReq) (sum : List Nat) (st : Status) (s : State) : State :=
  match s.table q.slot with
  | none => s.dropReq d id
  | some t =>
    let x := q.req
    let out := rqOut x
    let e := tbElems t.desc
    let data := packElems (tyBits out) (sum.map (fun v => (convert 3 out true v).1))
    let s := s.dropReq d id
    let src := match q.origin with
      | .net m => m.src
      | .core _ _ _ _ => s.eid
    let s := if st = .ok then s else s.gatherFailure q.slot q.bad src st
    match q.origin with
    | .net m => s.sendAll d (if Config.isApold m.src then s.fwdPackets m x e data st else s.resultPackets m x e data st)
    | .core n h _ set => s.setReady n h set (cutSlots (s.slotBytes n h set) data (e * tyBytes out)) st

/-! ### Passes (R365, R373) -/

/-- Where a lookup's rows and weights lie in the work area, by half. -/
def weightsAt (x half : Nat) : Nat := tbSpm x + 4 * tbElems x + 4096 * half
def rowsAt (x half : Nat) : Nat := tbSpm x + 4 * tbElems x + 8192 + half * (4 * tbElems x * rowsPerPass x)

/-- The index and the weight of a position. -/
def GReq.index (q : GReq) (i : Nat) : Nat := bitsOf q.list (32 * i) 32
def GReq.weight (q : GReq) (i : Nat) : Nat :=
  if rqNoWeight q.req then 0x3F800000 else bitsOf q.list (32 * (rqCount q.req + i)) 32

/-- Fill one half of the work area for a pass. -/
def State.fillRows (x : Nat) (q : GReq) (n half : Nat) (pass : List Nat) (s : State) : State :=
  let s := (pass.mapIdx (fun j i => (j, i))).foldl (fun t e =>
    t.poke n (rowsAt x half + 4 * tbElems x * e.1) (4 * tbElems x) (packElems 32 (dequantAll (tbElems x) (q.rows.get 0 [e.2])))) s
  s.poke n (weightsAt x half) (4 * pass.length) (packElems 32 (pass.map q.weight))

/-- Where a filter's tiles and scores lie, by half. -/
def tilesAt (x half : Nat) : Nat := tbSpm x + 64 * tbElems x + half * (64 * tbElems x * tilesPerPass x)
def scoresAt (x half : Nat) : Nat := tbSpm x + 64 * tbElems x + 2 * (64 * tbElems x * tilesPerPass x) + half * (128 * tilesPerPass x)

/-- The query in k-major form, rows from nq upward zero (R266, R373). -/
def queryTile (x : Nat) (q : GReq) : Nat :=
  let dd := tbElems x
  packElems 16 ((List.range dd).flatMap (fun k => (List.range 32).map (fun i =>
    if i < fqRows q.req then bitsOf q.list (16 * (dd * i + k)) 16 else 0)))

/-- Tile `j` in k-major form: 32 summaries side by side; those not scored are zero. -/
def summaryTile (x : Nat) (q : GReq) (j : Nat) : Nat :=
  packElems 16 ((List.range (tbElems x)).flatMap (fun k => (List.range 32).map (fun c =>
    bitsOf (q.rows.get 0 [32 * j + c]) (16 * k) 16)))

def State.fillTiles (x : Nat) (q : GReq) (n half : Nat) (pass : List Nat) (s : State) : State :=
  (pass.mapIdx (fun j i => (j, i))).foldl (fun t e =>
    t.poke n (tilesAt x half + 64 * tbElems x * e.1) (64 * tbElems x) (summaryTile x q e.2)) s

/-- Push the pass at the head of a work: its half filled, the counter at 0, a task pushed; the next half is filled too. -/
def State.pushPass (x : Nat) (q : GReq) (w : GWork) (s : State) : GWork × State :=
  match w.todo with
  | [] => (w, s)
  | pass :: rest =>
    let n := w.core
    let fill (half : Nat) (p : List Nat) (s : State) : State :=
      if q.filter then s.fillTiles x q n half p else s.fillRows x q n half p
    let s := fill w.half pass s
    let s := match rest with
      | p :: _ => fill (1 - w.half) p s
      | [] => s
    let s := if q.filter ∧ w.first then s.poke n (tbSpm x) (64 * tbElems x) (queryTile x q) else s
    let s := s.modCore n (fun k => { k with ctr := k.ctr.set [tbCtr x] (0, .ok) })
    let args : List Nat :=
      if q.filter then [tbSpm x, tilesAt x w.half, tbElems x, pass.length, scoresAt x w.half, fqRows q.req + b2n (fqSum q.req) * 256]
      else [rowsAt x w.half, weightsAt x w.half, pass.length, tbElems x, tbSpm x, b2n w.first + 2 * b2n (rest = [])]
    let desc := layout ([(0, 0, 32, tbEntry x), (4, 0, 8, tbImage x), (4, 10, 5, tbTenant x), (4, 15, 1, 1), (4, 16, 7, n),
      (4, 23, 6, tbCtr x)] ++ args.mapIdx (fun i a => (16 + 8 * i, 0, 64, a)))
    let now := s.now
    ({ w with pushed := true, since := now }, ((s.agentPush (n / 8) (some n) desc).2).countGth (tbDie x) 11)

/-- Push what a request's works have at their heads. A work whose cluster no longer takes tasks goes to another core of the
mask, its sum with it; without one it waits (R376). -/
def State.pushWorks (d id : Nat) (s : State) : State :=
  match s.gth.reqs.get? [d, id] with
  | none => s
  | some q =>
    match s.table q.slot with
    | none => s
    | some t =>
      let x := t.desc
      let r := q.works.foldl (fun (a : List GWork × State) w =>
        if w.pushed ∨ w.todo = [] then (a.1 ++ [w], a.2)
        else if a.2.clusterUp (w.core / 8) then
          let p := a.2.pushPass x q w
          (a.1 ++ [p.1], p.2)
        else match (a.2.freeCores x).find? (fun n => !a.1.any (fun v => decide (v.core = n))) with
          | none => (a.1 ++ [w], a.2)
          | some n =>
            let s := a.2.poke n (tbSpm x) (4 * tbElems x) (a.2.peek w.core (tbSpm x) (4 * tbElems x))
            let p := s.pushPass x q { w with core := n }
            (a.1 ++ [p.1], p.2)) ([], s)
      r.2.modReq d id (fun q => { q with works := r.1 })

/-- A list cut into runs of `n`. -/
def chunksOf (n : Nat) : Nat → List Nat → List (List Nat)
  | 0, _ => []
  | fuel + 1, l => if l = [] then [] else l.take n :: chunksOf n fuel (l.drop n)

/-! ### Selection (R374) -/

/-- Descending by score, NaN lowest, the lower block first on a tie. -/
def better (a b : Nat × Nat) : Bool :=
  let x := fp32.decode a.2
  let y := fp32.decode b.2
  if x.isNan then y.isNan && decide (a.1 ≤ b.1)
  else if y.isNan then true
  else if x.eq y then decide (a.1 ≤ b.1) else y.lt x

/-- The list's bytes, `n` entries; those past the selected hold block 0xFFFF_FFFF and NaN. -/
def listData (n : Nat) (l : List (Nat × Nat)) : Nat :=
  packElems 64 ((List.range n).map (fun i => match l[i]? with
    | some e => e.1 + e.2 * 2 ^ 32
    | none => 0xFFFFFFFF + fp32.qnan * 2 ^ 32))

/-- A filter's list, and the blocks with it, are delivered. -/
def State.deliverList (d id : Nat) (q : GReq) (x : Nat) (st : Status) (s : State) : State :=
  let r := q.req
  let k := q.picks.length
  let s := s.dropReq d id
  let src := match q.origin with
    | .net m => m.src
    | .core _ _ _ _ => s.eid
  let s := if st = .ok then s else s.gatherFailure q.slot q.bad src st
  match q.origin with
  | .net m =>
    let head := layout [(0, 0, 32, rqTag r), (4, 0, 9, k), (4, 9, 1, b2n (fqStream r)), (8, 0, 32, rqUser r), (12, 0, 32, tbCopy x)]
    let s := s.send d (s.gatherMsg m 0xAA (16 + 8 * k) (head + listData k q.picks <<< 128) st)
    if ¬ fqStream r then s
    else (List.range k).foldl (fun t i =>
      (List.range (ceilDiv (tbCopy x) 4080)).foldl (fun u j =>
        let n := min 4080 (tbCopy x - 4080 * j)
        u.send d (u.gatherMsg m 0xAB (16 + n)
          (layout [(0, 0, 32, rqTag r), (4, 0, 9, i), (8, 0, 17, 4080 * j)] +
            bitsOf (q.entries.get 0 [i]) (8 * 4080 * j) (8 * n) <<< 128) st)) t) s
  | .core n h _ set =>
    let slot := s.slotBytes n h set
    let blocks := if fqStream r then (List.range k).flatMap (fun i => cutSlots slot (q.entries.get 0 [i]) (tbCopy x)) else []
    s.setReady n h set (cutSlots slot (listData (fqK r) q.picks) (8 * fqK r) ++ blocks) st

/-- Every score is in: the best are selected, and their blocks read where they are streamed. -/
def State.select (d id : Nat) (q : GReq) (x : Nat) (s : State) : State :=
  let scored := (List.range (fqBlocks q.req)).filterMap (fun j => if q.rows.has [j] then some (fqFirst q.req + j, q.scores.get 0 [j]) else none)
  let picks := (scored.mergeSort better).take (fqK q.req)
  let q := { q with picks := picks, works := [], phase := 4, entries := Map.empty }
  if ¬ fqStream q.req ∨ picks = [] then s.deliverList d id q x q.status
  else
    let at_ (b : Nat) : Nat := tbBlocks x + tbStride x * b
    let left := picks.foldl (fun a e => a + readsFor (at_ e.1) (tbCopy x)) 0
    (picks.mapIdx (fun i e => (i, e.1))).foldl (fun t e => t.gatherRead d (tbTenant x) id e.1 (at_ e.2) (tbCopy x))
      (s.modReq d id (fun _ => { q with left := left }))

/-- Everything a request reads is there: its passes begin, or, with nothing to do, its result is delivered. -/
def State.startPasses (d id : Nat) (q : GReq) (x : Nat) (s : State) : State :=
  if q.filter ∧ fqBlocks q.req = 0 then s.select d id q x
  else if q.filter then
    let tiles := List.range (ceilDiv (fqBlocks q.req) 32)
    let n := q.works.length
    let works := q.works.mapIdx (fun i w =>
      let mine := tiles.filter (fun j => decide (j % n = i))
      { w with todo := chunksOf (tilesPerPass x) mine.length mine })
    (s.modReq d id (fun q => { q with phase := 3, works := works })).pushWorks d id
  else
    let valid := (List.range (rqCount q.req)).filter (fun i => q.rows.has [i])
    if valid = [] then s.deliverSum d id q (List.replicate (tbElems x) 0) q.status
    else
      let works := q.works.map (fun w => { w with todo := chunksOf (rowsPerPass x) valid.length valid })
      (s.modReq d id (fun q => { q with phase := 3, works := works })).pushWorks d id

/-! ### Fetching (R363, R364, R367, R368) -/

/-- Whether a row is being rewritten in place (R370). -/
def State.rewriting (s : State) (d slot row : Nat) : Bool :=
  ((s.gth.updates.get [] [d]).head?.map (fun u => decide (u.slot = slot ∧ 4 ≤ u.phase ∧ u.msg.f (32 + 16 * u.record) 0 32 = row) &&
    (match s.table slot with
     | some t => decide (ixWgen u.entry = (t.gen + 1) % 2 ^ 32)
     | none => false))).getD false

/-- A row or block contributes its status; the first that is not OK is kept for GTH_FAIL_INFO. -/
def GReq.taints (row : Nat) (st : Status) (q : GReq) : GReq :=
  { q with status := Status.join q.status st, bad := if q.status = .ok ∧ st ≠ .ok then row else q.bad }

/-- A position is dropped, with the status it contributes (R364). -/
def State.dropRow (d id row : Nat) (st : Status) (s : State) : State :=
  ((s.countGth d 6).event B.gth 1).modReq d id (·.taints row st)

/-- The reads of a request are complete. -/
def State.fetchGo (d id : Nat) (s : State) : State :=
  match s.gth.reqs.get? [d, id] with
  | some q =>
    match s.table q.slot with
    | some t => if q.phase = 2 ∧ q.left = 0 ∧ q.blocked = [] then s.startPasses d id q t.desc else s
    | none => s
  | none => s

/-- Read the index entry of a position, unless its row is being rewritten. -/
def State.readEntry (d id i : Nat) (s : State) : State :=
  match s.gth.reqs.get? [d, id] with
  | none => s
  | some q =>
    match s.table q.slot with
    | none => s
    | some t =>
      let row := q.index i
      if tbRows t.desc ≤ row then s.dropRow d id row .ok
      else if s.rewriting d q.slot row then s.modReq d id (fun q => { q with blocked := q.blocked ++ [i] })
      else (s.modReq d id (fun q => { q with left := q.left + 1 })).gatherAsk d (tbTenant t.desc) id i 0x10 (tbBase t.desc + 32 * row) 32 0 0

/-- Read summary `j` of a filter, through the cache. -/
def State.readSummary (d id j : Nat) (s : State) : State :=
  match s.gth.reqs.get? [d, id] with
  | none => s
  | some q =>
    match s.table q.slot with
    | none => s
    | some t =>
      let x := t.desc
      let b := fqFirst q.req + j
      let s := s.countGth d 2
      match s.cacheHit x q.slot b 0 with
      | some (v, t) => (t.countGth d 3).modReq d id (fun q => { q with rows := q.rows.set [j] v })
      | none =>
        let a := tbBase x + 2 * tbElems x * b
        let n := readsFor a (2 * tbElems x)
        (((s.countGth d 4).missed d q.slot b).modReq d id (fun q => { q with left := q.left + n })).gatherRead d (tbTenant x) id
          (j + 2 ^ 32) a (2 * tbElems x)

/-- The list or the query is there: entries, or summaries, are read. -/
def State.startReads (d id : Nat) (s : State) : State :=
  match s.gth.reqs.get? [d, id] with
  | none => s
  | some q =>
    let s := s.modReq d id (fun q => { q with phase := 2 })
    State.fetchGo d id (
      if q.filter then (List.range (fqBlocks q.req)).foldl (fun t j => t.readSummary d id j) s
      else (List.range (rqCount q.req)).foldl (fun t i => t.readEntry d id i) s)

/-- An index entry has been read: a copy is chosen and fetched (R368). -/
def State.entryRead (d id i : Nat) (st : Status) (e : Nat) (s : State) : State :=
  match s.gth.reqs.get? [d, id] with
  | none => s
  | some q =>
    match s.table q.slot with
    | none => s
    | some t =>
      let x := t.desc
      let row := q.index i
      if st ≠ .ok then s.dropRow d id row st
      else match chooseCopy x e (rqPin q.req) with
        | .drop => s.dropRow d id row .ok
        | .lost => State.gatherRefuse d q.origin q.req row .unsupported (((s.countGth d 8).event B.gth 3).dropReq d id)
        | .copy a width rgen =>
          if s.rewriting d q.slot row then s.modReq d id (fun q => { q with blocked := q.blocked ++ [i] })
          else
            let s := (s.countGth d 2).modReq d id (fun q => { q with entries := q.entries.set [i] (rgen + width * 2 ^ 16) })
            match s.cacheHit x q.slot row rgen with
            | some (v, t) => (t.countGth d 3).modReq d id (fun q => { q with rows := q.rows.set [i] v })
            | none =>
              let n := copyBytes (tbElems x) width
              (((s.countGth d 4).missed d q.slot row).modReq d id (fun q => { q with left := q.left + readsFor a n })).gatherRead d
                (tbTenant x) id (i + 2 ^ 32) a n

/-- A copy, or a summary, has been fetched: checked and cached (R364, R374). -/
def State.copyRead (d id i off : Nat) (st : Status) (data : Nat) (s : State) : State :=
  match s.gth.reqs.get? [d, id] with
  | none => s
  | some q =>
    match s.table q.slot with
    | none => s
    | some t =>
      let x := t.desc
      if q.scores.has [i] then s.modReq d id (·.taints (if q.filter then fqFirst q.req + i else q.index i) st)
      else if st ≠ .ok then
        let s := if q.filter then s.modReq d id (·.taints (fqFirst q.req + i) st) else s.dropRow d id (q.index i) st
        s.modReq d id (fun q => { q with rows := q.rows.erase [i], scores := q.scores.set [i] 1 })
      else
        let v := q.rows.get 0 [i] + data <<< (8 * off)
        let s := s.modReq d id (fun q => { q with rows := q.rows.set [i] v })
        if q.filter then
          let b := fqFirst q.req + i
          let come := q.entries.get 0 [i] + 1
          let s := s.modReq d id (fun q => { q with entries := q.entries.set [i] come })
          if come < readsFor (tbBase x + 2 * tbElems x * b) (2 * tbElems x) then s
          else s.cacheFill d x q.slot b 0 v (2 * tbElems x)
        else
          let want := q.entries.get 0 [i]
          if bitsOf v 0 18 ≠ want then
            (((s.countGth d 7).event B.gth 2).modReq d id (fun q => { q with rows := q.rows.erase [i] })).dropRow d id (q.index i) .ok
          else s.cacheFill d x q.slot (q.index i) (want % 2 ^ 16) v (copyBytes (tbElems x) (want / 2 ^ 16))

/-! ### Lookups and filters from arrival to dispatch (R363, R373, R376) -/

/-- The unit takes a request or refuses it. -/
def State.gatherTake (d : Nat) (filter : Bool) (o : GFrom) (tenant x bytes : Nat) (s : State) : State :=
  match s.gatherRefusal d filter tenant x bytes with
  | some st => s.gatherRefuse d o x 0 st
  | none =>
    let id := s.gth.nextId
    let q : GReq := { origin := o, slot := rqTable x % 1024, filter := filter, req := x, tenant := tenant }
    State.tableTally (State.countGth d (if filter then 1 else 0) { s with gth := { s.gth with
      nextId := id + 1, reqs := s.gth.reqs.set [d, id] q, queue := s.gth.queue.set [d] (s.gth.queue.get [] [d] ++ [id]) } })

/-- R363. -/
def execGaLookup (d : Nat) (m : Msg) (s : State) : Host.Outcome State Fault Refusal :=
  serving s (if m.ty = 0xA0 then (s.consume d m).gatherTake d false (.net m) m.tenant m.body m.len else s)

/-- R373. -/
def execGaFilter (d : Nat) (m : Msg) (s : State) : Host.Outcome State Fault Refusal :=
  serving s (if m.ty = 0xA2 then (s.consume d m).gatherTake d true (.net m) m.tenant m.body m.len else s)

/-- The first waiting request of a list whose table has a free core. -/
def State.dispatchable (s : State) (d : Nat) : List Nat → Option (Nat × GReq × Nat × List Nat)
  | [] => none
  | id :: t =>
    match s.gth.reqs.get? [d, id] with
    | none => s.dispatchable d t
    | some q =>
      match s.table q.slot with
      | none => s.dispatchable d t
      | some tb =>
        let l := s.freeCores tb.desc
        if l = [] then s.dispatchable d t else some (id, q, tb.desc, l)

/-- R363: a core is free; a pass that waited for a serving cluster goes on too (R376). -/
def execLookupDispatch (d : Nat) (s : State) : Host.Outcome State Fault Refusal :=
  serving s (
    let s := (s.gth.reqs.keys.filter (fun k => decide (k.head? = some d))).foldl (fun t k => t.pushWorks d (k.getD 1 0)) s
    match s.dispatchable d (s.gth.queue.get [] [d]) with
    | none => s
    | some (id, q, x, l) =>
      let cores := if q.filter then l.take (max 1 (ceilDiv (fqBlocks q.req) 32))
        else ((argMin (fun n => (s.core n).deque.length) l).map (fun n => [n])).getD []
      let far := if q.filter then fqFar q.req else rqFar q.req
      let n := if q.filter then queryBytes x q.req else listBytes q.req
      let a := fieldOf q.req 32 0 56
      let s : State := { s with gth := { s.gth with
        queue := s.gth.queue.set [d] ((s.gth.queue.get [] [d]).filter (fun i => decide (i ≠ id))) } }
      let s := s.modReq d id (fun q => { q with
        works := cores.map (fun c => { core := c }), phase := 1,
        list := if far then 0 else bitsOf q.req 256 (8 * n), left := if far then readsFor a n else 0 })
      if far then s.gatherRead d (tbTenant x) id 0 a n else s.startReads d id)

/-- A read of a lookup or filter is done. -/
def State.requestRead (d id row : Nat) (st : Status) (data : Nat) (s : State) : State :=
  match s.gth.reqs.get? [d, id] with
  | none => s
  | some q =>
    let i := row % 2 ^ 32
    let off := row / 2 ^ 40
    let s := s.modReq d id (fun q => { q with left := q.left - 1 })
    match q.phase with
    | 1 =>
      if st ≠ .ok then State.gatherRefuse d q.origin q.req 0 st (s.dropReq d id)
      else
        let s := s.modReq d id (fun q => { q with list := q.list + data <<< (8 * off) })
        if q.left = 1 then s.startReads d id else s
    | 2 => (if bitAt row 32 then s.copyRead d id i off st data else s.entryRead d id i st data).fetchGo d id
    | 4 =>
      let s := if st = .ok then s.modReq d id (fun q => { q with entries := q.entries.set [i] (q.entries.get 0 [i] + data <<< (8 * off)) })
        else s.modReq d id (fun q => { q.taints ((q.picks[i]?).getD (0, 0)).1 st with entries := q.entries.set [i] 0 })
      match s.gth.reqs.get? [d, id], s.table q.slot with
      | some q', some t => if q'.left = 0 then s.deliverList d id q' t.desc q'.status else s
      | _, _ => s
    | _ => s

/-! ### The end of a pass (R364, R365) -/

/-- A request fails during its passes: a zero result with the status. -/
def State.passFails (d id : Nat) (q : GReq) (x : Nat) (st : Status) (s : State) : State :=
  let st := Status.join q.status st
  if q.filter then State.gatherRefuse d q.origin q.req q.bad st (s.dropReq d id)
  else s.deliverSum d id q (List.replicate (tbElems x) 0) st

/-- The scores of a pass, by block of the request. -/
def State.readScores (s : State) (x : Nat) (w : GWork) (pass : List Nat) : List (Nat × Nat) :=
  (pass.mapIdx (fun j i => (j, i))).flatMap (fun e =>
    let v := s.peek w.core (scoresAt x w.half + 128 * e.1) 128
    (List.range 32).map (fun c => (32 * e.2 + c, bitsOf v (32 * c) 32)))

/-- R365: ctr has reached 1 on a core of the request. -/
def execPassDone (d id : Nat) (s : State) : Host.Outcome State Fault Refusal :=
  serving s (
    match s.gth.reqs.get? [d, id] with
    | none => s
    | some q =>
      match s.table q.slot with
      | none => s
      | some t =>
        let x := t.desc
        match q.works.find? (fun w => w.pushed && decide (((s.core w.core).counter (tbCtr x)).1 = 1)) with
        | none => s
        | some w =>
          if ((s.core w.core).counter (tbCtr x)).2 ≠ .ok then s.passFails d id q x .timeout
          else
            let got := if q.filter then s.readScores x w (w.todo.headD []) else []
            let w' : GWork := { w with todo := w.todo.tail, half := 1 - w.half, first := false, pushed := false }
            let works := q.works.map (fun v => if v.core = w.core then w' else v)
            let q' : GReq := { q with works := works, scores := got.foldl (fun m e => m.set [e.1] e.2) q.scores }
            let s := s.modReq d id (fun _ => q')
            if works.any (fun v => decide (v.todo ≠ [])) then s.pushWorks d id
            else if q.filter then s.select d id q' x
            else
              let sum := s.peek w.core (tbSpm x) (4 * tbElems x)
              s.deliverSum d id q' ((List.range (tbElems x)).map (fun i => bitsOf sum (32 * i) 32)) q.status)

/-- R364: a pass not notified within task_timeout. -/
def execTaskTimeout (d id : Nat) (s : State) : Host.Outcome State Fault Refusal :=
  serving s (
    match s.gth.reqs.get? [d, id] with
    | none => s
    | some q =>
      match s.table q.slot with
      | none => s
      | some t =>
        if q.works.any (fun w => w.pushed && decide (w.since + 1000 * tbLimit t.desc ≤ s.now)) then
          ((s.countGth d 12).event B.gth 5).passFails d id q t.desc .timeout
        else s)

/-- R376: a mask cluster has failed: every request with tasks there ends with NODE_LOST, and its cache share is lost. -/
def State.gatherFailed (c : Nat) (s : State) : State :=
  s.gth.reqs.entries.foldl (fun t e =>
    if e.2.works.any (fun w => decide (w.core / 8 = c)) then
      match t.table e.2.slot with
      | some tb => t.passFails (e.1.headD 0) (e.1.getD 1 0) e.2 tb.desc .nodeLost
      | none => t
    else t) (s.cacheEmpty c)

/-! ### Updates (R369 to R371) -/

def upRow (u : GUpd) : Nat := u.msg.f (32 + 16 * u.record) 0 32
def upReplace (u : GUpd) : Bool := u.msg.f (36 + 16 * u.record) 0 2 = 1
def upWidth (u : GUpd) : Nat := u.msg.f (36 + 16 * u.record) 2 2
def upFmt (u : GUpd) : Nat := u.msg.f (36 + 16 * u.record) 4 1
def upBf16 (u : GUpd) : Bool := u.msg.f (36 + 16 * u.record) 5 1 = 1
def upSrc (u : GUpd) : Nat := u.msg.f (40 + 16 * u.record) 0 56

/-- An update message without reserved values. -/
def updateShape (x : Nat) (m : Msg) : Bool :=
  let n := m.f 8 0 8
  decide (1 ≤ n ∧ n ≤ 254 ∧ m.len = 32 + 16 * n) && m.f 8 9 23 = 0 && m.f 12 0 160 = 0 &&
  (List.range n).all (fun r =>
    let o := 32 + 16 * r
    let bytes := tbElems x * (if m.f (o + 4) 5 1 = 1 then 2 else 4)
    decide (m.f (o + 4) 0 2 ≤ 1) && m.f (o + 4) 6 26 = 0 && m.f (o + 8) 56 8 = 0 &&
      (m.f (o + 4) 0 2 = 1 || m.f (o + 4) 2 2 = 0) && farOk (m.f (o + 8) 0 56) bytes)

def State.modUpd (d : Nat) (f : GUpd → GUpd) (s : State) : State :=
  match s.gth.updates.get [] [d] with
  | u :: t => { s with gth := { s.gth with updates := s.gth.updates.set [d] (f u :: t) } }
  | [] => s

/-- The record under way is over. -/
def GUpd.nextRecord (u : GUpd) : GUpd := { u with record := u.record + 1, phase := 0, left := 0, source := 0, live := 0, failed := false }

/-- Whether the live copy is rewritten, and the address of the target (R370). -/
def GUpd.inPlace (u : GUpd) (t : GTab) : Bool := decide (ixWgen u.entry = (t.gen + 1) % 2 ^ 32)
def GUpd.target (u : GUpd) (t : GTab) : Nat :=
  ixAddr u.entry + (if u.inPlace t then ixCopy u.entry else 1 - ixCopy u.entry) * tbCopy t.desc

/-- The width and format of the new copy. -/
def GUpd.form (u : GUpd) : Nat × Nat :=
  if upReplace u ∧ upWidth u ≠ 0 then (upWidth u, upFmt u) else (ixWidth u.entry, ixFmt u.entry)

/-- The new copy's bytes as a number. -/
def GUpd.newCopy (u : GUpd) (t : GTab) : Nat :=
  let e := tbElems t.desc
  let src := (List.range e).map (fun i =>
    if upBf16 u then fp32.encode false (bf16.decode (bitsOf u.source (16 * i) 16)) else bitsOf u.source (32 * i) 32)
  let v := if upReplace u then src else List.zipWith (fun a b => fp32.add a b) (dequantAll e u.live) src
  quantRow u.form.1 u.form.2 ((ixRgen u.entry + 1) % 65536) ((t.gen + 1) % 2 ^ 32) v

/-- The new index entry (R358, R370). -/
def GUpd.newEntry (u : GUpd) (t : GTab) : Nat :=
  let e := u.entry
  let copy := u.newCopy t
  let flip := !u.inPlace t
  let keep (a b : Nat) : Nat := if flip then a else b
  layout [(0, 0, 56, ixAddr e), (0, 56, 2, fieldOf copy 0 16 2), (0, 58, 1, fieldOf copy 0 18 1),
    (0, 59, 1, keep (1 - ixCopy e) (ixCopy e)), (8, 0, 16, ixRgen e + 1),
    (8, 16, 1, keep (b2n (ixWidth e ≠ 0)) (b2n (ixOther e))), (8, 17, 2, keep (ixWidth e) (ixOwidth e)),
    (8, 19, 1, keep (ixFmt e) (ixOfmt e)), (16, 0, 32, t.gen + 1), (20, 0, 32, keep (ixWgen e) (ixOwgen e))]

/-- Whether a fetch of an address is under way in the unit (R370). -/
def State.fetching (s : State) (d a : Nat) : Bool :=
  (s.trk.issued.vals.map (fun e => (e.purpose, e.msg)) ++ s.sw.held.vals.flatten.map (fun h => (h.purpose, h.msg))).any (fun p =>
    match p.1 with
    | .gather d' id _ => d' = d && s.gth.reqs.has [d, id] && decide (a ≤ p.2.addr ∧ p.2.addr < a + 16)
    | _ => false)

/-- Positions that waited for a row start again with its index entry. -/
def State.unblock (d : Nat) (s : State) : State :=
  (s.gth.reqs.entries.filter (fun e => decide (e.1.head? = some d ∧ e.2.blocked ≠ []))).foldl (fun t e =>
    let id := e.1.getD 1 0
    (e.2.blocked.foldl (fun u i => u.readEntry d id i) (t.modReq d id (fun q => { q with blocked := [] }))).fetchGo d id) s

/-- The generation of a table (R368), shown in its status. -/
def State.setGen (slot g : Nat) (s : State) : State :=
  match s.table slot with
  | some t => ({ s with gth := { s.gth with tables := s.gth.tables.set [slot] { t with gen := g % 2 ^ 32 } } } : State).wr
      R.GTH_TABLE_STATUS_gen [slot] g
  | none => s

/-- Carry the update at the head of a die's list on (R370, R371). -/
def State.updGo (d : Nat) : Nat → State → State
  | 0, s => s
  | fuel + 1, s =>
    match s.gth.updates.get [] [d] with
    | [] => s
    | u :: rest =>
      match s.table u.slot with
      | none => s
      | some t =>
        let x := t.desc
        if u.phase = 0 ∧ u.record = u.msg.f 8 0 8 then
          let s := if u.msg.f 8 8 1 = 1 then s.setGen u.slot (t.gen + 1) else s
          let g := ((s.table u.slot).map (·.gen)).getD 0
          let s := if u.status = .ok then s else s.event B.gth 4
          let s := s.send d (s.gatherMsg u.msg 0xA9 16
            (layout [(0, 0, 32, u.msg.f 4 0 32), (4, 0, 8, u.applied), (4, 8, 8, u.dropped), (8, 0, 32, g)]) u.status)
          State.updGo d fuel (State.tableTally { s with gth := { s.gth with updates := s.gth.updates.set [d] rest } })
        else if u.phase = 0 then
          if tbRows x ≤ upRow u then State.updGo d fuel (s.modUpd d (fun u => { u.nextRecord with dropped := u.dropped + 1 }))
          else (s.modUpd d (fun u => { u with phase := 1, left := 1 })).gatherAsk d (tbTenant x) u.id 0 0x10 (tbBase x + 32 * upRow u) 32 0 0
        else if u.phase = 4 then
          if s.fetching d (u.target t) then s
          else
            let copy := u.newCopy t
            let cuts := writeCuts (u.target t) (copyBytes (tbElems x) (fieldOf copy 0 16 2))
            cuts.foldl (fun v c => v.gatherAsk d (tbTenant x) u.id 0 0x12 (u.target t + c.1) c.2 (bitsOf copy (8 * c.1) (8 * c.2)) c.2)
              (s.modUpd d (fun u => { u with phase := 5, left := cuts.length }))
        else s

def State.updRun (d : Nat) (s : State) : State :=
  s.updGo d ((s.gth.updates.get [] [d]).foldl (fun a u => a + u.msg.f 8 0 8 + 1) 1)

/-- A read or a write of the record under way is done. -/
def State.updateRead (d row : Nat) (st : Status) (data : Nat) (s : State) : State :=
  match s.gth.updates.get [] [d] with
  | [] => s
  | u :: _ =>
    match s.table u.slot with
    | none => s
    | some t =>
      let x := t.desc
      let off := row / 2 ^ 40
      let s := s.modUpd d (fun u => { u with left := u.left - 1 })
      let fail (s : State) : State := (s.modUpd d (fun u => { u.nextRecord with status := Status.join u.status st })).updRun d |>.unblock d
      let failed := u.failed || st ≠ .ok
      if 1 < u.left then
        s.modUpd d (fun u => { u with failed := failed, status := if st = .ok then u.status else Status.join u.status st,
                                      source := if u.phase = 2 then u.source + data <<< (8 * off) else u.source,
                                      live := if u.phase = 3 then u.live + data <<< (8 * off) else u.live })
      else if failed then fail s
      else match u.phase with
        | 1 =>
          if ixWidth data = 0 ∧ (¬ upReplace u ∨ upWidth u = 0) then
            (s.modUpd d (fun u => { u.nextRecord with dropped := u.dropped + 1 })).updRun d
          else
            let n := tbElems x * (if upBf16 u then 2 else 4)
            (s.modUpd d (fun u => { u with phase := 2, entry := data, left := readsFor (upSrc u) n })).gatherRead d (tbTenant x) u.id 0
              (upSrc u) n
        | 2 =>
          let s := s.modUpd d (fun u => { u with source := u.source + data <<< (8 * off) })
          if upReplace u then (s.modUpd d (fun u => { u with phase := 4 })).updRun d
          else
            let a := ixAddr u.entry + ixCopy u.entry * tbCopy x
            let n := copyBytes (tbElems x) (ixWidth u.entry)
            (s.modUpd d (fun u => { u with phase := 3, left := readsFor a n })).gatherRead d (tbTenant x) u.id 0 a n
        | 3 => (s.modUpd d (fun u => { u with phase := 4, live := u.live + data <<< (8 * off) })).updRun d
        | 5 => (s.modUpd d (fun u => { u with phase := 6, left := 1 })).gatherAsk d (tbTenant x) u.id 0 0x12 (tbBase x + 32 * upRow u) 32
            (u.newEntry t) 32
        | _ =>
          let s := (s.cacheDrop x u.slot (upRow u) (ixRgen u.entry) (u.inPlace t)).countGth d (if upReplace u then 10 else 9)
          ((s.modUpd d (fun u => { u.nextRecord with applied := u.applied + 1 })).updRun d).unblock d

/-- R370. -/
def execGaUpdate (d : Nat) (m : Msg) (s : State) : Host.Outcome State Fault Refusal :=
  serving s (
    if m.ty ≠ 0xA1 then s
    else
      let s := s.consume d m
      match s.tableOf (m.f 0 0 32) with
      | none => s.answer d m .unsupported 0 none
      | some (slot, t) =>
        if tbKv t.desc ∨ tbDie t.desc ≠ d ∨ ¬ updateShape t.desc m then s.answer d m .unsupported 0 none
        else if tbTenant t.desc ≠ m.tenant then s.answer d m .protViolation 0 none
        else
          let u : GUpd := { id := s.gth.nextId, msg := m, slot := slot }
          State.updRun d (State.tableTally { s with gth := { s.gth with
            nextId := s.gth.nextId + 1, updates := s.gth.updates.set [d] (s.gth.updates.get [] [d] ++ [u]) } }))

/-- An access of the unit is done: it belongs to a request or to the update under way; a fetch that ends may let an update
write. -/
def State.gatherDone (d id row : Nat) (st : Status) (data : Nat) (s : State) : State :=
  if s.gth.reqs.has [d, id] then (s.requestRead d id row st data).updRun d
  else if ((s.gth.updates.get [] [d]).head?.map (·.id)) = some id then s.updateRead d row st data
  else s.updRun d

/-! ### Commands (R357, R368) -/

def State.gthStage (s : State) (fn : Nat) : Nat :=
  (List.range 8).foldl (fun a k => a + s.rd R.GTH_CMD_STAGE_word [k, fn] <<< (64 * k)) 0

/-- A command of a function; T after it stands in the result. -/
def State.gthCommand (fn slot : Nat) (f : State → Status × State) (s : State) : State :=
  let r := if s.isReady B.gth then f s else (.retry, s)
  let g := ((r.2.table slot).map (·.gen)).getD 0
  let s := ((r.2.wr R.GTH_CMD_RESULT_status [fn] r.1.code).wr R.GTH_CMD_RESULT_busy [fn] 0).wr R.GTH_CMD_RESULT_gen [fn] g
  if r.1 = .ok then s else s.event B.gth 6

/-- A descriptor without reserved values, whose work area fits (R356, R357). -/
def State.tableOk (s : State) (slot x : Nat) : Bool :=
  let e := tbElems x
  decide (fieldOf x 0 0 10 = slot ∧ fieldOf x 4 29 3 = 0 ∧ fieldOf x 20 16 16 = 0 ∧ fieldOf x 24 56 8 = 0 ∧
    fieldOf x 40 13 19 = 0 ∧ fieldOf x 52 0 32 = 0 ∧ fieldOf x 56 56 8 = 0 ∧ 1 ≤ tbLimit x ∧ tbMask x ≠ 0 ∧
    32 ≤ e ∧ e % 32 = 0 ∧ 1 ≤ tbRows x ∧ tbSpm x + tbBytes x ≤ 2 ^ 21) &&
  (if tbKv x then decide (tbGen x = 0 ∧ tbRows x ≤ 2 ^ 24 ∧ e ≤ 1024 ∧ 1 ≤ tbCopy x ∧ tbCopy x ≤ 65536 ∧ tbStride x % 64 = 0 ∧
      tbCopy x ≤ tbStride x ∧ 1 ≤ tilesPerPass x)
   else decide (e ≤ 4096 ∧ tbCopy x % 64 = 0 ∧ 16 + 2 * e ≤ tbCopy x ∧ tbStride x = 0 ∧ tbBlocks x = 0 ∧ 1 ≤ rowsPerPass x)) &&
  (maskClusters x).all (fun c => s.clusterUp c && s.clusterTenant c = tbTenant x)

/-- R357. -/
def State.tableCreate (fn slot : Nat) (s : State) : State :=
  s.gthCommand fn slot (fun s =>
    let x := s.gthStage fn
    if ¬ s.tableOk slot x then (.unsupported, s)
    else if ¬ mayAct fn (tbTenant x) ∨ ¬ s.tenantActive (tbTenant x) then (.protViolation, s)
    else if s.gth.tables.has [slot] ∨ ((s.gth.freed.get? [slot]).map (fun t => decide (s.now < t + 1000000))).getD false then
      (.retry, s)
    else
      let s := (((((s.wr R.GTH_TABLE_STATUS_valid [slot] 1).wr R.GTH_TABLE_STATUS_kind [slot] (b2n (tbKv x))).wr
        R.GTH_TABLE_STATUS_tenant [slot] (tbTenant x)).wr R.GTH_TABLE_STATUS_die [slot] (tbDie x)).wr
        R.GTH_TABLE_STATUS_tag [slot] (fieldOf x 0 10 22)).wr R.GTH_TABLE_STATUS_gen [slot] (tbGen x)
      (.ok, { s with gth := { s.gth with tables := s.gth.tables.set [slot] { desc := x, gen := tbGen x } } }))

/-- R357. -/
def execTableCreate (fn slot : Nat) (s : State) : Host.Outcome State Fault Refusal :=
  hosted s (fun s => s.tableCreate fn slot)

/-- A command on an installed table of the function's tenant. -/
def State.gthOn (fn slot : Nat) (f : GTab → State → Status × State) (s : State) : State :=
  s.gthCommand fn slot (fun s =>
    match s.table slot with
    | none => (.unsupported, s)
    | some t => if mayAct fn (tbTenant t.desc) then f t s else (.protViolation, s))

/-- R368. -/
def State.tableAdvance (fn slot : Nat) (s : State) : State := s.gthOn fn slot (fun t s => if tbKv t.desc then (.unsupported, s) else (.ok, s.setGen slot (t.gen + 1)))

/-- R368. -/
def execAdvance (fn slot : Nat) (s : State) : Host.Outcome State Fault Refusal :=
  hosted s (fun s => s.tableAdvance fn slot)

/-- R357. -/
def State.tableDestroy (fn slot : Nat) (s : State) : State :=
  s.gthOn fn slot (fun _ s =>
    if s.gth.reqs.vals.any (fun q => decide (q.slot = slot)) ∨ s.gth.updates.vals.flatten.any (fun u => decide (u.slot = slot)) then
      (.retry, s)
    else
      let s := (((((s.wr R.GTH_TABLE_STATUS_valid [slot] 0).wr R.GTH_TABLE_STATUS_kind [slot] 0).wr
        R.GTH_TABLE_STATUS_tenant [slot] 0).wr R.GTH_TABLE_STATUS_die [slot] 0).wr R.GTH_TABLE_STATUS_tag [slot] 0).wr
        R.GTH_TABLE_STATUS_gen [slot] 0
      (.ok, State.cacheTally { s with gth := { s.gth with
        tables := s.gth.tables.erase [slot], freed := s.gth.freed.set [slot] s.now,
        cache := s.gth.cache.keep (fun k _ => decide (k.getD 1 0 ≠ slot)) } }))

/-- R357. -/
def execTableDestroy (fn slot : Nat) (s : State) : Host.Outcome State Fault Refusal :=
  hosted s (fun s => s.tableDestroy fn slot)

/-! ### gissue (R283) -/

/-- The core's request goes to the unit of its home die, or is forwarded to the part that serves its table (R366). -/
def State.gissue (n h : Nat) (ctr : Option Nat) (x bytes : Nat) (s : State) : State :=
  let set := s.gth.nextId
  let tenant := dTenant ((s.core n).task.getD 0)
  let s : State := { s with gth := { s.gth with
    nextId := set + 1, sets := s.gth.sets.set [n, h] (s.gth.sets.get [] [n, h] ++
      [{ id := set, slot := (((s.core n).handles.get? [h]).map (·.slot)).getD 256, ctr := ctr }]) } }
  if rqHome x = s.eid then
    let kv := ((s.tableOf (rqTable x)).map (fun t => tbKv t.2.desc)).getD false
    s.gatherTake (rqDie x) kv (.core n h ctr set) tenant x bytes
  else
    s.issue (dieOfCore n) (.gather (dieOfCore n)) (.lookup n h set)
      { chan := Ch.req, tc := 0, dst := rqHome x, src := s.eid, ty := 0xA0, mapGen := s.mapGen, len := bytes, die := rqDie x,
        tenant := tenant, body := x }

def execGissue (n : Nat) (w : BitVec 64) (s : State) : Host.Outcome State Fault Refusal :=
  serving s (s.issueAt n 0xE4 w (fun x s =>
    let a := (s.core n).sr (fA x)
    if ¬ only x [mA, mH, mCn, mCnen] then .fault Fc.illegal
    else if (s.localAt n a 32).isNone then .fault Fc.range
    else
      let bytes := max 32 (rqLen (s.peek n a 32))
      if (s.localAt n a bytes).isNone then .fault Fc.range
      else match (s.core n).handles.get? [gH x] with
        | none => .fault Fc.hunbound
        | some k =>
          if k.producer ≠ 2 then .fault Fc.hkind
          else
            let r := s.readLocal n a bytes
            .next (r.2.gissue n (gH x) (gCounter x) r.1 bytes)))

end Sys2Proof.Machine
end

