-- ==== Sys2Proof/Machine/Cluster.lean ====
section
/-! DEFINITION. The driver's pushes, stealing, the CSRAM split and the states of a cluster (R225, R227 to R231, R239 to
R245). -/

namespace Sys2Proof.Machine

/-! ### Tasks (R227, R228, R245) -/

/-- The descriptor a function has staged. -/
def State.stagedTask (s : State) (fn : Nat) : Nat :=
  (List.range 8).foldl (fun a k => a + s.rd R.CMP_TASK_STAGE_word [k, fn] <<< (64 * k)) 0

/-- R227, R228: `v` is the value written to CMP_TASK_PUSH. A virtual function's task carries its own tenant (R435). -/
def State.cmpTaskPush (fn v : Nat) (s : State) : State :=
  let desc := if fn = 0 then s.stagedTask fn else withTenant (s.stagedTask fn) fn
  let r := s.push desc (8 * bitsOf v 0 4 + bitsOf v 4 3) (bitAt v 7)
  let t := if r.1 = .ok then r.2.countCmp (bitsOf v 0 4) 2 else r.2.event B.cmp 5
  t.wr R.CMP_TASK_RESULT_status [fn] r.1.code

/-- R227, R228: `v` is the value written to CMP_TASK_PUSH. A virtual function's task carries its own tenant (R435). -/
def execCmpTaskPush (fn v : Nat) (s : State) : Host.Outcome State Fault Refusal :=
  hosted s (fun s => s.cmpTaskPush fn v)

/-- The first stalled push of a cluster that a deque has room for, or that is refused now; the others keep their order. -/
def State.resumable (s : State) (c : Nat) : Option Nat :=
  (s.cluster c).stalled.findIdx? (fun p => decide ((s.push p.desc (p.core.getD (8 * c)) p.core.isNone).1 ≠ .quota))

/-- R228: the oldest stalled push of a cluster that finds room. -/
def execPushResume (c : Nat) (s : State) : Host.Outcome State Fault Refusal :=
  serving s (
    match s.resumable c with
    | none => s
    | some i =>
      match (s.cluster c).stalled[i]? with
      | none => s
      | some p =>
        let r := s.push p.desc (p.core.getD (8 * c)) p.core.isNone
        let t := r.2.modCluster c (fun k => { k with stalled := k.stalled.eraseIdx i })
        if r.1 = .ok then t.countCmp c 1 else t.event B.cmp 5)

/-- The cores of a cluster run: it is READY, or OFFLINING with work left (R239, R240). -/
def State.coresRun (s : State) (c : Nat) : Bool := s.isReady B.cmp && (s.cst c = Cs.ready || s.cst c = Cs.offlining)

/-- A core without a task and with an empty deque (R229). -/
def State.idleCore (s : State) (n : Nat) : Bool :=
  (s.core n).task.isNone && (s.core n).deque = [] && s.coresRun (n / 8)

/-- The registers of a task that starts (R245). -/
def Core.begin (k : Core) (n desc cycles : Nat) : Core :=
  ((List.range 6).foldl (fun (c : Core) i => c.setS (1 + i) (dArg desc i))
    { k with task := some desc, start := cycles, pc := dEntry desc, flags := 0 }).setS 7 (dUser desc) |>.setS 8 n

/-- R245: a core pops the bottom of its deque; an entry that is no multiple of 8 faults (R248). -/
def execTaskStart (n : Nat) (s : State) : Host.Outcome State Fault Refusal :=
  serving s (
    match (s.core n).task, (s.core n).deque with
    | none, desc :: rest =>
      if s.coresRun (n / 8) then
        let cycles := s.pkg.cycles
        let t := (s.modCore n (fun k => ({ k with deque := rest } : Core).begin n desc cycles)).countCmp (n / 8) 0
        if dEntry desc % 8 = 0 then t.setPc n (dEntry desc) else t.taskFault n Fc.fetch
      else s
    | _, _ => s)

/-! ### Stealing (R229 to R231) -/

/-- Entries of a core's deque that a stage may take (R230). -/
def State.hintOf (s : State) (n stage : Nat) : Nat :=
  min 15 ((s.core n).deque.filter (fun d => decide (stage ≤ dScope d))).length

/-- R230: core `n` publishes its hints; its cluster's maxima follow every 64 ns and every 256 ns. -/
def execHintRefresh (n : Nat) (s : State) : Host.Outcome State Fault Refusal :=
  serving s (
    let s := ((s.wr R.CMP_CORE_STATUS_hint_cluster [n] (s.hintOf n 1)).wr R.CMP_CORE_STATUS_hint_die [n] (s.hintOf n 2)).wr
      R.CMP_CORE_STATUS_hint_pkg [n] (s.hintOf n 3)
    let c := n / 8
    let most (f : Fld) : Nat := (coresOf c).foldl (fun a m => max a (s.rd f [m])) 0
    let now := s.now
    let die := most R.CMP_CORE_STATUS_hint_die
    let pkg := most R.CMP_CORE_STATUS_hint_pkg
    s.modCluster c (fun k =>
      let k := if k.dieAt + 64 ≤ now then { k with hintDie := die, dieAt := now } else k
      if k.pkgAt + 256 ≤ now then { k with hintPkg := pkg, pkgAt := now } else k))

/-- The clusters a thief may rob in a stage, with the maximum each has published (R229, R230). -/
def State.robbable (s : State) (c stage : Nat) : List (Nat × Nat) :=
  let fit (x : Nat) : Bool :=
    if stage = 1 then decide (x = c)
    else decide (x ≠ c ∧ (x / 8 = c / 8 ↔ stage = 2) ∧ s.clusterTenant x = s.clusterTenant c ∧ s.cst x ≠ Cs.failed)
  ((List.range 16).filter fit).map (fun x =>
    (x, if stage = 1 then 15 else if stage = 2 then (s.cluster x).hintDie else (s.cluster x).hintPkg))

/-- The victim of a stage: the highest hint, in the cluster of the highest maximum, and on a tie the first core after the
thief in rotating order (R230). -/
def State.victim (s : State) (n stage : Nat) : Option Nat :=
  let low := s.rd R.CMP_STEAL_CFG_min_hint []
  let cl := (s.robbable (n / 8) stage).filter (fun e => decide (low ≤ e.2))
  let most := cl.foldl (fun a e => max a e.2) 0
  let hint (m : Nat) : Nat :=
    if stage = 1 then s.rd R.CMP_CORE_STATUS_hint_cluster [m]
    else if stage = 2 then s.rd R.CMP_CORE_STATUS_hint_die [m] else s.rd R.CMP_CORE_STATUS_hint_pkg [m]
  let cores := ((cl.filter (fun e => decide (e.2 = most))).flatMap (fun e => coresOf e.1)).filter (fun m =>
    decide (m ≠ n ∧ low ≤ hint m))
  let turn := cores.mergeSort (fun a b => decide ((a + 127 - n) % 128 ≤ (b + 127 - n) % 128))
  argMin (fun m => 15 - hint m) turn

/-- The stages a core may try: those it has reached and that are enabled; a cluster going offline takes nothing from
others (R229, R240). -/
def State.stages (s : State) (n : Nat) : List Nat :=
  let k := (s.core n).stage
  let out := s.cst (n / 8) = Cs.ready
  [1] ++ (if 2 ≤ k ∧ out ∧ s.on R.CMP_STEAL_CFG_die_en [] then [2] else [])
    ++ (if 3 ≤ k ∧ out ∧ s.on R.CMP_STEAL_CFG_pkg_en [] then [3] else [])

/-- R229: the first stage that shows a victim; the thief looks at no more than 16 entries from the top. -/
def execSteal (n : Nat) (s : State) : Host.Outcome State Fault Refusal :=
  serving s (
    if ¬ s.idleCore n then s
    else match (s.stages n).findSome? (fun st => (s.victim n st).map (fun v => (st, v))) with
      | none => s
      | some (st, v) =>
        let dq := (s.core v).deque
        let top := (List.range dq.length).reverse.take 16
        match top.find? (fun i => decide (st ≤ dScope (dq.getD i 0))) with
        | some i =>
          let d := dq.getD i 0
          ((s.modCore v (fun k => { k with deque := k.deque.eraseIdx i })).enqueueTask n d).countCmp (n / 8) (4 + st)
        | none => s.countCmp (n / 8) 8)

/-- R229: the next stage opens once the core has been idle for its delay. -/
def execStealDelayExpiry (n : Nat) (s : State) : Host.Outcome State Fault Refusal :=
  serving s (
    let k := s.core n
    let delay := if k.stage = 1 then s.rd R.CMP_STEAL_CFG_die_delay [] else s.rd R.CMP_STEAL_CFG_pkg_delay []
    if s.idleCore n ∧ k.stage < 3 ∧ 8 * delay ≤ s.now - k.idleSince then s.modCore n (fun k => { k with stage := k.stage + 1 })
    else s)

/-! ### The split of the CSRAM (R224, R225) -/

/-- A cluster writes back and drops every line: CWB_DIRTY from M, CWB_CLEAN from E, nothing from S (R150, R157, R225). -/
def State.dropLines (c : Nat) (s : State) : State :=
  (s.coh.lines.entries.filter (fun e => decide (e.1.head? = some c))).foldl (fun t e =>
    let line := e.1.getD 1 0
    let addr := t.node <<< 44 + 128 * line
    let t := t.setLine c line none
    if e.2.st < 2 then t
    else
      let dirty : Bool := e.2.st = 3
      let m : Msg :=
        { chan := Ch.rsp, dst := t.eid, src := clusterId c, ty := if dirty then 0x53 else 0x54, mapGen := t.mapGen,
          len := if dirty then 144 else 16, die := t.homeDie addr, tenant := t.clusterTenant c,
          body := layout [(0, 0, 56, addr), (0, 56, 8, (t.domOf line).getD 0)] + (if dirty then e.2.data <<< 128 else 0) }
      t.send (dieOfCluster c) m) s

/-- Handles of a cluster whose ring ends beyond so many bytes of the general share. -/
def State.ringBeyond (s : State) (c bytes : Nat) : Bool :=
  (coresOf c).any (fun n => (s.core n).handles.vals.any (fun h =>
    h.csram && decide (0x1000000 + bytes < h.base + h.slots * h.slot)))

/-- R225: `v` is the value written to CMP_CSRAM_CFG[c]. -/
def State.splitCsram (c v : Nat) (s : State) : State :=
  let g := bitsOf v 0 7
  let a := bitsOf v 8 7
  let q := bitsOf v 16 7
  if 64 < g + a + q then s.badWrite R.CMP_CSRAM_CFG_general [c]
  else if s.accumUsed c ≠ 0 ∨ s.overflow c ≠ 0 ∨ s.ringBeyond c (262144 * g) then
    (s.wr R.CMP_CLUSTER_STATUS_result [c] Status.retry.code).event B.cmp 4
  else
    let s := (s.dropLines c).cacheEmpty c
    let s := (((s.wr R.CMP_CSRAM_CFG_general [c] g).wr R.CMP_CSRAM_CFG_accum [c] a).wr R.CMP_CSRAM_CFG_taskq [c] q).wr
      R.CMP_CSRAM_CFG_row_cache [c] (64 - g - a - q)
    let s := s.wr R.CMP_CLUSTER_STATUS_result [c] 0
    { s with csram := Mem.clear s.csram (c * 2 ^ 24 + 262144 * g) (2 ^ 24 - 262144 * g) }

/-- R225. -/
def execCsramSplit (c v : Nat) (s : State) : Host.Outcome State Fault Refusal :=
  hosted s (fun s => if s.isReady B.cmp then s.splitCsram c v else s.badWrite R.CMP_CSRAM_CFG_general [c])

/-! ### The states of a cluster (R239 to R243) -/

def State.setCst (c st : Nat) (s : State) : State :=
  let now := s.now
  (s.wr R.CMP_CLUSTER_STATUS_state [c] st).modCluster c (fun k => { k with since := now, stuck := false })

/-- While any cluster is OFFLINE or FAILED the block shows DEGRADED (R239). -/
def State.cmpDegraded (s : State) : State :=
  let some_ := (List.range 16).any (fun c => s.cst c = Cs.offline || s.cst c = Cs.failed)
  let old := s.rd R.GLB_DEGRADED_degraded []
  if some_ && !bitAt old B.cmp then (s.wr R.GLB_DEGRADED_degraded [] (old ||| 1 <<< B.cmp)).event B.glb 1
  else if !some_ && bitAt old B.cmp then s.wr R.GLB_DEGRADED_degraded [] (old ^^^ 1 <<< B.cmp)
  else s

/-- Tasks of a cluster, waiting or running. -/
def State.tasksIn (s : State) (c : Nat) : Nat :=
  (coresOf c).foldl (fun a n => a + (s.core n).deque.length + b2n (s.core n).task.isSome) 0

/-- Where a task of scope DIE or PACKAGE goes from a cluster that goes offline: the READY cluster of its tenant with the
fewest tasks, on its own die first (R240). -/
def State.refugeOf (s : State) (c desc : Nat) : Option Nat :=
  let ok (x : Nat) : Bool :=
    s.clusterUp x && decide (x ≠ c ∧ s.clusterTenant x = s.clusterTenant c) && s.dequeRoom (s.fewest x)
  match argMin s.tasksIn ((List.range 16).filter (fun x => ok x && decide (x / 8 = c / 8))) with
  | some x => some x
  | none => if dScope desc = 3 then argMin s.tasksIn ((List.range 16).filter ok) else none

/-- Move the tasks of a deque that may move, oldest first. -/
def State.moveTasks (c n : Nat) (s : State) : State :=
  let l := (s.core n).deque.reverse
  l.foldl (fun t d =>
    if dScope d < 2 then t.modCore n (fun k => { k with deque := d :: k.deque })
    else match t.refugeOf c d with
      | some x => t.enqueueTask (t.fewest x) d
      | none => t.modCore n (fun k => { k with deque := d :: k.deque })) (s.modCore n (fun k => { k with deque := [] }))

/-- R240, R243: `offline` written. -/
def State.offline (c : Nat) (s : State) : State :=
  if s.cst c = Cs.ready then
    let s := s.setCst c Cs.offlining
    let s := (coresOf c).foldl (fun t n => t.moveTasks c n) s
    (((s.dropLines c).cacheEmpty c).collOffline c)
  else if s.cst c = Cs.failed then
    if (s.cluster c).stuck then s
    else (s.setCst c Cs.scrubbing).modCluster c (fun k => { k with failed := true })
  else s.badWrite R.CMP_CLUSTER_CTL_offline [c]

/-- R240, R243. -/
def execOffline (c : Nat) (s : State) : Host.Outcome State Fault Refusal :=
  hosted s (fun s => s.started R.CMP_CLUSTER_CTL_offline [c] (s.offline c))

/-- Nothing of a cluster is left to end (R240 step 4); the requests of its faulted tasks have retired (R248). -/
def State.clusterEmpty (s : State) (c : Nat) : Bool :=
  decide (s.tasksIn c = 0) && decide (s.accumUsed c = 0) && decide ((s.cached c).length = 0) &&
  decide (s.coh.lines.count (fun k _ => decide (k.head? = some c)) = 0) &&
  decide (s.coh.want.count (fun k _ => decide (k.head? = some c)) = 0) &&
  (coresOf c).all (fun n => decide ((s.core n).handles.size = 0) && decide (s.liveOf (.core n) = [])) &&
  !(s.sw.agentIn.vals.flatten.any (fun q => decide (q.msg.src = clusterId c)))

/-- A cluster leaves its member slots in the orderly way (R157). -/
def State.leaveSlots (c : Nat) (s : State) : State :=
  (s.listed R.COH_MEMBER_valid).foldl (fun t k =>
    if t.agentAt (k.headD 0) (k.getD 1 0) = some (clusterId c) then t.putMember (k.headD 0) (k.getD 1 0) 0 else t) s

/-- R240 steps 3 and 4; launches still pending are discarded (R286). -/
def execClusterScrubStart (c : Nat) (s : State) : Host.Outcome State Fault Refusal :=
  serving s (
    if s.cst c = Cs.offlining ∧ s.clusterEmpty c then
      let s := ((s.leaveSlots c).setCst c Cs.scrubbing).modCluster c (fun k => { k with stalled := [] })
      (coresOf c).foldl (fun t n => t.modCore n (fun k => { k with launches := [] })) s
    else s)

/-- What the scarab engine clears of a cluster (R397). -/
def State.scrubCluster (c : Nat) (s : State) : State :=
  let s := (coresOf c).foldl (fun t n =>
    let t := ((t.core n).handles.keys).foldl (fun u k => u.unbind n (k.headD 0)) t
    { t with cores := t.cores.erase [n], spm := Mem.clear t.spm (n * 2 ^ 21) (2 ^ 21) }) s
  { s with csram := Mem.clear s.csram (c * 2 ^ 24) (2 ^ 24),
           clusters := s.clusters.erase [c] }

/-- R240 step 5, R397. -/
def execClusterOffline (c : Nat) (s : State) : Host.Outcome State Fault Refusal :=
  serving s (
    if s.cst c = Cs.scrubbing then
      (((((s.scrubCluster c).setCst c Cs.offline).bump R.SEC_CNT_count [7]).event B.cmp 1).cmpDegraded)
    else s)

/-- R240, R243: offlining, or the scrub of a failed cluster, has outlasted CMP_OFFLINE_CFG.timeout. -/
def execOfflineStuck (c : Nat) (s : State) : Host.Outcome State Fault Refusal :=
  serving s (
    let k := s.cluster c
    if k.stuck ∨ s.now < k.since + 1000 * s.rd R.CMP_OFFLINE_CFG_timeout [] then s
    else if s.cst c = Cs.offlining then (s.modCluster c (fun k => { k with stuck := true })).event B.cmp 3
    else if s.cst c = Cs.scrubbing ∧ k.failed then
      ((s.setCst c Cs.failed).modCluster c (fun k => { k with stuck := true })).event B.cmp 3
    else s)

/-- R240: `kill` written. -/
def State.kill (c : Nat) (s : State) : State :=
  if s.cst c = Cs.offlining ∧ (s.cluster c).stuck then
    (coresOf c).foldl (fun t n =>
      let t := if (t.core n).task.isSome then t.taskFault n Fc.killed else t
      ((t.core n).handles.keys).foldl (fun u k => u.release n (k.headD 0)) t) s
  else s.badWrite R.CMP_CLUSTER_CTL_kill [c]

/-- R240. -/
def execKill (c : Nat) (s : State) : Host.Outcome State Fault Refusal :=
  hosted s (fun s => s.started R.CMP_CLUSTER_CTL_kill [c] (s.kill c))

/-- R241: `online` written. -/
def State.online (c : Nat) (s : State) : State :=
  if s.cst c = Cs.offline then s.setCst c Cs.onlining else s.badWrite R.CMP_CLUSTER_CTL_online [c]

/-- R241. -/
def execOnline (c : Nat) (s : State) : Host.Outcome State Fault Refusal :=
  hosted s (fun s => s.started R.CMP_CLUSTER_CTL_online [c] (s.online c))

/-- R241: READY, with the split it had; its cores are idle from now on. -/
def execClusterOnlineDone (c : Nat) (s : State) : Host.Outcome State Fault Refusal :=
  serving s (
    if s.cst c = Cs.onlining then
      let now := s.now
      ((coresOf c).foldl (fun t n => t.modCore n (·.ended now)) (s.setCst c Cs.ready)).cmpDegraded
    else s)

/-- R243: an uncorrectable error in a core, its scratchpad or the CSRAM. -/
def execClusterFailed (c : Nat) (s : State) : Host.Outcome State Fault Refusal :=
  serving s (
    if ¬ s.isReady B.cmp ∨ s.cst c = Cs.offline ∨ s.cst c = Cs.failed then s
    else
      let s := s.setCst c Cs.failed
      let s := (coresOf c).foldl (fun t n =>
        let t := ((t.core n).handles.keys).foldl (fun u k => u.unbind n (k.headD 0)) t
        { t with cores := t.cores.erase [n] }) s
      let s := s.modCluster c (fun k => { k with stalled := [], hintDie := 0, hintPkg := 0 })
      let s : State := { s with coh := { s.coh with
        lines := s.coh.lines.keep (fun k _ => decide (k.head? ≠ some c)),
        want := s.coh.want.keep (fun k _ => decide (k.head? ≠ some c)) } }
      let s := ((s.declareAgent (clusterId c) 4).settleBindings.gatherFailed c).collFailed c
      ((s.event B.cmp 2).degraded (dieOfCluster c) B.cmp c 0).cmpDegraded)

end Sys2Proof.Machine
end

