-- ==== Sys2Proof/Machine/Security.lean ====
section
/-! DEFINITION. Boot, firmware, identity and evidence, debug, tenants and strict isolation (R377 to R398, R402), with the
mailbox reply their requests get (R451, R452). -/

namespace Sys2Proof.Machine

/-! ### Mailbox replies (R451, R452) -/

/-- The sequence number that starts the next request of a function. -/
def State.nextMail (s : State) (fn : Nat) : Nat := (s.rd R.MRN_REPLY_HDR_seq [fn] + 1) % 65536

/-- The Marionette's firmware runs (R385). -/
def State.firmware (s : State) : Bool := s.rd R.SEC_BOOT_STATUS_stage [] = 2

def State.inRecovery (s : State) : Bool := s.rd R.SEC_BOOT_STATUS_stage [] = 1

/-- The mailbox ops (R453). -/
def Op.imageLoad : Nat := 0x0001
def Op.imageUnload : Nat := 0x0002
def Op.fmCommand : Nat := 0x0010
def Op.fmExpel : Nat := 0x0011
def Op.reportFetch : Nat := 0x0012
def Op.fwWrite : Nat := 0x0020
def Op.fwHandover : Nat := 0x0021
def Op.fwPush : Nat := 0x0022
def Op.configWrite : Nat := 0x0023
def Op.endorseWrite : Nat := 0x0024
def Op.debugAuth : Nat := 0x0025

/-- A mailbox request of a function carried out by the Marionette: held back during a hand-over (R391), answered with RETRY
without firmware (R386, R452), else carried out and answered. A function whose request is pending sends no other. -/
def State.mailed (fn op : Nat) (operands bulk : List Byte) (f : State → Status × State) (s : State) : State :=
  if s.pkg.expelled ∨ s.hif.mbox.has [fn] then s
  else if ¬ s.firmware ∧ ¬ (s.inRecovery ∧ op = Op.fwPush) then s.mailReply fn (s.nextMail fn) .retry []
  else if s.sec.restarted.isSome then
    State.setBusyBit fn true { s with hif := { s.hif with
      mbox := s.hif.mbox.set [fn] { seq := s.nextMail fn, op := op, operands := operands, bulk := bulk },
      waiting := s.hif.waiting ++ [some fn] } }
  else
    let r := f s
    let t := r.2.mailReply fn (s.nextMail fn) r.1 []
    if r.1 = .ok then t else t.event B.sec 6

/-! ### Flash (R379) -/

def Fl.config : Nat := 0x08000000
def Fl.endorse : Nat := 0x08100000
def Fl.helper : Nat := 0x08110000

def State.flashRead (s : State) (a n : Nat) : List Byte := Mem.readN s.flash a n

/-- Erase an area and write bytes at its start. -/
def State.flashWrite (a size : Nat) (b : List Byte) (s : State) : State :=
  { s with flash := Mem.writeAll (Mem.clear s.flash a size) a b }

/-- The bytes of an area up to the last one that is not erased. -/
def State.flashArea (s : State) (a size : Nat) : List Byte :=
  let last := (s.flash.filter (fun c => decide (a ≤ c.1 ∧ c.1 < a + size))).foldl (fun m c => max m (c.1 + 1 - a)) 0
  s.flashRead a last

/-! ### The firmware image (R380, R381, R385) -/

def sha (b : List Byte) : Nat := Config.sha256 b % 2 ^ 256

def sigLength : Nat := 7856

def Hd.nsec (h : Nat) : Nat := fieldOf h 12 0 8
def Hd.resident (h : Nat) : Nat := fieldOf h 12 8 8
def Hd.off (h i : Nat) : Nat := fieldOf h (64 + 48 * i) 0 32
def Hd.len (h i : Nat) : Nat := fieldOf h (68 + 48 * i) 0 32
def Hd.kind (h i : Nat) : Nat := fieldOf h (72 + 48 * i) 0 8
def Hd.digest (h i : Nat) : Nat := fieldOf h (80 + 48 * i) 0 256
def Hd.version (h : Nat) : Nat := fieldOf h 8 0 32

/-- The section table (R380). -/
def Hd.tableOk (h : Nat) : Bool :=
  let n := Hd.nsec h
  decide (1 ≤ n ∧ n ≤ 64 ∧ Hd.resident h < n ∧ Hd.kind h (Hd.resident h) = 1 ∧ Hd.len h (Hd.resident h) ≤ 6 * 2 ^ 20) &&
  (List.range n).all (fun i =>
    decide (Hd.off h i % 4096 = 0 ∧ 0x4000 ≤ Hd.off h i ∧ Hd.off h i + Hd.len h i ≤ Fl.config ∧ 1 ≤ Hd.kind h i ∧ Hd.kind h i ≤ 3 ∧
      fieldOf h (72 + 48 * i) 8 56 = 0) &&
    (List.range i).all (fun j => decide (Hd.off h i + Hd.len h i ≤ Hd.off h j ∨ Hd.off h j + Hd.len h j ≤ Hd.off h i))) &&
  (List.range 64).all (fun i => decide (i < n ∨ fieldOf h (64 + 48 * i) 0 384 = 0))

/-- The silicon's stepping, B0 (R476). -/
def stepping : Nat := 0x0010

/-- What a header and its signature are refused for, as a code of SEC_BOOT_STATUS.fail; `b` is the bytes from offset 0. -/
def headerFault (b : List Byte) : Option Nat :=
  let h := natOfBytes (b.take 3136)
  let key := fieldOf h 4 16 8
  if 2 ≤ key then some 2
  else if fieldOf h 0 0 32 ≠ 0x57465041 ∨ fieldOf h 4 0 16 ≠ 1 ∨
      ¬ Config.sigOk (Config.vendorPk key) 0x01 (b.take 3136) ((b.drop 3136).take sigLength) then some 1
  else if stepping < fieldOf h 16 0 16 then some 2
  else if fieldOf h 4 24 8 ≠ 0 ∨ fieldOf h 12 16 16 ≠ 0 ∨ fieldOf h 16 16 16 ≠ 0 ∨ fieldOf h 20 0 352 ≠ 0 ∨ ¬ Hd.tableOk h then some 3
  else none

/-- The header in flash, with its signature. -/
def State.header (s : State) : List Byte := s.flashRead 0 (3136 + sigLength)

def State.headNum (s : State) : Nat := natOfBytes (s.flashRead 0 3136)

/-- A section in flash has the digest its header gives (R381). -/
def State.sectionOk (s : State) (i : Nat) : Bool :=
  let h := s.headNum
  decide (sha (s.flashRead (Hd.off h i) (Hd.len h i)) = Hd.digest h i)

/-- Every section of the image in flash, read back (R386, R391). -/
def State.sectionsOk (s : State) : Bool := (List.range (Hd.nsec s.headNum)).all s.sectionOk

/-! ### Measurements (R387) -/

def State.ms (s : State) (k : Nat) : Nat :=
  (List.range 4).foldl (fun a j => a + s.rd R.SEC_MEAS_bytes [k, j] <<< (64 * j)) 0

def State.setMs (k v : Nat) (s : State) : State :=
  (List.range 4).foldl (fun t j => t.wr R.SEC_MEAS_bytes [k, j] (bitsOf v (64 * j) 64)) s

def State.extendMs (k x : Nat) (s : State) : State := s.setMs k (sha (bytesOfNat 32 (s.ms k) ++ bytesOfNat 32 x))

/-! ### The configuration record (R382, R383) -/

/-- The entries of a record: type, critical and value; none where they do not fill the record exactly. -/
def parseEntries : Nat → List Byte → Option (List (Nat × Bool × List Byte))
  | _, [] => some []
  | 0, _ => none
  | fuel + 1, b =>
    if b.length < 8 then none
    else
      let h := natOfBytes (b.take 8)
      let n := bitsOf h 32 32
      let padded := 8 * ceilDiv n 8
      if bitsOf h 17 15 ≠ 0 ∨ b.length < 8 + padded then none
      else (parseEntries fuel (b.drop (8 + padded))).map ((bitsOf h 0 16, bitAt h 16, (b.drop 8).take n) :: ·)

def knownEntry (t : Nat) : Bool := 1 ≤ t && t ≤ 5

/-- The record in flash: its bytes, owner key and entries, where it is valid. -/
def State.record (s : State) : Option (List Byte × Nat × List (Nat × Bool × List Byte)) :=
  let head := natOfBytes (s.flashRead Fl.config 64)
  let n := fieldOf head 12 0 32
  if fieldOf head 0 0 32 ≠ 0x46435041 ∨ fieldOf head 4 0 16 ≠ 1 ∨ fieldOf head 4 16 16 ≠ 0 ∨ n < 64 ∨ 1040720 < n ∨
      fieldOf head 48 0 128 ≠ 0 then none
  else
    let body := s.flashRead Fl.config n
    let sig := s.flashRead (Fl.config + n) sigLength
    let pk := fieldOf head 16 0 256
    if ¬ Config.sigOk pk 0x02 body sig then none
    else match parseEntries n (body.drop 64) with
      | some l => if l.any (fun e => !knownEntry e.1 && e.2.1) then none else some (body ++ sig, pk, l)
      | none => none

/-- The value of an entry of the record in force. -/
def State.entry (s : State) (t : Nat) : Option (List Byte) := (s.sec.entries.find? (fun e => e.1 = t)).map (·.2)

/-- The delays of entry 0x0001: the images of MEM_DLY_DQ, then of MEM_DLY_CA, eight bytes each in the order of their
offsets (R198). -/
def State.loadDelays (b : List Byte) (s : State) : State :=
  let word (k : Nat) : Nat := natOfBytes ((b.drop (8 * k)).take 8)
  (List.range (b.length / 8)).foldl (fun t k =>
    let x := word k
    if k < 25600 then
      let ix := [k / 1280, k / 40 % 32, k % 40]
      (((t.wr R.MEM_DLY_DQ_rd_fine ix (bitsOf x 0 7)).wr R.MEM_DLY_DQ_rd_coarse ix (bitsOf x 8 3)).wr
        R.MEM_DLY_DQ_wr_fine ix (bitsOf x 16 7)).wr R.MEM_DLY_DQ_wr_coarse ix (bitsOf x 24 3)
    else if k < 25600 + 5760 then
      let j := k - 25600
      let ix := [j / 288, j / 18 % 16, j % 18]
      (t.wr R.MEM_DLY_CA_fine ix (bitsOf x 0 7)).wr R.MEM_DLY_CA_coarse ix (bitsOf x 8 3)
    else t) s

/-! ### Boot (R384 to R386, R443) -/

/-- Identity, formed before the header is read. -/
def State.bootIdentity (s : State) : State :=
  if Config.pufOk (s.flashRead Fl.helper 65536) then
    (List.range 4).foldl (fun t j => t.wr R.SEC_IDENTITY_PK_bytes [j] (bitsOf Config.identityPk (64 * j) 64))
      (s.wr R.SEC_BOOT_STATUS_identity_ok [] 1)
  else s.wr R.SEC_BOOT_STATUS_identity_ok [] 0

/-- The recovery ports (R386): the reach of entry 0x0002, and long reach without a valid record. -/
def State.recoveryPorts (s : State) : State :=
  let reach := match s.record with
    | some r => ((r.2.2.find? (fun e => e.1 = 2)).map (fun e => natOfBytes e.2.2)).getD 0
    | none => 0
  [(0, 0), (128, 256)].foldl (fun t e =>
    let t := (t.wr R.PRT_PORT_CFG_first_lane [e.1] e.2).wr R.PRT_PORT_CFG_width [e.1] 3
    let t := (List.range 8).foldl (fun u i => u.wr R.PRT_LANE_CFG_reach [e.2 + i] (bitsOf reach (e.1 / 128) 1)) t
    t.enablePort e.1) s

/-- The configuration record takes effect (R382, R383). -/
def State.bootRecord (s : State) : State :=
  match s.record with
  | none => s.event B.sec 0
  | some (bytes, pk, l) =>
    let s := (((s.wr R.SEC_BOOT_STATUS_config_ok [] 1).setMs 2 (sha bytes)).setMs 3 (sha (bytesOfNat 32 pk))).bumpBy R.SEC_CNT_count [9]
      (l.filter (fun e => !knownEntry e.1)).length
    let s : State := { s with sec := { s.sec with
      ownerPk := pk, entries := (l.filter (fun e => knownEntry e.1)).map (fun e => (e.1, e.2.2)) } }
    let iso := natOfBytes ((s.entry 4).getD [])
    let s := (s.wr R.SEC_ISO_strict [] (bitsOf iso 0 1)).wr R.SEC_LOCK_lock [] (bitsOf iso 1 1)
    let s : State := if bitAt iso 0 then { s with sec := { s.sec with isoBeat := some (s.beat + 1) } } else s
    s.loadDelays ((s.entry 1).getD [])

/-- R385: the checks of steps 1 to 5, and the jump or recovery. -/
def execBootCheckDone (s : State) : Host.Outcome State Fault Refusal :=
  clocked s (
    if s.rd R.SEC_BOOT_STATUS_stage [] ≠ 0 then s
    else
      let s := s.bootIdentity.setMs 0 Config.romDigest
      let h := s.headNum
      let bad : Option Nat := match headerFault s.header with
        | some c => some c
        | none => if s.sectionOk (Hd.resident h) then none else some 4
      match bad with
      | some c =>
        let s := (s.wr R.SEC_BOOT_STATUS_stage [] 1).wr R.SEC_BOOT_STATUS_fail [] c
        ([B.glb, B.sec, B.mrn].foldl (fun t b => t.ready b) s).recoveryPorts
      | none =>
        let digest := sha (s.flashRead 0 3136)
        let s := (((((s.wr R.SEC_BOOT_STATUS_stage [] 2).wr R.SEC_BOOT_STATUS_fail [] 0).wr R.SEC_BOOT_STATUS_key_index []
          (fieldOf h 4 16 8)).wr R.SEC_BOOT_STATUS_booted_version [] (Hd.version h)).wr R.SEC_FW_STATUS_running_version []
          (Hd.version h)).setMs 1 digest
        let s : State := { s with sec := { s.sec with running := digest } }
        [B.glb, B.sec, B.ras, B.pwr, B.dbg, B.mrn, B.prt, B.swc, B.edg, B.trk, B.cdc, B.mem, B.brd, B.cmp].foldl
          (fun t b => t.ready b) s.bootRecord)

/-! ### Updating firmware (R386, R391) -/

/-- Write an image: its header is checked before anything is erased, and every section is read back. -/
def State.putImage (image : List Byte) (s : State) : Status × State :=
  match headerFault image with
  | some c => (.unsupported, if s.inRecovery then s.wr R.SEC_BOOT_STATUS_fail [] c else s)
  | none =>
    let s := (s.flashWrite 0 Fl.config (image.take Fl.config)).wr R.SEC_FW_STATUS_staged_ok [] 0
    if s.sectionsOk then (.ok, s)
    else (.unsupported, if s.inRecovery then s.wr R.SEC_BOOT_STATUS_fail [] 4 else s.event B.sec 4)

/-- FW_PUSH: in recovery only; the boot ROM restarts at step 3. -/
def State.fwPush (image : List Byte) (s : State) : Status × State :=
  if ¬ s.inRecovery then (.unsupported, s)
  else
    let r := s.putImage image
    if r.1 = .ok then (.ok, r.2.wr R.SEC_BOOT_STATUS_stage [] 0) else r

/-- A write of the image, or a hand-over, is pending (R391). -/
def State.fwBusy (s : State) : Bool :=
  s.on R.SEC_FW_STATUS_handover_pending [] || s.ras.objects.vals.any (fun o => decide (o.op = 0x0601))

def State.fwWrite (image : List Byte) (s : State) : Status × State :=
  if s.on R.SEC_FW_STATUS_handover_pending [] then (.retry, s)
  else
    let r := s.putImage image
    if r.1 = .ok then (.ok, r.2.wr R.SEC_FW_STATUS_staged_ok [] 1) else r

def State.fwHandover (beat : Nat) (s : State) : Status × State :=
  if ¬ s.on R.SEC_FW_STATUS_staged_ok [] then (.unsupported, s)
  else if s.fwBusy then (.retry, s)
  else (.ok, ((s.wr R.SEC_FW_STATUS_handover_pending [] 1).wr R.SEC_FW_BEAT_beat [] (launchBeat beat s.beat)).lateIf beat s.beat)

/-- Only the physical function may ask. -/
def pfOnly (fn : Nat) (s : State) (r : Status × State) : Status × State := if fn = 0 then r else (.protViolation, s)

/-- R386. -/
def execFwPush (image : List Byte) (s : State) : Host.Outcome State Fault Refusal :=
  clocked s (s.mailed 0 Op.fwPush [] image (fun t => t.fwPush image))

/-- R391. -/
def execFwWrite (fn : Nat) (image : List Byte) (s : State) : Host.Outcome State Fault Refusal :=
  clocked s (s.mailed fn Op.fwWrite [] image (fun t => pfOnly fn t (if t.fwBusy then (.retry, t) else t.fwWrite image)))

/-- R391. -/
def execFwHandover (fn beat : Nat) (s : State) : Host.Outcome State Fault Refusal :=
  clocked s (s.mailed fn Op.fwHandover (bytesOfNat 4 beat) [] (fun t => pfOnly fn t (t.fwHandover beat)))

/-- R391 steps 1 and 2, at the beat: the staged resident section is checked and the Marionette restarts into it. -/
def execHandover (s : State) : Host.Outcome State Fault Refusal :=
  clocked s (
    if ¬ s.on R.SEC_FW_STATUS_handover_pending [] ∨ s.sec.restarted.isSome ∨ ahead (s.rd R.SEC_FW_BEAT_beat []) s.beat then s
    else if ¬ s.sectionOk (Hd.resident s.headNum) then
      ((s.wr R.SEC_FW_STATUS_handover_pending [] 0).event B.sec 2).event B.sec 4
    else
      let digest := sha (s.flashRead 0 3136)
      let s := s.extendMs 5 digest
      { s with sec := { s.sec with running := digest,
                                   restarted := some (s.now, s.sec.running, s.rd R.SEC_FW_STATUS_running_version []) } })

/-! ### The record, the endorsement, debug (R383, R384, R393) -/

def State.configWrite (record : List Byte) (s : State) : Status × State :=
  if 2 ^ 20 < record.length then (.unsupported, s) else (.ok, s.flashWrite Fl.config (2 ^ 20) record)

def State.endorseWrite (record : List Byte) (s : State) : Status × State :=
  if 65536 < record.length then (.unsupported, s) else (.ok, s.flashWrite Fl.endorse 65536 record)

/-- R383. -/
def execConfigWrite (fn : Nat) (record : List Byte) (s : State) : Host.Outcome State Fault Refusal :=
  clocked s (s.mailed fn Op.configWrite [] record (fun t => pfOnly fn t (t.configWrite record)))

/-- R384. -/
def execEndorseWrite (fn : Nat) (record : List Byte) (s : State) : Host.Outcome State Fault Refusal :=
  clocked s (s.mailed fn Op.endorseWrite [] record (fun t => pfOnly fn t (t.endorseWrite record)))

/-- SEC_DEBUG_NONCE: the value drawn last. -/
def State.debugNonce (s : State) : Nat := Config.freeValue s.sec.nonce % 2 ^ 128

/-- The checks of R393; each attempt replaces the nonce. -/
def State.debugAuth (record : List Byte) (s : State) : Status × State :=
  let body := record.take 52
  let x := natOfBytes body
  let good := record.length = 52 + sigLength ∧ s.on R.SEC_BOOT_STATUS_identity_ok [] ∧
    fieldOf x 0 0 256 = Config.identityPk % 2 ^ 256 ∧ fieldOf x 32 0 128 = s.debugNonce ∧
    natOfBytes ((s.entry 5).getD []) = 1 ∧ Config.sigOk s.sec.ownerPk 0x05 body (record.drop 52)
  let t := s.drew
  let t : State := { t with sec := { t.sec with nonce := s.fresh } }
  if good then
    (.ok, ((t.extendMs 4 (sha record)).wr R.DBG_AUTH_STATUS_open [] (t.rd R.DBG_AUTH_STATUS_open [] ||| fieldOf x 48 0 32)).event
      B.sec 5)
  else (.protViolation, t)

/-- R393. In a freeze the record comes through the 1687 instrument, which the test clock serves (R431). -/
def execDebugAuth (fn : Nat) (record : List Byte) (s : State) : Host.Outcome State Fault Refusal :=
  finish s (
    if s.pkg.frozen then (s.debugAuth record).2
    else if s.stopped then s
    else s.mailed fn Op.debugAuth [] record (fun t => pfOnly fn t (t.debugAuth record)))

/-! ### Program images (R249) -/

/-- The code words of an image. -/
def codeWords (b : List Byte) : List (BitVec 64) :=
  (List.range (b.length / 8)).map (fun k => BitVec.ofNat 64 (natOfBytes ((b.drop (8 * k)).take 8)))

/-- What an image is refused for. -/
def imageOk (index : Nat) (b : List Byte) : Bool :=
  let h := natOfBytes (b.take 64)
  let n := fieldOf h 8 0 32
  decide (fieldOf h 0 0 32 = 0x44504C41 ∧ fieldOf h 4 0 16 = 1 ∧ fieldOf h 4 16 16 = 0 ∧ n % 8 = 0 ∧ 8 ≤ n ∧ n ≤ 262144 ∧
    fieldOf h 12 0 8 = index ∧ fieldOf h 12 8 24 = 0 ∧ fieldOf h 16 0 128 = 0 ∧ b.length = 64 + n ∧
    sha (b.drop 64) = fieldOf h 32 0 256)

/-- Bytes of code a tenant has loaded. -/
def State.loadedBytes (s : State) (t : Nat) : Nat :=
  s.images.entries.foldl (fun a e => if e.1.head? = some t then a + 8 * e.2.code.length else a) 0

/-- The image store's slot is usable (R444). -/
def State.storeReady (s : State) : Bool :=
  match s.tier.store.bind (fun e => s.tier.loc.get? [e]) with
  | some l => s.unitReady l.board l.unit
  | none => false

def State.imageLoad (fn t index : Nat) (image : List Byte) (s : State) : Status × State :=
  if ¬ mayAct fn t ∨ ¬ s.tenantActive t then (.protViolation, s)
  else if ¬ imageOk index image then (.unsupported, s)
  else if ¬ s.isReady B.cmp ∨ ¬ s.storeReady ∨ s.images.has [t, index] then (.retry, s)
  else if 262144 < s.loadedBytes t + (image.length - 64) then (.quota, s)
  else (.ok, { s with images := s.images.set [t, index] { code := codeWords (image.drop 64), digest := sha (image.drop 64) } })

/-- A descriptor names an image of a tenant. -/
def names (t index desc : Nat) : Bool := dTenant desc = t && dImage desc = index

/-- Tasks and agents' descriptors that name an image (R249). -/
def State.imageUsed (s : State) (t index : Nat) : Bool :=
  s.cores.vals.any (fun k => k.deque.any (names t index) || (k.task.map (names t index)).getD false ||
    k.launches.any (fun l => names t index l.desc)) ||
  s.clusters.vals.any (fun c => c.stalled.any (fun p => names t index p.desc)) ||
  s.clt.colls.vals.any (fun c => coUpdate c.desc && coTenant c.desc = t && coImage c.desc = index) ||
  s.gth.tables.vals.any (fun b => tbTenant b.desc = t && tbImage b.desc = index)

def State.imageUnload (fn t index : Nat) (s : State) : Status × State :=
  if ¬ mayAct fn t then (.protViolation, s)
  else if ¬ s.isReady B.cmp ∨ s.imageUsed t index then (.retry, s)
  else (.ok, { s with images := s.images.erase [t, index] })

/-- R249. -/
def execImageLoad (fn tenant index : Nat) (image : List Byte) (s : State) : Host.Outcome State Fault Refusal :=
  clocked s (s.mailed fn Op.imageLoad (bytesOfNat 1 tenant ++ bytesOfNat 1 index) image (fun t => t.imageLoad fn tenant index image))

/-- R249. -/
def execImageUnload (fn tenant index : Nat) (s : State) : Host.Outcome State Fault Refusal :=
  clocked s (s.mailed fn Op.imageUnload (bytesOfNat 1 tenant ++ bytesOfNat 1 index) [] (fun t => t.imageUnload fn tenant index))

/-! ### Evidence (R388 to R390) -/

/-- An object for function `fn` to read, or for the Apold that asked, in MG_EVID_RSP packets (R412, R413). -/
def State.giveObject (fn : Nat) (via : Option (Nat × Nat)) (b : List Byte) (s : State) : State :=
  match via with
  | none => { s with hif := { s.hif with doe := s.hif.doe.set [fn] b } }
  | some (eid, seq) =>
    let all := bytesOfNat 4 (b.length + 8) ++ bytesOfNat 4 0 ++ b
    (List.range (ceilDiv all.length 4080)).foldl (fun t k =>
      let part := (all.drop (4080 * k)).take 4080
      let m := t.mgMsg 0xB9 eid seq 0 .ok part
      t.send 0 { m with body := m.body + (4080 * k) <<< 96 }) s

def State.evidenceRefused (fn : Nat) (via : Option (Nat × Nat)) (st : Status) (s : State) : State :=
  ((s.bump R.SEC_CNT_count [1]).event B.sec 7).giveObject fn via (bytesOfNat 4 st.code ++ bytesOfNat 4 0)

/-- The statuses of R390, the one of lowest precedence number where several apply (R14). -/
def State.evidenceRefusal (s : State) (fn : Nat) (via : Option (Nat × Nat)) (scope : Nat) (kem : Bool) : Status :=
  let cases_ : List (Bool × Status) :=
    [(kem && (decide (scope ≠ fn) || via.isSome), .unsupported), (!s.on R.SEC_BOOT_STATUS_identity_ok [], .unsupported),
     (decide (32 ≤ scope ∧ scope ≠ 0xFF), .unsupported), (decide (fn ≠ 0 ∧ scope ≠ fn), .protViolation),
     (decide (4 ≤ (s.sec.evidence.filter (fun e => decide (e.fn = fn ∧ e.via.isSome = via.isSome))).length) || !s.firmware, .retry)]
  cases_.foldl (fun a e => if e.1 then (if a = .ok then e.2 else Status.join a e.2) else a) .ok

/-- A decapsulation key is discarded (R398). -/
def State.dropDk (fn : Nat) (s : State) : State :=
  let t : State := { s with sec := { s.sec with dks := s.sec.dks.erase [fn] } }
  if t.rd R.SEC_SESSION_state [fn] = 1 then t.wr R.SEC_SESSION_state [fn] 0 else t

/-- Take an evidence request: refused at once, or queued, with a key pair drawn when asked. One with kem = 1 discards the
key pair before it even where it is refused. -/
def State.evidenceReq (fn : Nat) (via : Option (Nat × Nat)) (scope : Nat) (kem : Bool) (nonce : Nat) (s : State) : State :=
  let st := s.evidenceRefusal fn via scope kem
  if st ≠ .ok then (if kem && via.isNone then s.dropDk fn else s).evidenceRefused fn via st
  else
    let r : EvReq := { fn := fn, via := via, scope := scope, nonce := nonce % 2 ^ 256, kem := if kem then some s.fresh else none }
    let t : State := if kem then s.drew else s
    let k : Dk := { kem := s.fresh, nonce := nonce % 2 ^ 256, since := s.now }
    let dks := if kem then t.sec.dks.set [fn] k else t.sec.dks
    let t : State := { t with sec := { t.sec with evidence := t.sec.evidence ++ [r], dks := dks } }
    if kem ∧ t.rd R.SEC_SESSION_state [fn] = 0 then t.wr R.SEC_SESSION_state [fn] 1 else t

/-- R388, R390, R398. -/
def execEvidenceReq (fn scope : Nat) (kem : Bool) (nonce : Nat) (s : State) : Host.Outcome State Fault Refusal :=
  clocked s (s.evidenceReq fn none scope kem nonce)

/-- The encapsulation key of a drawn key pair, 1,568 bytes. -/
def ekOf (kem : Option Nat) : List Byte :=
  match kem with
  | some k => bytesOfNat 1568 (Config.kemKey k)
  | none => []

/-- One bit per cluster of a tenant (R389). -/
def State.clusterMask (s : State) (t : Nat) : Nat :=
  (List.range 16).foldl (fun a c => a + b2n (s.clusterTenant c = t) <<< c) 0

/-- A tenant's state; tenant 0 is always ACTIVE (R394). -/
def State.tenantState (s : State) (t : Nat) : Nat := if t = 0 then 1 else s.rd R.SEC_TENANT_state [t]

/-- Evidence without its signature (R389). -/
def State.evidence (s : State) (r : EvReq) : List Byte :=
  let imgs := if r.scope < 32 then s.images.entries.filter (fun e => decide (e.1.head? = some r.scope)) else []
  let len := if r.scope < 32 then 392 + 40 * imgs.length else 384
  let digest := match r.kem with
    | some _ => sha (ekOf r.kem)
    | none => 0
  let head := layout ([(0, 0, 32, 0x56455041), (4, 0, 16, 1), (4, 16, 16, stepping), (8, 0, 32, len), (12, 0, 8, r.scope),
    (12, 8, 1, s.rd R.SEC_ISO_active []), (12, 9, 1, b2n (s.ms 4 ≠ 0)), (16, 0, 256, r.nonce), (48, 0, 256, Config.identityPk),
    (336, 0, 64, s.ftHub), (344, 0, 32, s.rd R.SEC_BOOT_STATUS_booted_version []),
    (348, 0, 32, s.rd R.SEC_FW_STATUS_running_version []), (352, 0, 256, digest)] ++
    (List.range 8).map (fun k => (80 + 32 * k, 0, 256, s.ms k)))
  let tail_ := layout [(0, 0, 2, s.tenantState r.scope), (0, 2, 1, s.rd R.SEC_TENANT_key_valid [r.scope]),
    (0, 3, 1, s.rd R.SEC_TENANT_session_open [r.scope]), (0, 16, 16, s.clusterMask r.scope), (4, 0, 16, imgs.length)]
  bytesOfNat 384 head ++ (if r.scope < 32 then
    bytesOfNat 8 tail_ ++ imgs.flatMap (fun e => bytesOfNat 8 (e.1.getD 1 0) ++ bytesOfNat 32 e.2.digest) else [])

/-- R389: the oldest request is signed and answered. -/
def execEvidenceRsp (s : State) : Host.Outcome State Fault Refusal :=
  clocked s (
    match s.sec.evidence with
    | [] => s
    | r :: rest =>
      let body := s.evidence r
      let ev := body ++ bytesOfNat sigLength (Config.sign s.fresh ([0x03] ++ body))
      let s : State := { s.drew with sec := { s.sec with evidence := rest } }
      (s.bump R.SEC_CNT_count [0]).giveObject r.fn r.via
        (bytesOfNat 4 0 ++ bytesOfNat 4 ev.length ++ ev ++ s.flashArea Fl.endorse 65536 ++ ekOf r.kem))

/-! ### Bounce sessions (R398) -/

def State.bnc (s : State) (f : Nat) : Bounce := s.sec.bounce.get {} [f]

def State.modBnc (f : Nat) (g : Bounce → Bounce) (s : State) : State :=
  { s with sec := { s.sec with bounce := s.sec.bounce.set [f] (g (s.bnc f)) } }

/-- A register of a function's BAR4 page: area 1 is bounce control, 2 the apertures (R439). -/
def State.bar4 (s : State) (f off area : Nat) : Nat := s.hif.bar4.get 0 [f, off, area]

def State.setBar4 (f off area v : Nat) (s : State) : State :=
  { s with hif := { s.hif with bar4 := if v = 0 then s.hif.bar4.erase [f, off, area] else s.hif.bar4.set [f, off, area] v } }

/-- R398 steps 4 and 5. -/
def execSessionFinish (fn ct : Nat) (s : State) : Host.Outcome State Fault Refusal :=
  clocked s (
    let rsp (st : Status) (t : State) : State := t.giveObject fn none (bytesOfNat 4 st.code)
    match s.sec.dks.get? [fn] with
    | none => rsp .unsupported s
    | some k =>
      if s.bar4 fn 0x10 1 ≠ s.bar4 fn 0x18 1 ∨ (s.bnc fn).recs ≠ [] then rsp .retry s
      else
        let keys := Config.bounceKeys (Config.kemSecret k.kem ct) k.nonce fn (sha (ekOf (some k.kem))) % 2 ^ 704
        let s := s.modBnc fn (fun b => { b with keys := keys, recs := [] })
        let s : State := { s with sec := { s.sec with dks := s.sec.dks.erase [fn] } }
        let s := (((s.wr R.SEC_SESSION_state [fn] 2).wr R.SEC_SESSION_status [fn] 0).wr R.SEC_SESSION_seq_in [fn] 0).wr
          R.SEC_SESSION_seq_out [fn] 0
        let s := (s.wr R.SEC_TENANT_session_open [fn] 1).wr R.SEC_TENANT_sessions [fn] (s.rd R.SEC_TENANT_sessions [fn] + 1)
        rsp .ok (s.bump R.SEC_CNT_count [2]))

/-- R398: a decapsulation key not used within 1 s. -/
def execDkExpiry (fn : Nat) (s : State) : Host.Outcome State Fault Refusal :=
  clocked s (
    match s.sec.dks.get? [fn] with
    | some k =>
      if s.now < k.since + 1000000000 then s else s.dropDk fn
    | none => s)

/-! ### Tenants (R394, R395) -/

/-- Draw a board key whose halves differ (R205, R395): a free value. -/
def State.drawKey (t : Nat) (s : State) : State :=
  let a := s.freeVal % 2 ^ 256
  let b := s.drew.freeVal % 2 ^ 256
  let k := a + (if a = b then b ^^^ 1 else b) <<< 256
  let s := s.drew.drew
  let s : State := { s with sec := { s.sec with keys := s.sec.keys.set [t] k } }
  (s.wr R.BRD_KEY_STATUS_valid [t] 1).wr R.SEC_TENANT_key_valid [t] (if t < 32 then 1 else 0)

/-- Board slots that carry a tag (R206). -/
def State.tagSlots (s : State) (t : Nat) : Nat := s.tier.tags.count (fun _ x => decide (x = t))

/-- The tagged resources of a tenant (R395). -/
def State.objects (s : State) (t : Nat) : Nat :=
  let ports := (List.range 256).filter (fun p => decide (s.rd R.SWC_PORT_CFG_tenant [p] = t))
  let cells := (s.sw.tenantCells.get 0 [t, 0]) + (s.sw.tenantCells.get 0 [t, 1]) +
    ports.foldl (fun a p => a + (s.port p).heldCells.vals.foldl (· + ·) 0) 0
  let clusters := ((List.range 16).filter (fun c => decide (s.clusterTenant c = t))).length
  let leases := ((s.listed R.POL_LEASE_valid).filter (fun k => decide (s.rd R.POL_LEASE_tenant k = t))).length
  let wins := s.edgeWin.count (fun k x => decide (256 ≤ k.headD 0) && Win.valid_ x && decide (bitsOf x 72 5 = t))
  let qp := s.qpe.pds.count (fun _ x => decide (x = t)) + s.qpe.regions.count (fun _ x => bitAt x 0 && decide (bitsOf x 5 5 = t)) +
    s.qpe.qps.count (fun _ q => decide (q.tenant = t))
  let streams := ((s.listed R.CDC_STREAM_descriptor).filter (fun k =>
    Stream.valid (s.rd R.CDC_STREAM_descriptor k) && decide (Stream.tenant (s.rd R.CDC_STREAM_descriptor k) = t))).length
  ports.length + cells + clusters + s.heldBy t + leases + wins + qp + s.images.count (fun k _ => decide (k.head? = some t)) +
    streams + s.clt.colls.count (fun _ c => decide (coTenant c.desc = t)) +
    s.gth.tables.count (fun _ b => decide (tbTenant b.desc = t)) + s.tagSlots t + s.rd R.SEC_TENANT_session_open [t]

def State.cmdTenantCreate (t : Nat) (s : State) : Status × State :=
  if 32 ≤ t then (.unsupported, s)
  else if s.tenantState t ≠ 0 then (.retry, s)
  else (.ok, (s.wr R.SEC_TENANT_state [t] 1).drawKey t)

def State.cmdTenantRetire (t : Nat) (s : State) : Status × State :=
  if t = 0 ∨ 32 ≤ t then (.unsupported, s)
  else if s.tenantState t ≠ 1 then (.retry, s)
  else (.ok, s.wr R.SEC_TENANT_state [t] 2)

def State.cmdKeyRotate (t : Nat) (s : State) : Status × State :=
  if 32 ≤ t then (.unsupported, s)
  else if s.tenantState t ≠ 1 ∨ s.tagSlots t ≠ 0 then (.retry, s)
  else (.ok, (s.drawKey t).wr R.SEC_TENANT_rotations [t] (s.rd R.SEC_TENANT_rotations [t] + 1))

/-- R395. -/
def execTenantCreate (t : Nat) (s : State) : Host.Outcome State Fault Refusal :=
  clocked s (State.told 0x0501 (s.gated 0x0501 (s.cmdTenantCreate t)))

/-- R395. -/
def execTenantRetire (t : Nat) (s : State) : Host.Outcome State Fault Refusal :=
  clocked s (State.told 0x0502 (s.gated 0x0502 (s.cmdTenantRetire t)))

/-- R395. -/
def execKeyRotate (t : Nat) (s : State) : Host.Outcome State Fault Refusal :=
  clocked s (State.told 0x0503 (s.gated 0x0503 (s.cmdKeyRotate t)))

/-- R395: nothing carries the tag of a RETIRING tenant any more. -/
def execTenantFreed (t : Nat) (s : State) : Host.Outcome State Fault Refusal :=
  clocked s (
    if s.tenantState t = 2 ∧ s.objects t = 0 then
      let s := ((s.wr R.SEC_TENANT_state [t] 0).wr R.SEC_TENANT_key_valid [t] 0).wr R.BRD_KEY_STATUS_valid [t] 0
      { s with sec := { s.sec with keys := s.sec.keys.erase [t] } }
    else s)

/-! ### Strict isolation (R402) -/

/-- SEC_ISO written: `v` is the value. -/
def State.writeIso (v : Nat) (s : State) : State :=
  let bit := bitsOf v 0 1
  if s.on R.SEC_LOCK_lock [] then s
  else if bit = 1 ∧ [0, 1].any (fun d => s.on R.COH_CFG_enable [d] && decide (s.rd R.COH_CFG_slices [d] ≠ 4)) then
    s.badWrite R.SEC_ISO_strict []
  else
    let t := s.wr R.SEC_ISO_strict [] bit
    { t with sec := { t.sec with isoBeat := some ((t.beat + 1) % 2 ^ 32) } }

/-- R402. -/
def execStrictIsolation (v : Nat) (s : State) : Host.Outcome State Fault Refusal := clocked s ((s.wakeUp 2).writeIso v)

/-- R402: at the start of the next beat. -/
def execStrictApply (s : State) : Host.Outcome State Fault Refusal :=
  clocked s (
    match s.sec.isoBeat with
    | some b =>
      if ahead b s.beat then s
      else
        let t := s.wr R.SEC_ISO_active [] (s.rd R.SEC_ISO_strict [])
        { t with sec := { t.sec with isoBeat := none } }
    | none => s)

end Sys2Proof.Machine
end

