-- ==== Sys2Proof/Machine/Service.lean ====
section
/-! DEFINITION. The fabric manager's commands as operands, the manager device and its workers, the signed expel, puppet
mode, and service in place (R405, R411 to R431, R453, R475, R478, R481). -/

namespace Sys2Proof.Machine

/-! ### Puppet mode: what the primary and the puppet keep (R420 to R426) -/

def fullMask : Nat := 2 ^ 1024 - 1

/-- A shadowed extent is SYNCED: every chunk has been copied, and no end of a copy is unacknowledged (R421). -/
def State.isSynced (s : State) (e : Nat) : Bool :=
  s.pair.chunks.get 0 [e] = fullMask && !s.pair.sent.vals.any (fun r => decide (r.extent = e) && r.ends.isSome)

/-- RAS_PUPPET_STATUS.synced. -/
def State.syncedCount (s : State) : Nat := (s.pair.chunks.keys.filter (fun k => s.isSynced (k.headD 0))).length

/-- Report the outcome of a puppet operation (R481). -/
def State.puppetReport (op : Nat) (st : Status) (s : State) : State :=
  s.report 7 st (bytesOfNat 8 (layout [(0, 0, 16, op), (2, 0, 16, s.rd R.RAS_PUPPET_STATUS_partner_eid []), (4, 0, 32, s.syncedCount)]))

def State.setPuppet (st partner : Nat) (s : State) : State :=
  (s.wr R.RAS_PUPPET_STATUS_state [] st).wr R.RAS_PUPPET_STATUS_partner_eid [] partner

/-- The HELD extents of the own node. -/
def State.heldOwn (s : State) : List Nat :=
  (s.pool.ext.entries.filter (fun e => decide (e.1.head? = some s.node ∧ e.2.state = .held))).map (fun e => e.1.getD 1 0)

/-- What a pairing mirrors at once: leases, extents, share groups (R420). -/
def State.mirrorAll (s : State) : State :=
  let s := (s.listed R.POL_LEASE_valid).foldl (fun t k => t.mirror 0x0101 (leaseOps (k.headD 0) (t.rd R.POL_LEASE_eid k)
    (t.rd R.POL_LEASE_tenant k) (t.rd R.POL_LEASE_duration k))) s
  let s := s.heldOwn.foldl (fun t e => t.mirrorExtent (t.bindOf e).isSome e) s
  s.heldOwn.foldl (fun t e => match (t.ext t.node e).group with
    | some g => t.mirror 0x0104 (shareOps t.node e e g (t.sharers g))
    | none => t) s

/-- R420. -/
def State.cmdPuppetPair (primary puppet tc flow : Nat) (s : State) : Status × State :=
  let p : Pair := { primary := primary, puppet := puppet, tc := tc, flow := flow, node := 0xFFFF }
  if 7 ≤ tc ∨ 4095 < flow ∨ primary = puppet ∨ (s.eid ≠ primary ∧ s.eid ≠ puppet) then (.unsupported, s)
  else if s.isPrimary ∨ s.isPuppet then (.retry, s)
  else if s.eid = primary then
    let chunks := (s.heldOwn.filter (fun e => (s.bindOf e).isNone)).foldl (fun (c : Map Nat) e => c.set [e] 0) Map.empty
    let s : State := { s with pair := { p with chunks := chunks } }
    (.ok, ((s.setPuppet 1 puppet).wr R.RAS_PUPPET_CFG_tc [] tc).mirrorAll.puppetReport 0x0701 .ok)
  else
    let busy := s.pool.ext.entries.any (fun e => decide (e.1.head? = some s.node ∧ e.2.state ≠ .absent ∧ some (e.1.getD 1 0) ≠ s.tier.store))
    if busy then (.retry, s)
    else if s.slotsFree < s.freeVal % 2 ^ 18 then (.quota, s.drew)
    else
      let s : State := { s.drew with pair := p }
      (.ok, ((s.setPuppet 2 primary).wr R.RAS_PUPPET_CFG_tc [] tc).puppetReport 0x0701 .ok)

/-- R420. -/
def execPuppetPair (primary puppet tc flow : Nat) (s : State) : Host.Outcome State Fault Refusal :=
  serving s (State.told 0x0701 (s.gated 0x0701 (s.cmdPuppetPair primary puppet tc flow)))

/-- Responses withheld go out, in order (R423, R424). -/
def State.releaseWithheld (l : List Withheld) (s : State) : State := l.foldl (fun t w => t.finishHome w.die w.home w.status w.data) s

/-- Requests a puppet held are looked at again (R428). -/
def State.serveHeld (s : State) : State :=
  s.pair.holding.foldl (fun t h => t.atHome h.1 h.2) { s with pair := { s.pair with holding := [] } }

/-- R424. -/
def State.cmdPuppetBreak (s : State) : Status × State :=
  if s.isPrimary then
    let s := s.puppetReport 0x0702 .ok
    let l := s.pair.withheld
    (.ok, State.releaseWithheld l (({ s with pair := { switched := s.pair.switched } } : State).setPuppet 0 0xFFFF))
  else if s.isPuppet then
    let s := s.puppetReport 0x0702 .ok
    let s := s.pair.chunks.keys.foldl (fun t k => (t.zeroExtent (k.headD 0)).freeExt t.node (k.headD 0)) s
    let held := s.pair.holding
    (.ok, State.serveHeld (({ s with pair := { holding := held } } : State).setPuppet 0 0xFFFF))
  else (.ok, s)

/-- R424. -/
def execPuppetBreak (s : State) : Host.Outcome State Fault Refusal :=
  serving s (State.told 0x0702 (s.gated 0x0702 s.cmdPuppetBreak))

/-- The extent under copy on a die: the one begun, else the lowest-numbered that is not whole (R421). -/
def State.copyTarget (s : State) (d : Nat) : Option Nat :=
  let more (e : Nat) : Bool := s.pair.chunks.has [e] && s.pair.chunks.get 0 [e] ≠ fullMask
  match (s.pair.copying.get? [d]).map (·.1) with
  | some e => if more e then some e else (s.pair.chunks.keys.map (·.headD 0)).find? (fun x => more x && (s.ext s.node x).die = d)
  | none => (s.pair.chunks.keys.map (·.headD 0)).find? (fun x => more x && (s.ext s.node x).die = d)

/-- R421: the next chunk of the extent under copy is read and sent; a chunk a move has locked waits. From here on a write
to it is shadowed (R423). -/
def execShadowCopy (d : Nat) (s : State) : Host.Outcome State Fault Refusal :=
  serving s (
    match if s.isPrimary then s.copyTarget d else none with
    | none => s
    | some e =>
      let mask := s.pair.chunks.get 0 [e]
      match (List.range 1024).find? (fun k => ! bitAt mask k) with
      | none => s
      | some k =>
        if ((s.tier.moves.get? [e]).bind (·.lock)).map (·.1) = some k then s
        else
          let lines := (List.range 512).map (e * 2 ^ 19 + k * 512 + ·)
          let t := (s.shadowLines d e (some k) lines).2
          { t with pair := { t.pair with chunks := t.pair.chunks.set [e] (mask ||| 1 <<< k), copying := t.pair.copying.set [d] (e, k) } })

/-- An own extent gives its number to another: the puppet's image store moves aside for a shadowed extent (R420). -/
def State.moveStore (e : Nat) (s : State) : State :=
  if s.tier.store ≠ some e then s
  else
    match (List.range (s.extents s.node)).find? (fun i => decide (i ≠ e ∧ s.pool.ext.get? [s.node, i] = none)) with
    | none => s
    | some i =>
      let x := s.pool.ext.get {} [s.node, e]
      let l := s.tier.loc.get {} [e]
      let s : State := { s with tier := { s.tier with store := some i, loc := (s.tier.loc.erase [e]).set [i] l } }
      (s.setExt s.node e {}).setExt s.node i x

/-- The puppet gives a shadowed extent a slot, zeros and a record (R420, R206). -/
def State.shadowGrant (slot die : Nat) (full : Bool) (e : Nat) (s : State) : Bool × State :=
  let s := ((s.moveStore e).zeroExtent e).freeSlotOf e
  let t := s.placeExt e die { state := .held, owner := slot, tenant := (s.pair.leases.get (0, 0, 0, 0) [slot]).2.1 }
  let t : State := { t with pair := { t.pair with chunks := t.pair.chunks.set [e] (if full then fullMask else 0) } }
  (t.tier.loc.has [e], t)

/-- R422: a STATE command applied to the puppet's copies; false where it could not be. -/
def State.applyState (op : Nat) (copy : Bool) (b : List Byte) (s : State) : Bool × State :=
  let x := natOfBytes b
  let f (off w : Nat) : Nat := fieldOf x off 0 w
  match op with
  | 0x0101 =>
    let l := if f 8 32 = 0 then s.pair.leases.erase [f 0 16]
             else s.pair.leases.set [f 0 16] (f 2 16, f 4 8, f 8 32, (s.beat + f 8 32) % 2 ^ 32)
    (true, { s with pair := { s.pair with leases := l } })
  | 0x0102 =>
    let s : State := { s with pair := { s.pair with node := f 2 16 } }
    (rangeOf (f 4 32) (f 8 32)).foldl (fun (r : Bool × State) e =>
      let t := r.2.shadowGrant (f 0 16) (bitsOf (f 12 8) 0 1) (!copy) e
      (r.1 && t.1, t.2)) (true, s)
  | 0x0104 =>
    let new := (List.range (f 12 8)).map (fun i => f (14 + 2 * i) 16)
    let all := ((s.pair.groups.get [] [f 2 16]) ++ new).eraseDups
    let s : State := { s with pair := { s.pair with groups := s.pair.groups.set [f 2 16] all } }
    (true, (rangeOf (f 4 32) (f 8 32)).foldl (fun t e =>
      t.setExt t.node e { t.pool.ext.get {} [t.node, e] with group := some (f 2 16) }) s)
  | 0x0105 =>
    let out := (List.range (f 12 8)).map (fun i => f (14 + 2 * i) 16)
    if out = [] then
      (true, (rangeOf (f 4 32) (f 8 32)).foldl (fun t e =>
        t.setExt t.node e { t.pool.ext.get {} [t.node, e] with group := none }) s)
    else
      let l := (s.pair.groups.get [] [f 2 16]).filter (fun k => ! out.contains k)
      (true, { s with pair := { s.pair with groups := s.pair.groups.set [f 2 16] l } })
  | 0x0106 =>
    (true, (rangeOf (f 4 32) (f 8 32)).foldl (fun t e =>
      let t : State := { t with pair := { t.pair with chunks := t.pair.chunks.erase [e] } }
      (t.zeroExtent e).freeExt t.node e) s)
  | 0x010C =>
    (true, (rangeOf (f 4 32) (f 8 32)).foldl (fun t e =>
      let t : State := { t with pair := { t.pair with chunks := t.pair.chunks.erase [e] } }
      let x := t.pool.ext.get {} [t.node, e]
      ((t.zeroExtent e).freeSlotOf e).setExt t.node e { x with state := .lost, owner := 0, group := none }) s)
  | _ => (true, s)

/-- R422: the lines of a DATA message written, with their poison; false where they cannot be. -/
def State.applyData (m : Msg) (s : State) : Bool × State :=
  let e := m.f 20 0 18
  let off := m.f 24 0 26
  let n := m.f 28 0 13
  let poison := m.f 32 0 32
  let okUnit : Bool := match s.tier.loc.get? [e] with
    | some l => s.unitReady l.board l.unit
    | none => false
  let a := e * 2 ^ 26 + off
  if ¬ okUnit ∨ ¬ s.pair.chunks.has [e] ∨ off % 128 ≠ 0 ∨ n = 0 ∨ n % 128 ≠ 0 ∨ 3968 < n ∨ 2 ^ 26 < off + n ∨
      (linesOf a n).any s.lineDead then (false, s)
  else
    let s := ((s.access true a n).writeBytes a (m.bytes 48 n))
    let s := (List.range (n / 128)).foldl (fun t i => if bitAt poison i then t.setPoison (a / 128 + i) true else t) s
    let k := off / 65536
    if m.f 16 8 2 = 3 then
      (true, { s with pair := { s.pair with chunks := s.pair.chunks.set [e] (s.pair.chunks.get 0 [e] ||| 1 <<< k) } })
    else (true, s)

/-- Records of the own node take another node identifier. -/
def State.renumber (node : Nat) (s : State) : State :=
  let own := s.node
  { s with pool := { s.pool with ext := s.pool.ext.entries.foldl (fun (a : Map Ext) e =>
      a.set (if e.1.head? = some own then node :: e.1.tail else e.1) e.2) Map.empty } }

/-- R425: the puppet takes the primary's place. -/
def State.promote (op : Nat) (s : State) : State :=
  let node := if s.pair.node < 4096 then s.pair.node else s.node
  let s := (s.renumber node).wr R.GLB_NODE_node [] node
  let top := s.pool.ext.keys.foldl (fun a k => if k.head? = some node then max a (k.getD 1 0 + 1) else a) 0
  let s := s.wr R.POL_STATUS_extents [] (max top (s.rd R.POL_STATUS_extents []))
  let s := s.pair.leases.entries.foldl (fun t e =>
    let k := e.1
    let t := ((((t.wr R.POL_LEASE_valid k 1).wr R.POL_LEASE_expired k 0).wr R.POL_LEASE_eid k e.2.1).wr R.POL_LEASE_tenant k
      e.2.2.1).wr R.POL_LEASE_duration k e.2.2.2.1
    t.wr R.POL_LEASE_expiry k e.2.2.2.2) s
  let s : State := { s with pool := { s.pool with tokens := Map.empty } }
  let s := s.pair.groups.entries.foldl (fun t e => (e.2.filter (fun k => ! (t.sharers (e.1.headD 0)).contains k)).foldl
    (fun u k => u.addSharer (e.1.headD 0) k) t) s
  let parts := s.pair.chunks.entries.filter (fun e => decide (e.2 ≠ fullMask))
  let s := parts.foldl (fun t e =>
    let lost := (List.range 1024).filter (fun k => ! bitAt e.2 k)
    let t : State := { t with pool := { t.pool with
      shadowLost := lost.foldl (fun (a : Map Unit) k => a.set [e.1.headD 0, k] ()) t.pool.shadowLost } }
    t.tellHolders 2 node (e.1.headD 0) (t.ext node (e.1.headD 0))) s
  let s := (s.wr R.RAS_PUPPET_STATUS_state [] 3).puppetReport op .ok
  let held := s.pair.holding
  State.serveHeld { s with pair := { holding := held } }

/-- R422, R423: a puppet writes shadow data or applies mirrored state, and acknowledges. -/
def execMgShadow (m : Msg) (s : State) : Host.Outcome State Fault Refusal :=
  serving s (
    if m.ty ≠ 0xBA then s
    else
      let s := s.consume m.die m
      if ¬ s.isPuppet ∨ m.src ≠ s.pair.primary then s.answer 0 m .unsupported 0 none
      else
        match m.f 16 0 8 with
        | 1 =>
          let r := s.applyData m
          r.2.answer 0 m (if r.1 then .ok else .nodeLost) 0 none
        | 2 =>
          let r := s.applyState (m.f 48 0 16) (m.f 16 9 1 = 1) (m.bytes 50 (m.len - 50))
          r.2.answer 0 m (if r.1 then .ok else .nodeLost) 0 none
        | 3 => (s.answer 0 m .ok 0 none).promote 0x0703
        | _ => s.answer 0 m .unsupported 0 none)

/-- The record a MARKER leaves in the list of messages sent. -/
def markerSent : Nat := 2 ^ 18 + 1

/-- R422, R423: the primary takes an acknowledgement. -/
def execMgShadowAck (m : Msg) (s : State) : Host.Outcome State Fault Refusal :=
  serving s (
    if m.ty ≠ 0xBB then s
    else
      let s := s.consume m.die m
      let seq := m.f 0 0 32
      match if s.isPrimary ∧ m.src = s.pair.puppet then s.pair.sent.get? [seq] else none with
      | none => s
      | some r =>
        let s : State := { s with pair := { s.pair with sent := s.pair.sent.erase [seq] } }
        let good := decide (Status.ofCode (m.f 4 16 4) = .ok)
        let l := s.pair.withheld.map (fun w => if w.left.contains seq then
          { w with left := if good then w.left.filter (· ≠ seq) else [] } else w)
        let s : State := { s with pair := { s.pair with withheld := l.filter (fun w => decide (w.left ≠ [])) } }
        let s := State.releaseWithheld (l.filter (fun w => decide (w.left = []))) s
        if good then
          if r.extent = markerSent then
            (({ s with pair := { switched := s.pair.switched } } : State).puppetReport 0x0703 .ok).setPuppet 0 0xFFFF
          else s
        else
          let s : State := if s.pair.chunks.has [r.extent] then
            { s with pair := { s.pair with chunks := s.pair.chunks.set [r.extent] 0 } } else s
          (s.event B.ras 8).puppetReport 0x0701 (Status.ofCode (m.f 4 16 4)))

/-- R424: an acknowledgement has been outstanding for the timeout. -/
def execPuppetAckTimeout (s : State) : Host.Outcome State Fault Refusal :=
  serving s (
    let late (r : Sent) : Bool := decide (1000 * s.rd R.RAS_PUPPET_CFG_ack_timeout [] ≤ s.now - r.since)
    if s.isPrimary ∧ s.pair.sent.vals.any late then
      let t : State := { s with pair := { s.pair with sent := s.pair.sent.each (fun _ r => if late r then { r with since := s.now } else r) } }
      (t.event B.ras 8).puppetReport 0x0701 .timeout
    else s)

/-- R428. -/
def State.cmdHandoff (beat : Nat) (s : State) : Status × State :=
  if s.isPuppet then (.ok, { s with pair := { s.pair with handoff := some (launchBeat beat s.beat) } })
  else if ¬ s.isPrimary ∨ s.pair.handoff.isSome ∨ ¬ s.pair.chunks.keys.all (fun k => s.isSynced (k.headD 0)) then (.retry, s)
  else (.ok, State.lateIf beat s.beat { s with pair := { s.pair with handoff := some (launchBeat beat s.beat) } })

/-- R428. -/
def execHandoff (beat : Nat) (s : State) : Host.Outcome State Fault Refusal :=
  serving s (State.told 0x0703 (s.gated 0x0703 (s.cmdHandoff beat)))

/-- R428: at the beat the primary refuses its node, sends the marker, and scrubs its former extents. -/
def execHandoffSwitch (s : State) : Host.Outcome State Fault Refusal :=
  serving s (
    match if s.isPrimary ∧ ¬ s.pair.switched then s.pair.handoff else none with
    | none => s
    | some b =>
      if ahead b s.beat then s
      else
        let s : State := { s with pair := { s.pair with switched := true } }
        let kept (k : Key) : Bool := s.pair.withheld.any (fun w => decide (k = [w.die, w.home]))
        let live := s.trk.home.entries.filter (fun e => !kept e.1 && isMemory e.2.msg.ty && decide (nodeOf e.2.msg.addr = s.node))
        let s := (live.foldl (fun t e => t.finishHome (e.1.headD 0) (e.1.getD 1 0) .staleMap none) s).purge
        let s := s.sendShadow 0 3 false false 0 0 0 b [] { extent := markerSent, since := s.now }
        let former := (s.pool.ext.entries.filter (fun (e : Key × Ext) => decide (e.1.head? = some s.node ∧
          (e.2.state = .held ∨ e.2.state = .lost ∨ e.2.state = .quarantine)))).map (fun e => e.1.getD 1 0)
        let s := former.foldl (fun t e => t.setOwn e { t.ext t.node e with state := .scrub, owner := 0, group := none }) s
        let r : Revocation := { node := s.node, extents := former, clear := true, since := s.now, drained := true, left := former,
                                release := true }
        let s : State := if former = [] then s else
          { s with pool := { s.pool with revs := s.pool.revs.set [s.pool.nextRev] r, nextRev := s.pool.nextRev + 1 } }
        let s := (s.listed R.POL_LEASE_valid).foldl (fun t k => t.dropSlotEntry (k.headD 0)) s
        let s := (s.listed R.POL_SHARE_valid).foldl (fun t k => (t.wr R.POL_SHARE_valid k 0).wr R.POL_SHARE_slot k 0) s
        { s with pair := { s.pair with chunks := Map.empty, handoff := none } })

/-! ### The fabric manager's commands as operands (R414, R475) -/

/-- The (byte offset, bits) of the fields of a command's operands; SHARE and UNSHARE add their slots. -/
def opShape (op : Nat) (b : List Byte) : Option (List (Nat × Nat)) :=
  match op with
  | 0x0101 => some [(0, 16), (2, 16), (4, 8), (8, 32)]
  | 0x0102 => some [(0, 16), (2, 16), (4, 32), (8, 32), (12, 8)]
  | 0x0103 => some [(0, 32), (4, 32), (8, 8)]
  | 0x0104 | 0x0105 => some ([(0, 16), (2, 16), (4, 32), (8, 32), (12, 8)] ++
      (List.range (fieldOf (natOfBytes b) 12 0 8)).map (fun i => (14 + 2 * i, 16)))
  | 0x0106 => some [(0, 16), (2, 8), (4, 32), (8, 32)]
  | 0x0107 | 0x010C => some [(0, 16), (4, 32), (8, 32)]
  | 0x0108 => some [(0, 8), (1, 8), (2, 16), (4, 16), (6, 16)]
  | 0x0109 => some [(0, 8), (4, 32)]
  | 0x010A | 0x010B => some [(0, 16), (2, 16), (4, 8), (8, 32)]
  | 0x010D => some [(0, 8), (8, 64)]
  | 0x010E => some [(0, 16), (2, 8)]
  | 0x0201 => some [(0, 64), (8, 128)]
  | 0x0301 => some [(0, 16), (8, 64)]
  | 0x0302 | 0x0303 => some [(0, 8), (1, 8), (8, 64)]
  | 0x0304 => some [(0, 8), (1, 8)]
  | 0x0401 => some [(0, 16), (4, 32)]
  | 0x0402 => some [(0, 16), (8, 128)]
  | 0x0403 => some [(0, 16), (8, 256), (40, 64)]
  | 0x0404 => some [(0, 64)]
  | 0x0405 | 0x0602 | 0x0703 => some [(0, 32)]
  | 0x0501 | 0x0502 | 0x0503 => some [(0, 8)]
  | 0x0601 | 0x0603 | 0x0604 | 0x0605 | 0x0702 => some []
  | 0x0701 => some [(0, 16), (2, 16), (4, 8), (6, 16)]
  | _ => none

/-- The operands are long enough, and every bit outside the fields is 0 (R475). -/
def shapeOk (l : List (Nat × Nat)) (b : List Byte) : Bool :=
  let x := natOfBytes b
  l.all (fun e => decide (8 * e.1 + e.2 ≤ 8 * b.length)) &&
  decide (layout (l.map (fun e => (e.1, 0, e.2, fieldOf x e.1 0 e.2))) = x)

/-- Commands whose bytes ride MG_FW_DATA. -/
def isImageOp (op : Nat) : Bool := op = 0x0601 || op = 0x0603 || op = 0x0604 || op = 0x0605

/-- A pool command signals its refusal (R190). -/
def pooled (r : Status × State) : Option Status × State := (some r.1, if r.1 = .ok then r.2 else r.2.event B.pol 7)

/-- A command of R414 applied to this part: its status, or none where it comes later (REVOKE, BIND_WRITE). -/
def State.applyOp (op : Nat) (b bulk : List Byte) (who : Asker) (s : State) : Option Status × State :=
  let x := natOfBytes b
  let f (off w : Nat) : Nat := fieldOf x off 0 w
  let g (r : Status × State) : Status × State := s.gated op r
  let one (r : Status × State) : Option Status × State := (some (g r).1, (g r).2)
  let far := 2 ^ 18 ≤ f 4 32 ∨ 2 ^ 18 ≤ f 8 32
  if ¬ ((opShape op b).map (fun l => shapeOk l b)).getD false then (some .unsupported, s)
  else if ¬ s.firmware ∧ op ≠ 0x0605 then (some .retry, s)
  else
    match op with
    | 0x0101 => pooled (g (s.cmdLeaseSet (f 0 16) (f 2 16) (f 4 8) (f 8 32)))
    | 0x0102 => if far then pooled (.unsupported, s) else pooled (g (s.cmdGrant (f 0 16) (f 2 16) (f 4 32) (f 8 32) (f 12 8)))
    | 0x0103 => if 2 ^ 18 ≤ f 0 32 ∨ 2 ^ 18 ≤ f 4 32 then pooled (.unsupported, s)
                else pooled (g (s.cmdGrantInternal (f 0 32) (f 4 32) (f 8 8)))
    | 0x0104 => if far then pooled (.unsupported, s)
                else pooled (g (s.cmdShare (f 0 16) (f 4 32) (f 8 32) (f 2 16) ((List.range (f 12 8)).map (fun i => f (14 + 2 * i) 16))))
    | 0x0105 => if far then pooled (.unsupported, s)
                else pooled (g (s.cmdUnshare (f 0 16) (f 4 32) (f 8 32) (f 2 16) ((List.range (f 12 8)).map (fun i => f (14 + 2 * i) 16))))
    | 0x0106 =>
      if far then pooled (.unsupported, s)
      else
        let r := g (s.cmdRevoke (f 0 16) (f 4 32) (f 8 32) (f 2 8) who)
        if r.1 = .ok then (none, r.2) else pooled r
    | 0x0107 => if far then pooled (.unsupported, s) else pooled (g (s.cmdRelease (f 0 16) (f 4 32) (f 8 32)))
    | 0x0108 => pooled (g (s.cmdLimitSet (f 0 8) (f 1 8) (f 2 16) (f 4 16) (f 6 16)))
    | 0x0109 => pooled (g (s.cmdTenantQuota (f 0 8) (f 4 32)))
    | 0x010A => pooled (g (s.cmdLendAdd (f 0 16) (f 2 16) (f 4 8) (f 8 32)))
    | 0x010B => pooled (g (s.cmdLendRemove (f 0 16) (f 2 16) (f 4 8) (f 8 32)))
    | 0x010C => if far then pooled (.unsupported, s) else pooled (g (s.cmdMarkLost (f 0 16) (f 4 32) (f 8 32)))
    | 0x010D => pooled (g (s.cmdLostSet (f 0 8) (f 8 64)))
    | 0x010E => pooled (g (s.cmdNotify (f 0 16) (f 2 8)))
    | 0x0201 => one (s.cmdWinWrite (f 0 64) (f 8 128))
    | 0x0301 => if 1023 < f 0 16 then (some .unsupported, s) else s.gatedBind (f 0 16) (f 8 64) who
    | 0x0302 => if 63 < f 1 8 then (some .unsupported, s) else one (s.cmdMemberWrite (f 0 8) (f 1 8) (f 8 64))
    | 0x0303 => if 1 < f 0 8 then (some .unsupported, s) else one (s.cmdDirStoreWrite (f 0 8) (f 1 8) (f 8 64))
    | 0x0304 => if 63 < f 1 8 then (some .unsupported, s) else one (s.cmdDeclareDead (f 0 8) (f 1 8))
    | 0x0401 => one (s.cmdRouteStage (f 0 16) (f 4 32))
    | 0x0402 => one (s.cmdGroupStage (f 0 16) (f 8 128))
    | 0x0403 => one (s.cmdMcastStage (f 0 16) (f 8 256) (f 40 64))
    | 0x0404 => one (s.cmdStageSet (f 0 64))
    | 0x0405 => one (s.cmdMapSwitch (f 0 32))
    | 0x0501 => one (s.cmdTenantCreate (f 0 8))
    | 0x0502 => one (s.cmdTenantRetire (f 0 8))
    | 0x0503 => one (s.cmdKeyRotate (f 0 8))
    | 0x0601 => one (s.fwWrite bulk)
    | 0x0602 => one (s.fwHandover (f 0 32))
    | 0x0603 => one (s.configWrite bulk)
    | 0x0604 => one (s.endorseWrite bulk)
    | 0x0605 => one (s.fwPush bulk)
    | 0x0701 => one (s.cmdPuppetPair (f 0 16) (f 2 16) (f 4 8) (f 6 16))
    | 0x0702 => one s.cmdPuppetBreak
    | _ => one (s.cmdHandoff (f 0 32))

/-! ### Workers (R412, R413, R415) -/

def State.managerEid (s : State) : Nat := s.rd R.RAS_MGR_CFG_manager_eid []

def State.isManager (s : State) : Bool := s.rd R.RAS_MGR_CFG_role [] = 1

/-- A worker obeys a message of its manager device only (R412). -/
def State.fromManager (s : State) (m : Msg) : Bool := !s.isManager && m.src = s.managerEid

/-- The message is discarded and counted. -/
def State.discardUpd (s : State) : State := s.bump R.RAS_CNT_count [4]

/-- Finish an update: count it where it was applied, and acknowledge it. -/
def State.endUpd (seq op : Nat) (r : Option Status × State) : State :=
  match r.1 with
  | some st => (if st = .ok then r.2.bump R.RAS_CNT_count [3] else r.2).tell (.relayed seq) op st
  | none => r.2.bump R.RAS_CNT_count [3]

/-- Apply an update in its turn. An image command waits for its bytes, and is refused before them where its state says so
(R391, R413). -/
def State.runUpd (u : Upd) (s : State) : State :=
  let len := natOfBytes (u.operands.take 4)
  let body := u.operands.drop 8
  if len ≠ u.operands.length ∨ len < 8 ∨ natOfBytes ((u.operands.drop 4).take 4) ≠ 0 then State.endUpd u.seq u.op (some .unsupported, s)
  else if isImageOp u.op then
    if body ≠ [] then State.endUpd u.seq u.op (some .unsupported, s)
    else if (¬ s.firmware ∧ u.op ≠ 0x0605) ∨ (u.op = 0x0601 ∧ s.fwBusy) then State.endUpd u.seq u.op (some .retry, s)
    else { s with ras := { s.ras with objects := s.ras.objects.set [s.managerEid, u.seq] { op := u.op } } }
  else State.endUpd u.seq u.op (s.applyOp u.op body [] (.relayed u.seq))

/-- An update in its turn; during a hand-over it waits (R391). -/
def State.takeUpd (u : Upd) (s : State) : State :=
  let s : State := { s with ras := { s.ras with expected := (u.seq + 1) % 2 ^ 32 } }
  if s.sec.restarted.isSome then { s with ras := { s.ras with later := s.ras.later ++ [u] }, hif := { s.hif with waiting := s.hif.waiting ++ [none] } }
  else s.runUpd u

/-- Take the held updates whose turn has come. -/
def State.takeHeld : Nat → State → State
  | 0, s => s
  | n + 1, s =>
    match s.ras.held.find? (fun u => u.seq = s.ras.expected) with
    | some u => State.takeHeld n (State.takeUpd u { s with ras := { s.ras with held := s.ras.held.filter (fun v => v.seq ≠ u.seq) } })
    | none => s

/-- R415. -/
def execMgUpdate (m : Msg) (s : State) : Host.Outcome State Fault Refusal :=
  serving s (
    if m.ty ≠ 0xB0 then s
    else
      let s := s.consume m.die m
      let u : Upd := { seq := m.f 0 0 32, op := m.f 4 0 16, operands := m.bytes 16 (m.len - 16) }
      let d := dist 32 u.seq s.ras.expected
      if s.pkg.expelled then s
      else if ¬ s.fromManager m then s.discardUpd
      else if d = 0 then (s.takeUpd u).takeHeld 64
      else if d < 64 then
        if s.ras.held.any (fun v => v.seq = u.seq) then s
        else { s with ras := { s.ras with held := s.ras.held ++ [u] } }
      else if 2 ^ 32 - 65 < d then
        match s.ras.acks.find? (fun a => a.1 = u.seq) with
        | some a => s.send 0 (s.mgMsg 0xB1 s.managerEid a.1 a.2.1 a.2.2 [])
        | none => s
      else s.discardUpd)

/-- Bytes of an object arrive (R133, R413). -/
def Transfer.add (t : Transfer) (off : Nat) (b : List Byte) : Transfer :=
  { t with
      total := if off = 0 ∧ 4 ≤ b.length then some (natOfBytes (b.take 4)) else t.total,
      got := if t.got.contains (off, b.length) then t.got else t.got ++ [(off, b.length)],
      data := Mem.writeAll t.data off b }

/-- An object is whole when its bytes received equal its length (R413). -/
def Transfer.whole (t : Transfer) : Bool :=
  decide (t.total = some (t.got.foldl (fun a e => a + e.2) 0))

/-- The bytes of an object behind its length. -/
def Transfer.bytes (t : Transfer) : List Byte := Mem.readN t.data 8 (t.total.getD 8 - 8)

/-- An object is whole and its command is carried out; a part in recovery answers only an update (R386). -/
def State.runObject (seq : Nat) (t : Transfer) (s : State) : State :=
  let r := s.applyOp t.op [] t.bytes (.relayed seq)
  if s.managerEid = 0xFFFF then r.2 else State.endUpd seq t.op r

/-- R386, R413. -/
def execMgFwData (m : Msg) (s : State) : Host.Outcome State Fault Refusal :=
  serving s (
    if m.ty ≠ 0xB6 then s
    else
      let s := s.consume m.die m
      let seq := m.f 0 0 32
      let op := m.f 4 0 16
      let key := [m.src, seq]
      let free := s.inRecovery && op = 0x0605
      if s.pkg.expelled then s
      else if ¬ s.fromManager m ∧ ¬ free then s.discardUpd
      else
        match if free then some (s.ras.objects.get { op := op } key) else s.ras.objects.get? key with
        | none => s.discardUpd
        | some t =>
          let t := t.add (m.f 12 0 32) (m.bytes 16 (m.len - 16))
          let ack := s.mgMsg 0xB7 m.src seq op .ok []
          let s := s.send 0 { ack with body := ack.body + m.f 12 0 32 <<< 96 }
          if t.whole ∧ s.sec.restarted.isNone then
            State.runObject seq t { s with ras := { s.ras with objects := s.ras.objects.erase key } }
          else { s with ras := { s.ras with objects := s.ras.objects.set key t } })

/-- R388 over the management channel. -/
def execMgEvidReq (m : Msg) (s : State) : Host.Outcome State Fault Refusal :=
  serving s (
    if m.ty ≠ 0xB8 then s
    else
      let s := s.consume m.die m
      if s.pkg.expelled then s
      else if ¬ s.fromManager m then s.discardUpd
      else s.evidenceReq 0 (some (m.src, m.f 0 0 32)) (m.f 16 0 8) (m.f 16 8 1 = 1) (m.f 20 0 256))

/-! ### The manager device (R411, R415, R453, R481) -/

def State.modWorker (eid : Nat) (f : Worker → Worker) (s : State) : State :=
  { s with ras := { s.ras with workers := s.ras.workers.set [eid] (f (s.ras.workers.get {} [eid])) } }

/-- The mailbox request that waits for an update of a worker is answered. -/
def State.mailTarget (eid seq : Nat) (st : Status) (s : State) : State :=
  match s.hif.mbox.get? [0] with
  | some q => if q.target = some (eid, seq) then
      State.mailReply 0 q.seq st [] { s with hif := { s.hif with mbox := s.hif.mbox.erase [0] } } else s
  | none => s

/-- Send an update to a worker, or keep it until one of the 64 outstanding ends (R415). -/
def State.sendUpd (eid : Nat) (u : Upd) (s : State) : State :=
  let w := s.ras.workers.get {} [eid]
  if w.out.length < 64 then
    (s.modWorker eid (fun w => { w with out := w.out ++ [{ upd := u, sentAt := s.now }] })).send 0
      (s.mgMsg 0xB0 eid u.seq u.op .ok u.operands)
  else s.modWorker eid (fun w => { w with wait := w.wait ++ [u] })

/-- Bytes as MG packets of at most 4,080 operand bytes, with their offsets (R413). -/
def State.sendObject (ty dst seq op : Nat) (b : List Byte) (s : State) : State :=
  let all := withLength b
  (List.range (ceilDiv all.length 4080)).foldl (fun t k =>
    let m := t.mgMsg ty dst seq op .ok ((all.drop (4080 * k)).take 4080)
    t.send 0 { m with body := m.body + (4080 * k) <<< 96 }) s

/-- Relay a command of the mailbox to a worker (R411, R415, R453). -/
def State.relay (eid op : Nat) (b bulk : List Byte) (s : State) : Option Status × State :=
  let w := s.ras.workers.get {} [eid]
  if w.lost then (some .timeout, s)
  else
    let u : Upd := { seq := w.next, op := op, operands := withLength b }
    let s := (s.modWorker eid (fun w => { w with next := (w.next + 1) % 2 ^ 32 })).sendUpd eid u
    let s := if isImageOp op then s.sendObject 0xB6 eid u.seq op bulk else s
    let mb := match s.hif.mbox.get? [0] with
      | some q => s.hif.mbox.set [0] { q with target := some (eid, u.seq) }
      | none => s.hif.mbox
    (none, { s with hif := { s.hif with mbox := mb } })

/-- R415: a worker's acknowledgement. -/
def execMgAck (m : Msg) (s : State) : Host.Outcome State Fault Refusal :=
  serving s (
    if m.ty ≠ 0xB1 then s
    else
      let s := s.consume m.die m
      let seq := m.f 0 0 32
      let w := s.ras.workers.get {} [m.src]
      if ¬ s.isManager ∨ ¬ w.out.any (fun u => u.upd.seq = seq) then s
      else
        let s := s.modWorker m.src (fun w => { w with out := w.out.filter (fun u => decide (u.upd.seq ≠ seq)), wait := w.wait.tail })
        let s := s.mailTarget m.src seq (Status.ofCode (m.f 4 16 4))
        match w.wait with
        | u :: _ => s.sendUpd m.src u
        | [] => s)

/-- R415: 1 ms without an acknowledgement; after 16 sends the worker is reported unreachable. -/
def execUpdateResend (eid seq : Nat) (s : State) : Host.Outcome State Fault Refusal :=
  serving s (
    match (s.ras.workers.get {} [eid]).out.find? (fun u => u.upd.seq = seq) with
    | none => s
    | some u =>
      if s.now < u.sentAt + 1000000 then s
      else if 16 ≤ u.sends then
        let t := s.modWorker eid (fun w => { w with out := [], wait := [], lost := true })
        match t.hif.mbox.get? [0] with
        | some q => if q.target.map (·.1) = some eid then
            State.mailReply 0 q.seq .timeout [] { t with hif := { t.hif with mbox := t.hif.mbox.erase [0] } } else t
        | none => t
      else
        (s.modWorker eid (fun w => { w with out := w.out.map (fun v =>
          if v.upd.seq = seq then { v with sentAt := s.now, sends := v.sends + 1 } else v) })).send 0
          (s.mgMsg 0xB0 eid u.upd.seq u.upd.op .ok u.upd.operands))

/-- R412: the receiver has taken a piece of the bytes, so the update has been acknowledged in part. -/
def execMgFwAck (m : Msg) (s : State) : Host.Outcome State Fault Refusal :=
  serving s (
    if m.ty ≠ 0xB7 then s
    else
      let s := s.consume m.die m
      if ¬ s.ras.workers.has [m.src] then s
      else s.modWorker m.src (fun w => { w with out := w.out.map (fun v =>
        if v.upd.seq = m.f 0 0 32 then { v with sentAt := s.now, sends := 1 } else v) }))

/-- Keep a report or an acknowledgement for REPORT_FETCH (R453). -/
def State.keep (b : List Byte) (s : State) : State :=
  if s.ras.fetch.contains b then s else { s with ras := { s.ras with fetch := s.ras.fetch ++ [b] } }

/-- R481: a worker's report. -/
def execMgReport (m : Msg) (s : State) : Host.Outcome State Fault Refusal :=
  serving s (
    if m.ty ≠ 0xB2 then s
    else
      let s := s.consume m.die m
      if s.isManager then (s.keep (m.bytes 0 m.len)).send 0 (s.mgMsg 0xB3 m.src (m.f 0 0 32) (m.f 4 0 16) .ok []) else s)

/-- R416. -/
def execMgReportAck (m : Msg) (s : State) : Host.Outcome State Fault Refusal :=
  serving s (
    if m.ty ≠ 0xB3 then s
    else
      let s := s.consume m.die m
      if s.fromManager m then { s with ras := { s.ras with reports := s.ras.reports.filter (fun r => decide (r.seq ≠ m.f 0 0 32)) } }
      else s)

/-- R416. -/
def execReportResend (seq : Nat) (s : State) : Host.Outcome State Fault Refusal :=
  serving s (
    match s.ras.reports.find? (fun r => r.seq = seq) with
    | none => s
    | some r =>
      if s.now < r.sentAt + 1000000 then s
      else
        let t : State := { s with ras := { s.ras with
          reports := s.ras.reports.map (fun x => if x.seq = seq then { x with sentAt := s.now } else x) } }
        (t.sendReport r).bump R.RAS_CNT_count [5])

/-- R412: evidence of a worker, whole, is kept for REPORT_FETCH. -/
def execMgEvidRsp (m : Msg) (s : State) : Host.Outcome State Fault Refusal :=
  serving s (
    if m.ty ≠ 0xB9 then s
    else
      let s := s.consume m.die m
      if ¬ s.isManager then s
      else
        let key := [m.src, m.f 0 0 32]
        let t := (s.ras.evidence.get { op := 0 } key).add (m.f 12 0 32) (m.bytes 16 (m.len - 16))
        if t.whole then State.keep t.bytes { s with ras := { s.ras with evidence := s.ras.evidence.erase key } }
        else { s with ras := { s.ras with evidence := s.ras.evidence.set key t } })

/-! ### The signed expel (R418, R419) -/

def expelLen : Nat := 7860

/-- Signatures of an expel that verify, of distinct replicas below `n` (R418). -/
def expelVotes (keys : List Byte) (n : Nat) (body : List Byte) : Nat :=
  let stmt := body.take 32
  let good (i : Nat) : Option Nat :=
    let part := (body.drop (32 + expelLen * i)).take expelLen
    let r := natOfBytes (part.take 1)
    if part.length = expelLen ∧ r < n ∧ Config.sigOk (natOfBytes ((keys.drop (32 * r)).take 32)) 0x06 stmt (part.drop 4) then some r
    else none
  ((List.range (natOfBytes ((body.drop 16).take 1))).filterMap good).eraseDups.length

/-- R418: the status of an expel. -/
def State.expelStatus (body : List Byte) (s : State) : Status :=
  let x := natOfBytes (body.take 32)
  let q := (s.entry 3).getD []
  let n := natOfBytes (q.take 1)
  if s.tst = Ts.unsync ∨ s.tst = Ts.acquiring then .retry
  else if s.sec.expels.contains (sha (body.take 32)) then .ok
  else if body.length < 32 ∨ fieldOf x 0 17 15 ≠ 0 ∨ fieldOf x 16 8 120 ≠ 0 ∨ 2 ^ 20 ≤ dist 32 s.beat (fieldOf x 8 0 32) ∨ n = 0 ∨
      expelVotes (q.drop 8) n body < natOfBytes ((q.drop 1).take 1) then .protViolation
  else .ok

/-- Take an expel: refused and counted, or accepted to take effect at the next beat start; a repeat is not acted on. -/
def State.takeExpel (body : List Byte) (s : State) : Status × State :=
  let st := s.expelStatus body
  let digest := sha (body.take 32)
  let x := natOfBytes (body.take 32)
  if st ≠ .ok then (st, (s.bump R.RAS_CNT_count [6]).event B.ras 7)
  else if s.sec.expels.contains digest then (.ok, s)
  else
    let due : Expel := { target := fieldOf x 0 0 16, apold := fieldOf x 0 16 1 = 1, newManager := fieldOf x 4 0 16,
                         promote := fieldOf x 4 16 16, beat := (s.beat + 1) % 2 ^ 32 }
    let l := s.sec.expels ++ [digest]
    (.ok, State.event B.ras 6 { s with sec := { s.sec with expels := l.drop (l.length - 256), due := s.sec.due ++ [due] } })

/-- The packets of an expel that stand at West's input are read. -/
def State.readExpel (src : Nat) (s : State) : State :=
  ((s.sw.agentIn.get [] [0, Ch.mgt]).filter (fun q => decide (q.msg.ty = 0xB4 ∧ q.msg.src = src))).foldl (fun t q => t.consume 0 q.msg) s

/-- R418. -/
def execMgExpel (body : List Byte) (src : Nat) (s : State) : Host.Outcome State Fault Refusal :=
  serving s (
    let s := s.readExpel src
    if s.pkg.expelled ∨ ¬ s.firmware then s
    else
      let r := s.takeExpel body
      r.2.send 0 (r.2.mgMsg 0xB5 src 0 0 r.1 []))

/-- A new manager device: every sequence restarts at 0 (R415, R419, R481). -/
def State.restartSeqs (s : State) : State :=
  let reports := s.ras.reports.mapIdx (fun i r => { r with seq := i })
  { s with hif := { s.hif with waiting := s.hif.waiting.filter (·.isSome) },
           ras := { s.ras with expected := 0, held := [], later := [], objects := Map.empty, acks := [], workers := Map.empty,
                               evidence := Map.empty, reports := reports, reportSeq := reports.length } }

/-- R419: an endpoint is expelled. -/
def State.expelEndpoint (eid : Nat) (s : State) : State :=
  let s := ((s.listed R.POL_LEASE_valid).filter (fun k => s.rd R.POL_LEASE_eid k = eid && ! s.on R.POL_LEASE_expired k)).foldl
    (fun t k => t.expire (k.headD 0)) s
  let s := (s.declareAgent eid 0).settleBindings
  let s := ((List.range 256).filter (fun p => s.isEdge p && s.partnerEid p = eid)).foldl
    (fun t p => (t.wr R.PRT_PORT_CTL_admit [p] 0).disablePort p) s
  ((s.listed R.POL_LEND_valid).filter (fun k => s.rd R.POL_LEND_eid k = eid)).foldl (fun t k =>
    t.loseExtents (t.rd R.POL_LEND_node k) (List.range (t.rd R.POL_LEND_extents k))) s

/-- R419. -/
def State.applyExpel (x : Expel) (s : State) : State :=
  let s : State :=
    if ¬ x.apold then s.expelEndpoint x.target
    else if x.target = s.eid then
      let t := (List.range 256).foldl (fun t p => t.disablePort p) s
      { t with pkg := { t.pkg with expelled := true } }
    else ((List.range 256).filter (fun p => s.isUp p && !s.isEdge p && s.partnerEid p = x.target)).foldl (fun t p => t.disablePort p) s
  let s := if x.newManager = 0xFFFF then s else (s.wr R.RAS_MGR_CFG_manager_eid [] x.newManager).restartSeqs
  if x.promote = s.eid ∧ x.promote ≠ 0xFFFF ∧ s.isPuppet ∧ s.pair.primary = x.target then s.promote 0x0701 else s

/-- R419: accepted expels act in the order in which they were accepted. -/
def execExpelApply (s : State) : Host.Outcome State Fault Refusal :=
  serving s (
    match s.sec.due with
    | [] => s
    | x :: rest =>
      if ahead x.beat s.beat then s
      else State.applyExpel x { s with sec := { s.sec with due := rest } })

/-- R453: another Apold's verdict on an expel. -/
def execMgExpelAck (m : Msg) (s : State) : Host.Outcome State Fault Refusal :=
  serving s (
    if m.ty ≠ 0xB5 then s
    else
      let s := s.consume m.die m
      if s.isManager then s.keep (m.bytes 0 m.len) else s)

/-- Every Apold that the current route table names, but this one (R412). -/
def State.otherApolds (s : State) : List Nat :=
  ((s.sw.current.route.keys.map (·.headD 0)).filter (fun e => Config.isApold e && decide (e ≠ s.eid))).eraseDups

/-! ### The mailbox ops (R453) -/

/-- A mailbox op carried out: status or none where the reply comes later, reply bytes, state. -/
def State.mailOp (fn : Nat) (q : MReq) (s : State) : Option Status × List Byte × State :=
  let x := natOfBytes q.operands
  let f (off w : Nat) : Nat := fieldOf x off 0 w
  let done (r : Status × State) : Option Status × List Byte × State :=
    (some r.1, [], if r.1 = .ok then r.2 else r.2.event B.sec 6)
  let pf (r : Status × State) : Option Status × List Byte × State := done (pfOnly fn s r)
  let fm (r : Option Status × List Byte × State) : Option Status × List Byte × State :=
    if fn ≠ 0 then (some .protViolation, [], s) else if ¬ s.isManager then (some .unsupported, [], s) else r
  match q.op with
  | 0x0001 => if q.operands.length < 2 then done (.unsupported, s) else done (s.imageLoad fn (f 0 8) (f 1 8) q.bulk)
  | 0x0002 => if q.operands.length < 2 then done (.unsupported, s) else done (s.imageUnload fn (f 0 8) (f 1 8))
  | 0x0010 =>
    let b := q.operands.drop 8
    let r := if q.operands.length < 4 ∨ f 4 32 ≠ 0 then (some Status.unsupported, s)
             else if f 0 16 = s.eid then s.applyOp (f 2 16) b q.bulk .mailbox
             else s.relay (f 0 16) (f 2 16) b q.bulk
    fm (r.1, [], r.2)
  | 0x0011 =>
    let r := s.takeExpel q.bulk
    fm (some r.1, [], r.2.otherApolds.foldl (fun t e => t.sendObject 0xB4 e 0 0 q.bulk) r.2)
  | 0x0012 =>
    match s.ras.fetch with
    | b :: rest => fm (some .ok, b, { s with ras := { s.ras with fetch := rest } })
    | [] => fm (some .ok, [], s)
  | 0x0020 => pf (if s.fwBusy then (.retry, s) else s.fwWrite q.bulk)
  | 0x0021 => if q.operands.length < 4 then pf (.unsupported, s) else pf (s.fwHandover (f 0 32))
  | 0x0022 => pf (s.fwPush q.bulk)
  | 0x0023 => pf (s.configWrite q.bulk)
  | 0x0024 => pf (s.endorseWrite q.bulk)
  | 0x0025 => pf (s.debugAuth q.bulk)
  | _ => (some .unsupported, [], s)

/-- Carry out a request the Marionette has taken, and answer it where its outcome is known (R452). A request whose function
was reset meanwhile stands at 32 and above, and its reply is discarded (R445). -/
def State.runMail (k : Nat) (s : State) : State :=
  match s.hif.mbox.get? [k] with
  | none => s
  | some q =>
    let r := s.mailOp (k % 32) q
    let gone (t : State) : State := { t with hif := { t.hif with mbox := t.hif.mbox.erase [k] } }
    match r.1 with
    | some st => if k < 32 then State.mailReply k q.seq st r.2.1 (gone r.2.2) else gone r.2.2
    | none => if k < 32 then r.2.2 else gone r.2.2

/-- The Marionette takes a request (R391, R452). -/
def State.mailTake (fn seq op : Nat) (operands bulk : List Byte) (s : State) : State :=
  if s.pkg.expelled then s
  else if ¬ s.firmware ∧ ¬ (s.inRecovery ∧ op = Op.fwPush) then s.mailReply fn seq .retry []
  else
    let q : MReq := { seq := seq, op := op, operands := operands, bulk := bulk }
    let s := State.setBusyBit fn true { s with hif := { s.hif with mbox := s.hif.mbox.set [fn] q } }
    if s.sec.restarted.isSome then { s with hif := { s.hif with waiting := s.hif.waiting ++ [some fn] } } else s.runMail fn

/-- What a hand-over held back is carried out in order of arrival (R391), then the objects that became whole meanwhile. -/
def State.runLater (s : State) : State :=
  let s := s.hif.waiting.foldl (fun (t : State) w =>
    match w, t.ras.later with
    | some f, _ => t.runMail f
    | none, u :: rest => State.runUpd u { t with ras := { t.ras with later := rest } }
    | none, [] => t) { s with hif := { s.hif with waiting := [] } }
  (s.ras.objects.entries.filter (fun e => e.2.whole)).foldl (fun t e =>
    State.runObject (e.1.getD 1 0) e.2 { t with ras := { t.ras with objects := t.ras.objects.erase e.1 } }) s

/-- R453: FM_COMMAND; the bytes of an image command are its operands here. -/
def execFmCommand (target op : Nat) (operands : List Byte) (s : State) : Host.Outcome State Fault Refusal :=
  clocked s (
    if s.hif.mbox.has [0] then s
    else
      let head := bytesOfNat 2 target ++ bytesOfNat 2 op ++ bytesOfNat 4 0
      if isImageOp op then s.mailTake 0 (s.nextMail 0) Op.fmCommand head operands
      else s.mailTake 0 (s.nextMail 0) Op.fmCommand (head ++ operands) [])

/-- R453: FM_EXPEL. -/
def execFmExpel (body : List Byte) (s : State) : Host.Outcome State Fault Refusal :=
  clocked s (if s.hif.mbox.has [0] then s else s.mailTake 0 (s.nextMail 0) Op.fmExpel [] body)

/-- R453: REPORT_FETCH. -/
def execReportFetch (s : State) : Host.Outcome State Fault Refusal :=
  clocked s (if s.hif.mbox.has [0] then s else s.mailTake 0 (s.nextMail 0) Op.reportFetch [] [])

/-! ### FATAL, patrol passes, freeze (R405, R429, R430) -/

/-- R405: the report goes first; then every port is DISABLED and the part serves nothing. -/
def execFatalError (block cause source : Nat) (s : State) : Host.Outcome State Fault Refusal :=
  clocked s (
    if s.pkg.fatal then s
    else
      let ft := s.ftHub
      let seq := s.rd R.RAS_LOG_PROD_count []
      let s := (s.ringPut ft .fatal block .ok cause source 0).event B.ras 2
      let s := s.report 1 .ok (bytesOfNat 32 (logRecord ft .fatal block .ok cause source 0 seq))
      let s := ((s.wr R.RAS_FATAL_INFO_block [] block).wr R.RAS_FATAL_INFO_cause [] cause).wr R.RAS_FATAL_INFO_source [] source
      let s := (List.range 256).foldl (fun t p => t.disablePort p) s
      { s with pkg := { s.pkg with fatal := true, frozen := s.pkg.frozen || s.on R.RAS_CFG_freeze_on_fatal [] } })

/-- R429: a write of RAS_SCRUB_SCHED. -/
def State.scheduleScrub (v : Nat) (s : State) : State :=
  let target := bitsOf v 0 5
  if s.tier.passAt.isSome ∨ s.tier.passLeft.isSome then s.badWrite R.RAS_SCRUB_SCHED_target []
  else
    let s := if (20 ≤ target ∧ target < 24) ∨ bitsOf v 8 8 = 0 then s.badWrite R.RAS_SCRUB_SCHED_target [] else s
    let s := if 20 ≤ target ∧ target < 24 then s else s.wr R.RAS_SCRUB_SCHED_target [] target
    let s := if bitsOf v 8 8 = 0 then s else s.wr R.RAS_SCRUB_SCHED_rate [] (bitsOf v 8 8)
    let s := s.wr R.RAS_SCRUB_SCHED_beat [] (bitsOf v 32 32)
    State.lateIf (bitsOf v 32 32) s.beat { s with tier := { s.tier with passAt := some (launchBeat (bitsOf v 32 32) s.beat) } }

/-- R429. -/
def execScrubSchedule (v : Nat) (s : State) : Host.Outcome State Fault Refusal :=
  hosted s (fun s => s.started R.RAS_SCRUB_SCHED_target [] (s.scheduleScrub v))

/-- R429: the pass begins; a unit out of service has no line to read. -/
def execScrubPassStart (s : State) : Host.Outcome State Fault Refusal :=
  serving s (
    if (s.tier.passAt.map (fun b => ahead b s.beat)).getD true then s
    else
      let target := s.rd R.RAS_SCRUB_SCHED_target []
      let u := passUnit target
      let lines := if u < 20 then (if s.stackRuns u then 603979776 else 0)
                   else if s.rd R.BRD_CH_STATUS_state [u - 20] = 2 ∨ s.rd R.BRD_CH_STATUS_state [u - 20] = 3 then
                     s.rd R.BRD_CH_STATUS_slots [u - 20] * 2 ^ 19 else 0
      let t : State := { s with tier := { s.tier with passAt := none, passLeft := if lines = 0 then none else some (target, lines) } }
      if lines = 0 then t.event B.ras 9 else t)

/-- R430, R467: a pulse of 5 to 20 ns may or may not freeze the part, a free value. -/
def execFreezePin (ns : Nat) (s : State) : Host.Outcome State Fault Refusal :=
  finish s (
    if 20 ≤ ns then { s with pkg := { s.pkg with frozen := true } }
    else if 5 ≤ ns then { s.drew with pkg := { s.pkg with frozen := s.pkg.frozen || s.freeVal % 2 = 1 } }
    else s)

end Sys2Proof.Machine
end

