-- ==== Sys2Proof/Machine/HostIf.lean ====
section
/-! DEFINITION. The host interface: resets, pool bring-up, the end of a hand-over, the mailbox, BAR4, bounce records, the
pool window, MSI-X, Rest, and the I3C target (R391, R399 to R401, R434 to R454). -/

namespace Sys2Proof.Machine

/-! ### Resets (R445) -/

/-- Fields of a function's mailbox. -/
def mailFields : List Nat := [R.MRN_REQ_word.num, R.MRN_REPLY_word.num, R.MRN_REPLY_HDR_seq.num, R.MRN_REPLY_HDR_status.num,
  R.MRN_REPLY_HDR_length.num, R.MRN_CFG_vector.num, R.MRN_CFG_int_en.num]

/-- A bounce session is erased (R401). -/
def State.endSession (f : Nat) (s : State) : State :=
  let s : State := { s with sec := { s.sec with bounce := s.sec.bounce.erase [f], dks := s.sec.dks.erase [f] } }
  ((((s.wr R.SEC_SESSION_state [f] 0).wr R.SEC_SESSION_status [f] 0).wr R.SEC_SESSION_seq_in [f] 0).wr
    R.SEC_SESSION_seq_out [f] 0).wr R.SEC_TENANT_session_open [f] 0

/-- What an endpoint reset or a Function Level Reset does to one function. A request the Marionette has taken is carried out
without a reply, and a BAR2 request already issued completes without a result. -/
def State.resetFunction (f : Nat) (s : State) : State :=
  let other (k : Key) : Bool := decide (k.head? ≠ some f)
  let aside := f + 32 * (s.hif.mbox.size + 1)
  let held := s.hif.waiting.contains (some f)
  let mbox := match s.hif.mbox.get? [f] with
    | some q => if held then (s.hif.mbox.erase [f]).set [aside] q else s.hif.mbox.erase [f]
    | none => s.hif.mbox
  let s : State := { s with
    regs := s.regs.keep (fun k _ => !(mailFields.contains (k.headD 0) && decide (k[1]? = some f))),
    sec := { s.sec with evidence := s.sec.evidence.filter (fun e => !(decide (e.fn = f) && e.via.isNone)) },
    hif := { s.hif with
      msixOpen := s.hif.msixOpen.keep (fun k _ => other k),
      msixPending := s.hif.msixPending.keep (fun k _ => other k),
      mbox := mbox,
      waiting := s.hif.waiting.map (fun x => if x = some f then some aside else x),
      bar4 := s.hif.bar4.keep (fun k _ => other k),
      doe := s.hif.doe.erase [f],
      bar2 := s.hif.bar2.each (fun k l => if other k then l
        else (l.filter (fun a => a.issued)).map (fun a => { a with dead := true })) } }
  (s.setBusyBit f false).endSession f

def State.resetEndpoint (s : State) : State := (List.range 32).foldl (fun t f => t.resetFunction f) s

/-- R445: RESET_N keeps the retention cell of R472, and a power-on does not. Rails out of tolerance keep holding the part. -/
def execPartReset (cause : Nat) (s : State) : Host.Outcome State Fault Refusal :=
  finish s (
    if 1 < cause then s
    else
      let t := s.partReset cause
      let t := if cause = 0 then (t.wr R.PWR_THERMAL_STATUS_tripped [] 0).wr R.PWR_THERMAL_STATUS_trip_source [] 0 else t
      { t with pkg := { t.pkg with railHeld := s.pkg.railHeld } })

/-- R445: GLB_CTL.part_reset. -/
def execSoftwarePartReset (key : Nat) (s : State) : Host.Outcome State Fault Refusal :=
  clocked s (if key = 0xA5 then s.partReset 3 else s)

/-- R445. -/
def execPerst (s : State) : Host.Outcome State Fault Refusal :=
  clocked s (
    if s.on R.GLB_CFG_perst_part [] then s.partReset 2
    else
      let t := s.resetEndpoint
      { t with hif := { t.hif with linkUp := false } })

/-- R445: Hot Reset, or link down. -/
def execEndpointReset (s : State) : Host.Outcome State Fault Refusal :=
  clocked s (
    let t := s.resetEndpoint
    { t with hif := { t.hif with linkUp := false } })

/-- R445: that of the physical function ends every virtual function. -/
def execFunctionLevelReset (f : Nat) (s : State) : Host.Outcome State Fault Refusal :=
  clocked s (if f = 0 then s.resetEndpoint else if f < 32 then s.resetFunction f else s)

/-- R446. -/
def execPcieLinkUp (s : State) : Host.Outcome State Fault Refusal :=
  clocked s { s with hif := { s.hif with linkUp := true } }

/-! ### I3C (R454) -/

/-- R454. -/
def execI3cReset (s : State) : Host.Outcome State Fault Refusal := clocked s (s.partReset 4)

/-- R449, R454. -/
def execI3cWake (s : State) : Host.Outcome State Fault Refusal := clocked s (s.wakeUp 4)

/-- R454. -/
def execDynamicAddressAssigned (a : Nat) (s : State) : Host.Outcome State Fault Refusal :=
  clocked s { s with hif := { s.hif with dynamic := some (a % 128) } }

/-! ### Pool bring-up (R444, R446) -/

/-- What the SPD read of a channel leaves: nothing, a module in training, or a refused one. -/
def State.readSpd (c : Nat) (spd : Option Spd) (s : State) : State :=
  match spd with
  | none => s
  | some d =>
    if s.chState c ≠ 0 then s
    else
      let s := (s.showModule c d).emit (.pin (2 + c) 1)
      if accepted d then
        let n := 16 * d.capacityGiB
        let s : State := { s with tier := { s.tier with boot := s.tier.boot.set [c] n } }
        (s.wr R.BRD_CH_STATUS_slots [c] n).wr R.BRD_CH_STATUS_state [c] 1
      else
        (((s.wr R.BRD_CH_STATUS_state [c] 6).event B.brd 1).event B.brd 2).degraded 2 B.brd c 1

/-- The image store: one FREE stack extent on West, held as INTERNAL (R163, R444). -/
def State.takeStore (s : State) : State :=
  let unit := match s.pick false false (stacksOf 0) with
    | some l => some l
    | none => ((stacksOf 0).find? (fun u => decide (s.rd R.MEM_STACK_STATUS_state [u] ≠ 4))).map (fun u => { unit := u })
  match unit, (List.range (s.extents s.node)).find? (fun e => decide ((s.ext s.node e).state = .free)) with
  | some l, some e =>
    let s := s.setExt s.node e { state := .internal }
    { s with tier := { s.tier with loc := s.tier.loc.set [e] l, store := some e } }
  | _, _ => s

/-- R444. -/
def execPoolBringup (spds : List (Option Spd)) (s : State) : Host.Outcome State Fault Refusal :=
  clocked s (
    if ¬ s.firmware ∨ ¬ s.on R.SEC_BOOT_STATUS_config_ok [] ∨ s.isReady B.pol then s
    else
      let s := (List.range 8).foldl (fun t c => t.readSpd c (spds.getD c none)) s
      let n := 23040 + (List.range 8).foldl (fun a c => a + s.rd R.BRD_CH_STATUS_slots [c]) 0
      let s := s.wr R.POL_STATUS_extents [] n
      let failed := (List.range 20).filter (fun u => decide (s.rd R.MEM_STACK_STATUS_state [u] = 4))
      let s := ((s.loseSlots (1152 * failed.length)).takeStore.drawKey 32).drawKey 0
      [B.pol, B.coh, B.qpe, B.clt, B.gth].foldl (fun t b => t.ready b) s)

/-! ### The end of a hand-over (R391) -/

/-- R391 step 3. -/
def execHandoverDone (s : State) : Host.Outcome State Fault Refusal :=
  clocked s (
    if s.sec.restarted.isNone then s
    else
      let s := (s.wr R.SEC_FW_STATUS_running_version [] (Hd.version s.headNum)).wr R.SEC_FW_STATUS_handover_pending [] 0
      let s : State := { s with sec := { s.sec with restarted := none } }
      State.runLater ((s.bump R.SEC_CNT_count [8]).event B.sec 1))

/-- R391 step 4: not ready 10 ms after the restart. -/
def execHandoverTimeout (s : State) : Host.Outcome State Fault Refusal :=
  clocked s (
    match s.sec.restarted with
    | none => s
    | some (t, digest, version) =>
      if s.now < t + 10000000 then s
      else
        let s := ((s.wr R.SEC_FW_STATUS_running_version [] version).wr R.SEC_FW_STATUS_handover_pending [] 0).extendMs 5 digest
        let s : State := { s with sec := { s.sec with restarted := none, running := digest } }
        State.runLater (s.event B.sec 2))

/-! ### The mailbox (R451, R452) -/

/-- The first `n` bytes of a function's request buffer. -/
def State.mailBytes (s : State) (fn n : Nat) : List Byte :=
  ((List.range (ceilDiv n 8)).flatMap (fun k => bytesOfNat 8 (s.rd R.MRN_REQ_word [fn, k]))).take n

/-- R452: a write of MRN_DOORBELL; `bulk` is what the DMA read of bulk_addr returns. -/
def State.mailDoorbell (fn seq : Nat) (bulk : List Byte) (s : State) : State :=
  if s.hif.mbox.has [fn] ∨ seq % 65536 = s.rd R.MRN_REPLY_HDR_seq [fn] then (s.event B.mrn 0).badWrite R.MRN_DOORBELL_seq [fn]
  else
    let h := natOfBytes (s.mailBytes fn 32)
    let n := fieldOf h 4 0 13
    let bad := fieldOf h 0 16 16 ≠ 0 ∨ fieldOf h 4 13 19 ≠ 0 ∨ fieldOf h 20 0 96 ≠ 0 ∨ 4064 < n
    if bad ∧ s.firmware then s.mailReply fn (seq % 65536) .unsupported []
    else
      s.mailTake fn (seq % 65536) (fieldOf h 0 0 16) ((s.mailBytes fn (32 + n)).drop 32)
        (if fieldOf h 8 0 64 = 0 then [] else bulk.take (fieldOf h 16 0 32))

/-- R452. -/
def execMailboxDoorbell (fn seq : Nat) (bulk : List Byte) (s : State) : Host.Outcome State Fault Refusal :=
  clocked s (if fn < 32 then (s.wakeUp 2).mailDoorbell fn seq bulk else s)

/-! ### MSI-X (R441) -/

/-- R441. -/
def execMsixUnmask (fn vec : Nat) (s : State) : Host.Outcome State Fault Refusal :=
  clocked s (
    if 31 < fn ∨ (if fn = 0 then 2048 else 64) ≤ vec then s
    else
      let t : State := { s with hif := { s.hif with msixOpen := s.hif.msixOpen.set [fn, vec] () } }
      if t.hif.msixPending.has [fn, vec] then
        State.emit (.msix fn vec) { t with hif := { t.hif with msixPending := t.hif.msixPending.erase [fn, vec] } }
      else t)

/-! ### Requests of the host's engines (R113, R114, R400, R437) -/

/-- `n` bytes from `a` in pieces that one RD or WR takes: at most 4,080 bytes, within 4 KiB. -/
def pieces (a : Nat) : Nat → Nat → Nat → List (Nat × Nat)
  | 0, _, _ => []
  | fuel + 1, off, n =>
    if n = 0 then []
    else
      let k := min (min n 4080) (4096 - (a + off) % 4096)
      (off, k) :: pieces a fuel (off + k) (n - k)

/-- A request of West's agents for function `f`. -/
def State.hostRequest (s : State) (f ty addr len data nbytes : Nat) : Msg :=
  s.request ty (s.homeOf addr) addr len f 0 (s.homeDie addr) false 0 false data nbytes

/-! ### Bounce records (R399, R400, R439, R440) -/

def State.ring (s : State) (f : Nat) (inbound : Bool) : Nat × Nat :=
  (s.bar4 f (if inbound then 0 else 0x20) 1, 2 ^ s.bar4 f (if inbound then 8 else 0x28) 1)

/-- The session goes to FAULT (R400). -/
def State.sessionFault (f : Nat) (st : Status) (s : State) : State :=
  let s := s.modBnc f (fun b => { b with keys := 0, recs := [] })
  let s := ((s.wr R.SEC_SESSION_state [f] 3).wr R.SEC_SESSION_status [f] st.code).wr R.SEC_TENANT_session_open [f] 0
  s.event B.sec 3

/-- The bytes of data a record carries. -/
def recData (head : Nat) : Nat := if fieldOf head 8 56 8 = 1 ∧ fieldOf head 16 0 32 ≤ 65536 then fieldOf head 16 0 32 else 0

/-- The bytes a record takes in its ring. -/
def recSize (data : Nat) : Nat := 64 * ceilDiv (48 + data) 64

/-- A pad record's seq (R440). -/
def padSeq : Nat := 2 ^ 64 - 1

/-- What a record does: nothing where it is refused, else its requests (R400). -/
def State.startRecord (f : Nat) (head : Nat) (text : List Byte) (s : State) : State :=
  let op := fieldOf head 8 56 8
  let addr := fieldOf head 8 0 56
  let n := fieldOf head 16 0 32
  let id := (s.bnc f).nextRec
  let refused := (op ≠ 1 ∧ op ≠ 2) ∨ n = 0 ∨ 65536 < addr % 65536 + n ∨ fieldOf head 24 0 64 ≠ 0
  let cuts : List (Nat × Nat) := if refused then [] else if op = 2 then [(0, n)] else pieces addr 34 0 n
  let r : BRec := { id := id, head := head, left := cuts.length, status := if refused then .unsupported else .ok }
  let s := s.modBnc f (fun b => { b with recs := b.recs ++ [r], nextRec := id + 1 })
  let x := natOfBytes text
  cuts.foldl (fun t c =>
    let m := if op = 2 then t.hostRequest f (if n ≤ 4080 ∧ addr % 4096 + n ≤ 4096 then 0x10 else 0x11) addr n 0 0
             else t.hostRequest f 0x12 (addr + c.1) c.2 (bitsOf x (8 * c.1) (8 * c.2)) c.2
    t.issue 0 (.bounce f) (.bounce f id c.1) m) s

/-- The conditions that end a session at an inbound record (R400). -/
def State.recordFault (f : Nat) (head : Nat) (rec : List Byte) (s : State) : Option Status :=
  let seq := fieldOf head 0 0 64
  let n := recData head
  let checks : List (Bool × Status) :=
    [(! Config.gcmOk (s.bnc f).keys 0 seq (rec.take 32) ((rec.drop 32).take (n + 16)), .protViolation),
     (decide (seq ≠ s.rd R.SEC_SESSION_seq_in [f]), .seqWindow), (decide (2 ^ 32 ≤ s.rd R.SEC_SESSION_seq_in [f]), .quota)]
  match (checks.filter (fun c => c.1)).map (·.2) with
  | [] => none
  | st :: rest => some (rest.foldl Status.join st)

/-- The bytes that the next output record adds to the count: a pad record first where the ring's end is too near. -/
def State.outSteps (s : State) (f data : Nat) : Nat × Nat :=
  let size := (s.ring f false).2
  let at_ := (s.bnc f).outProd % size
  (if size < at_ + recSize data then size - at_ else 0, recSize data)

/-- The data bytes of a record's output. -/
def outData (r : BRec) : Nat :=
  if fieldOf r.head 8 56 8 = 2 ∧ (r.status = .ok ∨ r.status = .poison) then fieldOf r.head 16 0 32 else 0

/-- The output ring has no room for the record whose answer is due, so input stops (R440). -/
def State.outBlocked (s : State) (f : Nat) : Bool :=
  match (s.bnc f).recs with
  | r :: _ =>
    let t := s.outSteps f (outData r)
    decide (r.left = 0 ∧ (s.ring f false).2 < (s.bnc f).outProd + t.1 + t.2 - s.bar4 f 0x38 1)
  | [] => false

/-- R399, R400, R440: `rec` is the next record as read from the ring. -/
def execInboundRecord (fn : Nat) (rec : List Byte) (s : State) : Host.Outcome State Fault Refusal :=
  serving s (
    let head := natOfBytes (rec.take 32)
    let cons := s.bar4 fn 0x18 1
    let size := (s.ring fn true).2
    let avail := s.bar4 fn 0x10 1 - cons
    if s.rd R.SEC_SESSION_state [fn] ≠ 2 ∨ rec.length < 32 ∨ avail < 32 ∨ s.outBlocked fn then s
    else if fieldOf head 0 0 64 = padSeq then s.setBar4 fn 0x18 1 (cons + (size - cons % size))
    else
      let n := recSize (recData head)
      if rec.length < n ∨ avail < n then s
      else
        match s.recordFault fn head rec with
        | some st =>
          let s := if st = .protViolation then s.bump R.SEC_CNT_count [5] else if st = .seqWindow then s.bump R.SEC_CNT_count [6] else s
          s.sessionFault fn st
        | none =>
          let text := Config.gcmOpen (s.bnc fn).keys 0 (fieldOf head 0 0 64) (rec.take 32) ((rec.drop 32).take (recData head + 16))
          let s := ((s.setBar4 fn 0x18 1 (cons + n)).wr R.SEC_SESSION_seq_in [fn] (s.rd R.SEC_SESSION_seq_in [fn] + 1)).bump
            R.SEC_CNT_count [3]
          s.startRecord fn head text)

/-- R399, R440: the oldest record is answered once every response has arrived; the mirror follows, then the vector. -/
def execOutboundRecord (fn : Nat) (s : State) : Host.Outcome State Fault Refusal :=
  serving s (
    match (s.bnc fn).recs with
    | [] => s
    | r :: rest =>
      let b := s.bnc fn
      let data := outData r
      let t := s.outSteps fn data
      let ring := s.ring fn false
      let seq := s.rd R.SEC_SESSION_seq_out [fn]
      if r.left ≠ 0 ∨ s.rd R.SEC_SESSION_state [fn] ≠ 2 ∨ s.outBlocked fn then s
      else if 2 ^ 32 ≤ seq then s.sessionFault fn .quota
      else
        let head := bytesOfNat 32 (layout [(0, 0, 64, seq), (8, 0, 32, fieldOf r.head 20 0 32), (8, 32, 4, r.status.code), (16, 0, 32, data)])
        let sealed := (Config.gcmSeal b.keys 1 seq head (bytesOfNat data r.data)).take (data + 16)
        let body := head ++ sealed
        let s := if t.1 = 0 then s
          else s.emit (.hostWrite fn (ring.1 + b.outProd % ring.2) (bytesOfNat 32 (layout [(0, 0, 64, padSeq)])))
        let prod := b.outProd + t.1
        let s := s.emit (.hostWrite fn (ring.1 + prod % ring.2) (body ++ List.replicate (t.2 - body.length) 0))
        let s := s.modBnc fn (fun b => { b with recs := rest, outProd := prod + t.2 })
        let s := s.emit (.hostWrite fn (s.bar4 fn 0x30 1) (bytesOfNat 8 (prod + t.2)))
        let s := (s.wr R.SEC_SESSION_seq_out [fn] (seq + 1)).bump R.SEC_CNT_count [4]
        let v := s.bar4 fn 0x40 1
        if bitAt v 16 then s.msix fn (bitsOf v 0 11) else s)

/-- A response to a request of a record (R400). -/
def State.bounceDone (f id k : Nat) (st : Status) (data : Nat) (s : State) : State :=
  s.modBnc f (fun b => { b with recs := b.recs.map (fun r => if r.id = id then
    { r with left := r.left - 1, status := Status.join r.status st, data := r.data ||| data <<< (8 * k) } else r) })

/-- A ring register is written only while no session stands (R439). -/
def State.ringWrite (fn off v : Nat) (s : State) : State :=
  if s.rd R.SEC_SESSION_state [fn] = 0 then s.setBar4 fn off 1 v else s.progErr B.sec (0x2000 + 32 * fn)

/-- A write of eight bytes at an offset of a function's BAR4; all but its own pages ignore it (R439). -/
def State.writeBar4 (fn off v : Nat) (s : State) : State :=
  let x := off % 2 ^ 20
  let page := x % 4096
  let v := v % 2 ^ 64
  if x / 4096 ≠ fn then s
  else
    match off / 2 ^ 20 with
    | 0 => if page ≠ 0 then s else if s.isReady B.qpe then s.doorbell fn v else s.progErr B.qpe 0
    | 1 =>
      match page with
      | 0x00 | 0x20 => s.ringWrite fn page (v / 4096 * 4096)
      | 0x08 | 0x28 => if bitsOf v 0 5 < 16 ∨ 30 < bitsOf v 0 5 then s.progErr B.sec (0x2000 + 32 * fn) else s.ringWrite fn page (bitsOf v 0 5)
      | 0x10 => s.setBar4 fn 0x10 1 v
      | 0x30 => s.ringWrite fn 0x30 (v / 8 * 8)
      | 0x38 => s.setBar4 fn 0x38 1 v
      | 0x40 => s.ringWrite fn 0x40 (bitsOf v 0 11 + bitsOf v 16 1 <<< 16)
      | _ => s
    | 2 =>
      if page < 512 ∧ page % 8 = 0 then s.setBar4 fn page 2 (bitsOf v 0 1 + bitsOf v 30 26 <<< 30)
      else if page = 0x800 ∧ bitsOf v 0 4 ≠ 0 then s.setBar4 fn 0x800 2 0
      else s
    | _ => s

/-- R400: BB_IN_PROD. -/
def execBounceDoorbell (fn v : Nat) (s : State) : Host.Outcome State Fault Refusal :=
  hosted s (fun s => if fn < 32 then s.writeBar4 fn (2 ^ 20 + 4096 * fn + 0x10) v else s)

/-- R440. -/
def execBbOutCons (fn v : Nat) (s : State) : Host.Outcome State Fault Refusal :=
  hosted s (fun s => if fn < 32 then s.writeBar4 fn (2 ^ 20 + 4096 * fn + 0x38) v else s)

/-! ### The pool window (R436 to R438) -/

/-- The PCI Express status of a completed read (R438): 0 successful, 1 unsupported request, 2 successful and poisoned, 4
completer abort. -/
def pcieStatus (st : Status) : Nat :=
  match st with
  | .ok => 0
  | .poison | .nodeLost => 2
  | .protViolation | .unsupported => 1
  | _ => 4

def State.setBar2 (f : Nat) (l : List Bar2) (s : State) : State :=
  { s with hif := { s.hif with bar2 := if l = [] then s.hif.bar2.erase [f] else s.hif.bar2.set [f] l } }

/-- The outcome of an access whose requests have all been answered (R438). -/
def State.endBar2 (f : Nat) (a : Bar2) (s : State) : State :=
  let s := s.setBar2 f ((s.hif.bar2.get [] [f]).filter (fun b => decide (b.id ≠ a.id)))
  if a.dead then s
  else if a.write then
    if a.status = .ok ∨ s.bar4 f 0x800 2 ≠ 0 then s else s.setBar4 f 0x800 2 (a.status.code + a.off / 256 * 256)
  else
    let st := pcieStatus a.status
    s.emit (.completion f st (if st = 0 then bytesOfNat a.len a.data else if st = 2 then List.replicate a.len 0 else []))

/-- An access may be issued behind those before it: a read after every write has been acknowledged, a write after every
write to another extent (R437). -/
def mayFollow (before : List Bar2) (a : Bar2) : Bool :=
  before.all (fun b => !b.write || (a.write && b.addr / 2 ^ 26 = a.addr / 2 ^ 26))

/-- Issue one access: RDs, or WRs of the function's flow in order (R437). -/
def State.issueBar2 (f : Nat) (a : Bar2) (s : State) : State :=
  let cuts := pieces a.addr (a.len / 2048 + 3) 0 a.len
  let a : Bar2 := { a with issued := true, left := cuts.length }
  let s := s.setBar2 f ((s.hif.bar2.get [] [f]).map (fun b => if b.id = a.id then a else b))
  if cuts = [] then s.endBar2 f a
  else
    cuts.foldl (fun t c =>
      let m := if a.write then t.hostRequest f 0x12 (a.addr + c.1) c.2 (bitsOf a.data (8 * c.1) (8 * c.2)) c.2
               else t.hostRequest f 0x10 (a.addr + c.1) c.2 0 0
      t.issue 0 (.bar2 f) (.bar2 f a.id c.1) { m with ordered := a.write, flow := t.rd R.GLB_CFG_bar2_flow [] + f }) s

/-- Issue the accesses of a function that may go, in order. -/
def State.pumpBar2 (f : Nat) : Nat → State → State
  | 0, s => s
  | n + 1, s =>
    let l := s.hif.bar2.get [] [f]
    match (List.range l.length).findSome? (fun i => (l[i]?).bind (fun a =>
        if !a.issued && mayFollow (l.take i) a then some a else none)) with
    | some a => State.pumpBar2 f n (s.issueBar2 f a)
    | none => s

/-- A response to a request of an access. -/
def State.bar2Done (f id k : Nat) (st : Status) (data : Nat) (s : State) : State :=
  match (s.hif.bar2.get [] [f]).find? (fun a => a.id = id) with
  | none => s
  | some a =>
    let a : Bar2 := { a with left := a.left - 1, status := Status.join a.status st, data := if a.write then a.data else a.data ||| data <<< (8 * k) }
    let l := s.hif.bar2.get [] [f]
    let s := s.setBar2 f (l.map (fun b => if b.id = id then a else b))
    if a.left = 0 then (s.endBar2 f a).pumpBar2 f l.length else s

/-- Whether a function's BAR2 serves an offset, and the fabric address it stands for (R401, R436). -/
def State.aperture (s : State) (fn off : Nat) : Option Nat :=
  let r := s.bar4 fn (8 * (off / 2 ^ 30)) 2
  if 2 ^ 36 ≤ off ∨ ¬ bitAt r 0 ∨ 2 ≤ s.rd R.SEC_SESSION_state [fn] then none
  else some (bitsOf r 30 26 <<< 30 + off % 2 ^ 30)

/-- Take an access into the function's order. -/
def State.addBar2 (fn : Nat) (a : Bar2) (s : State) : State :=
  let l := s.hif.bar2.get [] [fn]
  let a : Bar2 := { a with id := s.hif.nextBar2 }
  State.pumpBar2 fn (l.length + 1) (State.setBar2 fn (l ++ [a]) { s with hif := { s.hif with nextBar2 := s.hif.nextBar2 + 1 } })

/-- R437. -/
def execBar2Read (fn off len : Nat) (s : State) : Host.Outcome State Fault Refusal :=
  hosted s (fun s =>
    match s.aperture fn off with
    | none => s.emit (.completion fn 1 [])
    | some addr => s.addBar2 fn { id := 0, write := false, off := off, addr := addr, len := len })

/-- R437; a posted write that no aperture takes is recorded as UNSUPPORTED (R436, R438). -/
def execBar2Write (fn off : Nat) (data : List Byte) (s : State) : Host.Outcome State Fault Refusal :=
  hosted s (fun s =>
    match s.aperture fn off with
    | none => s.endBar2 fn { id := s.hif.nextBar2, write := true, off := off, addr := 0, len := 0, status := .unsupported }
    | some addr => s.addBar2 fn { id := 0, write := true, off := off, addr := addr, len := data.length, data := natOfBytes data })

/-! ### Rest (R447 to R449) -/

/-- Rest is refused with RETRY (R50, R443, R447). -/
def State.restRefused (s : State) : State :=
  (((s.wr R.PWR_REST_STATUS_state [] 0).wr R.PWR_REST_STATUS_result [] Status.retry.code).bump R.PWR_CNT_count [5]).event B.pwr 4

/-- R447: `v` is the value written to PWR_REST_CTL. Rest is refused in the time states of R50 that refuse a launch. -/
def State.restRequest (v : Nat) (s : State) : State :=
  let s := s.wr R.PWR_REST_CTL_wake_en [] (bitsOf v 1 1)
  let s := if bitAt v 2 then s.wakeUp 1 else s
  if bitAt v 0 ∧ s.rd R.PWR_REST_STATUS_state [] = 0 then
    let b := s.rd R.PWR_REST_enter_beat []
    if ¬ s.isReady B.pwr ∨ s.noLaunch then s.restRefused
    else State.lateIf b s.beat (State.wr R.PWR_REST_STATUS_state [] 1
      { s with pkg := { s.pkg with restAt := some (launchBeat b s.beat) } })
  else s

/-- R447. -/
def execRestRequest (v : Nat) (s : State) : Host.Outcome State Fault Refusal := clocked s (s.restRequest v)

/-- Every condition of R447. -/
def State.mayRest (s : State) : Bool :=
  (List.range 256).all (fun p => !s.on R.PRT_PORT_CTL_enable [p] || s.rd R.PRT_PORT_STATUS_partner_role [p] = 1) &&
  decide (s.trk.home.entries = [] ∧ s.trk.issued.entries = [] ∧ s.trk.fwd.entries = [] ∧ s.trk.comb.entries = []) &&
  s.clt.colls.keys.all (fun k => ! [Cl.scheduled, Cl.open_, Cl.ending].contains (s.rd R.CLT_COLL_STATUS_state k)) &&
  decide (s.tier.moves.entries = [] ∧ s.pool.revs.entries = [] ∧ s.tier.passLeft = none) &&
  (List.range 20).all (fun u => decide (s.rd R.MEM_STACK_STATUS_state [u] ≠ 2) &&
    (List.range 32).all (fun k => decide (s.rd R.MEM_PC_STATUS_state [u, k] ≠ 1 ∧ s.rd R.MEM_PC_STATUS_state [u, k] ≠ 2))) &&
  (List.range 8).all (fun c => decide (s.rd R.BRD_CH_STATUS_state [c] ≠ 3)) &&
  (List.range 16).all (fun c => decide (s.cst c = Cs.ready)) &&
  s.cores.vals.all (fun k => k.task.isNone && k.deque.isEmpty) &&
  !s.on R.PWR_MODE_STATUS_pending [] && !s.on R.SEC_FW_STATUS_handover_pending [] && !s.on R.SWC_MAP_STATUS_switch_pending [] &&
  (List.range 32).all (fun f => decide (s.bar4 f 0x10 1 = s.bar4 f 0x18 1 ∧ (s.bnc f).recs = []))

/-- R447: the start of enter_beat. -/
def execRestEntry (s : State) : Host.Outcome State Fault Refusal :=
  clocked s (
    match s.pkg.restAt with
    | none => s
    | some b =>
      if ahead b s.beat ∨ s.pkg.fatal then s
      else
        let s : State := { s with pkg := { s.pkg with restAt := none } }
        if s.mayRest ∧ ¬ s.noLaunch then
          (((s.wr R.PWR_REST_STATUS_state [] 2).wr R.PWR_REST_STATUS_result [] Status.ok.code).bump R.PWR_CNT_count [4]).event B.pwr 3
        else s.restRefused)

/-- R449: cause 0 needs wake_en and its beat, cause 3 an enabled port. -/
def execWake (cause : Nat) (s : State) : Host.Outcome State Fault Refusal :=
  clocked s (
    match cause with
    | 0 => if s.on R.PWR_REST_CTL_wake_en [] ∧ ¬ ahead (s.rd R.PWR_REST_wake_beat []) s.beat then s.wakeUp 0 else s
    | 1 => s.wakeUp 1
    | 2 => s.wakeUp 2
    | 3 => if (List.range 256).any (fun p => s.on R.PRT_PORT_CTL_enable [p]) then s.wakeUp 3 else s
    | 4 => s.wakeUp 4
    | _ => s)

end Sys2Proof.Machine
end

