-- ==== Sys2Proof/Machine/Beats.lean ====
section
/-! DEFINITION. Beats passed over: forward steps and loads of fabric time, and the end of Rest (R38, R51, R52, R448,
R449). -/

namespace Sys2Proof.Machine

/-- Registers that show a pending operation, with those that show its beat. -/
def scheduled : List (Fld × Fld) :=
  [(R.PWR_MODE_STATUS_pending, R.PWR_MODE_STATUS_pending_beat),
   (R.SWC_MAP_STATUS_switch_pending, R.SWC_MAP_STATUS_pending_beat),
   (R.SEC_FW_STATUS_handover_pending, R.SEC_FW_BEAT_beat)]

/-- A beat held in part of the state: where it was passed over, the launch is late and falls to `next`. -/
def State.fallLate (gone : Nat → Bool) (next : Nat) (b : Option Nat) (put : Nat → State → State) (s : State) : State :=
  if (b.map gone).getD false then (put next s).late else s

/-- A core's scheduled pushes, and its wait for a beat, that were passed over (R285, R286). -/
def State.coreLate (gone : Nat → Bool) (next n : Nat) (s : State) : State :=
  let k := s.core n
  let s := (k.launches.filter (fun l => gone l.beat)).foldl (fun t _ => t.late)
    (s.modCore n (fun k => { k with launches := k.launches.map (fun l => if gone l.beat then { l with beat := next } else l) }))
  match k.wait with
  | some (.beat b d) => if gone b then (s.wake n d 1).late.flag n Fl.late else s
  | _ => s

/-- Operations whose beat `gone` says was passed over are late: they are counted and take effect at beat `next`; an
instruction that waits goes on at once (R38). -/
def State.lateSkipped (gone : Nat → Bool) (next : Nat) (s : State) : State :=
  let s := scheduled.foldl (fun t e =>
    t.fallLate gone next (if t.on e.1 [] then some (t.rd e.2 []) else none) (fun b => State.wr e.2 [] b)) s
  let s := s.fallLate gone next s.tier.passAt (fun b t => { t with tier := { t.tier with passAt := some b } })
  let s := s.fallLate gone next s.pair.handoff (fun b t => { t with pair := { t.pair with handoff := some b } })
  let s := s.fallLate gone next s.pkg.restAt (fun b t => { t with pkg := { t.pkg with restAt := some b } })
  let s := s.clt.colls.entries.foldl (fun t e =>
    t.fallLate gone next (if t.rd R.CLT_COLL_STATUS_state e.1 = Cl.scheduled then some (t.rd R.CLT_COLL_STATUS_beat e.1) else none)
      (fun b u => (u.wr R.CLT_COLL_STATUS_beat e.1 b).event B.clt 2)) s
  s.cores.keys.foldl (fun t k => t.coreLate gone next (k.headD 0)) s

/-- R51: FT steps forward at a beat start. -/
def execFtStep (s : State) : Host.Outcome State Fault Refusal :=
  clocked s (
    match s.tim.step with
    | some n =>
      if s.ftHub % 1024 = 0 then
        let t := (s.setFt (s.tim.ft + n)).event B.tim 4
        State.lateSkipped (fun b => ahead b s.beat && !ahead b t.beat) ((t.beat + 1) % 2 ^ 32)
          { t with tim := { t.tim with step := none } }
      else s
    | none => s)

/-! ### Loads (R52) -/

/-- Load TIM_FT_SET, unless it would move a count that has left UNSYNC backwards (R34, R52). -/
def State.loadFt (s : State) : State :=
  let v := s.rd R.TIM_FT_SET_value []
  if v < s.ftHub ∧ s.tst ≠ Ts.unsync then s.badWrite R.TIM_FT_LOAD_cmd []
  else (s.setFt (256 * v)).lateSkipped (fun b => ahead b s.beat && !ahead b (beatOf v)) ((beatOf v + 1) % 2 ^ 32)

/-- R52: command 0b01. -/
def State.loadNow (s : State) : State :=
  if s.tim.ppsLoad ∨ (¬ s.isMaster ∧ s.tst ≠ Ts.unsync) then s.badWrite R.TIM_FT_LOAD_cmd [] else s.loadFt

/-- R52: command 0b01. -/
def execLoadNow (s : State) : Host.Outcome State Fault Refusal :=
  clocked s (s.loadNow)

/-- R52: command 0b10. -/
def State.loadAtPps (s : State) : State :=
  if s.tim.ppsLoad ∨ ¬ s.isMaster ∨ s.rd R.TIM_CTL_ref_sel [] ≠ 2 then s.badWrite R.TIM_FT_LOAD_cmd []
  else { s with tim := { s.tim with ppsLoad := true } }

/-- R52: command 0b10. -/
def execLoadAtPps (s : State) : Host.Outcome State Fault Refusal :=
  clocked s (s.loadAtPps)

/-- R40, R52: a rising edge of PPS, or its stand-in at the phase while the input is absent. A pending load takes place;
otherwise the master slews so that the edge stays at its phase. -/
def execPpsEdge (s : State) : Host.Outcome State Fault Refusal :=
  clocked s (
    let atPhase := s.ftHub % 1000000000 = s.rd R.TIM_PPS_PHASE_phase_ns []
    if s.on R.TIM_STATUS_ref_lost [] ∧ ¬ atPhase then s
    else if s.tim.ppsLoad then State.loadFt { s with tim := { s.tim with ppsLoad := false } }
    else if s.isMaster ∧ s.rd R.TIM_CTL_ref_sel [] = 2 then
      let o : Int := ((s.tim.ft % 256000000000 : Nat) : Int) - 256 * s.rd R.TIM_PPS_PHASE_phase_ns []
      let o := if 128000000000 < o then o - 256000000000 else if o < -128000000000 then o + 256000000000 else o
      { s with tim := { s.tim with slew := -o } }
    else s)

/-! ### The end of Rest (R448, R449) -/

/-- A beat passed while the part was in Rest: its operation takes effect at wake, as a late launch (R448). -/
def State.lateInRest (s : State) : State := s.lateSkipped (fun b => !ahead b s.beat) ((s.beat + 1) % 2 ^ 32)

/-- R448, R449: full service. -/
def execWakeComplete (s : State) : Host.Outcome State Fault Refusal :=
  clocked s (
    if s.rd R.PWR_REST_STATUS_state [] ≠ 3 then s
    else ((s.wr R.PWR_REST_STATUS_state [] 0).lateInRest.expireDue).event B.pwr 5)

end Sys2Proof.Machine
end

