-- ==== Sys2Proof/Machine/Responses.lean ====
section
/-! DEFINITION. Answers to the requests of the part's own agents, and to those combined for a lender: matching, reissue,
retirement, and what each answer does for the agent that asked (R106, R129 to R137, R235, R275, R366). -/

namespace Sys2Proof.Machine

/-- What the retired entry at `key` does for its agent: a status, and the data that came. -/
def State.deliver (key : Key) (p : Purpose) (st : Status) (data : Option Nat) (s : State) : State :=
  let x := data.getD 0
  match p with
  | .load n a len ctr => (s.unmix n a len).coreRetired n key st ctr
  | .store n ctr => s.coreRetired n key st ctr
  | .atomic n addr sd len ctr =>
    let s := match addr with
      | some a => (match data with
        | some v => s.poke n a len v
        | none => s).unmix n a len
      | none => s
    let s := match sd with
      | some d => s.payFetch n d x st
      | none => s
    s.coreRetired n key st ctr
  | .coherent _ _ => s
  | .params slot owner step => s.paramsDone slot owner step st x
  | .contribution n ctr => s.coreRetired n key st ctr
  | .lookup n h set => s.setReady n h set (cutSlots (s.slotBytes n h set) 0 0) st
  | .qpSlot qpn slot recv gen => s.qpSlotDone qpn slot recv gen st x
  | .qpPost qpn slot gen => s.qpPostDone qpn slot gen st
  | .qpPart qpn id off _ gen => s.qpPartDone qpn id off gen st x
  | .qpJob qpn id off _ gen => s.qpJobDone qpn id off gen st x
  | .qpPlace qpn psn _ gen => s.qpPlaceDone qpn psn gen st
  | .cqRecord cqn qpn job => s.cqRecordDone cqn qpn job st
  | .gather d id row => s.gatherDone d id row st x
  | .bounce f rec k => s.bounceDone f rec k st x
  | .bar2 f a k => s.bar2Done f a k st x
  | .plain => s

/-- Bytes of a core's local memory that an answer ended early has left undefined (R133). -/
def State.blur (p : Purpose) (got : List (Nat × Nat)) (s : State) : State :=
  match p with
  | .load n a _ _ => got.foldl (fun t g => (t.poke n (a + g.1) g.2 t.freeVal).drew) s
  | _ => s

/-- A response that matches no live entry (R129). -/
def State.lateResponse (d : Nat) (s : State) : State := (s.bump R.TRK_CNT_count [d, 4]).event B.trk 1

/-- R133: a packet that breaks its read is a protocol error. -/
def State.trkError (d : Nat) (s : State) : State :=
  ((s.bump R.TRK_CNT_count [d, 11]).contained d B.trk .ok (Config.logSource B.trk 11) 0).event B.ras 4

/-- An entry's last answer has come: the window learns of it; a STALE_MAP or RETRY below the limit is reissued, and any
other status retires the entry (R106, R131). -/
def State.conclusive (d : Nat) (e : Nat × Nat × Issued) (m : Msg) (st : Status) (data : Option Nat) (s : State) : State :=
  let die := e.1
  let i := e.2.1
  let x := e.2.2
  let s := s.feedback die x.msg.dst (m.cm || x.marked) m.load
  if s.reissues x st then
    let w := s.winOf die x.msg.dst
    let s := s.setWin die x.msg.dst { w with outstanding := w.outstanding + 1 }
    if st = .staleMap then s.reissue die i x true
    else { s with trk := { s.trk with issued := s.trk.issued.set [die, i] { x with retryAt := some s.now } } }
  else
    let s := if st = .retry ∨ st = .staleMap then (s.bump R.TRK_CNT_count [d, 6]).event B.trk 2 else s
    let s := if data.isNone then s.blur x.purpose x.got else s
    State.deliver [die, i] x.purpose st data (s.dropIssued die i)

/-- The forwarded entry of a combined request that a lender answers (R130, R136). -/
def State.combinedFor (s : State) (tag : Nat) : Option (Key × Fwd) :=
  s.trk.fwd.entries.find? (fun e => decide (e.2.members ≠ [] ∧ fwdTag (e.1.getD 1 0) = tag))

/-- Fan a lender's answer out to the members of the combined request (R136, R137, R177). -/
def State.fanOut (k : Key) (f : Fwd) (m : Msg) (data : Option Nat) (s : State) : State :=
  let d := k.headD 0
  let load := if s.on R.SEC_ISO_active [] then 0 else m.load
  State.dropFwd d (k.getD 1 0)
    ((memberAnswers f.members (Status.ofCode m.status) data).foldl (fun t e => t.answer d e.1 (Status.ofCode m.status) load e.2) s)

/-- A response of one packet: its data is what its body carries behind the response header. -/
def State.respond (d : Nat) (m : Msg) (s : State) : State :=
  let s := s.consume d m
  let data := if 16 < m.len then some (bitsOf m.body 128 (8 * (m.len - 16))) else none
  match s.entryOf m.rtag with
  | some e =>
    let s := match e.2.2.purpose, data with
      | .load n a len _, some x => s.poke n a (min len (m.len - 16)) x
      | _, _ => s
    s.conclusive d e m (Status.ofCode m.status) data
  | none =>
    match s.combinedFor m.rtag with
    | some (k, f) => s.fanOut k f m data
    | none => s.lateResponse d

/-- R116, R129. -/
def execRdData (d : Nat) (m : Msg) (s : State) : Host.Outcome State Fault Refusal :=
  serving s (if m.ty = 0x30 then s.respond d m else s)

/-- R129. -/
def execWrAck (d : Nat) (m : Msg) (s : State) : Host.Outcome State Fault Refusal :=
  serving s (if m.ty = 0x32 then s.respond d m else s)

/-- R129, R136. -/
def execAtomRsp (d : Nat) (m : Msg) (s : State) : Host.Outcome State Fault Refusal :=
  serving s (if m.ty = 0x33 then s.respond d m else s)

/-- R338. -/
def execClAck (d : Nat) (m : Msg) (s : State) : Host.Outcome State Fault Refusal :=
  serving s (if m.ty = 0x98 then s.respond d { m with len := 16 } else s)

/-- The bytes a range shares with those received. -/
def overlaps (got : List (Nat × Nat)) (off n : Nat) : Bool := got.any (fun g => decide (g.1 < off + n ∧ off < g.1 + g.2))

/-- R133: a packet of a multi-packet read, of which `total` bytes make the whole. -/
def State.packet (d : Nat) (e : Nat × Nat × Issued) (m : Msg) (off total : Nat) (s : State) : State :=
  let x := e.2.2
  let n := m.len - 16
  let st := Status.ofCode m.status
  let word := bitsOf m.body 128 (8 * n)
  if n = 0 then (if st = .ok then s.trkError d else s.conclusive d e m st none)
  else if total < off + n ∨ overlaps x.got off n then s.trkError d
  else
    let s := match x.purpose with
      | .load c a _ _ => s.poke c (a + off) n word
      | _ => s
    let got := x.got ++ [(off, n)]
    let x : Issued := { x with got := got, marked := x.marked || m.cm, status := Status.join x.status st, data := x.data ||| word <<< (8 * off),
                               remaining := total - got.foldl (fun a g => a + g.2) 0 }
    let s : State := { s with trk := { s.trk with issued := s.trk.issued.set [e.1, e.2.1] x } }
    if x.remaining = 0 then s.conclusive d (e.1, e.2.1, x) m x.status (some x.data) else s

/-- R133. -/
def execRdmData (d : Nat) (m : Msg) (s : State) : Host.Outcome State Fault Refusal :=
  serving s (
    if m.ty ≠ 0x31 then s
    else
      let s := s.consume d m
      match s.entryOf m.rtag with
      | some e => s.packet d e m m.roff e.2.2.msg.rlen
      | none => s.lateResponse d)

/-- R366: a packet of a result that another part's gather unit formed for a core here, or the refusal of the lookup. -/
def execGaFwdResult (d : Nat) (m : Msg) (s : State) : Host.Outcome State Fault Refusal :=
  serving s (
    if m.ty ≠ 0xAC ∧ ¬ (m.ty = 0xA8 ∧ m.len = 16) then s
    else
      let s := s.consume d m
      match s.entryOf m.rtag with
      | none => s.lateResponse d
      | some e =>
        match e.2.2.purpose with
        | .lookup n h set =>
          let st := Status.ofCode m.status
          let total := m.f 4 0 13 * tyBytes (m.f 4 13 4)
          if m.len = 16 then s.conclusive d e m st none
          else
            let x := e.2.2
            let off := m.f 12 0 16
            let k := m.len - 16
            if total < off + k ∨ overlaps x.got off k then s.trkError d
            else
              let got := x.got ++ [(off, k)]
              let x : Issued := { x with got := got, marked := x.marked || m.cm, status := Status.join x.status st,
                                         data := x.data ||| bitsOf m.body 128 (8 * k) <<< (8 * off) }
              if got.foldl (fun a g => a + g.2) 0 < total then
                { s with trk := { s.trk with issued := s.trk.issued.set [e.1, e.2.1] x } }
              else
                let s := (s.feedback e.1 x.msg.dst x.marked m.load).dropIssued e.1 e.2.1
                s.setReady n h set (cutSlots (s.slotBytes n h set) x.data total) x.status
        | _ => s.trkError d)

/-- R130: no response by TRK_TIMEOUT.issued. -/
def execIssuedTimeout (d i : Nat) (s : State) : Host.Outcome State Fault Refusal :=
  serving s (
    match s.trk.issued.get? [d, i] with
    | none => s
    | some e =>
      if s.now - e.since < 1000 * s.rd R.TRK_TIMEOUT_issued [] then s
      else
        let s := ((s.bump R.TRK_CNT_count [d, 3]).event B.trk 0).unanswered d e.msg.dst
        State.deliver [d, i] e.purpose .timeout none ((s.blur e.purpose e.got).dropIssued d i))

/-- R235, R366: the consumer of a handle has released slots, for the expander or for finished lookups. -/
def execExpansionResume (n h : Nat) (s : State) : Host.Outcome State Fault Refusal :=
  serving s ((s.resumeExpansion n h).publish n h)

end Sys2Proof.Machine
end

