-- ==== Sys2Proof/Machine/RegWrite.lean ====
section
/-! DEFINITION. A write of BAR0 or BAR4: which registers it reaches (R434, R435, R442), what each access type does (R9,
R11, R13), and the registers whose write starts something. -/

namespace Sys2Proof.Machine

/-! ### Fields within a 64-bit word of a register -/

/-- The indices of the copy of a field's register at a block offset, and the offset within that copy. -/
def copyAt : List Nat → List Nat → Nat → Option (List Nat × Nat)
  | k :: ks, c :: cs, rel =>
    if rel / k < c then (copyAt ks cs (rel % k)).map (fun r => (rel / k :: r.1, r.2)) else none
  | _, _, rel => some ([], rel)

/-- Where the 64-bit word at a block offset meets a field: its indices, and the bit of the register at which the word
begins. -/
def Fld.at? (f : Fld) (off : Nat) : Option (List Nat × Nat) :=
  if off < f.off then none
  else
    match copyAt f.strides f.counts (off - f.off) with
    | some (ix, rel) => if 8 * rel < f.lo + f.w ∧ f.lo < 8 * rel + 64 then some (ix, 8 * rel) else none
    | none => none

/-- The bits of a word that fall in a field, at their places in the field. -/
def Fld.part (f : Fld) (pos x : Nat) : Nat := (if pos ≤ f.lo then x >>> (f.lo - pos) else x <<< (pos - f.lo)) % 2 ^ f.w

/-- A field's value at its place in a word. -/
def Fld.place (f : Fld) (pos x : Nat) : Nat := (if pos ≤ f.lo then x <<< (f.lo - pos) else x >>> (pos - f.lo)) % 2 ^ 64

/-- The bits of `old` outside the mask, and those of `new` inside it. -/
def mergeBits (old new mask : Nat) : Nat := (old - (old &&& mask)) ||| (new &&& mask)

/-- The fields of a block in the word at an offset, with their indices; a register of which every function has its own
copy takes the function as its last index (R435). -/
def fieldsAt (blk off fn : Nat) : List (Fld × List Nat × Nat) :=
  (fieldsOfBlock blk).filterMap (fun f => (f.at? off).map (fun r => (f, if f.perFn then r.1 ++ [fn] else r.1, r.2)))

/-- What the word at an offset holds. -/
def State.word (s : State) (blk off fn : Nat) : Nat :=
  (fieldsAt blk off fn).foldl (fun a e => a ||| e.1.place e.2.2 (s.rd e.1 e.2.1)) 0

/-! ### Access types (R9, R11, R13) -/

/-- The lock bit of a block (R13). -/
def State.locked (s : State) (blk : Nat) : Bool :=
  match blk with
  | 1 => s.on R.GLB_LOCK_lock []
  | 16 => s.on R.SEC_LOCK_lock []
  | 17 => s.on R.RAS_LOCK_lock []
  | 19 => s.on R.DBG_LOCK_lock []
  | _ => false

/-- Set a field; a reserved encoding keeps the previous value and is a programming error (R11). -/
def State.setField (f : Fld) (ix : List Nat) (v : Nat) (s : State) : State :=
  if v < f.least ∨ f.most < v then s.badWrite f ix else s.wr f ix v

/-- Write the masked bits of a word to a field, by its access type (R9). -/
def State.writeField (f : Fld) (ix : List Nat) (pos v m : Nat) (s : State) : State :=
  let new := f.part pos v
  let mask := f.part pos m
  let old := s.rd f ix
  if mask = 0 then s
  else
    match f.acc with
    | .rw => s.setField f ix (mergeBits old new mask)
    | .rwl => if s.locked f.block then s else s.setField f ix (mergeBits old new mask)
    | .w1c => s.wr f ix (old - (old &&& new &&& mask))
    | .w1s => s.wr f ix (old ||| (new &&& mask))
    | .ro | .wo => s

/-- The interrupt of R408 after a write: RAS_SUMMARY left zero, or a W1C write of an EVT register left it non-zero. -/
def State.interruptAfter (before : Nat) (w1c : Bool) (s : State) : State :=
  let s' := if s.summary ≠ 0 ∧ (before = 0 ∨ w1c) then s.msix 0 (s.rd R.RAS_CFG_vector []) else s
  if s.summary ≠ 0 ∧ before = 0 then s'.emit (.i3c 0x10) else s'

/-- Write a word of a block by the access types of its fields. -/
def State.plainWrite (blk off fn v m : Nat) (s : State) : State :=
  let l := fieldsAt blk off fn
  let t := l.foldl (fun t e => t.writeField e.1 e.2.1 e.2.2 v m) s
  t.interruptAfter s.summary (l.any (fun e => decide (e.1.acc = .w1c)))

/-- A write refused as a whole: ignored, and a programming error (R11). -/
def State.checked (blk off : Nat) (ok : Bool) (t s : State) : State := if ok then t else s.progErr blk off

/-! ### Registers whose write does more -/

/-- GLB_NODE: written only while no port is enabled (18). -/
def State.writeNode (fn v m : Nat) (s : State) : State :=
  if s.locked B.glb then s
  else
    let t := s.plainWrite B.glb 0x8 fn v m
    let t := if t.node = s.node then t else { t with pair := { t.pair with switched := false } }
    s.checked B.glb 0x8 ((List.range 256).all (fun p => !s.on R.PRT_PORT_CTL_enable [p])) t

/-- PRT_PORT_CTL (03): `x` is the register's new value, `v` what was written. -/
def State.writePortCtl (p x v : Nat) (s : State) : State :=
  let s := s.wr R.PRT_PORT_CTL_lane_sel [p] (bitsOf x 4 3)
  let s := if bitAt x 0 then s.enablePort p else if s.on R.PRT_PORT_CTL_enable [p] then s.disablePort p else s
  let s :=
    if bitAt x 1 then (if s.on R.PRT_PORT_CTL_admit [p] then s else s.admitPort p)
    else if s.on R.PRT_PORT_CTL_admit [p] then s.admitClear p else s
  let s := if bitAt v 2 then s.enterRetrain p true else s
  if bitAt v 3 then s.laneOut p (bitsOf x 4 3) else s

/-- The allowances of a die's ports that count in the sum of R87. -/
def State.allowances (s : State) (d : Nat) : Nat :=
  ((List.range 128).map (· + 128 * d)).foldl (fun a p => vcs.foldl (fun b vc => b + s.countedAllowance p vc) a) 0

/-- The sum of R87 holds on a die. -/
def State.bufferSumOk (s : State) (d : Nat) : Bool :=
  decide (s.allowances d + s.rd R.SWC_BUF_CFG_agent_reserve [d] ≤ 393216)

/-- SWC_MAP_SWITCH (R99); before the block is READY it is refused with RETRY (R443). -/
def State.writeMapSwitch (v : Nat) (s : State) : State :=
  if s.isReady B.swc then (s.cmdMapSwitch (v % 2 ^ 32)).2 else s.wr R.SWC_MAP_STATUS_result [] Status.retry.code

/-- The SWC block (04). -/
def State.writeSwc (off fn v m : Nat) (s : State) : State :=
  let x := mergeBits (s.word B.swc off fn) v m
  let t := s.plainWrite B.swc off fn v m
  let bad := s.progErr B.swc off
  if off = 0x208 then (s.cmdStageSet (bitsOf x 0 9)).2
  else if off = 0x210 then if bitAt m 0 then s.writeMapSwitch v else s
  else if off = 0x338 then s.plainWrite B.swc off fn v (m - m % 2)
  else if off = 0x408 then if ¬ bitAt m 0 then s else if s.isReady B.swc then s.flowReset v else bad
  else if off = 0x600 ∧ bitsOf x 0 8 ≠ 0 then bad.plainWrite B.swc off fn v (m - m % 2 ^ 24)
  else if 0x100 ≤ off ∧ off < 0x110 then s.checked B.swc off (t.bufferSumOk ((off - 0x100) / 8)) t
  else if 0x500 ≤ off ∧ off < 0x600 then s.checked B.swc off (quotaKept t ((off - 0x500) / 16) (off / 8 % 2)) t
  else if 0x20000 ≤ off ∧ off < 0x30000 then s.checked B.swc off (t.bufferSumOk ((off - 0x20000) / 256 / 128)) t
  else if 0x100000 ≤ off ∧ off < 0x140000 then
    let e := (off - 0x100000) / 4
    let s := if bitAt m 0 then (s.cmdRouteStage e (v % 4096)).2 else s
    if bitAt m 32 then (s.cmdRouteStage (e + 1) (bitsOf v 32 12)).2 else s
  else if 0x140000 ≤ off ∧ off < 0x144000 then
    let v' := if off % 16 = 0 then v else v % 16
    s.checked B.swc off (s.stageOpen && v' ≤ (if off % 16 = 0 then 2 ^ 64 else 8)) (s.plainWrite B.swc off fn v' m)
  else if 0x150000 ≤ off ∧ off < 0x18FFC0 then s.checked B.swc off s.stageOpen t
  else t
where
  /-- A tenant quota covers what has already been granted (R89). -/
  quotaKept (t : State) (k d : Nat) : Bool :=
    decide (t.tenantAllowance k d + t.sw.tenantCells.get 0 [k, d] ≤ t.rd R.SWC_TENANT_QUOTA_cells [k, d])

/-- Live entries of a die by class (R128). -/
def State.liveEntries (s : State) (d : Nat) : Nat × Nat × Nat :=
  (s.trk.home.count (fun k _ => decide (k.head? = some d)), s.trk.issued.count (fun k _ => decide (k.head? = some d)),
   s.trk.fwd.count (fun k _ => decide (k.head? = some d)))

/-- TRK_SPLIT (R128). -/
def State.splitOk (s : State) (d : Nat) : Bool :=
  let h := s.rd R.TRK_SPLIT_home [d]
  let i := s.rd R.TRK_SPLIT_issued [d]
  let f := s.rd R.TRK_SPLIT_fwd [d]
  decide (h + i + f ≤ 524288 ∧ (s.liveEntries d).1 ≤ h ∧ (s.liveEntries d).2.1 ≤ i ∧ (s.liveEntries d).2.2 ≤ f)

/-- A binding covers an extent homed on a die. -/
def State.bindingOn (s : State) (d : Nat) : Bool :=
  (s.listed R.COH_BIND_valid).any (fun k =>
    (rangeOf (s.rd R.COH_BIND_first_extent k) (s.rd R.COH_BIND_last_extent k)).any (fun e =>
      decide ((s.ext s.node e).die = d)))

/-- COH_CFG (06, R402). -/
def State.writeCohCfg (d x : Nat) (s : State) : State :=
  let was := s.on R.COH_CFG_enable [d]
  let sl := bitsOf x 1 3
  let s :=
    if sl = s.rd R.COH_CFG_slices [d] then s
    else if was ∨ 4 < sl ∨ ((s.on R.SEC_ISO_strict [] ∨ s.on R.SEC_ISO_active []) ∧ sl ≠ 4) then s.badWrite R.COH_CFG_slices [d]
    else s.wr R.COH_CFG_slices [d] sl
  if bitAt x 0 then s.wr R.COH_CFG_enable [d] 1
  else if was ∧ s.bindingOn d then s.badWrite R.COH_CFG_enable [d]
  else s.wr R.COH_CFG_enable [d] 0

/-- A delay register may be written: its pseudo-channel is OUT, or its stack in INIT (R198). -/
def State.delayOpen (s : State) (u : Nat) (pcs : List Nat) : Bool :=
  s.rd R.MEM_STACK_STATUS_state [u] = 0 || pcs.any (fun pc => decide (s.pcState u pc = 2))

/-- MEM_PC_CTL (R198, R199). Whether a release finds the pseudo-channel sound, and which lanes a pattern run finds at
fault, is not the writer's to say: both are free values. -/
def State.writePcCtl (u pc v : Nat) (s : State) : State :=
  let s := if bitAt v 0 then s.startRecal u pc else s
  let s := if bitAt v 2 then s.drew.runPattern u pc (s.freeVal % 2 ^ 40) else s
  if bitAt v 1 then s.drew.releaseRecal u pc (s.freeVal % 2 = 1) else s

/-- The MEM block (08). -/
def State.writeMem (off fn v m : Nat) (s : State) : State :=
  let x := mergeBits (s.word B.mem off fn) v m
  let t := s.plainWrite B.mem off fn v m
  if off = 0x10 then s.checked B.mem off (bitsOf x 24 8 < bitsOf x 16 8) t
  else if off = 0x30 then s.checked B.mem off (bitsOf x 8 14 < bitsOf x 22 14) t
  else if off = 0x60 then if bitAt m 0 then s.moveCmd v else s
  else if 0x1000 ≤ off ∧ off < 0x1280 ∧ off % 32 = 0 then if bitAt v 0 then s.retire ((off - 0x1000) / 32) else s
  else if 0x20000 ≤ off ∧ off < 0x21400 then s.writePcCtl ((off - 0x20000) / 256) (off / 8 % 32) v
  else if 0x100000 ≤ off ∧ off < 0x150000 then
    s.checked B.mem off (s.delayOpen ((off - 0x100000) / 0x4000) [off / 0x200 % 32]) t
  else if 0x180000 ≤ off ∧ off < 0x194000 then
    let ch := off / 0x100 % 16
    s.checked B.mem off (s.delayOpen ((off - 0x180000) / 0x1000) [2 * ch, 2 * ch + 1]) t
  else t

/-- The BRD block (08). -/
def State.writeBrd (off fn v m : Nat) (s : State) : State :=
  if 0x1000 ≤ off ∧ off < 0x1100 ∧ off % 32 = 0 then
    let c := (off - 0x1000) / 32
    let s := if bitAt v 0 then s.enableChannel c else s
    let s := if bitAt v 1 then s.drainChannel c else s
    if bitAt v 2 then s.powerOffChannel c else s
  else s.plainWrite B.brd off fn v m

/-- The CMP block (09). -/
def State.writeCmp (off fn v m : Nat) (s : State) : State :=
  let x := mergeBits (s.word B.cmp off fn) v m
  let t := s.plainWrite B.cmp off fn v m
  let c := (off - 0x1000) / 32
  if off = 0x80 then if bitAt m 0 then s.cmpTaskPush fn v else s
  else if 0x1000 ≤ off ∧ off < 0x1200 then
    match off % 32 with
    | 0 =>
      let s := if bitAt v 0 then s.started R.CMP_CLUSTER_CTL_offline [c] (s.offline c) else s
      let s := if bitAt v 1 then s.started R.CMP_CLUSTER_CTL_online [c] (s.online c) else s
      if bitAt v 2 then s.started R.CMP_CLUSTER_CTL_kill [c] (s.kill c) else s
    | 8 => s.checked B.cmp off (s.cst c = Cs.offline) t
    | 16 => if s.isReady B.cmp then s.splitCsram c x else s.badWrite R.CMP_CSRAM_CFG_general [c]
    | _ => s
  else t

/-- QPE_CMD (12). -/
def State.writeQpeCmd (fn v : Nat) (s : State) : State :=
  let k := bitsOf v 4 18
  match bitsOf v 0 4 with
  | 1 => s.createQp fn k
  | 2 => s.modifyQp fn k
  | 3 => s.destroyQp fn k
  | 4 => s.queryQp fn k
  | 5 => s.createCq fn k
  | 6 => s.destroyCq fn k
  | 7 => s.regRegion fn k
  | 8 => s.invalRegion fn k
  | 9 => s.allocPd fn k
  | 10 => s.freePd fn k
  | _ => s.qpeCommand fn (fun s => (.unsupported, 0, s))

/-- CDC_CMD (13). -/
def State.writeCdcCmd (fn v : Nat) (s : State) : State :=
  let n := bitsOf v 4 12
  let d := bitsOf v 16 1
  match bitsOf v 0 4 with
  | 1 => s.codecLoad fn n d
  | 2 => s.codecConfig fn n d
  | 3 => s.codecClear fn n d
  | _ => s.cdcCommand fn d n (fun old _ s => s.cdcRefuse fn .unsupported old)

/-- CLT_CMD (14). -/
def State.writeCltCmd (fn v : Nat) (s : State) : State :=
  let i := bitsOf v 4 12
  match bitsOf v 0 4 with
  | 1 => s.collectiveCreate fn i
  | 2 => s.collectiveOwner fn i (bitsOf v 16 9)
  | 3 => s.collectiveMember fn i (bitsOf v 16 9)
  | 4 => s.collStep fn i
  | 5 => s.collectiveDestroy fn i
  | _ => s.cltCommand fn (fun s => (.unsupported, s))

/-- GTH_CMD (15). -/
def State.writeGthCmd (fn v : Nat) (s : State) : State :=
  let i := bitsOf v 4 10
  match bitsOf v 0 4 with
  | 1 => s.tableCreate fn i
  | 2 => s.tableAdvance fn i
  | 3 => s.tableDestroy fn i
  | _ => s.gthCommand fn i (fun s => (.unsupported, s))

/-- CLT_SPILL (14, R348). -/
def State.writeSpill (d k x : Nat) (s : State) : State :=
  let e := bitsOf x 0 18
  let old := s.rd R.CLT_SPILL_extent [d, k]
  let lives := s.on R.CLT_SPILL_valid [d, k] && decide (s.spillUsed old ≠ 0)
  let r := s.ext s.node e
  let ok := (decide (e = old) || (decide (r.state = .internal ∧ r.die = d) && !lives)) && (bitAt x 18 || !lives)
  if ok ∧ (¬ bitAt x 18 ∨ (r.state = .internal ∧ r.die = d)) then
    (s.wr R.CLT_SPILL_extent [d, k] e).wr R.CLT_SPILL_valid [d, k] (bitsOf x 18 1)
  else s.badWrite R.CLT_SPILL_extent [d, k]

/-- RAS_MGR_CFG (R411): both ends of the update stream start again when manager_eid is set (R415). -/
def State.writeMgrCfg (fn v m : Nat) (s : State) : State :=
  if s.locked B.ras then s
  else
    let t := s.plainWrite B.ras 0x100 fn v m
    if bitsOf m 16 16 = 0 then t else t.restartSeqs

/-- The MRN block (18, R452). The bulk data of a request lies in host memory, which is not the part's: free bytes. -/
def State.writeMrn (off fn v m : Nat) (s : State) : State :=
  if off < 0x10000 then s.plainWrite B.mrn off fn v m
  else
    let f := (off - 0x10000) / 0x4000
    let r := off % 0x4000
    if r < 0x1000 ∧ s.hif.mbox.has [f] then (s.event B.mrn 0).progErr B.mrn off
    else if r = 0x2000 then
      if bitAt m 0 ∧ f < 32 then
        let n := fieldOf (natOfBytes (s.mailBytes f 32)) 16 0 32
        s.drew.mailDoorbell f (v % 65536) (bytesOfNat (min n (2 ^ 27)) s.freeVal)
      else s
    else s.plainWrite B.mrn off fn v m

/-- Write a word of a block: registers that start something, and every other by its access types. -/
def State.writeBlock (blk off fn v m : Nat) (s : State) : State :=
  let x := mergeBits (s.word blk off fn) v m
  let t := s.plainWrite blk off fn v m
  match blk with
  | 1 =>
    if off = 0x8 then s.writeNode fn v m
    else if off = 0x10 then if bitAt m 0 ∧ v % 256 = 0xA5 then s.partReset 3 else s
    else t
  | 2 =>
    if off = 0x0 then s.setRole x
    else if off = 0x18 then s.snapCapture v
    else if off = 0x30 then
      match v % 4 with
      | 1 => s.loadNow
      | 2 => s.loadAtPps
      | _ => s
    else t
  | 3 =>
    if 0x20000 ≤ off ∧ off < 0x22000 then
      let p := (off - 0x20000) / 32
      match off % 32 with
      | 0 => s.checked B.prt off (s.pst p = Ps.disabled) t
      | 8 => s.writePortCtl p x v
      | _ => s
    else t
  | 4 => s.writeSwc off fn v m
  | 6 => if off < 0x10 then s.checked B.trk off (t.splitOk (off / 8)) t else t
  | 7 => if off < 0x10 then s.writeCohCfg (off / 8) x else t
  | 9 => s.writeMem off fn v m
  | 10 => s.writeBrd off fn v m
  | 11 => s.writeCmp off fn v m
  | 12 => if off = 0x40 then if bitAt m 0 then s.writeQpeCmd fn v else s else t
  | 13 =>
    if off = 0x40 then if bitAt m 0 then s.writeCltCmd fn v else s
    else if 0x200 ≤ off ∧ off < 0x300 then s.writeSpill ((off - 0x200) / 128) (off / 8 % 16) x
    else t
  | 14 => if off = 0x40 then if bitAt m 0 then s.writeGthCmd fn v else s else t
  | 15 => if off = 0x40 then if bitAt m 0 then s.writeCdcCmd fn v else s else t
  | 16 => if off = 0x28 then s.writeIso x else t
  | 17 =>
    if off = 0x100 then s.writeMgrCfg fn v m
    else if off = 0x300 then s.started R.RAS_SCRUB_SCHED_target [] (s.scheduleScrub x)
    else t
  | 18 =>
    if off = 0x10 then if bitAt m 0 then s.modeChangeRequest (bitsOf v 0 2) (bitsOf v 32 32) else s
    else if off = 0x48 then s.restRequest ((v &&& 5) + (x &&& 2))
    else t
  | 20 => s.writeMrn off fn v m
  | _ => t

/-! ### Who may write what -/

/-- The registers a virtual function's view shows with an access of their own (R435). -/
def inView (fn blk off : Nat) : Bool :=
  fn = 0 ||
  (match blk with
   | 2 => decide (off = 0x18)
   | 11 => decide (0x40 ≤ off ∧ off ≤ 0x80)
   | 12 | 13 => decide (off = 0x40 ∨ (0x80 ≤ off ∧ off < 0x100))
   | 14 => decide (off = 0x40 ∨ (0x80 ≤ off ∧ off < 0xC0))
   | 15 => decide (off = 0x40 ∨ (0x80 ≤ off ∧ off < 0x120))
   | 20 => decide (0x10000 ≤ off ∧ (off - 0x10000) / 0x4000 = fn)
   | _ => false)

/-- After a FATAL error the fabric dies' blocks take no more than the clearing and enabling of their events (R405). -/
def State.writeFatal (blk off fn v m : Nat) (s : State) : State :=
  if blk = B.glb ∨ B.sec ≤ blk then s.writeBlock blk off fn v m
  else
    let l := (fieldsAt blk off fn).filter (fun e => decide (e.1.acc = .w1c ∨ e.1 = (evtBit blk 0).2.2))
    let t := l.foldl (fun t e => t.writeField e.1 e.2.1 e.2.2 v m) s
    t.interruptAfter s.summary (l.any (fun e => decide (e.1.acc = .w1c)))

/-- A write of one 64-bit word of BAR0 under a mask. Accesses outside the capability list, GLB, TIM and PWR wake the part
(R448). -/
def State.writeBar0 (fn blk off v m : Nat) (s : State) : State :=
  if ¬ inView fn blk off then s
  else
    let s := if blk = 0 ∨ blk = B.glb ∨ blk = B.tim ∨ blk = B.pwr then s else s.wakeUp 2
    if s.pkg.fatal then s.writeFatal blk off fn v m else s.writeBlock blk off fn v m

/-- R9: a write of 8 or 4 aligned bytes by a function, at its BAR0 offset, or from 2^28 on at the BAR4 offset above that. -/
def execRegisterWrite (fn off v : Nat) (wide : Bool) (s : State) : Host.Outcome State Fault Refusal :=
  clocked s (
    let sh := 8 * (off % 8)
    let m := if wide then 2 ^ 64 - 1 else (2 ^ 32 - 1) <<< sh
    let v := if wide then v % 2 ^ 64 else (v % 2 ^ 32) <<< sh
    let off := off / 8 * 8
    if 2 ^ 28 ≤ off then if s.pkg.fatal then s else (s.wakeUp 2).writeBar4 fn (off - 2 ^ 28) v
    else s.writeBar0 fn (off / 2 ^ 22) (off % 2 ^ 22) v m)

end Sys2Proof.Machine
end

