-- ==== Sys2Proof/Machine/Dispatch.lean ====
section
/-! DEFINITION. One arm per command: its meaning. -/

namespace Sys2Proof.Machine

def exec (i : Instr) (s : State) : Host.Outcome State Fault Refusal :=
  match i with
  | .registerWrite fn off v wide => Sys2Proof.Machine.execRegisterWrite fn off v wide s
  | .dieLinkError link kind => Sys2Proof.Machine.execDieLinkError link kind s
  | .hubLinkLoss d => Sys2Proof.Machine.execHubLinkLoss d s
  | .hubLinkReturn d => Sys2Proof.Machine.execHubLinkReturn d s
  | .modeChangeRequest mode beat => Sys2Proof.Machine.execModeChangeRequest mode beat s
  | .modeChange => Sys2Proof.Machine.execModeChange s
  | .voltageSettled mv => Sys2Proof.Machine.execVoltageSettled mv s
  | .avsSettleTimeout => Sys2Proof.Machine.execAvsSettleTimeout s
  | .eclkRelockDone => Sys2Proof.Machine.execEclkRelockDone s
  | .voltageTrim d mv => Sys2Proof.Machine.execVoltageTrim d mv s
  | .powerWindow avg => Sys2Proof.Machine.execPowerWindow avg s
  | .eclkThrottledAlert => Sys2Proof.Machine.execEclkThrottledAlert s
  | .thermalWindow west east hub stack index => Sys2Proof.Machine.execThermalWindow west east hub stack index s
  | .thermalCritical die stack => Sys2Proof.Machine.execThermalCritical die stack s
  | .thermalTrip source temp => Sys2Proof.Machine.execThermalTrip source temp s
  | .railFault ns => Sys2Proof.Machine.execRailFault ns s
  | .railRecovery ns => Sys2Proof.Machine.execRailRecovery ns s
  | .roleSet v => Sys2Proof.Machine.execRoleSet v s
  | .syncInterval => Sys2Proof.Machine.execSyncInterval s
  | .delayReqInterval => Sys2Proof.Machine.execDelayReqInterval s
  | .sync p c rx => Sys2Proof.Machine.execSync p c rx s
  | .delayReq p c rx tx => Sys2Proof.Machine.execDelayReq p c rx tx s
  | .delayRsp p c rx => Sys2Proof.Machine.execDelayRsp p c rx s
  | .cricketReservedType p c => Sys2Proof.Machine.execCricketReservedType p c s
  | .syncLoss => Sys2Proof.Machine.execSyncLoss s
  | .masterWithdrawn => Sys2Proof.Machine.execMasterWithdrawn s
  | .timeLocked => Sys2Proof.Machine.execTimeLocked s
  | .holdLimitExpiry => Sys2Proof.Machine.execHoldLimitExpiry s
  | .refLost => Sys2Proof.Machine.execRefLost s
  | .ftStep => Sys2Proof.Machine.execFtStep s
  | .snapCapture v => Sys2Proof.Machine.execSnapCapture v s
  | .loadNow => Sys2Proof.Machine.execLoadNow s
  | .loadAtPps => Sys2Proof.Machine.execLoadAtPps s
  | .ppsEdge => Sys2Proof.Machine.execPpsEdge s
  | .portEnable p => Sys2Proof.Machine.execPortEnable p s
  | .portDisable p => Sys2Proof.Machine.execPortDisable p s
  | .portAdmit p => Sys2Proof.Machine.execPortAdmit p s
  | .portAdmitClear p => Sys2Proof.Machine.execPortAdmitClear p s
  | .retrain p => Sys2Proof.Machine.execRetrain p s
  | .laneRetrain p lane => Sys2Proof.Machine.execLaneRetrain p lane s
  | .laneSerExceeded p lane => Sys2Proof.Machine.execLaneSerExceeded p lane s
  | .signalDetect p => Sys2Proof.Machine.execSignalDetect p s
  | .equaliseDone p failed => Sys2Proof.Machine.execEqualiseDone p failed s
  | .lockDone p late reversed => Sys2Proof.Machine.execLockDone p late reversed s
  | .trainingTimeout p => Sys2Proof.Machine.execTrainingTimeout p s
  | .configRepeat p => Sys2Proof.Machine.execConfigRepeat p s
  | .initCreditRepeat p => Sys2Proof.Machine.execInitCreditRepeat p s
  | .flitReceived p f crcOk => Sys2Proof.Machine.execFlitReceived p f crcOk s
  | .codewordUncorrectable p lane flits => Sys2Proof.Machine.execCodewordUncorrectable p lane flits s
  | .nak p e => Sys2Proof.Machine.execNak p e s
  | .initCredit p cr => Sys2Proof.Machine.execInitCredit p cr s
  | .caps p c => Sys2Proof.Machine.execCaps p c s
  | .widthChange p sf mask req => Sys2Proof.Machine.execWidthChange p sf mask req s
  | .stripingChange p => Sys2Proof.Machine.execStripingChange p s
  | .retrainReq p => Sys2Proof.Machine.execRetrainReq p s
  | .replayTimeout p => Sys2Proof.Machine.execReplayTimeout p s
  | .creditReport p => Sys2Proof.Machine.execCreditReport p s
  | .creditStall p vc => Sys2Proof.Machine.execCreditStall p vc s
  | .signalLoss p => Sys2Proof.Machine.execSignalLoss p s
  | .egressSchedule p => Sys2Proof.Machine.execEgressSchedule p s
  | .messageArrival p m => Sys2Proof.Machine.execMessageArrival p m s
  | .reseqTimeout output flow => Sys2Proof.Machine.execReseqTimeout output flow s
  | .cutThroughStall p vc => Sys2Proof.Machine.execCutThroughStall p vc s
  | .mirrorCopyStall p => Sys2Proof.Machine.execMirrorCopyStall p s
  | .flowReset v => Sys2Proof.Machine.execFlowReset v s
  | .routeStage e entry => Sys2Proof.Machine.execRouteStage e entry s
  | .groupStage g v => Sys2Proof.Machine.execGroupStage g v s
  | .mcastStage m ports agents => Sys2Proof.Machine.execMcastStage m ports agents s
  | .stageSet v => Sys2Proof.Machine.execStageSet v s
  | .mapSwitch beat => Sys2Proof.Machine.execMapSwitch beat s
  | .mapGenerationSwitch => Sys2Proof.Machine.execMapGenerationSwitch s
  | .issueResume d => Sys2Proof.Machine.execIssueResume d s
  | .rd d m => Sys2Proof.Machine.execRd d m s
  | .rdm d m => Sys2Proof.Machine.execRdm d m s
  | .wr d m => Sys2Proof.Machine.execWr d m s
  | .wrMask d m => Sys2Proof.Machine.execWrMask d m s
  | .atom d m => Sys2Proof.Machine.execAtom d m s
  | .combWindowExpiry d i_ => Sys2Proof.Machine.execCombWindowExpiry d i_ s
  | .rdData d m => Sys2Proof.Machine.execRdData d m s
  | .rdmData d m => Sys2Proof.Machine.execRdmData d m s
  | .wrAck d m => Sys2Proof.Machine.execWrAck d m s
  | .atomRsp d m => Sys2Proof.Machine.execAtomRsp d m s
  | .issuedTimeout d i_ => Sys2Proof.Machine.execIssuedTimeout d i_ s
  | .fwdTimeout d i_ => Sys2Proof.Machine.execFwdTimeout d i_ s
  | .reissue d i_ => Sys2Proof.Machine.execReissue d i_ s
  | .loadCompute d homeFrac stackFrac => Sys2Proof.Machine.execLoadCompute d homeFrac stackFrac s
  | .winWrite sel entry => Sys2Proof.Machine.execWinWrite sel entry s
  | .crdS d m => Sys2Proof.Machine.execCrdS d m s
  | .crdX d m => Sys2Proof.Machine.execCrdX d m s
  | .cupg d m => Sys2Proof.Machine.execCupg d m s
  | .fwdS c m => Sys2Proof.Machine.execFwdS c m s
  | .fwdX c m => Sys2Proof.Machine.execFwdX c m s
  | .snpInv c m => Sys2Proof.Machine.execSnpInv c m s
  | .snpClean c m => Sys2Proof.Machine.execSnpClean c m s
  | .cdata c m => Sys2Proof.Machine.execCdata c m s
  | .cgntX c m => Sys2Proof.Machine.execCgntX c m s
  | .snpRsp d m => Sys2Proof.Machine.execSnpRsp d m s
  | .cwbDirty d m => Sys2Proof.Machine.execCwbDirty d m s
  | .cwbClean d m => Sys2Proof.Machine.execCwbClean d m s
  | .snoopTimeout d tag => Sys2Proof.Machine.execSnoopTimeout d tag s
  | .graceTimeout p => Sys2Proof.Machine.execGraceTimeout p s
  | .declareDead dom slot => Sys2Proof.Machine.execDeclareDead dom slot s
  | .reclaimWalkDone dom slot => Sys2Proof.Machine.execReclaimWalkDone dom slot s
  | .bindWrite i_ v => Sys2Proof.Machine.execBindWrite i_ v s
  | .memberWrite dom slot v => Sys2Proof.Machine.execMemberWrite dom slot v s
  | .dirStoreWrite d k v => Sys2Proof.Machine.execDirStoreWrite d k v s
  | .leaseRenew d m => Sys2Proof.Machine.execLeaseRenew d m s
  | .leaseExpiry => Sys2Proof.Machine.execLeaseExpiry s
  | .publish d m => Sys2Proof.Machine.execPublish d m s
  | .lendWithdraw p m => Sys2Proof.Machine.execLendWithdraw p m s
  | .lendAck k => Sys2Proof.Machine.execLendAck k s
  | .leaseSet slot eid tenant dur => Sys2Proof.Machine.execLeaseSet slot eid tenant dur s
  | .grant slot node first last die => Sys2Proof.Machine.execGrant slot node first last die s
  | .grantInternal first last die => Sys2Proof.Machine.execGrantInternal first last die s
  | .share node first last group slots => Sys2Proof.Machine.execShare node first last group slots s
  | .unshare node first last group slots => Sys2Proof.Machine.execUnshare node first last group slots s
  | .revoke node first last clear => Sys2Proof.Machine.execRevoke node first last clear s
  | .release node first last => Sys2Proof.Machine.execRelease node first last s
  | .limitSet kind die index rate burst => Sys2Proof.Machine.execLimitSet kind die index rate burst s
  | .tenantQuota t n => Sys2Proof.Machine.execTenantQuota t n s
  | .lendAdd eid node port n => Sys2Proof.Machine.execLendAdd eid node port n s
  | .lendRemove eid node port n => Sys2Proof.Machine.execLendRemove eid node port n s
  | .markLost node first last => Sys2Proof.Machine.execMarkLost node first last s
  | .lostSet k v => Sys2Proof.Machine.execLostSet k v s
  | .notify eid kind => Sys2Proof.Machine.execNotify eid kind s
  | .drainEnd r => Sys2Proof.Machine.execDrainEnd r s
  | .drainTimeout r => Sys2Proof.Machine.execDrainTimeout r s
  | .scrubDone r e => Sys2Proof.Machine.execScrubDone r e s
  | .bucketRefill d => Sys2Proof.Machine.execBucketRefill d s
  | .commandSlot s_ pc err => Sys2Proof.Machine.execCommandSlot s_ pc err s
  | .refreshDue s_ pc bank => Sys2Proof.Machine.execRefreshDue s_ pc bank s
  | .rowClose s_ pc bank => Sys2Proof.Machine.execRowClose s_ pc bank s
  | .powerDownEntry s_ pc => Sys2Proof.Machine.execPowerDownEntry s_ pc s
  | .recal s_ pc => Sys2Proof.Machine.execRecal s_ pc s
  | .pcDrained s_ pc => Sys2Proof.Machine.execPcDrained s_ pc s
  | .recalRelease s_ pc ok => Sys2Proof.Machine.execRecalRelease s_ pc ok s
  | .recalTimeout s_ pc => Sys2Proof.Machine.execRecalTimeout s_ pc s
  | .patternRun s_ pc fail => Sys2Proof.Machine.execPatternRun s_ pc fail s
  | .patrolScrub u corrected uncorrected => Sys2Proof.Machine.execPatrolScrub u corrected uncorrected s
  | .pcFailed s_ pc => Sys2Proof.Machine.execPcFailed s_ pc s
  | .stackFailed s_ => Sys2Proof.Machine.execStackFailed s_ s
  | .stackInitDone s_ ok => Sys2Proof.Machine.execStackInitDone s_ ok s
  | .ageTick => Sys2Proof.Machine.execAgeTick s
  | .demotion d => Sys2Proof.Machine.execDemotion d s
  | .promotion e => Sys2Proof.Machine.execPromotion e s
  | .migrationChunk e => Sys2Proof.Machine.execMigrationChunk e s
  | .chunkCopyDone e => Sys2Proof.Machine.execChunkCopyDone e s
  | .movePauseEnd e => Sys2Proof.Machine.execMovePauseEnd e s
  | .homeDieSwitch e => Sys2Proof.Machine.execHomeDieSwitch e s
  | .moveCmd v => Sys2Proof.Machine.execMoveCmd v s
  | .retire s_ => Sys2Proof.Machine.execRetire s_ s
  | .channelEnable c => Sys2Proof.Machine.execChannelEnable c s
  | .channelTrained c spd => Sys2Proof.Machine.execChannelTrained c spd s
  | .channelDrain c => Sys2Proof.Machine.execChannelDrain c s
  | .powerOff c => Sys2Proof.Machine.execPowerOff c s
  | .channelFailed c => Sys2Proof.Machine.execChannelFailed c s
  | .cmpTaskPush fn v => Sys2Proof.Machine.execCmpTaskPush fn v s
  | .pushResume c => Sys2Proof.Machine.execPushResume c s
  | .steal n => Sys2Proof.Machine.execSteal n s
  | .stealDelayExpiry n => Sys2Proof.Machine.execStealDelayExpiry n s
  | .hintRefresh n => Sys2Proof.Machine.execHintRefresh n s
  | .csramSplit c v => Sys2Proof.Machine.execCsramSplit c v s
  | .offline c => Sys2Proof.Machine.execOffline c s
  | .clusterScrubStart c => Sys2Proof.Machine.execClusterScrubStart c s
  | .clusterOffline c => Sys2Proof.Machine.execClusterOffline c s
  | .offlineStuck c => Sys2Proof.Machine.execOfflineStuck c s
  | .kill c => Sys2Proof.Machine.execKill c s
  | .online c => Sys2Proof.Machine.execOnline c s
  | .clusterOnlineDone c => Sys2Proof.Machine.execClusterOnlineDone c s
  | .clusterFailed c => Sys2Proof.Machine.execClusterFailed c s
  | .taskStart n => Sys2Proof.Machine.execTaskStart n s
  | .sadd n w => Sys2Proof.Machine.execSadd n w s
  | .ssub n w => Sys2Proof.Machine.execSsub n w s
  | .smul n w => Sys2Proof.Machine.execSmul n w s
  | .smulh n w => Sys2Proof.Machine.execSmulh n w s
  | .sand n w => Sys2Proof.Machine.execSand n w s
  | .sor n w => Sys2Proof.Machine.execSor n w s
  | .sxor n w => Sys2Proof.Machine.execSxor n w s
  | .sshl n w => Sys2Proof.Machine.execSshl n w s
  | .sshr n w => Sys2Proof.Machine.execSshr n w s
  | .smin n w => Sys2Proof.Machine.execSmin n w s
  | .smax n w => Sys2Proof.Machine.execSmax n w s
  | .scmp n w => Sys2Proof.Machine.execScmp n w s
  | .ssel n w => Sys2Proof.Machine.execSsel n w s
  | .sdiv n w => Sys2Proof.Machine.execSdiv n w s
  | .srem n w => Sys2Proof.Machine.execSrem n w s
  | .saddi n w => Sys2Proof.Machine.execSaddi n w s
  | .sandi n w => Sys2Proof.Machine.execSandi n w s
  | .sori n w => Sys2Proof.Machine.execSori n w s
  | .sxori n w => Sys2Proof.Machine.execSxori n w s
  | .sshli n w => Sys2Proof.Machine.execSshli n w s
  | .sshri n w => Sys2Proof.Machine.execSshri n w s
  | .sli n w => Sys2Proof.Machine.execSli n w s
  | .slih n w => Sys2Proof.Machine.execSlih n w s
  | .sfadd n w => Sys2Proof.Machine.execSfadd n w s
  | .sfsub n w => Sys2Proof.Machine.execSfsub n w s
  | .sfmul n w => Sys2Proof.Machine.execSfmul n w s
  | .sffma n w => Sys2Proof.Machine.execSffma n w s
  | .sfdiv n w => Sys2Proof.Machine.execSfdiv n w s
  | .sfsqrt n w => Sys2Proof.Machine.execSfsqrt n w s
  | .sfmin n w => Sys2Proof.Machine.execSfmin n w s
  | .sfmax n w => Sys2Proof.Machine.execSfmax n w s
  | .sfcmp n w => Sys2Proof.Machine.execSfcmp n w s
  | .scvt n w => Sys2Proof.Machine.execScvt n w s
  | .sgetr n w => Sys2Proof.Machine.execSgetr n w s
  | .ssetr n w => Sys2Proof.Machine.execSsetr n w s
  | .bcmp n w => Sys2Proof.Machine.execBcmp n w s
  | .jal n w => Sys2Proof.Machine.execJal n w s
  | .jalr n w => Sys2Proof.Machine.execJalr n w s
  | .tspawn n w => Sys2Proof.Machine.execTspawn n w s
  | .tend n w => Sys2Proof.Machine.execTend n w s
  | .snop n w => Sys2Proof.Machine.execSnop n w s
  | .sbrk n w => Sys2Proof.Machine.execSbrk n w s
  | .sld n w => Sys2Proof.Machine.execSld n w s
  | .sst n w => Sys2Proof.Machine.execSst n w s
  | .vld n w => Sys2Proof.Machine.execVld n w s
  | .vst n w => Sys2Proof.Machine.execVst n w s
  | .vldg n w => Sys2Proof.Machine.execVldg n w s
  | .vstg n w => Sys2Proof.Machine.execVstg n w s
  | .vadd n w => Sys2Proof.Machine.execVadd n w s
  | .vsub n w => Sys2Proof.Machine.execVsub n w s
  | .vmul n w => Sys2Proof.Machine.execVmul n w s
  | .vfma n w => Sys2Proof.Machine.execVfma n w s
  | .vfnma n w => Sys2Proof.Machine.execVfnma n w s
  | .vmin n w => Sys2Proof.Machine.execVmin n w s
  | .vmax n w => Sys2Proof.Machine.execVmax n w s
  | .vabs n w => Sys2Proof.Machine.execVabs n w s
  | .vneg n w => Sys2Proof.Machine.execVneg n w s
  | .vdiv n w => Sys2Proof.Machine.execVdiv n w s
  | .vsqrt n w => Sys2Proof.Machine.execVsqrt n w s
  | .vand n w => Sys2Proof.Machine.execVand n w s
  | .vor n w => Sys2Proof.Machine.execVor n w s
  | .vxor n w => Sys2Proof.Machine.execVxor n w s
  | .vshl n w => Sys2Proof.Machine.execVshl n w s
  | .vshr n w => Sys2Proof.Machine.execVshr n w s
  | .vsel n w => Sys2Proof.Machine.execVsel n w s
  | .vselv n w => Sys2Proof.Machine.execVselv n w s
  | .vbcast n w => Sys2Proof.Machine.execVbcast n w s
  | .vmov n w => Sys2Proof.Machine.execVmov n w s
  | .vcvt n w => Sys2Proof.Machine.execVcvt n w s
  | .vunpk4 n w => Sys2Proof.Machine.execVunpk4 n w s
  | .vpk4 n w => Sys2Proof.Machine.execVpk4 n w s
  | .vcmp n w => Sys2Proof.Machine.execVcmp n w s
  | .pand n w => Sys2Proof.Machine.execPand n w s
  | .por n w => Sys2Proof.Machine.execPor n w s
  | .pxor n w => Sys2Proof.Machine.execPxor n w s
  | .pnot n w => Sys2Proof.Machine.execPnot n w s
  | .pfroms n w => Sys2Proof.Machine.execPfroms n w s
  | .ptos n w => Sys2Proof.Machine.execPtos n w s
  | .vredsum n w => Sys2Proof.Machine.execVredsum n w s
  | .vredmax n w => Sys2Proof.Machine.execVredmax n w s
  | .vredmaxi n w => Sys2Proof.Machine.execVredmaxi n w s
  | .vext n w => Sys2Proof.Machine.execVext n w s
  | .mmac n w => Sys2Proof.Machine.execMmac n w s
  | .mzero n w => Sys2Proof.Machine.execMzero n w s
  | .mld n w => Sys2Proof.Machine.execMld n w s
  | .mst n w => Sys2Proof.Machine.execMst n w s
  | .fld n w => Sys2Proof.Machine.execFld n w s
  | .fst n w => Sys2Proof.Machine.execFst n w s
  | .fstm n w => Sys2Proof.Machine.execFstm n w s
  | .fatom n w => Sys2Proof.Machine.execFatom n w s
  | .fcas16 n w => Sys2Proof.Machine.execFcas16 n w s
  | .cset n w => Sys2Proof.Machine.execCset n w s
  | .cinc n w => Sys2Proof.Machine.execCinc n w s
  | .incrementArrival n cn amount status => Sys2Proof.Machine.execIncrementArrival n cn amount status s
  | .cwait n w => Sys2Proof.Machine.execCwait n w s
  | .cwaitTimeout n => Sys2Proof.Machine.execCwaitTimeout n s
  | .cget n w => Sys2Proof.Machine.execCget n w s
  | .hbind n w => Sys2Proof.Machine.execHbind n w s
  | .hfree n w => Sys2Proof.Machine.execHfree n w s
  | .hacq n w => Sys2Proof.Machine.execHacq n w s
  | .hrel n w => Sys2Proof.Machine.execHrel n w s
  | .hres n w => Sys2Proof.Machine.execHres n w s
  | .hpub n w => Sys2Proof.Machine.execHpub n w s
  | .ccontrib n w => Sys2Proof.Machine.execCcontrib n w s
  | .gissue n w => Sys2Proof.Machine.execGissue n w s
  | .qpost n w => Sys2Proof.Machine.execQpost n w s
  | .twait n w => Sys2Proof.Machine.execTwait n w s
  | .twaitWake n => Sys2Proof.Machine.execTwaitWake n s
  | .tlaunch n w => Sys2Proof.Machine.execTlaunch n w s
  | .launch n k => Sys2Proof.Machine.execLaunch n k s
  | .ffence n w => Sys2Proof.Machine.execFfence n w s
  | .freeze n w => Sys2Proof.Machine.execFreeze n w s
  | .doorbell fn v => Sys2Proof.Machine.execDoorbell fn v s
  | .qpDoorbell d m => Sys2Proof.Machine.execQpDoorbell d m s
  | .workRequestStart qpn => Sys2Proof.Machine.execWorkRequestStart qpn s
  | .waitTimeout qpn => Sys2Proof.Machine.execWaitTimeout qpn s
  | .rmaWrite d m => Sys2Proof.Machine.execRmaWrite d m s
  | .rmaRead d m => Sys2Proof.Machine.execRmaRead d m s
  | .rmaSend d m => Sys2Proof.Machine.execRmaSend d m s
  | .rmaReadData d m => Sys2Proof.Machine.execRmaReadData d m s
  | .rmaAck d m => Sys2Proof.Machine.execRmaAck d m s
  | .rmaNak d m => Sys2Proof.Machine.execRmaNak d m s
  | .ackTimeout qpn => Sys2Proof.Machine.execAckTimeout qpn s
  | .createQp fn target => Sys2Proof.Machine.execCreateQp fn target s
  | .modifyQp fn target => Sys2Proof.Machine.execModifyQp fn target s
  | .destroyQp fn target => Sys2Proof.Machine.execDestroyQp fn target s
  | .queryQp fn target => Sys2Proof.Machine.execQueryQp fn target s
  | .createCq fn target => Sys2Proof.Machine.execCreateCq fn target s
  | .destroyCq fn target => Sys2Proof.Machine.execDestroyCq fn target s
  | .regRegion fn target => Sys2Proof.Machine.execRegRegion fn target s
  | .invalRegion fn target => Sys2Proof.Machine.execInvalRegion fn target s
  | .invalRegionDone key => Sys2Proof.Machine.execInvalRegionDone key s
  | .allocPd fn target => Sys2Proof.Machine.execAllocPd fn target s
  | .freePd fn target => Sys2Proof.Machine.execFreePd fn target s
  | .expansion p m => Sys2Proof.Machine.execExpansion p m s
  | .expansionResume n h => Sys2Proof.Machine.execExpansionResume n h s
  | .load fn stream die => Sys2Proof.Machine.execLoad fn stream die s
  | .config fn stream die => Sys2Proof.Machine.execConfig fn stream die s
  | .clear fn stream die => Sys2Proof.Machine.execClear fn stream die s
  | .collectiveCreate fn slot => Sys2Proof.Machine.execCollectiveCreate fn slot s
  | .owner fn slot index => Sys2Proof.Machine.execOwner fn slot index s
  | .member fn slot index => Sys2Proof.Machine.execMember fn slot index s
  | .collStep fn slot => Sys2Proof.Machine.execCollStep fn slot s
  | .collectiveDestroy fn slot => Sys2Proof.Machine.execCollectiveDestroy fn slot s
  | .stepOpen slot => Sys2Proof.Machine.execStepOpen slot s
  | .clContrib d m => Sys2Proof.Machine.execClContrib d m s
  | .clContribPlain d m => Sys2Proof.Machine.execClContribPlain d m s
  | .clAck d m => Sys2Proof.Machine.execClAck d m s
  | .clResult d m => Sys2Proof.Machine.execClResult d m s
  | .clResultPlain d m => Sys2Proof.Machine.execClResultPlain d m s
  | .clDone d m => Sys2Proof.Machine.execClDone d m s
  | .updateDone slot owner group => Sys2Proof.Machine.execUpdateDone slot owner group s
  | .updateTimeout slot owner group => Sys2Proof.Machine.execUpdateTimeout slot owner group s
  | .stepTimeout slot => Sys2Proof.Machine.execStepTimeout slot s
  | .tableCreate fn slot => Sys2Proof.Machine.execTableCreate fn slot s
  | .advance fn slot => Sys2Proof.Machine.execAdvance fn slot s
  | .tableDestroy fn slot => Sys2Proof.Machine.execTableDestroy fn slot s
  | .gaLookup d m => Sys2Proof.Machine.execGaLookup d m s
  | .lookupDispatch d => Sys2Proof.Machine.execLookupDispatch d s
  | .passDone d id => Sys2Proof.Machine.execPassDone d id s
  | .taskTimeout d id => Sys2Proof.Machine.execTaskTimeout d id s
  | .gaUpdate d m => Sys2Proof.Machine.execGaUpdate d m s
  | .gaFilter d m => Sys2Proof.Machine.execGaFilter d m s
  | .gaFwdResult d m => Sys2Proof.Machine.execGaFwdResult d m s
  | .cacheDecay => Sys2Proof.Machine.execCacheDecay s
  | .partReset cause => Sys2Proof.Machine.execPartReset cause s
  | .softwarePartReset key => Sys2Proof.Machine.execSoftwarePartReset key s
  | .perst => Sys2Proof.Machine.execPerst s
  | .endpointReset => Sys2Proof.Machine.execEndpointReset s
  | .functionLevelReset f => Sys2Proof.Machine.execFunctionLevelReset f s
  | .bootCheckDone => Sys2Proof.Machine.execBootCheckDone s
  | .poolBringup spds => Sys2Proof.Machine.execPoolBringup spds s
  | .fwPush image => Sys2Proof.Machine.execFwPush image s
  | .fwWrite fn image => Sys2Proof.Machine.execFwWrite fn image s
  | .fwHandover fn beat => Sys2Proof.Machine.execFwHandover fn beat s
  | .handover => Sys2Proof.Machine.execHandover s
  | .handoverDone => Sys2Proof.Machine.execHandoverDone s
  | .handoverTimeout => Sys2Proof.Machine.execHandoverTimeout s
  | .configWrite fn record => Sys2Proof.Machine.execConfigWrite fn record s
  | .endorseWrite fn record => Sys2Proof.Machine.execEndorseWrite fn record s
  | .debugAuth fn record => Sys2Proof.Machine.execDebugAuth fn record s
  | .imageLoad fn tenant index image => Sys2Proof.Machine.execImageLoad fn tenant index image s
  | .imageUnload fn tenant index => Sys2Proof.Machine.execImageUnload fn tenant index s
  | .evidenceReq fn scope kem nonce => Sys2Proof.Machine.execEvidenceReq fn scope kem nonce s
  | .evidenceRsp => Sys2Proof.Machine.execEvidenceRsp s
  | .sessionFinish fn ct => Sys2Proof.Machine.execSessionFinish fn ct s
  | .dkExpiry fn => Sys2Proof.Machine.execDkExpiry fn s
  | .tenantCreate t => Sys2Proof.Machine.execTenantCreate t s
  | .tenantRetire t => Sys2Proof.Machine.execTenantRetire t s
  | .tenantFreed t => Sys2Proof.Machine.execTenantFreed t s
  | .keyRotate t => Sys2Proof.Machine.execKeyRotate t s
  | .strictIsolation v => Sys2Proof.Machine.execStrictIsolation v s
  | .strictApply => Sys2Proof.Machine.execStrictApply s
  | .bounceDoorbell fn v => Sys2Proof.Machine.execBounceDoorbell fn v s
  | .inboundRecord fn rec => Sys2Proof.Machine.execInboundRecord fn rec s
  | .outboundRecord fn => Sys2Proof.Machine.execOutboundRecord fn s
  | .bbOutCons fn v => Sys2Proof.Machine.execBbOutCons fn v s
  | .bar2Read fn off len => Sys2Proof.Machine.execBar2Read fn off len s
  | .bar2Write fn off data => Sys2Proof.Machine.execBar2Write fn off data s
  | .msixUnmask fn vec => Sys2Proof.Machine.execMsixUnmask fn vec s
  | .mailboxDoorbell fn seq bulk => Sys2Proof.Machine.execMailboxDoorbell fn seq bulk s
  | .fmCommand target op operands => Sys2Proof.Machine.execFmCommand target op operands s
  | .fmExpel body => Sys2Proof.Machine.execFmExpel body s
  | .reportFetch => Sys2Proof.Machine.execReportFetch s
  | .fatalError block cause source => Sys2Proof.Machine.execFatalError block cause source s
  | .mgUpdate m => Sys2Proof.Machine.execMgUpdate m s
  | .mgAck m => Sys2Proof.Machine.execMgAck m s
  | .updateResend eid seq => Sys2Proof.Machine.execUpdateResend eid seq s
  | .mgReport m => Sys2Proof.Machine.execMgReport m s
  | .mgReportAck m => Sys2Proof.Machine.execMgReportAck m s
  | .reportResend seq => Sys2Proof.Machine.execReportResend seq s
  | .mgExpel body src => Sys2Proof.Machine.execMgExpel body src s
  | .expelApply => Sys2Proof.Machine.execExpelApply s
  | .mgExpelAck m => Sys2Proof.Machine.execMgExpelAck m s
  | .mgFwData m => Sys2Proof.Machine.execMgFwData m s
  | .mgFwAck m => Sys2Proof.Machine.execMgFwAck m s
  | .mgEvidReq m => Sys2Proof.Machine.execMgEvidReq m s
  | .mgEvidRsp m => Sys2Proof.Machine.execMgEvidRsp m s
  | .puppetPair primary puppet tc flow => Sys2Proof.Machine.execPuppetPair primary puppet tc flow s
  | .puppetBreak => Sys2Proof.Machine.execPuppetBreak s
  | .shadowCopy d => Sys2Proof.Machine.execShadowCopy d s
  | .mgShadow m => Sys2Proof.Machine.execMgShadow m s
  | .mgShadowAck m => Sys2Proof.Machine.execMgShadowAck m s
  | .puppetAckTimeout => Sys2Proof.Machine.execPuppetAckTimeout s
  | .handoff beat => Sys2Proof.Machine.execHandoff beat s
  | .handoffSwitch => Sys2Proof.Machine.execHandoffSwitch s
  | .scrubSchedule v => Sys2Proof.Machine.execScrubSchedule v s
  | .scrubPassStart => Sys2Proof.Machine.execScrubPassStart s
  | .freezePin ns => Sys2Proof.Machine.execFreezePin ns s
  | .restRequest v => Sys2Proof.Machine.execRestRequest v s
  | .restEntry => Sys2Proof.Machine.execRestEntry s
  | .wake cause => Sys2Proof.Machine.execWake cause s
  | .wakeComplete => Sys2Proof.Machine.execWakeComplete s
  | .i3cReset => Sys2Proof.Machine.execI3cReset s
  | .i3cWake => Sys2Proof.Machine.execI3cWake s
  | .refRestored => Sys2Proof.Machine.execRefRestored s
  | .laneSignalLoss p mask lctl => Sys2Proof.Machine.execLaneSignalLoss p mask lctl s
  | .pcieLinkUp => Sys2Proof.Machine.execPcieLinkUp s
  | .dynamicAddressAssigned a => Sys2Proof.Machine.execDynamicAddressAssigned a s

end Sys2Proof.Machine
end

