-- ==== Sys2Proof/WellFormed.lean ====
section
/-! DEFINITION. The ranges of the operands a sender gives with a command: port, die, lane and register numbers, and the
widths of the fields of the wire objects. A command outside them is no step of the part. -/

namespace Sys2Proof

/-- Every field of a message fits its bits (R62, R66), and the body holds no more than its length. The part's own cluster
`c`, as a coherence agent within the part, goes by the number 65536 + c, which no endpoint identifier has. -/
def Msg.ok (m : Msg) : Bool :=
  decide (m.chan < 4 ∧ m.tc < 8 ∧ m.dst < 65552 ∧ m.src < 65552 ∧ m.ty < 256 ∧ m.mapGen < 256 ∧ m.status < 16 ∧
    m.load < 16 ∧ m.len ≤ 4096 ∧ m.flowSeq < 65536 ∧ m.flow < 4096 ∧ m.die < 2 ∧ m.tenant < 32 ∧ m.body < 2 ^ (8 * m.len))

/-- A message as it is on a link: both ends are endpoint identifiers. -/
def Msg.wireOk (m : Msg) : Bool := m.ok && decide (m.dst < 65536 ∧ m.src < 65536)

/-- Every field of a flit fits its bits (R62). -/
def Flit.ok (f : Flit) : Bool :=
  decide (f.kind < 8 ∧ f.chan < 4 ∧ f.tc < 8 ∧ f.seq < 4096 ∧ f.ackSeq < 4096 ∧ f.creditVc < 32 ∧
    f.creditTotal < 4096 ∧ f.payload < 2 ^ 1920)

/-- R44: fields of a cricket message; times are 64-bit ns with 8 bits of fraction. -/
def Cricket.ok (c : Cricket) : Bool :=
  decide (c.ty < 256 ∧ c.hop < 256 ∧ c.gen < 65536 ∧ c.seq < 65536 ∧ c.master < 65536 ∧ c.tx < 2 ^ 72 ∧ c.rx < 2 ^ 72)

/-- R74. -/
def Caps.ok (c : Caps) : Bool :=
  decide (c.vendor < 65536 ∧ c.eid < 65536 ∧ c.role < 2 ∧ c.widths < 16 ∧ c.goodLanes < 256)

/-- Operands within their ranges. -/
def Instr.wellFormed : Instr → Bool
  | .registerWrite fn off v wide =>
    decide (fn < 32 ∧ off < 2 ^ 28 + 2 ^ 24 ∧ (if wide then off % 8 = 0 ∧ v < 2 ^ 64 else off % 4 = 0 ∧ v < 2 ^ 32))
  | .dieLinkError _ _ => true
  | .hubLinkLoss d => decide (d < 2)
  | .hubLinkReturn d => decide (d < 2)
  | .modeChangeRequest mode beat => decide (mode < 4 ∧ beat < 2 ^ 32)
  | .modeChange => true
  | .voltageSettled _ => true
  | .avsSettleTimeout => true
  | .eclkRelockDone => true
  | .voltageTrim d _ => decide (d < 2)
  | .powerWindow avg => decide (avg < 65536)
  | .eclkThrottledAlert => true
  | .thermalWindow west east hub stack index => decide (west < 256 ∧ east < 256 ∧ hub < 256 ∧ stack < 256 ∧ index < 20)
  | .thermalCritical die stack => decide (die < 2 ∧ stack < 256)
  | .thermalTrip _ temp => decide (temp < 256)
  | .railFault _ => true
  | .railRecovery _ => true
  | .roleSet v => decide (v < 2 ^ 64)
  | .syncInterval => true
  | .delayReqInterval => true
  | .sync p c _ => decide (p < 256) && c.ok
  | .delayReq p c _ _ => decide (p < 256) && c.ok
  | .delayRsp p c _ => decide (p < 256) && c.ok
  | .cricketReservedType p c => decide (p < 256) && c.ok
  | .syncLoss => true
  | .masterWithdrawn => true
  | .timeLocked => true
  | .holdLimitExpiry => true
  | .refLost => true
  | .ftStep => true
  | .snapCapture v => decide (v < 2 ^ 64)
  | .loadNow => true
  | .loadAtPps => true
  | .ppsEdge => true
  | .portEnable p => decide (p < 256)
  | .portDisable p => decide (p < 256)
  | .portAdmit p => decide (p < 256)
  | .portAdmitClear p => decide (p < 256)
  | .retrain p => decide (p < 256)
  | .laneRetrain p lane => decide (p < 256 ∧ lane < 8)
  | .laneSerExceeded p lane => decide (p < 256 ∧ lane < 8)
  | .signalDetect p => decide (p < 256)
  | .equaliseDone p _ => decide (p < 256)
  | .lockDone p _ _ => decide (p < 256)
  | .trainingTimeout p => decide (p < 256)
  | .configRepeat p => decide (p < 256)
  | .initCreditRepeat p => decide (p < 256)
  | .flitReceived p f _ => decide (p < 256) && f.ok
  | .codewordUncorrectable p lane _ => decide (p < 256 ∧ lane < 8)
  | .nak p e => decide (p < 256 ∧ e < 4096)
  | .initCredit p _ => decide (p < 256)
  | .caps p c => decide (p < 256) && c.ok
  | .widthChange p sf mask _ => decide (p < 256 ∧ sf < 2 ^ 32 ∧ mask < 256)
  | .stripingChange p => decide (p < 256)
  | .retrainReq p => decide (p < 256)
  | .replayTimeout p => decide (p < 256)
  | .creditReport p => decide (p < 256)
  | .creditStall p vc => decide (p < 256 ∧ vc < 32)
  | .signalLoss p => decide (p < 256)
  | .egressSchedule p => decide (p < 256)
  | .messageArrival p m => decide (p < 256) && m.wireOk
  | .reseqTimeout output flow => decide (output < 258 ∧ flow < 4096)
  | .cutThroughStall p vc => decide (p < 256 ∧ vc < 32)
  | .mirrorCopyStall p => decide (p < 256)
  | .flowReset v => decide (v < 2 ^ 64)
  | .routeStage e entry => decide (e < 65536 ∧ entry < 2 ^ 32)
  | .groupStage g v => decide (g < 1024 ∧ v < 2 ^ 128)
  | .mcastStage m ports agents => decide (m < 4095 ∧ ports < 2 ^ 256 ∧ agents < 4)
  | .stageSet v => decide (v < 2 ^ 64)
  | .mapSwitch beat => decide (beat < 2 ^ 32)
  | .mapGenerationSwitch => true
  | .issueResume d => decide (d < 2)
  | .rd d m => decide (d < 2) && m.ok
  | .rdm d m => decide (d < 2) && m.ok
  | .wr d m => decide (d < 2) && m.ok
  | .wrMask d m => decide (d < 2) && m.ok
  | .atom d m => decide (d < 2) && m.ok
  | .combWindowExpiry d _ => decide (d < 2)
  | .rdData d m => decide (d < 2) && m.ok
  | .rdmData d m => decide (d < 2) && m.ok
  | .wrAck d m => decide (d < 2) && m.ok
  | .atomRsp d m => decide (d < 2) && m.ok
  | .issuedTimeout d _ => decide (d < 2)
  | .fwdTimeout d _ => decide (d < 2)
  | .reissue d _ => decide (d < 2)
  | .loadCompute d _ _ => decide (d < 2)
  | .winWrite _ entry => decide (entry < 2 ^ 128)
  | .crdS d m => decide (d < 2) && m.ok
  | .crdX d m => decide (d < 2) && m.ok
  | .cupg d m => decide (d < 2) && m.ok
  | .fwdS c m => decide (c < 16) && m.ok
  | .fwdX c m => decide (c < 16) && m.ok
  | .snpInv c m => decide (c < 16) && m.ok
  | .snpClean c m => decide (c < 16) && m.ok
  | .cdata c m => decide (c < 16) && m.ok
  | .cgntX c m => decide (c < 16) && m.ok
  | .snpRsp d m => decide (d < 2) && m.ok
  | .cwbDirty d m => decide (d < 2) && m.ok
  | .cwbClean d m => decide (d < 2) && m.ok
  | .snoopTimeout d _ => decide (d < 2)
  | .graceTimeout p => decide (p < 256)
  | .declareDead dom slot => decide (dom < 256 ∧ slot < 32)
  | .reclaimWalkDone dom slot => decide (dom < 256 ∧ slot < 32)
  | .bindWrite i v => decide (i < 4096 ∧ v < 2 ^ 64)
  | .memberWrite dom slot v => decide (dom < 256 ∧ slot < 32 ∧ v < 2 ^ 64)
  | .dirStoreWrite d k v => decide (d < 2 ∧ k < 64 ∧ v < 2 ^ 64)
  | .leaseRenew d m => decide (d < 2) && m.ok
  | .leaseExpiry => true
  | .publish d m => decide (d < 2) && m.ok
  | .lendWithdraw p m => decide (p < 256) && m.ok
  | .lendAck k => decide (k < 16)
  | .leaseSet slot eid tenant dur => decide (slot < 4096 ∧ eid < 65536 ∧ tenant < 32 ∧ dur < 2 ^ 32)
  | .grant slot node first last die => decide (slot < 4096 ∧ node < 4096 ∧ first < 262144 ∧ last < 262144 ∧ die < 2)
  | .grantInternal first last die => decide (first < 262144 ∧ last < 262144 ∧ die < 2)
  | .share node first last _ _ => decide (node < 4096 ∧ first < 262144 ∧ last < 262144)
  | .unshare node first last _ _ => decide (node < 4096 ∧ first < 262144 ∧ last < 262144)
  | .revoke node first last _ => decide (node < 4096 ∧ first < 262144 ∧ last < 262144)
  | .release node first last => decide (node < 4096 ∧ first < 262144 ∧ last < 262144)
  | .limitSet kind die index rate burst => decide (kind < 2 ∧ die < 2 ∧ index < 4096 ∧ rate < 65536 ∧ burst < 65536)
  | .tenantQuota t n => decide (t < 32 ∧ n < 2 ^ 32)
  | .lendAdd eid node port n => decide (eid < 65536 ∧ node < 4096 ∧ port < 256 ∧ n < 2 ^ 32)
  | .lendRemove eid node port n => decide (eid < 65536 ∧ node < 4096 ∧ port < 256 ∧ n < 2 ^ 32)
  | .markLost node first last => decide (node < 4096 ∧ first < 262144 ∧ last < 262144)
  | .lostSet k v => decide (k < 64 ∧ v < 2 ^ 64)
  | .notify eid kind => decide (eid < 65536 ∧ kind < 256)
  | .drainEnd _ => true
  | .drainTimeout _ => true
  | .scrubDone _ _ => true
  | .bucketRefill d => decide (d < 2)
  | .commandSlot s pc err => decide (s < 20 ∧ pc < 32 ∧ err < 3)
  | .refreshDue s pc bank => decide (s < 20 ∧ pc < 32 ∧ bank < 64)
  | .rowClose s pc bank => decide (s < 20 ∧ pc < 32 ∧ bank < 64)
  | .powerDownEntry s pc => decide (s < 20 ∧ pc < 32)
  | .recal s pc => decide (s < 20 ∧ pc < 32)
  | .pcDrained s pc => decide (s < 20 ∧ pc < 32)
  | .recalRelease s pc _ => decide (s < 20 ∧ pc < 32)
  | .recalTimeout s pc => decide (s < 20 ∧ pc < 32)
  | .patternRun s pc _ => decide (s < 20 ∧ pc < 32)
  | .patrolScrub u _ _ => decide (u < 28)
  | .pcFailed s pc => decide (s < 20 ∧ pc < 32)
  | .stackFailed s => decide (s < 20)
  | .stackInitDone s _ => decide (s < 20)
  | .ageTick => true
  | .demotion d => decide (d < 2)
  | .promotion _ => true
  | .migrationChunk _ => true
  | .chunkCopyDone _ => true
  | .movePauseEnd _ => true
  | .homeDieSwitch _ => true
  | .moveCmd v => decide (v < 2 ^ 64)
  | .retire s => decide (s < 20)
  | .channelEnable c => decide (c < 8)
  | .channelTrained c _ => decide (c < 8)
  | .channelDrain c => decide (c < 8)
  | .powerOff c => decide (c < 8)
  | .channelFailed c => decide (c < 8)
  | .cmpTaskPush fn v => decide (fn < 32 ∧ v < 2 ^ 64)
  | .pushResume c => decide (c < 16)
  | .steal n => decide (n < 128)
  | .stealDelayExpiry n => decide (n < 128)
  | .hintRefresh n => decide (n < 128)
  | .csramSplit c v => decide (c < 16 ∧ v < 2 ^ 64)
  | .offline c => decide (c < 16)
  | .clusterScrubStart c => decide (c < 16)
  | .clusterOffline c => decide (c < 16)
  | .offlineStuck c => decide (c < 16)
  | .kill c => decide (c < 16)
  | .online c => decide (c < 16)
  | .clusterOnlineDone c => decide (c < 16)
  | .clusterFailed c => decide (c < 16)
  | .taskStart n => decide (n < 128)
  | .sadd n _ => decide (n < 128)
  | .ssub n _ => decide (n < 128)
  | .smul n _ => decide (n < 128)
  | .smulh n _ => decide (n < 128)
  | .sand n _ => decide (n < 128)
  | .sor n _ => decide (n < 128)
  | .sxor n _ => decide (n < 128)
  | .sshl n _ => decide (n < 128)
  | .sshr n _ => decide (n < 128)
  | .smin n _ => decide (n < 128)
  | .smax n _ => decide (n < 128)
  | .scmp n _ => decide (n < 128)
  | .ssel n _ => decide (n < 128)
  | .sdiv n _ => decide (n < 128)
  | .srem n _ => decide (n < 128)
  | .saddi n _ => decide (n < 128)
  | .sandi n _ => decide (n < 128)
  | .sori n _ => decide (n < 128)
  | .sxori n _ => decide (n < 128)
  | .sshli n _ => decide (n < 128)
  | .sshri n _ => decide (n < 128)
  | .sli n _ => decide (n < 128)
  | .slih n _ => decide (n < 128)
  | .sfadd n _ => decide (n < 128)
  | .sfsub n _ => decide (n < 128)
  | .sfmul n _ => decide (n < 128)
  | .sffma n _ => decide (n < 128)
  | .sfdiv n _ => decide (n < 128)
  | .sfsqrt n _ => decide (n < 128)
  | .sfmin n _ => decide (n < 128)
  | .sfmax n _ => decide (n < 128)
  | .sfcmp n _ => decide (n < 128)
  | .scvt n _ => decide (n < 128)
  | .sgetr n _ => decide (n < 128)
  | .ssetr n _ => decide (n < 128)
  | .bcmp n _ => decide (n < 128)
  | .jal n _ => decide (n < 128)
  | .jalr n _ => decide (n < 128)
  | .tspawn n _ => decide (n < 128)
  | .tend n _ => decide (n < 128)
  | .snop n _ => decide (n < 128)
  | .sbrk n _ => decide (n < 128)
  | .sld n _ => decide (n < 128)
  | .sst n _ => decide (n < 128)
  | .vld n _ => decide (n < 128)
  | .vst n _ => decide (n < 128)
  | .vldg n _ => decide (n < 128)
  | .vstg n _ => decide (n < 128)
  | .vadd n _ => decide (n < 128)
  | .vsub n _ => decide (n < 128)
  | .vmul n _ => decide (n < 128)
  | .vfma n _ => decide (n < 128)
  | .vfnma n _ => decide (n < 128)
  | .vmin n _ => decide (n < 128)
  | .vmax n _ => decide (n < 128)
  | .vabs n _ => decide (n < 128)
  | .vneg n _ => decide (n < 128)
  | .vdiv n _ => decide (n < 128)
  | .vsqrt n _ => decide (n < 128)
  | .vand n _ => decide (n < 128)
  | .vor n _ => decide (n < 128)
  | .vxor n _ => decide (n < 128)
  | .vshl n _ => decide (n < 128)
  | .vshr n _ => decide (n < 128)
  | .vsel n _ => decide (n < 128)
  | .vselv n _ => decide (n < 128)
  | .vbcast n _ => decide (n < 128)
  | .vmov n _ => decide (n < 128)
  | .vcvt n _ => decide (n < 128)
  | .vunpk4 n _ => decide (n < 128)
  | .vpk4 n _ => decide (n < 128)
  | .vcmp n _ => decide (n < 128)
  | .pand n _ => decide (n < 128)
  | .por n _ => decide (n < 128)
  | .pxor n _ => decide (n < 128)
  | .pnot n _ => decide (n < 128)
  | .pfroms n _ => decide (n < 128)
  | .ptos n _ => decide (n < 128)
  | .vredsum n _ => decide (n < 128)
  | .vredmax n _ => decide (n < 128)
  | .vredmaxi n _ => decide (n < 128)
  | .vext n _ => decide (n < 128)
  | .mmac n _ => decide (n < 128)
  | .mzero n _ => decide (n < 128)
  | .mld n _ => decide (n < 128)
  | .mst n _ => decide (n < 128)
  | .fld n _ => decide (n < 128)
  | .fst n _ => decide (n < 128)
  | .fstm n _ => decide (n < 128)
  | .fatom n _ => decide (n < 128)
  | .fcas16 n _ => decide (n < 128)
  | .cset n _ => decide (n < 128)
  | .cinc n _ => decide (n < 128)
  | .incrementArrival n cn amount status => decide (n < 128 ∧ cn < 64 ∧ amount < 2 ^ 48 ∧ status < 16)
  | .cwait n _ => decide (n < 128)
  | .cwaitTimeout n => decide (n < 128)
  | .cget n _ => decide (n < 128)
  | .hbind n _ => decide (n < 128)
  | .hfree n _ => decide (n < 128)
  | .hacq n _ => decide (n < 128)
  | .hrel n _ => decide (n < 128)
  | .hres n _ => decide (n < 128)
  | .hpub n _ => decide (n < 128)
  | .ccontrib n _ => decide (n < 128)
  | .gissue n _ => decide (n < 128)
  | .qpost n _ => decide (n < 128)
  | .twait n _ => decide (n < 128)
  | .twaitWake n => decide (n < 128)
  | .tlaunch n _ => decide (n < 128)
  | .launch n k => decide (n < 128 ∧ k < 8)
  | .ffence n _ => decide (n < 128)
  | .freeze n _ => decide (n < 128)
  | .doorbell fn v => decide (fn < 32 ∧ v < 2 ^ 64)
  | .qpDoorbell d m => decide (d < 2) && m.ok
  | .workRequestStart _ => true
  | .waitTimeout _ => true
  | .rmaWrite d m => decide (d < 2) && m.ok
  | .rmaRead d m => decide (d < 2) && m.ok
  | .rmaSend d m => decide (d < 2) && m.ok
  | .rmaReadData d m => decide (d < 2) && m.ok
  | .rmaAck d m => decide (d < 2) && m.ok
  | .rmaNak d m => decide (d < 2) && m.ok
  | .ackTimeout _ => true
  | .createQp fn _ => decide (fn < 32)
  | .modifyQp fn _ => decide (fn < 32)
  | .destroyQp fn _ => decide (fn < 32)
  | .queryQp fn _ => decide (fn < 32)
  | .createCq fn _ => decide (fn < 32)
  | .destroyCq fn _ => decide (fn < 32)
  | .regRegion fn _ => decide (fn < 32)
  | .invalRegion fn _ => decide (fn < 32)
  | .invalRegionDone _ => true
  | .allocPd fn _ => decide (fn < 32)
  | .freePd fn _ => decide (fn < 32)
  | .expansion p m => decide (p < 256) && m.ok
  | .expansionResume n h => decide (n < 128 ∧ h < 16)
  | .load fn stream die => decide (fn < 32 ∧ stream < 4096 ∧ die < 2)
  | .config fn stream die => decide (fn < 32 ∧ stream < 4096 ∧ die < 2)
  | .clear fn stream die => decide (fn < 32 ∧ stream < 4096 ∧ die < 2)
  | .collectiveCreate fn _ => decide (fn < 32)
  | .owner fn _ _ => decide (fn < 32)
  | .member fn _ _ => decide (fn < 32)
  | .collStep fn _ => decide (fn < 32)
  | .collectiveDestroy fn _ => decide (fn < 32)
  | .stepOpen _ => true
  | .clContrib d m => decide (d < 2) && m.ok
  | .clContribPlain d m => decide (d < 2) && m.ok
  | .clAck d m => decide (d < 2) && m.ok
  | .clResult d m => decide (d < 2) && m.ok
  | .clResultPlain d m => decide (d < 2) && m.ok
  | .clDone d m => decide (d < 2) && m.ok
  | .updateDone _ _ _ => true
  | .updateTimeout _ _ _ => true
  | .stepTimeout _ => true
  | .tableCreate fn _ => decide (fn < 32)
  | .advance fn _ => decide (fn < 32)
  | .tableDestroy fn _ => decide (fn < 32)
  | .gaLookup d m => decide (d < 2) && m.ok
  | .lookupDispatch d => decide (d < 2)
  | .passDone d _ => decide (d < 2)
  | .taskTimeout d _ => decide (d < 2)
  | .gaUpdate d m => decide (d < 2) && m.ok
  | .gaFilter d m => decide (d < 2) && m.ok
  | .gaFwdResult d m => decide (d < 2) && m.ok
  | .cacheDecay => true
  | .partReset _ => true
  | .softwarePartReset _ => true
  | .perst => true
  | .endpointReset => true
  | .functionLevelReset f => decide (f < 32)
  | .bootCheckDone => true
  | .poolBringup _ => true
  | .fwPush _ => true
  | .fwWrite fn _ => decide (fn < 32)
  | .fwHandover fn beat => decide (fn < 32 ∧ beat < 2 ^ 32)
  | .handover => true
  | .handoverDone => true
  | .handoverTimeout => true
  | .configWrite fn _ => decide (fn < 32)
  | .endorseWrite fn _ => decide (fn < 32)
  | .debugAuth fn _ => decide (fn < 32)
  | .imageLoad fn tenant _ _ => decide (fn < 32 ∧ tenant < 32)
  | .imageUnload fn tenant _ => decide (fn < 32 ∧ tenant < 32)
  | .evidenceReq fn _ _ nonce => decide (fn < 32 ∧ nonce < 2 ^ 256)
  | .evidenceRsp => true
  | .sessionFinish fn _ => decide (fn < 32)
  | .dkExpiry fn => decide (fn < 32)
  | .tenantCreate t => decide (t < 32)
  | .tenantRetire t => decide (t < 32)
  | .tenantFreed t => decide (t < 32)
  | .keyRotate t => decide (t < 32)
  | .strictIsolation v => decide (v < 2 ^ 64)
  | .strictApply => true
  | .bounceDoorbell fn v => decide (fn < 32 ∧ v < 2 ^ 64)
  | .inboundRecord fn _ => decide (fn < 32)
  | .outboundRecord fn => decide (fn < 32)
  | .bbOutCons fn v => decide (fn < 32 ∧ v < 2 ^ 64)
  | .bar2Read fn off _ => decide (fn < 32 ∧ off < 2 ^ 36)
  | .bar2Write fn off _ => decide (fn < 32 ∧ off < 2 ^ 36)
  | .msixUnmask fn vec => decide (fn < 32 ∧ vec < 2048)
  | .mailboxDoorbell fn seq _ => decide (fn < 32 ∧ seq < 65536)
  | .fmCommand _ _ _ => true
  | .fmExpel _ => true
  | .reportFetch => true
  | .fatalError _ _ _ => true
  | .mgUpdate m => m.ok
  | .mgAck m => m.ok
  | .updateResend eid seq => decide (eid < 65536 ∧ seq < 2 ^ 32)
  | .mgReport m => m.ok
  | .mgReportAck m => m.ok
  | .reportResend seq => decide (seq < 2 ^ 32)
  | .mgExpel _ _ => true
  | .expelApply => true
  | .mgExpelAck m => m.ok
  | .mgFwData m => m.ok
  | .mgFwAck m => m.ok
  | .mgEvidReq m => m.ok
  | .mgEvidRsp m => m.ok
  | .puppetPair primary puppet tc flow => decide (primary < 65536 ∧ puppet < 65536 ∧ tc < 8 ∧ flow < 4096)
  | .puppetBreak => true
  | .shadowCopy d => decide (d < 2)
  | .mgShadow m => m.ok
  | .mgShadowAck m => m.ok
  | .puppetAckTimeout => true
  | .handoff beat => decide (beat < 2 ^ 32)
  | .handoffSwitch => true
  | .scrubSchedule v => decide (v < 2 ^ 64)
  | .scrubPassStart => true
  | .freezePin _ => true
  | .restRequest v => decide (v < 2 ^ 64)
  | .restEntry => true
  | .wake _ => true
  | .wakeComplete => true
  | .i3cReset => true
  | .i3cWake => true
  | .refRestored => true
  | .laneSignalLoss p mask _ => decide (p < 256 ∧ mask < 256)
  | .pcieLinkUp => true
  | .dynamicAddressAssigned _ => true

end Sys2Proof
end

