-- ==== Sys2Proof/Safety.lean ====
section
/-! DEFINITION. The words of the statements: a part that runs, a part that serves, an answer with a property, the registers
that only report, and the one form in which plain data is kept. -/

namespace Sys2Proof.Safety

open Sys2Proof.Machine

/-- The part's clocks run (R430, R465, R472). -/
abbrev Runs (s : State) : Prop := s.stopped = false

/-- The fabric dies serve: clocks run, no FATAL error has stopped them (R405), and the part is not in Rest (R447). -/
abbrev Serves (s : State) : Prop := s.stopped = false ∧ s.pkg.fatal = false ∧ s.resting = false

/-- The command answers a next state, and the state it answers has the property. -/
def Gives (c : Instr) (s : State) (P : State → Prop) : Prop := ∃ t, exec c s = .next t ∧ P t

/-- The registers that only report: events, counters, the log and what goes with them (R404 to R410). -/
def reportNums : List Nat :=
  [20, 22, 23, 49, 51, 53, 80, 82, 99, 101, 102, 108, 109, 110, 119, 120, 137, 138, 139, 140, 141, 143, 154, 166, 181, 205,
   231, 257, 258, 265, 277, 305, 322, 328, 338, 345, 354, 369, 378, 392, 405, 428, 437, 447, 449, 450, 451, 453, 464, 465,
   481, 487, 488, 505, 519]

abbrev Reports (f : Fld) : Prop := f.num ∈ reportNums

/-- Every register reads as before but those that only report, and those named. -/
def RegsBut (l : List Fld) (s t : State) : Prop := ∀ f ix, ¬ Reports f → (∀ g ∈ l, f.num ≠ g.num) → t.rd f ix = s.rd f ix

/-- The parts of the state beside its registers, the queue and elapsed time. -/
inductive Part where
  | fresh | out | tim | ports | sw | edgeWin | trk | pool | coh | tier | pair | answers | mem | poison | ras | sram | hif | pkg | cores | clusters | spm | csram | flying | qpe | cdc | clt | gth | images | sec | flash
  deriving DecidableEq, Repr

/-- A part of the state is as before. -/
def Same : Part → State → State → Prop
  | .fresh, s, t => t.fresh = s.fresh
  | .out, s, t => t.out = s.out
  | .tim, s, t => t.tim = s.tim
  | .ports, s, t => t.ports = s.ports
  | .sw, s, t => t.sw = s.sw
  | .edgeWin, s, t => t.edgeWin = s.edgeWin
  | .trk, s, t => t.trk = s.trk
  | .pool, s, t => t.pool = s.pool
  | .coh, s, t => t.coh = s.coh
  | .tier, s, t => t.tier = s.tier
  | .pair, s, t => t.pair = s.pair
  | .answers, s, t => t.answers = s.answers
  | .mem, s, t => t.mem = s.mem
  | .poison, s, t => t.poison = s.poison
  | .ras, s, t => t.ras = s.ras
  | .sram, s, t => t.sram = s.sram
  | .hif, s, t => t.hif = s.hif
  | .pkg, s, t => t.pkg = s.pkg
  | .cores, s, t => t.cores = s.cores
  | .clusters, s, t => t.clusters = s.clusters
  | .spm, s, t => t.spm = s.spm
  | .csram, s, t => t.csram = s.csram
  | .flying, s, t => t.flying = s.flying
  | .qpe, s, t => t.qpe = s.qpe
  | .cdc, s, t => t.cdc = s.cdc
  | .clt, s, t => t.clt = s.clt
  | .gth, s, t => t.gth = s.gth
  | .images, s, t => t.images = s.images
  | .sec, s, t => t.sec = s.sec
  | .flash, s, t => t.flash = s.flash

/-- Every part of the state is as before but those named. -/
def PartsBut (l : List Part) (s t : State) : Prop := ∀ p, p ∉ l → Same p s t

/-- The parts that reporting changes: what left the part, and interrupts held back. -/
def reporting : List Part := [.out, .hif]

/-- A fabric-manager command of a block is applied: the fabric dies serve, the part is not expelled, and the block is READY
(R419, R443). -/
abbrev Applies (s : State) (blk : Nat) : Prop := Serves s ∧ s.pkg.expelled = false ∧ s.isReady blk = true

/-- A completion of a request with a status, a load and data is formed and sent as the last effect (R14, R116, R138). -/
def Answers (d : Nat) (m : Msg) (st : Status) (load : Nat) (data : Option Nat) (s t : State) : Prop :=
  ∃ u : State, t = s.after (u.answer d m st load data)

/-- A home die can serve a request at once: it keeps its type's limits, its extent is HELD and homed at this die without
a move, its lines are in service, and neither a limiter, a shadow nor a handoff touches it (R112 to R115, R162, R180, R199,
R202, R213, R426, R428). -/
abbrev AtHome (s : State) (d : Nat) (m : Msg) : Prop :=
  m.valid = true ∧ nodeOf m.addr = s.node ∧ s.homeDie m.addr = d ∧ (s.ext s.node (extentOf m.addr)).state = .held ∧
  s.pair.switched = false ∧ s.isPrimary = false ∧ s.isPuppet = false ∧ s.chunkShadowLost m = false ∧
  s.pool.limitQ.get [] (s.limitKey d m) = [] ∧ s.bucketsOpen d m = true ∧ s.tier.moves.get? [extentOf m.addr] = none ∧
  m.lines.findSome? s.pcOut = none ∧ m.lines.any s.lineDead = false ∧ m.lines.any s.linePoisoned = false ∧
  s.boardCut d (extentOf m.addr) (bitsOf m.addr 16 10) = false ∧
  s.behind d s.trk.nextHome { msg := m, since := s.now } = false

/-- The request takes a home entry by itself: the class has room, and no combining entry concerns it (R128, R134). -/
abbrev Alone (s : State) (d : Nat) (m : Msg) : Prop :=
  s.homeRoom d 1 = true ∧ s.openComb d m = [] ∧ s.combinable d m = false

/-- No request waits for its turn, and no extent is being unbound or revoked: what an agent's answer or its death brings on
ends with it (R121, R142, R172). -/
abbrev Resolved (s : State) : Prop := s.coh.unbinding.entries = [] ∧ s.pool.revs.entries = [] ∧ s.trk.flowWait = []

/-- A coherent request of the agent in slot `a` of the domain that binds its extent, on a line that is not busy (R141,
R145). -/
abbrev Coherent (s : State) (m : Msg) (dom a line : Nat) : Prop :=
  s.bindOf (extentOf m.addr) = some dom ∧ m.f 0 56 8 = dom ∧ s.unbindingAt (extentOf m.addr) = false ∧
  s.slotFor dom m.src = some a ∧ s.isDead dom a = false ∧ m.lines = [line] ∧ s.coh.busy.has [line] = false

/-- No stack is RETIRING and no board channel is DRAINING (R216, R217). -/
abbrev Settled (s : State) : Prop :=
  (s.listed R.MEM_STACK_STATUS_state).all (fun k => decide (s.rd R.MEM_STACK_STATUS_state k ≠ 2)) = true ∧
  (s.listed R.BRD_CH_STATUS_state).all (fun k => decide (s.rd R.BRD_CH_STATUS_state k ≠ 3)) = true

/-- Core `n` issues the word `w`, of opcode `op`, at its pc: it stands there, the core runs and waits for nothing, no register
the instruction names is owed by an unfinished one, and another instruction follows (R218, R248, R258). -/
abbrev Issues (s : State) (n op : Nat) (w : BitVec 64) : Prop :=
  s.atPc n = some w ∧ w.toNat % 256 = op ∧ (scalarsOf op w.toNat).any (fun r => (s.core n).owed.contains r) = false ∧
  ((s.core n).pc + 8) % 2 ^ 32 < 8 * (s.codeOf (s.core n)).length

/-- The pc of the instruction that follows (R258). -/
abbrev nextPc (s : State) (n : Nat) : Nat := ((s.core n).pc + 8) % 2 ^ 32

/-- The instruction is complete: core `n` is as `f` says, its pc at the next instruction, and nothing else has changed. -/
def Steps (s : State) (n : Nat) (f : Core → Core) (t : State) : Prop :=
  t.core n = { f (s.core n) with pc := nextPc s n } ∧ (∀ m, m ≠ n → t.core m = s.core m) ∧ RegsBut [] s t ∧
  PartsBut [.cores] s t

/-- A scalar register takes a result's value, and FLAGS its bits (R256). -/
abbrev takes (d : Nat) (r : Nat × Nat) (k : Core) : Core := Core.setS { k with flags := k.flags ||| r.2 } d r.1

/-- Increments on their way: core, counter, amount and status (R270). -/
abbrev Flying := List (Nat × Nat × Nat × Status)

/-- A core can issue a request to an endpoint at once: it holds fewer than 1,024 entries, nothing is held at issue on its die,
and the window and the issued class have room (R107, R128, R273). -/
abbrev MayRequest (s : State) (n : Nat) (m : Msg) : Prop :=
  s.coreMayIssue n = true ∧ s.sw.held.get [] [dieOfCore n] = [] ∧ s.canIssue (dieOfCore n) m.dst = true

/-- The request of a core has been issued under the free entry of its die, for a purpose (R128, R129). -/
def Requests (s : State) (n : Nat) (why : Purpose) (m : Msg) (t : State) : Prop :=
  ∃ i e, s.freeEntry (dieOfCore n) = some i ∧ t.trk.issued.get? [dieOfCore n, i] = some e ∧ e.issuer = .core n ∧ e.purpose = why ∧
    e.since = s.now ∧ e.msg = withTag m (tagFor (dieOfCore n) i e.gen)

/-- The Marionette's firmware takes a request of a function at once: the part is not expelled, the function has no other
request pending, and no hand-over is under way (R386, R391, R452). -/
abbrev Mails (s : State) (fn : Nat) : Prop :=
  s.stopped = false ∧ s.pkg.expelled = false ∧ s.hif.mbox.has [fn] = false ∧ s.firmware = true ∧ s.sec.restarted = none ∧ fn < 32

/-- A function's request has its reply, with the next sequence number (R452). -/
abbrev Replied (fn : Nat) (st : Status) (s t : State) : Prop :=
  t.rd R.MRN_REPLY_HDR_status [fn] = st.code ∧ t.rd R.MRN_REPLY_HDR_seq [fn] = s.nextMail fn ∧ t.rd R.MRN_REPLY_HDR_length [fn] = 0

/-- The registers of a reply. -/
def replyFields : List Fld := [R.MRN_REPLY_HDR_status, R.MRN_REPLY_HDR_seq, R.MRN_REPLY_HDR_length, R.MRN_BUSY_pending]

/-- The manager device's firmware or a worker's serves a management message: fabric dies run, the part is not expelled (R412). -/
abbrev Managed (s : State) : Prop := Serves s ∧ s.pkg.expelled = false

/-- The commands that act without the part's clocks: the thermal trip, the rail monitor, RESET_N and the freeze pin, and a debug
record that comes through the test port (R393, R430, R445, R465, R472). -/
def actsUnclocked : Instr → Bool
  | .thermalTrip _ _ | .railFault _ | .railRecovery _ | .partReset _ | .debugAuth _ _ | .freezePin _ => true
  | _ => false

/-- The commands that the fabric dies do not serve: the host's accesses, resets, boot, power, time and the Marionette's work. -/
def beyondFabric : Instr → Bool
  | .registerWrite _ _ _ _ | .modeChangeRequest _ _ | .modeChange | .voltageSettled _ | .avsSettleTimeout |
    .eclkRelockDone | .voltageTrim _ _ | .powerWindow _ | .eclkThrottledAlert | .thermalWindow _ _ _ _ _ |
    .thermalCritical _ _ | .roleSet _ | .syncInterval | .delayReqInterval | .sync _ _ _ | .delayReq _ _ _ _ | .delayRsp
    _ _ _ | .cricketReservedType _ _ | .syncLoss | .masterWithdrawn | .timeLocked | .holdLimitExpiry | .refLost |
    .ftStep | .snapCapture _ | .loadNow | .loadAtPps | .ppsEdge | .softwarePartReset _ | .perst | .endpointReset |
    .functionLevelReset _ | .bootCheckDone | .poolBringup _ | .fwPush _ | .fwWrite _ _ | .fwHandover _ _ | .handover |
    .handoverDone | .handoverTimeout | .configWrite _ _ | .endorseWrite _ _ | .imageLoad _ _ _ _ | .imageUnload _ _ _ |
    .evidenceReq _ _ _ _ | .evidenceRsp | .sessionFinish _ _ | .dkExpiry _ | .tenantCreate _ | .tenantRetire _ |
    .tenantFreed _ | .keyRotate _ | .strictIsolation _ | .strictApply | .msixUnmask _ _ | .mailboxDoorbell _ _ _ |
    .fmCommand _ _ _ | .fmExpel _ | .reportFetch | .fatalError _ _ _ | .restRequest _ | .restEntry | .wake _ |
    .wakeComplete | .i3cReset | .i3cWake | .refRestored | .pcieLinkUp | .dynamicAddressAssigned _ | .portEnable _ |
    .portDisable _ | .portAdmit _ | .portAdmitClear _ | .retrain _ | .laneRetrain _ _ | .flowReset _ | .recal _ _ |
    .recalRelease _ _ _ | .patternRun _ _ _ | .moveCmd _ | .retire _ | .channelEnable _ | .channelDrain _ | .powerOff _
  | .cmpTaskPush _ _ | .csramSplit _ _ | .offline _ | .kill _ | .online _ | .doorbell _ _ | .createQp _ _ | .modifyQp
    _ _ | .destroyQp _ _ | .queryQp _ _ | .createCq _ _ | .destroyCq _ _ | .regRegion _ _ | .invalRegion _ _ | .allocPd
    _ _ | .freePd _ _ | .load _ _ _ | .config _ _ _ | .clear _ _ _ | .collectiveCreate _ _ | .owner _ _ _ | .member _ _
    _ | .collStep _ _ | .collectiveDestroy _ _ | .tableCreate _ _ | .advance _ _ | .tableDestroy _ _ | .bounceDoorbell _
    _ | .bbOutCons _ _ | .bar2Read _ _ _ | .bar2Write _ _ _ | .scrubSchedule _ | .thermalTrip _ _ | .railFault _ |
    .railRecovery _ | .partReset _ | .debugAuth _ _ | .freezePin _ => true
  | _ => false

/-- Every command that waits has operands within their ranges. -/
def QueueOk (s : State) : Prop := ∀ c ∈ s.pending, c.wellFormed = true

/-- Every memory of the part is kept in its one form. -/
def MemoryOk (s : State) : Prop :=
  Memory.wf s.mem = true ∧ Memory.wf s.sram = true ∧ Memory.wf s.spm = true ∧ Memory.wf s.csram = true ∧ Memory.wf s.flash = true

end Sys2Proof.Safety
end

