-- ==== Sys2Proof/Certificates/Slice0/Obligations.lean ====
section
/-! DEFINITION. The statements about the model, for the provers. `Gives c s P` says that the command answers a next state
that has `P`; a clause's hypotheses speak of the state before and of the operands only. `RegsBut l` and `PartsBut l` say
what is left as it was: every register but those that only report and those named, and every other part of the state but
those named. -/

open Sys2Proof Sys2Proof.Machine Sys2Proof.Safety

/-! ### Power, rails and die-to-die links (01, 19) -/

/-- R32: a mode request with none pending is scheduled with result OK; with one pending it is refused with RETRY and the
pending one stands; at its beat the requested mode comes into force with the power limit of R29. Nothing else changes but
what reports. -/
def Obligations.PowerModes : Prop :=
  ∀ s : State, Runs s →
    (∀ mode beat, mode ≤ 2 → s.isReady B.pwr = true → s.rd R.PWR_MODE_STATUS_pending [] = 0 → Gives (.modeChangeRequest mode
      beat) s (fun t => t.rd R.PWR_MODE_STATUS_pending [] = 1 ∧ t.rd R.PWR_MODE_STATUS_requested [] = mode ∧ t.rd
      R.PWR_MODE_STATUS_pending_beat [] = launchBeat beat s.beat ∧ t.rd R.PWR_MODE_STATUS_result [] = Status.ok.code ∧
      RegsBut [R.PWR_MODE_STATUS_pending, R.PWR_MODE_STATUS_requested, R.PWR_MODE_STATUS_pending_beat,
      R.PWR_MODE_STATUS_result] s t ∧ PartsBut reporting s t)) ∧
    (∀ mode beat, mode ≤ 2 → s.rd R.PWR_MODE_STATUS_pending [] ≠ 0 → Gives (.modeChangeRequest mode beat) s (fun t => t.rd
      R.PWR_MODE_STATUS_result [] = Status.retry.code ∧ RegsBut [R.PWR_MODE_STATUS_result] s t ∧ PartsBut reporting s t)) ∧
    (s.rd R.PWR_MODE_STATUS_pending [] ≠ 0 → s.resting = false → ahead (s.rd R.PWR_MODE_STATUS_pending_beat []) s.beat =
      false → Gives (.modeChange) s (fun t => t.rd R.PWR_MODE_STATUS_mode [] = s.rd R.PWR_MODE_STATUS_requested [] % 4 ∧
      t.rd R.PWR_MODE_STATUS_pending [] = 0 ∧ t.rd R.PWR_POWER_limit [] = modeLimit (s.rd R.PWR_MODE_STATUS_requested []) ∧
      RegsBut [R.PWR_MODE_STATUS_mode, R.PWR_MODE_STATUS_pending, R.PWR_POWER_limit, R.PWR_THROTTLE_stack_cap] s t ∧
      PartsBut [.out, .hif, .pkg] s t))

/-- R463, R462: a settled raise relocks ECLK; a raise not settled in time is given up and ECLK stays; the relock puts its
ECLK in force; a trim is taken once per beat; R31: a window's average is held, an average over the limit lowers the ECLK the
power controller asks for first, and more than 16 windows below the ceiling raise the alert. -/
def Obligations.EngineVoltage : Prop :=
  ∀ s : State, Runs s →
    (∀ mv t₀ since, s.pkg.raise = some (t₀, since) → s.pkg.relock = none → (s.voltRequest 0 - 3 * ((mv : Nat) : Int)).natAbs
      ≤ 15 → Gives (.voltageSettled mv) s (fun t => t.pkg.relock = some t₀ ∧ t.pkg.raise = none ∧ RegsBut [] s t ∧ PartsBut
      [.pkg] s t)) ∧
    (∀ t₀ since, s.pkg.raise = some (t₀, since) → settleLimit (nominal t₀ - nominal (s.rd R.PWR_THROTTLE_eclk [])) ≤ s.now -
      since → Gives (.avsSettleTimeout) s (fun t => t.pkg.raise = none ∧ t.rd R.PWR_THROTTLE_eclk [] = s.rd
      R.PWR_THROTTLE_eclk [] ∧ t.pkg.volt = nominal (s.rd R.PWR_THROTTLE_eclk []) ∧ RegsBut [R.GLB_DEGRADED_degraded] s t)) ∧
    (∀ e, s.pkg.relock = some e → e < 32 → Gives (.eclkRelockDone) s (fun t => t.rd R.PWR_THROTTLE_eclk [] = e ∧ RegsBut
      [R.PWR_THROTTLE_eclk, R.PWR_THROTTLE_stack_cap] s t ∧ PartsBut [.pkg] s t)) ∧
    (∀ d (mv : Int), -30 ≤ mv → mv ≤ 20 → mv % 5 = 0 → s.pkg.trimBeat.get? [d] ≠ some s.beat → Gives (.voltageTrim d mv) s
      (fun t => t.pkg.trim.get? [d] = some mv ∧ t.pkg.trimBeat.get? [d] = some s.beat ∧ RegsBut [] s t ∧ PartsBut [.pkg] s
      t)) ∧
    (∀ avg, avg < 65536 → Gives (.powerWindow avg) s (fun t => t.rd R.PWR_POWER_avg [] = avg ∧ (10 * modeLimit s.mode < avg
      → 6 < s.eclkTarget → t.pkg.powerEclk < s.eclkTarget ∧ t.pkg.powerCap = s.pkg.powerCap) ∧ RegsBut [R.PWR_POWER_avg,
      R.PWR_THROTTLE_stack_cap, R.PWR_THROTTLE_windows] s t ∧ PartsBut [.pkg] s t)) ∧
    (16 < s.rd R.PWR_THROTTLE_windows [] → Gives (.eclkThrottledAlert) s (fun t => bitAt (t.rd R.PWR_EVT_events []) 0 = true
      ∧ RegsBut [] s t ∧ PartsBut reporting s t))

/-- R470 to R472, R465: temperatures of a window are held; at the critical temperature every stack cap is 10 %; the trip
stops every clock, names its source and drives THERMTRIP_N; a rail out of tolerance for more than 2 µs resets the part,
keeps the flash and holds the reset until every rail has been within tolerance for 1 ms. -/
def Obligations.ThermalAndRails : Prop :=
  ∀ s : State, 
    (∀ west east hub stack i, Runs s → west < 256 → east < 256 → hub < 256 → stack < 256 → i < 20 → Gives (.thermalWindow
      west east hub stack i) s (fun t => t.rd R.PWR_TEMP_west [] = west ∧ t.rd R.PWR_TEMP_east [] = east ∧ t.rd
      R.PWR_TEMP_hub [] = hub ∧ t.rd R.PWR_TEMP_stack [] = stack ∧ t.rd R.PWR_TEMP_stack_index [] = i ∧ t.rd
      R.MEM_STACK_STATUS_temp [i] = stack)) ∧
    (∀ die stack, Runs s → (112 ≤ die ∨ 100 ≤ stack) → Gives (.thermalCritical die stack) s (fun t => t.rd
      R.PWR_THERMAL_STATUS_critical [] = 1 ∧ t.rd R.PWR_THROTTLE_stack_cap [] = 10 ∧ RegsBut [R.PWR_THERMAL_STATUS_critical,
      R.PWR_THROTTLE_stack_cap] s t ∧ PartsBut [.pkg] s t)) ∧
    (∀ source temp, 125 ≤ temp → s.pkg.tripped = false → Gives (.thermalTrip source temp) s (fun t => t.stopped = true ∧
      t.rd R.PWR_THERMAL_STATUS_tripped [] = 1 ∧ t.rd R.PWR_THERMAL_STATUS_trip_source [] = source % 4 ∧ t.out = s.out ++
      [.pin 0 0] ∧ RegsBut [R.PWR_THERMAL_STATUS_tripped, R.PWR_THERMAL_STATUS_trip_source] s t ∧ PartsBut [.out, .pkg] s
      t)) ∧
    (∀ ns, 2000 < ns → Gives (.railFault ns) s (fun t => t.pkg.railHeld = true ∧ t.rd R.GLB_RESET_CAUSE_cause [] = 0 ∧
      t.flash = s.flash ∧ t.mem = [] ∧ t.rd R.PWR_THERMAL_STATUS_tripped [] = s.rd R.PWR_THERMAL_STATUS_tripped [] % 2)) ∧
    (∀ ns, 1000000 ≤ ns → Gives (.railRecovery ns) s (fun t => t.pkg.railHeld = false ∧ RegsBut [] s t ∧ PartsBut [.pkg] s
      t))

/-- R22: a corrected transfer is counted, a replayed one leaves no trace, an uncorrectable one is a contained error and
changes no memory; a lost hub link is recorded as DEGRADED, and its return ends the loss. -/
def Obligations.DieLinks : Prop :=
  ∀ s : State, Serves s →
    (∀ link, Gives (.dieLinkError link .corrected) s (fun t => t.rd R.RAS_CNT_count [0] = min (2 ^ 48 - 1) (s.rd
      R.RAS_CNT_count [0] + 1) ∧ RegsBut [] s t ∧ PartsBut [.out, .hif, .ras] s t)) ∧
    (∀ link, Gives (.dieLinkError link .replayed) s (fun t => t.out = s.out ∧ RegsBut [] s t ∧ PartsBut [] s t)) ∧
    (∀ link d chan, Gives (.dieLinkError link (.uncorrectable d chan)) s (fun t => bitAt (t.rd R.RAS_EVT_events []) 0 = true
      ∧ t.mem = s.mem ∧ RegsBut [] s t)) ∧
    (∀ d, s.pkg.hubLost.has [d] = false → Gives (.hubLinkLoss d) s (fun t => t.pkg.hubLost.has [d] = true ∧ bitAt (t.rd
      R.GLB_DEGRADED_degraded []) B.ras = true ∧ RegsBut [R.GLB_DEGRADED_degraded] s t)) ∧
    (∀ d, Gives (.hubLinkReturn d) s (fun t => t.pkg.hubLost.has [d] = false ∧ RegsBut [] s t ∧ PartsBut [.pkg] s t))

/-! ### Fabric time (02) -/

/-- R40, R49: a part made master is LOCKED at hop depth 0; a master made worker enters HOLDOVER from LOCKED; a write that
keeps the role changes only the fields of TIM_CTL; a worker with 64 good intervals and a parent enters LOCKED and reports
ready; HOLDOVER beyond its limit without a parent becomes LOST; the reference's loss is shown while it lasts. The clauses
that enter LOCKED are stated for a pool with no lease; what LOCKED does to leases is stated with the leases. -/
def Obligations.TimeRole : Prop :=
  ∀ s : State, Runs s →
    (∀ v, bitsOf v 0 2 = 1 → bitsOf v 2 2 < 3 → s.isMaster = false → s.listed R.POL_LEASE_valid = [] →
      s.pool.provisional.entries = [] → Gives (.roleSet v) s (fun t => t.isMaster = true ∧ t.tst = Ts.locked ∧ t.rd
      R.TIM_STATUS_hop_depth [] = 0 ∧ t.rd R.TIM_CTL_ref_sel [] = bitsOf v 2 2 ∧ t.rd R.TIM_CTL_master_gen [] = bitsOf v 16
      16 ∧ RegsBut [R.TIM_STATUS_master_conflict, R.TIM_CTL_role, R.TIM_CTL_ref_sel, R.TIM_CTL_cricket_out_en,
      R.TIM_CTL_master_gen, R.TIM_STATUS_hop_depth, R.TIM_STATUS_state, R.GLB_READY_ready] s t ∧ PartsBut [.tim, .out, .hif]
      s t)) ∧
    (∀ v, bitsOf v 0 2 = 0 → bitsOf v 2 2 < 3 → s.isMaster = true → Gives (.roleSet v) s (fun t => t.isMaster = false ∧
      (s.tst = Ts.locked → t.tst = Ts.holdover) ∧ t.tim.held = false ∧ RegsBut [R.TIM_CTL_role, R.TIM_CTL_ref_sel,
      R.TIM_CTL_cricket_out_en, R.TIM_CTL_master_gen, R.TIM_STATUS_state] s t ∧ PartsBut [.tim, .out, .hif] s t)) ∧
    (∀ v, bitsOf v 0 2 = s.rd R.TIM_CTL_role [] → bitsOf v 0 2 ≤ 1 → bitsOf v 2 2 < 3 → Gives (.roleSet v) s (fun t => t.rd
      R.TIM_CTL_ref_sel [] = bitsOf v 2 2 ∧ t.rd R.TIM_CTL_cricket_out_en [] = bitsOf v 4 1 ∧ t.rd R.TIM_CTL_master_gen [] =
      bitsOf v 16 16 ∧ RegsBut [R.TIM_CTL_role, R.TIM_CTL_ref_sel, R.TIM_CTL_cricket_out_en, R.TIM_CTL_master_gen] s t ∧
      PartsBut [] s t)) ∧
    (s.isMaster = false → s.tim.held = true → 64 ≤ s.tim.good → s.tst ≠ Ts.unsync → s.tst ≠ Ts.locked → s.listed
      R.POL_LEASE_valid = [] → s.pool.provisional.entries = [] → Gives (.timeLocked) s (fun t => t.tst = Ts.locked ∧ bitAt
      (t.rd R.GLB_READY_ready []) B.tim = true ∧ RegsBut [R.TIM_STATUS_state, R.GLB_READY_ready] s t ∧ PartsBut [.tim, .out,
      .hif] s t)) ∧
    (s.tst = Ts.holdover → s.tim.held = false → s.rd R.TIM_HOLD_LIMIT_beats [] * 1024 ≤ s.now - s.tim.holdSince → Gives
      (.holdLimitExpiry) s (fun t => t.tst = Ts.lost ∧ RegsBut [R.TIM_STATUS_state] s t ∧ PartsBut [.tim, .out, .hif] s t)) ∧
    (s.isMaster = true → s.rd R.TIM_CTL_ref_sel [] ≠ 0 → Gives (.refLost) s (fun t => t.rd R.TIM_STATUS_ref_lost [] = 1 ∧
      bitAt (t.rd R.TIM_EVT_events []) 1 = true ∧ RegsBut [R.TIM_STATUS_ref_lost] s t ∧ PartsBut reporting s t)) ∧
    (Gives (.refRestored) s (fun t => t.rd R.TIM_STATUS_ref_lost [] = 0 ∧ RegsBut [R.TIM_STATUS_ref_lost] s t ∧ PartsBut []
      s t))

/-- R43: a LOCKED part sends SYNC with its time on every child port; a worker with a parent sends DELAY_REQ on it and
remembers when; any part answers DELAY_REQ with the two times. R41, R42: a SYNC not older than the generation followed is
recorded on its port; the first one is followed; one of the same generation from another master is a conflict, and ends when
one master is silent for four intervals. R45: a matching DELAY_RSP gives the link delay, any other is dropped and counted.
R44: a reserved type is a protocol error. R49: a parent silent for four intervals is forgotten. -/
def Obligations.CricketMessages : Prop :=
  ∀ s : State, Runs s →
    (s.tst = Ts.locked → Gives (.syncInterval) s (fun t => (∀ p, p < 256 → s.isActive p = true → s.on
      R.PRT_PORT_STATUS_partner_time [p] = true → s.isMaster = true ∨ p ≠ s.rd R.TIM_STATUS_parent_port [] → ∃ c,
      Out.cricket p c ∈ t.out ∧ c.ty = 1 ∧ c.tx = s.tim.ft ∧ c.master = s.sentMaster ∧ c.gen = s.sentGen) ∧ RegsBut [] s t ∧
      PartsBut [.out, .tim] s t)) ∧
    (s.isMaster = false → s.tim.held = true → Gives (.delayReqInterval) s (fun t => t.tim.request = some (s.rd
      R.TIM_STATUS_parent_port [], s.tim.seq.get 0 [s.rd R.TIM_STATUS_parent_port [], 2], s.tim.ft) ∧ t.out = s.out ++
      [.cricket (s.rd R.TIM_STATUS_parent_port [])
      { ty := 2, hop := s.rd R.TIM_STATUS_hop_depth [], gen := s.sentGen, seq := s.tim.seq.get 0 [s.rd R.TIM_STATUS_parent_port [], 2], master := s.sentMaster, tx := 0, rx := 0 }]
      ∧ RegsBut [] s t ∧ PartsBut [.out, .tim] s t)) ∧
    (∀ p (c : Cricket) rx tx, Gives (.delayReq p c rx tx) s (fun t => t.out = s.out ++ [.cricket p
      { ty := 3, hop := s.rd R.TIM_STATUS_hop_depth [], gen := s.sentGen, seq := c.seq, master := s.sentMaster, tx := tx, rx := rx }]
      ∧ RegsBut [] s t ∧ PartsBut [.out] s t)) ∧
    (∀ p (c : Cricket) rx, c.ty = 1 → s.isMaster = false → (s.tim.heard = Map.empty ∧ s.tst = Ts.unsync ∨ dist 16 c.gen
      (s.rd R.TIM_STATUS_followed_gen []) < 32768) → Gives (.sync p c rx) s (fun t => t.tim.heard.get? [p] = some
      { gen := c.gen, master := c.master, hop := c.hop, time := s.now } ∧ RegsBut [R.TIM_STATUS_state,
      R.TIM_STATUS_master_conflict, R.TIM_STATUS_parent_port, R.TIM_STATUS_hop_depth, R.TIM_STATUS_followed_gen,
      R.TIM_OFFSET_o] s t ∧ PartsBut [.tim, .out, .hif] s t)) ∧
    (∀ p (c : Cricket) rx, c.ty = 1 → c.gen < 65536 → s.isMaster = false → s.tim.heard = Map.empty → s.tst = Ts.unsync →
      Gives (.sync p c rx) s (fun t => t.rd R.TIM_STATUS_followed_gen [] = c.gen ∧ t.tim.master = c.master ∧ t.tim.conflict
      = none)) ∧
    (∀ p (c : Cricket) rx, c.ty = 1 → s.isMaster = false → s.tst ≠ Ts.unsync → dist 16 c.gen (s.rd R.TIM_STATUS_followed_gen
      []) = 0 → s.tim.conflict = none → c.master ≠ s.tim.master → Gives (.sync p c rx) s (fun t => t.rd
      R.TIM_STATUS_master_conflict [] = 1 ∧ t.tim.conflict = some (s.tim.master, c.master) ∧ t.tim.held = false ∧ bitAt
      (t.rd R.TIM_EVT_events []) 2 = true)) ∧
    (∀ p (c : Cricket) rx t₁, s.tim.request = some (p, c.seq, t₁) → dist 16 c.gen (s.rd R.TIM_STATUS_followed_gen []) <
      32768 → Gives (.delayRsp p c rx) s (fun t => t.rd R.TIM_PORT_DELAY_delay [p] = fieldOfInt 24 ((((rx : Int) - t₁) -
      ((c.tx : Int) - c.rx)) / 2 + signedOf 16 (s.rd R.TIM_PORT_DELAY_asym [p])) ∧ t.tim.request = none ∧ RegsBut
      [R.TIM_PORT_DELAY_delay, R.TIM_OFFSET_o, R.TIM_STATUS_state] s t ∧ PartsBut [.tim, .out, .hif] s t)) ∧
    (∀ p (c : Cricket) rx, s.tim.request = none → dist 16 c.gen (s.rd R.TIM_STATUS_followed_gen []) < 32768 → Gives
      (.delayRsp p c rx) s (fun t => t.rd R.TIM_DROP_COUNT_count [] = min (2 ^ 32 - 1) (s.rd R.TIM_DROP_COUNT_count [] + 1)
      ∧ RegsBut [] s t ∧ PartsBut [] s t)) ∧
    (∀ p (c : Cricket), c.ty ≠ 1 ∧ c.ty ≠ 2 ∧ c.ty ≠ 3 → Gives (.cricketReservedType p c) s (fun t => t.rd
      R.PRT_PORT_CNT_count [p, 6] = min (2 ^ 48 - 1) (s.rd R.PRT_PORT_CNT_count [p, 6] + 1) ∧ bitAt (t.rd R.PRT_EVT_events
      []) 4 = true ∧ bitAt (t.rd R.RAS_EVT_events []) 4 = true ∧ RegsBut [] s t ∧ PartsBut reporting s t)) ∧
    (s.isMaster = false → s.tim.held = true → (s.tim.heard.get {} [s.rd R.TIM_STATUS_parent_port []]).time + fourIntervals ≤
      s.now → Gives (.syncLoss) s (fun t => t.tim.heard.has [s.rd R.TIM_STATUS_parent_port []] = false ∧ RegsBut
      [R.TIM_STATUS_parent_port, R.TIM_STATUS_hop_depth, R.TIM_STATUS_state] s t ∧ PartsBut [.tim, .out, .hif] s t)) ∧
    (∀ a b, s.tim.conflict = some (a, b) → s.lastHeard b + fourIntervals ≤ s.now → Gives (.masterWithdrawn) s (fun t => t.rd
      R.TIM_STATUS_master_conflict [] = 0 ∧ t.tim.conflict = none ∧ t.tim.master = a ∧ RegsBut
      [R.TIM_STATUS_master_conflict, R.TIM_STATUS_parent_port, R.TIM_STATUS_hop_depth] s t ∧ PartsBut [.tim, .out] s t))

/-- R24: a capture copies the hub's time to TIM_SNAP_FT. R51: a forward step is taken at a beat start, on the hub and on
both dies, with the event ft_step; what was scheduled against a beat passed over, a push or a wait of a core among it, is
late, and nothing else changes. R52: a load takes TIM_FT_SET at once where it is allowed and does not move time backwards,
is a programming error where it would, and waits for the PPS edge where so commanded. -/
def Obligations.TimeSteps : Prop :=
  ∀ s : State, Runs s →
    (∀ v, bitAt v 0 = true → s.isReady B.tim = true → Gives (.snapCapture v) s (fun t => t.rd R.TIM_SNAP_FT_ft [] = s.ftHub
      % 2 ^ 64 ∧ RegsBut [R.TIM_SNAP_FT_ft] s t ∧ PartsBut [] s t)) ∧
    (∀ v, bitAt v 0 = false → Gives (.snapCapture v) s (fun t => t.rd R.TIM_SNAP_FT_ft [] = s.rd R.TIM_SNAP_FT_ft [] ∧
      RegsBut [] s t ∧ PartsBut [] s t)) ∧
    (∀ n, s.tim.step = some n → s.ftHub % 1024 = 0 → Gives (.ftStep) s (fun t => t.tim.ft = s.tim.ft + n ∧ t.tim.west =
      (s.tim.ft + n) / 256 ∧ t.tim.east = (s.tim.ft + n) / 256 ∧ t.tim.step = none ∧ bitAt (t.rd R.TIM_EVT_events []) 4 =
      true ∧ RegsBut [R.PWR_MODE_STATUS_pending_beat, R.SWC_MAP_STATUS_pending_beat, R.SEC_FW_BEAT_beat,
      R.CLT_COLL_STATUS_beat, R.CMP_FAULT_INFO_core, R.CMP_FAULT_INFO_cause, R.CMP_FAULT_INFO_image,
      R.CMP_FAULT_INFO_offset, R.CMP_FAULT_USER_user] s t ∧ PartsBut [.tim, .out, .hif, .tier, .pair, .pkg, .clt, .cores] s
      t)) ∧
    (s.tim.ppsLoad = false → (s.isMaster = true ∨ s.tst = Ts.unsync) → (s.ftHub ≤ s.rd R.TIM_FT_SET_value [] ∨ s.tst =
      Ts.unsync) → Gives (.loadNow) s (fun t => t.ftHub = s.rd R.TIM_FT_SET_value [] ∧ t.tim.west = s.rd R.TIM_FT_SET_value
      [] ∧ t.tim.east = s.rd R.TIM_FT_SET_value [] ∧ RegsBut [R.PWR_MODE_STATUS_pending_beat, R.SWC_MAP_STATUS_pending_beat,
      R.SEC_FW_BEAT_beat, R.CLT_COLL_STATUS_beat, R.CMP_FAULT_INFO_core, R.CMP_FAULT_INFO_cause, R.CMP_FAULT_INFO_image,
      R.CMP_FAULT_INFO_offset, R.CMP_FAULT_USER_user] s t ∧ PartsBut [.tim, .out, .hif, .tier, .pair, .pkg, .clt, .cores] s
      t)) ∧
    ((s.tim.ppsLoad = true ∨ (s.isMaster = false ∨ s.rd R.TIM_FT_SET_value [] < s.ftHub) ∧ s.tst ≠ Ts.unsync) → Gives
      (.loadNow) s (fun t => t.tim = s.tim ∧ bitAt (t.rd R.RAS_EVT_events []) 3 = true ∧ RegsBut [] s t ∧ PartsBut reporting
      s t)) ∧
    (s.tim.ppsLoad = false → s.isMaster = true → s.rd R.TIM_CTL_ref_sel [] = 2 → Gives (.loadAtPps) s (fun t =>
      t.tim.ppsLoad = true ∧ t.tim.ft = s.tim.ft ∧ RegsBut [] s t ∧ PartsBut [.tim] s t)) ∧
    (s.tim.ppsLoad = true → s.on R.TIM_STATUS_ref_lost [] = false → (s.ftHub ≤ s.rd R.TIM_FT_SET_value [] ∨ s.tst =
      Ts.unsync) → Gives (.ppsEdge) s (fun t => t.ftHub = s.rd R.TIM_FT_SET_value [] ∧ t.tim.ppsLoad = false ∧ RegsBut
      [R.PWR_MODE_STATUS_pending_beat, R.SWC_MAP_STATUS_pending_beat, R.SEC_FW_BEAT_beat, R.CLT_COLL_STATUS_beat,
      R.CMP_FAULT_INFO_core, R.CMP_FAULT_INFO_cause, R.CMP_FAULT_INFO_image, R.CMP_FAULT_INFO_offset, R.CMP_FAULT_USER_user]
      s t ∧ PartsBut [.tim, .out, .hif, .tier, .pair, .pkg, .clt, .cores] s t))

/-! ### Ports of Sorou Link (03) -/

/-- R79, R57, R477: an enable that nothing refuses starts DETECT; signal moves DETECT to EQUALISE, a port with good lanes
left goes on to LOCK and to CONFIG, where CAPS and INIT_CREDIT go out and are repeated; a state past its limit fails the
attempt, the third in a row ends in FAULT. R73, R74: CAPS and INIT_CREDIT received in CONFIG are kept, and with both and
every check passed CONFIG is completed; changed CAPS in ACTIVE retrain the port. R78: a port that is disabled keeps no flit.
A refused enable is a programming error and changes nothing. -/
def Obligations.LinkTraining : Prop :=
  ∀ s : State, Serves s →
    (∀ p, s.on R.PRT_PORT_CTL_enable [p] = false → s.enableRefused p = false → Gives (.portEnable p) s (fun t => t.rd
      R.PRT_PORT_CTL_enable [p] = 1 ∧ t.pst p = Ps.detect ∧ RegsBut [R.PRT_PORT_CTL_enable, R.PRT_PORT_STATUS_state] s t ∧
      PartsBut [.ports] s t)) ∧
    (∀ p, s.on R.PRT_PORT_CTL_enable [p] = false → s.enableRefused p = true → Gives (.portEnable p) s (fun t => bitAt (t.rd
      R.RAS_EVT_events []) 3 = true ∧ RegsBut [] s t ∧ PartsBut reporting s t)) ∧
    (∀ p, s.isUp p = false → Gives (.portDisable p) s (fun t => t.rd R.PRT_PORT_CTL_enable [p] = 0 ∧ t.pst p = Ps.disabled ∧
      (t.port p).replay = [] ∧ (t.port p).nextSeq = 0 ∧ RegsBut [R.PRT_PORT_CTL_enable, R.PRT_PORT_STATUS_state] s t ∧
      PartsBut [.ports] s t)) ∧
    (∀ p, s.pst p = Ps.detect → Gives (.signalDetect p) s (fun t => t.pst p = Ps.equalise ∧ RegsBut
      [R.PRT_PORT_STATUS_state] s t ∧ PartsBut [.ports] s t)) ∧
    (∀ p failed, s.stepOf p = Ps.equalise → (2 ^ s.cfgWidth p - 1) &&& (255 ^^^ (((s.port p).badLanes ||| failed) &&& 255))
      ≠ 0 → Gives (.equaliseDone p failed) s (fun t => t.stepOf p = Ps.lock ∧ (t.port p).badLanes = (s.port p).badLanes |||
      failed ∧ RegsBut [R.PRT_PORT_STATUS_state] s t ∧ PartsBut [.ports] s t)) ∧
    (∀ p late (rev : Bool), s.stepOf p = Ps.lock → (2 ^ s.cfgWidth p - 1) &&& (255 ^^^ (((s.port p).badLanes ||| late) &&&
      255)) ≠ 0 → Gives (.lockDone p late rev) s (fun t => t.stepOf p = Ps.config ∧ t.rd R.PRT_PORT_STATUS_lane_reversed [p]
      = b2n rev ∧ (t.port p).completed = false ∧ (∃ c l, Out.lctl p (.caps c) ∈ t.out ∧ Out.lctl p (.initCredit l) ∈ t.out)
      ∧ RegsBut [R.PRT_PORT_STATUS_state, R.PRT_PORT_STATUS_lane_reversed] s t ∧ PartsBut [.ports, .out] s t)) ∧
    (∀ p l, s.trainLimit p = some l → l ≤ s.now - (s.port p).since → s.isUp p = false → Gives (.trainingTimeout p) s (fun t
      => (t.port p).attempts = (s.port p).attempts + 1 ∧ (t.pst p = if 3 ≤ (s.port p).attempts + 1 then Ps.fault else
      Ps.detect) ∧ RegsBut [R.PRT_PORT_STATUS_state] s t ∧ PartsBut [.ports] s t)) ∧
    (∀ p, s.stepOf p = Ps.config → Gives (.configRepeat p) s (fun t => Out.lctl p (.caps (s.ownCaps p)) ∈ t.out ∧ Out.lctl p
      (.initCredit (s.offered p)) ∈ t.out ∧ RegsBut [] s t ∧ PartsBut [.ports, .out] s t)) ∧
    (∀ p, s.isActive p = true → s.now ≤ (s.port p).repeatUntil → Gives (.initCreditRepeat p) s (fun t => t.out = s.out ++
      [.lctl p (.initCredit (s.offered p))] ∧ RegsBut [] s t ∧ PartsBut [.out] s t)) ∧
    (∀ p (c : Caps), s.stepOf p = Ps.config → (s.port p).gotCredit = none → Gives (.caps p c) s (fun t => (t.port p).gotCaps
      = some c ∧ t.stepOf p = Ps.config ∧ RegsBut [] s t ∧ PartsBut [.ports] s t)) ∧
    (∀ p (cr : List Nat), s.stepOf p = Ps.config → (s.port p).gotCaps = none → Gives (.initCredit p cr) s (fun t => (t.port
      p).gotCredit = some cr ∧ t.stepOf p = Ps.config ∧ RegsBut [] s t ∧ PartsBut [.ports] s t)) ∧
    (∀ p (cr : List Nat), s.isActive p = true → creditSame cr (s.port p) = true → Gives (.initCredit p cr) s (fun t => (∀ vc
      ∈ vcs, (s.port p).initial.get 0 [vc] = 0 → cr.getD vc 0 ≠ 0 → (t.port p).credit.get 0 [vc] = cr.getD vc 0 ∧ (t.port
      p).initial.get 0 [vc] = cr.getD vc 0) ∧ RegsBut [] s t ∧ PartsBut [.ports] s t)) ∧
    (∀ p (c : Caps), s.isActive p = true → (s.port p).lastCaps ≠ some c → Gives (.caps p c) s (fun t => t.pst p = Ps.retrain
      ∧ Out.lctl p .retrainReq ∈ t.out ∧ RegsBut [R.PRT_PORT_STATUS_state] s t ∧ PartsBut [.ports, .out, .hif] s t))

/-- R58, R81, R477: for a partner not seen before, or the same as before, whose precoding agrees and with which a lane group
is good at both ends, CONFIG is completed with the second of CAPS and INIT_CREDIT, the partner's endpoint identifier and
role are shown and the group's width is active; a flit other than a link control flit then makes the port ACTIVE. -/
def Obligations.LinkConfigured : Prop :=
  ∀ s : State, Serves s →
    (∀ p (c : Caps) (cr : List Nat) mask w, s.stepOf p = Ps.config → (s.port p).gotCredit = some cr → (s.port p).completed =
      false → ((s.port p).identity = none ∨ (s.port p).identity = some (c.vendor, c.eid)) → c.precode = s.on
      R.PRT_PORT_CFG_precode_en [p] → bestGroup (c.goodLanes &&& s.ownGood p) (s.cfgWidth p) c.widths = some (mask, w) →
      Gives (.caps p c) s (fun t => (t.port p).completed = true ∧ (t.port p).lastCaps = some c ∧ t.rd
      R.PRT_PORT_STATUS_partner_eid [p] = c.eid % 65536 ∧ t.rd R.PRT_PORT_STATUS_partner_role [p] = c.role % 2 ∧ t.rd
      R.PRT_PORT_STATUS_width_active [p] = Nat.log2 (popcount 8 mask) % 4)) ∧
    (∀ p (c : Caps) (cr : List Nat) mask w, s.stepOf p = Ps.config → (s.port p).gotCaps = some c → (s.port p).completed =
      false → ((s.port p).identity = none ∨ (s.port p).identity = some (c.vendor, c.eid)) → c.precode = s.on
      R.PRT_PORT_CFG_precode_en [p] → bestGroup (c.goodLanes &&& s.ownGood p) (s.cfgWidth p) c.widths = some (mask, w) →
      Gives (.initCredit p cr) s (fun t => (t.port p).completed = true ∧ (t.port p).lastCaps = some c ∧ t.rd
      R.PRT_PORT_STATUS_partner_eid [p] = c.eid % 65536)) ∧
    (∀ p (f : Flit), s.stepOf p = Ps.config → (s.port p).completed = true → f.kind = 0 → Gives (.flitReceived p f true) s
      (fun t => t.pst p = Ps.active ∧ (t.port p).fresh = false ∧ (t.port p).resend = (t.port p).replay.length ∧ RegsBut
      [R.PRT_PORT_STATUS_state] s t ∧ PartsBut [.ports, .out, .hif] s t))

/-- R76, R65: the expected first flit of a message is taken, its cell held and acknowledged; a flit ahead of the one
expected draws NAK(expected); a CRC failure is counted. R77: a NAK that is not stale releases the older flits and sends the
rest again, as does a replay timeout below its limit. R61: an uncorrectable codeword is counted, and the eighth in a row on
a lane retrains the port. R70: the running total of every enabled virtual channel is reported. R72: 10 ms at zero credit set
the event credit_stall. -/
def Obligations.LinkFlits : Prop :=
  ∀ s : State, Serves s →
    (∀ p (f : Flit), s.isActive p = true → f.kind = 1 → f.seq = (s.port p).expected → (s.port p).expected < 4096 → vcOk
      (f.chan * 8 + f.tc) = true → (s.port p).heldCells.get 0 [f.chan * 8 + f.tc] < (s.port p).advertised.get 0 [f.chan * 8
      + f.tc] → (s.port p).rx.get? [f.chan * 8 + f.tc] = none → bitsOf f.payload 64 13 ≤ 4096 → f.last = decide (ceilDiv (16
      + bitsOf f.payload 64 13) 240 = 1) → Gives (.flitReceived p f true) s (fun t => (t.port p).expected = ((s.port
      p).expected + 1) % 4096 ∧ (t.port p).heldCells.get 0 [f.chan * 8 + f.tc] = (s.port p).heldCells.get 0 [f.chan * 8 +
      f.tc] + 1 ∧ (t.port p).rx.get? [f.chan * 8 + f.tc] = some
      { flits := 1, total := ceilDiv (16 + bitsOf f.payload 64 13) 240, cms := b2n f.cm } ∧ t.out = s.out ++ [.flit p
      { kind := 0, ackValid := true, ackSeq := ((s.port p).expected + 1) % 4096 }] ∧ RegsBut [] s t ∧ PartsBut [.ports,
      .out] s t)) ∧
    (∀ p (f : Flit), s.isActive p = true → (f.kind = 1 ∨ f.kind = 2) → 0 < dist 12 f.seq (s.port p).expected → dist 12 f.seq
      (s.port p).expected ≤ 2047 → (s.port p).lastNak = none → Gives (.flitReceived p f true) s (fun t => Out.lctl p (.nak
      (s.port p).expected) ∈ t.out ∧ (t.port p).expected = (s.port p).expected ∧ RegsBut [] s t ∧ PartsBut [.ports, .out] s
      t)) ∧
    (∀ p (f : Flit), s.stepOf p = Ps.active → Gives (.flitReceived p f false) s (fun t => t.rd R.PRT_PORT_CNT_count [p, 0] =
      min (2 ^ 48 - 1) (s.rd R.PRT_PORT_CNT_count [p, 0] + 1) ∧ (t.port p).expected = (s.port p).expected ∧ t.sw = s.sw ∧
      RegsBut [] s t)) ∧
    (∀ p lane flits, (s.port p).badRun.get 0 [lane] + 1 < 8 → Gives (.codewordUncorrectable p lane flits) s (fun t => t.rd
      R.PRT_PORT_CNT_count [p, 1] = min (2 ^ 48 - 1) (s.rd R.PRT_PORT_CNT_count [p, 1] + 1) ∧ t.rd R.PRT_PORT_CNT_count [p,
      0] = min (2 ^ 48 - 1) (s.rd R.PRT_PORT_CNT_count [p, 0] + flits) ∧ (t.port p).badRun.get 0 [lane] = (s.port
      p).badRun.get 0 [lane] + 1 ∧ RegsBut [] s t ∧ PartsBut [.ports, .out] s t)) ∧
    (∀ p lane flits, 8 ≤ (s.port p).badRun.get 0 [lane] + 1 → s.isActive p = true → Gives (.codewordUncorrectable p lane
      flits) s (fun t => t.pst p = Ps.retrain ∧ RegsBut [R.PRT_PORT_STATUS_state] s t ∧ PartsBut [.ports, .out, .hif] s t)) ∧
    (∀ p e (f : Flit) (l : List Flit), (s.port p).replay = f :: l → dist 12 e f.seq ≤ l.length + 1 → Gives (.nak p e) s (fun
      t => (t.port p).replay = (f :: l).drop (dist 12 e f.seq) ∧ (t.port p).resend = (t.port p).replay.length ∧ t.rd
      R.PRT_PORT_CNT_count [p, 4] = min (2 ^ 48 - 1) (s.rd R.PRT_PORT_CNT_count [p, 4] + 1) ∧ RegsBut [] s t ∧ PartsBut
      [.ports] s t)) ∧
    (∀ p, s.isActive p = true → (s.port p).replay ≠ [] → 64 * s.rd R.PRT_PORT_CFG_replay_timeout [p] ≤ s.now - (s.port
      p).progressAt → (s.port p).replays < s.rd R.PRT_PORT_CFG_retry_limit [p] → Gives (.replayTimeout p) s (fun t =>
      (t.port p).resend = (s.port p).replay.length ∧ (t.port p).replay = (s.port p).replay ∧ (t.port p).replays = (s.port
      p).replays + 1 ∧ RegsBut [] s t ∧ PartsBut [.ports] s t)) ∧
    (∀ p, s.isActive p = true → (s.port p).replay ≠ [] → 64 * s.rd R.PRT_PORT_CFG_replay_timeout [p] ≤ s.now - (s.port
      p).progressAt → s.rd R.PRT_PORT_CFG_retry_limit [p] ≤ (s.port p).replays → Gives (.replayTimeout p) s (fun t => t.pst
      p = Ps.retrain ∧ Out.lctl p .retrainReq ∈ t.out ∧ RegsBut [R.PRT_PORT_STATUS_state] s t ∧ PartsBut [.ports, .out,
      .hif] s t)) ∧
    (∀ p, s.isActive p = true → Gives (.creditReport p) s (fun t => (∀ vc ∈ vcs, (s.port p).advertised.get 0 [vc] ≠ 0 →
      Out.flit p { kind := 0, ackValid := true, ackSeq := (s.port p).expected, creditVc := vc, creditValid := true, creditTotal := (s.port p).freed.get 0 [vc] }
      ∈ t.out) ∧ RegsBut [] s t ∧ PartsBut [.ports, .out] s t)) ∧
    (∀ p vc t₀, (s.port p).zeroSince.get? [vc] = some t₀ → s.isUp p = true → 10000000 ≤ s.now - t₀ → Gives (.creditStall p
      vc) s (fun t => bitAt (t.rd R.PRT_EVT_events []) 5 = true ∧ RegsBut [] s t ∧ PartsBut reporting s t))

/-- R73: admit on an ACTIVE port names its allowances and repeats them for 64 µs; its clearing retrains the port. R80, R477:
a retrain sends RETRAIN_REQ and enters RETRAIN, a RETRAIN_REQ received enters it. R83, R84: a lane retraining asks for the
largest group without the lane four superframes ahead, an agreed change waits for its superframe and then sets the width.
R85: loss of signal before the port is up takes it back to DETECT, loss on some lanes marks them bad and retrains the port
where no group is left to agree on. -/
def Obligations.LinkLanes : Prop :=
  ∀ s : State, Serves s →
    (∀ p, s.isActive p = true → Gives (.portAdmit p) s (fun t => t.rd R.PRT_PORT_CTL_admit [p] = 1 ∧ (t.port p).repeatUntil
      = s.now + 64000 ∧ (∃ l, t.out = s.out ++ [.lctl p (.initCredit l)]) ∧ RegsBut [R.PRT_PORT_CTL_admit] s t ∧ PartsBut
      [.ports, .out] s t)) ∧
    (∀ p, s.isActive p = true → Gives (.portAdmitClear p) s (fun t => t.rd R.PRT_PORT_CTL_admit [p] = 0 ∧ t.pst p =
      Ps.retrain ∧ Out.lctl p .retrainReq ∈ t.out ∧ RegsBut [R.PRT_PORT_CTL_admit, R.PRT_PORT_STATUS_state] s t ∧ PartsBut
      [.ports, .out, .hif] s t)) ∧
    (∀ p, s.isActive p = true → Gives (.retrain p) s (fun t => t.pst p = Ps.retrain ∧ t.stepOf p = Ps.lock ∧ (t.port
      p).replay = (s.port p).replay ∧ Out.lctl p .retrainReq ∈ t.out ∧ RegsBut [R.PRT_PORT_STATUS_state] s t ∧ PartsBut
      [.ports, .out, .hif] s t)) ∧
    (∀ p, s.isActive p = true → Gives (.retrainReq p) s (fun t => t.pst p = Ps.retrain ∧ t.stepOf p = Ps.lock ∧ RegsBut
      [R.PRT_PORT_STATUS_state] s t ∧ PartsBut [.ports, .out, .hif] s t)) ∧
    (∀ p lane mask w, s.isActive p = true → (s.port p).lane = none → 1 < s.activeWidth p → bestGroup (((s.port p).lanes ^^^
      2 ^ lane) &&& (s.port p).lanes) (s.cfgWidth p) 15 = some (mask, w) → Gives (.laneRetrain p lane) s (fun t => (t.port
      p).lane = some lane ∧ (t.port p).widthReq = some (s.superframe p + 4, mask) ∧ t.out = s.out ++ [.lctl p (.widthChange
      (s.superframe p + 4) mask true)] ∧ RegsBut [] s t ∧ PartsBut [.ports, .out] s t)) ∧
    (∀ p lane mask w, s.rd R.PRT_LANE_CFG_ser_limit [s.rd R.PRT_PORT_CFG_first_lane [p] + lane] ≠ 0 → s.isActive p = true →
      (s.port p).lane = none → 1 < s.activeWidth p → bestGroup (((s.port p).lanes ^^^ 2 ^ lane) &&& (s.port p).lanes)
      (s.cfgWidth p) 15 = some (mask, w) → Gives (.laneSerExceeded p lane) s (fun t => (t.port p).lane = some lane ∧ (t.port
      p).widthReq = some (s.superframe p + 4, mask) ∧ t.out = s.out ++ [.lctl p (.widthChange (s.superframe p + 4) mask
      true)] ∧ RegsBut [] s t ∧ PartsBut [.ports, .out] s t)) ∧
    (∀ p sf mask, s.isActive p = true → (s.port p).widthReq.isSome = true → Gives (.widthChange p sf mask false) s (fun t =>
      (t.port p).widthAt = some (sf, mask) ∧ (t.port p).widthReq = none ∧ RegsBut [] s t ∧ PartsBut [.ports] s t)) ∧
    (∀ p sf mask, s.isActive p = true → (s.port p).widthReq = none → legalMask mask (s.cfgWidth p) = true → mask &&& (s.rd
      R.PRT_PORT_STATUS_good_lanes [p] &&& s.ownGood p) = mask → s.superframe p ≤ sf → Gives (.widthChange p sf mask true) s
      (fun t => (t.port p).widthAt = some (sf, mask) ∧ t.out = s.out ++ [.lctl p (.widthChange sf mask false)] ∧ RegsBut []
      s t ∧ PartsBut [.ports, .out] s t)) ∧
    (∀ p sf mask, (s.port p).widthAt = some (sf, mask) → Gives (.stripingChange p) s (fun t => t.rd
      R.PRT_PORT_STATUS_width_active [p] = Nat.log2 (popcount 8 mask) % 4 ∧ (t.port p).widthAt = none ∧ bitAt (t.rd
      R.PRT_EVT_events []) 2 = true ∧ RegsBut [R.PRT_PORT_STATUS_width_active, R.PRT_PORT_STATUS_degraded,
      R.GLB_DEGRADED_degraded] s t ∧ PartsBut [.ports, .out, .hif, .sw, .ras, .answers] s t)) ∧
    (∀ p, (s.pst p = Ps.equalise ∨ s.pst p = Ps.lock ∨ s.pst p = Ps.config) → Gives (.signalLoss p) s (fun t => t.pst p =
      Ps.detect ∧ (t.port p).replay = [] ∧ RegsBut [R.PRT_PORT_STATUS_state] s t ∧ PartsBut [.ports] s t)) ∧
    (∀ p mask, s.isActive p = true → Gives (.laneSignalLoss p mask false) s (fun t => (t.port p).badLanes = (s.port
      p).badLanes ||| mask ∧ t.pst p = Ps.retrain ∧ RegsBut [R.PRT_PORT_STATUS_state] s t ∧ PartsBut [.ports, .out, .hif] s
      t))

/-! ### The switch core (04) -/

/-- R26, R95: a response for this part that comes in on a port without a requester behind it is put at the input of its
die's agents; one for another destination goes to the queue of the port its group names. R90, R75: the chosen virtual
channel's first message sends its next flit under the next sequence number; R77: flits to be replayed go first, as they
were. -/
def Obligations.SwitchPath : Prop :=
  ∀ s : State, Serves s →
    (∀ p (m : Msg), s.isActive p = true → s.isEdge p = false → vcOk m.vc = true → m.chan = Ch.rsp → m.chan = chanOf m.ty →
      knownTypes.contains m.ty = true → isMemory m.ty = false → m.ordered = false → m.compressed = false → m.dst = s.eid →
      m.dst < 0xF000 → Gives (.messageArrival p m) s (fun t => (∃ q, t.sw.agentIn.get [] [m.die, m.chan] = s.sw.agentIn.get
      [] [m.die, m.chan] ++ [q] ∧ q.msg = m ∧ q.inPort = some p) ∧ RegsBut [] s t ∧ PartsBut [.fresh, .out, .ports, .sw,
      .sram, .hif] s t)) ∧
    (∀ p (m : Msg) g o i, s.isActive p = true → s.isEdge p = false → vcOk m.vc = true → m.chan = Ch.rsp → isMemory m.ty =
      false → isAnswer m.ty = false → m.ordered = false → m.compressed = false → m.dst ≠ s.eid → m.dst < 0xF000 →
      s.sw.current.routeOf m.dst = .group g → s.chooseHop s.sw.current g m = some (o, i) → o < 256 → Gives (.messageArrival
      p m) s (fun t => (∃ q ∈ t.sw.queues.get [] [o, m.vc], q.msg = m ∧ q.inPort = some p ∧ q.id = s.sw.nextId) ∧ RegsBut []
      s t ∧ PartsBut [.fresh, .out, .ports, .sw, .sram, .hif] s t)) ∧
    (∀ p (m : Msg), s.isActive p = true → vcOk m.vc = true → m.dst = 0xFFFF → Gives (.messageArrival p m) s (fun t => bitAt
      (t.rd R.PRT_EVT_events []) 4 = true ∧ bitAt (t.rd R.SWC_EVT_events []) 2 = true ∧ t.sw.queues = s.sw.queues ∧
      t.sw.agentIn = s.sw.agentIn ∧ RegsBut [] s t ∧ PartsBut [.out, .ports, .sw, .hif] s t)) ∧
    (∀ p (f : Flit), s.isActive p = true → (s.port p).resend ≠ 0 → (s.port p).replay[(s.port p).replay.length - (s.port
      p).resend]? = some f → Gives (.egressSchedule p) s (fun t => (∃ g, t.out = s.out ++ [.flit p g] ∧ g.seq = f.seq ∧
      g.kind = f.kind ∧ g.payload = f.payload) ∧ (t.port p).resend = (s.port p).resend - 1 ∧ (t.port p).replay = (s.port
      p).replay ∧ RegsBut [] s t ∧ PartsBut [.out, .ports] s t)) ∧
    (∀ p vc (q : QMsg), s.isActive p = true → (s.port p).resend = 0 → (s.port p).replay.length < 2047 → (s.pickVc p).map
      (·.1) = some vc → s.headOf p vc = some q → q.failed = 0 → q.wire = none → q.marked = false → s.sw.waiting.get [] [0] =
      [] → s.sw.waiting.get [] [1] = [] → Gives (.egressSchedule p) s (fun t => (∃ g, Out.flit p g ∈ t.out ∧ g.kind = (if
      q.sent = 0 then 1 else 2) ∧ g.seq = (s.port p).nextSeq ∧ g.chan = q.msg.chan ∧ g.tc = q.msg.tc ∧ g.payload = bitsOf
      q.msg.bits (1920 * q.sent) 1920 ∧ g.last = decide (q.sent + 1 = q.msg.flits)) ∧ (t.port p).nextSeq = ((s.port
      p).nextSeq + 1) % 4096 ∧ RegsBut [] s t ∧ PartsBut [.fresh, .out, .ports, .sw, .sram, .hif] s t))

/-- R103: a hole held for the resequencer's timeout is skipped, its held run leaves, and the gap is reported. R93: a message
that began to leave and whose next cell is late is failed. R109: a mirror copy without credit for too long is dropped and
counted. R104: a flow reset delivers what is held and clears the context. -/
def Obligations.SwitchLimits : Prop :=
  ∀ s : State, Serves s →
    (∀ o fl (q : QMsg) (l : List QMsg), (s.sw.flows.get {} [o, fl]).held = q :: l → 128 * s.rd R.SWC_RESEQ_CFG_timeout [] ≤
      s.now - (s.sw.flows.get {} [o, fl]).since → Gives (.reseqTimeout o fl) s (fun t => (t.sw.flows.get {} [o,
      fl]).expected = (takeRun (q :: l) q.msg.flowSeq).2.2 ∧ (t.sw.flows.get {} [o, fl]).held = (takeRun (q :: l)
      q.msg.flowSeq).2.1 ∧ bitAt (t.rd R.SWC_EVT_events []) 3 = true ∧ RegsBut [] s t ∧ PartsBut [.out, .sw, .hif] s t)) ∧
    (∀ p vc (q : QMsg), s.headOf p vc = some q → q.msg.vc = vc → q.sent ≠ 0 → q.failed = 0 → q.have_ < q.total → q.have_ ≤
      q.sent → s.ctStall ≤ s.now - q.time → Gives (.cutThroughStall p vc) s (fun t => (∃ r ∈ t.sw.queues.get [] [p, vc],
      r.id = q.id ∧ r.failed = 1 ∧ r.msg = q.msg) ∧ RegsBut [] s t ∧ PartsBut [.sw] s t)) ∧
    (∀ p vc (q : QMsg), vc ∈ vcs → s.sw.queues.get [] [p, vc] = [q] → q.msg.vc = vc → q.copy = true → q.sent = 0 → (s.port
      p).credit.get 0 [vc] ≤ 0 → max q.time ((s.port p).zeroSince.get 0 [vc]) + s.ctStall < s.now → (∀ v ∈ vcs, v ≠ vc →
      s.sw.queues.get [] [p, v] = []) → Gives (.mirrorCopyStall p) s (fun t => t.sw.queues.get [] [p, vc] = [] ∧ t.rd
      R.SWC_PORT_CNT_count [p, 6] = min (2 ^ 48 - 1) (s.rd R.SWC_PORT_CNT_count [p, 6] + 1) ∧ RegsBut [] s t ∧ PartsBut
      [.ports, .sw] s t)) ∧
    (∀ v, bitAt v 20 = false → Gives (.flowReset v) s (fun t => t.sw.flows.get {} [bitsOf v 12 8, bitsOf v 0 12] = {} ∧
      RegsBut [] s t ∧ PartsBut [.sw] s t))

/-- R99: while no switch is pending and the staged tables are not marked valid, a staged route, group or multicast set is
written, and the command answered OK; the stage is marked valid only for the generation after the current one; a switch is
scheduled at its beat, and at the beat the staged tables become current, the current ones previous, and the generation
advances by 1 modulo 256, or, without a valid stage, the switch fails with RETRY. -/
def Obligations.MapGenerations : Prop :=
  ∀ s : State, Applies s B.swc →
    (∀ e entry, e < 65536 → entry < 4096 → bitsOf entry 0 2 ≠ 3 → s.stageOpen = true → Gives (.routeStage e entry) s (fun t
      => t.rd R.SWC_ROUTE_STAGE_entry [e] = entry ∧ t.answers = s.answers ++ [(0x0401, .ok)] ∧ (∀ x, x ≠ e → t.rd
      R.SWC_ROUTE_STAGE_entry [x] = s.rd R.SWC_ROUTE_STAGE_entry [x]) ∧ RegsBut [R.SWC_ROUTE_STAGE_entry] s t ∧ PartsBut
      [.answers] s t)) ∧
    (∀ g v, g < 1024 → v < 2 ^ 68 → bitsOf v 64 4 ≤ 8 → (bitsOf v 64 4 ≠ 0 ∨ v = 0) → s.stageOpen = true → Gives
      (.groupStage g v) s (fun t => t.rd R.SWC_GROUP_STAGE_group [g] = v ∧ t.answers = s.answers ++ [(0x0402, .ok)] ∧
      RegsBut [R.SWC_GROUP_STAGE_group] s t ∧ PartsBut [.answers] s t)) ∧
    (∀ m ports agents, m < 4095 → agents ≤ 3 → ports < 2 ^ 256 → s.stageOpen = true → Gives (.mcastStage m ports agents) s
      (fun t => t.rd R.SWC_MCAST_STAGE_ports [m] = ports ∧ t.rd R.SWC_MCAST_STAGE_west_agent [m] = bitsOf agents 0 1 ∧ t.rd
      R.SWC_MCAST_STAGE_east_agent [m] = bitsOf agents 1 1 ∧ t.answers = s.answers ++ [(0x0403, .ok)] ∧ RegsBut
      [R.SWC_MCAST_STAGE_ports, R.SWC_MCAST_STAGE_west_agent, R.SWC_MCAST_STAGE_east_agent] s t ∧ PartsBut [.answers] s t)) ∧
    (∀ v, v < 512 → s.stageOpen = true → bitAt v 8 = true → bitsOf v 0 8 = (s.mapGen + 1) % 256 → Gives (.stageSet v) s (fun
      t => t.rd R.SWC_MAP_STAGE_gen [] = bitsOf v 0 8 ∧ t.rd R.SWC_MAP_STAGE_valid [] = 1 ∧ t.answers = s.answers ++
      [(0x0404, .ok)] ∧ RegsBut [R.SWC_MAP_STAGE_gen, R.SWC_MAP_STAGE_valid] s t ∧ PartsBut [.answers] s t)) ∧
    (∀ beat, s.timeless = false → s.rd R.SWC_MAP_STATUS_switch_pending [] = 0 → Gives (.mapSwitch beat) s (fun t => t.rd
      R.SWC_MAP_STATUS_switch_pending [] = 1 ∧ t.rd R.SWC_MAP_STATUS_pending_beat [] = launchBeat beat s.beat ∧ t.answers =
      s.answers ++ [(0x0405, .ok)] ∧ RegsBut [R.SWC_MAP_STATUS_switch_pending, R.SWC_MAP_STATUS_pending_beat,
      R.SWC_MAP_STATUS_result] s t ∧ PartsBut [.answers, .out, .hif] s t)) ∧
    (s.rd R.SWC_MAP_STATUS_switch_pending [] ≠ 0 → ahead (s.rd R.SWC_MAP_STATUS_pending_beat []) s.beat = false → s.rd
      R.SWC_MAP_STAGE_valid [] ≠ 0 → Gives (.mapGenerationSwitch) s (fun t => t.rd R.SWC_MAP_STATUS_current_gen [] =
      (s.mapGen + 1) % 256 ∧ t.sw.previous = s.sw.current ∧ (∀ e, t.sw.current.route.get 0 [e] = s.rd
      R.SWC_ROUTE_STAGE_entry [e]) ∧ t.rd R.SWC_MAP_STAGE_valid [] = 0 ∧ t.rd R.SWC_MAP_STATUS_switch_pending [] = 0 ∧
      RegsBut [R.SWC_MAP_STATUS_current_gen, R.SWC_MAP_STATUS_switch_pending, R.SWC_MAP_STATUS_result,
      R.SWC_MAP_STAGE_valid, R.SWC_MAP_STAGE_gen] s t ∧ PartsBut [.sw, .out, .hif] s t)) ∧
    (s.rd R.SWC_MAP_STATUS_switch_pending [] ≠ 0 → ahead (s.rd R.SWC_MAP_STATUS_pending_beat []) s.beat = false → s.rd
      R.SWC_MAP_STAGE_valid [] = 0 → Gives (.mapGenerationSwitch) s (fun t => t.rd R.SWC_MAP_STATUS_result [] =
      Status.retry.code ∧ t.mapGen = s.mapGen ∧ t.rd R.SWC_MAP_STATUS_switch_pending [] = 0 ∧ bitAt (t.rd R.SWC_EVT_events
      []) 1 = true ∧ RegsBut [R.SWC_MAP_STATUS_switch_pending, R.SWC_MAP_STATUS_result] s t ∧ PartsBut [.out, .hif] s t))

/-! ### Tracker and homes (05) -/

/-- R117, R119, R120: a read of a HELD extent that nothing at its home holds back is completed with status OK, the home's
load and the bytes of memory at its address, and leaves memory as it was; its home entry retires. R134, R135: a read that
may combine and has no entry to join opens one; at the end of its window an entry of one member is performed as that member.
R138: the load a home reports is the greater occupancy in sixteenths. -/
def Obligations.HomeReads : Prop :=
  ∀ s : State, Serves s →
    (∀ d (m : Msg), m.ty = 0x10 → AtHome s d m → Alone s d m → s.bindOf (extentOf m.addr) = none → Gives (.rd d m) s (fun t
      => Answers d m .ok (s.loadOf d) (some (natOfBytes (s.readBytes (offsetOf m.addr) m.rlen))) s t ∧ t.mem = s.mem ∧
      t.trk.home.has [d, s.trk.nextHome] = false ∧ RegsBut [R.MEM_PC_STATUS_powered_down] s t ∧ PartsBut [.out, .hif, .sw,
      .ports, .ras, .answers, .trk, .pool, .tier] s t)) ∧
    (∀ d (m : Msg), m.ty = 0x11 → AtHome s d m → Alone s d m → s.bindOf (extentOf m.addr) = none → Gives (.rdm d m) s (fun t
      => Answers d m .ok (s.loadOf d) (some (natOfBytes (s.readBytes (offsetOf m.addr) m.rlen))) s t ∧ t.mem = s.mem ∧
      t.trk.home.has [d, s.trk.nextHome] = false ∧ RegsBut [R.MEM_PC_STATUS_powered_down] s t ∧ PartsBut [.out, .hif, .sw,
      .ports, .ras, .answers, .trk, .pool, .tier] s t)) ∧
    (∀ d (m : Msg), m.ty = 0x10 → s.homeDie m.addr = d → s.homeRoom d 1 = true → s.openComb d m = [] → s.combinable d m =
      true → s.trk.comb.count (fun k _ => decide (k.head? = some d)) < 65536 → Gives (.rd d m) s (fun t => t.trk.comb.get?
      [d, s.trk.nextComb] = some { members := [m], since := s.now } ∧ t.mem = s.mem ∧ RegsBut [] s t ∧ PartsBut [.out, .hif,
      .sw, .ports, .ras, .answers, .trk] s t)) ∧
    (∀ d i (m : Msg) since, s.trk.comb.get? [d, i] = some { members := [m], since := since } → 8 * s.rd
      R.TRK_COMB_CFG_window [d] ≤ s.now - since → s.homeRoom d 1 = true → m.ty = 0x10 → AtHome s d m → s.bindOf (extentOf
      m.addr) = none → Gives (.combWindowExpiry d i) s (fun t => Answers d m .ok (s.loadOf d) (some (natOfBytes (s.readBytes
      (offsetOf m.addr) m.rlen))) s t ∧ t.trk.comb.has [d, i] = false ∧ t.mem = s.mem ∧ RegsBut
      [R.MEM_PC_STATUS_powered_down] s t ∧ PartsBut [.out, .hif, .sw, .ports, .ras, .answers, .trk, .pool, .tier] s t)) ∧
    (∀ d hf sf, Gives (.loadCompute d hf sf) s (fun t => t.rd R.TRK_LOAD_load [d] = min 15 (16 * max hf sf / 65536) ∧
      RegsBut [R.TRK_LOAD_load] s t ∧ PartsBut [] s t))

/-- R120, R122: a write of a HELD extent that nothing at its home holds back stores its bytes at its address and no other
byte, a masked write those its mask names; R118, R119: an atomic stores the operation's result and answers the old value
where it fetches; R184: a publication whose expected version is the one in memory stores the new descriptor in its line, and
one whose version differs is answered PUBLISH_CONFLICT and stores nothing. Each is completed with the home's load. -/
def Obligations.HomeWrites : Prop :=
  ∀ s : State, Serves s →
    (∀ d (m : Msg), m.ty = 0x12 → AtHome s d m → Alone s d m → s.bindOf (extentOf m.addr) = none → Memory.wf s.mem = true →
      Gives (.wr d m) s (fun t => Answers d m .ok (s.loadOf d) none s t ∧ (∀ a, Mem.read t.mem a = if offsetOf m.addr ≤ a ∧
      a < offsetOf m.addr + m.rlen then (m.bytes 16 m.rlen).getD (a - offsetOf m.addr) 0 else Mem.read s.mem a) ∧ RegsBut
      [R.MEM_PC_STATUS_powered_down] s t ∧ PartsBut [.out, .hif, .sw, .ports, .ras, .answers, .trk, .pool, .tier, .mem,
      .poison] s t)) ∧
    (∀ d (m : Msg), m.ty = 0x13 → AtHome s d m → Alone s d m → s.bindOf (extentOf m.addr) = none → Memory.wf s.mem = true →
      Gives (.wrMask d m) s (fun t => Answers d m .ok (s.loadOf d) none s t ∧ (∀ a, Mem.read t.mem a = if offsetOf m.addr ≤
      a ∧ a < offsetOf m.addr + 128 ∧ bitAt (m.f 16 0 128) (a - offsetOf m.addr) = true then (m.bytes 32 128).getD (a -
      offsetOf m.addr) 0 else Mem.read s.mem a) ∧ RegsBut [R.MEM_PC_STATUS_powered_down] s t ∧ PartsBut [.out, .hif, .sw,
      .ports, .ras, .answers, .trk, .pool, .tier, .mem, .poison] s t)) ∧
    (∀ d (m : Msg), m.ty = 0x14 → AtHome s d m → Alone s d m → s.bindOf (extentOf m.addr) = none → Memory.wf s.mem = true →
      Gives (.atom d m) s (fun t => Answers d m .ok (s.loadOf d) (if m.fetch then some (natOfBytes (Mem.readN s.mem
      (offsetOf m.addr) m.rlen)) else none) s t ∧ (∀ a, Mem.read t.mem a = if offsetOf m.addr ≤ a ∧ a < offsetOf m.addr +
      m.rlen then (bytesOfNat m.rlen (atomicResult m.aop m.rlen (natOfBytes (Mem.readN s.mem (offsetOf m.addr) m.rlen))
      m.opA m.opB)).getD (a - offsetOf m.addr) 0 else Mem.read s.mem a) ∧ RegsBut [R.MEM_PC_STATUS_powered_down] s t ∧
      PartsBut [.out, .hif, .sw, .ports, .ras, .answers, .trk, .pool, .tier, .mem] s t)) ∧
    (∀ d (m : Msg), m.ty = 0x62 → AtHome s d m → Alone s d m → s.bindOf (extentOf m.addr) = none → Memory.wf s.mem = true →
      natOfBytes (Mem.readN s.mem (offsetOf m.addr) 4) = m.f 12 0 32 → Gives (.publish d m) s (fun t => Answers d m .ok
      (s.loadOf d) (some (publishAck (m.f 16 0 32) 0)) s t ∧ Mem.readN t.mem (offsetOf m.addr) 128 = bytesOfNat 128 (layout
      [(0, 0, 32, m.f 16 0 32), (4, 0, 16, m.src), (8, 0, 56, m.f 24 0 56), (16, 0, 32, m.f 20 0 32), (20, 0, 32, s.beatDie
      d), (24, 0, 64, m.f 32 0 64)]) ∧ (∀ a, a < offsetOf m.addr ∨ offsetOf m.addr + 128 ≤ a → Mem.read t.mem a = Mem.read
      s.mem a) ∧ RegsBut [R.MEM_PC_STATUS_powered_down] s t ∧ PartsBut [.out, .hif, .sw, .ports, .ras, .answers, .trk,
      .pool, .tier, .mem] s t)) ∧
    (∀ d (m : Msg), m.ty = 0x62 → AtHome s d m → Alone s d m → s.bindOf (extentOf m.addr) = none → natOfBytes (Mem.readN
      s.mem (offsetOf m.addr) 4) ≠ m.f 12 0 32 → Gives (.publish d m) s (fun t => Answers d m .publishConflict (s.loadOf d)
      (some (publishAck (natOfBytes (Mem.readN s.mem (offsetOf m.addr) 4)) (natOfBytes (Mem.readN s.mem (offsetOf m.addr +
      4) 2)))) s t ∧ t.mem = s.mem ∧ RegsBut [R.MEM_PC_STATUS_powered_down] s t ∧ PartsBut [.out, .hif, .sw, .ports, .ras,
      .answers, .trk, .pool, .tier] s t))

/-- R107, R128: a request held at issue is issued under a free entry once there is room; R131: a reissue due after a RETRY
sends the same request and counts it; R129, R130: an answer with status OK retires its entry and does what its agent asked
for, the bytes of a read reaching local memory, the increment of a write its counter, the old value of an atomic its
register; an entry without an answer in time retires with TIMEOUT, a forwarded one is completed with NODE_LOST. R126, R127:
a valid window entry of a port table is written. -/
def Obligations.OwnRequests : Prop :=
  ∀ s : State, Serves s →
    (∀ d (h : Held), s.sw.held.get [] [d] = [h] → s.canIssue d h.msg.dst = true → Gives (.issueResume d) s (fun t =>
      t.sw.held.get [] [d] = [] ∧ (∃ i e, s.freeEntry d = some i ∧ t.trk.issued.get? [d, i] = some e ∧ e.issuer = h.issuer ∧
      e.purpose = h.purpose ∧ e.since = s.now) ∧ t.mem = s.mem)) ∧
    (∀ d i b (e : Issued), s.trk.issued.get? [d, i] = some e → e.retryAt = some b → b + 1024 ≤ s.now → Gives (.reissue d i)
      s (fun t => (∃ x, t.trk.issued.get? [d, i] = some x ∧ x.reissues = e.reissues + 1 ∧ x.retryAt = none ∧ x.msg = e.msg ∧
      x.gen = e.gen) ∧ t.mem = s.mem)) ∧
    (∀ d (m : Msg) die i n a len (e : Issued), m.ty = 0x30 → s.entryOf m.rtag = some (die, i, e) → e.purpose = .load n a len
      none → Status.ofCode m.status = .ok → 16 < m.len → (s.core n).mixed = [] → (s.core n).wait = none → Gives (.rdData d
      m) s (fun t => t.trk.issued.has [die, i] = false ∧ t.trk.retired.get? [die, i] = some s.now ∧ t.spm = (s.poke n a (min
      len (m.len - 16)) (bitsOf m.body 128 (8 * (m.len - 16)))).spm ∧ t.csram = (s.poke n a (min len (m.len - 16)) (bitsOf
      m.body 128 (8 * (m.len - 16)))).csram ∧ RegsBut [] s t ∧ PartsBut [.out, .hif, .sw, .ports, .ras, .answers, .trk,
      .spm, .csram] s t)) ∧
    (∀ d (m : Msg) die i n a (e : Issued), m.ty = 0x31 → s.entryOf m.rtag = some (die, i, e) → e.purpose = .load n a
      e.msg.rlen none → e.got = [] → e.data = 0 → e.status = .ok → Status.ofCode m.status = .ok → m.roff = 0 → m.len = 16 +
      e.msg.rlen → 0 < e.msg.rlen → (s.core n).mixed = [] → (s.core n).wait = none → Gives (.rdmData d m) s (fun t =>
      t.trk.issued.has [die, i] = false ∧ t.spm = (s.poke n a e.msg.rlen (bitsOf m.body 128 (8 * e.msg.rlen))).spm ∧ t.csram
      = (s.poke n a e.msg.rlen (bitsOf m.body 128 (8 * e.msg.rlen))).csram ∧ RegsBut [] s t ∧ PartsBut [.out, .hif, .sw,
      .ports, .ras, .answers, .trk, .spm, .csram] s t)) ∧
    (∀ d (m : Msg) die i n cn (e : Issued), m.ty = 0x32 → s.entryOf m.rtag = some (die, i, e) → e.purpose = .store n (some
      cn) → Status.ofCode m.status = .ok → (s.core n).wait = none → Gives (.wrAck d m) s (fun t => t.trk.issued.has [die, i]
      = false ∧ (t.core n).counter cn = ((((s.core n).counter cn).1 + 1) % 2 ^ 32, Status.join ((s.core n).counter cn).2
      .ok) ∧ RegsBut [] s t ∧ PartsBut [.out, .hif, .sw, .ports, .ras, .answers, .trk, .cores] s t)) ∧
    (∀ d (m : Msg) die i n sd len (e : Issued), m.ty = 0x33 → s.entryOf m.rtag = some (die, i, e) → e.purpose = .atomic n
      none (some sd) len none → Status.ofCode m.status = .ok → 16 < m.len → sd ≠ 0 → (s.core n).owed.contains sd = true →
      (s.core n).wait = none → Gives (.atomRsp d m) s (fun t => t.trk.issued.has [die, i] = false ∧ (t.core n).sr sd =
      bitsOf m.body 128 (8 * (m.len - 16)) % 2 ^ 64 ∧ (t.core n).owed.contains sd = false ∧ RegsBut [] s t ∧ PartsBut [.out,
      .hif, .sw, .ports, .ras, .answers, .trk, .cores] s t)) ∧
    (∀ d (m : Msg) die i n (e : Issued), m.ty = 0x98 → s.entryOf m.rtag = some (die, i, e) → e.purpose = .contribution n
      none → Status.ofCode m.status = .ok → (s.core n).wait = none → Gives (.clAck d m) s (fun t => t.trk.issued.has [die,
      i] = false ∧ RegsBut [] s t ∧ PartsBut [.out, .hif, .sw, .ports, .ras, .answers, .trk] s t)) ∧
    (∀ d i (e : Issued), s.trk.issued.get? [d, i] = some e → 1000 * s.rd R.TRK_TIMEOUT_issued [] ≤ s.now - e.since →
      e.purpose = .plain → Gives (.issuedTimeout d i) s (fun t => t.trk.issued.has [d, i] = false ∧ t.rd R.TRK_EVT_timeout
      [] = 1 ∧ t.rd R.TRK_CNT_count [d, 3] = min (2 ^ 48 - 1) (s.rd R.TRK_CNT_count [d, 3] + 1) ∧ RegsBut [] s t ∧ PartsBut
      [.out, .hif, .sw, .trk] s t)) ∧
    (∀ d i (f : Fwd), s.trk.fwd.get? [d, i] = some f → 1000 * s.rd R.TRK_TIMEOUT_fwd [] ≤ s.now - f.since → f.members = [] →
      s.trk.fwdWait.get [] [d] = [] → Gives (.fwdTimeout d i) s (fun t => t.trk.fwd.has [d, i] = false ∧ t.mem = s.mem ∧
      RegsBut [] s t ∧ PartsBut [.out, .hif, .sw, .ports, .ras, .answers, .trk] s t))

/-- R126, R127: a valid entry of a port's table whose range is not empty and whose reserved bits are 0 replaces the entry
named and is answered OK; an entry of 0 invalidates it; a valid entry whose last extent precedes its first is refused with
UNSUPPORTED, a programming error, and the table stays. -/
def Obligations.EdgeWindows : Prop :=
  ∀ s : State, Applies s B.edg →
    (∀ sel entry, sel < 2 ^ 28 → bitsOf sel 9 7 = 0 → bitAt sel 8 = false → entry < 2 ^ 72 → Win.valid_ entry = true →
      Win.first entry ≤ Win.last entry → bitsOf entry 6 2 = 0 → bitsOf entry 56 8 = 0 → Gives (.winWrite sel entry) s (fun t
      => t.edgeWin.get? [selOf sel, bitsOf sel 16 12] = some entry ∧ (∀ k, k ≠ [selOf sel, bitsOf sel 16 12] →
      t.edgeWin.get? k = s.edgeWin.get? k) ∧ t.answers = s.answers ++ [(0x0201, .ok)] ∧ RegsBut [] s t ∧ PartsBut [.edgeWin,
      .answers] s t)) ∧
    (∀ sel, sel < 2 ^ 28 → bitsOf sel 9 7 = 0 → Gives (.winWrite sel 0) s (fun t => t.edgeWin.get? [selOf sel, bitsOf sel 16
      12] = none ∧ t.answers = s.answers ++ [(0x0201, .ok)] ∧ RegsBut [] s t ∧ PartsBut [.edgeWin, .answers] s t)) ∧
    (∀ sel entry, sel < 2 ^ 28 → bitsOf sel 9 7 = 0 → Win.valid_ entry = true → Win.last entry < Win.first entry → Gives
      (.winWrite sel entry) s (fun t => t.edgeWin = s.edgeWin ∧ t.answers = s.answers ++ [(0x0201, .unsupported)] ∧ bitAt
      (t.rd R.RAS_EVT_events []) 3 = true ∧ RegsBut [] s t ∧ PartsBut [.answers, .out, .hif] s t))

/-! ### Coherence (06) -/

/-- R150: FWD_S and SNP_CLEAN leave an owned line shared, FWD_X and SNP_INV leave the cluster without it; R151: a snoop of a
line whose request awaits data is held; data of a CRD_S puts the line in the granted state with the data that came, a
refusal leaves the cluster without the line, and CGNT_X makes it modified; the request is no longer outstanding. Nothing but
the cluster's own lines and messages changes. -/
def Obligations.CachingClusters : Prop :=
  ∀ s : State, Serves s →
    (∀ c (m : Msg) (l : CLine), m.ty = 0x48 → s.coh.want.get? [c, lineAt m] = none → s.coh.lines.get? [c, lineAt m] = some l
      → 2 ≤ l.st → Gives (.fwdS c m) s (fun t => t.coh.lines.get? [c, lineAt m] = some { l with st := 1 } ∧ RegsBut [] s t ∧
      PartsBut [.out, .hif, .sw, .ports, .ras, .answers, .coh] s t)) ∧
    (∀ c (m : Msg) (l : CLine), m.ty = 0x49 → s.coh.want.get? [c, lineAt m] = none → s.coh.lines.get? [c, lineAt m] = some l
      → 2 ≤ l.st → Gives (.fwdX c m) s (fun t => t.coh.lines.get? [c, lineAt m] = none ∧ RegsBut [] s t ∧ PartsBut [.out,
      .hif, .sw, .ports, .ras, .answers, .coh] s t)) ∧
    (∀ c (m : Msg) (l : CLine), m.ty = 0x4A → s.coh.want.get? [c, lineAt m] = none → s.coh.lines.get? [c, lineAt m] = some l
      → Gives (.snpInv c m) s (fun t => t.coh.lines.get? [c, lineAt m] = none ∧ RegsBut [] s t ∧ PartsBut [.out, .hif, .sw,
      .ports, .ras, .answers, .coh] s t)) ∧
    (∀ c (m : Msg) (w : Want), m.ty = 0x4A → s.coh.want.get? [c, lineAt m] = some w → Gives (.snpInv c m) s (fun t =>
      t.coh.want.get? [c, lineAt m] = some { w with held := w.held ++ [m] } ∧ t.coh.lines = s.coh.lines ∧ RegsBut [] s t ∧
      PartsBut [.out, .hif, .sw, .ports, .ras, .answers, .coh] s t)) ∧
    (∀ c (m : Msg) (l : CLine), m.ty = 0x4B → s.coh.want.get? [c, lineAt m] = none → s.coh.lines.get? [c, lineAt m] = some l
      → 2 ≤ l.st → Gives (.snpClean c m) s (fun t => t.coh.lines.get? [c, lineAt m] = some { l with st := 1 } ∧ RegsBut [] s
      t ∧ PartsBut [.out, .hif, .sw, .ports, .ras, .answers, .coh] s t)) ∧
    (∀ c (m : Msg) line (w : Want), m.ty = 0x50 → s.wantOf c (m.f 0 0 32) = some (line, w) → w.ty = 0x40 → w.held = [] → m.f
      4 0 2 ≠ 0 → Gives (.cdata c m) s (fun t => t.coh.lines.get? [c, line] = some
      { st := m.f 4 0 2, data := m.f 16 0 1024 } ∧ t.coh.want.has [c, line] = false ∧ RegsBut [] s t ∧ PartsBut [.out, .hif,
      .sw, .ports, .ras, .answers, .coh] s t)) ∧
    (∀ c (m : Msg) line (w : Want), m.ty = 0x50 → s.wantOf c (m.f 0 0 32) = some (line, w) → w.held = [] → m.f 4 0 2 = 0 →
      Gives (.cdata c m) s (fun t => t.coh.lines.has [c, line] = false ∧ t.coh.want.has [c, line] = false ∧ RegsBut [] s t ∧
      PartsBut [.out, .hif, .sw, .ports, .ras, .answers, .coh] s t)) ∧
    (∀ c (m : Msg) line (w : Want), m.ty = 0x51 → s.wantOf c (m.f 0 0 32) = some (line, w) → w.held = [] → Gives (.cgntX c
      m) s (fun t => (t.coh.lines.get? [c, line]).map (·.st) = some 3 ∧ t.coh.want.has [c, line] = false ∧ RegsBut [] s t ∧
      PartsBut [.out, .hif, .sw, .ports, .ras, .answers, .coh, .fresh] s t))

/-- R152, R153: a CRD_S or CRD_X of a line nobody holds makes the requester its owner; an upgrade of the only sharer makes
it the owner; a CRD_S of a line another agent owns snoops the owner with FWD_S and leaves the line busy. R152, R155: the
answer to a recall takes the slot off the record and its dirty data reach memory; the answer to a forward closes it and
retires the request; a writeback of the owner clears the record, with its data in memory where it is dirty. -/
def Obligations.CoherentHomes : Prop :=
  ∀ s : State, Serves s →
    (∀ d dom a line (m : Msg), m.ty = 0x40 → AtHome s d m → Alone s d m → Coherent s m dom a line → s.recOf line = .i →
      Gives (.crdS d m) s (fun t => t.recOf line = .x a ∧ t.trk.home.has [d, s.trk.nextHome] = false ∧ t.mem = s.mem ∧
      RegsBut [R.MEM_PC_STATUS_powered_down] s t ∧ PartsBut [.out, .hif, .sw, .ports, .ras, .answers, .trk, .pool, .tier,
      .coh] s t)) ∧
    (∀ d dom a line (m : Msg), m.ty = 0x41 → AtHome s d m → Alone s d m → Coherent s m dom a line → s.recOf line = .i →
      Gives (.crdX d m) s (fun t => t.recOf line = .x a ∧ t.trk.home.has [d, s.trk.nextHome] = false ∧ t.mem = s.mem ∧
      RegsBut [R.MEM_PC_STATUS_powered_down] s t ∧ PartsBut [.out, .hif, .sw, .ports, .ras, .answers, .trk, .pool, .tier,
      .coh] s t)) ∧
    (∀ d dom a line (m : Msg), m.ty = 0x42 → AtHome s d m → Alone s d m → Coherent s m dom a line → s.recOf line = .s (2 ^
      a) → a < 32 → Gives (.cupg d m) s (fun t => t.recOf line = .x a ∧ t.trk.home.has [d, s.trk.nextHome] = false ∧ t.mem =
      s.mem ∧ RegsBut [R.MEM_PC_STATUS_powered_down] s t ∧ PartsBut [.out, .hif, .sw, .ports, .ras, .answers, .trk, .pool,
      .tier, .coh] s t)) ∧
    (∀ d dom a line o (m : Msg), m.ty = 0x40 → AtHome s d m → Alone s d m → Coherent s m dom a line → s.recOf line = .x o →
      o ≠ a → s.slotLive dom o = true → Gives (.crdS d m) s (fun t => (∃ sn, t.coh.snoops.get? [s.coh.nextTag] = some sn ∧
      sn.kind = 0x48 ∧ sn.slot = o ∧ sn.line = line ∧ sn.home = some (d, s.trk.nextHome) ∧ sn.reqSlot = a) ∧ t.coh.busy.get?
      [line] = some (d, s.trk.nextHome) ∧ t.recOf line = .x o ∧ t.mem = s.mem)) ∧
    (∀ d (m : Msg) (sn : Snoop), m.ty = 0x52 → s.coh.snoops.get? [m.f 0 0 32] = some sn → sn.kind = 0x4A → sn.home = none →
      sn.crossed = false → s.slotFor sn.dom m.src = some sn.slot → s.isDead sn.dom sn.slot = false → s.recOf sn.line = .x
      sn.slot → m.f 4 0 2 = 1 → m.f 4 2 1 = 1 → Resolved s → Memory.wf s.mem = true → Gives (.snpRsp d m) s (fun t =>
      t.coh.snoops.has [m.f 0 0 32] = false ∧ t.recOf sn.line = .i ∧ (∀ b, Mem.read t.mem b = if 128 * sn.line ≤ b ∧ b < 128
      * sn.line + 128 then (bytesOfNat 128 (m.body >>> 128)).getD (b - 128 * sn.line) 0 else Mem.read s.mem b) ∧ RegsBut
      [R.MEM_PC_STATUS_powered_down] s t ∧ PartsBut [.out, .hif, .sw, .ports, .ras, .answers, .tier, .coh, .mem, .poison] s
      t)) ∧
    (∀ d d₀ i (m : Msg) (sn : Snoop), m.ty = 0x52 → s.coh.snoops.get? [m.f 0 0 32] = some sn → sn.kind = 0x49 → sn.home =
      some (d₀, i) → sn.crossed = false → s.slotFor sn.dom m.src = some sn.slot → s.isDead sn.dom sn.slot = false → m.f 4 0
      2 = 3 → m.f 4 2 1 = 0 → s.coh.broken.has [sn.line] = false → Resolved s → Gives (.snpRsp d m) s (fun t =>
      t.coh.snoops.has [m.f 0 0 32] = false ∧ t.trk.home.has [d₀, i] = false ∧ t.recOf sn.line = s.recOf sn.line ∧ RegsBut
      [] s t ∧ PartsBut [.out, .hif, .sw, .ports, .ras, .answers, .trk, .coh] s t)) ∧
    (∀ d a (m : Msg), m.ty = 0x53 → s.slotFor (m.f 0 56 8) m.src = some a → s.isDead (m.f 0 56 8) a = false → s.openSnoop
      (lineAt m) (m.f 0 56 8) a = none → s.recOf (lineAt m) = .x a → s.coh.busy.get? [lineAt m] = none → Resolved s →
      Memory.wf s.mem = true → Gives (.cwbDirty d m) s (fun t => t.recOf (lineAt m) = .i ∧ (∀ b, Mem.read t.mem b = if 128 *
      lineAt m ≤ b ∧ b < 128 * lineAt m + 128 then (bytesOfNat 128 (m.body >>> 128)).getD (b - 128 * lineAt m) 0 else
      Mem.read s.mem b) ∧ RegsBut [R.MEM_PC_STATUS_powered_down] s t ∧ PartsBut [.out, .hif, .sw, .ports, .ras, .answers,
      .tier, .coh, .mem, .poison] s t)) ∧
    (∀ d a (m : Msg), m.ty = 0x54 → s.slotFor (m.f 0 56 8) m.src = some a → s.isDead (m.f 0 56 8) a = false → s.openSnoop
      (lineAt m) (m.f 0 56 8) a = none → s.recOf (lineAt m) = .x a → s.coh.busy.get? [lineAt m] = none → Resolved s → Gives
      (.cwbClean d m) s (fun t => t.recOf (lineAt m) = .i ∧ t.mem = s.mem ∧ RegsBut [] s t ∧ PartsBut [.out, .hif, .sw,
      .ports, .ras, .answers, .coh] s t))

/-- R157, R158: an agent declared dead by the fabric manager, by an unanswered snoop or by a port down for longer than the
grace time is dead in its domain, and a reclaim walk begins with the domain, slot and cause shown; stated for an agent of
one domain with no other snoop open to it, while no line is busy. R159: at the end of the walk it is no longer under way and
is shown as done. -/
def Obligations.AgentDeath : Prop :=
  ∀ s : State, 
    (∀ dom slot agent, Applies s B.coh → dom < 256 → slot < 32 → s.agentAt dom slot = some agent → s.isDead dom slot = false
      → (∀ e ∈ s.coh.snoops.entries, e.2.dom = dom → e.2.slot ≠ slot) → s.coh.busy.entries = [] → Resolved s → Gives
      (.declareDead dom slot) s (fun t => t.isDead dom slot = true ∧ t.coh.walks.has [dom, slot] = true ∧ t.rd
      R.COH_RECLAIM_INFO_domain [] = dom ∧ t.rd R.COH_RECLAIM_INFO_slot [] = slot ∧ t.rd R.COH_RECLAIM_INFO_cause [] = 0 ∧
      t.rd R.COH_RECLAIM_INFO_done [] = 0 ∧ bitAt (t.rd R.COH_EVT_events []) 0 = true ∧ t.answers = s.answers ++ [(0x0304,
      .ok)] ∧ RegsBut [R.COH_RECLAIM_INFO_domain, R.COH_RECLAIM_INFO_slot, R.COH_RECLAIM_INFO_cause,
      R.COH_RECLAIM_INFO_done] s t ∧ PartsBut [.coh, .trk, .pool, .tier, .out, .hif, .answers] s t)) ∧
    (∀ d tag agent (sn : Snoop), Serves s → s.coh.snoops.entries = [([tag], sn)] → 1000 * s.rd R.COH_TIMEOUT_snoop [] ≤
      s.now - sn.since → sn.kind = 0x4A → sn.home = none → sn.crossed = false → s.agentAt sn.dom sn.slot = some agent →
      s.isDead sn.dom sn.slot = false → s.listed R.COH_MEMBER_valid = [[sn.dom, sn.slot]] → s.coh.busy.entries = [] →
      Resolved s → Gives (.snoopTimeout d tag) s (fun t => t.isDead sn.dom sn.slot = true ∧ t.coh.snoops.has [tag] = false ∧
      t.rd R.COH_RECLAIM_INFO_cause [] = 3 ∧ bitAt (t.rd R.COH_EVT_events []) 2 = true ∧ RegsBut [R.COH_RECLAIM_INFO_domain,
      R.COH_RECLAIM_INFO_slot, R.COH_RECLAIM_INFO_cause, R.COH_RECLAIM_INFO_done] s t ∧ PartsBut [.coh, .trk, .pool, .tier,
      .poison, .out, .hif] s t)) ∧
    (∀ p t₀ v eid dom a, Serves s → (s.port p).downAt = some t₀ → (s.port p).identity = some (v, eid) → s.isUp p = false →
      1000 * s.rd R.COH_TIMEOUT_grace [] ≤ s.now - t₀ → s.listed R.COH_MEMBER_valid = [[dom, a]] → s.agentAt dom a = some
      eid → s.isDead dom a = false → (∀ e ∈ s.coh.snoops.entries, e.2.dom = dom → e.2.slot ≠ a) → s.coh.busy.entries = [] →
      Resolved s → Gives (.graceTimeout p) s (fun t => t.isDead dom a = true ∧ t.rd R.COH_RECLAIM_INFO_cause [] = 1 ∧
      (t.port p).downAt = none ∧ RegsBut [R.COH_RECLAIM_INFO_domain, R.COH_RECLAIM_INFO_slot, R.COH_RECLAIM_INFO_cause,
      R.COH_RECLAIM_INFO_done] s t ∧ PartsBut [.coh, .trk, .pool, .tier, .ports, .out, .hif] s t)) ∧
    (∀ dom slot, Serves s → s.coh.walks.has [dom, slot] = true → s.coh.members.get? [dom, slot] = none → Gives
      (.reclaimWalkDone dom slot) s (fun t => t.coh.walks.has [dom, slot] = false ∧ t.rd R.COH_RECLAIM_INFO_done [] = 1 ∧
      t.isDead dom slot = s.isDead dom slot ∧ RegsBut [R.COH_RECLAIM_INFO_done] s t ∧ PartsBut [.coh, .poison, .out, .hif,
      .sw, .ports, .ras, .answers] s t))

/-- R141: a binding that nothing refuses is written where the entry was not valid before; R140: a member slot that holds no
agent is written, and no longer dead; R144: a store entry is written for an INTERNAL extent in a stack of its die. Each is
answered OK. -/
def Obligations.CoherenceTables : Prop :=
  ∀ s : State, Applies s B.coh →
    (∀ i v, v < 2 ^ 52 → bitsOf v 0 1 = 1 → bitsOf v 1 7 = 0 → s.coh.unbinding.has [i] = false → s.rd R.COH_BIND_valid [i] =
      0 → s.bindRefusal i v = none → s.isPrimary = false → Gives (.bindWrite i v) s (fun t => t.rd R.COH_BIND_valid [i] = 1
      ∧ t.rd R.COH_BIND_domain [i] = bitsOf v 8 8 ∧ t.rd R.COH_BIND_first_extent [i] = bitsOf v 16 18 ∧ t.rd
      R.COH_BIND_last_extent [i] = bitsOf v 34 18 ∧ t.answers = s.answers ++ [(0x0301, .ok)] ∧ RegsBut [R.COH_BIND_valid,
      R.COH_BIND_domain, R.COH_BIND_first_extent, R.COH_BIND_last_extent] s t ∧ PartsBut [.answers] s t)) ∧
    (∀ dom a v, v < 2 ^ 36 → bitsOf v 2 14 = 0 → s.coh.walks.has [dom, a] = false → s.agentAt dom a = none → Gives
      (.memberWrite dom a v) s (fun t => t.rd R.COH_MEMBER_valid [dom, a] = bitsOf v 0 1 ∧ t.rd R.COH_MEMBER_kind [dom, a] =
      bitsOf v 1 1 ∧ t.rd R.COH_MEMBER_eid [dom, a] = bitsOf v 16 16 ∧ t.rd R.COH_MEMBER_cluster [dom, a] = bitsOf v 32 4 ∧
      t.isDead dom a = false ∧ t.answers = s.answers ++ [(0x0302, .ok)] ∧ RegsBut [R.COH_MEMBER_valid, R.COH_MEMBER_kind,
      R.COH_MEMBER_eid, R.COH_MEMBER_cluster] s t ∧ PartsBut [.answers, .coh] s t)) ∧
    (∀ d k v, v < 2 ^ 19 → bitsOf v 18 1 = 1 → (s.ext s.node (bitsOf v 0 18)).state = .internal → s.inBoard (bitsOf v 0 18)
      = false → (s.ext s.node (bitsOf v 0 18)).die = d → s.rd R.COH_DIR_STORE_valid [d, k] = 0 → Gives (.dirStoreWrite d k
      v) s (fun t => t.rd R.COH_DIR_STORE_extent [d, k] = bitsOf v 0 18 ∧ t.rd R.COH_DIR_STORE_valid [d, k] = 1 ∧ t.answers
      = s.answers ++ [(0x0303, .ok)] ∧ RegsBut [R.COH_DIR_STORE_extent, R.COH_DIR_STORE_valid] s t ∧ PartsBut [.answers] s
      t))

/-! ### The memory pool (07) -/

/-- R168: a LEASE_SET of a free slot for an active tenant writes the slot and sets its expiry one duration ahead of the
current beat; R169: a live holder's renewal sets it again; R171: a slot whose expiry is reached expires. R164, R165: a grant
places a FREE extent in the stack with the most free slots, HELD by the slot and its tenant; R163: an internal grant places
one INTERNAL. R166: sharing puts an extent in a group and a slot on its list; unsharing a slot takes it off, unsharing with
no slot takes the extent out. R180, R181: a limit is set and its tokens stay; at a beat start every bucket gains its rate up
to its burst. R190: a quota below what the tenant holds is refused. Nothing else changes. -/
def Obligations.PoolGrants : Prop :=
  ∀ s : State, Applies s B.pol →
    (∀ k eid ten dur, k < 4096 → eid < 65536 → ten < 32 → 977 ≤ dur → dur ≤ 58593750 → s.rd R.POL_LEASE_valid [k] = 0 →
      s.slotOf eid = none → s.tenantActive ten = true → s.timeless = false → s.isPrimary = false → Gives (.leaseSet k eid
      ten dur) s (fun t => t.rd R.POL_LEASE_valid [k] = 1 ∧ t.rd R.POL_LEASE_expired [k] = 0 ∧ t.rd R.POL_LEASE_eid [k] =
      eid ∧ t.rd R.POL_LEASE_tenant [k] = ten ∧ t.rd R.POL_LEASE_duration [k] = dur ∧ t.rd R.POL_LEASE_expiry [k] = (s.beat
      + dur) % 2 ^ 32 ∧ t.answers = s.answers ++ [(0x0101, .ok)] ∧ RegsBut [R.POL_LEASE_valid, R.POL_LEASE_expired,
      R.POL_LEASE_tenant, R.POL_LEASE_eid, R.POL_LEASE_duration, R.POL_LEASE_expiry] s t ∧ PartsBut [.pool, .answers] s t)) ∧
    (∀ d (m : Msg) k, m.ty = 0x60 → s.slotOf m.src = some k → s.rd R.POL_LEASE_expired [k] = 0 → s.timeless = false →
      s.isPrimary = false → Gives (.leaseRenew d m) s (fun t => t.rd R.POL_LEASE_expiry [k] = (s.beat + s.rd
      R.POL_LEASE_duration [k]) % 2 ^ 32 ∧ RegsBut [R.POL_LEASE_expiry] s t ∧ PartsBut [.out, .hif, .sw, .ports, .ras,
      .answers, .pool] s t)) ∧
    (∀ k, s.timeless = false → s.tst ≠ Ts.lost → s.listed R.POL_LEASE_valid = [[k]] → s.rd R.POL_LEASE_expired [k] = 0 →
      s.pool.provisional.has [k] = false → ahead (s.rd R.POL_LEASE_expiry [k]) s.beat = false → s.nodesHere.all (fun n =>
      s.ownedBy n k = []) = true → s.listed R.POL_SHARE_valid = [] → Gives (.leaseExpiry) s (fun t => t.rd
      R.POL_LEASE_expired [k] = 1 ∧ RegsBut [R.POL_LEASE_expired] s t ∧ PartsBut [.out, .hif, .sw, .ports, .ras, .answers] s
      t)) ∧
    (∀ k e die (l : Loc) dd, k < 4096 → die < 2 → s.on R.POL_LEASE_valid [k] = true → s.on R.POL_LEASE_expired [k] = false →
      (s.ext s.node e).state = .free → s.countExt s.node .free ≠ 0 → s.tenantActive (s.rd R.POL_LEASE_tenant [k]) = true →
      s.heldBy (s.rd R.POL_LEASE_tenant [k]) < s.rd R.POL_TENANT_QUOTA_quota [s.rd R.POL_LEASE_tenant [k]] → s.isPuppet =
      false → s.isPrimary = false → s.slotsFree ≠ 0 → s.placement die = some (l, dd) → l.board = false → Gives (.grant k
      s.node e e die) s (fun t => t.ext s.node e =
      { state := .held, owner := k, tenant := s.rd R.POL_LEASE_tenant [k], die := dd } ∧ t.tier.loc.get? [e] = some l ∧
      t.answers = s.answers ++ [(0x0102, .ok)] ∧ (∀ n i, (n, i) ≠ (s.node, e) → t.ext n i = s.ext n i) ∧ t.mem = s.mem ∧
      RegsBut [] s t ∧ PartsBut [.pool, .tier, .answers] s t)) ∧
    (∀ e die (l : Loc) dd, die < 2 → (s.ext s.node e).state = .free → s.slotsFree ≠ 0 → s.placement die = some (l, dd) →
      l.board = false → Gives (.grantInternal e e die) s (fun t => t.ext s.node e = { state := .internal, die := dd } ∧
      t.tier.loc.get? [e] = some l ∧ t.answers = s.answers ++ [(0x0103, .ok)] ∧ (∀ n i, (n, i) ≠ (s.node, e) → t.ext n i =
      s.ext n i) ∧ RegsBut [] s t ∧ PartsBut [.pool, .tier, .answers] s t)) ∧
    (∀ n e g k j, s.serves n = true → g < 1024 → k < 4096 → s.on R.POL_LEASE_valid [k] = true → (s.ext n e).state = .held →
      (s.ext n e).group = none → (s.ext n e).owner ≠ k → s.inGroup g = [] → s.sharers g = [] → (s.ext n e).tenant = s.rd
      R.POL_LEASE_tenant [k] → (List.range 64).find? (fun j => !s.on R.POL_SHARE_valid [g, j]) = some j → s.isPrimary =
      false → Gives (.share n e e g [k]) s (fun t => (t.ext n e).group = some g ∧ (t.ext n e).owner = (s.ext n e).owner ∧
      t.rd R.POL_SHARE_valid [g, j] = 1 ∧ t.rd R.POL_SHARE_slot [g, j] = k ∧ t.answers = s.answers ++ [(0x0104, .ok)] ∧
      RegsBut [R.POL_SHARE_valid, R.POL_SHARE_slot] s t ∧ PartsBut [.pool, .answers] s t)) ∧
    (∀ n e g k, s.serves n = true → g < 1024 → (s.ext n e).state = .held → s.isPrimary = false → Gives (.unshare n e e g
      [k]) s (fun t => (∀ j, s.rd R.POL_SHARE_valid [g, j] = 1 → s.rd R.POL_SHARE_slot [g, j] = k → t.rd R.POL_SHARE_valid
      [g, j] = 0) ∧ t.ext n e = s.ext n e ∧ t.answers = s.answers ++ [(0x0105, .ok)] ∧ RegsBut [R.POL_SHARE_valid,
      R.POL_SHARE_slot] s t ∧ PartsBut [.answers] s t)) ∧
    (∀ n e g, s.serves n = true → g < 1024 → (s.ext n e).state = .held → (s.ext n e).group = some g → s.isPrimary = false →
      Gives (.unshare n e e g []) s (fun t => (t.ext n e).group = none ∧ t.answers = s.answers ++ [(0x0105, .ok)] ∧ RegsBut
      [R.POL_SHARE_valid, R.POL_SHARE_slot] s t ∧ PartsBut [.pool, .answers] s t)) ∧
    (∀ kind die index rate burst, kind < 2 → die < 2 → index < (if kind = 0 then 4096 else 32) → rate < 65536 → burst <
      65536 → (burst = 0 → rate = 0) → Gives (.limitSet kind die index rate burst) s (fun t => t.rd (if kind = 0 then
      R.POL_LIMIT_rate else R.POL_TENANT_LIMIT_rate) (if kind = 0 then [die, index] else [index, die]) = rate ∧ t.rd (if
      kind = 0 then R.POL_LIMIT_burst else R.POL_TENANT_LIMIT_burst) (if kind = 0 then [die, index] else [index, die]) =
      burst ∧ (∀ k, k = [die, kind, index] → t.tokens k = s.tokens k) ∧ t.answers = s.answers ++ [(0x0108, .ok)] ∧ RegsBut
      [R.POL_LIMIT_rate, R.POL_LIMIT_burst, R.POL_TENANT_LIMIT_rate, R.POL_TENANT_LIMIT_burst] s t ∧ PartsBut [.pool,
      .answers] s t)) ∧
    (∀ ten n, ten < 32 → n ≤ 0x1FFFF → s.heldBy ten ≤ n → Gives (.tenantQuota ten n) s (fun t => t.rd
      R.POL_TENANT_QUOTA_quota [ten] = n ∧ t.answers = s.answers ++ [(0x0109, .ok)] ∧ RegsBut [R.POL_TENANT_QUOTA_quota] s t
      ∧ PartsBut [.answers] s t)) ∧
    (∀ ten n, ten < 32 → n < s.heldBy ten → n ≤ 0x1FFFF → Gives (.tenantQuota ten n) s (fun t => t.answers = s.answers ++
      [(0x0109, .quota)] ∧ RegsBut [] s t ∧ PartsBut [.answers, .out, .hif] s t)) ∧
    (∀ d, s.pool.limitQ = Map.empty → s.trk.flowWait = [] → s.pool.tokens.wf = true → Gives (.bucketRefill d) s (fun t => (∀
      k, t.tokens k = if k.head? = some d then min (s.fullOf k) (s.tokens k + 1024 * s.rateOf k) else s.tokens k) ∧ RegsBut
      [] s t ∧ PartsBut [.pool] s t))

/-- R172: REVOKE of a HELD extent moves it to REVOKING and keeps the revocation; once nothing of it is live its drain ends,
the extent goes to SCRUB without an owner and REVOKE is answered; a drain that lasts too long completes its live requests.
R173: an extent that has been cleared reads as zeros and is FREE. R186: RELEASE frees a QUARANTINE extent; MARK_LOST loses
one. R187: LOST_SET writes a range. R176, R190: LEND_ADD writes the first free lender entry and LEND_REMOVE clears it; R179:
a withdrawal is kept and acknowledged when nothing of its node is in use. R188: NOTIFY sends a notice to an endpoint behind
an edge port. -/
def Obligations.PoolRevocation : Prop :=
  ∀ s : State, Applies s B.pol →
    (∀ e c, c < 2 → (s.ext s.node e).state = .held → s.bindOf e = none → s.tier.store = none → s.isPrimary = false → (s.ext
      s.node e).group = none → Gives (.revoke s.node e e c) s (fun t => (t.ext s.node e) =
      { s.ext s.node e with state := .revoking } ∧ t.pool.revs.get? [s.pool.nextRev] = some
      { node := s.node, extents := [e], clear := decide (c = 1), since := s.now, asker := some .here, tell := [(e, s.rd R.POL_LEASE_eid [(s.ext s.node e).owner])] }
      ∧ t.rd R.POL_REVOKE_STATUS_active [] = 1 ∧ t.rd R.POL_REVOKE_STATUS_phase [] = 0 ∧ t.rd
      R.POL_REVOKE_STATUS_first_extent [] = e % 2 ^ 18 ∧ t.answers = s.answers ∧ t.mem = s.mem ∧ RegsBut
      [R.POL_REVOKE_STATUS_active, R.POL_REVOKE_STATUS_phase, R.POL_REVOKE_STATUS_first_extent,
      R.POL_REVOKE_STATUS_last_extent, R.POL_REVOKE_STATUS_node] s t ∧ PartsBut [.pool, .pair, .tier] s t)) ∧
    (∀ i e (v : Revocation), s.pool.revs.get? [i] = some v → v.drained = false → v.extents = [e] → v.node = s.node → v.asker
      = some .here → s.drainedAll v = true → (s.ext s.node e).state = .revoking → (s.ext s.node e).group = none → Gives
      (.drainEnd i) s (fun t => (t.ext s.node e) = { s.ext s.node e with state := .scrub, owner := 0 } ∧ t.pool.revs.get?
      [i] = some { v with drained := true, left := [e] } ∧ t.answers = s.answers ++ [(0x0106, .ok)] ∧ t.mem = s.mem ∧
      RegsBut [R.POL_REVOKE_STATUS_active, R.POL_REVOKE_STATUS_phase, R.POL_REVOKE_STATUS_first_extent,
      R.POL_REVOKE_STATUS_last_extent, R.POL_REVOKE_STATUS_node] s t ∧ PartsBut [.out, .hif, .pool, .answers, .tier] s t)) ∧
    (∀ i e d h (v : Revocation) (x : Home), s.pool.revs.get? [i] = some v → v.drained = false → v.late = false → 1000 * s.rd
      R.POL_CFG_drain_timeout [] ≤ s.now - v.since → v.extents = [e] → (s.ext v.node e).state = .revoking →
      s.trk.home.entries = [([d, h], x)] → toExtent v.node e x.msg = true → s.trk.fwd = Map.empty → Gives (.drainTimeout i)
      s (fun t => (∃ w, t.pool.revs.get? [i] = some w ∧ w.late = true ∧ w.drained = false) ∧ t.trk.home.has [d, h] = false ∧
      t.mem = s.mem)) ∧
    (∀ i e (v : Revocation), Settled s → s.pool.revs.get? [i] = some v → v.drained = true → v.clear = true → v.release =
      false → v.left = [e] → v.node = s.node → v.tell = [] → (s.ext s.node e).state = .scrub → s.tier.moves.get? [e] = none
      → Gives (.scrubDone i e) s (fun t => (t.ext s.node e) = {} ∧ t.tier.loc.has [e] = false ∧ t.pool.revs.has [i] = false
      ∧ (∀ a, a / 2 ^ 26 = e → Mem.read t.mem a = 0) ∧ (∀ a, a / 2 ^ 26 ≠ e → Mem.read t.mem a = Mem.read s.mem a) ∧ RegsBut
      [R.POL_REVOKE_STATUS_active] s t ∧ PartsBut [.out, .hif, .sw, .ports, .ras, .answers, .pool, .tier, .mem, .poison,
      .coh] s t)) ∧
    (∀ e, Settled s → (s.ext s.node e).state = .quarantine → Gives (.release s.node e e) s (fun t => (t.ext s.node e) = {} ∧
      t.answers = s.answers ++ [(0x0107, .ok)] ∧ t.mem = s.mem ∧ RegsBut [] s t ∧ PartsBut [.pool, .tier, .answers] s t)) ∧
    (∀ e, Settled s → (s.ext s.node e).state = .free → s.trk.home = Map.empty → s.trk.fwd = Map.empty → s.isPrimary = false
      → s.tier.moves.get? [e] = none → Gives (.markLost s.node e e) s (fun t => (t.ext s.node e) =
      { s.ext s.node e with state := .lost, owner := 0, group := none } ∧ t.answers = s.answers ++ [(0x010C, .ok)] ∧ t.mem =
      s.mem)) ∧
    (∀ k v, k < 64 → v < 2 ^ 52 → bitsOf v 1 3 = 0 → Gives (.lostSet k v) s (fun t => t.rd R.POL_LOST_valid [k] = bitsOf v 0
      1 ∧ t.rd R.POL_LOST_node [k] = bitsOf v 4 12 ∧ t.rd R.POL_LOST_first_extent [k] = bitsOf v 16 18 ∧ t.rd
      R.POL_LOST_last_extent [k] = bitsOf v 34 18 ∧ t.answers = s.answers ++ [(0x010D, .ok)] ∧ RegsBut [R.POL_LOST_valid,
      R.POL_LOST_node, R.POL_LOST_first_extent, R.POL_LOST_last_extent] s t ∧ PartsBut [.answers] s t)) ∧
    (∀ eid node p n k, eid < 65536 → node < 4096 → p < 256 → n < 2 ^ 18 → s.serves node = false → s.isUp p = true → s.on
      R.PRT_PORT_STATUS_partner_lender [p] = true → (List.range 16).find? (fun k => !s.on R.POL_LEND_valid [k]) = some k →
      Gives (.lendAdd eid node p n) s (fun t => t.rd R.POL_LEND_valid [k] = 1 ∧ t.rd R.POL_LEND_node [k] = node ∧ t.rd
      R.POL_LEND_eid [k] = eid ∧ t.rd R.POL_LEND_port [k] = p ∧ t.rd R.POL_LEND_extents [k] = n ∧ t.answers = s.answers ++
      [(0x010A, .ok)] ∧ RegsBut [R.POL_LEND_valid, R.POL_LEND_node, R.POL_LEND_eid, R.POL_LEND_port, R.POL_LEND_extents] s t
      ∧ PartsBut [.answers] s t)) ∧
    (∀ eid node p n k, s.lendOf node = some k → s.rd R.POL_LEND_eid [k] = eid → s.rd R.POL_LEND_port [k] = p → s.rd
      R.POL_LEND_extents [k] = n → s.pool.ext.entries.any (fun e => decide (e.1.head? = some node ∧ e.2.state ≠ .free ∧
      e.2.state ≠ .quarantine ∧ e.2.state ≠ .lost)) = false → Gives (.lendRemove eid node p n) s (fun t => t.rd
      R.POL_LEND_valid [k] = 0 ∧ t.rd R.POL_LEND_extents [k] = 0 ∧ t.answers = s.answers ++ [(0x010B, .ok)] ∧ RegsBut
      [R.POL_LEND_valid, R.POL_LEND_node, R.POL_LEND_eid, R.POL_LEND_port, R.POL_LEND_extents] s t ∧ PartsBut [.pool,
      .answers] s t)) ∧
    (∀ p (m : Msg) (k : Key), m.ty = 0x65 → s.listed R.POL_LEND_valid = [k] → s.rd R.POL_LEND_port k = p → s.rd
      R.POL_LEND_eid k = m.src → Gives (.lendWithdraw p m) s (fun t => t.pool.withdraw.get? k = some m ∧ RegsBut [] s t ∧
      PartsBut [.out, .hif, .sw, .ports, .ras, .answers, .pool] s t)) ∧
    (∀ k (m : Msg), s.pool.withdraw.get? [k] = some m → (s.pool.ext.entries.any (fun e => decide (e.1.head? = some (s.rd
      R.POL_LEND_node [k]) ∧ (e.2.state = .held ∨ e.2.state = .revoking ∨ e.2.state = .scrub))) = false) → Gives (.lendAck
      k) s (fun t => t = s.after (State.answer (dieOfPort (s.rd R.POL_LEND_port [k])) m .ok 0 none
      { s with pool := { s.pool with withdraw := s.pool.withdraw.erase [k] } }) ∧ t.pool.withdraw.has [k] = false ∧ RegsBut
      [] s t ∧ PartsBut [.out, .hif, .sw, .ports, .ras, .answers, .pool] s t)) ∧
    (∀ eid kind p, 0 < kind → kind ≤ 4 → p < 256 → s.isEdge p = true → s.partnerEid p = eid → Gives (.notify eid kind) s
      (fun t => t = s.after (State.told 0x010E (.ok, s.notice kind eid s.node 0 0)) ∧ RegsBut [] s t ∧ PartsBut [.out, .hif,
      .sw, .ports, .ras, .answers] s t))

/-! ### Memory tiers (08) -/

/-- R193, R194: the slot of a pseudo-channel with one read issues it, leaving its row open and one column counted, unless a
refresh is due; R195: an interval adds one refresh to what a bank owes; a row closes after its idle time, R196 an idle
pseudo-channel powers down. R198, R199: recalibration takes it out of service when it has drained, returns it at the
release, and gives the saved delays back when none comes in time. R200, R201: an uncorrectable error that a patrol read
finds poisons its line. R202: 64 of them in a beat fail the pseudo-channel; a failed stack without extents goes to FAILED.
R383, R446: a stack leaves INIT READY. -/
def Obligations.StackColumns : Prop :=
  ∀ s : State, Serves s →
    (∀ u p (r : ColReq), s.stackRuns u = true → s.pcState u p ≠ 3 → (s.pc u p).reads = [r] → (s.pc u p).writes = [] → (s.pc
      u p).owed = Map.empty → r.write = false → s.columnsNow u < s.columnCap → Gives (.commandSlot u p 0) s (fun t => (t.pc
      u p).reads = [] ∧ (t.pc u p).openRow.get? [r.bank] = some r.row ∧ t.tier.columns.get? [u] = some (s.beat, s.columnsNow
      u + 1) ∧ RegsBut [] s t ∧ PartsBut [.tier] s t)) ∧
    (∀ u p b n, s.stackRuns u = true → s.pcState u p ≠ 3 → (s.pc u p).owed.entries = [([b], n)] → 8 ≤ n → Gives
      (.commandSlot u p 0) s (fun t => (t.pc u p).owed.get? [b] = some (n - 1) ∧ (t.pc u p).openRow.has [b] = false ∧ (t.pc
      u p).reads = (s.pc u p).reads ∧ RegsBut [] s t ∧ PartsBut [.tier] s t)) ∧
    (∀ u p b, s.stackRuns u = true → s.pcState u p ≠ 3 → Gives (.refreshDue u p b) s (fun t => (t.pc u p).owed.get? [b] =
      some ((s.pc u p).owed.get 0 [b] + 1) ∧ t.rd R.MEM_PC_STATUS_powered_down [u, p] = 0 ∧ RegsBut
      [R.MEM_PC_STATUS_powered_down] s t ∧ PartsBut [.tier] s t)) ∧
    (∀ u p b, (s.pc u p).reads = [] → (s.pc u p).writes = [] → (s.pc u p).bankUse.get 0 [b] + 8 * s.rd
      R.MEM_SCHED_CFG_row_idle [] ≤ s.now → Gives (.rowClose u p b) s (fun t => t.tier = (s.modPc u p (fun q =>
      { q with openRow := q.openRow.erase [b] })).tier ∧ RegsBut [] s t ∧ PartsBut [.tier] s t)) ∧
    (∀ u p, s.stackRuns u = true → s.pcState u p = 0 → (s.pc u p).reads = [] → (s.pc u p).writes = [] → 0 < s.rd
      R.MEM_PD_CFG_pd_timer [] → (s.pc u p).lastUse + 16 * s.rd R.MEM_PD_CFG_pd_timer [] ≤ s.now → Gives (.powerDownEntry u
      p) s (fun t => t.rd R.MEM_PC_STATUS_powered_down [u, p] = 1 ∧ RegsBut [R.MEM_PC_STATUS_powered_down] s t ∧ PartsBut []
      s t)) ∧
    (∀ u p, s.isReady B.mem = true → s.stackRuns u = true → s.pcState u p = 0 → (List.range 32).all (fun k => s.pcState u k
      = 0 || s.pcState u k = 3) = true → Gives (.recal u p) s (fun t => t.rd R.MEM_PC_STATUS_state [u, p] = 1 ∧ t.rd
      R.MEM_PC_CTL_recal [u, p] = 1 ∧ (t.pc u p) = { s.pc u p with recalAt := s.now } ∧ RegsBut [R.MEM_PC_STATUS_state,
      R.MEM_PC_CTL_recal] s t ∧ PartsBut [.tier] s t)) ∧
    (∀ u p, s.pcState u p = 1 → (s.pc u p).reads = [] → (s.pc u p).writes = [] → Gives (.pcDrained u p) s (fun t => t.rd
      R.MEM_PC_STATUS_state [u, p] = 2 ∧ (t.pc u p).saved = s.regs.entries.filter (fun e => isDelay u p e.1) ∧ RegsBut
      [R.MEM_PC_STATUS_state] s t ∧ PartsBut [.tier] s t)) ∧
    (∀ u p, s.isReady B.mem = true → s.pcState u p = 2 → (s.pc u p).wait = [] → s.trk.flowWait = [] → Gives (.recalRelease u
      p true) s (fun t => t.rd R.MEM_PC_STATUS_state [u, p] = 0 ∧ t.rd R.MEM_PC_CTL_recal [u, p] = 0 ∧ (t.pc u p) =
      { s.pc u p with saved := [], recalAt := 0, failedReleases := 0 } ∧ RegsBut [R.MEM_PC_STATUS_state, R.MEM_PC_CTL_recal]
      s t ∧ PartsBut [.tier] s t)) ∧
    (∀ u p lane v, s.pcState u p = 2 → (s.pc u p).recalAt + 128 * s.rd R.MEM_RECAL_CFG_max_window [] ≤ s.now → (s.pc u
      p).wait = [] → s.trk.flowWait = [] → (s.pc u p).saved = [([R.MEM_DLY_DQ_rd_fine.num, u, p, lane], v)] → Gives
      (.recalTimeout u p) s (fun t => t.rd R.MEM_DLY_DQ_rd_fine [u, p, lane] = v ∧ t.rd R.MEM_PC_STATUS_state [u, p] = 0 ∧
      RegsBut [R.MEM_PC_STATUS_state, R.MEM_PC_CTL_recal, R.MEM_DLY_DQ_rd_fine, R.MEM_DLY_DQ_rd_coarse,
      R.MEM_DLY_DQ_wr_fine, R.MEM_DLY_DQ_wr_coarse, R.MEM_DLY_CA_fine, R.MEM_DLY_CA_coarse] s t ∧ PartsBut [.tier, .out,
      .hif] s t)) ∧
    (∀ u p fail, s.pcState u p = 2 → Gives (.patternRun u p fail) s (fun t => t.rd R.MEM_PC_CTL_lane_fail [u, p] = fail % 2
      ^ R.MEM_PC_CTL_lane_fail.w ∧ t.rd R.MEM_PC_CTL_pattern_pass [u, p] = b2n (decide (fail % 2 ^ 40 = 0)) ∧ RegsBut
      [R.MEM_PC_CTL_lane_fail, R.MEM_PC_CTL_pattern_pass] s t ∧ PartsBut [] s t)) ∧
    (∀ u l, u < 20 → s.stackRuns u = true → s.columnsNow u < s.columnCap → s.lineIn u l = true → s.tier.passLeft = none → 0
      < s.rd R.MEM_PATROL_CFG_lines_per_beat [] → Gives (.patrolScrub u [] [l]) s (fun t => t.poison.has [l] = true ∧ (∀ k,
      k ≠ [l] → t.poison.has k = s.poison.has k) ∧ t.mem = s.mem ∧ RegsBut [R.MEM_ERR_INFO_stack, R.MEM_ERR_INFO_pc,
      R.MEM_ERR_INFO_extent, R.MEM_ERR_INFO_line] s t ∧ PartsBut [.out, .hif, .tier, .poison] s t)) ∧
    (∀ u p, s.pcState u p ≠ 3 → (s.pc u p).errors.1 = s.beat → 64 ≤ (s.pc u p).errors.2 → (s.pc u p).wait = [] →
      s.trk.flowWait = [] → p < 32 → Gives (.pcFailed u p) s (fun t => t.rd R.MEM_PC_STATUS_state [u, p] = 3 ∧ bitAt (t.rd
      R.MEM_STACK_STATUS_failed_pcs [u]) p = true ∧ t.mem = s.mem ∧ RegsBut [R.MEM_PC_STATUS_state, R.MEM_PC_CTL_recal,
      R.MEM_STACK_STATUS_failed_pcs, R.GLB_DEGRADED_degraded] s t ∧ PartsBut [.out, .hif, .sw, .ports, .ras, .answers,
      .tier] s t)) ∧
    (∀ u, s.stackRuns u = true → s.extentsIn false u = [] → Gives (.stackFailed u) s (fun t => t.rd R.MEM_STACK_STATUS_state
      [u] = 4 ∧ t.mem = s.mem ∧ RegsBut [R.MEM_STACK_STATUS_state, R.GLB_DEGRADED_degraded] s t ∧ PartsBut [.out, .hif, .sw,
      .ports, .ras, .answers, .tier, .pool] s t)) ∧
    (∀ u, s.rd R.MEM_STACK_STATUS_state [u] = 0 → s.on R.SEC_BOOT_STATUS_config_ok [] = true → Gives (.stackInitDone u true)
      s (fun t => t.rd R.MEM_STACK_STATUS_state [u] = 1 ∧ RegsBut [R.MEM_STACK_STATUS_state] s t ∧ PartsBut [.out, .hif] s
      t))

/-- R208: at an age tick each placed extent is one older and every heat halves. R210, R211: a die short of free slots begins
to demote its oldest eligible extent, a hot board extent to be promoted. R212, R213: the next chunk not copied is locked; a
copy within 2 microseconds marks it copied, a later one is abandoned; R212, R214: a pause ends, and an extent wholly copied
lies at its destination from the next beat on. R215: MEM_MOVE_CMD begins a move. R216, R217: a retired stack sends its
extent away, and the commands of a board channel take it from OFF through training and draining to POWERED OFF or FAILED. -/
def Obligations.TierMoves : Prop :=
  ∀ s : State, Serves s →
    (s.beat % 2 ^ s.rd R.MEM_AGE_CFG_period_log2 [] = 0 → s.tier.ageAt ≠ s.beat + 1 → s.aged.Nodup → s.tier.heat.wf = true →
      Gives (.ageTick) s (fun t => (∀ e ∈ s.aged, t.tier.age.get 0 [e] = min 65535 (s.tier.age.get 0 [e] + 1)) ∧ (∀ k,
      t.tier.heat.get 0 k = s.tier.heat.get 0 k / 2) ∧ t.tier.loc = s.tier.loc ∧ RegsBut [] s t ∧ PartsBut [.tier] s t)) ∧
    (∀ d e (l : Loc), s.on R.MEM_TIER_CFG_enable [] = true → s.stackFree d < s.rd R.MEM_TIER_CFG_low_free [] → s.mayMove d =
      true → s.oldestEligible d = some e → s.boardDst d = some l → Gives (.demotion d) s (fun t => t.tier.moves.get? [e] =
      some { kind := .demotion, src := s.tier.loc.get? [e], dst := l, die := d } ∧ t.tier.loc = s.tier.loc ∧ t.mem = s.mem ∧
      RegsBut [] s t ∧ PartsBut [.tier] s t)) ∧
    (∀ e (l : Loc), s.on R.MEM_TIER_CFG_enable [] = true → s.inBoard e = true → s.tier.moves.has [e] = false → (s.ext s.node
      e).state = .held → s.rd R.MEM_TIER_CFG_promote_heat [] ≤ s.tier.heat.get 0 [e] → s.mayMove (s.ext s.node e).die = true
      → s.pkg.hubLost.has [(s.ext s.node e).die] = false → s.movesAt true (s.tier.loc.get {} [e]).unit = 0 →
      s.tier.swaps.vals.contains e = false → s.promoteTo (s.ext s.node e).die = some l → Gives (.promotion e) s (fun t =>
      t.tier.moves.get? [e] = some { kind := .promotion, src := s.tier.loc.get? [e], dst := l, die := (s.ext s.node e).die }
      ∧ t.tier.loc = s.tier.loc ∧ t.mem = s.mem ∧ RegsBut [] s t ∧ PartsBut [.tier] s t)) ∧
    (∀ e k (m : Move), Settled s → s.tier.moves.get? [e] = some m → m.lock = none → m.whole = none → m.resumeAt = none →
      m.urgent = none → m.gapUntil ≤ s.now → s.moveCut e m = false → (s.ext s.node e).state = .held → (List.range
      1024).find? (fun k => !bitAt m.copied k) = some k → Gives (.migrationChunk e) s (fun t => t.tier.moves.get? [e] = some
      { m with lock := some (k, s.now) } ∧ RegsBut [] s t ∧ PartsBut [.tier] s t)) ∧
    (∀ e k t0 (m : Move), s.tier.moves.get? [e] = some m → m.lock = some (k, t0) → s.now ≤ t0 + 2000 → m.wait = [] →
      s.trk.flowWait = [] → (m.copied ||| 1 <<< k) % 2 ^ 1024 ≠ 2 ^ 1024 - 1 → Gives (.chunkCopyDone e) s (fun t =>
      t.tier.moves.get? [e] = some
      { m with lock := none, gapUntil := s.now + 8 * s.rd R.MEM_MIG_CFG_gap [], abandons := 0, copied := m.copied ||| 1 <<< k, whole := none }
      ∧ t.mem = s.mem ∧ RegsBut [] s t ∧ PartsBut [.tier, .poison] s t)) ∧
    (∀ e k t0 (m : Move), s.tier.moves.get? [e] = some m → m.lock = some (k, t0) → t0 + 2000 < s.now → m.wait = [] →
      s.trk.flowWait = [] → m.abandons < 7 → m.resumeAt = none → Gives (.chunkCopyDone e) s (fun t => t.tier.moves.get? [e]
      = some { m with lock := none, gapUntil := s.now + 8 * s.rd R.MEM_MIG_CFG_gap [], abandons := m.abandons + 1 } ∧
      RegsBut [] s t ∧ PartsBut [.tier, .out, .hif] s t)) ∧
    (∀ e b (m : Move), s.tier.moves.get? [e] = some m → m.resumeAt = some b → b ≤ s.now → Gives (.movePauseEnd e) s (fun t
      => t.tier.moves.get? [e] = some { m with resumeAt := none } ∧ RegsBut [] s t ∧ PartsBut [.tier] s t)) ∧
    (∀ e b (m : Move), Settled s → s.tier.moves.get? [e] = some m → m.whole = some b → s.beat ≠ b → s.tier.swaps.get? [e] =
      none → e < s.extents s.node → Gives (.homeDieSwitch e) s (fun t => t.tier.moves.has [e] = false ∧ t.tier.loc.get? [e]
      = some m.dst ∧ (t.ext s.node e) = { s.ext s.node e with die := m.die } ∧ t.mem = s.mem ∧ RegsBut [] s t ∧ PartsBut
      [.pool, .tier] s t)) ∧
    (∀ e die (l : Loc) (dst : Loc), e < 2 ^ 18 → die < 2 → s.isReady B.mem = true → (s.ext s.node e).state = .held →
      s.tier.moves.has [e] = false → s.bindOf e = none → s.mayMove (s.ext s.node e).die = true → s.tier.loc.get? [e] = some
      l → s.movesAt l.board l.unit = 0 → s.pick false true (stacksOf die) = some dst → Gives (.moveCmd (e + die <<< 19)) s
      (fun t => t.tier.moves.get? [e] = some { kind := .command, src := some l, dst := dst, die := die } ∧ t.rd
      R.MEM_MOVE_RESULT_status [] = 0 ∧ t.tier.loc = s.tier.loc ∧ RegsBut [R.MEM_MOVE_RESULT_status] s t ∧ PartsBut [.tier]
      s t)) ∧
    (∀ u e die (l : Loc) (dst : Loc), Settled s → s.isReady B.mem = true → s.rd R.MEM_STACK_STATUS_state [u] = 1 →
      s.tier.loc.entries = [([e], l)] → l.board = false → l.unit = u → u < 20 → s.tier.moves = Map.empty → (s.ext s.node
      e).state = .held → 0 < s.rd R.MEM_MIG_CFG_max_moves [] → s.freeSlots false u < s.slotsFree → s.freeSlots false u <
      s.stackFree (dieOfStack u) → (s.wr R.MEM_STACK_STATUS_state [u] 2).refuge e = some (dst, die) → Gives (.retire u) s
      (fun t => t.rd R.MEM_STACK_STATUS_state [u] = 2 ∧ t.rd R.MEM_STACK_STATUS_result [u] = 0 ∧ t.tier.moves.get? [e] =
      some { kind := .retirement, src := some l, dst := dst, die := die } ∧ t.mem = s.mem ∧ RegsBut
      [R.MEM_STACK_STATUS_state, R.MEM_STACK_STATUS_result] s t ∧ PartsBut [.tier] s t)) ∧
    (∀ c, s.isReady B.brd = true → (s.chState c = 0 ∨ s.chState c = 5) → Gives (.channelEnable c) s (fun t => t.chState c =
      1 ∧ t.out = s.out ++ [.pin (2 + c) 1] ∧ RegsBut [R.BRD_CH_STATUS_state] s t ∧ PartsBut [.out] s t)) ∧
    (∀ c (d : Spd), Settled s → s.chState c = 1 → accepted d = true → s.tier.boot.get 0 [c] ≤ 16 * d.capacityGiB →
      s.tier.gone.get 0 [c] = 0 → Gives (.channelTrained c (some d)) s (fun t => t.chState c = 2 ∧ t.rd
      R.BRD_CH_STATUS_capacity [c] = d.capacityGiB ∧ RegsBut [R.BRD_CH_STATUS_state, R.BRD_CH_STATUS_mrdimm,
      R.BRD_CH_STATUS_capacity] s t ∧ PartsBut [.tier, .out, .hif] s t)) ∧
    (∀ c, s.chState c = 1 → Gives (.channelTrained c none) s (fun t => t.chState c = 0 ∧ RegsBut [R.BRD_CH_STATUS_state] s t
      ∧ PartsBut [] s t)) ∧
    (∀ c, Settled s → s.isReady B.brd = true → c < 8 → s.chState c = 2 → s.tier.loc = Map.empty → s.tier.moves = Map.empty →
      Gives (.channelDrain c) s (fun t => t.chState c = 4 ∧ t.rd R.BRD_CH_STATUS_result [c] = 0 ∧ t.tier.gone.get? [c] =
      some (s.rd R.BRD_CH_STATUS_slots [c]) ∧ RegsBut [R.BRD_CH_STATUS_state, R.BRD_CH_STATUS_result] s t ∧ PartsBut [.tier,
      .pool] s t)) ∧
    (∀ c, s.isReady B.brd = true → (s.chState c = 4 ∨ s.chState c = 6) → Gives (.powerOff c) s (fun t => t.chState c = 5 ∧
      t.out = s.out ++ [.pin (2 + c) 0] ∧ RegsBut [R.BRD_CH_STATUS_state] s t ∧ PartsBut [.out] s t)) ∧
    (∀ c, s.chState c = 2 → s.extentsIn true c = [] → Gives (.channelFailed c) s (fun t => t.chState c = 6 ∧ t.mem = s.mem ∧
      RegsBut [R.BRD_CH_STATUS_state, R.GLB_DEGRADED_degraded] s t ∧ PartsBut [.out, .hif, .sw, .ports, .ras, .answers,
      .pool, .tier] s t))

/-! ### Compute (09) -/

/-- R253, R254: each integer instruction and each immediate form, with its fields in range and every other bit 0, writes its
result modulo 2^64 to sd, a division by zero writes all ones (the dividend for the remainder) and sets FLAGS.div_zero, and
the next instruction follows; nothing else changes. -/
def Obligations.ScalarIntegers : Prop :=
  ∀ s : State, Serves s →
    (∀ n x (w : BitVec 64), Issues s n 0x01 w → w.toNat = x → only x [mD, mA, mB, mT] = true → fT x ≤ 1 → Gives (.sadd n w)
      s (Steps s n (fun k => takes (fD x) (k.sr (fA x) + k.sr (fB x), 0) k))) ∧
    (∀ n x (w : BitVec 64), Issues s n 0x02 w → w.toNat = x → only x [mD, mA, mB, mT] = true → fT x ≤ 1 → Gives (.ssub n w)
      s (Steps s n (fun k => takes (fD x) (k.sr (fA x) + 2 ^ 64 - k.sr (fB x), 0) k))) ∧
    (∀ n x (w : BitVec 64), Issues s n 0x03 w → w.toNat = x → only x [mD, mA, mB, mT] = true → fT x ≤ 1 → Gives (.smul n w)
      s (Steps s n (fun k => takes (fD x) (k.sr (fA x) * k.sr (fB x), 0) k))) ∧
    (∀ n x (w : BitVec 64), Issues s n 0x04 w → w.toNat = x → only x [mD, mA, mB, mT] = true → fT x ≤ 1 → Gives (.smulh n w)
      s (Steps s n (fun k => takes (fD x) (fieldOfInt 64 (val64 (fT x) (k.sr (fA x)) * val64 (fT x) (k.sr (fB x)) / 2 ^ 64),
      0) k))) ∧
    (∀ n x (w : BitVec 64), Issues s n 0x05 w → w.toNat = x → only x [mD, mA, mB, mT] = true → fT x ≤ 1 → Gives (.sand n w)
      s (Steps s n (fun k => takes (fD x) (k.sr (fA x) &&& k.sr (fB x), 0) k))) ∧
    (∀ n x (w : BitVec 64), Issues s n 0x06 w → w.toNat = x → only x [mD, mA, mB, mT] = true → fT x ≤ 1 → Gives (.sor n w) s
      (Steps s n (fun k => takes (fD x) (k.sr (fA x) ||| k.sr (fB x), 0) k))) ∧
    (∀ n x (w : BitVec 64), Issues s n 0x07 w → w.toNat = x → only x [mD, mA, mB, mT] = true → fT x ≤ 1 → Gives (.sxor n w)
      s (Steps s n (fun k => takes (fD x) (k.sr (fA x) ^^^ k.sr (fB x), 0) k))) ∧
    (∀ n x (w : BitVec 64), Issues s n 0x08 w → w.toNat = x → only x [mD, mA, mB, mT] = true → fT x ≤ 1 → Gives (.sshl n w)
      s (Steps s n (fun k => takes (fD x) (k.sr (fA x) * 2 ^ (k.sr (fB x) % 64), 0) k))) ∧
    (∀ n x (w : BitVec 64), Issues s n 0x09 w → w.toNat = x → only x [mD, mA, mB, mT] = true → fT x ≤ 1 → Gives (.sshr n w)
      s (Steps s n (fun k => takes (fD x) (shr64 (fT x) (k.sr (fA x)) (k.sr (fB x) % 64), 0) k))) ∧
    (∀ n x (w : BitVec 64), Issues s n 0x0A w → w.toNat = x → only x [mD, mA, mB, mT] = true → fT x ≤ 1 → Gives (.smin n w)
      s (Steps s n (fun k => takes (fD x) (if val64 (fT x) (k.sr (fB x)) < val64 (fT x) (k.sr (fA x)) then k.sr (fB x) else
      k.sr (fA x), 0) k))) ∧
    (∀ n x (w : BitVec 64), Issues s n 0x0B w → w.toNat = x → only x [mD, mA, mB, mT] = true → fT x ≤ 1 → Gives (.smax n w)
      s (Steps s n (fun k => takes (fD x) (if val64 (fT x) (k.sr (fA x)) < val64 (fT x) (k.sr (fB x)) then k.sr (fB x) else
      k.sr (fA x), 0) k))) ∧
    (∀ n x (w : BitVec 64), Issues s n 0x0C w → w.toNat = x → only x [mD, mA, mB, mT, mF] = true → fT x ≤ 1 → fF x ≤ 3 →
      Gives (.scmp n w) s (Steps s n (fun k => takes (fD x) (b2n (cmpInt (fF x) (val64 (fT x) (k.sr (fA x))) (val64 (fT x)
      (k.sr (fB x)))), 0) k))) ∧
    (∀ n x (w : BitVec 64), Issues s n 0x0D w → w.toNat = x → only x [mD, mA, mB, mC, mT] = true → fT x ≤ 1 → Gives (.ssel n
      w) s (Steps s n (fun k => takes (fD x) (if k.sr (fC x) = 0 then k.sr (fB x) else k.sr (fA x), 0) k))) ∧
    (∀ n x (w : BitVec 64), Issues s n 0x0E w → w.toNat = x → only x [mD, mA, mB, mT] = true → fT x ≤ 1 → Gives (.sdiv n w)
      s (Steps s n (fun k => takes (fD x) (if k.sr (fB x) = 0 then (2 ^ 64 - 1, Fl.divZero) else (fieldOfInt 64 ((val64 (fT
      x) (k.sr (fA x))).tdiv (val64 (fT x) (k.sr (fB x)))), 0)) k))) ∧
    (∀ n x (w : BitVec 64), Issues s n 0x0F w → w.toNat = x → only x [mD, mA, mB, mT] = true → fT x ≤ 1 → Gives (.srem n w)
      s (Steps s n (fun k => takes (fD x) (if k.sr (fB x) = 0 then (k.sr (fA x), Fl.divZero) else (fieldOfInt 64 ((val64 (fT
      x) (k.sr (fA x))).tmod (val64 (fT x) (k.sr (fB x)))), 0)) k))) ∧
    (∀ n x (w : BitVec 64), Issues s n 0x10 w → w.toNat = x → only x [mD, mA, mIT, mImm] = true → iT x = 0 → Gives (.saddi n
      w) s (Steps s n (fun k => takes (fD x) (k.sr (fA x) + iSext x, 0) k))) ∧
    (∀ n x (w : BitVec 64), Issues s n 0x11 w → w.toNat = x → only x [mD, mA, mIT, mImm] = true → iT x = 0 → Gives (.sandi n
      w) s (Steps s n (fun k => takes (fD x) (k.sr (fA x) &&& iSext x, 0) k))) ∧
    (∀ n x (w : BitVec 64), Issues s n 0x12 w → w.toNat = x → only x [mD, mA, mIT, mImm] = true → iT x = 0 → Gives (.sori n
      w) s (Steps s n (fun k => takes (fD x) (k.sr (fA x) ||| iSext x, 0) k))) ∧
    (∀ n x (w : BitVec 64), Issues s n 0x13 w → w.toNat = x → only x [mD, mA, mIT, mImm] = true → iT x = 0 → Gives (.sxori n
      w) s (Steps s n (fun k => takes (fD x) (k.sr (fA x) ^^^ iSext x, 0) k))) ∧
    (∀ n x (w : BitVec 64), Issues s n 0x14 w → w.toNat = x → only x [mD, mA, mIT, mImm] = true → iT x = 0 → iImm x < 64 →
      Gives (.sshli n w) s (Steps s n (fun k => takes (fD x) (k.sr (fA x) * 2 ^ iImm x, 0) k))) ∧
    (∀ n x (w : BitVec 64), Issues s n 0x15 w → w.toNat = x → only x [mD, mA, mIT, mImm] = true → iT x ≤ 1 → iImm x < 64 →
      Gives (.sshri n w) s (Steps s n (fun k => takes (fD x) (shr64 (iT x) (k.sr (fA x)) (iImm x), 0) k))) ∧
    (∀ n x (w : BitVec 64), Issues s n 0x16 w → w.toNat = x → only x [mD, mA, mIT, mImm] = true → iT x = 0 → fA x = 0 →
      Gives (.sli n w) s (Steps s n (fun k => takes (fD x) (iSext x, 0) k))) ∧
    (∀ n x (w : BitVec 64), Issues s n 0x17 w → w.toNat = x → only x [mD, mA, mIT, mImm] = true → iT x = 0 → fA x = 0 →
      Gives (.slih n w) s (Steps s n (fun k => takes (fD x) (bitsOf (k.sr (fD x)) 0 32 + iImm x * 2 ^ 32, 0) k)))

/-- R236, R255, R256: each floating-point instruction of fp32 or fp64 takes the values of its operands, computes the exact
result, rounds it once to the format, and writes it to sd with the FLAGS bits of that rounding; min and max take the number
where the other is a NaN; compares and conversions as R255 says. The next instruction follows and nothing else changes. -/
def Obligations.ScalarFloats : Prop :=
  ∀ s : State, Serves s →
    (∀ n x (w : BitVec 64), Issues s n 0x18 w → w.toNat = x → only x [mD, mA, mB, mT] = true → sFloat x = true → Gives
      (.sfadd n w) s (Steps s n (fun k => takes (fD x) ((sFmt x).result false ((fpVal k x (fA x)).isNan || (fpVal k x (fB
      x)).isNan) (FV.add (fpVal k x (fA x)) (fpVal k x (fB x)))) k))) ∧
    (∀ n x (w : BitVec 64), Issues s n 0x19 w → w.toNat = x → only x [mD, mA, mB, mT] = true → sFloat x = true → Gives
      (.sfsub n w) s (Steps s n (fun k => takes (fD x) ((sFmt x).result false ((fpVal k x (fA x)).isNan || (fpVal k x (fB
      x)).isNan) (FV.sub (fpVal k x (fA x)) (fpVal k x (fB x)))) k))) ∧
    (∀ n x (w : BitVec 64), Issues s n 0x1A w → w.toNat = x → only x [mD, mA, mB, mT] = true → sFloat x = true → Gives
      (.sfmul n w) s (Steps s n (fun k => takes (fD x) ((sFmt x).result false ((fpVal k x (fA x)).isNan || (fpVal k x (fB
      x)).isNan) (FV.mul (fpVal k x (fA x)) (fpVal k x (fB x)))) k))) ∧
    (∀ n x (w : BitVec 64), Issues s n 0x1B w → w.toNat = x → only x [mD, mA, mB, mC, mT] = true → sFloat x = true → Gives
      (.sffma n w) s (Steps s n (fun k => takes (fD x) ((sFmt x).result false ((fpVal k x (fA x)).isNan || (fpVal k x (fB
      x)).isNan || (fpVal k x (fC x)).isNan) (FV.fma (fpVal k x (fA x)) (fpVal k x (fB x)) (fpVal k x (fC x)))) k))) ∧
    (∀ n x (w : BitVec 64), Issues s n 0x1C w → w.toNat = x → only x [mD, mA, mB, mT] = true → sFloat x = true → Gives
      (.sfdiv n w) s (Steps s n (fun k => takes (fD x) (divResult (sFmt x) (fpVal k x (fA x)) (fpVal k x (fB x))) k))) ∧
    (∀ n x (w : BitVec 64), Issues s n 0x1D w → w.toNat = x → only x [mD, mA, mT] = true → sFloat x = true → Gives (.sfsqrt
      n w) s (Steps s n (fun k => takes (fD x) ((sFmt x).result false (fpVal k x (fA x)).isNan (fpVal k x (fA x)).sqrt) k))) ∧
    (∀ n x (w : BitVec 64), Issues s n 0x1E w → w.toNat = x → only x [mD, mA, mB, mT] = true → sFloat x = true → Gives
      (.sfmin n w) s (Steps s n (fun k => takes (fD x) ((sFmt x).encode false (FV.pick false (fpVal k x (fA x)) (fpVal k x
      (fB x))), 0) k))) ∧
    (∀ n x (w : BitVec 64), Issues s n 0x1F w → w.toNat = x → only x [mD, mA, mB, mT] = true → sFloat x = true → Gives
      (.sfmax n w) s (Steps s n (fun k => takes (fD x) ((sFmt x).encode false (FV.pick true (fpVal k x (fA x)) (fpVal k x
      (fB x))), 0) k))) ∧
    (∀ n x (w : BitVec 64), Issues s n 0x20 w → w.toNat = x → only x [mD, mA, mB, mT, mF] = true → sFloat x = true → fF x ≤
      3 → Gives (.sfcmp n w) s (Steps s n (fun k => takes (fD x) (b2n (cmpFV (fF x) (fpVal k x (fA x)) (fpVal k x (fB x))),
      0) k))) ∧
    (∀ n x (w : BitVec 64), Issues s n 0x21 w → w.toNat = x → only x [mD, mA, mT, mT2, mSat] = true → fT x ≤ 13 → fT2 x ≤ 13
      → (fSat x = true → 4 ≤ fT x ∧ fT x ≤ 7) → Gives (.scvt n w) s (Steps s n (fun k => takes (fD x) (scalarForm (fT x)
      (convert (fT2 x) (fT x) (fSat x) (k.sr (fA x))).1, (convert (fT2 x) (fT x) (fSat x) (k.sr (fA x))).2) k)))

/-- R257: sgetr reads a special register, ssetr writes FLAGS with its reserved bits 0. R258: a branch goes to its target
where its condition holds and on to the next instruction where it does not; jal and jalr write the address of the next
instruction. R259: tspawn pushes the descriptor in local memory, with the tenant of the task, and writes the status; R260:
tend ends a task without live requests and notifies; sbrk ends it by a fault with cause BRK. R261: a load writes the scalar
form of the bytes at its address, a store writes the low bytes of its register there. -/
def Obligations.ScalarControl : Prop :=
  ∀ s : State, Serves s →
    (∀ n x v (w : BitVec 64), Issues s n 0x22 w → w.toNat = x → only x [mD, mImm] = true → s.special n (iImm x) = some v →
      Gives (.sgetr n w) s (Steps s n (fun k => k.setS (fD x) v))) ∧
    (∀ n x (w : BitVec 64), Issues s n 0x23 w → w.toNat = x → only x [mA, mImm] = true → iImm x = 0 → Gives (.ssetr n w) s
      (Steps s n (fun k => { k with flags := k.sr (fA x) &&& 0x31F }))) ∧
    (∀ n x (w : BitVec 64), Issues s n 0x28 w → w.toNat = x → only x [mA, mB, mBF, mImm] = true → bF x ≤ 5 → branchTaken (bF
      x) ((s.core n).sr (fA x)) ((s.core n).sr (fB x)) = true → relative (s.core n).pc x % 8 = 0 → relative (s.core n).pc x
      < 8 * (s.codeOf (s.core n)).length → Gives (.bcmp n w) s (fun t => t.core n =
      { s.core n with pc := relative (s.core n).pc x } ∧ (∀ m, m ≠ n → t.core m = s.core m) ∧ RegsBut [] s t ∧ PartsBut
      [.cores] s t)) ∧
    (∀ n x (w : BitVec 64), Issues s n 0x28 w → w.toNat = x → only x [mA, mB, mBF, mImm] = true → bF x ≤ 5 → branchTaken (bF
      x) ((s.core n).sr (fA x)) ((s.core n).sr (fB x)) = false → Gives (.bcmp n w) s (Steps s n (fun k => k))) ∧
    (∀ n x (w : BitVec 64), Issues s n 0x29 w → w.toNat = x → only x [mD, mImm] = true → relative (s.core n).pc x % 8 = 0 →
      relative (s.core n).pc x < 8 * (s.codeOf (s.core n)).length → Gives (.jal n w) s (fun t => t.core n =
      { (s.core n).setS (fD x) ((s.core n).pc + 8) with pc := relative (s.core n).pc x } ∧ (∀ m, m ≠ n → t.core m = s.core
      m) ∧ RegsBut [] s t ∧ PartsBut [.cores] s t)) ∧
    (∀ n x (w : BitVec 64), Issues s n 0x2A w → w.toNat = x → only x [mD, mA, mImm] = true → fieldOfInt 32 (((s.core n).sr
      (fA x) : Int) + 8 * bOff x) % 8 = 0 → fieldOfInt 32 (((s.core n).sr (fA x) : Int) + 8 * bOff x) < 8 * (s.codeOf
      (s.core n)).length → Gives (.jalr n w) s (fun t => t.core n =
      { (s.core n).setS (fD x) ((s.core n).pc + 8) with pc := fieldOfInt 32 (((s.core n).sr (fA x) : Int) + 8 * bOff x) } ∧
      (∀ m, m ≠ n → t.core m = s.core m) ∧ RegsBut [] s t ∧ PartsBut [.cores] s t)) ∧
    (∀ n x q (w : BitVec 64), Issues s n 0x38 w → w.toNat = x → only x [mD, mA, mB] = true → (s.core n).sr (fA x) % 64 = 0 →
      (s.core n).sr (fB x) &&& 0x17F = (s.core n).sr (fB x) → (s.localAt n ((s.core n).sr (fA x)) 64).isSome = true →
      s.arriving n = [] → (s.core n).sr (fB x) = q → q < 128 → s.pushStatus (withTenant (s.peek n ((s.core n).sr (fA x)) 64)
      (dTenant ((s.core n).task.getD 0))) q = .ok → Gives (.tspawn n w) s (fun t => (t.core n).sr (fD x) = 0 ∧ (t.core
      q).deque = withTenant (s.peek n ((s.core n).sr (fA x)) 64) (dTenant ((s.core n).task.getD 0)) :: (s.core q).deque ∧
      (t.core n).pc = nextPc s n ∧ RegsBut [] s t ∧ PartsBut [.cores] s t)) ∧
    (∀ n x (w : BitVec 64), Issues s n 0x39 w → w.toNat = x → only x [] = true → s.liveOf (.core n) = [] → Gives (.tend n w)
      s (fun t => (t.core n).task = none ∧ (t.core n).stage = 1 ∧ t.flying = s.flying ++ (if dNotify ((s.core n).task.getD
      0) then [(dNotifyCore ((s.core n).task.getD 0), dNotifyCtr ((s.core n).task.getD 0), 1, .ok)] else []) ∧ (∀ m, m ≠ n →
      t.core m = s.core m) ∧ RegsBut [] s t ∧ PartsBut [.cores, .flying] s t)) ∧
    (∀ n x (w : BitVec 64), Issues s n 0x3A w → w.toNat = x → only x [] = true → Gives (.snop n w) s (Steps s n (fun k =>
      k))) ∧
    (∀ n x (w : BitVec 64), Issues s n 0x3B w → w.toNat = x → only x [] = true → bitAt (s.rd R.CMP_EVT_events []) 0 = false
      → Gives (.sbrk n w) s (fun t => (t.core n).task = none ∧ t.rd R.CMP_FAULT_INFO_core [] = n % 2 ^
      R.CMP_FAULT_INFO_core.w ∧ t.rd R.CMP_FAULT_INFO_cause [] = Fc.brk ∧ bitAt (t.rd R.CMP_EVT_events []) 0 = true ∧ (∀ m,
      m ≠ n → t.core m = s.core m) ∧ RegsBut [R.CMP_FAULT_INFO_core, R.CMP_FAULT_INFO_cause, R.CMP_FAULT_INFO_image,
      R.CMP_FAULT_INFO_offset, R.CMP_FAULT_USER_user] s t ∧ PartsBut [.out, .hif, .cores] s t)) ∧
    (∀ n x (w : BitVec 64), Issues s n 0x30 w → w.toNat = x → only x [mD, mA, mT, mOff] = true → fT x ≤ 13 → effective
      (s.core n) x % tyBytes (fT x) = 0 → (s.localAt n (effective (s.core n) x) (tyBytes (fT x))).isSome = true → s.arriving
      n = [] → Gives (.sld n w) s (Steps s n (fun k => k.setS (fD x) (scalarForm (fT x) (s.peek n (effective (s.core n) x)
      (tyBytes (fT x))))))) ∧
    (∀ n x (w : BitVec 64), Issues s n 0x31 w → w.toNat = x → only x [mD, mA, mT, mOff] = true → fT x ≤ 13 → effective
      (s.core n) x % tyBytes (fT x) = 0 → (s.localAt n (effective (s.core n) x) (tyBytes (fT x))).isSome = true → s.arriving
      n = [] → Gives (.sst n w) s (fun t => t.core n = { s.core n with pc := nextPc s n } ∧ t.spm = (s.poke n (effective
      (s.core n) x) (tyBytes (fT x)) ((s.core n).sr (fD x))).spm ∧ t.csram = (s.poke n (effective (s.core n) x) (tyBytes (fT
      x)) ((s.core n).sr (fD x))).csram ∧ (∀ m, m ≠ n → t.core m = s.core m) ∧ RegsBut [] s t ∧ PartsBut [.cores, .spm,
      .csram] s t))

/-- R262, R264: each vector arithmetic, logical, shift and select instruction processes the registers of its run in
ascending order; the guarded lanes get the result of the lanes of its operands (or of the broadcast scalar), the others keep
their bits or become 0, and the flags of the guarded lanes are set; the next instruction follows and nothing else changes.
R236: a floating-point lane is the exact result rounded once (FP8 through FP32), an integer lane its result modulo the lane
or clamped. -/
def Obligations.VectorArithmetic : Prop :=
  ∀ s : State, Serves s →
    (∀ n x (w : BitVec 64), Issues s n 0x40 w → w.toNat = x → only x [mD, mG, mZ, mR, mE, mT, mA, mB, mBs, mSat] = true →
      (tyVFloat (fT x) = true ∨ tyVInt (fT x) = true) → satArith x = true → fA x + fR x ≤ 32 → (fBs x = true ∨ fB x + fR x ≤
      32) → fD x + fR x ≤ 32 → Gives (.vadd n w) s (Steps s n (fun k => vecRun x (fT x) (fun k i l => arith FV.add (· + ·) x
      (laneA x k i l) (laneB x k i l)) (fR x) k))) ∧
    (∀ n x (w : BitVec 64), Issues s n 0x41 w → w.toNat = x → only x [mD, mG, mZ, mR, mE, mT, mA, mB, mBs, mSat] = true →
      (tyVFloat (fT x) = true ∨ tyVInt (fT x) = true) → satArith x = true → fA x + fR x ≤ 32 → (fBs x = true ∨ fB x + fR x ≤
      32) → fD x + fR x ≤ 32 → Gives (.vsub n w) s (Steps s n (fun k => vecRun x (fT x) (fun k i l => arith FV.sub (· - ·) x
      (laneA x k i l) (laneB x k i l)) (fR x) k))) ∧
    (∀ n x (w : BitVec 64), Issues s n 0x42 w → w.toNat = x → only x [mD, mG, mZ, mR, mE, mT, mA, mB, mBs, mSat] = true →
      (tyVFloat (fT x) = true ∨ tyVInt (fT x) = true) → satArith x = true → fA x + fR x ≤ 32 → (fBs x = true ∨ fB x + fR x ≤
      32) → fD x + fR x ≤ 32 → Gives (.vmul n w) s (Steps s n (fun k => vecRun x (fT x) (fun k i l => arith FV.mul (· * ·) x
      (laneA x k i l) (laneB x k i l)) (fR x) k))) ∧
    (∀ n x (w : BitVec 64), Issues s n 0x43 w → w.toNat = x → only x [mD, mG, mZ, mR, mE, mT, mA, mB, mC, mBs, mSat] = true
      → tyVFloat (fT x) = true → satArith x = true → fA x + fR x ≤ 32 → (fBs x = true ∨ fB x + fR x ≤ 32) → fC x + fR x ≤ 32
      → fD x + fR x ≤ 32 → Gives (.vfma n w) s (Steps s n (fun k => vecRun x (fT x) (fun k i l => floatLane (fT x) (fSat x)
      ((tyValue (fT x) (laneA x k i l)).isNan || (tyValue (fT x) (laneB x k i l)).isNan || (tyValue (fT x) (laneC x k i
      l)).isNan) (FV.add (FV.mul (tyValue (fT x) (laneA x k i l)) (tyValue (fT x) (laneB x k i l))) (tyValue (fT x) (laneC x
      k i l)))) (fR x) k))) ∧
    (∀ n x (w : BitVec 64), Issues s n 0x44 w → w.toNat = x → only x [mD, mG, mZ, mR, mE, mT, mA, mB, mC, mBs, mSat] = true
      → tyVFloat (fT x) = true → satArith x = true → fA x + fR x ≤ 32 → (fBs x = true ∨ fB x + fR x ≤ 32) → fC x + fR x ≤ 32
      → fD x + fR x ≤ 32 → Gives (.vfnma n w) s (Steps s n (fun k => vecRun x (fT x) (fun k i l => floatLane (fT x) (fSat x)
      ((tyValue (fT x) (laneA x k i l)).isNan || (tyValue (fT x) (laneB x k i l)).isNan || (tyValue (fT x) (laneC x k i
      l)).isNan) (FV.add (FV.neg (FV.mul (tyValue (fT x) (laneA x k i l)) (tyValue (fT x) (laneB x k i l)))) (tyValue (fT x)
      (laneC x k i l)))) (fR x) k))) ∧
    (∀ n x (w : BitVec 64), Issues s n 0x45 w → w.toNat = x → only x [mD, mG, mZ, mR, mE, mT, mA, mB, mBs] = true →
      (tyVFloat (fT x) = true ∨ tyVInt (fT x) = true) → fA x + fR x ≤ 32 → (fBs x = true ∨ fB x + fR x ≤ 32) → fD x + fR x ≤
      32 → Gives (.vmin n w) s (Steps s n (fun k => vecRun x (fT x) (fun k i l => pickLane false x (laneA x k i l) (laneB x
      k i l)) (fR x) k))) ∧
    (∀ n x (w : BitVec 64), Issues s n 0x46 w → w.toNat = x → only x [mD, mG, mZ, mR, mE, mT, mA, mB, mBs] = true →
      (tyVFloat (fT x) = true ∨ tyVInt (fT x) = true) → fA x + fR x ≤ 32 → (fBs x = true ∨ fB x + fR x ≤ 32) → fD x + fR x ≤
      32 → Gives (.vmax n w) s (Steps s n (fun k => vecRun x (fT x) (fun k i l => pickLane true x (laneA x k i l) (laneB x k
      i l)) (fR x) k))) ∧
    (∀ n x (w : BitVec 64), Issues s n 0x47 w → w.toNat = x → only x [mD, mG, mZ, mR, mE, mT, mA, mSat] = true → (tyVFloat
      (fT x) = true ∨ (tyVInt (fT x) = true ∧ tySigned (fT x) = true)) → satArith x = true → fA x + fR x ≤ 32 → fD x + fR x
      ≤ 32 → Gives (.vabs n w) s (Steps s n (fun k => vecRun x (fT x) (fun k i l => unaryLane FV.abs (fun y => (y.natAbs :
      Int)) x (laneA x k i l)) (fR x) k))) ∧
    (∀ n x (w : BitVec 64), Issues s n 0x48 w → w.toNat = x → only x [mD, mG, mZ, mR, mE, mT, mA, mSat] = true → (tyVFloat
      (fT x) = true ∨ (tyVInt (fT x) = true ∧ tySigned (fT x) = true)) → satArith x = true → fA x + fR x ≤ 32 → fD x + fR x
      ≤ 32 → Gives (.vneg n w) s (Steps s n (fun k => vecRun x (fT x) (fun k i l => unaryLane FV.neg (fun y => -y) x (laneA
      x k i l)) (fR x) k))) ∧
    (∀ n x (w : BitVec 64), Issues s n 0x49 w → w.toNat = x → only x [mD, mG, mZ, mR, mE, mT, mA, mB, mBs] = true → fT x = 3
      → fA x + fR x ≤ 32 → (fBs x = true ∨ fB x + fR x ≤ 32) → fD x + fR x ≤ 32 → Gives (.vdiv n w) s (Steps s n (fun k =>
      vecRun x (fT x) (fun k i l => divResult fp32 (fp32.decode (laneA x k i l)) (fp32.decode (laneB x k i l))) (fR x) k))) ∧
    (∀ n x (w : BitVec 64), Issues s n 0x4A w → w.toNat = x → only x [mD, mG, mZ, mR, mE, mT, mA] = true → fT x = 3 → fA x +
      fR x ≤ 32 → fD x + fR x ≤ 32 → Gives (.vsqrt n w) s (Steps s n (fun k => vecRun x (fT x) (fun k i l => fp32.result
      false (fp32.decode (laneA x k i l)).isNan (fp32.decode (laneA x k i l)).sqrt) (fR x) k))) ∧
    (∀ n x (w : BitVec 64), Issues s n 0x4B w → w.toNat = x → only x [mD, mG, mZ, mR, mE, mT, mA, mB, mBs] = true → tyVec
      (fT x) = true → fA x + fR x ≤ 32 → (fBs x = true ∨ fB x + fR x ≤ 32) → fD x + fR x ≤ 32 → Gives (.vand n w) s (Steps s
      n (fun k => vecRun x (fT x) (fun k i l => ((laneA x k i l) &&& (laneB x k i l), 0)) (fR x) k))) ∧
    (∀ n x (w : BitVec 64), Issues s n 0x4C w → w.toNat = x → only x [mD, mG, mZ, mR, mE, mT, mA, mB, mBs] = true → tyVec
      (fT x) = true → fA x + fR x ≤ 32 → (fBs x = true ∨ fB x + fR x ≤ 32) → fD x + fR x ≤ 32 → Gives (.vor n w) s (Steps s
      n (fun k => vecRun x (fT x) (fun k i l => ((laneA x k i l) ||| (laneB x k i l), 0)) (fR x) k))) ∧
    (∀ n x (w : BitVec 64), Issues s n 0x4D w → w.toNat = x → only x [mD, mG, mZ, mR, mE, mT, mA, mB, mBs] = true → tyVec
      (fT x) = true → fA x + fR x ≤ 32 → (fBs x = true ∨ fB x + fR x ≤ 32) → fD x + fR x ≤ 32 → Gives (.vxor n w) s (Steps s
      n (fun k => vecRun x (fT x) (fun k i l => ((laneA x k i l) ^^^ (laneB x k i l), 0)) (fR x) k))) ∧
    (∀ n x (w : BitVec 64), Issues s n 0x4E w → w.toNat = x → only x [mD, mG, mZ, mR, mE, mT, mA, mB, mBs] = true → tyVInt
      (fT x) = true → fA x + fR x ≤ 32 → (fBs x = true ∨ fB x + fR x ≤ 32) → fD x + fR x ≤ 32 → Gives (.vshl n w) s (Steps s
      n (fun k => vecRun x (fT x) (fun k i l => ((laneA x k i l) * 2 ^ ((laneB x k i l) % tyBits (fT x)), 0)) (fR x) k))) ∧
    (∀ n x (w : BitVec 64), Issues s n 0x4F w → w.toNat = x → only x [mD, mG, mZ, mR, mE, mT, mA, mB, mBs] = true → tyVInt
      (fT x) = true → fA x + fR x ≤ 32 → (fBs x = true ∨ fB x + fR x ≤ 32) → fD x + fR x ≤ 32 → Gives (.vshr n w) s (Steps s
      n (fun k => vecRun x (fT x) (fun k i l => (fieldOfInt (tyBits (fT x)) (tyInt (fT x) (laneA x k i l) / 2 ^ ((laneB x k
      i l) % tyBits (fT x))), 0)) (fR x) k))) ∧
    (∀ n x (w : BitVec 64), Issues s n 0x54 w → w.toNat = x → only x [mD, mA, mB, mG, mR, mE, mT, mBs] = true → tyVec (fT x)
      = true → fA x + fR x ≤ 32 → (fBs x = true ∨ fB x + fR x ≤ 32) → fD x + fR x ≤ 32 → Gives (.vsel n w) s (Steps s n (fun
      k => selRun x (fR x) k))) ∧
    (∀ n x (w : BitVec 64), Issues s n 0x55 w → w.toNat = x → only x [mD, mG, mZ, mR, mE, mT, mA, mB, mC, mBs] = true →
      tyVec (fT x) = true → fA x + fR x ≤ 32 → (fBs x = true ∨ fB x + fR x ≤ 32) → fC x + fR x ≤ 32 → fD x + fR x ≤ 32 →
      Gives (.vselv n w) s (Steps s n (fun k => vecRun x (fT x) (fun k i l => (if laneC x k i l = 0 then laneB x k i l else
      laneA x k i l, 0)) (fR x) k))) ∧
    (∀ n x (w : BitVec 64), Issues s n 0x56 w → w.toNat = x → only x [mD, mG, mZ, mR, mE, mT, mA] = true → tyVec (fT x) =
      true → fD x + fR x ≤ 32 → Gives (.vbcast n w) s (Steps s n (fun k => vecRun x (fT x) (fun k i l => (bitsOf (k.sr (fA
      x)) 0 (tyBits (fT x)), 0)) (fR x) k))) ∧
    (∀ n x (w : BitVec 64), Issues s n 0x57 w → w.toNat = x → only x [mD, mG, mZ, mR, mE, mT, mA] = true → tyVec (fT x) =
      true → fA x + fR x ≤ 32 → fD x + fR x ≤ 32 → Gives (.vmov n w) s (Steps s n (fun k => vecRun x (fT x) (fun k i l =>
      (laneA x k i l, 0)) (fR x) k)))

/-- R263: vcvt, vunpk4 and vpk4 take the elements of their source run in order and convert each to the lane of the
destination. R264: vcmp sets the bits of a predicate whose lanes all compare true, and the predicate instructions combine
predicates or move them to and from a scalar. R265: the reductions fold the guarded lanes of a run to a scalar, and vext
takes one lane. The next instruction follows and nothing else changes. -/
def Obligations.VectorConversion : Prop :=
  ∀ s : State, Serves s →
    (∀ n x (w : BitVec 64), Issues s n 0x50 w → w.toNat = x → only x [mD, mG, mZ, mR, mE, mT, mA, mT2, mSat] = true → tyVec
      (fT x) = true → tyVec (fT2 x) = true → cvtRegs x ≠ 0 → fA x + cvtRegs x ≤ 32 → (fSat x = true → 4 ≤ fT x) → fD x + fR
      x ≤ 32 → Gives (.vcvt n w) s (Steps s n (fun k => vecRun x (fT x) (fun k i l => convLane (fT2 x) (fT x) (fSat x)
      (element (fT2 x) (fA x) k (i * lanes (fT x) + l))) (fR x) k))) ∧
    (∀ n x (w : BitVec 64), Issues s n 0x51 w → w.toNat = x → only x [mD, mG, mZ, mR, mE, mT, mA, mT2] = true → (fT x = 12 ∨
      fT x = 13) → fT2 x = 14 → fR x % 2 = 0 → fA x + fR x / 2 ≤ 32 → fD x + fR x ≤ 32 → Gives (.vunpk4 n w) s (Steps s n
      (fun k => vecRun x (fT x) (fun k i l => (if fT x = 13 then fieldOfInt 8 (signedOf 4 (element 14 (fA x) k (i * 256 +
      l))) else element 14 (fA x) k (i * 256 + l), 0)) (fR x) k))) ∧
    (∀ n x (w : BitVec 64), Issues s n 0x52 w → w.toNat = x → only x [mD, mG, mZ, mR, mE, mT, mA, mT2, mSat] = true → (fT2 x
      = 12 ∨ fT2 x = 13) → fT x = 14 → fA x + 2 * fR x ≤ 32 → fSat x = false → fD x + fR x ≤ 32 → Gives (.vpk4 n w) s (Steps
      s n (fun k => vecRun x (fT x) (fun k i l => (fieldOfInt 4 (tyInt (fT2 x) (element (fT2 x) (fA x) k (i * 512 + l))),
      0)) (fR x) k))) ∧
    (∀ n x (w : BitVec 64), Issues s n 0x52 w → w.toNat = x → only x [mD, mG, mZ, mR, mE, mT, mA, mT2, mSat] = true → (fT2 x
      = 12 ∨ fT2 x = 13) → fT x = 14 → fA x + 2 * fR x ≤ 32 → fSat x = true → fD x + fR x ≤ 32 → Gives (.vpk4 n w) s (Steps
      s n (fun k => vecRun x (fT x) (fun k i l => (fieldOfInt 4 (clampTo (if fT2 x = 13 then -8 else 0) (if fT2 x = 13 then
      7 else 15) (tyInt (fT2 x) (element (fT2 x) (fA x) k (i * 512 + l)))), if clampTo (if fT2 x = 13 then -8 else 0) (if
      fT2 x = 13 then 7 else 15) (tyInt (fT2 x) (element (fT2 x) (fA x) k (i * 512 + l))) = tyInt (fT2 x) (element (fT2 x)
      (fA x) k (i * 512 + l)) then 0 else Fl.saturated)) (fR x) k))) ∧
    (∀ n x (w : BitVec 64), Issues s n 0x53 w → w.toNat = x → only x [mD, mA, mB, mT, mF] = true → tyVec (fT x) = true → 1 ≤
      fD x → fD x ≤ 7 → fF x ≤ 3 → Gives (.vcmp n w) s (fun t => t.core n =
      { s.core n with pc := nextPc s n, p := (t.core n).p } ∧ (∀ m, m ≠ n → t.core m = s.core m) ∧ (∀ j, j < 64 → bitAt
      ((t.core n).pr (fD x)) j = (List.range (lanes (fT x) / 64)).all (fun i => if tyVFloat (fT x) then cmpFV (fF x)
      (tyValue (fT x) (laneA x (s.core n) 0 (j * (lanes (fT x) / 64) + i))) (tyValue (fT x) (laneB x (s.core n) 0 (j *
      (lanes (fT x) / 64) + i))) else cmpInt (fF x) (tyInt (fT x) (laneA x (s.core n) 0 (j * (lanes (fT x) / 64) + i)))
      (tyInt (fT x) (laneB x (s.core n) 0 (j * (lanes (fT x) / 64) + i))))) ∧ (∀ i, i ≠ fD x → (t.core n).pr i = (s.core
      n).pr i) ∧ RegsBut [] s t ∧ PartsBut [.cores] s t)) ∧
    (∀ n x (w : BitVec 64), Issues s n 0x60 w → w.toNat = x → only x [mD, mA, mB] = true → fA x ≤ 7 → fB x ≤ 7 → 1 ≤ fD x →
      fD x ≤ 7 → Gives (.pand n w) s (Steps s n (fun k => k.setP (fD x) (k.pr (fA x) &&& k.pr (fB x))))) ∧
    (∀ n x (w : BitVec 64), Issues s n 0x61 w → w.toNat = x → only x [mD, mA, mB] = true → fA x ≤ 7 → fB x ≤ 7 → 1 ≤ fD x →
      fD x ≤ 7 → Gives (.por n w) s (Steps s n (fun k => k.setP (fD x) (k.pr (fA x) ||| k.pr (fB x))))) ∧
    (∀ n x (w : BitVec 64), Issues s n 0x62 w → w.toNat = x → only x [mD, mA, mB] = true → fA x ≤ 7 → fB x ≤ 7 → 1 ≤ fD x →
      fD x ≤ 7 → Gives (.pxor n w) s (Steps s n (fun k => k.setP (fD x) (k.pr (fA x) ^^^ k.pr (fB x))))) ∧
    (∀ n x (w : BitVec 64), Issues s n 0x63 w → w.toNat = x → only x [mD, mA] = true → fA x ≤ 7 → 1 ≤ fD x → fD x ≤ 7 →
      Gives (.pnot n w) s (Steps s n (fun k => k.setP (fD x) ((2 ^ 64 - 1) ^^^ k.pr (fA x))))) ∧
    (∀ n x (w : BitVec 64), Issues s n 0x64 w → w.toNat = x → only x [mD, mA] = true → 1 ≤ fD x → fD x ≤ 7 → Gives (.pfroms
      n w) s (Steps s n (fun k => k.setP (fD x) (k.sr (fA x))))) ∧
    (∀ n x (w : BitVec 64), Issues s n 0x65 w → w.toNat = x → only x [mD, mA] = true → fA x ≤ 7 → Gives (.ptos n w) s (Steps
      s n (fun k => takes (fD x) (k.pr (fA x), 0) k))) ∧
    (∀ n x (w : BitVec 64), Issues s n 0x58 w → w.toNat = x → only x [mD, mA, mG, mR, mE, mT] = true → tyVFloat (fT x) =
      true → fA x + fR x ≤ 32 → Gives (.vredsum n w) s (Steps s n (fun k => takes (fD x) (treeSum 8 (foldRun k x (fR x)))
      k))) ∧
    (∀ n x (w : BitVec 64), Issues s n 0x58 w → w.toNat = x → only x [mD, mA, mG, mR, mE, mT] = true → tyVInt (fT x) = true
      → fA x + fR x ≤ 32 → Gives (.vredsum n w) s (Steps s n (fun k => takes (fD x) (fieldOfInt 64 (((List.range (fR
      x)).flatMap (runLanes k x)).foldl (fun a y => a + (y.map (tyInt (fT x))).getD 0) 0), 0) k))) ∧
    (∀ n x i y (w : BitVec 64), Issues s n 0x59 w → w.toNat = x → only x [mD, mA, mG, mR, mE, mT] = true → tyVec (fT x) =
      true → fA x + fR x ≤ 32 → maxOfRun (s.core n) x = some (i, y) → Gives (.vredmax n w) s (Steps s n (fun k => k.setS (fD
      x) (scalarForm (fT x) y)))) ∧
    (∀ n x (f : Fmt) (w : BitVec 64), Issues s n 0x59 w → w.toNat = x → only x [mD, mA, mG, mR, mE, mT] = true → fA x + fR x
      ≤ 32 → tyFmt (fT x) = some f → maxOfRun (s.core n) x = none → tyVec (fT x) = true → Gives (.vredmax n w) s (Steps s n
      (fun k => k.setS (fD x) f.qnan))) ∧
    (∀ n x (w : BitVec 64), Issues s n 0x59 w → w.toNat = x → only x [mD, mA, mG, mR, mE, mT] = true → tyVec (fT x) = true →
      fA x + fR x ≤ 32 → tyFmt (fT x) = none → maxOfRun (s.core n) x = none → Gives (.vredmax n w) s (fun t => t.core n =
      { (s.core n).setS (fD x) (scalarForm (fT x) s.freeVal) with pc := nextPc s n } ∧ t.fresh = s.fresh + 1 ∧ (∀ m, m ≠ n →
      t.core m = s.core m) ∧ RegsBut [] s t ∧ PartsBut [.cores, .fresh] s t)) ∧
    (∀ n x (w : BitVec 64), Issues s n 0x5A w → w.toNat = x → only x [mD, mA, mG, mR, mE, mT] = true → tyVec (fT x) = true →
      fA x + fR x ≤ 32 → Gives (.vredmaxi n w) s (Steps s n (fun k => takes (fD x) (((maxOfRun k x).map (·.1)).getD
      0xFFFFFFFF, 0) k))) ∧
    (∀ n x (w : BitVec 64), Issues s n 0x5B w → w.toNat = x → only x [mD, mA, mB, mE, mT] = true → tyVec (fT x) = true →
      Gives (.vext n w) s (Steps s n (fun k => takes (fD x) (scalarForm (fT x) (laneOf (fT x) (k.vr (fA x)) (k.sr (fB x) %
      lanes (fT x))), 0) k)))

/-- R261: a vector load puts the 256 bytes at its address, or four granules of 64 bytes a stride apart, into each register
of its run, four bytes for each guard bit; a vector store writes them in ascending order. R266, R267: mld, mst and mzero
move a tile whole, and mmac adds to each element of the tile the sum of the products of a row and a column of its operands.
R236: BF16, FP16 and FP8 sums are rounded as each is added, integers are exact modulo 2^32. -/
def Obligations.VectorMemory : Prop :=
  ∀ s : State, Serves s →
    (∀ n x (w : BitVec 64), Issues s n 0x32 w → w.toNat = x → only x (vldFields) = true → tyVec (fT x) = true → fD x + fR x
      ≤ 32 → effective (s.core n) x % 64 = 0 → (s.localAt n (effective (s.core n) x) (256 * fR x)).isSome = true →
      s.arriving n = [] → Gives (.vld n w) s (fun t => t.core n = { s.core n with pc := nextPc s n, v := (t.core n).v } ∧ (∀
      m, m ≠ n → t.core m = s.core m) ∧ (∀ i, i < fR x → (t.core n).vr (fD x + i) = maskWord ((s.core n).pr (fG x)) (fZ x)
      ((s.core n).vr (fD x + i)) (s.peek n (effective (s.core n) x + 256 * i) 256)) ∧ (∀ j, j < fD x ∨ fD x + fR x ≤ j →
      (t.core n).vr j = (s.core n).vr j) ∧ RegsBut [] s t ∧ PartsBut [.cores] s t)) ∧
    (∀ n x (w : BitVec 64), Issues s n 0x34 w → w.toNat = x → only x (mB :: vldFields) = true → tyVec (fT x) = true → fD x +
      fR x ≤ 32 → effective (s.core n) x % 64 = 0 → (s.core n).sr (fB x) % 64 = 0 → (granules (s.core n) x).any (fun a =>
      (s.localAt n a 64).isNone) = false → s.arriving n = [] → Gives (.vldg n w) s (fun t => t.core n =
      { s.core n with pc := nextPc s n, v := (t.core n).v } ∧ (∀ m, m ≠ n → t.core m = s.core m) ∧ (∀ i, i < fR x → (t.core
      n).vr (fD x + i) = maskWord ((s.core n).pr (fG x)) (fZ x) ((s.core n).vr (fD x + i)) (s.peek n (granule (s.core n) x i
      0) 64 + s.peek n (granule (s.core n) x i 1) 64 * 2 ^ 512 + s.peek n (granule (s.core n) x i 2) 64 * 2 ^ 1024 + s.peek
      n (granule (s.core n) x i 3) 64 * 2 ^ 1536)) ∧ (∀ j, j < fD x ∨ fD x + fR x ≤ j → (t.core n).vr j = (s.core n).vr j) ∧
      RegsBut [] s t ∧ PartsBut [.cores] s t)) ∧
    (∀ n x (w : BitVec 64), Issues s n 0x33 w → w.toNat = x → only x [mD, mA, mG, mR, mT, mOff] = true → tyVec (fT x) = true
      → fD x + fR x ≤ 32 → effective (s.core n) x % 64 = 0 → (s.localAt n (effective (s.core n) x) (256 * fR x)).isSome =
      true → s.arriving n = [] → Gives (.vst n w) s (fun t => t.core n = { s.core n with pc := nextPc s n } ∧ (t.spm =
      ((List.range (fR x)).foldl (fun u i => (List.range 64).foldl (fun v j => if bitAt ((s.core n).pr (fG x)) j then v.poke
      n (effective (s.core n) x + 256 * i + 4 * j) 4 (bitsOf ((s.core n).vr (fD x + i)) (32 * j) 32) else v) u) s).spm) ∧
      (t.csram = ((List.range (fR x)).foldl (fun u i => (List.range 64).foldl (fun v j => if bitAt ((s.core n).pr (fG x)) j
      then v.poke n (effective (s.core n) x + 256 * i + 4 * j) 4 (bitsOf ((s.core n).vr (fD x + i)) (32 * j) 32) else v) u)
      s).csram) ∧ (∀ m, m ≠ n → t.core m = s.core m) ∧ RegsBut [] s t ∧ PartsBut [.cores, .spm, .csram] s t)) ∧
    (∀ n x (w : BitVec 64), Issues s n 0x35 w → w.toNat = x → only x [mD, mA, mB, mG, mR, mT, mOff] = true → tyVec (fT x) =
      true → fD x + fR x ≤ 32 → effective (s.core n) x % 64 = 0 → (s.core n).sr (fB x) % 64 = 0 → (granules (s.core n)
      x).any (fun a => (s.localAt n a 64).isNone) = false → s.arriving n = [] → Gives (.vstg n w) s (fun t => t.core n =
      { s.core n with pc := nextPc s n } ∧ t.spm = ((List.range (fR x)).foldl (fun u i => (List.range 4).foldl (fun v q =>
      v.storeMasked n (granule (s.core n) x i q) 64 (16 * q) ((s.core n).pr (fG x)) (bitsOf ((s.core n).vr (fD x + i)) (512
      * q) 512)) u) s).spm ∧ t.csram = ((List.range (fR x)).foldl (fun u i => (List.range 4).foldl (fun v q => v.storeMasked
      n (granule (s.core n) x i q) 64 (16 * q) ((s.core n).pr (fG x)) (bitsOf ((s.core n).vr (fD x + i)) (512 * q) 512)) u)
      s).csram ∧ (∀ m, m ≠ n → t.core m = s.core m) ∧ RegsBut [] s t ∧ PartsBut [.cores, .spm, .csram] s t)) ∧
    (∀ n x (w : BitVec 64), Issues s n 0x80 w → w.toNat = x → only x [mTile, mA, mB, mKq, mClr, mTa, mTb] = true → (xTa x =
      12 ∨ xTa x = 13) → (xTb x = 12 ∨ xTb x = 13) → (s.core n).sr (fA x) % 64 = 0 → (s.core n).sr (fB x) % 64 = 0 →
      (s.localAt n ((s.core n).sr (fA x)) (32 * xK x * tyBytes (xTa x))).isSome = true → (s.localAt n ((s.core n).sr (fB x))
      (32 * xK x * tyBytes (xTa x))).isSome = true → s.arriving n = [] → Gives (.mmac n w) s (fun t => t.core n =
      { s.core n with pc := nextPc s n, t := (t.core n).t } ∧ (∀ m, m ≠ n → t.core m = s.core m) ∧ (∀ i j, i < 32 → j < 32 →
      tileAt ((t.core n).tile (xTile x)) i j = fieldOfInt 32 ((List.range (xK x)).foldl (fun a e => a + tyInt (xTa x)
      (bitsOf (s.peek n ((s.core n).sr (fA x)) (32 * xK x * tyBytes (xTa x))) (8 * (32 * e + i)) 8) * tyInt (xTb x) (bitsOf
      (s.peek n ((s.core n).sr (fB x)) (32 * xK x * tyBytes (xTa x))) (8 * (32 * e + j)) 8)) (if xClr x then 0 else (tileAt
      ((s.core n).tile (xTile x)) i j : Int)))) ∧ (∀ q, q ≠ xTile x → (t.core n).tile q = (s.core n).tile q) ∧ RegsBut [] s
      t ∧ PartsBut [.cores] s t)) ∧
    (∀ n x (w : BitVec 64), Issues s n 0x80 w → w.toNat = x → only x [mTile, mA, mB, mKq, mClr, mTa, mTb] = true → pairOk
      (xTa x) (xTb x) = true → (s.core n).sr (fA x) % 64 = 0 → (s.core n).sr (fB x) % 64 = 0 → (s.localAt n ((s.core n).sr
      (fA x)) (32 * xK x * tyBytes (xTa x))).isSome = true → (s.localAt n ((s.core n).sr (fB x)) (32 * xK x * tyBytes (xTa
      x))).isSome = true → s.arriving n = [] → Gives (.mmac n w) s (fun t => t.core n =
      { s.core n with pc := nextPc s n, t := (t.core n).t, flags := (t.core n).flags } ∧ (∀ m, m ≠ n → t.core m = s.core m)
      ∧ (∀ i j, i < 32 → j < 32 → tileAt ((t.core n).tile (xTile x)) i j = (dot (xTa x) (xTb x) (fun e => bitsOf (s.peek n
      ((s.core n).sr (fA x)) (32 * xK x * tyBytes (xTa x))) ((32 * e + i) * tyBits (xTa x)) (tyBits (xTa x))) (fun e =>
      bitsOf (s.peek n ((s.core n).sr (fB x)) (32 * xK x * tyBytes (xTa x))) ((32 * e + j) * tyBits (xTa x)) (tyBits (xTa
      x))) (if xTa x = 6 ∨ xTa x = 7 then xK x / 2 else xK x) (tileAt (if xClr x then 0 else (s.core n).tile (xTile x)) i j,
      0)).1 % 2 ^ 32) ∧ (∀ q, q ≠ xTile x → (t.core n).tile q = (s.core n).tile q) ∧ RegsBut [] s t ∧ PartsBut [.cores] s
      t)) ∧
    (∀ n x (w : BitVec 64), Issues s n 0x81 w → w.toNat = x → only x [mTile] = true → Gives (.mzero n w) s (Steps s n (fun k
      => k.setTile (xTile x) 0))) ∧
    (∀ n x (w : BitVec 64), Issues s n 0x82 w → w.toNat = x → only x [mTile, mA, mTa] = true → (xTa x = 3 ∨ xTa x = 9) →
      (s.localAt n ((s.core n).sr (fA x)) 4096).isSome = true → s.arriving n = [] → Gives (.mld n w) s (Steps s n (fun k =>
      k.setTile (xTile x) (s.peek n (k.sr (fA x)) 4096)))) ∧
    (∀ n x (w : BitVec 64), Issues s n 0x83 w → w.toNat = x → only x [mTile, mA, mTa] = true → (xTa x = 3 ∨ xTa x = 9) →
      (s.localAt n ((s.core n).sr (fA x)) 4096).isSome = true → s.arriving n = [] → Gives (.mst n w) s (fun t => t.core n =
      { s.core n with pc := nextPc s n } ∧ t.spm = (s.poke n ((s.core n).sr (fA x)) 4096 ((s.core n).tile (xTile x) % 2 ^
      32768)).spm ∧ t.csram = (s.poke n ((s.core n).sr (fA x)) 4096 ((s.core n).tile (xTile x) % 2 ^ 32768)).csram ∧ (∀ m, m
      ≠ n → t.core m = s.core m) ∧ RegsBut [] s t ∧ PartsBut [.cores, .spm, .csram] s t)) ∧
    (∀ n x (w : BitVec 64), Issues s n 0x83 w → w.toNat = x → only x [mTile, mA, mTa] = true → (xTa x = 4 ∨ xTa x = 5) →
      (s.localAt n ((s.core n).sr (fA x)) 2048).isSome = true → s.arriving n = [] → Gives (.mst n w) s (fun t => t.core n =
      { s.core n with pc := nextPc s n, flags := (t.core n).flags } ∧ t.spm = (s.poke n ((s.core n).sr (fA x)) 2048
      ((List.range 1024).foldl (fun d e => d + (convert 3 (xTa x) false (tileAt ((s.core n).tile (xTile x)) (e / 32) (e %
      32))).1 * 2 ^ (16 * e)) 0)).spm ∧ t.csram = (s.poke n ((s.core n).sr (fA x)) 2048 ((List.range 1024).foldl (fun d e =>
      d + (convert 3 (xTa x) false (tileAt ((s.core n).tile (xTile x)) (e / 32) (e % 32))).1 * 2 ^ (16 * e)) 0)).csram ∧ (∀
      m, m ≠ n → t.core m = s.core m) ∧ RegsBut [] s t ∧ PartsBut [.cores, .spm, .csram] s t))

/-! ### Fabric instructions (10) -/

/-- R273, R274: each fabric access, with its fields and operands in range and room at issue, allocates an issued entry that
remembers what its answer is for, and sends the request of its type with the address, the length and the data of local
memory; an atomic with a destination leaves that register owed. R282: ccontrib sends a contribution to its owner. R283:
gissue hands a lookup to the unit of its home die. R284: qpost writes its status and takes the next slot of the ring. The
next instruction follows. -/
def Obligations.FabricAccesses : Prop :=
  ∀ s : State, Serves s →
    (∀ n x (w : BitVec 64), Issues s n 0xC0 w → w.toNat = x → only x [mA, mB, mC, mCn, mComb, mTc, mCnen] = true → gTc x ≠ 7
      → (gComb x = true → (s.core n).sr (fC x) ≤ 4080) → (s.core n).sr (fA x) < 2 ^ 56 → 0 < (s.core n).sr (fC x) → (s.core
      n).sr (fC x) ≤ 65536 → (s.localAt n ((s.core n).sr (fB x)) ((s.core n).sr (fC x))).isSome = true → MayRequest s n
      (s.coreRequest n x (if (s.core n).sr (fC x) ≤ 4080 then 0x10 else 0x11) ((s.core n).sr (fA x)) ((s.core n).sr (fC x))
      0 false 0 0) → Gives (.fld n w) s (fun t => t.core n = { s.core n with pc := nextPc s n } ∧ (∀ m, m ≠ n → t.core m =
      s.core m) ∧ Requests s n (.load n ((s.core n).sr (fB x)) ((s.core n).sr (fC x)) (gCounter x)) (s.coreRequest n x (if
      (s.core n).sr (fC x) ≤ 4080 then 0x10 else 0x11) ((s.core n).sr (fA x)) ((s.core n).sr (fC x)) 0 false 0 0) t ∧
      RegsBut [R.EDG_VIOL_INFO_port, R.EDG_VIOL_INFO_agent, R.EDG_VIOL_INFO_step, R.EDG_VIOL_INFO_src_eid,
      R.EDG_VIOL_INFO_msg_type, R.EDG_VIOL_INFO_tenant, R.EDG_VIOL_ADDR_addr] s t ∧ PartsBut [.out, .hif, .sw, .ports, .ras,
      .answers, .trk, .cores] s t)) ∧
    (∀ n x (w : BitVec 64), Issues s n 0xC1 w → w.toNat = x → only x [mA, mB, mC, mCn, mTc, mCnen] = true → gTc x ≠ 7 →
      (s.core n).sr (fA x) < 2 ^ 56 → 0 < (s.core n).sr (fC x) → (s.core n).sr (fC x) ≤ 4080 → (s.localAt n ((s.core n).sr
      (fB x)) ((s.core n).sr (fC x))).isSome = true → s.arriving n = [] → MayRequest s n (s.coreRequest n x 0x12 ((s.core
      n).sr (fA x)) ((s.core n).sr (fC x)) 0 false (s.peek n ((s.core n).sr (fB x)) ((s.core n).sr (fC x))) ((s.core n).sr
      (fC x))) → Gives (.fst n w) s (fun t => t.core n = { s.core n with pc := nextPc s n } ∧ (∀ m, m ≠ n → t.core m =
      s.core m) ∧ Requests s n (.store n (gCounter x)) (s.coreRequest n x 0x12 ((s.core n).sr (fA x)) ((s.core n).sr (fC x))
      0 false (s.peek n ((s.core n).sr (fB x)) ((s.core n).sr (fC x))) ((s.core n).sr (fC x))) t ∧ RegsBut
      [R.EDG_VIOL_INFO_port, R.EDG_VIOL_INFO_agent, R.EDG_VIOL_INFO_step, R.EDG_VIOL_INFO_src_eid, R.EDG_VIOL_INFO_msg_type,
      R.EDG_VIOL_INFO_tenant, R.EDG_VIOL_ADDR_addr] s t ∧ PartsBut [.out, .hif, .sw, .ports, .ras, .answers, .trk, .cores] s
      t)) ∧
    (∀ n x (w : BitVec 64), Issues s n 0xC2 w → w.toNat = x → only x [mA, mB, mCn, mTc, mCnen] = true → gTc x ≠ 7 → (s.core
      n).sr (fA x) < 2 ^ 56 → (s.core n).sr (fB x) % 64 = 0 → (s.localAt n ((s.core n).sr (fB x)) 144).isSome = true →
      s.arriving n = [] → MayRequest s n (s.coreRequest n x 0x13 ((s.core n).sr (fA x)) 128 0 false (bitsOf (s.peek n
      ((s.core n).sr (fB x)) 144) 1024 128 + bitsOf (s.peek n ((s.core n).sr (fB x)) 144) 0 1024 <<< 128) 144) → Gives
      (.fstm n w) s (fun t => t.core n = { s.core n with pc := nextPc s n } ∧ (∀ m, m ≠ n → t.core m = s.core m) ∧ Requests
      s n (.store n (gCounter x)) (s.coreRequest n x 0x13 ((s.core n).sr (fA x)) 128 0 false (bitsOf (s.peek n ((s.core
      n).sr (fB x)) 144) 1024 128 + bitsOf (s.peek n ((s.core n).sr (fB x)) 144) 0 1024 <<< 128) 144) t ∧ RegsBut
      [R.EDG_VIOL_INFO_port, R.EDG_VIOL_INFO_agent, R.EDG_VIOL_INFO_step, R.EDG_VIOL_INFO_src_eid, R.EDG_VIOL_INFO_msg_type,
      R.EDG_VIOL_INFO_tenant, R.EDG_VIOL_ADDR_addr] s t ∧ PartsBut [.out, .hif, .sw, .ports, .ras, .answers, .trk, .cores] s
      t)) ∧
    (∀ n x (w : BitVec 64), Issues s n 0xC3 w → w.toNat = x → only x [mD, mA, mB, mC, mCn, mGT, mAop, mFetch, mComb, mTc,
      mCnen] = true → gTc x ≠ 7 → atomWidth (gT x) ≠ 0 → gAop x ≤ 0xA → (tyFloat (gT x) = true → gAop x = 0xA) → (gComb x =
      true → gAop x ≤ 7) → gFetch x = true → fD x ≠ 0 → (gAop x = 9 ∨ fC x = 0) → (s.core n).sr (fA x) < 2 ^ 56 → MayRequest
      s n (s.coreRequest n x 0x14 ((s.core n).sr (fA x)) (atomWidth (gT x)) (gAop x) true (if gAop x = 9 then bitsOf
      ((s.core n).sr (fB x)) 0 (8 * atomWidth (gT x)) + bitsOf ((s.core n).sr (fC x)) 0 (8 * atomWidth (gT x)) <<< (8 *
      atomWidth (gT x)) else bitsOf ((s.core n).sr (fB x)) 0 (8 * atomWidth (gT x))) (if gAop x = 9 then 2 * atomWidth (gT
      x) else atomWidth (gT x))) → Gives (.fatom n w) s (fun t => t.core n =
      { s.core n with pc := nextPc s n, owed := fD x :: (s.core n).owed } ∧ (∀ m, m ≠ n → t.core m = s.core m) ∧ Requests s
      n (.atomic n none (some (fD x)) (atomWidth (gT x)) (gCounter x)) (s.coreRequest n x 0x14 ((s.core n).sr (fA x))
      (atomWidth (gT x)) (gAop x) true (if gAop x = 9 then bitsOf ((s.core n).sr (fB x)) 0 (8 * atomWidth (gT x)) + bitsOf
      ((s.core n).sr (fC x)) 0 (8 * atomWidth (gT x)) <<< (8 * atomWidth (gT x)) else bitsOf ((s.core n).sr (fB x)) 0 (8 *
      atomWidth (gT x))) (if gAop x = 9 then 2 * atomWidth (gT x) else atomWidth (gT x))) t ∧ RegsBut [R.EDG_VIOL_INFO_port,
      R.EDG_VIOL_INFO_agent, R.EDG_VIOL_INFO_step, R.EDG_VIOL_INFO_src_eid, R.EDG_VIOL_INFO_msg_type,
      R.EDG_VIOL_INFO_tenant, R.EDG_VIOL_ADDR_addr] s t ∧ PartsBut [.out, .hif, .sw, .ports, .ras, .answers, .trk, .cores] s
      t)) ∧
    (∀ n x (w : BitVec 64), Issues s n 0xC3 w → w.toNat = x → only x [mD, mA, mB, mC, mCn, mGT, mAop, mFetch, mComb, mTc,
      mCnen] = true → gTc x ≠ 7 → atomWidth (gT x) ≠ 0 → gAop x ≤ 0xA → (tyFloat (gT x) = true → gAop x = 0xA) → (gComb x =
      true → gAop x ≤ 7) → gFetch x = false → fD x = 0 → (gAop x = 9 ∨ fC x = 0) → (s.core n).sr (fA x) < 2 ^ 56 →
      MayRequest s n (s.coreRequest n x 0x14 ((s.core n).sr (fA x)) (atomWidth (gT x)) (gAop x) false (if gAop x = 9 then
      bitsOf ((s.core n).sr (fB x)) 0 (8 * atomWidth (gT x)) + bitsOf ((s.core n).sr (fC x)) 0 (8 * atomWidth (gT x)) <<< (8
      * atomWidth (gT x)) else bitsOf ((s.core n).sr (fB x)) 0 (8 * atomWidth (gT x))) (if gAop x = 9 then 2 * atomWidth (gT
      x) else atomWidth (gT x))) → Gives (.fatom n w) s (fun t => t.core n = { s.core n with pc := nextPc s n } ∧ (∀ m, m ≠
      n → t.core m = s.core m) ∧ Requests s n (.atomic n none none (atomWidth (gT x)) (gCounter x)) (s.coreRequest n x 0x14
      ((s.core n).sr (fA x)) (atomWidth (gT x)) (gAop x) false (if gAop x = 9 then bitsOf ((s.core n).sr (fB x)) 0 (8 *
      atomWidth (gT x)) + bitsOf ((s.core n).sr (fC x)) 0 (8 * atomWidth (gT x)) <<< (8 * atomWidth (gT x)) else bitsOf
      ((s.core n).sr (fB x)) 0 (8 * atomWidth (gT x))) (if gAop x = 9 then 2 * atomWidth (gT x) else atomWidth (gT x))) t ∧
      RegsBut [R.EDG_VIOL_INFO_port, R.EDG_VIOL_INFO_agent, R.EDG_VIOL_INFO_step, R.EDG_VIOL_INFO_src_eid,
      R.EDG_VIOL_INFO_msg_type, R.EDG_VIOL_INFO_tenant, R.EDG_VIOL_ADDR_addr] s t ∧ PartsBut [.out, .hif, .sw, .ports, .ras,
      .answers, .trk, .cores] s t)) ∧
    (∀ n x (w : BitVec 64), Issues s n 0xC4 w → w.toNat = x → only x [mA, mB, mCn, mTc, mCnen] = true → gTc x ≠ 7 → (s.core
      n).sr (fA x) < 2 ^ 56 → (s.core n).sr (fB x) % 16 = 0 → (s.localAt n ((s.core n).sr (fB x)) 48).isSome = true →
      s.arriving n = [] → MayRequest s n (s.coreRequest n x 0x14 ((s.core n).sr (fA x)) 16 9 true (s.peek n ((s.core n).sr
      (fB x)) 32) 32) → Gives (.fcas16 n w) s (fun t => t.core n = { s.core n with pc := nextPc s n } ∧ (∀ m, m ≠ n → t.core
      m = s.core m) ∧ Requests s n (.atomic n (some ((s.core n).sr (fB x) + 32)) none 16 (gCounter x)) (s.coreRequest n x
      0x14 ((s.core n).sr (fA x)) 16 9 true (s.peek n ((s.core n).sr (fB x)) 32) 32) t ∧ RegsBut [R.EDG_VIOL_INFO_port,
      R.EDG_VIOL_INFO_agent, R.EDG_VIOL_INFO_step, R.EDG_VIOL_INFO_src_eid, R.EDG_VIOL_INFO_msg_type,
      R.EDG_VIOL_INFO_tenant, R.EDG_VIOL_ADDR_addr] s t ∧ PartsBut [.out, .hif, .sw, .ports, .ras, .answers, .trk, .cores] s
      t)) ∧
    (∀ n x (m : Msg) (w : BitVec 64), Issues s n 0xE0 w → w.toNat = x → only x [mA, mB, mC, mCn, mGT, mTc, mCnen] = true →
      gTc x ≠ 7 → coType (gT x) = true → 0 < (s.core n).sr (fC x) → (s.localAt n ((s.core n).sr (fB x)) ((s.core n).sr (fC
      x))).isSome = true → s.arriving n = [] → s.coreContribution n ((s.core n).sr (fA x)) (gT x) ((s.core n).sr (fC x))
      (gTc x) (s.peek n ((s.core n).sr (fB x)) ((s.core n).sr (fC x))) = some m → MayRequest s n (m) → Gives (.ccontrib n w)
      s (fun t => t.core n = { s.core n with pc := nextPc s n } ∧ (∀ m, m ≠ n → t.core m = s.core m) ∧ Requests s n
      (.contribution n (gCounter x)) (m) t ∧ RegsBut [R.EDG_VIOL_INFO_port, R.EDG_VIOL_INFO_agent, R.EDG_VIOL_INFO_step,
      R.EDG_VIOL_INFO_src_eid, R.EDG_VIOL_INFO_msg_type, R.EDG_VIOL_INFO_tenant, R.EDG_VIOL_ADDR_addr] s t ∧ PartsBut [.out,
      .hif, .sw, .ports, .ras, .answers, .trk, .cores] s t)) ∧
    (∀ n x b r (h : Handle) (kv : Bool) (w : BitVec 64), Issues s n 0xE4 w → w.toNat = x → only x [mA, mH, mCn, mCnen] =
      true → s.arriving n = [] → max 32 (rqLen (s.peek n ((s.core n).sr (fA x)) 32)) = b → (s.localAt n ((s.core n).sr (fA
      x)) 32).isSome = true → (s.localAt n ((s.core n).sr (fA x)) b).isSome = true → (s.core n).handles.get? [gH x] = some h
      → h.producer = 2 → s.peek n ((s.core n).sr (fA x)) b = r → rqHome r = s.eid → (s.tableOf (rqTable r)).map (fun t =>
      tbKv t.2.desc) = some kv → s.gatherRefusal (rqDie r) kv (dTenant ((s.core n).task.getD 0)) r b = none → Gives (.gissue
      n w) s (fun t => t.core n = { s.core n with pc := nextPc s n } ∧ t.gth.sets.get [] [n, gH x] = s.gth.sets.get [] [n,
      gH x] ++ [{ id := s.gth.nextId, slot := h.slot, ctr := gCounter x }] ∧ t.gth.reqs.get? [rqDie r, s.gth.nextId + 1] =
      some { origin := .core n (gH x) (gCounter x) s.gth.nextId, slot := rqTable r % 1024, filter := kv, req := r, tenant := dTenant ((s.core n).task.getD 0) }
      ∧ t.gth.queue.get [] [rqDie r] = s.gth.queue.get [] [rqDie r] ++ [s.gth.nextId + 1] ∧ (∀ m, m ≠ n → t.core m = s.core
      m) ∧ RegsBut [R.GTH_TABLE_STATUS_live, R.GTH_TABLE_STATUS_updates] s t ∧ PartsBut [.cores, .gth] s t)) ∧
    (∀ n x (q : Qp) (w : BitVec 64), Issues s n 0xE8 w → w.toNat = x → only x [mD, mA, mB] = true → (s.core n).sr (fA x) < 2
      ^ 18 → (s.core n).sr (fB x) % 64 = 0 → (s.localAt n ((s.core n).sr (fB x)) 64).isSome = true → s.arriving n = [] →
      s.qpe.qps.get? [(s.core n).sr (fA x)] = some q → s.qpostStatus n ((s.core n).sr (fA x)) (s.peek n ((s.core n).sr (fB
      x)) 64) = .ok → Gives (.qpost n w) s (fun t => t.core n = { (s.core n).setS (fD x) 0 with pc := nextPc s n } ∧
      (t.qpe.qps.get? [(s.core n).sr (fA x)]).map (·.posted) = some ((q.posted + 1) % 2 ^ 32) ∧ (∀ m, m ≠ n → t.core m =
      s.core m) ∧ RegsBut [R.EDG_VIOL_INFO_port, R.EDG_VIOL_INFO_agent, R.EDG_VIOL_INFO_step, R.EDG_VIOL_INFO_src_eid,
      R.EDG_VIOL_INFO_msg_type, R.EDG_VIOL_INFO_tenant, R.EDG_VIOL_ADDR_addr] s t ∧ PartsBut [.out, .hif, .sw, .ports, .ras,
      .answers, .trk, .cores, .qpe] s t))

/-- R270, R271: cset sets a counter, cinc adds to one of the own core at once and sends an increment to one of another core
of the tenant; an increment that arrives is added; cwait writes 0 where its target is reached and else waits, cwaitTimeout
ends the wait with 1; cget reads value and status. R279 to R281: hbind binds a handle, hacq and hres write the address of
the slot once their condition holds and leave the register owed until then, hrel and hpub advance the counts, hfree unbinds.
R277: ffence writes OK where nothing is live and else waits for what is. R285, R286: twait waits for its beat, tlaunch keeps
a launch and launch pushes it when its beat has come. R288: freeze freezes the part. -/
def Obligations.CountersAndHandles : Prop :=
  ∀ s : State, Serves s →
    (∀ n x (w : BitVec 64), Issues s n 0xD0 w → w.toNat = x → only x [mA, mCn] = true → Gives (.cset n w) s (Steps s n (fun
      k => { k with ctr := k.ctr.set [gCn x] (k.sr (fA x) % 2 ^ 32, .ok) }))) ∧
    (∀ n x (w : BitVec 64), Issues s n 0xD1 w → w.toNat = x → only x [mA, mB, mCn, mRem] = true → gRem x = false → fB x = 0
      → Gives (.cinc n w) s (Steps s n (fun k =>
      { k with ctr := k.ctr.set [gCn x] (((k.counter (gCn x)).1 + k.sr (fA x) % 2 ^ 32) % 2 ^ 32, Status.join (k.counter (gCn x)).2 .ok) }))) ∧
    (∀ n x (w : BitVec 64), Issues s n 0xD1 w → w.toNat = x → only x [mA, mB, mCn, mRem] = true → gRem x = true → (s.core
      n).sr (fB x) < 128 → (s.core n).sr (fB x) ≠ n → s.clusterTenant ((s.core n).sr (fB x) / 8) = s.clusterTenant (n / 8) →
      Gives (.cinc n w) s (fun t => t.core n = { s.core n with pc := nextPc s n } ∧ t.flying = s.flying ++ [((s.core n).sr
      (fB x), gCn x, (s.core n).sr (fA x) % 2 ^ 32, .ok)] ∧ (∀ m, m ≠ n → t.core m = s.core m) ∧ RegsBut [] s t ∧ PartsBut
      [.cores, .flying] s t)) ∧
    (∀ n cn v st (l : Flying), takeOut (n, cn, v, Status.ofCode st) s.flying = some l → (s.core n).wait = none → Gives
      (.incrementArrival n cn v st) s (fun t => t.flying = l ∧ t.core n =
      { s.core n with ctr := (s.core n).ctr.set [cn] ((((s.core n).counter cn).1 + v) % 2 ^ 32, Status.join ((s.core n).counter cn).2 (Status.ofCode st)) }
      ∧ (∀ m, m ≠ n → t.core m = s.core m) ∧ RegsBut [] s t ∧ PartsBut [.cores, .flying] s t)) ∧
    (∀ n x (w : BitVec 64), Issues s n 0xD2 w → w.toNat = x → only x [mD, mA, mB, mCn] = true → notReached ((s.core n).sr
      (fA x) % 2 ^ 32) ((s.core n).counter (gCn x)).1 = false → Gives (.cwait n w) s (Steps s n (fun k => k.setS (fD x) 0))) ∧
    (∀ n x (w : BitVec 64), Issues s n 0xD2 w → w.toNat = x → only x [mD, mA, mB, mCn] = true → notReached ((s.core n).sr
      (fA x) % 2 ^ 32) ((s.core n).counter (gCn x)).1 = true → Gives (.cwait n w) s (fun t => t.core n =
      { s.core n with wait := some (.counter (gCn x) ((s.core n).sr (fA x) % 2 ^ 32) (fD x) (if (s.core n).sr (fB x) = 0 then none else some (s.ftDie (dieOfCore n) + (s.core n).sr (fB x)))) }
      ∧ (∀ m, m ≠ n → t.core m = s.core m) ∧ RegsBut [] s t ∧ PartsBut [.cores] s t)) ∧
    (∀ n cn tg d b, (s.core n).wait = some (.counter cn tg d (some b)) → b ≤ s.ftDie (dieOfCore n) → nextPc s n < 8 *
      (s.codeOf (s.core n)).length → Gives (.cwaitTimeout n) s (fun t => t.core n =
      { (s.core n).setS d 1 with wait := none, pc := nextPc s n } ∧ (∀ m, m ≠ n → t.core m = s.core m) ∧ RegsBut [] s t ∧
      PartsBut [.cores] s t)) ∧
    (∀ n x (w : BitVec 64), Issues s n 0xD3 w → w.toNat = x → only x [mD, mCn] = true → Gives (.cget n w) s (Steps s n (fun
      k => k.setS (fD x) ((k.counter (gCn x)).1 + (k.counter (gCn x)).2.code * 2 ^ 32)))) ∧
    (∀ n x r (w : BitVec 64), Issues s n 0xD8 w → w.toNat = x → only x [mA, mH] = true → (s.core n).sr (fA x) % 16 = 0 →
      (s.localAt n ((s.core n).sr (fA x)) 16).isSome = true → s.arriving n = [] → s.peek n ((s.core n).sr (fA x)) 16 = r →
      (s.core n).handles.has [gH x] = false → fieldOf r 4 0 4 ≤ 12 → fieldOf r 4 6 5 ≤ 16 → fieldOf r 4 11 21 = 0 → fieldOf
      r 8 0 64 = 0 → fieldOf r 0 0 32 % 256 = 0 → (s.localAt n (fieldOf r 0 0 32) (2 ^ fieldOf r 4 6 5 * (256 * 2 ^ fieldOf
      r 4 0 4))).isSome = true → Gives (.hbind n w) s (fun t => t.core n =
      { s.core n with pc := nextPc s n, handles := (s.core n).handles.set [gH x] { base := fieldOf r 0 0 32, slotLog2 := fieldOf r 4 0 4, producer := fieldOf r 4 4 2, slotsLog2 := fieldOf r 4 6 5 } }
      ∧ (∀ m, m ≠ n → t.core m = s.core m) ∧ RegsBut [] s t ∧ PartsBut [.cores] s t)) ∧
    (∀ n x (w : BitVec 64), Issues s n 0xD9 w → w.toNat = x → only x [mH] = true → (s.core n).handles.has [gH x] = true →
      s.cdc.work = [] → s.gth.sets.get [] [n, gH x] = [] → (s.core n).acqs = [] → Gives (.hfree n w) s (fun t => t.core n =
      { s.core n with pc := nextPc s n, handles := (s.core n).handles.erase [gH x] } ∧ t.gth =
      { s.gth with sets := s.gth.sets.erase [n, gH x] } ∧ (∀ m, m ≠ n → t.core m = s.core m) ∧ RegsBut [] s t ∧ PartsBut
      [.cores, .cdc, .gth] s t)) ∧
    (∀ n x (h : Handle) (w : BitVec 64), Issues s n 0xDA w → w.toNat = x → only x [mA, mH, mD] = true → (s.core
      n).handles.get? [gH x] = some h → 0 < (s.core n).sr (fA x) → (s.core n).sr (fA x) ≤ h.slots → (s.core n).acqs = [] →
      (s.core n).sr (fA x) ≤ h.full → Gives (.hacq n w) s (fun t => t.core n =
      { (s.core n).setS (fD x) (h.base + h.c % h.slots * h.slot) with pc := nextPc s n, owed := (t.core n).owed } ∧ (t.core
      n).owed.contains (fD x) = false ∧ (∀ m, m ≠ n → t.core m = s.core m) ∧ RegsBut [] s t ∧ PartsBut [.cores] s t)) ∧
    (∀ n x (h : Handle) (w : BitVec 64), Issues s n 0xDA w → w.toNat = x → only x [mA, mH, mD] = true → (s.core
      n).handles.get? [gH x] = some h → 0 < (s.core n).sr (fA x) → (s.core n).sr (fA x) ≤ h.slots → (s.core n).acqs = [] →
      h.full < (s.core n).sr (fA x) → fD x ≠ 0 → Gives (.hacq n w) s (fun t => t.core n =
      { s.core n with pc := nextPc s n, owed := fD x :: (s.core n).owed, acqs := [{ h := gH x, n := (s.core n).sr (fA x), d := fD x, reserve := false }] }
      ∧ (∀ m, m ≠ n → t.core m = s.core m) ∧ RegsBut [] s t ∧ PartsBut [.cores] s t)) ∧
    (∀ n x (h : Handle) (w : BitVec 64), Issues s n 0xDB w → w.toNat = x → only x [mA, mH] = true → (s.core n).handles.get?
      [gH x] = some h → 0 < (s.core n).sr (fA x) → (s.core n).sr (fA x) ≤ h.slots → (s.core n).acqs = [] → (s.core n).sr (fA
      x) ≤ h.full → Gives (.hrel n w) s (fun t => t.core n =
      { s.core n with pc := nextPc s n, handles := (s.core n).handles.set [gH x] { h with c := (h.c + (s.core n).sr (fA x)) % 2 ^ 32 } }
      ∧ (∀ m, m ≠ n → t.core m = s.core m) ∧ RegsBut [] s t ∧ PartsBut [.cores] s t)) ∧
    (∀ n x (h : Handle) (w : BitVec 64), Issues s n 0xDC w → w.toNat = x → only x [mA, mH, mD] = true → (s.core
      n).handles.get? [gH x] = some h → 0 < (s.core n).sr (fA x) → (s.core n).sr (fA x) ≤ h.slots → (s.core n).acqs = [] →
      h.producer = 0 → (s.core n).sr (fA x) ≤ h.slots - h.full → Gives (.hres n w) s (fun t => t.core n =
      { (s.core n).setS (fD x) (h.base + h.p % h.slots * h.slot) with pc := nextPc s n, owed := (t.core n).owed } ∧ (t.core
      n).owed.contains (fD x) = false ∧ (∀ m, m ≠ n → t.core m = s.core m) ∧ RegsBut [] s t ∧ PartsBut [.cores] s t)) ∧
    (∀ n x (h : Handle) (w : BitVec 64), Issues s n 0xDC w → w.toNat = x → only x [mA, mH, mD] = true → (s.core
      n).handles.get? [gH x] = some h → 0 < (s.core n).sr (fA x) → (s.core n).sr (fA x) ≤ h.slots → (s.core n).acqs = [] →
      h.producer = 0 → h.slots - h.full < (s.core n).sr (fA x) → fD x ≠ 0 → Gives (.hres n w) s (fun t => t.core n =
      { s.core n with pc := nextPc s n, owed := fD x :: (s.core n).owed, acqs := [{ h := gH x, n := (s.core n).sr (fA x), d := fD x, reserve := true }] }
      ∧ (∀ m, m ≠ n → t.core m = s.core m) ∧ RegsBut [] s t ∧ PartsBut [.cores] s t)) ∧
    (∀ n x (h : Handle) (w : BitVec 64), Issues s n 0xDD w → w.toNat = x → only x [mA, mH] = true → h.producer = 0 → (s.core
      n).handles.get? [gH x] = some h → 0 < (s.core n).sr (fA x) → (s.core n).sr (fA x) ≤ h.slots → (s.core n).acqs = [] →
      (s.core n).sr (fA x) ≤ h.slots - h.full → Gives (.hpub n w) s (fun t => t.core n =
      { s.core n with pc := nextPc s n, handles := (s.core n).handles.set [gH x] { h with p := (h.p + (s.core n).sr (fA x)) % 2 ^ 32 } }
      ∧ (∀ m, m ≠ n → t.core m = s.core m) ∧ RegsBut [] s t ∧ PartsBut [.cores] s t)) ∧
    (∀ n x (w : BitVec 64), Issues s n 0xF0 w → w.toNat = x → only x [mD, mA] = true → ahead ((s.core n).sr (fA x) % 2 ^ 32)
      (s.beatDie (dieOfCore n)) = true → Gives (.twait n w) s (fun t => t.core n =
      { s.core n with wait := some (.beat ((s.core n).sr (fA x) % 2 ^ 32) (fD x)) } ∧ (∀ m, m ≠ n → t.core m = s.core m) ∧
      RegsBut [] s t ∧ PartsBut [.cores] s t)) ∧
    (∀ n x (w : BitVec 64), Issues s n 0xF0 w → w.toNat = x → only x [mD, mA] = true → ahead ((s.core n).sr (fA x) % 2 ^ 32)
      (s.beatDie (dieOfCore n)) = false → Gives (.twait n w) s (fun t => t.core n =
      { (s.core n).setS (fD x) 1 with flags := (s.core n).flags ||| Fl.late, pc := nextPc s n } ∧ (∀ m, m ≠ n → t.core m =
      s.core m) ∧ RegsBut [] s t ∧ PartsBut [.cores, .out, .hif] s t)) ∧
    (∀ n tg d, (s.core n).wait = some (.beat tg d) → ahead tg (s.beatDie (dieOfCore n)) = false → nextPc s n < 8 * (s.codeOf
      (s.core n)).length → Gives (.twaitWake n) s (fun t => t.core n =
      { (s.core n).setS d 0 with wait := none, pc := nextPc s n } ∧ (∀ m, m ≠ n → t.core m = s.core m) ∧ RegsBut [] s t ∧
      PartsBut [.cores] s t)) ∧
    (∀ n x (w : BitVec 64), Issues s n 0xF1 w → w.toNat = x → only x [mD, mA, mB, mC, mCn, mCnen] = true → (s.core n).sr (fC
      x) &&& 0x17F = (s.core n).sr (fC x) → (s.core n).sr (fB x) % 64 = 0 → (s.localAt n ((s.core n).sr (fB x)) 64).isSome =
      true → (s.core n).launches.length < 8 → s.arriving n = [] → ahead ((s.core n).sr (fA x) % 2 ^ 32) (s.beatDie
      (dieOfCore n)) = true → Gives (.tlaunch n w) s (fun t => t.core n =
      { (s.core n).setS (fD x) 0 with pc := nextPc s n, launches := (s.core n).launches ++ [{ beat := (s.core n).sr (fA x) % 2 ^ 32, desc := withTenant (s.peek n ((s.core n).sr (fB x)) 64) (dTenant ((s.core n).task.getD 0)), target := (s.core n).sr (fC x), ctr := gCounter x }] }
      ∧ (∀ m, m ≠ n → t.core m = s.core m) ∧ RegsBut [] s t ∧ PartsBut [.cores] s t)) ∧
    (∀ n k (l : Launch), (s.core n).launches[k]? = some l → ahead l.beat (s.beatDie (dieOfCore n)) = false → s.cst (n / 8) ≠
      Cs.offlining → bitAt l.target 8 = false → l.ctr = none → s.pushStatus l.desc (l.target % 128) = .ok → l.target % 128 ≠
      n → Gives (.launch n k) s (fun t => t.core n = { s.core n with launches := (s.core n).launches.eraseIdx k } ∧ (t.core
      (l.target % 128)).deque = l.desc :: (s.core (l.target % 128)).deque ∧ RegsBut [] s t ∧ PartsBut [.cores] s t)) ∧
    (∀ n x (w : BitVec 64), Issues s n 0xF8 w → w.toNat = x → only x [mD] = true → s.liveOf (.core n) = [] → Gives (.ffence
      n w) s (Steps s n (fun k => k.setS (fD x) 0))) ∧
    (∀ n x (w : BitVec 64), Issues s n 0xF8 w → w.toNat = x → only x [mD] = true → s.liveOf (.core n) ≠ [] → Gives (.ffence
      n w) s (fun t => t.core n = { s.core n with wait := some (.fence (fD x) (s.liveOf (.core n)) .ok) } ∧ (∀ m, m ≠ n →
      t.core m = s.core m) ∧ RegsBut [] s t ∧ PartsBut [.cores] s t)) ∧
    (∀ n x (w : BitVec 64), Issues s n 0xFF w → w.toNat = x → only x [] = true → bitAt (s.rd R.DBG_FREEZE_CFG_instr_en [])
      (dTenant ((s.core n).task.getD 0)) = true → Gives (.freeze n w) s (fun t => t.core n =
      { s.core n with pc := nextPc s n } ∧ t.pkg = { s.pkg with frozen := true } ∧ (∀ m, m ≠ n → t.core m = s.core m) ∧
      RegsBut [] s t ∧ PartsBut [.cores, .pkg] s t))

/-! ### Tasks and clusters (09) -/

/-- R227, R228: a push of a loaded image of the cluster's tenant reaches the bottom of the deque named and answers OK; a
stalled push goes on once there is room; R245: a core takes the bottom of its deque and starts the task with its arguments,
user word and number in s1 to s8 and FLAGS 0. R229, R230: hints show what each stage may take, at most 15; an idle core
takes the victim's entry nearest the top of its deque that the stage may take, and its next stage opens after its delay. -/
def Obligations.TasksAndStealing : Prop :=
  ∀ s : State, Serves s →
    (∀ v c q desc, bitsOf v 0 4 = c → bitsOf v 4 3 = q → bitAt v 7 = false → s.stagedTask 0 = desc → s.pushStatus desc (8 *
      c + q) = .ok → Gives (.cmpTaskPush 0 v) s (fun t => t.core (8 * c + q) =
      { s.core (8 * c + q) with deque := desc :: (s.core (8 * c + q)).deque, stage := 1 } ∧ t.rd R.CMP_TASK_RESULT_status
      [0] = Status.ok.code ∧ RegsBut [R.CMP_TASK_RESULT_status] s t ∧ PartsBut [.cores] s t)) ∧
    (∀ c q desc (rest : List Stalled), (s.cluster c).stalled = { desc := desc, core := some q } :: rest → s.pushStatus desc
      q = .ok → Gives (.pushResume c) s (fun t => (t.core q).deque = desc :: (s.core q).deque ∧ (t.cluster c).stalled = rest
      ∧ RegsBut [] s t ∧ PartsBut [.cores, .clusters] s t)) ∧
    (∀ n desc (rest : List Nat), (s.core n).task = none → (s.core n).deque = desc :: rest → s.coresRun (n / 8) = true →
      dEntry desc % 8 = 0 → dEntry desc < 8 * (((s.images.get? [dTenant desc, dImage desc]).map (·.code)).getD []).length →
      Gives (.taskStart n) s (fun t => (t.core n).task = some desc ∧ (t.core n).deque = rest ∧ (t.core n).pc = dEntry desc ∧
      (t.core n).flags = 0 ∧ (t.core n).sr 7 = dUser desc ∧ (t.core n).sr 8 = n % 2 ^ 64 ∧ (∀ i, i < 6 → (t.core n).sr (1 +
      i) = dArg desc i) ∧ (∀ i, 8 < i → (t.core n).sr i = (s.core n).sr i) ∧ (∀ m, m ≠ n → t.core m = s.core m) ∧ RegsBut []
      s t ∧ PartsBut [.cores] s t)) ∧
    (∀ n, Gives (.hintRefresh n) s (fun t => t.rd R.CMP_CORE_STATUS_hint_cluster [n] = min 15 ((s.core n).deque.filter (fun
      d => decide (1 ≤ dScope d))).length ∧ t.rd R.CMP_CORE_STATUS_hint_die [n] = min 15 ((s.core n).deque.filter (fun d =>
      decide (2 ≤ dScope d))).length ∧ t.rd R.CMP_CORE_STATUS_hint_pkg [n] = min 15 ((s.core n).deque.filter (fun d =>
      decide (3 ≤ dScope d))).length ∧ RegsBut [R.CMP_CORE_STATUS_hint_cluster, R.CMP_CORE_STATUS_hint_die,
      R.CMP_CORE_STATUS_hint_pkg] s t ∧ PartsBut [.clusters] s t)) ∧
    (∀ n st v i, s.idleCore n = true → (s.stages n).findSome? (fun st => (s.victim n st).map (fun v => (st, v))) = some (st,
      v) → ((List.range (s.core v).deque.length).reverse.take 16).find? (fun i => decide (st ≤ dScope ((s.core v).deque.getD
      i 0))) = some i → v ≠ n → Gives (.steal n) s (fun t => (t.core v) =
      { s.core v with deque := (s.core v).deque.eraseIdx i } ∧ (t.core n) =
      { s.core n with deque := [(s.core v).deque.getD i 0], stage := 1 } ∧ RegsBut [] s t ∧ PartsBut [.cores] s t)) ∧
    (∀ n, s.idleCore n = true → (s.core n).stage = 1 → 8 * s.rd R.CMP_STEAL_CFG_die_delay [] ≤ s.now - (s.core n).idleSince
      → Gives (.stealDelayExpiry n) s (fun t => (t.core n) = { s.core n with stage := 2 } ∧ RegsBut [] s t ∧ PartsBut
      [.cores] s t))

/-- R225: a split that fits and disturbs nothing live is written, the result is OK, and the CSRAM beyond the general share
reads as zeros. R239 to R241, R243: offline takes a READY cluster to OFFLINING; when nothing of it is left its scrub starts;
the scrub clears its cores, their scratchpads and its CSRAM and takes it OFFLINE; offlining that outlasts its timeout is
stuck and can be killed, which ends its tasks; online and its end take it back to READY with idle cores; an uncorrectable
error takes it to FAILED. -/
def Obligations.ClusterStates : Prop :=
  ∀ s : State, Serves s →
    (∀ c v g a q, s.isReady B.cmp = true → bitsOf v 0 7 = g → bitsOf v 8 7 = a → bitsOf v 16 7 = q → g + a + q ≤ 64 →
      s.accumUsed c = 0 → s.overflow c = 0 → s.ringBeyond c (262144 * g) = false → s.coh.lines = Map.empty → Gives
      (.csramSplit c v) s (fun t => t.rd R.CMP_CSRAM_CFG_general [c] = g ∧ t.rd R.CMP_CSRAM_CFG_accum [c] = a ∧ t.rd
      R.CMP_CSRAM_CFG_taskq [c] = q ∧ t.rd R.CMP_CSRAM_CFG_row_cache [c] = 64 - g - a - q ∧ t.rd R.CMP_CLUSTER_STATUS_result
      [c] = 0 ∧ (∀ i, 262144 * g ≤ i → i < 2 ^ 24 → Mem.read t.csram (c * 2 ^ 24 + i) = 0) ∧ (∀ i, i < c * 2 ^ 24 + 262144 *
      g ∨ (c + 1) * 2 ^ 24 ≤ i → Mem.read t.csram i = Mem.read s.csram i) ∧ RegsBut [R.CMP_CSRAM_CFG_general,
      R.CMP_CSRAM_CFG_accum, R.CMP_CSRAM_CFG_taskq, R.CMP_CSRAM_CFG_row_cache, R.CMP_CLUSTER_STATUS_result,
      R.GTH_CACHE_STATUS_rows, R.GTH_CACHE_STATUS_granules] s t ∧ PartsBut [.csram, .gth] s t)) ∧
    (∀ c, s.isReady B.cmp = true → s.cst c = Cs.ready → s.coh.lines = Map.empty → s.clt.colls = Map.empty → (coresOf c).all
      (fun n => decide ((s.core n).deque = [])) = true → Gives (.offline c) s (fun t => t.cst c = Cs.offlining ∧ (t.cluster
      c).since = s.now ∧ (t.cluster c).stuck = false ∧ (∀ n, t.core n = s.core n) ∧ RegsBut [R.CMP_CLUSTER_STATUS_state,
      R.CMP_CLUSTER_STATUS_accums, R.GTH_CACHE_STATUS_rows, R.GTH_CACHE_STATUS_granules] s t ∧ PartsBut [.cores, .clusters,
      .gth] s t)) ∧
    (∀ c, s.cst c = Cs.offlining → s.clusterEmpty c = true → s.listed R.COH_MEMBER_valid = [] → Gives (.clusterScrubStart c)
      s (fun t => t.cst c = Cs.scrubbing ∧ (t.cluster c).stalled = [] ∧ (∀ n, n / 8 = c → t.core n =
      { s.core n with launches := [] }) ∧ (∀ n, n / 8 ≠ c → t.core n = s.core n) ∧ RegsBut [R.CMP_CLUSTER_STATUS_state] s t
      ∧ PartsBut [.clusters, .cores] s t)) ∧
    (∀ c, s.cst c = Cs.scrubbing → Gives (.clusterOffline c) s (fun t => t.cst c = Cs.offline ∧ (∀ n, n / 8 = c → t.core n =
      {}) ∧ (∀ n a, n / 8 = c → a < 2 ^ 21 → Mem.read t.spm (n * 2 ^ 21 + a) = 0) ∧ (∀ a, a < 2 ^ 24 → Mem.read t.csram (c *
      2 ^ 24 + a) = 0) ∧ (∀ n, n / 8 ≠ c → t.core n = s.core n) ∧ RegsBut [R.CMP_CLUSTER_STATUS_state,
      R.GLB_DEGRADED_degraded] s t ∧ PartsBut [.out, .hif, .cores, .clusters, .spm, .csram, .cdc, .gth] s t)) ∧
    (∀ c, s.cst c = Cs.offlining → (s.cluster c).stuck = false → (s.cluster c).since + 1000 * s.rd R.CMP_OFFLINE_CFG_timeout
      [] ≤ s.now → Gives (.offlineStuck c) s (fun t => t.cluster c = { s.cluster c with stuck := true } ∧ RegsBut [] s t ∧
      PartsBut [.out, .hif, .clusters] s t)) ∧
    (∀ c, s.isReady B.cmp = true → s.cst c = Cs.offlining → (s.cluster c).stuck = true → (coresOf c).all (fun n => decide
      ((s.core n).handles = Map.empty)) = true → Gives (.kill c) s (fun t => (∀ n, n / 8 = c → (t.core n).task = none) ∧ (∀
      n, n / 8 ≠ c → t.core n = s.core n) ∧ RegsBut [R.CMP_FAULT_INFO_core, R.CMP_FAULT_INFO_cause, R.CMP_FAULT_INFO_image,
      R.CMP_FAULT_INFO_offset, R.CMP_FAULT_USER_user] s t ∧ PartsBut [.out, .hif, .cores] s t)) ∧
    (∀ c, s.isReady B.cmp = true → s.cst c = Cs.offline → Gives (.online c) s (fun t => t.cst c = Cs.onlining ∧ RegsBut
      [R.CMP_CLUSTER_STATUS_state] s t ∧ PartsBut [.clusters] s t)) ∧
    (∀ c, s.cst c = Cs.onlining → Gives (.clusterOnlineDone c) s (fun t => t.cst c = Cs.ready ∧ (∀ n, n / 8 = c → t.core n =
      { s.core n with task := none, wait := none, acqs := [], owed := [], mixed := [], stage := 1, idleSince := s.now }) ∧
      (∀ n, n / 8 ≠ c → t.core n = s.core n) ∧ RegsBut [R.CMP_CLUSTER_STATUS_state, R.GLB_DEGRADED_degraded] s t ∧ PartsBut
      [.out, .hif, .cores, .clusters] s t)) ∧
    (∀ c, s.isReady B.cmp = true → s.cst c ≠ Cs.offline → s.cst c ≠ Cs.failed → s.listed R.COH_MEMBER_valid = [] → Resolved
      s → s.gth.reqs = Map.empty → s.clt.colls = Map.empty → Gives (.clusterFailed c) s (fun t => t.cst c = Cs.failed ∧ (∀
      n, n / 8 = c → t.core n = {}) ∧ t.mem = s.mem ∧ RegsBut [R.CMP_CLUSTER_STATUS_state, R.CMP_CLUSTER_STATUS_accums,
      R.GLB_DEGRADED_degraded, R.GTH_CACHE_STATUS_rows, R.GTH_CACHE_STATUS_granules] s t ∧ PartsBut [.out, .hif, .sw,
      .ports, .ras, .answers, .cores, .clusters, .cdc, .coh, .gth] s t))

/-! ### The queue engines (12) -/

/-- R297, R298: a doorbell moves the index of its ring or consumer, or arms its queue. R305: a work request that may start
is given its sequence numbers and counted among the outstanding ones, or completes at once where it sends nothing; a chain
that does not come true in time ends the connection with TIMEOUT. R302, R306: a packet with the expected number advances it
and becomes a job: a WRITE and a READ go to the homes, a SEND reads its receive work request. R303, R304: an acknowledgement
releases the work it covers, the data of a READ is placed, a refusal with REVOKED and a timeout are acted on as the rules
say. -/
def Obligations.QueueEngines : Prop :=
  ∀ s : State, Serves s →
    (∀ fn v n i (q : Qp), s.isReady B.qpe = true → bitsOf v 18 2 = 0 → bitsOf v 0 18 = n → bitsOf v 32 32 = i →
      s.qpe.qps.get? [n] = some q → q.tenant = fn → q.state = Qs.init → bell i q.sqProd q.sqCons (2 ^ q.sqLog2) = some true
      → Gives (.doorbell fn v) s (fun t => (t.qpe.qps.get? [n] = some
      { q with sqProd := i, posted := if dist 32 i q.posted < 2 ^ 31 then i else q.posted }) ∧ RegsBut [] s t ∧ PartsBut
      [.qpe] s t)) ∧
    (∀ fn v n i (q : Qp), s.isReady B.qpe = true → bitsOf v 18 2 = 1 → bitsOf v 0 18 = n → bitsOf v 32 32 = i →
      s.qpe.qps.get? [n] = some q → q.tenant = fn → (q.state = Qs.init ∨ q.state = Qs.active) → bell i q.rqProd q.rqCons (2
      ^ q.rqLog2) = some true → Gives (.doorbell fn v) s (fun t => t.qpe.qps.get? [n] = some { q with rqProd := i } ∧
      RegsBut [] s t ∧ PartsBut [.qpe] s t)) ∧
    (∀ fn v n (c : Cq), s.isReady B.qpe = true → bitsOf v 18 2 = 3 → bitsOf v 0 17 = n → s.qpe.cqs.get? [n] = some c →
      c.tenant = fn → Gives (.doorbell fn v) s (fun t => t.qpe.cqs.get? [n] = some { c with armed := true } ∧ RegsBut [] s t
      ∧ PartsBut [.qpe] s t)) ∧
    (∀ fn v n i (c : Cq), s.isReady B.qpe = true → bitsOf v 18 2 = 2 → bitsOf v 0 17 = n → bitsOf v 32 32 = i →
      s.qpe.cqs.get? [n] = some c → c.tenant = fn → c.backlog = [] → bell i c.cons c.cons (2 ^ c.log2) = some true → Gives
      (.doorbell fn v) s (fun t => t.qpe.cqs.get? [n] = some { c with cons := i } ∧ RegsBut [] s t ∧ PartsBut [.qpe] s t)) ∧
    (∀ d (m : Msg) n i (q : Qp), m.ty = 0x70 → bitsOf (m.f 0 0 64) 18 2 = 1 → bitsOf (m.f 0 0 64) 0 18 = n → bitsOf (m.f 0 0
      64) 32 32 = i → s.qpe.qps.get? [n] = some q → q.tenant = m.tenant → (q.state = Qs.init ∨ q.state = Qs.active) → bell i
      q.rqProd q.rqCons (2 ^ q.rqLog2) = some true → Gives (.qpDoorbell d m) s (fun t => t.qpe.qps.get? [n] = some
      { q with rqProd := i } ∧ RegsBut [] s t ∧ PartsBut [.out, .hif, .sw, .ports, .ras, .answers, .qpe] s t)) ∧
    (∀ n wr (q : Qp), s.qpe.qps.get? [n] = some q → q.state = Qs.active → q.fetched = some wr → s.cqFull q.scq = false →
      s.cqFull q.rcq = false → wOk false wr = true → 6 ≤ wOp wr → wSignal wr = false → wFence wr = false → s.chain q wr =
      .holds → q.fetching = false → q.sqNext = q.sqProd → q.cur = q.alloc → Gives (.workRequestStart n) s (fun t =>
      t.qpe.qps.get? [n] = some
      { q with fetched := none, sqCons := (q.sqCons + 1) % 2 ^ 32, compCount := (q.compCount + 1) % 2 ^ 32 } ∧ RegsBut [] s
      t ∧ PartsBut [.qpe] s t)) ∧
    (∀ n wr (q : Qp), s.qpe.qps.get? [n] = some q → q.state = Qs.active → q.fetched = some wr → s.cqFull q.scq = false →
      s.cqFull q.rcq = false → wOk false wr = true → wOp wr = 1 → wFence wr = false → s.chain q wr = .holds → s.regionOk q
      (wLkey wr) Rg.lrd (wLaddr wr) (wLen wr) = true → q.fetching = false → q.sqNext = q.sqProd → q.maxOut ≤ dist 24 q.cur
      q.unaPsn → Gives (.workRequestStart n) s (fun t => t.qpe.qps.get? [n] = some
      { q with fetched := none, works := q.works ++ [{ wr := wr, slot := (q.sqNext + 2 ^ 32 - 1) % 2 ^ 32, psn := q.alloc, count := max 1 (ceilDiv (wLen wr) 4064) }], alloc := (q.alloc + max 1 (ceilDiv (wLen wr) 4064)) % 2 ^ 24 }
      ∧ RegsBut [] s t ∧ PartsBut [.qpe] s t)) ∧
    (∀ n wr (q : Qp), s.qpe.qps.get? [n] = some q → q.state = Qs.active → q.fetched = some wr → wOk false wr = true →
      wWaitLimit wr ≠ 0 → s.chain q wr = .waits → wWaitLimit wr ≤ dist 32 (s.beatDie (dieOfQp n)) q.waitSince → q.works = []
      → q.recv = none → Gives (.waitTimeout n) s (fun t => (t.qpe.qps.get? [n]).map (·.state) = some Qs.error ∧ t.mem =
      s.mem ∧ RegsBut [R.QPE_ERR_INFO_qpn, R.QPE_ERR_INFO_status, R.QPE_ERR_INFO_psn, R.QPE_ERR_INFO_peer_eid,
      R.EDG_VIOL_INFO_port, R.EDG_VIOL_INFO_agent, R.EDG_VIOL_INFO_step, R.EDG_VIOL_INFO_src_eid, R.EDG_VIOL_INFO_msg_type,
      R.EDG_VIOL_INFO_tenant, R.EDG_VIOL_ADDR_addr] s t ∧ PartsBut [.out, .hif, .sw, .ports, .ras, .answers, .trk, .qpe] s
      t)) ∧
    (∀ d (m : Msg) (q : Qp), m.ty = 0x71 → s.qpe.qps.get? [m.qpn] = some q → dieOfQp m.qpn = d → q.gen = m.gen → q.state =
      Qs.active → m.psn = q.expPsn → m.immValid = false → m.first = true → q.jobs = [] → 0 < m.dataLen → s.regionOk q m.key
      Rg.rwr m.raddr m.dataLen = true → Gives (.rmaWrite d m) s (fun t => (t.qpe.qps.get? [m.qpn]).map (·.expPsn) = some
      ((m.psn + 1) % 2 ^ 24) ∧ (t.qpe.qps.get? [m.qpn]).map (·.jobs) = some
      [{ id := q.nextJob, psn := m.psn, msg := m, phase := 2, left := (writeCuts m.raddr m.dataLen).length }] ∧ t.mem =
      s.mem ∧ RegsBut [R.EDG_VIOL_INFO_port, R.EDG_VIOL_INFO_agent, R.EDG_VIOL_INFO_step, R.EDG_VIOL_INFO_src_eid,
      R.EDG_VIOL_INFO_msg_type, R.EDG_VIOL_INFO_tenant, R.EDG_VIOL_ADDR_addr] s t ∧ PartsBut [.out, .hif, .sw, .ports, .ras,
      .answers, .trk, .qpe] s t)) ∧
    (∀ d (m : Msg) (q : Qp), m.ty = 0x72 → s.qpe.qps.get? [m.qpn] = some q → dieOfQp m.qpn = d → q.gen = m.gen → q.state =
      Qs.active → m.psn = q.expPsn → q.jobs = [] → 0 < m.total → s.regionOk q m.key Rg.rrd m.raddr m.total = true → Gives
      (.rmaRead d m) s (fun t => (t.qpe.qps.get? [m.qpn]).map (·.expPsn) = some ((m.psn + 1) % 2 ^ 24) ∧ (t.qpe.qps.get?
      [m.qpn]).map (·.jobs) = some
      [{ id := q.nextJob, psn := m.psn, msg := m, phase := 2, left := (readCuts m.raddr (min 4064 m.total)).length }] ∧
      t.mem = s.mem ∧ RegsBut [R.EDG_VIOL_INFO_port, R.EDG_VIOL_INFO_agent, R.EDG_VIOL_INFO_step, R.EDG_VIOL_INFO_src_eid,
      R.EDG_VIOL_INFO_msg_type, R.EDG_VIOL_INFO_tenant, R.EDG_VIOL_ADDR_addr] s t ∧ PartsBut [.out, .hif, .sw, .ports, .ras,
      .answers, .trk, .qpe] s t)) ∧
    (∀ d (m : Msg) (q : Qp), m.ty = 0x73 → s.qpe.qps.get? [m.qpn] = some q → dieOfQp m.qpn = d → q.gen = m.gen → q.state =
      Qs.active → m.psn = q.expPsn → m.first = true → q.jobs = [] → q.recv = none → q.rqProd ≠ q.rqCons → q.rqProd < 2 ^ 32
      → q.rqCons < 2 ^ 32 → Gives (.rmaSend d m) s (fun t => (t.qpe.qps.get? [m.qpn]).map (·.expPsn) = some ((m.psn + 1) % 2
      ^ 24) ∧ (t.qpe.qps.get? [m.qpn]).map (·.jobs) = some [{ id := q.nextJob, psn := m.psn, msg := m, phase := 1 }] ∧ t.mem
      = s.mem ∧ RegsBut [R.EDG_VIOL_INFO_port, R.EDG_VIOL_INFO_agent, R.EDG_VIOL_INFO_step, R.EDG_VIOL_INFO_src_eid,
      R.EDG_VIOL_INFO_msg_type, R.EDG_VIOL_INFO_tenant, R.EDG_VIOL_ADDR_addr] s t ∧ PartsBut [.out, .hif, .sw, .ports, .ras,
      .answers, .trk, .qpe] s t)) ∧
    (∀ d (m : Msg) (q : Qp) (w : SendWork), m.ty = 0x78 → s.responder d m = some (m.qpn, q) → s.qpe.qps.get? [m.qpn] = some
      q → m.psn = q.unaPsn → q.works = [w] → w.psn = m.psn → w.read = true → w.got = [] → 0 < m.dataLen → m.off + m.dataLen
      ≤ wLen w.wr → s.regionOk q (wLkey w.wr) Rg.lwr (wLaddr w.wr + m.off) m.dataLen = true → Gives (.rmaReadData d m) s
      (fun t => (t.qpe.qps.get? [m.qpn]).map (·.works) = some
      [{ w with got := [(m.off, m.dataLen)], placing := w.placing + (writeCuts (wLaddr w.wr + m.off) m.dataLen).length }] ∧
      t.mem = s.mem ∧ RegsBut [R.EDG_VIOL_INFO_port, R.EDG_VIOL_INFO_agent, R.EDG_VIOL_INFO_step, R.EDG_VIOL_INFO_src_eid,
      R.EDG_VIOL_INFO_msg_type, R.EDG_VIOL_INFO_tenant, R.EDG_VIOL_ADDR_addr] s t ∧ PartsBut [.out, .hif, .sw, .ports, .ras,
      .answers, .trk, .qpe] s t)) ∧
    (∀ d (m : Msg) (q : Qp) (w : SendWork), m.ty = 0x79 → s.responder d m = some (m.qpn, q) → s.qpe.qps.get? [m.qpn] = some
      q → q.works = [w] → w.read = false → wSignal w.wr = false → w.psn = q.unaPsn → m.psn = (q.unaPsn + w.count) % 2 ^ 24 →
      0 < w.count → w.count < 2 ^ 23 → q.unaPsn < 2 ^ 24 → q.nextPsn = m.psn → q.cur = m.psn → q.alloc = m.psn → q.fetching
      = false → q.sqNext = q.sqProd → Gives (.rmaAck d m) s (fun t => t.qpe.qps.get? [m.qpn] = some
      { q with works := [], unaPsn := m.psn, retries := 0, ackSince := s.now, sqCons := (q.sqCons + 1) % 2 ^ 32, compCount := (q.compCount + 1) % 2 ^ 32 }
      ∧ RegsBut [] s t ∧ PartsBut [.out, .hif, .sw, .ports, .ras, .answers, .qpe] s t)) ∧
    (∀ d (m : Msg) (q : Qp), m.ty = 0x7A → s.responder d m = some (m.qpn, q) → s.qpe.qps.get? [m.qpn] = some q → m.psn =
      q.unaPsn → Status.ofCode m.status = .revoked → q.works = [] → q.fetched = none → q.recv = none → Gives (.rmaNak d m) s
      (fun t => (t.qpe.qps.get? [m.qpn]).map (·.state) = some Qs.error ∧ t.mem = s.mem ∧ RegsBut [R.QPE_ERR_INFO_qpn,
      R.QPE_ERR_INFO_status, R.QPE_ERR_INFO_psn, R.QPE_ERR_INFO_peer_eid, R.EDG_VIOL_INFO_port, R.EDG_VIOL_INFO_agent,
      R.EDG_VIOL_INFO_step, R.EDG_VIOL_INFO_src_eid, R.EDG_VIOL_INFO_msg_type, R.EDG_VIOL_INFO_tenant, R.EDG_VIOL_ADDR_addr]
      s t ∧ PartsBut [.out, .hif, .sw, .ports, .ras, .answers, .trk, .qpe] s t)) ∧
    (∀ n (q : Qp), s.qpe.qps.get? [n] = some q → q.state = Qs.active → q.unaPsn ≠ q.nextPsn → q.ackSince + 1000 *
      q.ackTimeout ≤ s.now → q.retries + 1 < q.retryLimit → q.works = [] → q.fetching = true → Gives (.ackTimeout n) s (fun
      t => t.qpe.qps.get? [n] = some { q with retries := q.retries + 1, cur := q.unaPsn, build := none, ackSince := s.now }
      ∧ RegsBut [] s t ∧ PartsBut [.qpe] s t))

/-- R291, R310: CREATE_QP gives the lowest free context of its die to the function's tenant in RESET with a new conn_gen;
MODIFY_QP takes it through INIT and ACTIVE and back to RESET; DESTROY_QP frees it in RESET; QUERY_QP stages its image. R307:
CREATE_CQ and DESTROY_CQ make and end completion queues. R293, R295: REG_REGION registers a region under a new tag and
INVAL_REGION ends it, done when nothing checked against it is under way. ALLOC_PD and FREE_PD give and take protection
domains. Each shows OK and its result. -/
def Obligations.QueueCommands : Prop :=
  ∀ s : State, Serves s ∧ s.isReady B.qpe = true →
    (∀ fn x n, s.on R.QPE_CMD_RESULT_busy [fn] = false → s.tenantActive fn = true → n = lowestFree (fun i => s.qpe.qps.has
      [i]) (bitsOf x 17 1 * 2 ^ 17) s.qpe.qps.size → n < (bitsOf x 17 1 + 1) * 2 ^ 17 → Gives (.createQp fn x) s (fun t =>
      t.qpe.qps.get? [n] = some { tenant := fn, gen := (s.qpe.gens.get 255 [n] + 1) % 256, resetAt := s.now } ∧ t.rd
      R.QPE_CMD_RESULT_status [fn] = Status.ok.code ∧ t.rd R.QPE_CMD_RESULT_busy [fn] = 0 ∧ t.rd R.QPE_CMD_RESULT_result
      [fn] = n ∧ RegsBut [R.QPE_CMD_RESULT_status, R.QPE_CMD_RESULT_busy, R.QPE_CMD_RESULT_result] s t ∧ PartsBut [.qpe] s
      t)) ∧
    (∀ fn n (q : Qp), s.on R.QPE_CMD_RESULT_busy [fn] = false → s.qpe.qps.get? [n] = some q → mayAct fn q.tenant = true →
      fieldOf (s.qpeImage fn 16) 0 0 3 = 0 → q.state ≠ Qs.reset → q.flushing = false → s.recordsOut n = false → Gives
      (.modifyQp fn n) s (fun t => t.qpe.qps.get? [n] = some (q.cleared ((q.gen + 1) % 256) s.now) ∧ t.rd
      R.QPE_CMD_RESULT_status [fn] = Status.ok.code ∧ RegsBut [R.QPE_CMD_RESULT_status, R.QPE_CMD_RESULT_busy,
      R.QPE_CMD_RESULT_result] s t ∧ PartsBut [.qpe] s t)) ∧
    (∀ fn n (q : Qp), s.on R.QPE_CMD_RESULT_busy [fn] = false → s.qpe.qps.get? [n] = some q → mayAct fn q.tenant = true →
      fieldOf (s.qpeImage fn 16) 0 0 3 = 1 → q.state = Qs.reset → q.resetAt + 1000000 ≤ s.now → s.initRefusal fn (s.qpeImage
      fn 16) = none → Gives (.modifyQp fn n) s (fun t => t.qpe.qps.get? [n] = some (q.init (s.qpeImage fn 16)) ∧ t.rd
      R.QPE_CMD_RESULT_status [fn] = Status.ok.code ∧ RegsBut [R.QPE_CMD_RESULT_status, R.QPE_CMD_RESULT_busy,
      R.QPE_CMD_RESULT_result] s t ∧ PartsBut [.qpe] s t)) ∧
    (∀ fn n (q : Qp), s.on R.QPE_CMD_RESULT_busy [fn] = false → s.qpe.qps.get? [n] = some q → mayAct fn q.tenant = true →
      fieldOf (s.qpeImage fn 16) 0 0 3 = 2 → q.state = Qs.init → q.sqNext = q.sqProd → q.cur = q.alloc → Gives (.modifyQp fn
      n) s (fun t => t.qpe.qps.get? [n] = some { q with state := Qs.active } ∧ t.rd R.QPE_CMD_RESULT_status [fn] =
      Status.ok.code ∧ RegsBut [R.QPE_CMD_RESULT_status, R.QPE_CMD_RESULT_busy, R.QPE_CMD_RESULT_result] s t ∧ PartsBut
      [.qpe] s t)) ∧
    (∀ fn n (q : Qp), s.on R.QPE_CMD_RESULT_busy [fn] = false → s.qpe.qps.get? [n] = some q → mayAct fn q.tenant = true →
      q.state = Qs.reset → Gives (.destroyQp fn n) s (fun t => t.qpe.qps.has [n] = false ∧ t.rd R.QPE_CMD_RESULT_status [fn]
      = Status.ok.code ∧ RegsBut [R.QPE_CMD_RESULT_status, R.QPE_CMD_RESULT_busy, R.QPE_CMD_RESULT_result] s t ∧ PartsBut
      [.qpe] s t)) ∧
    (∀ fn n (q : Qp), s.on R.QPE_CMD_RESULT_busy [fn] = false → s.qpe.qps.get? [n] = some q → mayAct fn q.tenant = true →
      Gives (.queryQp fn n) s (fun t => (∀ k, k < 16 → t.rd R.QPE_CMD_STAGE_word [k, fn] = bitsOf q.image (64 * k) 64) ∧
      t.qpe.qps.get? [n] = some q ∧ t.rd R.QPE_CMD_RESULT_status [fn] = Status.ok.code ∧ RegsBut [R.QPE_CMD_RESULT_status,
      R.QPE_CMD_RESULT_busy, R.QPE_CMD_RESULT_result, R.QPE_CMD_STAGE_word] s t ∧ PartsBut [.qpe] s t)) ∧
    (∀ fn x n w0 w1, s.on R.QPE_CMD_RESULT_busy [fn] = false → s.qpeStage fn 0 = w0 → s.qpeStage fn 1 = w1 → bitsOf w0 56 8
      = 0 → bitsOf w1 5 3 = 0 → bitsOf w1 10 6 = 0 → bitsOf w1 48 16 = 0 → 4 ≤ bitsOf w1 0 5 → bitsOf w1 0 5 ≤ 20 → ringOk
      w0 (32 * 2 ^ bitsOf w1 0 5) = true → (bitsOf w1 8 2 = 1 → bitsOf w1 16 16 < (if fn = 0 then 2048 else 64)) → n =
      lowestFree (fun i => s.qpe.cqs.has [i]) (bitsOf x 16 1 * 2 ^ 16) s.qpe.cqs.size → n < (bitsOf x 16 1 + 1) * 2 ^ 16 →
      Gives (.createCq fn x) s (fun t => t.qpe.cqs.get? [n] = some
      { tenant := fn, base := w0, log2 := bitsOf w1 0 5, notify := bitsOf w1 8 2, vector := bitsOf w1 16 16, endpoint := bitsOf w1 32 16 }
      ∧ t.rd R.QPE_CMD_RESULT_status [fn] = Status.ok.code ∧ t.rd R.QPE_CMD_RESULT_result [fn] = n ∧ RegsBut
      [R.QPE_CMD_RESULT_status, R.QPE_CMD_RESULT_busy, R.QPE_CMD_RESULT_result] s t ∧ PartsBut [.qpe] s t)) ∧
    (∀ fn n (c : Cq), s.on R.QPE_CMD_RESULT_busy [fn] = false → s.qpe.cqs.get? [n] = some c → mayAct fn c.tenant = true →
      (s.qpe.qps.vals.any (fun q => decide (q.scq = n ∨ q.rcq = n) && decide (q.state ≠ Qs.reset)) = false) → Gives
      (.destroyCq fn n) s (fun t => t.qpe.cqs.has [n] = false ∧ t.rd R.QPE_CMD_RESULT_status [fn] = Status.ok.code ∧ RegsBut
      [R.QPE_CMD_RESULT_status, R.QPE_CMD_RESULT_busy, R.QPE_CMD_RESULT_result] s t ∧ PartsBut [.qpe] s t)) ∧
    (∀ fn n x, s.on R.QPE_CMD_RESULT_busy [fn] = false → s.qpeImage fn 3 = x → bitAt x 0 = true → bitsOf x 40 24 = 0 →
      bitsOf x 120 8 = 0 → x < 2 ^ 168 → Rg.length x ≠ 0 → mayAct fn (bitsOf x 5 5) = true → s.tenantActive (bitsOf x 5 5) =
      true → s.qpe.pds.get? [bitsOf x 10 16] = some (bitsOf x 5 5) → bitAt (s.qpe.regions.get 0 [n]) 0 = false →
      s.qpe.invals.any (fun v => decide (v.1 = n)) = false → Gives (.regRegion fn n) s (fun t => t.qpe.regions.get? [n] =
      some (setBits x 26 14 ((s.qpe.tags.get 0 [n] + 1) % 2 ^ 14)) ∧ t.rd R.QPE_CMD_RESULT_status [fn] = Status.ok.code ∧
      t.rd R.QPE_CMD_RESULT_result [fn] = (s.qpe.tags.get 0 [n] + 1) % 2 ^ 14 ∧ RegsBut [R.QPE_CMD_RESULT_status,
      R.QPE_CMD_RESULT_busy, R.QPE_CMD_RESULT_result] s t ∧ PartsBut [.qpe] s t)) ∧
    (∀ fn n, s.on R.QPE_CMD_RESULT_busy [fn] = false → bitAt (s.qpe.regions.get 0 [n]) 0 = true → mayAct fn (bitsOf
      (s.qpe.regions.get 0 [n]) 5 5) = true → Gives (.invalRegion fn n) s (fun t => t.qpe.regions.has [n] = false ∧
      t.qpe.invals = s.qpe.invals ++ [(n, fn)] ∧ t.rd R.QPE_CMD_RESULT_busy [fn] = 1 ∧ RegsBut [R.QPE_CMD_RESULT_status,
      R.QPE_CMD_RESULT_busy, R.QPE_CMD_RESULT_result] s t ∧ PartsBut [.qpe] s t)) ∧
    (∀ key ix fn, s.qpe.invals.find? (fun v => decide (v.1 = key % 2 ^ 18)) = some (ix, fn) → s.regionBusy ix = false →
      Gives (.invalRegionDone key) s (fun t => t.qpe.invals = s.qpe.invals.filter (fun v => decide (v ≠ (ix, fn))) ∧ t.rd
      R.QPE_CMD_RESULT_busy [fn] = 0 ∧ t.rd R.QPE_CMD_RESULT_status [fn] = Status.ok.code ∧ RegsBut
      [R.QPE_CMD_RESULT_status, R.QPE_CMD_RESULT_busy, R.QPE_CMD_RESULT_result] s t ∧ PartsBut [.qpe] s t)) ∧
    (∀ fn n, s.on R.QPE_CMD_RESULT_busy [fn] = false → s.tenantActive fn = true → n = lowestFree (fun i => s.qpe.pds.has
      [i]) 0 s.qpe.pds.size → n < 65536 → Gives (.allocPd fn 0) s (fun t => t.qpe.pds.get? [n] = some fn ∧ t.rd
      R.QPE_CMD_RESULT_status [fn] = Status.ok.code ∧ t.rd R.QPE_CMD_RESULT_result [fn] = n ∧ RegsBut
      [R.QPE_CMD_RESULT_status, R.QPE_CMD_RESULT_busy, R.QPE_CMD_RESULT_result] s t ∧ PartsBut [.qpe] s t)) ∧
    (∀ fn n te, s.on R.QPE_CMD_RESULT_busy [fn] = false → s.qpe.pds.get? [n] = some te → mayAct fn te = true →
      s.qpe.qps.vals.any (fun q => decide (q.pd = n ∧ q.state ≠ Qs.reset)) = false → s.qpe.regions.vals.any (fun e => decide
      (bitsOf e 10 16 = n)) = false → Gives (.freePd fn n) s (fun t => t.qpe.pds.has [n] = false ∧ t.rd
      R.QPE_CMD_RESULT_status [fn] = Status.ok.code ∧ RegsBut [R.QPE_CMD_RESULT_status, R.QPE_CMD_RESULT_busy,
      R.QPE_CMD_RESULT_result] s t ∧ PartsBut [.qpe] s t))

/-! ### Compression (13) -/

/-- R330: LOAD takes the staged descriptor and table as the next generation and keeps the previous table; it refuses an
invalid table or reserved value with UNSUPPORTED and a foreign tenant with PROT_VIOLATION; CONFIG changes only the delivery
fields and CLEAR only VALID, at a message boundary. R325: a message whose stream is not valid is refused and one of another
tenant is a protection violation. R326, R328: a block is written to the next slot of its ring with its tag, the producer
count advances, and where no slot is free it waits. -/
def Obligations.StreamsOfTheCodec : Prop :=
  ∀ s : State, Serves s →
    (∀ fn n d x u, s.on R.CDC_CMD_RESULT_busy [fn] = false → s.isReady B.cdc = true → fn = 0 → s.cdcStage 0 0 4 = x →
      s.cdcStage 0 4 16 = u → streamOk x = true → tableValid u = true → s.tenantActive (Stream.tenant x) = true → n < 4096 →
      d < 2 → x < 2 ^ 256 → u < 2 ^ 1024 → Gives (.load fn n d) s (fun t => t.streamAt d n = setBits x 28 8 ((Stream.gen
      (s.streamAt d n) + 1) % 256) ∧ t.rd R.CDC_TABLE_lengths [d, n, 0] = u ∧ t.rd R.CDC_CMD_RESULT_status [0] =
      Status.ok.code ∧ t.rd R.CDC_CMD_RESULT_gen [0] = (Stream.gen (s.streamAt d n) + 1) % 256 ∧ RegsBut
      [R.CDC_STREAM_descriptor, R.CDC_TABLE_lengths, R.CDC_CMD_RESULT_status, R.CDC_CMD_RESULT_busy, R.CDC_CMD_RESULT_gen] s
      t ∧ PartsBut [.cdc] s t)) ∧
    (∀ fn n d, s.on R.CDC_CMD_RESULT_busy [fn] = false → s.isReady B.cdc = true → fn = 0 → tableValid (s.cdcStage 0 4 16) =
      false → Gives (.load fn n d) s (fun t => t.rd R.CDC_CMD_RESULT_status [0] = Status.unsupported.code ∧ RegsBut
      [R.CDC_CMD_RESULT_status, R.CDC_CMD_RESULT_busy, R.CDC_CMD_RESULT_gen] s t ∧ PartsBut reporting s t)) ∧
    (∀ fn n d, s.on R.CDC_CMD_RESULT_busy [fn] = false → s.isReady B.cdc = false → fn < 32 → Gives (.load fn n d) s (fun t
      => t.rd R.CDC_CMD_RESULT_status [fn] = Status.retry.code ∧ RegsBut [R.CDC_CMD_RESULT_status, R.CDC_CMD_RESULT_busy,
      R.CDC_CMD_RESULT_gen] s t ∧ PartsBut [] s t)) ∧
    (∀ fn n d x, s.on R.CDC_CMD_RESULT_busy [fn] = false → s.isReady B.cdc = true → fn = 0 → s.cdcStage 0 0 4 = x → streamOk
      x = true → s.cdc.deferred = Map.empty → s.midMessage d n = false → n < 4096 → d < 2 → Gives (.config fn n d) s (fun t
      => Stream.out (t.streamAt d n) = Stream.out x ∧ Stream.core (t.streamAt d n) = Stream.core x ∧ Stream.handle
      (t.streamAt d n) = Stream.handle x ∧ Stream.tagBase (t.streamAt d n) = Stream.tagBase x ∧ Stream.gen (t.streamAt d n)
      = Stream.gen (s.streamAt d n) ∧ Stream.valid (t.streamAt d n) = Stream.valid (s.streamAt d n) ∧ Stream.tenant
      (t.streamAt d n) = Stream.tenant (s.streamAt d n) ∧ RegsBut [R.CDC_STREAM_descriptor, R.CDC_CMD_RESULT_status,
      R.CDC_CMD_RESULT_busy, R.CDC_CMD_RESULT_gen] s t ∧ PartsBut [] s t)) ∧
    (∀ fn n d, s.on R.CDC_CMD_RESULT_busy [fn] = false → s.isReady B.cdc = true → fn = 0 → s.cdc.deferred = Map.empty →
      s.midMessage d n = false → n < 4096 → d < 2 → Gives (.clear fn n d) s (fun t => Stream.valid (t.streamAt d n) = false
      ∧ Stream.gen (t.streamAt d n) = Stream.gen (s.streamAt d n) ∧ t.rd R.CDC_CMD_RESULT_status [0] = Status.ok.code ∧
      RegsBut [R.CDC_STREAM_descriptor, R.CDC_CMD_RESULT_status, R.CDC_CMD_RESULT_busy, R.CDC_CMD_RESULT_gen] s t ∧ PartsBut
      [] s t)) ∧
    (∀ fn n d, s.on R.CDC_CMD_RESULT_busy [fn] = false → s.isReady B.cdc = true → fn = 0 → s.cdc.deferred = Map.empty →
      s.midMessage d n = true → Gives (.clear fn n d) s (fun t => t.streamAt d n = s.streamAt d n ∧ t.on
      R.CDC_CMD_RESULT_busy [0] = true ∧ t.cdc.deferred.get? [d, n, 0] = some { clear := true, desc := 0 } ∧ RegsBut
      [R.CDC_CMD_RESULT_status, R.CDC_CMD_RESULT_busy, R.CDC_CMD_RESULT_gen] s t ∧ PartsBut [.cdc] s t)) ∧
    (∀ p (m : Msg), m.ty = 0xA8 → m.len ≠ 16 → Stream.valid (s.streamAt m.die (cStream m)) = false → Gives (.expansion p m)
      s (fun t => t.rd R.CDC_CNT_count [dieOfPort p, 7] = min (2 ^ 48 - 1) (s.rd R.CDC_CNT_count [dieOfPort p, 7] + 1) ∧
      RegsBut [] s t ∧ PartsBut [.out, .hif, .sw, .ports, .ras] s t)) ∧
    (∀ p (m : Msg) n i (h : Handle) x b (g : List Nat), m.ty = 0xA8 → m.len ≠ 16 → takeFirst m (s.sw.agentIn.get [] [m.die,
      m.chan]) = none → s.cdc = {} → s.streamAt m.die (cStream m) = x → Stream.valid x = true → Stream.tenant x = m.tenant →
      Stream.core x = n → Stream.handle x = i → (s.core n).handles.get? [i] = some h → (s.core n).acqs = [] → h.producer = 1
      → blockWidth (Stream.out x) = b → b ≤ h.slot → h.full < h.slots → cBlocks m = 1 → s.expandBlock m 0 = (none, g) →
      h.at_ h.p + b ≤ 0x200000 → Memory.wf s.spm = true → Gives (.expansion p m) s (fun t => (t.core n).handles.get? [i] =
      some { h with p := (h.p + 1) % 2 ^ 32 } ∧ t.peek n (h.at_ h.p) b = packElems (b / 32) g % 2 ^ (8 * b) ∧ t.cdc = {} ∧
      RegsBut [] s t ∧ PartsBut [.cores, .spm, .csram] s t)) ∧
    (∀ p (m : Msg) n i (h : Handle) x b (g : List Nat), m.ty = 0xA8 → m.len ≠ 16 → takeFirst m (s.sw.agentIn.get [] [m.die,
      m.chan]) = none → s.cdc = {} → s.streamAt m.die (cStream m) = x → Stream.valid x = true → Stream.tenant x = m.tenant →
      Stream.core x = n → Stream.handle x = i → (s.core n).handles.get? [i] = some h → h.producer = 1 → blockWidth
      (Stream.out x) = b → b ≤ h.slot → h.slots ≤ h.full → cBlocks m = 1 → s.expandBlock m 0 = (none, g) → Gives (.expansion
      p m) s (fun t => t.cdc.work.map (fun e => e.blocks) = [[(packElems (b / 32) g, deliveryTag m 0 false)]] ∧ RegsBut [] s
      t ∧ PartsBut [.cdc] s t)) ∧
    (∀ n i (e : Expansion) (h : Handle), s.cdc.work = [e] → s.cdc.deferred = Map.empty → e.core = n → e.handle = i →
      e.blocks = [(0, 0)] → e.msg.ty = 0xA8 → (s.core n).handles.get? [i] = some h → (s.core n).acqs = [] → h.full < h.slots
      → Gives (.expansionResume n i) s (fun t => (t.core n).handles.get? [i] = some { h with p := (h.p + 1) % 2 ^ 32 } ∧
      t.cdc.work = [] ∧ RegsBut [] s t ∧ PartsBut [.cores, .spm, .csram, .cdc] s t)) ∧
    (∀ n i (e : Expansion) (h : Handle), s.cdc.work = [e] → e.core = n → e.handle = i → e.blocks = [(0, 0)] → (s.core
      n).handles.get? [i] = some h → h.slots ≤ h.full → Gives (.expansionResume n i) s (fun t => t.cdc = s.cdc ∧ RegsBut []
      s t ∧ PartsBut [] s t))

/-! ### Collectives (14) -/

/-- R333: a valid descriptor staged for a free slot is installed and IDLE, and a slot in use answers RETRY. R334, R335:
OWNER and MEMBER entries are kept; an entry beyond the descriptor's count is refused. R340: a step is scheduled for its beat
and opens when the beat has come. R347: where the timeout passes, chunks not complete fail with TIMEOUT and the step ends
with it. R354: DESTROY frees an IDLE slot and refuses any other with RETRY. -/
def Obligations.CollectiveCommands : Prop :=
  ∀ s : State, Serves s →
    (∀ fn n x, s.isReady B.clt = true → s.cltStage fn 16 = x → collOk n x = true → mayAct fn (coTenant x) = true →
      s.tenantActive (coTenant x) = true → s.clt.colls.has [n] = false → s.clt.freed.get? [n] = none → fn < 32 → n < 4096 →
      Gives (.collectiveCreate fn n) s (fun t => t.clt.colls.get? [n] = some { desc := x } ∧ t.clst n = Cl.idle ∧ t.rd
      R.CLT_COLL_STATUS_tenant [n] = coTenant x ∧ t.rd R.CLT_CMD_RESULT_status [fn] = Status.ok.code ∧ RegsBut
      [R.CLT_COLL_STATUS_state, R.CLT_COLL_STATUS_tenant, R.CLT_COLL_STATUS_tag, R.CLT_CMD_RESULT_status,
      R.CLT_CMD_RESULT_busy] s t ∧ PartsBut [.clt] s t)) ∧
    (∀ fn n x, s.isReady B.clt = true → s.cltStage fn 16 = x → collOk n x = true → mayAct fn (coTenant x) = true →
      s.tenantActive (coTenant x) = true → s.clt.colls.has [n] = true → fn < 32 → Gives (.collectiveCreate fn n) s (fun t =>
      t.rd R.CLT_CMD_RESULT_status [fn] = Status.retry.code ∧ RegsBut [R.CLT_CMD_RESULT_status, R.CLT_CMD_RESULT_busy] s t ∧
      PartsBut reporting s t)) ∧
    (∀ fn n k (c : Coll), s.isReady B.clt = true → s.clt.colls.get? [n] = some c → mayAct fn (coTenant c.desc) = true → k <
      coOwners c.desc → fieldOf (s.cltStage fn 2) 4 12 20 = 0 → fieldOf (s.cltStage fn 2) 12 5 27 = 0 → owSlots (s.cltStage
      fn 2) ≤ 16 → owEid (s.cltStage fn 2) ≠ s.eid → fn < 32 → Gives (.owner fn n k) s (fun t => t.clt.colls.get? [n] = some
      { c with owners := c.owners.set [k] (s.cltStage fn 2) } ∧ t.rd R.CLT_CMD_RESULT_status [fn] = Status.ok.code ∧ RegsBut
      [R.CLT_CMD_RESULT_status, R.CLT_CMD_RESULT_busy] s t ∧ PartsBut [.clt] s t)) ∧
    (∀ fn n k (c : Coll), s.isReady B.clt = true → s.clt.colls.get? [n] = some c → mayAct fn (coTenant c.desc) = true →
      coOwners c.desc ≤ k → fn < 32 → Gives (.owner fn n k) s (fun t => t.rd R.CLT_CMD_RESULT_status [fn] =
      Status.unsupported.code ∧ RegsBut [R.CLT_CMD_RESULT_status, R.CLT_CMD_RESULT_busy] s t ∧ PartsBut reporting s t)) ∧
    (∀ fn n k (c : Coll), s.isReady B.clt = true → s.clt.colls.get? [n] = some c → mayAct fn (coTenant c.desc) = true → k <
      coMembers c.desc → s.cltStage fn 1 < 2 ^ 34 → mbCore (s.cltStage fn 1) = true → fn < 32 → Gives (.member fn n k) s
      (fun t => t.clt.colls.get? [n] = some { c with members := c.members.set [k] (s.cltStage fn 1) } ∧ t.rd
      R.CLT_CMD_RESULT_status [fn] = Status.ok.code ∧ RegsBut [R.CLT_CMD_RESULT_status, R.CLT_CMD_RESULT_busy] s t ∧
      PartsBut [.clt] s t)) ∧
    (∀ fn n (c : Coll), s.isReady B.clt = true → s.clt.colls.get? [n] = some c → mayAct fn (coTenant c.desc) = false → fn <
      32 → Gives (.member fn n 0) s (fun t => t.rd R.CLT_CMD_RESULT_status [fn] = Status.protViolation.code ∧ RegsBut
      [R.CLT_CMD_RESULT_status, R.CLT_CMD_RESULT_busy] s t ∧ PartsBut reporting s t)) ∧
    (∀ fn n b st (c : Coll), s.isReady B.clt = true → s.clt.colls.get? [n] = some c → mayAct fn (coTenant c.desc) = true →
      s.clst n = Cl.idle → s.noLaunch = false → s.ownHere c = [] → bitsOf (s.cltStage fn 1) 0 32 = st → bitsOf (s.cltStage
      fn 1) 32 32 = b → ahead b s.beat = true → fn < 32 → n < 4096 → Gives (.collStep fn n) s (fun t => t.clst n =
      Cl.scheduled ∧ t.rd R.CLT_COLL_STATUS_beat [n] = b ∧ t.clt.colls.get? [n] = some { c with next := some (st, b) } ∧
      t.rd R.CLT_CMD_RESULT_status [fn] = Status.ok.code ∧ RegsBut [R.CLT_COLL_STATUS_state, R.CLT_COLL_STATUS_beat,
      R.CLT_CMD_RESULT_status, R.CLT_CMD_RESULT_busy] s t ∧ PartsBut [.clt] s t)) ∧
    (∀ fn n (c : Coll), s.isReady B.clt = true → s.clt.colls.get? [n] = some c → mayAct fn (coTenant c.desc) = true → s.clst
      n ≠ Cl.idle → fn < 32 → Gives (.collStep fn n) s (fun t => t.rd R.CLT_CMD_RESULT_status [fn] = Status.retry.code ∧
      RegsBut [R.CLT_CMD_RESULT_status, R.CLT_CMD_RESULT_busy] s t ∧ PartsBut reporting s t)) ∧
    (∀ n k ow st b (c : Coll), s.clt.colls.get? [n] = some c → s.clst n = Cl.scheduled → c.next = some (st, b) → ahead (s.rd
      R.CLT_COLL_STATUS_beat [n]) s.beat = false → coUpdate c.desc = false → s.ownHere c = [(k, ow)] → ownedChunks c.desc k
      ≠ [] → coPeriod c.desc ≠ 0 → n < 4096 → st < 2 ^ 32 → Gives (.stepOpen n) s (fun t => t.clst n = Cl.open_ ∧ t.rd
      R.CLT_COLL_STATUS_step [n] = st ∧ t.clt.colls.get? [n] = some
      { c with step := st, own := Map.empty, accs := Map.empty, groups := Map.empty, spilled := false, next := some ((st + 1) % 2 ^ 32, (b + coPeriod c.desc) % 2 ^ 32) }
      ∧ RegsBut [R.CLT_COLL_STATUS_state, R.CLT_COLL_STATUS_step] s t ∧ PartsBut [.clt] s t)) ∧
    (∀ n st b (c : Coll), s.clt.colls.get? [n] = some c → c.next = some (st, b) → ahead (s.rd R.CLT_COLL_STATUS_beat [n])
      s.beat = true → Gives (.stepOpen n) s (fun t => RegsBut [] s t ∧ PartsBut [] s t)) ∧
    (∀ n k ow i (c : Coll), s.clt.colls.get? [n] = some c → s.running n = true → ahead (s.rd R.CLT_COLL_STATUS_beat [n] +
      coTimeout c.desc) s.beat = false → coUpdate c.desc = false → s.ownHere c = [(k, ow)] → ownedChunks c.desc k = [i] →
      (c.owned k).finished.has [i] = false → (c.owned k).ended = false → (c.owned k).worst = .ok → c.accs.get? [i] = none →
      c.next = none → n < 4096 → Gives (.stepTimeout n) s (fun t => t.clst n = Cl.idle ∧ t.rd R.CLT_COLL_STATUS_last_status
      [n] = Status.timeout.code ∧ (t.clt.colls.get? [n]).map (fun c' => (c'.last, c'.accs)) = some (some c.step, Map.empty)
      ∧ RegsBut [R.CLT_COLL_STATUS_state, R.CLT_COLL_STATUS_last_status, R.CLT_COLL_STATUS_live,
      R.CMP_CLUSTER_STATUS_accums, R.CLT_FAIL_INFO_slot, R.CLT_FAIL_INFO_status, R.CLT_FAIL_INFO_chunk,
      R.CLT_FAIL_INFO_step] s t ∧ PartsBut [.out, .hif, .sw, .ports, .ras, .answers, .clt] s t)) ∧
    (∀ fn n (c : Coll), s.isReady B.clt = true → s.clt.colls.get? [n] = some c → mayAct fn (coTenant c.desc) = true → s.clst
      n = Cl.idle → c.bound = [] → fn < 32 → n < 4096 → Gives (.collectiveDestroy fn n) s (fun t => t.clt.colls.get? [n] =
      none ∧ t.clst n = Cl.free ∧ t.clt.freed.get? [n] = some s.now ∧ RegsBut [R.CLT_COLL_STATUS_state,
      R.CLT_COLL_STATUS_tenant, R.CLT_COLL_STATUS_tag, R.CLT_COLL_STATUS_live, R.CLT_CMD_RESULT_status,
      R.CLT_CMD_RESULT_busy] s t ∧ PartsBut [.clt] s t)) ∧
    (∀ fn n (c : Coll), s.isReady B.clt = true → s.clt.colls.get? [n] = some c → mayAct fn (coTenant c.desc) = true → s.clst
      n ≠ Cl.idle → fn < 32 → Gives (.collectiveDestroy fn n) s (fun t => t.rd R.CLT_CMD_RESULT_status [fn] =
      Status.retry.code ∧ RegsBut [R.CLT_CMD_RESULT_status, R.CLT_CMD_RESULT_busy] s t ∧ PartsBut reporting s t))

/-- R338, R342: a contribution to no installed collective is UNSUPPORTED, one to the next step RETRY, and one that its
record holds already is OK and not summed again. R343, R344: the first accepted contribution of a chunk makes its record and
a later one is combined element by element with the reduction. R335: a result goes to the next slot of each core member's
ring and CL_DONE increments the member's counter. R352: an update group whose counter reaches 1 delivers its chunk, and one
whose time runs out fails it with TIMEOUT. -/
def Obligations.CollectiveMessages : Prop :=
  ∀ s : State, Serves s →
    (∀ d (m : Msg), m.ty = 0x91 → s.collOf (m.f 0 0 32) = none → Gives (.clContribPlain d m) s (fun t => Answers d m
      .unsupported 0 none s t ∧ RegsBut [] s t ∧ PartsBut [.out, .hif, .sw, .ports, .ras, .answers] s t)) ∧
    (∀ d (m : Msg) n i sh k x (c : Coll), m.ty = 0x91 → s.collOf (m.f 0 0 32) = some (n, c) → c.desc = x → m.f 8 0 16 = i →
      m.f 8 16 16 = sh → i / coPer x = k → i < coChunks x → c.owners.has [k] = true → owEid (ownerOf c k) = s.eid → sh <
      coShards x → plainShape x m = true → m.tenant = coTenant x → s.openStep n c = some (m.f 4 0 32 - 1) → 1 ≤ m.f 4 0 32 →
      Gives (.clContribPlain d m) s (fun t => Answers d m .retry 0 none s t ∧ t.clt = s.clt ∧ RegsBut [] s t ∧ PartsBut
      [.out, .hif, .sw, .ports, .ras, .answers] s t)) ∧
    (∀ d (m : Msg) n i sh k x (c : Coll), m.ty = 0x91 → s.collOf (m.f 0 0 32) = some (n, c) → c.desc = x → m.f 8 0 16 = i →
      m.f 8 16 16 = sh → i / coPer x = k → i < coChunks x → c.owners.has [k] = true → owEid (ownerOf c k) = s.eid → sh <
      coShards x → plainShape x m = true → m.tenant = coTenant x → s.running n = true → m.f 4 0 32 = c.step → (c.owned
      k).ended = false → (c.owned k).finished.has [i] = false → coPace x = 0 → c.accs.get? [i] = none → s.clusterUp
      (owCluster (ownerOf c k)) = true → s.accumUsed (owCluster (ownerOf c k)) + accBytes x ≤ 262144 * s.rd
      R.CMP_CSRAM_CFG_accum [owCluster (ownerOf c k)] → popcount 1024 (2 ^ sh) < coShards x → Gives (.clContribPlain d m) s
      (fun t => (t.clt.colls.get? [n]).bind (fun c' => c'.accs.get? [i]) = some
      { owner := k, bits := 2 ^ sh, open_ := 0, elems := (List.range (coLen x)).map (fun j => toAccum (coIn x) (m.f 16 (tyBits (coIn x) * j) (tyBits (coIn x)))) }
      ∧ RegsBut [R.CLT_COLL_STATUS_live, R.CMP_CLUSTER_STATUS_accums] s t ∧ PartsBut [.out, .hif, .sw, .ports, .ras,
      .answers, .clt] s t)) ∧
    (∀ d (m : Msg) n i sh k x (c : Coll) (a : Accum), m.ty = 0x91 → s.collOf (m.f 0 0 32) = some (n, c) → c.desc = x → m.f 8
      0 16 = i → m.f 8 16 16 = sh → i / coPer x = k → i < coChunks x → c.owners.has [k] = true → owEid (ownerOf c k) = s.eid
      → sh < coShards x → plainShape x m = true → m.tenant = coTenant x → s.running n = true → m.f 4 0 32 = c.step →
      (c.owned k).ended = false → (c.owned k).finished.has [i] = false → coPace x = 0 → c.accs.get? [i] = some a → bitAt
      a.bits sh = true → Gives (.clContribPlain d m) s (fun t => Answers d m .ok 0 none s t ∧ t.clt = s.clt ∧ RegsBut [] s t
      ∧ PartsBut [.out, .hif, .sw, .ports, .ras, .answers] s t)) ∧
    (∀ d (m : Msg) n i sh k x (c : Coll) (a : Accum), m.ty = 0x91 → s.collOf (m.f 0 0 32) = some (n, c) → c.desc = x → m.f 8
      0 16 = i → m.f 8 16 16 = sh → i / coPer x = k → i < coChunks x → c.owners.has [k] = true → owEid (ownerOf c k) = s.eid
      → sh < coShards x → plainShape x m = true → m.tenant = coTenant x → s.running n = true → m.f 4 0 32 = c.step →
      (c.owned k).ended = false → (c.owned k).finished.has [i] = false → coPace x = 0 → c.accs.get? [i] = some a → bitAt
      a.bits sh = false → a.elems ≠ [] → popcount 1024 (a.bits + 2 ^ sh) ≠ coShards x → Gives (.clContribPlain d m) s (fun t
      => (t.clt.colls.get? [n]).bind (fun c' => c'.accs.get? [i]) = some
      { a with bits := a.bits + 2 ^ sh, elems := List.zipWith (reduceStep (coRedop x) (coIn x)) a.elems ((List.range (coLen x)).map (fun j => toAccum (coIn x) (m.f 16 (tyBits (coIn x) * j) (tyBits (coIn x))))) }
      ∧ RegsBut [R.CLT_COLL_STATUS_live, R.CMP_CLUSTER_STATUS_accums] s t ∧ PartsBut [.out, .hif, .sw, .ports, .ras,
      .answers, .clt] s t)) ∧
    (∀ d (m : Msg) (e : Expansion), m.ty = 0x90 → s.cdc.work = [e] → e.msg = m → e.blocks = [] → e.taken = e.written →
      e.verdict = none → e.bad = false → s.collOf (m.f 0 0 32) = none → Gives (.clContrib d m) s (fun t => Answers d m
      .unsupported 0 none s t ∧ t.cdc.work = [] ∧ RegsBut [] s t ∧ PartsBut [.out, .hif, .sw, .ports, .ras, .answers, .cdc]
      s t)) ∧
    (∀ d (m : Msg) n i (e : Expansion) (c : Coll) (a : Accum), m.ty = 0x90 → s.cdc.work = [e] → e.msg = m → e.blocks = [] →
      e.taken = e.written → e.verdict = some (.ok, true) → e.bad = false → m.f 0 0 12 = n → m.f 8 0 16 = i →
      s.clt.colls.get? [n] = some c → c.accs.get? [i] = some a → a.elems ≠ [] → popcount 1024 a.bits ≠ coShards c.desc →
      Gives (.clContrib d m) s (fun t => t.cdc.work = [] ∧ (t.clt.colls.get? [n]).bind (fun c' => c'.accs.get? [i]) = some
      { a with open_ := a.open_ - 1, elems := List.zipWith (reduceStep (coRedop c.desc) (coIn c.desc)) a.elems (e.elems.map (toAccum e.out)) }
      ∧ RegsBut [R.CLT_COLL_STATUS_live, R.CMP_CLUSTER_STATUS_accums] s t ∧ PartsBut [.out, .hif, .sw, .ports, .ras,
      .answers, .cdc, .clt] s t)) ∧
    (∀ d (m : Msg) (e : Expansion), m.ty = 0x99 → s.cdc.work = [e] → e.msg = m → e.blocks = [] → e.taken = e.written →
      s.collOf (m.f 0 0 32) = none → Gives (.clResult d m) s (fun t => t.cdc.work = [] ∧ RegsBut [] s t ∧ PartsBut [.cdc] s
      t)) ∧
    (∀ d (m : Msg) (e : Expansion) n (c : Coll) mb (h : Handle), m.ty = 0x99 → s.cdc.work = [e] → e.msg = m → e.blocks = []
      → e.taken = e.written → s.collOf (m.f 0 0 32) = some (n, c) → coreMembers c (some (m.f 8 0 16)) = [mb] → (s.core (mbN
      mb)).handles.get? [mbHandle mb] = some h → h.producer = 3 → coLen c.desc * tyBytes (coOut c.desc) ≤ h.slot → h.full <
      h.slots → Gives (.clResult d m) s (fun t => t.cdc.work = [] ∧ (t.core (mbN mb)).handles.get? [mbHandle mb] = some
      { h with p := (h.p + 1) % 2 ^ 32 } ∧ RegsBut [] s t ∧ PartsBut [.cores, .spm, .csram, .cdc] s t)) ∧
    (∀ d (m : Msg) n (c : Coll) mb (h : Handle), m.ty = 0x9A → s.collOf (m.f 0 0 32) = some (n, c) → coreMembers c (some
      (m.f 8 0 16)) = [mb] → (s.core (mbN mb)).handles.get? [mbHandle mb] = some h → h.producer = 3 → coLen c.desc * tyBytes
      (coOut c.desc) ≤ h.slot → h.full < h.slots → h.at_ h.p + coLen c.desc * tyBytes (coOut c.desc) ≤ 0x200000 → m.len = 16
      + coLen c.desc * tyBytes (coOut c.desc) → Memory.wf s.spm = true → Gives (.clResultPlain d m) s (fun t => (t.core (mbN
      mb)).handles.get? [mbHandle mb] = some { h with p := (h.p + 1) % 2 ^ 32 } ∧ t.peek (mbN mb) (h.at_ h.p) (m.len - 16) =
      bitsOf m.body 128 (8 * (m.len - 16)) ∧ RegsBut [] s t ∧ PartsBut [.out, .hif, .sw, .ports, .ras, .answers, .cores,
      .spm] s t)) ∧
    (∀ d (m : Msg) n (c : Coll) mb (h : Handle), m.ty = 0x9A → s.collOf (m.f 0 0 32) = some (n, c) → coreMembers c (some
      (m.f 8 0 16)) = [mb] → (s.core (mbN mb)).handles.get? [mbHandle mb] = some h → h.producer = 3 → coLen c.desc * tyBytes
      (coOut c.desc) ≤ h.slot → h.slots ≤ h.full → Gives (.clResultPlain d m) s (fun t => RegsBut [] s t ∧ PartsBut [] s t)) ∧
    (∀ d (m : Msg) n (c : Coll) mb, m.ty = 0x9B → s.collOf (m.f 0 0 32) = some (n, c) → coreMembers c none = [mb] → (s.core
      (mbN mb)).wait = none → Gives (.clDone d m) s (fun t => t.core (mbN mb) =
      { s.core (mbN mb) with ctr := (s.core (mbN mb)).ctr.set [mbCtr mb] ((((s.core (mbN mb)).counter (mbCtr mb)).1 + 1) % 2 ^ 32, Status.join ((s.core (mbN mb)).counter (mbCtr mb)).2 (Status.ofCode m.status)) }
      ∧ RegsBut [] s t ∧ PartsBut [.out, .hif, .sw, .ports, .ras, .answers, .cores] s t)) ∧
    (∀ n k g i j (c : Coll) (u : UGroup), s.clt.colls.get? [n] = some c → c.groups.get? [k, g] = some u → (s.core
      u.core).counter (coCtr c.desc) = (1, .ok) → s.running n = true → groupChunks c.desc k g = [i] → j ∈ ownedChunks c.desc
      k → j ≠ i → (c.owned k).finished.has [j] = false → Gives (.updateDone n k g) s (fun t => (t.clt.colls.get? [n]).map
      (fun c' => (c'.owned k).finished.has [i]) = some true ∧ (t.clt.colls.get? [n]).map (fun c' => ((c'.owned k).updated,
      (c'.owned k).ended)) = some ((c.owned k).updated + 1, (c.owned k).ended))) ∧
    (∀ n k g i j (c : Coll) (u : UGroup), s.clt.colls.get? [n] = some c → c.groups.get? [k, g] = some u → u.since + 1000 *
      coLimit c.desc ≤ s.now → s.running n = true → groupChunks c.desc k g = [i] → (c.owned k).finished.has [i] = false → j
      ∈ ownedChunks c.desc k → j ≠ i → (c.owned k).finished.has [j] = false → Gives (.updateTimeout n k g) s (fun t =>
      (t.clt.colls.get? [n]).map (fun c' => (c'.owned k).finished.has [i]) = some true ∧ (t.clt.colls.get? [n]).map (fun c'
      => (c'.owned k).worst) = some (Status.join (c.owned k).worst .timeout)))

/-! ### Gather and filter (15) -/

/-- R357: a valid table staged for a free slot is installed and shown; a table in use is not destroyed. R368: ADVANCE raises
the generation of an EMBED table and refuses a KV table. R355, R363, R373: a lookup or filter of an unknown table is
UNSUPPORTED, one of a full queue RETRY, and one that is taken waits in arrival order until a core is free, which reads its
index entries. R365: at the end of a pass the next one is pushed, and after the last the request leaves with its sum. R364:
a pass that runs out of time ends the request. R370: an update reads the index entry of its first row. R366: a packet of a
forwarded result is kept until all of them are in. R367: counts of the row cache are halved at each decay. -/
def Obligations.GatherAndFilter : Prop :=
  ∀ s : State, Serves s →
    (∀ fn n x, s.isReady B.gth = true → s.gthStage fn = x → s.tableOk n x = true → mayAct fn (tbTenant x) = true →
      s.tenantActive (tbTenant x) = true → s.gth.tables.has [n] = false → s.gth.freed.get? [n] = none → fn < 32 → n < 1024 →
      Gives (.tableCreate fn n) s (fun t => t.table n = some { desc := x, gen := tbGen x } ∧ t.rd R.GTH_TABLE_STATUS_valid
      [n] = 1 ∧ t.rd R.GTH_TABLE_STATUS_gen [n] = tbGen x ∧ t.rd R.GTH_CMD_RESULT_status [fn] = Status.ok.code ∧ RegsBut
      [R.GTH_TABLE_STATUS_valid, R.GTH_TABLE_STATUS_kind, R.GTH_TABLE_STATUS_tenant, R.GTH_TABLE_STATUS_die,
      R.GTH_TABLE_STATUS_tag, R.GTH_TABLE_STATUS_gen, R.GTH_CMD_RESULT_status, R.GTH_CMD_RESULT_busy, R.GTH_CMD_RESULT_gen]
      s t ∧ PartsBut [.gth] s t)) ∧
    (∀ fn n, s.isReady B.gth = true → s.tableOk n (s.gthStage fn) = false → s.table n = none → fn < 32 → Gives (.tableCreate
      fn n) s (fun t => t.rd R.GTH_CMD_RESULT_status [fn] = Status.unsupported.code ∧ RegsBut [R.GTH_CMD_RESULT_status,
      R.GTH_CMD_RESULT_busy, R.GTH_CMD_RESULT_gen] s t ∧ PartsBut reporting s t)) ∧
    (∀ fn n (b : GTab), s.isReady B.gth = true → s.table n = some b → mayAct fn (tbTenant b.desc) = true → tbKv b.desc =
      false → fn < 32 → n < 1024 → Gives (.advance fn n) s (fun t => t.table n = some { b with gen := (b.gen + 1) % 2 ^ 32 }
      ∧ t.rd R.GTH_TABLE_STATUS_gen [n] = (b.gen + 1) % 2 ^ 32 ∧ t.rd R.GTH_CMD_RESULT_gen [fn] = (b.gen + 1) % 2 ^ 32 ∧
      RegsBut [R.GTH_TABLE_STATUS_gen, R.GTH_CMD_RESULT_status, R.GTH_CMD_RESULT_busy, R.GTH_CMD_RESULT_gen] s t ∧ PartsBut
      [.gth] s t)) ∧
    (∀ fn n (b : GTab), s.isReady B.gth = true → s.table n = some b → mayAct fn (tbTenant b.desc) = true → tbKv b.desc =
      true → fn < 32 → Gives (.advance fn n) s (fun t => t.rd R.GTH_CMD_RESULT_status [fn] = Status.unsupported.code ∧
      RegsBut [R.GTH_CMD_RESULT_status, R.GTH_CMD_RESULT_busy, R.GTH_CMD_RESULT_gen] s t ∧ PartsBut reporting s t)) ∧
    (∀ fn n (b : GTab), s.isReady B.gth = true → s.table n = some b → mayAct fn (tbTenant b.desc) = true → s.gth.reqs =
      Map.empty → s.gth.updates = Map.empty → fn < 32 → n < 1024 → Gives (.tableDestroy fn n) s (fun t => t.table n = none ∧
      t.gth.freed.get? [n] = some s.now ∧ t.rd R.GTH_TABLE_STATUS_valid [n] = 0 ∧ t.rd R.GTH_CMD_RESULT_status [fn] =
      Status.ok.code ∧ RegsBut [R.GTH_TABLE_STATUS_valid, R.GTH_TABLE_STATUS_kind, R.GTH_TABLE_STATUS_tenant,
      R.GTH_TABLE_STATUS_die, R.GTH_TABLE_STATUS_tag, R.GTH_TABLE_STATUS_gen, R.GTH_CMD_RESULT_status,
      R.GTH_CMD_RESULT_busy, R.GTH_CMD_RESULT_gen, R.GTH_CACHE_STATUS_rows, R.GTH_CACHE_STATUS_granules] s t ∧ PartsBut
      [.gth] s t)) ∧
    (∀ fn n (b : GTab) (k : Key) (q : GReq), s.isReady B.gth = true → s.table n = some b → mayAct fn (tbTenant b.desc) =
      true → s.gth.reqs.get? k = some q → q.slot = n → fn < 32 → Gives (.tableDestroy fn n) s (fun t => t.table n = some b ∧
      t.rd R.GTH_CMD_RESULT_status [fn] = Status.retry.code ∧ RegsBut [R.GTH_CMD_RESULT_status, R.GTH_CMD_RESULT_busy,
      R.GTH_CMD_RESULT_gen] s t ∧ PartsBut reporting s t)) ∧
    (s.gth.decayAt + 1024 * 2 ^ s.rd R.GTH_CACHE_CFG_decay_log2 [] ≤ s.now → s.gth.cache.wf = true → Gives (.cacheDecay) s
      (fun t => (∀ k, t.gth.cache.get? k = (s.gth.cache.get? k).map (fun e => { e with freq := e.freq / 2 })) ∧
      t.gth.decayAt = s.now ∧ t.gth.sketch = s.gth.sketch ∧ RegsBut [] s t ∧ PartsBut [.gth] s t)) ∧
    (∀ d (m : Msg), m.ty = 0xA0 → s.tableOf (rqTable m.body) = none → Gives (.gaLookup d m) s (fun t => t.gth = s.gth ∧
      RegsBut [R.GTH_FAIL_INFO_slot, R.GTH_FAIL_INFO_status, R.GTH_FAIL_INFO_row, R.GTH_FAIL_INFO_src_eid] s t ∧ PartsBut
      [.out, .hif, .sw, .ports, .ras, .answers] s t)) ∧
    (∀ d (m : Msg), m.ty = 0xA0 → s.gatherRefusal d false m.tenant m.body m.len = none → Gives (.gaLookup d m) s (fun t =>
      t.gth.reqs.get? [d, s.gth.nextId] = some
      { origin := .net m, slot := rqTable m.body % 1024, req := m.body, tenant := m.tenant } ∧ t.gth.queue.get [] [d] =
      s.gth.queue.get [] [d] ++ [s.gth.nextId] ∧ RegsBut [R.GTH_TABLE_STATUS_live, R.GTH_TABLE_STATUS_updates] s t ∧
      PartsBut [.out, .hif, .sw, .ports, .ras, .answers, .gth] s t)) ∧
    (∀ d (m : Msg), m.ty = 0xA2 → s.tableOf (rqTable m.body) = none → Gives (.gaFilter d m) s (fun t => Answers d m
      .unsupported 0 none s t ∧ t.gth = s.gth ∧ RegsBut [R.GTH_FAIL_INFO_slot, R.GTH_FAIL_INFO_status, R.GTH_FAIL_INFO_row,
      R.GTH_FAIL_INFO_src_eid] s t ∧ PartsBut [.out, .hif, .sw, .ports, .ras, .answers] s t)) ∧
    (∀ d (m : Msg), m.ty = 0xA2 → s.gatherRefusal d true m.tenant m.body m.len = none → Gives (.gaFilter d m) s (fun t =>
      t.gth.reqs.get? [d, s.gth.nextId] = some
      { origin := .net m, slot := rqTable m.body % 1024, filter := true, req := m.body, tenant := m.tenant } ∧
      t.gth.queue.get [] [d] = s.gth.queue.get [] [d] ++ [s.gth.nextId] ∧ RegsBut [R.GTH_TABLE_STATUS_live,
      R.GTH_TABLE_STATUS_updates] s t ∧ PartsBut [.out, .hif, .sw, .ports, .ras, .answers, .gth] s t)) ∧
    (∀ d (m : Msg), m.ty = 0xA2 → s.gatherRefusal d true m.tenant m.body m.len = some .retry → Gives (.gaFilter d m) s (fun
      t => Answers d m .retry 0 none s t ∧ t.gth = s.gth ∧ RegsBut [] s t ∧ PartsBut [.out, .hif, .sw, .ports, .ras,
      .answers] s t)) ∧
    (∀ d id n x (q : GReq) (b : GTab), s.gth.reqs = Map.empty.set [d, id] q → q.works = [] → s.gth.queue.get [] [d] = [id] →
      s.table q.slot = some b → b.desc = x → argMin (fun k => (s.core k).deque.length) (s.freeCores x) = some n →
      s.freeCores x ≠ [] → q.filter = false → rqFar q.req = false → rqCount q.req = 1 → bitsOf q.req 256 32 < tbRows x →
      s.rewriting d q.slot (bitsOf q.req 256 32) = false → Gives (.lookupDispatch d) s (fun t => (t.gth.reqs.get? [d,
      id]).map (fun p => (p.phase, p.left, p.works)) = some (2, 1, [{ core := n }]) ∧ t.gth.queue.get [] [d] = [] ∧ RegsBut
      [R.EDG_VIOL_INFO_port, R.EDG_VIOL_INFO_agent, R.EDG_VIOL_INFO_step, R.EDG_VIOL_INFO_src_eid, R.EDG_VIOL_INFO_msg_type,
      R.EDG_VIOL_INFO_tenant, R.EDG_VIOL_ADDR_addr] s t ∧ PartsBut [.out, .hif, .sw, .ports, .ras, .answers, .trk, .gth] s
      t)) ∧
    (∀ d id x (p : List Nat) (r : List Nat) (q : GReq) (b : GTab) (w : GWork), s.gth.reqs.get? [d, id] = some q → s.table
      q.slot = some b → b.desc = x → q.filter = false → q.works = [w] → w.pushed = true → w.todo = [p, r] → r ≠ [] → (s.core
      w.core).counter (tbCtr x) = (1, .ok) → s.clusterUp (w.core / 8) = true → Gives (.passDone d id) s (fun t =>
      (t.gth.reqs.get? [d, id]).map (fun u => u.works) = some
      [{ w with todo := [r], half := 1 - w.half, first := false, since := s.now }] ∧ (t.core w.core).counter (tbCtr x) = (0,
      .ok))) ∧
    (∀ d id x (p : List Nat) (q : GReq) (b : GTab) (w : GWork), s.gth.reqs.get? [d, id] = some q → s.table q.slot = some b →
      b.desc = x → q.filter = false → q.works = [w] → w.pushed = true → w.todo = [p] → (s.core w.core).counter (tbCtr x) =
      (1, .ok) → Gives (.passDone d id) s (fun t => t.gth.reqs.has [d, id] = false)) ∧
    (∀ d id (q : GReq) (b : GTab) (w : GWork), s.gth.reqs.get? [d, id] = some q → s.table q.slot = some b → q.works = [w] →
      w.pushed = true → w.since + 1000 * tbLimit b.desc ≤ s.now → Gives (.taskTimeout d id) s (fun t => t.gth.reqs.has [d,
      id] = false ∧ t.mem = s.mem)) ∧
    (∀ d id (q : GReq) (b : GTab) (w : GWork), s.gth.reqs.get? [d, id] = some q → s.table q.slot = some b → q.works = [w] →
      s.now < w.since + 1000 * tbLimit b.desc → Gives (.taskTimeout d id) s (fun t => RegsBut [] s t ∧ PartsBut [] s t)) ∧
    (∀ d (m : Msg), m.ty = 0xA1 → s.tableOf (m.f 0 0 32) = none → Gives (.gaUpdate d m) s (fun t => Answers d m .unsupported
      0 none s t ∧ t.gth = s.gth ∧ RegsBut [] s t ∧ PartsBut [.out, .hif, .sw, .ports, .ras, .answers] s t)) ∧
    (∀ d (m : Msg) n (b : GTab), m.ty = 0xA1 → s.tableOf (m.f 0 0 32) = some (n, b) → tbKv b.desc = false → tbDie b.desc = d
      → updateShape b.desc m = true → tbTenant b.desc = m.tenant → s.gth.updates.get [] [d] = [] → m.f 32 0 32 < tbRows
      b.desc → Gives (.gaUpdate d m) s (fun t => t.gth.updates.get [] [d] =
      [{ id := s.gth.nextId, msg := m, slot := n, phase := 1, left := 1 }] ∧ t.gth.tables = s.gth.tables ∧ RegsBut
      [R.EDG_VIOL_INFO_port, R.EDG_VIOL_INFO_agent, R.EDG_VIOL_INFO_step, R.EDG_VIOL_INFO_src_eid, R.EDG_VIOL_INFO_msg_type,
      R.EDG_VIOL_INFO_tenant, R.EDG_VIOL_ADDR_addr, R.GTH_TABLE_STATUS_live, R.GTH_TABLE_STATUS_updates] s t ∧ PartsBut
      [.out, .hif, .sw, .ports, .ras, .answers, .trk, .gth] s t)) ∧
    (∀ d (m : Msg) die i n h set (e : Issued), m.ty = 0xAC → 16 < m.len → s.entryOf m.rtag = some (die, i, e) → e.purpose =
      .lookup n h set → e.got = [] → m.f 12 0 16 + (m.len - 16) ≤ m.f 4 0 13 * tyBytes (m.f 4 13 4) → m.len - 16 < m.f 4 0
      13 * tyBytes (m.f 4 13 4) → Gives (.gaFwdResult d m) s (fun t => t.trk.issued.get? [die, i] = some
      { e with got := [(m.f 12 0 16, m.len - 16)], status := Status.join e.status (Status.ofCode m.status), data := e.data ||| bitsOf m.body 128 (8 * (m.len - 16)) <<< (8 * m.f 12 0 16) }
      ∧ RegsBut [] s t ∧ PartsBut [.out, .hif, .sw, .ports, .ras, .answers, .trk] s t))

/-! ### Resets, boot and firmware (16, 18) -/

/-- R445: a part reset by any cause leaves every register at its reset value but the cause and the retention cell of the
thermal trip, every unit as after reset, and the flash as it was; PERST# makes one or an endpoint reset by perst_part. An
endpoint reset clears PCI Express state, mailboxes and bounce sessions and leaves memory, the pool and every other register;
a Function Level Reset does so for one function and leaves the others. R454: the I3C target's full reset is a part reset
with cause 4, and it keeps the address it is given. -/
def Obligations.Resets : Prop :=
  ∀ s : State, Runs s →
    (∀ c, c = 1 → s.rd R.PWR_THERMAL_STATUS_tripped [] < 2 → Gives (.partReset c) s (fun t => t.rd R.GLB_RESET_CAUSE_cause
      [] = 1 ∧ t.rd R.PWR_THERMAL_STATUS_tripped [] = s.rd R.PWR_THERMAL_STATUS_tripped [] ∧ t.flash = s.flash ∧ t.pkg =
      { State.reset.pkg with railHeld := s.pkg.railHeld } ∧ RegsBut [R.GLB_RESET_CAUSE_cause, R.PWR_THERMAL_STATUS_tripped,
      R.PWR_THERMAL_STATUS_trip_source] State.reset t ∧ PartsBut [.fresh, .out, .pkg, .sec, .flash] State.reset t)) ∧
    (∀ c, c = 0 → Gives (.partReset c) s (fun t => t.rd R.GLB_RESET_CAUSE_cause [] = 0 ∧ t.rd R.PWR_THERMAL_STATUS_tripped
      [] = 0 ∧ t.flash = s.flash ∧ RegsBut [] State.reset t ∧ PartsBut [.fresh, .out, .pkg, .sec, .flash] State.reset t)) ∧
    (∀ k, k = 0xA5 → Gives (.softwarePartReset k) s (fun t => t.rd R.GLB_RESET_CAUSE_cause [] = 3 ∧ t.flash = s.flash ∧
      RegsBut [R.GLB_RESET_CAUSE_cause, R.PWR_THERMAL_STATUS_tripped, R.PWR_THERMAL_STATUS_trip_source] State.reset t ∧
      PartsBut [.fresh, .out, .sec, .flash] State.reset t)) ∧
    (∀ k, k ≠ 0xA5 → Gives (.softwarePartReset k) s (fun t => RegsBut [] s t ∧ PartsBut [] s t)) ∧
    (Gives (.i3cReset) s (fun t => t.rd R.GLB_RESET_CAUSE_cause [] = 4 ∧ t.flash = s.flash ∧ RegsBut
      [R.GLB_RESET_CAUSE_cause, R.PWR_THERMAL_STATUS_tripped, R.PWR_THERMAL_STATUS_trip_source] State.reset t ∧ PartsBut
      [.fresh, .out, .sec, .flash] State.reset t)) ∧
    (s.on R.GLB_CFG_perst_part [] = true → Gives (.perst) s (fun t => t.rd R.GLB_RESET_CAUSE_cause [] = 2 ∧ RegsBut
      [R.GLB_RESET_CAUSE_cause, R.PWR_THERMAL_STATUS_tripped, R.PWR_THERMAL_STATUS_trip_source] State.reset t ∧ PartsBut
      [.fresh, .out, .sec, .flash] State.reset t)) ∧
    (s.on R.GLB_CFG_perst_part [] = false → Gives (.perst) s (fun t => t.hif.linkUp = false ∧ t.rd R.SEC_SESSION_state [5] =
      0 ∧ (∀ f off area, f < 32 → t.bar4 f off area = 0) ∧ RegsBut [R.MRN_REQ_word, R.MRN_REPLY_word, R.MRN_REPLY_HDR_seq,
      R.MRN_REPLY_HDR_status, R.MRN_REPLY_HDR_length, R.MRN_CFG_vector, R.MRN_CFG_int_en, R.MRN_BUSY_pending,
      R.SEC_SESSION_state, R.SEC_SESSION_status, R.SEC_SESSION_seq_in, R.SEC_SESSION_seq_out, R.SEC_TENANT_session_open] s t
      ∧ PartsBut [.sec, .hif] s t)) ∧
    (Gives (.endpointReset) s (fun t => t.hif.linkUp = false ∧ (∀ f, f < 32 → t.rd R.SEC_SESSION_state [f] = 0 ∧ t.rd
      R.MRN_REPLY_HDR_seq [f] = 0 ∧ t.rd R.MRN_CFG_int_en [f] = 0) ∧ (∀ f v, f < 32 → t.hif.msixOpen.has [f, v] = false) ∧
      (∀ f off area, f < 32 → t.bar4 f off area = 0) ∧ RegsBut [R.MRN_REQ_word, R.MRN_REPLY_word, R.MRN_REPLY_HDR_seq,
      R.MRN_REPLY_HDR_status, R.MRN_REPLY_HDR_length, R.MRN_CFG_vector, R.MRN_CFG_int_en, R.MRN_BUSY_pending,
      R.SEC_SESSION_state, R.SEC_SESSION_status, R.SEC_SESSION_seq_in, R.SEC_SESSION_seq_out, R.SEC_TENANT_session_open] s t
      ∧ PartsBut [.sec, .hif] s t)) ∧
    (∀ f, 0 < f → f < 32 → Gives (.functionLevelReset f) s (fun t => t.rd R.SEC_SESSION_state [f] = 0 ∧ t.sec.bounce.get?
      [f] = none ∧ (∀ off area, t.bar4 f off area = 0) ∧ (∀ g off area, g ≠ f → t.bar4 g off area = s.bar4 g off area) ∧ (∀
      g, g ≠ f → t.rd R.SEC_SESSION_state [g] = s.rd R.SEC_SESSION_state [g] ∧ t.rd R.MRN_REPLY_HDR_seq [g] = s.rd
      R.MRN_REPLY_HDR_seq [g]) ∧ RegsBut [R.MRN_REQ_word, R.MRN_REPLY_word, R.MRN_REPLY_HDR_seq, R.MRN_REPLY_HDR_status,
      R.MRN_REPLY_HDR_length, R.MRN_CFG_vector, R.MRN_CFG_int_en, R.MRN_BUSY_pending, R.SEC_SESSION_state,
      R.SEC_SESSION_status, R.SEC_SESSION_seq_in, R.SEC_SESSION_seq_out, R.SEC_TENANT_session_open] s t ∧ PartsBut [.sec,
      .hif] s t)) ∧
    (Gives (.pcieLinkUp) s (fun t => t.hif = { s.hif with linkUp := true } ∧ RegsBut [] s t ∧ PartsBut [.hif] s t)) ∧
    (∀ a, Gives (.dynamicAddressAssigned a) s (fun t => t.hif = { s.hif with dynamic := some (a % 128) } ∧ RegsBut [] s t ∧
      PartsBut [.hif] s t))

/-- R385, R386: the boot ROM ends in RUNNING where the header, its signature and the resident section hold and in RECOVERY
where they do not; R387: MS0 is the ROM's digest. R386, R391: an image is written where its header holds, in recovery or by
FW_WRITE, and else the flash is as before. R391: a hand-over of a staged image is set for its beat, restarts into a good
resident section, and ends with the new version or, after 10 ms, with the old. R383, R384: a record and an endorsement
replace theirs. R393: a debug attempt draws a new nonce. R444: pool bring-up fixes N and makes the pool ready. R249: an
image is taken where it is well formed and removed where nothing uses it. -/
def Obligations.BootAndFirmware : Prop :=
  ∀ s : State, 
    (s.stopped = false → s.rd R.SEC_BOOT_STATUS_stage [] = 0 → Gives (.bootCheckDone) s (fun t => t.rd
      R.SEC_BOOT_STATUS_stage [] = (if (headerFault s.header).isNone ∧ s.sectionOk (Hd.resident s.headNum) = true then 2
      else 1) ∧ t.ms 0 = Config.romDigest % 2 ^ 256 ∧ t.isReady B.sec = true ∧ t.isReady B.mrn = true ∧ t.flash = s.flash)) ∧
    (s.stopped = false → s.rd R.SEC_BOOT_STATUS_stage [] ≠ 0 → Gives (.bootCheckDone) s (fun t => RegsBut [] s t ∧ PartsBut
      [] s t)) ∧
    (s.stopped = false → s.firmware = true → s.on R.SEC_BOOT_STATUS_config_ok [] = true → s.isReady B.pol = false →
      (List.range 20).all (fun u => decide (s.rd R.MEM_STACK_STATUS_state [u] ≠ 4)) = true → (List.range 8).all (fun c =>
      decide (s.rd R.BRD_CH_STATUS_slots [c] = 0)) = true → s.ext s.node 0 = {} → Gives (.poolBringup []) s (fun t => t.rd
      R.POL_STATUS_extents [] = 23040 ∧ t.isReady B.pol = true ∧ t.isReady B.gth = true ∧ t.rd R.BRD_KEY_STATUS_valid [32] =
      1 ∧ t.rd R.BRD_KEY_STATUS_valid [0] = 1 ∧ t.tier.store.isSome = true ∧ t.fresh = s.fresh + 4 ∧ t.mem = s.mem)) ∧
    (∀ (image : List Byte), s.stopped = false → s.pkg.expelled = false → s.hif.mbox.has [0] = false → s.inRecovery = true →
      s.sec.restarted = none → Gives (.fwPush image) s (fun t => (t.flash = if (headerFault image).isSome then s.flash else
      (s.flashWrite 0 Fl.config (image.take Fl.config)).flash) ∧ t.rd R.MRN_REPLY_HDR_seq [0] = s.nextMail 0 ∧ (t.rd
      R.MRN_REPLY_HDR_status [0] = Status.unsupported.code ∨ t.rd R.SEC_BOOT_STATUS_stage [] = 0) ∧ RegsBut
      [R.SEC_BOOT_STATUS_stage, R.SEC_BOOT_STATUS_fail, R.SEC_FW_STATUS_staged_ok, R.MRN_REPLY_HDR_status,
      R.MRN_REPLY_HDR_seq, R.MRN_REPLY_HDR_length, R.MRN_BUSY_pending] s t ∧ PartsBut [.out, .hif, .flash] s t)) ∧
    (∀ (image : List Byte), Mails s 0 → s.fwBusy = false → Gives (.fwWrite 0 image) s (fun t => (t.flash = if (headerFault
      image).isSome then s.flash else (s.flashWrite 0 Fl.config (image.take Fl.config)).flash) ∧ t.rd R.MRN_REPLY_HDR_seq
      [0] = s.nextMail 0 ∧ (t.rd R.MRN_REPLY_HDR_status [0] = Status.unsupported.code ∨ t.on R.SEC_FW_STATUS_staged_ok [] =
      true) ∧ RegsBut [R.SEC_FW_STATUS_staged_ok, R.MRN_REPLY_HDR_status, R.MRN_REPLY_HDR_seq, R.MRN_REPLY_HDR_length,
      R.MRN_BUSY_pending] s t ∧ PartsBut [.out, .hif, .flash] s t)) ∧
    (∀ fn (image : List Byte), Mails s fn → fn ≠ 0 → Gives (.fwWrite fn image) s (fun t => Replied fn .protViolation s t ∧
      RegsBut [R.MRN_REPLY_HDR_status, R.MRN_REPLY_HDR_seq, R.MRN_REPLY_HDR_length, R.MRN_BUSY_pending] s t ∧ PartsBut
      [.out, .hif] s t)) ∧
    (∀ b, Mails s 0 → s.on R.SEC_FW_STATUS_staged_ok [] = true → s.fwBusy = false → Gives (.fwHandover 0 b) s (fun t =>
      Replied 0 .ok s t ∧ t.on R.SEC_FW_STATUS_handover_pending [] = true ∧ t.rd R.SEC_FW_BEAT_beat [] = launchBeat b s.beat
      ∧ RegsBut [R.SEC_FW_STATUS_handover_pending, R.SEC_FW_BEAT_beat, R.TIM_LATE_COUNT_count, R.MRN_REPLY_HDR_status,
      R.MRN_REPLY_HDR_seq, R.MRN_REPLY_HDR_length, R.MRN_BUSY_pending] s t ∧ PartsBut [.out, .hif] s t)) ∧
    (s.stopped = false → s.on R.SEC_FW_STATUS_handover_pending [] = true → s.sec.restarted = none → ahead (s.rd
      R.SEC_FW_BEAT_beat []) s.beat = false → Gives (.handover) s (fun t => (t.sec.restarted = if s.sectionOk (Hd.resident
      s.headNum) then some (s.now, s.sec.running, s.rd R.SEC_FW_STATUS_running_version []) else none) ∧ t.on
      R.SEC_FW_STATUS_handover_pending [] = s.sectionOk (Hd.resident s.headNum) ∧ RegsBut [R.SEC_FW_STATUS_handover_pending,
      R.SEC_MEAS_bytes] s t ∧ PartsBut [.out, .hif, .sec] s t)) ∧
    (∀ (x : Nat × Nat × Nat), s.stopped = false → s.sec.restarted = some x → s.hif.waiting = [] → s.ras.later = [] →
      s.ras.objects = Map.empty → Gives (.handoverDone) s (fun t => t.sec = { s.sec with restarted := none } ∧ t.rd
      R.SEC_FW_STATUS_running_version [] = Hd.version s.headNum ∧ t.on R.SEC_FW_STATUS_handover_pending [] = false ∧ RegsBut
      [R.SEC_FW_STATUS_running_version, R.SEC_FW_STATUS_handover_pending] s t ∧ PartsBut [.out, .hif, .sec, .ras] s t)) ∧
    (∀ x y v, s.stopped = false → s.sec.restarted = some (x, y, v) → x + 10000000 ≤ s.now → s.hif.waiting = [] → s.ras.later
      = [] → s.ras.objects = Map.empty → v < 2 ^ 32 → Gives (.handoverTimeout) s (fun t => t.sec =
      { s.sec with restarted := none, running := y } ∧ t.rd R.SEC_FW_STATUS_running_version [] = v ∧ t.on
      R.SEC_FW_STATUS_handover_pending [] = false ∧ RegsBut [R.SEC_FW_STATUS_running_version,
      R.SEC_FW_STATUS_handover_pending, R.SEC_MEAS_bytes] s t ∧ PartsBut [.out, .hif, .sec, .ras] s t)) ∧
    (∀ x y v, s.sec.restarted = some (x, y, v) → s.now < x + 10000000 → Gives (.handoverTimeout) s (fun t => RegsBut [] s t
      ∧ PartsBut [] s t)) ∧
    (∀ (b : List Byte), Mails s 0 → b.length ≤ 2 ^ 20 → Gives (.configWrite 0 b) s (fun t => Replied 0 .ok s t ∧ t.flash =
      (s.flashWrite Fl.config (2 ^ 20) b).flash ∧ RegsBut [R.MRN_REPLY_HDR_status, R.MRN_REPLY_HDR_seq,
      R.MRN_REPLY_HDR_length, R.MRN_BUSY_pending] s t ∧ PartsBut [.out, .hif, .flash] s t)) ∧
    (∀ (b : List Byte), Mails s 0 → b.length ≤ 65536 → Gives (.endorseWrite 0 b) s (fun t => Replied 0 .ok s t ∧ t.flash =
      (s.flashWrite Fl.endorse 65536 b).flash ∧ RegsBut [R.MRN_REPLY_HDR_status, R.MRN_REPLY_HDR_seq,
      R.MRN_REPLY_HDR_length, R.MRN_BUSY_pending] s t ∧ PartsBut [.out, .hif, .flash] s t)) ∧
    (∀ (b : List Byte), Mails s 0 → s.pkg.frozen = false → Gives (.debugAuth 0 b) s (fun t => t.sec.nonce = s.fresh ∧
      t.fresh = s.fresh + 1 ∧ t.rd R.MRN_REPLY_HDR_seq [0] = s.nextMail 0 ∧ RegsBut [R.SEC_MEAS_bytes,
      R.DBG_AUTH_STATUS_open, R.MRN_REPLY_HDR_status, R.MRN_REPLY_HDR_seq, R.MRN_REPLY_HDR_length, R.MRN_BUSY_pending] s t ∧
      PartsBut [.fresh, .out, .hif, .sec] s t)) ∧
    (∀ fn k i (b : List Byte), Mails s fn → mayAct fn k = true → s.tenantActive k = true → s.isReady B.cmp = true →
      s.storeReady = true → s.images.has [k, i] = false → s.loadedBytes k + (b.length - 64) ≤ 262144 → Gives (.imageLoad fn
      k i b) s (fun t => (t.images = if imageOk i b then s.images.set [k, i]
      { code := codeWords (b.drop 64), digest := sha (b.drop 64) } else s.images) ∧ Replied fn (if imageOk i b then .ok else
      .unsupported) s t ∧ RegsBut [R.MRN_REPLY_HDR_status, R.MRN_REPLY_HDR_seq, R.MRN_REPLY_HDR_length, R.MRN_BUSY_pending]
      s t ∧ PartsBut [.out, .hif, .images] s t)) ∧
    (∀ fn k i, Mails s fn → mayAct fn k = true → s.isReady B.cmp = true → s.imageUsed k i = false → Gives (.imageUnload fn k
      i) s (fun t => t.images.has [k, i] = false ∧ (∀ a b, (a ≠ k ∨ b ≠ i) → t.images.get? [a, b] = s.images.get? [a, b]) ∧
      Replied fn .ok s t ∧ RegsBut [R.MRN_REPLY_HDR_status, R.MRN_REPLY_HDR_seq, R.MRN_REPLY_HDR_length, R.MRN_BUSY_pending]
      s t ∧ PartsBut [.out, .hif, .images] s t)) ∧
    (∀ fn k i, Mails s fn → mayAct fn k = true → s.isReady B.cmp = true → s.imageUsed k i = true → Gives (.imageUnload fn k
      i) s (fun t => Replied fn .retry s t ∧ RegsBut [R.MRN_REPLY_HDR_status, R.MRN_REPLY_HDR_seq, R.MRN_REPLY_HDR_length,
      R.MRN_BUSY_pending] s t ∧ PartsBut [.out, .hif] s t))

/-! ### Identity, tenants and isolation (16) -/

/-- R390: an evidence request that is refused gets its status at once, and one that is taken is queued; R398: one that asks
for it draws a key pair, which stands until it is used or a second has passed. R389: the oldest request is signed, answered
with its evidence, the endorsement and the key, and leaves the queue. R398: a finished session uses the key up, restarts its
sequences and is open. -/
def Obligations.EvidenceAndSessions : Prop :=
  ∀ s : State, 
    (∀ fn n x, s.stopped = false → s.evidenceRefusal fn none n false = .ok → Gives (.evidenceReq fn n false x) s (fun t =>
      t.sec = { s.sec with evidence := s.sec.evidence ++ [{ fn := fn, scope := n, nonce := x % 2 ^ 256 }] } ∧ RegsBut [] s t
      ∧ PartsBut [.sec] s t)) ∧
    (∀ fn x, s.stopped = false → s.evidenceRefusal fn none fn true = .ok → s.rd R.SEC_SESSION_state [fn] = 0 → Gives
      (.evidenceReq fn fn true x) s (fun t => t.sec.evidence = s.sec.evidence ++
      [{ fn := fn, scope := fn, nonce := x % 2 ^ 256, kem := some s.fresh }] ∧ t.sec.dks.get? [fn] = some
      { kem := s.fresh, nonce := x % 2 ^ 256, since := s.now } ∧ t.rd R.SEC_SESSION_state [fn] = 1 ∧ RegsBut
      [R.SEC_SESSION_state] s t ∧ PartsBut [.fresh, .sec] s t)) ∧
    (∀ fn n (k : Bool) x (st : Status), s.stopped = false → s.evidenceRefusal fn none n k = st → st ≠ .ok → Gives
      (.evidenceReq fn n k x) s (fun t => t.hif.doe.get? [fn] = some (bytesOfNat 4 st.code ++ bytesOfNat 4 0) ∧ t.sec = (if
      k then { s.sec with dks := s.sec.dks.erase [fn] } else s.sec) ∧ RegsBut [R.SEC_SESSION_state] s t ∧ PartsBut [.out,
      .hif, .sec] s t)) ∧
    (∀ (q : EvReq) (l : List EvReq), s.stopped = false → s.sec.evidence = q :: l → q.via = none → Gives (.evidenceRsp) s
      (fun t => t.sec = { s.sec with evidence := l } ∧ t.fresh = s.fresh + 1 ∧ t.hif.doe.get? [q.fn] = some (bytesOfNat 4 0
      ++ bytesOfNat 4 ((s.evidence q).length + 7856) ++ s.evidence q ++ bytesOfNat 7856 (Config.sign s.fresh ([0x03] ++
      s.evidence q)) ++ s.flashArea Fl.endorse 65536 ++ ekOf q.kem) ∧ RegsBut [] s t ∧ PartsBut [.fresh, .out, .hif, .sec] s
      t)) ∧
    (∀ fn ct (k : Dk), s.stopped = false → s.sec.dks.get? [fn] = some k → s.bar4 fn 0x10 1 = s.bar4 fn 0x18 1 → (s.bnc
      fn).recs = [] → Gives (.sessionFinish fn ct) s (fun t => t.rd R.SEC_SESSION_state [fn] = 2 ∧ t.rd R.SEC_SESSION_seq_in
      [fn] = 0 ∧ t.rd R.SEC_SESSION_seq_out [fn] = 0 ∧ t.rd R.SEC_TENANT_session_open [fn] = 1 ∧ (t.bnc fn).keys =
      Config.bounceKeys (Config.kemSecret k.kem ct) k.nonce fn (sha (ekOf (some k.kem))) % 2 ^ 704 ∧ t.sec.dks.has [fn] =
      false ∧ t.hif.doe.get? [fn] = some (bytesOfNat 4 0) ∧ RegsBut [R.SEC_SESSION_state, R.SEC_SESSION_status,
      R.SEC_SESSION_seq_in, R.SEC_SESSION_seq_out, R.SEC_TENANT_session_open, R.SEC_TENANT_sessions] s t ∧ PartsBut [.sec,
      .hif] s t)) ∧
    (∀ fn ct, s.stopped = false → s.sec.dks.get? [fn] = none → Gives (.sessionFinish fn ct) s (fun t => t.hif.doe.get? [fn]
      = some (bytesOfNat 4 Status.unsupported.code) ∧ RegsBut [] s t ∧ PartsBut [.hif] s t)) ∧
    (∀ fn (k : Dk), s.stopped = false → s.sec.dks.get? [fn] = some k → k.since + 1000000000 ≤ s.now → s.rd
      R.SEC_SESSION_state [fn] = 1 → Gives (.dkExpiry fn) s (fun t => t.sec.dks.has [fn] = false ∧ t.rd R.SEC_SESSION_state
      [fn] = 0 ∧ RegsBut [R.SEC_SESSION_state] s t ∧ PartsBut [.sec] s t)) ∧
    (∀ fn (k : Dk), s.sec.dks.get? [fn] = some k → s.now < k.since + 1000000000 → Gives (.dkExpiry fn) s (fun t => RegsBut
      [] s t ∧ PartsBut [] s t))

/-- R395: TENANT_CREATE makes a FREE tenant ACTIVE with a key, TENANT_RETIRE makes an ACTIVE one RETIRING, one with no
object left becomes FREE and loses its key, and KEY_ROTATE draws a new key while no slot carries the tenant's tag; each
command is refused in any other state. R402: a write of SEC_ISO.strict is in force from the next beat, and SEC_LOCK keeps it
as it is. -/
def Obligations.TenantsAndIsolation : Prop :=
  ∀ s : State, Serves s →
    (∀ k, s.pkg.expelled = false → s.isReady B.sec = true → 0 < k → k < 32 → s.rd R.SEC_TENANT_state [k] = 0 → Gives
      (.tenantCreate k) s (fun t => t.rd R.SEC_TENANT_state [k] = 1 ∧ t.rd R.SEC_TENANT_key_valid [k] = 1 ∧ t.sec.keys.has
      [k] = true ∧ t.fresh = s.fresh + 2 ∧ t.answers = s.answers ++ [(0x0501, .ok)] ∧ RegsBut [R.SEC_TENANT_state,
      R.SEC_TENANT_key_valid, R.BRD_KEY_STATUS_valid] s t ∧ PartsBut [.fresh, .sec, .answers] s t)) ∧
    (∀ k, s.pkg.expelled = false → s.isReady B.sec = true → 0 < k → k < 32 → s.rd R.SEC_TENANT_state [k] ≠ 0 → Gives
      (.tenantCreate k) s (fun t => t.answers = s.answers ++ [(0x0501, .retry)] ∧ RegsBut [] s t ∧ PartsBut [.answers] s t)) ∧
    (∀ k, s.pkg.expelled = false → s.isReady B.sec = true → 0 < k → k < 32 → s.rd R.SEC_TENANT_state [k] = 1 → Gives
      (.tenantRetire k) s (fun t => t.rd R.SEC_TENANT_state [k] = 2 ∧ t.answers = s.answers ++ [(0x0502, .ok)] ∧ RegsBut
      [R.SEC_TENANT_state] s t ∧ PartsBut [.answers] s t)) ∧
    (∀ k, s.pkg.expelled = false → s.isReady B.sec = true → (k = 0 ∨ 32 ≤ k) → Gives (.tenantRetire k) s (fun t => t.answers
      = s.answers ++ [(0x0502, .unsupported)] ∧ RegsBut [] s t ∧ PartsBut [.answers] s t)) ∧
    (∀ k, s.pkg.expelled = false → s.isReady B.sec = true → k < 32 → s.tenantState k = 1 → s.tagSlots k = 0 → Gives
      (.keyRotate k) s (fun t => t.sec.keys.has [k] = true ∧ t.fresh = s.fresh + 2 ∧ t.rd R.SEC_TENANT_state [k] = s.rd
      R.SEC_TENANT_state [k] ∧ t.answers = s.answers ++ [(0x0503, .ok)] ∧ RegsBut [R.SEC_TENANT_key_valid,
      R.BRD_KEY_STATUS_valid, R.SEC_TENANT_rotations] s t ∧ PartsBut [.fresh, .sec, .answers] s t)) ∧
    (∀ k, s.pkg.expelled = false → s.isReady B.sec = true → k < 32 → s.tagSlots k ≠ 0 → Gives (.keyRotate k) s (fun t =>
      t.answers = s.answers ++ [(0x0503, .retry)] ∧ t.sec.keys = s.sec.keys ∧ RegsBut [] s t ∧ PartsBut [.answers] s t)) ∧
    (∀ k, 0 < k → s.rd R.SEC_TENANT_state [k] = 2 → s.objects k = 0 → Gives (.tenantFreed k) s (fun t => t.rd
      R.SEC_TENANT_state [k] = 0 ∧ t.rd R.SEC_TENANT_key_valid [k] = 0 ∧ t.rd R.BRD_KEY_STATUS_valid [k] = 0 ∧
      t.sec.keys.has [k] = false ∧ RegsBut [R.SEC_TENANT_state, R.SEC_TENANT_key_valid, R.BRD_KEY_STATUS_valid] s t ∧
      PartsBut [.sec] s t)) ∧
    (∀ k, s.objects k ≠ 0 → Gives (.tenantFreed k) s (fun t => RegsBut [] s t ∧ PartsBut [] s t)) ∧
    (∀ v, s.on R.SEC_LOCK_lock [] = false → (bitsOf v 0 1 = 0 ∨ (s.on R.COH_CFG_enable [0] = false ∧ s.on R.COH_CFG_enable
      [1] = false)) → Gives (.strictIsolation v) s (fun t => t.rd R.SEC_ISO_strict [] = bitsOf v 0 1 ∧ t.sec =
      { s.sec with isoBeat := some ((s.beat + 1) % 2 ^ 32) } ∧ t.rd R.SEC_ISO_active [] = s.rd R.SEC_ISO_active [] ∧ RegsBut
      [R.SEC_ISO_strict] s t ∧ PartsBut [.sec] s t)) ∧
    (∀ v, s.on R.SEC_LOCK_lock [] = true → Gives (.strictIsolation v) s (fun t => RegsBut [] s t ∧ PartsBut [] s t)) ∧
    (∀ b, s.sec.isoBeat = some b → ahead b s.beat = false → s.rd R.SEC_ISO_strict [] < 2 → Gives (.strictApply) s (fun t =>
      t.rd R.SEC_ISO_active [] = s.rd R.SEC_ISO_strict [] ∧ t.sec = { s.sec with isoBeat := none } ∧ RegsBut
      [R.SEC_ISO_active] s t ∧ PartsBut [.sec] s t)) ∧
    (∀ b, s.sec.isoBeat = some b → ahead b s.beat = true → Gives (.strictApply) s (fun t => RegsBut [] s t ∧ PartsBut [] s
      t))

/-! ### The host interface (18) -/

/-- R439, R440: BB_IN_PROD and BB_OUT_CONS take the value written and change no other ring register. R400, R440: a pad
record advances the mirror of input to the end of the ring; a record that passes every check is counted, takes its bytes of
the ring and the next input sequence, and one that fails ends the session. R399: the oldest record with every response in is
sealed and leaves. R436, R437: an access no aperture serves completes as an unsupported request or, a posted write, is
recorded as UNSUPPORTED, and one that an aperture serves is issued at its fabric address. R441: unmasking a vector sends the
message its Pending Bit holds. -/
def Obligations.HostWindows : Prop :=
  ∀ s : State, Serves s →
    (∀ fn v, fn < 32 → Gives (.bounceDoorbell fn v) s (fun t => t.bar4 fn 0x10 1 = v % 2 ^ 64 ∧ (∀ f off area, (f ≠ fn ∨ off
      ≠ 0x10 ∨ area ≠ 1) → t.bar4 f off area = s.bar4 f off area) ∧ RegsBut [] s t ∧ PartsBut [.hif] s t)) ∧
    (∀ fn v, fn < 32 → Gives (.bbOutCons fn v) s (fun t => t.bar4 fn 0x38 1 = v % 2 ^ 64 ∧ (∀ f off area, (f ≠ fn ∨ off ≠
      0x38 ∨ area ≠ 1) → t.bar4 f off area = s.bar4 f off area) ∧ RegsBut [] s t ∧ PartsBut [.hif] s t)) ∧
    (∀ fn (b : List Byte), s.rd R.SEC_SESSION_state [fn] = 2 → 32 ≤ b.length → 32 ≤ s.bar4 fn 0x10 1 - s.bar4 fn 0x18 1 →
      s.outBlocked fn = false → fieldOf (natOfBytes (b.take 32)) 0 0 64 = padSeq → Gives (.inboundRecord fn b) s (fun t =>
      t.bar4 fn 0x18 1 = s.bar4 fn 0x18 1 + ((s.ring fn true).2 - s.bar4 fn 0x18 1 % (s.ring fn true).2) ∧ RegsBut [] s t ∧
      PartsBut [.hif] s t)) ∧
    (∀ fn (b : List Byte) n, s.rd R.SEC_SESSION_state [fn] = 2 → s.outBlocked fn = false → fieldOf (natOfBytes (b.take 32))
      0 0 64 ≠ padSeq → recSize (recData (natOfBytes (b.take 32))) = n → n ≤ b.length → n ≤ s.bar4 fn 0x10 1 - s.bar4 fn
      0x18 1 → Gives (.inboundRecord fn b) s (fun t => (t.bar4 fn 0x18 1 = if (s.recordFault fn (natOfBytes (b.take 32))
      b).isSome then s.bar4 fn 0x18 1 else s.bar4 fn 0x18 1 + n) ∧ (t.rd R.SEC_SESSION_state [fn] = if (s.recordFault fn
      (natOfBytes (b.take 32)) b).isSome then 3 else 2) ∧ (t.bnc fn).recs.length = if (s.recordFault fn (natOfBytes (b.take
      32)) b).isSome then 0 else (s.bnc fn).recs.length + 1)) ∧
    (∀ fn (q : BRec) (l : List BRec), (s.bnc fn).recs = q :: l → q.left = 0 → s.rd R.SEC_SESSION_state [fn] = 2 →
      s.outBlocked fn = false → s.rd R.SEC_SESSION_seq_out [fn] < 2 ^ 32 → Gives (.outboundRecord fn) s (fun t => (t.bnc
      fn).recs = l ∧ (t.bnc fn).outProd = (s.bnc fn).outProd + (s.outSteps fn (outData q)).1 + (s.outSteps fn (outData q)).2
      ∧ t.rd R.SEC_SESSION_seq_out [fn] = s.rd R.SEC_SESSION_seq_out [fn] + 1 ∧ RegsBut [R.SEC_SESSION_seq_out] s t ∧
      PartsBut [.out, .hif, .sec] s t)) ∧
    (∀ fn (q : BRec) (l : List BRec), (s.bnc fn).recs = q :: l → q.left ≠ 0 → Gives (.outboundRecord fn) s (fun t => RegsBut
      [] s t ∧ PartsBut [] s t)) ∧
    (∀ fn off n, s.aperture fn off = none → Gives (.bar2Read fn off n) s (fun t => t.out = s.out ++ [.completion fn 1 []] ∧
      RegsBut [] s t ∧ PartsBut [.out] s t)) ∧
    (∀ fn off n a, s.aperture fn off = some a → s.hif.bar2.get [] [fn] = [] → 0 < n → Gives (.bar2Read fn off n) s (fun t =>
      (t.hif.bar2.get [] [fn]).map (fun x => (x.id, x.write, x.addr, x.len)) = [(s.hif.nextBar2, false, a, n)] ∧
      (t.hif.bar2.get [] [fn]).map (fun x => x.issued) = [true] ∧ RegsBut [R.EDG_VIOL_INFO_port, R.EDG_VIOL_INFO_agent,
      R.EDG_VIOL_INFO_step, R.EDG_VIOL_INFO_src_eid, R.EDG_VIOL_INFO_msg_type, R.EDG_VIOL_INFO_tenant, R.EDG_VIOL_ADDR_addr]
      s t ∧ PartsBut [.out, .hif, .sw, .ports, .ras, .answers, .trk] s t)) ∧
    (∀ fn off (b : List Byte), s.aperture fn off = none → (∀ x ∈ s.hif.bar2.get [] [fn], x.id ≠ s.hif.nextBar2) → Gives
      (.bar2Write fn off b) s (fun t => (t.bar4 fn 0x800 2 = if s.bar4 fn 0x800 2 ≠ 0 then s.bar4 fn 0x800 2 else 0xA + off
      / 256 * 256) ∧ t.hif.bar2.get [] [fn] = s.hif.bar2.get [] [fn] ∧ RegsBut [] s t ∧ PartsBut [.hif] s t)) ∧
    (∀ fn off a (b : List Byte), s.aperture fn off = some a → s.hif.bar2.get [] [fn] = [] → 0 < b.length → Gives (.bar2Write
      fn off b) s (fun t => (t.hif.bar2.get [] [fn]).map (fun x => (x.id, x.write, x.addr, x.data)) = [(s.hif.nextBar2,
      true, a, natOfBytes b)] ∧ (t.hif.bar2.get [] [fn]).map (fun x => x.issued) = [true] ∧ RegsBut [R.EDG_VIOL_INFO_port,
      R.EDG_VIOL_INFO_agent, R.EDG_VIOL_INFO_step, R.EDG_VIOL_INFO_src_eid, R.EDG_VIOL_INFO_msg_type,
      R.EDG_VIOL_INFO_tenant, R.EDG_VIOL_ADDR_addr] s t ∧ PartsBut [.out, .hif, .sw, .ports, .ras, .answers, .trk] s t)) ∧
    (∀ fn v, fn < 32 → v < 64 → s.hif.msixPending.has [fn, v] = true → Gives (.msixUnmask fn v) s (fun t => t.out = s.out ++
      [.msix fn v] ∧ t.hif.msixPending.has [fn, v] = false ∧ t.hif.msixOpen.has [fn, v] = true ∧ RegsBut [] s t ∧ PartsBut
      [.out, .hif] s t)) ∧
    (∀ fn v, fn < 32 → v < 64 → s.hif.msixPending.has [fn, v] = false → Gives (.msixUnmask fn v) s (fun t =>
      t.hif.msixOpen.has [fn, v] = true ∧ RegsBut [] s t ∧ PartsBut [.hif] s t))

/-- R452: a request whose header does not hold is answered UNSUPPORTED, and a doorbell while one is pending is an error that
changes no reply. R453: REPORT_FETCH answers the oldest report kept, FM_COMMAND carries a command out here or relays it to a
worker, and FM_EXPEL accepts an expel whose checks hold. R447: Rest is requested, entered at its beat where every condition
holds and else refused with RETRY. R448, R449: a wake from any cause and an I3C wake start the return, and its end is full
service. -/
def Obligations.MailboxAndRest : Prop :=
  ∀ s : State, Runs s →
    (∀ fn q (b : List Byte), Mails s fn → s.resting = false → q % 65536 ≠ s.rd R.MRN_REPLY_HDR_seq [fn] → fieldOf
      (natOfBytes (s.mailBytes fn 32)) 0 16 16 ≠ 0 → Gives (.mailboxDoorbell fn q b) s (fun t => t.rd R.MRN_REPLY_HDR_status
      [fn] = Status.unsupported.code ∧ t.rd R.MRN_REPLY_HDR_seq [fn] = q % 65536 ∧ RegsBut [R.MRN_REPLY_HDR_status,
      R.MRN_REPLY_HDR_seq, R.MRN_REPLY_HDR_length, R.MRN_BUSY_pending] s t ∧ PartsBut [.out, .hif] s t)) ∧
    (∀ q (b : List Byte) (x : List Byte), Mails s 0 → s.resting = false → q % 65536 ≠ s.rd R.MRN_REPLY_HDR_seq [0] →
      natOfBytes (s.mailBytes 0 32) = 0x0012 → s.isManager = true → s.ras.fetch.head? = some x → x.length < 4096 → Gives
      (.mailboxDoorbell 0 q b) s (fun t => t.ras.fetch = s.ras.fetch.tail ∧ t.rd R.MRN_REPLY_HDR_status [0] = Status.ok.code
      ∧ t.rd R.MRN_REPLY_HDR_seq [0] = q % 65536 ∧ t.rd R.MRN_REPLY_HDR_length [0] = x.length ∧ RegsBut [R.MRN_REPLY_word,
      R.MRN_REPLY_HDR_status, R.MRN_REPLY_HDR_seq, R.MRN_REPLY_HDR_length, R.MRN_BUSY_pending] s t ∧ PartsBut [.out, .hif,
      .ras] s t)) ∧
    (∀ fn q (b : List Byte), fn < 32 → s.resting = false → s.hif.mbox.has [fn] = true → Gives (.mailboxDoorbell fn q b) s
      (fun t => t.hif.mbox = s.hif.mbox ∧ t.rd R.MRN_REPLY_HDR_seq [fn] = s.rd R.MRN_REPLY_HDR_seq [fn] ∧ RegsBut [] s t ∧
      PartsBut reporting s t)) ∧
    (∀ (x : List Byte), Mails s 0 → s.isManager = true → s.ras.fetch.head? = some x → x.length < 4096 → Gives (.reportFetch)
      s (fun t => t.ras.fetch = s.ras.fetch.tail ∧ t.rd R.MRN_REPLY_HDR_status [0] = Status.ok.code ∧ t.rd
      R.MRN_REPLY_HDR_length [0] = x.length ∧ RegsBut [R.MRN_REPLY_word, R.MRN_REPLY_HDR_status, R.MRN_REPLY_HDR_seq,
      R.MRN_REPLY_HDR_length, R.MRN_BUSY_pending] s t ∧ PartsBut [.out, .hif, .ras] s t)) ∧
    (∀ (k : Byte) e, Mails s 0 → s.isManager = true → e = s.eid → e < 2 ^ 16 → s.isReady B.sec = true → k ≠ 0 → k.toNat < 32
      → s.rd R.SEC_TENANT_state [k.toNat] = 1 → Gives (.fmCommand e 0x0502 [k]) s (fun t => t.rd R.SEC_TENANT_state
      [k.toNat] = 2 ∧ Replied 0 .ok s t ∧ RegsBut [R.SEC_TENANT_state, R.MRN_REPLY_HDR_status, R.MRN_REPLY_HDR_seq,
      R.MRN_REPLY_HDR_length, R.MRN_BUSY_pending] s t ∧ PartsBut [.out, .hif] s t)) ∧
    (∀ e (b : List Byte) (w : Worker), Mails s 0 → s.isManager = true → e ≠ s.eid → e < 2 ^ 16 → s.ras.workers.get {} [e] =
      w → w.lost = false → w.out.length < 64 → Gives (.fmCommand e 0x0502 b) s (fun t => t.ras.workers.get {} [e] =
      { w with next := (w.next + 1) % 2 ^ 32, out := w.out ++ [{ upd := { seq := w.next, op := 0x0502, operands := withLength b }, sentAt := s.now }] }
      ∧ (t.hif.mbox.get? [0]).map (fun q => q.target) = some (some (e, w.next)) ∧ RegsBut [R.MRN_BUSY_pending] s t ∧
      PartsBut [.out, .hif, .sw, .ports, .ras, .answers] s t)) ∧
    (∀ (b : List Byte), Mails s 0 → s.isManager = true → Gives (.fmExpel b) s (fun t => (t.sec.due = if s.expelStatus b =
      .ok ∧ s.sec.expels.contains (sha (b.take 32)) = false then s.sec.due ++
      [{ target := fieldOf (natOfBytes (b.take 32)) 0 0 16, apold := fieldOf (natOfBytes (b.take 32)) 0 16 1 = 1, newManager := fieldOf (natOfBytes (b.take 32)) 4 0 16, promote := fieldOf (natOfBytes (b.take 32)) 4 16 16, beat := (s.beat + 1) % 2 ^ 32 }]
      else s.sec.due) ∧ Replied 0 (s.expelStatus b) s t ∧ RegsBut [R.MRN_REPLY_HDR_status, R.MRN_REPLY_HDR_seq,
      R.MRN_REPLY_HDR_length, R.MRN_BUSY_pending] s t ∧ PartsBut [.out, .hif, .sw, .ports, .ras, .answers, .sec] s t)) ∧
    (∀ v, bitAt v 0 = true → bitAt v 2 = false → s.rd R.PWR_REST_STATUS_state [] = 0 → s.isReady B.pwr = true → s.noLaunch =
      false → Gives (.restRequest v) s (fun t => t.rd R.PWR_REST_STATUS_state [] = 1 ∧ t.rd R.PWR_REST_CTL_wake_en [] =
      bitsOf v 1 1 ∧ t.pkg = { s.pkg with restAt := some (launchBeat (s.rd R.PWR_REST_enter_beat []) s.beat) } ∧ RegsBut
      [R.PWR_REST_CTL_wake_en, R.PWR_REST_STATUS_state, R.TIM_LATE_COUNT_count] s t ∧ PartsBut [.out, .hif, .pkg] s t)) ∧
    (∀ v, bitAt v 0 = true → bitAt v 2 = false → s.rd R.PWR_REST_STATUS_state [] = 0 → s.noLaunch = true → Gives
      (.restRequest v) s (fun t => t.rd R.PWR_REST_STATUS_state [] = 0 ∧ t.rd R.PWR_REST_STATUS_result [] =
      Status.retry.code ∧ RegsBut [R.PWR_REST_CTL_wake_en, R.PWR_REST_STATUS_state, R.PWR_REST_STATUS_result] s t ∧ PartsBut
      reporting s t)) ∧
    (∀ b, s.pkg.restAt = some b → s.pkg.fatal = false → ahead b s.beat = false → s.noLaunch = false → s.mayRest = true →
      Gives (.restEntry) s (fun t => t.resting = true ∧ t.rd R.PWR_REST_STATUS_result [] = Status.ok.code ∧ RegsBut
      [R.PWR_REST_STATUS_state, R.PWR_REST_STATUS_result] s t ∧ PartsBut [.out, .hif, .pkg] s t)) ∧
    (∀ b, s.pkg.restAt = some b → s.pkg.fatal = false → ahead b s.beat = false → s.mayRest = false → Gives (.restEntry) s
      (fun t => t.rd R.PWR_REST_STATUS_state [] = 0 ∧ t.rd R.PWR_REST_STATUS_result [] = Status.retry.code ∧ RegsBut
      [R.PWR_REST_STATUS_state, R.PWR_REST_STATUS_result] s t ∧ PartsBut [.out, .hif, .pkg] s t)) ∧
    (∀ c, s.resting = true → (c = 1 ∨ c = 2) → (List.range 256).all (fun p => !s.on R.PRT_PORT_CTL_enable [p]) = true →
      Gives (.wake c) s (fun t => t.rd R.PWR_REST_STATUS_state [] = 3 ∧ t.rd R.PWR_REST_STATUS_cause [] = c ∧ t.mem = s.mem
      ∧ RegsBut [R.PWR_REST_STATUS_state, R.PWR_REST_STATUS_cause] s t ∧ PartsBut [] s t)) ∧
    (∀ c, s.resting = false → Gives (.wake c) s (fun t => RegsBut [] s t ∧ PartsBut [] s t)) ∧
    (s.resting = true → (List.range 256).all (fun p => !s.on R.PRT_PORT_CTL_enable [p]) = true → Gives (.i3cWake) s (fun t
      => t.rd R.PWR_REST_STATUS_state [] = 3 ∧ t.rd R.PWR_REST_STATUS_cause [] = 4 ∧ RegsBut [R.PWR_REST_STATUS_state,
      R.PWR_REST_STATUS_cause] s t ∧ PartsBut [] s t)) ∧
    (s.rd R.PWR_REST_STATUS_state [] = 3 → s.listed R.POL_LEASE_valid = [] → Gives (.wakeComplete) s (fun t => t.rd
      R.PWR_REST_STATUS_state [] = 0 ∧ t.mem = s.mem))

/-! ### Errors and management (17) -/

/-- R415: a worker applies the expected update, advances and acknowledges it, keeps one that comes early, and repeats the
acknowledgement of one it has applied; the manager device drops an acknowledged update and sends one again that is not
acknowledged in 1 ms, up to 16 times. R416, R481: a report is kept and acknowledged by the manager device, and sent again
until then. R413: bytes of an object are kept and acknowledged until it is whole. R418: an expel whose checks hold is
accepted and answered; R419: at its beat it expels this part or names a new manager. R412: evidence is asked for and kept.
-/
def Obligations.ManagerAndWorkers : Prop :=
  ∀ s : State, Managed s →
    (∀ (m : Msg) q (k : Byte), m.ty = 0xB0 → s.firmware = true → s.sec.restarted = none → s.isManager = false → m.src =
      s.managerEid → m.f 0 0 32 = q → q = s.ras.expected → m.f 4 0 16 = 0x0502 → m.bytes 16 (m.len - 16) = withLength [k] →
      s.ras.held = [] → s.isReady B.sec = true → k ≠ 0 → k.toNat < 32 → s.rd R.SEC_TENANT_state [k.toNat] = 1 → Gives
      (.mgUpdate m) s (fun t => t.rd R.SEC_TENANT_state [k.toNat] = 2 ∧ t.ras.expected = (q + 1) % 2 ^ 32 ∧ (q, 0x0502, .ok)
      ∈ t.ras.acks ∧ RegsBut [R.SEC_TENANT_state] s t ∧ PartsBut [.out, .hif, .sw, .ports, .ras, .answers] s t)) ∧
    (∀ (m : Msg) q, m.ty = 0xB0 → s.isManager = false → m.src = s.managerEid → m.f 0 0 32 = q → 0 < dist 32 q s.ras.expected
      → dist 32 q s.ras.expected < 64 → s.ras.held = [] → Gives (.mgUpdate m) s (fun t => t.ras.held =
      [{ seq := q, op := m.f 4 0 16, operands := m.bytes 16 (m.len - 16) }] ∧ t.ras.expected = s.ras.expected ∧ RegsBut [] s
      t ∧ PartsBut [.out, .hif, .sw, .ports, .ras, .answers] s t)) ∧
    (∀ (m : Msg), m.ty = 0xB0 → (s.isManager = true ∨ m.src ≠ s.managerEid) → Gives (.mgUpdate m) s (fun t => t.ras.expected
      = s.ras.expected ∧ RegsBut [] s t ∧ PartsBut [.out, .hif, .sw, .ports, .ras, .answers] s t)) ∧
    (∀ (m : Msg) (w : Worker), m.ty = 0xB1 → s.isManager = true → s.ras.workers.get? [m.src] = some w → w.wait = [] →
      w.out.any (fun u => decide (u.upd.seq = m.f 0 0 32)) = true → s.hif.mbox = Map.empty → Gives (.mgAck m) s (fun t =>
      t.ras.workers.get? [m.src] = some { w with out := w.out.filter (fun u => decide (u.upd.seq ≠ m.f 0 0 32)) } ∧ RegsBut
      [] s t ∧ PartsBut [.out, .hif, .sw, .ports, .ras, .answers] s t)) ∧
    (∀ e q (w : Worker) (u : SentUpd), s.ras.workers.get? [e] = some w → w.out = [u] → u.upd.seq = q → u.sentAt + 1000000 ≤
      s.now → u.sends < 16 → Gives (.updateResend e q) s (fun t => t.ras.workers.get? [e] = some
      { w with out := [{ u with sentAt := s.now, sends := u.sends + 1 }] } ∧ RegsBut [] s t ∧ PartsBut [.out, .hif, .sw,
      .ports, .ras, .answers] s t)) ∧
    (∀ e q (w : Worker) (u : SentUpd), s.ras.workers.get? [e] = some w → w.out = [u] → u.upd.seq = q → u.sentAt + 1000000 ≤
      s.now → 16 ≤ u.sends → s.hif.mbox = Map.empty → Gives (.updateResend e q) s (fun t => t.ras.workers.get? [e] = some
      { w with out := [], wait := [], lost := true } ∧ RegsBut [] s t ∧ PartsBut [.ras] s t)) ∧
    (∀ (m : Msg), m.ty = 0xB2 → s.isManager = true → Gives (.mgReport m) s (fun t => m.bytes 0 m.len ∈ t.ras.fetch ∧ RegsBut
      [] s t ∧ PartsBut [.out, .hif, .sw, .ports, .ras, .answers] s t)) ∧
    (∀ (m : Msg), m.ty = 0xB3 → s.isManager = false → m.src = s.managerEid → Gives (.mgReportAck m) s (fun t =>
      t.ras.reports.all (fun r => decide (r.seq ≠ m.f 0 0 32)) = true ∧ RegsBut [] s t ∧ PartsBut [.out, .hif, .sw, .ports,
      .ras, .answers] s t)) ∧
    (∀ q (p : Report), s.ras.reports = [p] → p.seq = q → p.sentAt + 1000000 ≤ s.now → Gives (.reportResend q) s (fun t => (∃
      u : State, u.ras = { s.ras with reports := [{ p with sentAt := s.now }] } ∧ t = s.after ((u.sendReport p).bump
      R.RAS_CNT_count [5])) ∧ RegsBut [] s t ∧ PartsBut [.out, .hif, .sw, .ports, .ras, .answers] s t)) ∧
    (∀ q (p : Report), s.ras.reports = [p] → s.now < p.sentAt + 1000000 → Gives (.reportResend q) s (fun t => RegsBut [] s t
      ∧ PartsBut [] s t)) ∧
    (∀ (m : Msg) (x : Transfer), m.ty = 0xB6 → s.isManager = false → m.src = s.managerEid → s.inRecovery = false →
      s.ras.objects.get? [m.src, m.f 0 0 32] = some x → (x.add (m.f 12 0 32) (m.bytes 16 (m.len - 16))).whole = false →
      Gives (.mgFwData m) s (fun t => t.ras.objects.get? [m.src, m.f 0 0 32] = some (x.add (m.f 12 0 32) (m.bytes 16 (m.len
      - 16))) ∧ RegsBut [] s t ∧ PartsBut [.out, .hif, .sw, .ports, .ras, .answers] s t)) ∧
    (∀ (m : Msg) (w : Worker), m.ty = 0xB7 → s.ras.workers.get? [m.src] = some w → Gives (.mgFwAck m) s (fun t =>
      (t.ras.workers.get? [m.src] = some
      { w with out := w.out.map (fun v => if v.upd.seq = m.f 0 0 32 then { v with sentAt := s.now, sends := 1 } else v) }) ∧
      RegsBut [] s t ∧ PartsBut [.out, .hif, .sw, .ports, .ras, .answers] s t)) ∧
    (∀ (m : Msg), m.ty = 0xB8 → s.isManager = false → m.src = s.managerEid → s.evidenceRefusal 0 (some (m.src, m.f 0 0 32))
      (m.f 16 0 8) (m.f 16 8 1 = 1) = .ok → m.f 16 8 1 = 0 → Gives (.mgEvidReq m) s (fun t => t.sec =
      { s.sec with evidence := s.sec.evidence ++ [{ fn := 0, via := some (m.src, m.f 0 0 32), scope := m.f 16 0 8, nonce := m.f 20 0 256 % 2 ^ 256 }] }
      ∧ RegsBut [] s t ∧ PartsBut [.out, .hif, .sw, .ports, .ras, .answers, .sec] s t)) ∧
    (∀ (m : Msg), m.ty = 0xB9 → s.isManager = true → s.ras.evidence = Map.empty → (({ op := 0 } : Transfer).add (m.f 12 0
      32) (m.bytes 16 (m.len - 16))).whole = false → Gives (.mgEvidRsp m) s (fun t => t.ras.evidence.get? [m.src, m.f 0 0
      32] = some (({ op := 0 } : Transfer).add (m.f 12 0 32) (m.bytes 16 (m.len - 16))) ∧ RegsBut [] s t ∧ PartsBut [.out,
      .hif, .sw, .ports, .ras, .answers] s t)) ∧
    (∀ (m : Msg), m.ty = 0xB5 → s.isManager = true → Gives (.mgExpelAck m) s (fun t => m.bytes 0 m.len ∈ t.ras.fetch ∧
      RegsBut [] s t ∧ PartsBut [.out, .hif, .sw, .ports, .ras, .answers] s t)) ∧
    (∀ e (b : List Byte), s.firmware = true → Gives (.mgExpel b e) s (fun t => (t.sec.due = if s.expelStatus b = .ok ∧
      s.sec.expels.contains (sha (b.take 32)) = false then s.sec.due ++
      [{ target := fieldOf (natOfBytes (b.take 32)) 0 0 16, apold := fieldOf (natOfBytes (b.take 32)) 0 16 1 = 1, newManager := fieldOf (natOfBytes (b.take 32)) 4 0 16, promote := fieldOf (natOfBytes (b.take 32)) 4 16 16, beat := (s.beat + 1) % 2 ^ 32 }]
      else s.sec.due) ∧ RegsBut [] s t ∧ PartsBut [.out, .hif, .sw, .ports, .ras, .answers, .sec] s t)) ∧
    (∀ (x : Expel) (l : List Expel), s.sec.due = x :: l → ahead x.beat s.beat = false → x.apold = true → x.target = s.eid →
      s.trk.flowWait = [] → x.newManager = 0xFFFF → x.promote = 0xFFFF → Gives (.expelApply) s (fun t => t.pkg.expelled =
      true ∧ t.sec = { s.sec with due := l } ∧ t.mem = s.mem)) ∧
    (∀ (x : Expel) (l : List Expel), s.sec.due = x :: l → ahead x.beat s.beat = false → x.apold = true → x.target ≠ s.eid →
      (List.range 256).all (fun p => decide (s.partnerEid p ≠ x.target)) = true → x.newManager < 0xFFFF → x.promote = 0xFFFF
      → Gives (.expelApply) s (fun t => t.managerEid = x.newManager ∧ t.ras.expected = 0 ∧ t.ras.workers = Map.empty ∧ t.sec
      = { s.sec with due := l } ∧ t.hif = { s.hif with waiting := s.hif.waiting.filter (fun w => w.isSome) } ∧ RegsBut
      [R.RAS_MGR_CFG_manager_eid] s t ∧ PartsBut [.ras, .sec, .hif] s t)) ∧
    (∀ (x : Expel) (l : List Expel), s.sec.due = x :: l → ahead x.beat s.beat = true → Gives (.expelApply) s (fun t =>
      RegsBut [] s t ∧ PartsBut [] s t))

/-- R420, R424: a pairing makes the primary shadow its extents and a break ends it. R421: the next chunk of the extent under
copy is sent and counted as copied. R422, R423: a puppet applies a mirrored lease or grant and acknowledges, and an
acknowledgement ends the message at the primary. R424: an acknowledgement overdue is reported again later. R428: a handoff
waits for its beat, and at it the primary gives up its node. R405: a FATAL error disables the ports and ends the service.
R429: a patrol pass is set for its beat and begins then. R430, R467: the freeze pin, held for 20 ns, stops the clocks; held
for 5 to 20 ns it may or may not. -/
def Obligations.PuppetAndService : Prop :=
  ∀ s : State, Serves s →
    (∀ a b tc f, s.pkg.expelled = false → s.isReady B.ras = true → s.eid = a → a ≠ b → tc < 7 → f ≤ 4095 → b < 2 ^ 16 →
      s.isPrimary = false → s.isPuppet = false → s.heldOwn = [] → s.listed R.POL_LEASE_valid = [] → Gives (.puppetPair a b
      tc f) s (fun t => t.isPrimary = true ∧ t.rd R.RAS_PUPPET_STATUS_partner_eid [] = b ∧ t.pair =
      { primary := a, puppet := b, tc := tc, flow := f, node := 0xFFFF } ∧ RegsBut [R.RAS_PUPPET_STATUS_state,
      R.RAS_PUPPET_STATUS_partner_eid, R.RAS_PUPPET_CFG_tc] s t ∧ PartsBut [.out, .hif, .sw, .ports, .ras, .answers, .pair]
      s t)) ∧
    (∀ a b tc f, s.pkg.expelled = false → s.isReady B.ras = true → (a = b ∨ 7 ≤ tc ∨ 4095 < f) → Gives (.puppetPair a b tc
      f) s (fun t => t.answers = s.answers ++ [(0x0701, .unsupported)] ∧ RegsBut [] s t ∧ PartsBut [.answers] s t)) ∧
    (s.pkg.expelled = false → s.isReady B.ras = true → s.isPrimary = true → s.pair.withheld = [] → Gives (.puppetBreak) s
      (fun t => t.rd R.RAS_PUPPET_STATUS_state [] = 0 ∧ t.pair = { switched := s.pair.switched } ∧ t.mem = s.mem ∧ RegsBut
      [R.RAS_PUPPET_STATUS_state, R.RAS_PUPPET_STATUS_partner_eid] s t ∧ PartsBut [.out, .hif, .sw, .ports, .ras, .answers,
      .pair] s t)) ∧
    (∀ d e k mask, s.isPrimary = true → s.copyTarget d = some e → s.pair.chunks.get 0 [e] = mask → (List.range 1024).find?
      (fun i => !bitAt mask i) = some k → s.tier.moves.get? [e] = none → Gives (.shadowCopy d) s (fun t =>
      t.pair.chunks.get? [e] = some (mask ||| 1 <<< k) ∧ t.pair.copying.get? [d] = some (e, k) ∧ t.mem = s.mem ∧ RegsBut []
      s t ∧ PartsBut [.out, .hif, .sw, .ports, .ras, .answers, .pair] s t)) ∧
    (∀ (m : Msg) k, m.ty = 0xBA → s.isPuppet = true → m.src = s.pair.primary → m.f 16 0 8 = 2 → m.f 48 0 16 = 0x0101 → m.len
      = 62 → m.f 50 0 16 = k → m.f 58 0 32 ≠ 0 → Gives (.mgShadow m) s (fun t => t.pair.leases.get? [k] = some (m.f 52 0 16,
      m.f 54 0 8, m.f 58 0 32, (s.beat + m.f 58 0 32) % 2 ^ 32) ∧ t.mem = s.mem ∧ RegsBut [] s t ∧ PartsBut [.out, .hif,
      .sw, .ports, .ras, .answers, .pair] s t)) ∧
    (∀ (m : Msg), m.ty = 0xBA → (s.isPuppet = false ∨ m.src ≠ s.pair.primary) → Gives (.mgShadow m) s (fun t => Answers 0 m
      .unsupported 0 none s t ∧ RegsBut [] s t ∧ PartsBut [.out, .hif, .sw, .ports, .ras, .answers] s t)) ∧
    (∀ (m : Msg) (x : Sent), m.ty = 0xBB → s.isPrimary = true → m.src = s.pair.puppet → s.pair.sent.get? [m.f 0 0 32] = some
      x → Status.ofCode (m.f 4 16 4) = .ok → x.extent < 2 ^ 18 → s.pair.withheld = [] → Gives (.mgShadowAck m) s (fun t =>
      t.pair = { s.pair with sent := s.pair.sent.erase [m.f 0 0 32] } ∧ RegsBut [] s t ∧ PartsBut [.out, .hif, .sw, .ports,
      .ras, .answers, .pair] s t)) ∧
    (∀ (m : Msg) (x : Sent) mask, m.ty = 0xBB → s.isPrimary = true → m.src = s.pair.puppet → s.pair.sent.get? [m.f 0 0 32] =
      some x → Status.ofCode (m.f 4 16 4) ≠ .ok → s.pair.chunks.get? [x.extent] = some mask → s.pair.withheld = [] → Gives
      (.mgShadowAck m) s (fun t => t.pair =
      { s.pair with sent := s.pair.sent.erase [m.f 0 0 32], chunks := s.pair.chunks.set [x.extent] 0 } ∧ RegsBut [] s t ∧
      PartsBut [.out, .hif, .sw, .ports, .ras, .answers, .pair] s t)) ∧
    (∀ q (x : Sent), s.isPrimary = true → s.pair.sent = Map.empty.set [q] x → 1000 * s.rd R.RAS_PUPPET_CFG_ack_timeout [] ≤
      s.now - x.since → Gives (.puppetAckTimeout) s (fun t => t.pair =
      { s.pair with sent := Map.empty.set [q] { x with since := s.now } } ∧ RegsBut [] s t ∧ PartsBut [.out, .hif, .sw,
      .ports, .ras, .answers, .pair] s t)) ∧
    (∀ b, s.pkg.expelled = false → s.isReady B.ras = true → s.isPrimary = true → s.isPuppet = false → s.pair.handoff = none
      → s.pair.chunks = Map.empty → Gives (.handoff b) s (fun t => t.pair =
      { s.pair with handoff := some (launchBeat b s.beat) } ∧ RegsBut [R.TIM_LATE_COUNT_count] s t ∧ PartsBut [.out, .hif,
      .answers, .pair] s t)) ∧
    (∀ b, s.isPrimary = true → s.pair.switched = false → s.pair.handoff = some b → ahead b s.beat = true → Gives
      (.handoffSwitch) s (fun t => RegsBut [] s t ∧ PartsBut [] s t)) ∧
    (∀ b, s.isPrimary = true → s.pair.switched = false → s.pair.handoff = some b → ahead b s.beat = false → s.trk.home =
      Map.empty → s.pool.ext = Map.empty → s.listed R.POL_LEASE_valid = [] → s.listed R.POL_SHARE_valid = [] → Gives
      (.handoffSwitch) s (fun t => t.pair.switched = true ∧ t.pair.handoff = none ∧ t.pair.chunks = Map.empty ∧
      (t.pair.sent.get? [s.pair.seq]).map (fun x => x.extent) = some markerSent)) ∧
    (∀ k c x, k < 32 → c < 2 ^ 12 → x < 2 ^ 16 → Gives (.fatalError k c x) s (fun t => t.pkg.fatal = true ∧ t.rd
      R.RAS_FATAL_INFO_block [] = k ∧ t.rd R.RAS_FATAL_INFO_cause [] = c ∧ t.rd R.RAS_FATAL_INFO_source [] = x ∧ t.mem =
      s.mem ∧ t.pool = s.pool)) ∧
    (∀ v, s.isReady B.ras = true → s.tier.passAt = none → s.tier.passLeft = none → bitsOf v 0 5 < 20 → bitsOf v 8 8 ≠ 0 →
      Gives (.scrubSchedule v) s (fun t => t.tier = { s.tier with passAt := some (launchBeat (bitsOf v 32 32) s.beat) } ∧
      t.rd R.RAS_SCRUB_SCHED_target [] = bitsOf v 0 5 ∧ t.rd R.RAS_SCRUB_SCHED_beat [] = bitsOf v 32 32 ∧ RegsBut
      [R.RAS_SCRUB_SCHED_target, R.RAS_SCRUB_SCHED_rate, R.RAS_SCRUB_SCHED_beat, R.TIM_LATE_COUNT_count] s t ∧ PartsBut
      [.out, .hif, .tier] s t)) ∧
    (∀ k b, s.tier.passAt = some b → ahead b s.beat = false → s.rd R.RAS_SCRUB_SCHED_target [] = k → k < 20 → s.stackRuns k
      = true → Gives (.scrubPassStart) s (fun t => t.tier = { s.tier with passAt := none, passLeft := some (k, 603979776) }
      ∧ RegsBut [] s t ∧ PartsBut [.tier] s t)) ∧
    (∀ b, s.tier.passAt = some b → ahead b s.beat = true → Gives (.scrubPassStart) s (fun t => RegsBut [] s t ∧ PartsBut []
      s t)) ∧
    (∀ n, 20 ≤ n → Gives (.freezePin n) s (fun t => t.pkg = { s.pkg with frozen := true } ∧ t.stopped = true ∧ RegsBut [] s
      t ∧ PartsBut [.pkg] s t)) ∧
    (∀ n, n < 5 → Gives (.freezePin n) s (fun t => RegsBut [] s t ∧ PartsBut [] s t)) ∧
    (∀ n, 5 ≤ n → n < 20 → Gives (.freezePin n) s (fun t => (t.pkg = s.pkg ∨ t.pkg = { s.pkg with frozen := true }) ∧
      t.fresh = s.fresh + 1 ∧ RegsBut [] s t ∧ PartsBut [.pkg, .fresh] s t))

/-! ### Registers (00, 18) -/

/-- R9, R11: a wide write of an edge or pool register by the physical function gives each read-write field of its word the
written bits, except that a reserved value leaves the field, and leaves each read-only field; no field outside the word
changes but those that report. R435: a virtual function's write outside its view changes nothing. R445: 0xA5 in
GLB_CTL.part_reset resets the part. R439: a write of BAR4 reaches the function's page only. R405: after a FATAL error a
fabric block's read-write register keeps its value. -/
def Obligations.RegisterWrites : Prop :=
  ∀ s : State, Runs s →
    (∀ blk off v, s.pkg.fatal = false → s.resting = false → (blk = B.edg ∨ blk = B.pol) → off < 2 ^ 22 → off % 8 = 0 → v < 2
      ^ 64 → Gives (.registerWrite 0 (blk * 2 ^ 22 + off) v true) s (fun t => (∀ e ∈ fieldsAt blk off 0, e.1.acc = .rw → ¬
      Reports e.1 → s.rd e.1 e.2.1 < 2 ^ e.1.w → t.rd e.1 e.2.1 = if e.1.part e.2.2 v < e.1.least ∨ e.1.most < e.1.part
      e.2.2 v then s.rd e.1 e.2.1 else e.1.part e.2.2 v) ∧ (∀ f ix, ¬ Reports f → (∀ pos, (f, ix, pos) ∈ fieldsAt blk off 0
      → f.acc = .ro ∨ f.acc = .wo) → t.rd f ix = s.rd f ix) ∧ PartsBut reporting s t)) ∧
    (∀ fn off v (b : Bool), off < 2 ^ 28 → inView fn (off / 8 * 8 / 2 ^ 22) (off / 8 * 8 % 2 ^ 22) = false → Gives
      (.registerWrite fn off v b) s (fun t => RegsBut [] s t ∧ PartsBut [] s t)) ∧
    (∀ v, s.pkg.fatal = false → v % 2 ^ 64 % 256 = 0xA5 → Gives (.registerWrite 0 0x400010 v true) s (fun t => t.rd
      R.GLB_RESET_CAUSE_cause [] = 3 ∧ t.flash = s.flash ∧ PartsBut [.fresh, .out, .sec, .flash] State.reset t)) ∧
    (∀ fn v, s.pkg.fatal = false → s.resting = false → fn < 32 → Gives (.registerWrite fn (2 ^ 28 + 2 ^ 20 + 4096 * fn +
      0x10) v true) s (fun t => t.bar4 fn 0x10 1 = v % 2 ^ 64 ∧ (∀ g off area, (g ≠ fn ∨ off ≠ 0x10 ∨ area ≠ 1) → t.bar4 g
      off area = s.bar4 g off area) ∧ RegsBut [] s t ∧ PartsBut [.hif] s t)) ∧
    (∀ off v, s.pkg.fatal = true → s.resting = false → off < 2 ^ 22 → Gives (.registerWrite 0 (B.pol * 2 ^ 22 + off) v true)
      s (fun t => (∀ f ix, f.block = B.pol → f.acc = .rw → f ≠ (evtBit B.pol 0).2.2 → ¬ Reports f → t.rd f ix = s.rd f ix)))

/-! ### Whole-machine rules -/

/-- With a command at the front of the queue, a step is that command's effect on the state with the rest of the queue; no
word of the table spells a command, since no row gives its command bits; on an empty queue a nanosecond passes, which is the
model's choice (logs 1 and 3). -/
def Obligations.StepRunsTheFront : Prop :=
  (∀ (s : State) c l, s.pending = c :: l → step s = exec c { s with pending := l }) ∧
  (∀ s : State, s.pending = [] → ∃ t, step s = .next t ∧ t.pending = [] ∧ t.now = s.now + 1 ∧ t.mem = s.mem ∧ t.regs = s.regs) ∧
  ∀ (s : State) nbits w, decodeTableWord nbits w = none ∧ s.withFetchWord nbits w = s

/-- No command of the table ends in a fault or a refusal, whatever its operands and the state; and none changes the queue of
commands or the elapsed time, which are the model's own (logs 1 and 3). -/
def Obligations.EveryCommandAnswers : Prop :=
  ∀ c s, ∃ t, exec c s = .next t ∧ t.pending = s.pending ∧ t.now = s.now

/-- Where every waiting command has operands within the ranges of the wire objects and registers they name, so it is after a
step, which takes the first command away and moves no other; elapsed time never runs back. The queue is the model's own (log
1). -/
def Obligations.StepKeepsQueue : Prop :=
  ∀ s t, QueueOk s → step s = .next t → QueueOk t ∧ t.pending = s.pending.tail ∧ s.now ≤ t.now

/-- After reset no block but those of the boot ROM's is READY, the boot ROM runs, the part is in full service and out of
freeze and FATAL, every port is DISABLED, no collective or table is installed, no tenant but tenant 0 is active, no pairing
stands, memory lists nothing, nothing waits in the queue, and every memory is in its one form. That memory lists nothing is
the model's choice (log 6); the register values the model chose itself are not named here. -/
def Obligations.ResetState : Prop :=
  State.reset.pending = [] ∧ QueueOk State.reset ∧ MemoryOk State.reset ∧ State.reset.mem = [] ∧ State.reset.out = [] ∧
  State.reset.stopped = false ∧ State.reset.pkg.fatal = false ∧ State.reset.resting = false ∧
  State.reset.rd R.SEC_BOOT_STATUS_stage [] = 0 ∧ (∀ p, State.reset.pst p = Ps.disabled) ∧
  (∀ k, State.reset.clst k = Cl.free ∧ State.reset.table k = none) ∧ (∀ k, k ≠ 0 → State.reset.tenantState k = 0) ∧
  State.reset.isPrimary = false ∧ State.reset.isPuppet = false ∧ State.reset.isReady B.pol = false ∧ State.reset.isReady B.cmp = false

/-- While a freeze, the thermal trip or rails out of tolerance hold the clocks, every command but those of the detectors,
RESET_N, the freeze pin and a debug record leaves the state as it is. -/
def Obligations.WithoutClocks : Prop :=
  ∀ c s, s.stopped = true → actsUnclocked c = false → exec c s = .next s

/-- R405, R447: once a FATAL error has stopped the part, or in Rest, every command of a port, an agent, a core or a unit of
the fabric dies leaves the state as it is. -/
def Obligations.OutOfService : Prop :=
  ∀ c s, (s.pkg.fatal = true ∨ s.resting = true) → beyondFabric c = false → exec c s = .next s

/-- For every message whose fields fit, its header and body written as bits and read back are the message; so for flits and
cricket messages, and every status comes back from its code. -/
def Obligations.WireRoundTrip : Prop :=
  (∀ m : Msg, m.wireOk = true → Msg.ofBits m.chan m.tc m.cm m.bits = m) ∧ (∀ f : Flit, f.ok = true → Flit.ofBits f.bits = f) ∧
  (∀ c : Cricket, c.ok = true → Cricket.ofBits c.bits = c) ∧ ∀ st : Status, Status.ofCode st.code = st

/-- R319: in ESCAPE mode element i is the b-bit two's-complement integer in body bits [b*i + b - 1 : b*i], reconstructed as
R316 says; a body bit from b*count on that is not 0 is an error; the code table plays no part. -/
def Obligations.EscapeBlocks : Prop :=
  ∀ u u' bcode blk count x (out : Fmt), bcode ≤ 5 → bitsOf x 0 2 = 1 →
    decodeBlock u bcode blk count out x = decodeBlock u' bcode blk count out x ∧
    (∀ l, decodeBlock u bcode blk count out x = .inr l →
      l.length = count ∧ bitsOf x 32 (256 * bitsFor bcode) >>> (bitsFor bcode * count) = 0 ∧
      ∀ i, i < count → l[i]? = some (rebuild out (bitsOf x 16 8 * 8 + bitsOf x 13 3)
        (signedOf (bitsFor bcode) (bitsOf (bitsOf x 32 (256 * bitsFor bcode)) (bitsFor bcode * i) (bitsFor bcode))))) ∧
    (bitsOf x 32 (256 * bitsFor bcode) >>> (bitsFor bcode * count) ≠ 0 → ∃ e, decodeBlock u bcode blk count out x = .inl e)

/-- R320: a block in ZERO or NAN mode has no coded elements; a step or a body bit that is not 0 is an error; every element
reconstructs to +0 in ZERO mode and to the default quiet NaN of the output type in NAN mode, 0x7FC0_0000 in FP32 and 0x7FC0
in BF16. -/
def Obligations.ZeroAndNanBlocks : Prop :=
  fp32.qnan = 0x7FC00000 ∧ bf16.qnan = 0x7FC0 ∧
  ∀ u bcode blk count x (out : Fmt), bitsOf x 0 2 = 2 ∨ bitsOf x 0 2 = 3 →
    (bitsOf x 13 3 ≠ 0 ∨ bitsOf x 16 8 ≠ 0 ∨ bitsOf x 32 (256 * bitsFor bcode) ≠ 0 →
      ∃ e, decodeBlock u bcode blk count out x = .inl e) ∧
    (bitsOf x 13 3 = 0 → bitsOf x 16 8 = 0 → bitsOf x 32 (256 * bitsFor bcode) = 0 → bitsOf x 2 3 = bcode →
      bitsOf x 24 8 = blk % 256 → bitsOf x 5 8 + 1 = count →
      decodeBlock u bcode blk count out x = .inr (List.replicate count (if bitsOf x 0 2 = 2 then 0 else out.qnan)))
end

