-- ==== Sys2Proof/Laws/Word.lean ====
section
/-! SUPPORT. What reading a finite table gives after each change of it, and that every change keeps its sorted form. -/

namespace Sys2Proof.Map

variable {α : Type}

/-- Reading back what was put. -/
theorem find_put_same (l : List (Key × α)) (k : Key) (v : α) : find (put l k v) k = some v := by
  induction l with
  | nil => simp [put, find]
  | cons e t ih =>
    obtain ⟨k', v'⟩ := e
    simp only [put]
    split
    · simp [find]
    · split
      · simp [find]
      · rename_i h _
        simp [find, h, ih]

/-- Reading another entry than the one that was put. -/
theorem find_put_other (l : List (Key × α)) {k k₂ : Key} (v : α) (h : k₂ ≠ k) : find (put l k v) k₂ = find l k₂ := by
  induction l with
  | nil => simp [put, find, Ne.symm h]
  | cons e t ih =>
    obtain ⟨k', v'⟩ := e
    simp only [put]
    split
    · rename_i hk
      subst hk
      simp [find, Ne.symm h]
    · split
      · simp [find, Ne.symm h]
      · simp only [find]
        split
        · rfl
        · exact ih

theorem find_filter_ne (l : List (Key × α)) (k : Key) : find (l.filter (fun e => decide (e.1 ≠ k))) k = none := by
  induction l with
  | nil => rfl
  | cons e t ih =>
    obtain ⟨k', v'⟩ := e
    by_cases hk : k' = k
    · subst hk; simpa using ih
    · simpa [hk, find] using ih

theorem find_filter_other (l : List (Key × α)) {k k₂ : Key} (h : k₂ ≠ k) :
    find (l.filter (fun e => decide (e.1 ≠ k))) k₂ = find l k₂ := by
  induction l with
  | nil => rfl
  | cons e t ih =>
    obtain ⟨k', v'⟩ := e
    by_cases hk : k' = k
    · subst hk
      simp only [ne_eq, decide_not, List.filter_cons, decide_true, Bool.not_true, Bool.false_eq_true, if_false, find,
        Ne.symm h]
      simpa using ih
    · by_cases hk2 : k' = k₂
      · subst hk2; simp [hk, find]
      · simp only [ne_eq, hk, not_false_eq_true, decide_true, List.filter_cons, if_true, find, hk2, if_false]
        simpa using ih

@[simp] theorem get?_set_same (m : Map α) (k : Key) (v : α) : (m.set k v).get? k = some v := find_put_same _ _ _

theorem get?_set_other (m : Map α) {k k₂ : Key} (v : α) (h : k₂ ≠ k) : (m.set k v).get? k₂ = m.get? k₂ :=
  find_put_other _ _ h

@[simp] theorem get_set_same (m : Map α) (d : α) (k : Key) (v : α) : (m.set k v).get d k = v := by
  simp [get, set, find_put_same]

theorem get_set_other (m : Map α) (d : α) {k k₂ : Key} (v : α) (h : k₂ ≠ k) : (m.set k v).get d k₂ = m.get d k₂ := by
  simp [get, set, find_put_other _ _ h]

@[simp] theorem has_set_same (m : Map α) (k : Key) (v : α) : (m.set k v).has k = true := by
  simp [has, set, find_put_same]

@[simp] theorem get_erase_same (m : Map α) (d : α) (k : Key) : (m.erase k).get d k = d := by
  simp only [get, erase]; rw [find_filter_ne]; rfl

theorem get_erase_other (m : Map α) (d : α) {k k₂ : Key} (h : k₂ ≠ k) : (m.erase k).get d k₂ = m.get d k₂ := by
  simp only [get, erase]; rw [find_filter_other _ h]

@[simp] theorem get?_erase_same (m : Map α) (k : Key) : (m.erase k).get? k = none := find_filter_ne _ _

theorem get?_erase_other (m : Map α) {k k₂ : Key} (h : k₂ ≠ k) : (m.erase k).get? k₂ = m.get? k₂ := find_filter_other _ h

@[simp] theorem has_erase_same (m : Map α) (k : Key) : (m.erase k).has k = false := by
  simp only [has, erase]; rw [find_filter_ne]; rfl

@[simp] theorem get_empty (d : α) (k : Key) : (empty : Map α).get d k = d := rfl

@[simp] theorem get?_empty (k : Key) : (empty : Map α).get? k = none := rfl

@[simp] theorem has_empty (k : Key) : (empty : Map α).has k = false := rfl

/-! ### The sorted form -/

theorem keyLt_trans : ∀ {a b c : Key}, keyLt a b = true → keyLt b c = true → keyLt a c = true
  | [], [], _, h, _ => by simp [keyLt] at h
  | [], _ :: _, [], _, h => by simp [keyLt] at h
  | [], _ :: _, _ :: _, _, _ => by simp [keyLt]
  | _ :: _, [], _, h, _ => by simp [keyLt] at h
  | _ :: _, _ :: _, [], _, h => by simp [keyLt] at h
  | x :: a, y :: b, z :: c, h₁, h₂ => by
    simp only [keyLt] at h₁ h₂ ⊢
    by_cases hxy : x < y
    · by_cases hyz : y < z
      · have : x < z := by omega
        simp [this]
      · by_cases hzy : z < y
        · simp [hyz, hzy] at h₂
        · have : y = z := by omega
          subst this; simp [hxy]
    · by_cases hyx : y < x
      · simp [hxy, hyx] at h₁
      · have hxy' : x = y := by omega
        subst hxy'
        simp only [Nat.lt_irrefl, if_false] at h₁
        by_cases hxz : x < z
        · simp [hxz]
        · by_cases hzx : z < x
          · simp [hxz, hzx] at h₂
          · simp only [hxz, hzx, if_false] at h₂ ⊢
            exact keyLt_trans h₁ h₂

theorem keyLt_total : ∀ {a b : Key}, a ≠ b → keyLt a b = false → keyLt b a = true
  | [], [], h, _ => absurd rfl h
  | [], _ :: _, _, h => by simp [keyLt] at h
  | _ :: _, [], _, _ => by simp [keyLt]
  | x :: a, y :: b, hne, h => by
    simp only [keyLt] at h ⊢
    by_cases hxy : x < y
    · simp [hxy] at h
    · by_cases hyx : y < x
      · simp [hyx]
      · have hxy' : x = y := by omega
        subst hxy'
        simp only [Nat.lt_irrefl, if_false] at h ⊢
        exact keyLt_total (fun e => hne (by rw [e])) h

/-- Every index of a list is above `k`. -/
def above (k : Key) (l : List (Key × α)) : Prop := ∀ e ∈ l, keyLt k e.1 = true

theorem sorted_cons {k : Key} {v : α} {l : List (Key × α)} : sorted ((k, v) :: l) = true ↔ above k l ∧ sorted l = true := by
  induction l generalizing k v with
  | nil => simp [sorted, above]
  | cons e t ih =>
    obtain ⟨k', v'⟩ := e
    simp only [sorted, Bool.and_eq_true]
    constructor
    · rintro ⟨h₁, h₂⟩
      refine ⟨?_, h₂⟩
      intro e he
      rcases List.mem_cons.mp he with rfl | he
      · exact h₁
      · exact keyLt_trans h₁ ((ih.mp h₂).1 e he)
    · rintro ⟨h₁, h₂⟩
      exact ⟨h₁ (k', v') (by simp), h₂⟩

theorem above_put {k k' : Key} {v : α} {l : List (Key × α)} (hk : keyLt k k' = true) (h : above k l) : above k (put l k' v) := by
  induction l with
  | nil => intro e he; simp [put] at he; subst he; exact hk
  | cons e t ih =>
    obtain ⟨k₁, v₁⟩ := e
    simp only [put]
    have ht : above k t := fun e he => h e (List.mem_cons_of_mem _ he)
    split
    · rename_i hkk
      intro e he
      rcases List.mem_cons.mp he with rfl | he
      · exact hk
      · exact ht e he
    · split
      · intro e he
        rcases List.mem_cons.mp he with rfl | he
        · exact hk
        · exact h e he
      · intro e he
        rcases List.mem_cons.mp he with rfl | he
        · exact h (k₁, v₁) (by simp)
        · exact ih ht e he

theorem sorted_put {k : Key} {v : α} {l : List (Key × α)} (h : sorted l = true) : sorted (put l k v) = true := by
  induction l with
  | nil => rfl
  | cons e t ih =>
    obtain ⟨k₁, v₁⟩ := e
    obtain ⟨ha, hs⟩ := sorted_cons.mp h
    simp only [put]
    split
    · rename_i hkk
      subst hkk
      exact sorted_cons.mpr ⟨ha, hs⟩
    · rename_i hne
      split
      · rename_i hlt
        refine sorted_cons.mpr ⟨?_, h⟩
        intro e he
        rcases List.mem_cons.mp he with rfl | he
        · exact hlt
        · exact keyLt_trans hlt (ha e he)
      · rename_i hlt
        refine sorted_cons.mpr ⟨above_put (keyLt_total (fun e => hne e.symm) (by simpa using hlt)) ha, ih hs⟩

theorem sorted_filter {p : Key × α → Bool} {l : List (Key × α)} (h : sorted l = true) : sorted (l.filter p) = true := by
  induction l with
  | nil => rfl
  | cons e t ih =>
    obtain ⟨k₁, v₁⟩ := e
    obtain ⟨ha, hs⟩ := sorted_cons.mp h
    simp only [List.filter_cons]
    split
    · exact sorted_cons.mpr ⟨fun e he => ha e (List.mem_filter.mp he).1, ih hs⟩
    · exact ih hs

/-- Each change of a table keeps its form. -/
theorem wf_set {m : Map α} {k : Key} {v : α} (h : m.wf = true) : (m.set k v).wf = true := sorted_put h

theorem wf_erase {m : Map α} {k : Key} (h : m.wf = true) : (m.erase k).wf = true := sorted_filter h

theorem wf_keep {m : Map α} {p : Key → α → Bool} (h : m.wf = true) : (m.keep p).wf = true := sorted_filter h

theorem wf_empty : (empty : Map α).wf = true := rfl

end Sys2Proof.Map
end

