-- ==== Sys2Proof/Laws/State.lean ====
section
/-! SUPPORT. What each named operation leaves of every field of State: one lemma per field per operation; and the shape of
all that reporting changes. -/

namespace Sys2Proof.Machine

open Sys2Proof.Safety

/-! ### Reading a register after a write -/

/-- Every field holds what was written, cut to its width. -/
@[simp] theorem State.rd_wr_same (f : Fld) (ix : List Nat) (v : Nat) (s : State) : (s.wr f ix v).rd f ix = v % 2 ^ f.w := by
  unfold State.wr
  split
  · rename_i h
    simp [State.rd, h]
  · simp [State.rd]

/-- A write leaves every other copy of every field as it was. -/
theorem State.rd_wr_other {f g : Fld} {ix jx : List Nat} (v : Nat) (s : State) (h : g.num :: jx ≠ f.num :: ix) :
    (s.wr f ix v).rd g jx = s.rd g jx := by
  unfold State.wr
  split
  · simp [State.rd, Map.get_erase_other _ _ h]
  · simp [State.rd, Map.get_set_other _ _ _ h]

/-- A write leaves every other field as it was. -/
theorem State.rd_wr_num {f g : Fld} (ix jx : List Nat) (v : Nat) (s : State) (h : g.num ≠ f.num) :
    (s.wr f ix v).rd g jx = s.rd g jx := State.rd_wr_other v s (fun e => h (List.cons.inj e).1)

/-- A write leaves the other copies of the field as they were. -/
theorem State.rd_wr_index {f : Fld} {ix jx : List Nat} (v : Nat) (s : State) (h : jx ≠ ix) :
    (s.wr f ix v).rd f jx = s.rd f jx := State.rd_wr_other v s (fun e => h (List.cons.inj e).2)

theorem State.listed_wr_num {f g : Fld} (ix : List Nat) (v : Nat) (s : State) (h : g.num ≠ f.num) :
    (s.wr f ix v).listed g = s.listed g := by
  have hk : ∀ e : Key × Nat, e.1.head? = some g.num → e.1 ≠ f.num :: ix := by
    intro e he hc
    rw [hc] at he
    exact h (Option.some.inj he).symm
  unfold State.wr State.listed
  split
  · simp only [Map.erase, List.filter_filter]
    congr 1
    refine List.filter_congr (fun e _ => ?_)
    by_cases he : e.1.head? = some g.num
    · simp [he, hk e he]
    · simp [he]
  · simp only [Map.set]
    congr 1
    generalize s.regs.entries = l
    have hn : ¬ (some f.num = some g.num) := fun hc => h (Option.some.inj hc).symm
    induction l with
    | nil => simp [Map.put, hn]
    | cons e t ih =>
      unfold Map.put
      split
      · rename_i e₁
        have : ¬ (e.1.head? = some g.num) := by rw [e₁]; exact hn
        simp [this, hn]
      · split
        · simp [hn]
        · by_cases he : e.1.head? = some g.num <;> simp [he, ih]

/-! ### Reporting -/

/-- Only registers that report, what left the part, and what the host interface holds differ: all that events and log
records change. -/
structure Told (s t : State) : Prop where
  shape : ∃ r o h, t = { s with regs := r, out := o, hif := h }
  regs : ∀ f ix, ¬ Reports f → t.rd f ix = s.rd f ix
  lists : ∀ f, ¬ Reports f → t.listed f = s.listed f
  grows : ∃ l, t.out = s.out ++ l

theorem Told.refl (s : State) : Told s s :=
  ⟨⟨s.regs, s.out, s.hif, rfl⟩, fun _ _ _ => rfl, fun _ _ => rfl, ⟨[], (List.append_nil _).symm⟩⟩

theorem Told.trans {s t u : State} (h₁ : Told s t) (h₂ : Told t u) : Told s u := by
  obtain ⟨⟨r, o, h, rfl⟩, e₁, l₁, ⟨x, g₁⟩⟩ := h₁
  obtain ⟨⟨r', o', h', rfl⟩, e₂, l₂, ⟨y, g₂⟩⟩ := h₂
  exact ⟨⟨r', o', h', rfl⟩, fun f ix hf => (e₂ f ix hf).trans (e₁ f ix hf), fun f hf => (l₂ f hf).trans (l₁ f hf),
    ⟨x ++ y, by rw [g₂, g₁, List.append_assoc]⟩⟩

theorem Told.ite {s a b : State} {c : Prop} [Decidable c] (ha : Told s a) (hb : Told s b) : Told s (if c then a else b) := by
  by_cases h : c
  · rw [if_pos h]; exact ha
  · rw [if_neg h]; exact hb

theorem Told.wr {s t : State} (h : Told s t) {f : Fld} (hf : Reports f) (ix : List Nat) (v : Nat) : Told s (t.wr f ix v) := by
  refine h.trans ⟨?_, fun g jx hg => State.rd_wr_num _ _ _ _ (fun e => hg (by unfold Reports; rw [e]; exact hf)),
    fun g hg => State.listed_wr_num _ _ _ (fun e => hg (by unfold Reports; rw [e]; exact hf)), ⟨[], ?_⟩⟩
  rotate_left
  · unfold State.wr; split <;> simp
  unfold State.wr
  split
  · exact ⟨_, t.out, t.hif, rfl⟩
  · exact ⟨_, t.out, t.hif, rfl⟩

theorem Told.bumpBy {s t : State} (h : Told s t) {f : Fld} (hf : Reports f) (ix : List Nat) (n : Nat) :
    Told s (t.bumpBy f ix n) := h.wr hf _ _

theorem Told.bump {s t : State} (h : Told s t) {f : Fld} (hf : Reports f) (ix : List Nat) : Told s (t.bump f ix) := h.wr hf _ _

theorem Told.emit {s t : State} (h : Told s t) (o : Out) : Told s (t.emit o) :=
  h.trans ⟨⟨t.regs, _, t.hif, rfl⟩, fun _ _ _ => rfl, fun _ _ => rfl, ⟨[o], rfl⟩⟩

theorem Told.msix {s t : State} (h : Told s t) (fn vec : Nat) : Told s (t.msix fn vec) := by
  unfold State.msix
  exact Told.ite (h.emit _) (h.trans ⟨⟨t.regs, t.out, _, rfl⟩, fun _ _ _ => rfl, fun _ _ => rfl,
    ⟨[], (List.append_nil _).symm⟩⟩)

/-- Every event stands in a register that only reports. -/
theorem evtBit_reports (blk b : Nat) : Reports (evtBit blk b).1 := by
  unfold evtBit
  split <;> (repeat' split) <;> (dsimp only; decide)

theorem Told.event {s t : State} (h : Told s t) (blk b : Nat) : Told s (t.event blk b) := by
  have hw := h.wr (evtBit_reports blk b) [] (t.rd (evtBit blk b).1 [] + 1 <<< (evtBit blk b).2.1)
  unfold State.event
  refine Told.ite h ?_
  dsimp only
  generalize t.wr (evtBit blk b).1 [] (t.rd (evtBit blk b).1 [] + 1 <<< (evtBit blk b).2.1) = u at hw
  have h₁ : Told s (if t.summary = 0 ∧ u.summary ≠ 0 then (u.msix 0 (u.rd R.RAS_CFG_vector [])).emit (.i3c 0x10) else u) :=
    Told.ite ((hw.msix _ _).emit _) hw
  exact Told.ite (h₁.emit _) h₁

theorem Told.late {s t : State} (h : Told s t) : Told s t.late := (h.bump (by decide) _).event _ _

theorem Told.lateIf {s t : State} (h : Told s t) (target at_ : Nat) : Told s (t.lateIf target at_) := Told.ite h h.late

theorem Told.ringPut {s t : State} (h : Told s t) (ft : Nat) (c : Cls) (blk : Nat) (st : Status) (cause source info : Nat) :
    Told s (t.ringPut ft c blk st cause source info) :=
  Told.ite ((h.bump (by decide) _).event _ _) ((h.wr (by decide) _ _).wr (by decide) _ _)

theorem Told.contained {s t : State} (h : Told s t) (at_ blk : Nat) (st : Status) (source info : Nat) :
    Told s (t.contained at_ blk st source info) := ((h.bump (by decide) _).ringPut _ _ _ _ _ _ _).event _ _

theorem Told.progErr {s t : State} (h : Told s t) (blk off : Nat) : Told s (t.progErr blk off) :=
  Told.event (Told.contained (Told.ite h ((h.wr (by decide) _ _).wr (by decide) _ _)) _ _ _ _ _) _ _

theorem Told.badWrite {s t : State} (h : Told s t) (f : Fld) (ix : List Nat) : Told s (t.badWrite f ix) := h.progErr _ _

theorem Told.pending_eq {s t : State} (h : Told s t) : t.pending = s.pending := by obtain ⟨⟨r, o, h, rfl⟩, _⟩ := h; rfl
theorem Told.fresh_eq {s t : State} (h : Told s t) : t.fresh = s.fresh := by obtain ⟨⟨r, o, h, rfl⟩, _⟩ := h; rfl
theorem Told.now_eq {s t : State} (h : Told s t) : t.now = s.now := by obtain ⟨⟨r, o, h, rfl⟩, _⟩ := h; rfl
theorem Told.tim_eq {s t : State} (h : Told s t) : t.tim = s.tim := by obtain ⟨⟨r, o, h, rfl⟩, _⟩ := h; rfl
theorem Told.ports_eq {s t : State} (h : Told s t) : t.ports = s.ports := by obtain ⟨⟨r, o, h, rfl⟩, _⟩ := h; rfl
theorem Told.sw_eq {s t : State} (h : Told s t) : t.sw = s.sw := by obtain ⟨⟨r, o, h, rfl⟩, _⟩ := h; rfl
theorem Told.edgeWin_eq {s t : State} (h : Told s t) : t.edgeWin = s.edgeWin := by obtain ⟨⟨r, o, h, rfl⟩, _⟩ := h; rfl
theorem Told.trk_eq {s t : State} (h : Told s t) : t.trk = s.trk := by obtain ⟨⟨r, o, h, rfl⟩, _⟩ := h; rfl
theorem Told.pool_eq {s t : State} (h : Told s t) : t.pool = s.pool := by obtain ⟨⟨r, o, h, rfl⟩, _⟩ := h; rfl
theorem Told.coh_eq {s t : State} (h : Told s t) : t.coh = s.coh := by obtain ⟨⟨r, o, h, rfl⟩, _⟩ := h; rfl
theorem Told.tier_eq {s t : State} (h : Told s t) : t.tier = s.tier := by obtain ⟨⟨r, o, h, rfl⟩, _⟩ := h; rfl
theorem Told.pair_eq {s t : State} (h : Told s t) : t.pair = s.pair := by obtain ⟨⟨r, o, h, rfl⟩, _⟩ := h; rfl
theorem Told.answers_eq {s t : State} (h : Told s t) : t.answers = s.answers := by obtain ⟨⟨r, o, h, rfl⟩, _⟩ := h; rfl
theorem Told.mem_eq {s t : State} (h : Told s t) : t.mem = s.mem := by obtain ⟨⟨r, o, h, rfl⟩, _⟩ := h; rfl
theorem Told.poison_eq {s t : State} (h : Told s t) : t.poison = s.poison := by obtain ⟨⟨r, o, h, rfl⟩, _⟩ := h; rfl
theorem Told.ras_eq {s t : State} (h : Told s t) : t.ras = s.ras := by obtain ⟨⟨r, o, h, rfl⟩, _⟩ := h; rfl
theorem Told.sram_eq {s t : State} (h : Told s t) : t.sram = s.sram := by obtain ⟨⟨r, o, h, rfl⟩, _⟩ := h; rfl
theorem Told.pkg_eq {s t : State} (h : Told s t) : t.pkg = s.pkg := by obtain ⟨⟨r, o, h, rfl⟩, _⟩ := h; rfl
theorem Told.cores_eq {s t : State} (h : Told s t) : t.cores = s.cores := by obtain ⟨⟨r, o, h, rfl⟩, _⟩ := h; rfl
theorem Told.clusters_eq {s t : State} (h : Told s t) : t.clusters = s.clusters := by obtain ⟨⟨r, o, h, rfl⟩, _⟩ := h; rfl
theorem Told.spm_eq {s t : State} (h : Told s t) : t.spm = s.spm := by obtain ⟨⟨r, o, h, rfl⟩, _⟩ := h; rfl
theorem Told.csram_eq {s t : State} (h : Told s t) : t.csram = s.csram := by obtain ⟨⟨r, o, h, rfl⟩, _⟩ := h; rfl
theorem Told.flying_eq {s t : State} (h : Told s t) : t.flying = s.flying := by obtain ⟨⟨r, o, h, rfl⟩, _⟩ := h; rfl
theorem Told.qpe_eq {s t : State} (h : Told s t) : t.qpe = s.qpe := by obtain ⟨⟨r, o, h, rfl⟩, _⟩ := h; rfl
theorem Told.cdc_eq {s t : State} (h : Told s t) : t.cdc = s.cdc := by obtain ⟨⟨r, o, h, rfl⟩, _⟩ := h; rfl
theorem Told.clt_eq {s t : State} (h : Told s t) : t.clt = s.clt := by obtain ⟨⟨r, o, h, rfl⟩, _⟩ := h; rfl
theorem Told.gth_eq {s t : State} (h : Told s t) : t.gth = s.gth := by obtain ⟨⟨r, o, h, rfl⟩, _⟩ := h; rfl
theorem Told.images_eq {s t : State} (h : Told s t) : t.images = s.images := by obtain ⟨⟨r, o, h, rfl⟩, _⟩ := h; rfl
theorem Told.sec_eq {s t : State} (h : Told s t) : t.sec = s.sec := by obtain ⟨⟨r, o, h, rfl⟩, _⟩ := h; rfl
theorem Told.flash_eq {s t : State} (h : Told s t) : t.flash = s.flash := by obtain ⟨⟨r, o, h, rfl⟩, _⟩ := h; rfl

/-! A write of a field changes the registers. -/

@[simp] theorem State.wr_pending_eq (f : Fld) (ix : List Nat) (v : Nat) (s : State) : (s.wr f ix v).pending = s.pending := by unfold State.wr; split <;> rfl
@[simp] theorem State.wr_fresh_eq (f : Fld) (ix : List Nat) (v : Nat) (s : State) : (s.wr f ix v).fresh = s.fresh := by unfold State.wr; split <;> rfl
@[simp] theorem State.wr_now_eq (f : Fld) (ix : List Nat) (v : Nat) (s : State) : (s.wr f ix v).now = s.now := by unfold State.wr; split <;> rfl
@[simp] theorem State.wr_out_eq (f : Fld) (ix : List Nat) (v : Nat) (s : State) : (s.wr f ix v).out = s.out := by unfold State.wr; split <;> rfl
@[simp] theorem State.wr_tim_eq (f : Fld) (ix : List Nat) (v : Nat) (s : State) : (s.wr f ix v).tim = s.tim := by unfold State.wr; split <;> rfl
@[simp] theorem State.wr_ports_eq (f : Fld) (ix : List Nat) (v : Nat) (s : State) : (s.wr f ix v).ports = s.ports := by unfold State.wr; split <;> rfl
@[simp] theorem State.wr_sw_eq (f : Fld) (ix : List Nat) (v : Nat) (s : State) : (s.wr f ix v).sw = s.sw := by unfold State.wr; split <;> rfl
@[simp] theorem State.wr_edgeWin_eq (f : Fld) (ix : List Nat) (v : Nat) (s : State) : (s.wr f ix v).edgeWin = s.edgeWin := by unfold State.wr; split <;> rfl
@[simp] theorem State.wr_trk_eq (f : Fld) (ix : List Nat) (v : Nat) (s : State) : (s.wr f ix v).trk = s.trk := by unfold State.wr; split <;> rfl
@[simp] theorem State.wr_pool_eq (f : Fld) (ix : List Nat) (v : Nat) (s : State) : (s.wr f ix v).pool = s.pool := by unfold State.wr; split <;> rfl
@[simp] theorem State.wr_coh_eq (f : Fld) (ix : List Nat) (v : Nat) (s : State) : (s.wr f ix v).coh = s.coh := by unfold State.wr; split <;> rfl
@[simp] theorem State.wr_tier_eq (f : Fld) (ix : List Nat) (v : Nat) (s : State) : (s.wr f ix v).tier = s.tier := by unfold State.wr; split <;> rfl
@[simp] theorem State.wr_pair_eq (f : Fld) (ix : List Nat) (v : Nat) (s : State) : (s.wr f ix v).pair = s.pair := by unfold State.wr; split <;> rfl
@[simp] theorem State.wr_answers_eq (f : Fld) (ix : List Nat) (v : Nat) (s : State) : (s.wr f ix v).answers = s.answers := by unfold State.wr; split <;> rfl
@[simp] theorem State.wr_mem_eq (f : Fld) (ix : List Nat) (v : Nat) (s : State) : (s.wr f ix v).mem = s.mem := by unfold State.wr; split <;> rfl
@[simp] theorem State.wr_poison_eq (f : Fld) (ix : List Nat) (v : Nat) (s : State) : (s.wr f ix v).poison = s.poison := by unfold State.wr; split <;> rfl
@[simp] theorem State.wr_ras_eq (f : Fld) (ix : List Nat) (v : Nat) (s : State) : (s.wr f ix v).ras = s.ras := by unfold State.wr; split <;> rfl
@[simp] theorem State.wr_sram_eq (f : Fld) (ix : List Nat) (v : Nat) (s : State) : (s.wr f ix v).sram = s.sram := by unfold State.wr; split <;> rfl
@[simp] theorem State.wr_hif_eq (f : Fld) (ix : List Nat) (v : Nat) (s : State) : (s.wr f ix v).hif = s.hif := by unfold State.wr; split <;> rfl
@[simp] theorem State.wr_pkg_eq (f : Fld) (ix : List Nat) (v : Nat) (s : State) : (s.wr f ix v).pkg = s.pkg := by unfold State.wr; split <;> rfl
@[simp] theorem State.wr_cores_eq (f : Fld) (ix : List Nat) (v : Nat) (s : State) : (s.wr f ix v).cores = s.cores := by unfold State.wr; split <;> rfl
@[simp] theorem State.wr_clusters_eq (f : Fld) (ix : List Nat) (v : Nat) (s : State) : (s.wr f ix v).clusters = s.clusters := by unfold State.wr; split <;> rfl
@[simp] theorem State.wr_spm_eq (f : Fld) (ix : List Nat) (v : Nat) (s : State) : (s.wr f ix v).spm = s.spm := by unfold State.wr; split <;> rfl
@[simp] theorem State.wr_csram_eq (f : Fld) (ix : List Nat) (v : Nat) (s : State) : (s.wr f ix v).csram = s.csram := by unfold State.wr; split <;> rfl
@[simp] theorem State.wr_flying_eq (f : Fld) (ix : List Nat) (v : Nat) (s : State) : (s.wr f ix v).flying = s.flying := by unfold State.wr; split <;> rfl
@[simp] theorem State.wr_qpe_eq (f : Fld) (ix : List Nat) (v : Nat) (s : State) : (s.wr f ix v).qpe = s.qpe := by unfold State.wr; split <;> rfl
@[simp] theorem State.wr_cdc_eq (f : Fld) (ix : List Nat) (v : Nat) (s : State) : (s.wr f ix v).cdc = s.cdc := by unfold State.wr; split <;> rfl
@[simp] theorem State.wr_clt_eq (f : Fld) (ix : List Nat) (v : Nat) (s : State) : (s.wr f ix v).clt = s.clt := by unfold State.wr; split <;> rfl
@[simp] theorem State.wr_gth_eq (f : Fld) (ix : List Nat) (v : Nat) (s : State) : (s.wr f ix v).gth = s.gth := by unfold State.wr; split <;> rfl
@[simp] theorem State.wr_images_eq (f : Fld) (ix : List Nat) (v : Nat) (s : State) : (s.wr f ix v).images = s.images := by unfold State.wr; split <;> rfl
@[simp] theorem State.wr_sec_eq (f : Fld) (ix : List Nat) (v : Nat) (s : State) : (s.wr f ix v).sec = s.sec := by unfold State.wr; split <;> rfl
@[simp] theorem State.wr_flash_eq (f : Fld) (ix : List Nat) (v : Nat) (s : State) : (s.wr f ix v).flash = s.flash := by unfold State.wr; split <;> rfl

/-! A counter. -/

@[simp] theorem State.bumpBy_pending_eq (f : Fld) (ix : List Nat) (n : Nat) (s : State) : (s.bumpBy f ix n).pending = s.pending := State.wr_pending_eq _ _ _ _
@[simp] theorem State.bumpBy_fresh_eq (f : Fld) (ix : List Nat) (n : Nat) (s : State) : (s.bumpBy f ix n).fresh = s.fresh := State.wr_fresh_eq _ _ _ _
@[simp] theorem State.bumpBy_now_eq (f : Fld) (ix : List Nat) (n : Nat) (s : State) : (s.bumpBy f ix n).now = s.now := State.wr_now_eq _ _ _ _
@[simp] theorem State.bumpBy_out_eq (f : Fld) (ix : List Nat) (n : Nat) (s : State) : (s.bumpBy f ix n).out = s.out := State.wr_out_eq _ _ _ _
@[simp] theorem State.bumpBy_tim_eq (f : Fld) (ix : List Nat) (n : Nat) (s : State) : (s.bumpBy f ix n).tim = s.tim := State.wr_tim_eq _ _ _ _
@[simp] theorem State.bumpBy_ports_eq (f : Fld) (ix : List Nat) (n : Nat) (s : State) : (s.bumpBy f ix n).ports = s.ports := State.wr_ports_eq _ _ _ _
@[simp] theorem State.bumpBy_sw_eq (f : Fld) (ix : List Nat) (n : Nat) (s : State) : (s.bumpBy f ix n).sw = s.sw := State.wr_sw_eq _ _ _ _
@[simp] theorem State.bumpBy_edgeWin_eq (f : Fld) (ix : List Nat) (n : Nat) (s : State) : (s.bumpBy f ix n).edgeWin = s.edgeWin := State.wr_edgeWin_eq _ _ _ _
@[simp] theorem State.bumpBy_trk_eq (f : Fld) (ix : List Nat) (n : Nat) (s : State) : (s.bumpBy f ix n).trk = s.trk := State.wr_trk_eq _ _ _ _
@[simp] theorem State.bumpBy_pool_eq (f : Fld) (ix : List Nat) (n : Nat) (s : State) : (s.bumpBy f ix n).pool = s.pool := State.wr_pool_eq _ _ _ _
@[simp] theorem State.bumpBy_coh_eq (f : Fld) (ix : List Nat) (n : Nat) (s : State) : (s.bumpBy f ix n).coh = s.coh := State.wr_coh_eq _ _ _ _
@[simp] theorem State.bumpBy_tier_eq (f : Fld) (ix : List Nat) (n : Nat) (s : State) : (s.bumpBy f ix n).tier = s.tier := State.wr_tier_eq _ _ _ _
@[simp] theorem State.bumpBy_pair_eq (f : Fld) (ix : List Nat) (n : Nat) (s : State) : (s.bumpBy f ix n).pair = s.pair := State.wr_pair_eq _ _ _ _
@[simp] theorem State.bumpBy_answers_eq (f : Fld) (ix : List Nat) (n : Nat) (s : State) : (s.bumpBy f ix n).answers = s.answers := State.wr_answers_eq _ _ _ _
@[simp] theorem State.bumpBy_mem_eq (f : Fld) (ix : List Nat) (n : Nat) (s : State) : (s.bumpBy f ix n).mem = s.mem := State.wr_mem_eq _ _ _ _
@[simp] theorem State.bumpBy_poison_eq (f : Fld) (ix : List Nat) (n : Nat) (s : State) : (s.bumpBy f ix n).poison = s.poison := State.wr_poison_eq _ _ _ _
@[simp] theorem State.bumpBy_ras_eq (f : Fld) (ix : List Nat) (n : Nat) (s : State) : (s.bumpBy f ix n).ras = s.ras := State.wr_ras_eq _ _ _ _
@[simp] theorem State.bumpBy_sram_eq (f : Fld) (ix : List Nat) (n : Nat) (s : State) : (s.bumpBy f ix n).sram = s.sram := State.wr_sram_eq _ _ _ _
@[simp] theorem State.bumpBy_hif_eq (f : Fld) (ix : List Nat) (n : Nat) (s : State) : (s.bumpBy f ix n).hif = s.hif := State.wr_hif_eq _ _ _ _
@[simp] theorem State.bumpBy_pkg_eq (f : Fld) (ix : List Nat) (n : Nat) (s : State) : (s.bumpBy f ix n).pkg = s.pkg := State.wr_pkg_eq _ _ _ _
@[simp] theorem State.bumpBy_cores_eq (f : Fld) (ix : List Nat) (n : Nat) (s : State) : (s.bumpBy f ix n).cores = s.cores := State.wr_cores_eq _ _ _ _
@[simp] theorem State.bumpBy_clusters_eq (f : Fld) (ix : List Nat) (n : Nat) (s : State) : (s.bumpBy f ix n).clusters = s.clusters := State.wr_clusters_eq _ _ _ _
@[simp] theorem State.bumpBy_spm_eq (f : Fld) (ix : List Nat) (n : Nat) (s : State) : (s.bumpBy f ix n).spm = s.spm := State.wr_spm_eq _ _ _ _
@[simp] theorem State.bumpBy_csram_eq (f : Fld) (ix : List Nat) (n : Nat) (s : State) : (s.bumpBy f ix n).csram = s.csram := State.wr_csram_eq _ _ _ _
@[simp] theorem State.bumpBy_flying_eq (f : Fld) (ix : List Nat) (n : Nat) (s : State) : (s.bumpBy f ix n).flying = s.flying := State.wr_flying_eq _ _ _ _
@[simp] theorem State.bumpBy_qpe_eq (f : Fld) (ix : List Nat) (n : Nat) (s : State) : (s.bumpBy f ix n).qpe = s.qpe := State.wr_qpe_eq _ _ _ _
@[simp] theorem State.bumpBy_cdc_eq (f : Fld) (ix : List Nat) (n : Nat) (s : State) : (s.bumpBy f ix n).cdc = s.cdc := State.wr_cdc_eq _ _ _ _
@[simp] theorem State.bumpBy_clt_eq (f : Fld) (ix : List Nat) (n : Nat) (s : State) : (s.bumpBy f ix n).clt = s.clt := State.wr_clt_eq _ _ _ _
@[simp] theorem State.bumpBy_gth_eq (f : Fld) (ix : List Nat) (n : Nat) (s : State) : (s.bumpBy f ix n).gth = s.gth := State.wr_gth_eq _ _ _ _
@[simp] theorem State.bumpBy_images_eq (f : Fld) (ix : List Nat) (n : Nat) (s : State) : (s.bumpBy f ix n).images = s.images := State.wr_images_eq _ _ _ _
@[simp] theorem State.bumpBy_sec_eq (f : Fld) (ix : List Nat) (n : Nat) (s : State) : (s.bumpBy f ix n).sec = s.sec := State.wr_sec_eq _ _ _ _
@[simp] theorem State.bumpBy_flash_eq (f : Fld) (ix : List Nat) (n : Nat) (s : State) : (s.bumpBy f ix n).flash = s.flash := State.wr_flash_eq _ _ _ _

/-! A counter. -/

@[simp] theorem State.bump_pending_eq (f : Fld) (ix : List Nat) (s : State) : (s.bump f ix).pending = s.pending := State.wr_pending_eq _ _ _ _
@[simp] theorem State.bump_fresh_eq (f : Fld) (ix : List Nat) (s : State) : (s.bump f ix).fresh = s.fresh := State.wr_fresh_eq _ _ _ _
@[simp] theorem State.bump_now_eq (f : Fld) (ix : List Nat) (s : State) : (s.bump f ix).now = s.now := State.wr_now_eq _ _ _ _
@[simp] theorem State.bump_out_eq (f : Fld) (ix : List Nat) (s : State) : (s.bump f ix).out = s.out := State.wr_out_eq _ _ _ _
@[simp] theorem State.bump_tim_eq (f : Fld) (ix : List Nat) (s : State) : (s.bump f ix).tim = s.tim := State.wr_tim_eq _ _ _ _
@[simp] theorem State.bump_ports_eq (f : Fld) (ix : List Nat) (s : State) : (s.bump f ix).ports = s.ports := State.wr_ports_eq _ _ _ _
@[simp] theorem State.bump_sw_eq (f : Fld) (ix : List Nat) (s : State) : (s.bump f ix).sw = s.sw := State.wr_sw_eq _ _ _ _
@[simp] theorem State.bump_edgeWin_eq (f : Fld) (ix : List Nat) (s : State) : (s.bump f ix).edgeWin = s.edgeWin := State.wr_edgeWin_eq _ _ _ _
@[simp] theorem State.bump_trk_eq (f : Fld) (ix : List Nat) (s : State) : (s.bump f ix).trk = s.trk := State.wr_trk_eq _ _ _ _
@[simp] theorem State.bump_pool_eq (f : Fld) (ix : List Nat) (s : State) : (s.bump f ix).pool = s.pool := State.wr_pool_eq _ _ _ _
@[simp] theorem State.bump_coh_eq (f : Fld) (ix : List Nat) (s : State) : (s.bump f ix).coh = s.coh := State.wr_coh_eq _ _ _ _
@[simp] theorem State.bump_tier_eq (f : Fld) (ix : List Nat) (s : State) : (s.bump f ix).tier = s.tier := State.wr_tier_eq _ _ _ _
@[simp] theorem State.bump_pair_eq (f : Fld) (ix : List Nat) (s : State) : (s.bump f ix).pair = s.pair := State.wr_pair_eq _ _ _ _
@[simp] theorem State.bump_answers_eq (f : Fld) (ix : List Nat) (s : State) : (s.bump f ix).answers = s.answers := State.wr_answers_eq _ _ _ _
@[simp] theorem State.bump_mem_eq (f : Fld) (ix : List Nat) (s : State) : (s.bump f ix).mem = s.mem := State.wr_mem_eq _ _ _ _
@[simp] theorem State.bump_poison_eq (f : Fld) (ix : List Nat) (s : State) : (s.bump f ix).poison = s.poison := State.wr_poison_eq _ _ _ _
@[simp] theorem State.bump_ras_eq (f : Fld) (ix : List Nat) (s : State) : (s.bump f ix).ras = s.ras := State.wr_ras_eq _ _ _ _
@[simp] theorem State.bump_sram_eq (f : Fld) (ix : List Nat) (s : State) : (s.bump f ix).sram = s.sram := State.wr_sram_eq _ _ _ _
@[simp] theorem State.bump_hif_eq (f : Fld) (ix : List Nat) (s : State) : (s.bump f ix).hif = s.hif := State.wr_hif_eq _ _ _ _
@[simp] theorem State.bump_pkg_eq (f : Fld) (ix : List Nat) (s : State) : (s.bump f ix).pkg = s.pkg := State.wr_pkg_eq _ _ _ _
@[simp] theorem State.bump_cores_eq (f : Fld) (ix : List Nat) (s : State) : (s.bump f ix).cores = s.cores := State.wr_cores_eq _ _ _ _
@[simp] theorem State.bump_clusters_eq (f : Fld) (ix : List Nat) (s : State) : (s.bump f ix).clusters = s.clusters := State.wr_clusters_eq _ _ _ _
@[simp] theorem State.bump_spm_eq (f : Fld) (ix : List Nat) (s : State) : (s.bump f ix).spm = s.spm := State.wr_spm_eq _ _ _ _
@[simp] theorem State.bump_csram_eq (f : Fld) (ix : List Nat) (s : State) : (s.bump f ix).csram = s.csram := State.wr_csram_eq _ _ _ _
@[simp] theorem State.bump_flying_eq (f : Fld) (ix : List Nat) (s : State) : (s.bump f ix).flying = s.flying := State.wr_flying_eq _ _ _ _
@[simp] theorem State.bump_qpe_eq (f : Fld) (ix : List Nat) (s : State) : (s.bump f ix).qpe = s.qpe := State.wr_qpe_eq _ _ _ _
@[simp] theorem State.bump_cdc_eq (f : Fld) (ix : List Nat) (s : State) : (s.bump f ix).cdc = s.cdc := State.wr_cdc_eq _ _ _ _
@[simp] theorem State.bump_clt_eq (f : Fld) (ix : List Nat) (s : State) : (s.bump f ix).clt = s.clt := State.wr_clt_eq _ _ _ _
@[simp] theorem State.bump_gth_eq (f : Fld) (ix : List Nat) (s : State) : (s.bump f ix).gth = s.gth := State.wr_gth_eq _ _ _ _
@[simp] theorem State.bump_images_eq (f : Fld) (ix : List Nat) (s : State) : (s.bump f ix).images = s.images := State.wr_images_eq _ _ _ _
@[simp] theorem State.bump_sec_eq (f : Fld) (ix : List Nat) (s : State) : (s.bump f ix).sec = s.sec := State.wr_sec_eq _ _ _ _
@[simp] theorem State.bump_flash_eq (f : Fld) (ix : List Nat) (s : State) : (s.bump f ix).flash = s.flash := State.wr_flash_eq _ _ _ _

/-! A free value taken. -/

@[simp] theorem State.drew_pending_eq  (s : State) : (s.drew).pending = s.pending := rfl
@[simp] theorem State.drew_now_eq  (s : State) : (s.drew).now = s.now := rfl
@[simp] theorem State.drew_out_eq  (s : State) : (s.drew).out = s.out := rfl
@[simp] theorem State.drew_regs_eq  (s : State) : (s.drew).regs = s.regs := rfl
@[simp] theorem State.drew_tim_eq  (s : State) : (s.drew).tim = s.tim := rfl
@[simp] theorem State.drew_ports_eq  (s : State) : (s.drew).ports = s.ports := rfl
@[simp] theorem State.drew_sw_eq  (s : State) : (s.drew).sw = s.sw := rfl
@[simp] theorem State.drew_edgeWin_eq  (s : State) : (s.drew).edgeWin = s.edgeWin := rfl
@[simp] theorem State.drew_trk_eq  (s : State) : (s.drew).trk = s.trk := rfl
@[simp] theorem State.drew_pool_eq  (s : State) : (s.drew).pool = s.pool := rfl
@[simp] theorem State.drew_coh_eq  (s : State) : (s.drew).coh = s.coh := rfl
@[simp] theorem State.drew_tier_eq  (s : State) : (s.drew).tier = s.tier := rfl
@[simp] theorem State.drew_pair_eq  (s : State) : (s.drew).pair = s.pair := rfl
@[simp] theorem State.drew_answers_eq  (s : State) : (s.drew).answers = s.answers := rfl
@[simp] theorem State.drew_mem_eq  (s : State) : (s.drew).mem = s.mem := rfl
@[simp] theorem State.drew_poison_eq  (s : State) : (s.drew).poison = s.poison := rfl
@[simp] theorem State.drew_ras_eq  (s : State) : (s.drew).ras = s.ras := rfl
@[simp] theorem State.drew_sram_eq  (s : State) : (s.drew).sram = s.sram := rfl
@[simp] theorem State.drew_hif_eq  (s : State) : (s.drew).hif = s.hif := rfl
@[simp] theorem State.drew_pkg_eq  (s : State) : (s.drew).pkg = s.pkg := rfl
@[simp] theorem State.drew_cores_eq  (s : State) : (s.drew).cores = s.cores := rfl
@[simp] theorem State.drew_clusters_eq  (s : State) : (s.drew).clusters = s.clusters := rfl
@[simp] theorem State.drew_spm_eq  (s : State) : (s.drew).spm = s.spm := rfl
@[simp] theorem State.drew_csram_eq  (s : State) : (s.drew).csram = s.csram := rfl
@[simp] theorem State.drew_flying_eq  (s : State) : (s.drew).flying = s.flying := rfl
@[simp] theorem State.drew_qpe_eq  (s : State) : (s.drew).qpe = s.qpe := rfl
@[simp] theorem State.drew_cdc_eq  (s : State) : (s.drew).cdc = s.cdc := rfl
@[simp] theorem State.drew_clt_eq  (s : State) : (s.drew).clt = s.clt := rfl
@[simp] theorem State.drew_gth_eq  (s : State) : (s.drew).gth = s.gth := rfl
@[simp] theorem State.drew_images_eq  (s : State) : (s.drew).images = s.images := rfl
@[simp] theorem State.drew_sec_eq  (s : State) : (s.drew).sec = s.sec := rfl
@[simp] theorem State.drew_flash_eq  (s : State) : (s.drew).flash = s.flash := rfl

/-! Something leaves the part. -/

@[simp] theorem State.emit_pending_eq (o : Out) (s : State) : (s.emit o).pending = s.pending := rfl
@[simp] theorem State.emit_fresh_eq (o : Out) (s : State) : (s.emit o).fresh = s.fresh := rfl
@[simp] theorem State.emit_now_eq (o : Out) (s : State) : (s.emit o).now = s.now := rfl
@[simp] theorem State.emit_regs_eq (o : Out) (s : State) : (s.emit o).regs = s.regs := rfl
@[simp] theorem State.emit_tim_eq (o : Out) (s : State) : (s.emit o).tim = s.tim := rfl
@[simp] theorem State.emit_ports_eq (o : Out) (s : State) : (s.emit o).ports = s.ports := rfl
@[simp] theorem State.emit_sw_eq (o : Out) (s : State) : (s.emit o).sw = s.sw := rfl
@[simp] theorem State.emit_edgeWin_eq (o : Out) (s : State) : (s.emit o).edgeWin = s.edgeWin := rfl
@[simp] theorem State.emit_trk_eq (o : Out) (s : State) : (s.emit o).trk = s.trk := rfl
@[simp] theorem State.emit_pool_eq (o : Out) (s : State) : (s.emit o).pool = s.pool := rfl
@[simp] theorem State.emit_coh_eq (o : Out) (s : State) : (s.emit o).coh = s.coh := rfl
@[simp] theorem State.emit_tier_eq (o : Out) (s : State) : (s.emit o).tier = s.tier := rfl
@[simp] theorem State.emit_pair_eq (o : Out) (s : State) : (s.emit o).pair = s.pair := rfl
@[simp] theorem State.emit_answers_eq (o : Out) (s : State) : (s.emit o).answers = s.answers := rfl
@[simp] theorem State.emit_mem_eq (o : Out) (s : State) : (s.emit o).mem = s.mem := rfl
@[simp] theorem State.emit_poison_eq (o : Out) (s : State) : (s.emit o).poison = s.poison := rfl
@[simp] theorem State.emit_ras_eq (o : Out) (s : State) : (s.emit o).ras = s.ras := rfl
@[simp] theorem State.emit_sram_eq (o : Out) (s : State) : (s.emit o).sram = s.sram := rfl
@[simp] theorem State.emit_hif_eq (o : Out) (s : State) : (s.emit o).hif = s.hif := rfl
@[simp] theorem State.emit_pkg_eq (o : Out) (s : State) : (s.emit o).pkg = s.pkg := rfl
@[simp] theorem State.emit_cores_eq (o : Out) (s : State) : (s.emit o).cores = s.cores := rfl
@[simp] theorem State.emit_clusters_eq (o : Out) (s : State) : (s.emit o).clusters = s.clusters := rfl
@[simp] theorem State.emit_spm_eq (o : Out) (s : State) : (s.emit o).spm = s.spm := rfl
@[simp] theorem State.emit_csram_eq (o : Out) (s : State) : (s.emit o).csram = s.csram := rfl
@[simp] theorem State.emit_flying_eq (o : Out) (s : State) : (s.emit o).flying = s.flying := rfl
@[simp] theorem State.emit_qpe_eq (o : Out) (s : State) : (s.emit o).qpe = s.qpe := rfl
@[simp] theorem State.emit_cdc_eq (o : Out) (s : State) : (s.emit o).cdc = s.cdc := rfl
@[simp] theorem State.emit_clt_eq (o : Out) (s : State) : (s.emit o).clt = s.clt := rfl
@[simp] theorem State.emit_gth_eq (o : Out) (s : State) : (s.emit o).gth = s.gth := rfl
@[simp] theorem State.emit_images_eq (o : Out) (s : State) : (s.emit o).images = s.images := rfl
@[simp] theorem State.emit_sec_eq (o : Out) (s : State) : (s.emit o).sec = s.sec := rfl
@[simp] theorem State.emit_flash_eq (o : Out) (s : State) : (s.emit o).flash = s.flash := rfl

/-! An interrupt. -/

@[simp] theorem State.msix_pending_eq (fn vec : Nat) (s : State) : (s.msix fn vec).pending = s.pending := ((Told.refl s).msix _ _).pending_eq
@[simp] theorem State.msix_fresh_eq (fn vec : Nat) (s : State) : (s.msix fn vec).fresh = s.fresh := ((Told.refl s).msix _ _).fresh_eq
@[simp] theorem State.msix_now_eq (fn vec : Nat) (s : State) : (s.msix fn vec).now = s.now := ((Told.refl s).msix _ _).now_eq
@[simp] theorem State.msix_tim_eq (fn vec : Nat) (s : State) : (s.msix fn vec).tim = s.tim := ((Told.refl s).msix _ _).tim_eq
@[simp] theorem State.msix_ports_eq (fn vec : Nat) (s : State) : (s.msix fn vec).ports = s.ports := ((Told.refl s).msix _ _).ports_eq
@[simp] theorem State.msix_sw_eq (fn vec : Nat) (s : State) : (s.msix fn vec).sw = s.sw := ((Told.refl s).msix _ _).sw_eq
@[simp] theorem State.msix_edgeWin_eq (fn vec : Nat) (s : State) : (s.msix fn vec).edgeWin = s.edgeWin := ((Told.refl s).msix _ _).edgeWin_eq
@[simp] theorem State.msix_trk_eq (fn vec : Nat) (s : State) : (s.msix fn vec).trk = s.trk := ((Told.refl s).msix _ _).trk_eq
@[simp] theorem State.msix_pool_eq (fn vec : Nat) (s : State) : (s.msix fn vec).pool = s.pool := ((Told.refl s).msix _ _).pool_eq
@[simp] theorem State.msix_coh_eq (fn vec : Nat) (s : State) : (s.msix fn vec).coh = s.coh := ((Told.refl s).msix _ _).coh_eq
@[simp] theorem State.msix_tier_eq (fn vec : Nat) (s : State) : (s.msix fn vec).tier = s.tier := ((Told.refl s).msix _ _).tier_eq
@[simp] theorem State.msix_pair_eq (fn vec : Nat) (s : State) : (s.msix fn vec).pair = s.pair := ((Told.refl s).msix _ _).pair_eq
@[simp] theorem State.msix_answers_eq (fn vec : Nat) (s : State) : (s.msix fn vec).answers = s.answers := ((Told.refl s).msix _ _).answers_eq
@[simp] theorem State.msix_mem_eq (fn vec : Nat) (s : State) : (s.msix fn vec).mem = s.mem := ((Told.refl s).msix _ _).mem_eq
@[simp] theorem State.msix_poison_eq (fn vec : Nat) (s : State) : (s.msix fn vec).poison = s.poison := ((Told.refl s).msix _ _).poison_eq
@[simp] theorem State.msix_ras_eq (fn vec : Nat) (s : State) : (s.msix fn vec).ras = s.ras := ((Told.refl s).msix _ _).ras_eq
@[simp] theorem State.msix_sram_eq (fn vec : Nat) (s : State) : (s.msix fn vec).sram = s.sram := ((Told.refl s).msix _ _).sram_eq
@[simp] theorem State.msix_pkg_eq (fn vec : Nat) (s : State) : (s.msix fn vec).pkg = s.pkg := ((Told.refl s).msix _ _).pkg_eq
@[simp] theorem State.msix_cores_eq (fn vec : Nat) (s : State) : (s.msix fn vec).cores = s.cores := ((Told.refl s).msix _ _).cores_eq
@[simp] theorem State.msix_clusters_eq (fn vec : Nat) (s : State) : (s.msix fn vec).clusters = s.clusters := ((Told.refl s).msix _ _).clusters_eq
@[simp] theorem State.msix_spm_eq (fn vec : Nat) (s : State) : (s.msix fn vec).spm = s.spm := ((Told.refl s).msix _ _).spm_eq
@[simp] theorem State.msix_csram_eq (fn vec : Nat) (s : State) : (s.msix fn vec).csram = s.csram := ((Told.refl s).msix _ _).csram_eq
@[simp] theorem State.msix_flying_eq (fn vec : Nat) (s : State) : (s.msix fn vec).flying = s.flying := ((Told.refl s).msix _ _).flying_eq
@[simp] theorem State.msix_qpe_eq (fn vec : Nat) (s : State) : (s.msix fn vec).qpe = s.qpe := ((Told.refl s).msix _ _).qpe_eq
@[simp] theorem State.msix_cdc_eq (fn vec : Nat) (s : State) : (s.msix fn vec).cdc = s.cdc := ((Told.refl s).msix _ _).cdc_eq
@[simp] theorem State.msix_clt_eq (fn vec : Nat) (s : State) : (s.msix fn vec).clt = s.clt := ((Told.refl s).msix _ _).clt_eq
@[simp] theorem State.msix_gth_eq (fn vec : Nat) (s : State) : (s.msix fn vec).gth = s.gth := ((Told.refl s).msix _ _).gth_eq
@[simp] theorem State.msix_images_eq (fn vec : Nat) (s : State) : (s.msix fn vec).images = s.images := ((Told.refl s).msix _ _).images_eq
@[simp] theorem State.msix_sec_eq (fn vec : Nat) (s : State) : (s.msix fn vec).sec = s.sec := ((Told.refl s).msix _ _).sec_eq
@[simp] theorem State.msix_flash_eq (fn vec : Nat) (s : State) : (s.msix fn vec).flash = s.flash := ((Told.refl s).msix _ _).flash_eq

theorem State.rd_msix (fn vec : Nat) (s : State) {g : Fld} (jx : List Nat) (hg : ¬ Reports g) : (s.msix fn vec).rd g jx = s.rd g jx :=
  ((Told.refl s).msix _ _).regs g jx hg

/-! An event. -/

@[simp] theorem State.event_pending_eq (blk b : Nat) (s : State) : (s.event blk b).pending = s.pending := ((Told.refl s).event _ _).pending_eq
@[simp] theorem State.event_fresh_eq (blk b : Nat) (s : State) : (s.event blk b).fresh = s.fresh := ((Told.refl s).event _ _).fresh_eq
@[simp] theorem State.event_now_eq (blk b : Nat) (s : State) : (s.event blk b).now = s.now := ((Told.refl s).event _ _).now_eq
@[simp] theorem State.event_tim_eq (blk b : Nat) (s : State) : (s.event blk b).tim = s.tim := ((Told.refl s).event _ _).tim_eq
@[simp] theorem State.event_ports_eq (blk b : Nat) (s : State) : (s.event blk b).ports = s.ports := ((Told.refl s).event _ _).ports_eq
@[simp] theorem State.event_sw_eq (blk b : Nat) (s : State) : (s.event blk b).sw = s.sw := ((Told.refl s).event _ _).sw_eq
@[simp] theorem State.event_edgeWin_eq (blk b : Nat) (s : State) : (s.event blk b).edgeWin = s.edgeWin := ((Told.refl s).event _ _).edgeWin_eq
@[simp] theorem State.event_trk_eq (blk b : Nat) (s : State) : (s.event blk b).trk = s.trk := ((Told.refl s).event _ _).trk_eq
@[simp] theorem State.event_pool_eq (blk b : Nat) (s : State) : (s.event blk b).pool = s.pool := ((Told.refl s).event _ _).pool_eq
@[simp] theorem State.event_coh_eq (blk b : Nat) (s : State) : (s.event blk b).coh = s.coh := ((Told.refl s).event _ _).coh_eq
@[simp] theorem State.event_tier_eq (blk b : Nat) (s : State) : (s.event blk b).tier = s.tier := ((Told.refl s).event _ _).tier_eq
@[simp] theorem State.event_pair_eq (blk b : Nat) (s : State) : (s.event blk b).pair = s.pair := ((Told.refl s).event _ _).pair_eq
@[simp] theorem State.event_answers_eq (blk b : Nat) (s : State) : (s.event blk b).answers = s.answers := ((Told.refl s).event _ _).answers_eq
@[simp] theorem State.event_mem_eq (blk b : Nat) (s : State) : (s.event blk b).mem = s.mem := ((Told.refl s).event _ _).mem_eq
@[simp] theorem State.event_poison_eq (blk b : Nat) (s : State) : (s.event blk b).poison = s.poison := ((Told.refl s).event _ _).poison_eq
@[simp] theorem State.event_ras_eq (blk b : Nat) (s : State) : (s.event blk b).ras = s.ras := ((Told.refl s).event _ _).ras_eq
@[simp] theorem State.event_sram_eq (blk b : Nat) (s : State) : (s.event blk b).sram = s.sram := ((Told.refl s).event _ _).sram_eq
@[simp] theorem State.event_pkg_eq (blk b : Nat) (s : State) : (s.event blk b).pkg = s.pkg := ((Told.refl s).event _ _).pkg_eq
@[simp] theorem State.event_cores_eq (blk b : Nat) (s : State) : (s.event blk b).cores = s.cores := ((Told.refl s).event _ _).cores_eq
@[simp] theorem State.event_clusters_eq (blk b : Nat) (s : State) : (s.event blk b).clusters = s.clusters := ((Told.refl s).event _ _).clusters_eq
@[simp] theorem State.event_spm_eq (blk b : Nat) (s : State) : (s.event blk b).spm = s.spm := ((Told.refl s).event _ _).spm_eq
@[simp] theorem State.event_csram_eq (blk b : Nat) (s : State) : (s.event blk b).csram = s.csram := ((Told.refl s).event _ _).csram_eq
@[simp] theorem State.event_flying_eq (blk b : Nat) (s : State) : (s.event blk b).flying = s.flying := ((Told.refl s).event _ _).flying_eq
@[simp] theorem State.event_qpe_eq (blk b : Nat) (s : State) : (s.event blk b).qpe = s.qpe := ((Told.refl s).event _ _).qpe_eq
@[simp] theorem State.event_cdc_eq (blk b : Nat) (s : State) : (s.event blk b).cdc = s.cdc := ((Told.refl s).event _ _).cdc_eq
@[simp] theorem State.event_clt_eq (blk b : Nat) (s : State) : (s.event blk b).clt = s.clt := ((Told.refl s).event _ _).clt_eq
@[simp] theorem State.event_gth_eq (blk b : Nat) (s : State) : (s.event blk b).gth = s.gth := ((Told.refl s).event _ _).gth_eq
@[simp] theorem State.event_images_eq (blk b : Nat) (s : State) : (s.event blk b).images = s.images := ((Told.refl s).event _ _).images_eq
@[simp] theorem State.event_sec_eq (blk b : Nat) (s : State) : (s.event blk b).sec = s.sec := ((Told.refl s).event _ _).sec_eq
@[simp] theorem State.event_flash_eq (blk b : Nat) (s : State) : (s.event blk b).flash = s.flash := ((Told.refl s).event _ _).flash_eq

theorem State.rd_event (blk b : Nat) (s : State) {g : Fld} (jx : List Nat) (hg : ¬ Reports g) : (s.event blk b).rd g jx = s.rd g jx :=
  ((Told.refl s).event _ _).regs g jx hg

/-! A late launch. -/

@[simp] theorem State.late_pending_eq  (s : State) : (s.late).pending = s.pending := ((Told.refl s).late).pending_eq
@[simp] theorem State.late_fresh_eq  (s : State) : (s.late).fresh = s.fresh := ((Told.refl s).late).fresh_eq
@[simp] theorem State.late_now_eq  (s : State) : (s.late).now = s.now := ((Told.refl s).late).now_eq
@[simp] theorem State.late_tim_eq  (s : State) : (s.late).tim = s.tim := ((Told.refl s).late).tim_eq
@[simp] theorem State.late_ports_eq  (s : State) : (s.late).ports = s.ports := ((Told.refl s).late).ports_eq
@[simp] theorem State.late_sw_eq  (s : State) : (s.late).sw = s.sw := ((Told.refl s).late).sw_eq
@[simp] theorem State.late_edgeWin_eq  (s : State) : (s.late).edgeWin = s.edgeWin := ((Told.refl s).late).edgeWin_eq
@[simp] theorem State.late_trk_eq  (s : State) : (s.late).trk = s.trk := ((Told.refl s).late).trk_eq
@[simp] theorem State.late_pool_eq  (s : State) : (s.late).pool = s.pool := ((Told.refl s).late).pool_eq
@[simp] theorem State.late_coh_eq  (s : State) : (s.late).coh = s.coh := ((Told.refl s).late).coh_eq
@[simp] theorem State.late_tier_eq  (s : State) : (s.late).tier = s.tier := ((Told.refl s).late).tier_eq
@[simp] theorem State.late_pair_eq  (s : State) : (s.late).pair = s.pair := ((Told.refl s).late).pair_eq
@[simp] theorem State.late_answers_eq  (s : State) : (s.late).answers = s.answers := ((Told.refl s).late).answers_eq
@[simp] theorem State.late_mem_eq  (s : State) : (s.late).mem = s.mem := ((Told.refl s).late).mem_eq
@[simp] theorem State.late_poison_eq  (s : State) : (s.late).poison = s.poison := ((Told.refl s).late).poison_eq
@[simp] theorem State.late_ras_eq  (s : State) : (s.late).ras = s.ras := ((Told.refl s).late).ras_eq
@[simp] theorem State.late_sram_eq  (s : State) : (s.late).sram = s.sram := ((Told.refl s).late).sram_eq
@[simp] theorem State.late_pkg_eq  (s : State) : (s.late).pkg = s.pkg := ((Told.refl s).late).pkg_eq
@[simp] theorem State.late_cores_eq  (s : State) : (s.late).cores = s.cores := ((Told.refl s).late).cores_eq
@[simp] theorem State.late_clusters_eq  (s : State) : (s.late).clusters = s.clusters := ((Told.refl s).late).clusters_eq
@[simp] theorem State.late_spm_eq  (s : State) : (s.late).spm = s.spm := ((Told.refl s).late).spm_eq
@[simp] theorem State.late_csram_eq  (s : State) : (s.late).csram = s.csram := ((Told.refl s).late).csram_eq
@[simp] theorem State.late_flying_eq  (s : State) : (s.late).flying = s.flying := ((Told.refl s).late).flying_eq
@[simp] theorem State.late_qpe_eq  (s : State) : (s.late).qpe = s.qpe := ((Told.refl s).late).qpe_eq
@[simp] theorem State.late_cdc_eq  (s : State) : (s.late).cdc = s.cdc := ((Told.refl s).late).cdc_eq
@[simp] theorem State.late_clt_eq  (s : State) : (s.late).clt = s.clt := ((Told.refl s).late).clt_eq
@[simp] theorem State.late_gth_eq  (s : State) : (s.late).gth = s.gth := ((Told.refl s).late).gth_eq
@[simp] theorem State.late_images_eq  (s : State) : (s.late).images = s.images := ((Told.refl s).late).images_eq
@[simp] theorem State.late_sec_eq  (s : State) : (s.late).sec = s.sec := ((Told.refl s).late).sec_eq
@[simp] theorem State.late_flash_eq  (s : State) : (s.late).flash = s.flash := ((Told.refl s).late).flash_eq

theorem State.rd_late  (s : State) {g : Fld} (jx : List Nat) (hg : ¬ Reports g) : (s.late).rd g jx = s.rd g jx :=
  ((Told.refl s).late).regs g jx hg

/-! A launch that may be late. -/

@[simp] theorem State.lateIf_pending_eq (target at_ : Nat) (s : State) : (s.lateIf target at_).pending = s.pending := ((Told.refl s).lateIf _ _).pending_eq
@[simp] theorem State.lateIf_fresh_eq (target at_ : Nat) (s : State) : (s.lateIf target at_).fresh = s.fresh := ((Told.refl s).lateIf _ _).fresh_eq
@[simp] theorem State.lateIf_now_eq (target at_ : Nat) (s : State) : (s.lateIf target at_).now = s.now := ((Told.refl s).lateIf _ _).now_eq
@[simp] theorem State.lateIf_tim_eq (target at_ : Nat) (s : State) : (s.lateIf target at_).tim = s.tim := ((Told.refl s).lateIf _ _).tim_eq
@[simp] theorem State.lateIf_ports_eq (target at_ : Nat) (s : State) : (s.lateIf target at_).ports = s.ports := ((Told.refl s).lateIf _ _).ports_eq
@[simp] theorem State.lateIf_sw_eq (target at_ : Nat) (s : State) : (s.lateIf target at_).sw = s.sw := ((Told.refl s).lateIf _ _).sw_eq
@[simp] theorem State.lateIf_edgeWin_eq (target at_ : Nat) (s : State) : (s.lateIf target at_).edgeWin = s.edgeWin := ((Told.refl s).lateIf _ _).edgeWin_eq
@[simp] theorem State.lateIf_trk_eq (target at_ : Nat) (s : State) : (s.lateIf target at_).trk = s.trk := ((Told.refl s).lateIf _ _).trk_eq
@[simp] theorem State.lateIf_pool_eq (target at_ : Nat) (s : State) : (s.lateIf target at_).pool = s.pool := ((Told.refl s).lateIf _ _).pool_eq
@[simp] theorem State.lateIf_coh_eq (target at_ : Nat) (s : State) : (s.lateIf target at_).coh = s.coh := ((Told.refl s).lateIf _ _).coh_eq
@[simp] theorem State.lateIf_tier_eq (target at_ : Nat) (s : State) : (s.lateIf target at_).tier = s.tier := ((Told.refl s).lateIf _ _).tier_eq
@[simp] theorem State.lateIf_pair_eq (target at_ : Nat) (s : State) : (s.lateIf target at_).pair = s.pair := ((Told.refl s).lateIf _ _).pair_eq
@[simp] theorem State.lateIf_answers_eq (target at_ : Nat) (s : State) : (s.lateIf target at_).answers = s.answers := ((Told.refl s).lateIf _ _).answers_eq
@[simp] theorem State.lateIf_mem_eq (target at_ : Nat) (s : State) : (s.lateIf target at_).mem = s.mem := ((Told.refl s).lateIf _ _).mem_eq
@[simp] theorem State.lateIf_poison_eq (target at_ : Nat) (s : State) : (s.lateIf target at_).poison = s.poison := ((Told.refl s).lateIf _ _).poison_eq
@[simp] theorem State.lateIf_ras_eq (target at_ : Nat) (s : State) : (s.lateIf target at_).ras = s.ras := ((Told.refl s).lateIf _ _).ras_eq
@[simp] theorem State.lateIf_sram_eq (target at_ : Nat) (s : State) : (s.lateIf target at_).sram = s.sram := ((Told.refl s).lateIf _ _).sram_eq
@[simp] theorem State.lateIf_pkg_eq (target at_ : Nat) (s : State) : (s.lateIf target at_).pkg = s.pkg := ((Told.refl s).lateIf _ _).pkg_eq
@[simp] theorem State.lateIf_cores_eq (target at_ : Nat) (s : State) : (s.lateIf target at_).cores = s.cores := ((Told.refl s).lateIf _ _).cores_eq
@[simp] theorem State.lateIf_clusters_eq (target at_ : Nat) (s : State) : (s.lateIf target at_).clusters = s.clusters := ((Told.refl s).lateIf _ _).clusters_eq
@[simp] theorem State.lateIf_spm_eq (target at_ : Nat) (s : State) : (s.lateIf target at_).spm = s.spm := ((Told.refl s).lateIf _ _).spm_eq
@[simp] theorem State.lateIf_csram_eq (target at_ : Nat) (s : State) : (s.lateIf target at_).csram = s.csram := ((Told.refl s).lateIf _ _).csram_eq
@[simp] theorem State.lateIf_flying_eq (target at_ : Nat) (s : State) : (s.lateIf target at_).flying = s.flying := ((Told.refl s).lateIf _ _).flying_eq
@[simp] theorem State.lateIf_qpe_eq (target at_ : Nat) (s : State) : (s.lateIf target at_).qpe = s.qpe := ((Told.refl s).lateIf _ _).qpe_eq
@[simp] theorem State.lateIf_cdc_eq (target at_ : Nat) (s : State) : (s.lateIf target at_).cdc = s.cdc := ((Told.refl s).lateIf _ _).cdc_eq
@[simp] theorem State.lateIf_clt_eq (target at_ : Nat) (s : State) : (s.lateIf target at_).clt = s.clt := ((Told.refl s).lateIf _ _).clt_eq
@[simp] theorem State.lateIf_gth_eq (target at_ : Nat) (s : State) : (s.lateIf target at_).gth = s.gth := ((Told.refl s).lateIf _ _).gth_eq
@[simp] theorem State.lateIf_images_eq (target at_ : Nat) (s : State) : (s.lateIf target at_).images = s.images := ((Told.refl s).lateIf _ _).images_eq
@[simp] theorem State.lateIf_sec_eq (target at_ : Nat) (s : State) : (s.lateIf target at_).sec = s.sec := ((Told.refl s).lateIf _ _).sec_eq
@[simp] theorem State.lateIf_flash_eq (target at_ : Nat) (s : State) : (s.lateIf target at_).flash = s.flash := ((Told.refl s).lateIf _ _).flash_eq

theorem State.rd_lateIf (target at_ : Nat) (s : State) {g : Fld} (jx : List Nat) (hg : ¬ Reports g) : (s.lateIf target at_).rd g jx = s.rd g jx :=
  ((Told.refl s).lateIf _ _).regs g jx hg

/-! A log record. -/

@[simp] theorem State.ringPut_pending_eq (ft : Nat) (c : Cls) (blk : Nat) (st : Status) (cause source info : Nat) (s : State) : (s.ringPut ft c blk st cause source info).pending = s.pending := ((Told.refl s).ringPut _ _ _ _ _ _ _).pending_eq
@[simp] theorem State.ringPut_fresh_eq (ft : Nat) (c : Cls) (blk : Nat) (st : Status) (cause source info : Nat) (s : State) : (s.ringPut ft c blk st cause source info).fresh = s.fresh := ((Told.refl s).ringPut _ _ _ _ _ _ _).fresh_eq
@[simp] theorem State.ringPut_now_eq (ft : Nat) (c : Cls) (blk : Nat) (st : Status) (cause source info : Nat) (s : State) : (s.ringPut ft c blk st cause source info).now = s.now := ((Told.refl s).ringPut _ _ _ _ _ _ _).now_eq
@[simp] theorem State.ringPut_tim_eq (ft : Nat) (c : Cls) (blk : Nat) (st : Status) (cause source info : Nat) (s : State) : (s.ringPut ft c blk st cause source info).tim = s.tim := ((Told.refl s).ringPut _ _ _ _ _ _ _).tim_eq
@[simp] theorem State.ringPut_ports_eq (ft : Nat) (c : Cls) (blk : Nat) (st : Status) (cause source info : Nat) (s : State) : (s.ringPut ft c blk st cause source info).ports = s.ports := ((Told.refl s).ringPut _ _ _ _ _ _ _).ports_eq
@[simp] theorem State.ringPut_sw_eq (ft : Nat) (c : Cls) (blk : Nat) (st : Status) (cause source info : Nat) (s : State) : (s.ringPut ft c blk st cause source info).sw = s.sw := ((Told.refl s).ringPut _ _ _ _ _ _ _).sw_eq
@[simp] theorem State.ringPut_edgeWin_eq (ft : Nat) (c : Cls) (blk : Nat) (st : Status) (cause source info : Nat) (s : State) : (s.ringPut ft c blk st cause source info).edgeWin = s.edgeWin := ((Told.refl s).ringPut _ _ _ _ _ _ _).edgeWin_eq
@[simp] theorem State.ringPut_trk_eq (ft : Nat) (c : Cls) (blk : Nat) (st : Status) (cause source info : Nat) (s : State) : (s.ringPut ft c blk st cause source info).trk = s.trk := ((Told.refl s).ringPut _ _ _ _ _ _ _).trk_eq
@[simp] theorem State.ringPut_pool_eq (ft : Nat) (c : Cls) (blk : Nat) (st : Status) (cause source info : Nat) (s : State) : (s.ringPut ft c blk st cause source info).pool = s.pool := ((Told.refl s).ringPut _ _ _ _ _ _ _).pool_eq
@[simp] theorem State.ringPut_coh_eq (ft : Nat) (c : Cls) (blk : Nat) (st : Status) (cause source info : Nat) (s : State) : (s.ringPut ft c blk st cause source info).coh = s.coh := ((Told.refl s).ringPut _ _ _ _ _ _ _).coh_eq
@[simp] theorem State.ringPut_tier_eq (ft : Nat) (c : Cls) (blk : Nat) (st : Status) (cause source info : Nat) (s : State) : (s.ringPut ft c blk st cause source info).tier = s.tier := ((Told.refl s).ringPut _ _ _ _ _ _ _).tier_eq
@[simp] theorem State.ringPut_pair_eq (ft : Nat) (c : Cls) (blk : Nat) (st : Status) (cause source info : Nat) (s : State) : (s.ringPut ft c blk st cause source info).pair = s.pair := ((Told.refl s).ringPut _ _ _ _ _ _ _).pair_eq
@[simp] theorem State.ringPut_answers_eq (ft : Nat) (c : Cls) (blk : Nat) (st : Status) (cause source info : Nat) (s : State) : (s.ringPut ft c blk st cause source info).answers = s.answers := ((Told.refl s).ringPut _ _ _ _ _ _ _).answers_eq
@[simp] theorem State.ringPut_mem_eq (ft : Nat) (c : Cls) (blk : Nat) (st : Status) (cause source info : Nat) (s : State) : (s.ringPut ft c blk st cause source info).mem = s.mem := ((Told.refl s).ringPut _ _ _ _ _ _ _).mem_eq
@[simp] theorem State.ringPut_poison_eq (ft : Nat) (c : Cls) (blk : Nat) (st : Status) (cause source info : Nat) (s : State) : (s.ringPut ft c blk st cause source info).poison = s.poison := ((Told.refl s).ringPut _ _ _ _ _ _ _).poison_eq
@[simp] theorem State.ringPut_ras_eq (ft : Nat) (c : Cls) (blk : Nat) (st : Status) (cause source info : Nat) (s : State) : (s.ringPut ft c blk st cause source info).ras = s.ras := ((Told.refl s).ringPut _ _ _ _ _ _ _).ras_eq
@[simp] theorem State.ringPut_sram_eq (ft : Nat) (c : Cls) (blk : Nat) (st : Status) (cause source info : Nat) (s : State) : (s.ringPut ft c blk st cause source info).sram = s.sram := ((Told.refl s).ringPut _ _ _ _ _ _ _).sram_eq
@[simp] theorem State.ringPut_pkg_eq (ft : Nat) (c : Cls) (blk : Nat) (st : Status) (cause source info : Nat) (s : State) : (s.ringPut ft c blk st cause source info).pkg = s.pkg := ((Told.refl s).ringPut _ _ _ _ _ _ _).pkg_eq
@[simp] theorem State.ringPut_cores_eq (ft : Nat) (c : Cls) (blk : Nat) (st : Status) (cause source info : Nat) (s : State) : (s.ringPut ft c blk st cause source info).cores = s.cores := ((Told.refl s).ringPut _ _ _ _ _ _ _).cores_eq
@[simp] theorem State.ringPut_clusters_eq (ft : Nat) (c : Cls) (blk : Nat) (st : Status) (cause source info : Nat) (s : State) : (s.ringPut ft c blk st cause source info).clusters = s.clusters := ((Told.refl s).ringPut _ _ _ _ _ _ _).clusters_eq
@[simp] theorem State.ringPut_spm_eq (ft : Nat) (c : Cls) (blk : Nat) (st : Status) (cause source info : Nat) (s : State) : (s.ringPut ft c blk st cause source info).spm = s.spm := ((Told.refl s).ringPut _ _ _ _ _ _ _).spm_eq
@[simp] theorem State.ringPut_csram_eq (ft : Nat) (c : Cls) (blk : Nat) (st : Status) (cause source info : Nat) (s : State) : (s.ringPut ft c blk st cause source info).csram = s.csram := ((Told.refl s).ringPut _ _ _ _ _ _ _).csram_eq
@[simp] theorem State.ringPut_flying_eq (ft : Nat) (c : Cls) (blk : Nat) (st : Status) (cause source info : Nat) (s : State) : (s.ringPut ft c blk st cause source info).flying = s.flying := ((Told.refl s).ringPut _ _ _ _ _ _ _).flying_eq
@[simp] theorem State.ringPut_qpe_eq (ft : Nat) (c : Cls) (blk : Nat) (st : Status) (cause source info : Nat) (s : State) : (s.ringPut ft c blk st cause source info).qpe = s.qpe := ((Told.refl s).ringPut _ _ _ _ _ _ _).qpe_eq
@[simp] theorem State.ringPut_cdc_eq (ft : Nat) (c : Cls) (blk : Nat) (st : Status) (cause source info : Nat) (s : State) : (s.ringPut ft c blk st cause source info).cdc = s.cdc := ((Told.refl s).ringPut _ _ _ _ _ _ _).cdc_eq
@[simp] theorem State.ringPut_clt_eq (ft : Nat) (c : Cls) (blk : Nat) (st : Status) (cause source info : Nat) (s : State) : (s.ringPut ft c blk st cause source info).clt = s.clt := ((Told.refl s).ringPut _ _ _ _ _ _ _).clt_eq
@[simp] theorem State.ringPut_gth_eq (ft : Nat) (c : Cls) (blk : Nat) (st : Status) (cause source info : Nat) (s : State) : (s.ringPut ft c blk st cause source info).gth = s.gth := ((Told.refl s).ringPut _ _ _ _ _ _ _).gth_eq
@[simp] theorem State.ringPut_images_eq (ft : Nat) (c : Cls) (blk : Nat) (st : Status) (cause source info : Nat) (s : State) : (s.ringPut ft c blk st cause source info).images = s.images := ((Told.refl s).ringPut _ _ _ _ _ _ _).images_eq
@[simp] theorem State.ringPut_sec_eq (ft : Nat) (c : Cls) (blk : Nat) (st : Status) (cause source info : Nat) (s : State) : (s.ringPut ft c blk st cause source info).sec = s.sec := ((Told.refl s).ringPut _ _ _ _ _ _ _).sec_eq
@[simp] theorem State.ringPut_flash_eq (ft : Nat) (c : Cls) (blk : Nat) (st : Status) (cause source info : Nat) (s : State) : (s.ringPut ft c blk st cause source info).flash = s.flash := ((Told.refl s).ringPut _ _ _ _ _ _ _).flash_eq

theorem State.rd_ringPut (ft : Nat) (c : Cls) (blk : Nat) (st : Status) (cause source info : Nat) (s : State) {g : Fld} (jx : List Nat) (hg : ¬ Reports g) : (s.ringPut ft c blk st cause source info).rd g jx = s.rd g jx :=
  ((Told.refl s).ringPut _ _ _ _ _ _ _).regs g jx hg

/-! A contained error. -/

@[simp] theorem State.contained_pending_eq (at_ blk : Nat) (st : Status) (source info : Nat) (s : State) : (s.contained at_ blk st source info).pending = s.pending := ((Told.refl s).contained _ _ _ _ _).pending_eq
@[simp] theorem State.contained_fresh_eq (at_ blk : Nat) (st : Status) (source info : Nat) (s : State) : (s.contained at_ blk st source info).fresh = s.fresh := ((Told.refl s).contained _ _ _ _ _).fresh_eq
@[simp] theorem State.contained_now_eq (at_ blk : Nat) (st : Status) (source info : Nat) (s : State) : (s.contained at_ blk st source info).now = s.now := ((Told.refl s).contained _ _ _ _ _).now_eq
@[simp] theorem State.contained_tim_eq (at_ blk : Nat) (st : Status) (source info : Nat) (s : State) : (s.contained at_ blk st source info).tim = s.tim := ((Told.refl s).contained _ _ _ _ _).tim_eq
@[simp] theorem State.contained_ports_eq (at_ blk : Nat) (st : Status) (source info : Nat) (s : State) : (s.contained at_ blk st source info).ports = s.ports := ((Told.refl s).contained _ _ _ _ _).ports_eq
@[simp] theorem State.contained_sw_eq (at_ blk : Nat) (st : Status) (source info : Nat) (s : State) : (s.contained at_ blk st source info).sw = s.sw := ((Told.refl s).contained _ _ _ _ _).sw_eq
@[simp] theorem State.contained_edgeWin_eq (at_ blk : Nat) (st : Status) (source info : Nat) (s : State) : (s.contained at_ blk st source info).edgeWin = s.edgeWin := ((Told.refl s).contained _ _ _ _ _).edgeWin_eq
@[simp] theorem State.contained_trk_eq (at_ blk : Nat) (st : Status) (source info : Nat) (s : State) : (s.contained at_ blk st source info).trk = s.trk := ((Told.refl s).contained _ _ _ _ _).trk_eq
@[simp] theorem State.contained_pool_eq (at_ blk : Nat) (st : Status) (source info : Nat) (s : State) : (s.contained at_ blk st source info).pool = s.pool := ((Told.refl s).contained _ _ _ _ _).pool_eq
@[simp] theorem State.contained_coh_eq (at_ blk : Nat) (st : Status) (source info : Nat) (s : State) : (s.contained at_ blk st source info).coh = s.coh := ((Told.refl s).contained _ _ _ _ _).coh_eq
@[simp] theorem State.contained_tier_eq (at_ blk : Nat) (st : Status) (source info : Nat) (s : State) : (s.contained at_ blk st source info).tier = s.tier := ((Told.refl s).contained _ _ _ _ _).tier_eq
@[simp] theorem State.contained_pair_eq (at_ blk : Nat) (st : Status) (source info : Nat) (s : State) : (s.contained at_ blk st source info).pair = s.pair := ((Told.refl s).contained _ _ _ _ _).pair_eq
@[simp] theorem State.contained_answers_eq (at_ blk : Nat) (st : Status) (source info : Nat) (s : State) : (s.contained at_ blk st source info).answers = s.answers := ((Told.refl s).contained _ _ _ _ _).answers_eq
@[simp] theorem State.contained_mem_eq (at_ blk : Nat) (st : Status) (source info : Nat) (s : State) : (s.contained at_ blk st source info).mem = s.mem := ((Told.refl s).contained _ _ _ _ _).mem_eq
@[simp] theorem State.contained_poison_eq (at_ blk : Nat) (st : Status) (source info : Nat) (s : State) : (s.contained at_ blk st source info).poison = s.poison := ((Told.refl s).contained _ _ _ _ _).poison_eq
@[simp] theorem State.contained_ras_eq (at_ blk : Nat) (st : Status) (source info : Nat) (s : State) : (s.contained at_ blk st source info).ras = s.ras := ((Told.refl s).contained _ _ _ _ _).ras_eq
@[simp] theorem State.contained_sram_eq (at_ blk : Nat) (st : Status) (source info : Nat) (s : State) : (s.contained at_ blk st source info).sram = s.sram := ((Told.refl s).contained _ _ _ _ _).sram_eq
@[simp] theorem State.contained_pkg_eq (at_ blk : Nat) (st : Status) (source info : Nat) (s : State) : (s.contained at_ blk st source info).pkg = s.pkg := ((Told.refl s).contained _ _ _ _ _).pkg_eq
@[simp] theorem State.contained_cores_eq (at_ blk : Nat) (st : Status) (source info : Nat) (s : State) : (s.contained at_ blk st source info).cores = s.cores := ((Told.refl s).contained _ _ _ _ _).cores_eq
@[simp] theorem State.contained_clusters_eq (at_ blk : Nat) (st : Status) (source info : Nat) (s : State) : (s.contained at_ blk st source info).clusters = s.clusters := ((Told.refl s).contained _ _ _ _ _).clusters_eq
@[simp] theorem State.contained_spm_eq (at_ blk : Nat) (st : Status) (source info : Nat) (s : State) : (s.contained at_ blk st source info).spm = s.spm := ((Told.refl s).contained _ _ _ _ _).spm_eq
@[simp] theorem State.contained_csram_eq (at_ blk : Nat) (st : Status) (source info : Nat) (s : State) : (s.contained at_ blk st source info).csram = s.csram := ((Told.refl s).contained _ _ _ _ _).csram_eq
@[simp] theorem State.contained_flying_eq (at_ blk : Nat) (st : Status) (source info : Nat) (s : State) : (s.contained at_ blk st source info).flying = s.flying := ((Told.refl s).contained _ _ _ _ _).flying_eq
@[simp] theorem State.contained_qpe_eq (at_ blk : Nat) (st : Status) (source info : Nat) (s : State) : (s.contained at_ blk st source info).qpe = s.qpe := ((Told.refl s).contained _ _ _ _ _).qpe_eq
@[simp] theorem State.contained_cdc_eq (at_ blk : Nat) (st : Status) (source info : Nat) (s : State) : (s.contained at_ blk st source info).cdc = s.cdc := ((Told.refl s).contained _ _ _ _ _).cdc_eq
@[simp] theorem State.contained_clt_eq (at_ blk : Nat) (st : Status) (source info : Nat) (s : State) : (s.contained at_ blk st source info).clt = s.clt := ((Told.refl s).contained _ _ _ _ _).clt_eq
@[simp] theorem State.contained_gth_eq (at_ blk : Nat) (st : Status) (source info : Nat) (s : State) : (s.contained at_ blk st source info).gth = s.gth := ((Told.refl s).contained _ _ _ _ _).gth_eq
@[simp] theorem State.contained_images_eq (at_ blk : Nat) (st : Status) (source info : Nat) (s : State) : (s.contained at_ blk st source info).images = s.images := ((Told.refl s).contained _ _ _ _ _).images_eq
@[simp] theorem State.contained_sec_eq (at_ blk : Nat) (st : Status) (source info : Nat) (s : State) : (s.contained at_ blk st source info).sec = s.sec := ((Told.refl s).contained _ _ _ _ _).sec_eq
@[simp] theorem State.contained_flash_eq (at_ blk : Nat) (st : Status) (source info : Nat) (s : State) : (s.contained at_ blk st source info).flash = s.flash := ((Told.refl s).contained _ _ _ _ _).flash_eq

theorem State.rd_contained (at_ blk : Nat) (st : Status) (source info : Nat) (s : State) {g : Fld} (jx : List Nat) (hg : ¬ Reports g) : (s.contained at_ blk st source info).rd g jx = s.rd g jx :=
  ((Told.refl s).contained _ _ _ _ _).regs g jx hg

/-! A programming error. -/

@[simp] theorem State.progErr_pending_eq (blk off : Nat) (s : State) : (s.progErr blk off).pending = s.pending := ((Told.refl s).progErr _ _).pending_eq
@[simp] theorem State.progErr_fresh_eq (blk off : Nat) (s : State) : (s.progErr blk off).fresh = s.fresh := ((Told.refl s).progErr _ _).fresh_eq
@[simp] theorem State.progErr_now_eq (blk off : Nat) (s : State) : (s.progErr blk off).now = s.now := ((Told.refl s).progErr _ _).now_eq
@[simp] theorem State.progErr_tim_eq (blk off : Nat) (s : State) : (s.progErr blk off).tim = s.tim := ((Told.refl s).progErr _ _).tim_eq
@[simp] theorem State.progErr_ports_eq (blk off : Nat) (s : State) : (s.progErr blk off).ports = s.ports := ((Told.refl s).progErr _ _).ports_eq
@[simp] theorem State.progErr_sw_eq (blk off : Nat) (s : State) : (s.progErr blk off).sw = s.sw := ((Told.refl s).progErr _ _).sw_eq
@[simp] theorem State.progErr_edgeWin_eq (blk off : Nat) (s : State) : (s.progErr blk off).edgeWin = s.edgeWin := ((Told.refl s).progErr _ _).edgeWin_eq
@[simp] theorem State.progErr_trk_eq (blk off : Nat) (s : State) : (s.progErr blk off).trk = s.trk := ((Told.refl s).progErr _ _).trk_eq
@[simp] theorem State.progErr_pool_eq (blk off : Nat) (s : State) : (s.progErr blk off).pool = s.pool := ((Told.refl s).progErr _ _).pool_eq
@[simp] theorem State.progErr_coh_eq (blk off : Nat) (s : State) : (s.progErr blk off).coh = s.coh := ((Told.refl s).progErr _ _).coh_eq
@[simp] theorem State.progErr_tier_eq (blk off : Nat) (s : State) : (s.progErr blk off).tier = s.tier := ((Told.refl s).progErr _ _).tier_eq
@[simp] theorem State.progErr_pair_eq (blk off : Nat) (s : State) : (s.progErr blk off).pair = s.pair := ((Told.refl s).progErr _ _).pair_eq
@[simp] theorem State.progErr_answers_eq (blk off : Nat) (s : State) : (s.progErr blk off).answers = s.answers := ((Told.refl s).progErr _ _).answers_eq
@[simp] theorem State.progErr_mem_eq (blk off : Nat) (s : State) : (s.progErr blk off).mem = s.mem := ((Told.refl s).progErr _ _).mem_eq
@[simp] theorem State.progErr_poison_eq (blk off : Nat) (s : State) : (s.progErr blk off).poison = s.poison := ((Told.refl s).progErr _ _).poison_eq
@[simp] theorem State.progErr_ras_eq (blk off : Nat) (s : State) : (s.progErr blk off).ras = s.ras := ((Told.refl s).progErr _ _).ras_eq
@[simp] theorem State.progErr_sram_eq (blk off : Nat) (s : State) : (s.progErr blk off).sram = s.sram := ((Told.refl s).progErr _ _).sram_eq
@[simp] theorem State.progErr_pkg_eq (blk off : Nat) (s : State) : (s.progErr blk off).pkg = s.pkg := ((Told.refl s).progErr _ _).pkg_eq
@[simp] theorem State.progErr_cores_eq (blk off : Nat) (s : State) : (s.progErr blk off).cores = s.cores := ((Told.refl s).progErr _ _).cores_eq
@[simp] theorem State.progErr_clusters_eq (blk off : Nat) (s : State) : (s.progErr blk off).clusters = s.clusters := ((Told.refl s).progErr _ _).clusters_eq
@[simp] theorem State.progErr_spm_eq (blk off : Nat) (s : State) : (s.progErr blk off).spm = s.spm := ((Told.refl s).progErr _ _).spm_eq
@[simp] theorem State.progErr_csram_eq (blk off : Nat) (s : State) : (s.progErr blk off).csram = s.csram := ((Told.refl s).progErr _ _).csram_eq
@[simp] theorem State.progErr_flying_eq (blk off : Nat) (s : State) : (s.progErr blk off).flying = s.flying := ((Told.refl s).progErr _ _).flying_eq
@[simp] theorem State.progErr_qpe_eq (blk off : Nat) (s : State) : (s.progErr blk off).qpe = s.qpe := ((Told.refl s).progErr _ _).qpe_eq
@[simp] theorem State.progErr_cdc_eq (blk off : Nat) (s : State) : (s.progErr blk off).cdc = s.cdc := ((Told.refl s).progErr _ _).cdc_eq
@[simp] theorem State.progErr_clt_eq (blk off : Nat) (s : State) : (s.progErr blk off).clt = s.clt := ((Told.refl s).progErr _ _).clt_eq
@[simp] theorem State.progErr_gth_eq (blk off : Nat) (s : State) : (s.progErr blk off).gth = s.gth := ((Told.refl s).progErr _ _).gth_eq
@[simp] theorem State.progErr_images_eq (blk off : Nat) (s : State) : (s.progErr blk off).images = s.images := ((Told.refl s).progErr _ _).images_eq
@[simp] theorem State.progErr_sec_eq (blk off : Nat) (s : State) : (s.progErr blk off).sec = s.sec := ((Told.refl s).progErr _ _).sec_eq
@[simp] theorem State.progErr_flash_eq (blk off : Nat) (s : State) : (s.progErr blk off).flash = s.flash := ((Told.refl s).progErr _ _).flash_eq

theorem State.rd_progErr (blk off : Nat) (s : State) {g : Fld} (jx : List Nat) (hg : ¬ Reports g) : (s.progErr blk off).rd g jx = s.rd g jx :=
  ((Told.refl s).progErr _ _).regs g jx hg

/-! A refused write. -/

@[simp] theorem State.badWrite_pending_eq (f : Fld) (ix : List Nat) (s : State) : (s.badWrite f ix).pending = s.pending := ((Told.refl s).badWrite _ _).pending_eq
@[simp] theorem State.badWrite_fresh_eq (f : Fld) (ix : List Nat) (s : State) : (s.badWrite f ix).fresh = s.fresh := ((Told.refl s).badWrite _ _).fresh_eq
@[simp] theorem State.badWrite_now_eq (f : Fld) (ix : List Nat) (s : State) : (s.badWrite f ix).now = s.now := ((Told.refl s).badWrite _ _).now_eq
@[simp] theorem State.badWrite_tim_eq (f : Fld) (ix : List Nat) (s : State) : (s.badWrite f ix).tim = s.tim := ((Told.refl s).badWrite _ _).tim_eq
@[simp] theorem State.badWrite_ports_eq (f : Fld) (ix : List Nat) (s : State) : (s.badWrite f ix).ports = s.ports := ((Told.refl s).badWrite _ _).ports_eq
@[simp] theorem State.badWrite_sw_eq (f : Fld) (ix : List Nat) (s : State) : (s.badWrite f ix).sw = s.sw := ((Told.refl s).badWrite _ _).sw_eq
@[simp] theorem State.badWrite_edgeWin_eq (f : Fld) (ix : List Nat) (s : State) : (s.badWrite f ix).edgeWin = s.edgeWin := ((Told.refl s).badWrite _ _).edgeWin_eq
@[simp] theorem State.badWrite_trk_eq (f : Fld) (ix : List Nat) (s : State) : (s.badWrite f ix).trk = s.trk := ((Told.refl s).badWrite _ _).trk_eq
@[simp] theorem State.badWrite_pool_eq (f : Fld) (ix : List Nat) (s : State) : (s.badWrite f ix).pool = s.pool := ((Told.refl s).badWrite _ _).pool_eq
@[simp] theorem State.badWrite_coh_eq (f : Fld) (ix : List Nat) (s : State) : (s.badWrite f ix).coh = s.coh := ((Told.refl s).badWrite _ _).coh_eq
@[simp] theorem State.badWrite_tier_eq (f : Fld) (ix : List Nat) (s : State) : (s.badWrite f ix).tier = s.tier := ((Told.refl s).badWrite _ _).tier_eq
@[simp] theorem State.badWrite_pair_eq (f : Fld) (ix : List Nat) (s : State) : (s.badWrite f ix).pair = s.pair := ((Told.refl s).badWrite _ _).pair_eq
@[simp] theorem State.badWrite_answers_eq (f : Fld) (ix : List Nat) (s : State) : (s.badWrite f ix).answers = s.answers := ((Told.refl s).badWrite _ _).answers_eq
@[simp] theorem State.badWrite_mem_eq (f : Fld) (ix : List Nat) (s : State) : (s.badWrite f ix).mem = s.mem := ((Told.refl s).badWrite _ _).mem_eq
@[simp] theorem State.badWrite_poison_eq (f : Fld) (ix : List Nat) (s : State) : (s.badWrite f ix).poison = s.poison := ((Told.refl s).badWrite _ _).poison_eq
@[simp] theorem State.badWrite_ras_eq (f : Fld) (ix : List Nat) (s : State) : (s.badWrite f ix).ras = s.ras := ((Told.refl s).badWrite _ _).ras_eq
@[simp] theorem State.badWrite_sram_eq (f : Fld) (ix : List Nat) (s : State) : (s.badWrite f ix).sram = s.sram := ((Told.refl s).badWrite _ _).sram_eq
@[simp] theorem State.badWrite_pkg_eq (f : Fld) (ix : List Nat) (s : State) : (s.badWrite f ix).pkg = s.pkg := ((Told.refl s).badWrite _ _).pkg_eq
@[simp] theorem State.badWrite_cores_eq (f : Fld) (ix : List Nat) (s : State) : (s.badWrite f ix).cores = s.cores := ((Told.refl s).badWrite _ _).cores_eq
@[simp] theorem State.badWrite_clusters_eq (f : Fld) (ix : List Nat) (s : State) : (s.badWrite f ix).clusters = s.clusters := ((Told.refl s).badWrite _ _).clusters_eq
@[simp] theorem State.badWrite_spm_eq (f : Fld) (ix : List Nat) (s : State) : (s.badWrite f ix).spm = s.spm := ((Told.refl s).badWrite _ _).spm_eq
@[simp] theorem State.badWrite_csram_eq (f : Fld) (ix : List Nat) (s : State) : (s.badWrite f ix).csram = s.csram := ((Told.refl s).badWrite _ _).csram_eq
@[simp] theorem State.badWrite_flying_eq (f : Fld) (ix : List Nat) (s : State) : (s.badWrite f ix).flying = s.flying := ((Told.refl s).badWrite _ _).flying_eq
@[simp] theorem State.badWrite_qpe_eq (f : Fld) (ix : List Nat) (s : State) : (s.badWrite f ix).qpe = s.qpe := ((Told.refl s).badWrite _ _).qpe_eq
@[simp] theorem State.badWrite_cdc_eq (f : Fld) (ix : List Nat) (s : State) : (s.badWrite f ix).cdc = s.cdc := ((Told.refl s).badWrite _ _).cdc_eq
@[simp] theorem State.badWrite_clt_eq (f : Fld) (ix : List Nat) (s : State) : (s.badWrite f ix).clt = s.clt := ((Told.refl s).badWrite _ _).clt_eq
@[simp] theorem State.badWrite_gth_eq (f : Fld) (ix : List Nat) (s : State) : (s.badWrite f ix).gth = s.gth := ((Told.refl s).badWrite _ _).gth_eq
@[simp] theorem State.badWrite_images_eq (f : Fld) (ix : List Nat) (s : State) : (s.badWrite f ix).images = s.images := ((Told.refl s).badWrite _ _).images_eq
@[simp] theorem State.badWrite_sec_eq (f : Fld) (ix : List Nat) (s : State) : (s.badWrite f ix).sec = s.sec := ((Told.refl s).badWrite _ _).sec_eq
@[simp] theorem State.badWrite_flash_eq (f : Fld) (ix : List Nat) (s : State) : (s.badWrite f ix).flash = s.flash := ((Told.refl s).badWrite _ _).flash_eq

theorem State.rd_badWrite (f : Fld) (ix : List Nat) (s : State) {g : Fld} (jx : List Nat) (hg : ¬ Reports g) : (s.badWrite f ix).rd g jx = s.rd g jx :=
  ((Told.refl s).badWrite _ _).regs g jx hg

end Sys2Proof.Machine
end

