-- ==== Sys2Proof/Laws/Ops.lean ====
section
/-! SUPPORT. What the named operations on registers, events and memory do: one lemma says all that an operation does. -/

namespace Sys2Proof.Machine

/-! ### Registers -/

@[simp] theorem State.rd_emit (o : Out) (f : Fld) (ix : List Nat) (s : State) : (s.emit o).rd f ix = s.rd f ix := rfl

@[simp] theorem State.rd_drew (f : Fld) (ix : List Nat) (s : State) : s.drew.rd f ix = s.rd f ix := rfl

@[simp] theorem State.rd_msix_all (fn vec : Nat) (f : Fld) (ix : List Nat) (s : State) : (s.msix fn vec).rd f ix = s.rd f ix := by
  unfold State.msix
  split <;> rfl

theorem State.regs_msix (fn vec : Nat) (s : State) : (s.msix fn vec).regs = s.regs := by
  unfold State.msix
  split <;> rfl

theorem State.rd_of_regs {s t : State} (h : t.regs = s.regs) (f : Fld) (ix : List Nat) : t.rd f ix = s.rd f ix := by
  simp only [State.rd, h]

theorem State.regs_ite {s a b : State} {c : Prop} [Decidable c] (ha : a.regs = s.regs) (hb : b.regs = s.regs) :
    (if c then a else b).regs = s.regs := by
  by_cases h : c
  · rw [if_pos h]; exact ha
  · rw [if_neg h]; exact hb

/-- All that an event does to registers: its bit is set, and nothing else changes. -/
theorem State.regs_event (blk b : Nat) (s : State) :
    (s.event blk b).regs =
      if bitAt (s.rd (evtBit blk b).1 []) (evtBit blk b).2.1 then s.regs
      else (s.wr (evtBit blk b).1 [] (s.rd (evtBit blk b).1 [] + 1 <<< (evtBit blk b).2.1)).regs := by
  unfold State.event
  by_cases h : bitAt (s.rd (evtBit blk b).1 []) (evtBit blk b).2.1 = true
  · rw [if_pos h, if_pos h]
  · rw [if_neg h, if_neg h]
    dsimp only
    generalize s.wr (evtBit blk b).1 [] (s.rd (evtBit blk b).1 [] + 1 <<< (evtBit blk b).2.1) = t
    have h₁ : (if s.summary = 0 ∧ t.summary ≠ 0 then (t.msix 0 (t.rd R.RAS_CFG_vector [])).emit (.i3c 0x10) else t).regs
        = t.regs := State.regs_ite ((State.emit_regs_eq _ _).trans (State.regs_msix _ _ _)) rfl
    exact State.regs_ite ((State.emit_regs_eq _ _).trans h₁) h₁

/-- An event leaves every field but its own as it was. -/
theorem State.rd_event_other {f : Fld} (blk b : Nat) (ix : List Nat) (s : State) (h : f.num ≠ (evtBit blk b).1.num) :
    (s.event blk b).rd f ix = s.rd f ix := by
  have e := State.regs_event blk b s
  by_cases hb : bitAt (s.rd (evtBit blk b).1 []) (evtBit blk b).2.1 = true
  · rw [if_pos hb] at e
    exact State.rd_of_regs e f ix
  · rw [if_neg hb] at e
    rw [State.rd_of_regs e f ix]
    exact State.rd_wr_num _ _ _ _ h

@[simp] theorem State.rd_bump_other {f g : Fld} (ix jx : List Nat) (s : State) (h : g.num ≠ f.num) :
    (s.bump f ix).rd g jx = s.rd g jx := State.rd_wr_num _ _ _ _ h

/-- The common end of every command. -/
theorem finish_next (s t : State) : finish s t = .next (s.after t) := rfl

@[simp] theorem State.after_fresh_eq (s t : State) : (s.after t).fresh = t.fresh := rfl

@[simp] theorem State.after_out_eq (s t : State) : (s.after t).out = t.out := rfl

@[simp] theorem State.after_regs_eq (s t : State) : (s.after t).regs = t.regs := rfl

@[simp] theorem State.after_tim_eq (s t : State) : (s.after t).tim = t.tim := rfl

@[simp] theorem State.after_ports_eq (s t : State) : (s.after t).ports = t.ports := rfl

@[simp] theorem State.after_sw_eq (s t : State) : (s.after t).sw = t.sw := rfl

@[simp] theorem State.after_edgeWin_eq (s t : State) : (s.after t).edgeWin = t.edgeWin := rfl

@[simp] theorem State.after_trk_eq (s t : State) : (s.after t).trk = t.trk := rfl

@[simp] theorem State.after_pool_eq (s t : State) : (s.after t).pool = t.pool := rfl

@[simp] theorem State.after_coh_eq (s t : State) : (s.after t).coh = t.coh := rfl

@[simp] theorem State.after_tier_eq (s t : State) : (s.after t).tier = t.tier := rfl

@[simp] theorem State.after_pair_eq (s t : State) : (s.after t).pair = t.pair := rfl

@[simp] theorem State.after_answers_eq (s t : State) : (s.after t).answers = t.answers := rfl

@[simp] theorem State.after_mem_eq (s t : State) : (s.after t).mem = t.mem := rfl

@[simp] theorem State.after_poison_eq (s t : State) : (s.after t).poison = t.poison := rfl

@[simp] theorem State.after_ras_eq (s t : State) : (s.after t).ras = t.ras := rfl

@[simp] theorem State.after_sram_eq (s t : State) : (s.after t).sram = t.sram := rfl

@[simp] theorem State.after_hif_eq (s t : State) : (s.after t).hif = t.hif := rfl

@[simp] theorem State.after_pkg_eq (s t : State) : (s.after t).pkg = t.pkg := rfl

@[simp] theorem State.after_cores_eq (s t : State) : (s.after t).cores = t.cores := rfl

@[simp] theorem State.after_clusters_eq (s t : State) : (s.after t).clusters = t.clusters := rfl

@[simp] theorem State.after_spm_eq (s t : State) : (s.after t).spm = t.spm := rfl

@[simp] theorem State.after_csram_eq (s t : State) : (s.after t).csram = t.csram := rfl

@[simp] theorem State.after_flying_eq (s t : State) : (s.after t).flying = t.flying := rfl

@[simp] theorem State.after_qpe_eq (s t : State) : (s.after t).qpe = t.qpe := rfl

@[simp] theorem State.after_cdc_eq (s t : State) : (s.after t).cdc = t.cdc := rfl

@[simp] theorem State.after_clt_eq (s t : State) : (s.after t).clt = t.clt := rfl

@[simp] theorem State.after_gth_eq (s t : State) : (s.after t).gth = t.gth := rfl

@[simp] theorem State.after_images_eq (s t : State) : (s.after t).images = t.images := rfl

@[simp] theorem State.after_sec_eq (s t : State) : (s.after t).sec = t.sec := rfl

@[simp] theorem State.after_flash_eq (s t : State) : (s.after t).flash = t.flash := rfl

@[simp] theorem State.after_pending_eq (s t : State) : (s.after t).pending = s.pending := rfl

@[simp] theorem State.after_now_eq (s t : State) : (s.after t).now = s.now := rfl

@[simp] theorem State.rd_after (s t : State) (f : Fld) (ix : List Nat) : (s.after t).rd f ix = t.rd f ix := rfl

theorem clocked_running {s : State} (t : State) (h : s.stopped = false) :
    clocked s t = .next (s.after t) := by simp [clocked, finish, h]

theorem clocked_stopped {s : State} (t : State) (h : s.stopped = true) : clocked s t = .next s := by
  simp [clocked, finish, h, State.after]

/-! ### Memory (R7, R111, R120) -/

/-- Addresses of a canonical list are at least the bound it was checked from. -/
theorem Mem.wfFrom_mono {lo lo' : Nat} {m : List Host.Cell} (h : lo' ≤ lo) (hw : Mem.wfFrom lo m = true) :
    Mem.wfFrom lo' m = true := by
  cases m with
  | nil => rfl
  | cons c t =>
    obtain ⟨a, b⟩ := c
    simp only [Mem.wfFrom, Bool.and_eq_true, decide_eq_true_eq] at hw ⊢
    exact ⟨⟨by omega, hw.1.2⟩, hw.2⟩

/-- Writing a byte keeps the canonical form. -/
theorem Mem.wfFrom_write {lo a : Nat} {b : Byte} {m : List Host.Cell} (ha : lo ≤ a) (hw : Mem.wfFrom lo m = true) :
    Mem.wfFrom lo (Mem.write m a b) = true := by
  induction m generalizing lo with
  | nil =>
    simp only [Mem.write]
    split
    · rfl
    · rename_i hb
      simp only [Mem.wfFrom, Bool.and_eq_true, decide_eq_true_eq]
      exact ⟨⟨ha, hb⟩, trivial⟩
  | cons c t ih =>
    obtain ⟨a', b'⟩ := c
    simp only [Mem.wfFrom, Bool.and_eq_true, decide_eq_true_eq] at hw
    obtain ⟨⟨h₁, h₂⟩, h₃⟩ := hw
    simp only [Mem.write]
    split
    · rename_i he
      subst he
      split
      · exact Mem.wfFrom_mono (by omega) h₃
      · rename_i hb
        simp only [Mem.wfFrom, Bool.and_eq_true, decide_eq_true_eq]
        exact ⟨⟨h₁, hb⟩, h₃⟩
    · split
      · rename_i hne hlt
        split
        · simp only [Mem.wfFrom, Bool.and_eq_true, decide_eq_true_eq]
          exact ⟨⟨h₁, h₂⟩, h₃⟩
        · rename_i hb
          simp only [Mem.wfFrom, Bool.and_eq_true, decide_eq_true_eq]
          exact ⟨⟨ha, hb⟩, ⟨⟨by omega, h₂⟩, h₃⟩⟩
      · rename_i hne hlt
        simp only [Mem.wfFrom, Bool.and_eq_true, decide_eq_true_eq]
        exact ⟨⟨h₁, h₂⟩, ih (by omega) h₃⟩

theorem Memory.wf_write {m : List Host.Cell} (a : Nat) (b : Byte) (h : Memory.wf m = true) : Memory.wf (Mem.write m a b) = true :=
  Mem.wfFrom_write (Nat.zero_le _) h

theorem Memory.wf_writeAll {m : List Host.Cell} (a : Nat) (l : List Byte) (h : Memory.wf m = true) :
    Memory.wf (Mem.writeAll m a l) = true := by
  induction l generalizing m a with
  | nil => exact h
  | cons b t ih => exact ih (a + 1) (Memory.wf_write a b h)

theorem Mem.wfFrom_filter {lo : Nat} {m : List Host.Cell} (p : Host.Cell → Bool) (h : Mem.wfFrom lo m = true) :
    Mem.wfFrom lo (m.filter p) = true := by
  induction m generalizing lo with
  | nil => rfl
  | cons c t ih =>
    obtain ⟨a, b⟩ := c
    simp only [Mem.wfFrom, Bool.and_eq_true, decide_eq_true_eq] at h
    simp only [List.filter_cons]
    split
    · simp only [Mem.wfFrom, Bool.and_eq_true, decide_eq_true_eq]
      exact ⟨h.1, ih h.2⟩
    · exact ih (Mem.wfFrom_mono (by omega) h.2)

theorem Memory.wf_clear {m : List Host.Cell} (a n : Nat) (h : Memory.wf m = true) : Memory.wf (Mem.clear m a n) = true :=
  Mem.wfFrom_filter _ h

theorem Memory.wf_empty : Memory.wf [] = true := rfl

/-- No address below the bound is listed. -/
theorem Mem.read_below {lo a : Nat} {m : List Host.Cell} (h : Mem.wfFrom lo m = true) (ha : a < lo) : Mem.read m a = 0 := by
  induction m generalizing lo with
  | nil => rfl
  | cons c t ih =>
    obtain ⟨a', b⟩ := c
    simp only [Mem.wfFrom, Bool.and_eq_true, decide_eq_true_eq] at h
    simp only [Mem.read]
    rw [if_neg (by omega)]
    exact ih h.2 (by omega)

/-- Reading back the byte that was written. -/
theorem Mem.read_write_same {m : List Host.Cell} (a : Nat) (b : Byte) (h : Memory.wf m = true) :
    Mem.read (Mem.write m a b) a = b := by
  suffices ∀ lo, Mem.wfFrom lo m = true → Mem.read (Mem.write m a b) a = b from this 0 h
  clear h
  induction m with
  | nil =>
    intro lo _
    simp only [Mem.write]
    split
    · rename_i hb; simp [Mem.read, hb]
    · simp [Mem.read]
  | cons c t ih =>
    intro lo hw
    obtain ⟨a', b'⟩ := c
    simp only [Mem.wfFrom, Bool.and_eq_true, decide_eq_true_eq] at hw
    simp only [Mem.write]
    split
    · rename_i he
      subst he
      split
      · rename_i hb
        rw [Mem.read_below hw.2 (by omega), hb]
      · simp [Mem.read]
    · split
      · rename_i hne hlt
        split
        · rename_i hb
          simp only [Mem.read, if_neg hne]
          rw [Mem.read_below hw.2 (by omega), hb]
        · simp [Mem.read]
      · rename_i hne hlt
        simp only [Mem.read, if_neg hne]
        exact ih _ hw.2

/-- Writing a byte leaves every other byte as it was. -/
theorem Mem.read_write_other (m : List Host.Cell) {a a₂ : Nat} (b : Byte) (h : a₂ ≠ a) :
    Mem.read (Mem.write m a b) a₂ = Mem.read m a₂ := by
  induction m with
  | nil =>
    simp only [Mem.write]
    split
    · rfl
    · simp [Mem.read, Ne.symm h]
  | cons c t ih =>
    obtain ⟨a', b'⟩ := c
    simp only [Mem.write]
    split
    · rename_i he
      subst he
      split
      · simp [Mem.read, Ne.symm h]
      · simp [Mem.read, Ne.symm h]
    · split
      · split
        · rfl
        · simp [Mem.read, Ne.symm h]
      · simp only [Mem.read]
        split
        · rfl
        · exact ih

/-- A run of bytes written leaves every byte outside it as it was. -/
theorem Mem.read_writeAll_other (m : List Host.Cell) {a a₂ : Nat} (l : List Byte) (h : a₂ < a ∨ a + l.length ≤ a₂) :
    Mem.read (Mem.writeAll m a l) a₂ = Mem.read m a₂ := by
  induction l generalizing m a with
  | nil => rfl
  | cons b t ih =>
    simp only [List.length_cons] at h
    simp only [Mem.writeAll]
    rw [ih _ (by omega), Mem.read_write_other _ _ (by omega)]

end Sys2Proof.Machine
end

