-- ==== Sys2Proof/Laws/Send.lean ====
section
/-! SUPPORT. All that forming, storing and sending messages changes, and reports and DEGRADED errors with them. -/

namespace Sys2Proof.Machine

open Sys2Proof.Safety

/-- Only the switch core, the ports, what reporting changes, the RAS block's own state and the list of answers differ,
and of the registers only those named and those that report. -/
structure Conveys (l : List Fld) (s t : State) : Prop where
  shape : ∃ r o h w p a n, t = { s with regs := r, out := o, hif := h, sw := w, ports := p, ras := a, answers := n }
  regs : RegsBut l s t
  lists : ∀ f, ¬ Reports f → (∀ g ∈ l, f.num ≠ g.num) → t.listed f = s.listed f
  grows : ∃ x, t.out = s.out ++ x

theorem Conveys.refl (l : List Fld) (s : State) : Conveys l s s :=
  ⟨⟨s.regs, s.out, s.hif, s.sw, s.ports, s.ras, s.answers, rfl⟩, fun _ _ _ _ => rfl, fun _ _ _ => rfl,
    ⟨[], (List.append_nil _).symm⟩⟩

theorem Conveys.trans {l : List Fld} {s t u : State} (h₁ : Conveys l s t) (h₂ : Conveys l t u) : Conveys l s u := by
  obtain ⟨⟨r, o, h, w, p, a, n, rfl⟩, e₁, l₁, ⟨x, g₁⟩⟩ := h₁
  obtain ⟨⟨r', o', h', w', p', a', n', rfl⟩, e₂, l₂, ⟨y, g₂⟩⟩ := h₂
  exact ⟨⟨r', o', h', w', p', a', n', rfl⟩, fun f ix hf hl => (e₂ f ix hf hl).trans (e₁ f ix hf hl),
    fun f hf hl => (l₂ f hf hl).trans (l₁ f hf hl), ⟨x ++ y, by rw [g₂, g₁, List.append_assoc]⟩⟩

theorem Conveys.ite {l : List Fld} {s a b : State} {c : Prop} [Decidable c] (ha : Conveys l s a) (hb : Conveys l s b) :
    Conveys l s (if c then a else b) := by
  by_cases h : c
  · rw [if_pos h]; exact ha
  · rw [if_neg h]; exact hb

/-- What changes no register. -/
theorem Conveys.of_shape {l : List Fld} {s t : State}
    (h : ∃ h w p a n, t = { s with hif := h, sw := w, ports := p, ras := a, answers := n }) : Conveys l s t := by
  obtain ⟨h, w, p, a, n, rfl⟩ := h
  exact ⟨⟨s.regs, s.out, h, w, p, a, n, rfl⟩, fun _ _ _ _ => rfl, fun _ _ _ => rfl, ⟨[], (List.append_nil _).symm⟩⟩

theorem Conveys.told {l : List Fld} {s t : State} (h : Told s t) : Conveys l s t := by
  obtain ⟨⟨r, o, h, rfl⟩, e, l, g⟩ := h
  exact ⟨⟨r, o, h, s.sw, s.ports, s.ras, s.answers, rfl⟩, fun f ix hf _ => e f ix hf, fun f hf _ => l f hf, g⟩

theorem Conveys.wr {l : List Fld} {f : Fld} (hf : f ∈ l) (ix : List Nat) (v : Nat) (s : State) : Conveys l s (s.wr f ix v) := by
  refine ⟨?_, fun g jx _ hl => State.rd_wr_num _ _ _ _ (hl f hf), fun g _ hl => State.listed_wr_num _ _ _ (hl f hf), ⟨[], ?_⟩⟩
  rotate_left
  · unfold State.wr; split <;> simp
  unfold State.wr
  split
  · exact ⟨_, s.out, s.hif, s.sw, s.ports, s.ras, s.answers, rfl⟩
  · exact ⟨_, s.out, s.hif, s.sw, s.ports, s.ras, s.answers, rfl⟩

theorem Conveys.foldl {α : Type} {l : List Fld} (g : State → α → State) (hg : ∀ s a, Conveys l s (g s a)) (xs : List α) (s : State) :
    Conveys l s (xs.foldl g s) := by
  induction xs generalizing s with
  | nil => exact Conveys.refl l s
  | cons x xs ih => exact (hg s x).trans (ih (g s x))

/-- What sends only changes no field but those of its shape. -/
theorem Conveys.weaken {l l' : List Fld} {s t : State} (h : Conveys l s t) (hl : ∀ g ∈ l, g ∈ l') : Conveys l' s t :=
  ⟨h.shape, fun f ix hf hn => h.regs f ix hf (fun g hg => hn g (hl g hg)),
    fun f hf hn => h.lists f hf (fun g hg => hn g (hl g hg)), h.grows⟩

theorem Conveys.pending_eq {l : List Fld} {s t : State} (h : Conveys l s t) : t.pending = s.pending := by obtain ⟨⟨r, o, h, w, p, a, n, rfl⟩, _⟩ := h; rfl
theorem Conveys.fresh_eq {l : List Fld} {s t : State} (h : Conveys l s t) : t.fresh = s.fresh := by obtain ⟨⟨r, o, h, w, p, a, n, rfl⟩, _⟩ := h; rfl
theorem Conveys.now_eq {l : List Fld} {s t : State} (h : Conveys l s t) : t.now = s.now := by obtain ⟨⟨r, o, h, w, p, a, n, rfl⟩, _⟩ := h; rfl
theorem Conveys.tim_eq {l : List Fld} {s t : State} (h : Conveys l s t) : t.tim = s.tim := by obtain ⟨⟨r, o, h, w, p, a, n, rfl⟩, _⟩ := h; rfl
theorem Conveys.edgeWin_eq {l : List Fld} {s t : State} (h : Conveys l s t) : t.edgeWin = s.edgeWin := by obtain ⟨⟨r, o, h, w, p, a, n, rfl⟩, _⟩ := h; rfl
theorem Conveys.trk_eq {l : List Fld} {s t : State} (h : Conveys l s t) : t.trk = s.trk := by obtain ⟨⟨r, o, h, w, p, a, n, rfl⟩, _⟩ := h; rfl
theorem Conveys.pool_eq {l : List Fld} {s t : State} (h : Conveys l s t) : t.pool = s.pool := by obtain ⟨⟨r, o, h, w, p, a, n, rfl⟩, _⟩ := h; rfl
theorem Conveys.coh_eq {l : List Fld} {s t : State} (h : Conveys l s t) : t.coh = s.coh := by obtain ⟨⟨r, o, h, w, p, a, n, rfl⟩, _⟩ := h; rfl
theorem Conveys.tier_eq {l : List Fld} {s t : State} (h : Conveys l s t) : t.tier = s.tier := by obtain ⟨⟨r, o, h, w, p, a, n, rfl⟩, _⟩ := h; rfl
theorem Conveys.pair_eq {l : List Fld} {s t : State} (h : Conveys l s t) : t.pair = s.pair := by obtain ⟨⟨r, o, h, w, p, a, n, rfl⟩, _⟩ := h; rfl
theorem Conveys.mem_eq {l : List Fld} {s t : State} (h : Conveys l s t) : t.mem = s.mem := by obtain ⟨⟨r, o, h, w, p, a, n, rfl⟩, _⟩ := h; rfl
theorem Conveys.poison_eq {l : List Fld} {s t : State} (h : Conveys l s t) : t.poison = s.poison := by obtain ⟨⟨r, o, h, w, p, a, n, rfl⟩, _⟩ := h; rfl
theorem Conveys.sram_eq {l : List Fld} {s t : State} (h : Conveys l s t) : t.sram = s.sram := by obtain ⟨⟨r, o, h, w, p, a, n, rfl⟩, _⟩ := h; rfl
theorem Conveys.pkg_eq {l : List Fld} {s t : State} (h : Conveys l s t) : t.pkg = s.pkg := by obtain ⟨⟨r, o, h, w, p, a, n, rfl⟩, _⟩ := h; rfl
theorem Conveys.cores_eq {l : List Fld} {s t : State} (h : Conveys l s t) : t.cores = s.cores := by obtain ⟨⟨r, o, h, w, p, a, n, rfl⟩, _⟩ := h; rfl
theorem Conveys.clusters_eq {l : List Fld} {s t : State} (h : Conveys l s t) : t.clusters = s.clusters := by obtain ⟨⟨r, o, h, w, p, a, n, rfl⟩, _⟩ := h; rfl
theorem Conveys.spm_eq {l : List Fld} {s t : State} (h : Conveys l s t) : t.spm = s.spm := by obtain ⟨⟨r, o, h, w, p, a, n, rfl⟩, _⟩ := h; rfl
theorem Conveys.csram_eq {l : List Fld} {s t : State} (h : Conveys l s t) : t.csram = s.csram := by obtain ⟨⟨r, o, h, w, p, a, n, rfl⟩, _⟩ := h; rfl
theorem Conveys.flying_eq {l : List Fld} {s t : State} (h : Conveys l s t) : t.flying = s.flying := by obtain ⟨⟨r, o, h, w, p, a, n, rfl⟩, _⟩ := h; rfl
theorem Conveys.qpe_eq {l : List Fld} {s t : State} (h : Conveys l s t) : t.qpe = s.qpe := by obtain ⟨⟨r, o, h, w, p, a, n, rfl⟩, _⟩ := h; rfl
theorem Conveys.cdc_eq {l : List Fld} {s t : State} (h : Conveys l s t) : t.cdc = s.cdc := by obtain ⟨⟨r, o, h, w, p, a, n, rfl⟩, _⟩ := h; rfl
theorem Conveys.clt_eq {l : List Fld} {s t : State} (h : Conveys l s t) : t.clt = s.clt := by obtain ⟨⟨r, o, h, w, p, a, n, rfl⟩, _⟩ := h; rfl
theorem Conveys.gth_eq {l : List Fld} {s t : State} (h : Conveys l s t) : t.gth = s.gth := by obtain ⟨⟨r, o, h, w, p, a, n, rfl⟩, _⟩ := h; rfl
theorem Conveys.images_eq {l : List Fld} {s t : State} (h : Conveys l s t) : t.images = s.images := by obtain ⟨⟨r, o, h, w, p, a, n, rfl⟩, _⟩ := h; rfl
theorem Conveys.sec_eq {l : List Fld} {s t : State} (h : Conveys l s t) : t.sec = s.sec := by obtain ⟨⟨r, o, h, w, p, a, n, rfl⟩, _⟩ := h; rfl
theorem Conveys.flash_eq {l : List Fld} {s t : State} (h : Conveys l s t) : t.flash = s.flash := by obtain ⟨⟨r, o, h, w, p, a, n, rfl⟩, _⟩ := h; rfl

/-! ### The operations -/

variable {l : List Fld}

theorem conveys_modPort (p : Nat) (f : Port → Port) (s : State) : Conveys l s (s.modPort p f) :=
  Conveys.of_shape ⟨s.hif, s.sw, _, s.ras, s.answers, rfl⟩

theorem conveys_takeAgentCells (d t n : Nat) (s : State) : Conveys l s (s.takeAgentCells d t n) :=
  Conveys.of_shape ⟨s.hif, _, s.ports, s.ras, s.answers, rfl⟩

theorem conveys_freeCells (q : QMsg) (n : Nat) (s : State) : Conveys l s (s.freeCells q n) := by
  unfold State.freeCells
  split
  · exact conveys_modPort _ _ _
  · exact Conveys.of_shape ⟨s.hif, _, s.ports, s.ras, s.answers, rfl⟩

theorem conveys_dropReader (q : QMsg) (s : State) : Conveys l s (s.dropReader q) := conveys_freeCells _ _ _

theorem conveys_readUpTo (q : QMsg) (n : Nat) (s : State) : Conveys l s (s.readUpTo q n) := conveys_freeCells _ _ _

theorem conveys_enqueue (p : Nat) (q : QMsg) (s : State) : Conveys l s (s.enqueue p q) :=
  Conveys.of_shape ⟨s.hif, _, s.ports, s.ras, s.answers, rfl⟩

theorem conveys_toInput (d : Nat) (q : QMsg) (s : State) : Conveys l s (s.toInput d q) :=
  Conveys.of_shape ⟨s.hif, _, s.ports, s.ras, s.answers, rfl⟩

theorem conveys_deliverOut (o : Nat) (q : QMsg) (s : State) : Conveys l s (s.deliverOut o q) :=
  Conveys.ite (conveys_enqueue _ _ _) (conveys_toInput _ _ _)

theorem conveys_countAt (o k : Nat) (s : State) : Conveys l s (s.countAt o k) :=
  Conveys.ite (Conveys.told ((Told.refl s).bump (by decide) _)) (Conveys.refl _ s)

theorem conveys_gap (o : Nat) (s : State) : Conveys l s (s.gap o) :=
  (conveys_countAt o 4 s).trans
    (Conveys.trans (Conveys.ite (Conveys.told ((Told.refl _).wr (by decide) _ _)) (Conveys.refl _ _)) (Conveys.told ((Told.refl _).event _ _)))

theorem conveys_setFlow (o flow : Nat) (f : Flow) (s : State) : Conveys l s (s.setFlow o flow f) :=
  Conveys.of_shape ⟨s.hif, _, s.ports, s.ras, s.answers, rfl⟩

theorem conveys_deliverAll (o : Nat) (q : List QMsg) (s : State) : Conveys l s (s.deliverAll o q) :=
  Conveys.foldl _ (fun _ _ => conveys_deliverOut _ _ _) _ _

theorem conveys_skipHole (o flow : Nat) (s : State) : Conveys l s (s.skipHole o flow) := by
  unfold State.skipHole
  dsimp only
  split
  · exact Conveys.refl _ _
  · exact ((conveys_deliverAll _ _ _).trans (conveys_setFlow _ _ _ _)).trans (conveys_gap _ _)

theorem conveys_fitHeld (o n : Nat) (s : State) : Conveys l s (State.fitHeld o n s) := by
  induction n generalizing s with
  | zero => exact Conveys.refl _ _
  | succ n ih =>
    unfold State.fitHeld
    refine Conveys.ite (Conveys.refl _ _) ?_
    split
    · exact (conveys_skipHole _ _ _).trans (ih _)
    · exact Conveys.refl _ _

theorem conveys_resequence (o : Nat) (q : QMsg) (s : State) : Conveys l s (s.resequence o q) := by
  unfold State.resequence
  dsimp only
  refine Conveys.ite (((conveys_deliverOut _ _ _).trans (conveys_deliverAll _ _ _)).trans (conveys_setFlow _ _ _ _)) (Conveys.ite (Conveys.ite
    ((conveys_countAt _ _ _).trans (conveys_dropReader _ _)) ((conveys_setFlow _ _ _ _).trans (conveys_fitHeld _ _ _))) (Conveys.ite ?_
    ((conveys_countAt _ _ _).trans (conveys_dropReader _ _))))
  exact (((conveys_deliverAll _ _ _).trans (conveys_deliverOut _ _ _)).trans (conveys_setFlow _ _ _ _)).trans (conveys_gap _ _)

theorem conveys_toOutput (o : Nat) (final : Bool) (q : QMsg) (s : State) : Conveys l s (s.toOutput o final q) :=
  Conveys.ite (Conveys.ite (conveys_resequence _ _ _) (Conveys.of_shape ⟨s.hif, _, s.ports, s.ras, s.answers, rfl⟩))
    (conveys_deliverOut _ _ _)

theorem conveys_logCompletion (d : Nat) (m : Msg) (st : Status) (s : State) : Conveys l s (s.logCompletion d m st) :=
  Conveys.ite (Conveys.told ((Told.refl s).contained _ _ _ _ _)) (Conveys.refl _ s)

theorem conveys_selfAnswer (d : Nat) (m : Msg) (st : Status) (s : State) : Conveys l s (s.selfAnswer d m st) :=
  (conveys_logCompletion d m st s).trans (Conveys.foldl _ (fun a _ =>
    ((Conveys.of_shape ⟨a.hif, _, a.ports, a.ras, a.answers, rfl⟩).trans (conveys_takeAgentCells _ _ _ _)).trans
      (conveys_toInput _ _ _)) _ _)

theorem conveys_failSend (d : Nat) (m : Msg) (st : Status) (q : QMsg) (s : State) : Conveys l s (s.failSend d m st q) :=
  (conveys_freeCells q q.total s).trans (Conveys.ite (conveys_selfAnswer _ _ _ _) (Conveys.refl _ _))

theorem conveys_place (d : Nat) (m : Msg) (q : QMsg) (s : State) : Conveys l s (s.place d m q) := by
  unfold State.place
  split
  · exact conveys_failSend _ _ _ _ _
  · refine Conveys.ite ((Conveys.told ((Told.refl s).bump (by decide) _)).trans (conveys_failSend _ _ _ _ _)) (Conveys.ite
      (Conveys.ite ((Conveys.told ((Told.refl s).bump (by decide) _)).trans (conveys_failSend _ _ _ _ _))
        (conveys_toOutput _ _ _ _)) ?_)
    split
    · split
      · exact (Conveys.of_shape ⟨s.hif, _, s.ports, s.ras, s.answers, rfl⟩).trans (conveys_toOutput _ _ _ _)
      · exact conveys_failSend _ _ _ _ _
    · exact Conveys.ite (conveys_freeCells _ _ _) (Conveys.foldl _ (fun _ _ => conveys_deliverOut _ _ _) _ _)
    · exact conveys_failSend _ _ _ _ _

theorem conveys_route (d : Nat) (m : Msg) (s : State) : Conveys l s (s.route d m) :=
  (Conveys.of_shape ⟨s.hif, _, s.ports, s.ras, s.answers, rfl⟩).trans (conveys_place _ _ _ _)

theorem conveys_flushList (d : Nat) (ms : List Msg) (s : State) : Conveys l s (State.flushList d ms s) := by
  induction ms generalizing s with
  | nil => exact Conveys.of_shape ⟨s.hif, _, s.ports, s.ras, s.answers, rfl⟩
  | cons m t ih =>
    exact Conveys.ite (((conveys_takeAgentCells _ _ _ _).trans (conveys_route _ _ _)).trans (ih _))
      (Conveys.of_shape ⟨s.hif, _, s.ports, s.ras, s.answers, rfl⟩)

theorem conveys_flush (d : Nat) (s : State) : Conveys l s (s.flush d) := conveys_flushList _ _ _

/-- All that sending a message changes. -/
theorem conveys_send (d : Nat) (m : Msg) (s : State) : Conveys l s (s.send d m) := conveys_flushList _ _ _

theorem conveys_sendAll (d : Nat) (ms : List Msg) (s : State) : Conveys l s (s.sendAll d ms) :=
  Conveys.foldl _ (fun _ _ => conveys_send _ _ _) _ _

/-- All that completing a request changes. -/
theorem conveys_answer (d : Nat) (m : Msg) (st : Status) (load : Nat) (data : Option Nat) (s : State) :
    Conveys l s (s.answer d m st load data) := (conveys_logCompletion _ _ _ _).trans (conveys_sendAll _ _ _)

theorem conveys_refuse (d : Nat) (m : Msg) (st : Status) (s : State) : Conveys l s (s.refuse d m st) := conveys_answer _ _ _ _ _ _

/-- All that taking a message from an input changes. -/
theorem conveys_consume (d : Nat) (m : Msg) (s : State) : Conveys l s (s.consume d m) := by
  unfold State.consume
  split
  · exact (((Conveys.of_shape ⟨s.hif, _, s.ports, s.ras, s.answers, rfl⟩).trans (conveys_readUpTo _ _ _)).trans
      (conveys_flush _ _)).trans (conveys_flush _ _)
  · exact Conveys.refl _ _

theorem conveys_protoErr (blk p : Nat) (s : State) : Conveys l s (s.protoErr blk p) := by
  unfold State.protoErr
  dsimp only
  refine Conveys.told ?_
  exact Told.event (Told.contained (Told.ite (Told.event (Told.wr (Told.event (Told.wr (Told.bump (Told.refl s) (by decide) _)
    (by decide) _ _) _ _) (by decide) _ _) _ _) (Told.event (Told.wr (Told.bump (Told.refl s) (by decide) _)
    (by decide) _ _) _ _)) _ _ _ _ _) _ _

theorem conveys_sendReport (r : Report) (s : State) : Conveys l s (s.sendReport r) := conveys_send _ _ _

/-- All that a report changes. -/
theorem conveys_report (code : Nat) (st : Status) (operands : List Byte) (s : State) : Conveys l s (s.report code st operands) := by
  unfold State.report
  refine Conveys.ite (Conveys.of_shape ⟨s.hif, s.sw, s.ports, _, s.answers, rfl⟩) (Conveys.ite (Conveys.refl _ _) ?_)
  exact (Conveys.of_shape ⟨s.hif, s.sw, s.ports, _, s.answers, rfl⟩).trans (conveys_sendReport _ _)

/-- All that a DEGRADED error changes: beside reporting, the block's bit in GLB_DEGRADED. -/
theorem conveys_degraded (at_ blk source info : Nat) (s : State) :
    Conveys [R.GLB_DEGRADED_degraded] s (s.degraded at_ blk source info) := by
  unfold State.degraded
  dsimp only
  refine Conveys.trans (Conveys.trans ?_ (Conveys.told (Told.event (Told.ringPut (Told.bump (Told.refl _) (by decide) _) _ _ _ _ _ _ _) _ _)))
    (conveys_report _ _ _ _)
  exact Conveys.ite (Conveys.refl _ _) ((Conveys.wr (by simp) _ _ _).trans (Conveys.told ((Told.refl _).event _ _)))

/-- All that the outcome of a command applied here changes: the list of answers. -/
theorem conveys_tellHere (op : Nat) (st : Status) (s : State) : Conveys l s (s.tell .here op st) := by
  unfold State.tell
  exact Conveys.ite (Conveys.refl _ _) (Conveys.of_shape ⟨s.hif, s.sw, s.ports, s.ras, _, rfl⟩)

end Sys2Proof.Machine
end

