-- ==== Sys2Proof/Laws/Gives.lean ====
section
/-! SUPPORT. How a statement about the answer of a command follows from what its meaning computes. -/

namespace Sys2Proof.Machine

open Sys2Proof.Safety

/-- The common end of every command, as an answer. -/
theorem gives_finish {c : Instr} {s t : State} {P : State → Prop} (e : exec c s = finish s t)
    (p : P (s.after t)) : Gives c s P := ⟨_, e, p⟩

/-- The answer of a command that runs on the part's clocks. -/
theorem gives_clocked {c : Instr} {s t : State} {P : State → Prop} (e : exec c s = clocked s t) (h : Runs s)
    (p : P (s.after t)) : Gives c s P :=
  ⟨_, e.trans (clocked_running t h), p⟩

/-- The answer of a command of the fabric dies. -/
theorem gives_serving {c : Instr} {s t : State} {P : State → Prop} (e : exec c s = serving s t) (h : Serves s)
    (p : P (s.after t)) : Gives c s P := by
  refine gives_clocked (t := t) (e.trans ?_) h.1 p
  simp [serving, h.2.1, h.2.2]

/-- The answer of a host access while the part is not in Rest. -/
theorem gives_hosted {c : Instr} {s : State} {f : State → State} {P : State → Prop} (e : exec c s = hosted s f) (h : Serves s)
    (p : P (s.after (f s))) : Gives c s P := by
  refine gives_clocked (t := f s) (e.trans ?_) h.1 p
  simp [hosted, State.wakeUp, h.2.1, h.2.2]

/-- What reporting changes beside registers. -/
theorem Told.parts {s t : State} (h : Told s t) : PartsBut reporting s t := by
  obtain ⟨⟨r, o, i, rfl⟩, _⟩ := h
  intro p hp
  cases p <;> first | rfl | exact absurd (by decide) hp

theorem Told.regsBut {s t : State} (h : Told s t) (l : List Fld) : RegsBut l s t := fun f ix hf _ => h.regs f ix hf

end Sys2Proof.Machine

namespace Sys2Proof.Safety

open Sys2Proof.Machine

theorem RegsBut.refl (l : List Fld) (s : State) : RegsBut l s s := fun _ _ _ _ => rfl

theorem RegsBut.after {l : List Fld} {s t u : State} (h : RegsBut l s t) : RegsBut l s (u.after t) :=
  fun f ix hf hl => h f ix hf hl

theorem RegsBut.trans {l : List Fld} {s t u : State} (h₁ : RegsBut l s t) (h₂ : RegsBut l t u) : RegsBut l s u :=
  fun f ix hf hl => (h₂ f ix hf hl).trans (h₁ f ix hf hl)

theorem RegsBut.wr {l : List Fld} {s t : State} (h : RegsBut l s t) {f : Fld} (hf : f ∈ l) (ix : List Nat) (v : Nat) :
    RegsBut l s (t.wr f ix v) := fun g jx hg hl => (State.rd_wr_num _ _ _ _ (hl f hf)).trans (h g jx hg hl)

theorem RegsBut.told {l : List Fld} {s t u : State} (h : RegsBut l s t) (h₂ : Told t u) : RegsBut l s u :=
  fun g jx hg hl => (h₂.regs g jx hg).trans (h g jx hg hl)

theorem RegsBut.ite {l : List Fld} {s a b : State} {c : Prop} [Decidable c] (ha : RegsBut l s a) (hb : RegsBut l s b) :
    RegsBut l s (if c then a else b) := by
  by_cases h : c
  · rw [if_pos h]; exact ha
  · rw [if_neg h]; exact hb

theorem PartsBut.refl (l : List Part) (s : State) : PartsBut l s s := fun p _ => by cases p <;> rfl

theorem PartsBut.trans {l : List Part} {s t u : State} (h₁ : PartsBut l s t) (h₂ : PartsBut l t u) : PartsBut l s u := by
  intro p hp
  have a := h₁ p hp
  have b := h₂ p hp
  cases p <;> exact Eq.trans b a

theorem PartsBut.after {l : List Part} {s t u : State} (h : PartsBut l s t) : PartsBut l s (u.after t) := by
  intro p hp
  have a := h p hp
  cases p <;> exact a

theorem PartsBut.weaken {l l' : List Part} {s t : State} (h : PartsBut l s t) (hl : ∀ p ∈ l, p ∈ l') : PartsBut l' s t :=
  fun p hp => h p (fun hq => hp (hl p hq))

theorem PartsBut.wr {l : List Part} {s t : State} (h : PartsBut l s t) (f : Fld) (ix : List Nat) (v : Nat) :
    PartsBut l s (t.wr f ix v) := h.trans (fun p _ => by cases p <;> simp [Same])

theorem PartsBut.told {l : List Part} {s t u : State} (h : PartsBut l s t) (h₂ : Told t u)
    (hl : ∀ p ∈ reporting, p ∈ l := by decide) : PartsBut l s u := h.trans (h₂.parts.weaken hl)

theorem PartsBut.ite {l : List Part} {s a b : State} {c : Prop} [Decidable c] (ha : PartsBut l s a) (hb : PartsBut l s b) :
    PartsBut l s (if c then a else b) := by
  by_cases h : c
  · rw [if_pos h]; exact ha
  · rw [if_neg h]; exact hb

end Sys2Proof.Safety

namespace Sys2Proof.Machine

open Sys2Proof.Safety

/-- What sending changes beside registers. -/
theorem Conveys.parts {l : List Fld} {s t : State} (h : Conveys l s t) :
    PartsBut [.out, .hif, .sw, .ports, .ras, .answers] s t := by
  obtain ⟨⟨r, o, i, w, p, a, n, rfl⟩, _⟩ := h
  intro q hq
  cases q <;> first | rfl | exact absurd (by decide) hq

end Sys2Proof.Machine
end

