-- ==== Sys2Proof/Machine/RegRead.lean ====
section
/-! DEFINITION. What a read of BAR0 returns (R9 to R11, R435, R442, R443). A read changes nothing (R10) and the table has no
row for one, so no command stands here: these functions give the value that software sees of a state. -/

namespace Sys2Proof.Machine

/-- The record of an extent (R161), as POL_EXT_DATA shows it. -/
def extState : ExtState → Nat
  | .absent => 0
  | .free => 1
  | .held => 2
  | .revoking => 3
  | .scrub => 4
  | .quarantine => 5
  | .lost => 6
  | .internal => 7

def State.extRecord (s : State) (node e : Nat) : Nat :=
  let x := s.ext node e
  let own := node = s.node
  layout [(0, 0, 4, extState x.state), (0, 4, 12, x.owner), (0, 16, 1, b2n x.group.isSome), (0, 17, 10, x.group.getD 0),
    (0, 27, 5, x.tenant), (4, 0, 1, b2n (own && s.inBoard e)), (4, 1, 1, x.die), (4, 2, 1, b2n (own && (s.bindOf e).isSome)),
    (4, 3, 1, b2n (own && s.tier.moves.has [e]))]

/-- The extent that POL_SEL names: of the own node, or of a lent one. -/
def State.selected (s : State) : Nat × Nat :=
  (if s.on R.POL_SEL_lent [] then s.rd R.POL_LEND_node [s.rd R.POL_SEL_lend []] else s.node, s.rd R.POL_SEL_extent [])

/-- The entry that EDG_SEL names (R126). -/
def State.selectedWin (s : State) : Nat :=
  s.edgeWin.get 0 [selOf (s.rd R.EDG_SEL_port [] + s.rd R.EDG_SEL_agent [] <<< 8), s.rd R.EDG_SEL_index []]

/-- The entries of a map that belong to a die. -/
def onDie {α : Type} (m : Map α) (d : Nat) : Nat := m.count (fun k _ => decide (k.head? = some d))

/-- CMP_CORE_STATUS.state: the core waits on a handle while the word at its pc names a register that a hacq or hres has
still to write (R218, R280). -/
def State.coreState (s : State) (n : Nat) : Nat :=
  let k := s.core n
  if s.cst (n / 8) ≠ Cs.ready ∧ s.cst (n / 8) ≠ Cs.offlining then 3
  else if k.task.isNone then 0
  else match (s.codeOf k)[k.pc / 8]? with
    | some w => if (scalarsOf (w.toNat % 256) w.toNat).any (fun r => k.acqs.any (fun a => decide (a.d = r))) then 2 else 1
    | none => 1

/-- Connections of a die that satisfy `p`. -/
def State.qpsOn (s : State) (d : Nat) (p : Qp → Bool) : Nat := s.qpe.qps.count (fun k q => decide (dieOfQp (k.headD 0) = d) && p q)

/-- Fields that show what another part of the state holds; none for a field that holds its own value. `i` and `j` are its
indices. -/
def State.shown (s : State) (f : Fld) (i j : Nat) : Option Nat :=
  let h := (s.core i).handles.get? [j]
  let is (g : Fld) : Bool := decide (f.num = g.num)
  if is R.TIM_FT_ft then some (s.ftHub % 2 ^ 64)
  else if is R.SWC_WIN_STATUS_entries then some (onDie s.sw.wins i)
  else if is R.SWC_BUF_STATUS_free then
    some (393216 - s.sw.agentCells.get 0 [i] -
      ((List.range 128).map (· + 128 * i)).foldl (fun a p => a + (s.port p).heldCells.vals.foldl (· + ·) 0) 0)
  else if is R.EDG_WIN_DATA0_entry_lo then some (bitsOf s.selectedWin 0 64)
  else if is R.EDG_WIN_DATA1_entry_hi then some (bitsOf s.selectedWin 64 64)
  else if is R.TRK_STATUS_home_live then some (onDie s.trk.home i)
  else if is R.TRK_STATUS_issued_live then some (s.issuedLive i)
  else if is R.TRK_STATUS_fwd_live then some (onDie s.trk.fwd i)
  else if is R.TRK_COMB_STATUS_open then some (onDie s.trk.comb i)
  else if is R.COH_STATUS_bound then some (s.boundOn i none)
  else if is R.COH_STATUS_reclaim_active then some (b2n (decide (s.coh.walks ≠ Map.empty)))
  else if is R.POL_STATUS_free then some (s.countExt s.node .free)
  else if is R.POL_STATUS_lost then some (s.countExt s.node .lost)
  else if is R.POL_EXT_DATA_record then some (s.extRecord s.selected.1 s.selected.2)
  else if is R.POL_LIMIT_waiting then some (s.pool.limitQ.get [] [i, 0, j]).length
  else if is R.POL_TENANT_QUOTA_held then some (s.heldBy i)
  else if is R.MEM_MIG_STATUS_active then some (s.movesOf i)
  else if is R.MEM_MIG_STATUS_stack_free then some (s.stackFree i)
  else if is R.MEM_STACK_STATUS_occupied then some (s.taken false i).length
  else if is R.MEM_PC_STATUS_refresh_owed then some ((s.pc i j).owed.vals.foldl max 0)
  else if is R.BRD_CH_STATUS_occupied then some (s.taken true i).length
  else if is R.BRD_KEY_STATUS_slots then some (s.tier.tags.vals.filter (fun t => decide (t = i))).length
  else if is R.CMP_CLUSTER_STATUS_overflow then some (s.overflow i)
  else if is R.CMP_CLUSTER_STATUS_handles then some ((coresOf i).foldl (fun a n => a + (s.core n).handles.size) 0)
  else if is R.CMP_CORE_STATUS_state then some (s.coreState i)
  else if is R.CMP_CORE_STATUS_depth then some (s.core i).deque.length
  else if is R.CMP_CORE_STATUS_image then some (((s.core i).task.map dImage).getD 0)
  else if is R.CMP_HANDLE_bound then some (b2n h.isSome)
  else if is R.CMP_HANDLE_csram then h.map (fun x => b2n x.csram)
  else if is R.CMP_HANDLE_slot_log2 then h.map (fun x => x.slotLog2)
  else if is R.CMP_HANDLE_producer then h.map (fun x => x.producer)
  else if is R.CMP_HANDLE_slots_m1 then h.map (fun x => x.slots - 1)
  else if is R.CMP_HANDLE_prod then h.map (fun x => x.p % 65536)
  else if is R.CMP_HANDLE_cons then h.map (fun x => x.c % 65536)
  else if is R.QPE_STATUS_cached then some (s.qpe.cached.get [] [i]).length
  else if is R.QPE_STATUS_active then some (s.qpsOn i (fun q => decide (q.state = Qs.active)))
  else if is R.QPE_STATUS_flushing then some (s.qpsOn i (fun q => q.flushing))
  else if is R.SEC_TENANT_clusters then some (s.clusterMask i)
  else if is R.SEC_TENANT_objects then some (s.objects i)
  else if is R.SEC_DEBUG_NONCE_nonce then some (bitsOf s.debugNonce (64 * i) 64)
  else if is R.RAS_SUMMARY_blocks then some s.summary
  else if is R.RAS_PUPPET_STATUS_synced then some s.syncedCount
  else none

/-- What a field reads as: 0 where it is write-only (R9), its reset value before its block is READY (R443), else what it
shows or holds. -/
def State.readField (s : State) (f : Fld) (ix : List Nat) : Nat :=
  if f.acc = .wo then 0 else if 1 ≤ f.block ∧ f.block ≤ 20 ∧ !s.isReady f.block then f.resetAt ix else ((s.shown f (ix.headD 0) (ix.getD 1 0)).getD (s.rd f ix)) % 2 ^ f.w

/-- The fields of a virtual function's view (R435): those of every view, and the status entries of its own objects. -/
def State.seen (s : State) (fn : Nat) (f : Fld) (ix : List Nat) : Bool :=
  let i := ix.headD 0
  if fn = 0 then true
  else match f.block with
    | 1 => decide (f.off = 0 ∨ f.off = 0x20 ∨ f.off = 0x28)
    | 2 => decide (8 ≤ f.off ∧ f.off ≤ 0x20)
    | 11 => f.perFn || decide (f.off = 0x1018 ∧ s.clusterTenant i = fn)
    | 13 => f.perFn || decide (f.off = 0x10000 ∧ s.rd R.CLT_COLL_STATUS_tenant [i] = fn ∧ s.rd R.CLT_COLL_STATUS_state [i] ≠ 0)
    | 14 => f.perFn || decide (f.off = 0x10000 ∧ s.rd R.GTH_TABLE_STATUS_tenant [i] = fn ∧ s.rd R.GTH_TABLE_STATUS_valid [i] = 1)
    | 12 => f.perFn
    | 15 => f.perFn || decide (f.num = R.CDC_STREAM_descriptor.num ∧ Stream.tenant (s.rd f ix) = fn)
    | 20 => decide (0x10000 ≤ f.off ∧ i = fn)
    | _ => false

/-- The blocks of a function's capability list (R435, R442). -/
def viewBlocks (fn : Nat) : List Nat := if fn = 0 then (List.range 20).map (· + 1) else [1, 2, 11, 12, 13, 14, 15, 20]

/-- How many instances a block has (R443). -/
def instances (blk : Nat) : Nat := [1, 1, 256, 1, 1, 2, 2, 2, 20, 8, 16, 2, 2, 2, 2, 1, 1, 1, 1, 32].getD (blk - 1) 0

/-- The capability entry of a block, as 32 bytes (R442). -/
def State.capability (s : State) (fn blk : Nat) : Nat :=
  let l := viewBlocks fn
  if l.contains blk then
    let next := (l.find? (fun b => decide (blk < b))).map (fun b => 0x100 + 32 * (b - 1))
    layout [(0, 0, 8, blk), (0, 8, 8, 1), (0, 16, 1, 1), (0, 17, 1, b2n (s.isReady blk)),
      (0, 18, 1, b2n (bitAt (s.rd R.GLB_DEGRADED_degraded []) blk)), (4, 0, 32, next.getD 0), (8, 0, 64, blk * 0x400000),
      (16, 0, 16, instances blk)]
  else 0

/-- The 64-bit word at an offset of a function's BAR0: the capability list, or the fields its view shows. -/
def State.readBar0 (s : State) (fn off : Nat) : Nat :=
  let off := off / 8 * 8
  if off < 0x400000 then
    if 0x100 ≤ off ∧ off < 0x380 then bitsOf (s.capability fn ((off - 0x100) / 32 + 1)) (8 * ((off - 0x100) % 32)) 64 else 0
  else
    (fieldsAt (off / 2 ^ 22) (off % 2 ^ 22) fn).foldl
      (fun a e => if s.seen fn e.1 e.2.1 then a ||| e.1.place e.2.2 (s.readField e.1 e.2.1) else a) 0

end Sys2Proof.Machine
end

