-- ==== Sys2Proof/Tests/Slice0.lean ====
section
/-! SUPPORT. Tests: states that meet every statement's hypotheses, commands that the ranges of operands refuse, and single
steps whose results the spec gives. -/

namespace Sys2Proof.Tests
set_option Elab.async false
open Sys2Proof Sys2Proof.Machine

/-- Port 3 in a state of R79. -/
def portAt (st : Nat) (r : Port) : State :=
  { State.reset.wr R.PRT_PORT_STATUS_state [3] st with ports := Map.empty.set [3] r }

/-- Every block READY. -/
def allReady : State := State.reset.wr R.GLB_READY_ready [] 0xFFFFFFFF

/-- Extent 0 of node 0 HELD by slot 0, in a stack; one free extent beside it. -/
def heldExt : State :=
  { State.reset.wr R.POL_STATUS_extents [] 2 with
    pool := { ext := Map.empty.set [0, 0] { state := .held } }, tier := { loc := Map.empty.set [0] {} } }

/-- The same with domain 1 bound to it, and endpoint 9 in its slot 2, endpoint 8 in slot 1. -/
def boundExt : State :=
  (heldExt.wr R.COH_BIND_valid [0] 1).wr R.COH_BIND_domain [0] 1 |>.wr R.COH_MEMBER_valid [1, 2] 1 |>.wr R.COH_MEMBER_eid [1, 2] 9
    |>.wr R.COH_MEMBER_valid [1, 1] 1 |>.wr R.COH_MEMBER_eid [1, 1] 8

/-- A live entry 0 of die 0 with a purpose, of tag 0x500000 (generation 5). -/
def issuedOne (p : Purpose) (m : Msg) : State :=
  { State.reset with trk := { issued := Map.empty.set [0, 0] { gen := 5, msg := m, issuer := .core 0, purpose := p, since := 0 } } }

/-- Every block READY, time LOCKED, four extents of node 0, and slot 3 leased to endpoint 9. -/
def leased : State :=
  ((allReady.wr R.TIM_STATUS_state [] 2).wr R.POL_STATUS_extents [] 4).wr R.POL_LEASE_valid [3] 1 |>.wr R.POL_LEASE_eid [3] 9
    |>.wr R.POL_LEASE_duration [3] 1000 |>.wr R.POL_TENANT_QUOTA_quota [0] 8 |>.wr R.MEM_STACK_STATUS_state [0] 1

/-- The same with extent 0 in a state, in slot 0 of stack 0. -/
def extIn (st : ExtState) : State :=
  { leased with pool := { ext := Map.empty.set [0, 0] { state := st, owner := 3 } }, tier := { loc := Map.empty.set [0] {} } }

/-- The same with revocation 7 of extent 0. -/
def revoked (st : ExtState) (r : Revocation) : State :=
  { extIn st with pool := { (extIn st).pool with revs := Map.empty.set [7] r, nextRev := 8 } }

/-- The same with node 6 lent by endpoint 40 on port 3. -/
def lending : State :=
  ((leased.wr R.POL_LEND_valid [0] 1).wr R.POL_LEND_node [0] 6).wr R.POL_LEND_eid [0] 40 |>.wr R.POL_LEND_port [0] 3
    |>.wr R.POL_LEND_extents [0] 10 |>.wr R.PRT_PORT_STATUS_state [3] 5 |>.wr R.PRT_PORT_STATUS_partner_lender [3] 1

/-- Every block READY, pseudo-channel 1 of stack 0 in a state, the stack READY and at its cap of columns far away. -/
def pcIn (st : Nat) (q : Pc) : State :=
  { (allReady.wr R.MEM_STACK_STATUS_state [0] 1).wr R.MEM_PC_STATUS_state [0, 1] st with tier := { pcs := Map.empty.set [0, 1] q }, now := 100000 }

/-- Extent 0 HELD in slot 0 of stack 0, stacks 0 and 1 READY, one module of 4 slots, tiering on, and a move of extent 0. -/
def tiered (m : Option Move) : State :=
  let s := ((((((heldExt.wr R.GLB_READY_ready [] 0xFFFFFFFF).wr R.MEM_STACK_STATUS_state [0] 1).wr R.MEM_STACK_STATUS_state [1] 1).wr
    R.BRD_CH_STATUS_state [0] 2).wr R.BRD_CH_STATUS_slots [0] 4).wr R.MEM_TIER_CFG_enable [] 1).wr R.MEM_TIER_CFG_low_free [] 20
  { s with now := 100000, tier := { s.tier with moves := (m.map (fun x => Map.empty.set [0] x)).getD Map.empty } }

/-- Core 0 at a word of an image of tenant 0, with a snop behind it. -/
def running (w : BitVec 64) (k : Core) : State :=
  { allReady with images := Map.empty.set [0, 1] { code := [w, 0x3A], digest := 0 },
                  cores := Map.empty.set [0] { k with task := some (1 <<< 32) } }

/-- The same with scalar registers 1, 2 and 3. -/
def withS (w : BitVec 64) (a b c : Nat) : State := running w { s := ((Map.empty.set [1] a).set [2] b).set [3] c }

/-- An EMBED table of 100 rows of 256 elements on cluster 0, and a lookup of two of its rows with endpoint 5 as its home. -/
def embedT : Nat :=
  layout [(4, 7, 8, 1), (4, 21, 8, 1), (16, 0, 32, 0x10000), (36, 0, 32, 100), (40, 0, 13, 256), (44, 0, 32, 1024)]
def lookupQ : Nat := layout [(4, 0, 32, 7), (8, 0, 11, 2), (8, 11, 1, 1), (8, 12, 4, 4), (16, 0, 16, 5), (28, 0, 13, 40)]
def hG : Handle := { base := 0x1000, slotLog2 := 1, producer := 2, slotsLog2 := 2 }

/-- Endpoint 5 with the table. -/
def gatherer : State :=
  { allReady.wr R.GLB_NODE_eid [] 5 with gth := { tables := Map.empty.set [0] { desc := embedT, gen := 0 } } }

/-- Core 0 at a word, with a handle for lookups and the lookup at 64. -/
def gathering (w : BitVec 64) : State :=
  let s := running w { s := Map.empty.set [1] 64, handles := Map.empty.set [2] hG }
  { s.wr R.GLB_NODE_eid [] 5 with spm := Mem.writeAll [] 64 (bytesOfNat 40 lookupQ), gth := gatherer.gth }

/-- A collective of one chunk of 512 bf16 elements, its owner at endpoint 9, and core 0 with a contribution at 128. -/
def collX : Nat := layout [(4, 8, 4, 4), (4, 12, 4, 4), (8, 0, 5, 2), (8, 8, 7, 1), (12, 0, 11, 1), (12, 12, 9, 1)]
def contributing (w : BitVec 64) : State :=
  { withS w 0 128 1024 with clt := { colls := Map.empty.set [0] { desc := collX, owners := Map.empty.set [0] 9 } } }

/-- An ACTIVE queue pair 0, and core 0 with a work request at 64. -/
def qpG : Qp := { state := 2 }
def posting (w : BitVec 64) : State := { withS w 0 64 0 with spm := [(64, 1)], qpe := { qps := Map.empty.set [0] qpG } }

/-- A part whose cluster 2 is in a state; core 16 is its first. -/
def cluIn (st : Nat) : State := { allReady.wr R.CMP_CLUSTER_STATUS_state [2] st with images := Map.empty.set [0, 1] { code := [0x3A], digest := 0 }, now := 10000000 }

/-- A NOP that waits for a count of queue pair 8 for at most 3 beats. -/
def wrW : Nat := layout [(0, 0, 8, 6), (0, 10, 1, 1), (48, 0, 18, 8), (52, 0, 32, 9), (56, 0, 32, 3)]

/-- Queue pair 7 in RESET with the image of INIT staged. -/
def initQp : State :=
  { ((allReady.wr R.QPE_CMD_STAGE_word [0, 0] 1).wr R.QPE_CMD_STAGE_word [4, 0] 0x404).wr R.QPE_CMD_STAGE_word [9, 0] 0x1000A00000000
      |>.wr R.QPE_CMD_STAGE_word [10, 0] 1 with
    now := 1000000, qpe := { qps := Map.empty.set [7] {}, pds := Map.empty.set [0] 0, cqs := Map.empty.set [0] { base := 0, log2 := 4 } } }

/-- A descriptor of tenant 0: core 2, handle 7, fp32 out, tags at 64; a code table of one symbol. -/
def streamX : Nat := layout [(0, 0, 1, 1), (0, 6, 3, 2), (0, 9, 4, 3), (0, 13, 4, 3), (0, 17, 7, 2), (0, 24, 4, 7), (8, 0, 32, 64)]
def codeT : Nat := 1 <<< 512

/-- The descriptor and the table staged by function 0. -/
def streaming : State :=
  ((allReady.wr R.CDC_STAGE_word [0, 0] (streamX % 2 ^ 64)).wr R.CDC_STAGE_word [1, 0] 64).wr R.CDC_STAGE_word [12, 0] 1

/-- Stream 5 of die 0 with its ring in core 2; a raw message of one element, 1.0, and a block that waits. -/
def expanding (h : Handle) : State :=
  { (allReady.wr R.CDC_STREAM_descriptor [0, 5] (setBits streamX 28 8 1)).wr R.CDC_TABLE_lengths [0, 5, 0] codeT with
    cores := Map.empty.set [2] { handles := Map.empty.set [7] h } }
def expM : Msg := { ty := 0xA8, chan := 4, len := 36, body := codecHeader 5 1 3 0 0 1 1 0 <<< 128 + 0x3f800000 <<< 256 }
def expW : Expansion := { die := 0, stream := 5, port := 3, msg := expM, core := 2, handle := 7, bytes := 1024, out := 3, tagBase := 64, blocks := [(0, 0)] }

/-- A collective of one s32 chunk of 256 elements with three shards; one with an update of two chunks; one without an owner. -/
def collP : Nat := layout [(4, 8, 4, 9), (4, 12, 4, 9), (8, 0, 5, 1), (8, 8, 7, 1), (12, 0, 11, 3), (12, 12, 9, 1), (16, 0, 16, 0xFFFF), (20, 0, 32, 1000), (24, 0, 32, 50)]
def collU : Nat := layout [(4, 4, 1, 1), (4, 8, 4, 3), (4, 12, 4, 3), (8, 0, 5, 1), (8, 8, 7, 1), (8, 16, 16, 1), (12, 0, 11, 2), (16, 0, 16, 0xFFFF), (20, 0, 32, 1000), (28, 8, 4, 1)]
def collC (x : Nat) (a : Map Accum) : Coll :=
  { desc := x, owners := Map.empty.set [0] 0, accs := a, groups := if coUpdate x then Map.empty.set [0, 0] { core := 0, since := 0 } else Map.empty }
def collR (c : Coll) : Coll := { c with desc := collP }
def collecting (x : Nat) (a : Map Accum) : State :=
  { (allReady.wr R.GLB_NODE_eid [] 0).wr R.CLT_COLL_STATUS_state [0] 3 with clt := { colls := Map.empty.set [0] (collC x a) } }
def stepIn (st : Nat) (c : Coll) : State :=
  { (allReady.wr R.CLT_COLL_STATUS_state [0] st).wr R.TIM_STATUS_state [] 2 |>.wr R.CLT_CMD_STAGE_word [0, 0] (7 + 100 <<< 32) with clt := { colls := Map.empty.set [0] (collR c) } }
def stagedColl : State :=
  (List.range 16).foldl (fun s k => s.wr R.CLT_CMD_STAGE_word [k, 0] (bitsOf collP (64 * k) 64)) allReady
def accA : Accum := { owner := 0, bits := 2, open_ := 1 }
def accB : Accum := { owner := 0, bits := 4, open_ := 1, elems := [5, 6] }
def clWork : Expansion := { expW with msg := { ty := 0x90 }, blocks := [], verdict := some (.ok, true), elems := [1, 2], out := 9 }
def plainM : Msg := { ty := 0x91, chan := 1, len := 1040, body := 1 <<< 80 + 77 <<< 128 }
/-- The same with core 0 as member 0 and its ring of four slots of 1,024 bytes. -/
def collMember (h : Handle) : State :=
  { collecting collP Map.empty with
    clt := { colls := Map.empty.set [0] { collC collP Map.empty with members := Map.empty.set [0] 1 } },
    cores := Map.empty.set [0] { handles := Map.empty.set [0] h } }
def ringed : State := collMember { base := 0x1000, slotLog2 := 2, producer := 3, slotsLog2 := 2 }
/-- Its group of chunk 0 with core 0, whose counter 0 is `v`. -/
def updating (v : Nat) : State :=
  { collecting collU Map.empty with cores := Map.empty.set [0] { ctr := Map.empty.set [0] (v, .ok) }, now := 1000000 }

/-- The same table with a limit for its passes, staged; and a request of its lookup. -/
def embedL : Nat := embedT + layout [(12, 0, 32, 65536), (20, 0, 16, 100)]
def stagedTable : State := (List.range 8).foldl (fun s k => s.wr R.GTH_CMD_STAGE_word [k, 0] (bitsOf embedL (64 * k) 64)) allReady
def lookupOne : Nat := layout [(8, 0, 11, 1), (8, 11, 1, 1), (8, 12, 4, 4), (28, 0, 13, 36), (32, 0, 32, 5)]
def lookupR (q : GReq) : GReq := { q with origin := .net {}, slot := 0 }
def lookR : GReq := { origin := .net {}, slot := 0, req := 0, tenant := 0 }
/-- A request of the unit of die 0, its core 0 notified. -/
def lookingUp (q : GReq) : State :=
  { gatherer with cores := Map.empty.set [0] { ctr := Map.empty.set [0] (1, .ok) },
                  gth := { gatherer.gth with reqs := Map.empty.set [0, 3] (lookupR q) } }
/-- A table of 100 blocks with summaries of 32 elements, and a filter of its first 40 blocks. -/
def filterT : Nat := layout [(4, 0, 1, 1), (4, 21, 8, 1), (16, 0, 32, 0x10000), (36, 0, 32, 100), (40, 0, 13, 32), (44, 0, 32, 1024), (48, 0, 32, 1024)]
def filterQ : Nat := layout [(12, 0, 32, 40), (20, 0, 9, 4), (20, 17, 1, 1), (28, 0, 13, 40)]

/-- Function f in a bounce session with a ring of 64 KiB, of which 32 bytes wait. -/
def inSession (f : Nat) : State :=
  let s := (allReady.wr R.SEC_SESSION_state [f] 2).wr R.SEC_TENANT_session_open [f] 1
  { s with hif := { bar4 := ((Map.empty.set [f, 8, 1] 16).set [f, 0x10, 1] 64).set [f, 0x28, 1] 16, msixOpen := Map.empty.set [f, 1] () } }

/-- Firmware runs; the boot ROM is in recovery; firmware runs and the pool is not up; the image store is in stack 0. -/
def running2 : State := allReady.wr R.SEC_BOOT_STATUS_stage [] 2
def recovering : State := allReady.wr R.SEC_BOOT_STATUS_stage [] 1
def bringing : State := ((State.reset.wr R.SEC_BOOT_STATUS_stage [] 2).wr R.SEC_BOOT_STATUS_config_ok [] 1).wr R.POL_STATUS_extents [] 8
def storing : State := { running2.wr R.MEM_STACK_STATUS_state [0] 1 with tier := { store := some 5, loc := Map.empty.set [5] {} } }

/-- The part has its identity. -/
def identified : State := running2.wr R.SEC_BOOT_STATUS_identity_ok [] 1

/-- An aperture of function 5; a manager device; a part with nothing to do. -/
def windowed : State := { allReady with hif := { bar4 := Map.empty.set [5, 0, 2] 1 } }
def managing : State := running2.wr R.RAS_MGR_CFG_role [] 1
def quiet : State := (List.range 256).foldl (fun s p => s.wr R.PRT_PORT_CTL_enable [p] 0) allReady

/-- A worker, endpoint 5, of the manager device 9; and a manager device with an update of worker 77 outstanding. -/
def working : State := (identified.wr R.RAS_MGR_CFG_manager_eid [] 9).wr R.GLB_NODE_eid [] 5
def sentU (n q : Nat) : SentUpd := { upd := { seq := q, op := 0x502, operands := [] }, sentAt := 0, sends := n }
def workW (n q : Nat) : Worker := { next := q + 1, out := [sentU n q] }
def relaying (n q : Nat) : State := { managing with ras := { workers := Map.empty.set [77] (workW n q) } }

/-- Endpoint 5 shadows extent 0 to puppet 6; and a puppet of primary 9. -/
def shadowing : State :=
  { (heldExt.wr R.GLB_READY_ready [] 0xFFFFFFFF).wr R.GLB_NODE_eid [] 5 |>.wr R.RAS_PUPPET_STATUS_state [] 1 with
    pair := { primary := 5, puppet := 6, chunks := Map.empty.set [0] 0 } }
def puppeting : State := { working.wr R.RAS_PUPPET_STATUS_state [] 2 with pair := { primary := 9, puppet := 5 } }

open Sys2Proof.Safety

/-! ### One step or one operation, with the value the spec gives -/

/-- The state a command answers. -/
def after (o : Host.Outcome State Fault Refusal) : State :=
  match o with
  | .next t => t
  | _ => State.reset

/-- 00, the example under R3: the node and the offset of a fabric address. -/
theorem test_address : nodeOf 0x2A300080000000 = 0x2A3 ∧ offsetOf 0x2A300080000000 = 0x80000000 := by decide +kernel

/-- R14: where two conditions hold, the one with the lower precedence number stands; an unsupported operation comes first. -/
theorem test_status_precedence :
    Status.join .revoked .protViolation = .protViolation ∧ Status.join .unsupported .timeout = .unsupported ∧
    Status.join .ok .timeout = .timeout ∧ Status.retry.code = 0xD := by decide +kernel

/-- The worker of the example under R45, with its request outstanding at 1,000 ns. -/
def asking : State :=
  { State.reset.wr R.TIM_STATUS_state [] 2 with tim := { request := some (3, 7, 256000), held := true } }

/-- The example under R45: a delay of 10.5 ns, and the worker 0.25 ns ahead. -/
theorem test_delayRsp :
    let t := after (exec (.delayRsp 3 { ty := 3, seq := 7, tx := 335424, rx := 258624 } 338176) asking)
    t.rd R.TIM_PORT_DELAY_delay [3] = 2688 ∧ t.rd R.TIM_OFFSET_o [] = 64 ∧ t.tim.request = none := by decide +kernel

/-- The example under R77: 186 flits outstanding from 0xF80; a NAK of 0xFC0 releases 64 and leaves 122. -/
theorem test_nak :
    let r : Port := { replay := (List.range 186).map (fun i => { seq := (0xF80 + i) % 4096 }) }
    ((r.release 0xFC0 0).1.replay.length, (r.release 0xFC0 0).2, ((r.release 0xF7F 0).2)) = (122, true, false) := by decide +kernel

/-- The example under R136: adds of 1, 2, 3 and 4 go to the home as one of 10. -/
theorem test_combined_add :
    let m (n : Nat) : Msg := { ty := 0x14, len := 24, body := reqBody 128 n 8 true 0 true n }
    (combined [m 1, m 2, m 3, m 4]).map Msg.opA = some 10 := by decide +kernel

/-- The example under R170: a renewal at beat 0xFFFFF000 expires at 0x001DBD65, which is ahead across the wrap. -/
theorem test_lease_wrap :
    (0xFFFFF000 + 1953125) % 2 ^ 32 = 0x1DBD65 ∧ ahead 0x1DBD65 0xFFFFF000 = true ∧ dist 32 0x1DBD65 0xFFFFF000 = 1953125 := by
  decide +kernel

/-- A read of what was stored, of what was not (log 6), and the one form of a memory whose byte is cleared. -/
theorem test_memory :
    Mem.readN (Mem.writeAll [] 126 [1, 0, 3]) 125 5 = [0, 1, 0, 3, 0] ∧
    Mem.write (Mem.writeAll [] 126 [1, 2, 3]) 127 0 = [(126, 1), (128, 3)] := by decide +kernel

/-- A WR of 8 bytes reaches the memory of its extent in the order of R7. -/
theorem test_wr :
    (after (exec (.wr 0 { ty := 0x12, src := 9, len := 24, body := reqBody 128 3 8 false 0 false 0x1122334455667788 }) heldExt)).mem =
      [(128, 0x88), (129, 0x77), (130, 0x66), (131, 0x55), (132, 0x44), (133, 0x33), (134, 0x22), (135, 0x11)] := by decide +kernel

/-- R32: a second request while one is pending is refused with RETRY. -/
theorem test_mode_busy :
    (after (exec (.modeChangeRequest 2 0) (State.reset.wr R.PWR_MODE_STATUS_pending [] 1))).rd R.PWR_MODE_STATUS_result [] = 0xD := by
  decide +kernel

/-- The example under R442: the walk of a virtual function's list, from GLB to MRN. -/
theorem test_capability_walk :
    [0x100, 0x120, 0x240, 0x260, 0x280, 0x2A0, 0x2C0, 0x360].map (fun e => State.reset.readBar0 3 e / 2 ^ 32) =
      [0x120, 0x240, 0x260, 0x280, 0x2A0, 0x2C0, 0x360, 0] ∧
    State.reset.readBar0 3 0x248 = 11 * 0x400000 ∧ State.reset.readBar0 3 0x140 = 0 := by decide +kernel

/-- R79: a port that is enabled at reset waits in DETECT. -/
theorem test_port_detect : (after (exec (.portEnable 0) State.reset)).pst 0 = 1 := by decide +kernel

/-! The example under R322. -/

def tableX : Nat := 4 <<< (4 * 126) + 3 <<< (4 * 127) + 1 <<< (4 * 128) + 3 <<< (4 * 129) + 4 <<< (4 * 130)

theorem test_codewords :
    [126, 127, 128, 129, 130].map (codeword tableX) = [0b1100, 0b100, 0, 0b101, 0b1101] ∧ tableValid tableX = true := by decide +kernel

/-- 0.75, -0.25, 0.0 and 1.0 at b = 2: the block's first six bytes, CODED. -/
theorem test_encode :
    encodeBlock tableX 0 0 ([0x3F400000, 0xBE800000, 0, 0x3F800000].map fp32.decode) = (0x0B1B007DA060, 0) := by decide +kernel

/-- The elements come back as 0.8125, -0.40625, 0 and 0.8125. -/
theorem test_decode :
    decodeBlock tableX 0 0 4 fp32 0x0B1B007DA060 = .inr [0x3F500000, 0xBED00000, 0, 0x3F500000] := by decide +kernel

/-- The example under R238: ((a + b) + c) + d is 0, and ((b + c) + a) + d is 2. -/
theorem test_fp32_orders :
    fp32.add (fp32.add (fp32.add 0x4B800000 0x3F800000) 0x3F800000) 0xCB800000 = 0 ∧
    fp32.add (fp32.add (fp32.add 0x3F800000 0x3F800000) 0x4B800000) 0xCB800000 = 0x40000000 := by decide +kernel

/-- R253: sadd wraps at 64 bits: 7 + (2^64 - 3) is 4. -/
theorem test_sadd : ((after (exec (.sadd 0 0x82501) (withS 0x82501 7 (2 ^ 64 - 3) 0))).core 0).sr 5 = 4 := by decide +kernel

/-- R253: a division by zero writes all ones and sets FLAGS.div_zero. -/
theorem test_sdiv_zero :
    let k := (after (exec (.sdiv 0 0x8250E) (withS 0x8250E 7 0 0))).core 0
    k.sr 5 = 2 ^ 64 - 1 ∧ bitAt k.flags 1 = true := by decide +kernel

/-- R244: s0 stays 0. -/
theorem test_s0 : ((after (exec (.sadd 0 0x82001) (withS 0x82001 7 1 0))).core 0).sr 0 = 0 := by decide +kernel

/-- The example under R250: the fields of vfma.bf16 at 0x9304100843, and v8 = v0 * v4 + v8 in its first lane. -/
theorem test_vfma :
    let x := 0x9304100843
    (fD x, fA x, fB x, fC x, fT x) = (8, 0, 4, 8, 4) ∧
    bf16.fma 0x4000 0x4040 0x3F80 = 0x40E0 := by decide +kernel

/-- The example of fatom.add.u64 in 11: its fields. -/
theorem test_fatom_fields :
    let x := 0x10C000301CC5C3
    (fD x, fA x, fB x, gCn x, gT x) = (5, 6, 7, 3, 0) ∧ (gAop x, gFetch x, gComb x, gTc x, gCnen x) = (0, true, true, 0, true) := by
  decide +kernel

/-- The example under R304: the resent packet is a duplicate. -/
theorem test_psn : dist 24 0x1F40 0x1F41 = 2 ^ 24 - 1 := by decide +kernel

/-- R181: 200 GB/s is 2,000 units, and gains 204,800 bytes a beat; the bucket counts tenths of bytes. -/
theorem test_refill :
    let s := { leased.wr R.POL_LIMIT_rate [0, 3] 2000 |>.wr R.POL_LIMIT_burst [0, 3] 1024 with
      pool := { leased.pool with tokens := Map.empty.set [0, 0, 3] 0 } }
    (after (exec (.bucketRefill 0) s)).tokens [0, 0, 3] = 2048000 := by decide +kernel

/-- R164: GRANT of a FREE extent gives it to the slot. -/
theorem test_grant :
    let t := after (exec (.grant 3 0 0 0 0) leased)
    ((t.ext 0 0).state, (t.ext 0 0).owner) = (.held, 3) := by decide +kernel

/-- R37: a beat is ahead up to 2^31 - 1 of now; a launch set too late happens at the next beat. -/
theorem test_ahead :
    ahead 5 5 = false ∧ ahead (5 + 2 ^ 31 - 1) 5 = true ∧ ahead (5 + 2 ^ 31) 5 = false ∧ launchBeat 4 5 = 6 := by decide +kernel

/-- Messages within their fields only are well formed. -/
theorem test_illFormed_fields :
    ([{ chan := 4 }, { tc := 8 }, { dst := 65536 }, { src := 65536 }, { ty := 256 }, { mapGen := 256 }, { status := 16 },
      { load := 16 }, { len := 4097 }, { flowSeq := 65536 }, { flow := 4096 }, { die := 2 }, { tenant := 32 }, { body := 1 }]
      : List Msg).all (fun m => !(Instr.messageArrival 0 m).wellFormed) = true ∧
    ([{ kind := 8 }, { chan := 4 }, { tc := 8 }, { seq := 4096 }, { ackSeq := 4096 }, { creditVc := 32 }, { creditTotal := 4096 },
      { payload := 2 ^ 1920 }] : List Flit).all (fun f => !(Instr.flitReceived 0 f false).wellFormed) = true ∧
    ([{ ty := 256 }, { hop := 256 }, { gen := 65536 }, { seq := 65536 }, { master := 65536 }, { tx := 2 ^ 72 }, { rx := 2 ^ 72 }]
      : List Cricket).all (fun c => !(Instr.sync 0 c 0).wellFormed) = true ∧
    ([{ vendor := 65536 }, { eid := 65536 }, { role := 2 }, { widths := 16 }, { goodLanes := 256 }] : List Caps).all
      (fun c => !(Instr.caps 0 c).wellFormed) = true ∧
    (Instr.messageArrival 255 { len := 4096, body := 2 ^ 32768 - 1 }).wellFormed = true := by decide +kernel

/-! ### Operands outside their ranges -/

/-- One command for each check of an operand, at the first value outside its range: each is refused. -/
theorem test_illFormed_1 :
    ([
    .registerWrite 32 0 0 false, .registerWrite 0 (2 ^ 28 + 2 ^ 24) 0 false, .registerWrite 0 4 0 true,
    .registerWrite 0 0 (2 ^ 64) true, .registerWrite 0 2 0 false, .registerWrite 0 0 (2 ^ 32) false, .hubLinkLoss 2,
    .hubLinkReturn 2, .modeChangeRequest 4 0, .modeChangeRequest 0 (2 ^ 32), .voltageTrim 2 0, .powerWindow 65536,
    .thermalWindow 256 0 0 0 0, .thermalWindow 0 256 0 0 0, .thermalWindow 0 0 256 0 0, .thermalWindow 0 0 0 256 0,
    .thermalWindow 0 0 0 0 20, .thermalCritical 2 0, .thermalCritical 0 256, .thermalTrip 0 256, .roleSet (2 ^ 64),
    .sync 256 {} 0, .sync 0 { ty := 256 } 0, .delayReq 256 {} 0 0, .delayReq 0 { ty := 256 } 0 0, .delayRsp 256 {} 0,
    .delayRsp 0 { ty := 256 } 0, .cricketReservedType 256 {}, .cricketReservedType 0 { ty := 256 },
    .snapCapture (2 ^ 64), .portEnable 256, .portDisable 256, .portAdmit 256, .portAdmitClear 256, .retrain 256,
    .laneRetrain 256 0, .laneRetrain 0 8, .laneSerExceeded 256 0, .laneSerExceeded 0 8, .signalDetect 256,
    .equaliseDone 256 0, .lockDone 256 0 false, .trainingTimeout 256, .configRepeat 256, .initCreditRepeat 256,
    .flitReceived 256 {} false, .flitReceived 0 { kind := 8 } false, .codewordUncorrectable 256 0 0,
    .codewordUncorrectable 0 8 0, .nak 256 0, .nak 0 4096, .initCredit 256 [], .caps 256 {}, .caps 0 { role := 2 },
    .widthChange 256 0 0 false, .widthChange 0 (2 ^ 32) 0 false, .widthChange 0 0 256 false, .stripingChange 256,
    .retrainReq 256, .replayTimeout 256] : List Instr).all (fun c => !c.wellFormed) = true := by decide +kernel

theorem test_illFormed_2 :
    ([
    .creditReport 256, .creditStall 256 0, .creditStall 0 32, .signalLoss 256, .egressSchedule 256,
    .messageArrival 256 {}, .messageArrival 0 { chan := 4 }, .reseqTimeout 258 0, .reseqTimeout 0 4096,
    .cutThroughStall 256 0, .cutThroughStall 0 32, .mirrorCopyStall 256, .flowReset (2 ^ 64), .routeStage 65536 0,
    .routeStage 0 (2 ^ 32), .groupStage 1024 0, .groupStage 0 (2 ^ 128), .mcastStage 4095 0 0, .mcastStage 0 (2 ^ 256) 0,
    .mcastStage 0 0 4, .stageSet (2 ^ 64), .mapSwitch (2 ^ 32), .issueResume 2, .rd 2 {}, .rd 0 { chan := 4 }, .rdm 2 {},
    .rdm 0 { chan := 4 }, .wr 2 {}, .wr 0 { chan := 4 }, .wrMask 2 {}, .wrMask 0 { chan := 4 }, .atom 2 {},
    .atom 0 { chan := 4 }, .combWindowExpiry 2 0, .rdData 2 {}, .rdData 0 { chan := 4 }, .rdmData 2 {},
    .rdmData 0 { chan := 4 }, .wrAck 2 {}, .wrAck 0 { chan := 4 }, .atomRsp 2 {}, .atomRsp 0 { chan := 4 },
    .issuedTimeout 2 0, .fwdTimeout 2 0, .reissue 2 0, .loadCompute 2 0 0, .winWrite 0 (2 ^ 128), .crdS 2 {},
    .crdS 0 { chan := 4 }, .crdX 2 {}, .crdX 0 { chan := 4 }, .cupg 2 {}, .cupg 0 { chan := 4 }, .fwdS 16 {},
    .fwdS 0 { chan := 4 }, .fwdX 16 {}, .fwdX 0 { chan := 4 }, .snpInv 16 {}, .snpInv 0 { chan := 4 }, .snpClean 16 {}] : List Instr).all (fun c => !c.wellFormed) = true := by decide +kernel

theorem test_illFormed_3 :
    ([
    .snpClean 0 { chan := 4 }, .cdata 16 {}, .cdata 0 { chan := 4 }, .cgntX 16 {}, .cgntX 0 { chan := 4 }, .snpRsp 2 {},
    .snpRsp 0 { chan := 4 }, .cwbDirty 2 {}, .cwbDirty 0 { chan := 4 }, .cwbClean 2 {}, .cwbClean 0 { chan := 4 },
    .snoopTimeout 2 0, .graceTimeout 256, .declareDead 256 0, .declareDead 0 32, .reclaimWalkDone 256 0,
    .reclaimWalkDone 0 32, .bindWrite 4096 0, .bindWrite 0 (2 ^ 64), .memberWrite 256 0 0, .memberWrite 0 32 0,
    .memberWrite 0 0 (2 ^ 64), .dirStoreWrite 2 0 0, .dirStoreWrite 0 64 0, .dirStoreWrite 0 0 (2 ^ 64),
    .leaseRenew 2 {}, .leaseRenew 0 { chan := 4 }, .publish 2 {}, .publish 0 { chan := 4 }, .lendWithdraw 256 {},
    .lendWithdraw 0 { chan := 4 }, .lendAck 16, .leaseSet 4096 0 0 0, .leaseSet 0 65536 0 0, .leaseSet 0 0 32 0,
    .leaseSet 0 0 0 (2 ^ 32), .grant 4096 0 0 0 0, .grant 0 4096 0 0 0, .grant 0 0 262144 0 0, .grant 0 0 0 262144 0,
    .grant 0 0 0 0 2, .grantInternal 262144 0 0, .grantInternal 0 262144 0, .grantInternal 0 0 2, .share 4096 0 0 0 [],
    .share 0 262144 0 0 [], .share 0 0 262144 0 [], .unshare 4096 0 0 0 [], .unshare 0 262144 0 0 [],
    .unshare 0 0 262144 0 [], .revoke 4096 0 0 0, .revoke 0 262144 0 0, .revoke 0 0 262144 0, .release 4096 0 0,
    .release 0 262144 0, .release 0 0 262144, .limitSet 2 0 0 0 0, .limitSet 0 2 0 0 0, .limitSet 0 0 4096 0 0,
    .limitSet 0 0 0 65536 0] : List Instr).all (fun c => !c.wellFormed) = true := by decide +kernel

theorem test_illFormed_4 :
    ([
    .limitSet 0 0 0 0 65536, .tenantQuota 32 0, .tenantQuota 0 (2 ^ 32), .lendAdd 65536 0 0 0, .lendAdd 0 4096 0 0,
    .lendAdd 0 0 256 0, .lendAdd 0 0 0 (2 ^ 32), .lendRemove 65536 0 0 0, .lendRemove 0 4096 0 0, .lendRemove 0 0 256 0,
    .lendRemove 0 0 0 (2 ^ 32), .markLost 4096 0 0, .markLost 0 262144 0, .markLost 0 0 262144, .lostSet 64 0,
    .lostSet 0 (2 ^ 64), .notify 65536 0, .notify 0 256, .bucketRefill 2, .commandSlot 20 0 0, .commandSlot 0 32 0,
    .commandSlot 0 0 3, .refreshDue 20 0 0, .refreshDue 0 32 0, .refreshDue 0 0 64, .rowClose 20 0 0, .rowClose 0 32 0,
    .rowClose 0 0 64, .powerDownEntry 20 0, .powerDownEntry 0 32, .recal 20 0, .recal 0 32, .pcDrained 20 0,
    .pcDrained 0 32, .recalRelease 20 0 false, .recalRelease 0 32 false, .recalTimeout 20 0, .recalTimeout 0 32,
    .patternRun 20 0 0, .patternRun 0 32 0, .patrolScrub 28 [] [], .pcFailed 20 0, .pcFailed 0 32, .stackFailed 20,
    .stackInitDone 20 false, .demotion 2, .moveCmd (2 ^ 64), .retire 20, .channelEnable 8, .channelTrained 8 none,
    .channelDrain 8, .powerOff 8, .channelFailed 8, .cmpTaskPush 32 0, .cmpTaskPush 0 (2 ^ 64), .pushResume 16,
    .steal 128, .stealDelayExpiry 128, .hintRefresh 128, .csramSplit 16 0] : List Instr).all (fun c => !c.wellFormed) = true := by decide +kernel

theorem test_illFormed_5 :
    ([
    .csramSplit 0 (2 ^ 64), .offline 16, .clusterScrubStart 16, .clusterOffline 16, .offlineStuck 16, .kill 16,
    .online 16, .clusterOnlineDone 16, .clusterFailed 16, .taskStart 128, .sadd 128 0, .ssub 128 0, .smul 128 0,
    .smulh 128 0, .sand 128 0, .sor 128 0, .sxor 128 0, .sshl 128 0, .sshr 128 0, .smin 128 0, .smax 128 0, .scmp 128 0,
    .ssel 128 0, .sdiv 128 0, .srem 128 0, .saddi 128 0, .sandi 128 0, .sori 128 0, .sxori 128 0, .sshli 128 0,
    .sshri 128 0, .sli 128 0, .slih 128 0, .sfadd 128 0, .sfsub 128 0, .sfmul 128 0, .sffma 128 0, .sfdiv 128 0,
    .sfsqrt 128 0, .sfmin 128 0, .sfmax 128 0, .sfcmp 128 0, .scvt 128 0, .sgetr 128 0, .ssetr 128 0, .bcmp 128 0,
    .jal 128 0, .jalr 128 0, .tspawn 128 0, .tend 128 0, .snop 128 0, .sbrk 128 0, .sld 128 0, .sst 128 0, .vld 128 0,
    .vst 128 0, .vldg 128 0, .vstg 128 0, .vadd 128 0, .vsub 128 0] : List Instr).all (fun c => !c.wellFormed) = true := by decide +kernel

theorem test_illFormed_6 :
    ([
    .vmul 128 0, .vfma 128 0, .vfnma 128 0, .vmin 128 0, .vmax 128 0, .vabs 128 0, .vneg 128 0, .vdiv 128 0,
    .vsqrt 128 0, .vand 128 0, .vor 128 0, .vxor 128 0, .vshl 128 0, .vshr 128 0, .vsel 128 0, .vselv 128 0,
    .vbcast 128 0, .vmov 128 0, .vcvt 128 0, .vunpk4 128 0, .vpk4 128 0, .vcmp 128 0, .pand 128 0, .por 128 0,
    .pxor 128 0, .pnot 128 0, .pfroms 128 0, .ptos 128 0, .vredsum 128 0, .vredmax 128 0, .vredmaxi 128 0, .vext 128 0,
    .mmac 128 0, .mzero 128 0, .mld 128 0, .mst 128 0, .fld 128 0, .fst 128 0, .fstm 128 0, .fatom 128 0, .fcas16 128 0,
    .cset 128 0, .cinc 128 0, .incrementArrival 128 0 0 0, .incrementArrival 0 64 0 0, .incrementArrival 0 0 (2 ^ 48) 0,
    .incrementArrival 0 0 0 16, .cwait 128 0, .cwaitTimeout 128, .cget 128 0, .hbind 128 0, .hfree 128 0, .hacq 128 0,
    .hrel 128 0, .hres 128 0, .hpub 128 0, .ccontrib 128 0, .gissue 128 0, .qpost 128 0, .twait 128 0] : List Instr).all (fun c => !c.wellFormed) = true := by decide +kernel

theorem test_illFormed_7 :
    ([
    .twaitWake 128, .tlaunch 128 0, .launch 128 0, .launch 0 8, .ffence 128 0, .freeze 128 0, .doorbell 32 0,
    .doorbell 0 (2 ^ 64), .qpDoorbell 2 {}, .qpDoorbell 0 { chan := 4 }, .rmaWrite 2 {}, .rmaWrite 0 { chan := 4 },
    .rmaRead 2 {}, .rmaRead 0 { chan := 4 }, .rmaSend 2 {}, .rmaSend 0 { chan := 4 }, .rmaReadData 2 {},
    .rmaReadData 0 { chan := 4 }, .rmaAck 2 {}, .rmaAck 0 { chan := 4 }, .rmaNak 2 {}, .rmaNak 0 { chan := 4 },
    .createQp 32 0, .modifyQp 32 0, .destroyQp 32 0, .queryQp 32 0, .createCq 32 0, .destroyCq 32 0, .regRegion 32 0,
    .invalRegion 32 0, .allocPd 32 0, .freePd 32 0, .expansion 256 {}, .expansion 0 { chan := 4 },
    .expansionResume 128 0, .expansionResume 0 16, .load 32 0 0, .load 0 4096 0, .load 0 0 2, .config 32 0 0,
    .config 0 4096 0, .config 0 0 2, .clear 32 0 0, .clear 0 4096 0, .clear 0 0 2, .collectiveCreate 32 0, .owner 32 0 0,
    .member 32 0 0, .collStep 32 0, .collectiveDestroy 32 0, .clContrib 2 {}, .clContrib 0 { chan := 4 },
    .clContribPlain 2 {}, .clContribPlain 0 { chan := 4 }, .clAck 2 {}, .clAck 0 { chan := 4 }, .clResult 2 {},
    .clResult 0 { chan := 4 }, .clResultPlain 2 {}, .clResultPlain 0 { chan := 4 }] : List Instr).all (fun c => !c.wellFormed) = true := by decide +kernel

theorem test_illFormed_8 :
    ([
    .clDone 2 {}, .clDone 0 { chan := 4 }, .tableCreate 32 0, .advance 32 0, .tableDestroy 32 0, .gaLookup 2 {},
    .gaLookup 0 { chan := 4 }, .lookupDispatch 2, .passDone 2 0, .taskTimeout 2 0, .gaUpdate 2 {},
    .gaUpdate 0 { chan := 4 }, .gaFilter 2 {}, .gaFilter 0 { chan := 4 }, .gaFwdResult 2 {},
    .gaFwdResult 0 { chan := 4 }, .functionLevelReset 32, .fwWrite 32 [], .fwHandover 32 0, .fwHandover 0 (2 ^ 32),
    .configWrite 32 [], .endorseWrite 32 [], .debugAuth 32 [], .imageLoad 32 0 0 [], .imageLoad 0 32 0 [],
    .imageUnload 32 0 0, .imageUnload 0 32 0, .evidenceReq 32 0 false 0, .evidenceReq 0 0 false (2 ^ 256),
    .sessionFinish 32 0, .dkExpiry 32, .tenantCreate 32, .tenantRetire 32, .tenantFreed 32, .keyRotate 32,
    .strictIsolation (2 ^ 64), .bounceDoorbell 32 0, .bounceDoorbell 0 (2 ^ 64), .inboundRecord 32 [],
    .outboundRecord 32, .bbOutCons 32 0, .bbOutCons 0 (2 ^ 64), .bar2Read 32 0 0, .bar2Read 0 (2 ^ 36) 0,
    .bar2Write 32 0 [], .bar2Write 0 (2 ^ 36) [], .msixUnmask 32 0, .msixUnmask 0 2048, .mailboxDoorbell 32 0 [],
    .mailboxDoorbell 0 65536 [], .mgUpdate { chan := 4 }, .mgAck { chan := 4 }, .updateResend 65536 0,
    .updateResend 0 (2 ^ 32), .mgReport { chan := 4 }, .mgReportAck { chan := 4 }, .reportResend (2 ^ 32),
    .mgExpelAck { chan := 4 }, .mgFwData { chan := 4 }, .mgFwAck { chan := 4 }] : List Instr).all (fun c => !c.wellFormed) = true := by decide +kernel

theorem test_illFormed_9 :
    ([
    .mgEvidReq { chan := 4 }, .mgEvidRsp { chan := 4 }, .puppetPair 65536 0 0 0, .puppetPair 0 65536 0 0,
    .puppetPair 0 0 8 0, .puppetPair 0 0 0 4096, .shadowCopy 2, .mgShadow { chan := 4 }, .mgShadowAck { chan := 4 },
    .handoff (2 ^ 32), .scrubSchedule (2 ^ 64), .restRequest (2 ^ 64), .laneSignalLoss 256 0 false,
    .laneSignalLoss 0 256 false] : List Instr).all (fun c => !c.wellFormed) = true := by decide +kernel


/-! ### The hypotheses of the statements, clause by clause -/

theorem witness_PowerModes :
    (∃ (s : State) (mode : Nat), Runs s ∧ mode ≤ 2 ∧ s.isReady B.pwr = true ∧ s.rd R.PWR_MODE_STATUS_pending [] = 0) ∧
    (∃ (s : State) (mode : Nat), Runs s ∧ mode ≤ 2 ∧ s.rd R.PWR_MODE_STATUS_pending [] ≠ 0) ∧
    (∃ (s : State), Runs s ∧ s.rd R.PWR_MODE_STATUS_pending [] ≠ 0 ∧ s.resting = false ∧ ahead (s.rd
      R.PWR_MODE_STATUS_pending_beat []) s.beat = false) :=
  ⟨⟨allReady, 2, by decide +kernel⟩,
   ⟨State.reset.wr R.PWR_MODE_STATUS_pending [] 1, 0, by decide +kernel⟩,
   ⟨(State.reset.wr R.PWR_MODE_STATUS_pending [] 1).wr R.PWR_MODE_STATUS_requested [] 2, by decide +kernel⟩⟩

theorem witness_EngineVoltage :
    (∃ (s : State) (mv : Nat) (t₀ : Nat) (since : Nat), Runs s ∧ s.pkg.raise = some (t₀, since) ∧ s.pkg.relock = none ∧
      (s.voltRequest 0 - 3 * ((mv : Nat) : Int)).natAbs ≤ 15) ∧
    (∃ (s : State) (t₀ : Nat) (since : Nat), Runs s ∧ s.pkg.raise = some (t₀, since) ∧ settleLimit (nominal t₀ - nominal
      (s.rd R.PWR_THROTTLE_eclk [])) ≤ s.now - since) ∧
    (∃ (s : State) (e : Nat), Runs s ∧ s.pkg.relock = some e ∧ e < 32) ∧
    (∃ (s : State) (d : Nat) (mv : Int), Runs s ∧ -30 ≤ mv ∧ mv ≤ 20 ∧ mv % 5 = 0 ∧ s.pkg.trimBeat.get? [d] ≠ some s.beat) ∧
    (∃ (s : State) (avg : Nat), Runs s ∧ avg < 65536) ∧
    (∃ (s : State), Runs s ∧ 16 < s.rd R.PWR_THROTTLE_windows []) :=
  ⟨⟨{ State.reset with pkg := { raise := some (10, 0) } }, 760, 10, 0, by decide +kernel⟩,
   ⟨{ State.reset with pkg := { raise := some (10, 0) }, now := 100000000 }, 10, 0, by decide +kernel⟩,
   ⟨{ State.reset with pkg := { relock := some 31 } }, 31, by decide +kernel⟩,
   ⟨State.reset, 1, -30, by decide +kernel⟩,
   ⟨State.reset, 65535, by decide +kernel⟩,
   ⟨State.reset.wr R.PWR_THROTTLE_windows [] 17, by decide +kernel⟩⟩

theorem witness_ThermalAndRails :
    (∃ (s : State) (west : Nat) (east : Nat) (hub : Nat) (stack : Nat) (i : Nat), Runs s ∧ west < 256 ∧ east < 256 ∧ hub <
      256 ∧ stack < 256 ∧ i < 20) ∧
    (∃ (s : State) (die : Nat) (stack : Nat), Runs s ∧ (112 ≤ die ∨ 100 ≤ stack)) ∧
    (∃ (s : State) (temp : Nat), 125 ≤ temp ∧ s.pkg.tripped = false) ∧
    (∃ (ns : Nat), 2000 < ns) ∧
    (∃ (ns : Nat), 1000000 ≤ ns) :=
  ⟨⟨State.reset, 255, 60, 50, 255, 19, by decide +kernel⟩,
   ⟨State.reset, 112, 0, by decide +kernel⟩,
   ⟨State.reset, 125, by decide +kernel⟩,
   ⟨2001, by decide +kernel⟩,
   ⟨1000000, by decide +kernel⟩⟩

theorem witness_DieLinks :
    (∃ (s : State), Serves s) ∧
    (∃ (s : State), Serves s) ∧
    (∃ (s : State), Serves s) ∧
    (∃ (s : State) (d : Nat), Serves s ∧ s.pkg.hubLost.has [d] = false) ∧
    (∃ (s : State), Serves s) :=
  ⟨⟨State.reset, by decide +kernel⟩,
   ⟨State.reset, by decide +kernel⟩,
   ⟨State.reset, by decide +kernel⟩,
   ⟨State.reset, 0, by decide +kernel⟩,
   ⟨{ State.reset with pkg := { hubLost := Map.empty.set [1] () } }, by decide +kernel⟩⟩

theorem witness_TimeRole :
    (∃ (s : State) (v : Nat), Runs s ∧ bitsOf v 0 2 = 1 ∧ bitsOf v 2 2 < 3 ∧ s.isMaster = false ∧ s.listed R.POL_LEASE_valid
      = [] ∧ s.pool.provisional.entries = []) ∧
    (∃ (s : State) (v : Nat), Runs s ∧ bitsOf v 0 2 = 0 ∧ bitsOf v 2 2 < 3 ∧ s.isMaster = true) ∧
    (∃ (s : State) (v : Nat), Runs s ∧ bitsOf v 0 2 = s.rd R.TIM_CTL_role [] ∧ bitsOf v 0 2 ≤ 1 ∧ bitsOf v 2 2 < 3) ∧
    (∃ (s : State), Runs s ∧ s.isMaster = false ∧ s.tim.held = true ∧ 64 ≤ s.tim.good ∧ s.tst ≠ Ts.unsync ∧ s.tst ≠
      Ts.locked ∧ s.listed R.POL_LEASE_valid = [] ∧ s.pool.provisional.entries = []) ∧
    (∃ (s : State), Runs s ∧ s.tst = Ts.holdover ∧ s.tim.held = false ∧ s.rd R.TIM_HOLD_LIMIT_beats [] * 1024 ≤ s.now -
      s.tim.holdSince) ∧
    (∃ (s : State), Runs s ∧ s.isMaster = true ∧ s.rd R.TIM_CTL_ref_sel [] ≠ 0) ∧
    (∃ (s : State), Runs s) :=
  ⟨⟨State.reset, 0x70005, by decide +kernel⟩,
   ⟨(State.reset.wr R.TIM_CTL_role [] 1).wr R.TIM_STATUS_state [] 2, 0, by decide +kernel⟩,
   ⟨State.reset, 0x10, by decide +kernel⟩,
   ⟨{ State.reset.wr R.TIM_STATUS_state [] 1 with tim := { held := true, good := 64 } }, by decide +kernel⟩,
   ⟨{ State.reset.wr R.TIM_STATUS_state [] 3 with now := 100000000 }, by decide +kernel⟩,
   ⟨(State.reset.wr R.TIM_CTL_role [] 1).wr R.TIM_CTL_ref_sel [] 2, by decide +kernel⟩,
   ⟨State.reset.wr R.TIM_STATUS_ref_lost [] 1, by decide +kernel⟩⟩

theorem witness_CricketMessages :
    (∃ (s : State), Runs s ∧ s.tst = Ts.locked) ∧
    (∃ (s : State), Runs s ∧ s.isMaster = false ∧ s.tim.held = true) ∧
    (∃ (s : State), Runs s) ∧
    (∃ (s : State) (c : Cricket), Runs s ∧ c.ty = 1 ∧ s.isMaster = false ∧ (s.tim.heard = Map.empty ∧ s.tst = Ts.unsync ∨
      dist 16 c.gen (s.rd R.TIM_STATUS_followed_gen []) < 32768)) ∧
    (∃ (s : State) (c : Cricket), Runs s ∧ c.ty = 1 ∧ c.gen < 65536 ∧ s.isMaster = false ∧ s.tim.heard = Map.empty ∧ s.tst =
      Ts.unsync) ∧
    (∃ (s : State) (c : Cricket), Runs s ∧ c.ty = 1 ∧ s.isMaster = false ∧ s.tst ≠ Ts.unsync ∧ dist 16 c.gen (s.rd
      R.TIM_STATUS_followed_gen []) = 0 ∧ s.tim.conflict = none ∧ c.master ≠ s.tim.master) ∧
    (∃ (s : State) (p : Nat) (c : Cricket) (t₁ : Nat), Runs s ∧ s.tim.request = some (p, c.seq, t₁) ∧ dist 16 c.gen (s.rd
      R.TIM_STATUS_followed_gen []) < 32768) ∧
    (∃ (s : State) (c : Cricket), Runs s ∧ s.tim.request = none ∧ dist 16 c.gen (s.rd R.TIM_STATUS_followed_gen []) < 32768)
      ∧
    (∃ (s : State) (c : Cricket), Runs s ∧ (c.ty ≠ 1 ∧ c.ty ≠ 2 ∧ c.ty ≠ 3)) ∧
    (∃ (s : State), Runs s ∧ s.isMaster = false ∧ s.tim.held = true ∧ (s.tim.heard.get {} [s.rd R.TIM_STATUS_parent_port
      []]).time + fourIntervals ≤ s.now) ∧
    (∃ (s : State) (a : Nat) (b : Nat), Runs s ∧ s.tim.conflict = some (a, b) ∧ s.lastHeard b + fourIntervals ≤ s.now) :=
  ⟨⟨((State.reset.wr R.TIM_STATUS_state [] 2).wr R.PRT_PORT_STATUS_state [3] 5).wr R.PRT_PORT_STATUS_partner_time [3] 1,
      by decide +kernel⟩,
   ⟨{ State.reset with tim := { held := true } }, by decide +kernel⟩,
   ⟨State.reset, by decide +kernel⟩,
   ⟨State.reset, { ty := 1, hop := 1, gen := 7, master := 9 }, by decide +kernel⟩,
   ⟨State.reset, { ty := 1, hop := 1, gen := 7, master := 9 }, by decide +kernel⟩,
   ⟨State.reset.wr R.TIM_STATUS_state [] 1, { ty := 1, master := 9 }, by decide +kernel⟩,
   ⟨{ State.reset with tim := { request := some (2, 5, 100) } }, 2, { ty := 3, seq := 5, tx := 300, rx := 200 }, 100,
      by decide +kernel⟩,
   ⟨State.reset, { ty := 3 }, by decide +kernel⟩,
   ⟨State.reset, { ty := 0 }, by decide +kernel⟩,
   ⟨{ State.reset with tim := { held := true }, now := 70000 }, by decide +kernel⟩,
   ⟨{ State.reset with tim := { conflict := some (4, 5) }, now := 70000 }, 4, 5, by decide +kernel⟩⟩

theorem witness_TimeSteps :
    (∃ (s : State) (v : Nat), Runs s ∧ bitAt v 0 = true ∧ s.isReady B.tim = true) ∧
    (∃ (s : State) (v : Nat), Runs s ∧ bitAt v 0 = false) ∧
    (∃ (s : State) (n : Nat), Runs s ∧ s.tim.step = some n ∧ s.ftHub % 1024 = 0) ∧
    (∃ (s : State), Runs s ∧ s.tim.ppsLoad = false ∧ (s.isMaster = true ∨ s.tst = Ts.unsync) ∧ (s.ftHub ≤ s.rd
      R.TIM_FT_SET_value [] ∨ s.tst = Ts.unsync)) ∧
    (∃ (s : State), Runs s ∧ (s.tim.ppsLoad = true ∨ (s.isMaster = false ∨ s.rd R.TIM_FT_SET_value [] < s.ftHub) ∧ s.tst ≠
      Ts.unsync)) ∧
    (∃ (s : State), Runs s ∧ s.tim.ppsLoad = false ∧ s.isMaster = true ∧ s.rd R.TIM_CTL_ref_sel [] = 2) ∧
    (∃ (s : State), Runs s ∧ s.tim.ppsLoad = true ∧ s.on R.TIM_STATUS_ref_lost [] = false ∧ (s.ftHub ≤ s.rd
      R.TIM_FT_SET_value [] ∨ s.tst = Ts.unsync)) :=
  ⟨⟨{ allReady with tim := { ft := 2560 } }, 1, by decide +kernel⟩,
   ⟨State.reset, 2, by decide +kernel⟩,
   ⟨{ State.reset with tim := { step := some 300000 } }, 300000, by decide +kernel⟩,
   ⟨State.reset.wr R.TIM_FT_SET_value [] 5000, by decide +kernel⟩,
   ⟨State.reset.wr R.TIM_STATUS_state [] 2, by decide +kernel⟩,
   ⟨(State.reset.wr R.TIM_CTL_role [] 1).wr R.TIM_CTL_ref_sel [] 2, by decide +kernel⟩,
   ⟨{ State.reset.wr R.TIM_FT_SET_value [] 5000 with tim := { ppsLoad := true } }, by decide +kernel⟩⟩

theorem witness_LinkTraining :
    (∃ (s : State) (p : Nat), Serves s ∧ s.on R.PRT_PORT_CTL_enable [p] = false ∧ s.enableRefused p = false) ∧
    (∃ (s : State) (p : Nat), Serves s ∧ s.on R.PRT_PORT_CTL_enable [p] = false ∧ s.enableRefused p = true) ∧
    (∃ (s : State) (p : Nat), Serves s ∧ s.isUp p = false) ∧
    (∃ (s : State) (p : Nat), Serves s ∧ s.pst p = Ps.detect) ∧
    (∃ (s : State) (p : Nat) (failed : Nat), Serves s ∧ s.stepOf p = Ps.equalise ∧ (2 ^ s.cfgWidth p - 1) &&& (255 ^^^
      (((s.port p).badLanes ||| failed) &&& 255)) ≠ 0) ∧
    (∃ (s : State) (p : Nat) (late : Nat), Serves s ∧ s.stepOf p = Ps.lock ∧ (2 ^ s.cfgWidth p - 1) &&& (255 ^^^ (((s.port
      p).badLanes ||| late) &&& 255)) ≠ 0) ∧
    (∃ (s : State) (p : Nat) (l : Nat), Serves s ∧ s.trainLimit p = some l ∧ l ≤ s.now - (s.port p).since ∧ s.isUp p =
      false) ∧
    (∃ (s : State) (p : Nat), Serves s ∧ s.stepOf p = Ps.config) ∧
    (∃ (s : State) (p : Nat), Serves s ∧ s.isActive p = true ∧ s.now ≤ (s.port p).repeatUntil) ∧
    (∃ (s : State) (p : Nat), Serves s ∧ s.stepOf p = Ps.config ∧ (s.port p).gotCredit = none) ∧
    (∃ (s : State) (p : Nat), Serves s ∧ s.stepOf p = Ps.config ∧ (s.port p).gotCaps = none) ∧
    (∃ (s : State) (p : Nat) (cr : List Nat), Serves s ∧ s.isActive p = true ∧ creditSame cr (s.port p) = true) ∧
    (∃ (s : State) (p : Nat) (c : Caps), Serves s ∧ s.isActive p = true ∧ (s.port p).lastCaps ≠ some c) :=
  ⟨⟨State.reset, 0, by decide +kernel⟩,
   ⟨State.reset.wr R.PRT_PORT_CFG_first_lane [0] 3, 0, by decide +kernel⟩,
   ⟨portAt 1 {}, 3, by decide +kernel⟩,
   ⟨portAt 1 {}, 3, by decide +kernel⟩,
   ⟨portAt 2 {}, 3, 254, by decide +kernel⟩,
   ⟨portAt 3 {}, 3, 0, by decide +kernel⟩,
   ⟨{ portAt 3 { attempts := 2 } with now := 2000000 }, 3, 2000000, by decide +kernel⟩,
   ⟨portAt 4 {}, 3, by decide +kernel⟩,
   ⟨portAt 5 {}, 3, by decide +kernel⟩,
   ⟨portAt 4 {}, 3, by decide +kernel⟩,
   ⟨portAt 4 {}, 3, by decide +kernel⟩,
   ⟨portAt 5 {}, 3, [4, 5], by decide +kernel⟩,
   ⟨portAt 5 {}, 3, { eid := 7 }, by decide +kernel⟩⟩

theorem witness_LinkConfigured :
    (∃ (s : State) (p : Nat) (c : Caps) (cr : List Nat) (mask : Nat) (w : Nat), Serves s ∧ s.stepOf p = Ps.config ∧ (s.port
      p).gotCredit = some cr ∧ (s.port p).completed = false ∧ ((s.port p).identity = none ∨ (s.port p).identity = some
      (c.vendor, c.eid)) ∧ c.precode = s.on R.PRT_PORT_CFG_precode_en [p] ∧ bestGroup (c.goodLanes &&& s.ownGood p)
      (s.cfgWidth p) c.widths = some (mask, w)) ∧
    (∃ (s : State) (p : Nat) (c : Caps) (mask : Nat) (w : Nat), Serves s ∧ s.stepOf p = Ps.config ∧ (s.port p).gotCaps =
      some c ∧ (s.port p).completed = false ∧ ((s.port p).identity = none ∨ (s.port p).identity = some (c.vendor, c.eid)) ∧
      c.precode = s.on R.PRT_PORT_CFG_precode_en [p] ∧ bestGroup (c.goodLanes &&& s.ownGood p) (s.cfgWidth p) c.widths =
      some (mask, w)) ∧
    (∃ (s : State) (p : Nat) (f : Flit), Serves s ∧ s.stepOf p = Ps.config ∧ (s.port p).completed = true ∧ f.kind = 0) :=
  ⟨⟨portAt 4 { gotCredit := some [] }, 3, { eid := 7, widths := 15, goodLanes := 255 }, [], 255, 8, by decide +kernel⟩,
   ⟨portAt 4 { gotCaps := some { eid := 7, widths := 15, goodLanes := 255 } }, 3,
      { eid := 7, widths := 15, goodLanes := 255 }, 255, 8, by decide +kernel⟩,
   ⟨portAt 4 { completed := true }, 3, { kind := 0 }, by decide +kernel⟩⟩

theorem witness_LinkFlits :
    (∃ (s : State) (p : Nat) (f : Flit), Serves s ∧ s.isActive p = true ∧ f.kind = 1 ∧ f.seq = (s.port p).expected ∧ (s.port
      p).expected < 4096 ∧ vcOk (f.chan * 8 + f.tc) = true ∧ (s.port p).heldCells.get 0 [f.chan * 8 + f.tc] < (s.port
      p).advertised.get 0 [f.chan * 8 + f.tc] ∧ (s.port p).rx.get? [f.chan * 8 + f.tc] = none ∧ bitsOf f.payload 64 13 ≤
      4096 ∧ f.last = decide (ceilDiv (16 + bitsOf f.payload 64 13) 240 = 1)) ∧
    (∃ (s : State) (p : Nat) (f : Flit), Serves s ∧ s.isActive p = true ∧ (f.kind = 1 ∨ f.kind = 2) ∧ 0 < dist 12 f.seq
      (s.port p).expected ∧ dist 12 f.seq (s.port p).expected ≤ 2047 ∧ (s.port p).lastNak = none) ∧
    (∃ (s : State) (p : Nat), Serves s ∧ s.stepOf p = Ps.active) ∧
    (∃ (s : State) (p : Nat) (lane : Nat), Serves s ∧ (s.port p).badRun.get 0 [lane] + 1 < 8) ∧
    (∃ (s : State) (p : Nat) (lane : Nat), Serves s ∧ 8 ≤ (s.port p).badRun.get 0 [lane] + 1 ∧ s.isActive p = true) ∧
    (∃ (s : State) (p : Nat) (e : Nat) (f : Flit) (l : List Flit), Serves s ∧ (s.port p).replay = f :: l ∧ dist 12 e f.seq ≤
      l.length + 1) ∧
    (∃ (s : State) (p : Nat), Serves s ∧ s.isActive p = true ∧ (s.port p).replay ≠ [] ∧ 64 * s.rd
      R.PRT_PORT_CFG_replay_timeout [p] ≤ s.now - (s.port p).progressAt ∧ (s.port p).replays < s.rd
      R.PRT_PORT_CFG_retry_limit [p]) ∧
    (∃ (s : State) (p : Nat), Serves s ∧ s.isActive p = true ∧ (s.port p).replay ≠ [] ∧ 64 * s.rd
      R.PRT_PORT_CFG_replay_timeout [p] ≤ s.now - (s.port p).progressAt ∧ s.rd R.PRT_PORT_CFG_retry_limit [p] ≤ (s.port
      p).replays) ∧
    (∃ (s : State) (p : Nat), Serves s ∧ s.isActive p = true) ∧
    (∃ (s : State) (p : Nat) (vc : Nat) (t₀ : Nat), Serves s ∧ (s.port p).zeroSince.get? [vc] = some t₀ ∧ s.isUp p = true ∧
      10000000 ≤ s.now - t₀) :=
  ⟨⟨portAt 5 { expected := 4095, advertised := Map.empty.set [0] 4 }, 3, { kind := 1, last := true, seq := 4095 },
      by decide +kernel⟩,
   ⟨portAt 5 {}, 3, { kind := 2, seq := 2 }, by decide +kernel⟩,
   ⟨portAt 5 {}, 3, by decide +kernel⟩,
   ⟨portAt 5 {}, 3, 2, by decide +kernel⟩,
   ⟨portAt 5 { badRun := Map.empty.set [2] 7 }, 3, 2, by decide +kernel⟩,
   ⟨portAt 5 { replay := [{ kind := 1, seq := 4095 }, { kind := 2, seq := 0 }] }, 3, 0, { kind := 1, seq := 4095 },
      [{ kind := 2, seq := 0 }], by decide +kernel⟩,
   ⟨{ portAt 5 { replay := [{}] } with now := 10000 }, 3, by decide +kernel⟩,
   ⟨{ portAt 5 { replay := [{}], replays := 8 } with now := 10000 }, 3, by decide +kernel⟩,
   ⟨portAt 5 { advertised := Map.empty.set [0] 4 }, 3, by decide +kernel⟩,
   ⟨{ portAt 5 { zeroSince := Map.empty.set [1] 0 } with now := 10000000 }, 3, 1, 0, by decide +kernel⟩⟩

theorem witness_LinkLanes :
    (∃ (s : State) (p : Nat), Serves s ∧ s.isActive p = true) ∧
    (∃ (s : State) (p : Nat), Serves s ∧ s.isActive p = true) ∧
    (∃ (s : State) (p : Nat), Serves s ∧ s.isActive p = true) ∧
    (∃ (s : State) (p : Nat), Serves s ∧ s.isActive p = true) ∧
    (∃ (s : State) (p : Nat) (lane : Nat) (mask : Nat) (w : Nat), Serves s ∧ s.isActive p = true ∧ (s.port p).lane = none ∧
      1 < s.activeWidth p ∧ bestGroup (((s.port p).lanes ^^^ 2 ^ lane) &&& (s.port p).lanes) (s.cfgWidth p) 15 = some (mask,
      w)) ∧
    (∃ (s : State) (p : Nat) (lane : Nat) (mask : Nat) (w : Nat), Serves s ∧ s.rd R.PRT_LANE_CFG_ser_limit [s.rd
      R.PRT_PORT_CFG_first_lane [p] + lane] ≠ 0 ∧ s.isActive p = true ∧ (s.port p).lane = none ∧ 1 < s.activeWidth p ∧
      bestGroup (((s.port p).lanes ^^^ 2 ^ lane) &&& (s.port p).lanes) (s.cfgWidth p) 15 = some (mask, w)) ∧
    (∃ (s : State) (p : Nat), Serves s ∧ s.isActive p = true ∧ (s.port p).widthReq.isSome = true) ∧
    (∃ (s : State) (p : Nat) (sf : Nat) (mask : Nat), Serves s ∧ s.isActive p = true ∧ (s.port p).widthReq = none ∧
      legalMask mask (s.cfgWidth p) = true ∧ mask &&& (s.rd R.PRT_PORT_STATUS_good_lanes [p] &&& s.ownGood p) = mask ∧
      s.superframe p ≤ sf) ∧
    (∃ (s : State) (p : Nat) (sf : Nat) (mask : Nat), Serves s ∧ (s.port p).widthAt = some (sf, mask)) ∧
    (∃ (s : State) (p : Nat), Serves s ∧ (s.pst p = Ps.equalise ∨ s.pst p = Ps.lock ∨ s.pst p = Ps.config)) ∧
    (∃ (s : State) (p : Nat), Serves s ∧ s.isActive p = true) :=
  ⟨⟨portAt 5 {}, 3, by decide +kernel⟩,
   ⟨portAt 5 {}, 3, by decide +kernel⟩,
   ⟨portAt 5 {}, 3, by decide +kernel⟩,
   ⟨portAt 5 {}, 3, by decide +kernel⟩,
   ⟨(portAt 5 { lanes := 255 }).wr R.PRT_PORT_STATUS_width_active [3] 3, 3, 0, 240, 4, by decide +kernel⟩,
   ⟨((portAt 5 { lanes := 255 }).wr R.PRT_PORT_STATUS_width_active [3] 3).wr R.PRT_LANE_CFG_ser_limit [29] 5, 3, 5, 15, 4,
      by decide +kernel⟩,
   ⟨portAt 5 { widthReq := some (9, 15) }, 3, by decide +kernel⟩,
   ⟨(portAt 5 { lanes := 255 }).wr R.PRT_PORT_STATUS_good_lanes [3] 255, 3, 9, 15, by decide +kernel⟩,
   ⟨portAt 5 { lanes := 255, widthAt := some (9, 15) }, 3, 9, 15, by decide +kernel⟩,
   ⟨portAt 4 {}, 3, by decide +kernel⟩,
   ⟨portAt 5 { lanes := 255 }, 3, by decide +kernel⟩⟩

theorem witness_SwitchPath :
    (∃ (s : State) (p : Nat) (m : Msg), Serves s ∧ s.isActive p = true ∧ s.isEdge p = false ∧ vcOk m.vc = true ∧ m.chan =
      Ch.rsp ∧ m.chan = chanOf m.ty ∧ knownTypes.contains m.ty = true ∧ isMemory m.ty = false ∧ m.ordered = false ∧
      m.compressed = false ∧ m.dst = s.eid ∧ m.dst < 0xF000) ∧
    (∃ (s : State) (p : Nat) (m : Msg) (g : Nat) (o : Nat) (i : Nat), Serves s ∧ s.isActive p = true ∧ s.isEdge p = false ∧
      vcOk m.vc = true ∧ m.chan = Ch.rsp ∧ isMemory m.ty = false ∧ isAnswer m.ty = false ∧ m.ordered = false ∧ m.compressed
      = false ∧ m.dst ≠ s.eid ∧ m.dst < 0xF000 ∧ s.sw.current.routeOf m.dst = .group g ∧ s.chooseHop s.sw.current g m = some
      (o, i) ∧ o < 256) ∧
    (∃ (s : State) (p : Nat) (m : Msg), Serves s ∧ s.isActive p = true ∧ vcOk m.vc = true ∧ m.dst = 0xFFFF) ∧
    (∃ (s : State) (p : Nat) (f : Flit), Serves s ∧ s.isActive p = true ∧ (s.port p).resend ≠ 0 ∧ (s.port p).replay[(s.port
      p).replay.length - (s.port p).resend]? = some f) ∧
    (∃ (s : State) (p : Nat) (vc : Nat) (q : QMsg), Serves s ∧ s.isActive p = true ∧ (s.port p).resend = 0 ∧ (s.port
      p).replay.length < 2047 ∧ (s.pickVc p).map (·.1) = some vc ∧ s.headOf p vc = some q ∧ q.failed = 0 ∧ q.wire = none ∧
      q.marked = false ∧ s.sw.waiting.get [] [0] = [] ∧ s.sw.waiting.get [] [1] = []) :=
  ⟨⟨(portAt 5 {}).wr R.PRT_PORT_STATUS_partner_role [3] 1 |>.wr R.GLB_NODE_eid [] 5, 3,
      { chan := 1, ty := 0x32, dst := 5, len := 16 }, by decide +kernel⟩,
   ⟨{ (portAt 5 {}).wr R.PRT_PORT_STATUS_partner_role [3] 1 |>.wr R.GLB_NODE_eid [] 5 |>.wr R.PRT_PORT_STATUS_state [4] 5 with sw := { current := { route := Map.empty.set [9] 6, group := Map.empty.set [1] (4 + 2 ^ 64) } } },
      3, { chan := 1, ty := 0x50, dst := 9, len := 16 }, 1, 4, 1, by decide +kernel⟩,
   ⟨portAt 5 {}, 3, { dst := 0xFFFF, ty := 0x10, len := 16 }, by decide +kernel⟩,
   ⟨portAt 5 { replay := [{ seq := 1 }, { seq := 2 }], resend := 1 }, 3, { seq := 2 }, by decide +kernel⟩,
   ⟨{ portAt 5 { credit := Map.empty.set [8] 3 } with sw := { queues := Map.empty.set [3, 8] [{ msg := { chan := 1, ty := 0x32, dst := 9, len := 16 }, have_ := 1 }] } },
      3, 8, { msg := { chan := 1, ty := 0x32, dst := 9, len := 16 }, have_ := 1 }, by decide +kernel⟩⟩

theorem witness_SwitchLimits :
    (∃ (s : State) (o : Nat) (fl : Nat) (q : QMsg) (l : List QMsg), Serves s ∧ (s.sw.flows.get {} [o, fl]).held = q :: l ∧
      128 * s.rd R.SWC_RESEQ_CFG_timeout [] ≤ s.now - (s.sw.flows.get {} [o, fl]).since) ∧
    (∃ (s : State) (p : Nat) (vc : Nat) (q : QMsg), Serves s ∧ s.headOf p vc = some q ∧ q.msg.vc = vc ∧ q.sent ≠ 0 ∧
      q.failed = 0 ∧ q.have_ < q.total ∧ q.have_ ≤ q.sent ∧ s.ctStall ≤ s.now - q.time) ∧
    (∃ (s : State) (p : Nat) (vc : Nat) (q : QMsg), Serves s ∧ vc ∈ vcs ∧ s.sw.queues.get [] [p, vc] = [q] ∧ q.msg.vc = vc ∧
      q.copy = true ∧ q.sent = 0 ∧ (s.port p).credit.get 0 [vc] ≤ 0 ∧ max q.time ((s.port p).zeroSince.get 0 [vc]) +
      s.ctStall < s.now ∧ (∀ v ∈ vcs, v ≠ vc → s.sw.queues.get [] [p, v] = [])) ∧
    (∃ (s : State) (v : Nat), Serves s ∧ bitAt v 20 = false) :=
  ⟨⟨{ State.reset with now := 1000000, sw := { flows := Map.empty.set [4, 7] { expected := 2, held := [{ msg := { flowSeq := 3 } }, { msg := { flowSeq := 5 } }] } } },
      4, 7, { msg := { flowSeq := 3 } }, [{ msg := { flowSeq := 5 } }], by decide +kernel⟩,
   ⟨{ State.reset with now := 10000000, sw := { queues := Map.empty.set [3, 8] [{ msg := { chan := 1, len := 1000 }, have_ := 1, sent := 1, total := 5 }] } },
      3, 8, { msg := { chan := 1, len := 1000 }, have_ := 1, sent := 1, total := 5 }, by decide +kernel⟩,
   ⟨{ State.reset with now := 10000000, sw := { queues := Map.empty.set [3, 8] [{ msg := { chan := 1, len := 16 }, have_ := 1, copy := true }] } },
      3, 8, { msg := { chan := 1, len := 16 }, have_ := 1, copy := true }, by decide +kernel⟩,
   ⟨{ State.reset with sw := { flows := Map.empty.set [4, 7] { expected := 2, held := [{ msg := { flowSeq := 3 } }] } } },
      0x4007, by decide +kernel⟩⟩

theorem witness_MapGenerations :
    (∃ (s : State) (e : Nat) (entry : Nat), Applies s B.swc ∧ e < 65536 ∧ entry < 4096 ∧ bitsOf entry 0 2 ≠ 3 ∧ s.stageOpen
      = true) ∧
    (∃ (s : State) (g : Nat) (v : Nat), Applies s B.swc ∧ g < 1024 ∧ v < 2 ^ 68 ∧ bitsOf v 64 4 ≤ 8 ∧ (bitsOf v 64 4 ≠ 0 ∨ v
      = 0) ∧ s.stageOpen = true) ∧
    (∃ (s : State) (m : Nat) (ports : Nat) (agents : Nat), Applies s B.swc ∧ m < 4095 ∧ agents ≤ 3 ∧ ports < 2 ^ 256 ∧
      s.stageOpen = true) ∧
    (∃ (s : State) (v : Nat), Applies s B.swc ∧ v < 512 ∧ s.stageOpen = true ∧ bitAt v 8 = true ∧ bitsOf v 0 8 = (s.mapGen +
      1) % 256) ∧
    (∃ (s : State), Applies s B.swc ∧ s.timeless = false ∧ s.rd R.SWC_MAP_STATUS_switch_pending [] = 0) ∧
    (∃ (s : State), Applies s B.swc ∧ s.rd R.SWC_MAP_STATUS_switch_pending [] ≠ 0 ∧ ahead (s.rd
      R.SWC_MAP_STATUS_pending_beat []) s.beat = false ∧ s.rd R.SWC_MAP_STAGE_valid [] ≠ 0) ∧
    (∃ (s : State), Applies s B.swc ∧ s.rd R.SWC_MAP_STATUS_switch_pending [] ≠ 0 ∧ ahead (s.rd
      R.SWC_MAP_STATUS_pending_beat []) s.beat = false ∧ s.rd R.SWC_MAP_STAGE_valid [] = 0) :=
  ⟨⟨allReady, 65535, 0xFFE, by decide +kernel⟩,
   ⟨allReady, 1023, 0x80000000000000001, by decide +kernel⟩,
   ⟨allReady, 4094, 0x10, 2, by decide +kernel⟩,
   ⟨allReady, 0x101, by decide +kernel⟩,
   ⟨allReady.wr R.TIM_STATUS_state [] 2, by decide +kernel⟩,
   ⟨(allReady.wr R.SWC_MAP_STATUS_switch_pending [] 1).wr R.SWC_MAP_STAGE_valid [] 1 |>.wr R.SWC_ROUTE_STAGE_entry [5] 6,
      by decide +kernel⟩,
   ⟨allReady.wr R.SWC_MAP_STATUS_switch_pending [] 1, by decide +kernel⟩⟩

theorem witness_HomeReads :
    (∃ (s : State) (d : Nat) (m : Msg), Serves s ∧ m.ty = 0x10 ∧ AtHome s d m ∧ Alone s d m ∧ s.bindOf (extentOf m.addr) =
      none) ∧
    (∃ (s : State) (d : Nat) (m : Msg), Serves s ∧ m.ty = 0x11 ∧ AtHome s d m ∧ Alone s d m ∧ s.bindOf (extentOf m.addr) =
      none) ∧
    (∃ (s : State) (d : Nat) (m : Msg), Serves s ∧ m.ty = 0x10 ∧ s.homeDie m.addr = d ∧ s.homeRoom d 1 = true ∧ s.openComb d
      m = [] ∧ s.combinable d m = true ∧ s.trk.comb.count (fun k _ => decide (k.head? = some d)) < 65536) ∧
    (∃ (s : State) (d : Nat) (i : Nat) (m : Msg) (since : Nat), Serves s ∧ s.trk.comb.get? [d, i] = some
      { members := [m], since := since } ∧ 8 * s.rd R.TRK_COMB_CFG_window [d] ≤ s.now - since ∧ s.homeRoom d 1 = true ∧ m.ty
      = 0x10 ∧ AtHome s d m ∧ s.bindOf (extentOf m.addr) = none) ∧
    (∃ (s : State), Serves s) :=
  ⟨⟨{ heldExt with mem := [(130, 5)] }, 0, { ty := 0x10, src := 9, len := 16, body := reqBody 128 3 8 false 0 false 0 },
      by decide +kernel⟩,
   ⟨heldExt, 0, { ty := 0x11, src := 9, len := 16, body := reqBody 128 3 200 false 0 false 0 }, by decide +kernel⟩,
   ⟨heldExt, 0, { ty := 0x10, src := 9, len := 16, body := reqBody 128 3 8 true 0 false 0 }, by decide +kernel⟩,
   ⟨{ heldExt with now := 256, trk := { comb := Map.empty.set [0, 4] { members := [{ ty := 0x10, src := 9, len := 16, body := reqBody 128 3 8 true 0 false 0 }] } } },
      0, 4, { ty := 0x10, src := 9, len := 16, body := reqBody 128 3 8 true 0 false 0 }, 0, by decide +kernel⟩,
   ⟨State.reset, by decide +kernel⟩⟩

theorem witness_HomeWrites :
    (∃ (s : State) (d : Nat) (m : Msg), Serves s ∧ m.ty = 0x12 ∧ AtHome s d m ∧ Alone s d m ∧ s.bindOf (extentOf m.addr) =
      none ∧ Memory.wf s.mem = true) ∧
    (∃ (s : State) (d : Nat) (m : Msg), Serves s ∧ m.ty = 0x13 ∧ AtHome s d m ∧ Alone s d m ∧ s.bindOf (extentOf m.addr) =
      none ∧ Memory.wf s.mem = true) ∧
    (∃ (s : State) (d : Nat) (m : Msg), Serves s ∧ m.ty = 0x14 ∧ AtHome s d m ∧ Alone s d m ∧ s.bindOf (extentOf m.addr) =
      none ∧ Memory.wf s.mem = true) ∧
    (∃ (s : State) (d : Nat) (m : Msg), Serves s ∧ m.ty = 0x62 ∧ AtHome s d m ∧ Alone s d m ∧ s.bindOf (extentOf m.addr) =
      none ∧ Memory.wf s.mem = true ∧ natOfBytes (Mem.readN s.mem (offsetOf m.addr) 4) = m.f 12 0 32) ∧
    (∃ (s : State) (d : Nat) (m : Msg), Serves s ∧ m.ty = 0x62 ∧ AtHome s d m ∧ Alone s d m ∧ s.bindOf (extentOf m.addr) =
      none ∧ natOfBytes (Mem.readN s.mem (offsetOf m.addr) 4) ≠ m.f 12 0 32) :=
  ⟨⟨{ heldExt with mem := [(130, 5)] }, 0,
      { ty := 0x12, src := 9, len := 24, body := reqBody 128 3 8 false 0 false 0x1122334455667788 }, by decide +kernel⟩,
   ⟨{ heldExt with mem := [(130, 5)] }, 0,
      { ty := 0x13, src := 9, len := 160, body := reqBody 128 3 128 false 0 false (5 + 0x1122334455667788 <<< 128) },
      by decide +kernel⟩,
   ⟨{ heldExt with mem := [(128, 5)] }, 0, { ty := 0x14, src := 9, len := 24, body := reqBody 128 3 8 false 0 true 7 },
      by decide +kernel⟩,
   ⟨{ heldExt with mem := [(128, 5)] }, 0,
      { ty := 0x62, src := 9, len := 40, body := reqBody 128 3 0 false 0 false 0 + 5 <<< 96 + 6 <<< 128 },
      by decide +kernel⟩,
   ⟨{ heldExt with mem := [(128, 4)] }, 0,
      { ty := 0x62, src := 9, len := 40, body := reqBody 128 3 0 false 0 false 0 + 5 <<< 96 + 6 <<< 128 },
      by decide +kernel⟩⟩

theorem witness_OwnRequests :
    (∃ (s : State) (d : Nat) (h : Held), Serves s ∧ s.sw.held.get [] [d] = [h] ∧ s.canIssue d h.msg.dst = true) ∧
    (∃ (s : State) (d : Nat) (i : Nat) (b : Nat) (e : Issued), Serves s ∧ s.trk.issued.get? [d, i] = some e ∧ e.retryAt =
      some b ∧ b + 1024 ≤ s.now) ∧
    (∃ (s : State) (m : Msg) (die : Nat) (i : Nat) (n : Nat) (a : Nat) (len : Nat) (e : Issued), Serves s ∧ m.ty = 0x30 ∧
      s.entryOf m.rtag = some (die, i, e) ∧ e.purpose = .load n a len none ∧ Status.ofCode m.status = .ok ∧ 16 < m.len ∧
      (s.core n).mixed = [] ∧ (s.core n).wait = none) ∧
    (∃ (s : State) (m : Msg) (die : Nat) (i : Nat) (n : Nat) (a : Nat) (e : Issued), Serves s ∧ m.ty = 0x31 ∧ s.entryOf
      m.rtag = some (die, i, e) ∧ e.purpose = .load n a e.msg.rlen none ∧ e.got = [] ∧ e.data = 0 ∧ e.status = .ok ∧
      Status.ofCode m.status = .ok ∧ m.roff = 0 ∧ m.len = 16 + e.msg.rlen ∧ 0 < e.msg.rlen ∧ (s.core n).mixed = [] ∧ (s.core
      n).wait = none) ∧
    (∃ (s : State) (m : Msg) (die : Nat) (i : Nat) (n : Nat) (cn : Nat) (e : Issued), Serves s ∧ m.ty = 0x32 ∧ s.entryOf
      m.rtag = some (die, i, e) ∧ e.purpose = .store n (some cn) ∧ Status.ofCode m.status = .ok ∧ (s.core n).wait = none) ∧
    (∃ (s : State) (m : Msg) (die : Nat) (i : Nat) (n : Nat) (sd : Nat) (len : Nat) (e : Issued), Serves s ∧ m.ty = 0x33 ∧
      s.entryOf m.rtag = some (die, i, e) ∧ e.purpose = .atomic n none (some sd) len none ∧ Status.ofCode m.status = .ok ∧
      16 < m.len ∧ sd ≠ 0 ∧ (s.core n).owed.contains sd = true ∧ (s.core n).wait = none) ∧
    (∃ (s : State) (m : Msg) (die : Nat) (i : Nat) (n : Nat) (e : Issued), Serves s ∧ m.ty = 0x98 ∧ s.entryOf m.rtag = some
      (die, i, e) ∧ e.purpose = .contribution n none ∧ Status.ofCode m.status = .ok ∧ (s.core n).wait = none) ∧
    (∃ (s : State) (d : Nat) (i : Nat) (e : Issued), Serves s ∧ s.trk.issued.get? [d, i] = some e ∧ 1000 * s.rd
      R.TRK_TIMEOUT_issued [] ≤ s.now - e.since ∧ e.purpose = .plain) ∧
    (∃ (s : State) (d : Nat) (i : Nat) (f : Fwd), Serves s ∧ s.trk.fwd.get? [d, i] = some f ∧ 1000 * s.rd R.TRK_TIMEOUT_fwd
      [] ≤ s.now - f.since ∧ f.members = [] ∧ s.trk.fwdWait.get [] [d] = []) :=
  ⟨⟨{ State.reset with sw := { held := Map.empty.set [0] [{ msg := { ty := 0x10, len := 16 }, issuer := .core 0, purpose := .plain }] } },
      0, { msg := { ty := 0x10, len := 16 }, issuer := .core 0, purpose := .plain }, by decide +kernel⟩,
   ⟨{ State.reset with now := 2000, trk := { issued := Map.empty.set [0, 0] { gen := 5, msg := { ty := 0x10, len := 16 }, issuer := .core 0, purpose := .plain, since := 0, retryAt := some 7 } } },
      0, 0, 7, { gen := 5, msg := { ty := 0x10, len := 16 }, issuer := .core 0, purpose := .plain, since := 0, retryAt := some 7 },
      by decide +kernel⟩,
   ⟨issuedOne (.load 0 64 8 none) { ty := 0x10, len := 16 },
      { chan := 1, ty := 0x30, len := 24, body := rspBody 0x500000 0 true 77 }, 0, 0, 0, 64, 8,
      { gen := 5, msg := { ty := 0x10, len := 16 }, issuer := .core 0, purpose := .load 0 64 8 none, since := 0 },
      by decide +kernel⟩,
   ⟨issuedOne (.load 0 64 8 none) { ty := 0x11, len := 16, body := reqBody 128 3 8 false 0 false 0 },
      { chan := 1, ty := 0x31, len := 24, body := rspBody 0x500000 0 true 77 }, 0, 0, 0, 64,
      { gen := 5, msg := { ty := 0x11, len := 16, body := reqBody 128 3 8 false 0 false 0 }, issuer := .core 0, purpose := .load 0 64 8 none, since := 0 },
      by decide +kernel⟩,
   ⟨issuedOne (.store 0 (some 3)) { ty := 0x12, len := 24 },
      { chan := 1, ty := 0x32, len := 16, body := rspBody 0x500000 0 true 0 }, 0, 0, 0, 3,
      { gen := 5, msg := { ty := 0x12, len := 24 }, issuer := .core 0, purpose := .store 0 (some 3), since := 0 },
      by decide +kernel⟩,
   ⟨{ issuedOne (.atomic 0 none (some 5) 8 none) { ty := 0x14, len := 24 } with cores := Map.empty.set [0] { owed := [5] } },
      { chan := 1, ty := 0x33, len := 24, body := rspBody 0x500000 0 true 77 }, 0, 0, 0, 5, 8,
      { gen := 5, msg := { ty := 0x14, len := 24 }, issuer := .core 0, purpose := .atomic 0 none (some 5) 8 none, since := 0 },
      by decide +kernel⟩,
   ⟨issuedOne (.contribution 0 none) { ty := 0x90, len := 24 }, { chan := 1, ty := 0x98, len := 16, body := 0x500000 }, 0,
      0, 0, { gen := 5, msg := { ty := 0x90, len := 24 }, issuer := .core 0, purpose := .contribution 0 none, since := 0 },
      by decide +kernel⟩,
   ⟨{ issuedOne .plain { ty := 0x10, len := 16 } with now := 2000000 }, 0, 0,
      { gen := 5, msg := { ty := 0x10, len := 16 }, issuer := .core 0, purpose := .plain, since := 0 }, by decide +kernel⟩,
   ⟨{ State.reset with now := 2000000, trk := { fwd := Map.empty.set [0, 7] { msg := { ty := 0x10, len := 16, src := 9 }, port := 3, since := 0 } } },
      0, 7, { msg := { ty := 0x10, len := 16, src := 9 }, port := 3, since := 0 }, by decide +kernel⟩⟩

theorem witness_EdgeWindows :
    (∃ (s : State) (sel : Nat) (entry : Nat), Applies s B.edg ∧ sel < 2 ^ 28 ∧ bitsOf sel 9 7 = 0 ∧ bitAt sel 8 = false ∧
      entry < 2 ^ 72 ∧ Win.valid_ entry = true ∧ Win.first entry ≤ Win.last entry ∧ bitsOf entry 6 2 = 0 ∧ bitsOf entry 56 8
      = 0) ∧
    (∃ (s : State) (sel : Nat), Applies s B.edg ∧ sel < 2 ^ 28 ∧ bitsOf sel 9 7 = 0) ∧
    (∃ (s : State) (sel : Nat) (entry : Nat), Applies s B.edg ∧ sel < 2 ^ 28 ∧ bitsOf sel 9 7 = 0 ∧ Win.valid_ entry = true
      ∧ Win.last entry < Win.first entry) :=
  ⟨⟨allReady, 0xFFF00FF, 7, by decide +kernel⟩,
   ⟨{ allReady with edgeWin := Map.empty.set [5, 1] 7 }, 0x10005, by decide +kernel⟩,
   ⟨allReady, 5, 0x100001, by decide +kernel⟩⟩

theorem witness_CachingClusters :
    (∃ (s : State) (c : Nat) (m : Msg) (l : CLine), Serves s ∧ m.ty = 0x48 ∧ s.coh.want.get? [c, lineAt m] = none ∧
      s.coh.lines.get? [c, lineAt m] = some l ∧ 2 ≤ l.st) ∧
    (∃ (s : State) (c : Nat) (m : Msg) (l : CLine), Serves s ∧ m.ty = 0x49 ∧ s.coh.want.get? [c, lineAt m] = none ∧
      s.coh.lines.get? [c, lineAt m] = some l ∧ 2 ≤ l.st) ∧
    (∃ (s : State) (c : Nat) (m : Msg) (l : CLine), Serves s ∧ m.ty = 0x4A ∧ s.coh.want.get? [c, lineAt m] = none ∧
      s.coh.lines.get? [c, lineAt m] = some l) ∧
    (∃ (s : State) (c : Nat) (m : Msg) (w : Want), Serves s ∧ m.ty = 0x4A ∧ s.coh.want.get? [c, lineAt m] = some w) ∧
    (∃ (s : State) (c : Nat) (m : Msg) (l : CLine), Serves s ∧ m.ty = 0x4B ∧ s.coh.want.get? [c, lineAt m] = none ∧
      s.coh.lines.get? [c, lineAt m] = some l ∧ 2 ≤ l.st) ∧
    (∃ (s : State) (c : Nat) (m : Msg) (line : Nat) (w : Want), Serves s ∧ m.ty = 0x50 ∧ s.wantOf c (m.f 0 0 32) = some
      (line, w) ∧ w.ty = 0x40 ∧ w.held = [] ∧ m.f 4 0 2 ≠ 0) ∧
    (∃ (s : State) (c : Nat) (m : Msg) (line : Nat) (w : Want), Serves s ∧ m.ty = 0x50 ∧ s.wantOf c (m.f 0 0 32) = some
      (line, w) ∧ w.held = [] ∧ m.f 4 0 2 = 0) ∧
    (∃ (s : State) (c : Nat) (m : Msg) (line : Nat) (w : Want), Serves s ∧ m.ty = 0x51 ∧ s.wantOf c (m.f 0 0 32) = some
      (line, w) ∧ w.held = []) :=
  ⟨⟨{ State.reset with coh := { lines := Map.empty.set [2, 1] { st := 3, data := 7 } } }, 2,
      { chan := 2, ty := 0x48, len := 24, body := 128 }, { st := 3, data := 7 }, by decide +kernel⟩,
   ⟨{ State.reset with coh := { lines := Map.empty.set [2, 1] { st := 2, data := 7 } } }, 2,
      { chan := 2, ty := 0x49, len := 24, body := 128 }, { st := 2, data := 7 }, by decide +kernel⟩,
   ⟨{ State.reset with coh := { lines := Map.empty.set [2, 1] { st := 1, data := 7 } } }, 2,
      { chan := 2, ty := 0x4A, len := 24, body := 128 }, { st := 1, data := 7 }, by decide +kernel⟩,
   ⟨{ State.reset with coh := { want := Map.empty.set [2, 1] { tag := 4, ty := 0x40 } } }, 2,
      { chan := 2, ty := 0x4A, len := 24, body := 128 }, { tag := 4, ty := 0x40 }, by decide +kernel⟩,
   ⟨{ State.reset with coh := { lines := Map.empty.set [2, 1] { st := 3, data := 7 } } }, 2,
      { chan := 2, ty := 0x4B, len := 24, body := 128 }, { st := 3, data := 7 }, by decide +kernel⟩,
   ⟨{ State.reset with coh := { want := Map.empty.set [2, 1] { tag := 4, ty := 0x40 } } }, 2,
      { chan := 1, ty := 0x50, len := 144, body := 4 + 2 ^ 32 + 99 <<< 128 }, 1, { tag := 4, ty := 0x40 },
      by decide +kernel⟩,
   ⟨{ State.reset with coh := { want := Map.empty.set [2, 1] { tag := 4, ty := 0x40 } } }, 2,
      { chan := 1, ty := 0x50, len := 16, body := 4 }, 1, { tag := 4, ty := 0x40 }, by decide +kernel⟩,
   ⟨{ State.reset with coh := { want := Map.empty.set [2, 1] { tag := 4, ty := 0x42 } } }, 2,
      { chan := 1, ty := 0x51, len := 16, body := 4 }, 1, { tag := 4, ty := 0x42 }, by decide +kernel⟩⟩

theorem witness_CoherentHomes :
    (∃ (s : State) (d : Nat) (dom : Nat) (a : Nat) (line : Nat) (m : Msg), Serves s ∧ m.ty = 0x40 ∧ AtHome s d m ∧ Alone s d
      m ∧ Coherent s m dom a line ∧ s.recOf line = .i) ∧
    (∃ (s : State) (d : Nat) (dom : Nat) (a : Nat) (line : Nat) (m : Msg), Serves s ∧ m.ty = 0x41 ∧ AtHome s d m ∧ Alone s d
      m ∧ Coherent s m dom a line ∧ s.recOf line = .i) ∧
    (∃ (s : State) (d : Nat) (dom : Nat) (a : Nat) (line : Nat) (m : Msg), Serves s ∧ m.ty = 0x42 ∧ AtHome s d m ∧ Alone s d
      m ∧ Coherent s m dom a line ∧ s.recOf line = .s (2 ^ a) ∧ a < 32) ∧
    (∃ (s : State) (d : Nat) (dom : Nat) (a : Nat) (line : Nat) (o : Nat) (m : Msg), Serves s ∧ m.ty = 0x40 ∧ AtHome s d m ∧
      Alone s d m ∧ Coherent s m dom a line ∧ s.recOf line = .x o ∧ o ≠ a ∧ s.slotLive dom o = true) ∧
    (∃ (s : State) (m : Msg) (sn : Snoop), Serves s ∧ m.ty = 0x52 ∧ s.coh.snoops.get? [m.f 0 0 32] = some sn ∧ sn.kind =
      0x4A ∧ sn.home = none ∧ sn.crossed = false ∧ s.slotFor sn.dom m.src = some sn.slot ∧ s.isDead sn.dom sn.slot = false ∧
      s.recOf sn.line = .x sn.slot ∧ m.f 4 0 2 = 1 ∧ m.f 4 2 1 = 1 ∧ Resolved s ∧ Memory.wf s.mem = true) ∧
    (∃ (s : State) (d₀ : Nat) (i : Nat) (m : Msg) (sn : Snoop), Serves s ∧ m.ty = 0x52 ∧ s.coh.snoops.get? [m.f 0 0 32] =
      some sn ∧ sn.kind = 0x49 ∧ sn.home = some (d₀, i) ∧ sn.crossed = false ∧ s.slotFor sn.dom m.src = some sn.slot ∧
      s.isDead sn.dom sn.slot = false ∧ m.f 4 0 2 = 3 ∧ m.f 4 2 1 = 0 ∧ s.coh.broken.has [sn.line] = false ∧ Resolved s) ∧
    (∃ (s : State) (a : Nat) (m : Msg), Serves s ∧ m.ty = 0x53 ∧ s.slotFor (m.f 0 56 8) m.src = some a ∧ s.isDead (m.f 0 56
      8) a = false ∧ s.openSnoop (lineAt m) (m.f 0 56 8) a = none ∧ s.recOf (lineAt m) = .x a ∧ s.coh.busy.get? [lineAt m] =
      none ∧ Resolved s ∧ Memory.wf s.mem = true) ∧
    (∃ (s : State) (a : Nat) (m : Msg), Serves s ∧ m.ty = 0x54 ∧ s.slotFor (m.f 0 56 8) m.src = some a ∧ s.isDead (m.f 0 56
      8) a = false ∧ s.openSnoop (lineAt m) (m.f 0 56 8) a = none ∧ s.recOf (lineAt m) = .x a ∧ s.coh.busy.get? [lineAt m] =
      none ∧ Resolved s) :=
  ⟨⟨boundExt, 0, 1, 2, 1, { ty := 0x40, src := 9, len := 16, body := reqBody 128 3 0 false 0 false 0 + 1 <<< 56 },
      by decide +kernel⟩,
   ⟨boundExt, 0, 1, 2, 1, { ty := 0x41, src := 9, len := 16, body := reqBody 128 3 0 false 0 false 0 + 1 <<< 56 },
      by decide +kernel⟩,
   ⟨{ boundExt with coh := { recs := Map.empty.set [1] (.s 4) } }, 0, 1, 2, 1,
      { ty := 0x42, src := 9, len := 16, body := reqBody 128 3 0 false 0 false 0 + 1 <<< 56 }, by decide +kernel⟩,
   ⟨{ boundExt with coh := { recs := Map.empty.set [1] (.x 1) } }, 0, 1, 2, 1, 1,
      { ty := 0x40, src := 9, len := 16, body := reqBody 128 3 0 false 0 false 0 + 1 <<< 56 }, by decide +kernel⟩,
   ⟨{ boundExt with coh := { recs := Map.empty.set [1] (.x 2), snoops := Map.empty.set [6] { line := 1, dom := 1, slot := 2, kind := 0x4A } } },
      { chan := 1, ty := 0x52, src := 9, len := 144, body := 6 + 5 <<< 32 + 99 <<< 128 },
      { line := 1, dom := 1, slot := 2, kind := 0x4A }, by decide +kernel⟩,
   ⟨{ boundExt with coh := { recs := Map.empty.set [1] (.x 1), snoops := Map.empty.set [6] { line := 1, dom := 1, slot := 2, kind := 0x49, home := some (0, 4) } }, trk := { home := Map.empty.set [0, 4] { msg := {}, since := 0 } } },
      0, 4, { chan := 1, ty := 0x52, src := 9, len := 16, body := 6 + 3 <<< 32 },
      { line := 1, dom := 1, slot := 2, kind := 0x49, home := some (0, 4) }, by decide +kernel⟩,
   ⟨{ boundExt with coh := { recs := Map.empty.set [1] (.x 2) } }, 2,
      { chan := 1, ty := 0x53, src := 9, len := 144, body := 128 + 1 <<< 56 + 99 <<< 128 }, by decide +kernel⟩,
   ⟨{ boundExt with coh := { recs := Map.empty.set [1] (.x 2) } }, 2,
      { chan := 1, ty := 0x54, src := 9, len := 16, body := 128 + 1 <<< 56 }, by decide +kernel⟩⟩

theorem witness_AgentDeath :
    (∃ (s : State) (dom : Nat) (slot : Nat) (agent : Nat), Applies s B.coh ∧ dom < 256 ∧ slot < 32 ∧ s.agentAt dom slot =
      some agent ∧ s.isDead dom slot = false ∧ (∀ e ∈ s.coh.snoops.entries, e.2.dom = dom → e.2.slot ≠ slot) ∧
      s.coh.busy.entries = [] ∧ Resolved s) ∧
    (∃ (s : State) (tag : Nat) (agent : Nat) (sn : Snoop), Serves s ∧ s.coh.snoops.entries = [([tag], sn)] ∧ 1000 * s.rd
      R.COH_TIMEOUT_snoop [] ≤ s.now - sn.since ∧ sn.kind = 0x4A ∧ sn.home = none ∧ sn.crossed = false ∧ s.agentAt sn.dom
      sn.slot = some agent ∧ s.isDead sn.dom sn.slot = false ∧ s.listed R.COH_MEMBER_valid = [[sn.dom, sn.slot]] ∧
      s.coh.busy.entries = [] ∧ Resolved s) ∧
    (∃ (s : State) (p : Nat) (t₀ : Nat) (v : Nat) (eid : Nat) (dom : Nat) (a : Nat), Serves s ∧ (s.port p).downAt = some t₀
      ∧ (s.port p).identity = some (v, eid) ∧ s.isUp p = false ∧ 1000 * s.rd R.COH_TIMEOUT_grace [] ≤ s.now - t₀ ∧ s.listed
      R.COH_MEMBER_valid = [[dom, a]] ∧ s.agentAt dom a = some eid ∧ s.isDead dom a = false ∧ (∀ e ∈ s.coh.snoops.entries,
      e.2.dom = dom → e.2.slot ≠ a) ∧ s.coh.busy.entries = [] ∧ Resolved s) ∧
    (∃ (s : State) (dom : Nat) (slot : Nat), Serves s ∧ s.coh.walks.has [dom, slot] = true ∧ s.coh.members.get? [dom, slot]
      = none) :=
  ⟨⟨(allReady.wr R.COH_MEMBER_valid [1, 2] 1).wr R.COH_MEMBER_eid [1, 2] 9, 1, 2, 9, by decide +kernel⟩,
   ⟨{ (State.reset.wr R.COH_MEMBER_valid [1, 2] 1).wr R.COH_MEMBER_eid [1, 2] 9 with now := 1000000, coh := { snoops := Map.empty.set [6] { line := 1, dom := 1, slot := 2, kind := 0x4A } } },
      6, 9, { line := 1, dom := 1, slot := 2, kind := 0x4A }, by decide +kernel⟩,
   ⟨{ (State.reset.wr R.COH_MEMBER_valid [1, 2] 1).wr R.COH_MEMBER_eid [1, 2] 9 with now := 20000000, ports := Map.empty.set [3] { downAt := some 0, identity := some (4, 9) } },
      3, 0, 4, 9, 1, 2, by decide +kernel⟩,
   ⟨{ State.reset with coh := { walks := Map.empty.set [1, 2] () } }, 1, 2, by decide +kernel⟩⟩

theorem witness_CoherenceTables :
    (∃ (s : State) (i : Nat) (v : Nat), Applies s B.coh ∧ v < 2 ^ 52 ∧ bitsOf v 0 1 = 1 ∧ bitsOf v 1 7 = 0 ∧
      s.coh.unbinding.has [i] = false ∧ s.rd R.COH_BIND_valid [i] = 0 ∧ s.bindRefusal i v = none ∧ s.isPrimary = false) ∧
    (∃ (s : State) (dom : Nat) (a : Nat) (v : Nat), Applies s B.coh ∧ v < 2 ^ 36 ∧ bitsOf v 2 14 = 0 ∧ s.coh.walks.has [dom,
      a] = false ∧ s.agentAt dom a = none) ∧
    (∃ (s : State) (d : Nat) (k : Nat) (v : Nat), Applies s B.coh ∧ v < 2 ^ 19 ∧ bitsOf v 18 1 = 1 ∧ (s.ext s.node (bitsOf v
      0 18)).state = .internal ∧ s.inBoard (bitsOf v 0 18) = false ∧ (s.ext s.node (bitsOf v 0 18)).die = d ∧ s.rd
      R.COH_DIR_STORE_valid [d, k] = 0) :=
  ⟨⟨{ allReady.wr R.POL_STATUS_extents [] 2 |>.wr R.COH_CFG_enable [0] 1 |>.wr R.COH_DIR_STORE_valid [0, 0] 1 with pool := { ext := Map.empty.set [0, 0] { state := .held } } },
      4, 0x101, by decide +kernel⟩,
   ⟨allReady, 3, 31, 0x500070003, by decide +kernel⟩,
   ⟨{ allReady.wr R.POL_STATUS_extents [] 2 with pool := { ext := Map.empty.set [0, 1] { state := .internal, die := 1 } } },
      1, 63, 0x40001, by decide +kernel⟩⟩

theorem witness_PoolGrants :
    (∃ (s : State) (k : Nat) (eid : Nat) (ten : Nat) (dur : Nat), Applies s B.pol ∧ k < 4096 ∧ eid < 65536 ∧ ten < 32 ∧ 977
      ≤ dur ∧ dur ≤ 58593750 ∧ s.rd R.POL_LEASE_valid [k] = 0 ∧ s.slotOf eid = none ∧ s.tenantActive ten = true ∧ s.timeless
      = false ∧ s.isPrimary = false) ∧
    (∃ (s : State) (m : Msg) (k : Nat), Applies s B.pol ∧ m.ty = 0x60 ∧ s.slotOf m.src = some k ∧ s.rd R.POL_LEASE_expired
      [k] = 0 ∧ s.timeless = false ∧ s.isPrimary = false) ∧
    (∃ (s : State) (k : Nat), Applies s B.pol ∧ s.timeless = false ∧ s.tst ≠ Ts.lost ∧ s.listed R.POL_LEASE_valid = [[k]] ∧
      s.rd R.POL_LEASE_expired [k] = 0 ∧ s.pool.provisional.has [k] = false ∧ ahead (s.rd R.POL_LEASE_expiry [k]) s.beat =
      false ∧ s.nodesHere.all (fun n => s.ownedBy n k = []) = true ∧ s.listed R.POL_SHARE_valid = []) ∧
    (∃ (s : State) (k : Nat) (e : Nat) (die : Nat) (l : Loc) (dd : Nat), Applies s B.pol ∧ k < 4096 ∧ die < 2 ∧ s.on
      R.POL_LEASE_valid [k] = true ∧ s.on R.POL_LEASE_expired [k] = false ∧ (s.ext s.node e).state = .free ∧ s.countExt
      s.node .free ≠ 0 ∧ s.tenantActive (s.rd R.POL_LEASE_tenant [k]) = true ∧ s.heldBy (s.rd R.POL_LEASE_tenant [k]) < s.rd
      R.POL_TENANT_QUOTA_quota [s.rd R.POL_LEASE_tenant [k]] ∧ s.isPuppet = false ∧ s.isPrimary = false ∧ s.slotsFree ≠ 0 ∧
      s.placement die = some (l, dd) ∧ l.board = false) ∧
    (∃ (s : State) (e : Nat) (die : Nat) (l : Loc) (dd : Nat), Applies s B.pol ∧ die < 2 ∧ (s.ext s.node e).state = .free ∧
      s.slotsFree ≠ 0 ∧ s.placement die = some (l, dd) ∧ l.board = false) ∧
    (∃ (s : State) (n : Nat) (e : Nat) (g : Nat) (k : Nat) (j : Nat), Applies s B.pol ∧ s.serves n = true ∧ g < 1024 ∧ k <
      4096 ∧ s.on R.POL_LEASE_valid [k] = true ∧ (s.ext n e).state = .held ∧ (s.ext n e).group = none ∧ (s.ext n e).owner ≠
      k ∧ s.inGroup g = [] ∧ s.sharers g = [] ∧ (s.ext n e).tenant = s.rd R.POL_LEASE_tenant [k] ∧ (List.range 64).find?
      (fun j => !s.on R.POL_SHARE_valid [g, j]) = some j ∧ s.isPrimary = false) ∧
    (∃ (s : State) (n : Nat) (e : Nat) (g : Nat), Applies s B.pol ∧ s.serves n = true ∧ g < 1024 ∧ (s.ext n e).state = .held
      ∧ s.isPrimary = false) ∧
    (∃ (s : State) (n : Nat) (e : Nat) (g : Nat), Applies s B.pol ∧ s.serves n = true ∧ g < 1024 ∧ (s.ext n e).state = .held
      ∧ (s.ext n e).group = some g ∧ s.isPrimary = false) ∧
    (∃ (s : State) (kind : Nat) (die : Nat) (index : Nat) (rate : Nat) (burst : Nat), Applies s B.pol ∧ kind < 2 ∧ die < 2 ∧
      (index < (if kind = 0 then 4096 else 32)) ∧ rate < 65536 ∧ burst < 65536 ∧ (burst = 0 → rate = 0)) ∧
    (∃ (s : State) (ten : Nat) (n : Nat), Applies s B.pol ∧ ten < 32 ∧ n ≤ 0x1FFFF ∧ s.heldBy ten ≤ n) ∧
    (∃ (s : State) (ten : Nat) (n : Nat), Applies s B.pol ∧ ten < 32 ∧ n < s.heldBy ten ∧ n ≤ 0x1FFFF) ∧
    (∃ (s : State), Applies s B.pol ∧ s.pool.limitQ = Map.empty ∧ s.trk.flowWait = [] ∧ s.pool.tokens.wf = true) :=
  ⟨⟨leased, 5, 11, 0, 2000, by decide +kernel⟩,
   ⟨leased, { ty := 0x60, src := 9, len := 16 }, 3, by decide +kernel⟩,
   ⟨leased, 3, by decide +kernel⟩,
   ⟨leased, 3, 2, 0, { board := false, unit := 0, slot := 0 }, 0, by decide +kernel⟩,
   ⟨leased, 2, 0, { board := false, unit := 0, slot := 0 }, 0, by decide +kernel⟩,
   ⟨(extIn .held).wr R.POL_LEASE_valid [5] 1, 0, 0, 12, 5, 0, by decide +kernel⟩,
   ⟨((extIn .held).wr R.POL_SHARE_valid [12, 0] 1).wr R.POL_SHARE_slot [12, 0] 5, 0, 0, 12, by decide +kernel⟩,
   ⟨{ extIn .held with pool := { ext := Map.empty.set [0, 0] { state := .held, owner := 3, group := some 12 } } }, 0, 0, 12,
      by decide +kernel⟩,
   ⟨leased, 1, 1, 31, 9, 65535, by decide +kernel⟩,
   ⟨extIn .held, 0, 1, by decide +kernel⟩,
   ⟨extIn .held, 0, 0, by decide +kernel⟩,
   ⟨{ leased.wr R.POL_LIMIT_rate [0, 3] 2 |>.wr R.POL_LIMIT_burst [0, 3] 9 with pool := { tokens := Map.empty.set [0, 0, 3] (-400) } },
      by decide +kernel⟩⟩

theorem witness_PoolRevocation :
    (∃ (s : State) (e : Nat) (c : Nat), Applies s B.pol ∧ c < 2 ∧ (s.ext s.node e).state = .held ∧ s.bindOf e = none ∧
      s.tier.store = none ∧ s.isPrimary = false ∧ (s.ext s.node e).group = none) ∧
    (∃ (s : State) (i : Nat) (e : Nat) (v : Revocation), Applies s B.pol ∧ s.pool.revs.get? [i] = some v ∧ v.drained = false
      ∧ v.extents = [e] ∧ v.node = s.node ∧ v.asker = some .here ∧ s.drainedAll v = true ∧ (s.ext s.node e).state =
      .revoking ∧ (s.ext s.node e).group = none) ∧
    (∃ (s : State) (i : Nat) (e : Nat) (d : Nat) (h : Nat) (v : Revocation) (x : Home), Applies s B.pol ∧ s.pool.revs.get?
      [i] = some v ∧ v.drained = false ∧ v.late = false ∧ 1000 * s.rd R.POL_CFG_drain_timeout [] ≤ s.now - v.since ∧
      v.extents = [e] ∧ (s.ext v.node e).state = .revoking ∧ s.trk.home.entries = [([d, h], x)] ∧ toExtent v.node e x.msg =
      true ∧ s.trk.fwd = Map.empty) ∧
    (∃ (s : State) (i : Nat) (e : Nat) (v : Revocation), Applies s B.pol ∧ Settled s ∧ s.pool.revs.get? [i] = some v ∧
      v.drained = true ∧ v.clear = true ∧ v.release = false ∧ v.left = [e] ∧ v.node = s.node ∧ v.tell = [] ∧ (s.ext s.node
      e).state = .scrub ∧ s.tier.moves.get? [e] = none) ∧
    (∃ (s : State) (e : Nat), Applies s B.pol ∧ Settled s ∧ (s.ext s.node e).state = .quarantine) ∧
    (∃ (s : State) (e : Nat), Applies s B.pol ∧ Settled s ∧ (s.ext s.node e).state = .free ∧ s.trk.home = Map.empty ∧
      s.trk.fwd = Map.empty ∧ s.isPrimary = false ∧ s.tier.moves.get? [e] = none) ∧
    (∃ (s : State) (k : Nat) (v : Nat), Applies s B.pol ∧ k < 64 ∧ v < 2 ^ 52 ∧ bitsOf v 1 3 = 0) ∧
    (∃ (s : State) (eid : Nat) (node : Nat) (p : Nat) (n : Nat) (k : Nat), Applies s B.pol ∧ eid < 65536 ∧ node < 4096 ∧ p <
      256 ∧ n < 2 ^ 18 ∧ s.serves node = false ∧ s.isUp p = true ∧ s.on R.PRT_PORT_STATUS_partner_lender [p] = true ∧
      (List.range 16).find? (fun k => !s.on R.POL_LEND_valid [k]) = some k) ∧
    (∃ (s : State) (eid : Nat) (node : Nat) (p : Nat) (n : Nat) (k : Nat), Applies s B.pol ∧ s.lendOf node = some k ∧ s.rd
      R.POL_LEND_eid [k] = eid ∧ s.rd R.POL_LEND_port [k] = p ∧ s.rd R.POL_LEND_extents [k] = n ∧ (s.pool.ext.entries.any
      (fun e => decide (e.1.head? = some node ∧ e.2.state ≠ .free ∧ e.2.state ≠ .quarantine ∧ e.2.state ≠ .lost)) = false))
      ∧
    (∃ (s : State) (p : Nat) (m : Msg) (k : Key), Applies s B.pol ∧ m.ty = 0x65 ∧ s.listed R.POL_LEND_valid = [k] ∧ s.rd
      R.POL_LEND_port k = p ∧ s.rd R.POL_LEND_eid k = m.src) ∧
    (∃ (s : State) (k : Nat) (m : Msg), Applies s B.pol ∧ s.pool.withdraw.get? [k] = some m ∧ (s.pool.ext.entries.any (fun e
      => decide (e.1.head? = some (s.rd R.POL_LEND_node [k]) ∧ (e.2.state = .held ∨ e.2.state = .revoking ∨ e.2.state =
      .scrub))) = false)) ∧
    (∃ (s : State) (eid : Nat) (kind : Nat) (p : Nat), Applies s B.pol ∧ 0 < kind ∧ kind ≤ 4 ∧ p < 256 ∧ s.isEdge p = true ∧
      s.partnerEid p = eid) :=
  ⟨⟨extIn .held, 0, 1, by decide +kernel⟩,
   ⟨revoked .revoking { node := 0, extents := [0], clear := true, asker := some .here }, 7, 0,
      { node := 0, extents := [0], clear := true, asker := some .here }, by decide +kernel⟩,
   ⟨{ revoked .revoking { node := 0, extents := [0], clear := true } with now := 100000000, trk := { home := Map.empty.set [0, 4] { msg := { ty := 0x10, len := 16, src := 9, body := reqBody 0 0 8 false 0 false 0 }, since := 0 } } },
      7, 0, 0, 4, { node := 0, extents := [0], clear := true },
      { msg := { ty := 0x10, len := 16, src := 9, body := reqBody 0 0 8 false 0 false 0 }, since := 0 }, by decide +kernel⟩,
   ⟨{ revoked .scrub { node := 0, extents := [0], clear := true, drained := true, left := [0] } with mem := [(130, 5)] }, 7,
      0, { node := 0, extents := [0], clear := true, drained := true, left := [0] }, by decide +kernel⟩,
   ⟨extIn .quarantine, 0, by decide +kernel⟩,
   ⟨leased, 1, by decide +kernel⟩,
   ⟨leased, 63, 0xC000800000071, by decide +kernel⟩,
   ⟨lending, 41, 7, 3, 5, 1, by decide +kernel⟩,
   ⟨lending, 40, 6, 3, 10, 0, by decide +kernel⟩,
   ⟨lending, 3, { ty := 0x65, src := 40, len := 16 }, [0], by decide +kernel⟩,
   ⟨{ lending with pool := { withdraw := Map.empty.set [0] { ty := 0x65, src := 40, len := 16 } } }, 0,
      { ty := 0x65, src := 40, len := 16 }, by decide +kernel⟩,
   ⟨(leased.wr R.PRT_PORT_STATUS_state [4] 5).wr R.PRT_PORT_STATUS_partner_eid [4] 77, 77, 3, 4, by decide +kernel⟩⟩

theorem witness_StackColumns :
    (∃ (s : State) (u : Nat) (p : Nat) (r : ColReq), Serves s ∧ s.stackRuns u = true ∧ s.pcState u p ≠ 3 ∧ (s.pc u p).reads
      = [r] ∧ (s.pc u p).writes = [] ∧ (s.pc u p).owed = Map.empty ∧ r.write = false ∧ s.columnsNow u < s.columnCap) ∧
    (∃ (s : State) (u : Nat) (p : Nat) (b : Nat) (n : Nat), Serves s ∧ s.stackRuns u = true ∧ s.pcState u p ≠ 3 ∧ (s.pc u
      p).owed.entries = [([b], n)] ∧ 8 ≤ n) ∧
    (∃ (s : State) (u : Nat) (p : Nat), Serves s ∧ s.stackRuns u = true ∧ s.pcState u p ≠ 3) ∧
    (∃ (s : State) (u : Nat) (p : Nat) (b : Nat), Serves s ∧ (s.pc u p).reads = [] ∧ (s.pc u p).writes = [] ∧ (s.pc u
      p).bankUse.get 0 [b] + 8 * s.rd R.MEM_SCHED_CFG_row_idle [] ≤ s.now) ∧
    (∃ (s : State) (u : Nat) (p : Nat), Serves s ∧ s.stackRuns u = true ∧ s.pcState u p = 0 ∧ (s.pc u p).reads = [] ∧ (s.pc
      u p).writes = [] ∧ 0 < s.rd R.MEM_PD_CFG_pd_timer [] ∧ (s.pc u p).lastUse + 16 * s.rd R.MEM_PD_CFG_pd_timer [] ≤
      s.now) ∧
    (∃ (s : State) (u : Nat) (p : Nat), Serves s ∧ s.isReady B.mem = true ∧ s.stackRuns u = true ∧ s.pcState u p = 0 ∧
      (List.range 32).all (fun k => s.pcState u k = 0 || s.pcState u k = 3) = true) ∧
    (∃ (s : State) (u : Nat) (p : Nat), Serves s ∧ s.pcState u p = 1 ∧ (s.pc u p).reads = [] ∧ (s.pc u p).writes = []) ∧
    (∃ (s : State) (u : Nat) (p : Nat), Serves s ∧ s.isReady B.mem = true ∧ s.pcState u p = 2 ∧ (s.pc u p).wait = [] ∧
      s.trk.flowWait = []) ∧
    (∃ (s : State) (u : Nat) (p : Nat) (lane : Nat) (v : Nat), Serves s ∧ s.pcState u p = 2 ∧ (s.pc u p).recalAt + 128 *
      s.rd R.MEM_RECAL_CFG_max_window [] ≤ s.now ∧ (s.pc u p).wait = [] ∧ s.trk.flowWait = [] ∧ (s.pc u p).saved =
      [([R.MEM_DLY_DQ_rd_fine.num, u, p, lane], v)]) ∧
    (∃ (s : State) (u : Nat) (p : Nat), Serves s ∧ s.pcState u p = 2) ∧
    (∃ (s : State) (u : Nat) (l : Nat), Serves s ∧ u < 20 ∧ s.stackRuns u = true ∧ s.columnsNow u < s.columnCap ∧ s.lineIn u
      l = true ∧ s.tier.passLeft = none ∧ 0 < s.rd R.MEM_PATROL_CFG_lines_per_beat []) ∧
    (∃ (s : State) (u : Nat) (p : Nat), Serves s ∧ s.pcState u p ≠ 3 ∧ (s.pc u p).errors.1 = s.beat ∧ 64 ≤ (s.pc u
      p).errors.2 ∧ (s.pc u p).wait = [] ∧ s.trk.flowWait = [] ∧ p < 32) ∧
    (∃ (s : State) (u : Nat), Serves s ∧ s.stackRuns u = true ∧ s.extentsIn false u = []) ∧
    (∃ (s : State) (u : Nat), Serves s ∧ s.rd R.MEM_STACK_STATUS_state [u] = 0 ∧ s.on R.SEC_BOOT_STATUS_config_ok [] = true)
      :=
  ⟨⟨pcIn 0 { reads := [{ write := false, bank := 5, row := 77, col := 3, since := 0 }] }, 0, 1,
      { write := false, bank := 5, row := 77, col := 3, since := 0 }, by decide +kernel⟩,
   ⟨pcIn 0 { reads := [{ write := false, bank := 5, row := 77, col := 3, since := 0 }], owed := Map.empty.set [5] 8 }, 0, 1,
      5, 8, by decide +kernel⟩,
   ⟨(pcIn 0 {}).wr R.MEM_PC_STATUS_powered_down [0, 1] 1, 0, 1, by decide +kernel⟩,
   ⟨pcIn 0 { openRow := Map.empty.set [5] 77 }, 0, 1, 5, by decide +kernel⟩,
   ⟨(pcIn 0 {}).wr R.MEM_PD_CFG_pd_timer [] 4, 0, 1, by decide +kernel⟩,
   ⟨pcIn 0 {}, 0, 1, by decide +kernel⟩,
   ⟨(pcIn 1 {}).wr R.MEM_DLY_DQ_rd_fine [0, 1, 3] 9, 0, 1, by decide +kernel⟩,
   ⟨pcIn 2 { failedReleases := 1 }, 0, 1, by decide +kernel⟩,
   ⟨{ (pcIn 2 { saved := [([R.MEM_DLY_DQ_rd_fine.num, 0, 1, 3], 9)] }).wr R.MEM_DLY_DQ_rd_fine [0, 1, 3] 7 with now := 10000000 },
      0, 1, 3, 9, by decide +kernel⟩,
   ⟨pcIn 2 {}, 0, 1, by decide +kernel⟩,
   ⟨(tiered none).wr R.MEM_PATROL_CFG_lines_per_beat [] 4, 0, 7, by decide +kernel⟩,
   ⟨{ pcIn 0 { errors := (0, 64) } with now := 0 }, 0, 1, by decide +kernel⟩,
   ⟨tiered none, 1, by decide +kernel⟩,
   ⟨State.reset.wr R.SEC_BOOT_STATUS_config_ok [] 1, 19, by decide +kernel⟩⟩

theorem witness_TierMoves :
    (∃ (s : State), Serves s ∧ s.beat % 2 ^ s.rd R.MEM_AGE_CFG_period_log2 [] = 0 ∧ s.tier.ageAt ≠ s.beat + 1 ∧ s.aged.Nodup
      ∧ s.tier.heat.wf = true) ∧
    (∃ (s : State) (d : Nat) (e : Nat) (l : Loc), Serves s ∧ s.on R.MEM_TIER_CFG_enable [] = true ∧ s.stackFree d < s.rd
      R.MEM_TIER_CFG_low_free [] ∧ s.mayMove d = true ∧ s.oldestEligible d = some e ∧ s.boardDst d = some l) ∧
    (∃ (s : State) (e : Nat) (l : Loc), Serves s ∧ s.on R.MEM_TIER_CFG_enable [] = true ∧ s.inBoard e = true ∧
      s.tier.moves.has [e] = false ∧ (s.ext s.node e).state = .held ∧ s.rd R.MEM_TIER_CFG_promote_heat [] ≤ s.tier.heat.get
      0 [e] ∧ s.mayMove (s.ext s.node e).die = true ∧ s.pkg.hubLost.has [(s.ext s.node e).die] = false ∧ s.movesAt true
      (s.tier.loc.get {} [e]).unit = 0 ∧ s.tier.swaps.vals.contains e = false ∧ s.promoteTo (s.ext s.node e).die = some l) ∧
    (∃ (s : State) (e : Nat) (k : Nat) (m : Move), Serves s ∧ Settled s ∧ s.tier.moves.get? [e] = some m ∧ m.lock = none ∧
      m.whole = none ∧ m.resumeAt = none ∧ m.urgent = none ∧ m.gapUntil ≤ s.now ∧ s.moveCut e m = false ∧ (s.ext s.node
      e).state = .held ∧ (List.range 1024).find? (fun k => !bitAt m.copied k) = some k) ∧
    (∃ (s : State) (e : Nat) (k : Nat) (t0 : Nat) (m : Move), Serves s ∧ s.tier.moves.get? [e] = some m ∧ m.lock = some (k,
      t0) ∧ s.now ≤ t0 + 2000 ∧ m.wait = [] ∧ s.trk.flowWait = [] ∧ (m.copied ||| 1 <<< k) % 2 ^ 1024 ≠ 2 ^ 1024 - 1) ∧
    (∃ (s : State) (e : Nat) (k : Nat) (t0 : Nat) (m : Move), Serves s ∧ s.tier.moves.get? [e] = some m ∧ m.lock = some (k,
      t0) ∧ t0 + 2000 < s.now ∧ m.wait = [] ∧ s.trk.flowWait = [] ∧ m.abandons < 7 ∧ m.resumeAt = none) ∧
    (∃ (s : State) (e : Nat) (b : Nat) (m : Move), Serves s ∧ s.tier.moves.get? [e] = some m ∧ m.resumeAt = some b ∧ b ≤
      s.now) ∧
    (∃ (s : State) (e : Nat) (b : Nat) (m : Move), Serves s ∧ Settled s ∧ s.tier.moves.get? [e] = some m ∧ m.whole = some b
      ∧ s.beat ≠ b ∧ s.tier.swaps.get? [e] = none ∧ e < s.extents s.node) ∧
    (∃ (s : State) (e : Nat) (die : Nat) (l : Loc) (dst : Loc), Serves s ∧ e < 2 ^ 18 ∧ die < 2 ∧ s.isReady B.mem = true ∧
      (s.ext s.node e).state = .held ∧ s.tier.moves.has [e] = false ∧ s.bindOf e = none ∧ s.mayMove (s.ext s.node e).die =
      true ∧ s.tier.loc.get? [e] = some l ∧ s.movesAt l.board l.unit = 0 ∧ s.pick false true (stacksOf die) = some dst) ∧
    (∃ (s : State) (u : Nat) (e : Nat) (l : Loc) (dst : Loc) (die : Nat), Serves s ∧ Settled s ∧ s.isReady B.mem = true ∧
      s.rd R.MEM_STACK_STATUS_state [u] = 1 ∧ s.tier.loc.entries = [([e], l)] ∧ l.board = false ∧ l.unit = u ∧ u < 20 ∧
      s.tier.moves = Map.empty ∧ (s.ext s.node e).state = .held ∧ 0 < s.rd R.MEM_MIG_CFG_max_moves [] ∧ s.freeSlots false u
      < s.slotsFree ∧ s.freeSlots false u < s.stackFree (dieOfStack u) ∧ (s.wr R.MEM_STACK_STATUS_state [u] 2).refuge e =
      some (dst, die)) ∧
    (∃ (s : State) (c : Nat), Serves s ∧ s.isReady B.brd = true ∧ (s.chState c = 0 ∨ s.chState c = 5)) ∧
    (∃ (s : State) (c : Nat) (d : Spd), Serves s ∧ Settled s ∧ s.chState c = 1 ∧ accepted d = true ∧ s.tier.boot.get 0 [c] ≤
      16 * d.capacityGiB ∧ s.tier.gone.get 0 [c] = 0) ∧
    (∃ (s : State) (c : Nat), Serves s ∧ s.chState c = 1) ∧
    (∃ (s : State) (c : Nat), Serves s ∧ Settled s ∧ s.isReady B.brd = true ∧ c < 8 ∧ s.chState c = 2 ∧ s.tier.loc =
      Map.empty ∧ s.tier.moves = Map.empty) ∧
    (∃ (s : State) (c : Nat), Serves s ∧ s.isReady B.brd = true ∧ (s.chState c = 4 ∨ s.chState c = 6)) ∧
    (∃ (s : State) (c : Nat), Serves s ∧ s.chState c = 2 ∧ s.extentsIn true c = []) :=
  ⟨⟨{ tiered none with now := 0 }, by decide +kernel⟩,
   ⟨(tiered none).wr R.MEM_TIER_CFG_low_free [] 65535 |>.wr R.MEM_AGE_CFG_min_demote_age [] 0, 0, 0,
      { board := true, unit := 0, slot := 0 }, by decide +kernel⟩,
   ⟨{ tiered none with tier := { loc := Map.empty.set [0] { board := true, unit := 0, slot := 2 }, heat := Map.empty.set [0] 255 } },
      0, { board := false, unit := 0, slot := 0 }, by decide +kernel⟩,
   ⟨tiered (some { kind := .demotion, src := some {}, dst := { board := true, unit := 0, slot := 0 }, die := 0, copied := 3 }),
      0, 2, { kind := .demotion, src := some {}, dst := { board := true, unit := 0, slot := 0 }, die := 0, copied := 3 },
      by decide +kernel⟩,
   ⟨tiered (some { kind := .demotion, src := some {}, dst := { board := true, unit := 0, slot := 0 }, die := 0, copied := 3, lock := some (2, 99000) }),
      0, 2, 99000, { kind := .demotion, src := some {}, dst := { board := true, unit := 0, slot := 0 }, die := 0, copied := 3, lock := some (2, 99000) },
      by decide +kernel⟩,
   ⟨tiered (some { kind := .demotion, src := some {}, dst := { board := true, unit := 0, slot := 0 }, die := 0, lock := some (2, 90000) }),
      0, 2, 90000, { kind := .demotion, src := some {}, dst := { board := true, unit := 0, slot := 0 }, die := 0, lock := some (2, 90000) },
      by decide +kernel⟩,
   ⟨tiered (some { kind := .demotion, src := some {}, dst := {}, die := 0, resumeAt := some 5 }), 0, 5,
      { kind := .demotion, src := some {}, dst := {}, die := 0, resumeAt := some 5 }, by decide +kernel⟩,
   ⟨tiered (some { kind := .promotion, src := some {}, dst := { board := false, unit := 12, slot := 0 }, die := 1, whole := some 5 }),
      0, 5, { kind := .promotion, src := some {}, dst := { board := false, unit := 12, slot := 0 }, die := 1, whole := some 5 },
      by decide +kernel⟩,
   ⟨(tiered none).wr R.MEM_STACK_STATUS_state [10] 1, 0, 1, {}, { unit := 10, slot := 0 }, by decide +kernel⟩,
   ⟨tiered none, 0, 0, {}, { board := true, unit := 0, slot := 0 }, 0, by decide +kernel⟩,
   ⟨tiered none, 3, by decide +kernel⟩,
   ⟨(tiered none).wr R.BRD_CH_STATUS_state [3] 1, 3, { supported := true, capacityGiB := 512, mrdimm := true },
      by decide +kernel⟩,
   ⟨(tiered none).wr R.BRD_CH_STATUS_state [3] 1, 3, by decide +kernel⟩,
   ⟨{ tiered none with tier := {} }, 0, by decide +kernel⟩,
   ⟨(tiered none).wr R.BRD_CH_STATUS_state [3] 6, 3, by decide +kernel⟩,
   ⟨tiered none, 0, by decide +kernel⟩⟩

theorem witness_ScalarIntegers :
    (∃ (s : State) (w : BitVec 64) (n : Nat) (x : Nat), Serves s ∧ Issues s n 0x01 w ∧ w.toNat = x ∧ only x [mD, mA, mB, mT]
      = true ∧ fT x ≤ 1) ∧
    (∃ (s : State) (w : BitVec 64) (n : Nat) (x : Nat), Serves s ∧ Issues s n 0x02 w ∧ w.toNat = x ∧ only x [mD, mA, mB, mT]
      = true ∧ fT x ≤ 1) ∧
    (∃ (s : State) (w : BitVec 64) (n : Nat) (x : Nat), Serves s ∧ Issues s n 0x03 w ∧ w.toNat = x ∧ only x [mD, mA, mB, mT]
      = true ∧ fT x ≤ 1) ∧
    (∃ (s : State) (w : BitVec 64) (n : Nat) (x : Nat), Serves s ∧ Issues s n 0x04 w ∧ w.toNat = x ∧ only x [mD, mA, mB, mT]
      = true ∧ fT x ≤ 1) ∧
    (∃ (s : State) (w : BitVec 64) (n : Nat) (x : Nat), Serves s ∧ Issues s n 0x05 w ∧ w.toNat = x ∧ only x [mD, mA, mB, mT]
      = true ∧ fT x ≤ 1) ∧
    (∃ (s : State) (w : BitVec 64) (n : Nat) (x : Nat), Serves s ∧ Issues s n 0x06 w ∧ w.toNat = x ∧ only x [mD, mA, mB, mT]
      = true ∧ fT x ≤ 1) ∧
    (∃ (s : State) (w : BitVec 64) (n : Nat) (x : Nat), Serves s ∧ Issues s n 0x07 w ∧ w.toNat = x ∧ only x [mD, mA, mB, mT]
      = true ∧ fT x ≤ 1) ∧
    (∃ (s : State) (w : BitVec 64) (n : Nat) (x : Nat), Serves s ∧ Issues s n 0x08 w ∧ w.toNat = x ∧ only x [mD, mA, mB, mT]
      = true ∧ fT x ≤ 1) ∧
    (∃ (s : State) (w : BitVec 64) (n : Nat) (x : Nat), Serves s ∧ Issues s n 0x09 w ∧ w.toNat = x ∧ only x [mD, mA, mB, mT]
      = true ∧ fT x ≤ 1) ∧
    (∃ (s : State) (w : BitVec 64) (n : Nat) (x : Nat), Serves s ∧ Issues s n 0x0A w ∧ w.toNat = x ∧ only x [mD, mA, mB, mT]
      = true ∧ fT x ≤ 1) ∧
    (∃ (s : State) (w : BitVec 64) (n : Nat) (x : Nat), Serves s ∧ Issues s n 0x0B w ∧ w.toNat = x ∧ only x [mD, mA, mB, mT]
      = true ∧ fT x ≤ 1) ∧
    (∃ (s : State) (w : BitVec 64) (n : Nat) (x : Nat), Serves s ∧ Issues s n 0x0C w ∧ w.toNat = x ∧ only x [mD, mA, mB, mT,
      mF] = true ∧ fT x ≤ 1 ∧ fF x ≤ 3) ∧
    (∃ (s : State) (w : BitVec 64) (n : Nat) (x : Nat), Serves s ∧ Issues s n 0x0D w ∧ w.toNat = x ∧ only x [mD, mA, mB, mC,
      mT] = true ∧ fT x ≤ 1) ∧
    (∃ (s : State) (w : BitVec 64) (n : Nat) (x : Nat), Serves s ∧ Issues s n 0x0E w ∧ w.toNat = x ∧ only x [mD, mA, mB, mT]
      = true ∧ fT x ≤ 1) ∧
    (∃ (s : State) (w : BitVec 64) (n : Nat) (x : Nat), Serves s ∧ Issues s n 0x0F w ∧ w.toNat = x ∧ only x [mD, mA, mB, mT]
      = true ∧ fT x ≤ 1) ∧
    (∃ (s : State) (w : BitVec 64) (n : Nat) (x : Nat), Serves s ∧ Issues s n 0x10 w ∧ w.toNat = x ∧ only x [mD, mA, mIT,
      mImm] = true ∧ iT x = 0) ∧
    (∃ (s : State) (w : BitVec 64) (n : Nat) (x : Nat), Serves s ∧ Issues s n 0x11 w ∧ w.toNat = x ∧ only x [mD, mA, mIT,
      mImm] = true ∧ iT x = 0) ∧
    (∃ (s : State) (w : BitVec 64) (n : Nat) (x : Nat), Serves s ∧ Issues s n 0x12 w ∧ w.toNat = x ∧ only x [mD, mA, mIT,
      mImm] = true ∧ iT x = 0) ∧
    (∃ (s : State) (w : BitVec 64) (n : Nat) (x : Nat), Serves s ∧ Issues s n 0x13 w ∧ w.toNat = x ∧ only x [mD, mA, mIT,
      mImm] = true ∧ iT x = 0) ∧
    (∃ (s : State) (w : BitVec 64) (n : Nat) (x : Nat), Serves s ∧ Issues s n 0x14 w ∧ w.toNat = x ∧ only x [mD, mA, mIT,
      mImm] = true ∧ iT x = 0 ∧ iImm x < 64) ∧
    (∃ (s : State) (w : BitVec 64) (n : Nat) (x : Nat), Serves s ∧ Issues s n 0x15 w ∧ w.toNat = x ∧ only x [mD, mA, mIT,
      mImm] = true ∧ iT x ≤ 1 ∧ iImm x < 64) ∧
    (∃ (s : State) (w : BitVec 64) (n : Nat) (x : Nat), Serves s ∧ Issues s n 0x16 w ∧ w.toNat = x ∧ only x [mD, mA, mIT,
      mImm] = true ∧ iT x = 0 ∧ fA x = 0) ∧
    (∃ (s : State) (w : BitVec 64) (n : Nat) (x : Nat), Serves s ∧ Issues s n 0x17 w ∧ w.toNat = x ∧ only x [mD, mA, mIT,
      mImm] = true ∧ iT x = 0 ∧ fA x = 0) :=
  ⟨⟨withS 0x82501 7 (2 ^ 64 - 3) 0, 0x82501, 0, 0x82501, by decide +kernel⟩,
   ⟨withS 0x82502 7 (2 ^ 64 - 3) 0, 0x82502, 0, 0x82502, by decide +kernel⟩,
   ⟨withS 0x82503 7 (2 ^ 64 - 3) 0, 0x82503, 0, 0x82503, by decide +kernel⟩,
   ⟨withS 0x2000082504 7 (2 ^ 64 - 3) 0, 0x2000082504, 0, 0x2000082504, by decide +kernel⟩,
   ⟨withS 0x82505 7 (2 ^ 64 - 3) 0, 0x82505, 0, 0x82505, by decide +kernel⟩,
   ⟨withS 0x82506 7 (2 ^ 64 - 3) 0, 0x82506, 0, 0x82506, by decide +kernel⟩,
   ⟨withS 0x82507 7 (2 ^ 64 - 3) 0, 0x82507, 0, 0x82507, by decide +kernel⟩,
   ⟨withS 0x82508 7 (2 ^ 64 - 3) 0, 0x82508, 0, 0x82508, by decide +kernel⟩,
   ⟨withS 0x2000082509 7 (2 ^ 64 - 3) 0, 0x2000082509, 0, 0x2000082509, by decide +kernel⟩,
   ⟨withS 0x200008250A 7 (2 ^ 64 - 3) 0, 0x200008250A, 0, 0x200008250A, by decide +kernel⟩,
   ⟨withS 0x200008250B 7 (2 ^ 64 - 3) 0, 0x200008250B, 0, 0x200008250B, by decide +kernel⟩,
   ⟨withS 0xC0200008250C 7 (2 ^ 64 - 3) 0, 0xC0200008250C, 0, 0xC0200008250C, by decide +kernel⟩,
   ⟨withS 0x188250D 7 (2 ^ 64 - 3) 0, 0x188250D, 0, 0x188250D, by decide +kernel⟩,
   ⟨withS 0x200008250E 7 (2 ^ 64 - 3) 0, 0x200008250E, 0, 0x200008250E, by decide +kernel⟩,
   ⟨withS 0x20000C250F 7 (2 ^ 64 - 3) 0, 0x20000C250F, 0, 0x20000C250F, by decide +kernel⟩,
   ⟨withS 0xFFFFFFFD00002510 7 (2 ^ 64 - 3) 0, 0xFFFFFFFD00002510, 0, 0xFFFFFFFD00002510, by decide +kernel⟩,
   ⟨withS 0xFFFFFFFD00002511 7 (2 ^ 64 - 3) 0, 0xFFFFFFFD00002511, 0, 0xFFFFFFFD00002511, by decide +kernel⟩,
   ⟨withS 0xFFFFFFFD00002512 7 (2 ^ 64 - 3) 0, 0xFFFFFFFD00002512, 0, 0xFFFFFFFD00002512, by decide +kernel⟩,
   ⟨withS 0xFFFFFFFD00002513 7 (2 ^ 64 - 3) 0, 0xFFFFFFFD00002513, 0, 0xFFFFFFFD00002513, by decide +kernel⟩,
   ⟨withS 0x3E00002514 7 (2 ^ 64 - 3) 0, 0x3E00002514, 0, 0x3E00002514, by decide +kernel⟩,
   ⟨withS 0x200042515 7 (2 ^ 64 - 3) 0, 0x200042515, 0, 0x200042515, by decide +kernel⟩,
   ⟨withS 0xFFFFFFFD00000516 7 (2 ^ 64 - 3) 0, 0xFFFFFFFD00000516, 0, 0xFFFFFFFD00000516, by decide +kernel⟩,
   ⟨withS 0xFFFFFFFD00000117 7 (2 ^ 64 - 3) 0, 0xFFFFFFFD00000117, 0, 0xFFFFFFFD00000117, by decide +kernel⟩⟩

theorem witness_ScalarFloats :
    (∃ (s : State) (w : BitVec 64) (n : Nat) (x : Nat), Serves s ∧ Issues s n 0x18 w ∧ w.toNat = x ∧ only x [mD, mA, mB, mT]
      = true ∧ sFloat x = true) ∧
    (∃ (s : State) (w : BitVec 64) (n : Nat) (x : Nat), Serves s ∧ Issues s n 0x19 w ∧ w.toNat = x ∧ only x [mD, mA, mB, mT]
      = true ∧ sFloat x = true) ∧
    (∃ (s : State) (w : BitVec 64) (n : Nat) (x : Nat), Serves s ∧ Issues s n 0x1A w ∧ w.toNat = x ∧ only x [mD, mA, mB, mT]
      = true ∧ sFloat x = true) ∧
    (∃ (s : State) (w : BitVec 64) (n : Nat) (x : Nat), Serves s ∧ Issues s n 0x1B w ∧ w.toNat = x ∧ only x [mD, mA, mB, mC,
      mT] = true ∧ sFloat x = true) ∧
    (∃ (s : State) (w : BitVec 64) (n : Nat) (x : Nat), Serves s ∧ Issues s n 0x1C w ∧ w.toNat = x ∧ only x [mD, mA, mB, mT]
      = true ∧ sFloat x = true) ∧
    (∃ (s : State) (w : BitVec 64) (n : Nat) (x : Nat), Serves s ∧ Issues s n 0x1D w ∧ w.toNat = x ∧ only x [mD, mA, mT] =
      true ∧ sFloat x = true) ∧
    (∃ (s : State) (w : BitVec 64) (n : Nat) (x : Nat), Serves s ∧ Issues s n 0x1E w ∧ w.toNat = x ∧ only x [mD, mA, mB, mT]
      = true ∧ sFloat x = true) ∧
    (∃ (s : State) (w : BitVec 64) (n : Nat) (x : Nat), Serves s ∧ Issues s n 0x1F w ∧ w.toNat = x ∧ only x [mD, mA, mB, mT]
      = true ∧ sFloat x = true) ∧
    (∃ (s : State) (w : BitVec 64) (n : Nat) (x : Nat), Serves s ∧ Issues s n 0x20 w ∧ w.toNat = x ∧ only x [mD, mA, mB, mT,
      mF] = true ∧ sFloat x = true ∧ fF x ≤ 3) ∧
    (∃ (s : State) (w : BitVec 64) (n : Nat) (x : Nat), Serves s ∧ Issues s n 0x21 w ∧ w.toNat = x ∧ only x [mD, mA, mT,
      mT2, mSat] = true ∧ fT x ≤ 13 ∧ fT2 x ≤ 13 ∧ (fSat x = true → 4 ≤ fT x ∧ fT x ≤ 7)) :=
  ⟨⟨withS 0x6000082518 0x3F800000 0x40400000 0x3F000000, 0x6000082518, 0, 0x6000082518, by decide +kernel⟩,
   ⟨withS 0x6000082519 0x3F800000 0x40400000 0x3F000000, 0x6000082519, 0, 0x6000082519, by decide +kernel⟩,
   ⟨withS 0x600008251A 0x3F800000 0x40400000 0x3F000000, 0x600008251A, 0, 0x600008251A, by decide +kernel⟩,
   ⟨withS 0x600188251B 0x3F800000 0x40400000 0x3F000000, 0x600188251B, 0, 0x600188251B, by decide +kernel⟩,
   ⟨withS 0x600008251C 0x3F800000 0x40400000 0x3F000000, 0x600008251C, 0, 0x600008251C, by decide +kernel⟩,
   ⟨withS 0x600000251D 0x3F800000 0x40400000 0x3F000000, 0x600000251D, 0, 0x600000251D, by decide +kernel⟩,
   ⟨withS 0x600008251E 0x3F800000 0x40400000 0x3F000000, 0x600008251E, 0, 0x600008251E, by decide +kernel⟩,
   ⟨withS 0x600008251F 0x3F800000 0x40400000 0x3F000000, 0x600008251F, 0, 0x600008251F, by decide +kernel⟩,
   ⟨withS 0x806000082520 0x3F800000 0x40400000 0x3F000000, 0x806000082520, 0, 0x806000082520, by decide +kernel⟩,
   ⟨withS 0x72000002521 0x3F800000 0x40400000 0x3F000000, 0x72000002521, 0, 0x72000002521, by decide +kernel⟩⟩

theorem witness_ScalarControl :
    (∃ (s : State) (w : BitVec 64) (n : Nat) (x : Nat) (v : Nat), Serves s ∧ Issues s n 0x22 w ∧ w.toNat = x ∧ only x [mD,
      mImm] = true ∧ s.special n (iImm x) = some v) ∧
    (∃ (s : State) (w : BitVec 64) (n : Nat) (x : Nat), Serves s ∧ Issues s n 0x23 w ∧ w.toNat = x ∧ only x [mA, mImm] =
      true ∧ iImm x = 0) ∧
    (∃ (s : State) (w : BitVec 64) (n : Nat) (x : Nat), Serves s ∧ Issues s n 0x28 w ∧ w.toNat = x ∧ only x [mA, mB, mBF,
      mImm] = true ∧ bF x ≤ 5 ∧ branchTaken (bF x) ((s.core n).sr (fA x)) ((s.core n).sr (fB x)) = true ∧ relative (s.core
      n).pc x % 8 = 0 ∧ relative (s.core n).pc x < 8 * (s.codeOf (s.core n)).length) ∧
    (∃ (s : State) (w : BitVec 64) (n : Nat) (x : Nat), Serves s ∧ Issues s n 0x28 w ∧ w.toNat = x ∧ only x [mA, mB, mBF,
      mImm] = true ∧ bF x ≤ 5 ∧ branchTaken (bF x) ((s.core n).sr (fA x)) ((s.core n).sr (fB x)) = false) ∧
    (∃ (s : State) (w : BitVec 64) (n : Nat) (x : Nat), Serves s ∧ Issues s n 0x29 w ∧ w.toNat = x ∧ only x [mD, mImm] =
      true ∧ relative (s.core n).pc x % 8 = 0 ∧ relative (s.core n).pc x < 8 * (s.codeOf (s.core n)).length) ∧
    (∃ (s : State) (w : BitVec 64) (n : Nat) (x : Nat), Serves s ∧ Issues s n 0x2A w ∧ w.toNat = x ∧ only x [mD, mA, mImm] =
      true ∧ fieldOfInt 32 (((s.core n).sr (fA x) : Int) + 8 * bOff x) % 8 = 0 ∧ fieldOfInt 32 (((s.core n).sr (fA x) : Int)
      + 8 * bOff x) < 8 * (s.codeOf (s.core n)).length) ∧
    (∃ (s : State) (w : BitVec 64) (n : Nat) (x : Nat) (q : Nat), Serves s ∧ Issues s n 0x38 w ∧ w.toNat = x ∧ only x [mD,
      mA, mB] = true ∧ (s.core n).sr (fA x) % 64 = 0 ∧ (s.core n).sr (fB x) &&& 0x17F = (s.core n).sr (fB x) ∧ (s.localAt n
      ((s.core n).sr (fA x)) 64).isSome = true ∧ s.arriving n = [] ∧ (s.core n).sr (fB x) = q ∧ q < 128 ∧ s.pushStatus
      (withTenant (s.peek n ((s.core n).sr (fA x)) 64) (dTenant ((s.core n).task.getD 0))) q = .ok) ∧
    (∃ (s : State) (w : BitVec 64) (n : Nat) (x : Nat), Serves s ∧ Issues s n 0x39 w ∧ w.toNat = x ∧ only x [] = true ∧
      s.liveOf (.core n) = []) ∧
    (∃ (s : State) (w : BitVec 64) (n : Nat) (x : Nat), Serves s ∧ Issues s n 0x3A w ∧ w.toNat = x ∧ only x [] = true) ∧
    (∃ (s : State) (w : BitVec 64) (n : Nat) (x : Nat), Serves s ∧ Issues s n 0x3B w ∧ w.toNat = x ∧ only x [] = true ∧
      bitAt (s.rd R.CMP_EVT_events []) 0 = false) ∧
    (∃ (s : State) (w : BitVec 64) (n : Nat) (x : Nat), Serves s ∧ Issues s n 0x30 w ∧ w.toNat = x ∧ only x [mD, mA, mT,
      mOff] = true ∧ fT x ≤ 13 ∧ effective (s.core n) x % tyBytes (fT x) = 0 ∧ (s.localAt n (effective (s.core n) x)
      (tyBytes (fT x))).isSome = true ∧ s.arriving n = []) ∧
    (∃ (s : State) (w : BitVec 64) (n : Nat) (x : Nat), Serves s ∧ Issues s n 0x31 w ∧ w.toNat = x ∧ only x [mD, mA, mT,
      mOff] = true ∧ fT x ≤ 13 ∧ effective (s.core n) x % tyBytes (fT x) = 0 ∧ (s.localAt n (effective (s.core n) x)
      (tyBytes (fT x))).isSome = true ∧ s.arriving n = []) :=
  ⟨⟨withS 0x100000522 7 (2 ^ 64 - 3) 0, 0x100000522, 0, 0x100000522, 0, by decide +kernel⟩,
   ⟨withS 0x2023 7 (2 ^ 64 - 3) 0, 0x2023, 0, 0x2023, by decide +kernel⟩,
   ⟨withS 0x100882028 7 (2 ^ 64 - 3) 0, 0x100882028, 0, 0x100882028, by decide +kernel⟩,
   ⟨withS 0x100082028 7 (2 ^ 64 - 3) 0, 0x100082028, 0, 0x100082028, by decide +kernel⟩,
   ⟨withS 0x100000529 7 (2 ^ 64 - 3) 0, 0x100000529, 0, 0x100000529, by decide +kernel⟩,
   ⟨withS 0xFFFFFFFF0000252A 16 0 0, 0xFFFFFFFF0000252A, 0, 0xFFFFFFFF0000252A, by decide +kernel⟩,
   ⟨{ withS 0x82538 64 1 0 with spm := Mem.writeAll [] 64 [0, 0, 0, 0, 1] }, 0x82538, 0, 0x82538, 1, by decide +kernel⟩,
   ⟨withS 0x39 7 (2 ^ 64 - 3) 0, 0x39, 0, 0x39, by decide +kernel⟩,
   ⟨withS 0x3A 7 (2 ^ 64 - 3) 0, 0x3A, 0, 0x3A, by decide +kernel⟩,
   ⟨withS 0x3B 7 (2 ^ 64 - 3) 0, 0x3B, 0, 0x3B, by decide +kernel⟩,
   ⟨{ withS 0xFFFFFFA000002530 65 1 0 with spm := [(64, 0x80)] }, 0xFFFFFFA000002530, 0, 0xFFFFFFA000002530,
      by decide +kernel⟩,
   ⟨withS 0xFFFFFF2000002231 65 0x1122334455 0, 0xFFFFFF2000002231, 0, 0xFFFFFF2000002231, by decide +kernel⟩⟩

theorem witness_VectorArithmetic :
    (∃ (s : State) (w : BitVec 64) (n : Nat) (x : Nat), Serves s ∧ Issues s n 0x40 w ∧ w.toNat = x ∧ only x [mD, mG, mZ, mR,
      mE, mT, mA, mB, mBs, mSat] = true ∧ (tyVFloat (fT x) = true ∨ tyVInt (fT x) = true) ∧ satArith x = true ∧ fA x + fR x
      ≤ 32 ∧ (fBs x = true ∨ fB x + fR x ≤ 32) ∧ fD x + fR x ≤ 32) ∧
    (∃ (s : State) (w : BitVec 64) (n : Nat) (x : Nat), Serves s ∧ Issues s n 0x41 w ∧ w.toNat = x ∧ only x [mD, mG, mZ, mR,
      mE, mT, mA, mB, mBs, mSat] = true ∧ (tyVFloat (fT x) = true ∨ tyVInt (fT x) = true) ∧ satArith x = true ∧ fA x + fR x
      ≤ 32 ∧ (fBs x = true ∨ fB x + fR x ≤ 32) ∧ fD x + fR x ≤ 32) ∧
    (∃ (s : State) (w : BitVec 64) (n : Nat) (x : Nat), Serves s ∧ Issues s n 0x42 w ∧ w.toNat = x ∧ only x [mD, mG, mZ, mR,
      mE, mT, mA, mB, mBs, mSat] = true ∧ (tyVFloat (fT x) = true ∨ tyVInt (fT x) = true) ∧ satArith x = true ∧ fA x + fR x
      ≤ 32 ∧ (fBs x = true ∨ fB x + fR x ≤ 32) ∧ fD x + fR x ≤ 32) ∧
    (∃ (s : State) (w : BitVec 64) (n : Nat) (x : Nat), Serves s ∧ Issues s n 0x43 w ∧ w.toNat = x ∧ only x [mD, mG, mZ, mR,
      mE, mT, mA, mB, mC, mBs, mSat] = true ∧ tyVFloat (fT x) = true ∧ satArith x = true ∧ fA x + fR x ≤ 32 ∧ (fBs x = true
      ∨ fB x + fR x ≤ 32) ∧ fC x + fR x ≤ 32 ∧ fD x + fR x ≤ 32) ∧
    (∃ (s : State) (w : BitVec 64) (n : Nat) (x : Nat), Serves s ∧ Issues s n 0x44 w ∧ w.toNat = x ∧ only x [mD, mG, mZ, mR,
      mE, mT, mA, mB, mC, mBs, mSat] = true ∧ tyVFloat (fT x) = true ∧ satArith x = true ∧ fA x + fR x ≤ 32 ∧ (fBs x = true
      ∨ fB x + fR x ≤ 32) ∧ fC x + fR x ≤ 32 ∧ fD x + fR x ≤ 32) ∧
    (∃ (s : State) (w : BitVec 64) (n : Nat) (x : Nat), Serves s ∧ Issues s n 0x45 w ∧ w.toNat = x ∧ only x [mD, mG, mZ, mR,
      mE, mT, mA, mB, mBs] = true ∧ (tyVFloat (fT x) = true ∨ tyVInt (fT x) = true) ∧ fA x + fR x ≤ 32 ∧ (fBs x = true ∨ fB
      x + fR x ≤ 32) ∧ fD x + fR x ≤ 32) ∧
    (∃ (s : State) (w : BitVec 64) (n : Nat) (x : Nat), Serves s ∧ Issues s n 0x46 w ∧ w.toNat = x ∧ only x [mD, mG, mZ, mR,
      mE, mT, mA, mB, mBs] = true ∧ (tyVFloat (fT x) = true ∨ tyVInt (fT x) = true) ∧ fA x + fR x ≤ 32 ∧ (fBs x = true ∨ fB
      x + fR x ≤ 32) ∧ fD x + fR x ≤ 32) ∧
    (∃ (s : State) (w : BitVec 64) (n : Nat) (x : Nat), Serves s ∧ Issues s n 0x47 w ∧ w.toNat = x ∧ only x [mD, mG, mZ, mR,
      mE, mT, mA, mSat] = true ∧ (tyVFloat (fT x) = true ∨ (tyVInt (fT x) = true ∧ tySigned (fT x) = true)) ∧ satArith x =
      true ∧ fA x + fR x ≤ 32 ∧ fD x + fR x ≤ 32) ∧
    (∃ (s : State) (w : BitVec 64) (n : Nat) (x : Nat), Serves s ∧ Issues s n 0x48 w ∧ w.toNat = x ∧ only x [mD, mG, mZ, mR,
      mE, mT, mA, mSat] = true ∧ (tyVFloat (fT x) = true ∨ (tyVInt (fT x) = true ∧ tySigned (fT x) = true)) ∧ satArith x =
      true ∧ fA x + fR x ≤ 32 ∧ fD x + fR x ≤ 32) ∧
    (∃ (s : State) (w : BitVec 64) (n : Nat) (x : Nat), Serves s ∧ Issues s n 0x49 w ∧ w.toNat = x ∧ only x [mD, mG, mZ, mR,
      mE, mT, mA, mB, mBs] = true ∧ fT x = 3 ∧ fA x + fR x ≤ 32 ∧ (fBs x = true ∨ fB x + fR x ≤ 32) ∧ fD x + fR x ≤ 32) ∧
    (∃ (s : State) (w : BitVec 64) (n : Nat) (x : Nat), Serves s ∧ Issues s n 0x4A w ∧ w.toNat = x ∧ only x [mD, mG, mZ, mR,
      mE, mT, mA] = true ∧ fT x = 3 ∧ fA x + fR x ≤ 32 ∧ fD x + fR x ≤ 32) ∧
    (∃ (s : State) (w : BitVec 64) (n : Nat) (x : Nat), Serves s ∧ Issues s n 0x4B w ∧ w.toNat = x ∧ only x [mD, mG, mZ, mR,
      mE, mT, mA, mB, mBs] = true ∧ tyVec (fT x) = true ∧ fA x + fR x ≤ 32 ∧ (fBs x = true ∨ fB x + fR x ≤ 32) ∧ fD x + fR x
      ≤ 32) ∧
    (∃ (s : State) (w : BitVec 64) (n : Nat) (x : Nat), Serves s ∧ Issues s n 0x4C w ∧ w.toNat = x ∧ only x [mD, mG, mZ, mR,
      mE, mT, mA, mB, mBs] = true ∧ tyVec (fT x) = true ∧ fA x + fR x ≤ 32 ∧ (fBs x = true ∨ fB x + fR x ≤ 32) ∧ fD x + fR x
      ≤ 32) ∧
    (∃ (s : State) (w : BitVec 64) (n : Nat) (x : Nat), Serves s ∧ Issues s n 0x4D w ∧ w.toNat = x ∧ only x [mD, mG, mZ, mR,
      mE, mT, mA, mB, mBs] = true ∧ tyVec (fT x) = true ∧ fA x + fR x ≤ 32 ∧ (fBs x = true ∨ fB x + fR x ≤ 32) ∧ fD x + fR x
      ≤ 32) ∧
    (∃ (s : State) (w : BitVec 64) (n : Nat) (x : Nat), Serves s ∧ Issues s n 0x4E w ∧ w.toNat = x ∧ only x [mD, mG, mZ, mR,
      mE, mT, mA, mB, mBs] = true ∧ tyVInt (fT x) = true ∧ fA x + fR x ≤ 32 ∧ (fBs x = true ∨ fB x + fR x ≤ 32) ∧ fD x + fR
      x ≤ 32) ∧
    (∃ (s : State) (w : BitVec 64) (n : Nat) (x : Nat), Serves s ∧ Issues s n 0x4F w ∧ w.toNat = x ∧ only x [mD, mG, mZ, mR,
      mE, mT, mA, mB, mBs] = true ∧ tyVInt (fT x) = true ∧ fA x + fR x ≤ 32 ∧ (fBs x = true ∨ fB x + fR x ≤ 32) ∧ fD x + fR
      x ≤ 32) ∧
    (∃ (s : State) (w : BitVec 64) (n : Nat) (x : Nat), Serves s ∧ Issues s n 0x54 w ∧ w.toNat = x ∧ only x [mD, mA, mB, mG,
      mR, mE, mT, mBs] = true ∧ tyVec (fT x) = true ∧ fA x + fR x ≤ 32 ∧ (fBs x = true ∨ fB x + fR x ≤ 32) ∧ fD x + fR x ≤
      32) ∧
    (∃ (s : State) (w : BitVec 64) (n : Nat) (x : Nat), Serves s ∧ Issues s n 0x55 w ∧ w.toNat = x ∧ only x [mD, mG, mZ, mR,
      mE, mT, mA, mB, mC, mBs] = true ∧ tyVec (fT x) = true ∧ fA x + fR x ≤ 32 ∧ (fBs x = true ∨ fB x + fR x ≤ 32) ∧ fC x +
      fR x ≤ 32 ∧ fD x + fR x ≤ 32) ∧
    (∃ (s : State) (w : BitVec 64) (n : Nat) (x : Nat), Serves s ∧ Issues s n 0x56 w ∧ w.toNat = x ∧ only x [mD, mG, mZ, mR,
      mE, mT, mA] = true ∧ tyVec (fT x) = true ∧ fD x + fR x ≤ 32) ∧
    (∃ (s : State) (w : BitVec 64) (n : Nat) (x : Nat), Serves s ∧ Issues s n 0x57 w ∧ w.toNat = x ∧ only x [mD, mG, mZ, mR,
      mE, mT, mA] = true ∧ tyVec (fT x) = true ∧ fA x + fR x ≤ 32 ∧ fD x + fR x ≤ 32) :=
  ⟨⟨running 0x8110082440 { s := (Map.empty.set [2] 0x4048), v := (Map.empty.set [1] 0x40803F80C0004000).set [2] 0x3F80404040004000, p := Map.empty.set [1] 6 },
      0x8110082440, 0, 0x8110082440, by decide +kernel⟩,
   ⟨running 0x8110082441 { s := (Map.empty.set [2] 0x4048), v := (Map.empty.set [1] 0x40803F80C0004000).set [2] 0x3F80404040004000, p := Map.empty.set [1] 6 },
      0x8110082441, 0, 0x8110082441, by decide +kernel⟩,
   ⟨running 0x8110082442 { s := (Map.empty.set [2] 0x4048), v := (Map.empty.set [1] 0x40803F80C0004000).set [2] 0x3F80404040004000, p := Map.empty.set [1] 6 },
      0x8110082442, 0, 0x8110082442, by decide +kernel⟩,
   ⟨running 0x8111882443 { s := (Map.empty.set [2] 0x4048), v := (Map.empty.set [1] 0x40803F80C0004000).set [2] 0x3F80404040004000, p := Map.empty.set [1] 6 },
      0x8111882443, 0, 0x8111882443, by decide +kernel⟩,
   ⟨running 0x8111882444 { s := (Map.empty.set [2] 0x4048), v := (Map.empty.set [1] 0x40803F80C0004000).set [2] 0x3F80404040004000, p := Map.empty.set [1] 6 },
      0x8111882444, 0, 0x8111882444, by decide +kernel⟩,
   ⟨running 0x8110082445 { s := (Map.empty.set [2] 0x4048), v := (Map.empty.set [1] 0x40803F80C0004000).set [2] 0x3F80404040004000, p := Map.empty.set [1] 6 },
      0x8110082445, 0, 0x8110082445, by decide +kernel⟩,
   ⟨running 0x8110082446 { s := (Map.empty.set [2] 0x4048), v := (Map.empty.set [1] 0x40803F80C0004000).set [2] 0x3F80404040004000, p := Map.empty.set [1] 6 },
      0x8110082446, 0, 0x8110082446, by decide +kernel⟩,
   ⟨running 0x8110002447 { s := (Map.empty.set [2] 0x4048), v := (Map.empty.set [1] 0x40803F80C0004000).set [2] 0x3F80404040004000, p := Map.empty.set [1] 6 },
      0x8110002447, 0, 0x8110002447, by decide +kernel⟩,
   ⟨running 0x8110002448 { s := (Map.empty.set [2] 0x4048), v := (Map.empty.set [1] 0x40803F80C0004000).set [2] 0x3F80404040004000, p := Map.empty.set [1] 6 },
      0x8110002448, 0, 0x8110002448, by decide +kernel⟩,
   ⟨running 0x6110082449 { s := (Map.empty.set [2] 0x4048), v := (Map.empty.set [1] 0x40803F80C0004000).set [2] 0x3F80404040004000, p := Map.empty.set [1] 6 },
      0x6110082449, 0, 0x6110082449, by decide +kernel⟩,
   ⟨running 0x611000244A { s := (Map.empty.set [2] 0x4048), v := (Map.empty.set [1] 0x40803F80C0004000).set [2] 0x3F80404040004000, p := Map.empty.set [1] 6 },
      0x611000244A, 0, 0x611000244A, by decide +kernel⟩,
   ⟨running 0x811008244B { s := (Map.empty.set [2] 0x4048), v := (Map.empty.set [1] 0x40803F80C0004000).set [2] 0x3F80404040004000, p := Map.empty.set [1] 6 },
      0x811008244B, 0, 0x811008244B, by decide +kernel⟩,
   ⟨running 0x811008244C { s := (Map.empty.set [2] 0x4048), v := (Map.empty.set [1] 0x40803F80C0004000).set [2] 0x3F80404040004000, p := Map.empty.set [1] 6 },
      0x811008244C, 0, 0x811008244C, by decide +kernel⟩,
   ⟨running 0x811008244D { s := (Map.empty.set [2] 0x4048), v := (Map.empty.set [1] 0x40803F80C0004000).set [2] 0x3F80404040004000, p := Map.empty.set [1] 6 },
      0x811008244D, 0, 0x811008244D, by decide +kernel⟩,
   ⟨running 0x1211008244E { s := (Map.empty.set [2] 0x4048), v := (Map.empty.set [1] 0x40803F80C0004000).set [2] 0x3F80404040004000, p := Map.empty.set [1] 6 },
      0x1211008244E, 0, 0x1211008244E, by decide +kernel⟩,
   ⟨running 0x1211008244F { s := (Map.empty.set [2] 0x4048), v := (Map.empty.set [1] 0x40803F80C0004000).set [2] 0x3F80404040004000, p := Map.empty.set [1] 6 },
      0x1211008244F, 0, 0x1211008244F, by decide +kernel⟩,
   ⟨running 0x8110082454 { s := (Map.empty.set [2] 0x4048), v := (Map.empty.set [1] 0x40803F80C0004000).set [2] 0x3F80404040004000, p := Map.empty.set [1] 6 },
      0x8110082454, 0, 0x8110082454, by decide +kernel⟩,
   ⟨running 0x8111882455 { s := (Map.empty.set [2] 0x4048), v := (Map.empty.set [1] 0x40803F80C0004000).set [2] 0x3F80404040004000, p := Map.empty.set [1] 6 },
      0x8111882455, 0, 0x8111882455, by decide +kernel⟩,
   ⟨running 0x8110002456 { s := (Map.empty.set [2] 0x4048), v := (Map.empty.set [1] 0x40803F80C0004000).set [2] 0x3F80404040004000, p := Map.empty.set [1] 6 },
      0x8110002456, 0, 0x8110002456, by decide +kernel⟩,
   ⟨running 0x8110002457 { s := (Map.empty.set [2] 0x4048), v := (Map.empty.set [1] 0x40803F80C0004000).set [2] 0x3F80404040004000, p := Map.empty.set [1] 6 },
      0x8110002457, 0, 0x8110002457, by decide +kernel⟩⟩

theorem witness_VectorConversion :
    (∃ (s : State) (w : BitVec 64) (n : Nat) (x : Nat), Serves s ∧ Issues s n 0x50 w ∧ w.toNat = x ∧ only x [mD, mG, mZ, mR,
      mE, mT, mA, mT2, mSat] = true ∧ tyVec (fT x) = true ∧ tyVec (fT2 x) = true ∧ cvtRegs x ≠ 0 ∧ fA x + cvtRegs x ≤ 32 ∧
      (fSat x = true → 4 ≤ fT x) ∧ fD x + fR x ≤ 32) ∧
    (∃ (s : State) (w : BitVec 64) (n : Nat) (x : Nat), Serves s ∧ Issues s n 0x51 w ∧ w.toNat = x ∧ only x [mD, mG, mZ, mR,
      mE, mT, mA, mT2] = true ∧ (fT x = 12 ∨ fT x = 13) ∧ fT2 x = 14 ∧ fR x % 2 = 0 ∧ fA x + fR x / 2 ≤ 32 ∧ fD x + fR x ≤
      32) ∧
    (∃ (s : State) (w : BitVec 64) (n : Nat) (x : Nat), Serves s ∧ Issues s n 0x52 w ∧ w.toNat = x ∧ only x [mD, mG, mZ, mR,
      mE, mT, mA, mT2, mSat] = true ∧ (fT2 x = 12 ∨ fT2 x = 13) ∧ fT x = 14 ∧ fA x + 2 * fR x ≤ 32 ∧ fSat x = false ∧ fD x +
      fR x ≤ 32) ∧
    (∃ (s : State) (w : BitVec 64) (n : Nat) (x : Nat), Serves s ∧ Issues s n 0x52 w ∧ w.toNat = x ∧ only x [mD, mG, mZ, mR,
      mE, mT, mA, mT2, mSat] = true ∧ (fT2 x = 12 ∨ fT2 x = 13) ∧ fT x = 14 ∧ fA x + 2 * fR x ≤ 32 ∧ fSat x = true ∧ fD x +
      fR x ≤ 32) ∧
    (∃ (s : State) (w : BitVec 64) (n : Nat) (x : Nat), Serves s ∧ Issues s n 0x53 w ∧ w.toNat = x ∧ only x [mD, mA, mB, mT,
      mF] = true ∧ tyVec (fT x) = true ∧ 1 ≤ fD x ∧ fD x ≤ 7 ∧ fF x ≤ 3) ∧
    (∃ (s : State) (w : BitVec 64) (n : Nat) (x : Nat), Serves s ∧ Issues s n 0x60 w ∧ w.toNat = x ∧ only x [mD, mA, mB] =
      true ∧ fA x ≤ 7 ∧ fB x ≤ 7 ∧ 1 ≤ fD x ∧ fD x ≤ 7) ∧
    (∃ (s : State) (w : BitVec 64) (n : Nat) (x : Nat), Serves s ∧ Issues s n 0x61 w ∧ w.toNat = x ∧ only x [mD, mA, mB] =
      true ∧ fA x ≤ 7 ∧ fB x ≤ 7 ∧ 1 ≤ fD x ∧ fD x ≤ 7) ∧
    (∃ (s : State) (w : BitVec 64) (n : Nat) (x : Nat), Serves s ∧ Issues s n 0x62 w ∧ w.toNat = x ∧ only x [mD, mA, mB] =
      true ∧ fA x ≤ 7 ∧ fB x ≤ 7 ∧ 1 ≤ fD x ∧ fD x ≤ 7) ∧
    (∃ (s : State) (w : BitVec 64) (n : Nat) (x : Nat), Serves s ∧ Issues s n 0x63 w ∧ w.toNat = x ∧ only x [mD, mA] = true
      ∧ fA x ≤ 7 ∧ 1 ≤ fD x ∧ fD x ≤ 7) ∧
    (∃ (s : State) (w : BitVec 64) (n : Nat) (x : Nat), Serves s ∧ Issues s n 0x64 w ∧ w.toNat = x ∧ only x [mD, mA] = true
      ∧ 1 ≤ fD x ∧ fD x ≤ 7) ∧
    (∃ (s : State) (w : BitVec 64) (n : Nat) (x : Nat), Serves s ∧ Issues s n 0x65 w ∧ w.toNat = x ∧ only x [mD, mA] = true
      ∧ fA x ≤ 7) ∧
    (∃ (s : State) (w : BitVec 64) (n : Nat) (x : Nat), Serves s ∧ Issues s n 0x58 w ∧ w.toNat = x ∧ only x [mD, mA, mG, mR,
      mE, mT] = true ∧ tyVFloat (fT x) = true ∧ fA x + fR x ≤ 32) ∧
    (∃ (s : State) (w : BitVec 64) (n : Nat) (x : Nat), Serves s ∧ Issues s n 0x58 w ∧ w.toNat = x ∧ only x [mD, mA, mG, mR,
      mE, mT] = true ∧ tyVInt (fT x) = true ∧ fA x + fR x ≤ 32) ∧
    (∃ (s : State) (w : BitVec 64) (n : Nat) (x : Nat) (i : Nat) (y : Nat), Serves s ∧ Issues s n 0x59 w ∧ w.toNat = x ∧
      only x [mD, mA, mG, mR, mE, mT] = true ∧ tyVec (fT x) = true ∧ fA x + fR x ≤ 32 ∧ maxOfRun (s.core n) x = some (i, y))
      ∧
    (∃ (s : State) (w : BitVec 64) (n : Nat) (x : Nat) (f : Fmt), Serves s ∧ Issues s n 0x59 w ∧ w.toNat = x ∧ only x [mD,
      mA, mG, mR, mE, mT] = true ∧ fA x + fR x ≤ 32 ∧ tyFmt (fT x) = some f ∧ maxOfRun (s.core n) x = none ∧ tyVec (fT x) =
      true) ∧
    (∃ (s : State) (w : BitVec 64) (n : Nat) (x : Nat), Serves s ∧ Issues s n 0x59 w ∧ w.toNat = x ∧ only x [mD, mA, mG, mR,
      mE, mT] = true ∧ tyVec (fT x) = true ∧ fA x + fR x ≤ 32 ∧ tyFmt (fT x) = none ∧ maxOfRun (s.core n) x = none) ∧
    (∃ (s : State) (w : BitVec 64) (n : Nat) (x : Nat), Serves s ∧ Issues s n 0x5A w ∧ w.toNat = x ∧ only x [mD, mA, mG, mR,
      mE, mT] = true ∧ tyVec (fT x) = true ∧ fA x + fR x ≤ 32) ∧
    (∃ (s : State) (w : BitVec 64) (n : Nat) (x : Nat), Serves s ∧ Issues s n 0x5B w ∧ w.toNat = x ∧ only x [mD, mA, mB, mE,
      mT] = true ∧ tyVec (fT x) = true) :=
  ⟨⟨running 0x86110002450 { s := (Map.empty.set [2] 0x4048), v := (Map.empty.set [1] 0x40803F80C0004000).set [2] 0x3F80404040004000, p := Map.empty.set [1] 6 },
      0x86110002450, 0, 0x86110002450, by decide +kernel⟩,
   ⟨running 0x1DA100002451 { s := (Map.empty.set [2] 0x4048), v := (Map.empty.set [1] 0x40803F80C0004000).set [2] 0x3F80404040004000, p := Map.empty.set [1] 6 },
      0x1DA100002451, 0, 0x1DA100002451, by decide +kernel⟩,
   ⟨running 0x1BC000002452 { s := (Map.empty.set [2] 0x4048), v := (Map.empty.set [1] 0x40803F80C0004000).set [2] 0x3F80404040004000, p := Map.empty.set [1] 6 },
      0x1BC000002452, 0, 0x1BC000002452, by decide +kernel⟩,
   ⟨running 0x3BC000002452 { s := (Map.empty.set [2] 0x4048), v := (Map.empty.set [1] 0x40803F80C0004000).set [2] 0x3F80404040004000, p := Map.empty.set [1] 6 },
      0x3BC000002452, 0, 0x3BC000002452, by decide +kernel⟩,
   ⟨running 0x808000082253 { s := (Map.empty.set [2] 0x4048), v := (Map.empty.set [1] 0x40803F80C0004000).set [2] 0x3F80404040004000, p := Map.empty.set [1] 6 },
      0x808000082253, 0, 0x808000082253, by decide +kernel⟩,
   ⟨running 0x82360 { s := Map.empty.set [1] 77, p := (Map.empty.set [1] 12).set [2] 10 }, 0x82360, 0, 0x82360,
      by decide +kernel⟩,
   ⟨running 0x82361 { s := Map.empty.set [1] 77, p := (Map.empty.set [1] 12).set [2] 10 }, 0x82361, 0, 0x82361,
      by decide +kernel⟩,
   ⟨running 0x82362 { s := Map.empty.set [1] 77, p := (Map.empty.set [1] 12).set [2] 10 }, 0x82362, 0, 0x82362,
      by decide +kernel⟩,
   ⟨running 0x2363 { s := Map.empty.set [1] 77, p := (Map.empty.set [1] 12).set [2] 10 }, 0x2363, 0, 0x2363,
      by decide +kernel⟩,
   ⟨running 0x2364 { s := Map.empty.set [1] 77, p := (Map.empty.set [1] 12).set [2] 10 }, 0x2364, 0, 0x2364,
      by decide +kernel⟩,
   ⟨withS 0x365 7 (2 ^ 64 - 3) 0, 0x365, 0, 0x365, by decide +kernel⟩,
   ⟨running 0x8110002558 { s := (Map.empty.set [2] 0x4048), v := (Map.empty.set [1] 0x40803F80C0004000).set [2] 0x3F80404040004000, p := Map.empty.set [1] 6 },
      0x8110002558, 0, 0x8110002558, by decide +kernel⟩,
   ⟨running 0x12110002558 { s := (Map.empty.set [2] 0x4048), v := (Map.empty.set [1] 0x40803F80C0004000).set [2] 0x3F80404040004000, p := Map.empty.set [1] 6 },
      0x12110002558, 0, 0x12110002558, by decide +kernel⟩,
   ⟨running 0x8110002559 { s := (Map.empty.set [2] 0x4048), v := (Map.empty.set [1] 0x40803F80C0004000).set [2] 0x3F80404040004000, p := Map.empty.set [1] 6 },
      0x8110002559, 0, 0x8110002559, 3, 0x4080, by decide +kernel⟩,
   ⟨running 0x8120002559 { s := (Map.empty.set [2] 0x4048), v := (Map.empty.set [1] 0x40803F80C0004000).set [2] 0x3F80404040004000, p := Map.empty.set [1] 6 },
      0x8120002559, 0, 0x8120002559, bf16, by decide +kernel⟩,
   ⟨running 0x12120002559 { s := (Map.empty.set [2] 0x4048), v := (Map.empty.set [1] 0x40803F80C0004000).set [2] 0x3F80404040004000, p := Map.empty.set [1] 6 },
      0x12120002559, 0, 0x12120002559, by decide +kernel⟩,
   ⟨running 0x811000255A { s := (Map.empty.set [2] 0x4048), v := (Map.empty.set [1] 0x40803F80C0004000).set [2] 0x3F80404040004000, p := Map.empty.set [1] 6 },
      0x811000255A, 0, 0x811000255A, by decide +kernel⟩,
   ⟨running 0x800008255B { s := (Map.empty.set [2] 0x4048), v := (Map.empty.set [1] 0x40803F80C0004000).set [2] 0x3F80404040004000, p := Map.empty.set [1] 6 },
      0x800008255B, 0, 0x800008255B, by decide +kernel⟩⟩

theorem witness_VectorMemory :
    (∃ (s : State) (w : BitVec 64) (n : Nat) (x : Nat), Serves s ∧ Issues s n 0x32 w ∧ w.toNat = x ∧ only x (vldFields) =
      true ∧ tyVec (fT x) = true ∧ fD x + fR x ≤ 32 ∧ effective (s.core n) x % 64 = 0 ∧ (s.localAt n (effective (s.core n)
      x) (256 * fR x)).isSome = true ∧ s.arriving n = []) ∧
    (∃ (s : State) (w : BitVec 64) (n : Nat) (x : Nat), Serves s ∧ Issues s n 0x34 w ∧ w.toNat = x ∧ only x (mB ::
      vldFields) = true ∧ tyVec (fT x) = true ∧ fD x + fR x ≤ 32 ∧ effective (s.core n) x % 64 = 0 ∧ (s.core n).sr (fB x) %
      64 = 0 ∧ (granules (s.core n) x).any (fun a => (s.localAt n a 64).isNone) = false ∧ s.arriving n = []) ∧
    (∃ (s : State) (w : BitVec 64) (n : Nat) (x : Nat), Serves s ∧ Issues s n 0x33 w ∧ w.toNat = x ∧ only x [mD, mA, mG, mR,
      mT, mOff] = true ∧ tyVec (fT x) = true ∧ fD x + fR x ≤ 32 ∧ effective (s.core n) x % 64 = 0 ∧ (s.localAt n (effective
      (s.core n) x) (256 * fR x)).isSome = true ∧ s.arriving n = []) ∧
    (∃ (s : State) (w : BitVec 64) (n : Nat) (x : Nat), Serves s ∧ Issues s n 0x35 w ∧ w.toNat = x ∧ only x [mD, mA, mB, mG,
      mR, mT, mOff] = true ∧ tyVec (fT x) = true ∧ fD x + fR x ≤ 32 ∧ effective (s.core n) x % 64 = 0 ∧ (s.core n).sr (fB x)
      % 64 = 0 ∧ (granules (s.core n) x).any (fun a => (s.localAt n a 64).isNone) = false ∧ s.arriving n = []) ∧
    (∃ (s : State) (w : BitVec 64) (n : Nat) (x : Nat), Serves s ∧ Issues s n 0x80 w ∧ w.toNat = x ∧ only x [mTile, mA, mB,
      mKq, mClr, mTa, mTb] = true ∧ (xTa x = 12 ∨ xTa x = 13) ∧ (xTb x = 12 ∨ xTb x = 13) ∧ (s.core n).sr (fA x) % 64 = 0 ∧
      (s.core n).sr (fB x) % 64 = 0 ∧ (s.localAt n ((s.core n).sr (fA x)) (32 * xK x * tyBytes (xTa x))).isSome = true ∧
      (s.localAt n ((s.core n).sr (fB x)) (32 * xK x * tyBytes (xTa x))).isSome = true ∧ s.arriving n = []) ∧
    (∃ (s : State) (w : BitVec 64) (n : Nat) (x : Nat), Serves s ∧ Issues s n 0x80 w ∧ w.toNat = x ∧ only x [mTile, mA, mB,
      mKq, mClr, mTa, mTb] = true ∧ pairOk (xTa x) (xTb x) = true ∧ (s.core n).sr (fA x) % 64 = 0 ∧ (s.core n).sr (fB x) %
      64 = 0 ∧ (s.localAt n ((s.core n).sr (fA x)) (32 * xK x * tyBytes (xTa x))).isSome = true ∧ (s.localAt n ((s.core
      n).sr (fB x)) (32 * xK x * tyBytes (xTa x))).isSome = true ∧ s.arriving n = []) ∧
    (∃ (s : State) (w : BitVec 64) (n : Nat) (x : Nat), Serves s ∧ Issues s n 0x81 w ∧ w.toNat = x ∧ only x [mTile] = true)
      ∧
    (∃ (s : State) (w : BitVec 64) (n : Nat) (x : Nat), Serves s ∧ Issues s n 0x82 w ∧ w.toNat = x ∧ only x [mTile, mA, mTa]
      = true ∧ (xTa x = 3 ∨ xTa x = 9) ∧ (s.localAt n ((s.core n).sr (fA x)) 4096).isSome = true ∧ s.arriving n = []) ∧
    (∃ (s : State) (w : BitVec 64) (n : Nat) (x : Nat), Serves s ∧ Issues s n 0x83 w ∧ w.toNat = x ∧ only x [mTile, mA, mTa]
      = true ∧ (xTa x = 3 ∨ xTa x = 9) ∧ (s.localAt n ((s.core n).sr (fA x)) 4096).isSome = true ∧ s.arriving n = []) ∧
    (∃ (s : State) (w : BitVec 64) (n : Nat) (x : Nat), Serves s ∧ Issues s n 0x83 w ∧ w.toNat = x ∧ only x [mTile, mA, mTa]
      = true ∧ (xTa x = 4 ∨ xTa x = 5) ∧ (s.localAt n ((s.core n).sr (fA x)) 2048).isSome = true ∧ s.arriving n = []) :=
  ⟨⟨{ running 0x8110002432 { s := (Map.empty.set [1] 128).set [2] 64, v := (Map.empty.set [4] 0x99).set [5] 0x77, p := Map.empty.set [1] 7 } with spm := Mem.writeAll [] 128 [1, 2, 3, 4, 5] },
      0x8110002432, 0, 0x8110002432, by decide +kernel⟩,
   ⟨{ running 0x8110082434 { s := (Map.empty.set [1] 128).set [2] 64, v := (Map.empty.set [4] 0x99).set [5] 0x77, p := Map.empty.set [1] 7 } with spm := Mem.writeAll [] 128 [1, 2, 3, 4, 5] },
      0x8110082434, 0, 0x8110082434, by decide +kernel⟩,
   ⟨{ running 0x8110002433 { s := (Map.empty.set [1] 128).set [2] 64, v := (Map.empty.set [4] 0x99).set [5] 0x77, p := Map.empty.set [1] 7 } with spm := Mem.writeAll [] 128 [1, 2, 3, 4, 5] },
      0x8110002433, 0, 0x8110002433, by decide +kernel⟩,
   ⟨{ running 0x8110082435 { s := (Map.empty.set [1] 128).set [2] 64, v := (Map.empty.set [4] 0x99).set [5] 0x77, p := Map.empty.set [1] 7 } with spm := Mem.writeAll [] 128 [1, 2, 3, 4, 5] },
      0x8110082435, 0, 0x8110082435, by decide +kernel⟩,
   ⟨{ running 0xDC10082280 { s := (Map.empty.set [1] 64).set [2] 2048 } with spm := Mem.writeAll (Mem.writeAll [] 64 [3, 2]) 2048 [255, 5] },
      0xDC10082280, 0, 0xDC10082280, by decide +kernel⟩,
   ⟨{ running 0x4400082280 { s := (Map.empty.set [1] 64).set [2] 2048 } with spm := Mem.writeAll (Mem.writeAll [] 64 [3, 2]) 2048 [255, 5] },
      0x4400082280, 0, 0x4400082280, by decide +kernel⟩,
   ⟨withS 0x381 7 (2 ^ 64 - 3) 0, 0x381, 0, 0x381, by decide +kernel⟩,
   ⟨{ running 0x900002382 { s := (Map.empty.set [1] 64).set [2] 2048 } with spm := Mem.writeAll (Mem.writeAll [] 64 [3, 2]) 2048 [255, 5] },
      0x900002382, 0, 0x900002382, by decide +kernel⟩,
   ⟨{ running 0x900002383 { s := Map.empty.set [1] 64, t := Map.empty.set [3] (2 ^ 32767 + 5) } with csram := [] },
      0x900002383, 0, 0x900002383, by decide +kernel⟩,
   ⟨{ running 0x400002383 { s := Map.empty.set [1] 64, t := Map.empty.set [3] 0x3F8000013F800000 } with csram := [] },
      0x400002383, 0, 0x400002383, by decide +kernel⟩⟩

theorem witness_FabricAccesses :
    (∃ (s : State) (w : BitVec 64) (n : Nat) (x : Nat), Serves s ∧ Issues s n 0xC0 w ∧ w.toNat = x ∧ only x [mA, mB, mC,
      mCn, mComb, mTc, mCnen] = true ∧ gTc x ≠ 7 ∧ (gComb x = true → (s.core n).sr (fC x) ≤ 4080) ∧ (s.core n).sr (fA x) < 2
      ^ 56 ∧ 0 < (s.core n).sr (fC x) ∧ (s.core n).sr (fC x) ≤ 65536 ∧ (s.localAt n ((s.core n).sr (fB x)) ((s.core n).sr
      (fC x))).isSome = true ∧ (MayRequest s n (s.coreRequest n x (if (s.core n).sr (fC x) ≤ 4080 then 0x10 else 0x11)
      ((s.core n).sr (fA x)) ((s.core n).sr (fC x)) 0 false 0 0))) ∧
    (∃ (s : State) (w : BitVec 64) (n : Nat) (x : Nat), Serves s ∧ Issues s n 0xC1 w ∧ w.toNat = x ∧ only x [mA, mB, mC,
      mCn, mTc, mCnen] = true ∧ gTc x ≠ 7 ∧ (s.core n).sr (fA x) < 2 ^ 56 ∧ 0 < (s.core n).sr (fC x) ∧ (s.core n).sr (fC x)
      ≤ 4080 ∧ (s.localAt n ((s.core n).sr (fB x)) ((s.core n).sr (fC x))).isSome = true ∧ s.arriving n = [] ∧ MayRequest s
      n (s.coreRequest n x 0x12 ((s.core n).sr (fA x)) ((s.core n).sr (fC x)) 0 false (s.peek n ((s.core n).sr (fB x))
      ((s.core n).sr (fC x))) ((s.core n).sr (fC x)))) ∧
    (∃ (s : State) (w : BitVec 64) (n : Nat) (x : Nat), Serves s ∧ Issues s n 0xC2 w ∧ w.toNat = x ∧ only x [mA, mB, mCn,
      mTc, mCnen] = true ∧ gTc x ≠ 7 ∧ (s.core n).sr (fA x) < 2 ^ 56 ∧ (s.core n).sr (fB x) % 64 = 0 ∧ (s.localAt n ((s.core
      n).sr (fB x)) 144).isSome = true ∧ s.arriving n = [] ∧ MayRequest s n (s.coreRequest n x 0x13 ((s.core n).sr (fA x))
      128 0 false (bitsOf (s.peek n ((s.core n).sr (fB x)) 144) 1024 128 + bitsOf (s.peek n ((s.core n).sr (fB x)) 144) 0
      1024 <<< 128) 144)) ∧
    (∃ (s : State) (w : BitVec 64) (n : Nat) (x : Nat), Serves s ∧ Issues s n 0xC3 w ∧ w.toNat = x ∧ only x [mD, mA, mB, mC,
      mCn, mGT, mAop, mFetch, mComb, mTc, mCnen] = true ∧ gTc x ≠ 7 ∧ atomWidth (gT x) ≠ 0 ∧ gAop x ≤ 0xA ∧ (tyFloat (gT x)
      = true → gAop x = 0xA) ∧ (gComb x = true → gAop x ≤ 7) ∧ gFetch x = true ∧ fD x ≠ 0 ∧ (gAop x = 9 ∨ fC x = 0) ∧
      (s.core n).sr (fA x) < 2 ^ 56 ∧ (MayRequest s n (s.coreRequest n x 0x14 ((s.core n).sr (fA x)) (atomWidth (gT x))
      (gAop x) true (if gAop x = 9 then bitsOf ((s.core n).sr (fB x)) 0 (8 * atomWidth (gT x)) + bitsOf ((s.core n).sr (fC
      x)) 0 (8 * atomWidth (gT x)) <<< (8 * atomWidth (gT x)) else bitsOf ((s.core n).sr (fB x)) 0 (8 * atomWidth (gT x)))
      (if gAop x = 9 then 2 * atomWidth (gT x) else atomWidth (gT x))))) ∧
    (∃ (s : State) (w : BitVec 64) (n : Nat) (x : Nat), Serves s ∧ Issues s n 0xC3 w ∧ w.toNat = x ∧ only x [mD, mA, mB, mC,
      mCn, mGT, mAop, mFetch, mComb, mTc, mCnen] = true ∧ gTc x ≠ 7 ∧ atomWidth (gT x) ≠ 0 ∧ gAop x ≤ 0xA ∧ (tyFloat (gT x)
      = true → gAop x = 0xA) ∧ (gComb x = true → gAop x ≤ 7) ∧ gFetch x = false ∧ fD x = 0 ∧ (gAop x = 9 ∨ fC x = 0) ∧
      (s.core n).sr (fA x) < 2 ^ 56 ∧ (MayRequest s n (s.coreRequest n x 0x14 ((s.core n).sr (fA x)) (atomWidth (gT x))
      (gAop x) false (if gAop x = 9 then bitsOf ((s.core n).sr (fB x)) 0 (8 * atomWidth (gT x)) + bitsOf ((s.core n).sr (fC
      x)) 0 (8 * atomWidth (gT x)) <<< (8 * atomWidth (gT x)) else bitsOf ((s.core n).sr (fB x)) 0 (8 * atomWidth (gT x)))
      (if gAop x = 9 then 2 * atomWidth (gT x) else atomWidth (gT x))))) ∧
    (∃ (s : State) (w : BitVec 64) (n : Nat) (x : Nat), Serves s ∧ Issues s n 0xC4 w ∧ w.toNat = x ∧ only x [mA, mB, mCn,
      mTc, mCnen] = true ∧ gTc x ≠ 7 ∧ (s.core n).sr (fA x) < 2 ^ 56 ∧ (s.core n).sr (fB x) % 16 = 0 ∧ (s.localAt n ((s.core
      n).sr (fB x)) 48).isSome = true ∧ s.arriving n = [] ∧ MayRequest s n (s.coreRequest n x 0x14 ((s.core n).sr (fA x)) 16
      9 true (s.peek n ((s.core n).sr (fB x)) 32) 32)) ∧
    (∃ (s : State) (w : BitVec 64) (n : Nat) (x : Nat) (m : Msg), Serves s ∧ Issues s n 0xE0 w ∧ w.toNat = x ∧ only x [mA,
      mB, mC, mCn, mGT, mTc, mCnen] = true ∧ gTc x ≠ 7 ∧ coType (gT x) = true ∧ 0 < (s.core n).sr (fC x) ∧ (s.localAt n
      ((s.core n).sr (fB x)) ((s.core n).sr (fC x))).isSome = true ∧ s.arriving n = [] ∧ s.coreContribution n ((s.core n).sr
      (fA x)) (gT x) ((s.core n).sr (fC x)) (gTc x) (s.peek n ((s.core n).sr (fB x)) ((s.core n).sr (fC x))) = some m ∧
      MayRequest s n (m)) ∧
    (∃ (s : State) (w : BitVec 64) (n : Nat) (x : Nat) (b : Nat) (r : Nat) (h : Handle) (kv : Bool), Serves s ∧ Issues s n
      0xE4 w ∧ w.toNat = x ∧ only x [mA, mH, mCn, mCnen] = true ∧ s.arriving n = [] ∧ max 32 (rqLen (s.peek n ((s.core n).sr
      (fA x)) 32)) = b ∧ (s.localAt n ((s.core n).sr (fA x)) 32).isSome = true ∧ (s.localAt n ((s.core n).sr (fA x))
      b).isSome = true ∧ (s.core n).handles.get? [gH x] = some h ∧ h.producer = 2 ∧ s.peek n ((s.core n).sr (fA x)) b = r ∧
      rqHome r = s.eid ∧ (s.tableOf (rqTable r)).map (fun t => tbKv t.2.desc) = some kv ∧ s.gatherRefusal (rqDie r) kv
      (dTenant ((s.core n).task.getD 0)) r b = none) ∧
    (∃ (s : State) (w : BitVec 64) (n : Nat) (x : Nat) (q : Qp), Serves s ∧ Issues s n 0xE8 w ∧ w.toNat = x ∧ only x [mD,
      mA, mB] = true ∧ (s.core n).sr (fA x) < 2 ^ 18 ∧ (s.core n).sr (fB x) % 64 = 0 ∧ (s.localAt n ((s.core n).sr (fB x))
      64).isSome = true ∧ s.arriving n = [] ∧ s.qpe.qps.get? [(s.core n).sr (fA x)] = some q ∧ s.qpostStatus n ((s.core
      n).sr (fA x)) (s.peek n ((s.core n).sr (fB x)) 64) = .ok) :=
  ⟨⟨withS 0x100000718820C0 64 128 4081, 0x100000718820C0, 0, 0x100000718820C0, by decide +kernel⟩,
   ⟨withS 0x100000718820C1 64 128 8, 0x100000718820C1, 0, 0x100000718820C1, by decide +kernel⟩,
   ⟨withS 0x820C2 128 128 8, 0x820C2, 0, 0x820C2, by decide +kernel⟩,
   ⟨withS 0x4000000825C3 128 77 8, 0x4000000825C3, 0, 0x4000000825C3, by decide +kernel⟩,
   ⟨withS 0x2400018820C3 128 77 8, 0x2400018820C3, 0, 0x2400018820C3, by decide +kernel⟩,
   ⟨withS 0x820C4 128 128 8, 0x820C4, 0, 0x820C4, by decide +kernel⟩,
   ⟨contributing 0x100018820E0, 0x100018820E0, 0, 0x100018820E0, ((contributing 0x100018820E0).coreContribution 0 0 4 1024 0
      0).getD {}, by decide +kernel⟩,
   ⟨gathering 0x8000020E4, 0x8000020E4, 0, 0x8000020E4, 40, lookupQ, hG, false, by decide +kernel⟩,
   ⟨posting 0x825E8, 0x825E8, 0, 0x825E8, qpG, by decide +kernel⟩⟩

theorem witness_CountersAndHandles :
    (∃ (s : State) (w : BitVec 64) (n : Nat) (x : Nat), Serves s ∧ Issues s n 0xD0 w ∧ w.toNat = x ∧ only x [mA, mCn] =
      true) ∧
    (∃ (s : State) (w : BitVec 64) (n : Nat) (x : Nat), Serves s ∧ Issues s n 0xD1 w ∧ w.toNat = x ∧ only x [mA, mB, mCn,
      mRem] = true ∧ gRem x = false ∧ fB x = 0) ∧
    (∃ (s : State) (w : BitVec 64) (n : Nat) (x : Nat), Serves s ∧ Issues s n 0xD1 w ∧ w.toNat = x ∧ only x [mA, mB, mCn,
      mRem] = true ∧ gRem x = true ∧ (s.core n).sr (fB x) < 128 ∧ (s.core n).sr (fB x) ≠ n ∧ s.clusterTenant ((s.core n).sr
      (fB x) / 8) = s.clusterTenant (n / 8)) ∧
    (∃ (s : State) (n : Nat) (cn : Nat) (v : Nat) (st : Nat) (l : Flying), Serves s ∧ takeOut (n, cn, v, Status.ofCode st)
      s.flying = some l ∧ (s.core n).wait = none) ∧
    (∃ (s : State) (w : BitVec 64) (n : Nat) (x : Nat), Serves s ∧ Issues s n 0xD2 w ∧ w.toNat = x ∧ only x [mD, mA, mB,
      mCn] = true ∧ notReached ((s.core n).sr (fA x) % 2 ^ 32) ((s.core n).counter (gCn x)).1 = false) ∧
    (∃ (s : State) (w : BitVec 64) (n : Nat) (x : Nat), Serves s ∧ Issues s n 0xD2 w ∧ w.toNat = x ∧ only x [mD, mA, mB,
      mCn] = true ∧ notReached ((s.core n).sr (fA x) % 2 ^ 32) ((s.core n).counter (gCn x)).1 = true) ∧
    (∃ (s : State) (n : Nat) (cn : Nat) (tg : Nat) (d : Nat) (b : Nat), Serves s ∧ (s.core n).wait = some (.counter cn tg d
      (some b)) ∧ b ≤ s.ftDie (dieOfCore n) ∧ nextPc s n < 8 * (s.codeOf (s.core n)).length) ∧
    (∃ (s : State) (w : BitVec 64) (n : Nat) (x : Nat), Serves s ∧ Issues s n 0xD3 w ∧ w.toNat = x ∧ only x [mD, mCn] =
      true) ∧
    (∃ (s : State) (w : BitVec 64) (n : Nat) (x : Nat) (r : Nat), Serves s ∧ Issues s n 0xD8 w ∧ w.toNat = x ∧ only x [mA,
      mH] = true ∧ (s.core n).sr (fA x) % 16 = 0 ∧ (s.localAt n ((s.core n).sr (fA x)) 16).isSome = true ∧ s.arriving n = []
      ∧ s.peek n ((s.core n).sr (fA x)) 16 = r ∧ (s.core n).handles.has [gH x] = false ∧ fieldOf r 4 0 4 ≤ 12 ∧ fieldOf r 4
      6 5 ≤ 16 ∧ fieldOf r 4 11 21 = 0 ∧ fieldOf r 8 0 64 = 0 ∧ fieldOf r 0 0 32 % 256 = 0 ∧ (s.localAt n (fieldOf r 0 0 32)
      (2 ^ fieldOf r 4 6 5 * (256 * 2 ^ fieldOf r 4 0 4))).isSome = true) ∧
    (∃ (s : State) (w : BitVec 64) (n : Nat) (x : Nat), Serves s ∧ Issues s n 0xD9 w ∧ w.toNat = x ∧ only x [mH] = true ∧
      (s.core n).handles.has [gH x] = true ∧ s.cdc.work = [] ∧ s.gth.sets.get [] [n, gH x] = [] ∧ (s.core n).acqs = []) ∧
    (∃ (s : State) (w : BitVec 64) (n : Nat) (x : Nat) (h : Handle), Serves s ∧ Issues s n 0xDA w ∧ w.toNat = x ∧ only x
      [mA, mH, mD] = true ∧ (s.core n).handles.get? [gH x] = some h ∧ 0 < (s.core n).sr (fA x) ∧ (s.core n).sr (fA x) ≤
      h.slots ∧ (s.core n).acqs = [] ∧ (s.core n).sr (fA x) ≤ h.full) ∧
    (∃ (s : State) (w : BitVec 64) (n : Nat) (x : Nat) (h : Handle), Serves s ∧ Issues s n 0xDA w ∧ w.toNat = x ∧ only x
      [mA, mH, mD] = true ∧ (s.core n).handles.get? [gH x] = some h ∧ 0 < (s.core n).sr (fA x) ∧ (s.core n).sr (fA x) ≤
      h.slots ∧ (s.core n).acqs = [] ∧ h.full < (s.core n).sr (fA x) ∧ fD x ≠ 0) ∧
    (∃ (s : State) (w : BitVec 64) (n : Nat) (x : Nat) (h : Handle), Serves s ∧ Issues s n 0xDB w ∧ w.toNat = x ∧ only x
      [mA, mH] = true ∧ (s.core n).handles.get? [gH x] = some h ∧ 0 < (s.core n).sr (fA x) ∧ (s.core n).sr (fA x) ≤ h.slots
      ∧ (s.core n).acqs = [] ∧ (s.core n).sr (fA x) ≤ h.full) ∧
    (∃ (s : State) (w : BitVec 64) (n : Nat) (x : Nat) (h : Handle), Serves s ∧ Issues s n 0xDC w ∧ w.toNat = x ∧ only x
      [mA, mH, mD] = true ∧ (s.core n).handles.get? [gH x] = some h ∧ 0 < (s.core n).sr (fA x) ∧ (s.core n).sr (fA x) ≤
      h.slots ∧ (s.core n).acqs = [] ∧ h.producer = 0 ∧ (s.core n).sr (fA x) ≤ h.slots - h.full) ∧
    (∃ (s : State) (w : BitVec 64) (n : Nat) (x : Nat) (h : Handle), Serves s ∧ Issues s n 0xDC w ∧ w.toNat = x ∧ only x
      [mA, mH, mD] = true ∧ (s.core n).handles.get? [gH x] = some h ∧ 0 < (s.core n).sr (fA x) ∧ (s.core n).sr (fA x) ≤
      h.slots ∧ (s.core n).acqs = [] ∧ h.producer = 0 ∧ h.slots - h.full < (s.core n).sr (fA x) ∧ fD x ≠ 0) ∧
    (∃ (s : State) (w : BitVec 64) (n : Nat) (x : Nat) (h : Handle), Serves s ∧ Issues s n 0xDD w ∧ w.toNat = x ∧ only x
      [mA, mH] = true ∧ h.producer = 0 ∧ (s.core n).handles.get? [gH x] = some h ∧ 0 < (s.core n).sr (fA x) ∧ (s.core n).sr
      (fA x) ≤ h.slots ∧ (s.core n).acqs = [] ∧ (s.core n).sr (fA x) ≤ h.slots - h.full) ∧
    (∃ (s : State) (w : BitVec 64) (n : Nat) (x : Nat), Serves s ∧ Issues s n 0xF0 w ∧ w.toNat = x ∧ only x [mD, mA] = true
      ∧ ahead ((s.core n).sr (fA x) % 2 ^ 32) (s.beatDie (dieOfCore n)) = true) ∧
    (∃ (s : State) (w : BitVec 64) (n : Nat) (x : Nat), Serves s ∧ Issues s n 0xF0 w ∧ w.toNat = x ∧ only x [mD, mA] = true
      ∧ ahead ((s.core n).sr (fA x) % 2 ^ 32) (s.beatDie (dieOfCore n)) = false) ∧
    (∃ (s : State) (n : Nat) (tg : Nat) (d : Nat), Serves s ∧ (s.core n).wait = some (.beat tg d) ∧ ahead tg (s.beatDie
      (dieOfCore n)) = false ∧ nextPc s n < 8 * (s.codeOf (s.core n)).length) ∧
    (∃ (s : State) (w : BitVec 64) (n : Nat) (x : Nat), Serves s ∧ Issues s n 0xF1 w ∧ w.toNat = x ∧ only x [mD, mA, mB, mC,
      mCn, mCnen] = true ∧ (s.core n).sr (fC x) &&& 0x17F = (s.core n).sr (fC x) ∧ (s.core n).sr (fB x) % 64 = 0 ∧
      (s.localAt n ((s.core n).sr (fB x)) 64).isSome = true ∧ (s.core n).launches.length < 8 ∧ s.arriving n = [] ∧ ahead
      ((s.core n).sr (fA x) % 2 ^ 32) (s.beatDie (dieOfCore n)) = true) ∧
    (∃ (s : State) (n : Nat) (k : Nat) (l : Launch), Serves s ∧ (s.core n).launches[k]? = some l ∧ ahead l.beat (s.beatDie
      (dieOfCore n)) = false ∧ s.cst (n / 8) ≠ Cs.offlining ∧ bitAt l.target 8 = false ∧ l.ctr = none ∧ s.pushStatus l.desc
      (l.target % 128) = .ok ∧ l.target % 128 ≠ n) ∧
    (∃ (s : State) (w : BitVec 64) (n : Nat) (x : Nat), Serves s ∧ Issues s n 0xF8 w ∧ w.toNat = x ∧ only x [mD] = true ∧
      s.liveOf (.core n) = []) ∧
    (∃ (s : State) (w : BitVec 64) (n : Nat) (x : Nat), Serves s ∧ Issues s n 0xF8 w ∧ w.toNat = x ∧ only x [mD] = true ∧
      s.liveOf (.core n) ≠ []) ∧
    (∃ (s : State) (w : BitVec 64) (n : Nat) (x : Nat), Serves s ∧ Issues s n 0xFF w ∧ w.toNat = x ∧ only x [] = true ∧
      bitAt (s.rd R.DBG_FREEZE_CFG_instr_en []) (dTenant ((s.core n).task.getD 0)) = true) :=
  ⟨⟨withS 0x900020D0 7 (2 ^ 64 - 3) 0, 0x900020D0, 0, 0x900020D0, by decide +kernel⟩,
   ⟨withS 0x900020D1 7 (2 ^ 64 - 3) 0, 0x900020D1, 0, 0x900020D1, by decide +kernel⟩,
   ⟨withS 0x80000900820D1 3 9 0, 0x80000900820D1, 0, 0x80000900820D1, by decide +kernel⟩,
   ⟨{ allReady with flying := [(1, 2, 3, .ok), (4, 5, 6, .timeout)] }, 4, 5, 6, Status.timeout.code, [(1, 2, 3, .ok)],
      by decide +kernel⟩,
   ⟨withS 0x900825D2 0 0 0, 0x900825D2, 0, 0x900825D2, by decide +kernel⟩,
   ⟨withS 0x900825D2 5 100 0, 0x900825D2, 0, 0x900825D2, by decide +kernel⟩,
   ⟨running 0x3A { wait := some (.counter 3 4 5 (some 0)) }, 0, 3, 4, 5, 0, by decide +kernel⟩,
   ⟨withS 0x900005D3 7 (2 ^ 64 - 3) 0, 0x900005D3, 0, 0x900005D3, by decide +kernel⟩,
   ⟨{ withS 0xC000020D8 64 0 0 with spm := Mem.writeAll [] 64 [0, 1, 0, 0, 0x91] }, 0xC000020D8, 0, 0xC000020D8,
      0x9100000100, by decide +kernel⟩,
   ⟨{ running 0xC000000D9 { s := Map.empty.set [1] 0, handles := Map.empty.set [3] { base := 256, slotLog2 := 1, producer := 0, slotsLog2 := 2, p := 3, c := 1 } } with csram := [] },
      0xC000000D9, 0, 0xC000000D9, by decide +kernel⟩,
   ⟨{ running 0xC000025DA { s := Map.empty.set [1] 2, handles := Map.empty.set [3] { base := 256, slotLog2 := 1, producer := 0, slotsLog2 := 2, p := 3, c := 1 } } with csram := [] },
      0xC000025DA, 0, 0xC000025DA, { base := 256, slotLog2 := 1, producer := 0, slotsLog2 := 2, p := 3, c := 1 },
      by decide +kernel⟩,
   ⟨{ running 0xC000025DA { s := Map.empty.set [1] 3, handles := Map.empty.set [3] { base := 256, slotLog2 := 1, producer := 0, slotsLog2 := 2, p := 3, c := 1 } } with csram := [] },
      0xC000025DA, 0, 0xC000025DA, { base := 256, slotLog2 := 1, producer := 0, slotsLog2 := 2, p := 3, c := 1 },
      by decide +kernel⟩,
   ⟨{ running 0xC000020DB { s := Map.empty.set [1] 2, handles := Map.empty.set [3] { base := 256, slotLog2 := 1, producer := 0, slotsLog2 := 2, p := 3, c := 1 } } with csram := [] },
      0xC000020DB, 0, 0xC000020DB, { base := 256, slotLog2 := 1, producer := 0, slotsLog2 := 2, p := 3, c := 1 },
      by decide +kernel⟩,
   ⟨{ running 0xC000025DC { s := Map.empty.set [1] 2, handles := Map.empty.set [3] { base := 256, slotLog2 := 1, producer := 0, slotsLog2 := 2, p := 3, c := 1 } } with csram := [] },
      0xC000025DC, 0, 0xC000025DC, { base := 256, slotLog2 := 1, producer := 0, slotsLog2 := 2, p := 3, c := 1 },
      by decide +kernel⟩,
   ⟨{ running 0xC000025DC { s := Map.empty.set [1] 3, handles := Map.empty.set [3] { base := 256, slotLog2 := 1, producer := 0, slotsLog2 := 2, p := 3, c := 1 } } with csram := [] },
      0xC000025DC, 0, 0xC000025DC, { base := 256, slotLog2 := 1, producer := 0, slotsLog2 := 2, p := 3, c := 1 },
      by decide +kernel⟩,
   ⟨{ running 0xC000020DD { s := Map.empty.set [1] 2, handles := Map.empty.set [3] { base := 256, slotLog2 := 1, producer := 0, slotsLog2 := 2, p := 3, c := 1 } } with csram := [] },
      0xC000020DD, 0, 0xC000020DD, { base := 256, slotLog2 := 1, producer := 0, slotsLog2 := 2, p := 3, c := 1 },
      by decide +kernel⟩,
   ⟨withS 0x25F0 5 0 0, 0x25F0, 0, 0x25F0, by decide +kernel⟩,
   ⟨withS 0x25F0 0 0 0, 0x25F0, 0, 0x25F0, by decide +kernel⟩,
   ⟨running 0x3A { wait := some (.beat 0 5) }, 0, 0, 5, by decide +kernel⟩,
   ⟨withS 0x100000418825F1 5 64 3, 0x100000418825F1, 0, 0x100000418825F1, by decide +kernel⟩,
   ⟨running 0x3A { launches := [{ beat := 0, desc := 1 <<< 32, target := 3, ctr := none }] }, 0, 0,
      { beat := 0, desc := 1 <<< 32, target := 3, ctr := none }, by decide +kernel⟩,
   ⟨withS 0x5F8 7 (2 ^ 64 - 3) 0, 0x5F8, 0, 0x5F8, by decide +kernel⟩,
   ⟨{ withS 0x5F8 5 64 3 with trk := (issuedOne (.store 0 none) { ty := 0x12, len := 24 }).trk }, 0x5F8, 0, 0x5F8,
      by decide +kernel⟩,
   ⟨(withS 0xFF 5 64 3).wr R.DBG_FREEZE_CFG_instr_en [] 1, 0xFF, 0, 0xFF, by decide +kernel⟩⟩

theorem witness_TasksAndStealing :
    (∃ (s : State) (v : Nat) (c : Nat) (q : Nat) (desc : Nat), Serves s ∧ bitsOf v 0 4 = c ∧ bitsOf v 4 3 = q ∧ bitAt v 7 =
      false ∧ s.stagedTask 0 = desc ∧ s.pushStatus desc (8 * c + q) = .ok) ∧
    (∃ (s : State) (c : Nat) (q : Nat) (desc : Nat) (rest : List Stalled), Serves s ∧ (s.cluster c).stalled =
      { desc := desc, core := some q } :: rest ∧ s.pushStatus desc q = .ok) ∧
    (∃ (s : State) (n : Nat) (desc : Nat) (rest : List Nat), Serves s ∧ (s.core n).task = none ∧ (s.core n).deque = desc ::
      rest ∧ s.coresRun (n / 8) = true ∧ dEntry desc % 8 = 0 ∧ dEntry desc < 8 * (((s.images.get? [dTenant desc, dImage
      desc]).map (·.code)).getD []).length) ∧
    (∃ (s : State), Serves s) ∧
    (∃ (s : State) (n : Nat) (st : Nat) (v : Nat) (i : Nat), Serves s ∧ s.idleCore n = true ∧ (s.stages n).findSome? (fun st
      => (s.victim n st).map (fun v => (st, v))) = some (st, v) ∧ ((List.range (s.core v).deque.length).reverse.take
      16).find? (fun i => decide (st ≤ dScope ((s.core v).deque.getD i 0))) = some i ∧ v ≠ n) ∧
    (∃ (s : State) (n : Nat), Serves s ∧ s.idleCore n = true ∧ (s.core n).stage = 1 ∧ 8 * s.rd R.CMP_STEAL_CFG_die_delay []
      ≤ s.now - (s.core n).idleSince) :=
  ⟨⟨(cluIn 0).wr R.CMP_TASK_STAGE_word [0, 0] 0x100000000, 0x32, 2, 3, 0x100000000, by decide +kernel⟩,
   ⟨{ cluIn 0 with clusters := Map.empty.set [2] { stalled := [{ desc := 0x100000000, core := some 19 }] } }, 2, 19,
      0x100000000, [], by decide +kernel⟩,
   ⟨{ cluIn 0 with cores := Map.empty.set [16] { deque := [0x700000000000000000100000000] } }, 16,
      0x700000000000000000100000000, [], by decide +kernel⟩,
   ⟨{ cluIn 0 with cores := Map.empty.set [16] { deque := [0x20100000000, 0x10100000000] } }, by decide +kernel⟩,
   ⟨{ (cluIn 0).wr R.CMP_CORE_STATUS_hint_cluster [17] 2 with cores := Map.empty.set [17] { deque := [0x20100000000, 0x10100000000] } },
      16, 1, 17, 1, by decide +kernel⟩,
   ⟨cluIn 0, 16, by decide +kernel⟩⟩

theorem witness_ClusterStates :
    (∃ (s : State) (c : Nat) (v : Nat) (g : Nat) (a : Nat) (q : Nat), Serves s ∧ s.isReady B.cmp = true ∧ bitsOf v 0 7 = g ∧
      bitsOf v 8 7 = a ∧ bitsOf v 16 7 = q ∧ g + a + q ≤ 64 ∧ s.accumUsed c = 0 ∧ s.overflow c = 0 ∧ s.ringBeyond c (262144
      * g) = false ∧ s.coh.lines = Map.empty) ∧
    (∃ (s : State) (c : Nat), Serves s ∧ s.isReady B.cmp = true ∧ s.cst c = Cs.ready ∧ s.coh.lines = Map.empty ∧ s.clt.colls
      = Map.empty ∧ (coresOf c).all (fun n => decide ((s.core n).deque = [])) = true) ∧
    (∃ (s : State) (c : Nat), Serves s ∧ s.cst c = Cs.offlining ∧ s.clusterEmpty c = true ∧ s.listed R.COH_MEMBER_valid =
      []) ∧
    (∃ (s : State) (c : Nat), Serves s ∧ s.cst c = Cs.scrubbing) ∧
    (∃ (s : State) (c : Nat), Serves s ∧ s.cst c = Cs.offlining ∧ (s.cluster c).stuck = false ∧ (s.cluster c).since + 1000 *
      s.rd R.CMP_OFFLINE_CFG_timeout [] ≤ s.now) ∧
    (∃ (s : State) (c : Nat), Serves s ∧ s.isReady B.cmp = true ∧ s.cst c = Cs.offlining ∧ (s.cluster c).stuck = true ∧
      (coresOf c).all (fun n => decide ((s.core n).handles = Map.empty)) = true) ∧
    (∃ (s : State) (c : Nat), Serves s ∧ s.isReady B.cmp = true ∧ s.cst c = Cs.offline) ∧
    (∃ (s : State) (c : Nat), Serves s ∧ s.cst c = Cs.onlining) ∧
    (∃ (s : State) (c : Nat), Serves s ∧ s.isReady B.cmp = true ∧ s.cst c ≠ Cs.offline ∧ s.cst c ≠ Cs.failed ∧ s.listed
      R.COH_MEMBER_valid = [] ∧ Resolved s ∧ s.gth.reqs = Map.empty ∧ s.clt.colls = Map.empty) :=
  ⟨⟨{ cluIn 0 with csram := [(33554432 + 300000, 7)] }, 2, 0x80101, 1, 1, 8, by decide +kernel⟩,
   ⟨cluIn 0, 2, by decide +kernel⟩,
   ⟨cluIn 1, 2, by decide +kernel⟩,
   ⟨{ cluIn 2 with cores := Map.empty.set [16] { flags := 3 }, spm := [(16 * 2097152 + 4, 9)] }, 2, by decide +kernel⟩,
   ⟨{ cluIn 1 with now := 100000000000 }, 2, by decide +kernel⟩,
   ⟨{ cluIn 1 with clusters := Map.empty.set [2] { stuck := true }, cores := Map.empty.set [16] { task := some 7 } }, 2,
      by decide +kernel⟩,
   ⟨cluIn 3, 2, by decide +kernel⟩,
   ⟨cluIn 4, 2, by decide +kernel⟩,
   ⟨{ cluIn 0 with cores := Map.empty.set [16] { flags := 3 } }, 2, by decide +kernel⟩⟩

theorem witness_QueueEngines :
    (∃ (s : State) (fn : Nat) (v : Nat) (n : Nat) (i : Nat) (q : Qp), Serves s ∧ s.isReady B.qpe = true ∧ bitsOf v 18 2 = 0
      ∧ bitsOf v 0 18 = n ∧ bitsOf v 32 32 = i ∧ s.qpe.qps.get? [n] = some q ∧ q.tenant = fn ∧ q.state = Qs.init ∧ bell i
      q.sqProd q.sqCons (2 ^ q.sqLog2) = some true) ∧
    (∃ (s : State) (fn : Nat) (v : Nat) (n : Nat) (i : Nat) (q : Qp), Serves s ∧ s.isReady B.qpe = true ∧ bitsOf v 18 2 = 1
      ∧ bitsOf v 0 18 = n ∧ bitsOf v 32 32 = i ∧ s.qpe.qps.get? [n] = some q ∧ q.tenant = fn ∧ (q.state = Qs.init ∨ q.state
      = Qs.active) ∧ bell i q.rqProd q.rqCons (2 ^ q.rqLog2) = some true) ∧
    (∃ (s : State) (fn : Nat) (v : Nat) (n : Nat) (c : Cq), Serves s ∧ s.isReady B.qpe = true ∧ bitsOf v 18 2 = 3 ∧ bitsOf v
      0 17 = n ∧ s.qpe.cqs.get? [n] = some c ∧ c.tenant = fn) ∧
    (∃ (s : State) (fn : Nat) (v : Nat) (n : Nat) (i : Nat) (c : Cq), Serves s ∧ s.isReady B.qpe = true ∧ bitsOf v 18 2 = 2
      ∧ bitsOf v 0 17 = n ∧ bitsOf v 32 32 = i ∧ s.qpe.cqs.get? [n] = some c ∧ c.tenant = fn ∧ c.backlog = [] ∧ bell i
      c.cons c.cons (2 ^ c.log2) = some true) ∧
    (∃ (s : State) (m : Msg) (n : Nat) (i : Nat) (q : Qp), Serves s ∧ m.ty = 0x70 ∧ bitsOf (m.f 0 0 64) 18 2 = 1 ∧ bitsOf
      (m.f 0 0 64) 0 18 = n ∧ bitsOf (m.f 0 0 64) 32 32 = i ∧ s.qpe.qps.get? [n] = some q ∧ q.tenant = m.tenant ∧ (q.state =
      Qs.init ∨ q.state = Qs.active) ∧ bell i q.rqProd q.rqCons (2 ^ q.rqLog2) = some true) ∧
    (∃ (s : State) (n : Nat) (wr : Nat) (q : Qp), Serves s ∧ s.qpe.qps.get? [n] = some q ∧ q.state = Qs.active ∧ q.fetched =
      some wr ∧ s.cqFull q.scq = false ∧ s.cqFull q.rcq = false ∧ wOk false wr = true ∧ 6 ≤ wOp wr ∧ wSignal wr = false ∧
      wFence wr = false ∧ s.chain q wr = .holds ∧ q.fetching = false ∧ q.sqNext = q.sqProd ∧ q.cur = q.alloc) ∧
    (∃ (s : State) (n : Nat) (wr : Nat) (q : Qp), Serves s ∧ s.qpe.qps.get? [n] = some q ∧ q.state = Qs.active ∧ q.fetched =
      some wr ∧ s.cqFull q.scq = false ∧ s.cqFull q.rcq = false ∧ wOk false wr = true ∧ wOp wr = 1 ∧ wFence wr = false ∧
      s.chain q wr = .holds ∧ s.regionOk q (wLkey wr) Rg.lrd (wLaddr wr) (wLen wr) = true ∧ q.fetching = false ∧ q.sqNext =
      q.sqProd ∧ q.maxOut ≤ dist 24 q.cur q.unaPsn) ∧
    (∃ (s : State) (n : Nat) (wr : Nat) (q : Qp), Serves s ∧ s.qpe.qps.get? [n] = some q ∧ q.state = Qs.active ∧ q.fetched =
      some wr ∧ wOk false wr = true ∧ wWaitLimit wr ≠ 0 ∧ s.chain q wr = .waits ∧ wWaitLimit wr ≤ dist 32 (s.beatDie
      (dieOfQp n)) q.waitSince ∧ q.works = [] ∧ q.recv = none) ∧
    (∃ (s : State) (d : Nat) (m : Msg) (q : Qp), Serves s ∧ m.ty = 0x71 ∧ s.qpe.qps.get? [m.qpn] = some q ∧ dieOfQp m.qpn =
      d ∧ q.gen = m.gen ∧ q.state = Qs.active ∧ m.psn = q.expPsn ∧ m.immValid = false ∧ m.first = true ∧ q.jobs = [] ∧ 0 <
      m.dataLen ∧ s.regionOk q m.key Rg.rwr m.raddr m.dataLen = true) ∧
    (∃ (s : State) (d : Nat) (m : Msg) (q : Qp), Serves s ∧ m.ty = 0x72 ∧ s.qpe.qps.get? [m.qpn] = some q ∧ dieOfQp m.qpn =
      d ∧ q.gen = m.gen ∧ q.state = Qs.active ∧ m.psn = q.expPsn ∧ q.jobs = [] ∧ 0 < m.total ∧ s.regionOk q m.key Rg.rrd
      m.raddr m.total = true) ∧
    (∃ (s : State) (d : Nat) (m : Msg) (q : Qp), Serves s ∧ m.ty = 0x73 ∧ s.qpe.qps.get? [m.qpn] = some q ∧ dieOfQp m.qpn =
      d ∧ q.gen = m.gen ∧ q.state = Qs.active ∧ m.psn = q.expPsn ∧ m.first = true ∧ q.jobs = [] ∧ q.recv = none ∧ q.rqProd ≠
      q.rqCons ∧ q.rqProd < 2 ^ 32 ∧ q.rqCons < 2 ^ 32) ∧
    (∃ (s : State) (d : Nat) (m : Msg) (q : Qp) (w : SendWork), Serves s ∧ m.ty = 0x78 ∧ s.responder d m = some (m.qpn, q) ∧
      s.qpe.qps.get? [m.qpn] = some q ∧ m.psn = q.unaPsn ∧ q.works = [w] ∧ w.psn = m.psn ∧ w.read = true ∧ w.got = [] ∧ 0 <
      m.dataLen ∧ m.off + m.dataLen ≤ wLen w.wr ∧ s.regionOk q (wLkey w.wr) Rg.lwr (wLaddr w.wr + m.off) m.dataLen = true) ∧
    (∃ (s : State) (d : Nat) (m : Msg) (q : Qp) (w : SendWork), Serves s ∧ m.ty = 0x79 ∧ s.responder d m = some (m.qpn, q) ∧
      s.qpe.qps.get? [m.qpn] = some q ∧ q.works = [w] ∧ w.read = false ∧ wSignal w.wr = false ∧ w.psn = q.unaPsn ∧ m.psn =
      (q.unaPsn + w.count) % 2 ^ 24 ∧ 0 < w.count ∧ w.count < 2 ^ 23 ∧ q.unaPsn < 2 ^ 24 ∧ q.nextPsn = m.psn ∧ q.cur = m.psn
      ∧ q.alloc = m.psn ∧ q.fetching = false ∧ q.sqNext = q.sqProd) ∧
    (∃ (s : State) (d : Nat) (m : Msg) (q : Qp), Serves s ∧ m.ty = 0x7A ∧ s.responder d m = some (m.qpn, q) ∧ s.qpe.qps.get?
      [m.qpn] = some q ∧ m.psn = q.unaPsn ∧ Status.ofCode m.status = .revoked ∧ q.works = [] ∧ q.fetched = none ∧ q.recv =
      none) ∧
    (∃ (s : State) (n : Nat) (q : Qp), Serves s ∧ s.qpe.qps.get? [n] = some q ∧ q.state = Qs.active ∧ q.unaPsn ≠ q.nextPsn ∧
      q.ackSince + 1000 * q.ackTimeout ≤ s.now ∧ q.retries + 1 < q.retryLimit ∧ q.works = [] ∧ q.fetching = true) :=
  ⟨⟨{ allReady with qpe := { qps := Map.empty.set [7] { state := 1 } } }, 0, 0x300000007, 7, 3, { state := 1 },
      by decide +kernel⟩,
   ⟨{ allReady with qpe := { qps := Map.empty.set [7] { state := 2 } } }, 0, 0x300040007, 7, 3, { state := 2 },
      by decide +kernel⟩,
   ⟨{ allReady with qpe := { cqs := Map.empty.set [7] { base := 0, log2 := 4 } } }, 0, 0xC0007, 7, { base := 0, log2 := 4 },
      by decide +kernel⟩,
   ⟨{ allReady with qpe := { cqs := Map.empty.set [7] { base := 0, log2 := 4, prod := 5 } } }, 0, 0x300080007, 7, 3,
      { base := 0, log2 := 4, prod := 5 }, by decide +kernel⟩,
   ⟨{ allReady with qpe := { qps := Map.empty.set [7] { state := 2 } } }, { ty := 0x70, len := 8, body := 0x300040007 }, 7,
      3, { state := 2 }, by decide +kernel⟩,
   ⟨{ allReady with qpe := { qps := Map.empty.set [7] { state := 2, fetched := some 6 } } }, 7, 6,
      { state := 2, fetched := some 6 }, by decide +kernel⟩,
   ⟨{ allReady with qpe := { qps := Map.empty.set [7] { state := 2, fetched := some 0x800000001 }, regions := Map.empty.set [0] (3 + 100 * 2 ^ 128) } },
      7, 0x800000001, { state := 2, fetched := some 0x800000001 }, by decide +kernel⟩,
   ⟨{ allReady with qpe := { qps := (Map.empty.set [7] { state := 2, fetched := some wrW, waitSince := 2 ^ 32 - 5 }).set [8] { state := 2 } } },
      7, wrW, { state := 2, fetched := some wrW, waitSince := 2 ^ 32 - 5 }, by decide +kernel⟩,
   ⟨{ allReady with qpe := { qps := Map.empty.set [7] { state := 2, expPsn := 3 }, regions := Map.empty.set [0] (0x1F + 8192 * 2 ^ 128) } },
      0, { ty := 0x71, len := 40, body := 3 + 7 * 2 ^ 32 + 3 * 2 ^ 96 + 4092 * 2 ^ 128 + 8 * 2 ^ 192 },
      { state := 2, expPsn := 3 }, by decide +kernel⟩,
   ⟨{ allReady with qpe := { qps := Map.empty.set [7] { state := 2, expPsn := 3 }, regions := Map.empty.set [0] (0x1F + 8192 * 2 ^ 128) } },
      0, { ty := 0x72, len := 32, body := 3 + 7 * 2 ^ 32 + 3 * 2 ^ 96 + 4092 * 2 ^ 128 + 8 * 2 ^ 192 },
      { state := 2, expPsn := 3 }, by decide +kernel⟩,
   ⟨{ allReady with qpe := { qps := Map.empty.set [7] { state := 2, expPsn := 3, rqProd := 1 } } }, 0,
      { ty := 0x73, len := 40, body := 3 + 7 * 2 ^ 32 + 3 * 2 ^ 96 + 8 * 2 ^ 192 },
      { state := 2, expPsn := 3, rqProd := 1 }, by decide +kernel⟩,
   ⟨{ allReady with qpe := { qps := Map.empty.set [7] { state := 2, works := [{ wr := 0x800000003, slot := 0, psn := 0, count := 1 }] }, regions := Map.empty.set [0] (0x1F + 8192 * 2 ^ 128) } },
      0, { ty := 0x78, len := 40, body := 7 * 2 ^ 32 },
      { state := 2, works := [{ wr := 0x800000003, slot := 0, psn := 0, count := 1 }] },
      { wr := 0x800000003, slot := 0, psn := 0, count := 1 }, by decide +kernel⟩,
   ⟨{ allReady with qpe := { qps := Map.empty.set [7] { state := 2, nextPsn := 2, cur := 2, alloc := 2, works := [{ wr := 1, slot := 0, psn := 0, count := 2 }] } } },
      0, { ty := 0x79, len := 32, body := 2 + 7 * 2 ^ 32 },
      { state := 2, nextPsn := 2, cur := 2, alloc := 2, works := [{ wr := 1, slot := 0, psn := 0, count := 2 }] },
      { wr := 1, slot := 0, psn := 0, count := 2 }, by decide +kernel⟩,
   ⟨{ allReady with qpe := { qps := Map.empty.set [7] { state := 2, sqProd := 2 } } }, 0,
      { ty := 0x7A, len := 32, status := Status.revoked.code, body := 7 * 2 ^ 32 }, { state := 2, sqProd := 2 },
      by decide +kernel⟩,
   ⟨{ allReady with qpe := { qps := Map.empty.set [7] { state := 2, nextPsn := 2, retryLimit := 3, fetching := true } } },
      7, { state := 2, nextPsn := 2, retryLimit := 3, fetching := true }, by decide +kernel⟩⟩

theorem witness_QueueCommands :
    (∃ (s : State) (fn : Nat) (x : Nat) (n : Nat), (Serves s ∧ s.isReady B.qpe = true) ∧ s.on R.QPE_CMD_RESULT_busy [fn] =
      false ∧ s.tenantActive fn = true ∧ n = lowestFree (fun i => s.qpe.qps.has [i]) (bitsOf x 17 1 * 2 ^ 17) s.qpe.qps.size
      ∧ n < (bitsOf x 17 1 + 1) * 2 ^ 17) ∧
    (∃ (s : State) (fn : Nat) (n : Nat) (q : Qp), (Serves s ∧ s.isReady B.qpe = true) ∧ s.on R.QPE_CMD_RESULT_busy [fn] =
      false ∧ s.qpe.qps.get? [n] = some q ∧ mayAct fn q.tenant = true ∧ fieldOf (s.qpeImage fn 16) 0 0 3 = 0 ∧ q.state ≠
      Qs.reset ∧ q.flushing = false ∧ s.recordsOut n = false) ∧
    (∃ (s : State) (fn : Nat) (n : Nat) (q : Qp), (Serves s ∧ s.isReady B.qpe = true) ∧ s.on R.QPE_CMD_RESULT_busy [fn] =
      false ∧ s.qpe.qps.get? [n] = some q ∧ mayAct fn q.tenant = true ∧ fieldOf (s.qpeImage fn 16) 0 0 3 = 1 ∧ q.state =
      Qs.reset ∧ q.resetAt + 1000000 ≤ s.now ∧ s.initRefusal fn (s.qpeImage fn 16) = none) ∧
    (∃ (s : State) (fn : Nat) (n : Nat) (q : Qp), (Serves s ∧ s.isReady B.qpe = true) ∧ s.on R.QPE_CMD_RESULT_busy [fn] =
      false ∧ s.qpe.qps.get? [n] = some q ∧ mayAct fn q.tenant = true ∧ fieldOf (s.qpeImage fn 16) 0 0 3 = 2 ∧ q.state =
      Qs.init ∧ q.sqNext = q.sqProd ∧ q.cur = q.alloc) ∧
    (∃ (s : State) (fn : Nat) (n : Nat) (q : Qp), (Serves s ∧ s.isReady B.qpe = true) ∧ s.on R.QPE_CMD_RESULT_busy [fn] =
      false ∧ s.qpe.qps.get? [n] = some q ∧ mayAct fn q.tenant = true ∧ q.state = Qs.reset) ∧
    (∃ (s : State) (fn : Nat) (n : Nat) (q : Qp), (Serves s ∧ s.isReady B.qpe = true) ∧ s.on R.QPE_CMD_RESULT_busy [fn] =
      false ∧ s.qpe.qps.get? [n] = some q ∧ mayAct fn q.tenant = true) ∧
    (∃ (s : State) (fn : Nat) (x : Nat) (n : Nat) (w0 : Nat) (w1 : Nat), (Serves s ∧ s.isReady B.qpe = true) ∧ s.on
      R.QPE_CMD_RESULT_busy [fn] = false ∧ s.qpeStage fn 0 = w0 ∧ s.qpeStage fn 1 = w1 ∧ bitsOf w0 56 8 = 0 ∧ bitsOf w1 5 3
      = 0 ∧ bitsOf w1 10 6 = 0 ∧ bitsOf w1 48 16 = 0 ∧ 4 ≤ bitsOf w1 0 5 ∧ bitsOf w1 0 5 ≤ 20 ∧ ringOk w0 (32 * 2 ^ bitsOf
      w1 0 5) = true ∧ (bitsOf w1 8 2 = 1 → bitsOf w1 16 16 < (if fn = 0 then 2048 else 64)) ∧ n = lowestFree (fun i =>
      s.qpe.cqs.has [i]) (bitsOf x 16 1 * 2 ^ 16) s.qpe.cqs.size ∧ n < (bitsOf x 16 1 + 1) * 2 ^ 16) ∧
    (∃ (s : State) (fn : Nat) (n : Nat) (c : Cq), (Serves s ∧ s.isReady B.qpe = true) ∧ s.on R.QPE_CMD_RESULT_busy [fn] =
      false ∧ s.qpe.cqs.get? [n] = some c ∧ mayAct fn c.tenant = true ∧ (s.qpe.qps.vals.any (fun q => decide (q.scq = n ∨
      q.rcq = n) && decide (q.state ≠ Qs.reset)) = false)) ∧
    (∃ (s : State) (fn : Nat) (n : Nat) (x : Nat), (Serves s ∧ s.isReady B.qpe = true) ∧ s.on R.QPE_CMD_RESULT_busy [fn] =
      false ∧ s.qpeImage fn 3 = x ∧ bitAt x 0 = true ∧ bitsOf x 40 24 = 0 ∧ bitsOf x 120 8 = 0 ∧ x < 2 ^ 168 ∧ Rg.length x ≠
      0 ∧ mayAct fn (bitsOf x 5 5) = true ∧ s.tenantActive (bitsOf x 5 5) = true ∧ s.qpe.pds.get? [bitsOf x 10 16] = some
      (bitsOf x 5 5) ∧ bitAt (s.qpe.regions.get 0 [n]) 0 = false ∧ s.qpe.invals.any (fun v => decide (v.1 = n)) = false) ∧
    (∃ (s : State) (fn : Nat) (n : Nat), (Serves s ∧ s.isReady B.qpe = true) ∧ s.on R.QPE_CMD_RESULT_busy [fn] = false ∧
      bitAt (s.qpe.regions.get 0 [n]) 0 = true ∧ mayAct fn (bitsOf (s.qpe.regions.get 0 [n]) 5 5) = true) ∧
    (∃ (s : State) (key : Nat) (ix : Nat) (fn : Nat), (Serves s ∧ s.isReady B.qpe = true) ∧ s.qpe.invals.find? (fun v =>
      decide (v.1 = key % 2 ^ 18)) = some (ix, fn) ∧ s.regionBusy ix = false) ∧
    (∃ (s : State) (fn : Nat) (n : Nat), (Serves s ∧ s.isReady B.qpe = true) ∧ s.on R.QPE_CMD_RESULT_busy [fn] = false ∧
      s.tenantActive fn = true ∧ n = lowestFree (fun i => s.qpe.pds.has [i]) 0 s.qpe.pds.size ∧ n < 65536) ∧
    (∃ (s : State) (fn : Nat) (n : Nat) (te : Nat), (Serves s ∧ s.isReady B.qpe = true) ∧ s.on R.QPE_CMD_RESULT_busy [fn] =
      false ∧ s.qpe.pds.get? [n] = some te ∧ mayAct fn te = true ∧ (s.qpe.qps.vals.any (fun q => decide (q.pd = n ∧ q.state
      ≠ Qs.reset)) = false) ∧ s.qpe.regions.vals.any (fun e => decide (bitsOf e 10 16 = n)) = false) :=
  ⟨⟨{ allReady with qpe := { qps := Map.empty.set [131072] {} } }, 0, 0x20000, 131073, by decide +kernel⟩,
   ⟨{ allReady with qpe := { qps := Map.empty.set [7] { state := 2 } } }, 0, 7, { state := 2 }, by decide +kernel⟩,
   ⟨initQp, 0, 7, {}, by decide +kernel⟩,
   ⟨{ allReady.wr R.QPE_CMD_STAGE_word [0, 0] 2 with qpe := { qps := Map.empty.set [7] { state := 1 } } }, 0, 7,
      { state := 1 }, by decide +kernel⟩,
   ⟨{ allReady with qpe := { qps := Map.empty.set [7] {} } }, 0, 7, {}, by decide +kernel⟩,
   ⟨{ allReady with qpe := { qps := Map.empty.set [7] {} } }, 0, 7, {}, by decide +kernel⟩,
   ⟨allReady.wr R.QPE_CMD_STAGE_word [1, 0] 0x3F0104, 0, 0, 0, 0, 0x3F0104, by decide +kernel⟩,
   ⟨{ allReady with qpe := { cqs := Map.empty.set [7] { base := 0, log2 := 4 } } }, 0, 7, { base := 0, log2 := 4 },
      by decide +kernel⟩,
   ⟨{ (allReady.wr R.QPE_CMD_STAGE_word [0, 0] 0x1F).wr R.QPE_CMD_STAGE_word [2, 0] 4096 with qpe := { pds := Map.empty.set [0] 0 } },
      0, 7, 4096 * 2 ^ 128 + 31, by decide +kernel⟩,
   ⟨{ allReady with qpe := { regions := Map.empty.set [7] 31 } }, 0, 7, by decide +kernel⟩,
   ⟨{ allReady.wr R.QPE_CMD_RESULT_busy [0] 1 with qpe := { invals := [(7, 0)] } }, 0x80007, 7, 0, by decide +kernel⟩,
   ⟨{ allReady with qpe := { pds := Map.empty.set [0] 0 } }, 0, 1, by decide +kernel⟩,
   ⟨{ allReady with qpe := { pds := Map.empty.set [5] 0 } }, 0, 5, 0, by decide +kernel⟩⟩

theorem witness_StreamsOfTheCodec :
    (∃ (s : State) (fn : Nat) (n : Nat) (d : Nat) (x : Nat) (u : Nat), Serves s ∧ s.on R.CDC_CMD_RESULT_busy [fn] = false ∧
      s.isReady B.cdc = true ∧ fn = 0 ∧ s.cdcStage 0 0 4 = x ∧ s.cdcStage 0 4 16 = u ∧ streamOk x = true ∧ tableValid u =
      true ∧ s.tenantActive (Stream.tenant x) = true ∧ n < 4096 ∧ d < 2 ∧ x < 2 ^ 256 ∧ u < 2 ^ 1024) ∧
    (∃ (s : State) (fn : Nat), Serves s ∧ s.on R.CDC_CMD_RESULT_busy [fn] = false ∧ s.isReady B.cdc = true ∧ fn = 0 ∧
      tableValid (s.cdcStage 0 4 16) = false) ∧
    (∃ (s : State) (fn : Nat), Serves s ∧ s.on R.CDC_CMD_RESULT_busy [fn] = false ∧ s.isReady B.cdc = false ∧ fn < 32) ∧
    (∃ (s : State) (fn : Nat) (n : Nat) (d : Nat) (x : Nat), Serves s ∧ s.on R.CDC_CMD_RESULT_busy [fn] = false ∧ s.isReady
      B.cdc = true ∧ fn = 0 ∧ s.cdcStage 0 0 4 = x ∧ streamOk x = true ∧ s.cdc.deferred = Map.empty ∧ s.midMessage d n =
      false ∧ n < 4096 ∧ d < 2) ∧
    (∃ (s : State) (fn : Nat) (n : Nat) (d : Nat), Serves s ∧ s.on R.CDC_CMD_RESULT_busy [fn] = false ∧ s.isReady B.cdc =
      true ∧ fn = 0 ∧ s.cdc.deferred = Map.empty ∧ s.midMessage d n = false ∧ n < 4096 ∧ d < 2) ∧
    (∃ (s : State) (fn : Nat) (n : Nat) (d : Nat), Serves s ∧ s.on R.CDC_CMD_RESULT_busy [fn] = false ∧ s.isReady B.cdc =
      true ∧ fn = 0 ∧ s.cdc.deferred = Map.empty ∧ s.midMessage d n = true) ∧
    (∃ (s : State) (m : Msg), Serves s ∧ m.ty = 0xA8 ∧ m.len ≠ 16 ∧ Stream.valid (s.streamAt m.die (cStream m)) = false) ∧
    (∃ (s : State) (m : Msg) (n : Nat) (i : Nat) (h : Handle) (x : Nat) (b : Nat) (g : List Nat), Serves s ∧ m.ty = 0xA8 ∧
      m.len ≠ 16 ∧ takeFirst m (s.sw.agentIn.get [] [m.die, m.chan]) = none ∧ s.cdc = {} ∧ s.streamAt m.die (cStream m) = x
      ∧ Stream.valid x = true ∧ Stream.tenant x = m.tenant ∧ Stream.core x = n ∧ Stream.handle x = i ∧ (s.core
      n).handles.get? [i] = some h ∧ (s.core n).acqs = [] ∧ h.producer = 1 ∧ blockWidth (Stream.out x) = b ∧ b ≤ h.slot ∧
      h.full < h.slots ∧ cBlocks m = 1 ∧ s.expandBlock m 0 = (none, g) ∧ h.at_ h.p + b ≤ 0x200000 ∧ Memory.wf s.spm = true)
      ∧
    (∃ (s : State) (m : Msg) (n : Nat) (i : Nat) (h : Handle) (x : Nat) (b : Nat) (g : List Nat), Serves s ∧ m.ty = 0xA8 ∧
      m.len ≠ 16 ∧ takeFirst m (s.sw.agentIn.get [] [m.die, m.chan]) = none ∧ s.cdc = {} ∧ s.streamAt m.die (cStream m) = x
      ∧ Stream.valid x = true ∧ Stream.tenant x = m.tenant ∧ Stream.core x = n ∧ Stream.handle x = i ∧ (s.core
      n).handles.get? [i] = some h ∧ h.producer = 1 ∧ blockWidth (Stream.out x) = b ∧ b ≤ h.slot ∧ h.slots ≤ h.full ∧
      cBlocks m = 1 ∧ s.expandBlock m 0 = (none, g)) ∧
    (∃ (s : State) (n : Nat) (i : Nat) (e : Expansion) (h : Handle), Serves s ∧ s.cdc.work = [e] ∧ s.cdc.deferred =
      Map.empty ∧ e.core = n ∧ e.handle = i ∧ e.blocks = [(0, 0)] ∧ e.msg.ty = 0xA8 ∧ (s.core n).handles.get? [i] = some h ∧
      (s.core n).acqs = [] ∧ h.full < h.slots) ∧
    (∃ (s : State) (n : Nat) (i : Nat) (e : Expansion) (h : Handle), Serves s ∧ s.cdc.work = [e] ∧ e.core = n ∧ e.handle = i
      ∧ e.blocks = [(0, 0)] ∧ (s.core n).handles.get? [i] = some h ∧ h.slots ≤ h.full) :=
  ⟨⟨streaming, 0, 5, 1, streamX, codeT, by decide +kernel⟩,
   ⟨allReady, 0, by decide +kernel⟩,
   ⟨State.reset, 4, by decide +kernel⟩,
   ⟨streaming, 0, 5, 1, streamX, by decide +kernel⟩,
   ⟨expanding hG, 0, 5, 0, by decide +kernel⟩,
   ⟨{ expanding hG with cdc := { work := [expW] } }, 0, 5, 0, by decide +kernel⟩,
   ⟨allReady, { ty := 0xA8, len := 36 }, by decide +kernel⟩,
   ⟨expanding { base := 0x1000, slotLog2 := 2, producer := 1, slotsLog2 := 2 }, expM, 2, 7,
      { base := 0x1000, slotLog2 := 2, producer := 1, slotsLog2 := 2 }, setBits streamX 28 8 1, 1024, 0x3f800000 ::
      List.replicate 255 0, by decide +kernel⟩,
   ⟨expanding { base := 0x1000, slotLog2 := 2, producer := 1, slotsLog2 := 2, p := 4 }, expM, 2, 7,
      { base := 0x1000, slotLog2 := 2, producer := 1, slotsLog2 := 2, p := 4 }, setBits streamX 28 8 1, 1024, 0x3f800000 ::
      List.replicate 255 0, by decide +kernel⟩,
   ⟨{ expanding { base := 0x1000, slotLog2 := 2, producer := 1, slotsLog2 := 2 } with cdc := { work := [expW] } }, 2, 7,
      expW, { base := 0x1000, slotLog2 := 2, producer := 1, slotsLog2 := 2 }, by decide +kernel⟩,
   ⟨{ expanding { base := 0x1000, slotLog2 := 2, producer := 1, slotsLog2 := 2, p := 4 } with cdc := { work := [expW] } },
      2, 7, expW, { base := 0x1000, slotLog2 := 2, producer := 1, slotsLog2 := 2, p := 4 }, by decide +kernel⟩⟩

theorem witness_CollectiveCommands :
    (∃ (s : State) (fn : Nat) (n : Nat) (x : Nat), Serves s ∧ s.isReady B.clt = true ∧ s.cltStage fn 16 = x ∧ collOk n x =
      true ∧ mayAct fn (coTenant x) = true ∧ s.tenantActive (coTenant x) = true ∧ s.clt.colls.has [n] = false ∧
      s.clt.freed.get? [n] = none ∧ fn < 32 ∧ n < 4096) ∧
    (∃ (s : State) (fn : Nat) (n : Nat) (x : Nat), Serves s ∧ s.isReady B.clt = true ∧ s.cltStage fn 16 = x ∧ collOk n x =
      true ∧ mayAct fn (coTenant x) = true ∧ s.tenantActive (coTenant x) = true ∧ s.clt.colls.has [n] = true ∧ fn < 32) ∧
    (∃ (s : State) (fn : Nat) (n : Nat) (k : Nat) (c : Coll), Serves s ∧ s.isReady B.clt = true ∧ s.clt.colls.get? [n] =
      some c ∧ mayAct fn (coTenant c.desc) = true ∧ k < coOwners c.desc ∧ fieldOf (s.cltStage fn 2) 4 12 20 = 0 ∧ fieldOf
      (s.cltStage fn 2) 12 5 27 = 0 ∧ owSlots (s.cltStage fn 2) ≤ 16 ∧ owEid (s.cltStage fn 2) ≠ s.eid ∧ fn < 32) ∧
    (∃ (s : State) (fn : Nat) (n : Nat) (k : Nat) (c : Coll), Serves s ∧ s.isReady B.clt = true ∧ s.clt.colls.get? [n] =
      some c ∧ mayAct fn (coTenant c.desc) = true ∧ coOwners c.desc ≤ k ∧ fn < 32) ∧
    (∃ (s : State) (fn : Nat) (n : Nat) (k : Nat) (c : Coll), Serves s ∧ s.isReady B.clt = true ∧ s.clt.colls.get? [n] =
      some c ∧ mayAct fn (coTenant c.desc) = true ∧ k < coMembers c.desc ∧ s.cltStage fn 1 < 2 ^ 34 ∧ mbCore (s.cltStage fn
      1) = true ∧ fn < 32) ∧
    (∃ (s : State) (fn : Nat) (n : Nat) (c : Coll), Serves s ∧ s.isReady B.clt = true ∧ s.clt.colls.get? [n] = some c ∧
      mayAct fn (coTenant c.desc) = false ∧ fn < 32) ∧
    (∃ (s : State) (fn : Nat) (n : Nat) (b : Nat) (st : Nat) (c : Coll), Serves s ∧ s.isReady B.clt = true ∧
      s.clt.colls.get? [n] = some c ∧ mayAct fn (coTenant c.desc) = true ∧ s.clst n = Cl.idle ∧ s.noLaunch = false ∧
      s.ownHere c = [] ∧ bitsOf (s.cltStage fn 1) 0 32 = st ∧ bitsOf (s.cltStage fn 1) 32 32 = b ∧ ahead b s.beat = true ∧
      fn < 32 ∧ n < 4096) ∧
    (∃ (s : State) (fn : Nat) (n : Nat) (c : Coll), Serves s ∧ s.isReady B.clt = true ∧ s.clt.colls.get? [n] = some c ∧
      mayAct fn (coTenant c.desc) = true ∧ s.clst n ≠ Cl.idle ∧ fn < 32) ∧
    (∃ (s : State) (n : Nat) (k : Nat) (ow : Nat) (st : Nat) (b : Nat) (c : Coll), Serves s ∧ s.clt.colls.get? [n] = some c
      ∧ s.clst n = Cl.scheduled ∧ c.next = some (st, b) ∧ ahead (s.rd R.CLT_COLL_STATUS_beat [n]) s.beat = false ∧ coUpdate
      c.desc = false ∧ s.ownHere c = [(k, ow)] ∧ ownedChunks c.desc k ≠ [] ∧ coPeriod c.desc ≠ 0 ∧ n < 4096 ∧ st < 2 ^ 32) ∧
    (∃ (s : State) (n : Nat) (st : Nat) (b : Nat) (c : Coll), Serves s ∧ s.clt.colls.get? [n] = some c ∧ c.next = some (st,
      b) ∧ ahead (s.rd R.CLT_COLL_STATUS_beat [n]) s.beat = true) ∧
    (∃ (s : State) (n : Nat) (k : Nat) (ow : Nat) (i : Nat) (c : Coll), Serves s ∧ s.clt.colls.get? [n] = some c ∧ s.running
      n = true ∧ ahead (s.rd R.CLT_COLL_STATUS_beat [n] + coTimeout c.desc) s.beat = false ∧ coUpdate c.desc = false ∧
      s.ownHere c = [(k, ow)] ∧ ownedChunks c.desc k = [i] ∧ (c.owned k).finished.has [i] = false ∧ (c.owned k).ended =
      false ∧ (c.owned k).worst = .ok ∧ c.accs.get? [i] = none ∧ c.next = none ∧ n < 4096) ∧
    (∃ (s : State) (fn : Nat) (n : Nat) (c : Coll), Serves s ∧ s.isReady B.clt = true ∧ s.clt.colls.get? [n] = some c ∧
      mayAct fn (coTenant c.desc) = true ∧ s.clst n = Cl.idle ∧ c.bound = [] ∧ fn < 32 ∧ n < 4096) ∧
    (∃ (s : State) (fn : Nat) (n : Nat) (c : Coll), Serves s ∧ s.isReady B.clt = true ∧ s.clt.colls.get? [n] = some c ∧
      mayAct fn (coTenant c.desc) = true ∧ s.clst n ≠ Cl.idle ∧ fn < 32) :=
  ⟨⟨stagedColl, 0, 0, collP, by decide +kernel⟩,
   ⟨{ stagedColl with clt := (collecting collP Map.empty).clt }, 0, 0, collP, by decide +kernel⟩,
   ⟨(collecting collP Map.empty).wr R.CLT_CMD_STAGE_word [0, 0] 9, 0, 0, 0, collC collP Map.empty, by decide +kernel⟩,
   ⟨collecting collP Map.empty, 0, 0, 1, collC collP Map.empty, by decide +kernel⟩,
   ⟨(collecting collP Map.empty).wr R.CLT_CMD_STAGE_word [0, 0] 1, 0, 0, 0, collC collP Map.empty, by decide +kernel⟩,
   ⟨collecting collP Map.empty, 3, 0, collC collP Map.empty, by decide +kernel⟩,
   ⟨stepIn 1 { desc := 0 }, 0, 0, 100, 7, collR { desc := 0 }, by decide +kernel⟩,
   ⟨collecting collP Map.empty, 0, 0, collC collP Map.empty, by decide +kernel⟩,
   ⟨({ collecting collP Map.empty with clt := { colls := Map.empty.set [0] { collC collP Map.empty with next := some (7, 0) } } }).wr
      R.CLT_COLL_STATUS_state [0] 2, 0, 0, 0, 7, 0, { collC collP Map.empty with next := some (7, 0) }, by decide +kernel⟩,
   ⟨(stepIn 2 { next := some (7, 5), desc := 0 }).wr R.CLT_COLL_STATUS_beat [0] 5, 0, 7, 5, collR
      { next := some (7, 5), desc := 0 }, by decide +kernel⟩,
   ⟨{ collecting collP Map.empty with tim := { ft := 2000000 * 256 } }, 0, 0, 0, 0, collC collP Map.empty,
      by decide +kernel⟩,
   ⟨stepIn 1 { desc := 0 }, 0, 0, collR { desc := 0 }, by decide +kernel⟩,
   ⟨collecting collP Map.empty, 0, 0, collC collP Map.empty, by decide +kernel⟩⟩

theorem witness_CollectiveMessages :
    (∃ (s : State) (m : Msg), Serves s ∧ m.ty = 0x91 ∧ s.collOf (m.f 0 0 32) = none) ∧
    (∃ (s : State) (m : Msg) (n : Nat) (i : Nat) (sh : Nat) (k : Nat) (x : Nat) (c : Coll), Serves s ∧ m.ty = 0x91 ∧
      s.collOf (m.f 0 0 32) = some (n, c) ∧ c.desc = x ∧ m.f 8 0 16 = i ∧ m.f 8 16 16 = sh ∧ i / coPer x = k ∧ i < coChunks
      x ∧ c.owners.has [k] = true ∧ owEid (ownerOf c k) = s.eid ∧ sh < coShards x ∧ plainShape x m = true ∧ m.tenant =
      coTenant x ∧ s.openStep n c = some (m.f 4 0 32 - 1) ∧ 1 ≤ m.f 4 0 32) ∧
    (∃ (s : State) (m : Msg) (n : Nat) (i : Nat) (sh : Nat) (k : Nat) (x : Nat) (c : Coll), Serves s ∧ m.ty = 0x91 ∧
      s.collOf (m.f 0 0 32) = some (n, c) ∧ c.desc = x ∧ m.f 8 0 16 = i ∧ m.f 8 16 16 = sh ∧ i / coPer x = k ∧ i < coChunks
      x ∧ c.owners.has [k] = true ∧ owEid (ownerOf c k) = s.eid ∧ sh < coShards x ∧ plainShape x m = true ∧ m.tenant =
      coTenant x ∧ s.running n = true ∧ m.f 4 0 32 = c.step ∧ (c.owned k).ended = false ∧ (c.owned k).finished.has [i] =
      false ∧ coPace x = 0 ∧ c.accs.get? [i] = none ∧ s.clusterUp (owCluster (ownerOf c k)) = true ∧ s.accumUsed (owCluster
      (ownerOf c k)) + accBytes x ≤ 262144 * s.rd R.CMP_CSRAM_CFG_accum [owCluster (ownerOf c k)] ∧ popcount 1024 (2 ^ sh) <
      coShards x) ∧
    (∃ (s : State) (m : Msg) (n : Nat) (i : Nat) (sh : Nat) (k : Nat) (x : Nat) (c : Coll) (a : Accum), Serves s ∧ m.ty =
      0x91 ∧ s.collOf (m.f 0 0 32) = some (n, c) ∧ c.desc = x ∧ m.f 8 0 16 = i ∧ m.f 8 16 16 = sh ∧ i / coPer x = k ∧ i <
      coChunks x ∧ c.owners.has [k] = true ∧ owEid (ownerOf c k) = s.eid ∧ sh < coShards x ∧ plainShape x m = true ∧
      m.tenant = coTenant x ∧ s.running n = true ∧ m.f 4 0 32 = c.step ∧ (c.owned k).ended = false ∧ (c.owned
      k).finished.has [i] = false ∧ coPace x = 0 ∧ c.accs.get? [i] = some a ∧ bitAt a.bits sh = true) ∧
    (∃ (s : State) (m : Msg) (n : Nat) (i : Nat) (sh : Nat) (k : Nat) (x : Nat) (c : Coll) (a : Accum), Serves s ∧ m.ty =
      0x91 ∧ s.collOf (m.f 0 0 32) = some (n, c) ∧ c.desc = x ∧ m.f 8 0 16 = i ∧ m.f 8 16 16 = sh ∧ i / coPer x = k ∧ i <
      coChunks x ∧ c.owners.has [k] = true ∧ owEid (ownerOf c k) = s.eid ∧ sh < coShards x ∧ plainShape x m = true ∧
      m.tenant = coTenant x ∧ s.running n = true ∧ m.f 4 0 32 = c.step ∧ (c.owned k).ended = false ∧ (c.owned
      k).finished.has [i] = false ∧ coPace x = 0 ∧ c.accs.get? [i] = some a ∧ bitAt a.bits sh = false ∧ a.elems ≠ [] ∧
      popcount 1024 (a.bits + 2 ^ sh) ≠ coShards x) ∧
    (∃ (s : State) (m : Msg) (e : Expansion), Serves s ∧ m.ty = 0x90 ∧ s.cdc.work = [e] ∧ e.msg = m ∧ e.blocks = [] ∧
      e.taken = e.written ∧ e.verdict = none ∧ e.bad = false ∧ s.collOf (m.f 0 0 32) = none) ∧
    (∃ (s : State) (m : Msg) (n : Nat) (i : Nat) (e : Expansion) (c : Coll) (a : Accum), Serves s ∧ m.ty = 0x90 ∧ s.cdc.work
      = [e] ∧ e.msg = m ∧ e.blocks = [] ∧ e.taken = e.written ∧ e.verdict = some (.ok, true) ∧ e.bad = false ∧ m.f 0 0 12 =
      n ∧ m.f 8 0 16 = i ∧ s.clt.colls.get? [n] = some c ∧ c.accs.get? [i] = some a ∧ a.elems ≠ [] ∧ popcount 1024 a.bits ≠
      coShards c.desc) ∧
    (∃ (s : State) (m : Msg) (e : Expansion), Serves s ∧ m.ty = 0x99 ∧ s.cdc.work = [e] ∧ e.msg = m ∧ e.blocks = [] ∧
      e.taken = e.written ∧ s.collOf (m.f 0 0 32) = none) ∧
    (∃ (s : State) (m : Msg) (e : Expansion) (n : Nat) (c : Coll) (mb : Nat) (h : Handle), Serves s ∧ m.ty = 0x99 ∧
      s.cdc.work = [e] ∧ e.msg = m ∧ e.blocks = [] ∧ e.taken = e.written ∧ s.collOf (m.f 0 0 32) = some (n, c) ∧ coreMembers
      c (some (m.f 8 0 16)) = [mb] ∧ (s.core (mbN mb)).handles.get? [mbHandle mb] = some h ∧ h.producer = 3 ∧ coLen c.desc *
      tyBytes (coOut c.desc) ≤ h.slot ∧ h.full < h.slots) ∧
    (∃ (s : State) (m : Msg) (n : Nat) (c : Coll) (mb : Nat) (h : Handle), Serves s ∧ m.ty = 0x9A ∧ s.collOf (m.f 0 0 32) =
      some (n, c) ∧ coreMembers c (some (m.f 8 0 16)) = [mb] ∧ (s.core (mbN mb)).handles.get? [mbHandle mb] = some h ∧
      h.producer = 3 ∧ coLen c.desc * tyBytes (coOut c.desc) ≤ h.slot ∧ h.full < h.slots ∧ h.at_ h.p + coLen c.desc *
      tyBytes (coOut c.desc) ≤ 0x200000 ∧ m.len = 16 + coLen c.desc * tyBytes (coOut c.desc) ∧ Memory.wf s.spm = true) ∧
    (∃ (s : State) (m : Msg) (n : Nat) (c : Coll) (mb : Nat) (h : Handle), Serves s ∧ m.ty = 0x9A ∧ s.collOf (m.f 0 0 32) =
      some (n, c) ∧ coreMembers c (some (m.f 8 0 16)) = [mb] ∧ (s.core (mbN mb)).handles.get? [mbHandle mb] = some h ∧
      h.producer = 3 ∧ coLen c.desc * tyBytes (coOut c.desc) ≤ h.slot ∧ h.slots ≤ h.full) ∧
    (∃ (s : State) (m : Msg) (n : Nat) (c : Coll) (mb : Nat), Serves s ∧ m.ty = 0x9B ∧ s.collOf (m.f 0 0 32) = some (n, c) ∧
      coreMembers c none = [mb] ∧ (s.core (mbN mb)).wait = none) ∧
    (∃ (s : State) (n : Nat) (k : Nat) (g : Nat) (i : Nat) (j : Nat) (c : Coll) (u : UGroup), Serves s ∧ s.clt.colls.get?
      [n] = some c ∧ c.groups.get? [k, g] = some u ∧ (s.core u.core).counter (coCtr c.desc) = (1, .ok) ∧ s.running n = true
      ∧ groupChunks c.desc k g = [i] ∧ j ∈ ownedChunks c.desc k ∧ j ≠ i ∧ (c.owned k).finished.has [j] = false) ∧
    (∃ (s : State) (n : Nat) (k : Nat) (g : Nat) (i : Nat) (j : Nat) (c : Coll) (u : UGroup), Serves s ∧ s.clt.colls.get?
      [n] = some c ∧ c.groups.get? [k, g] = some u ∧ u.since + 1000 * coLimit c.desc ≤ s.now ∧ s.running n = true ∧
      groupChunks c.desc k g = [i] ∧ (c.owned k).finished.has [i] = false ∧ j ∈ ownedChunks c.desc k ∧ j ≠ i ∧ (c.owned
      k).finished.has [j] = false) :=
  ⟨⟨State.reset, { ty := 0x91 }, by decide +kernel⟩,
   ⟨collecting collP Map.empty, { plainM with body := plainM.body + 1 <<< 32 }, 0, 0, 1, 0, collP, collC collP Map.empty,
      by decide +kernel⟩,
   ⟨collecting collP Map.empty, plainM, 0, 0, 1, 0, collP, collC collP Map.empty, by decide +kernel⟩,
   ⟨collecting collP (Map.empty.set [0] accA), plainM, 0, 0, 1, 0, collP, collC collP (Map.empty.set [0] accA), accA,
      by decide +kernel⟩,
   ⟨collecting collP (Map.empty.set [0] accB), plainM, 0, 0, 1, 0, collP, collC collP (Map.empty.set [0] accB), accB,
      by decide +kernel⟩,
   ⟨{ allReady with cdc := { work := [{ expW with msg := { ty := 0x90 }, blocks := [] }] } }, { ty := 0x90 },
      { expW with msg := { ty := 0x90 }, blocks := [] }, by decide +kernel⟩,
   ⟨{ collecting collP (Map.empty.set [0] accB) with cdc := { work := [clWork] } }, { ty := 0x90 }, 0, 0, clWork, collC
      collP (Map.empty.set [0] accB), accB, by decide +kernel⟩,
   ⟨{ allReady with cdc := { work := [{ expW with msg := { ty := 0x99 }, blocks := [] }] } }, { ty := 0x99 },
      { expW with msg := { ty := 0x99 }, blocks := [] }, by decide +kernel⟩,
   ⟨{ ringed with cdc := { work := [{ expW with msg := { ty := 0x99 }, blocks := [] }] } }, { ty := 0x99 },
      { expW with msg := { ty := 0x99 }, blocks := [] }, 0, { collC collP Map.empty with members := Map.empty.set [0] 1 },
      1, { base := 0x1000, slotLog2 := 2, producer := 3, slotsLog2 := 2 }, by decide +kernel⟩,
   ⟨ringed, { ty := 0x9A, len := 1040, body := 77 <<< 128 }, 0,
      { collC collP Map.empty with members := Map.empty.set [0] 1 }, 1,
      { base := 0x1000, slotLog2 := 2, producer := 3, slotsLog2 := 2 }, by decide +kernel⟩,
   ⟨collMember { base := 0x1000, slotLog2 := 2, producer := 3, slotsLog2 := 2, p := 4 }, { ty := 0x9A, len := 1040 }, 0,
      { collC collP Map.empty with members := Map.empty.set [0] 1 }, 1,
      { base := 0x1000, slotLog2 := 2, producer := 3, slotsLog2 := 2, p := 4 }, by decide +kernel⟩,
   ⟨ringed, { ty := 0x9B, len := 24 }, 0, { collC collP Map.empty with members := Map.empty.set [0] 1 }, 1,
      by decide +kernel⟩,
   ⟨updating 1, 0, 0, 0, 0, 1, collC collU Map.empty, { core := 0, since := 0 }, by decide +kernel⟩,
   ⟨updating 0, 0, 0, 0, 0, 1, collC collU Map.empty, { core := 0, since := 0 }, by decide +kernel⟩⟩

theorem witness_GatherAndFilter :
    (∃ (s : State) (fn : Nat) (n : Nat) (x : Nat), Serves s ∧ s.isReady B.gth = true ∧ s.gthStage fn = x ∧ s.tableOk n x =
      true ∧ mayAct fn (tbTenant x) = true ∧ s.tenantActive (tbTenant x) = true ∧ s.gth.tables.has [n] = false ∧
      s.gth.freed.get? [n] = none ∧ fn < 32 ∧ n < 1024) ∧
    (∃ (s : State) (fn : Nat) (n : Nat), Serves s ∧ s.isReady B.gth = true ∧ s.tableOk n (s.gthStage fn) = false ∧ s.table n
      = none ∧ fn < 32) ∧
    (∃ (s : State) (fn : Nat) (n : Nat) (b : GTab), Serves s ∧ s.isReady B.gth = true ∧ s.table n = some b ∧ mayAct fn
      (tbTenant b.desc) = true ∧ tbKv b.desc = false ∧ fn < 32 ∧ n < 1024) ∧
    (∃ (s : State) (fn : Nat) (n : Nat) (b : GTab), Serves s ∧ s.isReady B.gth = true ∧ s.table n = some b ∧ mayAct fn
      (tbTenant b.desc) = true ∧ tbKv b.desc = true ∧ fn < 32) ∧
    (∃ (s : State) (fn : Nat) (n : Nat) (b : GTab), Serves s ∧ s.isReady B.gth = true ∧ s.table n = some b ∧ mayAct fn
      (tbTenant b.desc) = true ∧ s.gth.reqs = Map.empty ∧ s.gth.updates = Map.empty ∧ fn < 32 ∧ n < 1024) ∧
    (∃ (s : State) (fn : Nat) (n : Nat) (b : GTab) (k : Key) (q : GReq), Serves s ∧ s.isReady B.gth = true ∧ s.table n =
      some b ∧ mayAct fn (tbTenant b.desc) = true ∧ s.gth.reqs.get? k = some q ∧ q.slot = n ∧ fn < 32) ∧
    (∃ (s : State), Serves s ∧ s.gth.decayAt + 1024 * 2 ^ s.rd R.GTH_CACHE_CFG_decay_log2 [] ≤ s.now ∧ s.gth.cache.wf =
      true) ∧
    (∃ (s : State) (m : Msg), Serves s ∧ m.ty = 0xA0 ∧ s.tableOf (rqTable m.body) = none) ∧
    (∃ (s : State) (d : Nat) (m : Msg), Serves s ∧ m.ty = 0xA0 ∧ s.gatherRefusal d false m.tenant m.body m.len = none) ∧
    (∃ (s : State) (m : Msg), Serves s ∧ m.ty = 0xA2 ∧ s.tableOf (rqTable m.body) = none) ∧
    (∃ (s : State) (d : Nat) (m : Msg), Serves s ∧ m.ty = 0xA2 ∧ s.gatherRefusal d true m.tenant m.body m.len = none) ∧
    (∃ (s : State) (d : Nat) (m : Msg), Serves s ∧ m.ty = 0xA2 ∧ s.gatherRefusal d true m.tenant m.body m.len = some .retry)
      ∧
    (∃ (s : State) (d : Nat) (id : Nat) (n : Nat) (x : Nat) (q : GReq) (b : GTab), Serves s ∧ s.gth.reqs = Map.empty.set [d,
      id] q ∧ q.works = [] ∧ s.gth.queue.get [] [d] = [id] ∧ s.table q.slot = some b ∧ b.desc = x ∧ argMin (fun k => (s.core
      k).deque.length) (s.freeCores x) = some n ∧ s.freeCores x ≠ [] ∧ q.filter = false ∧ rqFar q.req = false ∧ rqCount
      q.req = 1 ∧ bitsOf q.req 256 32 < tbRows x ∧ s.rewriting d q.slot (bitsOf q.req 256 32) = false) ∧
    (∃ (s : State) (d : Nat) (id : Nat) (x : Nat) (p : List Nat) (r : List Nat) (q : GReq) (b : GTab) (w : GWork), Serves s
      ∧ s.gth.reqs.get? [d, id] = some q ∧ s.table q.slot = some b ∧ b.desc = x ∧ q.filter = false ∧ q.works = [w] ∧
      w.pushed = true ∧ w.todo = [p, r] ∧ r ≠ [] ∧ (s.core w.core).counter (tbCtr x) = (1, .ok) ∧ s.clusterUp (w.core / 8) =
      true) ∧
    (∃ (s : State) (d : Nat) (id : Nat) (x : Nat) (p : List Nat) (q : GReq) (b : GTab) (w : GWork), Serves s ∧
      s.gth.reqs.get? [d, id] = some q ∧ s.table q.slot = some b ∧ b.desc = x ∧ q.filter = false ∧ q.works = [w] ∧ w.pushed
      = true ∧ w.todo = [p] ∧ (s.core w.core).counter (tbCtr x) = (1, .ok)) ∧
    (∃ (s : State) (d : Nat) (id : Nat) (q : GReq) (b : GTab) (w : GWork), Serves s ∧ s.gth.reqs.get? [d, id] = some q ∧
      s.table q.slot = some b ∧ q.works = [w] ∧ w.pushed = true ∧ w.since + 1000 * tbLimit b.desc ≤ s.now) ∧
    (∃ (s : State) (d : Nat) (id : Nat) (q : GReq) (b : GTab) (w : GWork), Serves s ∧ s.gth.reqs.get? [d, id] = some q ∧
      s.table q.slot = some b ∧ q.works = [w] ∧ s.now < w.since + 1000 * tbLimit b.desc) ∧
    (∃ (s : State) (m : Msg), Serves s ∧ m.ty = 0xA1 ∧ s.tableOf (m.f 0 0 32) = none) ∧
    (∃ (s : State) (d : Nat) (m : Msg) (n : Nat) (b : GTab), Serves s ∧ m.ty = 0xA1 ∧ s.tableOf (m.f 0 0 32) = some (n, b) ∧
      tbKv b.desc = false ∧ tbDie b.desc = d ∧ updateShape b.desc m = true ∧ tbTenant b.desc = m.tenant ∧ s.gth.updates.get
      [] [d] = [] ∧ m.f 32 0 32 < tbRows b.desc) ∧
    (∃ (s : State) (m : Msg) (die : Nat) (i : Nat) (n : Nat) (h : Nat) (set : Nat) (e : Issued), Serves s ∧ m.ty = 0xAC ∧ 16
      < m.len ∧ s.entryOf m.rtag = some (die, i, e) ∧ e.purpose = .lookup n h set ∧ e.got = [] ∧ m.f 12 0 16 + (m.len - 16)
      ≤ m.f 4 0 13 * tyBytes (m.f 4 13 4) ∧ m.len - 16 < m.f 4 0 13 * tyBytes (m.f 4 13 4)) :=
  ⟨⟨stagedTable, 0, 0, embedL, by decide +kernel⟩,
   ⟨allReady, 0, 0, by decide +kernel⟩,
   ⟨gatherer, 0, 0, { desc := embedT, gen := 0 }, by decide +kernel⟩,
   ⟨{ allReady with gth := { tables := Map.empty.set [0] { desc := 1 <<< 32, gen := 0 } } }, 0, 0,
      { desc := 1 <<< 32, gen := 0 }, by decide +kernel⟩,
   ⟨gatherer, 0, 0, { desc := embedT, gen := 0 }, by decide +kernel⟩,
   ⟨lookingUp lookR, 0, 0, { desc := embedT, gen := 0 }, [0, 3], lookupR lookR, by decide +kernel⟩,
   ⟨{ gatherer with now := 2000000 }, by decide +kernel⟩,
   ⟨allReady, { ty := 0xA0, len := 32 }, by decide +kernel⟩,
   ⟨gatherer, 0, { ty := 0xA0, len := 40, body := lookupQ }, by decide +kernel⟩,
   ⟨allReady, { ty := 0xA2, len := 32 }, by decide +kernel⟩,
   ⟨{ gatherer with gth := { tables := Map.empty.set [0] { desc := filterT, gen := 0 } } }, 0,
      { ty := 0xA2, len := 40, body := filterQ }, by decide +kernel⟩,
   ⟨{ gatherer.wr R.CMP_CLUSTER_STATUS_state [0] 3 with gth := { tables := Map.empty.set [0] { desc := filterT, gen := 0 } } },
      0, { ty := 0xA2, len := 40, body := filterQ }, by decide +kernel⟩,
   ⟨{ lookingUp { lookR with req := lookupOne } with gth := { (lookingUp { lookR with req := lookupOne }).gth with queue := Map.empty.set [0] [3] } },
      0, 3, 0, embedT, lookupR { lookR with req := lookupOne }, { desc := embedT, gen := 0 }, by decide +kernel⟩,
   ⟨lookingUp { lookR with works := [{ core := 0, todo := [[0], [1]], pushed := true }] }, 0, 3, embedT, [0], [1], lookupR
      { lookR with works := [{ core := 0, todo := [[0], [1]], pushed := true }] }, { desc := embedT, gen := 0 },
      { core := 0, todo := [[0], [1]], pushed := true }, by decide +kernel⟩,
   ⟨lookingUp { lookR with works := [{ core := 0, todo := [[0]], pushed := true }] }, 0, 3, embedT, [0], lookupR
      { lookR with works := [{ core := 0, todo := [[0]], pushed := true }] }, { desc := embedT, gen := 0 },
      { core := 0, todo := [[0]], pushed := true }, by decide +kernel⟩,
   ⟨{ lookingUp { lookR with works := [{ core := 0, todo := [[0]], pushed := true }] } with now := 200000000 }, 0, 3,
      lookupR { lookR with works := [{ core := 0, todo := [[0]], pushed := true }] }, { desc := embedT, gen := 0 },
      { core := 0, todo := [[0]], pushed := true }, by decide +kernel⟩,
   ⟨lookingUp { lookR with works := [{ core := 0, todo := [[0]], pushed := true, since := 1000000 }] }, 0, 3, lookupR
      { lookR with works := [{ core := 0, todo := [[0]], pushed := true, since := 1000000 }] },
      { desc := embedT, gen := 0 }, { core := 0, todo := [[0]], pushed := true, since := 1000000 }, by decide +kernel⟩,
   ⟨allReady, { ty := 0xA1, len := 48 }, by decide +kernel⟩,
   ⟨gatherer, 0, { ty := 0xA1, len := 48, body := 1 <<< 64 }, 0, { desc := embedT, gen := 0 }, by decide +kernel⟩,
   ⟨issuedOne (.lookup 0 2 1) {},
      { ty := 0xAC, len := 20, body := layout [(0, 0, 32, 0x500000), (4, 0, 13, 32), (4, 13, 4, 3)] }, 0, 0, 0, 2, 1,
      { gen := 5, msg := {}, issuer := .core 0, purpose := .lookup 0 2 1, since := 0 }, by decide +kernel⟩⟩

theorem witness_Resets :
    (∃ (s : State) (c : Nat), Runs s ∧ c = 1 ∧ s.rd R.PWR_THERMAL_STATUS_tripped [] < 2) ∧
    (∃ (s : State) (c : Nat), Runs s ∧ c = 0) ∧
    (∃ (s : State) (k : Nat), Runs s ∧ k = 0xA5) ∧
    (∃ (s : State) (k : Nat), Runs s ∧ k ≠ 0xA5) ∧
    (∃ (s : State), Runs s) ∧
    (∃ (s : State), Runs s ∧ s.on R.GLB_CFG_perst_part [] = true) ∧
    (∃ (s : State), Runs s ∧ s.on R.GLB_CFG_perst_part [] = false) ∧
    (∃ (s : State), Runs s) ∧
    (∃ (s : State) (f : Nat), Runs s ∧ 0 < f ∧ f < 32) ∧
    (∃ (s : State), Runs s) ∧
    (∃ (s : State), Runs s) :=
  ⟨⟨tiered none, 1, by decide +kernel⟩,
   ⟨tiered none, 0, by decide +kernel⟩,
   ⟨tiered none, 165, by decide +kernel⟩,
   ⟨tiered none, 1, by decide +kernel⟩,
   ⟨tiered none, by decide +kernel⟩,
   ⟨allReady.wr R.GLB_CFG_perst_part [] 1, by decide +kernel⟩,
   ⟨(inSession 5).wr R.GLB_CFG_perst_part [] 0, by decide +kernel⟩,
   ⟨inSession 5, by decide +kernel⟩,
   ⟨inSession 5, 5, by decide +kernel⟩,
   ⟨allReady, by decide +kernel⟩,
   ⟨allReady, by decide +kernel⟩⟩

theorem witness_BootAndFirmware :
    (∃ (s : State), s.stopped = false ∧ s.rd R.SEC_BOOT_STATUS_stage [] = 0) ∧
    (∃ (s : State), s.stopped = false ∧ s.rd R.SEC_BOOT_STATUS_stage [] ≠ 0) ∧
    (∃ (s : State), s.stopped = false ∧ s.firmware = true ∧ s.on R.SEC_BOOT_STATUS_config_ok [] = true ∧ s.isReady B.pol =
      false ∧ (List.range 20).all (fun u => decide (s.rd R.MEM_STACK_STATUS_state [u] ≠ 4)) = true ∧ (List.range 8).all (fun
      c => decide (s.rd R.BRD_CH_STATUS_slots [c] = 0)) = true ∧ s.ext s.node 0 = {}) ∧
    (∃ (s : State), s.stopped = false ∧ s.pkg.expelled = false ∧ s.hif.mbox.has [0] = false ∧ s.inRecovery = true ∧
      s.sec.restarted = none) ∧
    (∃ (s : State), Mails s 0 ∧ s.fwBusy = false) ∧
    (∃ (s : State) (fn : Nat), Mails s fn ∧ fn ≠ 0) ∧
    (∃ (s : State), Mails s 0 ∧ s.on R.SEC_FW_STATUS_staged_ok [] = true ∧ s.fwBusy = false) ∧
    (∃ (s : State), s.stopped = false ∧ s.on R.SEC_FW_STATUS_handover_pending [] = true ∧ s.sec.restarted = none ∧ ahead
      (s.rd R.SEC_FW_BEAT_beat []) s.beat = false) ∧
    (∃ (s : State) (x : Nat × Nat × Nat), s.stopped = false ∧ s.sec.restarted = some x ∧ s.hif.waiting = [] ∧ s.ras.later =
      [] ∧ s.ras.objects = Map.empty) ∧
    (∃ (s : State) (x : Nat) (y : Nat) (v : Nat), s.stopped = false ∧ s.sec.restarted = some (x, y, v) ∧ x + 10000000 ≤
      s.now ∧ s.hif.waiting = [] ∧ s.ras.later = [] ∧ s.ras.objects = Map.empty ∧ v < 2 ^ 32) ∧
    (∃ (s : State) (x : Nat) (y : Nat) (v : Nat), s.sec.restarted = some (x, y, v) ∧ s.now < x + 10000000) ∧
    (∃ (s : State) (b : List Byte), Mails s 0 ∧ b.length ≤ 2 ^ 20) ∧
    (∃ (s : State) (b : List Byte), Mails s 0 ∧ b.length ≤ 65536) ∧
    (∃ (s : State), Mails s 0 ∧ s.pkg.frozen = false) ∧
    (∃ (s : State) (fn : Nat) (k : Nat) (i : Nat) (b : List Byte), Mails s fn ∧ mayAct fn k = true ∧ s.tenantActive k = true
      ∧ s.isReady B.cmp = true ∧ s.storeReady = true ∧ s.images.has [k, i] = false ∧ s.loadedBytes k + (b.length - 64) ≤
      262144) ∧
    (∃ (s : State) (fn : Nat) (k : Nat) (i : Nat), Mails s fn ∧ mayAct fn k = true ∧ s.isReady B.cmp = true ∧ s.imageUsed k
      i = false) ∧
    (∃ (s : State) (fn : Nat) (k : Nat) (i : Nat), Mails s fn ∧ mayAct fn k = true ∧ s.isReady B.cmp = true ∧ s.imageUsed k
      i = true) :=
  ⟨⟨State.reset, by decide +kernel⟩,
   ⟨running2, by decide +kernel⟩,
   ⟨bringing, by decide +kernel⟩,
   ⟨recovering, by decide +kernel⟩,
   ⟨running2, by decide +kernel⟩,
   ⟨running2, 3, by decide +kernel⟩,
   ⟨running2.wr R.SEC_FW_STATUS_staged_ok [] 1, by decide +kernel⟩,
   ⟨running2.wr R.SEC_FW_STATUS_handover_pending [] 1, by decide +kernel⟩,
   ⟨{ running2 with sec := { restarted := some (0, 4, 5) } }, (0, 4, 5), by decide +kernel⟩,
   ⟨{ running2 with sec := { restarted := some (0, 4, 5) }, now := 10000000 }, 0, 4, 5, by decide +kernel⟩,
   ⟨{ running2 with sec := { restarted := some (0, 4, 5) }, now := 9999999 }, 0, 4, 5, by decide +kernel⟩,
   ⟨running2, [1, 2], by decide +kernel⟩,
   ⟨running2, [1, 2], by decide +kernel⟩,
   ⟨running2, by decide +kernel⟩,
   ⟨storing, 0, 0, 1, [1], by decide +kernel⟩,
   ⟨storing, 0, 0, 1, by decide +kernel⟩,
   ⟨{ storing with cores := Map.empty.set [0] { task := some (1 <<< 32) } }, 0, 0, 1, by decide +kernel⟩⟩

theorem witness_EvidenceAndSessions :
    (∃ (s : State) (fn : Nat) (n : Nat), s.stopped = false ∧ s.evidenceRefusal fn none n false = .ok) ∧
    (∃ (s : State) (fn : Nat), s.stopped = false ∧ s.evidenceRefusal fn none fn true = .ok ∧ s.rd R.SEC_SESSION_state [fn] =
      0) ∧
    (∃ (s : State) (fn : Nat) (n : Nat) (k : Bool) (st : Status), s.stopped = false ∧ s.evidenceRefusal fn none n k = st ∧
      st ≠ .ok) ∧
    (∃ (s : State) (q : EvReq) (l : List EvReq), s.stopped = false ∧ s.sec.evidence = q :: l ∧ q.via = none) ∧
    (∃ (s : State) (fn : Nat) (k : Dk), s.stopped = false ∧ s.sec.dks.get? [fn] = some k ∧ s.bar4 fn 0x10 1 = s.bar4 fn 0x18
      1 ∧ (s.bnc fn).recs = []) ∧
    (∃ (s : State) (fn : Nat), s.stopped = false ∧ s.sec.dks.get? [fn] = none) ∧
    (∃ (s : State) (fn : Nat) (k : Dk), s.stopped = false ∧ s.sec.dks.get? [fn] = some k ∧ k.since + 1000000000 ≤ s.now ∧
      s.rd R.SEC_SESSION_state [fn] = 1) ∧
    (∃ (s : State) (fn : Nat) (k : Dk), s.sec.dks.get? [fn] = some k ∧ s.now < k.since + 1000000000) :=
  ⟨⟨identified, 3, 3, by decide +kernel⟩,
   ⟨identified, 3, by decide +kernel⟩,
   ⟨identified, 3, 4, false, .protViolation, by decide +kernel⟩,
   ⟨{ identified with sec := { evidence := [{ fn := 3, scope := 3, nonce := 7 }] } }, { fn := 3, scope := 3, nonce := 7 },
      [], by decide +kernel⟩,
   ⟨{ identified with sec := { dks := Map.empty.set [3] { kem := 4, nonce := 5, since := 6 } } }, 3,
      { kem := 4, nonce := 5, since := 6 }, by decide +kernel⟩,
   ⟨identified, 3, by decide +kernel⟩,
   ⟨{ identified.wr R.SEC_SESSION_state [3] 1 with now := 2000000000, sec := { dks := Map.empty.set [3] { kem := 4, nonce := 5, since := 6 } } },
      3, { kem := 4, nonce := 5, since := 6 }, by decide +kernel⟩,
   ⟨{ identified with sec := { dks := Map.empty.set [3] { kem := 4, nonce := 5, since := 6 } } }, 3,
      { kem := 4, nonce := 5, since := 6 }, by decide +kernel⟩⟩

theorem witness_TenantsAndIsolation :
    (∃ (s : State) (k : Nat), Serves s ∧ s.pkg.expelled = false ∧ s.isReady B.sec = true ∧ 0 < k ∧ k < 32 ∧ s.rd
      R.SEC_TENANT_state [k] = 0) ∧
    (∃ (s : State) (k : Nat), Serves s ∧ s.pkg.expelled = false ∧ s.isReady B.sec = true ∧ 0 < k ∧ k < 32 ∧ s.rd
      R.SEC_TENANT_state [k] ≠ 0) ∧
    (∃ (s : State) (k : Nat), Serves s ∧ s.pkg.expelled = false ∧ s.isReady B.sec = true ∧ 0 < k ∧ k < 32 ∧ s.rd
      R.SEC_TENANT_state [k] = 1) ∧
    (∃ (s : State) (k : Nat), Serves s ∧ s.pkg.expelled = false ∧ s.isReady B.sec = true ∧ (k = 0 ∨ 32 ≤ k)) ∧
    (∃ (s : State) (k : Nat), Serves s ∧ s.pkg.expelled = false ∧ s.isReady B.sec = true ∧ k < 32 ∧ s.tenantState k = 1 ∧
      s.tagSlots k = 0) ∧
    (∃ (s : State) (k : Nat), Serves s ∧ s.pkg.expelled = false ∧ s.isReady B.sec = true ∧ k < 32 ∧ s.tagSlots k ≠ 0) ∧
    (∃ (s : State) (k : Nat), Serves s ∧ 0 < k ∧ s.rd R.SEC_TENANT_state [k] = 2 ∧ s.objects k = 0) ∧
    (∃ (s : State) (k : Nat), Serves s ∧ s.objects k ≠ 0) ∧
    (∃ (s : State) (v : Nat), Serves s ∧ s.on R.SEC_LOCK_lock [] = false ∧ (bitsOf v 0 1 = 0 ∨ (s.on R.COH_CFG_enable [0] =
      false ∧ s.on R.COH_CFG_enable [1] = false))) ∧
    (∃ (s : State), Serves s ∧ s.on R.SEC_LOCK_lock [] = true) ∧
    (∃ (s : State) (b : Nat), Serves s ∧ s.sec.isoBeat = some b ∧ ahead b s.beat = false ∧ s.rd R.SEC_ISO_strict [] < 2) ∧
    (∃ (s : State) (b : Nat), Serves s ∧ s.sec.isoBeat = some b ∧ ahead b s.beat = true) :=
  ⟨⟨allReady, 3, by decide +kernel⟩,
   ⟨allReady.wr R.SEC_TENANT_state [3] 2, 3, by decide +kernel⟩,
   ⟨allReady.wr R.SEC_TENANT_state [3] 1, 3, by decide +kernel⟩,
   ⟨allReady, 0, by decide +kernel⟩,
   ⟨allReady.wr R.SEC_TENANT_state [3] 1, 3, by decide +kernel⟩,
   ⟨{ allReady.wr R.SEC_TENANT_state [3] 1 with tier := { tags := Map.empty.set [0, 4] 3 } }, 3, by decide +kernel⟩,
   ⟨{ allReady.wr R.SEC_TENANT_state [3] 2 with sec := { keys := Map.empty.set [3] 8 } }, 3, by decide +kernel⟩,
   ⟨{ allReady.wr R.SEC_TENANT_state [3] 2 with images := Map.empty.set [3, 1] { code := [], digest := 0 } }, 3,
      by decide +kernel⟩,
   ⟨(allReady.wr R.COH_CFG_enable [0] 0).wr R.COH_CFG_enable [1] 0, 1, by decide +kernel⟩,
   ⟨allReady.wr R.SEC_LOCK_lock [] 1, by decide +kernel⟩,
   ⟨{ allReady.wr R.SEC_ISO_strict [] 1 with sec := { isoBeat := some 0 } }, 0, by decide +kernel⟩,
   ⟨{ allReady.wr R.SEC_ISO_strict [] 1 with sec := { isoBeat := some 5 } }, 5, by decide +kernel⟩⟩

theorem witness_HostWindows :
    (∃ (s : State) (fn : Nat), Serves s ∧ fn < 32) ∧
    (∃ (s : State) (fn : Nat), Serves s ∧ fn < 32) ∧
    (∃ (s : State) (fn : Nat) (b : List Byte), Serves s ∧ s.rd R.SEC_SESSION_state [fn] = 2 ∧ 32 ≤ b.length ∧ 32 ≤ s.bar4 fn
      0x10 1 - s.bar4 fn 0x18 1 ∧ s.outBlocked fn = false ∧ fieldOf (natOfBytes (b.take 32)) 0 0 64 = padSeq) ∧
    (∃ (s : State) (fn : Nat) (b : List Byte) (n : Nat), Serves s ∧ s.rd R.SEC_SESSION_state [fn] = 2 ∧ s.outBlocked fn =
      false ∧ fieldOf (natOfBytes (b.take 32)) 0 0 64 ≠ padSeq ∧ recSize (recData (natOfBytes (b.take 32))) = n ∧ n ≤
      b.length ∧ n ≤ s.bar4 fn 0x10 1 - s.bar4 fn 0x18 1) ∧
    (∃ (s : State) (fn : Nat) (q : BRec) (l : List BRec), Serves s ∧ (s.bnc fn).recs = q :: l ∧ q.left = 0 ∧ s.rd
      R.SEC_SESSION_state [fn] = 2 ∧ s.outBlocked fn = false ∧ s.rd R.SEC_SESSION_seq_out [fn] < 2 ^ 32) ∧
    (∃ (s : State) (fn : Nat) (q : BRec) (l : List BRec), Serves s ∧ (s.bnc fn).recs = q :: l ∧ q.left ≠ 0) ∧
    (∃ (s : State) (fn : Nat) (off : Nat), Serves s ∧ s.aperture fn off = none) ∧
    (∃ (s : State) (fn : Nat) (off : Nat) (n : Nat) (a : Nat), Serves s ∧ s.aperture fn off = some a ∧ s.hif.bar2.get []
      [fn] = [] ∧ 0 < n) ∧
    (∃ (s : State) (fn : Nat) (off : Nat), Serves s ∧ s.aperture fn off = none ∧ ∀ x ∈ s.hif.bar2.get [] [fn], x.id ≠
      s.hif.nextBar2) ∧
    (∃ (s : State) (fn : Nat) (off : Nat) (a : Nat) (b : List Byte), Serves s ∧ s.aperture fn off = some a ∧ s.hif.bar2.get
      [] [fn] = [] ∧ 0 < b.length) ∧
    (∃ (s : State) (fn : Nat) (v : Nat), Serves s ∧ fn < 32 ∧ v < 64 ∧ s.hif.msixPending.has [fn, v] = true) ∧
    (∃ (s : State) (fn : Nat) (v : Nat), Serves s ∧ fn < 32 ∧ v < 64 ∧ s.hif.msixPending.has [fn, v] = false) :=
  ⟨⟨inSession 5, 5, by decide +kernel⟩,
   ⟨inSession 5, 5, by decide +kernel⟩,
   ⟨inSession 5, 5, List.replicate 32 255, by decide +kernel⟩,
   ⟨inSession 5, 5, List.replicate 64 0, 64, by decide +kernel⟩,
   ⟨{ inSession 5 with sec := { bounce := Map.empty.set [5] { recs := [{ id := 0, head := 0 }] } } }, 5,
      { id := 0, head := 0 }, [], by decide +kernel⟩,
   ⟨{ inSession 5 with sec := { bounce := Map.empty.set [5] { recs := [{ id := 0, head := 0, left := 1 }] } } }, 5,
      { id := 0, head := 0, left := 1 }, [], by decide +kernel⟩,
   ⟨allReady, 5, 64, by decide +kernel⟩,
   ⟨windowed, 5, 64, 8, 64, by decide +kernel⟩,
   ⟨allReady, 5, 64, by decide +kernel⟩,
   ⟨windowed, 5, 64, 64, [1, 2], by decide +kernel⟩,
   ⟨{ allReady with hif := { msixPending := Map.empty.set [5, 2] () } }, 5, 2, by decide +kernel⟩,
   ⟨allReady, 5, 2, by decide +kernel⟩⟩

theorem witness_MailboxAndRest :
    (∃ (s : State) (fn : Nat) (q : Nat), Runs s ∧ Mails s fn ∧ s.resting = false ∧ q % 65536 ≠ s.rd R.MRN_REPLY_HDR_seq [fn]
      ∧ fieldOf (natOfBytes (s.mailBytes fn 32)) 0 16 16 ≠ 0) ∧
    (∃ (s : State) (q : Nat) (x : List Byte), Runs s ∧ Mails s 0 ∧ s.resting = false ∧ q % 65536 ≠ s.rd R.MRN_REPLY_HDR_seq
      [0] ∧ natOfBytes (s.mailBytes 0 32) = 0x0012 ∧ s.isManager = true ∧ s.ras.fetch.head? = some x ∧ x.length < 4096) ∧
    (∃ (s : State) (fn : Nat), Runs s ∧ fn < 32 ∧ s.resting = false ∧ s.hif.mbox.has [fn] = true) ∧
    (∃ (s : State) (x : List Byte), Runs s ∧ Mails s 0 ∧ s.isManager = true ∧ s.ras.fetch.head? = some x ∧ x.length < 4096)
      ∧
    (∃ (s : State) (e : Nat) (k : Byte), Runs s ∧ Mails s 0 ∧ s.isManager = true ∧ e = s.eid ∧ e < 2 ^ 16 ∧ s.isReady B.sec
      = true ∧ k ≠ 0 ∧ k.toNat < 32 ∧ s.rd R.SEC_TENANT_state [k.toNat] = 1) ∧
    (∃ (s : State) (e : Nat) (w : Worker), Runs s ∧ Mails s 0 ∧ s.isManager = true ∧ e ≠ s.eid ∧ e < 2 ^ 16 ∧
      s.ras.workers.get {} [e] = w ∧ w.lost = false ∧ w.out.length < 64) ∧
    (∃ (s : State), Runs s ∧ Mails s 0 ∧ s.isManager = true) ∧
    (∃ (s : State) (v : Nat), Runs s ∧ bitAt v 0 = true ∧ bitAt v 2 = false ∧ s.rd R.PWR_REST_STATUS_state [] = 0 ∧
      s.isReady B.pwr = true ∧ s.noLaunch = false) ∧
    (∃ (s : State) (v : Nat), Runs s ∧ bitAt v 0 = true ∧ bitAt v 2 = false ∧ s.rd R.PWR_REST_STATUS_state [] = 0 ∧
      s.noLaunch = true) ∧
    (∃ (s : State) (b : Nat), Runs s ∧ s.pkg.restAt = some b ∧ s.pkg.fatal = false ∧ ahead b s.beat = false ∧ s.noLaunch =
      false ∧ s.mayRest = true) ∧
    (∃ (s : State) (b : Nat), Runs s ∧ s.pkg.restAt = some b ∧ s.pkg.fatal = false ∧ ahead b s.beat = false ∧ s.mayRest =
      false) ∧
    (∃ (s : State) (c : Nat), Runs s ∧ s.resting = true ∧ (c = 1 ∨ c = 2) ∧ (List.range 256).all (fun p => !s.on
      R.PRT_PORT_CTL_enable [p]) = true) ∧
    (∃ (s : State), Runs s ∧ s.resting = false) ∧
    (∃ (s : State), Runs s ∧ s.resting = true ∧ (List.range 256).all (fun p => !s.on R.PRT_PORT_CTL_enable [p]) = true) ∧
    (∃ (s : State), Runs s ∧ s.rd R.PWR_REST_STATUS_state [] = 3 ∧ s.listed R.POL_LEASE_valid = []) :=
  ⟨⟨running2.wr R.MRN_REQ_word [5, 0] 0x10000, 5, 1, by decide +kernel⟩,
   ⟨{ managing.wr R.MRN_REQ_word [0, 0] 0x12 with ras := { fetch := [[1, 2]] } }, 1, [1, 2], by decide +kernel⟩,
   ⟨{ running2 with hif := { mbox := Map.empty.set [5] { seq := 1, op := 1, operands := [], bulk := [] } } }, 5,
      by decide +kernel⟩,
   ⟨{ managing with ras := { fetch := [[1, 2]] } }, [1, 2], by decide +kernel⟩,
   ⟨managing.wr R.SEC_TENANT_state [3] 1, managing.eid, 3, by decide +kernel⟩,
   ⟨managing, 77, {}, by decide +kernel⟩,
   ⟨managing, by decide +kernel⟩,
   ⟨allReady.wr R.TIM_STATUS_state [] 2, 3, by decide +kernel⟩,
   ⟨allReady, 1, by decide +kernel⟩,
   ⟨{ (quiet.wr R.PWR_REST_STATUS_state [] 1).wr R.TIM_STATUS_state [] 2 with pkg := { restAt := some 0 } }, 0,
      by decide +kernel⟩,
   ⟨{ (quiet.wr R.PWR_REST_STATUS_state [] 1).wr R.BRD_CH_STATUS_state [2] 3 with pkg := { restAt := some 0 } }, 0,
      by decide +kernel⟩,
   ⟨allReady.wr R.PWR_REST_STATUS_state [] 2, 1, by decide +kernel⟩,
   ⟨allReady, by decide +kernel⟩,
   ⟨allReady.wr R.PWR_REST_STATUS_state [] 2, by decide +kernel⟩,
   ⟨allReady.wr R.PWR_REST_STATUS_state [] 3, by decide +kernel⟩⟩

theorem witness_ManagerAndWorkers :
    (∃ (s : State) (m : Msg) (q : Nat) (k : Byte), Managed s ∧ m.ty = 0xB0 ∧ s.firmware = true ∧ s.sec.restarted = none ∧
      s.isManager = false ∧ m.src = s.managerEid ∧ m.f 0 0 32 = q ∧ q = s.ras.expected ∧ m.f 4 0 16 = 0x0502 ∧ m.bytes 16
      (m.len - 16) = withLength [k] ∧ s.ras.held = [] ∧ s.isReady B.sec = true ∧ k ≠ 0 ∧ k.toNat < 32 ∧ s.rd
      R.SEC_TENANT_state [k.toNat] = 1) ∧
    (∃ (s : State) (m : Msg) (q : Nat), Managed s ∧ m.ty = 0xB0 ∧ s.isManager = false ∧ m.src = s.managerEid ∧ m.f 0 0 32 =
      q ∧ 0 < dist 32 q s.ras.expected ∧ dist 32 q s.ras.expected < 64 ∧ s.ras.held = []) ∧
    (∃ (s : State) (m : Msg), Managed s ∧ m.ty = 0xB0 ∧ (s.isManager = true ∨ m.src ≠ s.managerEid)) ∧
    (∃ (s : State) (m : Msg) (w : Worker), Managed s ∧ m.ty = 0xB1 ∧ s.isManager = true ∧ s.ras.workers.get? [m.src] = some
      w ∧ w.wait = [] ∧ w.out.any (fun u => decide (u.upd.seq = m.f 0 0 32)) = true ∧ s.hif.mbox = Map.empty) ∧
    (∃ (s : State) (e : Nat) (q : Nat) (w : Worker) (u : SentUpd), Managed s ∧ s.ras.workers.get? [e] = some w ∧ w.out = [u]
      ∧ u.upd.seq = q ∧ u.sentAt + 1000000 ≤ s.now ∧ u.sends < 16) ∧
    (∃ (s : State) (e : Nat) (q : Nat) (w : Worker) (u : SentUpd), Managed s ∧ s.ras.workers.get? [e] = some w ∧ w.out = [u]
      ∧ u.upd.seq = q ∧ u.sentAt + 1000000 ≤ s.now ∧ 16 ≤ u.sends ∧ s.hif.mbox = Map.empty) ∧
    (∃ (s : State) (m : Msg), Managed s ∧ m.ty = 0xB2 ∧ s.isManager = true) ∧
    (∃ (s : State) (m : Msg), Managed s ∧ m.ty = 0xB3 ∧ s.isManager = false ∧ m.src = s.managerEid) ∧
    (∃ (s : State) (q : Nat) (p : Report), Managed s ∧ s.ras.reports = [p] ∧ p.seq = q ∧ p.sentAt + 1000000 ≤ s.now) ∧
    (∃ (s : State) (p : Report), Managed s ∧ s.ras.reports = [p] ∧ s.now < p.sentAt + 1000000) ∧
    (∃ (s : State) (m : Msg) (x : Transfer), Managed s ∧ m.ty = 0xB6 ∧ s.isManager = false ∧ m.src = s.managerEid ∧
      s.inRecovery = false ∧ s.ras.objects.get? [m.src, m.f 0 0 32] = some x ∧ (x.add (m.f 12 0 32) (m.bytes 16 (m.len -
      16))).whole = false) ∧
    (∃ (s : State) (m : Msg) (w : Worker), Managed s ∧ m.ty = 0xB7 ∧ s.ras.workers.get? [m.src] = some w) ∧
    (∃ (s : State) (m : Msg), Managed s ∧ m.ty = 0xB8 ∧ s.isManager = false ∧ m.src = s.managerEid ∧ s.evidenceRefusal 0
      (some (m.src, m.f 0 0 32)) (m.f 16 0 8) (m.f 16 8 1 = 1) = .ok ∧ m.f 16 8 1 = 0) ∧
    (∃ (s : State) (m : Msg), Managed s ∧ m.ty = 0xB9 ∧ s.isManager = true ∧ s.ras.evidence = Map.empty ∧ (({ op := 0 } :
      Transfer).add (m.f 12 0 32) (m.bytes 16 (m.len - 16))).whole = false) ∧
    (∃ (s : State) (m : Msg), Managed s ∧ m.ty = 0xB5 ∧ s.isManager = true) ∧
    (∃ (s : State), Managed s ∧ s.firmware = true) ∧
    (∃ (s : State) (x : Expel) (l : List Expel), Managed s ∧ s.sec.due = x :: l ∧ ahead x.beat s.beat = false ∧ x.apold =
      true ∧ x.target = s.eid ∧ s.trk.flowWait = [] ∧ x.newManager = 0xFFFF ∧ x.promote = 0xFFFF) ∧
    (∃ (s : State) (x : Expel) (l : List Expel), Managed s ∧ s.sec.due = x :: l ∧ ahead x.beat s.beat = false ∧ x.apold =
      true ∧ x.target ≠ s.eid ∧ (List.range 256).all (fun p => decide (s.partnerEid p ≠ x.target)) = true ∧ x.newManager <
      0xFFFF ∧ x.promote = 0xFFFF) ∧
    (∃ (s : State) (x : Expel) (l : List Expel), Managed s ∧ s.sec.due = x :: l ∧ ahead x.beat s.beat = true) :=
  ⟨⟨working.wr R.SEC_TENANT_state [3] 1, { ty := 0xB0, src := 9, len := 25, body := 0x502 <<< 32 + 9 <<< 128 + 3 <<< 192 },
      0, 3, by decide +kernel⟩,
   ⟨working, { ty := 0xB0, src := 9, len := 25, body := 3 }, 3, by decide +kernel⟩,
   ⟨working, { ty := 0xB0, src := 8, len := 25 }, by decide +kernel⟩,
   ⟨relaying 1 0, { ty := 0xB1, src := 77, len := 16 }, workW 1 0, by decide +kernel⟩,
   ⟨{ relaying 3 0 with now := 2000000 }, 77, 0, workW 3 0, sentU 3 0, by decide +kernel⟩,
   ⟨{ relaying 16 0 with now := 2000000 }, 77, 0, workW 16 0, sentU 16 0, by decide +kernel⟩,
   ⟨managing, { ty := 0xB2, src := 77, len := 16 }, by decide +kernel⟩,
   ⟨{ working with ras := { reports := [{ seq := 0, code := 1, status := .ok, operands := [], sentAt := 0 }] } },
      { ty := 0xB3, src := 9, len := 16 }, by decide +kernel⟩,
   ⟨{ working with now := 2000000, ras := { reports := [{ seq := 0, code := 1, status := .ok, operands := [], sentAt := 0 }] } },
      0, { seq := 0, code := 1, status := .ok, operands := [], sentAt := 0 }, by decide +kernel⟩,
   ⟨{ working with ras := { reports := [{ seq := 0, code := 1, status := .ok, operands := [], sentAt := 0 }] } },
      { seq := 0, code := 1, status := .ok, operands := [], sentAt := 0 }, by decide +kernel⟩,
   ⟨{ working with ras := { objects := Map.empty.set [9, 0] { op := 0x603 } } },
      { ty := 0xB6, src := 9, len := 24, body := 100 <<< 128 }, { op := 0x603 }, by decide +kernel⟩,
   ⟨relaying 3 0, { ty := 0xB7, src := 77, len := 16 }, workW 3 0, by decide +kernel⟩,
   ⟨working, { ty := 0xB8, src := 9, len := 52, body := 255 <<< 128 }, by decide +kernel⟩,
   ⟨managing, { ty := 0xB9, src := 77, len := 24, body := 100 <<< 128 }, by decide +kernel⟩,
   ⟨managing, { ty := 0xB5, src := 77, len := 16 }, by decide +kernel⟩,
   ⟨working, by decide +kernel⟩,
   ⟨{ working with sec := { due := [{ target := 5, apold := true, newManager := 0xFFFF, promote := 0xFFFF, beat := 0 }] } },
      { target := 5, apold := true, newManager := 0xFFFF, promote := 0xFFFF, beat := 0 }, [], by decide +kernel⟩,
   ⟨{ working with sec := { due := [{ target := 66, apold := true, newManager := 30, promote := 0xFFFF, beat := 0 }] } },
      { target := 66, apold := true, newManager := 30, promote := 0xFFFF, beat := 0 }, [], by decide +kernel⟩,
   ⟨{ working with sec := { due := [{ target := 66, apold := true, newManager := 30, promote := 0xFFFF, beat := 4 }] } },
      { target := 66, apold := true, newManager := 30, promote := 0xFFFF, beat := 4 }, [], by decide +kernel⟩⟩

theorem witness_PuppetAndService :
    (∃ (s : State) (a : Nat) (b : Nat) (tc : Nat) (f : Nat), Serves s ∧ s.pkg.expelled = false ∧ s.isReady B.ras = true ∧
      s.eid = a ∧ a ≠ b ∧ tc < 7 ∧ f ≤ 4095 ∧ b < 2 ^ 16 ∧ s.isPrimary = false ∧ s.isPuppet = false ∧ s.heldOwn = [] ∧
      s.listed R.POL_LEASE_valid = []) ∧
    (∃ (s : State) (a : Nat) (b : Nat) (tc : Nat) (f : Nat), Serves s ∧ s.pkg.expelled = false ∧ s.isReady B.ras = true ∧ (a
      = b ∨ 7 ≤ tc ∨ 4095 < f)) ∧
    (∃ (s : State), Serves s ∧ s.pkg.expelled = false ∧ s.isReady B.ras = true ∧ s.isPrimary = true ∧ s.pair.withheld = [])
      ∧
    (∃ (s : State) (d : Nat) (e : Nat) (k : Nat) (mask : Nat), Serves s ∧ s.isPrimary = true ∧ s.copyTarget d = some e ∧
      s.pair.chunks.get 0 [e] = mask ∧ (List.range 1024).find? (fun i => !bitAt mask i) = some k ∧ s.tier.moves.get? [e] =
      none) ∧
    (∃ (s : State) (m : Msg) (k : Nat), Serves s ∧ m.ty = 0xBA ∧ s.isPuppet = true ∧ m.src = s.pair.primary ∧ m.f 16 0 8 = 2
      ∧ m.f 48 0 16 = 0x0101 ∧ m.len = 62 ∧ m.f 50 0 16 = k ∧ m.f 58 0 32 ≠ 0) ∧
    (∃ (s : State) (m : Msg), Serves s ∧ m.ty = 0xBA ∧ (s.isPuppet = false ∨ m.src ≠ s.pair.primary)) ∧
    (∃ (s : State) (m : Msg) (x : Sent), Serves s ∧ m.ty = 0xBB ∧ s.isPrimary = true ∧ m.src = s.pair.puppet ∧
      s.pair.sent.get? [m.f 0 0 32] = some x ∧ Status.ofCode (m.f 4 16 4) = .ok ∧ x.extent < 2 ^ 18 ∧ s.pair.withheld = [])
      ∧
    (∃ (s : State) (m : Msg) (x : Sent) (mask : Nat), Serves s ∧ m.ty = 0xBB ∧ s.isPrimary = true ∧ m.src = s.pair.puppet ∧
      s.pair.sent.get? [m.f 0 0 32] = some x ∧ Status.ofCode (m.f 4 16 4) ≠ .ok ∧ s.pair.chunks.get? [x.extent] = some mask
      ∧ s.pair.withheld = []) ∧
    (∃ (s : State) (q : Nat) (x : Sent), Serves s ∧ s.isPrimary = true ∧ s.pair.sent = Map.empty.set [q] x ∧ 1000 * s.rd
      R.RAS_PUPPET_CFG_ack_timeout [] ≤ s.now - x.since) ∧
    (∃ (s : State), Serves s ∧ s.pkg.expelled = false ∧ s.isReady B.ras = true ∧ s.isPrimary = true ∧ s.isPuppet = false ∧
      s.pair.handoff = none ∧ s.pair.chunks = Map.empty) ∧
    (∃ (s : State) (b : Nat), Serves s ∧ s.isPrimary = true ∧ s.pair.switched = false ∧ s.pair.handoff = some b ∧ ahead b
      s.beat = true) ∧
    (∃ (s : State) (b : Nat), Serves s ∧ s.isPrimary = true ∧ s.pair.switched = false ∧ s.pair.handoff = some b ∧ ahead b
      s.beat = false ∧ s.trk.home = Map.empty ∧ s.pool.ext = Map.empty ∧ s.listed R.POL_LEASE_valid = [] ∧ s.listed
      R.POL_SHARE_valid = []) ∧
    (∃ (s : State) (k : Nat) (c : Nat) (x : Nat), Serves s ∧ k < 32 ∧ c < 2 ^ 12 ∧ x < 2 ^ 16) ∧
    (∃ (s : State) (v : Nat), Serves s ∧ s.isReady B.ras = true ∧ s.tier.passAt = none ∧ s.tier.passLeft = none ∧ bitsOf v 0
      5 < 20 ∧ bitsOf v 8 8 ≠ 0) ∧
    (∃ (s : State) (k : Nat) (b : Nat), Serves s ∧ s.tier.passAt = some b ∧ ahead b s.beat = false ∧ s.rd
      R.RAS_SCRUB_SCHED_target [] = k ∧ k < 20 ∧ s.stackRuns k = true) ∧
    (∃ (s : State) (b : Nat), Serves s ∧ s.tier.passAt = some b ∧ ahead b s.beat = true) ∧
    (∃ (s : State) (n : Nat), Serves s ∧ 20 ≤ n) ∧
    (∃ (s : State) (n : Nat), Serves s ∧ n < 5) ∧
    (∃ (s : State) (n : Nat), Serves s ∧ 5 ≤ n ∧ n < 20) :=
  ⟨⟨working, 5, 6, 2, 3, by decide +kernel⟩,
   ⟨working, 5, 5, 2, 3, by decide +kernel⟩,
   ⟨shadowing, by decide +kernel⟩,
   ⟨shadowing, 0, 0, 0, 0, by decide +kernel⟩,
   ⟨puppeting, { ty := 0xBA, src := 9, len := 62, body := layout [(16, 0, 8, 2), (48, 0, 16, 0x101), (50, 0, 16, 4), (52, 0, 16, 7), (58, 0, 32, 900)] },
      4, by decide +kernel⟩,
   ⟨working, { ty := 0xBA, src := 9, len := 62 }, by decide +kernel⟩,
   ⟨{ shadowing with pair := { shadowing.pair with sent := Map.empty.set [3] { extent := 0, since := 0 } } },
      { ty := 0xBB, src := 6, len := 16, body := 3 }, { extent := 0, since := 0 }, by decide +kernel⟩,
   ⟨{ shadowing with pair := { shadowing.pair with sent := Map.empty.set [3] { extent := 0, since := 0 } } },
      { ty := 0xBB, src := 6, len := 16, body := 3 + 6 <<< 48 }, { extent := 0, since := 0 }, 0, by decide +kernel⟩,
   ⟨{ shadowing with now := 100000000000, pair := { shadowing.pair with sent := Map.empty.set [3] { extent := 0, since := 0 } } },
      3, { extent := 0, since := 0 }, by decide +kernel⟩,
   ⟨{ shadowing with pair := { shadowing.pair with chunks := Map.empty } }, by decide +kernel⟩,
   ⟨{ shadowing with pair := { shadowing.pair with handoff := some 8 } }, 8, by decide +kernel⟩,
   ⟨{ shadowing with pool := {}, pair := { shadowing.pair with handoff := some 0, chunks := Map.empty } }, 0,
      by decide +kernel⟩,
   ⟨working, 3, 2, 1, by decide +kernel⟩,
   ⟨working, 0x500000103, by decide +kernel⟩,
   ⟨{ tiered none with tier := { (tiered none).tier with passAt := some 0 } }, 0, 0, by decide +kernel⟩,
   ⟨{ tiered none with tier := { (tiered none).tier with passAt := some 5 } }, 5, by decide +kernel⟩,
   ⟨working, 20, by decide +kernel⟩,
   ⟨working, 4, by decide +kernel⟩,
   ⟨working, 19, by decide +kernel⟩⟩

theorem witness_RegisterWrites :
    (∃ (s : State) (blk : Nat) (off : Nat) (v : Nat), Runs s ∧ s.pkg.fatal = false ∧ s.resting = false ∧ (blk = B.edg ∨ blk
      = B.pol) ∧ off < 2 ^ 22 ∧ off % 8 = 0 ∧ v < 2 ^ 64) ∧
    (∃ (s : State) (fn : Nat) (off : Nat), Runs s ∧ off < 2 ^ 28 ∧ inView fn (off / 8 * 8 / 2 ^ 22) (off / 8 * 8 % 2 ^ 22) =
      false) ∧
    (∃ (s : State) (v : Nat), Runs s ∧ s.pkg.fatal = false ∧ v % 2 ^ 64 % 256 = 0xA5) ∧
    (∃ (s : State) (fn : Nat), Runs s ∧ s.pkg.fatal = false ∧ s.resting = false ∧ fn < 32) ∧
    (∃ (s : State) (off : Nat), Runs s ∧ s.pkg.fatal = true ∧ s.resting = false ∧ off < 2 ^ 22) :=
  ⟨⟨allReady, 8, 0, 0x30000005, by decide +kernel⟩,
   ⟨allReady, 3, 0x400010, by decide +kernel⟩,
   ⟨allReady, 0xA5, by decide +kernel⟩,
   ⟨allReady, 3, by decide +kernel⟩,
   ⟨{ allReady with pkg := { fatal := true } }, 0x100, by decide +kernel⟩⟩

theorem witness_StepRunsTheFront : ({ State.reset with pending := [.freezePin 3] } : State).pending = .freezePin 3 :: [] ∧
    State.reset.pending = [] := ⟨rfl, rfl⟩

theorem witness_StepKeepsQueue : QueueOk { State.reset with pending := [.freezePin 3] } ∧
    ∃ t, step { State.reset with pending := [.freezePin 3] } = .next t := by
  refine ⟨?_, _, rfl⟩
  intro c hc
  simp only [List.mem_singleton] at hc
  subst hc
  decide

theorem witness_WithoutClocks : ({ State.reset with pkg := { frozen := true } } : State).stopped = true ∧
    actsUnclocked (.restEntry) = false := by decide +kernel

theorem witness_OutOfService : (({ State.reset with pkg := { fatal := true } } : State).pkg.fatal = true ∨
    ({ State.reset with pkg := { fatal := true } } : State).resting = true) ∧ beyondFabric (.cacheDecay) = false := by decide +kernel

theorem witness_WireRoundTrip : ({ ty := 0x11, len := 16, body := 77, tenant := 31 } : Msg).wireOk = true ∧
    ({ kind := 1, payload := 5 } : Flit).ok = true ∧ ({ seq := 3, tx := 1000 } : Cricket).ok = true := by decide +kernel

theorem witness_EscapeBlocks : bitsOf 1 0 2 = 1 ∧ (0 : Nat) ≤ 5 ∧ decodeBlock 0 0 0 1 fp32 1 = .inr [0] ∧
    bitsOf (1 + 1 <<< 34) 32 (256 * bitsFor 0) >>> (bitsFor 0 * 1) ≠ 0 := by decide +kernel

theorem witness_ZeroAndNanBlocks : bitsOf 2 0 2 = 2 ∧ bitsOf (2 + 1 <<< 16) 16 8 ≠ 0 ∧ bitsOf 2 13 3 = 0 ∧ bitsOf 2 16 8 = 0 ∧
    bitsOf 2 32 (256 * bitsFor 0) = 0 ∧ bitsOf 2 2 3 = 0 ∧ bitsOf 2 24 8 = 0 % 256 ∧ bitsOf 2 5 8 + 1 = 1 := by decide +kernel

end Sys2Proof.Tests
end

section
/-! LAWS. Reading a layout back: a field of a layout whose rows rise without overlap is the value of its row, also where
further bits stand above the layout. -/

namespace Sys2Proof

/-- Rows of a layout that rise from bit `a` without overlap and end at bit `b` at the latest. -/
def RowsWithin : Nat → List (Nat × Nat × Nat × Nat) → Nat → Prop
  | a, [], b => a ≤ b
  | a, (off, lo, w, _) :: t, b => a ≤ 8 * off + lo ∧ RowsWithin (8 * off + lo + w) t b

theorem testBit_bitsOf (x lo w i : Nat) : (bitsOf x lo w).testBit i = (decide (i < w) && x.testBit (lo + i)) := by
  simp [bitsOf, Nat.testBit_mod_two_pow, Nat.testBit_shiftRight]

theorem testBit_layout_cons (off lo w v : Nat) (t : List (Nat × Nat × Nat × Nat)) (i : Nat) :
    (layout ((off, lo, w, v) :: t)).testBit i =
      (decide (8 * off + lo ≤ i) && (decide (i - (8 * off + lo) < w) && v.testBit (i - (8 * off + lo))) ||
        (layout t).testBit i) := by
  simp [layout, Nat.testBit_or, Nat.testBit_shiftLeft, Nat.testBit_mod_two_pow]

/-- Below its first row a layout has no bit. -/
theorem testBit_layout_below {a b i : Nat} {rows : List (Nat × Nat × Nat × Nat)} (h : RowsWithin a rows b) (hi : i < a) :
    (layout rows).testBit i = false := by
  induction rows generalizing a with
  | nil => simp [layout]
  | cons r t ih =>
    obtain ⟨off, lo, w, v⟩ := r
    obtain ⟨ha, ht⟩ := h
    have hlow : ¬ 8 * off + lo ≤ i := by omega
    rw [testBit_layout_cons, ih ht (by omega)]
    simp [hlow]

theorem RowsWithin.le {a b : Nat} {rows : List (Nat × Nat × Nat × Nat)} (h : RowsWithin a rows b) : a ≤ b := by
  induction rows generalizing a with
  | nil => exact h
  | cons r t ih =>
    obtain ⟨ha, ht⟩ := h
    have := ih ht
    omega

/-- A layout fits the bits its rows lie in. -/
theorem layout_lt {a b : Nat} {rows : List (Nat × Nat × Nat × Nat)} (h : RowsWithin a rows b) : layout rows < 2 ^ b := by
  induction rows generalizing a with
  | nil => exact Nat.two_pow_pos b
  | cons r t ih =>
    obtain ⟨off, lo, w, v⟩ := r
    obtain ⟨-, ht⟩ := h
    refine Nat.or_lt_two_pow ?_ (ih ht)
    calc (v % 2 ^ w) <<< (8 * off + lo) < 2 ^ (8 * off + lo + w) := by
          rw [Nat.shiftLeft_eq, Nat.pow_add 2 (8 * off + lo) w, Nat.mul_comm]
          exact Nat.mul_lt_mul_of_pos_left (Nat.mod_lt _ (Nat.two_pow_pos w)) (Nat.two_pow_pos _)
      _ ≤ 2 ^ b := Nat.pow_le_pow_right (by decide) ht.le

/-- A row starts no lower than the rows do. -/
theorem RowsWithin.start_le {a b off lo w v : Nat} {rows : List (Nat × Nat × Nat × Nat)} (h : RowsWithin a rows b)
    (hm : (off, lo, w, v) ∈ rows) : a ≤ 8 * off + lo := by
  induction rows generalizing a with
  | nil => simp at hm
  | cons r t ih =>
    obtain ⟨ha, ht⟩ := h
    rcases List.mem_cons.mp hm with heq | hmt
    · cases heq; exact ha
    · have := ih ht hmt; omega

/-- R7: the field of a row of a layout holds the row's value. -/
theorem fieldOf_layout {a b off lo w v : Nat} {rows : List (Nat × Nat × Nat × Nat)} (h : RowsWithin a rows b)
    (hm : (off, lo, w, v) ∈ rows) : fieldOf (layout rows) off lo w = v % 2 ^ w := by
  apply Nat.eq_of_testBit_eq
  intro i
  rw [fieldOf, testBit_bitsOf, Nat.testBit_mod_two_pow]
  by_cases hi : i < w
  case neg => simp only [hi, decide_false, Bool.false_and]
  induction rows generalizing a with
  | nil => simp at hm
  | cons r t ih =>
    obtain ⟨off', lo', w', v'⟩ := r
    obtain ⟨ha, ht⟩ := h
    rw [testBit_layout_cons]
    rcases List.mem_cons.mp hm with heq | hmt
    · cases heq
      rw [testBit_layout_below ht (by omega)]
      simp [hi]
    · have hstart := ht.start_le hmt
      have hout : ¬ 8 * off + lo + i - (8 * off' + lo') < w' := by omega
      simpa [hout] using ih ht hmt

/-- The bits below `n` of a number do not show what stands from bit `n` on. -/
theorem bitsOf_add_shiftLeft_low {x y n lo w : Nat} (hx : x < 2 ^ n) (h : lo + w ≤ n) :
    bitsOf (x + y <<< n) lo w = bitsOf x lo w := by
  apply Nat.eq_of_testBit_eq
  intro i
  rw [testBit_bitsOf, testBit_bitsOf, Nat.shiftLeft_eq, Nat.add_comm, Nat.mul_comm, Nat.testBit_two_pow_mul_add _ hx]
  by_cases hi : i < w
  · have hlow : lo + i < n := by omega
    simp [hlow]
  · simp [hi]

/-- The bits from `n` on are what was put there. -/
theorem bitsOf_add_shiftLeft_high {x y n w : Nat} (hx : x < 2 ^ n) : bitsOf (x + y <<< n) n w = y % 2 ^ w := by
  rw [bitsOf, Nat.shiftLeft_eq, Nat.shiftRight_eq_div_pow, Nat.add_mul_div_right _ _ (Nat.two_pow_pos n),
    Nat.div_eq_of_lt hx, Nat.zero_add]

theorem RowsWithin.end_le {a b off lo w v : Nat} {rows : List (Nat × Nat × Nat × Nat)} (h : RowsWithin a rows b)
    (hm : (off, lo, w, v) ∈ rows) : 8 * off + lo + w ≤ b := by
  induction rows generalizing a with
  | nil => simp at hm
  | cons r t ih =>
    obtain ⟨ha, ht⟩ := h
    rcases List.mem_cons.mp hm with heq | hmt
    · cases heq; exact ht.le
    · exact ih ht hmt

/-- Every value of a layout fits its field. -/
def RowsFit (rows : List (Nat × Nat × Nat × Nat)) : Prop := ∀ r ∈ rows, r.2.2.2 < 2 ^ r.2.2.1

/-- R7, R66: every field of a layout of values that fit reads as its row's value, whatever follows the layout. -/
theorem fieldOf_layout_add {a n : Nat} {rows : List (Nat × Nat × Nat × Nat)} (h : RowsWithin a rows n) (hf : RowsFit rows)
    (y : Nat) : ∀ r ∈ rows, fieldOf (layout rows + y <<< n) r.1 r.2.1 r.2.2.1 = r.2.2.2 := by
  intro r hm
  rw [fieldOf, bitsOf_add_shiftLeft_low (layout_lt h) (h.end_le hm)]
  exact (fieldOf_layout h hm).trans (Nat.mod_eq_of_lt (hf r hm))

theorem b2n_le_one (b : Bool) : b2n b ≤ 1 := by cases b <;> decide

theorem decide_b2n (b : Bool) : decide (b2n b = 1) = b := by cases b <;> rfl

/-! ### The round trips (R14, R44, R62, R66) -/

/-- The rows of the message header (R66). -/
def Msg.rows (m : Msg) : List (Nat × Nat × Nat × Nat) :=
  [(0, 0, 16, m.dst), (0, 16, 16, m.src), (4, 0, 8, m.ty), (4, 8, 8, m.mapGen), (4, 16, 4, m.status), (4, 20, 4, m.load),
    (4, 24, 1, b2n m.ordered), (4, 25, 1, b2n m.compressed), (8, 0, 13, m.len), (8, 16, 16, m.flowSeq), (12, 0, 12, m.flow),
    (12, 12, 1, m.die), (12, 13, 5, m.tenant)]

/-- The rows of the link header (R62). -/
def Flit.rows (f : Flit) : List (Nat × Nat × Nat × Nat) :=
  [(0, 0, 3, f.kind), (0, 3, 1, b2n f.last), (0, 4, 2, f.chan), (0, 6, 3, f.tc), (0, 9, 1, b2n f.cm),
    (0, 10, 1, b2n f.ackValid), (0, 11, 12, f.seq), (0, 23, 12, f.ackSeq), (0, 35, 5, f.creditVc),
    (0, 40, 1, b2n f.creditValid), (0, 41, 12, f.creditTotal)]

/-- The rows of a cricket message (R44). -/
def Cricket.rows (c : Cricket) : List (Nat × Nat × Nat × Nat) :=
  [(0, 0, 8, c.ty), (0, 8, 8, c.hop), (0, 16, 16, c.gen), (4, 0, 16, c.seq), (4, 16, 16, c.master), (8, 0, 64, c.tx / 256),
    (16, 0, 8, c.tx % 256), (24, 0, 64, c.rx / 256), (32, 0, 8, c.rx % 256)]

theorem Msg.rows_within (m : Msg) : RowsWithin 0 m.rows 128 := by simp [Msg.rows, RowsWithin]

theorem Flit.rows_within (f : Flit) : RowsWithin 0 f.rows 64 := by simp [Flit.rows, RowsWithin]

theorem Cricket.rows_within (c : Cricket) : RowsWithin 0 c.rows 264 := by simp [Cricket.rows, RowsWithin]

theorem Msg.rows_fit {m : Msg} (h : m.wireOk = true) : RowsFit m.rows := by
  simp only [Msg.wireOk, Msg.ok, Bool.and_eq_true, decide_eq_true_eq] at h
  have hordered := b2n_le_one m.ordered
  have hcompressed := b2n_le_one m.compressed
  simp only [RowsFit, Msg.rows, List.forall_mem_cons, List.not_mem_nil, false_implies, implies_true, and_true]
  omega

theorem Flit.rows_fit {f : Flit} (h : f.ok = true) : RowsFit f.rows := by
  simp only [Flit.ok, decide_eq_true_eq] at h
  have hlast := b2n_le_one f.last
  have hcm := b2n_le_one f.cm
  have hack := b2n_le_one f.ackValid
  have hcredit := b2n_le_one f.creditValid
  simp only [RowsFit, Flit.rows, List.forall_mem_cons, List.not_mem_nil, false_implies, implies_true, and_true]
  omega

theorem Cricket.rows_fit {c : Cricket} (h : c.ok = true) : RowsFit c.rows := by
  simp only [Cricket.ok, decide_eq_true_eq] at h
  simp only [RowsFit, Cricket.rows, List.forall_mem_cons, List.not_mem_nil, false_implies, implies_true, and_true]
  omega

/-- R66: the header and body of a message read back are the message. -/
theorem Msg.ofBits_bits {m : Msg} (h : m.wireOk = true) : Msg.ofBits m.chan m.tc m.cm m.bits = m := by
  have hfields : ∀ r ∈ m.rows, fieldOf m.bits r.1 r.2.1 r.2.2.1 = r.2.2.2 :=
    fieldOf_layout_add m.rows_within (Msg.rows_fit h) m.body
  have hbody : bitsOf m.bits 128 (8 * m.len) = m.body := by
    simp only [Msg.wireOk, Msg.ok, Bool.and_eq_true, decide_eq_true_eq] at h
    exact (bitsOf_add_shiftLeft_high (layout_lt m.rows_within)).trans (Nat.mod_eq_of_lt (by omega))
  simp only [Msg.rows, List.forall_mem_cons] at hfields
  simp [Msg.ofBits, hfields, hbody, decide_b2n]

/-- R62: the link header and payload of a flit read back are the flit. -/
theorem Flit.ofBits_bits {f : Flit} (h : f.ok = true) : Flit.ofBits f.bits = f := by
  have hfields : ∀ r ∈ f.rows, fieldOf f.bits r.1 r.2.1 r.2.2.1 = r.2.2.2 :=
    fieldOf_layout_add f.rows_within (Flit.rows_fit h) (bitsOf f.payload 0 1920)
  have hpayload : bitsOf f.bits 64 1920 = f.payload := by
    simp only [Flit.ok, decide_eq_true_eq] at h
    obtain ⟨-, -, -, -, -, -, -, hp⟩ := h
    have hmod : bitsOf f.payload 0 1920 = f.payload := Nat.mod_eq_of_lt hp
    exact (bitsOf_add_shiftLeft_high (layout_lt f.rows_within)).trans (by rw [hmod, Nat.mod_eq_of_lt hp])
  simp only [Flit.rows, List.forall_mem_cons] at hfields
  simp [Flit.ofBits, hfields, hpayload, decide_b2n]

/-- R44: a cricket message read back is the message; its times are split into ns and fraction. -/
theorem Cricket.ofBits_bits {c : Cricket} (h : c.ok = true) : Cricket.ofBits c.bits = c := by
  have hfields : ∀ r ∈ c.rows, fieldOf c.bits r.1 r.2.1 r.2.2.1 = r.2.2.2 := fun r hm =>
    (fieldOf_layout c.rows_within hm).trans (Nat.mod_eq_of_lt (Cricket.rows_fit h r hm))
  simp only [Cricket.rows, List.forall_mem_cons] at hfields
  simp [Cricket.ofBits, hfields, Nat.div_add_mod']

/-- R14: every status comes back from its code. -/
theorem Status.ofCode_code (st : Status) : Status.ofCode st.code = st := by cases st <;> rfl

/-- Settles O58: each wire object is a layout of rows that rise without overlap, so each field reads as it was written. -/
theorem wireRoundTrip : Obligations.WireRoundTrip :=
  ⟨fun _ => Msg.ofBits_bits, fun _ => Flit.ofBits_bits, fun _ => Cricket.ofBits_bits, Status.ofCode_code⟩

end Sys2Proof
end

section
/-! PROOF. The refutation of the statement on register writes: its frame speaks of every value of the type `Fld`, also of
one that is no row of a register table. -/

namespace Sys2Proof.Machine

open Sys2Proof.Safety

/-- A field description that stands in no register table: the row of EDG_SEL.port, called read-only. -/
def readOnlySelPort : Fld := { R.EDG_SEL_port with acc := .ro }

theorem not_mem_fieldsAt_readOnlySelPort (off fn : Nat) (ix : List Nat) (pos : Nat) :
    (readOnlySelPort, ix, pos) ∉ fieldsAt B.edg off fn := by
  intro h
  obtain ⟨f, hf, hat⟩ := List.mem_filterMap.mp h
  obtain ⟨r, -, hr⟩ := Option.map_eq_some_iff.mp hat
  have hrow : f = readOnlySelPort := congrArg Prod.fst hr
  rw [hrow] at hf
  exact absurd hf (by decide)

/-- A field's value depends on its row and its reset value, not on its access type. -/
theorem State.rd_readOnlySelPort (s : State) : s.rd readOnlySelPort [] = s.rd R.EDG_SEL_port [] := rfl

/-- R9: a write of EDG_SEL from reset gives the port field the written bits. -/
theorem write_edgSel_from_reset :
    ∃ t, exec (.registerWrite 0 (B.edg * 2 ^ 22 + 0) 5 true) State.reset = .next t ∧ t.rd R.EDG_SEL_port [] = 5 :=
  ⟨_, rfl, by decide +kernel⟩

/-- Refutes O51: the clause that no field outside the written word changes is stated of every `Fld`, not of the rows of the
register tables only. From reset, a write of 5 to EDG_SEL changes what `readOnlySelPort` reads: it lies in no word, since it
is no row of a table, yet it reads the value kept for EDG_SEL.port. -/
theorem not_registerWrites : ¬ Obligations.RegisterWrites := by
  intro h
  obtain ⟨hwrite, -⟩ := h State.reset (by decide)
  obtain ⟨t, hexec, -, hframe, -⟩ :=
    hwrite B.edg 0 5 (by decide) (by decide) (.inl rfl) (by decide) (by decide) (by decide)
  have hkept : t.rd readOnlySelPort [] = State.reset.rd readOnlySelPort [] :=
    hframe readOnlySelPort [] (by decide) (fun pos hm => absurd hm (not_mem_fieldsAt_readOnlySelPort 0 0 [] pos))
  obtain ⟨u, hrun, hwritten⟩ := write_edgSel_from_reset
  obtain rfl : t = u := Host.Outcome.next.inj (hexec.symm.trans hrun)
  rw [State.rd_readOnlySelPort, hwritten] at hkept
  exact absurd hkept (by decide)

end Sys2Proof.Machine
end

section
/-! LAWS. Events: raising one sets its bit, and nothing that forming and sending messages is made of clears the bit of an
event; with what a counter reads, a log record leaves, and a change of one part of the state leaves. -/

namespace Sys2Proof.Machine

open Sys2Proof.Safety

theorem bitAt_eq_testBit (x i : Nat) : bitAt x i = x.testBit i := by
  rw [bitAt, Nat.testBit_eq_decide_div_mod_eq, Nat.shiftRight_eq_div_pow]

/-- A bit that is clear is added without a carry. -/
theorem testBit_add_two_pow {x i : Nat} (h : x.testBit i = false) (j : Nat) :
    (x + 2 ^ i).testBit j = (decide (j = i) || x.testBit j) := by
  rw [Nat.add_comm]
  rcases Nat.lt_trichotomy j i with hlt | rfl | hgt
  · rw [Nat.testBit_two_pow_add_gt hlt, decide_eq_false (Nat.ne_of_lt hlt), Bool.false_or]
  · simp [Nat.testBit_two_pow_add_eq, h]
  · have hlow : x % 2 ^ i + 2 ^ i < 2 ^ (i + 1) := by
      have := Nat.mod_lt x (Nat.two_pow_pos i)
      omega
    have hsplit : x = 2 ^ (i + 1) * (x / 2 ^ (i + 1)) + x % 2 ^ i := by
      have hmod : x % 2 ^ (i + 1) = x % 2 ^ i := by
        have hclear : x / 2 ^ i % 2 = 0 := by
          rw [Nat.testBit_eq_decide_div_mod_eq, decide_eq_false_iff_not] at h
          omega
        rw [Nat.mod_pow_succ, hclear, Nat.mul_zero, Nat.add_zero]
      rw [← hmod, Nat.div_add_mod]
    have hsum : 2 ^ i + x = 2 ^ (i + 1) * (x / 2 ^ (i + 1)) + (x % 2 ^ i + 2 ^ i) := by omega
    rw [hsum, Nat.testBit_two_pow_mul_add _ hlow]
    have hhigh : x.testBit j = (x / 2 ^ (i + 1)).testBit (j - (i + 1)) := by
      rw [Nat.testBit_div_two_pow, Nat.sub_add_cancel hgt]
    have hnotlow : ¬ j < i + 1 := by omega
    have hne : ¬ j = i := by omega
    rw [if_neg hnotlow, hhigh, decide_eq_false hne, Bool.false_or]

/-- The fields that hold events (R408). -/
def eventFields : List Fld :=
  [R.GLB_EVT_events, R.TIM_EVT_events, R.PRT_EVT_events, R.SWC_EVT_events, R.EDG_EVT_violation, R.EDG_EVT_stamp_error,
   R.EDG_EVT_unsupported, R.TRK_EVT_timeout, R.TRK_EVT_late_discard, R.TRK_EVT_reissue_exhausted, R.TRK_EVT_comb_full,
   R.TRK_EVT_home_stall, R.COH_EVT_events, R.POL_EVT_events, R.MEM_EVT_events, R.BRD_EVT_events, R.CMP_EVT_events,
   R.QPE_EVT_events, R.CLT_EVT_events, R.GTH_EVT_events, R.CDC_EVT_events, R.SEC_EVT_events, R.RAS_EVT_events,
   R.PWR_EVT_events, R.MRN_EVT_overrun, R.MRN_EVT_reply]

theorem evtBit_mem (blk b : Nat) : (evtBit blk b).1 ∈ eventFields := by
  unfold evtBit
  split <;> (repeat' split) <;> (dsimp only; decide)

/-- No two event fields share a number. -/
theorem eventFields_inj : ∀ f ∈ eventFields, ∀ g ∈ eventFields, f.num = g.num → f = g := by decide

/-- Raising an event sets its bit. -/
theorem State.event_raises {blk b : Nat} (s : State) (hb : (evtBit blk b).2.1 < (evtBit blk b).1.w) :
    bitAt ((s.event blk b).rd (evtBit blk b).1 []) (evtBit blk b).2.1 = true := by
  have hregs := State.regs_event blk b s
  by_cases hset : bitAt (s.rd (evtBit blk b).1 []) (evtBit blk b).2.1 = true
  · rw [if_pos hset] at hregs
    rwa [State.rd_of_regs hregs]
  · rw [if_neg hset] at hregs
    rw [State.rd_of_regs hregs, State.rd_wr_same, bitAt_eq_testBit, Nat.testBit_mod_two_pow, Nat.one_shiftLeft,
      testBit_add_two_pow (by simpa [bitAt_eq_testBit] using hset)]
    simp [hb]

/-- Every event of the state before is there in the state after. -/
def EventsStay (s t : State) : Prop :=
  ∀ f ∈ eventFields, ∀ i < f.w, bitAt (s.rd f []) i = true → bitAt (t.rd f []) i = true

theorem EventsStay.refl (s : State) : EventsStay s s := fun _ _ _ _ h => h

theorem EventsStay.trans {s t u : State} (h₁ : EventsStay s t) (h₂ : EventsStay t u) : EventsStay s u :=
  fun f hf i hi h => h₂ f hf i hi (h₁ f hf i hi h)

theorem EventsStay.ite {s a b : State} {c : Prop} [Decidable c] (ha : EventsStay s a) (hb : EventsStay s b) :
    EventsStay s (if c then a else b) := by
  by_cases h : c
  · rw [if_pos h]; exact ha
  · rw [if_neg h]; exact hb

theorem EventsStay.foldl {α : Type} (g : State → α → State) (hg : ∀ s a, EventsStay s (g s a)) (xs : List α) (s : State) :
    EventsStay s (xs.foldl g s) := by
  induction xs generalizing s with
  | nil => exact EventsStay.refl s
  | cons x xs ih => exact (hg s x).trans (ih (g s x))

/-- What changes no register keeps every event. -/
theorem EventsStay.of_regs {s t : State} (h : t.regs = s.regs) : EventsStay s t :=
  fun f _ i _ hi => by rwa [State.rd_of_regs h]

/-- What stands in the switch core is no event. -/
theorem eventsStay_inSwitch (w : Sw) (s : State) : EventsStay s { s with sw := w } := EventsStay.of_regs rfl

/-- A write of a field that holds no events. -/
theorem eventsStay_wr {f : Fld} (ix : List Nat) (v : Nat) (s : State) (hf : ∀ g ∈ eventFields, g.num ≠ f.num := by decide) :
    EventsStay s (s.wr f ix v) :=
  fun g hg i _ h => by rwa [State.rd_wr_num _ _ _ _ (hf g hg)]

theorem eventsStay_bump {f : Fld} (ix : List Nat) (s : State) (hf : ∀ g ∈ eventFields, g.num ≠ f.num := by decide) :
    EventsStay s (s.bump f ix) := eventsStay_wr _ _ _ hf

/-- Another event leaves those raised before. -/
theorem eventsStay_event (blk b : Nat) (s : State) : EventsStay s (s.event blk b) := by
  intro f hf i hi h
  by_cases hnum : f.num = (evtBit blk b).1.num
  · obtain rfl := eventFields_inj _ hf _ (evtBit_mem blk b) hnum
    have hregs := State.regs_event blk b s
    by_cases hset : bitAt (s.rd (evtBit blk b).1 []) (evtBit blk b).2.1 = true
    · rw [if_pos hset] at hregs
      rwa [State.rd_of_regs hregs]
    · rw [if_neg hset] at hregs
      rw [bitAt_eq_testBit] at h
      rw [State.rd_of_regs hregs, State.rd_wr_same, bitAt_eq_testBit, Nat.testBit_mod_two_pow, Nat.one_shiftLeft,
        testBit_add_two_pow (by simpa [bitAt_eq_testBit] using hset)]
      simp [hi, h]
  · rwa [State.rd_event_other _ _ _ _ hnum]

theorem eventsStay_ringPut (ft : Nat) (c : Cls) (blk : Nat) (st : Status) (cause source info : Nat) (s : State) :
    EventsStay s (s.ringPut ft c blk st cause source info) :=
  EventsStay.ite ((eventsStay_bump _ s).trans (eventsStay_event _ _ _))
    ((eventsStay_wr _ _ s).trans (eventsStay_wr _ _ _))

theorem eventsStay_contained (at_ blk : Nat) (st : Status) (source info : Nat) (s : State) :
    EventsStay s (s.contained at_ blk st source info) :=
  ((eventsStay_bump _ s).trans (eventsStay_ringPut _ _ _ _ _ _ _ _)).trans (eventsStay_event _ _ _)

/-- R404: a contained error is signalled. -/
theorem State.contained_raises (at_ blk : Nat) (st : Status) (source info : Nat) (s : State) :
    bitAt ((s.contained at_ blk st source info).rd R.RAS_EVT_events []) 0 = true :=
  State.event_raises (blk := B.ras) (b := 0) _ (by decide)

/-- A log record leaves every field but those of the ring and the RAS block's events. -/
theorem State.rd_ringPut_other {f : Fld} (ft : Nat) (c : Cls) (blk : Nat) (st : Status) (cause source info : Nat)
    (ix : List Nat) (s : State)
    (hf : ∀ g ∈ [R.RAS_LOG_LOST_count, R.RAS_EVT_events, R.RAS_LOG_record, R.RAS_LOG_PROD_count], f.num ≠ g.num) :
    (s.ringPut ft c blk st cause source info).rd f ix = s.rd f ix := by
  simp only [List.forall_mem_cons] at hf
  obtain ⟨hlost, hevt, hrecord, hprod, -⟩ := hf
  unfold State.ringPut
  dsimp only
  split
  · rw [State.rd_event_other _ _ _ _ hevt, State.rd_bump_other _ _ _ hlost]
  · rw [State.rd_wr_num _ _ _ _ hprod, State.rd_wr_num _ _ _ _ hrecord]

@[simp] theorem State.rd_bump_same (f : Fld) (ix : List Nat) (s : State) :
    (s.bump f ix).rd f ix = min (2 ^ f.w - 1) (s.rd f ix + 1) := by
  have hlt : min (2 ^ f.w - 1) (s.rd f ix + 1) < 2 ^ f.w := by
    have := Nat.two_pow_pos f.w
    omega
  exact (State.rd_wr_same _ _ _ _).trans (Nat.mod_eq_of_lt hlt)

/-! ### What changes one part of the state -/

theorem regsBut_weaken {l l' : List Fld} {s t : State} (h : RegsBut l s t) (hl : ∀ f ∈ l, f ∈ l') : RegsBut l' s t :=
  fun f ix hf hn => h f ix hf (fun g hg => hn g (hl g hg))

theorem conveys_inSwitch {l : List Fld} (w : Sw) (s : State) : Conveys l s { s with sw := w } :=
  Conveys.of_shape ⟨s.hif, w, s.ports, s.ras, s.answers, rfl⟩

theorem regsBut_inPkg (l : List Fld) (s : State) (k : Pkg) : RegsBut l s { s with pkg := k } := fun _ _ _ _ => rfl

theorem partsBut_inPkg (s : State) (k : Pkg) : PartsBut [.pkg] s { s with pkg := k } := by
  intro p hp
  cases p
  case pkg => simp at hp
  all_goals rfl

theorem partsBut_inRas (s : State) (a : Ras) : PartsBut [.ras] s { s with ras := a } := by
  intro p hp
  cases p
  case ras => simp at hp
  all_goals rfl

/-! ### Sending (R86 to R104) -/

theorem eventsStay_freeCells (q : QMsg) (n : Nat) (s : State) : EventsStay s (s.freeCells q n) := by
  unfold State.freeCells
  split <;> exact EventsStay.of_regs rfl

theorem eventsStay_takeAgentCells (d t n : Nat) (s : State) : EventsStay s (s.takeAgentCells d t n) :=
  eventsStay_inSwitch _ s

theorem eventsStay_enqueue (p : Nat) (q : QMsg) (s : State) : EventsStay s (s.enqueue p q) := eventsStay_inSwitch _ s

theorem eventsStay_toInput (d : Nat) (q : QMsg) (s : State) : EventsStay s (s.toInput d q) := eventsStay_inSwitch _ s

theorem eventsStay_dropReader (q : QMsg) (s : State) : EventsStay s (s.dropReader q) := eventsStay_freeCells _ _ _

theorem eventsStay_readUpTo (q : QMsg) (n : Nat) (s : State) : EventsStay s (s.readUpTo q n) := eventsStay_freeCells _ _ _

theorem eventsStay_deliverOut (o : Nat) (q : QMsg) (s : State) : EventsStay s (s.deliverOut o q) :=
  EventsStay.ite (eventsStay_enqueue _ _ _) (eventsStay_toInput _ _ _)

theorem eventsStay_deliverAll (o : Nat) (l : List QMsg) (s : State) : EventsStay s (s.deliverAll o l) :=
  EventsStay.foldl _ (fun _ _ => eventsStay_deliverOut _ _ _) _ _

theorem eventsStay_setFlow (o flow : Nat) (f : Flow) (s : State) : EventsStay s (s.setFlow o flow f) :=
  eventsStay_inSwitch _ s

theorem eventsStay_countAt (o k : Nat) (s : State) : EventsStay s (s.countAt o k) :=
  EventsStay.ite (eventsStay_bump _ s) (EventsStay.refl s)

theorem eventsStay_gap (o : Nat) (s : State) : EventsStay s (s.gap o) :=
  ((eventsStay_countAt o 4 s).trans (EventsStay.ite (eventsStay_wr _ _ _) (EventsStay.refl _))).trans
    (eventsStay_event _ _ _)

theorem eventsStay_skipHole (o flow : Nat) (s : State) : EventsStay s (s.skipHole o flow) := by
  unfold State.skipHole
  dsimp only
  split
  · exact EventsStay.refl s
  · exact ((eventsStay_deliverAll _ _ _).trans (eventsStay_setFlow _ _ _ _)).trans (eventsStay_gap _ _)

theorem eventsStay_fitHeld (o n : Nat) (s : State) : EventsStay s (State.fitHeld o n s) := by
  induction n generalizing s with
  | zero => exact EventsStay.refl s
  | succ n ih =>
    unfold State.fitHeld
    refine EventsStay.ite (EventsStay.refl s) ?_
    split
    · exact (eventsStay_skipHole _ _ _).trans (ih _)
    · exact EventsStay.refl s

theorem eventsStay_resequence (o : Nat) (q : QMsg) (s : State) : EventsStay s (s.resequence o q) := by
  have hdrop := (eventsStay_countAt o 5 s).trans (eventsStay_dropReader q _)
  unfold State.resequence
  dsimp only
  refine EventsStay.ite ?next (EventsStay.ite (EventsStay.ite hdrop ?held) (EventsStay.ite ?beyond hdrop))
  case next =>
    exact ((eventsStay_deliverOut _ _ s).trans (eventsStay_deliverAll _ _ _)).trans (eventsStay_setFlow _ _ _ _)
  case held => exact (eventsStay_setFlow _ _ _ s).trans (eventsStay_fitHeld _ _ _)
  case beyond =>
    exact (((eventsStay_deliverAll _ _ s).trans (eventsStay_deliverOut _ _ _)).trans (eventsStay_setFlow _ _ _ _)).trans
      (eventsStay_gap _ _)

theorem eventsStay_toOutput (o : Nat) (final : Bool) (q : QMsg) (s : State) : EventsStay s (s.toOutput o final q) :=
  EventsStay.ite (EventsStay.ite (eventsStay_resequence _ _ _) (eventsStay_inSwitch _ s)) (eventsStay_deliverOut _ _ _)

theorem eventsStay_logCompletion (d : Nat) (m : Msg) (st : Status) (s : State) : EventsStay s (s.logCompletion d m st) :=
  EventsStay.ite (eventsStay_contained _ _ _ _ _ _) (EventsStay.refl s)

theorem eventsStay_selfAnswer (d : Nat) (m : Msg) (st : Status) (s : State) : EventsStay s (s.selfAnswer d m st) :=
  (eventsStay_logCompletion d m st s).trans (EventsStay.foldl _ (fun a _ =>
    ((eventsStay_inSwitch _ a).trans (eventsStay_takeAgentCells _ _ _ _)).trans (eventsStay_toInput _ _ _)) _ _)

theorem eventsStay_failSend (d : Nat) (m : Msg) (st : Status) (q : QMsg) (s : State) : EventsStay s (s.failSend d m st q) :=
  (eventsStay_freeCells q q.total s).trans (EventsStay.ite (eventsStay_selfAnswer _ _ _ _) (EventsStay.refl _))

theorem eventsStay_place (d : Nat) (m : Msg) (q : QMsg) (s : State) : EventsStay s (s.place d m q) := by
  have hfail (st : Status) := eventsStay_failSend d m st q s
  unfold State.place
  split
  · exact hfail _
  · refine EventsStay.ite ((eventsStay_bump _ s).trans (eventsStay_failSend _ _ _ _ _)) (EventsStay.ite
      (EventsStay.ite ((eventsStay_bump _ s).trans (eventsStay_failSend _ _ _ _ _)) (eventsStay_toOutput _ _ _ s)) ?_)
    split
    · split
      · exact (eventsStay_inSwitch _ s).trans (eventsStay_toOutput _ _ _ _)
      · exact hfail _
    · exact EventsStay.ite (eventsStay_freeCells _ _ s) (EventsStay.foldl _ (fun _ _ => eventsStay_deliverOut _ _ _) _ s)
    · exact hfail _

theorem eventsStay_route (d : Nat) (m : Msg) (s : State) : EventsStay s (s.route d m) :=
  (eventsStay_inSwitch _ s).trans (eventsStay_place _ _ _ _)

theorem eventsStay_flushList (d : Nat) (ms : List Msg) (s : State) : EventsStay s (State.flushList d ms s) := by
  induction ms generalizing s with
  | nil => exact eventsStay_inSwitch _ s
  | cons m t ih =>
    exact EventsStay.ite (((eventsStay_takeAgentCells _ _ _ s).trans (eventsStay_route _ _ _)).trans (ih _))
      (eventsStay_inSwitch _ s)

/-- Sending a message keeps every event. -/
theorem eventsStay_send (d : Nat) (m : Msg) (s : State) : EventsStay s (s.send d m) := eventsStay_flushList _ _ _

/-- So does completing a request. -/
theorem eventsStay_answer (d : Nat) (m : Msg) (st : Status) (load : Nat) (data : Option Nat) (s : State) :
    EventsStay s (s.answer d m st load data) :=
  (eventsStay_logCompletion d m st s).trans (EventsStay.foldl _ (fun _ _ => eventsStay_send _ _ _) _ _)

end Sys2Proof.Machine
end

section
/-! PROOF. The statement on die-to-die links (R22): what counting a corrected error, poisoning an agent input and a DEGRADED
error do, and the clauses of the statement from them. -/

namespace Sys2Proof.Machine

open Sys2Proof.Safety

/-! ### A corrected error (R409) -/

/-- A corrected error: the RAS block's own counts, its counter, and a log record or none. -/
theorem State.corrected_cases (at_ blk source : Nat) (s : State) :
    ∃ u, (∃ a : Ras, u = State.bump R.RAS_CNT_count [0] { s with ras := a }) ∧
      (s.corrected at_ blk source = u ∨
        ∃ ft n, s.corrected at_ blk source = u.ringPut ft .corrected blk .ok (Config.logCause blk 0) source n) := by
  unfold State.corrected
  dsimp only
  generalize (if s.ras.ceWindow = s.beat / 1024 then s.ras.ce else Map.empty) = ce
  split
  · refine ⟨_, ?_, .inr ⟨_, _, rfl⟩⟩
    exact ⟨_, rfl⟩
  · refine ⟨_, ?_, .inl rfl⟩
    exact ⟨_, rfl⟩

/-- Beside the RAS block's own counts a corrected error only reports. -/
theorem State.corrected_told (at_ blk source : Nat) (s : State) :
    ∃ a : Ras, Told { s with ras := a } (s.corrected at_ blk source) := by
  obtain ⟨_, ⟨a, rfl⟩, hnone | ⟨ft, n, hrecord⟩⟩ := State.corrected_cases at_ blk source s
  · exact ⟨a, hnone ▸ (Told.refl _).bump (by decide) _⟩
  · exact ⟨a, hrecord ▸ ((Told.refl _).bump (by decide) _).ringPut _ _ _ _ _ _ _⟩

/-- A corrected error is counted. -/
theorem State.rd_corrected_count (at_ blk source : Nat) (s : State) :
    (s.corrected at_ blk source).rd R.RAS_CNT_count [0] = min (2 ^ 48 - 1) (s.rd R.RAS_CNT_count [0] + 1) := by
  obtain ⟨_, ⟨a, rfl⟩, hnone | ⟨ft, n, hrecord⟩⟩ := State.corrected_cases at_ blk source s
  · rw [hnone, State.rd_bump_same]; rfl
  · rw [hrecord, State.rd_ringPut_other _ _ _ _ _ _ _ _ _ (by decide), State.rd_bump_same]; rfl

/-! ### An uncorrectable transfer (R22, R406) -/

/-- A poisoned transfer touches the switch core and what completing a request does. -/
theorem conveys_poisonInput (d chan : Nat) (s : State) : Conveys [] s (s.poisonInput d chan) := by
  unfold State.poisonInput
  split
  · exact Conveys.refl _ s
  · refine Conveys.ite ?request (conveys_inSwitch _ s)
    case request => exact ((conveys_inSwitch _ s).trans (conveys_readUpTo _ _ _)).trans (conveys_answer _ _ _ _ _ _)

theorem eventsStay_poisonInput (d chan : Nat) (s : State) : EventsStay s (s.poisonInput d chan) := by
  unfold State.poisonInput
  split
  · exact EventsStay.refl s
  · refine EventsStay.ite ?request (eventsStay_inSwitch _ s)
    case request =>
      exact ((eventsStay_inSwitch _ s).trans (eventsStay_readUpTo _ _ _)).trans (eventsStay_answer _ _ _ _ _ _)

/-! ### A DEGRADED error (R404) -/

/-- A DEGRADED error of a block below 32 shows in GLB_DEGRADED. -/
theorem State.bit_degraded (at_ source info : Nat) {blk : Nat} (hblk : blk < 32) (s : State) :
    bitAt ((s.degraded at_ blk source info).rd R.GLB_DEGRADED_degraded []) blk = true := by
  unfold State.degraded
  dsimp only
  rw [(conveys_report (l := []) _ _ _ _).regs _ _ (by decide) (by simp), State.rd_event _ _ _ _ (by decide),
    ((((Told.refl _).bump (f := R.RAS_CNT_count) (by decide) _).ringPut _ _ _ _ _ _ _).regs _ _ (by decide))]
  split
  case isTrue hset => exact hset
  case isFalse =>
    rw [State.rd_event _ _ _ _ (by decide), State.rd_wr_same, bitAt_eq_testBit, Nat.testBit_mod_two_pow, Nat.testBit_or,
      Nat.one_shiftLeft, Nat.testBit_two_pow_self]
    simp [R.GLB_DEGRADED_degraded, hblk]

/-! ### The clauses -/

variable {s : State}

theorem gives_dieLinkError_corrected (h : Serves s) (link : Nat) :
    Gives (.dieLinkError link .corrected) s (fun t => t.rd R.RAS_CNT_count [0] = min (2 ^ 48 - 1) (s.rd
      R.RAS_CNT_count [0] + 1) ∧ RegsBut [] s t ∧ PartsBut [.out, .hif, .ras] s t) := by
  obtain ⟨a, htold⟩ := State.corrected_told 2 B.ras link s
  have hras : PartsBut [.out, .hif, .ras] s { s with ras := a } := (partsBut_inRas s a).weaken (by decide)
  exact gives_serving rfl h ⟨State.rd_corrected_count 2 B.ras link s, (htold.regsBut []).after, (hras.told htold).after⟩

theorem gives_dieLinkError_replayed (h : Serves s) (link : Nat) :
    Gives (.dieLinkError link .replayed) s (fun t => t.out = s.out ∧ RegsBut [] s t ∧ PartsBut [] s t) :=
  gives_serving rfl h ⟨rfl, (RegsBut.refl [] s).after, (PartsBut.refl [] s).after⟩

theorem gives_dieLinkError_uncorrectable (h : Serves s) (link d chan : Nat) :
    Gives (.dieLinkError link (.uncorrectable d chan)) s (fun t => bitAt (t.rd R.RAS_EVT_events []) 0 = true ∧
      t.mem = s.mem ∧ RegsBut [] s t) := by
  have hfirst : Told s (s.contained 2 B.ras .poison link 0) := (Told.refl s).contained _ _ _ _ _
  have hall : Conveys [] s ((s.contained 2 B.ras .poison link 0).poisonInput d chan) :=
    (Conveys.told hfirst).trans (conveys_poisonInput d chan _)
  have hsignal := eventsStay_poisonInput d chan _ R.RAS_EVT_events (by decide) 0 (by decide)
    (State.contained_raises 2 B.ras .poison link 0 s)
  refine gives_serving (t := (s.contained 2 B.ras .poison link 0).poisonInput d chan) rfl h ⟨?_, ?_, hall.regs.after⟩
  · rw [State.rd_after]
    exact hsignal
  · rw [State.after_mem_eq, hall.mem_eq]

theorem exec_hubLinkLoss {d : Nat} (hd : s.pkg.hubLost.has [d] = false) :
    exec (.hubLinkLoss d) s = serving s
      (State.degraded 2 B.ras d 0 { s with pkg := { s.pkg with hubLost := s.pkg.hubLost.set [d] () } }) := by
  change execHubLinkLoss d s = _
  rw [execHubLinkLoss, if_neg (by simp [hd])]

theorem gives_hubLinkLoss (h : Serves s) {d : Nat} (hd : s.pkg.hubLost.has [d] = false) :
    Gives (.hubLinkLoss d) s (fun t => t.pkg.hubLost.has [d] = true ∧ bitAt (t.rd R.GLB_DEGRADED_degraded []) B.ras = true ∧
      RegsBut [R.GLB_DEGRADED_degraded] s t) := by
  have hexec := exec_hubLinkLoss hd
  have hlost : ({ s with pkg := { s.pkg with hubLost := s.pkg.hubLost.set [d] () } } : State).pkg.hubLost.has [d] = true :=
    Map.has_set_same _ _ _
  have hregs : RegsBut [R.GLB_DEGRADED_degraded] s { s with pkg := { s.pkg with hubLost := s.pkg.hubLost.set [d] () } } :=
    regsBut_inPkg _ s _
  generalize ({ s with pkg := { s.pkg with hubLost := s.pkg.hubLost.set [d] () } } : State) = u at hexec hlost hregs
  have hdeg := conveys_degraded 2 B.ras d 0 u
  refine gives_serving hexec h ⟨?_, ?_, (hregs.trans hdeg.regs).after⟩
  · rw [State.after_pkg_eq, hdeg.pkg_eq, hlost]
  · rw [State.rd_after]
    exact State.bit_degraded 2 d 0 (by decide) u

theorem gives_hubLinkReturn (h : Serves s) (d : Nat) :
    Gives (.hubLinkReturn d) s (fun t => t.pkg.hubLost.has [d] = false ∧ RegsBut [] s t ∧ PartsBut [.pkg] s t) :=
   gives_serving rfl h ⟨Map.has_erase_same _ _, regsBut_inPkg [] s _, (partsBut_inPkg s _).after⟩

/-- Settles O4: a corrected error counts and reports only; an uncorrectable one is contained, and neither poisoning the
input nor completing its request clears an event or touches memory; a DEGRADED error shows its block's bit. -/
theorem dieLinks : Obligations.DieLinks :=
  fun _ h => ⟨gives_dieLinkError_corrected h, gives_dieLinkError_replayed h, gives_dieLinkError_uncorrectable h,
    fun _ => gives_hubLinkLoss h, gives_hubLinkReturn h⟩

end Sys2Proof.Machine
end

section
/-! PROOF. The statements on power modes (R29, R32) and on engine voltage and clock (R31, R462, R463). -/

namespace Sys2Proof.Machine

open Sys2Proof.Safety

/-! ### Moving ECLK and the caps to their targets (R471) -/

/-- Retargeting writes the cap and changes the package state alone; what the controllers ask for stays. -/
theorem State.retarget_cases (s : State) :
    ∃ k : Pkg, s.retarget = { s.wr R.PWR_THROTTLE_stack_cap [] s.capTarget with pkg := k } ∧
      k.powerEclk = s.pkg.powerEclk ∧ k.powerCap = s.pkg.powerCap := by
  have hpkg : (s.wr R.PWR_THROTTLE_stack_cap [] s.capTarget).pkg = s.pkg := State.wr_pkg_eq _ _ _ _
  unfold State.retarget
  dsimp only
  generalize s.wr R.PWR_THROTTLE_stack_cap [] s.capTarget = u at hpkg
  repeat' split
  all_goals exact ⟨_, rfl, by rw [hpkg], by rw [hpkg]⟩

theorem State.retarget_regs (s : State) : RegsBut [R.PWR_THROTTLE_stack_cap] s s.retarget := by
  obtain ⟨k, hk, -, -⟩ := s.retarget_cases
  rw [hk]
  exact ((RegsBut.refl _ s).wr (by simp) _ _).trans (regsBut_inPkg _ _ k)

theorem State.retarget_parts (s : State) : PartsBut [.pkg] s s.retarget := by
  obtain ⟨k, hk, -, -⟩ := s.retarget_cases
  rw [hk]
  exact ((PartsBut.refl _ s).wr _ _ _).trans (partsBut_inPkg _ k)

theorem State.rd_retarget {f : Fld} (ix : List Nat) (s : State) (hf : ¬ Reports f)
    (hcap : f.num ≠ R.PWR_THROTTLE_stack_cap.num) : s.retarget.rd f ix = s.rd f ix :=
  s.retarget_regs f ix hf (by simpa using hcap)

@[simp] theorem State.retarget_powerEclk (s : State) : s.retarget.pkg.powerEclk = s.pkg.powerEclk := by
  obtain ⟨k, hk, heclk, -⟩ := s.retarget_cases
  rw [hk, heclk]

@[simp] theorem State.retarget_powerCap (s : State) : s.retarget.pkg.powerCap = s.pkg.powerCap := by
  obtain ⟨k, hk, -, hcap⟩ := s.retarget_cases
  rw [hk, hcap]

/-! ### Power modes (R32) -/

variable {s : State}

/-- The registers of a mode change that has been scheduled. -/
def State.modeScheduled (mode beat : Nat) (s : State) : State :=
  (((s.wr R.PWR_MODE_STATUS_pending [] 1).wr R.PWR_MODE_STATUS_requested [] mode).wr R.PWR_MODE_STATUS_pending_beat []
    (launchBeat beat s.beat)).wr R.PWR_MODE_STATUS_result [] Status.ok.code

theorem State.modeChangeRequest_none {mode beat : Nat} (hmode : mode ≤ 2) (hready : s.isReady B.pwr = true)
    (hnone : s.rd R.PWR_MODE_STATUS_pending [] = 0) :
    s.modeChangeRequest mode beat = (s.modeScheduled mode beat).lateIf beat s.beat := by
  have hfree : ¬ (¬ s.isReady B.pwr ∨ s.on R.PWR_MODE_STATUS_pending []) := by simp [State.on, hready, hnone]
  rw [State.modeChangeRequest, if_neg (by omega), if_neg hfree, State.modeScheduled]

theorem State.modeChangeRequest_pending {mode beat : Nat} (hmode : mode ≤ 2)
    (hpending : s.rd R.PWR_MODE_STATUS_pending [] ≠ 0) :
    s.modeChangeRequest mode beat = (s.wr R.PWR_MODE_STATUS_result [] Status.retry.code).event B.pwr 2 := by
  have hbusy : ¬ s.isReady B.pwr ∨ s.on R.PWR_MODE_STATUS_pending [] := .inr (by simp [State.on, hpending])
  rw [State.modeChangeRequest, if_neg (by omega), if_pos hbusy]

theorem launchBeat_lt (target now : Nat) : launchBeat target now < 2 ^ 32 := by
  unfold launchBeat
  split <;> exact Nat.mod_lt _ (by decide)

theorem gives_modeChangeRequest_none (h : Runs s) {mode beat : Nat} (hmode : mode ≤ 2) (hready : s.isReady B.pwr = true)
    (hnone : s.rd R.PWR_MODE_STATUS_pending [] = 0) :
    Gives (.modeChangeRequest mode beat) s (fun t => t.rd R.PWR_MODE_STATUS_pending [] = 1 ∧
      t.rd R.PWR_MODE_STATUS_requested [] = mode ∧ t.rd R.PWR_MODE_STATUS_pending_beat [] = launchBeat beat s.beat ∧
      t.rd R.PWR_MODE_STATUS_result [] = Status.ok.code ∧ RegsBut [R.PWR_MODE_STATUS_pending, R.PWR_MODE_STATUS_requested,
      R.PWR_MODE_STATUS_pending_beat, R.PWR_MODE_STATUS_result] s t ∧ PartsBut reporting s t) := by
  have hexec : exec (.modeChangeRequest mode beat) s = clocked s ((s.modeScheduled mode beat).lateIf beat s.beat) :=
    congrArg (clocked s) (State.modeChangeRequest_none hmode hready hnone)
  have htold := (Told.refl (s.modeScheduled mode beat)).lateIf beat s.beat
  have hregs : RegsBut [R.PWR_MODE_STATUS_pending, R.PWR_MODE_STATUS_requested, R.PWR_MODE_STATUS_pending_beat,
      R.PWR_MODE_STATUS_result] s (s.modeScheduled mode beat) :=
    ((((RegsBut.refl _ s).wr (by simp) _ _).wr (by simp) _ _).wr (by simp) _ _).wr (by simp) _ _
  have hparts : PartsBut reporting s (s.modeScheduled mode beat) := ((((PartsBut.refl _ s).wr _ _ _).wr _ _ _).wr _ _ _).wr _ _ _
  refine gives_clocked hexec h ⟨?pending, ?requested, ?beat, ?result, (hregs.told htold).after, (hparts.told htold).after⟩
  all_goals rw [State.rd_after, htold.regs _ _ (by decide), State.modeScheduled]
  all_goals simp (disch := decide) only [State.rd_wr_num, State.rd_wr_same]
  case pending => decide
  case requested => exact Nat.mod_eq_of_lt (Nat.lt_of_le_of_lt hmode (by decide))
  case beat => exact Nat.mod_eq_of_lt (launchBeat_lt _ _)
  case result => decide

theorem gives_modeChangeRequest_pending (h : Runs s) {mode beat : Nat} (hmode : mode ≤ 2)
    (hpending : s.rd R.PWR_MODE_STATUS_pending [] ≠ 0) :
    Gives (.modeChangeRequest mode beat) s (fun t => t.rd R.PWR_MODE_STATUS_result [] = Status.retry.code ∧
      RegsBut [R.PWR_MODE_STATUS_result] s t ∧ PartsBut reporting s t) := by
  have hexec : exec (.modeChangeRequest mode beat) s =
      clocked s ((s.wr R.PWR_MODE_STATUS_result [] Status.retry.code).event B.pwr 2) :=
    congrArg (clocked s) (State.modeChangeRequest_pending hmode hpending)
  have htold := (Told.refl (s.wr R.PWR_MODE_STATUS_result [] Status.retry.code)).event B.pwr 2
  refine gives_clocked hexec h ⟨?_, (((RegsBut.refl _ s).wr (by simp) _ _).told htold).after,
    (((PartsBut.refl _ s).wr _ _ _).told htold).after⟩
  rw [State.rd_after, htold.regs _ _ (by decide), State.rd_wr_same]
  decide

/-- The registers of a mode put in force. -/
def State.modeWritten (m : Nat) (s : State) : State :=
  ((s.wr R.PWR_MODE_STATUS_mode [] m).wr R.PWR_MODE_STATUS_pending [] 0).wr R.PWR_POWER_limit [] (modeLimit m)

/-- Putting a mode in force: its registers, reports, and new targets. -/
theorem State.setMode_cases (m : Nat) (s : State) : ∃ u, Told (s.modeWritten m) u ∧ s.setMode m = u.retarget :=
  ⟨_, ((Told.refl _).bump (f := R.PWR_CNT_count) (by decide) [3]).event B.pwr 1, rfl⟩

theorem modeLimit_lt (m : Nat) : modeLimit m < 2 ^ 16 := by
  unfold modeLimit
  split
  · decide
  · split <;> decide

theorem gives_modeChange (h : Runs s) (hpending : s.rd R.PWR_MODE_STATUS_pending [] ≠ 0) (hrest : s.resting = false)
    (hdue : ahead (s.rd R.PWR_MODE_STATUS_pending_beat []) s.beat = false) :
    Gives .modeChange s (fun t => t.rd R.PWR_MODE_STATUS_mode [] = s.rd R.PWR_MODE_STATUS_requested [] % 4 ∧
      t.rd R.PWR_MODE_STATUS_pending [] = 0 ∧ t.rd R.PWR_POWER_limit [] = modeLimit (s.rd R.PWR_MODE_STATUS_requested []) ∧
      RegsBut [R.PWR_MODE_STATUS_mode, R.PWR_MODE_STATUS_pending, R.PWR_POWER_limit, R.PWR_THROTTLE_stack_cap] s t ∧
      PartsBut [.out, .hif, .pkg] s t) := by
  have hexec : exec .modeChange s = clocked s (s.setMode (s.rd R.PWR_MODE_STATUS_requested [])) := by
    change execModeChange s = _
    rw [execModeChange, if_pos ⟨by simp [State.on, hpending], by simp [hdue], by simp [hrest]⟩]
  generalize s.rd R.PWR_MODE_STATUS_requested [] = m at hexec
  obtain ⟨u, htold, hset⟩ := State.setMode_cases m s
  rw [hset] at hexec
  have hregs : RegsBut [R.PWR_MODE_STATUS_mode, R.PWR_MODE_STATUS_pending, R.PWR_POWER_limit, R.PWR_THROTTLE_stack_cap] s
      (s.modeWritten m) := (((RegsBut.refl _ s).wr (by simp) _ _).wr (by simp) _ _).wr (by simp) _ _
  have hparts : PartsBut [.out, .hif, .pkg] s (s.modeWritten m) := (((PartsBut.refl _ s).wr _ _ _).wr _ _ _).wr _ _ _
  refine gives_clocked hexec h ⟨?mode, ?pending, ?limit,
    ((hregs.told htold).trans (regsBut_weaken u.retarget_regs (by simp))).after,
    ((hparts.told htold).trans (u.retarget_parts.weaken (by decide))).after⟩
  all_goals rw [State.rd_after, State.rd_retarget _ _ (by decide) (by decide), htold.regs _ _ (by decide), State.modeWritten]
  all_goals simp (disch := decide) only [State.rd_wr_num, State.rd_wr_same]
  case mode => rfl
  case pending => decide
  case limit => exact Nat.mod_eq_of_lt (modeLimit_lt m)

/-- Settles O1: a request writes its four fields, or only the result where one is pending; at the beat the mode, its limit
and the new targets are written. -/
theorem powerModes : Obligations.PowerModes :=
  fun _ h => ⟨fun _ _ => gives_modeChangeRequest_none h, fun _ _ => gives_modeChangeRequest_pending h, gives_modeChange h⟩

/-! ### Engine voltage and clock (R31, R462, R463) -/

theorem gives_voltageSettled (h : Runs s) {mv t₀ since : Nat} (hraise : s.pkg.raise = some (t₀, since))
    (hrelock : s.pkg.relock = none) (hnear : (s.voltRequest 0 - 3 * ((mv : Nat) : Int)).natAbs ≤ 15) :
    Gives (.voltageSettled mv) s (fun t => t.pkg.relock = some t₀ ∧ t.pkg.raise = none ∧ RegsBut [] s t ∧
      PartsBut [.pkg] s t) := by
  have hexec : exec (.voltageSettled mv) s =
      clocked s { s with pkg := { s.pkg with raise := none, relock := some t₀ } } := by
    change execVoltageSettled mv s = _
    simp only [execVoltageSettled, hraise]
    rw [if_pos ⟨hnear, by rw [hrelock]; rfl⟩]
  exact gives_clocked hexec h ⟨rfl, rfl, regsBut_inPkg [] s _, (partsBut_inPkg s _).after⟩

/-- The package state once a raise is given up: the voltage falls back to that of the ECLK in force. -/
def State.raiseDropped (s : State) : State :=
  { s with pkg := { s.pkg with raise := none, volt := nominal (s.rd R.PWR_THROTTLE_eclk []) } }

theorem gives_avsSettleTimeout (h : Runs s) {t₀ since : Nat} (hraise : s.pkg.raise = some (t₀, since))
    (hlate : settleLimit (nominal t₀ - nominal (s.rd R.PWR_THROTTLE_eclk [])) ≤ s.now - since) :
    Gives .avsSettleTimeout s (fun t => t.pkg.raise = none ∧ t.rd R.PWR_THROTTLE_eclk [] = s.rd R.PWR_THROTTLE_eclk [] ∧
      t.pkg.volt = nominal (s.rd R.PWR_THROTTLE_eclk []) ∧ RegsBut [R.GLB_DEGRADED_degraded] s t) := by
  have hexec : exec .avsSettleTimeout s = clocked s ((s.raiseDropped.event B.pwr 2).degraded 2 B.pwr 0 0) := by
    change execAvsSettleTimeout s = _
    simp only [execAvsSettleTimeout, hraise]
    rw [if_pos hlate, State.raiseDropped]
  have hconv : Conveys [R.GLB_DEGRADED_degraded] s.raiseDropped ((s.raiseDropped.event B.pwr 2).degraded 2 B.pwr 0 0) :=
    (Conveys.told ((Told.refl _).event _ _)).trans (conveys_degraded _ _ _ _ _)
  have hregs := (regsBut_inPkg _ s _ : RegsBut [R.GLB_DEGRADED_degraded] s s.raiseDropped).trans hconv.regs
  refine gives_clocked hexec h ⟨?raise, ?eclk, ?volt, hregs.after⟩
  case raise => rw [State.after_pkg_eq, hconv.pkg_eq]; rfl
  case eclk => rw [State.rd_after, hregs _ _ (by decide) (by simp; decide)]
  case volt => rw [State.after_pkg_eq, hconv.pkg_eq]; rfl

/-- The state in which a relock has ended: its ECLK in force, and its voltage. -/
def State.relocked (e : Nat) (s : State) : State :=
  { s.wr R.PWR_THROTTLE_eclk [] e with pkg := { s.pkg with relock := none, volt := nominal e } }

theorem gives_eclkRelockDone (h : Runs s) {e : Nat} (hrelock : s.pkg.relock = some e) (he : e < 32) :
    Gives .eclkRelockDone s (fun t => t.rd R.PWR_THROTTLE_eclk [] = e ∧
      RegsBut [R.PWR_THROTTLE_eclk, R.PWR_THROTTLE_stack_cap] s t ∧ PartsBut [.pkg] s t) := by
  have hexec : exec .eclkRelockDone s = clocked s (s.relocked e).retarget := by
    change execEclkRelockDone s = _
    simp only [execEclkRelockDone, hrelock, State.relocked]
  have hregs : RegsBut [R.PWR_THROTTLE_eclk, R.PWR_THROTTLE_stack_cap] s (s.relocked e) :=
    ((RegsBut.refl _ s).wr (by simp) _ _).trans (regsBut_inPkg _ _ _)
  have hparts : PartsBut [.pkg] s (s.relocked e) := ((PartsBut.refl _ s).wr _ _ _).trans (partsBut_inPkg _ _)
  have hwritten : (s.relocked e).rd R.PWR_THROTTLE_eclk [] = e :=
    (State.rd_wr_same _ _ _ s).trans (Nat.mod_eq_of_lt he)
  refine gives_clocked hexec h ⟨?_, (hregs.trans (regsBut_weaken (s.relocked e).retarget_regs (by simp))).after,
    (hparts.trans (s.relocked e).retarget_parts).after⟩
  rw [State.rd_after, State.rd_retarget _ _ (by decide) (by decide), hwritten]

theorem gives_voltageTrim (h : Runs s) {d : Nat} {mv : Int} (hlow : -30 ≤ mv) (hhigh : mv ≤ 20) (hstep : mv % 5 = 0)
    (hfirst : s.pkg.trimBeat.get? [d] ≠ some s.beat) :
    Gives (.voltageTrim d mv) s (fun t => t.pkg.trim.get? [d] = some mv ∧ t.pkg.trimBeat.get? [d] = some s.beat ∧
      RegsBut [] s t ∧ PartsBut [.pkg] s t) := by
  have hexec : exec (.voltageTrim d mv) s = clocked s { s with pkg := { s.pkg with
      trim := s.pkg.trim.set [d] mv, trimBeat := s.pkg.trimBeat.set [d] s.beat } } := by
    change execVoltageTrim d mv s = _
    rw [execVoltageTrim, if_pos ⟨hlow, hhigh, hstep, hfirst⟩]
  exact gives_clocked hexec h ⟨Map.get?_set_same _ _ _, Map.get?_set_same _ _ _, regsBut_inPkg [] s _,
    (partsBut_inPkg s _).after⟩

/-- R31: while the ECLK allowed is above its floor, a step down lowers it and leaves the caps. -/
theorem stepDown_lowers_eclk (e c tc : Nat) {te : Nat} (h : 6 < te) :
    (stepDown e c te tc).1 < te ∧ (stepDown e c te tc).2.1 = c := by
  rw [stepDown, if_pos h]
  exact ⟨by dsimp only; omega, rfl⟩

theorem State.eclkTarget_wr {f : Fld} (ix : List Nat) (v : Nat) (hf : R.PWR_MODE_STATUS_mode.num ≠ f.num) :
    (s.wr f ix v).eclkTarget = s.eclkTarget := by
  simp only [State.eclkTarget, State.mode, State.rd_wr_num _ _ _ _ hf, State.wr_pkg_eq]

/-- R31: the step of the power controller at the end of a window. -/
def State.powerStep (avg : Nat) (s : State) : State :=
  let limit := 10 * modeLimit s.mode
  if limit < avg then
    let r := stepDown s.pkg.powerEclk s.pkg.powerCap s.eclkTarget s.capTarget
    let t : State := { s with pkg := { s.pkg with powerEclk := r.1, powerCap := r.2.1 } }
    if r.2.2 = 1 then t.bump R.PWR_CNT_count [0] else if r.2.2 = 2 then t.bump R.PWR_CNT_count [2] else t
  else if 100 * avg < 95 * limit then
    let r := stepUp s.pkg.powerEclk s.pkg.powerCap (modeEclk s.mode) (modeCap s.mode)
    let t : State := { s with pkg := { s.pkg with powerEclk := r.1, powerCap := r.2.1 } }
    if r.2.2 = 1 then t.bump R.PWR_CNT_count [1] else if r.2.2 = 2 then t.bump R.PWR_CNT_count [2] else t
  else s

/-- Counting a step bumps one of two counters or none. -/
theorem counted_frame (n i j : Nat) (s : State) :
    RegsBut [] s (if n = 1 then s.bump R.PWR_CNT_count [i] else if n = 2 then s.bump R.PWR_CNT_count [j] else s) ∧
      PartsBut [] s (if n = 1 then s.bump R.PWR_CNT_count [i] else if n = 2 then s.bump R.PWR_CNT_count [j] else s) := by
  have hregs (k : Nat) : RegsBut [] s (s.bump R.PWR_CNT_count [k]) := ((Told.refl s).bump (by decide) _).regsBut []
  have hparts (k : Nat) : PartsBut [] s (s.bump R.PWR_CNT_count [k]) := (PartsBut.refl [] s).wr _ _ _
  exact ⟨(hregs i).ite ((hregs j).ite (RegsBut.refl [] s)), (hparts i).ite ((hparts j).ite (PartsBut.refl [] s))⟩

/-- The controller changes what it asks for and counts; over the limit it asks for less ECLK first. -/
theorem State.powerStep_cases (avg : Nat) (s : State) :
    ∃ k : Pkg, (RegsBut [] { s with pkg := k } (s.powerStep avg) ∧ PartsBut [] { s with pkg := k } (s.powerStep avg)) ∧
      (10 * modeLimit s.mode < avg → 6 < s.eclkTarget → k.powerEclk < s.eclkTarget ∧ k.powerCap = s.pkg.powerCap) := by
  unfold State.powerStep
  dsimp only
  split
  case isTrue => exact ⟨_, counted_frame _ _ _ _, fun _ hfloor => stepDown_lowers_eclk _ _ _ hfloor⟩
  case isFalse hunder =>
    split
    · exact ⟨_, counted_frame _ _ _ _, fun hover => absurd hover hunder⟩
    · exact ⟨s.pkg, ⟨RegsBut.refl _ _, PartsBut.refl _ _⟩, fun hover => absurd hover hunder⟩

/-- The end of a power window: the average is held, the controller takes its step, the targets follow, and the windows below
the mode's ceiling are counted. -/
theorem exec_powerWindow (avg : Nat) (s : State) :
    ∃ n, exec (.powerWindow avg) s =
      clocked s (((s.wr R.PWR_POWER_avg [] avg).powerStep avg).retarget.wr R.PWR_THROTTLE_windows [] n) := by
  change ∃ n, execPowerWindow avg s = _
  have hdef : execPowerWindow avg s = clocked s (
      let u := ((s.wr R.PWR_POWER_avg [] avg).powerStep avg).retarget
      if u.rd R.PWR_THROTTLE_eclk [] < modeEclk u.mode then u.bump R.PWR_THROTTLE_windows []
      else u.wr R.PWR_THROTTLE_windows [] 0) := rfl
  rw [hdef]
  dsimp only
  split
  · exact ⟨_, rfl⟩
  · exact ⟨_, rfl⟩

theorem gives_powerWindow (h : Runs s) {avg : Nat} (havg : avg < 65536) :
    Gives (.powerWindow avg) s (fun t => t.rd R.PWR_POWER_avg [] = avg ∧
      (10 * modeLimit s.mode < avg → 6 < s.eclkTarget → t.pkg.powerEclk < s.eclkTarget ∧ t.pkg.powerCap = s.pkg.powerCap) ∧
      RegsBut [R.PWR_POWER_avg, R.PWR_THROTTLE_stack_cap, R.PWR_THROTTLE_windows] s t ∧ PartsBut [.pkg] s t) := by
  obtain ⟨n, hexec⟩ := exec_powerWindow avg s
  have htarget : (s.wr R.PWR_POWER_avg [] avg).eclkTarget = s.eclkTarget := State.eclkTarget_wr _ _ (by decide)
  have hmode : (s.wr R.PWR_POWER_avg [] avg).mode = s.mode := State.rd_wr_num _ _ _ _ (by decide)
  obtain ⟨k, ⟨hstepRegs, hstepParts⟩, hstep⟩ := State.powerStep_cases avg (s.wr R.PWR_POWER_avg [] avg)
  rw [htarget, hmode, State.wr_pkg_eq] at hstep
  have hheld : ({ s.wr R.PWR_POWER_avg [] avg with pkg := k } : State).rd R.PWR_POWER_avg [] = avg :=
    (State.rd_wr_same _ _ _ s).trans (Nat.mod_eq_of_lt havg)
  have hregs : RegsBut [R.PWR_POWER_avg, R.PWR_THROTTLE_stack_cap, R.PWR_THROTTLE_windows] s
      { s.wr R.PWR_POWER_avg [] avg with pkg := k } :=
    ((RegsBut.refl _ s).wr (by simp) _ _).trans (regsBut_inPkg _ _ k)
  have hparts : PartsBut [.pkg] s { s.wr R.PWR_POWER_avg [] avg with pkg := k } :=
    ((PartsBut.refl _ s).wr _ _ _).trans (partsBut_inPkg _ k)
  have hpkg : ((s.wr R.PWR_POWER_avg [] avg).powerStep avg).pkg = k := hstepParts .pkg (by simp)
  generalize ({ s.wr R.PWR_POWER_avg [] avg with pkg := k } : State) = v at hstepRegs hstepParts hheld hregs hparts
  generalize (s.wr R.PWR_POWER_avg [] avg).powerStep avg = u at hexec hstepRegs hstepParts hpkg
  refine gives_clocked hexec h ⟨?held, ?less,
    (((hregs.trans (regsBut_weaken hstepRegs (by simp))).trans (regsBut_weaken u.retarget_regs (by simp))).wr (by simp) _ _).after,
    (((hparts.trans (hstepParts.weaken (by simp))).trans u.retarget_parts).wr _ _ _).after⟩
  case held =>
    rw [State.rd_after, State.rd_wr_num _ _ _ _ (by decide), State.rd_retarget _ _ (by decide) (by decide),
      hstepRegs _ _ (by decide) (by simp), hheld]
  case less =>
    rw [State.after_pkg_eq, State.wr_pkg_eq, State.retarget_powerEclk, State.retarget_powerCap, hpkg]
    exact hstep

theorem gives_eclkThrottledAlert (h : Runs s) (hlong : 16 < s.rd R.PWR_THROTTLE_windows []) :
    Gives .eclkThrottledAlert s (fun t => bitAt (t.rd R.PWR_EVT_events []) 0 = true ∧ RegsBut [] s t ∧
      PartsBut reporting s t) := by
  have hexec : exec .eclkThrottledAlert s = clocked s (s.event B.pwr 0) := by
    change execEclkThrottledAlert s = _
    rw [execEclkThrottledAlert, if_pos hlong]
  have htold := (Told.refl s).event B.pwr 0
  refine gives_clocked hexec h ⟨?_, (htold.regsBut []).after, htold.parts.after⟩
  rw [State.rd_after]
  exact State.event_raises (blk := B.pwr) (b := 0) s (by decide)

/-- Settles O2: each command writes the fields its rule names and the package state; over the limit the power controller's
step lowers ECLK before the caps, and retargeting leaves what it asks for. -/
theorem engineVoltage : Obligations.EngineVoltage :=
  fun _ h => ⟨fun _ _ _ => gives_voltageSettled h, fun _ _ => gives_avsSettleTimeout h, fun _ => gives_eclkRelockDone h,
    fun _ _ => gives_voltageTrim h, fun _ => gives_powerWindow h, gives_eclkThrottledAlert h⟩

end Sys2Proof.Machine
end

section
/-! PROOF. The refutation of the statement on the switch path: a response for this part may be the lender's answer to a
request that this part's own agents sent to a lent node, and then it ends the request's forwarded entry (R130, R176). -/

namespace Sys2Proof.Machine

open Sys2Proof.Safety

/-- A write of 128 bytes that this part, endpoint 5, sent on to node 6, which endpoint 40 lends. -/
def lentWrite : Msg := { chan := Ch.req, dst := 40, src := 5, ty := 0x12, len := 144, body := reqBody (6 <<< 44) 7 128 false 0 false 0 }

/-- The lender's answer. -/
def lentAnswer : Msg := { chan := Ch.rsp, dst := 5, src := 40, ty := 0x32, len := 16, body := rspBody 7 0 true 0 }

/-- Port 3 is ACTIVE with a lender of node 6 behind it, whose role is not 0, so the port is no edge port. -/
def lenderPort : State :=
  (((((((State.reset.wr R.GLB_NODE_eid [] 5).wr R.POL_LEND_valid [0] 1).wr R.POL_LEND_node [0] 6).wr R.POL_LEND_eid [0] 40).wr
    R.POL_LEND_port [0] 3).wr R.PRT_PORT_STATUS_state [3] Ps.active).wr R.PRT_PORT_STATUS_partner_role [3] 1).wr
    R.PRT_PORT_STATUS_partner_lender [3] 1

/-- The write holds a forwarded entry of die 0 (R128). -/
def lentOut : State :=
  { lenderPort with trk := { fwd := Map.empty.set [0, 0] { msg := lentWrite, port := 3, since := 0, remaining := 128 } } }

/-- R130: the lender's answer retires the forwarded entry. -/
theorem lentAnswer_retires_entry :
    ∃ t, exec (.messageArrival 3 lentAnswer) lentOut = .next t ∧ t.trk.fwd.has [0, 0] = false :=
  ⟨_, rfl, by decide +kernel⟩

/-- Refutes O12: the clause on a response for this part excludes a requester behind the port it came in on, not a lender.
In `lentOut` the response `lentAnswer` meets every hypothesis, but its arrival retires the forwarded entry of the request it
answers, and the clause's frame keeps the tracker as it was. -/
theorem not_switchPath : ¬ Obligations.SwitchPath := by
  intro h
  obtain ⟨harrival, -⟩ := h lentOut (by decide +kernel)
  obtain ⟨t, hexec, -, -, hframe⟩ := harrival 3 lentAnswer (by decide +kernel) (by decide +kernel) (by decide) (by decide)
    (by decide) (by decide) (by decide) (by decide) (by decide) (by decide +kernel) (by decide)
  have hkept : t.trk = lentOut.trk := hframe .trk (by decide)
  obtain ⟨u, hrun, hretired⟩ := lentAnswer_retires_entry
  obtain rfl : t = u := Host.Outcome.next.inj (hexec.symm.trans hrun)
  rw [hkept] at hretired
  exact absurd hretired (by decide)

end Sys2Proof.Machine
end

section
/-! LAWS. The time unit (R34 to R52): what entering a state, taking a parent and correcting time change and what they keep. -/

namespace Sys2Proof.Machine

open Sys2Proof.Safety

/-! ### What changes registers and parts together -/

/-- Only the registers and the parts named differ, and what reports. -/
structure Changes (l : List Fld) (ps : List Part) (s t : State) : Prop where
  regs : RegsBut l s t
  parts : PartsBut ps s t
  lists : ∀ f, ¬ Reports f → (∀ g ∈ l, f.num ≠ g.num) → t.listed f = s.listed f

section

variable {l : List Fld} {ps : List Part} {s t u : State}

theorem Changes.refl (l : List Fld) (ps : List Part) (s : State) : Changes l ps s s :=
  ⟨RegsBut.refl l s, PartsBut.refl ps s, fun _ _ _ => rfl⟩

theorem Changes.trans (h₁ : Changes l ps s t) (h₂ : Changes l ps t u) : Changes l ps s u :=
  ⟨h₁.regs.trans h₂.regs, h₁.parts.trans h₂.parts, fun f hf hl => (h₂.lists f hf hl).trans (h₁.lists f hf hl)⟩

theorem Changes.weaken {l' : List Fld} {ps' : List Part} (h : Changes l ps s t) (hl : ∀ f ∈ l, f ∈ l')
    (hp : ∀ p ∈ ps, p ∈ ps' := by decide) : Changes l' ps' s t :=
  ⟨regsBut_weaken h.regs hl, h.parts.weaken hp, fun f hf hn => h.lists f hf (fun g hg => hn g (hl g hg))⟩

theorem Changes.wr (h : Changes l ps s t) {f : Fld} (hf : f ∈ l) (ix : List Nat) (v : Nat) : Changes l ps s (t.wr f ix v) :=
  h.trans ⟨(RegsBut.refl l t).wr hf ix v, (PartsBut.refl ps t).wr f ix v, fun _ _ hl => State.listed_wr_num _ _ _ (hl f hf)⟩

theorem Changes.told (h : Changes l ps s t) (h₂ : Told t u) (hp : ∀ p ∈ reporting, p ∈ ps := by decide) : Changes l ps s u :=
  h.trans ⟨h₂.regsBut l, h₂.parts.weaken hp, fun f hf _ => h₂.lists f hf⟩

theorem Changes.inTim (h : Changes l ps s t) (k : Tim) (hp : Part.tim ∈ ps := by decide) :
    Changes l ps s { t with tim := k } := by
  refine h.trans ⟨fun _ _ _ _ => rfl, fun p hn => ?_, fun _ _ _ => rfl⟩
  cases p
  case tim => exact absurd hp hn
  all_goals rfl

theorem Changes.emit (h : Changes l ps s t) (o : Out) (hp : Part.out ∈ ps := by decide) : Changes l ps s (t.emit o) := by
  refine h.trans ⟨fun _ _ _ _ => rfl, fun p hn => ?_, fun _ _ _ => rfl⟩
  cases p
  case out => exact absurd hp hn
  all_goals rfl

theorem Changes.ite {a b : State} {c : Prop} [Decidable c] (ha : Changes l ps s a) (hb : Changes l ps s b) :
    Changes l ps s (if c then a else b) := by
  split
  · exact ha
  · exact hb

theorem Changes.foldl {α : Type} (g : State → α → State) (hg : ∀ s a, Changes l ps s (g s a)) (xs : List α) (s : State) :
    Changes l ps s (xs.foldl g s) := by
  induction xs generalizing s with
  | nil => exact Changes.refl l ps s
  | cons x xs ih => exact (hg s x).trans (ih (g s x))

theorem Changes.rd (h : Changes l ps s t) (f : Fld) (ix : List Nat) (hf : ¬ Reports f := by decide)
    (hl : ∀ g ∈ l, f.num ≠ g.num := by decide) : t.rd f ix = s.rd f ix := h.regs f ix hf hl

/-- The end of the command leaves the registers and parts as they are. -/
theorem Changes.after (h : Changes l ps s t) : RegsBut l s (u.after t) ∧ PartsBut ps s (u.after t) :=
  ⟨h.regs.after, h.parts.after⟩

end

/-! ### States of the time unit (R49) -/

/-- Entering a state writes and reports it, and the unit has left UNSYNC; a state already held is kept. -/
theorem State.setTst_cases (v : Nat) (s : State) :
    (s.tst = v ∧ s.setTst v = s) ∨
      ∃ u, Told (s.wr R.TIM_STATUS_state [] v) u ∧ s.setTst v = { u with tim := { u.tim with left := true } } := by
  unfold State.setTst
  split
  case isTrue h => exact .inl ⟨h, rfl⟩
  case isFalse => exact .inr ⟨_, (Told.refl _).event B.tim 0, rfl⟩

theorem changes_setTst (v : Nat) (s : State) : Changes [R.TIM_STATUS_state] [.tim, .out, .hif] s (s.setTst v) := by
  obtain ⟨-, hsame⟩ | ⟨u, htold, hset⟩ := s.setTst_cases v
  · rw [hsame]
    exact Changes.refl _ _ s
  · rw [hset]
    exact (((Changes.refl _ _ s).wr (by simp) _ _).told htold).inTim _

theorem State.tst_setTst {v : Nat} (hv : v < 8) (s : State) : (s.setTst v).tst = v := by
  obtain ⟨hv', hsame⟩ | ⟨u, htold, hset⟩ := s.setTst_cases v
  · rw [hsame, hv']
  · rw [hset]
    calc u.tst = (s.wr R.TIM_STATUS_state [] v).tst := htold.regs _ _ (by decide)
      _ = v % 2 ^ 3 := State.rd_wr_same _ _ _ s
      _ = v := Nat.mod_eq_of_lt hv

theorem State.setTst_tim (v : Nat) (s : State) : ∃ b, (s.setTst v).tim = { s.tim with left := b } := by
  obtain ⟨-, hsame⟩ | ⟨u, htold, hset⟩ := s.setTst_cases v
  · exact ⟨s.tim.left, by rw [hsame]⟩
  · exact ⟨true, by rw [hset, htold.tim_eq, State.wr_tim_eq]⟩

theorem changes_enterHoldover (s : State) : Changes [R.TIM_STATUS_state] [.tim, .out, .hif] s s.enterHoldover := by
  have hheld := (Changes.refl [R.TIM_STATUS_state] [.tim, .out, .hif] s).inTim
    { s.tim with held := false, holdSince := s.now, good := 0 }
  exact Changes.ite hheld (hheld.trans (changes_setTst _ _))

theorem State.tst_enterHoldover {s : State} (h : s.tst ≠ Ts.unsync) : s.enterHoldover.tst = Ts.holdover := by
  unfold State.enterHoldover
  rw [if_neg h]
  exact State.tst_setTst (by decide) _

theorem State.enterHoldover_tim (s : State) :
    ∃ b, s.enterHoldover.tim = { s.tim with held := false, holdSince := s.now, good := 0, left := b } := by
  unfold State.enterHoldover
  dsimp only
  split
  · exact ⟨s.tim.left, rfl⟩
  · exact State.setTst_tim _ _

/-! ### LOCKED (R40, R49, R443) -/

theorem changes_ready (blk : Nat) (s : State) : Changes [R.GLB_READY_ready] [.out, .hif] s (s.ready blk) :=
  Changes.ite (Changes.refl _ _ s) (((Changes.refl _ _ s).wr (by simp) _ _).told ((Told.refl _).event _ _))

theorem State.bit_ready {blk : Nat} (hblk : blk < 32) (s : State) :
    bitAt ((s.ready blk).rd R.GLB_READY_ready []) blk = true := by
  unfold State.ready
  split
  case isTrue hset => exact hset
  case isFalse hclear =>
    rw [State.rd_event _ _ _ _ (by decide), State.rd_wr_same, bitAt_eq_testBit, Nat.testBit_mod_two_pow, Nat.one_shiftLeft,
      testBit_add_two_pow (by simpa [bitAt_eq_testBit] using hclear)]
    simp [R.GLB_READY_ready, hblk]

theorem State.expireDue_noLease {s : State} (h : s.listed R.POL_LEASE_valid = []) : s.expireDue = s := by
  unfold State.expireDue
  split
  · rfl
  · rw [h]
    rfl

/-- The time unit LOCKED and ready, its good intervals counted anew. -/
def State.lockedReady (s : State) : State :=
  { (s.setTst Ts.locked).ready B.tim with tim := { ((s.setTst Ts.locked).ready B.tim).tim with good := 0 } }

theorem changes_lockedReady (s : State) :
    Changes [R.TIM_STATUS_state, R.GLB_READY_ready] [.tim, .out, .hif] s s.lockedReady :=
  (((changes_setTst _ s).weaken (by simp)).trans ((changes_ready _ _).weaken (by simp))).inTim _

theorem State.tst_lockedReady (s : State) : s.lockedReady.tst = Ts.locked :=
  ((changes_ready _ _).rd _ _).trans (State.tst_setTst (by decide) s)

/-- Without a lease, entering LOCKED reaches nothing but the time unit and its readiness. -/
theorem State.enterLocked_noLease {s : State} (hlease : s.listed R.POL_LEASE_valid = [])
    (hprov : s.pool.provisional.entries = []) :
    s.enterLocked = s.lockedReady := by
  have hch := changes_lockedReady s
  have hpool : s.lockedReady.pool = s.pool := hch.parts .pool (by decide)
  have hkeys : s.lockedReady.pool.provisional.keys = [] := by rw [hpool, Map.keys, hprov, List.map_nil]
  have hdue : s.lockedReady.expireDue = s.lockedReady :=
    State.expireDue_noLease ((hch.lists _ (by decide) (by decide)).trans hlease)
  change (s.lockedReady.pool.provisional.keys.foldl (fun t k => t.setExpiry (k.headD 0)) s.lockedReady).expireDue = _
  rw [hkeys, List.foldl_nil, hdue]

end Sys2Proof.Machine
end

section
/-! PROOF. The statement on the roles and states of the time unit (R40, R49). -/

namespace Sys2Proof.Machine

open Sys2Proof.Safety

variable {s : State}

/-- The fields of TIM_CTL as a write leaves them. -/
def State.roleWritten (v : Nat) (s : State) : State :=
  (((s.wr R.TIM_CTL_role [] (bitsOf v 0 2)).wr R.TIM_CTL_ref_sel [] (bitsOf v 2 2)).wr R.TIM_CTL_cricket_out_en []
    (bitsOf v 4 1)).wr R.TIM_CTL_master_gen [] (bitsOf v 16 16)

theorem bitsOf_lt (x lo w : Nat) : bitsOf x lo w < 2 ^ w := Nat.mod_lt _ (Nat.two_pow_pos w)

theorem changes_roleWritten (v : Nat) (s : State) : Changes [R.TIM_CTL_role, R.TIM_CTL_ref_sel, R.TIM_CTL_cricket_out_en,
    R.TIM_CTL_master_gen] [] s (s.roleWritten v) :=
  ((((Changes.refl _ _ s).wr (by simp) _ _).wr (by simp) _ _).wr (by simp) _ _).wr (by simp) _ _

theorem State.rd_roleWritten (v : Nat) (s : State) :
    (s.roleWritten v).rd R.TIM_CTL_role [] = bitsOf v 0 2 ∧ (s.roleWritten v).rd R.TIM_CTL_ref_sel [] = bitsOf v 2 2 ∧
      (s.roleWritten v).rd R.TIM_CTL_cricket_out_en [] = bitsOf v 4 1 ∧
      (s.roleWritten v).rd R.TIM_CTL_master_gen [] = bitsOf v 16 16 := by
  unfold State.roleWritten
  simp (disch := decide) only [State.rd_wr_num, State.rd_wr_same]
  exact ⟨Nat.mod_eq_of_lt (bitsOf_lt _ _ _), Nat.mod_eq_of_lt (bitsOf_lt _ _ _), Nat.mod_eq_of_lt (bitsOf_lt _ _ _),
    Nat.mod_eq_of_lt (bitsOf_lt _ _ _)⟩

theorem State.isMaster_roleWritten (v : Nat) (s : State) : (s.roleWritten v).isMaster = decide (bitsOf v 0 2 = 1) := by
  rw [State.isMaster, (s.rd_roleWritten v).1]

/-- A part as it becomes master: hop depth 0, nothing pending of its time as a worker. -/
def State.crowned (s : State) : State :=
  let t := (s.wr R.TIM_STATUS_hop_depth [] 0).wr R.TIM_STATUS_master_conflict [] 0
  { t with tim := { t.tim with held := false, conflict := none, step := none, halfRate := false, slew := 0, left := true } }

theorem changes_crowned (s : State) :
    Changes [R.TIM_STATUS_hop_depth, R.TIM_STATUS_master_conflict] [.tim] s s.crowned :=
  (((Changes.refl _ _ s).wr (by simp) _ _).wr (by simp) _ _).inTim _

theorem State.rd_hop_crowned (s : State) : s.crowned.rd R.TIM_STATUS_hop_depth [] = 0 :=
  (State.rd_wr_num _ _ _ _ (by decide)).trans (State.rd_wr_same _ _ _ s)

/-- R40: a write of TIM_CTL without a reserved encoding writes its fields, and acts where it changes the role. -/
theorem State.setRole_eq {v : Nat} (hrole : bitsOf v 0 2 ≤ 1) (hsel : bitsOf v 2 2 < 3) (s : State) :
    s.setRole v =
      if (s.roleWritten v).isMaster ∧ ¬ s.isMaster then (s.roleWritten v).crowned.enterLocked
      else if ¬ (s.roleWritten v).isMaster ∧ s.isMaster then (s.roleWritten v).enterHoldover
      else s.roleWritten v := by
  unfold State.setRole
  dsimp only
  rw [if_neg (Nat.not_lt.mpr hrole), if_neg (Nat.ne_of_lt hsel)]
  rfl

theorem gives_roleSet_master (h : Runs s) {v : Nat} (hrole : bitsOf v 0 2 = 1) (hsel : bitsOf v 2 2 < 3)
    (hworker : s.isMaster = false) (hlease : s.listed R.POL_LEASE_valid = []) (hprov : s.pool.provisional.entries = []) :
    Gives (.roleSet v) s (fun t => t.isMaster = true ∧ t.tst = Ts.locked ∧ t.rd R.TIM_STATUS_hop_depth [] = 0 ∧
      t.rd R.TIM_CTL_ref_sel [] = bitsOf v 2 2 ∧ t.rd R.TIM_CTL_master_gen [] = bitsOf v 16 16 ∧
      RegsBut [R.TIM_STATUS_master_conflict, R.TIM_CTL_role, R.TIM_CTL_ref_sel, R.TIM_CTL_cricket_out_en,
      R.TIM_CTL_master_gen, R.TIM_STATUS_hop_depth, R.TIM_STATUS_state, R.GLB_READY_ready] s t ∧
      PartsBut [.tim, .out, .hif] s t) := by
  have hmaster : (s.roleWritten v).isMaster = true := by rw [State.isMaster_roleWritten, hrole]; rfl
  have hwritten := changes_roleWritten v s
  have hcrowned := changes_crowned (s.roleWritten v)
  have hlocked := changes_lockedReady (s.roleWritten v).crowned
  have hlease' : (s.roleWritten v).crowned.listed R.POL_LEASE_valid = [] := by
    rw [hcrowned.lists _ (by decide) (by decide), hwritten.lists _ (by decide) (by decide), hlease]
  have hpool : (s.roleWritten v).crowned.pool = s.pool :=
    (hcrowned.parts .pool (by decide)).trans (hwritten.parts .pool (by decide))
  have hexec : exec (.roleSet v) s = clocked s (s.roleWritten v).crowned.lockedReady := by
    change clocked s (s.setRole v) = _
    rw [State.setRole_eq (by omega) hsel, if_pos ⟨hmaster, by simp [hworker]⟩,
      State.enterLocked_noLease hlease' (by rw [hpool, hprov])]
  obtain ⟨hrd, hrdSel, -, hrdGen⟩ := s.rd_roleWritten v
  refine gives_clocked hexec h ⟨?_, State.tst_lockedReady _, ?_, ?_, ?_,
    (((hwritten.weaken (by simp)).trans (hcrowned.weaken (by simp))).trans (hlocked.weaken (by simp))).after⟩
  · rw [State.isMaster, State.rd_after, hlocked.rd R.TIM_CTL_role, hcrowned.rd R.TIM_CTL_role, hrd, hrole]
    rfl
  · rw [State.rd_after, hlocked.rd R.TIM_STATUS_hop_depth, State.rd_hop_crowned]
  · rw [State.rd_after, hlocked.rd R.TIM_CTL_ref_sel, hcrowned.rd R.TIM_CTL_ref_sel, hrdSel]
  · rw [State.rd_after, hlocked.rd R.TIM_CTL_master_gen, hcrowned.rd R.TIM_CTL_master_gen, hrdGen]

theorem gives_roleSet_worker (h : Runs s) {v : Nat} (hrole : bitsOf v 0 2 = 0) (hsel : bitsOf v 2 2 < 3)
    (hmaster : s.isMaster = true) :
    Gives (.roleSet v) s (fun t => t.isMaster = false ∧ (s.tst = Ts.locked → t.tst = Ts.holdover) ∧ t.tim.held = false ∧
      RegsBut [R.TIM_CTL_role, R.TIM_CTL_ref_sel, R.TIM_CTL_cricket_out_en, R.TIM_CTL_master_gen, R.TIM_STATUS_state] s t ∧
      PartsBut [.tim, .out, .hif] s t) := by
  have hworker : (s.roleWritten v).isMaster = false := by rw [State.isMaster_roleWritten, hrole]; rfl
  have hwritten := changes_roleWritten v s
  have hhold := changes_enterHoldover (s.roleWritten v)
  have hexec : exec (.roleSet v) s = clocked s (s.roleWritten v).enterHoldover := by
    change clocked s (s.setRole v) = _
    rw [State.setRole_eq (by omega) hsel, if_neg (by simp [hworker]), if_pos ⟨by simp [hworker], hmaster⟩]
  have hkept : (s.roleWritten v).tst = s.tst := hwritten.rd _ _
  obtain ⟨b, htim⟩ := (s.roleWritten v).enterHoldover_tim
  refine gives_clocked hexec h ⟨?_, fun hlocked => ?_, ?_,
    ((hwritten.weaken (by simp)).trans (hhold.weaken (by simp))).after⟩
  · rw [State.isMaster, State.rd_after, hhold.rd R.TIM_CTL_role]
    exact hworker
  · exact State.tst_enterHoldover (by rw [hkept, hlocked]; decide)
  · rw [State.after_tim_eq, htim]

theorem gives_roleSet_same (h : Runs s) {v : Nat} (hsame : bitsOf v 0 2 = s.rd R.TIM_CTL_role []) (hrole : bitsOf v 0 2 ≤ 1)
    (hsel : bitsOf v 2 2 < 3) :
    Gives (.roleSet v) s (fun t => t.rd R.TIM_CTL_ref_sel [] = bitsOf v 2 2 ∧
      t.rd R.TIM_CTL_cricket_out_en [] = bitsOf v 4 1 ∧ t.rd R.TIM_CTL_master_gen [] = bitsOf v 16 16 ∧
      RegsBut [R.TIM_CTL_role, R.TIM_CTL_ref_sel, R.TIM_CTL_cricket_out_en, R.TIM_CTL_master_gen] s t ∧
      PartsBut [] s t) := by
  have hkept : (s.roleWritten v).isMaster = s.isMaster := by rw [State.isMaster_roleWritten, hsame, State.isMaster]
  have hexec : exec (.roleSet v) s = clocked s (s.roleWritten v) := by
    change clocked s (s.setRole v) = _
    rw [State.setRole_eq hrole hsel, hkept, if_neg and_not_self, if_neg not_and_self]
  obtain ⟨-, hrdSel, hrdOut, hrdGen⟩ := s.rd_roleWritten v
  exact gives_clocked hexec h ⟨hrdSel, hrdOut, hrdGen, (changes_roleWritten v s).after⟩

theorem gives_timeLocked (h : Runs s) (hworker : s.isMaster = false) (hheld : s.tim.held = true) (hgood : 64 ≤ s.tim.good)
    (hunsync : s.tst ≠ Ts.unsync) (hlocked : s.tst ≠ Ts.locked) (hlease : s.listed R.POL_LEASE_valid = [])
    (hprov : s.pool.provisional.entries = []) :
    Gives .timeLocked s (fun t => t.tst = Ts.locked ∧ bitAt (t.rd R.GLB_READY_ready []) B.tim = true ∧
      RegsBut [R.TIM_STATUS_state, R.GLB_READY_ready] s t ∧ PartsBut [.tim, .out, .hif] s t) := by
  have hexec : exec .timeLocked s = clocked s s.lockedReady := by
    change execTimeLocked s = _
    rw [execTimeLocked, if_pos ⟨by simp [hworker], hheld, hgood, hunsync, hlocked⟩, State.enterLocked_noLease hlease hprov]
  exact gives_clocked hexec h ⟨s.tst_lockedReady, State.bit_ready (by decide) _, (changes_lockedReady s).after⟩

theorem gives_holdLimitExpiry (h : Runs s) (hhold : s.tst = Ts.holdover) (hfree : s.tim.held = false)
    (hlimit : s.rd R.TIM_HOLD_LIMIT_beats [] * 1024 ≤ s.now - s.tim.holdSince) :
    Gives .holdLimitExpiry s (fun t => t.tst = Ts.lost ∧ RegsBut [R.TIM_STATUS_state] s t ∧
      PartsBut [.tim, .out, .hif] s t) := by
  have hexec : exec .holdLimitExpiry s = clocked s (s.setTst Ts.lost) := by
    change execHoldLimitExpiry s = _
    rw [execHoldLimitExpiry, if_pos ⟨hhold, by simp [hfree], hlimit⟩]
  exact gives_clocked hexec h ⟨State.tst_setTst (by decide) s, (changes_setTst _ s).after⟩

theorem gives_refLost (h : Runs s) (hmaster : s.isMaster = true) (hsel : s.rd R.TIM_CTL_ref_sel [] ≠ 0) :
    Gives .refLost s (fun t => t.rd R.TIM_STATUS_ref_lost [] = 1 ∧ bitAt (t.rd R.TIM_EVT_events []) 1 = true ∧
      RegsBut [R.TIM_STATUS_ref_lost] s t ∧ PartsBut reporting s t) := by
  have hexec : exec .refLost s = clocked s ((s.wr R.TIM_STATUS_ref_lost [] 1).event B.tim 1) := by
    change execRefLost s = _
    rw [execRefLost, if_pos ⟨hmaster, hsel⟩]
  refine gives_clocked hexec h ⟨?_, State.event_raises (blk := B.tim) (b := 1) _ (by decide),
    (((Changes.refl _ _ s).wr (by simp) _ _).told ((Told.refl _).event _ _)).after⟩
  rw [State.rd_after, State.rd_event _ _ _ _ (by decide), State.rd_wr_same]
  decide

theorem gives_refRestored (h : Runs s) :
    Gives .refRestored s (fun t => t.rd R.TIM_STATUS_ref_lost [] = 0 ∧ RegsBut [R.TIM_STATUS_ref_lost] s t ∧
      PartsBut [] s t) :=
  gives_clocked rfl h ⟨State.rd_wr_same _ _ _ s, ((Changes.refl _ _ s).wr (by simp) _ _).after⟩

/-- Settles O5: a write of TIM_CTL writes its fields, and a change of role enters LOCKED or HOLDOVER; without a lease,
entering LOCKED reaches the time unit and its readiness only. -/
theorem timeRole : Obligations.TimeRole :=
  fun _ h => ⟨fun _ => gives_roleSet_master h, fun _ => gives_roleSet_worker h, fun _ => gives_roleSet_same h,
    gives_timeLocked h, gives_holdLimitExpiry h, gives_refLost h, gives_refRestored h⟩

end Sys2Proof.Machine
end

section
/-! LAWS. Cricket messages (R41 to R45, R51): sending one, choosing a parent, correcting time and taking a SYNC, and what each
keeps of what the unit has heard and whom it follows. -/

namespace Sys2Proof.Machine

open Sys2Proof.Safety

/-! ### Whom the unit follows (R41, R42) -/

/-- The SYNCs heard, the master followed and the conflict are the same. -/
structure Tim.Heeds (k k' : Tim) : Prop where
  heard : k'.heard = k.heard
  master : k'.master = k.master
  conflict : k'.conflict = k.conflict

theorem Tim.Heeds.trans {a b c : Tim} (h₁ : a.Heeds b) (h₂ : b.Heeds c) : a.Heeds c :=
  ⟨h₂.heard.trans h₁.heard, h₂.master.trans h₁.master, h₂.conflict.trans h₁.conflict⟩

theorem heeds_setTst (v : Nat) (s : State) : s.tim.Heeds (s.setTst v).tim := by
  obtain ⟨b, htim⟩ := s.setTst_tim v
  rw [htim]
  exact ⟨rfl, rfl, rfl⟩

theorem heeds_enterHoldover (s : State) : s.tim.Heeds s.enterHoldover.tim := by
  obtain ⟨b, htim⟩ := s.enterHoldover_tim
  rw [htim]
  exact ⟨rfl, rfl, rfl⟩

/-! ### Sending (R43, R44) -/

theorem changes_sendCricket (p ty seq tx rx : Nat) (s : State) : Changes [] [.out] s (s.sendCricket p ty seq tx rx) :=
  (Changes.refl _ _ s).emit _

/-- R43: SYNC on one port. -/
def State.sendSync (s : State) (p : Nat) : State :=
  State.sendCricket p 1 (s.cricketSeq p 1).1 (s.cricketSeq p 1).2.tim.ft 0 (s.cricketSeq p 1).2

theorem changes_sendSync (s : State) (p : Nat) : Changes [] [.out, .tim] s (s.sendSync p) :=
  ((Changes.refl _ _ s).inTim _).emit _

theorem changes_sendDelayReq (s : State) : Changes [] [.out, .tim] s s.sendDelayReq :=
  ((Changes.refl _ _ s).inTim _).emit _

/-- A SYNC with the time, the master and the generation that this part holds. -/
def State.IsSync (s : State) (c : Cricket) : Prop :=
  c.ty = 1 ∧ c.tx = s.tim.ft ∧ c.master = s.sentMaster ∧ c.gen = s.sentGen

theorem State.sendSync_sends (s : State) (p : Nat) : ∃ c, Out.cricket p c ∈ (s.sendSync p).out ∧ s.IsSync c :=
  ⟨_, List.mem_append_right _ (List.mem_singleton_self _), rfl, rfl, rfl, rfl⟩

/-- A SYNC sent changes no register, nor the time or the master that the next one carries. -/
theorem State.isSync_sendSync {s : State} {p : Nat} {c : Cricket} (h : (s.sendSync p).IsSync c) : s.IsSync c := h

/-- What has been sent stays sent. -/
theorem State.mem_out_sendSyncs {o : Out} (ports : List Nat) {s : State} (h : o ∈ s.out) :
    o ∈ (ports.foldl State.sendSync s).out := by
  induction ports generalizing s with
  | nil => exact h
  | cons p ports ih => exact ih (List.mem_append_left _ h)

/-- R43: SYNC goes out on each of the ports. -/
theorem State.sendSyncs_sends {ports : List Nat} {p : Nat} (hp : p ∈ ports) (s : State) :
    ∃ c, Out.cricket p c ∈ (ports.foldl State.sendSync s).out ∧ s.IsSync c := by
  induction ports generalizing s with
  | nil => simp at hp
  | cons q ports ih =>
    rcases List.mem_cons.mp hp with rfl | hmem
    · obtain ⟨c, hout, hsync⟩ := s.sendSync_sends p
      exact ⟨c, State.mem_out_sendSyncs ports hout, hsync⟩
    · obtain ⟨c, hout, hsync⟩ := ih hmem (s.sendSync q)
      exact ⟨c, hout, State.isSync_sendSync hsync⟩

/-! ### Taking a parent (R41) -/

/-- A parent held on a port: its number, the own hop depth, and the good intervals counted with it. -/
def State.parentHeld (p hop good : Nat) (s : State) : State :=
  let t := (s.wr R.TIM_STATUS_parent_port [] p).wr R.TIM_STATUS_hop_depth [] (hop + 1)
  { t with tim := { t.tim with held := true, good := good } }

theorem changes_parentHeld (p hop good : Nat) (s : State) :
    Changes [R.TIM_STATUS_parent_port, R.TIM_STATUS_hop_depth] [.out, .tim] s (s.parentHeld p hop good) :=
  (((Changes.refl _ _ s).wr (by simp) _ _).wr (by simp) _ _).inTim _

theorem heeds_parentHeld (p hop good : Nat) (s : State) : s.tim.Heeds (s.parentHeld p hop good).tim := by
  unfold State.parentHeld
  constructor <;> simp

/-- No parent is held, or the one of R41 is, with an exchange started where it is a new one. -/
theorem State.chooseParent_cases (s : State) :
    s.chooseParent = { s with tim := { s.tim with held := false } } ∨
      ∃ p hop good, s.chooseParent = s.parentHeld p hop good ∨ s.chooseParent = (s.parentHeld p hop good).sendDelayReq := by
  unfold State.chooseParent
  split
  · exact .inl rfl
  · dsimp only
    split
    · exact .inr ⟨_, _, _, .inr rfl⟩
    · exact .inr ⟨_, _, _, .inl rfl⟩

theorem changes_chooseParent (s : State) :
    Changes [R.TIM_STATUS_parent_port, R.TIM_STATUS_hop_depth] [.out, .tim] s s.chooseParent := by
  obtain hnone | ⟨p, hop, good, hheld | hnew⟩ := s.chooseParent_cases
  · rw [hnone]
    exact (Changes.refl _ _ s).inTim _
  · rw [hheld]
    exact changes_parentHeld p hop good s
  · rw [hnew]
    exact (changes_parentHeld p hop good s).trans ((changes_sendDelayReq _).weaken (by simp))

theorem heeds_chooseParent (s : State) : s.tim.Heeds s.chooseParent.tim := by
  obtain hnone | ⟨p, hop, good, hheld | hnew⟩ := s.chooseParent_cases
  · rw [hnone]
    exact ⟨rfl, rfl, rfl⟩
  · rw [hheld]
    exact heeds_parentHeld p hop good s
  · rw [hnew]
    exact (heeds_parentHeld p hop good s).trans ⟨rfl, rfl, rfl⟩

/-! ### Correcting time (R45, R51) -/

/-- An offset shown, with the time unit as it then is. -/
def State.offsetShown (o : Int) (k : Tim) (s : State) : State := { s.wr R.TIM_OFFSET_o [] (fieldOfInt 32 o) with tim := k }

theorem changes_offsetShown (o : Int) (k : Tim) (s : State) : Changes [R.TIM_OFFSET_o] [.tim] s (s.offsetShown o k) :=
  ((Changes.refl _ _ s).wr (by simp) _ _).inTim k

/-- An offset is shown and the unit's count or its corrections change; in UNSYNC the unit then acquires. What it has heard,
whom it follows and the exchange it awaits stay. -/
theorem State.offset_cases (o : Int) (sync : Bool) (s : State) :
    ∃ k : Tim, (s.tim.Heeds k ∧ k.request = s.tim.request) ∧
      (s.offset o sync = s.offsetShown o k ∨ s.offset o sync = (s.offsetShown o k).setTst Ts.acquiring) := by
  have htim : (s.wr R.TIM_OFFSET_o [] (fieldOfInt 32 o)).tim = s.tim := State.wr_tim_eq _ _ _ s
  unfold State.offset State.offsetShown
  dsimp only
  generalize s.wr R.TIM_OFFSET_o [] (fieldOfInt 32 o) = u at htim
  rw [← htim]
  generalize (if sync = true then if o.natAbs ≤ 128 then u.tim.good + 1 else 0 else u.tim.good) = good
  split
  · refine ⟨_, ?_, .inr rfl⟩
    exact ⟨⟨rfl, rfl, rfl⟩, rfl⟩
  · repeat' split
    all_goals
      refine ⟨_, ?_, .inl rfl⟩
      exact ⟨⟨rfl, rfl, rfl⟩, rfl⟩

theorem changes_offset (o : Int) (sync : Bool) (s : State) :
    Changes [R.TIM_OFFSET_o, R.TIM_STATUS_state] [.tim, .out, .hif] s (s.offset o sync) := by
  obtain ⟨k, -, hkept | hacquiring⟩ := s.offset_cases o sync
  · rw [hkept]
    exact (changes_offsetShown o k s).weaken (by simp)
  · rw [hacquiring]
    exact ((changes_offsetShown o k s).weaken (by simp)).trans ((changes_setTst _ _).weaken (by simp))

theorem heeds_offset (o : Int) (sync : Bool) (s : State) : s.tim.Heeds (s.offset o sync).tim := by
  obtain ⟨k, ⟨hheeds, -⟩, hkept | hacquiring⟩ := s.offset_cases o sync
  · rw [hkept]
    exact hheeds
  · rw [hacquiring]
    exact hheeds.trans (heeds_setTst _ (s.offsetShown o k))

theorem State.offset_request (o : Int) (sync : Bool) (s : State) : (s.offset o sync).tim.request = s.tim.request := by
  obtain ⟨k, ⟨-, hrequest⟩, hkept | hacquiring⟩ := s.offset_cases o sync
  · rw [hkept]
    exact hrequest
  · obtain ⟨b, htim⟩ := (s.offsetShown o k).setTst_tim Ts.acquiring
    rw [hacquiring, htim]
    exact hrequest

/-! ### Taking a SYNC (R41, R42, R45) -/

/-- Nothing is followed yet. -/
abbrev State.Unled (s : State) : Prop := s.tim.heard = Map.empty ∧ s.tst = Ts.unsync

/-- How far a message's generation is ahead of the one followed (R42). -/
abbrev State.genAhead (s : State) (c : Cricket) : Nat := dist 16 c.gen (s.rd R.TIM_STATUS_followed_gen [])

/-- R42: the first generation heard, or a newer one, is followed. -/
def State.heed (c : Cricket) (s : State) : State := if s.Unled ∨ s.genAhead c ≠ 0 then s.follow c.gen c.master else s

/-- A SYNC recorded on its port; one that comes late ends the run of good intervals (R49). -/
def State.noteSync (p : Nat) (c : Cricket) (s : State) : State :=
  { s with tim := { s.tim with
      good := if (decide (s.rd R.TIM_STATUS_parent_port [] = p) &&
        (s.tim.heard.get? [p]).any (fun h => decide (h.time + 24576 ≤ s.now))) then 0 else s.tim.good
      heard := s.tim.heard.set [p] { gen := c.gen, master := c.master, hop := c.hop, time := s.now } } }

/-- R42: two masters carry one generation, and neither is followed. -/
def State.clash (master : Nat) (s : State) : State :=
  let t := (s.enterHoldover.wr R.TIM_STATUS_master_conflict [] 1).event B.tim 2
  { t with tim := { t.tim with conflict := some (s.tim.master, master) } }

/-- R41, R45: the parent is chosen anew, and a SYNC on its port gives an offset. -/
def State.measure (p : Nat) (c : Cricket) (rx : Nat) (s : State) : State :=
  let t := s.chooseParent
  if t.tim.held ∧ t.rd R.TIM_STATUS_parent_port [] = p then
    t.offset ((rx : Int) - c.tx - signedOf 24 (t.rd R.TIM_PORT_DELAY_delay [p])) true
  else t

/-- A SYNC that is not of an older generation is recorded, and then judged by the master it names. -/
theorem State.takeSync_eq {p : Nat} {c : Cricket} {rx : Nat} {s : State} (h : s.Unled ∨ s.genAhead c < 32768) :
    s.takeSync p c rx =
      if ((s.heed c).noteSync p c).tim.conflict.isSome then (s.heed c).noteSync p c
      else if c.master ≠ ((s.heed c).noteSync p c).tim.master then ((s.heed c).noteSync p c).clash c.master
      else ((s.heed c).noteSync p c).measure p c rx := by
  have hnew : ¬ (¬ s.Unled ∧ 32768 ≤ s.genAhead c) := fun hold => h.elim hold.1 (Nat.not_lt.mpr hold.2)
  unfold State.takeSync
  exact if_neg hnew

theorem changes_follow (gen master : Nat) (s : State) :
    Changes [R.TIM_STATUS_followed_gen, R.TIM_STATUS_master_conflict] [.tim] s (s.follow gen master) :=
  (((Changes.refl _ _ s).wr (by simp) _ _).wr (by simp) _ _).inTim _

theorem changes_heed (c : Cricket) (s : State) :
    Changes [R.TIM_STATUS_followed_gen, R.TIM_STATUS_master_conflict] [.tim] s (s.heed c) :=
  Changes.ite (changes_follow _ _ s) (Changes.refl _ _ s)

theorem State.heed_now (c : Cricket) (s : State) : (s.heed c).now = s.now := by
  unfold State.heed State.follow
  split <;> simp

theorem changes_noteSync (p : Nat) (c : Cricket) (s : State) : Changes [] [.tim] s (s.noteSync p c) := (Changes.refl _ _ s).inTim _

theorem State.noteSync_heard (p : Nat) (c : Cricket) (s : State) :
    (s.noteSync p c).tim.heard.get? [p] = some { gen := c.gen, master := c.master, hop := c.hop, time := s.now } :=
  Map.get?_set_same _ _ _

theorem changes_clash (master : Nat) (s : State) :
    Changes [R.TIM_STATUS_state, R.TIM_STATUS_master_conflict] [.tim, .out, .hif] s (s.clash master) :=
  ((((changes_enterHoldover s).weaken (by simp)).wr (by simp) _ _).told ((Told.refl _).event _ _)).inTim _

/-- What a clash makes of the unit: HOLDOVER without a parent, and the two masters in conflict. -/
theorem State.clash_tim (master : Nat) (s : State) :
    ∃ b, (s.clash master).tim = { s.tim with
      held := false, holdSince := s.now, good := 0, left := b, conflict := some (s.tim.master, master) } := by
  obtain ⟨b, htim⟩ := s.enterHoldover_tim
  refine ⟨b, ?_⟩
  unfold State.clash
  simp only [State.event_tim_eq, State.wr_tim_eq, htim]

theorem changes_measure (p : Nat) (c : Cricket) (rx : Nat) (s : State) :
    Changes [R.TIM_STATUS_parent_port, R.TIM_STATUS_hop_depth, R.TIM_OFFSET_o, R.TIM_STATUS_state] [.tim, .out, .hif] s
      (s.measure p c rx) := by
  have hchosen : Changes [R.TIM_STATUS_parent_port, R.TIM_STATUS_hop_depth, R.TIM_OFFSET_o, R.TIM_STATUS_state]
      [.tim, .out, .hif] s s.chooseParent := (changes_chooseParent s).weaken (by simp)
  exact Changes.ite (hchosen.trans ((changes_offset _ _ _).weaken (by simp))) hchosen

theorem heeds_measure (p : Nat) (c : Cricket) (rx : Nat) (s : State) : s.tim.Heeds (s.measure p c rx).tim := by
  unfold State.measure
  dsimp only
  split
  · exact (heeds_chooseParent s).trans (heeds_offset _ _ _)
  · exact heeds_chooseParent s

end Sys2Proof.Machine
end

section
/-! PROOF. The statement on cricket messages (R41 to R45, R49). -/

namespace Sys2Proof.Machine

open Sys2Proof.Safety

variable {s : State}

/-! ### What the part sends (R43) -/

theorem gives_syncInterval (h : Runs s) (hlocked : s.tst = Ts.locked) :
    Gives .syncInterval s (fun t => (∀ p, p < 256 → s.isActive p = true → s.on R.PRT_PORT_STATUS_partner_time [p] = true →
      s.isMaster = true ∨ p ≠ s.rd R.TIM_STATUS_parent_port [] → ∃ c, Out.cricket p c ∈ t.out ∧ c.ty = 1 ∧
      c.tx = s.tim.ft ∧ c.master = s.sentMaster ∧ c.gen = s.sentGen) ∧ RegsBut [] s t ∧ PartsBut [.out, .tim] s t) := by
  have hexec : exec .syncInterval s = clocked s (((List.range 256).filter (fun p => s.isActive p &&
      s.on R.PRT_PORT_STATUS_partner_time [p] && (s.isMaster || p ≠ s.rd R.TIM_STATUS_parent_port []))).foldl
      State.sendSync s) := by
    change execSyncInterval s = _
    rw [execSyncInterval, if_pos hlocked]
    rfl
  refine gives_clocked hexec h ⟨fun p hp hactive htime hchild => ?_, (Changes.foldl _ changes_sendSync _ s).after⟩
  exact State.sendSyncs_sends (List.mem_filter.mpr ⟨List.mem_range.mpr hp, by simpa [hactive, htime] using hchild⟩) s

theorem gives_delayReqInterval (h : Runs s) (hworker : s.isMaster = false) (hheld : s.tim.held = true) :
    Gives .delayReqInterval s (fun t => t.tim.request = some (s.rd R.TIM_STATUS_parent_port [],
      s.tim.seq.get 0 [s.rd R.TIM_STATUS_parent_port [], 2], s.tim.ft) ∧
      t.out = s.out ++ [.cricket (s.rd R.TIM_STATUS_parent_port [])
        { ty := 2, hop := s.rd R.TIM_STATUS_hop_depth [], gen := s.sentGen,
          seq := s.tim.seq.get 0 [s.rd R.TIM_STATUS_parent_port [], 2], master := s.sentMaster, tx := 0, rx := 0 }] ∧
      RegsBut [] s t ∧ PartsBut [.out, .tim] s t) := by
  have hexec : exec .delayReqInterval s = clocked s s.sendDelayReq := by
    change execDelayReqInterval s = _
    rw [execDelayReqInterval, if_pos ⟨by simp [hworker], hheld⟩]
  exact gives_clocked hexec h ⟨rfl, rfl, (changes_sendDelayReq s).after⟩

theorem gives_delayReq (h : Runs s) (p : Nat) (c : Cricket) (rx tx : Nat) :
    Gives (.delayReq p c rx tx) s (fun t => t.out = s.out ++ [.cricket p
      { ty := 3, hop := s.rd R.TIM_STATUS_hop_depth [], gen := s.sentGen, seq := c.seq, master := s.sentMaster,
        tx := tx, rx := rx }] ∧ RegsBut [] s t ∧ PartsBut [.out] s t) :=
  gives_clocked rfl h ⟨rfl, (changes_sendCricket p 3 c.seq tx rx s).after⟩

/-! ### SYNC received (R41, R42, R45) -/

theorem exec_sync {p : Nat} {c : Cricket} {rx : Nat} (hty : c.ty = 1) (hworker : s.isMaster = false) :
    exec (.sync p c rx) s = clocked s (s.takeSync p c rx) := by
  change execSync p c rx s = _
  rw [execSync, if_pos ⟨hty, by simp [hworker]⟩]

/-- A SYNC taken is on record at its port, whatever it then leads to. -/
theorem State.takeSync_heard {p : Nat} {c : Cricket} {rx : Nat} (hnew : s.Unled ∨ s.genAhead c < 32768) :
    (s.takeSync p c rx).tim.heard.get? [p] = some { gen := c.gen, master := c.master, hop := c.hop, time := s.now } := by
  have hnote := (s.heed c).noteSync_heard p c
  rw [State.heed_now] at hnote
  rw [State.takeSync_eq hnew]
  split
  · exact hnote
  · split
    · obtain ⟨b, htim⟩ := ((s.heed c).noteSync p c).clash_tim c.master
      rw [htim]
      exact hnote
    · rw [(heeds_measure p c rx _).heard]
      exact hnote

theorem changes_takeSync {p : Nat} {c : Cricket} {rx : Nat} (hnew : s.Unled ∨ s.genAhead c < 32768) :
    Changes [R.TIM_STATUS_state, R.TIM_STATUS_master_conflict, R.TIM_STATUS_parent_port, R.TIM_STATUS_hop_depth,
      R.TIM_STATUS_followed_gen, R.TIM_OFFSET_o] [.tim, .out, .hif] s (s.takeSync p c rx) := by
  have hnoted : Changes [R.TIM_STATUS_state, R.TIM_STATUS_master_conflict, R.TIM_STATUS_parent_port, R.TIM_STATUS_hop_depth,
      R.TIM_STATUS_followed_gen, R.TIM_OFFSET_o] [.tim, .out, .hif] s ((s.heed c).noteSync p c) :=
    ((changes_heed c s).weaken (by simp)).trans ((changes_noteSync p c _).weaken (by simp))
  rw [State.takeSync_eq hnew]
  exact Changes.ite hnoted (Changes.ite (hnoted.trans ((changes_clash _ _).weaken (by simp)))
    (hnoted.trans ((changes_measure _ _ _ _).weaken (by simp))))

theorem gives_sync_recorded (h : Runs s) {p : Nat} {c : Cricket} {rx : Nat} (hty : c.ty = 1) (hworker : s.isMaster = false)
    (hnew : s.Unled ∨ s.genAhead c < 32768) :
    Gives (.sync p c rx) s (fun t => t.tim.heard.get? [p] = some
      { gen := c.gen, master := c.master, hop := c.hop, time := s.now } ∧ RegsBut [R.TIM_STATUS_state,
      R.TIM_STATUS_master_conflict, R.TIM_STATUS_parent_port, R.TIM_STATUS_hop_depth, R.TIM_STATUS_followed_gen,
      R.TIM_OFFSET_o] s t ∧ PartsBut [.tim, .out, .hif] s t) :=
  gives_clocked (exec_sync hty hworker) h ⟨State.takeSync_heard hnew, (changes_takeSync hnew).after⟩

/-- The first SYNC is followed: its generation, its master, and no conflict. -/
theorem State.heed_first {c : Cricket} (hfirst : s.Unled) :
    (s.heed c).rd R.TIM_STATUS_followed_gen [] = c.gen % 65536 ∧ (s.heed c).tim.master = c.master ∧
      (s.heed c).tim.conflict = none := by
  rw [State.heed, if_pos (.inl hfirst)]
  exact ⟨(State.rd_wr_num _ _ _ _ (by decide)).trans (State.rd_wr_same _ _ _ s), rfl, rfl⟩

theorem gives_sync_first (h : Runs s) {p : Nat} {c : Cricket} {rx : Nat} (hty : c.ty = 1) (hgen : c.gen < 65536)
    (hworker : s.isMaster = false) (hheard : s.tim.heard = Map.empty) (hunsync : s.tst = Ts.unsync) :
    Gives (.sync p c rx) s (fun t => t.rd R.TIM_STATUS_followed_gen [] = c.gen ∧ t.tim.master = c.master ∧
      t.tim.conflict = none) := by
  obtain ⟨hfollowed, hmaster, hconflict⟩ := State.heed_first (c := c) ⟨hheard, hunsync⟩
  have hnone : ((s.heed c).noteSync p c).tim.conflict = none := hconflict
  have hsame : ((s.heed c).noteSync p c).tim.master = c.master := hmaster
  have htake : s.takeSync p c rx = ((s.heed c).noteSync p c).measure p c rx := by
    rw [State.takeSync_eq (.inl ⟨hheard, hunsync⟩), if_neg (by simp [hnone]), if_neg (fun hne => hne hsame.symm)]
  have hheeds := heeds_measure p c rx ((s.heed c).noteSync p c)
  refine gives_clocked ((exec_sync hty hworker).trans (congrArg (clocked s) htake)) h ⟨?_, ?_, ?_⟩
  · calc (((s.heed c).noteSync p c).measure p c rx).rd R.TIM_STATUS_followed_gen []
        = (s.heed c).rd R.TIM_STATUS_followed_gen [] :=
          ((changes_measure p c rx _).rd _ _).trans ((changes_noteSync p c _).rd _ _)
      _ = c.gen := hfollowed.trans (Nat.mod_eq_of_lt hgen)
  · exact hheeds.master.trans hsame
  · exact hheeds.conflict.trans hnone

theorem gives_sync_clash (h : Runs s) {p : Nat} {c : Cricket} {rx : Nat} (hty : c.ty = 1) (hworker : s.isMaster = false)
    (hsynced : s.tst ≠ Ts.unsync) (hgen : s.genAhead c = 0) (hconflict : s.tim.conflict = none)
    (hmaster : c.master ≠ s.tim.master) :
    Gives (.sync p c rx) s (fun t => t.rd R.TIM_STATUS_master_conflict [] = 1 ∧
      t.tim.conflict = some (s.tim.master, c.master) ∧ t.tim.held = false ∧ bitAt (t.rd R.TIM_EVT_events []) 2 = true) := by
  have hheed : s.heed c = s := if_neg (fun hnew => hnew.elim (fun hunled => hsynced hunled.2) (fun hahead => hahead hgen))
  have hnone : (s.noteSync p c).tim.conflict = none := hconflict
  have htake : s.takeSync p c rx = (s.noteSync p c).clash c.master := by
    rw [State.takeSync_eq (.inr (by omega)), hheed, if_neg (by simp [hnone])]
    exact if_pos hmaster
  obtain ⟨b, htim⟩ := (s.noteSync p c).clash_tim c.master
  refine gives_clocked ((exec_sync hty hworker).trans (congrArg (clocked s) htake)) h ⟨?_, ?_, ?_,
    State.event_raises (blk := B.tim) (b := 2) _ (by decide)⟩
  · exact ((State.rd_event _ _ _ _ (by decide)).trans (State.rd_wr_same _ _ _ _)).trans (by decide)
  · rw [State.after_tim_eq, htim]
    rfl
  · rw [State.after_tim_eq, htim]

/-! ### DELAY_RSP received (R44, R45) -/

/-- R45: the mean one-way delay of an exchange. -/
def meanDelay (c : Cricket) (rx t₁ : Nat) : Int := (((rx : Int) - t₁) - ((c.tx : Int) - c.rx)) / 2

/-- The delay from the parent of an exchange on port `p` shown, and the exchange ended. -/
def State.exchanged (p : Nat) (c : Cricket) (rx t₁ : Nat) (s : State) : State :=
  let t := s.wr R.TIM_PORT_DELAY_delay [p] (fieldOfInt 24 (meanDelay c rx t₁ + signedOf 16 (s.rd R.TIM_PORT_DELAY_asym [p])))
  { t with tim := { t.tim with request := none } }

theorem changes_exchanged (p : Nat) (c : Cricket) (rx t₁ : Nat) (s : State) :
    Changes [R.TIM_PORT_DELAY_delay] [.tim] s (s.exchanged p c rx t₁) := ((Changes.refl _ _ s).wr (by simp) _ _).inTim _

theorem fieldOfInt_lt (w : Nat) (x : Int) : fieldOfInt w x < 2 ^ w := by
  have hpos : (0 : Int) < 2 ^ w := Int.pow_pos (by decide)
  have hlt : x % 2 ^ w < ((2 ^ w : Nat) : Int) := by
    rw [Int.natCast_pow]
    exact Int.emod_lt_of_pos x hpos
  exact (Int.toNat_lt (Int.emod_nonneg x (Int.ne_of_gt hpos))).mpr hlt

theorem State.rd_exchanged (p : Nat) (c : Cricket) (rx t₁ : Nat) (s : State) :
    (s.exchanged p c rx t₁).rd R.TIM_PORT_DELAY_delay [p] =
      fieldOfInt 24 (meanDelay c rx t₁ + signedOf 16 (s.rd R.TIM_PORT_DELAY_asym [p])) :=
  (State.rd_wr_same _ _ _ s).trans (Nat.mod_eq_of_lt (fieldOfInt_lt 24 _))

/-- A matching answer ends the exchange; a worker also corrects its time by it. -/
theorem exec_delayRsp_matching {p : Nat} {c : Cricket} {rx t₁ : Nat} (hrequest : s.tim.request = some (p, c.seq, t₁))
    (hnew : s.genAhead c < 32768) :
    ∃ t, (t = s.exchanged p c rx t₁ ∨ ∃ o, t = (s.exchanged p c rx t₁).offset o false) ∧
      exec (.delayRsp p c rx) s = clocked s t := by
  have hexec : exec (.delayRsp p c rx) s = clocked s
      (if (s.exchanged p c rx t₁).isMaster then s.exchanged p c rx t₁
      else (s.exchanged p c rx t₁).offset
        ((t₁ : Int) + (meanDelay c rx t₁ - signedOf 16 (s.rd R.TIM_PORT_DELAY_asym [p])) - c.rx) false) := by
    change execDelayRsp p c rx s = _
    rw [execDelayRsp, if_neg (fun hold => Nat.not_lt.mpr hold.2 hnew), hrequest]
    dsimp only
    rw [if_pos ⟨rfl, rfl⟩]
    rfl
  refine ⟨_, ?_, hexec⟩
  split
  · exact .inl rfl
  · exact .inr ⟨_, rfl⟩

theorem gives_delayRsp_matching (h : Runs s) {p : Nat} {c : Cricket} {rx t₁ : Nat}
    (hrequest : s.tim.request = some (p, c.seq, t₁)) (hnew : s.genAhead c < 32768) :
    Gives (.delayRsp p c rx) s (fun t => t.rd R.TIM_PORT_DELAY_delay [p] = fieldOfInt 24 ((((rx : Int) - t₁) -
      ((c.tx : Int) - c.rx)) / 2 + signedOf 16 (s.rd R.TIM_PORT_DELAY_asym [p])) ∧ t.tim.request = none ∧
      RegsBut [R.TIM_PORT_DELAY_delay, R.TIM_OFFSET_o, R.TIM_STATUS_state] s t ∧ PartsBut [.tim, .out, .hif] s t) := by
  have hdelay := s.rd_exchanged p c rx t₁
  have hended : Changes [R.TIM_PORT_DELAY_delay, R.TIM_OFFSET_o, R.TIM_STATUS_state] [.tim, .out, .hif] s
      (s.exchanged p c rx t₁) := (changes_exchanged p c rx t₁ s).weaken (by simp)
  obtain ⟨_, rfl | ⟨o, rfl⟩, hexec⟩ := exec_delayRsp_matching (rx := rx) hrequest hnew
  · exact gives_clocked hexec h ⟨hdelay, rfl, hended.after⟩
  · have hoffset := changes_offset o false (s.exchanged p c rx t₁)
    exact gives_clocked hexec h ⟨(hoffset.rd _ _).trans hdelay, State.offset_request o false _,
      (hended.trans (hoffset.weaken (by simp))).after⟩

theorem gives_delayRsp_dropped (h : Runs s) {p : Nat} {c : Cricket} {rx : Nat} (hnone : s.tim.request = none)
    (hnew : s.genAhead c < 32768) :
    Gives (.delayRsp p c rx) s (fun t => t.rd R.TIM_DROP_COUNT_count [] =
      min (2 ^ 32 - 1) (s.rd R.TIM_DROP_COUNT_count [] + 1) ∧ RegsBut [] s t ∧ PartsBut [] s t) := by
  have hexec : exec (.delayRsp p c rx) s = clocked s (s.bump R.TIM_DROP_COUNT_count []) := by
    change execDelayRsp p c rx s = _
    rw [execDelayRsp, if_neg (fun hold => Nat.not_lt.mpr hold.2 hnew), hnone]
  exact gives_clocked hexec h ⟨State.rd_bump_same _ _ s, (((Told.refl s).bump (by decide) _).regsBut []).after,
    ((PartsBut.refl [] s).wr _ _ _).after⟩

/-! ### A reserved type (R44, R410) -/

/-- A protocol error of a port as it is counted and signalled there. -/
def State.portErr (p : Nat) (s : State) : State :=
  ((s.bump R.PRT_PORT_CNT_count [p, 6]).wr R.PRT_EVT_PORT_port [] p).event B.prt 4

theorem State.protoErr_prt (p : Nat) (s : State) :
    s.protoErr B.prt p = ((s.portErr p).contained (dieOfPort p) B.prt .ok p 0).event B.ras 4 := rfl

theorem told_portErr (p : Nat) (s : State) : Told s (s.portErr p) :=
  (((Told.refl s).bump (by decide) _).wr (by decide) _ _).event _ _

theorem State.rd_portErr (p : Nat) (s : State) :
    (s.portErr p).rd R.PRT_PORT_CNT_count [p, 6] = min (2 ^ 48 - 1) (s.rd R.PRT_PORT_CNT_count [p, 6] + 1) := by
  rw [State.portErr, State.rd_event_other _ _ _ _ (by decide), State.rd_wr_num _ _ _ _ (by decide), State.rd_bump_same]
  rfl

theorem State.rd_contained_other {f : Fld} (at_ blk : Nat) (st : Status) (source info : Nat) (ix : List Nat) (s : State)
    (hf : ∀ g ∈ [R.RAS_CNT_count, R.RAS_LOG_LOST_count, R.RAS_EVT_events, R.RAS_LOG_record, R.RAS_LOG_PROD_count],
      f.num ≠ g.num) :
    (s.contained at_ blk st source info).rd f ix = s.rd f ix := by
  obtain ⟨hcount, hring⟩ := List.forall_mem_cons.mp hf
  rw [State.contained, State.rd_event_other _ _ _ _ (hring R.RAS_EVT_events (by simp)),
    State.rd_ringPut_other _ _ _ _ _ _ _ _ _ hring, State.rd_bump_other _ _ _ hcount]

theorem gives_cricketReservedType (h : Runs s) {p : Nat} {c : Cricket} (hty : c.ty ≠ 1 ∧ c.ty ≠ 2 ∧ c.ty ≠ 3) :
    Gives (.cricketReservedType p c) s (fun t => t.rd R.PRT_PORT_CNT_count [p, 6] =
      min (2 ^ 48 - 1) (s.rd R.PRT_PORT_CNT_count [p, 6] + 1) ∧ bitAt (t.rd R.PRT_EVT_events []) 4 = true ∧
      bitAt (t.rd R.RAS_EVT_events []) 4 = true ∧ RegsBut [] s t ∧ PartsBut reporting s t) := by
  have hexec : exec (.cricketReservedType p c) s =
      clocked s (((s.portErr p).contained (dieOfPort p) B.prt .ok p 0).event B.ras 4) := by
    change execCricketReservedType p c s = _
    rw [execCricketReservedType, if_neg (by simpa using hty), State.protoErr_prt]
  have htold : Told s (((s.portErr p).contained (dieOfPort p) B.prt .ok p 0).event B.ras 4) :=
    ((told_portErr p s).contained _ _ _ _ _).event _ _
  have hsignalled : EventsStay (s.portErr p) (((s.portErr p).contained (dieOfPort p) B.prt .ok p 0).event B.ras 4) :=
    (eventsStay_contained _ _ _ _ _ _).trans (eventsStay_event _ _ _)
  refine gives_clocked hexec h ⟨?count, ?port, ?ras, (htold.regsBut []).after, htold.parts.after⟩
  all_goals rw [State.rd_after]
  case count =>
    rw [State.rd_event_other _ _ _ _ (by decide), State.rd_contained_other _ _ _ _ _ _ _ (by decide), State.rd_portErr]
  case port =>
    exact hsignalled R.PRT_EVT_events (by decide) 4 (by decide) (State.event_raises (blk := B.prt) (b := 4) _ (by decide))
  case ras => exact State.event_raises (blk := B.ras) (b := 4) _ (by decide)

/-! ### Silence (R42, R49) -/

/-- A silent parent forgotten: another one is taken, or the unit enters HOLDOVER. -/
def State.parentLost (s : State) : State :=
  let t := State.chooseParent { s with tim := { s.tim with
    heard := s.tim.heard.erase [s.rd R.TIM_STATUS_parent_port []] } }
  if t.tim.held then t else t.enterHoldover

theorem changes_parentLost (s : State) :
    Changes [R.TIM_STATUS_parent_port, R.TIM_STATUS_hop_depth, R.TIM_STATUS_state] [.tim, .out, .hif] s s.parentLost := by
  have hchosen : Changes [R.TIM_STATUS_parent_port, R.TIM_STATUS_hop_depth, R.TIM_STATUS_state] [.tim, .out, .hif] s
      (State.chooseParent { s with tim := { s.tim with heard := s.tim.heard.erase [s.rd R.TIM_STATUS_parent_port []] } }) :=
    ((Changes.refl _ _ s).inTim _).trans ((changes_chooseParent _).weaken (by simp))
  exact Changes.ite hchosen (hchosen.trans ((changes_enterHoldover _).weaken (by simp)))

theorem State.parentLost_heard (s : State) :
    s.parentLost.tim.heard = s.tim.heard.erase [s.rd R.TIM_STATUS_parent_port []] := by
  have hchosen := (heeds_chooseParent { s with tim := { s.tim with
    heard := s.tim.heard.erase [s.rd R.TIM_STATUS_parent_port []] } }).heard
  unfold State.parentLost
  dsimp only
  split
  · exact hchosen
  · exact (heeds_enterHoldover _).heard.trans hchosen

theorem gives_syncLoss (h : Runs s) (hworker : s.isMaster = false) (hheld : s.tim.held = true)
    (hsilent : (s.tim.heard.get {} [s.rd R.TIM_STATUS_parent_port []]).time + fourIntervals ≤ s.now) :
    Gives .syncLoss s (fun t => t.tim.heard.has [s.rd R.TIM_STATUS_parent_port []] = false ∧
      RegsBut [R.TIM_STATUS_parent_port, R.TIM_STATUS_hop_depth, R.TIM_STATUS_state] s t ∧
      PartsBut [.tim, .out, .hif] s t) := by
  have hexec : exec .syncLoss s = clocked s s.parentLost := by
    change execSyncLoss s = _
    rw [execSyncLoss]
    dsimp only
    rw [if_pos ⟨by simp [hworker], hheld, hsilent⟩]
    rfl
  refine gives_clocked hexec h ⟨?_, (changes_parentLost s).after⟩
  rw [State.after_tim_eq, State.parentLost_heard]
  exact Map.has_erase_same _ _

/-- The conflict over: the master `left` is followed, and nothing heard of the one that is gone is kept. -/
def State.conflictOver (gone left : Nat) (s : State) : State :=
  let t := s.wr R.TIM_STATUS_master_conflict [] 0
  { t with tim := { t.tim with
      master := left, conflict := none, heard := t.tim.heard.keep (fun _ h => h.master ≠ gone) } }

theorem changes_conflictOver (gone left : Nat) (s : State) :
    Changes [R.TIM_STATUS_master_conflict] [.tim] s (s.conflictOver gone left) :=
  ((Changes.refl _ _ s).wr (by simp) _ _).inTim _

theorem gives_masterWithdrawn (h : Runs s) {a b : Nat} (hconflict : s.tim.conflict = some (a, b))
    (hsilent : s.lastHeard b + fourIntervals ≤ s.now) :
    Gives .masterWithdrawn s (fun t => t.rd R.TIM_STATUS_master_conflict [] = 0 ∧ t.tim.conflict = none ∧
      t.tim.master = a ∧ RegsBut [R.TIM_STATUS_master_conflict, R.TIM_STATUS_parent_port, R.TIM_STATUS_hop_depth] s t ∧
      PartsBut [.tim, .out] s t) := by
  have hexec : exec .masterWithdrawn s = clocked s (s.conflictOver b a).chooseParent := by
    change execMasterWithdrawn s = _
    rw [execMasterWithdrawn, hconflict]
    dsimp only
    rw [if_pos hsilent]
    rfl
  have hover := changes_conflictOver b a s
  have hchosen := changes_chooseParent (s.conflictOver b a)
  have hheeds := heeds_chooseParent (s.conflictOver b a)
  refine gives_clocked hexec h ⟨?_, hheeds.conflict, hheeds.master,
    ((hover.weaken (by simp)).trans (hchosen.weaken (by simp))).after⟩
  rw [State.rd_after, hchosen.rd R.TIM_STATUS_master_conflict]
  exact State.rd_wr_same _ _ _ s

/-- Settles O6: a SYNC taken stays on record whatever choosing a parent, correcting time or a clash of masters makes of the
unit, and none of these touches the master or the conflict that following, clashing or a withdrawal has set. -/
theorem cricketMessages : Obligations.CricketMessages :=
  fun _ h => ⟨gives_syncInterval h, gives_delayReqInterval h, gives_delayReq h, fun _ _ _ => gives_sync_recorded h,
    fun _ _ _ => gives_sync_first h, fun _ _ _ => gives_sync_clash h, fun _ _ _ _ => gives_delayRsp_matching h,
    fun _ _ _ => gives_delayRsp_dropped h, fun _ _ => gives_cricketReservedType h, gives_syncLoss h,
    fun _ _ => gives_masterWithdrawn h⟩

end Sys2Proof.Machine
end

section
/-! LAWS. Ports of Sorou Link (R53 to R85, R477, R479): what each operation on a port makes of the port's context and state,
what leaves the part, and what stays. -/

namespace Sys2Proof.Machine

open Sys2Proof.Safety

/-! ### The context of a port -/

@[simp] theorem State.port_modPort (p : Nat) (f : Port → Port) (s : State) : (s.modPort p f).port p = f (s.port p) :=
  Map.get_set_same _ _ _ _

@[simp] theorem State.rd_modPort (p : Nat) (f : Port → Port) (s : State) (g : Fld) (ix : List Nat) :
    (s.modPort p f).rd g ix = s.rd g ix := rfl

@[simp] theorem State.out_modPort (p : Nat) (f : Port → Port) (s : State) : (s.modPort p f).out = s.out := rfl

theorem State.port_of_ports {s t : State} (h : t.ports = s.ports) (p : Nat) : t.port p = s.port p := by
  rw [State.port, h, State.port]

@[simp] theorem State.port_wr (f : Fld) (ix : List Nat) (v p : Nat) (s : State) : (s.wr f ix v).port p = s.port p :=
  State.port_of_ports (State.wr_ports_eq f ix v s) p

@[simp] theorem State.port_bump (f : Fld) (ix : List Nat) (p : Nat) (s : State) : (s.bump f ix).port p = s.port p :=
  State.port_wr _ _ _ _ _

@[simp] theorem State.port_bumpBy (f : Fld) (ix : List Nat) (n p : Nat) (s : State) : (s.bumpBy f ix n).port p = s.port p :=
  State.port_wr _ _ _ _ _

@[simp] theorem State.port_emit (o : Out) (p : Nat) (s : State) : (s.emit o).port p = s.port p := rfl

@[simp] theorem State.port_after (s t : State) (p : Nat) : (s.after t).port p = t.port p := rfl

@[simp] theorem State.pst_after (s t : State) (p : Nat) : (s.after t).pst p = t.pst p := rfl

@[simp] theorem State.stepOf_after (s t : State) (p : Nat) : (s.after t).stepOf p = t.stepOf p := rfl

theorem Told.port {s t : State} (h : Told s t) (p : Nat) : t.port p = s.port p := State.port_of_ports h.ports_eq p

/-- What was to leave the part stays so. -/
theorem Told.mem_out {s t : State} (h : Told s t) {o : Out} (ho : o ∈ s.out) : o ∈ t.out := by
  obtain ⟨x, hx⟩ := h.grows
  rw [hx]
  exact List.mem_append_left x ho

theorem Changes.modPort {l : List Fld} {ps : List Part} {s t : State} (h : Changes l ps s t) (p : Nat) (f : Port → Port)
    (hp : Part.ports ∈ ps := by decide) : Changes l ps s (t.modPort p f) := by
  refine h.trans ⟨fun _ _ _ _ => rfl, fun q hn => ?_, fun _ _ _ => rfl⟩
  cases q
  case ports => exact absurd hp hn
  all_goals rfl

theorem changes_modPort (p : Nat) (f : Port → Port) (s : State) : Changes [] [.ports] s (s.modPort p f) :=
  (Changes.refl _ _ s).modPort p f

/-- A counter of a port only reports. -/
theorem changes_bumpBy {f : Fld} (ix : List Nat) (n : Nat) (s : State) (hf : Reports f := by decide) :
    Changes [] [] s (s.bumpBy f ix n) :=
  ⟨((Told.refl s).bumpBy hf ix n).regsBut [], (PartsBut.refl [] s).wr _ _ _,
    fun g hg _ => ((Told.refl s).bumpBy hf ix n).lists g hg⟩

theorem changes_bump {f : Fld} (ix : List Nat) (s : State) (hf : Reports f := by decide) : Changes [] [] s (s.bump f ix) :=
  changes_bumpBy ix 1 s hf

theorem State.rd_bumpBy_same (f : Fld) (ix : List Nat) (n : Nat) (s : State) :
    (s.bumpBy f ix n).rd f ix = min (2 ^ f.w - 1) (s.rd f ix + n) := by
  have hlt : min (2 ^ f.w - 1) (s.rd f ix + n) < 2 ^ f.w := by
    have := Nat.two_pow_pos f.w
    omega
  exact (State.rd_wr_same _ _ _ _).trans (Nat.mod_eq_of_lt hlt)

theorem State.rd_bumpBy_index {f : Fld} {ix jx : List Nat} (n : Nat) (s : State) (h : jx ≠ ix) :
    (s.bumpBy f ix n).rd f jx = s.rd f jx := State.rd_wr_index _ _ h

theorem State.rd_bump_index {f : Fld} {ix jx : List Nat} (s : State) (h : jx ≠ ix) :
    (s.bump f ix).rd f jx = s.rd f jx := State.rd_wr_index _ _ h

/-- A programming error is signalled. -/
theorem State.progErr_raises (blk off : Nat) (s : State) : bitAt ((s.progErr blk off).rd R.RAS_EVT_events []) 3 = true := by
  unfold State.progErr
  exact State.event_raises (blk := B.ras) (b := 3) _ (by decide)

/-! ### The state of a port (R79, R477, R479) -/

/-- What writes neither the state field nor the phase of a port leaves the step of R79 it is in. -/
theorem State.stepOf_congr {s t : State} {p : Nat} (hpst : t.pst p = s.pst p) (hphase : (t.port p).phase = (s.port p).phase) :
    t.stepOf p = s.stepOf p := by
  rw [State.stepOf, State.stepOf, hpst, hphase]

theorem State.stepOf_modPort {p : Nat} {f : Port → Port} (h : ∀ r, (f r).phase = r.phase) (s : State) :
    (s.modPort p f).stepOf p = s.stepOf p :=
  State.stepOf_congr (State.rd_modPort _ _ _ _ _) (by rw [State.port_modPort, h])

theorem State.isActive_iff {s : State} {p : Nat} : s.isActive p = true ↔ s.pst p = Ps.active := decide_eq_true_iff

theorem State.stepOf_of_isActive {s : State} {p : Nat} (h : s.isActive p = true) : s.stepOf p = Ps.active := by
  rw [State.stepOf, State.isActive_iff.mp h]
  rfl

theorem changes_setPst (p st : Nat) (s : State) : Changes [R.PRT_PORT_STATUS_state] [.ports] s (s.setPst p st) :=
  ((Changes.refl _ _ s).wr (by simp) _ _).modPort _ _

theorem State.pst_setPst {st : Nat} (h : st < 16) (p : Nat) (s : State) : (s.setPst p st).pst p = st :=
  (State.rd_wr_same _ _ _ s).trans (Nat.mod_eq_of_lt h)

@[simp] theorem State.port_setPst (p st : Nat) (s : State) : (s.setPst p st).port p = { s.port p with since := s.now } := by
  simp [State.setPst]

@[simp] theorem State.out_setPst (p st : Nat) (s : State) : (s.setPst p st).out = s.out := State.wr_out_eq _ _ _ s

/-- Within RETRAIN the phase moves, outside it the state. -/
theorem State.setStep_cases (p st : Nat) (s : State) :
    (s.pst p = Ps.retrain ∧ s.setStep p st = s.modPort p (fun r => { r with phase := st })) ∨
      (s.pst p ≠ Ps.retrain ∧ s.setStep p st = s.setPst p st) := by
  unfold State.setStep
  split
  case isTrue h => exact .inl ⟨h, rfl⟩
  case isFalse h => exact .inr ⟨h, rfl⟩

theorem changes_setStep (p st : Nat) (s : State) : Changes [R.PRT_PORT_STATUS_state] [.ports] s (s.setStep p st) :=
  Changes.ite ((changes_modPort _ _ s).weaken (by simp)) (changes_setPst p st s)

theorem State.stepOf_setStep {st : Nat} (h : st < Ps.retrain) (p : Nat) (s : State) : (s.setStep p st).stepOf p = st := by
  obtain ⟨hretrain, hset⟩ | ⟨-, hset⟩ := s.setStep_cases p st
  · have hpst : (s.modPort p (fun r => { r with phase := st })).pst p = Ps.retrain := hretrain
    rw [hset, State.stepOf, if_pos hpst, State.port_modPort]
  · have hpst : (s.setPst p st).pst p = st := State.pst_setPst (Nat.lt_trans h (by decide)) p s
    rw [hset, State.stepOf, hpst, if_neg (Nat.ne_of_lt h)]

theorem State.port_setStep (p st : Nat) (s : State) :
    ∃ since phase, (s.setStep p st).port p = { s.port p with since := since, phase := phase } := by
  obtain ⟨-, hset⟩ | ⟨-, hset⟩ := s.setStep_cases p st
  · exact ⟨(s.port p).since, st, by rw [hset, State.port_modPort]⟩
  · exact ⟨s.now, (s.port p).phase, by rw [hset, State.port_setPst]⟩

theorem told_portEvent (p b : Nat) (s : State) : Told s (s.portEvent p b) :=
  ((Told.refl s).wr (by decide) _ _).event _ _

@[simp] theorem State.port_portEvent (p b q : Nat) (s : State) : (s.portEvent p b).port q = s.port q :=
  (told_portEvent p b s).port q

theorem State.portEvent_raises {b : Nat} (hb : b < 6) (p : Nat) (s : State) :
    bitAt ((s.portEvent p b).rd R.PRT_EVT_events []) b = true :=
  State.event_raises (blk := B.prt) (b := b) _ hb

/-! ### Going down (R78, R479) -/

theorem changes_clearLink (p : Nat) (s : State) : Changes [] [.ports] s (s.clearLink p) := by
  have hcount : Changes [] [.ports] s (s.bumpBy R.PRT_PORT_CNT_count [p, 7] (s.port p).replay.length) :=
    (changes_bumpBy _ _ s).weaken (by simp)
  unfold State.clearLink
  exact hcount.modPort p _

/-- R78: neither a flit nor a sequence number is kept. -/
theorem State.port_clearLink (p : Nat) (s : State) :
    ((s.clearLink p).port p).replay = [] ∧ ((s.clearLink p).port p).nextSeq = 0 ∧
      ((s.clearLink p).port p).attempts = (s.port p).attempts := by
  simp [State.clearLink]

/-- A port that is not up goes down without losing messages or lenders. -/
theorem State.goDown_of_not_isUp {s : State} {p : Nat} (h : s.isUp p = false) (st : Nat) :
    s.goDown p st = ((s.clearLink p).setPst p st).modPort p (fun r => { r with phase := 0 }) := by
  simp [State.goDown, h]

theorem changes_goDown {s : State} {p : Nat} (h : s.isUp p = false) (st : Nat) :
    Changes [R.PRT_PORT_STATUS_state] [.ports] s (s.goDown p st) := by
  rw [State.goDown_of_not_isUp h]
  exact (((changes_clearLink p s).weaken (by simp)).trans (changes_setPst p st _)).modPort _ _

theorem State.pst_goDown {s : State} {p st : Nat} (h : s.isUp p = false) (hst : st < 16) : (s.goDown p st).pst p = st := by
  rw [State.goDown_of_not_isUp h]
  exact State.pst_setPst hst p _

theorem State.port_goDown {s : State} {p : Nat} (h : s.isUp p = false) (st : Nat) :
    ((s.goDown p st).port p).replay = [] ∧ ((s.goDown p st).port p).nextSeq = 0 ∧
      ((s.goDown p st).port p).attempts = (s.port p).attempts := by
  rw [State.goDown_of_not_isUp h, State.port_modPort, State.port_setPst]
  exact s.port_clearLink p

/-! ### RETRAIN (R80, R477) -/

/-- What RETRAIN begins with: LOCK, and neither replays counted nor a change of lanes under way. -/
def Port.retraining (r : Port) : Port :=
  { r with phase := Ps.lock, replays := 0, widthAt := none, widthReq := none, lane := none, laneReady := false }

theorem State.enterRetrain_of_isActive {s : State} {p : Nat} (h : s.isActive p = true) (request : Bool) :
    s.enterRetrain p request =
      (((if request then s.lctl p .retrainReq else s).setPst p Ps.retrain).modPort p Port.retraining).portEvent p 3 := by
  rw [State.enterRetrain, if_neg (not_not_intro (State.isActive_iff.mp h))]
  rfl

/-- RETRAIN begun, before it is signalled. -/
theorem changes_retraining (p : Nat) (request : Bool) (s : State) : Changes [R.PRT_PORT_STATUS_state] [.ports, .out, .hif] s
    (((if request then s.lctl p .retrainReq else s).setPst p Ps.retrain).modPort p Port.retraining) :=
  ((Changes.ite ((Changes.refl _ _ s).emit _) (Changes.refl _ _ s)).trans
    ((changes_setPst p Ps.retrain _).weaken (by simp))).modPort _ _

theorem changes_enterRetrain {s : State} {p : Nat} (h : s.isActive p = true) (request : Bool) :
    Changes [R.PRT_PORT_STATUS_state] [.ports, .out, .hif] s (s.enterRetrain p request) := by
  rw [State.enterRetrain_of_isActive h]
  exact (changes_retraining p request s).told (told_portEvent p 3 _)

theorem State.pst_enterRetrain {s : State} {p : Nat} (h : s.isActive p = true) (request : Bool) :
    (s.enterRetrain p request).pst p = Ps.retrain := by
  rw [State.enterRetrain_of_isActive h]
  exact ((told_portEvent p 3 _).regs _ _ (by decide)).trans (State.pst_setPst (by decide) p _)

theorem State.port_enterRetrain {s : State} {p : Nat} (h : s.isActive p = true) (request : Bool) :
    ∃ since, (s.enterRetrain p request).port p = { (s.port p).retraining with since := since } := by
  rw [State.enterRetrain_of_isActive h, State.port_portEvent, State.port_modPort, State.port_setPst]
  cases request
  case false => exact ⟨s.now, rfl⟩
  case true => exact ⟨s.now, rfl⟩

theorem State.stepOf_enterRetrain {s : State} {p : Nat} (h : s.isActive p = true) (request : Bool) :
    (s.enterRetrain p request).stepOf p = Ps.lock := by
  obtain ⟨since, hport⟩ := State.port_enterRetrain h request
  rw [State.stepOf, if_pos (State.pst_enterRetrain h request), hport]
  rfl

/-- R477: RETRAIN_REQ goes out. -/
theorem State.enterRetrain_requests {s : State} {p : Nat} (h : s.isActive p = true) :
    Out.lctl p .retrainReq ∈ (s.enterRetrain p true).out := by
  rw [State.enterRetrain_of_isActive h]
  refine (told_portEvent p 3 _).mem_out ?_
  rw [State.out_modPort, State.out_setPst]
  exact List.mem_append_right _ (List.mem_singleton_self _)

/-- A protocol error leaves the port as it is. -/
theorem told_protoErr_prt (p : Nat) (s : State) : Told s (s.protoErr B.prt p) :=
  ((told_portErr p s).contained _ _ _ _ _).event _ _

/-! ### Flits that leave (R62, R70, R74, R76) -/

theorem changes_lctl (p : Nat) (c : Lctl) (s : State) : Changes [] [.out] s (s.lctl p c) := (Changes.refl _ _ s).emit _

theorem changes_idle (p : Nat) (vc : Option Nat) (s : State) : Changes [] [.ports, .out] s (s.idle p vc) := by
  cases vc
  case none => exact (Changes.refl _ _ s).emit _
  case some v => exact ((Changes.refl _ _ s).modPort _ _).emit _

/-- NAK, or none where the same value was named within 4 us: the port notes it and counts it. -/
theorem State.sendNak_cases (p : Nat) (s : State) :
    s.sendNak p = s ∨
      s.sendNak p = ((s.modPort p (fun r => { r with lastNak := some ((s.port p).expected, s.now) })).bump
        R.PRT_PORT_CNT_count [p, 3]).lctl p (.nak (s.port p).expected) := by
  unfold State.sendNak
  dsimp only
  split
  · split
    · exact .inl rfl
    · exact .inr rfl
  · exact .inr rfl

theorem State.sendNak_of_none {s : State} {p : Nat} (h : (s.port p).lastNak = none) :
    s.sendNak p = ((s.modPort p (fun r => { r with lastNak := some ((s.port p).expected, s.now) })).bump
      R.PRT_PORT_CNT_count [p, 3]).lctl p (.nak (s.port p).expected) := by
  rw [State.sendNak, h]
  rfl

theorem changes_sendNak (p : Nat) (s : State) : Changes [] [.ports, .out] s (s.sendNak p) := by
  obtain hnone | hsent := s.sendNak_cases p
  · rw [hnone]
    exact Changes.refl _ _ s
  · rw [hsent]
    exact (((changes_modPort _ _ s).weaken (by simp)).trans ((changes_bump _ _).weaken (by simp))).emit _

theorem State.port_sendNak (p : Nat) (s : State) : ∃ k, (s.sendNak p).port p = { s.port p with lastNak := k } := by
  obtain hnone | hsent := s.sendNak_cases p
  · exact ⟨(s.port p).lastNak, by rw [hnone]⟩
  · refine ⟨some ((s.port p).expected, s.now), ?_⟩
    rw [hsent, State.lctl, State.port_emit, State.port_bump, State.port_modPort]

/-- A NAK is counted under its own number. -/
theorem State.rd_sendNak_count {i : Nat} (h : i ≠ 3) (p : Nat) (s : State) :
    (s.sendNak p).rd R.PRT_PORT_CNT_count [p, i] = s.rd R.PRT_PORT_CNT_count [p, i] := by
  obtain hnone | hsent := s.sendNak_cases p
  · rw [hnone]
  · rw [hsent, State.lctl, State.rd_emit, State.rd_bump_index _ (by simpa using h), State.rd_modPort]

@[simp] theorem State.out_sendInitCredit (p : Nat) (s : State) :
    (s.sendInitCredit p).out = s.out ++ [.lctl p (.initCredit (s.offered p))] := rfl

theorem State.port_sendInitCredit (p : Nat) (s : State) :
    ∃ advertised freed, (s.sendInitCredit p).port p = { s.port p with advertised := advertised, freed := freed } := by
  unfold State.sendInitCredit
  dsimp only
  rw [State.lctl, State.port_emit, State.port_modPort]
  exact ⟨_, _, rfl⟩

theorem changes_sendInitCredit (p : Nat) (s : State) : Changes [] [.ports, .out] s (s.sendInitCredit p) :=
  ((Changes.refl _ _ s).modPort _ _).emit _

/-! ### Lanes, CAPS and INIT_CREDIT received (R57, R58, R73, R74) -/

/-- Lanes marked bad at this end. -/
def State.markBad (p mask : Nat) (s : State) : State := s.modPort p (fun r => { r with badLanes := r.badLanes ||| mask })

theorem changes_markBad (p mask : Nat) (s : State) : Changes [] [.ports] s (s.markBad p mask) := changes_modPort _ _ s

@[simp] theorem State.port_markBad (p mask : Nat) (s : State) :
    (s.markBad p mask).port p = { s.port p with badLanes := (s.port p).badLanes ||| mask } := State.port_modPort _ _ s

theorem State.ownGood_markBad (p mask : Nat) (s : State) :
    (s.markBad p mask).ownGood p = (2 ^ s.cfgWidth p - 1) &&& (255 ^^^ (((s.port p).badLanes ||| mask) &&& 255)) := by
  rw [State.ownGood, State.port_markBad]
  rfl

theorem exec_caps_config {s : State} {p : Nat} {c : Caps} (h : s.stepOf p = Ps.config) :
    exec (.caps p c) s = serving s ((s.modPort p (fun r => { r with gotCaps := some c })).tryComplete p) := by
  change execCaps p c s = _
  rw [execCaps, if_pos h]

theorem exec_initCredit_config {s : State} {p : Nat} {cr : List Nat} (h : s.stepOf p = Ps.config) :
    exec (.initCredit p cr) s = serving s ((s.modPort p (fun r => { r with gotCredit := some cr })).tryComplete p) := by
  change execInitCredit p cr s = _
  rw [execInitCredit, if_pos h]

end Sys2Proof.Machine
end

section
/-! PROOF. The statement on the training of a port (R57, R73, R74, R77 to R79, R477). -/

namespace Sys2Proof.Machine

open Sys2Proof.Safety

variable {s : State}

/-! ### Enable and disable (R54, R56, R78, R79) -/

/-- R79: the port enabled, at the start of its first attempt. -/
def State.enabled (p : Nat) (s : State) : State :=
  ((s.wr R.PRT_PORT_CTL_enable [p] 1).setPst p Ps.detect).modPort p
    (fun r => { r with attempts := 0, badLanes := 0, fresh := true })

theorem gives_portEnable (h : Serves s) {p : Nat} (hoff : s.on R.PRT_PORT_CTL_enable [p] = false)
    (hfree : s.enableRefused p = false) :
    Gives (.portEnable p) s (fun t => t.rd R.PRT_PORT_CTL_enable [p] = 1 ∧ t.pst p = Ps.detect ∧
      RegsBut [R.PRT_PORT_CTL_enable, R.PRT_PORT_STATUS_state] s t ∧ PartsBut [.ports] s t) := by
  have henable : s.enablePort p = s.enabled p := by
    rw [State.enablePort, if_neg (by simp [hoff]), if_neg (by simp [hfree]), State.enabled]
  have hset := changes_setPst p Ps.detect (s.wr R.PRT_PORT_CTL_enable [p] 1)
  refine gives_hosted (f := fun s => s.enablePort p) rfl h ?_
  rw [henable]
  refine ⟨?_, State.pst_setPst (by decide) p _,
    ((((Changes.refl _ _ s).wr (by simp) _ _).trans (hset.weaken (by simp))).modPort _ _).after⟩
  exact (hset.rd _ _).trans (State.rd_wr_same _ _ _ s)

theorem gives_portEnable_refused (h : Serves s) {p : Nat} (hoff : s.on R.PRT_PORT_CTL_enable [p] = false)
    (hrefused : s.enableRefused p = true) :
    Gives (.portEnable p) s (fun t => bitAt (t.rd R.RAS_EVT_events []) 3 = true ∧ RegsBut [] s t ∧
      PartsBut reporting s t) := by
  have henable : s.enablePort p = s.badWrite R.PRT_PORT_CTL_enable [p] := by
    rw [State.enablePort, if_neg (by simp [hoff]), if_pos hrefused]
  have htold := (Told.refl s).badWrite R.PRT_PORT_CTL_enable [p]
  refine gives_hosted (f := fun s => s.enablePort p) rfl h ?_
  rw [henable]
  refine ⟨?_, (htold.regsBut []).after, htold.parts.after⟩
  rw [State.rd_after]
  exact s.progErr_raises _ _

theorem gives_portDisable (h : Serves s) {p : Nat} (hdown : s.isUp p = false) :
    Gives (.portDisable p) s (fun t => t.rd R.PRT_PORT_CTL_enable [p] = 0 ∧ t.pst p = Ps.disabled ∧ (t.port p).replay = [] ∧
      (t.port p).nextSeq = 0 ∧ RegsBut [R.PRT_PORT_CTL_enable, R.PRT_PORT_STATUS_state] s t ∧ PartsBut [.ports] s t) := by
  have hdown' : (s.wr R.PRT_PORT_CTL_enable [p] 0).isUp p = false := by
    rwa [State.isUp, State.pst, State.rd_wr_num _ _ _ _ (by decide)]
  have hwent := changes_goDown hdown' Ps.disabled
  obtain ⟨hreplay, hseq, -⟩ := State.port_goDown hdown' Ps.disabled
  refine gives_hosted (f := fun s => s.disablePort p) rfl h ⟨?_, State.pst_goDown hdown' (by decide), hreplay, hseq,
    (((Changes.refl _ _ s).wr (by simp) _ _).trans (hwent.weaken (by simp))).after⟩
  exact (hwent.rd R.PRT_PORT_CTL_enable [p]).trans (State.rd_wr_same _ _ _ s)

/-! ### From DETECT to CONFIG (R57, R79, R477) -/

theorem gives_signalDetect (h : Serves s) {p : Nat} (hdetect : s.pst p = Ps.detect) :
    Gives (.signalDetect p) s (fun t => t.pst p = Ps.equalise ∧ RegsBut [R.PRT_PORT_STATUS_state] s t ∧
      PartsBut [.ports] s t) := by
  have hexec : exec (.signalDetect p) s = serving s (s.setPst p Ps.equalise) := by
    change execSignalDetect p s = _
    rw [execSignalDetect, if_pos hdetect]
  exact gives_serving hexec h ⟨State.pst_setPst (by decide) p s, (changes_setPst p _ s).after⟩

theorem gives_equaliseDone (h : Serves s) {p failed : Nat} (hstep : s.stepOf p = Ps.equalise)
    (hgood : (2 ^ s.cfgWidth p - 1) &&& (255 ^^^ (((s.port p).badLanes ||| failed) &&& 255)) ≠ 0) :
    Gives (.equaliseDone p failed) s (fun t => t.stepOf p = Ps.lock ∧ (t.port p).badLanes = (s.port p).badLanes ||| failed ∧
      RegsBut [R.PRT_PORT_STATUS_state] s t ∧ PartsBut [.ports] s t) := by
  have hleft : (s.markBad p failed).ownGood p ≠ 0 := by rwa [State.ownGood_markBad]
  have hexec : exec (.equaliseDone p failed) s = serving s ((s.markBad p failed).setStep p Ps.lock) := by
    change execEqualiseDone p failed s = _
    rw [execEqualiseDone, if_pos hstep]
    exact congrArg (serving s) (if_neg hleft)
  obtain ⟨since, phase, hport⟩ := (s.markBad p failed).port_setStep p Ps.lock
  refine gives_serving hexec h ⟨State.stepOf_setStep (by decide) p _, ?_,
    (((changes_markBad p failed s).weaken (by simp)).trans (changes_setStep p _ _)).after⟩
  rw [State.port_after, hport, State.port_markBad]

/-- CONFIG begins with what it is to receive forgotten, and with CAPS and INIT_CREDIT. -/
theorem State.enterConfig_eq (p : Nat) (s : State) :
    ∃ f : Port → Port, (∀ r, (f r).completed = false ∧ (f r).phase = r.phase) ∧
      s.enterConfig p = ((((s.setStep p Ps.config).modPort p f).lctl p
        (.caps (((s.setStep p Ps.config).modPort p f).ownCaps p))).sendInitCredit p) := by
  refine ⟨_, ?_, rfl⟩
  exact fun _ => ⟨rfl, rfl⟩

theorem State.enterConfig_enters (p : Nat) (s : State) :
    (s.enterConfig p).stepOf p = Ps.config ∧ ((s.enterConfig p).port p).completed = false ∧
      (∃ c l, Out.lctl p (.caps c) ∈ (s.enterConfig p).out ∧ Out.lctl p (.initCredit l) ∈ (s.enterConfig p).out) ∧
      Changes [R.PRT_PORT_STATUS_state] [.ports, .out] s (s.enterConfig p) := by
  obtain ⟨f, hf, henter⟩ := s.enterConfig_eq p
  have hbegun : ((s.setStep p Ps.config).modPort p f).stepOf p = Ps.config :=
    (State.stepOf_modPort (fun r => (hf r).2) _).trans (State.stepOf_setStep (by decide) p s)
  have hchanges : Changes [R.PRT_PORT_STATUS_state] [.ports, .out] s ((s.setStep p Ps.config).modPort p f) :=
    ((changes_setStep p _ s).weaken (by simp)).modPort _ _
  have hopen : (((s.setStep p Ps.config).modPort p f).port p).completed = false := by rw [State.port_modPort, (hf _).1]
  rw [henter]
  generalize (s.setStep p Ps.config).modPort p f = u at hbegun hchanges hopen
  obtain ⟨advertised, freed, hport⟩ := (u.lctl p (.caps (u.ownCaps p))).port_sendInitCredit p
  have hsent := changes_sendInitCredit p (u.lctl p (.caps (u.ownCaps p)))
  refine ⟨?_, by rw [hport]; exact hopen, ⟨u.ownCaps p, _, ?_, List.mem_append_right _ (List.mem_singleton_self _)⟩,
    (hchanges.emit _).trans (hsent.weaken (by simp))⟩
  · exact (State.stepOf_congr (s := u) (hsent.rd _ _) (by rw [hport]; rfl)).trans hbegun
  · exact List.mem_append_left _ (List.mem_append_right _ (List.mem_singleton_self _))

theorem gives_lockDone (h : Serves s) {p late : Nat} {rev : Bool} (hstep : s.stepOf p = Ps.lock)
    (hgood : (2 ^ s.cfgWidth p - 1) &&& (255 ^^^ (((s.port p).badLanes ||| late) &&& 255)) ≠ 0) :
    Gives (.lockDone p late rev) s (fun t => t.stepOf p = Ps.config ∧ t.rd R.PRT_PORT_STATUS_lane_reversed [p] = b2n rev ∧
      (t.port p).completed = false ∧ (∃ c l, Out.lctl p (.caps c) ∈ t.out ∧ Out.lctl p (.initCredit l) ∈ t.out) ∧
      RegsBut [R.PRT_PORT_STATUS_state, R.PRT_PORT_STATUS_lane_reversed] s t ∧ PartsBut [.ports, .out] s t) := by
  have hleft : ((s.wr R.PRT_PORT_STATUS_lane_reversed [p] (b2n rev)).markBad p late).ownGood p ≠ 0 := by
    rwa [State.ownGood_markBad, State.port_wr, State.cfgWidth, State.rd_wr_num _ _ _ _ (by decide)]
  have hexec : exec (.lockDone p late rev) s =
      serving s (((s.wr R.PRT_PORT_STATUS_lane_reversed [p] (b2n rev)).markBad p late).enterConfig p) := by
    change execLockDone p late rev s = _
    rw [execLockDone, if_pos hstep]
    exact congrArg (serving s) (if_neg hleft)
  have hlocked : Changes [R.PRT_PORT_STATUS_lane_reversed] [.ports] s
      ((s.wr R.PRT_PORT_STATUS_lane_reversed [p] (b2n rev)).markBad p late) :=
    ((Changes.refl _ _ s).wr (by simp) _ _).modPort _ _
  obtain ⟨hconfig, hopen, hsent, hchanges⟩ :=
    ((s.wr R.PRT_PORT_STATUS_lane_reversed [p] (b2n rev)).markBad p late).enterConfig_enters p
  refine gives_serving hexec h ⟨hconfig, ?_, hopen, hsent,
    ((hlocked.weaken (by simp)).trans (hchanges.weaken (by simp))).after⟩
  rw [State.rd_after, hchanges.rd R.PRT_PORT_STATUS_lane_reversed, State.markBad, State.rd_modPort, State.rd_wr_same]
  cases rev <;> rfl

theorem gives_trainingTimeout (h : Serves s) {p l : Nat} (hlimit : s.trainLimit p = some l)
    (hlate : l ≤ s.now - (s.port p).since) (hdown : s.isUp p = false) :
    Gives (.trainingTimeout p) s (fun t => (t.port p).attempts = (s.port p).attempts + 1 ∧
      (t.pst p = if 3 ≤ (s.port p).attempts + 1 then Ps.fault else Ps.detect) ∧
      RegsBut [R.PRT_PORT_STATUS_state] s t ∧ PartsBut [.ports] s t) := by
  have hexec : exec (.trainingTimeout p) s = serving s (s.failAttempt p) := by
    change execTrainingTimeout p s = _
    rw [execTrainingTimeout, hlimit]
    exact congrArg (serving s) (if_pos hlate)
  have hst : (if 3 ≤ (s.port p).attempts + 1 then Ps.fault else Ps.detect) < 16 := by split <;> decide
  refine gives_serving hexec h ⟨?_, State.pst_goDown hdown hst, ((changes_goDown hdown _).modPort _ _).after⟩
  rw [State.port_after, State.failAttempt, State.port_modPort]

/-! ### CAPS and INIT_CREDIT (R73, R74, R477) -/

theorem gives_configRepeat (h : Serves s) {p : Nat} (hconfig : s.stepOf p = Ps.config) :
    Gives (.configRepeat p) s (fun t => Out.lctl p (.caps (s.ownCaps p)) ∈ t.out ∧
      Out.lctl p (.initCredit (s.offered p)) ∈ t.out ∧ RegsBut [] s t ∧ PartsBut [.ports, .out] s t) := by
  have hexec : exec (.configRepeat p) s = serving s (if (s.port p).completed then
      ((s.lctl p (.caps (s.ownCaps p))).sendInitCredit p).idle p none
      else (s.lctl p (.caps (s.ownCaps p))).sendInitCredit p) := by
    change execConfigRepeat p s = _
    rw [execConfigRepeat, if_pos hconfig]
  have hout : ((s.lctl p (.caps (s.ownCaps p))).sendInitCredit p).out =
      s.out ++ [.lctl p (.caps (s.ownCaps p))] ++ [.lctl p (.initCredit (s.offered p))] := rfl
  have hchanges : Changes [] [.ports, .out] s ((s.lctl p (.caps (s.ownCaps p))).sendInitCredit p) :=
    ((Changes.refl _ _ s).emit _).trans (changes_sendInitCredit p _)
  generalize (s.lctl p (.caps (s.ownCaps p))).sendInitCredit p = u at hexec hout hchanges
  have hall : ∀ o ∈ u.out, o ∈ (if (s.port p).completed then u.idle p none else u).out := by
    intro o ho
    split
    · exact List.mem_append_left _ ho
    · exact ho
  refine gives_serving hexec h ⟨hall _ ?_, hall _ ?_, (Changes.ite (hchanges.trans (changes_idle p none u)) hchanges).after⟩
  · rw [hout]
    simp
  · rw [hout]
    simp

theorem gives_initCreditRepeat (h : Serves s) {p : Nat} (hactive : s.isActive p = true)
    (huntil : s.now ≤ (s.port p).repeatUntil) :
    Gives (.initCreditRepeat p) s (fun t => t.out = s.out ++ [.lctl p (.initCredit (s.offered p))] ∧ RegsBut [] s t ∧
      PartsBut [.out] s t) := by
  have hexec : exec (.initCreditRepeat p) s = serving s (s.lctl p (.initCredit (s.offered p))) := by
    change execInitCreditRepeat p s = _
    rw [execInitCreditRepeat, if_pos ⟨hactive, huntil⟩]
  exact gives_serving hexec h ⟨rfl, (changes_lctl p _ s).after⟩

theorem gives_caps_kept (h : Serves s) {p : Nat} {c : Caps} (hconfig : s.stepOf p = Ps.config)
    (hnone : (s.port p).gotCredit = none) :
    Gives (.caps p c) s (fun t => (t.port p).gotCaps = some c ∧ t.stepOf p = Ps.config ∧ RegsBut [] s t ∧
      PartsBut [.ports] s t) := by
  have hwait : (s.modPort p (fun r => { r with gotCaps := some c })).tryComplete p =
      s.modPort p (fun r => { r with gotCaps := some c }) := by
    simp [State.tryComplete, hnone]
  have hexec : exec (.caps p c) s = serving s (s.modPort p (fun r => { r with gotCaps := some c })) := by
    rw [exec_caps_config hconfig, hwait]
  refine gives_serving hexec h ⟨?_, ?_, (changes_modPort p _ s).after⟩
  · rw [State.port_after, State.port_modPort]
  · rw [State.stepOf_after]
    refine Eq.trans (State.stepOf_modPort ?_ s) hconfig
    exact fun _ => rfl

theorem gives_initCredit_kept (h : Serves s) {p : Nat} {cr : List Nat} (hconfig : s.stepOf p = Ps.config)
    (hnone : (s.port p).gotCaps = none) :
    Gives (.initCredit p cr) s (fun t => (t.port p).gotCredit = some cr ∧ t.stepOf p = Ps.config ∧ RegsBut [] s t ∧
      PartsBut [.ports] s t) := by
  have hwait : (s.modPort p (fun r => { r with gotCredit := some cr })).tryComplete p =
      s.modPort p (fun r => { r with gotCredit := some cr }) := by
    simp [State.tryComplete, hnone]
  have hexec : exec (.initCredit p cr) s = serving s (s.modPort p (fun r => { r with gotCredit := some cr })) := by
    rw [exec_initCredit_config hconfig, hwait]
  refine gives_serving hexec h ⟨?_, ?_, (changes_modPort p _ s).after⟩
  · rw [State.port_after, State.port_modPort]
  · rw [State.stepOf_after]
    refine Eq.trans (State.stepOf_modPort ?_ s) hconfig
    exact fun _ => rfl

/-- R73: a virtual channel that INIT_CREDIT enables in ACTIVE starts with the credit it names. -/
def Port.enableVc (cr : List Nat) (r : Port) (vc : Nat) : Port :=
  if r.initial.get 0 [vc] = 0 ∧ cr.getD vc 0 ≠ 0 then
    { r with credit := r.credit.set [vc] (cr.getD vc 0), lastTotal := r.lastTotal.erase [vc],
             initial := r.initial.set [vc] (cr.getD vc 0) }
  else r

/-- The credit and the initial credit of a virtual channel, read together. -/
abbrev Port.creditsOf (r : Port) (vc : Nat) : Int × Nat := (r.credit.get 0 [vc], r.initial.get 0 [vc])

theorem Port.creditsOf_noteZero (r : Port) (now vc : Nat) : (r.noteZero now).creditsOf vc = r.creditsOf vc := rfl

theorem Port.enableVc_starts {cr : List Nat} {r : Port} {vc : Nat} (hoff : r.initial.get 0 [vc] = 0)
    (hnamed : cr.getD vc 0 ≠ 0) : (r.enableVc cr vc).creditsOf vc = (((cr.getD vc 0 : Nat) : Int), cr.getD vc 0) := by
  rw [Port.enableVc, if_pos ⟨hoff, hnamed⟩, Port.creditsOf, Map.get_set_same, Map.get_set_same]

/-- Another virtual channel, and one that runs already, stay as they are. -/
theorem Port.enableVc_keeps {cr : List Nat} {r : Port} {v vc : Nat} (h : vc ≠ v ∨ r.initial.get 0 [vc] ≠ 0) :
    (r.enableVc cr v).creditsOf vc = r.creditsOf vc := by
  unfold Port.enableVc
  split
  case isTrue hopens =>
    have hne : [vc] ≠ [v] := fun heq => by
      obtain rfl : vc = v := by simpa using heq
      exact h.elim (fun hself => hself rfl) (fun hruns => hruns hopens.1)
    rw [Port.creditsOf, Map.get_set_other _ _ _ hne, Map.get_set_other _ _ _ hne]
  case isFalse => rfl

theorem Port.enableVcs_keeps {cr : List Nat} {vc : Nat} (l : List Nat) {r : Port} (hruns : r.initial.get 0 [vc] ≠ 0) :
    (l.foldl (Port.enableVc cr) r).creditsOf vc = r.creditsOf vc := by
  induction l generalizing r with
  | nil => rfl
  | cons v l ih =>
    have hkept : (r.enableVc cr v).creditsOf vc = r.creditsOf vc := Port.enableVc_keeps (.inr hruns)
    have hstill : (r.enableVc cr v).initial.get 0 [vc] ≠ 0 := by
      rw [show (r.enableVc cr v).initial.get 0 [vc] = _ from congrArg Prod.snd hkept]
      exact hruns
    exact (ih hstill).trans hkept

theorem Port.enableVcs_starts {cr : List Nat} {vc : Nat} {l : List Nat} (hmem : vc ∈ l) {r : Port}
    (hoff : r.initial.get 0 [vc] = 0) (hnamed : cr.getD vc 0 ≠ 0) :
    (l.foldl (Port.enableVc cr) r).creditsOf vc = (((cr.getD vc 0 : Nat) : Int), cr.getD vc 0) := by
  induction l generalizing r with
  | nil => simp at hmem
  | cons v l ih =>
    by_cases hv : vc = v
    · subst hv
      have hstarts := Port.enableVc_starts hoff hnamed
      have hruns : (r.enableVc cr vc).initial.get 0 [vc] ≠ 0 := by
        rw [show (r.enableVc cr vc).initial.get 0 [vc] = _ from congrArg Prod.snd hstarts]
        exact hnamed
      exact (Port.enableVcs_keeps l hruns).trans hstarts
    · have hkept : (r.enableVc cr v).creditsOf vc = r.creditsOf vc := Port.enableVc_keeps (.inl hv)
      exact ih ((List.mem_cons.mp hmem).resolve_left hv) ((congrArg Prod.snd hkept).trans hoff)

theorem gives_initCredit_active (h : Serves s) {p : Nat} {cr : List Nat} (hactive : s.isActive p = true)
    (hsame : creditSame cr (s.port p) = true) :
    Gives (.initCredit p cr) s (fun t => (∀ vc ∈ vcs, (s.port p).initial.get 0 [vc] = 0 → cr.getD vc 0 ≠ 0 →
      (t.port p).credit.get 0 [vc] = cr.getD vc 0 ∧ (t.port p).initial.get 0 [vc] = cr.getD vc 0) ∧ RegsBut [] s t ∧
      PartsBut [.ports] s t) := by
  have hexec : exec (.initCredit p cr) s =
      serving s (s.modPort p (fun r => (vcs.foldl (Port.enableVc cr) r).noteZero s.now)) := by
    change execInitCredit p cr s = _
    rw [execInitCredit, State.stepOf_of_isActive hactive, if_neg (by decide), if_pos hactive, if_pos hsame]
    rfl
  refine gives_serving hexec h ⟨fun vc hvc hoff hnamed => ?_, (changes_modPort p _ s).after⟩
  rw [State.port_after, State.port_modPort]
  exact Prod.mk.inj ((Port.creditsOf_noteZero _ _ _).trans (Port.enableVcs_starts hvc hoff hnamed))

theorem gives_caps_changed (h : Serves s) {p : Nat} {c : Caps} (hactive : s.isActive p = true)
    (hchanged : (s.port p).lastCaps ≠ some c) :
    Gives (.caps p c) s (fun t => t.pst p = Ps.retrain ∧ Out.lctl p .retrainReq ∈ t.out ∧
      RegsBut [R.PRT_PORT_STATUS_state] s t ∧ PartsBut [.ports, .out, .hif] s t) := by
  have hexec : exec (.caps p c) s = serving s ((s.protoErr B.prt p).enterRetrain p true) := by
    change execCaps p c s = _
    rw [execCaps, State.stepOf_of_isActive hactive, if_neg (by decide), if_pos ⟨hactive, hchanged⟩]
    rfl
  have htold := told_protoErr_prt p s
  have hactive' : (s.protoErr B.prt p).isActive p = true :=
    State.isActive_iff.mpr ((htold.regs _ _ (by decide)).trans (State.isActive_iff.mp hactive))
  refine gives_serving hexec h ⟨?_, ?_,
    (((Changes.refl _ _ s).told htold).trans (changes_enterRetrain hactive' true)).after⟩
  · rw [State.pst_after, State.pst_enterRetrain hactive']
  · rw [State.after_out_eq]
    exact State.enterRetrain_requests hactive'

/-- Settles O8: outside ACTIVE and RETRAIN a port goes down without losing messages, so training changes only its state and
context; each step of R79 moves the state, or the phase within RETRAIN; INIT_CREDIT in ACTIVE starts each virtual channel
it enables once. -/
theorem linkTraining : Obligations.LinkTraining :=
  fun _ h => ⟨fun _ => gives_portEnable h, fun _ => gives_portEnable_refused h, fun _ => gives_portDisable h,
    fun _ => gives_signalDetect h, fun _ _ => gives_equaliseDone h, fun _ _ _ => gives_lockDone h,
    fun _ _ => gives_trainingTimeout h, fun _ => gives_configRepeat h, fun _ => gives_initCreditRepeat h,
    fun _ _ => gives_caps_kept h, fun _ _ => gives_initCredit_kept h, fun _ _ => gives_initCredit_active h,
    fun _ _ => gives_caps_changed h⟩

end Sys2Proof.Machine
end

section
/-! LAWS. Sorou Link ports at work (R58, R61, R70, R76, R77): putting lanes in use, and what the header of a flit leaves of a
port's context. -/

namespace Sys2Proof.Machine

open Sys2Proof.Safety

/-! ### Lanes in use (R58) -/

/-- The width shown, with the flag that shows whether it is the configured one, and the lanes kept. -/
def State.lanesShown (p mask : Nat) (s : State) : State :=
  ((s.wr R.PRT_PORT_STATUS_width_active [p] (Nat.log2 (popcount 8 mask))).wr R.PRT_PORT_STATUS_degraded [p]
    (b2n (decide (popcount 8 mask < s.cfgWidth p)))).modPort p (fun r => { r with lanes := mask })

/-- R58: lanes in use are shown; fewer than configured are also a DEGRADED error. -/
theorem State.setLanes_cases (p mask : Nat) (s : State) :
    s.setLanes p mask = s.lanesShown p mask ∨
      s.setLanes p mask = (s.lanesShown p mask).degraded (dieOfPort p) B.prt p mask := by
  unfold State.setLanes
  dsimp only
  split
  · exact .inr rfl
  · exact .inl rfl

theorem conveys_lanesShown (p mask : Nat) (s : State) :
    Conveys [R.PRT_PORT_STATUS_width_active, R.PRT_PORT_STATUS_degraded] s (s.lanesShown p mask) :=
  ((Conveys.wr (by simp) _ _ s).trans (Conveys.wr (by simp) _ _ _)).trans (conveys_modPort _ _ _)

theorem State.rd_lanesShown_width (p mask : Nat) (s : State) :
    (s.lanesShown p mask).rd R.PRT_PORT_STATUS_width_active [p] = Nat.log2 (popcount 8 mask) % 4 :=
  (State.rd_wr_num _ _ _ _ (by decide)).trans (State.rd_wr_same _ _ _ s)

theorem conveys_setLanes (p mask : Nat) (s : State) :
    Conveys [R.PRT_PORT_STATUS_width_active, R.PRT_PORT_STATUS_degraded, R.GLB_DEGRADED_degraded] s (s.setLanes p mask) := by
  have hshown := (conveys_lanesShown p mask s).weaken
    (l' := [R.PRT_PORT_STATUS_width_active, R.PRT_PORT_STATUS_degraded, R.GLB_DEGRADED_degraded]) (by simp)
  obtain hfull | hfewer := s.setLanes_cases p mask
  · rw [hfull]
    exact hshown
  · rw [hfewer]
    exact hshown.trans ((conveys_degraded _ _ _ _ _).weaken (by simp))

theorem State.rd_setLanes_width (p mask : Nat) (s : State) :
    (s.setLanes p mask).rd R.PRT_PORT_STATUS_width_active [p] = Nat.log2 (popcount 8 mask) % 4 := by
  obtain hfull | hfewer := s.setLanes_cases p mask
  · rw [hfull, State.rd_lanesShown_width]
  · rw [hfewer, (conveys_degraded _ _ _ _ _).regs _ _ (by decide) (by decide), State.rd_lanesShown_width]

theorem State.port_idle_none (p q : Nat) (s : State) : (s.idle p none).port q = s.port q := rfl

/-- Beside its counter a corrected error leaves every field but those of the log. -/
theorem State.rd_corrected_other {f : Fld} (at_ blk source : Nat) (ix : List Nat) (s : State)
    (hf : ∀ g ∈ [R.RAS_CNT_count, R.RAS_LOG_LOST_count, R.RAS_EVT_events, R.RAS_LOG_record, R.RAS_LOG_PROD_count],
      f.num ≠ g.num) : (s.corrected at_ blk source).rd f ix = s.rd f ix := by
  obtain ⟨hcount, hring⟩ := List.forall_mem_cons.mp hf
  obtain ⟨_, ⟨a, rfl⟩, hnone | ⟨ft, n, hrecord⟩⟩ := State.corrected_cases at_ blk source s
  · rw [hnone, State.rd_bump_other _ _ _ hcount]
    rfl
  · rw [hrecord, State.rd_ringPut_other _ _ _ _ _ _ _ _ _ hring, State.rd_bump_other _ _ _ hcount]
    rfl

/-! ### The header of a flit (R61, R70, R76, R77) -/

/-- The training of the port and its side of the partner's flow are the same: what an acknowledgement, a credit report and a
sound flit leave. -/
structure Port.Keeps (r r' : Port) : Prop where
  phase : r'.phase = r.phase
  completed : r'.completed = r.completed
  expected : r'.expected = r.expected
  lastNak : r'.lastNak = r.lastNak
  heldCells : r'.heldCells = r.heldCells
  advertised : r'.advertised = r.advertised
  rx : r'.rx = r.rx

theorem Port.Keeps.refl (r : Port) : r.Keeps r := ⟨rfl, rfl, rfl, rfl, rfl, rfl, rfl⟩

theorem Port.Keeps.trans {a b c : Port} (h₁ : a.Keeps b) (h₂ : b.Keeps c) : a.Keeps c :=
  ⟨h₂.phase.trans h₁.phase, h₂.completed.trans h₁.completed, h₂.expected.trans h₁.expected, h₂.lastNak.trans h₁.lastNak,
    h₂.heldCells.trans h₁.heldCells, h₂.advertised.trans h₁.advertised, h₂.rx.trans h₁.rx⟩

theorem Port.Keeps.ite {r a b : Port} {c : Prop} [Decidable c] (ha : r.Keeps a) (hb : r.Keeps b) :
    r.Keeps (if c then a else b) := by
  split
  · exact ha
  · exact hb

theorem Port.keeps_release (r : Port) (a now : Nat) : r.Keeps (r.release a now).1 := by
  unfold Port.release
  split
  · exact Port.Keeps.refl r
  · dsimp only
    split
    · exact ⟨rfl, rfl, rfl, rfl, rfl, rfl, rfl⟩
    · exact Port.Keeps.refl r

theorem Port.keeps_noteZero (r : Port) (now : Nat) : r.Keeps (r.noteZero now) := ⟨rfl, rfl, rfl, rfl, rfl, rfl, rfl⟩

theorem Port.keeps_credited (r : Port) (vc total now : Nat) : r.Keeps (r.credited vc total now) := by
  unfold Port.credited
  split
  · exact Port.Keeps.refl r
  · refine Port.Keeps.trans ?_ (Port.keeps_noteZero _ now)
    exact ⟨rfl, rfl, rfl, rfl, rfl, rfl, rfl⟩

theorem Port.keeps_sound (r : Port) : r.Keeps r.sound := by
  refine Port.Keeps.ite ?_ ?_
  · exact ⟨rfl, rfl, rfl, rfl, rfl, rfl, rfl⟩
  · exact ⟨rfl, rfl, rfl, rfl, rfl, rfl, rfl⟩

theorem State.keeps_takeHeader (p : Nat) (f : Flit) (s : State) : (s.port p).Keeps ((s.takeHeader p f).port p) := by
  rw [State.takeHeader, State.port_modPort]
  have hack : (s.port p).Keeps (if f.ackValid then ((s.port p).release f.ackSeq s.now).1 else s.port p) :=
    Port.Keeps.ite (Port.keeps_release _ _ _) (Port.Keeps.refl _)
  generalize (if f.ackValid then ((s.port p).release f.ackSeq s.now).1 else s.port p) = r at hack
  exact (hack.trans (Port.Keeps.ite (Port.keeps_credited _ _ _ _) (Port.Keeps.refl _))).trans (Port.keeps_sound _)

theorem changes_takeHeader (p : Nat) (f : Flit) (s : State) : Changes [] [.ports] s (s.takeHeader p f) := changes_modPort _ _ s

theorem State.stepOf_takeHeader (p : Nat) (f : Flit) (s : State) : (s.takeHeader p f).stepOf p = s.stepOf p :=
  State.stepOf_congr (State.rd_modPort _ _ _ _ _) (s.keeps_takeHeader p f).phase

theorem State.isActive_takeHeader (p : Nat) (f : Flit) (s : State) : (s.takeHeader p f).isActive p = s.isActive p := rfl

/-- What follows the header of a flit: the entry of ACTIVE, and the sequence number. -/
def State.afterHeader (p : Nat) (f : Flit) (s : State) : State :=
  let s := if s.stepOf p = Ps.config ∧ (s.port p).completed ∧ f.kind ≠ 3 then s.enterActive p else s
  if 4 < f.kind then s.protoErr B.prt p
  else if f.kind = 3 ∧ (fieldOf f.payload 0 0 8 = 0 ∨ 5 < fieldOf f.payload 0 0 8) then s.bump R.PRT_PORT_CNT_count [p, 6]
  else if (f.kind = 1 ∨ f.kind = 2) ∧ s.isActive p then s.takeSequenced p f
  else s

/-- A flit that passes its CRC in CONFIG or ACTIVE. -/
theorem exec_flitReceived_sound {s : State} {p : Nat} {f : Flit} (h : s.stepOf p = Ps.config ∨ s.stepOf p = Ps.active) :
    exec (.flitReceived p f true) s = serving s ((s.takeHeader p f).afterHeader p f) := by
  have hserved : ¬ (s.stepOf p ≠ Ps.config ∧ s.stepOf p ≠ Ps.active) := fun hno => h.elim hno.1 hno.2
  change execFlitReceived p f true s = _
  rw [execFlitReceived, if_neg hserved, if_neg (not_not_intro rfl)]
  rfl

/-- A sequenced flit of an ACTIVE port is judged by its sequence number. -/
theorem exec_flitReceived_sequenced {s : State} {p : Nat} {f : Flit} (hactive : s.isActive p = true)
    (hkind : f.kind = 1 ∨ f.kind = 2) :
    exec (.flitReceived p f true) s = serving s ((s.takeHeader p f).takeSequenced p f) := by
  have hstep : (s.takeHeader p f).stepOf p = Ps.active := (s.stepOf_takeHeader p f).trans (State.stepOf_of_isActive hactive)
  have hconfig : ¬ ((s.takeHeader p f).stepOf p = Ps.config ∧ ((s.takeHeader p f).port p).completed ∧ f.kind ≠ 3) := by
    rw [hstep]
    exact fun hc => absurd hc.1 (by decide)
  rw [exec_flitReceived_sound (.inr (State.stepOf_of_isActive hactive)), State.afterHeader]
  rw [if_neg hconfig, if_neg (by omega), if_neg (by omega), if_pos ⟨hkind, (s.isActive_takeHeader p f).trans hactive⟩]

end Sys2Proof.Machine
end

section
/-! PROOF. The statement on the completion of CONFIG and the entry of ACTIVE (R58, R74, R81, R477). -/

namespace Sys2Proof.Machine

open Sys2Proof.Safety

variable {s : State}

/-! ### CONFIG completed (R58, R81) -/

theorem State.rd_showPartner (p : Nat) (c : Caps) (s : State) :
    (s.showPartner p c).rd R.PRT_PORT_STATUS_partner_eid [p] = c.eid % 65536 ∧
      (s.showPartner p c).rd R.PRT_PORT_STATUS_partner_role [p] = c.role % 2 := by
  unfold State.showPartner
  simp (disch := decide) only [State.rd_wr_num, State.rd_wr_same]
  exact ⟨rfl, rfl⟩

/-- A partner not seen before, or the same as before, changes the port's record of it only. -/
theorem State.newIdentity_of_same {p : Nat} {c : Caps}
    (hid : (s.port p).identity = none ∨ (s.port p).identity = some (c.vendor, c.eid)) :
    s.newIdentity p c = s.modPort p (fun r => { r with identity := some (c.vendor, c.eid) }) := by
  rcases hid with hnew | hsame
  · simp only [State.newIdentity, hnew]
  · simp only [State.newIdentity, hsame, and_self, if_true]

theorem State.tryComplete_of_checks {p : Nat} {c : Caps} {cr : List Nat} {mask w : Nat}
    (hcaps : (s.port p).gotCaps = some c) (hcredit : (s.port p).gotCredit = some cr) (hopen : (s.port p).completed = false)
    (hid : (s.port p).identity = none ∨ (s.port p).identity = some (c.vendor, c.eid))
    (hprecode : c.precode = s.on R.PRT_PORT_CFG_precode_en [p])
    (hgroup : bestGroup (c.goodLanes &&& s.ownGood p) (s.cfgWidth p) c.widths = some (mask, w)) :
    s.tryComplete p = ((((s.showPartner p c).modPort p (fun r => { r with identity := some (c.vendor, c.eid) })).setLanes p
      mask).modPort p (fun r => { r with completed := true, lastCaps := some c })).idle p none := by
  have hid' : ((s.showPartner p c).port p).identity = none ∨
      ((s.showPartner p c).port p).identity = some (c.vendor, c.eid) := by
    simpa [State.showPartner] using hid
  unfold State.tryComplete
  dsimp only
  rw [hcaps, hcredit]
  dsimp only
  rw [if_neg (by simp [hopen]), hgroup]
  dsimp only
  rw [if_neg (not_not_intro hprecode), State.newIdentity_of_same hid']

/-- The partner is shown and its group's lanes are in use. -/
theorem State.tryComplete_completes {p : Nat} {c : Caps} {cr : List Nat} {mask w : Nat}
    (hcaps : (s.port p).gotCaps = some c) (hcredit : (s.port p).gotCredit = some cr) (hopen : (s.port p).completed = false)
    (hid : (s.port p).identity = none ∨ (s.port p).identity = some (c.vendor, c.eid))
    (hprecode : c.precode = s.on R.PRT_PORT_CFG_precode_en [p])
    (hgroup : bestGroup (c.goodLanes &&& s.ownGood p) (s.cfgWidth p) c.widths = some (mask, w)) :
    ((s.tryComplete p).port p).completed = true ∧ ((s.tryComplete p).port p).lastCaps = some c ∧
      (s.tryComplete p).rd R.PRT_PORT_STATUS_partner_eid [p] = c.eid % 65536 ∧
      (s.tryComplete p).rd R.PRT_PORT_STATUS_partner_role [p] = c.role % 2 ∧
      (s.tryComplete p).rd R.PRT_PORT_STATUS_width_active [p] = Nat.log2 (popcount 8 mask) % 4 := by
  obtain ⟨heid, hrole⟩ := s.rd_showPartner p c
  rw [State.tryComplete_of_checks hcaps hcredit hopen hid hprecode hgroup]
  generalize s.showPartner p c = u at heid hrole
  have hlanes := conveys_setLanes p mask (u.modPort p (fun r => { r with identity := some (c.vendor, c.eid) }))
  have hwidth := State.rd_setLanes_width p mask (u.modPort p (fun r => { r with identity := some (c.vendor, c.eid) }))
  have heid' := (hlanes.regs R.PRT_PORT_STATUS_partner_eid [p] (by decide) (by decide)).trans heid
  have hrole' := (hlanes.regs R.PRT_PORT_STATUS_partner_role [p] (by decide) (by decide)).trans hrole
  generalize State.setLanes p mask _ = v at hwidth heid' hrole'
  have hport : (((v.modPort p (fun r => { r with completed := true, lastCaps := some c })).idle p none).port p) =
      { v.port p with completed := true, lastCaps := some c } := by
    rw [State.port_idle_none, State.port_modPort]
  exact ⟨by rw [hport], by rw [hport], heid', hrole', hwidth⟩

theorem gives_caps_completes (h : Serves s) {p : Nat} {c : Caps} {cr : List Nat} {mask w : Nat}
    (hconfig : s.stepOf p = Ps.config) (hcredit : (s.port p).gotCredit = some cr) (hopen : (s.port p).completed = false)
    (hid : (s.port p).identity = none ∨ (s.port p).identity = some (c.vendor, c.eid))
    (hprecode : c.precode = s.on R.PRT_PORT_CFG_precode_en [p])
    (hgroup : bestGroup (c.goodLanes &&& s.ownGood p) (s.cfgWidth p) c.widths = some (mask, w)) :
    Gives (.caps p c) s (fun t => (t.port p).completed = true ∧ (t.port p).lastCaps = some c ∧
      t.rd R.PRT_PORT_STATUS_partner_eid [p] = c.eid % 65536 ∧ t.rd R.PRT_PORT_STATUS_partner_role [p] = c.role % 2 ∧
      t.rd R.PRT_PORT_STATUS_width_active [p] = Nat.log2 (popcount 8 mask) % 4) := by
  have hport := s.port_modPort p (fun r => { r with gotCaps := some c })
  have hgood : (s.modPort p (fun r => { r with gotCaps := some c })).ownGood p = s.ownGood p := by
    rw [State.ownGood, hport]
    rfl
  have hdone := State.tryComplete_completes (s := s.modPort p (fun r => { r with gotCaps := some c })) (p := p) (c := c)
    (by rw [hport]) (by rw [hport, hcredit]) (by rw [hport, hopen]) (by rw [hport]; exact hid) hprecode
    (by rw [hgood]; exact hgroup)
  exact gives_serving (exec_caps_config hconfig) h hdone

theorem gives_initCredit_completes (h : Serves s) {p : Nat} {c : Caps} {cr : List Nat} {mask w : Nat}
    (hconfig : s.stepOf p = Ps.config) (hcaps : (s.port p).gotCaps = some c) (hopen : (s.port p).completed = false)
    (hid : (s.port p).identity = none ∨ (s.port p).identity = some (c.vendor, c.eid))
    (hprecode : c.precode = s.on R.PRT_PORT_CFG_precode_en [p])
    (hgroup : bestGroup (c.goodLanes &&& s.ownGood p) (s.cfgWidth p) c.widths = some (mask, w)) :
    Gives (.initCredit p cr) s (fun t => (t.port p).completed = true ∧ (t.port p).lastCaps = some c ∧
      t.rd R.PRT_PORT_STATUS_partner_eid [p] = c.eid % 65536) := by
  have hport := s.port_modPort p (fun r => { r with gotCredit := some cr })
  have hgood : (s.modPort p (fun r => { r with gotCredit := some cr })).ownGood p = s.ownGood p := by
    rw [State.ownGood, hport]
    rfl
  obtain ⟨hcompleted, hlast, heid, -⟩ := State.tryComplete_completes
    (s := s.modPort p (fun r => { r with gotCredit := some cr })) (p := p) (c := c) (by rw [hport, hcaps]) (by rw [hport])
    (by rw [hport, hopen]) (by rw [hport]; exact hid) hprecode (by rw [hgood]; exact hgroup)
  exact gives_serving (exec_initCredit_config hconfig) h ⟨hcompleted, hlast, heid⟩

/-! ### ACTIVE (R77, R80, R477) -/

/-- R477: what a port in ACTIVE starts with; the flits not acknowledged wait to be sent again. -/
theorem State.enterActive_cases (p : Nat) (s : State) :
    ∃ f : Port → Port, (∀ r, (f r).fresh = false ∧ (f r).resend = (f r).replay.length) ∧
      (s.enterActive p = (s.setPst p Ps.active).modPort p f ∨
        s.enterActive p = ((s.setPst p Ps.active).modPort p f).portEvent p 0) := by
  unfold State.enterActive
  dsimp only
  split
  · refine ⟨_, ?_, .inr rfl⟩
    exact fun _ => ⟨rfl, rfl⟩
  · refine ⟨_, ?_, .inl rfl⟩
    exact fun _ => ⟨rfl, rfl⟩

theorem State.enterActive_enters (p : Nat) (s : State) :
    (s.enterActive p).pst p = Ps.active ∧ ((s.enterActive p).port p).fresh = false ∧
      ((s.enterActive p).port p).resend = ((s.enterActive p).port p).replay.length ∧
      Changes [R.PRT_PORT_STATUS_state] [.ports, .out, .hif] s (s.enterActive p) := by
  obtain ⟨f, hf, henter⟩ := s.enterActive_cases p
  have hpst : ((s.setPst p Ps.active).modPort p f).pst p = Ps.active := State.pst_setPst (by decide) p s
  have hport := (s.setPst p Ps.active).port_modPort p f
  have hchanges : Changes [R.PRT_PORT_STATUS_state] [.ports, .out, .hif] s ((s.setPst p Ps.active).modPort p f) :=
    ((changes_setPst p _ s).weaken (by simp)).modPort _ _
  generalize (s.setPst p Ps.active).modPort p f = u at henter hpst hport hchanges
  obtain ⟨hfresh, hresend⟩ := hf ((s.setPst p Ps.active).port p)
  rcases henter with hquiet | hsignalled
  · rw [hquiet, hport]
    exact ⟨hpst, hfresh, hresend, hchanges⟩
  · have htold := told_portEvent p 0 u
    rw [hsignalled, State.port_portEvent, hport]
    exact ⟨(htold.regs _ _ (by decide)).trans hpst, hfresh, hresend, hchanges.told htold⟩

theorem gives_flitReceived_enters (h : Serves s) {p : Nat} {f : Flit} (hconfig : s.stepOf p = Ps.config)
    (hcompleted : (s.port p).completed = true) (hkind : f.kind = 0) :
    Gives (.flitReceived p f true) s (fun t => t.pst p = Ps.active ∧ (t.port p).fresh = false ∧
      (t.port p).resend = (t.port p).replay.length ∧ RegsBut [R.PRT_PORT_STATUS_state] s t ∧
      PartsBut [.ports, .out, .hif] s t) := by
  have hkeeps := s.keeps_takeHeader p f
  have hstill : (s.takeHeader p f).stepOf p = Ps.config := (s.stepOf_takeHeader p f).trans hconfig
  have hexec : exec (.flitReceived p f true) s = serving s ((s.takeHeader p f).enterActive p) := by
    rw [exec_flitReceived_sound (.inl hconfig), State.afterHeader, hkind]
    simp [hstill, hkeeps.completed, hcompleted]
  obtain ⟨hpst, hfresh, hresend, hchanges⟩ := (s.takeHeader p f).enterActive_enters p
  exact gives_serving hexec h ⟨hpst, hfresh, hresend,
    (((changes_takeHeader p f s).weaken (by simp)).trans hchanges).after⟩

/-- Settles O9: with both CAPS and INIT_CREDIT kept and every check passed, CONFIG is completed whichever came last, and
nothing that shows the lanes, a DEGRADED error among it, touches what shows the partner; the header of a flit leaves the
step of the port. -/
theorem linkConfigured : Obligations.LinkConfigured :=
  fun _ h => ⟨fun _ _ _ _ _ => gives_caps_completes h, fun _ _ _ _ _ => gives_initCredit_completes h,
    fun _ _ => gives_flitReceived_enters h⟩

end Sys2Proof.Machine
end

section
/-! PROOF. The statement on the flits of an ACTIVE port (R61, R65, R70, R72, R76, R77). -/

namespace Sys2Proof.Machine

open Sys2Proof.Safety

variable {s : State}

/-! ### A flit received (R65, R76) -/

theorem dist_self (w a : Nat) : dist w a a = 0 := by
  rw [dist, Nat.add_sub_cancel_left, Nat.mod_self]

/-- The virtual channel of a flit. -/
abbrev flitVc (f : Flit) : Nat := f.chan * 8 + f.tc

/-- The flits of the message that a first flit begins. -/
abbrev flitTotal (f : Flit) : Nat := ceilDiv (16 + bitsOf f.payload 64 13) 240

/-- R65: the first flit of a message is taken: its message is open, and it holds a cell. -/
def Port.takeFirst (f : Flit) (r : Port) : Port :=
  { r with rx := r.rx.set [flitVc f] { flits := 1, total := flitTotal f, cms := b2n f.cm },
           heldCells := r.heldCells.set [flitVc f] (r.heldCells.get 0 [flitVc f] + 1) }

theorem State.takeCell_first {p : Nat} {f : Flit} (hkind : f.kind = 1) (hvc : vcOk (flitVc f) = true)
    (hroom : (s.port p).heldCells.get 0 [flitVc f] < (s.port p).advertised.get 0 [flitVc f])
    (hclosed : (s.port p).rx.get? [flitVc f] = none) (hlen : bitsOf f.payload 64 13 ≤ 4096)
    (hlast : f.last = decide (flitTotal f = 1)) :
    s.takeCell p f = s.modPort p (Port.takeFirst f) := by
  unfold State.takeCell
  dsimp only
  rw [if_neg (not_not_intro hvc), if_neg (Nat.not_le.mpr hroom), if_pos hkind, hclosed, if_pos ⟨hlast, hlen⟩]
  rfl

theorem State.takeSequenced_expected {p : Nat} {f : Flit} (hseq : f.seq = (s.port p).expected) :
    s.takeSequenced p f =
      ((s.modPort p (fun r => { r with expected := (r.expected + 1) % 4096, lastNak := none })).takeCell p f).idle p none := by
  unfold State.takeSequenced
  dsimp only
  rw [hseq, dist_self, if_pos rfl]

theorem State.out_idle_none (p : Nat) (s : State) :
    (s.idle p none).out = s.out ++ [.flit p { kind := 0, ackValid := true, ackSeq := (s.port p).expected }] := rfl

theorem gives_flitReceived_first (h : Serves s) {p : Nat} {f : Flit} (hactive : s.isActive p = true) (hkind : f.kind = 1)
    (hseq : f.seq = (s.port p).expected) (hvc : vcOk (flitVc f) = true)
    (hroom : (s.port p).heldCells.get 0 [flitVc f] < (s.port p).advertised.get 0 [flitVc f])
    (hclosed : (s.port p).rx.get? [flitVc f] = none) (hlen : bitsOf f.payload 64 13 ≤ 4096)
    (hlast : f.last = decide (flitTotal f = 1)) :
    Gives (.flitReceived p f true) s (fun t => (t.port p).expected = ((s.port p).expected + 1) % 4096 ∧
      (t.port p).heldCells.get 0 [flitVc f] = (s.port p).heldCells.get 0 [flitVc f] + 1 ∧
      (t.port p).rx.get? [flitVc f] = some { flits := 1, total := flitTotal f, cms := b2n f.cm } ∧
      t.out = s.out ++ [.flit p { kind := 0, ackValid := true, ackSeq := ((s.port p).expected + 1) % 4096 }] ∧
      RegsBut [] s t ∧ PartsBut [.ports, .out] s t) := by
  have hkeeps := s.keeps_takeHeader p f
  have hchanges := changes_takeHeader p f s
  have hexec := exec_flitReceived_sequenced hactive (.inl hkind)
  have hout : (s.takeHeader p f).out = s.out := rfl
  generalize s.takeHeader p f = u at hkeeps hchanges hexec hout
  have hnext := u.port_modPort p (fun r => { r with expected := (r.expected + 1) % 4096, lastNak := none })
  rw [State.takeSequenced_expected (hseq.trans hkeeps.expected.symm), State.takeCell_first hkind hvc
    (by rw [hnext, hkeeps.heldCells, hkeeps.advertised]; exact hroom) (by rw [hnext, hkeeps.rx]; exact hclosed) hlen hlast]
    at hexec
  refine gives_serving hexec h ⟨?expected, ?held, ?rx, ?out, ?frame⟩
  case frame =>
    exact ((((hchanges.weaken (by simp)).modPort _ _).modPort _ _).trans (changes_idle p none _)).after
  case out =>
    rw [State.after_out_eq, State.out_idle_none, State.port_modPort, State.out_modPort, State.out_modPort, hnext, hout,
      Port.takeFirst, hkeeps.expected]
  all_goals rw [State.port_after, State.port_idle_none, State.port_modPort, hnext, Port.takeFirst]
  case expected => rw [hkeeps.expected]
  case held => rw [Map.get_set_same, hkeeps.heldCells]
  case rx => rw [Map.get?_set_same]

theorem gives_flitReceived_ahead (h : Serves s) {p : Nat} {f : Flit} (hactive : s.isActive p = true)
    (hkind : f.kind = 1 ∨ f.kind = 2) (hahead : 0 < dist 12 f.seq (s.port p).expected)
    (hnear : dist 12 f.seq (s.port p).expected ≤ 2047) (hnone : (s.port p).lastNak = none) :
    Gives (.flitReceived p f true) s (fun t => Out.lctl p (.nak (s.port p).expected) ∈ t.out ∧
      (t.port p).expected = (s.port p).expected ∧ RegsBut [] s t ∧ PartsBut [.ports, .out] s t) := by
  have hkeeps := s.keeps_takeHeader p f
  have hnak : (s.takeHeader p f).takeSequenced p f = (s.takeHeader p f).sendNak p := by
    unfold State.takeSequenced
    dsimp only
    rw [hkeeps.expected, if_neg (Nat.ne_of_gt hahead), if_pos hnear]
  have hexec := exec_flitReceived_sequenced hactive hkind
  rw [hnak] at hexec
  have hsent := State.sendNak_of_none (hkeeps.lastNak.trans hnone)
  obtain ⟨k, hport⟩ := (s.takeHeader p f).port_sendNak p
  refine gives_serving hexec h ⟨?_, ?_, (((changes_takeHeader p f s).weaken (by simp)).trans (changes_sendNak p _)).after⟩
  · rw [State.after_out_eq, hsent, hkeeps.expected]
    exact List.mem_append_right _ (List.mem_singleton_self _)
  · rw [State.port_after, hport]
    exact hkeeps.expected

/-! ### CRC failures and uncorrectable codewords (R61, R76) -/

theorem gives_flitReceived_crcFailure (h : Serves s) {p : Nat} {f : Flit} (hstep : s.stepOf p = Ps.active) :
    Gives (.flitReceived p f false) s (fun t => t.rd R.PRT_PORT_CNT_count [p, 0] =
      min (2 ^ 48 - 1) (s.rd R.PRT_PORT_CNT_count [p, 0] + 1) ∧ (t.port p).expected = (s.port p).expected ∧ t.sw = s.sw ∧
      RegsBut [] s t) := by
  have hexec : exec (.flitReceived p f false) s =
      serving s (((s.bump R.PRT_PORT_CNT_count [p, 0]).corrected (dieOfPort p) B.prt p).sendNak p) := by
    change execFlitReceived p f false s = _
    rw [execFlitReceived, if_neg (fun hno => hno.2 hstep), if_pos (by simp)]
  have hcounted := changes_bump (f := R.PRT_PORT_CNT_count) [p, 0] s
  have hcount := s.rd_bump_same R.PRT_PORT_CNT_count [p, 0]
  have hport := s.port_bump R.PRT_PORT_CNT_count [p, 0] p
  generalize s.bump R.PRT_PORT_CNT_count [p, 0] = u at hexec hcounted hcount hport
  obtain ⟨a, htold⟩ := u.corrected_told (dieOfPort p) B.prt p
  have hkept := State.rd_corrected_other (dieOfPort p) B.prt p (f := R.PRT_PORT_CNT_count) [p, 0] u (by decide)
  generalize u.corrected (dieOfPort p) B.prt p = v at hexec htold hkept
  have hnak := changes_sendNak p v
  obtain ⟨k, hnoted⟩ := v.port_sendNak p
  have hras : RegsBut [] u { u with ras := a } := fun _ _ _ _ => rfl
  have hexpected : (v.port p).expected = (s.port p).expected := congrArg Port.expected ((htold.port p).trans hport)
  have hsw : v.sw = s.sw := htold.sw_eq.trans (hcounted.parts .sw (by simp))
  refine gives_serving hexec h ⟨?_, ?_, ?_, ((hcounted.regs.trans (hras.told htold)).trans hnak.regs).after⟩
  · rw [State.rd_after, State.rd_sendNak_count (by decide), hkept, hcount]
    rfl
  · rw [State.port_after, hnoted]
    exact hexpected
  · rw [State.after_sw_eq]
    exact (hnak.parts .sw (by decide)).trans hsw

/-- R61: an uncorrectable codeword counted, with the flits it carried, and the run of its lane. -/
def State.badCodeword (p lane flits : Nat) (s : State) : State :=
  ((s.bump R.PRT_PORT_CNT_count [p, 1]).bumpBy R.PRT_PORT_CNT_count [p, 0] flits).modPort p
    (fun r => { r with badRun := r.badRun.set [lane] ((s.port p).badRun.get 0 [lane] + 1), goodRun := 0 })

/-- The flits it carried are missed at once in ACTIVE. -/
def State.codewordLost (p lane flits : Nat) (s : State) : State :=
  if flits = 0 ∨ ¬ (s.badCodeword p lane flits).isActive p then s.badCodeword p lane flits
  else (s.badCodeword p lane flits).sendNak p

theorem exec_codewordUncorrectable (p lane flits : Nat) (s : State) :
    exec (.codewordUncorrectable p lane flits) s = serving s (if 8 ≤ (s.port p).badRun.get 0 [lane] + 1 then
      (s.codewordLost p lane flits).enterRetrain p false else s.codewordLost p lane flits) := rfl

theorem changes_codewordLost (p lane flits : Nat) (s : State) :
    Changes [] [.ports, .out] s (s.codewordLost p lane flits) := by
  have hbad : Changes [] [.ports, .out] s (s.badCodeword p lane flits) :=
    (((changes_bump _ s).trans (changes_bumpBy _ _ _)).weaken (by simp)).modPort _ _
  exact Changes.ite hbad (hbad.trans (changes_sendNak p _))

theorem State.codewordLost_counts (p lane flits : Nat) (s : State) :
    (s.codewordLost p lane flits).rd R.PRT_PORT_CNT_count [p, 1] =
        min (2 ^ 48 - 1) (s.rd R.PRT_PORT_CNT_count [p, 1] + 1) ∧
      (s.codewordLost p lane flits).rd R.PRT_PORT_CNT_count [p, 0] =
        min (2 ^ 48 - 1) (s.rd R.PRT_PORT_CNT_count [p, 0] + flits) ∧
      ((s.codewordLost p lane flits).port p).badRun.get 0 [lane] = (s.port p).badRun.get 0 [lane] + 1 := by
  have hwords : (s.badCodeword p lane flits).rd R.PRT_PORT_CNT_count [p, 1] =
      min (2 ^ 48 - 1) (s.rd R.PRT_PORT_CNT_count [p, 1] + 1) := by
    rw [State.badCodeword, State.rd_modPort, State.rd_bumpBy_index _ _ (by simp), State.rd_bump_same]
    rfl
  have hflits : (s.badCodeword p lane flits).rd R.PRT_PORT_CNT_count [p, 0] =
      min (2 ^ 48 - 1) (s.rd R.PRT_PORT_CNT_count [p, 0] + flits) := by
    rw [State.badCodeword, State.rd_modPort, State.rd_bumpBy_same, State.rd_bump_index _ (by simp)]
    rfl
  have hrun : ((s.badCodeword p lane flits).port p).badRun.get 0 [lane] = (s.port p).badRun.get 0 [lane] + 1 := by
    rw [State.badCodeword, State.port_modPort, Map.get_set_same]
  unfold State.codewordLost
  generalize s.badCodeword p lane flits = u at hwords hflits hrun
  split
  · exact ⟨hwords, hflits, hrun⟩
  · obtain ⟨k, hport⟩ := u.port_sendNak p
    rw [State.rd_sendNak_count (by decide), State.rd_sendNak_count (by decide), hport]
    exact ⟨hwords, hflits, hrun⟩

theorem gives_codewordUncorrectable_counted (h : Serves s) {p lane flits : Nat}
    (hfew : (s.port p).badRun.get 0 [lane] + 1 < 8) :
    Gives (.codewordUncorrectable p lane flits) s (fun t => t.rd R.PRT_PORT_CNT_count [p, 1] =
      min (2 ^ 48 - 1) (s.rd R.PRT_PORT_CNT_count [p, 1] + 1) ∧ t.rd R.PRT_PORT_CNT_count [p, 0] =
      min (2 ^ 48 - 1) (s.rd R.PRT_PORT_CNT_count [p, 0] + flits) ∧ (t.port p).badRun.get 0 [lane] =
      (s.port p).badRun.get 0 [lane] + 1 ∧ RegsBut [] s t ∧ PartsBut [.ports, .out] s t) := by
  have hexec := exec_codewordUncorrectable p lane flits s
  rw [if_neg (Nat.not_le.mpr hfew)] at hexec
  obtain ⟨hwords, hflits, hrun⟩ := s.codewordLost_counts p lane flits
  exact gives_serving hexec h ⟨hwords, hflits, hrun, (changes_codewordLost p lane flits s).after⟩

theorem gives_codewordUncorrectable_eighth (h : Serves s) {p lane flits : Nat}
    (hmany : 8 ≤ (s.port p).badRun.get 0 [lane] + 1) (hactive : s.isActive p = true) :
    Gives (.codewordUncorrectable p lane flits) s (fun t => t.pst p = Ps.retrain ∧ RegsBut [R.PRT_PORT_STATUS_state] s t ∧
      PartsBut [.ports, .out, .hif] s t) := by
  have hexec := exec_codewordUncorrectable p lane flits s
  rw [if_pos hmany] at hexec
  have hlost := changes_codewordLost p lane flits s
  have hstill : (s.codewordLost p lane flits).isActive p = true :=
    State.isActive_iff.mpr ((hlost.rd _ _).trans (State.isActive_iff.mp hactive))
  refine gives_serving hexec h ⟨?_, ((hlost.weaken (by simp)).trans (changes_enterRetrain hstill false)).after⟩
  rw [State.pst_after, State.pst_enterRetrain hstill]

/-! ### Replay (R77) -/

/-- R77: an acknowledgement that is not stale releases the older flits. -/
theorem Port.release_of_fresh {r : Port} {f : Flit} {l : List Flit} {a : Nat} (now : Nat) (hreplay : r.replay = f :: l)
    (hfresh : dist 12 a f.seq ≤ l.length + 1) :
    (r.release a now).2 = true ∧ (r.release a now).1.replay = (f :: l).drop (dist 12 a f.seq) := by
  unfold Port.release
  rw [hreplay]
  dsimp only
  rw [if_pos (by simpa using hfresh)]
  exact ⟨rfl, rfl⟩

theorem gives_nak (h : Serves s) {p e : Nat} {f : Flit} {l : List Flit} (hreplay : (s.port p).replay = f :: l)
    (hfresh : dist 12 e f.seq ≤ l.length + 1) :
    Gives (.nak p e) s (fun t => (t.port p).replay = (f :: l).drop (dist 12 e f.seq) ∧
      (t.port p).resend = (t.port p).replay.length ∧ t.rd R.PRT_PORT_CNT_count [p, 4] =
      min (2 ^ 48 - 1) (s.rd R.PRT_PORT_CNT_count [p, 4] + 1) ∧ RegsBut [] s t ∧ PartsBut [.ports] s t) := by
  obtain ⟨htaken, hleft⟩ := Port.release_of_fresh s.now hreplay hfresh
  have hexec : exec (.nak p e) s = serving s ((s.modPort p (fun _ => { ((s.port p).release e s.now).1 with
      resend := ((s.port p).release e s.now).1.replay.length })).bump R.PRT_PORT_CNT_count [p, 4]) := by
    change execNak p e s = _
    rw [execNak]
    exact congrArg (serving s) (if_pos htaken)
  generalize ((s.port p).release e s.now).1 = r at hexec hleft
  refine gives_serving hexec h ⟨?_, ?_, ?_, ((changes_modPort p _ s).trans ((changes_bump _ _).weaken (by simp))).after⟩
  · rw [State.port_after, State.port_bump, State.port_modPort, ← hleft]
  · rw [State.port_after, State.port_bump, State.port_modPort]
  · rw [State.rd_after, State.rd_bump_same]
    rfl

/-- R77: the oldest flit has waited for its acknowledgement as long as the replay timeout says. -/
abbrev State.replayDue (s : State) (p : Nat) : Prop :=
  64 * s.rd R.PRT_PORT_CFG_replay_timeout [p] ≤ s.now - (s.port p).progressAt

theorem exec_replayTimeout {p : Nat} (hactive : s.isActive p = true) (hunacked : (s.port p).replay ≠ [])
    (hdue : s.replayDue p) :
    exec (.replayTimeout p) s = serving s (if s.rd R.PRT_PORT_CFG_retry_limit [p] ≤ (s.port p).replays then
      s.enterRetrain p true else (s.modPort p (fun r => { r with
        replays := r.replays + 1, resend := r.replay.length, progressAt := s.now })).bump R.PRT_PORT_CNT_count [p, 4]) := by
  change execReplayTimeout p s = _
  rw [execReplayTimeout]
  exact congrArg (serving s) (if_pos ⟨hactive, hunacked, hdue⟩)

theorem gives_replayTimeout_replays (h : Serves s) {p : Nat} (hactive : s.isActive p = true)
    (hunacked : (s.port p).replay ≠ []) (hdue : s.replayDue p)
    (hfew : (s.port p).replays < s.rd R.PRT_PORT_CFG_retry_limit [p]) :
    Gives (.replayTimeout p) s (fun t => (t.port p).resend = (s.port p).replay.length ∧
      (t.port p).replay = (s.port p).replay ∧ (t.port p).replays = (s.port p).replays + 1 ∧ RegsBut [] s t ∧
      PartsBut [.ports] s t) := by
  have hexec := exec_replayTimeout hactive hunacked hdue
  rw [if_neg (Nat.not_le.mpr hfew)] at hexec
  refine gives_serving hexec h ⟨?_, ?_, ?_, ((changes_modPort p _ s).trans ((changes_bump _ _).weaken (by simp))).after⟩
  all_goals rw [State.port_after, State.port_bump, State.port_modPort]

theorem gives_replayTimeout_retrains (h : Serves s) {p : Nat} (hactive : s.isActive p = true)
    (hunacked : (s.port p).replay ≠ []) (hdue : s.replayDue p)
    (hmany : s.rd R.PRT_PORT_CFG_retry_limit [p] ≤ (s.port p).replays) :
    Gives (.replayTimeout p) s (fun t => t.pst p = Ps.retrain ∧ Out.lctl p .retrainReq ∈ t.out ∧
      RegsBut [R.PRT_PORT_STATUS_state] s t ∧ PartsBut [.ports, .out, .hif] s t) := by
  have hexec := exec_replayTimeout hactive hunacked hdue
  rw [if_pos hmany] at hexec
  refine gives_serving hexec h ⟨?_, ?_, (changes_enterRetrain hactive true).after⟩
  · rw [State.pst_after, State.pst_enterRetrain hactive]
  · rw [State.after_out_eq]
    exact State.enterRetrain_requests hactive

/-! ### Credit (R70, R72) -/

/-- An IDLE flit with the running total of a virtual channel. -/
def Port.creditFlit (r : Port) (vc : Nat) : Flit :=
  { kind := 0, ackValid := true, ackSeq := r.expected, creditVc := vc, creditValid := true,
    creditTotal := r.freed.get 0 [vc] }

theorem State.out_idle_some (p vc : Nat) (s : State) :
    (s.idle p (some vc)).out = s.out ++ [.flit p ((s.port p).creditFlit vc)] := rfl

/-- A report changes nothing that a report says. -/
theorem State.creditFlit_idle (p vc : Nat) (s : State) : ((s.idle p (some vc)).port p).creditFlit = (s.port p).creditFlit := by
  unfold State.idle
  dsimp only
  rw [State.port_emit, State.port_modPort]
  rfl

/-- R70: each virtual channel listed has its report, and what was to leave stays. -/
theorem State.idles_report (p : Nat) (l : List Nat) (s : State) :
    (∀ o ∈ s.out, o ∈ (l.foldl (fun t vc => t.idle p (some vc)) s).out) ∧
      ∀ vc ∈ l, Out.flit p ((s.port p).creditFlit vc) ∈ (l.foldl (fun t vc => t.idle p (some vc)) s).out := by
  induction l generalizing s with
  | nil => exact ⟨fun _ ho => ho, fun _ hvc => absurd hvc List.not_mem_nil⟩
  | cons v l ih =>
    obtain ⟨hstay, hreport⟩ := ih (s.idle p (some v))
    rw [State.out_idle_some] at hstay
    rw [State.creditFlit_idle] at hreport
    refine ⟨fun o ho => hstay o (List.mem_append_left _ ho), fun vc hvc => ?_⟩
    rcases List.mem_cons.mp hvc with rfl | hmem
    · exact hstay _ (List.mem_append_right _ (List.mem_singleton_self _))
    · exact hreport vc hmem

theorem gives_creditReport (h : Serves s) {p : Nat} (hactive : s.isActive p = true) :
    Gives (.creditReport p) s (fun t => (∀ vc ∈ vcs, (s.port p).advertised.get 0 [vc] ≠ 0 →
      Out.flit p ((s.port p).creditFlit vc) ∈ t.out) ∧ RegsBut [] s t ∧ PartsBut [.ports, .out] s t) := by
  have hexec : exec (.creditReport p) s =
      serving s ((vcs.filter (fun vc => decide ((s.port p).advertised.get 0 [vc] ≠ 0))).foldl
        (fun t vc => t.idle p (some vc)) s) := by
    change execCreditReport p s = _
    rw [execCreditReport, if_pos hactive]
  obtain ⟨-, hreport⟩ := s.idles_report p (vcs.filter (fun vc => decide ((s.port p).advertised.get 0 [vc] ≠ 0)))
  refine gives_serving hexec h ⟨fun vc hvc henabled => ?_,
    (Changes.foldl _ (fun t vc => changes_idle p (some vc) t) _ s).after⟩
  rw [State.after_out_eq]
  exact hreport vc (List.mem_filter.mpr ⟨hvc, by simpa using henabled⟩)

theorem gives_creditStall (h : Serves s) {p vc t₀ : Nat} (hzero : (s.port p).zeroSince.get? [vc] = some t₀)
    (hup : s.isUp p = true) (hlong : 10000000 ≤ s.now - t₀) :
    Gives (.creditStall p vc) s (fun t => bitAt (t.rd R.PRT_EVT_events []) 5 = true ∧ RegsBut [] s t ∧
      PartsBut reporting s t) := by
  have hexec : exec (.creditStall p vc) s = serving s (s.portEvent p 5) := by
    change execCreditStall p vc s = _
    rw [execCreditStall, hzero]
    exact congrArg (serving s) (if_pos ⟨hup, hlong⟩)
  have htold := told_portEvent p 5 s
  refine gives_serving hexec h ⟨?_, (htold.regsBut []).after, htold.parts.after⟩
  rw [State.rd_after]
  exact State.portEvent_raises (by decide) p s

/-- Settles O10: the header of a flit leaves the port's side of the partner's flow, so its sequence number alone decides
between the next cell and a NAK; NAKs are counted apart from CRC failures; credit reports do not change what they report. -/
theorem linkFlits : Obligations.LinkFlits :=
  fun _ h => ⟨fun _ _ hactive hkind hseq _ => gives_flitReceived_first h hactive hkind hseq,
    fun _ _ => gives_flitReceived_ahead h, fun _ _ => gives_flitReceived_crcFailure h,
    fun _ _ _ => gives_codewordUncorrectable_counted h, fun _ _ _ => gives_codewordUncorrectable_eighth h,
    fun _ _ _ _ => gives_nak h, fun _ => gives_replayTimeout_replays h, fun _ => gives_replayTimeout_retrains h,
    fun _ => gives_creditReport h, fun _ _ _ => gives_creditStall h⟩

end Sys2Proof.Machine
end

section
/-! PROOF. The statement on admission, retraining and lanes of an ACTIVE port, and on loss of signal (R73, R80, R83 to R85,
R477). -/

namespace Sys2Proof.Machine

open Sys2Proof.Safety

variable {s : State}

theorem State.isActive_wr {f : Fld} {p : Nat} (ix : List Nat) (v : Nat)
    (hf : R.PRT_PORT_STATUS_state.num ≠ f.num := by decide) : (s.wr f ix v).isActive p = s.isActive p := by
  rw [State.isActive, State.pst, State.rd_wr_num _ _ _ _ hf, State.isActive, State.pst]

/-! ### Admission (R73) -/

/-- R73: admission granted, and INIT_CREDIT to be repeated for 64 us. -/
def State.admitted (p : Nat) (s : State) : State :=
  (s.wr R.PRT_PORT_CTL_admit [p] 1).modPort p (fun r => { r with repeatUntil := s.now + 64000 })

theorem changes_admitted (p : Nat) (s : State) : Changes [R.PRT_PORT_CTL_admit] [.ports] s (s.admitted p) :=
  ((Changes.refl _ _ s).wr (by simp) _ _).modPort _ _

theorem State.port_admitted (p : Nat) (s : State) :
    (s.admitted p).port p = { s.port p with repeatUntil := s.now + 64000 } := by
  rw [State.admitted, State.port_modPort, State.port_wr]

theorem gives_portAdmit (h : Serves s) {p : Nat} (hactive : s.isActive p = true) :
    Gives (.portAdmit p) s (fun t => t.rd R.PRT_PORT_CTL_admit [p] = 1 ∧ (t.port p).repeatUntil = s.now + 64000 ∧
      (∃ l, t.out = s.out ++ [.lctl p (.initCredit l)]) ∧ RegsBut [R.PRT_PORT_CTL_admit] s t ∧
      PartsBut [.ports, .out] s t) := by
  have hadmit : s.admitPort p = (s.admitted p).sendInitCredit p := by
    rw [State.admitPort, if_pos ((State.isActive_wr [p] 1).trans hactive), State.wr_now_eq, State.admitted]
  have hset : (s.admitted p).rd R.PRT_PORT_CTL_admit [p] = 1 := State.rd_wr_same _ _ _ s
  have hout : (s.admitted p).out = s.out := State.wr_out_eq _ _ _ s
  have hsent := changes_sendInitCredit p (s.admitted p)
  obtain ⟨advertised, freed, hnamed⟩ := (s.admitted p).port_sendInitCredit p
  refine gives_hosted (f := fun s => s.admitPort p) rfl h ?_
  rw [hadmit]
  refine ⟨(hsent.rd _ _).trans hset, ?_, ⟨(s.admitted p).offered p, ?_⟩,
    (((changes_admitted p s).weaken (by simp)).trans (hsent.weaken (by simp))).after⟩
  · rw [State.port_after, hnamed, State.port_admitted]
  · rw [State.after_out_eq, State.out_sendInitCredit, hout]

theorem gives_portAdmitClear (h : Serves s) {p : Nat} (hactive : s.isActive p = true) :
    Gives (.portAdmitClear p) s (fun t => t.rd R.PRT_PORT_CTL_admit [p] = 0 ∧ t.pst p = Ps.retrain ∧
      Out.lctl p .retrainReq ∈ t.out ∧ RegsBut [R.PRT_PORT_CTL_admit, R.PRT_PORT_STATUS_state] s t ∧
      PartsBut [.ports, .out, .hif] s t) := by
  have hstill : (s.wr R.PRT_PORT_CTL_admit [p] 0).isActive p = true := (State.isActive_wr [p] 0).trans hactive
  have hretrain := changes_enterRetrain hstill true
  refine gives_hosted (f := fun s => s.admitClear p) rfl h ⟨?_, ?_, ?_,
    (((Changes.refl _ _ s).wr (by simp) _ _).trans (hretrain.weaken (by simp))).after⟩
  · rw [State.rd_after, State.admitClear, hretrain.rd R.PRT_PORT_CTL_admit, State.rd_wr_same]
    rfl
  · rw [State.pst_after, State.admitClear, State.pst_enterRetrain hstill]
  · rw [State.after_out_eq]
    exact State.enterRetrain_requests hstill

/-! ### Retraining (R80, R477) -/

theorem gives_retrain (h : Serves s) {p : Nat} (hactive : s.isActive p = true) :
    Gives (.retrain p) s (fun t => t.pst p = Ps.retrain ∧ t.stepOf p = Ps.lock ∧ (t.port p).replay = (s.port p).replay ∧
      Out.lctl p .retrainReq ∈ t.out ∧ RegsBut [R.PRT_PORT_STATUS_state] s t ∧ PartsBut [.ports, .out, .hif] s t) := by
  obtain ⟨since, hport⟩ := State.port_enterRetrain hactive true
  refine gives_hosted (f := fun s => s.enterRetrain p true) rfl h ⟨?_, ?_, ?_, ?_, (changes_enterRetrain hactive true).after⟩
  · rw [State.pst_after, State.pst_enterRetrain hactive]
  · rw [State.stepOf_after, State.stepOf_enterRetrain hactive]
  · rw [State.port_after, hport, Port.retraining]
  · rw [State.after_out_eq]
    exact State.enterRetrain_requests hactive

theorem gives_retrainReq (h : Serves s) {p : Nat} (hactive : s.isActive p = true) :
    Gives (.retrainReq p) s (fun t => t.pst p = Ps.retrain ∧ t.stepOf p = Ps.lock ∧
      RegsBut [R.PRT_PORT_STATUS_state] s t ∧ PartsBut [.ports, .out, .hif] s t) := by
  refine gives_serving (t := s.enterRetrain p false) rfl h ⟨?_, ?_, (changes_enterRetrain hactive false).after⟩
  · rw [State.pst_after, State.pst_enterRetrain hactive]
  · rw [State.stepOf_after, State.stepOf_enterRetrain hactive]

/-! ### Lanes and widths (R83, R84) -/

/-- R84: the lane to be retrained alone. -/
def State.laneChosen (p lane : Nat) (s : State) : State :=
  s.modPort p (fun r => { r with lane := some lane, laneReady := false })

theorem State.port_laneChosen (p lane : Nat) (s : State) :
    (s.laneChosen p lane).port p = { s.port p with lane := some lane, laneReady := false } := s.port_modPort p _

/-- The superframe under way counts from LOCK. -/
theorem State.superframe_laneChosen (p lane : Nat) (s : State) : (s.laneChosen p lane).superframe p = s.superframe p := by
  rw [State.superframe, State.port_laneChosen]
  rfl

/-- R84: a lane taken out of an ACTIVE port asks, four superframes ahead, for the largest group without it. -/
theorem State.laneOut_asks {p lane mask w : Nat} (hactive : s.isActive p = true) (hnone : (s.port p).lane = none)
    (hwide : 1 < s.activeWidth p)
    (hgroup : bestGroup (((s.port p).lanes ^^^ 2 ^ lane) &&& (s.port p).lanes) (s.cfgWidth p) 15 = some (mask, w)) :
    ((s.laneOut p lane).port p).lane = some lane ∧
      ((s.laneOut p lane).port p).widthReq = some (s.superframe p + 4, mask) ∧
      (s.laneOut p lane).out = s.out ++ [.lctl p (.widthChange (s.superframe p + 4) mask true)] ∧
      Changes [] [.ports, .out] s (s.laneOut p lane) := by
  have hasked : s.laneOut p lane = (s.laneChosen p lane).askWidth p mask := by
    rw [State.laneOut, if_neg (by simp [hactive, hnone]), if_neg (Nat.not_le.mpr hwide), hgroup]
    rfl
  have hchosen : Changes [] [.ports, .out] s (s.laneChosen p lane) := (changes_modPort _ _ s).weaken (by simp)
  rw [hasked, State.askWidth, State.lctl, State.port_emit, State.port_modPort, State.port_laneChosen,
    State.superframe_laneChosen]
  exact ⟨rfl, rfl, rfl, (hchosen.modPort _ _).emit _⟩

theorem gives_laneRetrain (h : Serves s) {p lane mask w : Nat} (hactive : s.isActive p = true)
    (hnone : (s.port p).lane = none) (hwide : 1 < s.activeWidth p)
    (hgroup : bestGroup (((s.port p).lanes ^^^ 2 ^ lane) &&& (s.port p).lanes) (s.cfgWidth p) 15 = some (mask, w)) :
    Gives (.laneRetrain p lane) s (fun t => (t.port p).lane = some lane ∧
      (t.port p).widthReq = some (s.superframe p + 4, mask) ∧
      t.out = s.out ++ [.lctl p (.widthChange (s.superframe p + 4) mask true)] ∧ RegsBut [] s t ∧
      PartsBut [.ports, .out] s t) := by
  obtain ⟨hlane, hreq, hout, hchanges⟩ := State.laneOut_asks hactive hnone hwide hgroup
  exact gives_hosted (f := fun s => s.laneOut p lane) rfl h ⟨hlane, hreq, hout, hchanges.after⟩

theorem gives_laneSerExceeded (h : Serves s) {p lane mask w : Nat}
    (hlimited : s.rd R.PRT_LANE_CFG_ser_limit [s.rd R.PRT_PORT_CFG_first_lane [p] + lane] ≠ 0)
    (hactive : s.isActive p = true) (hnone : (s.port p).lane = none) (hwide : 1 < s.activeWidth p)
    (hgroup : bestGroup (((s.port p).lanes ^^^ 2 ^ lane) &&& (s.port p).lanes) (s.cfgWidth p) 15 = some (mask, w)) :
    Gives (.laneSerExceeded p lane) s (fun t => (t.port p).lane = some lane ∧
      (t.port p).widthReq = some (s.superframe p + 4, mask) ∧
      t.out = s.out ++ [.lctl p (.widthChange (s.superframe p + 4) mask true)] ∧ RegsBut [] s t ∧
      PartsBut [.ports, .out] s t) := by
  have hexec : exec (.laneSerExceeded p lane) s = serving s (s.laneOut p lane) := by
    change execLaneSerExceeded p lane s = _
    rw [execLaneSerExceeded, if_neg hlimited]
  obtain ⟨hlane, hreq, hout, hchanges⟩ := State.laneOut_asks hactive hnone hwide hgroup
  exact gives_serving hexec h ⟨hlane, hreq, hout, hchanges.after⟩

/-- R83: a width change agreed on for a superframe. -/
def State.agreeWidth (p sf mask : Nat) (s : State) : State :=
  s.modPort p (fun r => { r with widthReq := none, widthAt := some (sf, mask) })

theorem State.port_agreeWidth (p sf mask : Nat) (s : State) :
    (s.agreeWidth p sf mask).port p = { s.port p with widthReq := none, widthAt := some (sf, mask) } := s.port_modPort p _

theorem changes_agreeWidth (p sf mask : Nat) (s : State) : Changes [] [.ports] s (s.agreeWidth p sf mask) :=
  changes_modPort p _ s

theorem gives_widthChange_answered (h : Serves s) {p sf mask : Nat} (hactive : s.isActive p = true)
    (hasked : (s.port p).widthReq.isSome = true) :
    Gives (.widthChange p sf mask false) s (fun t => (t.port p).widthAt = some (sf, mask) ∧ (t.port p).widthReq = none ∧
      RegsBut [] s t ∧ PartsBut [.ports] s t) := by
  have hexec : exec (.widthChange p sf mask false) s = serving s (s.agreeWidth p sf mask) := by
    change execWidthChange p sf mask false s = _
    rw [execWidthChange, if_neg (not_not_intro hactive), if_neg Bool.false_ne_true, if_pos hasked]
    rfl
  refine gives_serving hexec h ⟨?_, ?_, (changes_agreeWidth p sf mask s).after⟩
  all_goals rw [State.port_after, State.port_agreeWidth]

theorem gives_widthChange_requested (h : Serves s) {p sf mask : Nat} (hactive : s.isActive p = true)
    (hnone : (s.port p).widthReq = none) (hlegal : legalMask mask (s.cfgWidth p) = true)
    (hgood : mask &&& (s.rd R.PRT_PORT_STATUS_good_lanes [p] &&& s.ownGood p) = mask) (hahead : s.superframe p ≤ sf) :
    Gives (.widthChange p sf mask true) s (fun t => (t.port p).widthAt = some (sf, mask) ∧
      t.out = s.out ++ [.lctl p (.widthChange sf mask false)] ∧ RegsBut [] s t ∧ PartsBut [.ports, .out] s t) := by
  have hexec : exec (.widthChange p sf mask true) s =
      serving s ((s.agreeWidth p sf mask).lctl p (.widthChange sf mask false)) := by
    change execWidthChange p sf mask true s = _
    rw [execWidthChange, if_neg (not_not_intro hactive), if_pos rfl, if_neg (by simp [hnone])]
    dsimp only
    rw [if_pos (by simp [hlegal, hgood, hahead])]
    rfl
  refine gives_serving hexec h ⟨?_, rfl, (((changes_agreeWidth p sf mask s).weaken (by simp)).emit _).after⟩
  rw [State.port_after, State.lctl, State.port_emit, State.port_agreeWidth]

theorem gives_stripingChange (h : Serves s) {p sf mask : Nat} (hagreed : (s.port p).widthAt = some (sf, mask)) :
    Gives (.stripingChange p) s (fun t => t.rd R.PRT_PORT_STATUS_width_active [p] = Nat.log2 (popcount 8 mask) % 4 ∧
      (t.port p).widthAt = none ∧ bitAt (t.rd R.PRT_EVT_events []) 2 = true ∧
      RegsBut [R.PRT_PORT_STATUS_width_active, R.PRT_PORT_STATUS_degraded, R.GLB_DEGRADED_degraded] s t ∧
      PartsBut [.ports, .out, .hif, .sw, .ras, .answers] s t) := by
  have hexec : exec (.stripingChange p) s = serving s (((s.setLanes p mask).portEvent p 2).modPort p (fun r =>
      { r with widthAt := none, laneReady := (r.lane.map (fun l => !bitAt mask l)).getD false })) := by
    change execStripingChange p s = _
    rw [execStripingChange, hagreed]
  have hwidth := s.rd_setLanes_width p mask
  have hlanes := conveys_setLanes p mask s
  generalize s.setLanes p mask = u at hexec hwidth hlanes
  have htold := told_portEvent p 2 u
  have hsignal := State.portEvent_raises (b := 2) (by decide) p u
  have hall := (hlanes.trans (Conveys.told htold)).trans (conveys_modPort p (fun r =>
    { r with widthAt := none, laneReady := (r.lane.map (fun l => !bitAt mask l)).getD false }) _)
  refine gives_serving hexec h ⟨?_, ?_, ?_, hall.regs.after, (hall.parts.weaken (by decide)).after⟩
  · rw [State.rd_after, State.rd_modPort, htold.regs _ _ (by decide), hwidth]
  · rw [State.port_after, State.port_modPort]
  · rw [State.rd_after, State.rd_modPort, hsignal]

/-! ### Loss of signal (R85) -/

theorem gives_signalLoss (h : Serves s) {p : Nat}
    (htraining : s.pst p = Ps.equalise ∨ s.pst p = Ps.lock ∨ s.pst p = Ps.config) :
    Gives (.signalLoss p) s (fun t => t.pst p = Ps.detect ∧ (t.port p).replay = [] ∧
      RegsBut [R.PRT_PORT_STATUS_state] s t ∧ PartsBut [.ports] s t) := by
  have hdown : s.isUp p = false := by
    rcases htraining with hst | hst | hst <;> rw [State.isUp, hst] <;> rfl
  have hlost : ¬ (s.pst p = Ps.disabled ∨ s.pst p = Ps.fault ∨ s.pst p = Ps.detect) := by
    rcases htraining with hst | hst | hst <;> rw [hst] <;> decide
  have hexec : exec (.signalLoss p) s = serving s (s.goDown p Ps.detect) := by
    change execSignalLoss p s = _
    rw [execSignalLoss, if_neg hlost]
  exact gives_serving hexec h ⟨State.pst_goDown hdown (by decide), (State.port_goDown hdown _).1,
    (changes_goDown hdown _).after⟩

theorem gives_laneSignalLoss (h : Serves s) {p mask : Nat} (hactive : s.isActive p = true) :
    Gives (.laneSignalLoss p mask false) s (fun t => (t.port p).badLanes = (s.port p).badLanes ||| mask ∧
      t.pst p = Ps.retrain ∧ RegsBut [R.PRT_PORT_STATUS_state] s t ∧ PartsBut [.ports, .out, .hif] s t) := by
  have hexec : exec (.laneSignalLoss p mask false) s = serving s ((s.markBad p mask).enterRetrain p true) := by
    change execLaneSignalLoss p mask false s = _
    rw [execLaneSignalLoss, if_neg (not_not_intro hactive)]
    rfl
  have hstill : (s.markBad p mask).isActive p = true := hactive
  have hport := s.port_markBad p mask
  have hmarked := changes_markBad p mask s
  generalize s.markBad p mask = u at hexec hstill hport hmarked
  obtain ⟨since, hretraining⟩ := State.port_enterRetrain hstill true
  refine gives_serving hexec h ⟨?_, ?_, ((hmarked.weaken (by simp)).trans (changes_enterRetrain hstill true)).after⟩
  · rw [State.port_after, hretraining, Port.retraining, hport]
  · rw [State.pst_after, State.pst_enterRetrain hstill]

/-- Settles O11: admission and width changes write the port's context and send one link control flit; whatever retrains an
ACTIVE port enters RETRAIN at LOCK with its flits kept; putting lanes in use shows their width, also where a DEGRADED error
is reported with it. -/
theorem linkLanes : Obligations.LinkLanes :=
  fun _ h => ⟨fun _ => gives_portAdmit h, fun _ => gives_portAdmitClear h, fun _ => gives_retrain h,
    fun _ => gives_retrainReq h, fun _ _ _ _ => gives_laneRetrain h, fun _ _ _ _ => gives_laneSerExceeded h,
    fun _ _ _ => gives_widthChange_answered h, fun _ _ _ => gives_widthChange_requested h,
    fun _ _ _ => gives_stripingChange h, fun _ => gives_signalLoss h, fun _ _ => gives_laneSignalLoss h⟩

end Sys2Proof.Machine
end

section
/-! LAWS. The switch core (R86 to R104): what delivering, resequencing, giving cells back and rewriting a queue change, and
what stands in a queue or a flow afterwards. -/

namespace Sys2Proof

/-- The least element of a list stands in it. -/
theorem argMin_mem {α : Type} {f : α → Nat} {l : List α} {a : α} (h : argMin f l = some a) : a ∈ l := by
  induction l with
  | nil => simp [argMin] at h
  | cons x l ih =>
    unfold argMin at h
    split at h
    case h_1 => exact List.mem_cons.mpr (.inl (Option.some.inj h).symm)
    case h_2 b hb =>
      split at h
      · exact List.mem_cons.mpr (.inl (Option.some.inj h).symm)
      · exact List.mem_cons_of_mem x (ih (hb.trans h))

namespace Machine

open Sys2Proof.Safety

theorem Changes.inSw {l : List Fld} {ps : List Part} {s t : State} (h : Changes l ps s t) (w : Sw)
    (hp : Part.sw ∈ ps := by decide) : Changes l ps s { t with sw := w } := by
  refine h.trans ⟨fun _ _ _ _ => rfl, fun p hn => ?_, fun _ _ _ => rfl⟩
  cases p
  case sw => exact absurd hp hn
  all_goals rfl

theorem changes_inSw (w : Sw) (s : State) : Changes [] [.sw] s { s with sw := w } := (Changes.refl _ _ s).inSw w

/-! ### Outputs and flows (R102, R103) -/

theorem changes_deliverOut (o : Nat) (q : QMsg) (s : State) : Changes [] [.sw] s (s.deliverOut o q) :=
  Changes.ite (changes_inSw _ s) (changes_inSw _ s)

theorem changes_deliverAll (o : Nat) (l : List QMsg) (s : State) : Changes [] [.sw] s (s.deliverAll o l) :=
  Changes.foldl _ (fun t q => changes_deliverOut o q t) l s

theorem changes_setFlow (o flow : Nat) (f : Flow) (s : State) : Changes [] [.sw] s (s.setFlow o flow f) := changes_inSw _ s

/-- A flow without a sequence number to expect and without held messages is the one that is not listed. -/
theorem State.flow_setFlow (o flow : Nat) (f : Flow) (s : State) :
    ((s.setFlow o flow f).sw.flows.get {} [o, flow]).expected = f.expected ∧
      ((s.setFlow o flow f).sw.flows.get {} [o, flow]).held = f.held := by
  unfold State.setFlow
  dsimp only
  split
  case isTrue hclear => rw [Map.get_erase_same, hclear.1, hclear.2]; exact ⟨rfl, rfl⟩
  case isFalse => rw [Map.get_set_same]; exact ⟨rfl, rfl⟩

theorem State.flow_setFlow_clear (o flow : Nat) (s : State) : (s.setFlow o flow {}).sw.flows.get {} [o, flow] = {} := by
  rw [State.setFlow, if_pos ⟨rfl, rfl⟩, Map.get_erase_same]

theorem told_gap (o : Nat) (s : State) : Told s (s.gap o) := by
  have hcounted : Told s (s.countAt o 4) := Told.ite ((Told.refl s).bump (by decide) _) (Told.refl s)
  exact (Told.ite (hcounted.wr (by decide) _ _) hcounted).event _ _

theorem State.gap_raises (o : Nat) (s : State) : bitAt ((s.gap o).rd R.SWC_EVT_events []) 3 = true :=
  State.event_raises (blk := B.swc) (b := 3) _ (by decide)

/-- The run of a flow delivered, and what is left of the flow. -/
def State.runLeft (o flow : Nat) (held : List QMsg) (e : Nat) (s : State) : State :=
  (s.deliverAll o (takeRun held e).1).setFlow o flow
    { expected := (takeRun held e).2.2, held := (takeRun held e).2.1, since := s.now }

theorem changes_runLeft (o flow : Nat) (held : List QMsg) (e : Nat) (s : State) :
    Changes [] [.sw] s (s.runLeft o flow held e) :=
  (changes_deliverAll _ _ s).trans (changes_setFlow _ _ _ _)

theorem State.flow_runLeft (o flow : Nat) (held : List QMsg) (e : Nat) (s : State) :
    ((s.runLeft o flow held e).sw.flows.get {} [o, flow]).expected = (takeRun held e).2.2 ∧
      ((s.runLeft o flow held e).sw.flows.get {} [o, flow]).held = (takeRun held e).2.1 := State.flow_setFlow _ _ _ _

theorem State.skipHole_of_held {o flow : Nat} {q : QMsg} {l : List QMsg} {s : State}
    (h : (s.sw.flows.get {} [o, flow]).held = q :: l) :
    s.skipHole o flow = (s.runLeft o flow (q :: l) q.msg.flowSeq).gap o := by
  rw [State.skipHole]
  dsimp only
  rw [h]
  rfl

/-! ### Queues (R65, R90, R402) -/

theorem tenantTurn_mem {l : List QMsg} {last : Nat} {q : QMsg} (h : tenantTurn l last = some q) : q ∈ l :=
  (List.mem_filter.mp (argMin_mem h)).1

/-- The message a queue sends from stands in it. -/
theorem State.headOf_mem {s : State} {p vc : Nat} {q : QMsg} (h : s.headOf p vc = some q) :
    q ∈ s.sw.queues.get [] [p, vc] := by
  unfold State.headOf at h
  dsimp only at h
  split at h
  case h_1 r hr =>
    obtain rfl := Option.some.inj h
    exact List.mem_of_find?_eq_some hr
  case h_2 =>
    split at h
    · exact tenantTurn_mem h
    · exact List.mem_of_head? h

theorem changes_setQueue (p vc : Nat) (l : List QMsg) (s : State) : Changes [] [.sw] s (s.setQueue p vc l) := changes_inSw _ s

theorem State.queue_setQueue (p vc : Nat) (l : List QMsg) (s : State) :
    (s.setQueue p vc l).sw.queues.get [] [p, vc] = l := by
  unfold State.setQueue
  dsimp only
  split
  case isTrue hempty => rw [Map.get_erase_same, hempty]
  case isFalse => rw [Map.get_set_same]

theorem changes_putBack (p : Nat) (q : QMsg) (gone : Bool) (s : State) : Changes [] [.sw] s (s.putBack p q gone) :=
  changes_setQueue _ _ _ s

theorem State.regs_putBack (p : Nat) (q : QMsg) (gone : Bool) (s : State) : (s.putBack p q gone).regs = s.regs := rfl

/-- A message put back stands in its queue in the place of the one with its identifier. -/
theorem State.mem_putBack {p : Nat} {q r : QMsg} {s : State} (hr : r ∈ s.sw.queues.get [] [p, q.msg.vc]) (hid : r.id = q.id) :
    q ∈ (s.putBack p q false).sw.queues.get [] [p, q.msg.vc] := by
  unfold State.putBack
  dsimp only
  rw [State.queue_setQueue, if_neg Bool.false_ne_true]
  exact List.mem_map.mpr ⟨r, hr, if_pos hid⟩

/-- The only message of its queue taken out leaves the queue empty. -/
theorem State.queue_putBack_only {p : Nat} {q : QMsg} {s : State} (h : s.sw.queues.get [] [p, q.msg.vc] = [q]) :
    (s.putBack p q true).sw.queues.get [] [p, q.msg.vc] = [] := by
  unfold State.putBack
  dsimp only
  rw [State.queue_setQueue, h]
  simp

/-! ### Cells given back (R86, R88) -/

theorem changes_freeCells (q : QMsg) (n : Nat) (s : State) : Changes [] [.ports, .sw] s (s.freeCells q n) := by
  unfold State.freeCells
  split
  · exact (Changes.refl _ _ s).modPort _ _
  · exact (Changes.refl _ _ s).inSw _

theorem State.queues_freeCells (q : QMsg) (n : Nat) (s : State) : (s.freeCells q n).sw.queues = s.sw.queues := by
  unfold State.freeCells
  split <;> rfl

theorem State.regs_freeCells (q : QMsg) (n : Nat) (s : State) : (s.freeCells q n).regs = s.regs := by
  unfold State.freeCells
  split <;> rfl

theorem changes_dropReader (q : QMsg) (s : State) : Changes [] [.ports, .sw] s (s.dropReader q) := changes_freeCells _ _ s

theorem State.queues_dropReader (q : QMsg) (s : State) : (s.dropReader q).sw.queues = s.sw.queues := State.queues_freeCells _ _ s

theorem State.regs_dropReader (q : QMsg) (s : State) : (s.dropReader q).regs = s.regs := State.regs_freeCells _ _ s

end Machine

end Sys2Proof
end

section
/-! PROOF. The statement on holes, stalls and flow resets (R93, R103, R104, R109). -/

namespace Sys2Proof.Machine

open Sys2Proof.Safety

variable {s : State}

theorem gives_reseqTimeout (h : Serves s) {o fl : Nat} {q : QMsg} {l : List QMsg}
    (hheld : (s.sw.flows.get {} [o, fl]).held = q :: l)
    (hlate : 128 * s.rd R.SWC_RESEQ_CFG_timeout [] ≤ s.now - (s.sw.flows.get {} [o, fl]).since) :
    Gives (.reseqTimeout o fl) s (fun t => (t.sw.flows.get {} [o, fl]).expected = (takeRun (q :: l) q.msg.flowSeq).2.2 ∧
      (t.sw.flows.get {} [o, fl]).held = (takeRun (q :: l) q.msg.flowSeq).2.1 ∧
      bitAt (t.rd R.SWC_EVT_events []) 3 = true ∧ RegsBut [] s t ∧ PartsBut [.out, .sw, .hif] s t) := by
  have hexec : exec (.reseqTimeout o fl) s = serving s ((s.runLeft o fl (q :: l) q.msg.flowSeq).gap o) := by
    change execReseqTimeout o fl s = _
    rw [execReseqTimeout]
    dsimp only
    rw [if_pos ⟨by simp [hheld], hlate⟩, State.skipHole_of_held hheld]
  obtain ⟨hexpected, hleft⟩ := s.flow_runLeft o fl (q :: l) q.msg.flowSeq
  have htold := told_gap o (s.runLeft o fl (q :: l) q.msg.flowSeq)
  refine gives_serving hexec h ⟨?_, ?_, State.gap_raises o _,
    (((changes_runLeft o fl (q :: l) q.msg.flowSeq s).weaken (by simp)).told htold).after⟩
  · rw [State.after_sw_eq, htold.sw_eq]
    exact hexpected
  · rw [State.after_sw_eq, htold.sw_eq]
    exact hleft

theorem gives_cutThroughStall (h : Serves s) {p vc : Nat} {q : QMsg} (hhead : s.headOf p vc = some q) (hvc : q.msg.vc = vc)
    (hbegun : q.sent ≠ 0) (hwhole : q.failed = 0) (hpart : q.have_ < q.total) (hstuck : q.have_ ≤ q.sent)
    (hlate : s.ctStall ≤ s.now - q.time) :
    Gives (.cutThroughStall p vc) s (fun t => (∃ r ∈ t.sw.queues.get [] [p, vc], r.id = q.id ∧ r.failed = 1 ∧
      r.msg = q.msg) ∧ RegsBut [] s t ∧ PartsBut [.sw] s t) := by
  have hexec : exec (.cutThroughStall p vc) s = serving s (s.putBack p { q with failed := 1 } false) := by
    change execCutThroughStall p vc s = _
    rw [execCutThroughStall, hhead]
    exact congrArg (serving s) (if_pos ⟨hbegun, hwhole, hpart, hstuck, hlate⟩)
  subst hvc
  exact gives_serving hexec h ⟨⟨{ q with failed := 1 }, State.mem_putBack (State.headOf_mem hhead) rfl, rfl, rfl, rfl⟩,
    (changes_putBack p _ false s).after⟩

/-! ### Mirror copies (R109) -/

/-- A mirror copy that has not begun to leave a port and has had no credit there for too long. -/
def State.copyLate (s : State) (p : Nat) (q : QMsg) : Bool :=
  q.copy && q.sent = 0 && decide ((s.port p).credit.get 0 [q.msg.vc] ≤ 0) &&
  decide (max q.time ((s.port p).zeroSince.get 0 [q.msg.vc]) + s.ctStall < s.now)

/-- The late copies of a port. -/
def State.lateCopies (s : State) (p : Nat) : List QMsg :=
  vcs.flatMap (fun vc => (s.sw.queues.get [] [p, vc]).filter (s.copyLate p))

/-- A late copy dropped and counted. -/
def State.dropCopy (p : Nat) (s : State) (q : QMsg) : State :=
  ((s.putBack p q true).dropReader q).bump R.SWC_PORT_CNT_count [p, 6]

theorem exec_mirrorCopyStall (p : Nat) (s : State) :
    exec (.mirrorCopyStall p) s = serving s ((s.lateCopies p).foldl (State.dropCopy p) s) := rfl

/-- Where one element alone gives a list, that list is all. -/
theorem flatMap_of_only {α β : Type} {f : α → List β} {l : List α} {a : α} (hnodup : l.Nodup) (ha : a ∈ l)
    (hnone : ∀ b ∈ l, b ≠ a → f b = []) : l.flatMap f = f a := by
  induction l with
  | nil => simp at ha
  | cons b l ih =>
    obtain ⟨hb, hl⟩ := List.nodup_cons.mp hnodup
    rw [List.flatMap_cons]
    rcases List.mem_cons.mp ha with rfl | hmem
    · rw [List.flatMap_eq_nil_iff.mpr (fun c hc => hnone c (List.mem_cons_of_mem _ hc) (fun heq => hb (heq ▸ hc))),
        List.append_nil]
    · rw [hnone b List.mem_cons_self (fun heq => hb (heq ▸ hmem)), List.nil_append,
        ih hl hmem (fun c hc => hnone c (List.mem_cons_of_mem _ hc))]

theorem State.lateCopies_of_only {p vc : Nat} {q : QMsg} (hvc : vc ∈ vcs) (hqueue : s.sw.queues.get [] [p, vc] = [q])
    (hlate : s.copyLate p q = true) (hothers : ∀ v ∈ vcs, v ≠ vc → s.sw.queues.get [] [p, v] = []) :
    s.lateCopies p = [q] := by
  rw [State.lateCopies, flatMap_of_only (by decide) hvc (fun v hv hne => by rw [hothers v hv hne, List.filter_nil]), hqueue]
  simp [hlate]

theorem changes_dropCopy (p : Nat) (q : QMsg) (s : State) : Changes [] [.ports, .sw] s (s.dropCopy p q) :=
  (((changes_putBack p q true s).weaken (by simp)).trans (changes_dropReader q _)).trans
    ((changes_bump _ _).weaken (by simp))

theorem State.rd_dropCopy (p : Nat) (q : QMsg) (s : State) :
    (s.dropCopy p q).rd R.SWC_PORT_CNT_count [p, 6] = min (2 ^ 48 - 1) (s.rd R.SWC_PORT_CNT_count [p, 6] + 1) := by
  rw [State.dropCopy, State.rd_bump_same, State.rd_of_regs (State.regs_dropReader _ _), State.rd_of_regs (State.regs_putBack _ _ _ _)]
  rfl

theorem State.queue_dropCopy_only {p : Nat} {q : QMsg} (hqueue : s.sw.queues.get [] [p, q.msg.vc] = [q]) :
    (s.dropCopy p q).sw.queues.get [] [p, q.msg.vc] = [] := by
  rw [State.dropCopy, (changes_bump _ _).parts .sw (by simp), State.queues_dropReader, State.queue_putBack_only hqueue]

theorem gives_mirrorCopyStall (h : Serves s) {p vc : Nat} {q : QMsg} (hvc : vc ∈ vcs)
    (hqueue : s.sw.queues.get [] [p, vc] = [q]) (hown : q.msg.vc = vc) (hcopy : q.copy = true) (hunsent : q.sent = 0)
    (hcredit : (s.port p).credit.get 0 [vc] ≤ 0)
    (hlate : max q.time ((s.port p).zeroSince.get 0 [vc]) + s.ctStall < s.now)
    (hothers : ∀ v ∈ vcs, v ≠ vc → s.sw.queues.get [] [p, v] = []) :
    Gives (.mirrorCopyStall p) s (fun t => t.sw.queues.get [] [p, vc] = [] ∧ t.rd R.SWC_PORT_CNT_count [p, 6] =
      min (2 ^ 48 - 1) (s.rd R.SWC_PORT_CNT_count [p, 6] + 1) ∧ RegsBut [] s t ∧ PartsBut [.ports, .sw] s t) := by
  subst hown
  have hexec := exec_mirrorCopyStall p s
  rw [State.lateCopies_of_only hvc hqueue (by simp only [State.copyLate]; simp [hcopy, hunsent, hcredit, hlate]) hothers] at hexec
  exact gives_serving hexec h ⟨State.queue_dropCopy_only hqueue, State.rd_dropCopy p q s, (changes_dropCopy p q s).after⟩

theorem gives_flowReset (h : Serves s) {v : Nat} (hport : bitAt v 20 = false) :
    Gives (.flowReset v) s (fun t => t.sw.flows.get {} [bitsOf v 12 8, bitsOf v 0 12] = {} ∧ RegsBut [] s t ∧
      PartsBut [.sw] s t) := by
  have hreset : s.flowReset v = (s.deliverAll (bitsOf v 12 8) (s.sw.flows.get {} [bitsOf v 12 8, bitsOf v 0 12]).held).setFlow
      (bitsOf v 12 8) (bitsOf v 0 12) {} := by
    rw [State.flowReset]
    simp only [hport, Bool.false_eq_true, if_false]
  refine gives_hosted (f := fun s => s.flowReset v) rfl h ?_
  rw [hreset]
  exact ⟨State.flow_setFlow_clear _ _ _, ((changes_deliverAll _ _ s).trans (changes_setFlow _ _ _ _)).after⟩

/-- Settles O13: skipping a hole delivers the run and leaves the rest of the flow as `takeRun` splits it; the head of a queue
stands in it and is put back failed; the one late copy is taken out and counted; a reset flow is the flow not listed. -/
theorem switchLimits : Obligations.SwitchLimits :=
  fun _ h => ⟨fun _ _ _ _ => gives_reseqTimeout h, fun _ _ _ => gives_cutThroughStall h,
    fun _ _ _ => gives_mirrorCopyStall h, fun _ => gives_flowReset h⟩

end Sys2Proof.Machine
end

section
/-! LAWS. Fabric-manager commands applied here (R190, R415), and the staged tables as the registers hold them (R97, R99). -/

namespace Sys2Proof

/-- A table made of the values of a function at listed indices reads as the function there. -/
theorem Map.find_map_keys {α : Type} (g : Key → α) (l : List Key) (k : Key) :
    Map.find (l.map (fun k => (k, g k))) k = if k ∈ l then some (g k) else none := by
  induction l with
  | nil => simp [Map.find]
  | cons k' l ih =>
    rw [List.map_cons, Map.find]
    by_cases hk : k' = k
    · simp [hk]
    · simp [hk, Ne.symm hk, ih]

/-- An index that no entry has reads as not listed. -/
theorem Map.find_of_forall_ne {α : Type} {l : List (Key × α)} {k : Key} (h : ∀ e ∈ l, e.1 ≠ k) : Map.find l k = none := by
  induction l with
  | nil => rfl
  | cons e l ih =>
    obtain ⟨hne, hl⟩ := List.forall_mem_cons.mp h
    rw [Map.find, if_neg hne, ih hl]

namespace Machine

open Sys2Proof.Safety

/-- A field reads as its reset value where it is not listed. -/
theorem State.rd_of_not_listed {s : State} {f : Fld} {ix : List Nat} (h : ix ∉ s.listed f) : s.rd f ix = f.resetAt ix := by
  have hnone : Map.find s.regs.entries (f.num :: ix) = none := by
    refine Map.find_of_forall_ne (fun e he heq => h ?_)
    exact List.mem_map.mpr ⟨e, List.mem_filter.mpr ⟨he, by rw [heq]; simp⟩, by rw [heq]; rfl⟩
  rw [State.rd, Map.get, hnone]
  rfl

/-- R97, R99: the staged routes are those of the stage registers. -/
theorem State.staged_route (s : State) (e : Nat) : s.staged.route.get 0 [e] = s.rd R.SWC_ROUTE_STAGE_entry [e] := by
  change (Map.find ((s.listed R.SWC_ROUTE_STAGE_entry).map (fun k => (k, s.rd R.SWC_ROUTE_STAGE_entry k))) [e]).getD 0 = _
  rw [Map.find_map_keys]
  by_cases hlisted : [e] ∈ s.listed R.SWC_ROUTE_STAGE_entry
  · rw [if_pos hlisted]
    rfl
  · rw [if_neg hlisted, State.rd_of_not_listed hlisted]
    rfl

theorem State.on_iff {s : State} {f : Fld} {ix : List Nat} : s.on f ix = true ↔ s.rd f ix ≠ 0 := decide_eq_true_iff

theorem State.on_eq_false {s : State} {f : Fld} {ix : List Nat} (h : s.rd f ix = 0) : s.on f ix = false := by
  simp [State.on, h]

/-- The outcome of a command in the list of those applied here. -/
def State.listAnswer (op : Nat) (st : Status) (s : State) : State := { s with answers := s.answers ++ [(op, st)] }

theorem Changes.listAnswer {l : List Fld} {ps : List Part} {s t : State} (h : Changes l ps s t) (op : Nat) (st : Status) :
    Changes l (.answers :: ps) s (t.listAnswer op st) := by
  refine (h.weaken (fun _ hf => hf) (fun _ hp => List.mem_cons_of_mem _ hp)).trans
    ⟨fun _ _ _ _ => rfl, fun p hn => ?_, fun _ _ _ => rfl⟩
  cases p
  case answers => exact absurd List.mem_cons_self hn
  all_goals rfl

theorem Changes.answers_listAnswer {l : List Fld} {ps : List Part} {s t : State} (h : Changes l ps s t) (op : Nat)
    (st : Status) (hp : Part.answers ∉ ps := by decide) : (t.listAnswer op st).answers = s.answers ++ [(op, st)] := by
  rw [State.listAnswer, show t.answers = s.answers from h.parts .answers hp]

@[simp] theorem State.rd_listAnswer (op : Nat) (st : Status) (f : Fld) (ix : List Nat) (s : State) :
    (s.listAnswer op st).rd f ix = s.rd f ix := rfl

/-- R415, R419, R443: a command of a READY block of a part not expelled has its effect, and its status is told here. -/
theorem gives_applied {c : Instr} {op : Nat} {r : Status × State} {st : Status} {s t : State} {P : State → Prop}
    {l : List Fld} {ps : List Part} (h : Applies s (opBlock op)) (hcmd : r = (st, t)) (hchanges : Changes l ps s t)
    (hexec : exec c s = serving s (State.told op (s.gated op r))) (p : P (s.after (t.listAnswer op st)))
    (hp : Part.pkg ∉ ps := by decide) : Gives c s P := by
  have hpkg : t.pkg = s.pkg := hchanges.parts .pkg hp
  obtain ⟨hserves, hexpelled, hready⟩ := h
  subst hcmd
  refine gives_serving (t := t.listAnswer op st) (hexec.trans (congrArg (serving s) ?_)) hserves p
  rw [State.gated, if_neg (by simp [hexpelled]), if_pos hready, State.told, State.tell, if_neg (by simp [hpkg, hexpelled])]
  rfl

end Machine

end Sys2Proof
end

section
/-! PROOF. The statement on staged tables and map generations (R97, R99). -/

namespace Sys2Proof.Machine

open Sys2Proof.Safety

variable {s : State}

/-! ### Writing the stage -/

theorem State.stageWrite_open {f : Fld} {ix : List Nat} {put : State → State} (hopen : s.stageOpen = true) :
    s.stageWrite f ix false put = (.ok, put s) := by
  rw [State.stageWrite, if_neg Bool.false_ne_true, if_neg (not_not_intro hopen)]

theorem gives_routeStage (h : Applies s B.swc) {e entry : Nat} (he : e < 65536) (hentry : entry < 4096)
    (hkind : bitsOf entry 0 2 ≠ 3) (hopen : s.stageOpen = true) :
    Gives (.routeStage e entry) s (fun t => t.rd R.SWC_ROUTE_STAGE_entry [e] = entry ∧
      t.answers = s.answers ++ [(0x0401, .ok)] ∧
      (∀ x, x ≠ e → t.rd R.SWC_ROUTE_STAGE_entry [x] = s.rd R.SWC_ROUTE_STAGE_entry [x]) ∧
      RegsBut [R.SWC_ROUTE_STAGE_entry] s t ∧ PartsBut [.answers] s t) := by
  have hcmd : s.cmdRouteStage e entry = (.ok, s.wr R.SWC_ROUTE_STAGE_entry [e] entry) := by
    have hreserved : (bitsOf entry 0 2 = 3 || 4096 ≤ entry) = false := by simp [hkind, hentry]
    rw [State.cmdRouteStage, if_neg (by omega), hreserved, State.stageWrite_open hopen]
  have hchanges : Changes [R.SWC_ROUTE_STAGE_entry] [] s (s.wr R.SWC_ROUTE_STAGE_entry [e] entry) :=
    (Changes.refl _ _ s).wr (by simp) _ _
  refine gives_applied (op := 0x0401) h hcmd hchanges rfl
    ⟨?_, hchanges.answers_listAnswer _ _, fun x hx => ?_, (hchanges.listAnswer _ _).after⟩
  · exact (State.rd_wr_same _ _ _ s).trans (Nat.mod_eq_of_lt (Nat.lt_trans hentry (by decide)))
  · exact State.rd_wr_index _ s (by simpa using hx)

theorem gives_groupStage (h : Applies s B.swc) {g v : Nat} (hg : g < 1024) (hv : v < 2 ^ 68) (hcount : bitsOf v 64 4 ≤ 8)
    (hmembers : bitsOf v 64 4 ≠ 0 ∨ v = 0) (hopen : s.stageOpen = true) :
    Gives (.groupStage g v) s (fun t => t.rd R.SWC_GROUP_STAGE_group [g] = v ∧ t.answers = s.answers ++ [(0x0402, .ok)] ∧
      RegsBut [R.SWC_GROUP_STAGE_group] s t ∧ PartsBut [.answers] s t) := by
  have hcmd : s.cmdGroupStage g v = (.ok, s.wr R.SWC_GROUP_STAGE_group [g] v) := by
    have hreserved : (8 < bitsOf v 64 4 || 2 ^ 68 ≤ v || (bitsOf v 64 4 = 0 && v ≠ 0)) = false := by
      simp only [Bool.or_eq_false_iff, Bool.and_eq_false_iff, decide_eq_false_iff_not]
      omega
    rw [State.cmdGroupStage, if_neg (by omega), hreserved, State.stageWrite_open hopen]
  have hchanges : Changes [R.SWC_GROUP_STAGE_group] [] s (s.wr R.SWC_GROUP_STAGE_group [g] v) :=
    (Changes.refl _ _ s).wr (by simp) _ _
  refine gives_applied (op := 0x0402) h hcmd hchanges rfl
    ⟨?_, hchanges.answers_listAnswer _ _, (hchanges.listAnswer _ _).after⟩
  · exact (State.rd_wr_same _ _ _ s).trans (Nat.mod_eq_of_lt (Nat.lt_trans hv (by decide)))

/-- R96, R99: a multicast set in the stage. -/
def State.mcastStaged (m ports agents : Nat) (s : State) : State :=
  ((s.wr R.SWC_MCAST_STAGE_ports [m] ports).wr R.SWC_MCAST_STAGE_west_agent [m] (bitsOf agents 0 1)).wr
    R.SWC_MCAST_STAGE_east_agent [m] (bitsOf agents 1 1)

theorem gives_mcastStage (h : Applies s B.swc) {m ports agents : Nat} (hm : m < 4095) (hagents : agents ≤ 3)
    (hports : ports < 2 ^ 256) (hopen : s.stageOpen = true) :
    Gives (.mcastStage m ports agents) s (fun t => t.rd R.SWC_MCAST_STAGE_ports [m] = ports ∧
      t.rd R.SWC_MCAST_STAGE_west_agent [m] = bitsOf agents 0 1 ∧ t.rd R.SWC_MCAST_STAGE_east_agent [m] = bitsOf agents 1 1 ∧
      t.answers = s.answers ++ [(0x0403, .ok)] ∧ RegsBut [R.SWC_MCAST_STAGE_ports, R.SWC_MCAST_STAGE_west_agent,
      R.SWC_MCAST_STAGE_east_agent] s t ∧ PartsBut [.answers] s t) := by
  have hcmd : s.cmdMcastStage m ports agents = (.ok, s.mcastStaged m ports agents) := by
    rw [State.cmdMcastStage, if_neg (by omega), State.stageWrite_open hopen]
    rfl
  have hchanges : Changes [R.SWC_MCAST_STAGE_ports, R.SWC_MCAST_STAGE_west_agent, R.SWC_MCAST_STAGE_east_agent] [] s
      (s.mcastStaged m ports agents) :=
    (((Changes.refl _ _ s).wr (by simp) _ _).wr (by simp) _ _).wr (by simp) _ _
  refine gives_applied (op := 0x0403) h hcmd hchanges rfl
    ⟨?portSet, ?west, ?east, hchanges.answers_listAnswer _ _, (hchanges.listAnswer _ _).after⟩
  all_goals rw [State.rd_after, State.rd_listAnswer, State.mcastStaged]
  all_goals simp (disch := decide) only [State.rd_wr_num, State.rd_wr_same]
  case portSet => exact Nat.mod_eq_of_lt hports
  case west => exact Nat.mod_eq_of_lt (bitsOf_lt _ _ _)
  case east => exact Nat.mod_eq_of_lt (bitsOf_lt _ _ _)

theorem bitsOf_one_of_bitAt {x i : Nat} (h : bitAt x i = true) : bitsOf x i 1 = 1 := by
  rw [bitAt, decide_eq_true_iff] at h
  exact h

theorem gives_stageSet (h : Applies s B.swc) {v : Nat} (hv : v < 512) (hopen : s.stageOpen = true) (hvalid : bitAt v 8 = true)
    (hnext : bitsOf v 0 8 = (s.mapGen + 1) % 256) :
    Gives (.stageSet v) s (fun t => t.rd R.SWC_MAP_STAGE_gen [] = bitsOf v 0 8 ∧ t.rd R.SWC_MAP_STAGE_valid [] = 1 ∧
      t.answers = s.answers ++ [(0x0404, .ok)] ∧ RegsBut [R.SWC_MAP_STAGE_gen, R.SWC_MAP_STAGE_valid] s t ∧
      PartsBut [.answers] s t) := by
  have hcmd : s.cmdStageSet v =
      (.ok, (s.wr R.SWC_MAP_STAGE_gen [] (bitsOf v 0 8)).wr R.SWC_MAP_STAGE_valid [] (bitsOf v 8 1)) := by
    rw [State.cmdStageSet, if_neg (by omega), if_neg (fun hclosed => hclosed.2 hopen), if_neg (fun hwrong => hwrong.2 hnext)]
  have hchanges : Changes [R.SWC_MAP_STAGE_gen, R.SWC_MAP_STAGE_valid] [] s
      ((s.wr R.SWC_MAP_STAGE_gen [] (bitsOf v 0 8)).wr R.SWC_MAP_STAGE_valid [] (bitsOf v 8 1)) :=
    ((Changes.refl _ _ s).wr (by simp) _ _).wr (by simp) _ _
  refine gives_applied (op := 0x0404) h hcmd hchanges rfl
    ⟨?_, ?_, hchanges.answers_listAnswer _ _, (hchanges.listAnswer _ _).after⟩
  · rw [State.rd_after, State.rd_listAnswer, State.rd_wr_num _ _ _ _ (by decide), State.rd_wr_same]
    exact Nat.mod_eq_of_lt (bitsOf_lt _ _ _)
  · rw [State.rd_after, State.rd_listAnswer, State.rd_wr_same, bitsOf_one_of_bitAt hvalid]
    rfl

/-! ### The switch (R38, R50, R99) -/

/-- A switch in waiting, before it is judged late. -/
def State.switchScheduled (beat : Nat) (s : State) : State :=
  ((s.wr R.SWC_MAP_STATUS_switch_pending [] 1).wr R.SWC_MAP_STATUS_pending_beat [] (launchBeat beat s.beat)).wr
    R.SWC_MAP_STATUS_result [] 0

theorem State.rd_switchScheduled (beat : Nat) (s : State) :
    (s.switchScheduled beat).rd R.SWC_MAP_STATUS_switch_pending [] = 1 ∧
      (s.switchScheduled beat).rd R.SWC_MAP_STATUS_pending_beat [] = launchBeat beat s.beat := by
  unfold State.switchScheduled
  simp (disch := decide) only [State.rd_wr_num, State.rd_wr_same]
  exact ⟨by decide, Nat.mod_eq_of_lt (launchBeat_lt _ _)⟩

theorem changes_switchScheduled (beat : Nat) (s : State) : Changes [R.SWC_MAP_STATUS_switch_pending,
    R.SWC_MAP_STATUS_pending_beat, R.SWC_MAP_STATUS_result] [] s (s.switchScheduled beat) :=
  (((Changes.refl _ _ s).wr (by simp) _ _).wr (by simp) _ _).wr (by simp) _ _

theorem State.cmdMapSwitch_none {beat : Nat} (htime : s.timeless = false)
    (hnone : s.rd R.SWC_MAP_STATUS_switch_pending [] = 0) :
    s.cmdMapSwitch beat = (.ok, (s.switchScheduled beat).lateIf beat s.beat) := by
  rw [State.cmdMapSwitch, if_neg (by simp [htime]), if_neg (by simp [State.on_eq_false hnone])]
  rfl

theorem gives_mapSwitch (h : Applies s B.swc) {beat : Nat} (htime : s.timeless = false)
    (hnone : s.rd R.SWC_MAP_STATUS_switch_pending [] = 0) :
    Gives (.mapSwitch beat) s (fun t => t.rd R.SWC_MAP_STATUS_switch_pending [] = 1 ∧
      t.rd R.SWC_MAP_STATUS_pending_beat [] = launchBeat beat s.beat ∧ t.answers = s.answers ++ [(0x0405, .ok)] ∧
      RegsBut [R.SWC_MAP_STATUS_switch_pending, R.SWC_MAP_STATUS_pending_beat, R.SWC_MAP_STATUS_result] s t ∧
      PartsBut [.answers, .out, .hif] s t) := by
  have hcmd := State.cmdMapSwitch_none (beat := beat) htime hnone
  have htold := (Told.refl (s.switchScheduled beat)).lateIf beat s.beat
  have hchanges := changes_switchScheduled beat s
  obtain ⟨hpending, htarget⟩ := s.rd_switchScheduled beat
  generalize s.switchScheduled beat = u at hcmd htold hchanges hpending htarget
  generalize u.lateIf beat s.beat = v at hcmd htold
  have hall := (hchanges.weaken (ps' := [.out, .hif]) (fun _ hf => hf)).told htold
  refine gives_applied (op := 0x0405) h hcmd hall rfl
    ⟨?_, ?_, hall.answers_listAnswer _ _, (hall.listAnswer _ _).after⟩
  · rw [State.rd_after, State.rd_listAnswer, htold.regs _ _ (by decide), hpending]
  · rw [State.rd_after, State.rd_listAnswer, htold.regs _ _ (by decide), htarget]

theorem exec_mapGenerationSwitch (hpending : s.rd R.SWC_MAP_STATUS_switch_pending [] ≠ 0)
    (hdue : ahead (s.rd R.SWC_MAP_STATUS_pending_beat []) s.beat = false) :
    exec .mapGenerationSwitch s = serving s s.switchMaps := by
  change execMapGenerationSwitch s = _
  rw [execMapGenerationSwitch, if_pos ⟨State.on_iff.mpr hpending, by simp [hdue]⟩]

/-- A switch taken: none waits any longer. -/
def State.switchTaken (s : State) : State := s.wr R.SWC_MAP_STATUS_switch_pending [] 0

/-- The staged tables in force, those in force before kept as the previous ones, and the stage open for the generation after
the new one. -/
def State.mapsSwitched (s : State) : State :=
  let g := (s.mapGen + 1) % 256
  (((({ s with sw := { s.sw with previous := s.sw.current, current := s.staged } } : State).wr R.SWC_MAP_STATUS_current_gen []
    g).wr R.SWC_MAP_STATUS_result [] 0).wr R.SWC_MAP_STAGE_valid [] 0).wr R.SWC_MAP_STAGE_gen [] (g + 1)

theorem State.switchMaps_eq (s : State) :
    s.switchMaps = if s.on R.SWC_MAP_STAGE_valid [] then s.switchTaken.mapsSwitched.event B.swc 0
      else (s.switchTaken.wr R.SWC_MAP_STATUS_result [] Status.retry.code).event B.swc 1 := by
  have hvalid : s.switchTaken.on R.SWC_MAP_STAGE_valid [] = s.on R.SWC_MAP_STAGE_valid [] := by
    rw [State.on, State.switchTaken, State.rd_wr_num _ _ _ _ (by decide), State.on]
  rw [← hvalid]
  rfl

theorem changes_switchTaken (s : State) : Changes [R.SWC_MAP_STATUS_switch_pending] [] s s.switchTaken :=
  (Changes.refl _ _ s).wr (by simp) _ _

theorem State.rd_switchTaken (s : State) : s.switchTaken.rd R.SWC_MAP_STATUS_switch_pending [] = 0 :=
  (State.rd_wr_same _ _ _ s).trans (Nat.zero_mod _)

theorem changes_mapsSwitched (s : State) : Changes [R.SWC_MAP_STATUS_current_gen, R.SWC_MAP_STATUS_result,
    R.SWC_MAP_STAGE_valid, R.SWC_MAP_STAGE_gen] [.sw, .out, .hif] s s.mapsSwitched :=
  (((((Changes.refl _ _ s).inSw _).wr (by simp) _ _).wr (by simp) _ _).wr (by simp) _ _).wr (by simp) _ _

/-- R99: the generation advances by 1 modulo 256, and the stage is no longer valid. -/
theorem State.rd_mapsSwitched (s : State) :
    s.mapsSwitched.rd R.SWC_MAP_STATUS_current_gen [] = (s.mapGen + 1) % 256 ∧
      s.mapsSwitched.rd R.SWC_MAP_STAGE_valid [] = 0 := by
  unfold State.mapsSwitched
  simp (disch := decide) only [State.rd_wr_num, State.rd_wr_same]
  exact ⟨Nat.mod_mod _ _, Nat.zero_mod _⟩

theorem State.sw_mapsSwitched (s : State) :
    s.mapsSwitched.sw.previous = s.sw.current ∧ s.mapsSwitched.sw.current = s.staged := by
  simp [State.mapsSwitched]

theorem gives_mapGenerationSwitch_valid (h : Applies s B.swc) (hpending : s.rd R.SWC_MAP_STATUS_switch_pending [] ≠ 0)
    (hdue : ahead (s.rd R.SWC_MAP_STATUS_pending_beat []) s.beat = false) (hvalid : s.rd R.SWC_MAP_STAGE_valid [] ≠ 0) :
    Gives .mapGenerationSwitch s (fun t => t.rd R.SWC_MAP_STATUS_current_gen [] = (s.mapGen + 1) % 256 ∧
      t.sw.previous = s.sw.current ∧ (∀ e, t.sw.current.route.get 0 [e] = s.rd R.SWC_ROUTE_STAGE_entry [e]) ∧
      t.rd R.SWC_MAP_STAGE_valid [] = 0 ∧ t.rd R.SWC_MAP_STATUS_switch_pending [] = 0 ∧
      RegsBut [R.SWC_MAP_STATUS_current_gen, R.SWC_MAP_STATUS_switch_pending, R.SWC_MAP_STATUS_result,
      R.SWC_MAP_STAGE_valid, R.SWC_MAP_STAGE_gen] s t ∧ PartsBut [.sw, .out, .hif] s t) := by
  have hexec := exec_mapGenerationSwitch hpending hdue
  rw [State.switchMaps_eq, if_pos (State.on_iff.mpr hvalid)] at hexec
  have htaken := changes_switchTaken s
  have hswitched := changes_mapsSwitched s.switchTaken
  have htold := (Told.refl s.switchTaken.mapsSwitched).event B.swc 0
  have hgen : s.switchTaken.mapGen = s.mapGen := htaken.rd R.SWC_MAP_STATUS_current_gen []
  have hsw : s.switchTaken.sw = s.sw := htaken.parts .sw (by simp)
  obtain ⟨hcurrent, hstage⟩ := s.switchTaken.rd_mapsSwitched
  obtain ⟨hprevious, htables⟩ := s.switchTaken.sw_mapsSwitched
  refine gives_serving hexec h.1 ⟨?_, ?_, fun e => ?_, ?_, ?_,
    (((htaken.weaken (by simp)).trans (hswitched.weaken (by simp))).told htold).after⟩
  · rw [State.rd_after, htold.regs _ _ (by decide), hcurrent, hgen]
  · rw [State.after_sw_eq, htold.sw_eq, hprevious, hsw]
  · rw [State.after_sw_eq, htold.sw_eq, htables, State.staged_route, htaken.rd R.SWC_ROUTE_STAGE_entry]
  · rw [State.rd_after, htold.regs _ _ (by decide), hstage]
  · rw [State.rd_after, htold.regs _ _ (by decide), hswitched.rd R.SWC_MAP_STATUS_switch_pending, State.rd_switchTaken]

theorem gives_mapGenerationSwitch_invalid (h : Applies s B.swc) (hpending : s.rd R.SWC_MAP_STATUS_switch_pending [] ≠ 0)
    (hdue : ahead (s.rd R.SWC_MAP_STATUS_pending_beat []) s.beat = false) (hinvalid : s.rd R.SWC_MAP_STAGE_valid [] = 0) :
    Gives .mapGenerationSwitch s (fun t => t.rd R.SWC_MAP_STATUS_result [] = Status.retry.code ∧ t.mapGen = s.mapGen ∧
      t.rd R.SWC_MAP_STATUS_switch_pending [] = 0 ∧ bitAt (t.rd R.SWC_EVT_events []) 1 = true ∧
      RegsBut [R.SWC_MAP_STATUS_switch_pending, R.SWC_MAP_STATUS_result] s t ∧ PartsBut [.out, .hif] s t) := by
  have hexec := exec_mapGenerationSwitch hpending hdue
  rw [State.switchMaps_eq, if_neg (by simp [State.on_eq_false hinvalid])] at hexec
  have hchanges : Changes [R.SWC_MAP_STATUS_switch_pending, R.SWC_MAP_STATUS_result] [.out, .hif] s
      (s.switchTaken.wr R.SWC_MAP_STATUS_result [] Status.retry.code) :=
    ((changes_switchTaken s).weaken (by simp)).wr (by simp) _ _
  have htold := (Told.refl (s.switchTaken.wr R.SWC_MAP_STATUS_result [] Status.retry.code)).event B.swc 1
  have hall := hchanges.told htold
  refine gives_serving hexec h.1 ⟨?_, hall.rd R.SWC_MAP_STATUS_current_gen [], ?_,
    State.event_raises (blk := B.swc) (b := 1) _ (by decide), hall.after⟩
  · exact (htold.regs _ _ (by decide)).trans ((State.rd_wr_same _ _ _ _).trans (by decide))
  · exact (htold.regs _ _ (by decide)).trans ((State.rd_wr_num _ _ _ _ (by decide)).trans s.rd_switchTaken)

/-- Settles O14: each command on an open stage writes its fields and is answered OK; at the beat the staged routes in force
are those that the stage registers hold, or, without a valid stage, only the result and the event tell of the switch. -/
theorem mapGenerations : Obligations.MapGenerations :=
  fun _ h => ⟨fun _ _ => gives_routeStage h, fun _ _ => gives_groupStage h, fun _ _ _ => gives_mcastStage h,
    fun _ hv hopen hvalid => gives_stageSet h hv hopen hvalid, fun _ => gives_mapSwitch h,
    gives_mapGenerationSwitch_valid h, gives_mapGenerationSwitch_invalid h⟩

end Sys2Proof.Machine
end

section
/-! PROOF. The refutation of the statement on own requests: it speaks of every state, also of one whose one-bit event field
holds a number that no write leaves there. -/

namespace Sys2Proof.Machine

open Sys2Proof.Safety

variable {s : State}

/-! ### The clause on a field within its one bit -/

/-- An event keeps its field within the field's width. -/
theorem State.event_lt {blk b : Nat} (h : s.rd (evtBit blk b).1 [] < 2 ^ (evtBit blk b).1.w) :
    (s.event blk b).rd (evtBit blk b).1 [] < 2 ^ (evtBit blk b).1.w := by
  have hregs := State.regs_event blk b s
  by_cases hset : bitAt (s.rd (evtBit blk b).1 []) (evtBit blk b).2.1 = true
  · rw [if_pos hset] at hregs
    rwa [State.rd_of_regs hregs]
  · rw [if_neg hset] at hregs
    rw [State.rd_of_regs hregs, State.rd_wr_same]
    exact Nat.mod_lt _ (Nat.two_pow_pos _)

theorem eq_one_of_bitAt_zero {x : Nat} (h : bitAt x 0 = true) (hx : x < 2) : x = 1 := by
  rw [bitAt, decide_eq_true_iff, Nat.shiftRight_zero] at h
  omega

theorem Changes.inTrk {l : List Fld} {ps : List Part} {s t : State} (h : Changes l ps s t) (k : Trk)
    (hp : Part.trk ∈ ps := by decide) : Changes l ps s { t with trk := k } := by
  refine h.trans ⟨fun _ _ _ _ => rfl, fun p hn => ?_, fun _ _ _ => rfl⟩
  cases p
  case trk => exact absurd hp hn
  all_goals rfl

theorem State.rd_unanswered (d dst : Nat) (f : Fld) (ix : List Nat) (s : State) :
    (s.unanswered d dst).rd f ix = s.rd f ix := rfl

theorem changes_unanswered (d dst : Nat) (s : State) : Changes [] [.sw] s (s.unanswered d dst) := changes_inSw _ s

/-- An entry counted and signalled as not answered in time, and out of its window's count. -/
def State.timedOut (d dst : Nat) (s : State) : State :=
  ((s.bump R.TRK_CNT_count [d, 3]).event B.trk 0).unanswered d dst

theorem changes_timedOut (d dst : Nat) (s : State) : Changes [] [.out, .hif, .sw] s (s.timedOut d dst) := by
  have hcounted : Changes [] [.out, .hif, .sw] s (s.bump R.TRK_CNT_count [d, 3]) := (changes_bump _ s).weaken (by simp)
  exact (hcounted.told ((Told.refl _).event _ _)).trans ((changes_unanswered _ _ _).weaken (by simp))

theorem State.timedOut_event {d dst : Nat} (hfits : s.rd R.TRK_EVT_timeout [] < 2) :
    (s.timedOut d dst).rd R.TRK_EVT_timeout [] = 1 := by
  have hcounted : (s.bump R.TRK_CNT_count [d, 3]).rd R.TRK_EVT_timeout [] < 2 := by
    rwa [State.rd_bump_other _ _ _ (by decide)]
  rw [State.timedOut, State.rd_unanswered]
  exact eq_one_of_bitAt_zero (State.event_raises (blk := B.trk) (b := 0) _ (by decide))
    (State.event_lt (blk := B.trk) (b := 0) hcounted)

theorem State.timedOut_count (d dst : Nat) (s : State) :
    (s.timedOut d dst).rd R.TRK_CNT_count [d, 3] = min (2 ^ 48 - 1) (s.rd R.TRK_CNT_count [d, 3] + 1) := by
  rw [State.timedOut, State.rd_unanswered, State.rd_event_other _ _ _ _ (by decide), State.rd_bump_same]
  rfl

theorem exec_issuedTimeout_plain {d i : Nat} {e : Issued} (hentry : s.trk.issued.get? [d, i] = some e)
    (hlate : 1000 * s.rd R.TRK_TIMEOUT_issued [] ≤ s.now - e.since) (hplain : e.purpose = .plain) :
    exec (.issuedTimeout d i) s = serving s ((s.timedOut d e.msg.dst).dropIssued d i) := by
  change execIssuedTimeout d i s = _
  rw [execIssuedTimeout, hentry]
  dsimp only
  rw [if_neg (Nat.not_lt.mpr hlate), hplain]
  rfl

/-- R130: what the clause on an entry without an answer in time says, of a part whose event field is within its one bit. -/
theorem gives_issuedTimeout_of_fits (h : Serves s) (hfits : s.rd R.TRK_EVT_timeout [] < 2) {d i : Nat} {e : Issued}
    (hentry : s.trk.issued.get? [d, i] = some e) (hlate : 1000 * s.rd R.TRK_TIMEOUT_issued [] ≤ s.now - e.since)
    (hplain : e.purpose = .plain) :
    Gives (.issuedTimeout d i) s (fun t => t.trk.issued.has [d, i] = false ∧ t.rd R.TRK_EVT_timeout [] = 1 ∧
      t.rd R.TRK_CNT_count [d, 3] = min (2 ^ 48 - 1) (s.rd R.TRK_CNT_count [d, 3] + 1) ∧ RegsBut [] s t ∧
      PartsBut [.out, .hif, .sw, .trk] s t) := by
  have htimed : Changes [] [.out, .hif, .sw, .trk] s (s.timedOut d e.msg.dst) :=
    (changes_timedOut d e.msg.dst s).weaken (by simp)
  have hexec := exec_issuedTimeout_plain hentry hlate hplain
  have hevent := State.timedOut_event (d := d) (dst := e.msg.dst) hfits
  have hcount := s.timedOut_count d e.msg.dst
  generalize s.timedOut d e.msg.dst = u at hexec htimed hevent hcount
  exact gives_serving hexec h ⟨Map.has_erase_same _ _, hevent, hcount, (htimed.inTrk _).after⟩

/-! ### The counterexample -/

/-- A request of core 0 under entry 0 of die 0, issued at time 0. -/
def unansweredEntry : Issued :=
  { gen := 5, msg := { ty := 0x10, len := 16 }, issuer := .core 0, purpose := .plain, since := 0 }

/-- The entry has had no answer in the 2,000 us of TRK_TIMEOUT.issued, and TRK_EVT.timeout, one bit wide, holds 3. -/
def overwideTimeoutEvent : State :=
  { State.reset with
    now := 2000000
    regs := Map.empty.set [R.TRK_EVT_timeout.num] 3
    trk := { issued := Map.empty.set [0, 0] unansweredEntry } }

/-- R130, R408: bit 0 of the event field is set already, so the time-out leaves the field as it is. -/
theorem issuedTimeout_keeps_overwide_event :
    ∃ t, exec (.issuedTimeout 0 0) overwideTimeoutEvent = .next t ∧ t.rd R.TRK_EVT_timeout [] = 3 :=
  ⟨_, rfl, by decide +kernel⟩

/-- Refutes O17: the clause on an entry without an answer in time says that TRK_EVT.timeout then reads 1, and no hypothesis
keeps the field within its one bit. In `overwideTimeoutEvent` it holds 3; an event whose bit is set changes no register, so it
reads 3 afterwards. Every write cuts a field to its width, so none gives this value; with
`s.rd R.TRK_EVT_timeout [] < 2` the clause holds (`gives_issuedTimeout_of_fits`). -/
theorem not_ownRequests : ¬ Obligations.OwnRequests := by
  intro h
  obtain ⟨-, -, -, -, -, -, -, htimeout, -⟩ := h overwideTimeoutEvent (by decide +kernel)
  obtain ⟨t, hexec, -, hevent, -⟩ := htimeout 0 0 unansweredEntry (by decide +kernel) (by decide +kernel) rfl
  obtain ⟨u, hrun, hkept⟩ := issuedTimeout_keeps_overwide_event
  obtain rfl : t = u := Host.Outcome.next.inj (hexec.symm.trans hrun)
  exact absurd (hevent.symm.trans hkept) (by decide)

end Sys2Proof.Machine
end

section
/-! PROOF. The statement on window entries (R126, R127). -/

namespace Sys2Proof.Machine

open Sys2Proof.Safety

variable {s : State}

/-! ### The command's outcome -/

theorem State.cmdWinWrite_valid {sel entry : Nat} (hsel : sel < 2 ^ 28) (hgap : bitsOf sel 9 7 = 0)
    (hport : bitAt sel 8 = false) (hentry : entry < 2 ^ 72) (hvalid : Win.valid_ entry = true)
    (hrange : Win.first entry ≤ Win.last entry) (hlow : bitsOf entry 6 2 = 0) (hhigh : bitsOf entry 56 8 = 0) :
    s.cmdWinWrite sel entry =
      (.ok, { s with edgeWin := s.edgeWin.set [selOf sel, bitsOf sel 16 12] entry }) := by
  have htop : bitsOf entry 72 5 = 0 := by
    rw [bitsOf, Nat.shiftRight_eq_div_pow, Nat.div_eq_of_lt hentry, Nat.zero_mod]
  have hne : entry ≠ 0 := by
    rintro rfl
    exact absurd hvalid (by decide)
  have hkept : ¬ (Win.last entry < Win.first entry ∨ bitsOf entry 6 2 ≠ 0 ∨ bitsOf entry 56 8 ≠ 0 ∨ 2 ^ 77 ≤ entry ∨
      (¬ bitAt sel 8 ∧ bitsOf entry 72 5 ≠ 0)) := by omega
  rw [State.cmdWinWrite, if_neg (by omega), if_neg (fun hbad => hkept hbad.2), if_neg (by simp [hport])]
  dsimp only
  rw [if_neg hne]

theorem State.cmdWinWrite_zero {sel : Nat} (hsel : sel < 2 ^ 28) (hgap : bitsOf sel 9 7 = 0) :
    s.cmdWinWrite sel 0 = (.ok, { s with edgeWin := s.edgeWin.erase [selOf sel, bitsOf sel 16 12] }) := by
  have hinvalid : ¬ Win.valid_ 0 = true := by decide
  rw [State.cmdWinWrite, if_neg (by omega), if_neg (fun h => hinvalid h.1), if_neg (fun h => hinvalid h.1)]
  rfl

theorem State.cmdWinWrite_inverted {sel entry : Nat} (hsel : sel < 2 ^ 28) (hgap : bitsOf sel 9 7 = 0)
    (hvalid : Win.valid_ entry = true) (hrange : Win.last entry < Win.first entry) :
    s.cmdWinWrite sel entry = (.unsupported, s.badWrite R.EDG_WIN_DATA0_entry_lo []) := by
  rw [State.cmdWinWrite, if_neg (by omega), if_pos ⟨hvalid, .inl hrange⟩]

/-! ### The clauses -/

theorem changes_inEdgeWin (w : Map Nat) (s : State) : Changes [] [.edgeWin] s { s with edgeWin := w } := by
  refine ⟨fun _ _ _ _ => rfl, fun p hn => ?_, fun _ _ _ => rfl⟩
  cases p
  case edgeWin => exact absurd List.mem_cons_self hn
  all_goals rfl

/-- R415: a table written answers OK, and the table and the list of answers are all that differs. -/
theorem gives_winWrite_written (h : Applies s B.edg) {sel entry : Nat} {w : Map Nat}
    (hcmd : s.cmdWinWrite sel entry = (.ok, { s with edgeWin := w })) :
    Gives (.winWrite sel entry) s (fun t => t.edgeWin = w ∧ t.answers = s.answers ++ [(0x0201, .ok)] ∧ RegsBut [] s t ∧
      PartsBut [.edgeWin, .answers] s t) := by
  have hchanges := changes_inEdgeWin w s
  exact gives_applied (op := 0x0201) h hcmd hchanges rfl ⟨rfl, hchanges.answers_listAnswer _ _,
    ((hchanges.listAnswer _ _).weaken (l' := []) (ps' := [.edgeWin, .answers]) (fun _ hf => hf)).after⟩

theorem gives_winWrite_valid (h : Applies s B.edg) {sel entry : Nat} (hsel : sel < 2 ^ 28) (hgap : bitsOf sel 9 7 = 0)
    (hport : bitAt sel 8 = false) (hentry : entry < 2 ^ 72) (hvalid : Win.valid_ entry = true)
    (hrange : Win.first entry ≤ Win.last entry) (hlow : bitsOf entry 6 2 = 0) (hhigh : bitsOf entry 56 8 = 0) :
    Gives (.winWrite sel entry) s (fun t => t.edgeWin.get? [selOf sel, bitsOf sel 16 12] = some entry ∧
      (∀ k, k ≠ [selOf sel, bitsOf sel 16 12] → t.edgeWin.get? k = s.edgeWin.get? k) ∧
      t.answers = s.answers ++ [(0x0201, .ok)] ∧ RegsBut [] s t ∧ PartsBut [.edgeWin, .answers] s t) := by
  obtain ⟨t, hexec, htable, hrest⟩ :=
    gives_winWrite_written h (State.cmdWinWrite_valid hsel hgap hport hentry hvalid hrange hlow hhigh)
  refine ⟨t, hexec, ?_, fun k hk => ?_, hrest⟩
  · rw [htable, Map.get?_set_same]
  · rw [htable, Map.get?_set_other _ _ hk]

theorem gives_winWrite_zero (h : Applies s B.edg) {sel : Nat} (hsel : sel < 2 ^ 28) (hgap : bitsOf sel 9 7 = 0) :
    Gives (.winWrite sel 0) s (fun t => t.edgeWin.get? [selOf sel, bitsOf sel 16 12] = none ∧
      t.answers = s.answers ++ [(0x0201, .ok)] ∧ RegsBut [] s t ∧ PartsBut [.edgeWin, .answers] s t) := by
  obtain ⟨t, hexec, htable, hrest⟩ := gives_winWrite_written h (State.cmdWinWrite_zero hsel hgap)
  exact ⟨t, hexec, by rw [htable, Map.get?_erase_same], hrest⟩

/-- R415: a refusal with a programming error leaves the table, and the error is signalled. -/
theorem gives_winWrite_refused (h : Applies s B.edg) {sel entry : Nat} {u : State}
    (hcmd : s.cmdWinWrite sel entry = (.unsupported, u)) (htold : Told s u)
    (hsignalled : bitAt (u.rd R.RAS_EVT_events []) 3 = true) :
    Gives (.winWrite sel entry) s (fun t => t.edgeWin = s.edgeWin ∧ t.answers = s.answers ++ [(0x0201, .unsupported)] ∧
      bitAt (t.rd R.RAS_EVT_events []) 3 = true ∧ RegsBut [] s t ∧ PartsBut [.answers, .out, .hif] s t) := by
  have hbad : Changes [] [.out, .hif] s u := (Changes.refl _ _ s).told htold
  exact gives_applied (op := 0x0201) h hcmd hbad rfl
    ⟨htold.edgeWin_eq, hbad.answers_listAnswer _ _, hsignalled, (hbad.listAnswer _ _).after⟩

theorem gives_winWrite_inverted (h : Applies s B.edg) {sel entry : Nat} (hsel : sel < 2 ^ 28) (hgap : bitsOf sel 9 7 = 0)
    (hvalid : Win.valid_ entry = true) (hrange : Win.last entry < Win.first entry) :
    Gives (.winWrite sel entry) s (fun t => t.edgeWin = s.edgeWin ∧ t.answers = s.answers ++ [(0x0201, .unsupported)] ∧
      bitAt (t.rd R.RAS_EVT_events []) 3 = true ∧ RegsBut [] s t ∧ PartsBut [.answers, .out, .hif] s t) :=
  gives_winWrite_refused h (State.cmdWinWrite_inverted hsel hgap hvalid hrange) ((Told.refl s).badWrite _ _)
    (State.progErr_raises _ _ s)

/-- Settles O18: the checks a command meets tell its three outcomes apart; an entry written or erased changes the table and
the list of answers alone, and a refused one leaves the table and raises the event of a programming error. -/
theorem edgeWindows : Obligations.EdgeWindows :=
  fun _ h => ⟨fun _ _ => gives_winWrite_valid h, fun _ => gives_winWrite_zero h, fun _ _ => gives_winWrite_inverted h⟩

end Sys2Proof.Machine
end

section
/-! LAWS. A request at its home (R112 to R122, R128): what a home decides by, what serving requests leaves of it, and the way
of a request that nothing holds back. -/

namespace Sys2Proof

/-- What stands in a table after an entry was put there. -/
theorem Map.mem_put {α : Type} {l : List (Key × α)} {k : Key} {v : α} {e : Key × α} (h : e ∈ Map.put l k v) :
    e = (k, v) ∨ e ∈ l := by
  induction l with
  | nil => exact .inl (List.mem_singleton.mp h)
  | cons x l ih =>
    unfold Map.put at h
    split at h
    · exact (List.mem_cons.mp h).imp_right (List.mem_cons_of_mem _)
    · split at h
      · exact List.mem_cons.mp h
      · rcases List.mem_cons.mp h with rfl | hl
        · exact .inr List.mem_cons_self
        · exact (ih hl).imp_right (List.mem_cons_of_mem _)

namespace Machine

open Sys2Proof.Safety

/-! ### What a home decides by -/

/-- Only the parts named differ, and in them nothing that a home decides by: the extents and shadow-lost chunks of the pool,
where extents reside and move; of the registers only those that report, and what an access wakes. -/
structure Attends (ps : List Part) (s t : State) : Prop where
  frame : Changes [R.MEM_PC_STATUS_powered_down] ps s t
  now : t.now = s.now
  extents : t.pool.ext = s.pool.ext
  shadowLost : t.pool.shadowLost = s.pool.shadowLost
  loc : t.tier.loc = s.tier.loc
  moves : t.tier.moves = s.tier.moves

/-- The parts that a request changes on its way to its home and in the tiers. -/
def homeParts : List Part := [.out, .hif, .sw, .ports, .ras, .answers, .trk, .pool, .tier]

section

variable {ps : List Part} {s t u : State}

theorem Attends.refl (ps : List Part) (s : State) : Attends ps s s := ⟨Changes.refl _ _ s, rfl, rfl, rfl, rfl, rfl⟩

theorem Attends.trans (h₁ : Attends ps s t) (h₂ : Attends ps t u) : Attends ps s u :=
  ⟨h₁.frame.trans h₂.frame, h₂.now.trans h₁.now, h₂.extents.trans h₁.extents, h₂.shadowLost.trans h₁.shadowLost,
    h₂.loc.trans h₁.loc, h₂.moves.trans h₁.moves⟩

theorem Attends.weaken {ps' : List Part} (h : Attends ps s t) (hp : ∀ p ∈ ps, p ∈ ps' := by decide) : Attends ps' s t :=
  ⟨h.frame.weaken (fun _ hf => hf) hp, h.now, h.extents, h.shadowLost, h.loc, h.moves⟩

theorem Attends.ite {a b : State} {c : Prop} [Decidable c] (ha : Attends ps s a) (hb : Attends ps s b) :
    Attends ps s (if c then a else b) := by
  split
  · exact ha
  · exact hb

theorem Attends.foldl {α : Type} (g : State → α → State) (hg : ∀ s a, Attends ps s (g s a)) (xs : List α) (s : State) :
    Attends ps s (xs.foldl g s) := by
  induction xs generalizing s with
  | nil => exact Attends.refl ps s
  | cons x xs ih => exact (hg s x).trans (ih (g s x))

/-- What leaves the pool and the tiers as they are leaves all that a home decides by. -/
theorem Attends.of_changes (h : Changes [] ps s t) (hnow : t.now = s.now) (hpool : Part.pool ∉ ps := by decide)
    (htier : Part.tier ∉ ps := by decide) : Attends ps s t := by
  have hpool : t.pool = s.pool := h.parts .pool hpool
  have htier : t.tier = s.tier := h.parts .tier htier
  exact ⟨h.weaken (by simp) (fun _ hp => hp), hnow, by rw [hpool], by rw [hpool], by rw [htier], by rw [htier]⟩

theorem Changes.isPrimary (h : Changes [R.MEM_PC_STATUS_powered_down] ps s t) : t.isPrimary = s.isPrimary := by
  rw [State.isPrimary, h.rd R.RAS_PUPPET_STATUS_state, State.isPrimary]

/-- R138: an access leaves the load that a home reports. -/
theorem Changes.loadOf (h : Changes [R.MEM_PC_STATUS_powered_down] ps s t) (d : Nat) : t.loadOf d = s.loadOf d := by
  rw [State.loadOf, State.on, h.rd R.TRK_LOAD_withheld, h.rd R.TRK_LOAD_load, State.loadOf, State.on]

theorem Attends.rd (h : Attends ps s t) (f : Fld) (ix : List Nat) (hf : ¬ Reports f := by decide)
    (hp : f.num ≠ R.MEM_PC_STATUS_powered_down.num := by decide) : t.rd f ix = s.rd f ix :=
  h.frame.regs f ix hf (by simpa using hp)

theorem Attends.listed (h : Attends ps s t) (f : Fld) (hf : ¬ Reports f := by decide)
    (hp : f.num ≠ R.MEM_PC_STATUS_powered_down.num := by decide) : t.listed f = s.listed f :=
  h.frame.lists f hf (by simpa using hp)

theorem Attends.node (h : Attends ps s t) : t.node = s.node := h.rd R.GLB_NODE_node []

theorem Attends.isPuppet (h : Attends ps s t) : t.isPuppet = s.isPuppet := by
  rw [State.isPuppet, h.rd R.RAS_PUPPET_STATUS_state, State.isPuppet]

theorem Attends.lendOf (h : Attends ps s t) (node : Nat) : t.lendOf node = s.lendOf node := by
  simp only [State.lendOf, h.listed R.POL_LEND_valid, h.rd R.POL_LEND_node]

theorem Attends.extentCount (h : Attends ps s t) (node : Nat) : t.extents node = s.extents node := by
  simp only [State.extents, h.node, h.lendOf, h.rd R.POL_STATUS_extents, h.rd R.POL_LEND_extents]

theorem Attends.ext (h : Attends ps s t) (node e : Nat) : t.ext node e = s.ext node e := by
  rw [State.ext, h.extentCount, h.extents, State.ext]

theorem Attends.chunkShadowLost (h : Attends ps s t) (m : Msg) : t.chunkShadowLost m = s.chunkShadowLost m := by
  rw [State.chunkShadowLost, h.shadowLost, State.chunkShadowLost]

theorem Attends.bindOf (h : Attends ps s t) (e : Nat) : t.bindOf e = s.bindOf e := by
  simp only [State.bindOf, h.listed R.COH_BIND_valid, h.rd R.COH_BIND_first_extent, h.rd R.COH_BIND_last_extent,
    h.rd R.COH_BIND_domain]

theorem Attends.slotOf (h : Attends ps s t) (eid : Nat) : t.slotOf eid = s.slotOf eid := by
  simp only [State.slotOf, h.listed R.POL_LEASE_valid, h.rd R.POL_LEASE_eid]

theorem Attends.chunkAt (h : Attends ps s t) (e k : Nat) : t.chunkAt e k = s.chunkAt e k := by
  rw [State.chunkAt, h.moves, h.loc, State.chunkAt]

theorem Attends.lineDead (h : Attends ps s t) (line : Nat) : t.lineDead line = s.lineDead line := by
  simp only [State.lineDead, h.chunkAt, h.rd R.MEM_STACK_STATUS_failed_pcs]

theorem Attends.pcOut (h : Attends ps s t) (line : Nat) : t.pcOut line = s.pcOut line := by
  simp only [State.pcOut, h.chunkAt, h.rd R.MEM_PC_STATUS_state]

theorem Attends.linePoisoned (h : Attends ps s t) (line : Nat) (hp : Part.poison ∉ ps := by decide) :
    t.linePoisoned line = s.linePoisoned line := by
  rw [State.linePoisoned, show t.poison = s.poison from h.frame.parts .poison hp, State.linePoisoned]

theorem Attends.mem (h : Attends ps s t) (hp : Part.mem ∉ ps := by decide) : t.mem = s.mem := h.frame.parts .mem hp

theorem Attends.trk (h : Attends ps s t) (hp : Part.trk ∉ ps := by decide) : t.trk = s.trk := h.frame.parts .trk hp

theorem Attends.pair (h : Attends ps s t) (hp : Part.pair ∉ ps := by decide) : t.pair = s.pair := h.frame.parts .pair hp

theorem Attends.readBytes (h : Attends ps s t) (a n : Nat) (hpoison : Part.poison ∉ ps := by decide)
    (hmem : Part.mem ∉ ps := by decide) : t.readBytes a n = s.readBytes a n := by
  simp only [State.readBytes, h.linePoisoned _ hpoison, h.lineDead, h.mem hmem]

theorem Attends.beatDie (h : Attends ps s t) (d : Nat) (hp : Part.tim ∉ ps := by decide) : t.beatDie d = s.beatDie d := by
  simp only [State.beatDie, State.ftDie, show t.tim = s.tim from h.frame.parts .tim hp]

theorem Attends.boardCut (h : Attends ps s t) (d e k : Nat) (hp : Part.pkg ∉ ps := by decide) :
    t.boardCut d e k = s.boardCut d e k := by
  simp only [State.boardCut, State.inBoard, h.chunkAt, h.loc, show t.pkg = s.pkg from h.frame.parts .pkg hp]

theorem Attends.limitKey (h : Attends ps s t) (d : Nat) (m : Msg) : t.limitKey d m = s.limitKey d m := by
  rw [State.limitKey, h.slotOf, State.limitKey]

theorem Attends.tokens (h : Attends ps s t) (htokens : t.pool.tokens = s.pool.tokens) (k : Key) : t.tokens k = s.tokens k := by
  simp only [State.tokens, h.rd R.POL_LIMIT_burst, h.rd R.POL_TENANT_LIMIT_burst, htokens]

theorem Attends.bucketsOpen (h : Attends ps s t) (htokens : t.pool.tokens = s.pool.tokens) (d : Nat) (m : Msg) :
    t.bucketsOpen d m = s.bucketsOpen d m := by
  simp only [State.bucketsOpen, State.buckets, h.slotOf, h.rd R.POL_LIMIT_rate, h.rd R.POL_TENANT_LIMIT_rate,
    h.tokens htokens]

end

/-! ### Operations that a home decides nothing by -/

theorem attends_inTrk (k : Trk) (s : State) : Attends [.trk] s { s with trk := k } :=
  Attends.of_changes ((Changes.refl _ _ s).inTrk k) rfl

theorem attends_bump {f : Fld} (ix : List Nat) (s : State) (hf : Reports f := by decide) : Attends [] s (s.bump f ix) :=
  Attends.of_changes (changes_bump ix s hf) (State.bump_now_eq _ _ _)

theorem Conveys.changes {l : List Fld} {s t : State} (h : Conveys l s t) :
    Changes l [.out, .hif, .sw, .ports, .ras, .answers] s t := ⟨h.regs, h.parts, h.lists⟩

theorem Changes.inPool {l : List Fld} {ps : List Part} {s t : State} (h : Changes l ps s t) (k : Pool)
    (hp : Part.pool ∈ ps := by decide) : Changes l ps s { t with pool := k } := by
  refine h.trans ⟨fun _ _ _ _ => rfl, fun p hn => ?_, fun _ _ _ => rfl⟩
  cases p
  case pool => exact absurd hp hn
  all_goals rfl

theorem Changes.inTier {l : List Fld} {ps : List Part} {s t : State} (h : Changes l ps s t) (k : Tier)
    (hp : Part.tier ∈ ps := by decide) : Changes l ps s { t with tier := k } := by
  refine h.trans ⟨fun _ _ _ _ => rfl, fun p hn => ?_, fun _ _ _ => rfl⟩
  cases p
  case tier => exact absurd hp hn
  all_goals rfl

/-- Charging a request changes tokens alone (R180). -/
theorem attends_chargeAll (d : Nat) (m : Msg) (s : State) : Attends [.pool] s (s.chargeAll d m) := by
  refine Attends.foldl _ (fun t b => Attends.ite (Attends.refl _ t) ?_) _ s
  exact ⟨(Changes.refl _ _ t).inPool _, rfl, rfl, rfl, rfl, rfl⟩

/-- Serving an extent changes ages and heat alone (R208). -/
theorem attends_serveExtent (e : Nat) (s : State) : Attends [.tier] s (s.serveExtent e) :=
  ⟨(Changes.refl _ _ s).inTier _, rfl, rfl, rfl, rfl, rfl⟩

theorem attends_wake (l : Map Pc) (ix : List Nat) (s : State) :
    Attends [.tier] s (State.wr R.MEM_PC_STATUS_powered_down ix 0 { s with tier := { s.tier with pcs := l } }) :=
  ⟨((Changes.refl _ _ s).inTier _).wr (by simp) _ _, by simp, by simp, by simp, by simp, by simp⟩

/-- Queueing a column-level request wakes its pseudo-channel and counts (R193, R194). -/
theorem attends_pushCol (l : Loc) (write free : Bool) (byte : Nat) (s : State) :
    Attends [.tier] s (s.pushCol l write free byte) :=
  (Attends.ite (attends_bump (f := R.MEM_CNT_count) _ s).weaken (Attends.refl _ s)).trans (attends_wake _ _ _)

theorem attends_pushCols (write free : Bool) (a n : Nat) (s : State) : Attends [.tier] s (s.pushCols write free a n) := by
  unfold State.pushCols
  split
  · exact Attends.refl _ s
  · refine Attends.foldl _ (fun t u => ?_) _ _
    split
    · split
      · exact Attends.refl _ t
      · exact attends_pushCol _ _ _ _ t
    · exact Attends.refl _ t

theorem attends_countBoard (write : Bool) (a : Nat) (s : State) : Attends [] s (s.countBoard write a) := by
  unfold State.countBoard
  split
  · split
    · exact attends_bump _ s
    · exact Attends.refl _ s
  · exact Attends.refl _ s

/-- An access to memory changes the queues of the tiers, and counts. -/
theorem attends_access (write : Bool) (a n : Nat) (s : State) : Attends [.tier] s (s.access write a n) :=
  (attends_pushCols _ _ _ _ s).trans (attends_countBoard _ _ _).weaken

/-! ### A request that nothing holds back -/

/-- The own node's home serves the request at once, once it is its turn: what `AtHome` says beside the limiters and the order
of its flow, of a non-coherent request to an extent that no domain binds. -/
structure Unhindered (s : State) (d : Nat) (m : Msg) : Prop where
  valid : m.valid = true
  plain : isCoherent m.ty = false
  own : nodeOf m.addr = s.node
  held : (s.ext s.node (extentOf m.addr)).state = .held
  unswitched : s.pair.switched = false
  notPrimary : s.isPrimary = false
  notPuppet : s.isPuppet = false
  copied : s.chunkShadowLost m = false
  still : s.tier.moves.get? [extentOf m.addr] = none
  inService : m.lines.findSome? s.pcOut = none
  alive : m.lines.any s.lineDead = false
  sound : m.lines.any s.linePoisoned = false
  reached : s.boardCut d (extentOf m.addr) (bitsOf m.addr 16 10) = false
  unbound : s.bindOf (extentOf m.addr) = none

/-- The limiters let the request pass (R180, R181). -/
abbrev Unlimited (s : State) (d : Nat) (m : Msg) : Prop :=
  s.pool.limitQ.get [] (s.limitKey d m) = [] ∧ s.bucketsOpen d m = true

section

variable {s t : State} {d i : Nat} {m : Msg} {h : Home}

theorem Unhindered.of_atHome (hat : AtHome s d m) (hplain : isCoherent m.ty = false)
    (hunbound : s.bindOf (extentOf m.addr) = none) : Unhindered s d m := by
  obtain ⟨hvalid, hown, -, hheld, hswitched, hprimary, hpuppet, hlost, -, -, hmoves, hservice, hdead, hpoisoned, hcut,
    -⟩ := hat
  exact ⟨hvalid, hplain, hown, hheld, hswitched, hprimary, hpuppet, hlost, hmoves, hservice, hdead, hpoisoned, hcut,
    hunbound⟩

theorem Attends.unhindered (hst : Attends homeParts s t) (hs : Unhindered s d m) : Unhindered t d m where
  valid := hs.valid
  plain := hs.plain
  own := hs.own.trans hst.node.symm
  held := by rw [hst.ext, hst.node, hs.held]
  unswitched := by rw [hst.pair, hs.unswitched]
  notPrimary := by rw [hst.frame.isPrimary, hs.notPrimary]
  notPuppet := by rw [hst.isPuppet, hs.notPuppet]
  copied := by rw [hst.chunkShadowLost, hs.copied]
  still := by rw [hst.moves, hs.still]
  inService := by rw [funext hst.pcOut, hs.inService]
  alive := by rw [funext hst.lineDead, hs.alive]
  sound := by rw [funext (fun l => hst.linePoisoned l), hs.sound]
  reached := by rw [hst.boardCut, hs.reached]
  unbound := by rw [hst.bindOf, hs.unbound]

theorem Attends.unlimited (hst : Attends homeParts s t) (hpool : t.pool = s.pool) (hs : Unlimited s d m) : Unlimited t d m := by
  obtain ⟨hqueue, hopen⟩ := hs
  exact ⟨by rw [hpool, hst.limitKey, hqueue], by rw [hst.bucketsOpen (by rw [hpool]), hopen]⟩

/-! ### Its way through the home (R112, R121, R128, R145, R162, R180, R199, R213) -/

theorem State.atHome_unhindered (hentry : s.homeAt d i = some h) (hs : Unhindered s d h.msg) :
    s.atHome d i = s.atExtent d i h.msg := by
  rw [State.atHome, hentry]
  dsimp only
  rw [if_neg (by simp [hs.valid]), if_pos hs.own, if_neg (by simp [hs.unswitched])]

theorem State.atExtent_unhindered (hs : Unhindered s d m) : s.atExtent d i m = s.served d i m := by
  rw [State.atExtent, hs.notPuppet, hs.own, Bool.false_and, Bool.false_and, if_neg Bool.false_ne_true, hs.held]

theorem State.served_unhindered (hs : Unhindered s d m) : s.served d i m = s.atLimit d i := by
  rw [State.served, if_pos hs.own, State.coherentRefusal, if_pos (by simp [hs.plain])]
  dsimp only
  rw [if_neg (by simp [hs.copied])]

/-- A request that the limiters let pass is charged, or comes from one of the part's own agents. -/
theorem State.atLimit_unlimited (hentry : s.homeAt d i = some h) (hs : Unlimited s d h.msg) :
    ∃ t, Attends [.pool] s t ∧ s.atLimit d i = t.afterLimit d i := by
  rw [State.atLimit, hentry]
  dsimp only
  by_cases hfree : s.ownUnit h.msg ∨ (s.ext (nodeOf h.msg.addr) (extentOf h.msg.addr)).state = .internal
  · rw [if_pos hfree]
    exact ⟨s, Attends.refl _ s, rfl⟩
  · rw [if_neg hfree, if_pos hs]
    exact ⟨_, attends_chargeAll d h.msg s, rfl⟩

theorem State.afterLimit_first (hentry : s.homeAt d i = some h) (hs : Unhindered s d h.msg)
    (hfirst : s.behind d i h = false) : s.afterLimit d i = s.atLock d i := by
  rw [State.afterLimit, hentry]
  dsimp only
  rw [if_pos hs.own, State.inOrder, hentry]
  dsimp only
  rw [if_neg (by simp [hfirst])]

theorem State.atLock_unhindered (hentry : s.homeAt d i = some h) (hs : Unhindered s d h.msg) :
    s.atLock d i = s.performHome d i := by
  have hstack : s.atStack d i = s.atDirectory d i := by
    rw [State.atStack, hentry]
    dsimp only
    rw [hs.inService]
  have hdirectory : s.atDirectory d i = s.performHome d i := by
    rw [State.atDirectory, hentry]
    dsimp only
    rw [hs.unbound]
    dsimp only
    rw [if_neg (by simp [hs.plain])]
  rw [State.atLock, hentry]
  dsimp only
  rw [hs.still]
  exact hstack.trans hdirectory

/-- R121: the same home entries and waiting requests hold back the same request. -/
theorem Attends.behind (hst : Attends homeParts s t) (hhome : t.trk.home = s.trk.home)
    (hwait : t.trk.flowWait = s.trk.flowWait) : t.behind d i h = s.behind d i h := by
  simp only [State.behind, State.isPerformed, hst.node, hst.pair, hhome, hwait]

/-! ### Taking it (R128) -/

/-- A request under the next home entry of its die, counted. -/
def State.entered (d : Nat) (h : Home) (s : State) : State :=
  State.bump R.TRK_CNT_count [d, 0] { s with trk := { s.trk with
    nextHome := s.trk.nextHome + 1, home := s.trk.home.set [d, s.trk.nextHome] h } }

theorem attends_entered (d : Nat) (h : Home) (s : State) : Attends [.trk] s (s.entered d h) :=
  (attends_inTrk _ s).trans (attends_bump _ _).weaken

theorem State.trk_entered (d : Nat) (h : Home) (s : State) : (s.entered d h).trk =
    { s.trk with nextHome := s.trk.nextHome + 1, home := s.trk.home.set [d, s.trk.nextHome] h } :=
  State.bump_trk_eq _ _ _

theorem State.homeAt_entered (d : Nat) (h : Home) (s : State) : (s.entered d h).homeAt d s.trk.nextHome = some h := by
  rw [State.homeAt, State.trk_entered, Map.get?_set_same]

/-- The new entry comes after every other one of its die. -/
theorem State.behind_entered (hfirst : s.behind d s.trk.nextHome h = false) :
    (s.entered d h).behind d s.trk.nextHome h = false := by
  have hpair : (s.entered d h).pair = s.pair := (attends_entered d h s).pair
  rw [State.behind, List.any_eq_false] at hfirst ⊢
  intro e he
  rw [State.trk_entered] at he ⊢
  rcases Map.mem_put he with rfl | hold
  · simp
  · simpa only [State.isPerformed, hpair, (attends_entered d h s).node] using hfirst e hold

/-- R112 to R128: a request that nothing holds back is performed under the entry it takes. -/
theorem State.take_unhindered (hs : Unhindered s d m) (hlimit : Unlimited s d m)
    (hfirst : s.behind d s.trk.nextHome { msg := m, since := s.now } = false) :
    ∃ t, Attends [.trk, .pool] s t ∧ t.trk = (s.entered d { msg := m, since := s.now }).trk ∧
      s.take d m [] = t.performHome d s.trk.nextHome := by
  have hentered := attends_entered d { msg := m, since := s.now } s
  have hentry := s.homeAt_entered d { msg := m, since := s.now }
  have htake : s.take d m [] = (s.entered d { msg := m, since := s.now }).atHome d s.trk.nextHome := rfl
  have hlast := State.behind_entered hfirst
  have hpool : (s.entered d { msg := m, since := s.now }).pool = s.pool := hentered.frame.parts .pool (by decide)
  generalize s.entered d { msg := m, since := s.now } = u at hentered hentry htake hlast hpool ⊢
  have hu : Unhindered u d m := hentered.weaken.unhindered hs
  obtain ⟨t, hcharged, hcharge⟩ := State.atLimit_unlimited hentry (hentered.weaken.unlimited hpool hlimit)
  have htrk : t.trk = u.trk := hcharged.trk
  have hat : t.homeAt d s.trk.nextHome = some { msg := m, since := s.now } := by rw [State.homeAt, htrk]; exact hentry
  have ht : Unhindered t d m := hcharged.weaken.unhindered hu
  refine ⟨t, hentered.weaken.trans hcharged.weaken, htrk, ?_⟩
  calc s.take d m [] = u.atHome d s.trk.nextHome := htake
    _ = u.atExtent d s.trk.nextHome m := (State.atHome_unhindered hentry hu :)
    _ = u.served d s.trk.nextHome m := State.atExtent_unhindered hu
    _ = u.atLimit d s.trk.nextHome := State.served_unhindered hu
    _ = t.afterLimit d s.trk.nextHome := hcharge
    _ = t.atLock d s.trk.nextHome :=
      (State.afterLimit_first hat ht ((hcharged.weaken.behind (by rw [htrk]) (by rw [htrk])).trans hlast) :)
    _ = t.performHome d s.trk.nextHome := (State.atLock_unhindered hat ht :)

/-! ### Its end (R128, R138, R423) -/

/-- A request performed at a part without a puppet is answered with the home's load, and its entry retires. -/
theorem State.performHome_answer {st : Status} {data : Option Nat} (hentry : s.homeAt d i = some h) (halone : h.members = [])
    (hperform : s.perform d h.msg = (st, data, t)) (htrk : t.trk = s.trk) (hprimary : t.isPrimary = false) :
    s.performHome d i = (t.dropHome d i).answer d h.msg st (t.loadOf d) data := by
  have hat : t.homeAt d i = some h := by rw [State.homeAt, htrk]; exact hentry
  have hcopied (e k : Nat) : t.chunkCopied e k = false := by rw [State.chunkCopied, hprimary, Bool.false_and]
  rw [State.performHome, hentry]
  dsimp only
  rw [hperform, State.conclude, hat]
  dsimp only
  rw [if_neg (by simp [hcopied]), State.finishHome, hat]
  dsimp only
  rw [if_pos halone]

/-- Retiring the entry and sending the answer change nothing else. -/
theorem changes_answered {ps : List Part} (i : Nat) (st : Status) (load : Nat) (data : Option Nat)
    (hst : Changes [R.MEM_PC_STATUS_powered_down] ps s t) (hps : ∀ p ∈ homeParts, p ∈ ps) :
    Changes [R.MEM_PC_STATUS_powered_down] ps s ((t.dropHome d i).answer d m st load data) := by
  have hsent := (conveys_answer (l := [R.MEM_PC_STATUS_powered_down]) d m st load data (t.dropHome d i)).changes
  have hmessages : ∀ p ∈ [Part.out, .hif, .sw, .ports, .ras, .answers], p ∈ homeParts := by decide
  have hretired : Changes [R.MEM_PC_STATUS_powered_down] ps s (t.dropHome d i) := hst.inTrk _ (hps _ (by decide))
  exact hretired.trans (hsent.weaken (fun _ hf => hf) (fun p hp => hps p (hmessages p hp)))

/-- Performing the request gives a status, data and memory, and changes of the parts only those named. -/
def Performs (d : Nat) (m : Msg) (st : Status) (data : Option Nat) (mem : List Host.Cell) (ps : List Part) (s : State) : Prop :=
  ∃ t, s.perform d m = (st, data, t) ∧ t.mem = mem ∧ Changes [R.MEM_PC_STATUS_powered_down] ps s t

/-- What a request at its home gives once it is taken in a state `u`, which differs from `s` in messages, reports and the
combining table: it is answered with the home's load, its entry has retired, and memory is as performing it leaves it. -/
theorem gives_taken {c : Instr} {u : State} {st : Status} {data : Option Nat} {mem : List Host.Cell}
    {ps ps' : List Part} (hserves : Serves s) (hexec : exec c s = serving s (u.take d m []))
    (hsu : Attends [.out, .hif, .sw, .ports, .ras, .answers, .trk] s u) (hhome : u.trk.home = s.trk.home)
    (hwait : u.trk.flowWait = s.trk.flowWait) (hnext : u.trk.nextHome = s.trk.nextHome) (hat : AtHome s d m)
    (hplain : isCoherent m.ty = false) (hunbound : s.bindOf (extentOf m.addr) = none)
    (hperform : ∀ r, Attends homeParts s r → Unhindered r d m → Performs d m st data mem ps r)
    (hps : ∀ p ∈ ps, p ∈ [Part.tier, .mem, .poison, .out, .hif] := by decide)
    (hps' : ∀ p ∈ homeParts ++ ps, p ∈ ps' := by decide) :
    Gives c s (fun t => Answers d m st (s.loadOf d) data s t ∧ t.mem = mem ∧ t.trk.home.has [d, s.trk.nextHome] = false ∧
      t.trk.comb = u.trk.comb ∧ RegsBut [R.MEM_PC_STATUS_powered_down] s t ∧ PartsBut ps' s t) := by
  have hu : Unhindered u d m := hsu.weaken.unhindered (Unhindered.of_atHome hat hplain hunbound)
  obtain ⟨-, -, -, -, -, -, -, -, hqueue, hopen, -, -, -, -, -, hfirst⟩ := hat
  have hlimit : Unlimited u d m := hsu.weaken.unlimited (hsu.frame.parts .pool (by decide)) ⟨hqueue, hopen⟩
  have hlast : u.behind d u.trk.nextHome { msg := m, since := u.now } = false := by
    rw [hsu.weaken.behind hhome hwait, hnext, hsu.now, hfirst]
  obtain ⟨r, hur, htrk, htake⟩ := State.take_unhindered hu hlimit hlast
  rw [htake, hnext] at hexec
  have hsr : Attends homeParts s r := hsu.weaken.trans hur.weaken
  have hentry : r.homeAt d s.trk.nextHome = some { msg := m, since := u.now } := by
    rw [State.homeAt, htrk, ← hnext]
    exact State.homeAt_entered _ _ _
  obtain ⟨t, hdone, hmem, heffect⟩ := hperform r hsr (hur.weaken.unhindered hu)
  have htrk' : t.trk = r.trk := heffect.parts .trk (fun hp => absurd (hps _ hp) (by decide))
  have hprimary : t.isPrimary = false := heffect.isPrimary.trans (hur.weaken.unhindered hu).notPrimary
  have hload : t.loadOf d = s.loadOf d := (heffect.loadOf d).trans (hsr.frame.loadOf d)
  have hcomb : r.trk.comb = u.trk.comb := by rw [htrk, State.trk_entered]
  rw [State.performHome_answer hentry rfl hdone htrk' hprimary, hload] at hexec
  have hsent := conveys_answer (l := [R.MEM_PC_STATUS_powered_down]) d m st (s.loadOf d) data (t.dropHome d s.trk.nextHome)
  have hdoneAll : Changes [R.MEM_PC_STATUS_powered_down] ps' s t :=
    (hsr.frame.weaken (fun _ hf => hf) (fun p hp => hps' p (List.mem_append_left _ hp))).trans
      (heffect.weaken (fun _ hf => hf) (fun p hp => hps' p (List.mem_append_right _ hp)))
  have hall := changes_answered (d := d) (m := m) s.trk.nextHome st (s.loadOf d) data hdoneAll
    (fun p hp => hps' p (List.mem_append_left _ hp))
  refine gives_serving hexec hserves ⟨⟨_, rfl⟩, ?_, ?_, ?_, hall.after⟩
  · rw [State.after_mem_eq, hsent.mem_eq]
    exact hmem
  · rw [State.after_trk_eq, hsent.trk_eq]
    exact Map.has_erase_same _ _
  · rw [State.after_trk_eq, hsent.trk_eq, ← hcomb, ← htrk']
    rfl

end

/-! ### Taking a request from the input or the combining table (R128, R134, R135) -/

section

variable {s t : State} {d i : Nat} {m : Msg}

theorem Attends.combinable {ps : List Part} (hst : Attends ps s t) (hp : Part.coh ∉ ps := by decide) :
    t.combinable d m = s.combinable d m := by
  have hon : t.on R.TRK_COMB_CFG_enable [d] = s.on R.TRK_COMB_CFG_enable [d] := by
    rw [State.on, hst.rd R.TRK_COMB_CFG_enable, State.on]
  have hrec (line : Nat) : t.recOf line = s.recOf line := by
    rw [State.recOf, show t.coh = s.coh from hst.frame.parts .coh hp, State.recOf]
  rw [State.combinable, hon, hst.node, funext hrec, State.combinable]

theorem attends_consume (d : Nat) (m : Msg) (s : State) :
    Attends [.out, .hif, .sw, .ports, .ras, .answers] s (s.consume d m) :=
  Attends.of_changes (conveys_consume d m s).changes (conveys_consume (l := []) d m s).now_eq

/-- R128: with room and no open entry on its lines, a request to this die's home is taken from the input. -/
theorem State.arrive_here (hdie : s.homeDie m.addr = d) (hroom : s.homeRoom d 1 = true) (hnone : s.openComb d m = [])
    (hplain : isCoherent m.ty = false) : s.arrive d m = (s.consume d m).combine d m := by
  rw [State.arrive, hdie]
  dsimp only
  rw [hnone, if_neg (by simp [hroom]), if_pos rfl, State.noteWant, if_neg (by simp [hplain])]

theorem State.combine_alone (hnone : s.openComb d m = []) (hno : s.combinable d m = false) :
    s.combine d m = s.take d m [] := by
  simp only [State.combine, hnone, hno, Bool.false_eq_true, if_false, Option.bind_none, List.foldl_nil]

/-- R134: a request that may combine and has no entry to join opens one. -/
theorem State.combine_opens (hnone : s.openComb d m = []) (hcomb : s.combinable d m = true)
    (hroom : s.trk.comb.count (fun k _ => decide (k.head? = some d)) < 65536) :
    s.combine d m = { s with trk := { s.trk with
      nextComb := s.trk.nextComb + 1, comb := s.trk.comb.set [d, s.trk.nextComb] { members := [m], since := s.now } } } := by
  simp only [State.combine, hnone, hcomb, List.find?_nil, if_true, Option.bind_none, List.foldl_nil]
  rw [if_neg (Nat.not_le.mpr hroom)]

/-- An entry of the combining table taken out of it, and counted. -/
def State.combClosed (d i : Nat) (s : State) : State :=
  State.bump R.TRK_CNT_count [d, 8] { s with trk := { s.trk with comb := s.trk.comb.erase [d, i] } }

theorem attends_combClosed (d i : Nat) (s : State) : Attends [.trk] s (s.combClosed d i) :=
  (attends_inTrk _ s).trans (attends_bump _ _).weaken

theorem State.trk_combClosed (d i : Nat) (s : State) :
    (s.combClosed d i).trk = { s.trk with comb := s.trk.comb.erase [d, i] } := State.bump_trk_eq _ _ _

/-- R135: an entry of one member is issued as that member. -/
theorem State.closeComb_single {since : Nat} (hentry : s.trk.comb.get? [d, i] = some { members := [m], since := since }) :
    s.closeComb d i = (s.combClosed d i).take d m [] := by
  rw [State.closeComb, hentry]
  rfl

/-- What a request that is taken by itself gives. -/
theorem gives_alone {c : Instr} {st : Status} {data : Option Nat} {mem : List Host.Cell} {ps ps' : List Part}
    (hserves : Serves s) (hexec : exec c s = serving s (s.arrive d m)) (hplain : isCoherent m.ty = false) (hat : AtHome s d m)
    (halone : Alone s d m) (hunbound : s.bindOf (extentOf m.addr) = none)
    (hperform : ∀ r, Attends homeParts s r → Unhindered r d m → Performs d m st data mem ps r)
    (hps : ∀ p ∈ ps, p ∈ [Part.tier, .mem, .poison, .out, .hif] := by decide)
    (hps' : ∀ p ∈ homeParts ++ ps, p ∈ ps' := by decide) :
    Gives c s (fun t => Answers d m st (s.loadOf d) data s t ∧ t.mem = mem ∧ t.trk.home.has [d, s.trk.nextHome] = false ∧
      RegsBut [R.MEM_PC_STATUS_powered_down] s t ∧ PartsBut ps' s t) := by
  obtain ⟨hroom, hnone, hno⟩ := halone
  have hdie : s.homeDie m.addr = d := by
    obtain ⟨-, -, hdie, -⟩ := hat
    exact hdie
  have hu := attends_consume d m s
  have htrk : (s.consume d m).trk = s.trk := hu.trk
  have hopen : (s.consume d m).openComb d m = [] := by rw [State.openComb, htrk]; exact hnone
  have htake : s.arrive d m = (s.consume d m).take d m [] :=
    (State.arrive_here hdie hroom hnone hplain).trans (State.combine_alone hopen (hu.combinable.trans hno))
  rw [htake] at hexec
  obtain ⟨t, hgives, hanswer, hmem, hretired, -, hframe⟩ := gives_taken hserves hexec hu.weaken (by rw [htrk]) (by rw [htrk])
    (by rw [htrk]) hat hplain hunbound hperform hps hps'
  exact ⟨t, hgives, hanswer, hmem, hretired, hframe⟩

end

/-! ### Performing a request (R117 to R122, R184) -/

theorem length_bytesOfNat (n x : Nat) : (bytesOfNat n x).length = n := by
  induction n generalizing x with
  | zero => rfl
  | succ n ih => rw [bytesOfNat, List.length_cons, ih]

/-- R120: a run of bytes written reads as what was written, and every other byte as before. -/
theorem Mem.read_writeAll {mem : List Host.Cell} (a : Nat) (l : List Byte) (hwf : Memory.wf mem = true) (x : Nat) :
    Mem.read (Mem.writeAll mem a l) x = if a ≤ x ∧ x < a + l.length then l.getD (x - a) 0 else Mem.read mem x := by
  induction l generalizing mem a with
  | nil =>
    rw [if_neg (by rw [List.length_nil]; omega)]
    rfl
  | cons b l ih =>
    rw [Mem.writeAll, ih _ (Memory.wf_write a b hwf), List.length_cons]
    rcases Nat.lt_trichotomy x a with hlt | rfl | hgt
    · rw [if_neg (by omega), if_neg (by omega), Mem.read_write_other _ _ (Nat.ne_of_lt hlt)]
    · rw [if_neg (by omega), if_pos (by omega), Mem.read_write_same _ _ hwf, Nat.sub_self]
      rfl
    · obtain ⟨k, rfl⟩ : ∃ k, x = a + 1 + k := ⟨x - (a + 1), by omega⟩
      have hhead : a + 1 + k - a = k + 1 := by omega
      rw [Nat.add_sub_cancel_left, hhead, List.getD_cons_succ, Mem.read_write_other _ _ (Nat.ne_of_gt hgt)]
      exact ite_congr (propext (by omega)) (fun _ => rfl) (fun _ => rfl)

theorem Mem.readN_writeAll {mem : List Host.Cell} (a : Nat) (l : List Byte) (hwf : Memory.wf mem = true) :
    Mem.readN (Mem.writeAll mem a l) a l.length = l := by
  refine List.ext_getElem (by simp [Mem.readN]) (fun k hk hl => ?_)
  have hin : a ≤ a + k ∧ a + k < a + l.length := by omega
  simp only [Mem.readN, List.getElem_map, List.getElem_range]
  rw [Mem.read_writeAll a l hwf, if_pos hin, Nat.add_sub_cancel_left, List.getD_eq_getElem?_getD,
    List.getElem?_eq_getElem hl, Option.getD_some]

section

variable {s : State} {d : Nat} {m : Msg}

/-- Bytes stored where poison stays as it is. -/
def State.storeBytes (a : Nat) (b : List Byte) (s : State) : State := { s with mem := Mem.writeAll s.mem a b }

theorem State.mem_storeBytes (a : Nat) (b : List Byte) (s : State) :
    (s.storeBytes a b).mem = Mem.writeAll s.mem a b := rfl

theorem State.mem_writeBytes (a : Nat) (b : List Byte) (s : State) :
    (s.writeBytes a b).mem = Mem.writeAll s.mem a b := rfl

theorem changes_storeBytes {a : Nat} {b : List Byte} : Changes [] [.mem] s (s.storeBytes a b) := by
  refine ⟨fun _ _ _ _ => rfl, fun p hn => ?_, fun _ _ _ => rfl⟩
  cases p
  case mem => exact absurd List.mem_cons_self hn
  all_goals rfl

/-- R120: a write may clear poison beside the bytes it stores. -/
theorem changes_writeBytes {a : Nat} {b : List Byte} : Changes [] [.mem, .poison] s (s.writeBytes a b) := by
  refine ⟨fun _ _ _ _ => rfl, fun p hn => ?_, fun _ _ _ => rfl⟩
  cases p
  case mem => exact absurd List.mem_cons_self hn
  case poison => exact absurd (by decide) hn
  all_goals rfl

/-- The home serves the request's extent, and then accesses its memory. -/
theorem attends_serveAccess (write : Bool) (a n : Nat) (m : Msg) (s : State) :
    Attends [.tier] s ((s.serveExtent (extentOf m.addr)).access write a n) :=
  (attends_serveExtent _ s).trans (attends_access _ _ _ _)

theorem Unhindered.reached_serveExtent (hs : Unhindered s d m) :
    ¬ (s.serveExtent (extentOf m.addr)).boardCut d (extentOf m.addr) (bitsOf m.addr 16 10) = true := by
  rw [(attends_serveExtent _ s).boardCut, hs.reached]
  exact Bool.false_ne_true

/-- A request whose last effect is bytes stored. -/
theorem performs_store {u : State} {st : Status} {data : Option Nat} {a : Nat} {b : List Byte} (hsu : Attends [.tier] s u)
    (hdone : s.perform d m = (st, data, u.storeBytes a b)) :
    Performs d m st data (Mem.writeAll s.mem a b) [.tier, .mem] s :=
  ⟨_, hdone, by rw [State.mem_storeBytes, hsu.mem],
    (hsu.frame.weaken (fun _ hf => hf)).trans (changes_storeBytes.weaken (by simp))⟩

theorem performs_read (hs : Unhindered s d m) (hty : m.ty = 0x10 ∨ m.ty = 0x11) :
    Performs d m .ok (some (natOfBytes (s.readBytes (offsetOf m.addr) m.rlen))) s.mem [.tier] s := by
  have hserved := attends_serveExtent (extentOf m.addr) s
  have haccess := attends_serveAccess false (offsetOf m.addr) m.rlen m s
  refine ⟨_, ?_, haccess.mem, haccess.frame⟩
  rw [State.perform, hs.alive, hs.sound]
  dsimp only
  rw [if_neg hs.reached_serveExtent]
  rcases hty with hty | hty
  all_goals
    rw [hty, hserved.readBytes]
    simp

theorem performs_write (hs : Unhindered s d m) (hty : m.ty = 0x12) :
    Performs d m .ok none (Mem.writeAll s.mem (offsetOf m.addr) (m.bytes 16 m.rlen)) [.tier, .mem, .poison] s := by
  have haccess := attends_serveAccess true (offsetOf m.addr) m.rlen m s
  have hdone : s.perform d m = (.ok, none, ((s.serveExtent (extentOf m.addr)).access true (offsetOf m.addr) m.rlen).writeBytes
      (offsetOf m.addr) (m.bytes 16 m.rlen)) := by
    rw [State.perform, hs.alive]
    dsimp only
    rw [if_neg hs.reached_serveExtent, hty]
    rfl
  refine ⟨_, hdone, ?_, (haccess.frame.weaken (by simp)).trans (changes_writeBytes.weaken (by simp))⟩
  rw [State.mem_writeBytes, haccess.mem]

/-- The bytes of a masked write: those its mask names, and those in memory (R122). -/
def maskedBytes (m : Msg) (old : List Byte) : List Byte :=
  List.zipWith (fun i b => if bitAt (m.f 16 0 128) i then (m.bytes 32 128).getD i 0 else b) (List.range 128) old

theorem performs_maskedWrite (hs : Unhindered s d m) (hty : m.ty = 0x13) :
    Performs d m .ok none (Mem.writeAll s.mem (offsetOf m.addr) (maskedBytes m (Mem.readN s.mem (offsetOf m.addr) 128)))
      [.tier, .mem, .poison] s := by
  have haccess := attends_serveAccess true (offsetOf m.addr) 128 m s
  have hdone : ∃ t, (t = ((s.serveExtent (extentOf m.addr)).access true (offsetOf m.addr) 128).writeBytes (offsetOf m.addr)
        (maskedBytes m (Mem.readN s.mem (offsetOf m.addr) 128)) ∨
      t = ((s.serveExtent (extentOf m.addr)).access true (offsetOf m.addr) 128).storeBytes (offsetOf m.addr)
        (maskedBytes m (Mem.readN s.mem (offsetOf m.addr) 128))) ∧ s.perform d m = (.ok, none, t) := by
    rw [State.perform, hs.alive]
    dsimp only
    rw [if_neg hs.reached_serveExtent, hty]
    rw [if_neg Bool.false_ne_true]
    by_cases hfull : m.f 16 0 128 = 2 ^ 128 - 1
    · exact ⟨_, .inl rfl, by rw [if_pos hfull]; rfl⟩
    · exact ⟨_, .inr rfl, by rw [if_neg hfull]; rfl⟩
  obtain ⟨t, rfl | rfl, hdone⟩ := hdone
  · refine ⟨_, hdone, ?_, (haccess.frame.weaken (by simp)).trans (changes_writeBytes.weaken (by simp))⟩
    rw [State.mem_writeBytes, haccess.mem]
  · refine ⟨_, hdone, ?_, (haccess.frame.weaken (by simp)).trans (changes_storeBytes.weaken (by simp))⟩
    rw [State.mem_storeBytes, haccess.mem]

/-- R118, R119: an atomic stores its operation's result, and answers the old value where it fetches. -/
theorem performs_atomic (hs : Unhindered s d m) (hty : m.ty = 0x14) :
    Performs d m .ok (if m.fetch then some (natOfBytes (Mem.readN s.mem (offsetOf m.addr) m.rlen)) else none)
      (Mem.writeAll s.mem (offsetOf m.addr) (bytesOfNat m.rlen (atomicResult m.aop m.rlen
        (natOfBytes (Mem.readN s.mem (offsetOf m.addr) m.rlen)) m.opA m.opB))) [.tier, .mem] s := by
  have haccess := (attends_serveAccess false (offsetOf m.addr) m.rlen m s).trans
    (attends_access true (offsetOf m.addr) m.rlen _)
  refine performs_store haccess ?_
  rw [State.perform, hs.alive, hs.sound]
  dsimp only
  rw [if_neg hs.reached_serveExtent, hty]
  rfl

/-- The descriptor a publication stores at its home (R184). -/
def State.descriptor (s : State) (d : Nat) (m : Msg) : Nat :=
  layout [(0, 0, 32, m.f 16 0 32), (4, 0, 16, m.src), (8, 0, 56, m.f 24 0 56), (16, 0, 32, m.f 20 0 32),
    (20, 0, 32, s.beatDie d), (24, 0, 64, m.f 32 0 64)]

/-- R184: a publication of the version in memory stores its descriptor. -/
theorem performs_publication (hs : Unhindered s d m) (hty : m.ty = 0x62)
    (hversion : natOfBytes (Mem.readN s.mem (offsetOf m.addr) 4) = m.f 12 0 32) :
    Performs d m .ok (some (publishAck (m.f 16 0 32) 0))
      (Mem.writeAll s.mem (offsetOf m.addr) (bytesOfNat 128 (s.descriptor d m))) [.tier, .mem] s := by
  have haccess := ((attends_serveAccess false (offsetOf m.addr) 128 m s).trans
    (attends_access true (offsetOf m.addr) 128 _)).trans (attends_bump (f := R.POL_CNT_count) [d, 8] _).weaken
  refine performs_store haccess ?_
  rw [State.perform, hs.alive, hs.sound]
  dsimp only
  rw [if_neg hs.reached_serveExtent, hty]
  rw [if_neg Bool.false_ne_true, if_neg Bool.false_ne_true]
  exact if_pos hversion

/-- R184: a publication of another version stores nothing, and answers what stands in memory. -/
theorem performs_conflict (hs : Unhindered s d m) (hty : m.ty = 0x62)
    (hversion : natOfBytes (Mem.readN s.mem (offsetOf m.addr) 4) ≠ m.f 12 0 32) :
    Performs d m .publishConflict (some (publishAck (natOfBytes (Mem.readN s.mem (offsetOf m.addr) 4))
      (natOfBytes (Mem.readN s.mem (offsetOf m.addr + 4) 2)))) s.mem [.tier, .out, .hif] s := by
  have haccess := (attends_serveAccess false (offsetOf m.addr) 128 m s).trans
    (attends_bump (f := R.POL_CNT_count) [d, 9] _).weaken
  refine ⟨_, ?_, (State.event_mem_eq B.pol 4 _).trans haccess.mem,
    (haccess.frame.weaken (by simp)).told ((Told.refl _).event B.pol 4)⟩
  rw [State.perform, hs.alive, hs.sound]
  dsimp only
  rw [if_neg hs.reached_serveExtent, hty]
  rw [if_neg Bool.false_ne_true, if_neg Bool.false_ne_true]
  exact if_neg hversion

end

end Machine

end Sys2Proof
end

section
/-! PROOF. The statement on reads at their home (R117, R119, R120, R134, R135, R138). -/

namespace Sys2Proof.Machine

open Sys2Proof.Safety

variable {s : State} {d : Nat} {m : Msg}

theorem plain_of_read (hty : m.ty = 0x10 ∨ m.ty = 0x11) : isCoherent m.ty = false := by
  rcases hty with hty | hty
  all_goals rw [hty]; rfl

/-- Performing a read under whatever entry gives the bytes that stand in memory when it comes. -/
theorem performs_read_from (hty : m.ty = 0x10 ∨ m.ty = 0x11) (r : State) (hsr : Attends homeParts s r)
    (hr : Unhindered r d m) :
    Performs d m .ok (some (natOfBytes (s.readBytes (offsetOf m.addr) m.rlen))) s.mem [.tier] r := by
  rw [← hsr.readBytes, ← hsr.mem]
  exact performs_read hr hty

theorem gives_read {c : Instr} (h : Serves s) (hexec : exec c s = serving s (s.arrive d m)) (hty : m.ty = 0x10 ∨ m.ty = 0x11)
    (hat : AtHome s d m) (halone : Alone s d m) (hunbound : s.bindOf (extentOf m.addr) = none) :
    Gives c s (fun t => Answers d m .ok (s.loadOf d) (some (natOfBytes (s.readBytes (offsetOf m.addr) m.rlen))) s t ∧
      t.mem = s.mem ∧ t.trk.home.has [d, s.trk.nextHome] = false ∧ RegsBut [R.MEM_PC_STATUS_powered_down] s t ∧
      PartsBut [.out, .hif, .sw, .ports, .ras, .answers, .trk, .pool, .tier] s t) :=
  gives_alone h hexec (plain_of_read hty) hat halone hunbound (performs_read_from hty)

theorem gives_rd_opens (h : Serves s) (hty : m.ty = 0x10) (hdie : s.homeDie m.addr = d) (hroom : s.homeRoom d 1 = true)
    (hnone : s.openComb d m = []) (hcomb : s.combinable d m = true)
    (hfree : s.trk.comb.count (fun k _ => decide (k.head? = some d)) < 65536) :
    Gives (.rd d m) s (fun t => t.trk.comb.get? [d, s.trk.nextComb] = some { members := [m], since := s.now } ∧
      t.mem = s.mem ∧ RegsBut [] s t ∧ PartsBut [.out, .hif, .sw, .ports, .ras, .answers, .trk] s t) := by
  have hexec : exec (.rd d m) s = serving s (s.arrive d m) := congrArg (serving s) (if_pos hty)
  have hconsumed := attends_consume d m s
  have hchanges := (conveys_consume (l := []) d m s).changes
  rw [State.arrive_here hdie hroom hnone (plain_of_read (.inl hty))] at hexec
  generalize s.consume d m = u at hexec hconsumed hchanges
  have htrk : u.trk = s.trk := hconsumed.trk
  have hopen : u.openComb d m = [] := by rw [State.openComb, htrk]; exact hnone
  rw [State.combine_opens hopen (hconsumed.combinable.trans hcomb) (by rw [htrk]; exact hfree)] at hexec
  refine gives_serving hexec h ⟨?_, hconsumed.mem, ((hchanges.weaken (by simp)).inTrk _).after⟩
  rw [State.after_trk_eq, ← htrk, ← hconsumed.now]
  exact Map.get?_set_same _ _ _

theorem gives_combWindowExpiry_single (h : Serves s) {i since : Nat}
    (hentry : s.trk.comb.get? [d, i] = some { members := [m], since := since })
    (hdue : 8 * s.rd R.TRK_COMB_CFG_window [d] ≤ s.now - since) (hroom : s.homeRoom d 1 = true) (hty : m.ty = 0x10)
    (hat : AtHome s d m) (hunbound : s.bindOf (extentOf m.addr) = none) :
    Gives (.combWindowExpiry d i) s (fun t => Answers d m .ok (s.loadOf d) (some (natOfBytes (s.readBytes (offsetOf m.addr)
      m.rlen))) s t ∧ t.trk.comb.has [d, i] = false ∧ t.mem = s.mem ∧ RegsBut [R.MEM_PC_STATUS_powered_down] s t ∧
      PartsBut [.out, .hif, .sw, .ports, .ras, .answers, .trk, .pool, .tier] s t) := by
  have hexec : exec (.combWindowExpiry d i) s = serving s ((s.combClosed d i).take d m []) := by
    change execCombWindowExpiry d i s = _
    rw [execCombWindowExpiry, hentry]
    dsimp only
    rw [if_pos hdue, if_pos hroom, State.closeComb_single hentry]
  have hclosed := (attends_combClosed d i s).weaken (ps' := [.out, .hif, .sw, .ports, .ras, .answers, .trk])
  have htrk := s.trk_combClosed d i
  obtain ⟨t, hgives, hanswer, hmem, -, hcomb, hframe⟩ := gives_taken h hexec hclosed (by rw [htrk]) (by rw [htrk])
    (by rw [htrk]) hat (plain_of_read (.inl hty)) hunbound (performs_read_from (.inl hty))
    (ps' := [.out, .hif, .sw, .ports, .ras, .answers, .trk, .pool, .tier])
  refine ⟨t, hgives, hanswer, ?_, hmem, hframe⟩
  rw [hcomb, htrk]
  exact Map.has_erase_same _ _

theorem gives_loadCompute (h : Serves s) (hf sf : Nat) :
    Gives (.loadCompute d hf sf) s (fun t => t.rd R.TRK_LOAD_load [d] = min 15 (16 * max hf sf / 65536) ∧
      RegsBut [R.TRK_LOAD_load] s t ∧ PartsBut [] s t) := by
  have hwritten : Changes [R.TRK_LOAD_load] [] s (s.wr R.TRK_LOAD_load [d] (min 15 (16 * max hf sf / 65536))) :=
    (Changes.refl _ _ s).wr (by simp) _ _
  have hload : (s.wr R.TRK_LOAD_load [d] (min 15 (16 * max hf sf / 65536))).rd R.TRK_LOAD_load [d] =
      min 15 (16 * max hf sf / 65536) :=
    (State.rd_wr_same _ _ _ s).trans (Nat.mod_eq_of_lt (Nat.lt_of_le_of_lt (Nat.min_le_left _ _) (by decide)))
  generalize hu : s.wr R.TRK_LOAD_load [d] (min 15 (16 * max hf sf / 65536)) = u at hwritten hload
  have hexec : exec (.loadCompute d hf sf) s =
      serving s (if s.homeRoom d 1 then u else u.bump R.TRK_CNT_count [d, 10]) := by rw [← hu]; rfl
  have hcounted : Changes [R.TRK_LOAD_load] [] u (if s.homeRoom d 1 then u else u.bump R.TRK_CNT_count [d, 10]) :=
    Changes.ite (Changes.refl _ _ u) ((changes_bump _ u).weaken (by simp))
  refine gives_serving hexec h ⟨?_, (hwritten.trans hcounted).after⟩
  rw [State.rd_after]
  split
  · exact hload
  · rw [State.rd_bump_other _ _ _ (by decide), hload]

/-- Settles O15: nothing on the way of an unhindered read to its home, nor its access to the tiers, changes what the home
decides by, so it is performed on the memory as it stands and answered; an entry of the combining table with one member is
issued as that member. -/
theorem homeReads : Obligations.HomeReads :=
  fun _ h => ⟨fun _ _ hty => gives_read h (congrArg (serving _) (if_pos hty)) (.inl hty),
    fun _ _ hty => gives_read h (congrArg (serving _) (if_pos hty)) (.inr hty),
    fun _ _ => gives_rd_opens h, fun _ _ _ _ => gives_combWindowExpiry_single h, fun _ => gives_loadCompute h⟩

end Sys2Proof.Machine
end

section
/-! PROOF. The statement on writes, atomics and publications at their home (R118 to R122, R184). -/

namespace Sys2Proof.Machine

open Sys2Proof.Safety

variable {s : State} {d : Nat} {m : Msg}

theorem gives_wr (h : Serves s) (hty : m.ty = 0x12) (hat : AtHome s d m) (halone : Alone s d m)
    (hunbound : s.bindOf (extentOf m.addr) = none) (hwf : Memory.wf s.mem = true) :
    Gives (.wr d m) s (fun t => Answers d m .ok (s.loadOf d) none s t ∧ (∀ a, Mem.read t.mem a =
      if offsetOf m.addr ≤ a ∧ a < offsetOf m.addr + m.rlen then (m.bytes 16 m.rlen).getD (a - offsetOf m.addr) 0
      else Mem.read s.mem a) ∧ RegsBut [R.MEM_PC_STATUS_powered_down] s t ∧
      PartsBut [.out, .hif, .sw, .ports, .ras, .answers, .trk, .pool, .tier, .mem, .poison] s t) := by
  obtain ⟨t, hgives, hanswer, hmem, -, hframe⟩ := gives_alone (c := .wr d m) h (congrArg (serving s) (if_pos hty))
    (by rw [hty]; rfl) hat halone hunbound (fun r hsr hr => hsr.mem ▸ performs_write hr hty)
    (ps' := [.out, .hif, .sw, .ports, .ras, .answers, .trk, .pool, .tier, .mem, .poison])
  refine ⟨t, hgives, hanswer, fun a => ?_, hframe⟩
  rw [hmem, Mem.read_writeAll _ _ hwf, Msg.bytes, length_bytesOfNat]

theorem maskedBytes_getD {mem : List Host.Cell} {a k : Nat} (hk : k < 128) :
    (maskedBytes m (Mem.readN mem a 128)).getD k 0 =
      if bitAt (m.f 16 0 128) k then (m.bytes 32 128).getD k 0 else Mem.read mem (a + k) := by
  have hlen : k < (maskedBytes m (Mem.readN mem a 128)).length := by simpa [maskedBytes, Mem.readN] using hk
  rw [List.getD_eq_getElem?_getD, List.getElem?_eq_getElem hlen, Option.getD_some]
  simp only [maskedBytes, Mem.readN, List.getElem_zipWith, List.getElem_map, List.getElem_range]

theorem gives_wrMask (h : Serves s) (hty : m.ty = 0x13) (hat : AtHome s d m) (halone : Alone s d m)
    (hunbound : s.bindOf (extentOf m.addr) = none) (hwf : Memory.wf s.mem = true) :
    Gives (.wrMask d m) s (fun t => Answers d m .ok (s.loadOf d) none s t ∧ (∀ a, Mem.read t.mem a =
      if offsetOf m.addr ≤ a ∧ a < offsetOf m.addr + 128 ∧ bitAt (m.f 16 0 128) (a - offsetOf m.addr) = true then
        (m.bytes 32 128).getD (a - offsetOf m.addr) 0 else Mem.read s.mem a) ∧
      RegsBut [R.MEM_PC_STATUS_powered_down] s t ∧
      PartsBut [.out, .hif, .sw, .ports, .ras, .answers, .trk, .pool, .tier, .mem, .poison] s t) := by
  obtain ⟨t, hgives, hanswer, hmem, -, hframe⟩ := gives_alone (c := .wrMask d m) h (congrArg (serving s) (if_pos hty))
    (by rw [hty]; rfl) hat halone hunbound (fun r hsr hr => hsr.mem ▸ performs_maskedWrite hr hty)
    (ps' := [.out, .hif, .sw, .ports, .ras, .answers, .trk, .pool, .tier, .mem, .poison])
  refine ⟨t, hgives, hanswer, fun a => ?_, hframe⟩
  have hlen : (maskedBytes m (Mem.readN s.mem (offsetOf m.addr) 128)).length = 128 := by simp [maskedBytes, Mem.readN]
  rw [hmem, Mem.read_writeAll _ _ hwf, hlen]
  by_cases hin : offsetOf m.addr ≤ a ∧ a < offsetOf m.addr + 128
  · obtain ⟨hlow, hhigh⟩ := hin
    obtain ⟨k, rfl⟩ := Nat.exists_eq_add_of_le hlow
    rw [if_pos ⟨hlow, hhigh⟩, Nat.add_sub_cancel_left, maskedBytes_getD (by omega)]
    exact ite_congr (by simp only [hlow, hhigh, true_and]) (fun _ => rfl) (fun _ => rfl)
  · rw [if_neg hin, if_neg (fun ⟨hlow, hhigh, _⟩ => hin ⟨hlow, hhigh⟩)]

theorem gives_atom (h : Serves s) (hty : m.ty = 0x14) (hat : AtHome s d m) (halone : Alone s d m)
    (hunbound : s.bindOf (extentOf m.addr) = none) (hwf : Memory.wf s.mem = true) :
    Gives (.atom d m) s (fun t => Answers d m .ok (s.loadOf d) (if m.fetch then some (natOfBytes (Mem.readN s.mem
      (offsetOf m.addr) m.rlen)) else none) s t ∧ (∀ a, Mem.read t.mem a = if offsetOf m.addr ≤ a ∧ a < offsetOf m.addr +
      m.rlen then (bytesOfNat m.rlen (atomicResult m.aop m.rlen (natOfBytes (Mem.readN s.mem (offsetOf m.addr) m.rlen))
      m.opA m.opB)).getD (a - offsetOf m.addr) 0 else Mem.read s.mem a) ∧ RegsBut [R.MEM_PC_STATUS_powered_down] s t ∧
      PartsBut [.out, .hif, .sw, .ports, .ras, .answers, .trk, .pool, .tier, .mem] s t) := by
  obtain ⟨t, hgives, hanswer, hmem, -, hframe⟩ := gives_alone (c := .atom d m) h (congrArg (serving s) (if_pos hty))
    (by rw [hty]; rfl) hat halone hunbound (fun r hsr hr => hsr.mem ▸ performs_atomic hr hty)
    (ps' := [.out, .hif, .sw, .ports, .ras, .answers, .trk, .pool, .tier, .mem])
  refine ⟨t, hgives, hanswer, fun a => ?_, hframe⟩
  rw [hmem, Mem.read_writeAll _ _ hwf, length_bytesOfNat]

theorem State.descriptor_eq {r : State} (hsr : Attends homeParts s r) : r.descriptor d m = s.descriptor d m := by
  rw [State.descriptor, hsr.beatDie, State.descriptor]

theorem gives_publish_taken (h : Serves s) (hty : m.ty = 0x62) (hat : AtHome s d m) (halone : Alone s d m)
    (hunbound : s.bindOf (extentOf m.addr) = none) (hwf : Memory.wf s.mem = true)
    (hversion : natOfBytes (Mem.readN s.mem (offsetOf m.addr) 4) = m.f 12 0 32) :
    Gives (.publish d m) s (fun t => Answers d m .ok (s.loadOf d) (some (publishAck (m.f 16 0 32) 0)) s t ∧
      Mem.readN t.mem (offsetOf m.addr) 128 = bytesOfNat 128 (s.descriptor d m) ∧
      (∀ a, a < offsetOf m.addr ∨ offsetOf m.addr + 128 ≤ a → Mem.read t.mem a = Mem.read s.mem a) ∧
      RegsBut [R.MEM_PC_STATUS_powered_down] s t ∧
      PartsBut [.out, .hif, .sw, .ports, .ras, .answers, .trk, .pool, .tier, .mem] s t) := by
  obtain ⟨t, hgives, hanswer, hmem, -, hframe⟩ := gives_alone (c := .publish d m) h (congrArg (serving s) (if_pos hty))
    (by rw [hty]; rfl) hat halone hunbound
    (fun r hsr hr => State.descriptor_eq hsr ▸ hsr.mem ▸ performs_publication hr hty (by rw [hsr.mem]; exact hversion))
    (ps' := [.out, .hif, .sw, .ports, .ras, .answers, .trk, .pool, .tier, .mem])
  have hlen := length_bytesOfNat 128 (s.descriptor d m)
  refine ⟨t, hgives, hanswer, ?_, fun a ha => ?_, hframe⟩
  · have hread := Mem.readN_writeAll (offsetOf m.addr) (bytesOfNat 128 (s.descriptor d m)) hwf
    rwa [hlen, ← hmem] at hread
  · rw [hmem, Mem.read_writeAll_other _ _ (by rwa [hlen])]

theorem gives_publish_conflict (h : Serves s) (hty : m.ty = 0x62) (hat : AtHome s d m) (halone : Alone s d m)
    (hunbound : s.bindOf (extentOf m.addr) = none)
    (hversion : natOfBytes (Mem.readN s.mem (offsetOf m.addr) 4) ≠ m.f 12 0 32) :
    Gives (.publish d m) s (fun t => Answers d m .publishConflict (s.loadOf d) (some (publishAck
      (natOfBytes (Mem.readN s.mem (offsetOf m.addr) 4)) (natOfBytes (Mem.readN s.mem (offsetOf m.addr + 4) 2)))) s t ∧
      t.mem = s.mem ∧ RegsBut [R.MEM_PC_STATUS_powered_down] s t ∧
      PartsBut [.out, .hif, .sw, .ports, .ras, .answers, .trk, .pool, .tier] s t) := by
  obtain ⟨t, hgives, hanswer, hmem, -, hframe⟩ := gives_alone (c := .publish d m) h (congrArg (serving s) (if_pos hty))
    (by rw [hty]; rfl) hat halone hunbound
    (fun r hsr hr => hsr.mem ▸ performs_conflict hr hty (by rw [hsr.mem]; exact hversion))
    (ps' := [.out, .hif, .sw, .ports, .ras, .answers, .trk, .pool, .tier])
  exact ⟨t, hgives, hanswer, hmem, hframe⟩

/-- Settles O16: each request is performed on the memory as it stands, its last effect is one run of bytes stored at its
address, and a run stored reads as what was stored and leaves every other byte. -/
theorem homeWrites : Obligations.HomeWrites :=
  fun _ h => ⟨fun _ _ => gives_wr h, fun _ _ => gives_wrMask h, fun _ _ => gives_atom h, fun _ _ => gives_publish_taken h,
    fun _ _ => gives_publish_conflict h⟩

end Sys2Proof.Machine
end

section
/-! LAWS. Coherence (R140 to R159): what its tables and operations change, and by what an agent is known. -/

namespace Sys2Proof.Machine

open Sys2Proof.Safety

theorem Changes.inCoh {l : List Fld} {ps : List Part} {s t : State} (h : Changes l ps s t) (k : Coh)
    (hp : Part.coh ∈ ps := by decide) : Changes l ps s { t with coh := k } := by
  refine h.trans ⟨fun _ _ _ _ => rfl, fun p hn => ?_, fun _ _ _ => rfl⟩
  cases p
  case coh => exact absurd hp hn
  all_goals rfl

theorem changes_inCoh (k : Coh) (s : State) : Changes [] [.coh] s { s with coh := k } := (Changes.refl _ _ s).inCoh k

end Sys2Proof.Machine
end

section
/-! PROOF. The statement on bindings, member slots and store extents (R140, R141, R144). -/

namespace Sys2Proof.Machine

open Sys2Proof.Safety

variable {s : State}

/-! ### Bindings (R141) -/

/-- A binding's image in its entry. -/
def State.bindWritten (i v : Nat) (s : State) : State :=
  (((s.wr R.COH_BIND_valid [i] (bitsOf v 0 1)).wr R.COH_BIND_domain [i] (bitsOf v 8 8)).wr
    R.COH_BIND_first_extent [i] (bitsOf v 16 18)).wr R.COH_BIND_last_extent [i] (bitsOf v 34 18)

/-- A part without a puppet shadows nothing that a binding takes or frees (R420). -/
theorem State.putBind_unshadowed (hprimary : s.isPrimary = false) (i v : Nat) : s.putBind i v = s.bindWritten i v := by
  rw [State.putBind]
  exact if_pos (by simp [hprimary])

theorem State.cmdBindWrite_fresh {i v : Nat} (hv : v < 2 ^ 52) (hvalid : bitsOf v 0 1 = 1) (hgap : bitsOf v 1 7 = 0)
    (hbinding : s.coh.unbinding.has [i] = false) (hfresh : s.rd R.COH_BIND_valid [i] = 0)
    (hnone : s.bindRefusal i v = none) (who : Asker) : s.cmdBindWrite i v who = (some .ok, s.putBind i v) := by
  have hkept : ¬ (v ≥ 2 ^ 52 ∨ bitsOf v 1 7 ≠ 0 ∨ s.coh.unbinding.has [i] = true) := by
    rw [hbinding]
    simp only [Bool.false_eq_true, or_false]
    omega
  rw [State.cmdBindWrite, if_neg hkept, if_pos hvalid, hnone, State.on_eq_false hfresh]
  rfl

theorem gives_bindWrite (h : Applies s B.coh) {i v : Nat} (hv : v < 2 ^ 52) (hvalid : bitsOf v 0 1 = 1)
    (hgap : bitsOf v 1 7 = 0) (hbinding : s.coh.unbinding.has [i] = false) (hfresh : s.rd R.COH_BIND_valid [i] = 0)
    (hnone : s.bindRefusal i v = none) (hprimary : s.isPrimary = false) :
    Gives (.bindWrite i v) s (fun t => t.rd R.COH_BIND_valid [i] = 1 ∧ t.rd R.COH_BIND_domain [i] = bitsOf v 8 8 ∧
      t.rd R.COH_BIND_first_extent [i] = bitsOf v 16 18 ∧ t.rd R.COH_BIND_last_extent [i] = bitsOf v 34 18 ∧
      t.answers = s.answers ++ [(0x0301, .ok)] ∧ RegsBut [R.COH_BIND_valid, R.COH_BIND_domain, R.COH_BIND_first_extent,
      R.COH_BIND_last_extent] s t ∧ PartsBut [.answers] s t) := by
  have hchanges : Changes [R.COH_BIND_valid, R.COH_BIND_domain, R.COH_BIND_first_extent, R.COH_BIND_last_extent] [] s
      (s.bindWritten i v) :=
    ((((Changes.refl _ _ s).wr (by simp) _ _).wr (by simp) _ _).wr (by simp) _ _).wr (by simp) _ _
  obtain ⟨hserves, hexpelled, hready⟩ := h
  have hpkg : (s.bindWritten i v).pkg = s.pkg := hchanges.parts .pkg (by decide)
  have hexec : exec (.bindWrite i v) s = serving s ((s.bindWritten i v).listAnswer 0x0301 .ok) := by
    change execBindWrite i v s = _
    rw [execBindWrite, State.gatedBind, if_neg (by simp [hexpelled]), if_pos hready,
      State.cmdBindWrite_fresh hv hvalid hgap hbinding hfresh hnone, State.putBind_unshadowed hprimary]
    dsimp only
    rw [State.told, State.tell, if_neg (by simp [hpkg, hexpelled])]
    rfl
  refine gives_serving hexec hserves ⟨?valid, ?domain, ?first, ?last, hchanges.answers_listAnswer _ _,
    (hchanges.listAnswer _ _).after⟩
  all_goals rw [State.rd_after, State.rd_listAnswer, State.bindWritten]
  all_goals simp (disch := decide) only [State.rd_wr_num, State.rd_wr_same]
  case valid => rw [hvalid]; rfl
  all_goals exact Nat.mod_eq_of_lt (bitsOf_lt _ _ _)

/-! ### Member slots (R140) -/

/-- A member slot's image in its registers. -/
def State.memberWritten (dom a v : Nat) (s : State) : State :=
  (((s.wr R.COH_MEMBER_valid [dom, a] (bitsOf v 0 1)).wr R.COH_MEMBER_kind [dom, a] (bitsOf v 1 1)).wr
    R.COH_MEMBER_eid [dom, a] (bitsOf v 16 16)).wr R.COH_MEMBER_cluster [dom, a] (bitsOf v 32 4)

theorem changes_putMember (dom a v : Nat) (s : State) :
    Changes [R.COH_MEMBER_valid, R.COH_MEMBER_kind, R.COH_MEMBER_eid, R.COH_MEMBER_cluster] [.coh] s (s.putMember dom a v) :=
  (((((Changes.refl _ _ s).wr (by simp) _ _).wr (by simp) _ _).wr (by simp) _ _).wr (by simp) _ _).inCoh _

theorem State.rd_putMember (dom a v : Nat) (s : State) (f : Fld) (ix : List Nat) :
    (s.putMember dom a v).rd f ix = (s.memberWritten dom a v).rd f ix := rfl

theorem State.isDead_putMember (dom a v : Nat) (s : State) : (s.putMember dom a v).isDead dom a = false :=
  Map.has_erase_same _ _

theorem State.cmdMemberWrite_vacant {dom a v : Nat} (hv : v < 2 ^ 36) (hgap : bitsOf v 2 14 = 0)
    (hwalk : s.coh.walks.has [dom, a] = false) (hvacant : s.agentAt dom a = none) :
    s.cmdMemberWrite dom a v = (.ok, s.putMember dom a v) := by
  rw [State.cmdMemberWrite, if_neg (by omega), if_neg (by simp [hwalk])]
  exact if_neg (by simp [hvacant])

theorem gives_memberWrite (h : Applies s B.coh) {dom a v : Nat} (hv : v < 2 ^ 36) (hgap : bitsOf v 2 14 = 0)
    (hwalk : s.coh.walks.has [dom, a] = false) (hvacant : s.agentAt dom a = none) :
    Gives (.memberWrite dom a v) s (fun t => t.rd R.COH_MEMBER_valid [dom, a] = bitsOf v 0 1 ∧
      t.rd R.COH_MEMBER_kind [dom, a] = bitsOf v 1 1 ∧ t.rd R.COH_MEMBER_eid [dom, a] = bitsOf v 16 16 ∧
      t.rd R.COH_MEMBER_cluster [dom, a] = bitsOf v 32 4 ∧ t.isDead dom a = false ∧
      t.answers = s.answers ++ [(0x0302, .ok)] ∧ RegsBut [R.COH_MEMBER_valid, R.COH_MEMBER_kind, R.COH_MEMBER_eid,
      R.COH_MEMBER_cluster] s t ∧ PartsBut [.answers, .coh] s t) := by
  have hchanges := changes_putMember dom a v s
  refine gives_applied (op := 0x0302) h (State.cmdMemberWrite_vacant hv hgap hwalk hvacant) hchanges rfl
    ⟨?valid, ?kind, ?eid, ?cluster, State.isDead_putMember dom a v s, hchanges.answers_listAnswer _ _,
      (hchanges.listAnswer _ _).after⟩
  all_goals rw [State.rd_after, State.rd_listAnswer, State.rd_putMember, State.memberWritten]
  all_goals simp (disch := decide) only [State.rd_wr_num, State.rd_wr_same]
  all_goals exact Nat.mod_eq_of_lt (bitsOf_lt _ _ _)

/-! ### Store extents (R144) -/

theorem State.cmdDirStoreWrite_fresh {d k v : Nat} (hv : v < 2 ^ 19) (hvalid : bitsOf v 18 1 = 1)
    (hstate : (s.ext s.node (bitsOf v 0 18)).state = .internal) (hstack : s.inBoard (bitsOf v 0 18) = false)
    (hdie : (s.ext s.node (bitsOf v 0 18)).die = d) (hfresh : s.rd R.COH_DIR_STORE_valid [d, k] = 0) :
    s.cmdDirStoreWrite d k v =
      (.ok, (s.wr R.COH_DIR_STORE_extent [d, k] (bitsOf v 0 18)).wr R.COH_DIR_STORE_valid [d, k] 1) := by
  rw [State.cmdDirStoreWrite, if_neg (by omega), if_neg (by simp [hstate, hstack, hdie]),
    if_neg (by simp [State.on_eq_false hfresh]), hvalid]
  rfl

theorem gives_dirStoreWrite (h : Applies s B.coh) {d k v : Nat} (hv : v < 2 ^ 19) (hvalid : bitsOf v 18 1 = 1)
    (hstate : (s.ext s.node (bitsOf v 0 18)).state = .internal) (hstack : s.inBoard (bitsOf v 0 18) = false)
    (hdie : (s.ext s.node (bitsOf v 0 18)).die = d) (hfresh : s.rd R.COH_DIR_STORE_valid [d, k] = 0) :
    Gives (.dirStoreWrite d k v) s (fun t => t.rd R.COH_DIR_STORE_extent [d, k] = bitsOf v 0 18 ∧
      t.rd R.COH_DIR_STORE_valid [d, k] = 1 ∧ t.answers = s.answers ++ [(0x0303, .ok)] ∧
      RegsBut [R.COH_DIR_STORE_extent, R.COH_DIR_STORE_valid] s t ∧ PartsBut [.answers] s t) := by
  have hchanges : Changes [R.COH_DIR_STORE_extent, R.COH_DIR_STORE_valid] [] s
      ((s.wr R.COH_DIR_STORE_extent [d, k] (bitsOf v 0 18)).wr R.COH_DIR_STORE_valid [d, k] 1) :=
    ((Changes.refl _ _ s).wr (by simp) _ _).wr (by simp) _ _
  refine gives_applied (op := 0x0303) h (State.cmdDirStoreWrite_fresh hv hvalid hstate hstack hdie hfresh) hchanges rfl
    ⟨?extent, ?valid, hchanges.answers_listAnswer _ _, (hchanges.listAnswer _ _).after⟩
  all_goals rw [State.rd_after, State.rd_listAnswer]
  all_goals simp (disch := decide) only [State.rd_wr_num, State.rd_wr_same]
  case extent => exact Nat.mod_eq_of_lt (bitsOf_lt _ _ _)
  case valid => rfl

/-- Settles O22: where none of a command's refusals applies, its image is written field by field, each within its width,
and the list of answers is all that differs beside it. -/
theorem coherenceTables : Obligations.CoherenceTables :=
  fun _ h => ⟨fun _ _ => gives_bindWrite h, fun _ _ _ => gives_memberWrite h, fun _ _ _ => gives_dirStoreWrite h⟩

end Sys2Proof.Machine
end

section
/-! PROOF. The statement on clusters as caching agents (R148, R150, R151). -/

namespace Sys2Proof.Machine

open Sys2Proof.Safety

variable {s u : State} {c line : Nat} {m : Msg}

/-! ### A message at a cluster -/

/-- A cluster takes a message from its input, changes its own tables, and sends what follows. -/
theorem gives_cluster {i : Instr} {t : State} (h : Serves s) (hexec : exec i s = serving s t) {ps : List Part}
    (hu : Changes [] ps s u) (ht : Conveys [] u t)
    (hps : ∀ p ∈ [Part.out, .hif, .sw, .ports, .ras, .answers], p ∈ ps := by decide) :
    Gives i s (fun t => t.coh = u.coh ∧ RegsBut [] s t ∧ PartsBut ps s t) :=
  gives_serving hexec h ⟨ht.coh_eq, (hu.trans (ht.changes.weaken (by simp) hps)).after⟩

theorem conveys_snpRsp (c : Nat) (m : Msg) (result : Nat) (data : Option Nat) (s : State) :
    Conveys [] s (s.snpRsp c m result data) := conveys_send _ _ _

theorem conveys_passLine (c : Nat) (m : Msg) (grant data : Nat) (s : State) : Conveys [] s (s.passLine c m grant data) :=
  conveys_send _ _ _

theorem State.lines_setLine (c line : Nat) (r : Option CLine) (s : State) :
    (s.setLine c line r).coh.lines.get? [c, line] = r := by
  cases r with
  | none => exact Map.get?_erase_same _ _
  | some l => exact Map.get?_set_same _ _ _

theorem changes_setLine (c line : Nat) (r : Option CLine) (s : State) : Changes [] [.coh] s (s.setLine c line r) :=
  changes_inCoh _ s

/-! ### Snoops (R150, R151) -/

/-- R150: serving a snoop changes the line to `r`, and sends. -/
def ServesLine (c : Nat) (m : Msg) (r : Option CLine) (s : State) : Prop :=
  Conveys [] (s.setLine c (lineAt m) r) (s.serveSnoop c m)

theorem servesLine_shared {l : CLine} (hty : m.ty = 0x48 ∨ m.ty = 0x4B)
    (hline : s.coh.lines.get? [c, lineAt m] = some l) (howned : 2 ≤ l.st) :
    ServesLine c m (some { l with st := 1 }) s := by
  rw [ServesLine, State.serveSnoop, hline]
  rcases hty with hty | hty
  · simp only [hty, if_pos howned]
    exact (conveys_passLine _ _ _ _ _).trans (conveys_snpRsp _ _ _ _ _)
  · simp only [hty, if_pos howned]
    exact conveys_snpRsp _ _ _ _ _

theorem servesLine_passed {l : CLine} (hty : m.ty = 0x49) (hline : s.coh.lines.get? [c, lineAt m] = some l)
    (howned : 2 ≤ l.st) : ServesLine c m none s := by
  rw [ServesLine, State.serveSnoop, hline]
  simp only [hty, if_pos howned]
  exact (conveys_passLine _ _ _ _ _).trans (conveys_snpRsp _ _ _ _ _)

theorem servesLine_invalidated {l : CLine} (hty : m.ty = 0x4A) (hline : s.coh.lines.get? [c, lineAt m] = some l) :
    ServesLine c m none s := by
  rw [ServesLine, State.serveSnoop, hline]
  simp only [hty]
  exact conveys_snpRsp _ _ _ _ _

/-- A snoop of a line without an outstanding request is served as it comes. -/
theorem gives_snoop_served {i : Instr} {r : Option CLine} (h : Serves s) (hexec : exec i s = serving s (s.snoopArrives c m))
    (hfree : s.coh.want.get? [c, lineAt m] = none) (hserve : ∀ u : State, u.coh = s.coh → ServesLine c m r u) :
    Gives i s (fun t => t.coh.lines.get? [c, lineAt m] = r ∧ RegsBut [] s t ∧
      PartsBut [.out, .hif, .sw, .ports, .ras, .answers, .coh] s t) := by
  have htaken := conveys_consume (l := []) (dieOfCluster c) m s
  rw [State.snoopArrives] at hexec
  dsimp only at hexec
  rw [htaken.coh_eq, hfree] at hexec
  obtain ⟨t, hgives, hcoh, hframe⟩ := gives_cluster h hexec
    ((htaken.changes.weaken (by simp)).trans ((changes_setLine c (lineAt m) r _).weaken (by simp)))
    (hserve _ htaken.coh_eq) (ps := [.out, .hif, .sw, .ports, .ras, .answers, .coh])
  exact ⟨t, hgives, by rw [hcoh, State.lines_setLine], hframe⟩

theorem gives_snoop_shared {i : Instr} {l : CLine} (h : Serves s) (hexec : exec i s = serving s (s.snoopArrives c m))
    (hty : m.ty = 0x48 ∨ m.ty = 0x4B) (hfree : s.coh.want.get? [c, lineAt m] = none)
    (hline : s.coh.lines.get? [c, lineAt m] = some l) (howned : 2 ≤ l.st) :
    Gives i s (fun t => t.coh.lines.get? [c, lineAt m] = some { l with st := 1 } ∧ RegsBut [] s t ∧
      PartsBut [.out, .hif, .sw, .ports, .ras, .answers, .coh] s t) :=
  gives_snoop_served h hexec hfree (fun _ hcoh => servesLine_shared hty (by rw [hcoh, hline]) howned)

theorem gives_fwdX (h : Serves s) {l : CLine} (hty : m.ty = 0x49) (hfree : s.coh.want.get? [c, lineAt m] = none)
    (hline : s.coh.lines.get? [c, lineAt m] = some l) (howned : 2 ≤ l.st) :
    Gives (.fwdX c m) s (fun t => t.coh.lines.get? [c, lineAt m] = none ∧ RegsBut [] s t ∧
      PartsBut [.out, .hif, .sw, .ports, .ras, .answers, .coh] s t) :=
  gives_snoop_served h (congrArg (serving s) (if_pos hty)) hfree
    (fun _ hcoh => servesLine_passed hty (by rw [hcoh, hline]) howned)

theorem gives_snpInv (h : Serves s) {l : CLine} (hty : m.ty = 0x4A) (hfree : s.coh.want.get? [c, lineAt m] = none)
    (hline : s.coh.lines.get? [c, lineAt m] = some l) :
    Gives (.snpInv c m) s (fun t => t.coh.lines.get? [c, lineAt m] = none ∧ RegsBut [] s t ∧
      PartsBut [.out, .hif, .sw, .ports, .ras, .answers, .coh] s t) :=
  gives_snoop_served h (congrArg (serving s) (if_pos hty)) hfree
    (fun _ hcoh => servesLine_invalidated hty (by rw [hcoh, hline]))

theorem gives_snpInv_held (h : Serves s) {w : Want} (hty : m.ty = 0x4A) (hwant : s.coh.want.get? [c, lineAt m] = some w) :
    Gives (.snpInv c m) s (fun t => t.coh.want.get? [c, lineAt m] = some { w with held := w.held ++ [m] } ∧
      t.coh.lines = s.coh.lines ∧ RegsBut [] s t ∧ PartsBut [.out, .hif, .sw, .ports, .ras, .answers, .coh] s t) := by
  have hexec : exec (.snpInv c m) s = serving s (s.snoopArrives c m) := congrArg (serving s) (if_pos hty)
  have htaken := conveys_consume (l := []) (dieOfCluster c) m s
  rw [State.snoopArrives] at hexec
  dsimp only at hexec
  rw [htaken.coh_eq, hwant] at hexec
  obtain ⟨t, hgives, hcoh, hframe⟩ := gives_cluster h hexec ((htaken.changes.weaken (by simp)).inCoh _)
    (Conveys.refl _ _) (ps := [.out, .hif, .sw, .ports, .ras, .answers, .coh])
  exact ⟨t, hgives, by rw [hcoh]; exact Map.get?_set_same _ _ _, by rw [hcoh], hframe⟩

/-! ### Data and grants (R151) -/

theorem State.wantOf_of_coh (hcoh : u.coh = s.coh) (c tag : Nat) : u.wantOf c tag = s.wantOf c tag := by
  rw [State.wantOf, hcoh, State.wantOf]

theorem changes_drew (s : State) : Changes [] [.fresh] s s.drew := by
  refine ⟨fun _ _ _ _ => rfl, fun p hn => ?_, fun _ _ _ => rfl⟩
  cases p
  case fresh => exact absurd List.mem_cons_self hn
  all_goals rfl

/-- A request that holds no snoop is over once its line is granted: a load takes the state and the data that came. -/
theorem State.granted_load {w : Want} (hty : w.ty = 0x40) (hheld : w.held = []) (st data : Nat) :
    s.granted c line w st data = { s with coh := { s.coh with
      lines := s.coh.lines.set [c, line] { st := st, data := data }, want := s.coh.want.erase [c, line] } } := by
  rw [State.granted, hheld]
  simp [hty, State.setLine]

/-- Whatever a request without held snoops is granted, its line is in the state granted, or modified by its store. -/
theorem State.granted_unheld {w : Want} (hheld : w.held = []) (st data : Nat) :
    ∃ l : CLine, (l.st = st ∨ l.st = 3) ∧ Changes [] [.coh, .fresh] s (s.granted c line w st data) ∧
      (s.granted c line w st data).coh = { s.coh with
        lines := s.coh.lines.set [c, line] l, want := s.coh.want.erase [c, line] } := by
  by_cases hty : w.ty = 0x40
  · rw [State.granted_load hty hheld]
    exact ⟨_, .inl rfl, (Changes.refl _ _ s).inCoh _, rfl⟩
  · refine ⟨{ st := 3, data := s.freeVal % 2 ^ 1024 }, .inr rfl, ?_⟩
    rw [State.granted, hheld]
    simp only [hty, ne_eq, not_false_eq_true, decide_true, if_true, List.foldl_nil]
    exact ⟨(((changes_drew s).weaken (by simp)).inCoh _).inCoh _, rfl⟩

theorem gives_cdata_load (h : Serves s) {w : Want} (hty : m.ty = 0x50) (hwant : s.wantOf c (m.f 0 0 32) = some (line, w))
    (hload : w.ty = 0x40) (hheld : w.held = []) (hgrant : m.f 4 0 2 ≠ 0) :
    Gives (.cdata c m) s (fun t => t.coh.lines.get? [c, line] = some { st := m.f 4 0 2, data := m.f 16 0 1024 } ∧
      t.coh.want.has [c, line] = false ∧ RegsBut [] s t ∧ PartsBut [.out, .hif, .sw, .ports, .ras, .answers, .coh] s t) := by
  have htaken := conveys_consume (l := []) (dieOfCluster c) m s
  have hexec : exec (.cdata c m) s =
      serving s ((s.consume (dieOfCluster c) m).granted c line w (m.f 4 0 2) (m.f 16 0 1024)) := by
    refine congrArg (serving s) ((if_neg (not_not_intro hty)).trans ?_)
    dsimp only
    rw [State.wantOf_of_coh htaken.coh_eq, hwant]
    exact if_neg hgrant
  rw [State.granted_load hload hheld] at hexec
  obtain ⟨t, hgives, hcoh, hframe⟩ := gives_cluster h hexec ((htaken.changes.weaken (by simp)).inCoh _)
    (Conveys.refl _ _) (ps := [.out, .hif, .sw, .ports, .ras, .answers, .coh])
  exact ⟨t, hgives, by rw [hcoh]; exact Map.get?_set_same _ _ _, by rw [hcoh]; exact Map.has_erase_same _ _, hframe⟩

theorem gives_cdata_refused (h : Serves s) {w : Want} (hty : m.ty = 0x50)
    (hwant : s.wantOf c (m.f 0 0 32) = some (line, w)) (hheld : w.held = []) (hgrant : m.f 4 0 2 = 0) :
    Gives (.cdata c m) s (fun t => t.coh.lines.has [c, line] = false ∧ t.coh.want.has [c, line] = false ∧ RegsBut [] s t ∧
      PartsBut [.out, .hif, .sw, .ports, .ras, .answers, .coh] s t) := by
  have htaken := conveys_consume (l := []) (dieOfCluster c) m s
  have hexec : exec (.cdata c m) s = serving s { s.consume (dieOfCluster c) m with coh :=
      { (s.consume (dieOfCluster c) m).coh with
        want := (s.consume (dieOfCluster c) m).coh.want.erase [c, line]
        lines := (s.consume (dieOfCluster c) m).coh.lines.erase [c, line] } } := by
    refine congrArg (serving s) ((if_neg (not_not_intro hty)).trans ?_)
    dsimp only
    rw [State.wantOf_of_coh htaken.coh_eq, hwant]
    dsimp only
    rw [if_pos hgrant, hheld]
    rfl
  obtain ⟨t, hgives, hcoh, hframe⟩ := gives_cluster h hexec ((htaken.changes.weaken (by simp)).inCoh _)
    (Conveys.refl _ _) (ps := [.out, .hif, .sw, .ports, .ras, .answers, .coh])
  exact ⟨t, hgives, by rw [hcoh]; exact Map.has_erase_same _ _, by rw [hcoh]; exact Map.has_erase_same _ _, hframe⟩

theorem gives_cgntX (h : Serves s) {w : Want} (hty : m.ty = 0x51) (hwant : s.wantOf c (m.f 0 0 32) = some (line, w))
    (hheld : w.held = []) :
    Gives (.cgntX c m) s (fun t => (t.coh.lines.get? [c, line]).map (·.st) = some 3 ∧ t.coh.want.has [c, line] = false ∧
      RegsBut [] s t ∧ PartsBut [.out, .hif, .sw, .ports, .ras, .answers, .coh, .fresh] s t) := by
  have htaken := conveys_consume (l := []) (dieOfCluster c) m s
  have hexec : exec (.cgntX c m) s = serving s ((s.consume (dieOfCluster c) m).granted c line w 3 0) := by
    refine congrArg (serving s) ((if_neg (not_not_intro hty)).trans ?_)
    dsimp only
    rw [State.wantOf_of_coh htaken.coh_eq, hwant]
  obtain ⟨l, hst, hgranted, hafter⟩ := State.granted_unheld (s := s.consume (dieOfCluster c) m) (c := c) (line := line)
    hheld 3 0
  obtain ⟨t, hgives, hcoh, hframe⟩ := gives_cluster h hexec
    ((htaken.changes.weaken (by simp)).trans (hgranted.weaken (by simp))) (Conveys.refl _ _)
    (ps := [.out, .hif, .sw, .ports, .ras, .answers, .coh, .fresh])
  refine ⟨t, hgives, ?_, ?_, hframe⟩
  · rw [hcoh, hafter, Map.get?_set_same, Option.map_some, hst.elim id id]
  · rw [hcoh, hafter]
    exact Map.has_erase_same _ _

/-- Settles O19: taking the message from the input leaves the cluster's tables, the table of R150 or the grant then changes
the one line and the one request, and all that follows is sending. -/
theorem cachingClusters : Obligations.CachingClusters :=
  fun s h => ⟨fun _ _ _ hty => gives_snoop_shared h (congrArg (serving s) (if_pos hty)) (.inl hty),
    fun _ _ _ => gives_fwdX h, fun _ _ _ => gives_snpInv h, fun _ _ _ => gives_snpInv_held h,
    fun _ _ _ hty => gives_snoop_shared h (congrArg (serving s) (if_pos hty)) (.inr hty),
    fun _ _ _ _ => gives_cdata_load h, fun _ _ _ _ => gives_cdata_refused h, fun _ _ _ _ => gives_cgntX h⟩

end Sys2Proof.Machine
end

section
/-! LAWS. Upkeep of the directory (R145, R152, R157 to R159): what changing records, chains and snoops leaves as it is, and
what ends with an agent's answer or death where nothing else waits. -/

namespace Sys2Proof.Machine

open Sys2Proof.Safety

variable {s t u : State}

/-! ### Agents of a domain (R140) -/

/-- The fields of a member slot. -/
def memberFields : List Fld := [R.COH_MEMBER_valid, R.COH_MEMBER_kind, R.COH_MEMBER_eid, R.COH_MEMBER_cluster]

theorem Changes.agentAt {l : List Fld} {ps : List Part} (h : Changes l ps s t) (dom a : Nat)
    (hl : ∀ f ∈ memberFields, ∀ g ∈ l, f.num ≠ g.num := by decide) : t.agentAt dom a = s.agentAt dom a := by
  simp only [memberFields, List.forall_mem_cons] at hl
  obtain ⟨hvalid, hkind, heid, hcluster, -⟩ := hl
  rw [State.agentAt, State.on, State.on, h.rd R.COH_MEMBER_valid _ (hl := hvalid), h.rd R.COH_MEMBER_kind _ (hl := hkind),
    h.rd R.COH_MEMBER_eid _ (hl := heid), h.rd R.COH_MEMBER_cluster _ (hl := hcluster), State.agentAt, State.on, State.on]

theorem Changes.slotFor {l : List Fld} {ps : List Part} (h : Changes l ps s t) (dom agent : Nat)
    (hl : ∀ f ∈ memberFields, ∀ g ∈ l, f.num ≠ g.num := by decide) : t.slotFor dom agent = s.slotFor dom agent := by
  simp only [State.slotFor, h.lists R.COH_MEMBER_valid (by decide) (hl _ (by decide)), h.agentAt dom _ hl]

/-! ### Nothing waits (R121, R142, R172) -/

theorem State.turns_unqueued (hflow : s.trk.flowWait = []) : s.turns = s := by
  rw [State.turns, hflow, List.length_nil, State.advance]

theorem State.settleBindings_resolved (h : Resolved s) : s.settleBindings = s := by
  obtain ⟨hunbinding, hrevs, hflow⟩ := h
  have hrecall : s.recallRest = s := by
    simp [State.recallRest, Map.keys, Map.vals, hunbinding, hrevs]
  rw [State.settleBindings, State.turns_unqueued hflow, hrecall, hunbinding, List.foldl_nil]

/-! ### Records, chains and snoops -/

/-- Only records, broken chains and snoops of the directory differ, poisoned lines, and what reports; no event is lost. -/
structure Tends (s t : State) : Prop where
  frame : Changes [] [.coh, .poison, .out, .hif] s t
  events : EventsStay s t
  coh : ∃ r b n, t.coh = { s.coh with recs := r, broken := b, snoops := n }

theorem Tends.refl (s : State) : Tends s s := ⟨Changes.refl _ _ s, EventsStay.refl s, _, _, _, rfl⟩

theorem Tends.trans (h₁ : Tends s t) (h₂ : Tends t u) : Tends s u := by
  obtain ⟨r, b, n, hcoh₁⟩ := h₁.coh
  obtain ⟨r', b', n', hcoh₂⟩ := h₂.coh
  exact ⟨h₁.frame.trans h₂.frame, h₁.events.trans h₂.events, r', b', n', by rw [hcoh₂, hcoh₁]⟩

theorem Tends.ite {a b : State} {c : Prop} [Decidable c] (ha : Tends s a) (hb : Tends s b) :
    Tends s (if c then a else b) := by
  split
  · exact ha
  · exact hb

theorem Tends.foldl {α : Type} (g : State → α → State) (hg : ∀ s a, Tends s (g s a)) (xs : List α) (s : State) :
    Tends s (xs.foldl g s) := by
  induction xs generalizing s with
  | nil => exact Tends.refl s
  | cons x xs ih => exact (hg s x).trans (ih (g s x))

theorem Tends.dead_eq (h : Tends s t) : t.coh.dead = s.coh.dead := by
  obtain ⟨r, b, n, hcoh⟩ := h.coh
  rw [hcoh]

theorem Tends.walks_eq (h : Tends s t) : t.coh.walks = s.coh.walks := by
  obtain ⟨r, b, n, hcoh⟩ := h.coh
  rw [hcoh]

theorem Tends.members_eq (h : Tends s t) : t.coh.members = s.coh.members := by
  obtain ⟨r, b, n, hcoh⟩ := h.coh
  rw [hcoh]

theorem Tends.resolved (h : Tends s t) (hs : Resolved s) : Resolved t := by
  obtain ⟨hunbinding, hrevs, hflow⟩ := hs
  obtain ⟨r, b, n, hcoh⟩ := h.coh
  exact ⟨by rw [hcoh, hunbinding], by rw [show t.pool = s.pool from h.frame.parts .pool (by decide), hrevs],
    by rw [show t.trk = s.trk from h.frame.parts .trk (by decide), hflow]⟩

theorem tends_setRec (line : Nat) (r : Rec) (s : State) : Tends s (s.setRec line r) :=
  ⟨(changes_inCoh _ s).weaken (by simp), EventsStay.of_regs rfl, _, _, _, rfl⟩

theorem tends_closeSnoop (tag : Nat) (s : State) : Tends s (s.closeSnoop tag) :=
  ⟨(changes_inCoh _ s).weaken (by simp), EventsStay.of_regs rfl, _, _, _, rfl⟩

theorem tends_bumpBy (ix : List Nat) (n : Nat) (s : State) : Tends s (s.bumpBy R.COH_CNT_count ix n) :=
  ⟨(changes_bumpBy ix n s).weaken (by simp), eventsStay_wr _ _ s, _, _, _, State.bumpBy_coh_eq _ _ _ s⟩

theorem tends_event (blk b : Nat) (s : State) : Tends s (s.event blk b) :=
  ⟨(Changes.refl _ _ s).told ((Told.refl s).event blk b), eventsStay_event blk b s, _, _, _, State.event_coh_eq _ _ s⟩

theorem tends_setPoison (line : Nat) (p : Bool) (s : State) : Tends s (s.setPoison line p) := by
  refine ⟨⟨fun _ _ _ _ => rfl, fun q hq => ?_, fun _ _ _ => rfl⟩, EventsStay.of_regs rfl, _, _, _, rfl⟩
  cases q
  case poison => exact absurd (by decide) hq
  all_goals rfl

theorem tends_reclaimPoison (line : Nat) (s : State) : Tends s (s.reclaimPoison line) :=
  ((tends_setPoison line true s).trans (tends_bumpBy _ 1 _)).trans (tends_event _ _ _)

theorem tends_breakChain (line : Nat) (s : State) : Tends s (s.breakChain line) :=
  Tends.ite (Tends.refl s) ((tends_reclaimPoison line s).trans
    ⟨(changes_inCoh _ _).weaken (by simp), EventsStay.of_regs rfl, _, _, _, rfl⟩)

theorem tends_reclaimLine (dom line : Nat) (s : State) : Tends s (s.reclaimLine dom line) := by
  unfold State.reclaimLine
  split
  case h_1 => exact Tends.refl s
  case h_2 => exact (tends_setRec _ _ s).trans (tends_bumpBy _ _ _)
  case h_3 =>
    exact Tends.ite (Tends.refl s) (Tends.ite (tends_breakChain line s)
      ((Tends.ite (Tends.refl s) (tends_reclaimPoison line s)).trans (tends_setRec _ _ _)))

theorem tends_dropSlot (line a : Nat) (s : State) : Tends s (s.dropSlot line a) := by
  unfold State.dropSlot
  split
  case h_1 => exact tends_setRec _ _ s
  case h_2 => exact Tends.ite (tends_setRec _ _ s) (Tends.refl s)
  case h_3 => exact Tends.refl s

/-- R142: the answer to a recall that no request waits for closes the snoop and takes its slot off the record. -/
theorem State.answered_recall {tag : Nat} {sn : Snoop} (hkind : sn.kind = 0x4A) (hhome : sn.home = none)
    (held lost : Bool) (s : State) :
    s.answered tag sn held lost =
      (if lost then (s.closeSnoop tag).reclaimPoison sn.line else s.closeSnoop tag).dropSlot sn.line sn.slot := by
  rw [State.answered, hkind, hhome]
  rfl

/-- Taking a slot off a record leaves every snoop. -/
theorem State.snoops_dropSlot (line a : Nat) (s : State) : (s.dropSlot line a).coh.snoops = s.coh.snoops := by
  unfold State.dropSlot
  split
  case h_2 => split <;> rfl
  all_goals rfl

theorem State.snoops_reclaimPoison (line : Nat) (s : State) : (s.reclaimPoison line).coh.snoops = s.coh.snoops := by
  rw [State.reclaimPoison, State.event_coh_eq, State.bump_coh_eq, State.setPoison]

theorem State.has_answered_recall {tag : Nat} {sn : Snoop} (hkind : sn.kind = 0x4A) (hhome : sn.home = none)
    (held lost : Bool) (s : State) : (s.answered tag sn held lost).coh.snoops.has [tag] = false := by
  rw [State.answered_recall hkind hhome, State.snoops_dropSlot]
  split
  · rw [State.snoops_reclaimPoison]
    exact Map.has_erase_same _ _
  · exact Map.has_erase_same _ _

theorem tends_answered_recall {tag : Nat} {sn : Snoop} (hkind : sn.kind = 0x4A) (hhome : sn.home = none) (held lost : Bool)
    (s : State) : Tends s (s.answered tag sn held lost) := by
  have hclosed := tends_closeSnoop tag s
  rw [State.answered_recall hkind hhome]
  exact (Tends.ite (hclosed.trans (tends_reclaimPoison _ _)) hclosed).trans (tends_dropSlot _ _ _)

end Sys2Proof.Machine
end

section
/-! PROOF. The statement on the death of caching agents and the end of the walk that follows (R157 to R159). -/

namespace Sys2Proof.Machine

open Sys2Proof.Safety

variable {s t u : State} {dom a cause agent : Nat}

/-! ### An agent declared dead (R157, R158) -/

/-- The registers that show a reclaim walk. -/
def reclaimInfo : List Fld :=
  [R.COH_RECLAIM_INFO_domain, R.COH_RECLAIM_INFO_slot, R.COH_RECLAIM_INFO_cause, R.COH_RECLAIM_INFO_done]

/-- A walk shown, and its event raised. -/
def State.walkShown (dom a cause : Nat) (s : State) : State :=
  ((((s.wr R.COH_RECLAIM_INFO_domain [] dom).wr R.COH_RECLAIM_INFO_slot [] a).wr R.COH_RECLAIM_INFO_cause [] cause).wr
    R.COH_RECLAIM_INFO_done [] 0).event B.coh 0

theorem changes_walkShown (dom a cause : Nat) (s : State) : Changes reclaimInfo [.out, .hif] s (s.walkShown dom a cause) :=
  ((((((Changes.refl _ _ s).wr (by simp [reclaimInfo]) _ _).wr (by simp [reclaimInfo]) _ _).wr (by simp [reclaimInfo]) _ _).wr
    (by simp [reclaimInfo]) _ _).told ((Told.refl _).event B.coh 0))

theorem eventsStay_walkShown (dom a cause : Nat) (s : State) : EventsStay s (s.walkShown dom a cause) :=
  ((((eventsStay_wr _ _ s).trans (eventsStay_wr _ _ _)).trans (eventsStay_wr _ _ _)).trans (eventsStay_wr _ _ _)).trans
    (eventsStay_event B.coh 0 _)

/-- The agent is dead in the domain, its reclaim walk has begun and is shown with its cause, no event is lost, and what
waits nowhere before waits nowhere after. -/
structure DeclaredDead (ps : List Part) (dom a cause : Nat) (s t : State) : Prop where
  frame : Changes reclaimInfo ps s t
  events : EventsStay s t
  dead : t.isDead dom a = true
  walks : t.coh.walks.has [dom, a] = true
  domain : t.rd R.COH_RECLAIM_INFO_domain [] = dom % 2 ^ 8
  slot : t.rd R.COH_RECLAIM_INFO_slot [] = a % 2 ^ 5
  cause : t.rd R.COH_RECLAIM_INFO_cause [] = cause % 2 ^ 3
  unfinished : t.rd R.COH_RECLAIM_INFO_done [] = 0
  signalled : bitAt (t.rd R.COH_EVT_events []) 0 = true
  resolved : Resolved t

/-- Upkeep of the directory leaves an agent declared dead. -/
theorem DeclaredDead.tends {ps : List Part} (h : DeclaredDead ps dom a cause s t) (ht : Tends t u)
    (hp : ∀ p ∈ [Part.coh, .poison, .out, .hif], p ∈ ps := by decide) : DeclaredDead ps dom a cause s u where
  frame := h.frame.trans (ht.frame.weaken (by simp) hp)
  events := h.events.trans ht.events
  dead := by rw [State.isDead, ht.dead_eq]; exact h.dead
  walks := by rw [ht.walks_eq, h.walks]
  domain := (ht.frame.rd R.COH_RECLAIM_INFO_domain []).trans h.domain
  slot := (ht.frame.rd R.COH_RECLAIM_INFO_slot []).trans h.slot
  cause := (ht.frame.rd R.COH_RECLAIM_INFO_cause []).trans h.cause
  unfinished := (ht.frame.rd R.COH_RECLAIM_INFO_done []).trans h.unfinished
  signalled := ht.events R.COH_EVT_events (by decide) 0 (by decide) h.signalled
  resolved := ht.resolved h.resolved

theorem DeclaredDead.weaken {ps ps' : List Part} (h : DeclaredDead ps dom a cause s t)
    (hp : ∀ p ∈ ps, p ∈ ps' := by decide) : DeclaredDead ps' dom a cause s t :=
  { h with frame := h.frame.weaken (fun _ hf => hf) hp }

/-- What stands in the coherence tables, the home entries, the pool and the tiers is no register. -/
def State.inTables (k : Coh) (trk : Trk) (pool : Pool) (tier : Tier) (s : State) : State :=
  { s with coh := k, trk := trk, pool := pool, tier := tier }

theorem changes_inTables (k : Coh) (trk : Trk) (pool : Pool) (tier : Tier) (s : State) :
    Changes [] [.coh, .trk, .pool, .tier] s (s.inTables k trk pool tier) :=
  ((((Changes.refl _ _ s).inCoh k).inTrk trk).inPool pool).inTier tier

/-- Dropping the requests whose home entries are gone changes tables alone, where none waits for its turn. -/
theorem State.purge_unqueued (hflow : s.trk.flowWait = []) :
    ∃ w q tier, s.purge =
      s.inTables { s.coh with wait := w } { s.trk with flowWait := [] } { s.pool with limitQ := q } tier := by
  rw [State.purge, State.turns_unqueued (by simp [hflow])]
  simp only [hflow, List.filter_nil]
  exact ⟨_, _, _, rfl⟩

/-- An open snoop to the agent that died: one that a writeback has crossed closes, another is taken as answered (R158). -/
def State.snoopOfDead (s : State) (e : Key × Snoop) : State :=
  if e.2.crossed then (s.closeSnoop (e.1.headD 0)).settleChain e.2.line
  else s.answered (e.1.headD 0) e.2 false (s.wasOwner e.2)

/-- The agent marked dead, its walk begun, and its own requests dropped. -/
def State.markDead (dom a agent : Nat) (s : State) : State :=
  s.inTables { s.coh with dead := s.coh.dead.set [dom, a] (), walks := s.coh.walks.set [dom, a] () }
    { s.trk with home := s.trk.home.keep (fun _ h =>
        ¬ (isCoherent h.msg.ty && decide (h.msg.src = agent ∧ h.msg.f 0 56 8 = dom))) } s.pool s.tier

/-- While no line is busy, the death of an agent shows and marks it, and goes on with its snoops. -/
theorem State.declareDead_idle (hagent : s.agentAt dom a = some agent) (hlive : s.isDead dom a = false)
    (hidle : s.coh.busy.entries = []) :
    s.declareDead dom a cause = (((s.walkShown dom a cause).markDead dom a agent).purge.coh.snoops.entries.filter
      (fun e => decide (e.2.dom = dom ∧ e.2.slot = a))).foldl State.snoopOfDead
        ((s.walkShown dom a cause).markDead dom a agent).purge := by
  have hcoh : (s.walkShown dom a cause).coh = s.coh := (changes_walkShown dom a cause s).parts .coh (by decide)
  rw [State.declareDead, hagent]
  dsimp only
  rw [if_neg (by simp [hlive])]
  simp only [State.event_coh_eq, State.wr_coh_eq, hidle, List.filter_nil, List.map_nil, List.foldl_nil]
  simp only [State.markDead, hcoh]
  rfl

theorem declaredDead_purged (hresolved : Resolved s) :
    DeclaredDead [.coh, .trk, .pool, .tier, .out, .hif] dom a cause s
      ((s.walkShown dom a cause).markDead dom a agent).purge ∧
      ((s.walkShown dom a cause).markDead dom a agent).purge.coh.snoops = s.coh.snoops := by
  have hshown := changes_walkShown dom a cause s
  have hevents := eventsStay_walkShown dom a cause s
  have hcoh : (s.walkShown dom a cause).coh = s.coh := hshown.parts .coh (by decide)
  have hpool : (s.walkShown dom a cause).pool = s.pool := hshown.parts .pool (by decide)
  have htrk : (s.walkShown dom a cause).trk = s.trk := hshown.parts .trk (by decide)
  have hsignalled : bitAt ((s.walkShown dom a cause).rd R.COH_EVT_events []) 0 = true :=
    State.event_raises (blk := B.coh) (b := 0) _ (by decide)
  have hrd : (s.walkShown dom a cause).rd R.COH_RECLAIM_INFO_domain [] = dom % 2 ^ 8 ∧
      (s.walkShown dom a cause).rd R.COH_RECLAIM_INFO_slot [] = a % 2 ^ 5 ∧
      (s.walkShown dom a cause).rd R.COH_RECLAIM_INFO_cause [] = cause % 2 ^ 3 ∧
      (s.walkShown dom a cause).rd R.COH_RECLAIM_INFO_done [] = 0 := by
    simp (disch := decide) only [State.walkShown, State.rd_event_other, State.rd_wr_num, State.rd_wr_same]
    exact ⟨rfl, rfl, rfl, rfl⟩
  generalize s.walkShown dom a cause = v at hshown hevents hcoh hpool htrk hsignalled hrd ⊢
  obtain ⟨hunbinding, hrevs, hflow⟩ := hresolved
  obtain ⟨hdomain, hslot, hcause, hdone⟩ := hrd
  obtain ⟨w, q, tier, hpurge⟩ := (v.markDead dom a agent).purge_unqueued (by rw [← hflow, ← htrk]; rfl)
  rw [hpurge]
  refine ⟨⟨?_, hevents, Map.has_set_same _ _ _, Map.has_set_same _ _ _, hdomain, hslot, hcause, hdone, hsignalled,
    by rw [← hunbinding, ← hcoh]; rfl, by rw [← hrevs, ← hpool]; rfl, rfl⟩, by rw [← hcoh]; rfl⟩
  exact (hshown.weaken (fun _ hf => hf)).trans
    (((changes_inTables _ _ _ _ v).trans (changes_inTables _ _ _ _ _)).weaken (by simp))

/-- R158: an agent without an open snoop is declared dead by what is shown and marked alone. -/
theorem declaredDead_unsnooped (hagent : s.agentAt dom a = some agent) (hlive : s.isDead dom a = false)
    (hsnoops : ∀ e ∈ s.coh.snoops.entries, e.2.dom = dom → e.2.slot ≠ a) (hidle : s.coh.busy.entries = [])
    (hresolved : Resolved s) :
    DeclaredDead [.coh, .trk, .pool, .tier, .out, .hif] dom a cause s (s.declareDead dom a cause) := by
  obtain ⟨hpurged, hkept⟩ := declaredDead_purged (dom := dom) (a := a) (cause := cause) (agent := agent) hresolved
  have hnone : s.coh.snoops.entries.filter (fun e => decide (e.2.dom = dom ∧ e.2.slot = a)) = [] :=
    List.filter_eq_nil_iff.mpr (fun e he => by simpa using hsnoops e he)
  rwa [State.declareDead_idle hagent hlive hidle, hkept, hnone, List.foldl_nil]

/-- R157, R158: the one open snoop, a recall's to the agent that died, closes as answered. -/
theorem declaredDead_recalled {tag : Nat} {sn : Snoop} (hsnoops : s.coh.snoops.entries = [([tag], sn)])
    (hkind : sn.kind = 0x4A) (hhome : sn.home = none) (hcrossed : sn.crossed = false)
    (hagent : s.agentAt sn.dom sn.slot = some agent) (hlive : s.isDead sn.dom sn.slot = false)
    (hidle : s.coh.busy.entries = []) (hresolved : Resolved s) :
    DeclaredDead [.coh, .trk, .pool, .tier, .poison, .out, .hif] sn.dom sn.slot cause s
        (s.declareDead sn.dom sn.slot cause) ∧
      (s.declareDead sn.dom sn.slot cause).coh.snoops.has [tag] = false := by
  obtain ⟨hpurged, hkept⟩ :=
    declaredDead_purged (dom := sn.dom) (a := sn.slot) (cause := cause) (agent := agent) hresolved
  have hone : s.coh.snoops.entries.filter (fun e => decide (e.2.dom = sn.dom ∧ e.2.slot = sn.slot)) = [([tag], sn)] := by
    simp [hsnoops]
  have hanswered (u : State) : State.snoopOfDead u ([tag], sn) = u.answered tag sn false (u.wasOwner sn) :=
    if_neg (by simp [hcrossed])
  rw [State.declareDead_idle hagent hlive hidle, hkept, hone, List.foldl_cons, List.foldl_nil, hanswered]
  exact ⟨hpurged.weaken.tends (tends_answered_recall hkind hhome _ _ _), State.has_answered_recall hkind hhome _ _ _⟩

/-- R157: an agent that holds one slot in one domain is declared dead there. -/
theorem State.declareAgent_one (hlisted : s.listed R.COH_MEMBER_valid = [[dom, a]]) (hagent : s.agentAt dom a = some agent) :
    s.declareAgent agent cause = s.declareDead dom a cause := by
  rw [State.declareAgent, hlisted]
  exact if_pos hagent

/-! ### The clauses -/

theorem gives_declareDead (h : Applies s B.coh) (hdom : dom < 256) (hslot : a < 32) (hagent : s.agentAt dom a = some agent)
    (hlive : s.isDead dom a = false) (hsnoops : ∀ e ∈ s.coh.snoops.entries, e.2.dom = dom → e.2.slot ≠ a)
    (hidle : s.coh.busy.entries = []) (hresolved : Resolved s) :
    Gives (.declareDead dom a) s (fun t => t.isDead dom a = true ∧ t.coh.walks.has [dom, a] = true ∧
      t.rd R.COH_RECLAIM_INFO_domain [] = dom ∧ t.rd R.COH_RECLAIM_INFO_slot [] = a ∧
      t.rd R.COH_RECLAIM_INFO_cause [] = 0 ∧ t.rd R.COH_RECLAIM_INFO_done [] = 0 ∧
      bitAt (t.rd R.COH_EVT_events []) 0 = true ∧ t.answers = s.answers ++ [(0x0304, .ok)] ∧
      RegsBut [R.COH_RECLAIM_INFO_domain, R.COH_RECLAIM_INFO_slot, R.COH_RECLAIM_INFO_cause, R.COH_RECLAIM_INFO_done] s t ∧
      PartsBut [.coh, .trk, .pool, .tier, .out, .hif, .answers] s t) := by
  have hdead := declaredDead_unsnooped (cause := 0) hagent hlive hsnoops hidle hresolved
  have hcmd : s.cmdDeclareDead dom a = (.ok, s.declareDead dom a 0) := by
    rw [State.cmdDeclareDead, State.settleBindings_resolved hdead.resolved]
  exact gives_applied (op := 0x0304) h hcmd hdead.frame rfl
    ⟨hdead.dead, hdead.walks, hdead.domain.trans (Nat.mod_eq_of_lt hdom), hdead.slot.trans (Nat.mod_eq_of_lt hslot),
      hdead.cause, hdead.unfinished, hdead.signalled, hdead.frame.answers_listAnswer _ _,
      ((hdead.frame.listAnswer 0x0304 .ok).weaken (fun _ hf => hf)
        (ps' := [.coh, .trk, .pool, .tier, .out, .hif, .answers])).after⟩

theorem gives_snoopTimeout (h : Serves s) {d tag : Nat} {sn : Snoop} (hsnoops : s.coh.snoops.entries = [([tag], sn)])
    (hdue : 1000 * s.rd R.COH_TIMEOUT_snoop [] ≤ s.now - sn.since) (hkind : sn.kind = 0x4A) (hhome : sn.home = none)
    (hcrossed : sn.crossed = false) (hagent : s.agentAt sn.dom sn.slot = some agent)
    (hlive : s.isDead sn.dom sn.slot = false) (hlisted : s.listed R.COH_MEMBER_valid = [[sn.dom, sn.slot]])
    (hidle : s.coh.busy.entries = []) (hresolved : Resolved s) :
    Gives (.snoopTimeout d tag) s (fun t => t.isDead sn.dom sn.slot = true ∧ t.coh.snoops.has [tag] = false ∧
      t.rd R.COH_RECLAIM_INFO_cause [] = 3 ∧ bitAt (t.rd R.COH_EVT_events []) 2 = true ∧
      RegsBut [R.COH_RECLAIM_INFO_domain, R.COH_RECLAIM_INFO_slot, R.COH_RECLAIM_INFO_cause, R.COH_RECLAIM_INFO_done] s t ∧
      PartsBut [.coh, .trk, .pool, .tier, .poison, .out, .hif] s t) := by
  have hfound : s.coh.snoops.get? [tag] = some sn := by simp [Map.get?, hsnoops, Map.find]
  have hcounted : Tends s ((s.bump R.COH_CNT_count [d, 8]).event B.coh 2) := (tends_bumpBy _ 1 s).trans (tends_event _ _ _)
  have htimed : bitAt (((s.bump R.COH_CNT_count [d, 8]).event B.coh 2).rd R.COH_EVT_events []) 2 = true :=
    State.event_raises (blk := B.coh) (b := 2) _ (by decide)
  have hcoh : ((s.bump R.COH_CNT_count [d, 8]).event B.coh 2).coh = s.coh := by
    rw [State.event_coh_eq, State.bump_coh_eq]
  have hexec : exec (.snoopTimeout d tag) s =
      serving s ((((s.bump R.COH_CNT_count [d, 8]).event B.coh 2).declareAgent agent 3).settleBindings) := by
    change execSnoopTimeout d tag s = _
    rw [execSnoopTimeout, hfound]
    dsimp only
    rw [if_pos hdue, hcounted.frame.agentAt, hagent]
  generalize (s.bump R.COH_CNT_count [d, 8]).event B.coh 2 = u at hexec hcounted htimed hcoh
  have hagent' : u.agentAt sn.dom sn.slot = some agent := (hcounted.frame.agentAt _ _).trans hagent
  obtain ⟨hdead, hclosed⟩ := declaredDead_recalled (s := u) (cause := 3) (hcoh ▸ hsnoops) hkind hhome hcrossed hagent'
    (by rw [State.isDead, hcoh]; exact hlive) (hcoh ▸ hidle) (hcounted.resolved hresolved)
  rw [State.declareAgent_one ((hcounted.frame.lists _ (by decide) (by simp)).trans hlisted) hagent',
    State.settleBindings_resolved hdead.resolved] at hexec
  exact gives_serving hexec h ⟨hdead.dead, hclosed, hdead.cause,
    hdead.events R.COH_EVT_events (by decide) 2 (by decide) htimed,
    ((hcounted.frame.weaken (by simp)).trans hdead.frame).after⟩

theorem gives_graceTimeout (h : Serves s) {p t₀ v eid : Nat} (hdown : (s.port p).downAt = some t₀)
    (hidentity : (s.port p).identity = some (v, eid)) (hup : s.isUp p = false)
    (hdue : 1000 * s.rd R.COH_TIMEOUT_grace [] ≤ s.now - t₀) (hlisted : s.listed R.COH_MEMBER_valid = [[dom, a]])
    (hagent : s.agentAt dom a = some eid) (hlive : s.isDead dom a = false)
    (hsnoops : ∀ e ∈ s.coh.snoops.entries, e.2.dom = dom → e.2.slot ≠ a) (hidle : s.coh.busy.entries = [])
    (hresolved : Resolved s) :
    Gives (.graceTimeout p) s (fun t => t.isDead dom a = true ∧ t.rd R.COH_RECLAIM_INFO_cause [] = 1 ∧
      (t.port p).downAt = none ∧
      RegsBut [R.COH_RECLAIM_INFO_domain, R.COH_RECLAIM_INFO_slot, R.COH_RECLAIM_INFO_cause, R.COH_RECLAIM_INFO_done] s t ∧
      PartsBut [.coh, .trk, .pool, .tier, .ports, .out, .hif] s t) := by
  have hported := changes_modPort p (fun r => { r with downAt := none }) s
  have hport : ((s.modPort p (fun r => { r with downAt := none })).port p).downAt = none := by rw [State.port_modPort]
  have hcoh : (s.modPort p (fun r => { r with downAt := none })).coh = s.coh := rfl
  have hexec : exec (.graceTimeout p) s =
      serving s (((s.modPort p (fun r => { r with downAt := none })).declareAgent eid 1).settleBindings) := by
    change execGraceTimeout p s = _
    rw [execGraceTimeout, hdown, hidentity]
    dsimp only
    rw [if_pos ⟨by simp [hup], hdue⟩]
  have hstill : Resolved (s.modPort p (fun r => { r with downAt := none })) := hresolved
  generalize s.modPort p (fun r => { r with downAt := none }) = u at hexec hported hport hcoh hstill
  have hagent' : u.agentAt dom a = some eid := (hported.agentAt _ _).trans hagent
  have hdead := declaredDead_unsnooped (s := u) (cause := 1) hagent' (by rw [State.isDead, hcoh]; exact hlive)
    (hcoh ▸ hsnoops) (hcoh ▸ hidle) hstill
  have hports : (u.declareDead dom a 1).ports = u.ports := hdead.frame.parts .ports (by decide)
  rw [State.declareAgent_one ((hported.lists _ (by decide) (by simp)).trans hlisted) hagent',
    State.settleBindings_resolved hdead.resolved] at hexec
  refine gives_serving hexec h ⟨hdead.dead, hdead.cause, ?_,
    ((hported.weaken (by simp)).trans (hdead.frame.weaken (fun _ hf => hf))).after⟩
  rw [State.port, State.after_ports_eq, hports]
  exact hport

/-- R159: every record of the domain cleared of the slots that are dead. -/
def State.walkEnded (dom : Nat) (s : State) : State :=
  (s.coh.recs.keys.map (·.headD 0)).foldl (fun t l => if t.domOf l = some dom then t.reclaimLine dom l else t) s

theorem tends_walkEnded (dom : Nat) (s : State) : Tends s (s.walkEnded dom) :=
  Tends.foldl _ (fun t l => Tends.ite (tends_reclaimLine dom l t) (Tends.refl t)) _ s

/-- The walk no longer under way, and shown as done. -/
def State.walkCleared (dom a : Nat) (s : State) : State :=
  State.wr R.COH_RECLAIM_INFO_done [] 1 { s with coh := { s.coh with walks := s.coh.walks.erase [dom, a] } }

theorem changes_walkCleared (dom a : Nat) (s : State) : Changes [R.COH_RECLAIM_INFO_done] [.coh] s (s.walkCleared dom a) :=
  ((Changes.refl _ _ s).inCoh _).wr (by simp) _ _

theorem gives_reclaimWalkDone (h : Serves s) (hwalk : s.coh.walks.has [dom, a] = true)
    (hmember : s.coh.members.get? [dom, a] = none) :
    Gives (.reclaimWalkDone dom a) s (fun t => t.coh.walks.has [dom, a] = false ∧ t.rd R.COH_RECLAIM_INFO_done [] = 1 ∧
      t.isDead dom a = s.isDead dom a ∧ RegsBut [R.COH_RECLAIM_INFO_done] s t ∧
      PartsBut [.coh, .poison, .out, .hif, .sw, .ports, .ras, .answers] s t) := by
  have hended := tends_walkEnded dom s
  have hreported := conveys_report (l := []) 2 .ok (bytesOfNat 1 dom ++ bytesOfNat 1 a) ((s.walkEnded dom).walkCleared dom a)
  have hcoh : ((s.walkEnded dom).walkCleared dom a).coh =
      { (s.walkEnded dom).coh with walks := (s.walkEnded dom).coh.walks.erase [dom, a] } := State.wr_coh_eq _ _ _ _
  have hcleared := changes_walkCleared dom a (s.walkEnded dom)
  have hshown : ((s.walkEnded dom).walkCleared dom a).rd R.COH_RECLAIM_INFO_done [] = 1 := State.rd_wr_same _ _ _ _
  have hexec : exec (.reclaimWalkDone dom a) s =
      serving s (((s.walkEnded dom).walkCleared dom a).report 2 .ok (bytesOfNat 1 dom ++ bytesOfNat 1 a)) := by
    refine congrArg (serving s) ((if_pos hwalk).trans ?_)
    dsimp only
    split
    case h_1 v hv =>
      have hnone := (congrArg (fun k : Coh => k.members.get? [dom, a]) (hreported.coh_eq.trans hcoh)).trans
        ((congrArg (Map.get? · [dom, a]) hended.members_eq).trans hmember)
      exact absurd (hv.symm.trans hnone) (by simp)
    case h_2 => rfl
  refine gives_serving hexec h ⟨?walks, ?done, ?dead, ((hended.frame.weaken (by simp)).trans ((hcleared.weaken (by simp)).trans
    (hreported.changes.weaken (by simp)))).after⟩
  case walks =>
    rw [State.after_coh_eq, hreported.coh_eq, hcoh]
    exact Map.has_erase_same _ _
  case done => rw [State.rd_after, hreported.changes.rd R.COH_RECLAIM_INFO_done, hshown]
  case dead => rw [State.isDead, State.after_coh_eq, hreported.coh_eq, hcoh, hended.dead_eq, State.isDead]

/-- Settles O21: with no line busy and nothing waiting, the death of an agent is what is shown and marked, with the recall
it left open closed as answered; neither that nor the end of a walk changes anything beyond the directory's upkeep. -/
theorem agentDeath : Obligations.AgentDeath :=
  fun _ => ⟨fun _ _ _ => gives_declareDead, fun _ _ _ _ h => gives_snoopTimeout h, fun _ _ _ _ _ _ h => gives_graceTimeout h,
    fun _ _ => gives_reclaimWalkDone⟩

end Sys2Proof.Machine
end

section
/-! LAWS. A coherent request at its home (R145 to R156): the way of one that nothing holds back to the directory, what the
directory makes of records whose holders all live, and what grants and snoops change. -/

namespace Sys2Proof.Machine

open Sys2Proof.Safety

variable {s t u : State} {d i dom a line : Nat} {m : Msg} {h : Home}

/-! ### A request that nothing holds back -/

/-- The own node's home serves the coherent request of slot `a` on its line at once, once it is its turn: what `AtHome` says
beside the limiters and the order of its flow, of a request that its domain lets pass and whose line is not busy. -/
structure Admitted (s : State) (d dom a line : Nat) (m : Msg) : Prop where
  valid : m.valid = true
  coherent : isCoherent m.ty = true
  own : nodeOf m.addr = s.node
  held : (s.ext s.node (extentOf m.addr)).state = .held
  unswitched : s.pair.switched = false
  notPuppet : s.isPuppet = false
  copied : s.chunkShadowLost m = false
  still : s.tier.moves.get? [extentOf m.addr] = none
  inService : m.lines.findSome? s.pcOut = none
  alive : s.lineDead line = false
  sound : s.linePoisoned line = false
  agent : Coherent s m dom a line

theorem Admitted.of_atHome (hat : AtHome s d m) (hcoherent : isCoherent m.ty = true) (hagent : Coherent s m dom a line) :
    Admitted s d dom a line m := by
  obtain ⟨hvalid, hown, -, hheld, hswitched, -, hpuppet, hlost, -, -, hmoves, hservice, hdead, hpoisoned, -, -⟩ := hat
  have hlines : m.lines = [line] := by
    obtain ⟨-, -, -, -, -, hlines, -⟩ := hagent
    exact hlines
  rw [hlines, List.any_cons, List.any_nil, Bool.or_false] at hdead hpoisoned
  exact ⟨hvalid, hcoherent, hown, hheld, hswitched, hpuppet, hlost, hmoves, hservice, hdead, hpoisoned, hagent⟩

theorem Attends.unbindingAt (hst : Attends homeParts s t) (e : Nat) : t.unbindingAt e = s.unbindingAt e := by
  simp only [State.unbindingAt, show t.coh = s.coh from hst.frame.parts .coh (by decide), hst.rd R.COH_BIND_first_extent,
    hst.rd R.COH_BIND_last_extent]

theorem Attends.admitted (hst : Attends homeParts s t) (hs : Admitted s d dom a line m) : Admitted t d dom a line m := by
  have hcoh : t.coh = s.coh := hst.frame.parts .coh (by decide)
  obtain ⟨hbind, hdom, hunbinding, hslot, hlive, hlines, hbusy⟩ := hs.agent
  exact {
    valid := hs.valid
    coherent := hs.coherent
    own := hs.own.trans hst.node.symm
    held := by rw [hst.ext, hst.node, hs.held]
    unswitched := by rw [hst.pair, hs.unswitched]
    notPuppet := by rw [hst.isPuppet, hs.notPuppet]
    copied := by rw [hst.chunkShadowLost, hs.copied]
    still := by rw [hst.moves, hs.still]
    inService := by rw [funext hst.pcOut, hs.inService]
    alive := by rw [hst.lineDead, hs.alive]
    sound := by rw [hst.linePoisoned, hs.sound]
    agent := ⟨by rw [hst.bindOf, hbind], hdom, by rw [hst.unbindingAt, hunbinding], by rw [hst.frame.slotFor, hslot],
      by rw [State.isDead, hcoh]; exact hlive, hlines, by rw [hcoh, hbusy]⟩ }

/-! ### Its way to the directory (R112, R121, R141, R145, R158, R162, R180, R199, R213) -/

theorem State.coherentRefusal_admitted (hs : Admitted s d dom a line m) : s.coherentRefusal m = none := by
  obtain ⟨hbind, hdom, hunbinding, hslot, hlive, -, -⟩ := hs.agent
  rw [State.coherentRefusal, if_neg (by simp [hs.coherent]), hbind]
  dsimp only
  rw [if_neg (by simp [hdom, hunbinding]), hslot]
  exact if_neg (by simp [hlive])

theorem State.atHome_admitted (hentry : s.homeAt d i = some h) (hs : Admitted s d dom a line h.msg) :
    s.atHome d i = s.atLimit d i := by
  have hserved : s.served d i h.msg = s.atLimit d i := by
    rw [State.served, if_pos hs.own, State.coherentRefusal_admitted hs]
    exact if_neg (by simp [hs.copied])
  have hextent : s.atExtent d i h.msg = s.served d i h.msg := by
    rw [State.atExtent, hs.notPuppet, hs.own, Bool.false_and, Bool.false_and, if_neg Bool.false_ne_true, hs.held]
  rw [State.atHome, hentry]
  dsimp only
  rw [if_neg (by simp [hs.valid]), if_pos hs.own, if_neg (by simp [hs.unswitched]), hextent, hserved]

theorem State.afterLimit_admitted (hentry : s.homeAt d i = some h) (hs : Admitted s d dom a line h.msg)
    (hfirst : s.behind d i h = false) : s.afterLimit d i = s.atDirectory d i := by
  have hstack : s.atStack d i = s.atDirectory d i := by
    rw [State.atStack, hentry]
    dsimp only
    rw [hs.inService]
  have hlock : s.atLock d i = s.atStack d i := by
    rw [State.atLock, hentry]
    dsimp only
    rw [hs.still]
  rw [State.afterLimit, hentry]
  dsimp only
  rw [if_pos hs.own, State.inOrder, hentry]
  dsimp only
  rw [if_neg (by simp [hfirst]), hlock, hstack]

/-- R112 to R145: a coherent request that nothing holds back reaches the directory under the entry it takes. -/
theorem State.take_admitted (hs : Admitted s d dom a line m) (hlimit : Unlimited s d m)
    (hfirst : s.behind d s.trk.nextHome { msg := m, since := s.now } = false) :
    ∃ t, Attends [.trk, .pool] s t ∧ t.homeAt d s.trk.nextHome = some { msg := m, since := s.now } ∧
      s.take d m [] = t.atDirectory d s.trk.nextHome := by
  have hentered := attends_entered d { msg := m, since := s.now } s
  have hentry := s.homeAt_entered d { msg := m, since := s.now }
  have htake : s.take d m [] = (s.entered d { msg := m, since := s.now }).atHome d s.trk.nextHome := rfl
  have hlast := State.behind_entered hfirst
  have hpool : (s.entered d { msg := m, since := s.now }).pool = s.pool := hentered.frame.parts .pool (by decide)
  generalize s.entered d { msg := m, since := s.now } = u at hentered hentry htake hlast hpool ⊢
  have hu : Admitted u d dom a line m := hentered.weaken.admitted hs
  obtain ⟨t, hcharged, hcharge⟩ := State.atLimit_unlimited hentry (hentered.weaken.unlimited hpool hlimit)
  have htrk : t.trk = u.trk := hcharged.trk
  have hat : t.homeAt d s.trk.nextHome = some { msg := m, since := s.now } := by rw [State.homeAt, htrk]; exact hentry
  refine ⟨t, hentered.weaken.trans hcharged.weaken, hat, ?_⟩
  calc s.take d m [] = u.atHome d s.trk.nextHome := htake
    _ = u.atLimit d s.trk.nextHome := (State.atHome_admitted hentry hu :)
    _ = t.afterLimit d s.trk.nextHome := hcharge
    _ = t.atDirectory d s.trk.nextHome :=
      (State.afterLimit_admitted hat (hcharged.weaken.admitted hu)
        ((hcharged.weaken.behind (by rw [htrk]) (by rw [htrk])).trans hlast) :)

/-! ### The directory (R146, R152, R159) -/

/-- The slots that hold a line. -/
def Rec.holders : Rec → List Nat
  | .i => []
  | .s v => slotsIn v
  | .x o => [o]

/-- A record keeps its form through reclaim: every slot in it lives, and a shared one names some. -/
structure Kept (s : State) (dom line : Nat) : Prop where
  live : ∀ o ∈ (s.recOf line).holders, s.slotLive dom o = true
  shared : s.recOf line ≠ .s 0

theorem Kept.of_record {ps : List Part} (hs : Kept s dom line) (hst : Attends ps s t) (hrec : t.recOf line = s.recOf line)
    (hdead : t.coh.dead = s.coh.dead) : Kept t dom line := by
  have hslot (o : Nat) : t.slotLive dom o = s.slotLive dom o := by
    rw [State.slotLive, hst.frame.agentAt, State.isDead, hdead, State.slotLive, State.isDead]
  exact ⟨fun o ho => (hslot o).trans (hs.live o (hrec ▸ ho)), hrec ▸ hs.shared⟩

/-- The directory found a record as it was: only records, sectors and reports differ. -/
structure Consults (line : Nat) (s t : State) : Prop where
  frame : Attends [.coh] s t
  record : t.recOf line = s.recOf line
  tag : t.coh.nextTag = s.coh.nextTag
  dead : t.coh.dead = s.coh.dead

theorem Consults.trans (h₁ : Consults line s t) (h₂ : Consults line t u) : Consults line s u :=
  ⟨h₁.frame.trans h₂.frame, h₂.record.trans h₁.record, h₂.tag.trans h₁.tag, h₂.dead.trans h₁.dead⟩

theorem Consults.kept (hst : Consults line s t) (hs : Kept s dom line) : Kept t dom line :=
  hs.of_record hst.frame hst.record hst.dead

theorem consults_bumpBy (ix : List Nat) (n : Nat) (s : State) : Consults line s (s.bumpBy R.COH_CNT_count ix n) :=
  ⟨Attends.of_changes ((changes_bumpBy ix n s).weaken (by simp)) (State.bumpBy_now_eq _ _ _ _),
    by rw [State.recOf, State.bumpBy_coh_eq, State.recOf], by rw [State.bumpBy_coh_eq], by rw [State.bumpBy_coh_eq]⟩

theorem State.recOf_setRec (line : Nat) (r : Rec) (s : State) : (s.setRec line r).recOf line = r := by
  rw [State.recOf, State.setRec]
  dsimp only
  split
  case isTrue hr => rw [Map.get_erase_same, hr]
  case isFalse => exact Map.get_set_same _ _ _ _

theorem attends_setRec (line : Nat) (r : Rec) (s : State) : Attends [.coh] s (s.setRec line r) :=
  Attends.of_changes (changes_inCoh _ s) rfl

theorem consults_lookup (d dom line : Nat) (s : State) : Consults line s (s.lookup d dom line) :=
  (consults_bumpBy _ 1 s).trans ⟨Attends.of_changes (changes_inCoh _ _) rfl, rfl, rfl, rfl⟩

/-- R158, R159: reclaim finds nothing to take off a record whose holders all live. -/
theorem consults_reclaimLine (hkept : Kept s dom line) : Consults line s (s.reclaimLine dom line) := by
  obtain ⟨hlive, hshared⟩ := hkept
  cases hrec : s.recOf line with
  | i =>
    rw [State.reclaimLine, hrec]
    exact ⟨Attends.refl _ s, rfl, rfl, rfl⟩
  | s v =>
    have hgone : (slotsIn v).filter (fun a => ¬ s.slotLive dom a) = [] :=
      List.filter_eq_nil_iff.mpr (fun o ho => by simpa using hlive o (by rw [hrec]; exact ho))
    have hv : v ≠ 0 := fun hzero => hshared (by rw [hrec, hzero])
    rw [State.reclaimLine, hrec]
    dsimp only
    rw [hgone, List.foldl_nil, if_neg hv]
    exact Consults.trans ⟨attends_setRec _ _ s, (State.recOf_setRec _ _ s).trans hrec.symm, rfl, rfl⟩ (consults_bumpBy _ _ _)
  | x o =>
    rw [State.reclaimLine, hrec]
    dsimp only
    rw [if_pos (hlive o (by rw [hrec]; exact List.mem_singleton_self o))]
    exact ⟨Attends.refl _ s, rfl, rfl, rfl⟩

/-- The directory consulted for a coherent request. -/
def State.consulted (d dom line : Nat) (s : State) : State :=
  ((s.lookup d dom line).reclaimLine dom line).bump R.COH_CNT_count [d, 0]

theorem consults_consulted (d : Nat) (hkept : Kept s dom line) : Consults line s (s.consulted d dom line) :=
  have hlookup := consults_lookup d dom line s
  (hlookup.trans (consults_reclaimLine (hlookup.kept hkept))).trans (consults_bumpBy _ 1 _)

theorem State.atDirectory_admitted (hentry : s.homeAt d i = some h) (hs : Admitted s d dom a line h.msg)
    (hkept : Kept s dom line) :
    s.atDirectory d i = (s.consulted d dom line).coherentStep d i dom line a h.msg := by
  obtain ⟨hbind, -, -, hslot, -, hlines, hbusy⟩ := hs.agent
  have hfree : [line].find? (fun l => s.coh.busy.has [l]) = none := by simp [hbusy]
  have hlookup := consults_lookup d dom line s
  have hreclaimed := hlookup.trans (consults_reclaimLine (hlookup.kept hkept))
  rw [State.atDirectory, hentry]
  dsimp only
  rw [hbind]
  dsimp only
  rw [hlines, hfree]
  dsimp only [List.foldl_cons, List.foldl_nil, List.head?_cons]
  rw [if_pos hs.coherent, hreclaimed.frame.frame.slotFor, hslot]
  rfl

end Sys2Proof.Machine
end

section
/-! LAWS. What taking a coherent request from the input does (R128, R145, R151): it comes to the directory with the record as
it stood. -/

namespace Sys2Proof.Machine

open Sys2Proof.Safety

variable {s t : State} {d dom a line : Nat} {m : Msg}

/-! ### About to be taken -/

/-- Nothing holds the coherent request back, the limiters and the order of its flow included, and every holder of its line
lives. -/
structure Entering (s : State) (d dom a line : Nat) (m : Msg) : Prop where
  admitted : Admitted s d dom a line m
  kept : Kept s dom line
  unlimited : Unlimited s d m
  first : s.behind d s.trk.nextHome { msg := m, since := s.now } = false

theorem Entering.of_atHome (hat : AtHome s d m) (hcoherent : isCoherent m.ty = true) (hagent : Coherent s m dom a line)
    (hkept : Kept s dom line) : Entering s d dom a line m := by
  have hadmitted := Admitted.of_atHome hat hcoherent hagent
  obtain ⟨-, -, -, -, -, -, -, -, hqueue, hopen, -, -, -, -, -, hfirst⟩ := hat
  exact ⟨hadmitted, hkept, ⟨hqueue, hopen⟩, hfirst⟩

theorem Attends.kept (hst : Attends homeParts s t) (hs : Kept s dom line) : Kept t dom line := by
  have hcoh : t.coh = s.coh := hst.frame.parts .coh (by decide)
  exact hs.of_record hst (by rw [State.recOf, hcoh, State.recOf]) (by rw [hcoh])

theorem Entering.consumed (hs : Entering s d dom a line m) (d₀ : Nat) (m₀ : Msg) :
    Entering (s.consume d₀ m₀) d dom a line m := by
  have hconsumed := (attends_consume d₀ m₀ s).weaken (ps' := homeParts)
  have hmessages := conveys_consume (l := []) d₀ m₀ s
  refine ⟨hconsumed.admitted hs.admitted, hconsumed.kept hs.kept, hconsumed.unlimited hmessages.pool_eq hs.unlimited, ?_⟩
  rw [hconsumed.now, hconsumed.behind (by rw [hmessages.trk_eq]) (by rw [hmessages.trk_eq]), hmessages.trk_eq, hs.first]

/-- A cluster's outstanding requests are nothing that a home decides by (R151). -/
def State.withWant (w : Map Want) (s : State) : State := { s with coh := { s.coh with want := w } }

theorem State.noteWant_eq (m : Msg) (s : State) : ∃ w, s.noteWant m = s.withWant w := by
  unfold State.noteWant
  split
  case isTrue => exact ⟨_, rfl⟩
  case isFalse => exact ⟨s.coh.want, rfl⟩

theorem attends_withWant (w : Map Want) (s : State) : Attends [.coh] s (s.withWant w) :=
  Attends.of_changes (changes_inCoh _ s) rfl

theorem Admitted.withWant (hs : Admitted s d dom a line m) (w : Map Want) : Admitted (s.withWant w) d dom a line m :=
  ⟨hs.valid, hs.coherent, hs.own, hs.held, hs.unswitched, hs.notPuppet, hs.copied, hs.still, hs.inService, hs.alive, hs.sound,
    hs.agent⟩

theorem Entering.withWant (hs : Entering s d dom a line m) (w : Map Want) : Entering (s.withWant w) d dom a line m :=
  ⟨hs.admitted.withWant w, ⟨hs.kept.live, hs.kept.shared⟩, hs.unlimited, hs.first⟩

/-! ### From the input to the directory -/

/-- R128, R151: with room and no open entry on its lines, a coherent request to this die's home is taken from the input, and
noted where it is a cluster's. -/
theorem State.arrive_taken (hdie : s.homeDie m.addr = d) (halone : Alone s d m) :
    ∃ w, s.arrive d m = ((s.consume d m).withWant w).take d m [] := by
  obtain ⟨hroom, hnone, hno⟩ := halone
  obtain ⟨w, hnoted⟩ := (s.consume d m).noteWant_eq m
  have htrk : ((s.consume d m).withWant w).trk = s.trk := (conveys_consume (l := []) d m s).trk_eq
  have hopen : ((s.consume d m).withWant w).openComb d m = [] := by
    rw [State.openComb, htrk]
    exact hnone
  refine ⟨w, Eq.trans ?_ (State.combine_alone hopen ((attends_consume d m s).combinable.trans hno :))⟩
  rw [State.arrive, hdie]
  dsimp only
  rw [hnone, if_neg (by simp [hroom]), if_pos rfl, hnoted]

/-- R112 to R145: the request comes to the step of the directory, on the record as it stood. -/
theorem State.take_entering (hs : Entering s d dom a line m) :
    ∃ t, Attends (.coh :: homeParts) s t ∧ t.recOf line = s.recOf line ∧ t.coh.nextTag = s.coh.nextTag ∧
      t.linePoisoned line = false ∧ t.lineDead line = false ∧
      s.take d m [] = t.coherentStep d s.trk.nextHome dom line a m := by
  obtain ⟨r, htaken, hentry, htake⟩ := State.take_admitted hs.admitted hs.unlimited hs.first
  have hhome := htaken.weaken (ps' := homeParts)
  have hcoh : r.coh = s.coh := htaken.frame.parts .coh (by decide)
  have hr : Admitted r d dom a line m := hhome.admitted hs.admitted
  have hconsulted := consults_consulted d (hhome.kept hs.kept)
  refine ⟨r.consulted d dom line, hhome.weaken.trans hconsulted.frame.weaken, ?record, ?tag, ?sound, ?alive,
    htake.trans (State.atDirectory_admitted hentry hr (hhome.kept hs.kept))⟩
  case record => rw [hconsulted.record, State.recOf, hcoh, State.recOf]
  case tag => rw [hconsulted.tag, hcoh]
  case sound => rw [hconsulted.frame.linePoisoned, hr.sound]
  case alive => rw [hconsulted.frame.lineDead, hr.alive]

/-- R128, R145: a coherent request that nothing holds back, on a line whose holders all live, comes from the input to the
step of the directory. -/
theorem State.arrive_admitted (hat : AtHome s d m) (halone : Alone s d m) (hcoherent : isCoherent m.ty = true)
    (hagent : Coherent s m dom a line) (hkept : Kept s dom line) :
    ∃ t, Attends (.coh :: homeParts) s t ∧ t.recOf line = s.recOf line ∧ t.coh.nextTag = s.coh.nextTag ∧
      t.linePoisoned line = false ∧ t.lineDead line = false ∧
      s.arrive d m = t.coherentStep d s.trk.nextHome dom line a m := by
  have hdie : s.homeDie m.addr = d := by
    obtain ⟨-, -, hdie, -⟩ := hat
    exact hdie
  obtain ⟨w, harrive⟩ := State.arrive_taken hdie halone
  obtain ⟨t, hreached, hrec, htag, hsound, halive, htake⟩ :=
    State.take_entering (((Entering.of_atHome hat hcoherent hagent hkept).consumed d m).withWant w)
  have hmessages := conveys_consume (l := []) d m s
  have hnoted : Attends (.coh :: homeParts) s ((s.consume d m).withWant w) :=
    (attends_consume d m s).weaken.trans (attends_withWant w _).weaken
  refine ⟨t, hnoted.trans hreached, ?record, ?tag, hsound, halive, ?step⟩
  case record => rw [hrec, State.recOf, State.withWant, hmessages.coh_eq, State.recOf]
  case tag => rw [htag, State.withWant, hmessages.coh_eq]
  case step => rw [harrive, htake, State.withWant, hmessages.trk_eq]

end Sys2Proof.Machine
end

section
/-! PROOF. The statement on the directory of a coherent home (R145, R147, R152, R153, R155). -/

namespace Sys2Proof.Machine

open Sys2Proof.Safety

variable {s t u : State} {d i dom a line : Nat} {m : Msg}

/-! ### Requests (R152, R153) -/

/-- The request's entry has retired, and its answer is on its way; the directory and memory are as they were. -/
structure Retires (d i : Nat) (s t : State) : Prop where
  frame : Changes [R.MEM_PC_STATUS_powered_down] [.out, .hif, .sw, .ports, .ras, .answers, .trk, .tier] s t
  retired : t.trk.home.has [d, i] = false

/-- Sending after an entry has been dropped. -/
theorem retires_sent (hsent : Conveys [] (s.dropHome d i) t) : Retires d i s t where
  frame := ((Changes.refl _ _ s).inTrk _).trans (hsent.changes.weaken (by simp))
  retired := by
    rw [hsent.trk_eq]
    exact Map.has_erase_same _ _

theorem State.has_of_homeAt_none (hnone : s.homeAt d i = none) : s.trk.home.has [d, i] = false := by
  rw [State.homeAt, Map.get?] at hnone
  rw [Map.has, hnone, Option.isSome_none]

/-- R148: a grant reads the line, logs and sends. -/
theorem retires_grant (grant : Nat) (st : Status) (line : Nat) (s : State) : Retires d i s (s.grant d i grant st line) := by
  unfold State.grant
  split
  case h_1 hd _ =>
    have hread : Attends [.tier] s (if grant = 0 then s else (s.access false (128 * line) 128).serveExtent (line / 2 ^ 19)) :=
      Attends.ite (Attends.refl _ s) ((attends_access _ _ _ s).trans (attends_serveExtent _ _))
    dsimp only
    generalize (if grant = 0 then s else (s.access false (128 * line) 128).serveExtent (line / 2 ^ 19)) = u at hread ⊢
    have hlogged := (conveys_logCompletion (l := []) d hd.msg st u).changes
    have hsent (x : Msg) := retires_sent (conveys_send d x ((u.logCompletion d hd.msg st).dropHome d i))
    exact ⟨((hread.frame.weaken (fun _ hf => hf)).trans (hlogged.weaken (by simp))).trans (hsent _).frame, (hsent _).retired⟩
  case h_2 hnone => exact ⟨Changes.refl _ _ s, State.has_of_homeAt_none hnone⟩

theorem retires_grantUpgrade (s : State) : Retires d i s (s.grantUpgrade d i) := by
  unfold State.grantUpgrade
  split
  case h_1 => exact retires_sent (conveys_send _ _ _)
  case h_2 hnone => exact ⟨Changes.refl _ _ s, State.has_of_homeAt_none hnone⟩

theorem State.agentAt_of_slotFor {agent : Nat} (h : s.slotFor dom agent = some a) : s.agentAt dom a = some agent := by
  rw [State.slotFor, Option.map_eq_some_iff] at h
  obtain ⟨k, hfound, rfl⟩ := h
  have hk := List.find?_some hfound
  rw [decide_eq_true_iff] at hk
  exact hk.2

theorem eq_of_mem_slotsIn_two_pow {o : Nat} (h : o ∈ slotsIn (2 ^ a)) : o = a := by
  have hbit := (List.mem_filter.mp h).2
  rw [bitAt_eq_testBit, Nat.testBit_two_pow, decide_eq_true_iff] at hbit
  exact hbit.symm

theorem kept_of_unheld (hrec : s.recOf line = .i) : Kept s dom line :=
  ⟨fun o ho => by rw [hrec] at ho; exact absurd ho List.not_mem_nil, by rw [hrec]; exact Rec.noConfusion⟩

theorem kept_of_sharer (hrec : s.recOf line = .s (2 ^ a)) (hlive : s.slotLive dom a = true) : Kept s dom line := by
  refine ⟨fun o ho => ?_, ?_⟩
  · rw [hrec] at ho
    rwa [eq_of_mem_slotsIn_two_pow ho]
  · rw [hrec]
    simp

theorem kept_of_owner {o : Nat} (hrec : s.recOf line = .x o) (hlive : s.slotLive dom o = true) : Kept s dom line := by
  refine ⟨fun b hb => ?_, by rw [hrec]; exact Rec.noConfusion⟩
  rw [hrec] at hb
  rwa [List.mem_singleton.mp hb]

theorem State.coherentStep_unheld (hsound : s.linePoisoned line = false) (halive : s.lineDead line = false)
    (hrec : s.recOf line = .i) : s.coherentStep d i dom line a m = (s.setRec line (.x a)).grant d i 2 .ok line := by
  rw [State.coherentStep, if_neg (by simp [hsound, halive]), hrec]

theorem State.coherentStep_onlySharer (hsound : s.linePoisoned line = false) (halive : s.lineDead line = false)
    (hty : m.ty = 0x42) (hrec : s.recOf line = .s (2 ^ a)) :
    s.coherentStep d i dom line a m = (s.setRec line (.x a)).grantUpgrade d i := by
  have hothers : (slotsIn (2 ^ a)).filter (fun o => decide (o ≠ a)) = [] :=
    List.filter_eq_nil_iff.mpr (fun o ho => by simp [eq_of_mem_slotsIn_two_pow ho])
  have hholds : bitAt (2 ^ a) a = true := by rw [bitAt_eq_testBit, Nat.testBit_two_pow_self]
  rw [State.coherentStep, if_neg (by simp [hsound, halive]), hrec]
  dsimp only
  rw [if_neg (by simp [hty]), hothers, if_pos rfl, if_pos ⟨hty, hholds⟩]

theorem State.coherentStep_forwarded {o : Nat} (hsound : s.linePoisoned line = false) (halive : s.lineDead line = false)
    (hty : m.ty = 0x40) (hrec : s.recOf line = .x o) (hother : o ≠ a) :
    s.coherentStep d i dom line a m =
      (s.setBusy line (d, i)).snoop d dom line o 0x48 (some (d, i)) (some (m, a)) m.tc := by
  rw [State.coherentStep, if_neg (by simp [hsound, halive]), hrec]
  dsimp only
  rw [if_neg hother, if_pos hty]

/-- The snoop that a request opens (R147). -/
def State.opened (s : State) (dom line o kind : Nat) (home : Option (Nat × Nat)) (req : Option (Msg × Nat)) : Snoop :=
  { line := line, dom := dom, slot := o, kind := kind, home := home, reqSlot := (req.map (·.2)).getD 0, since := s.now }

/-- R147, R148: a snoop is listed under the next tag, counted and sent. -/
theorem State.coh_snoop (d dom line o kind : Nat) (home : Option (Nat × Nat)) (req : Option (Msg × Nat)) (tc : Nat) (s : State) :
    (s.snoop d dom line o kind home req tc).coh = { s.coh with
      nextTag := (s.coh.nextTag + 1) % 2 ^ 32
      snoops := s.coh.snoops.set [s.coh.nextTag] (s.opened dom line o kind home req) } := by
  rw [State.snoop, (conveys_send (l := []) _ _ _).coh_eq, State.bump_coh_eq]
  rfl

theorem State.mem_snoop (d dom line o kind : Nat) (home : Option (Nat × Nat)) (req : Option (Msg × Nat)) (tc : Nat) (s : State) :
    (s.snoop d dom line o kind home req tc).mem = s.mem := by
  rw [State.snoop, (conveys_send (l := []) _ _ _).mem_eq, State.bump_mem_eq]

/-- R152: a request that ends with its agent as the line's owner. -/
theorem gives_owner {c : Instr} (h : Serves s) (hexec : exec c s = serving s (s.arrive d m)) (hat : AtHome s d m)
    (halone : Alone s d m) (hcoherent : isCoherent m.ty = true) (hagent : Coherent s m dom a line) (hkept : Kept s dom line)
    (hstep : ∀ t : State, t.linePoisoned line = false → t.lineDead line = false → t.recOf line = s.recOf line →
      Retires d s.trk.nextHome (t.setRec line (.x a)) (t.coherentStep d s.trk.nextHome dom line a m)) :
    Gives c s (fun t => t.recOf line = .x a ∧ t.trk.home.has [d, s.trk.nextHome] = false ∧ t.mem = s.mem ∧
      RegsBut [R.MEM_PC_STATUS_powered_down] s t ∧
      PartsBut [.out, .hif, .sw, .ports, .ras, .answers, .trk, .pool, .tier, .coh] s t) := by
  obtain ⟨v, hreached, hrec, -, hsound, halive, harrive⟩ := State.arrive_admitted hat halone hcoherent hagent hkept
  have hretires := hstep v hsound halive hrec
  have howner := v.recOf_setRec line (.x a)
  rw [harrive] at hexec
  have hall : Changes [R.MEM_PC_STATUS_powered_down] [.out, .hif, .sw, .ports, .ras, .answers, .trk, .pool, .tier, .coh] s
      (v.coherentStep d s.trk.nextHome dom line a m) :=
    ((hreached.trans (attends_setRec line (.x a) v).weaken).frame.weaken (fun _ hf => hf)).trans
      (hretires.frame.weaken (fun _ hf => hf))
  refine gives_serving hexec h ⟨?_, hretires.retired, hall.parts .mem (by decide), hall.after⟩
  rw [← howner, State.recOf, State.after_coh_eq,
    show (v.coherentStep d s.trk.nextHome dom line a m).coh = (v.setRec line (.x a)).coh from
      hretires.frame.parts .coh (by decide), State.recOf]

theorem gives_request_unheld {c : Instr} (h : Serves s) (hexec : exec c s = serving s (s.arrive d m))
    (hcoherent : isCoherent m.ty = true) (hat : AtHome s d m) (halone : Alone s d m) (hagent : Coherent s m dom a line)
    (hrec : s.recOf line = .i) :
    Gives c s (fun t => t.recOf line = .x a ∧ t.trk.home.has [d, s.trk.nextHome] = false ∧ t.mem = s.mem ∧
      RegsBut [R.MEM_PC_STATUS_powered_down] s t ∧
      PartsBut [.out, .hif, .sw, .ports, .ras, .answers, .trk, .pool, .tier, .coh] s t) := by
  refine gives_owner h hexec hat halone hcoherent hagent (kept_of_unheld hrec) (fun t hsound halive hsame => ?_)
  rw [State.coherentStep_unheld hsound halive (hsame.trans hrec)]
  exact retires_grant _ _ _ _

theorem gives_cupg (h : Serves s) (hty : m.ty = 0x42) (hat : AtHome s d m) (halone : Alone s d m)
    (hagent : Coherent s m dom a line) (hrec : s.recOf line = .s (2 ^ a)) :
    Gives (.cupg d m) s (fun t => t.recOf line = .x a ∧ t.trk.home.has [d, s.trk.nextHome] = false ∧ t.mem = s.mem ∧
      RegsBut [R.MEM_PC_STATUS_powered_down] s t ∧
      PartsBut [.out, .hif, .sw, .ports, .ras, .answers, .trk, .pool, .tier, .coh] s t) := by
  have hlive : s.slotLive dom a = true := by
    obtain ⟨-, -, -, hslot, hlive, -, -⟩ := hagent
    simp [State.slotLive, State.agentAt_of_slotFor hslot, hlive]
  refine gives_owner h (congrArg (serving s) (if_pos hty)) hat halone (by rw [hty]; rfl) hagent
    (kept_of_sharer hrec hlive) (fun t hsound halive hsame => ?_)
  rw [State.coherentStep_onlySharer hsound halive hty (hsame.trans hrec)]
  exact retires_grantUpgrade _

theorem gives_crdS_forwarded {o : Nat} (h : Serves s) (hty : m.ty = 0x40) (hat : AtHome s d m) (halone : Alone s d m)
    (hagent : Coherent s m dom a line) (hrec : s.recOf line = .x o) (hother : o ≠ a) (hlive : s.slotLive dom o = true) :
    Gives (.crdS d m) s (fun t => (∃ sn, t.coh.snoops.get? [s.coh.nextTag] = some sn ∧ sn.kind = 0x48 ∧ sn.slot = o ∧
      sn.line = line ∧ sn.home = some (d, s.trk.nextHome) ∧ sn.reqSlot = a) ∧
      t.coh.busy.get? [line] = some (d, s.trk.nextHome) ∧ t.recOf line = .x o ∧ t.mem = s.mem) := by
  obtain ⟨v, hreached, hsame, htag, hsound, halive, harrive⟩ :=
    State.arrive_admitted hat halone (by rw [hty]; rfl) hagent (kept_of_owner hrec hlive)
  have hexec : exec (.crdS d m) s = serving s (s.arrive d m) := congrArg (serving s) (if_pos hty)
  rw [harrive, State.coherentStep_forwarded hsound halive hty (hsame.trans hrec) hother] at hexec
  refine gives_serving hexec h ⟨⟨(v.setBusy line (d, s.trk.nextHome)).opened dom line o 0x48 (some (d, s.trk.nextHome))
    (some (m, a)), ?snoop, rfl, rfl, rfl, rfl, rfl⟩, ?busy, ?record, ?memory⟩
  case snoop =>
    rw [State.after_coh_eq, State.coh_snoop, ← htag]
    exact Map.get?_set_same _ _ _
  case busy =>
    rw [State.after_coh_eq, State.coh_snoop]
    exact Map.get?_set_same _ _ _
  case record =>
    rw [State.recOf, State.after_coh_eq, State.coh_snoop]
    exact hsame.trans hrec
  case memory =>
    rw [State.after_mem_eq, State.mem_snoop]
    exact hreached.mem

/-! ### Answers to snoops and writebacks (R152, R155) -/

/-- A message of a live agent, on a part where nothing waits: what it does ends with it. -/
theorem gives_fromAgent {c : Instr} {k : Nat → State → State} {P : State → Prop} (h : Serves s)
    (hexec : exec c s = serving s (s.fromAgent d dom m k)) (hslot : s.slotFor dom m.src = some a)
    (hlive : s.isDead dom a = false) (hdone : ∀ u, Conveys [] s u → Resolved (k a u) ∧ P (s.after (k a u))) : Gives c s P := by
  have htaken := conveys_consume (l := []) d m s
  obtain ⟨hresolved, hp⟩ := hdone _ htaken
  have hagent : s.fromAgent d dom m k = k a (s.consume d m) := by
    rw [State.fromAgent, htaken.changes.slotFor, hslot]
    dsimp only
    rw [State.isDead, htaken.coh_eq, if_neg (by simpa [State.isDead] using hlive), State.settleBindings_resolved hresolved]
  rw [hagent] at hexec
  exact gives_serving hexec h hp

theorem Conveys.resolved {l : List Fld} (h : Conveys l s t) (hs : Resolved s) : Resolved t := by
  obtain ⟨hunbinding, hrevs, hflow⟩ := hs
  exact ⟨by rw [h.coh_eq, hunbinding], by rw [h.pool_eq, hrevs], by rw [h.trk_eq, hflow]⟩

/-- R152: dirty data of a line written to memory change memory, its poison and the tiers' queues. -/
theorem changes_writeBack (line data : Nat) (s : State) :
    Changes [R.MEM_PC_STATUS_powered_down] [.tier, .mem, .poison] s (s.writeBack line data) :=
  ((attends_access _ _ _ s).frame.weaken (fun _ hf => hf)).trans (changes_writeBytes.weaken (by simp))

theorem State.read_writeBack (hwf : Memory.wf s.mem = true) (line data b : Nat) :
    Mem.read (s.writeBack line data).mem b = if 128 * line ≤ b ∧ b < 128 * line + 128 then
      (bytesOfNat 128 data).getD (b - 128 * line) 0 else Mem.read s.mem b := by
  rw [State.writeBack, State.mem_writeBytes, (attends_access true (128 * line) 128 s).mem, Mem.read_writeAll _ _ hwf,
    length_bytesOfNat]

theorem resolved_writeBack (hs : Resolved s) (line data : Nat) : Resolved (s.writeBack line data) := by
  have hwritten := changes_writeBack line data s
  obtain ⟨hunbinding, hrevs, hflow⟩ := hs
  exact ⟨by rw [show (s.writeBack line data).coh = s.coh from hwritten.parts .coh (by decide), hunbinding],
    by rw [show (s.writeBack line data).pool = s.pool from hwritten.parts .pool (by decide), hrevs],
    by rw [show (s.writeBack line data).trk = s.trk from hwritten.parts .trk (by decide), hflow]⟩

/-- What the home does with a live agent's answer to its snoop (R152, R155). -/
def State.takeAnswer (d : Nat) (m : Msg) (sn : Snoop) (a : Nat) (t : State) : State :=
  if a ≠ sn.slot then t.cohError d sn.line
  else if sn.crossed then ((t.closeSnoop (m.f 0 0 32)).settleChain sn.line).bump R.COH_CNT_count [d, 5]
  else
    let t := if m.f 4 2 1 = 1 then t.writeBack sn.line (m.body >>> 128) else t
    if m.f 4 0 2 = 0 ∧ t.wasOwner sn then
      (if t.coh.broken.has [sn.line] then t else t.cohError d sn.line).answered (m.f 0 0 32) sn false true
    else t.answered (m.f 0 0 32) sn (m.f 4 0 2 = 2) false

theorem exec_snpRsp {sn : Snoop} (hty : m.ty = 0x52) (hfound : s.coh.snoops.get? [m.f 0 0 32] = some sn) :
    exec (.snpRsp d m) s = serving s (s.fromAgent d sn.dom m (State.takeAnswer d m sn)) := by
  refine congrArg (serving s) ((if_neg (not_not_intro hty)).trans ?_)
  dsimp only
  rw [hfound]
  rfl

theorem State.takeAnswer_dirty {sn : Snoop} (hcrossed : sn.crossed = false) (hresult : m.f 4 0 2 = 1)
    (hdirty : m.f 4 2 1 = 1) (t : State) :
    t.takeAnswer d m sn sn.slot = (t.writeBack sn.line (m.body >>> 128)).answered (m.f 0 0 32) sn false false := by
  rw [State.takeAnswer, if_neg (not_not_intro rfl), if_neg (by simp [hcrossed]), if_pos hdirty]
  dsimp only
  rw [if_neg (by simp [hresult]), hresult]
  rfl

theorem State.answered_forward {tag d₀ : Nat} {sn : Snoop} (hkind : sn.kind = 0x49) (hhome : sn.home = some (d₀, i))
    (held : Bool) (s : State) :
    s.answered tag sn held false = ((s.closeSnoop tag).settleChain sn.line).dropHome d₀ i := by
  rw [State.answered, hkind, hhome]
  rfl

/-- R155: the answer to a forward closes it, and retires the request it served. -/
theorem State.takeAnswer_forward {sn : Snoop} {d₀ : Nat} (hcrossed : sn.crossed = false) (hkind : sn.kind = 0x49)
    (hhome : sn.home = some (d₀, i)) (hresult : m.f 4 0 2 = 3) (hclean : m.f 4 2 1 = 0)
    (hwhole : t.coh.broken.has [sn.line] = false) :
    t.takeAnswer d m sn sn.slot = (t.closeSnoop (m.f 0 0 32)).dropHome d₀ i := by
  have hsettled : (t.closeSnoop (m.f 0 0 32)).settleChain sn.line = t.closeSnoop (m.f 0 0 32) :=
    if_neg (fun hbroken => by simp [State.closeSnoop, hwhole] at hbroken)
  rw [State.takeAnswer, if_neg (not_not_intro rfl), if_neg (by simp [hcrossed]), if_neg (show ¬ m.f 4 2 1 = 1 by omega)]
  dsimp only
  rw [if_neg (by simp [hresult]), State.answered_forward hkind hhome, hsettled]

theorem State.recOf_dropSlot_owner (hrec : s.recOf line = .x a) : (s.dropSlot line a).recOf line = .i := by
  rw [State.dropSlot, hrec]
  dsimp only
  rw [if_pos rfl, State.recOf_setRec]

theorem gives_snpRsp_dirty (h : Serves s) {sn : Snoop} (hty : m.ty = 0x52)
    (hfound : s.coh.snoops.get? [m.f 0 0 32] = some sn) (hkind : sn.kind = 0x4A) (hhome : sn.home = none)
    (hcrossed : sn.crossed = false) (hslot : s.slotFor sn.dom m.src = some sn.slot)
    (hlive : s.isDead sn.dom sn.slot = false) (hrec : s.recOf sn.line = .x sn.slot) (hresult : m.f 4 0 2 = 1)
    (hdirty : m.f 4 2 1 = 1) (hresolved : Resolved s) (hwf : Memory.wf s.mem = true) :
    Gives (.snpRsp d m) s (fun t => t.coh.snoops.has [m.f 0 0 32] = false ∧ t.recOf sn.line = .i ∧
      (∀ b, Mem.read t.mem b = if 128 * sn.line ≤ b ∧ b < 128 * sn.line + 128 then
        (bytesOfNat 128 (m.body >>> 128)).getD (b - 128 * sn.line) 0 else Mem.read s.mem b) ∧
      RegsBut [R.MEM_PC_STATUS_powered_down] s t ∧
      PartsBut [.out, .hif, .sw, .ports, .ras, .answers, .tier, .coh, .mem, .poison] s t) := by
  refine gives_fromAgent h (exec_snpRsp hty hfound) hslot hlive (fun u hu => ?_)
  have hwritten := changes_writeBack sn.line (m.body >>> 128) u
  have hcoh : (u.writeBack sn.line (m.body >>> 128)).coh = s.coh := (hwritten.parts .coh (by decide)).trans hu.coh_eq
  have hread := State.read_writeBack (s := u) (by rw [hu.mem_eq]; exact hwf) sn.line (m.body >>> 128)
  have hstill := resolved_writeBack (hu.resolved hresolved) sn.line (m.body >>> 128)
  rw [State.takeAnswer_dirty hcrossed hresult hdirty]
  generalize u.writeBack sn.line (m.body >>> 128) = w at hwritten hcoh hread hstill ⊢
  have htended := tends_answered_recall (tag := m.f 0 0 32) hkind hhome false false w
  refine ⟨htended.resolved hstill, State.has_answered_recall hkind hhome _ _ w, ?record, fun b => ?memory, ?frame⟩
  case record =>
    rw [State.recOf, State.after_coh_eq, State.answered_recall hkind hhome, if_neg Bool.false_ne_true]
    refine State.recOf_dropSlot_owner ?_
    rw [State.recOf, State.closeSnoop, hcoh]
    exact hrec
  case memory =>
    rw [State.after_mem_eq, show (w.answered (m.f 0 0 32) sn false false).mem = w.mem from
      htended.frame.parts .mem (by decide), hread, hu.mem_eq]
  case frame =>
    exact ((hu.changes.weaken (by simp)).trans ((hwritten.weaken (fun _ hf => hf)).trans
      (htended.frame.weaken (by simp)))).after

theorem gives_snpRsp_forward (h : Serves s) {d₀ : Nat} {sn : Snoop} (hty : m.ty = 0x52)
    (hfound : s.coh.snoops.get? [m.f 0 0 32] = some sn) (hkind : sn.kind = 0x49) (hhome : sn.home = some (d₀, i))
    (hcrossed : sn.crossed = false) (hslot : s.slotFor sn.dom m.src = some sn.slot)
    (hlive : s.isDead sn.dom sn.slot = false) (hresult : m.f 4 0 2 = 3) (hclean : m.f 4 2 1 = 0)
    (hwhole : s.coh.broken.has [sn.line] = false) (hresolved : Resolved s) :
    Gives (.snpRsp d m) s (fun t => t.coh.snoops.has [m.f 0 0 32] = false ∧ t.trk.home.has [d₀, i] = false ∧
      t.recOf sn.line = s.recOf sn.line ∧ RegsBut [] s t ∧
      PartsBut [.out, .hif, .sw, .ports, .ras, .answers, .trk, .coh] s t) := by
  refine gives_fromAgent h (exec_snpRsp hty hfound) hslot hlive (fun u hu => ?_)
  have hclosed := (tends_closeSnoop (m.f 0 0 32) u).resolved (hu.resolved hresolved)
  rw [State.takeAnswer_forward hcrossed hkind hhome hresult hclean (by rw [hu.coh_eq]; exact hwhole)]
  refine ⟨hclosed, Map.has_erase_same _ _, Map.has_erase_same _ _, ?record, ?frame⟩
  case record => exact (congrArg (fun k : Coh => k.recs.get .i [sn.line]) hu.coh_eq :)
  case frame => exact (((hu.changes.weaken (by simp)).inCoh _).inTrk _).after

/-- What the home does with the writeback of a line by a live agent (R152, R155). -/
def State.takeWriteback (d : Nat) (dirty : Bool) (m : Msg) (a : Nat) (t : State) : State :=
  match t.openSnoop (lineAt m) (m.f 0 56 8) a with
  | some (tag, sn) => (if dirty then t.writeBack (lineAt m) (m.body >>> 128) else t).crossing tag sn
  | none =>
    if t.recOf (lineAt m) = .x a then
      let t := (if dirty then t.writeBack (lineAt m) (m.body >>> 128) else t).setRec (lineAt m) .i
      match t.coh.busy.get? [lineAt m] with
      | some h => ((t.clearBusy (lineAt m)).atDirectory h.1 h.2).wakeLine (lineAt m)
      | none => t
    else t.cohError d (lineAt m)

theorem State.writebackArrives_eq (d : Nat) (dirty : Bool) (m : Msg) (s : State) :
    s.writebackArrives d dirty m = s.fromAgent d (m.f 0 56 8) m (State.takeWriteback d dirty m) := rfl

theorem State.takeWriteback_owner {dirty : Bool} (hunsnooped : s.openSnoop (lineAt m) (m.f 0 56 8) a = none)
    (hrec : s.recOf (lineAt m) = .x a) (hfree : s.coh.busy.get? [lineAt m] = none) :
    s.takeWriteback d dirty m a =
      (if dirty then s.writeBack (lineAt m) (m.body >>> 128) else s).setRec (lineAt m) .i := by
  have hcoh : (if dirty then s.writeBack (lineAt m) (m.body >>> 128) else s).coh = s.coh := by
    split
    · exact (changes_writeBack _ _ s).parts .coh (by decide)
    · rfl
  rw [State.takeWriteback, hunsnooped]
  dsimp only
  rw [if_pos hrec]
  generalize (if dirty then s.writeBack (lineAt m) (m.body >>> 128) else s) = u at hcoh ⊢
  rw [show (u.setRec (lineAt m) .i).coh.busy = s.coh.busy from (congrArg Coh.busy hcoh :), hfree]

theorem gives_cwbDirty (h : Serves s) (hty : m.ty = 0x53) (hslot : s.slotFor (m.f 0 56 8) m.src = some a)
    (hlive : s.isDead (m.f 0 56 8) a = false) (hunsnooped : s.openSnoop (lineAt m) (m.f 0 56 8) a = none)
    (hrec : s.recOf (lineAt m) = .x a) (hfree : s.coh.busy.get? [lineAt m] = none) (hresolved : Resolved s)
    (hwf : Memory.wf s.mem = true) :
    Gives (.cwbDirty d m) s (fun t => t.recOf (lineAt m) = .i ∧ (∀ b, Mem.read t.mem b =
      if 128 * lineAt m ≤ b ∧ b < 128 * lineAt m + 128 then (bytesOfNat 128 (m.body >>> 128)).getD (b - 128 * lineAt m) 0
      else Mem.read s.mem b) ∧ RegsBut [R.MEM_PC_STATUS_powered_down] s t ∧
      PartsBut [.out, .hif, .sw, .ports, .ras, .answers, .tier, .coh, .mem, .poison] s t) := by
  refine gives_fromAgent h (congrArg (serving s) ((if_pos hty).trans (State.writebackArrives_eq d true m s))) hslot hlive
    (fun u hu => ?_)
  have hwritten := changes_writeBack (lineAt m) (m.body >>> 128) u
  have hread := State.read_writeBack (s := u) (by rw [hu.mem_eq]; exact hwf) (lineAt m) (m.body >>> 128)
  have hstill := resolved_writeBack (hu.resolved hresolved) (lineAt m) (m.body >>> 128)
  rw [State.takeWriteback_owner (by rw [State.openSnoop, hu.coh_eq]; exact hunsnooped)
    (by rw [State.recOf, hu.coh_eq]; exact hrec) (by rw [hu.coh_eq]; exact hfree), if_pos rfl]
  generalize u.writeBack (lineAt m) (m.body >>> 128) = w at hwritten hread hstill ⊢
  refine ⟨(tends_setRec _ _ _).resolved hstill, State.recOf_setRec _ _ _, fun b => (hread b).trans (by rw [hu.mem_eq]), ?_⟩
  exact (((hu.changes.weaken (by simp)).trans (hwritten.weaken (fun _ hf => hf))).inCoh _).after

theorem gives_cwbClean (h : Serves s) (hty : m.ty = 0x54) (hslot : s.slotFor (m.f 0 56 8) m.src = some a)
    (hlive : s.isDead (m.f 0 56 8) a = false) (hunsnooped : s.openSnoop (lineAt m) (m.f 0 56 8) a = none)
    (hrec : s.recOf (lineAt m) = .x a) (hfree : s.coh.busy.get? [lineAt m] = none) (hresolved : Resolved s) :
    Gives (.cwbClean d m) s (fun t => t.recOf (lineAt m) = .i ∧ t.mem = s.mem ∧ RegsBut [] s t ∧
      PartsBut [.out, .hif, .sw, .ports, .ras, .answers, .coh] s t) := by
  refine gives_fromAgent h (congrArg (serving s) ((if_pos hty).trans (State.writebackArrives_eq d false m s))) hslot hlive
    (fun u hu => ?_)
  rw [State.takeWriteback_owner (by rw [State.openSnoop, hu.coh_eq]; exact hunsnooped)
    (by rw [State.recOf, hu.coh_eq]; exact hrec) (by rw [hu.coh_eq]; exact hfree), if_neg Bool.false_ne_true]
  exact ⟨(tends_setRec _ _ _).resolved (hu.resolved hresolved), State.recOf_setRec _ _ _, hu.mem_eq,
    ((hu.changes.weaken (by simp)).inCoh _).after⟩

/-- Settles O20: nothing on the way of an unhindered coherent request changes the records the directory decides by, so its
step is taken on the record as it stood; a live agent's answer or writeback changes the line's record, and memory where it
is dirty, and nothing goes on from it. -/
theorem coherentHomes : Obligations.CoherentHomes :=
  fun s h => ⟨fun _ _ _ _ _ hty => gives_request_unheld h (congrArg (serving s) (if_pos hty)) (by rw [hty]; rfl),
    fun _ _ _ _ _ hty => gives_request_unheld h (congrArg (serving s) (if_pos hty)) (by rw [hty]; rfl),
    fun _ _ _ _ _ hty hat halone hagent hrec _ => gives_cupg h hty hat halone hagent hrec,
    fun _ _ _ _ _ _ => gives_crdS_forwarded h, fun _ _ _ => gives_snpRsp_dirty h,
    fun _ _ _ _ _ => gives_snpRsp_forward h, fun _ _ _ => gives_cwbDirty h, fun _ _ _ => gives_cwbClean h⟩

end Sys2Proof.Machine
end

section
/-! LAWS. The tiers (R192 to R217, R480): tables of ages and heat, slots that leave service, the record of a move, and what
units that are RETIRING or DRAINING do. -/

namespace Sys2Proof

/-! ### Tables of numbers (R208) -/

namespace Map

theorem keyLt_self (k : Key) : keyLt k k = false := by
  induction k with
  | nil => rfl
  | cons x k ih => simp [keyLt, ih]

/-- Below the first index of a sorted table nothing stands. -/
theorem find_eq_none_of_above {α : Type} {k : Key} {l : List (Key × α)} (h : above k l) : find l k = none :=
  find_of_forall_ne (fun e he heq => by
    have hlt := h e he
    rw [heq, keyLt_self] at hlt
    exact Bool.noConfusion hlt)

theorem above_filter {α : Type} {k : Key} {l : List (Key × α)} (p : Key × α → Bool) (h : above k l) : above k (l.filter p) :=
  fun e he => h e (List.mem_filter.mp he).1

theorem above_mapVal {α β : Type} {k : Key} {l : List (Key × α)} (f : Key → α → β) (h : above k l) :
    above k (l.map (fun e => (e.1, f e.1 e.2))) := by
  intro e he
  obtain ⟨e', he', rfl⟩ := List.mem_map.mp he
  exact h e' he'

/-- R208: halved entries, those at 0 no longer listed, read as the halves. -/
theorem get_halved {m : Map Nat} (h : m.wf = true) (k : Key) :
    (⟨(m.each (fun _ v => v / 2)).entries.filter (fun e => decide (e.2 ≠ 0))⟩ : Map Nat).get 0 k = m.get 0 k / 2 := by
  obtain ⟨l⟩ := m
  change (find ((l.map (fun e => (e.1, e.2 / 2))).filter (fun e => decide (e.2 ≠ 0))) k).getD 0 = (find l k).getD 0 / 2
  induction l with
  | nil => simp [find]
  | cons e l ih =>
    obtain ⟨k', v⟩ := e
    obtain ⟨habove, hl⟩ := sorted_cons.mp h
    rw [List.map_cons, List.filter_cons, find]
    by_cases hk : k' = k
    · subst hk
      rw [if_pos rfl]
      have hrest := find_eq_none_of_above (above_filter (fun e => decide (e.2 ≠ 0)) (above_mapVal (fun _ v => v / 2) habove))
      by_cases hv : v / 2 = 0
      · simp only [hv, ne_eq, not_true_eq_false, decide_false, Bool.false_eq_true, if_false, Option.getD_some]
        rw [hrest]
        rfl
      · simp [hv, find]
    · rw [if_neg hk, ← ih hl]
      by_cases hv : v / 2 = 0
      · simp [hv]
      · simp [hv, find, hk]

/-- Entries advanced one after another, each once: what is not among them stays. -/
theorem get_foldl_set {f : Nat → Nat} {l : List Nat} {m : Map Nat} {e : Nat} (hl : l.Nodup) :
    (l.foldl (fun m e => m.set [e] (f (m.get 0 [e]))) m).get 0 [e] =
      if e ∈ l then f (m.get 0 [e]) else m.get 0 [e] := by
  induction l generalizing m with
  | nil => rfl
  | cons x l ih =>
    obtain ⟨hx, hl⟩ := List.nodup_cons.mp hl
    rw [List.foldl_cons, ih hl]
    by_cases he : e = x
    · subst he
      simp [hx]
    · rw [get_set_other _ _ _ (by simpa using he)]
      simp [he]

end Map

/-- The element of greatest measure is one of the list. -/
theorem mem_of_argMax {α : Type} {f : α → Nat} {l : List α} {a : α} (h : argMax f l = some a) : a ∈ l := by
  induction l generalizing a with
  | nil => simp [argMax] at h
  | cons x l ih =>
    rw [argMax] at h
    split at h
    case h_1 => exact Option.some.inj h ▸ List.mem_cons_self
    case h_2 b hb =>
      split at h
      · exact Option.some.inj h ▸ List.mem_cons_self
      · exact Option.some.inj h ▸ List.mem_cons_of_mem _ (ih hb)

namespace Machine

open Sys2Proof.Safety

variable {s t : State}

theorem State.foldl_eq_self {α : Type} {g : State → α → State} {xs : List α} (h : ∀ x ∈ xs, g s x = s) :
    xs.foldl g s = s := by
  induction xs with
  | nil => rfl
  | cons x xs ih =>
    obtain ⟨hx, hxs⟩ := List.forall_mem_cons.mp h
    rw [List.foldl_cons, hx, ih hxs]

theorem changes_inTier (k : Tier) (s : State) : Changes [] [.tier] s { s with tier := k } := (Changes.refl _ _ s).inTier k

theorem Changes.symm {l : List Fld} {ps : List Part} (h : Changes l ps s t) : Changes l ps t s := by
  refine ⟨fun f ix hf hl => (h.regs f ix hf hl).symm, fun p hp => ?_, fun f hf hl => (h.lists f hf hl).symm⟩
  have hsame := h.parts p hp
  cases p <;> exact hsame.symm

theorem State.started_ready {f : Fld} {ix : List Nat} (h : s.isReady f.block = true) (t : State) : s.started f ix t = t :=
  if_pos h

/-! ### Extents (R161) -/

/-- The fields by which extents are counted. -/
def extentCountFields : List Fld :=
  [R.GLB_NODE_node, R.POL_STATUS_extents, R.POL_LEND_valid, R.POL_LEND_node, R.POL_LEND_extents]

theorem Changes.extentCount {l : List Fld} {ps : List Part} (h : Changes l ps s t) (node : Nat)
    (hl : ∀ f ∈ extentCountFields, ∀ g ∈ l, f.num ≠ g.num := by decide) : t.extents node = s.extents node := by
  simp only [extentCountFields, List.forall_mem_cons] at hl
  obtain ⟨hnode, hextents, hvalid, hlender, hlent, -⟩ := hl
  have hown : t.node = s.node := h.rd R.GLB_NODE_node [] (hl := hnode)
  have hlend : t.lendOf node = s.lendOf node := by
    simp only [State.lendOf, h.lists R.POL_LEND_valid (by decide) hvalid, h.rd R.POL_LEND_node _ (hl := hlender)]
  rw [State.extents, State.extents, hown, hlend, h.rd R.POL_STATUS_extents _ (hl := hextents)]
  simp only [h.rd R.POL_LEND_extents _ (hl := hlent)]

theorem Changes.extRecord {l : List Fld} {ps : List Part} (h : Changes l ps s t) (node e : Nat)
    (hl : ∀ f ∈ extentCountFields, ∀ g ∈ l, f.num ≠ g.num := by decide) (hp : Part.pool ∉ ps := by decide) :
    t.ext node e = s.ext node e := by
  rw [State.ext, h.extentCount node hl, show t.pool = s.pool from h.parts .pool hp, State.ext]

theorem Changes.ownNode {l : List Fld} {ps : List Part} (h : Changes l ps s t)
    (hl : ∀ f ∈ extentCountFields, ∀ g ∈ l, f.num ≠ g.num := by decide) : t.node = s.node :=
  h.rd R.GLB_NODE_node [] (hl := hl _ (by simp [extentCountFields]))

theorem State.ext_setExt {node e : Nat} (h : e < s.extents node) (x : Ext) : (s.setExt node e x).ext node e = x := by
  have hextents : e < (s.setExt node e x).extents node := h
  rw [State.ext, if_pos hextents, State.setExt]
  dsimp only
  by_cases hx : x = {}
  · rw [if_pos hx, Map.get_erase_same, hx]
  · rw [if_neg hx, Map.get_set_same]

/-! ### Slots (R207, R480) -/

/-- R480: what is picked lies in a unit with a free slot. -/
theorem State.freeSlots_of_pick {board move : Bool} {units : List Nat} {l : Loc} (h : s.pick board move units = some l) :
    ∃ u ∈ units, 0 < s.freeSlots board u := by
  obtain ⟨u, hu, -⟩ := Option.bind_eq_some_iff.mp h
  obtain ⟨hmem, hfree⟩ := List.mem_filter.mp (mem_of_argMax hu)
  rw [Bool.and_eq_true, decide_eq_true_iff] at hfree
  exact ⟨u, hmem, hfree.1⟩

/-- Only records of extents differ, and the tags of board slots. -/
def Reslots (s t : State) : Prop :=
  ∃ x g, t = { s with pool := { s.pool with ext := x }, tier := { s.tier with tags := g } }

theorem reslots_setOwn (e : Nat) (x : Ext) (s : State) : Reslots s (s.setOwn e x) := by
  unfold State.setOwn
  dsimp only
  split
  · split
    · exact ⟨_, _, rfl⟩
    · exact ⟨_, s.tier.tags, rfl⟩
  · exact ⟨_, s.tier.tags, rfl⟩

/-- R207: slots that leave service make extents ABSENT. -/
theorem reslots_loseSlots (n : Nat) (s : State) : Reslots s (s.loseSlots n) := by
  unfold State.loseSlots
  generalize ((List.range (s.extents s.node)).filter (fun e => decide ((s.ext s.node e).state = .free))).reverse.take n = l
  induction l generalizing s with
  | nil => exact ⟨s.pool.ext, s.tier.tags, rfl⟩
  | cons e l ih =>
    obtain ⟨x, g, hone⟩ := reslots_setOwn e { state := .absent } s
    obtain ⟨x', g', hrest⟩ := ih (s.setOwn e { state := .absent })
    exact ⟨x', g', by rw [List.foldl_cons, hrest, hone]⟩

theorem State.regainSlots_zero (s : State) : s.regainSlots 0 = s := by rw [State.regainSlots, List.take_zero, List.foldl_nil]

theorem Reslots.changes (h : Reslots s t) : Changes [] [.pool, .tier] s t := by
  obtain ⟨x, g, rfl⟩ := h
  exact ((Changes.refl [] [.pool, .tier] s).inPool { s.pool with ext := x }).inTier { s.tier with tags := g }

theorem Reslots.gone_eq (h : Reslots s t) : t.tier.gone = s.tier.gone := by
  obtain ⟨x, g, rfl⟩ := h
  rfl

theorem Reslots.loc_eq (h : Reslots s t) : t.tier.loc = s.tier.loc := by
  obtain ⟨x, g, rfl⟩ := h
  rfl

/-- A channel's slots recorded as gone (R207). -/
def State.goneAt (c n : Nat) (s : State) : State := { s with tier := { s.tier with gone := s.tier.gone.set [c] n } }

theorem changes_goneAt (c n : Nat) (s : State) : Changes [] [.tier] s (s.goneAt c n) := changes_inTier _ s

/-- R186, R202, R217: a unit without extents that fails takes its free slots out of service. -/
theorem State.unitFails_empty {board : Bool} {u : Nat} (h : s.extentsIn board u = []) (set : State → State) :
    s.unitFails board u set = (set s).loseSlots (s.freeSlots board u) := by
  rw [State.unitFails, h, State.loseExtents, List.foldl_nil]

/-! ### Moves (R212, R213) -/

/-- The record of an extent's move. -/
def State.putMove (e : Nat) (m : Move) (s : State) : State :=
  { s with tier := { s.tier with moves := s.tier.moves.set [e] m } }

@[simp] theorem State.moves_putMove (e : Nat) (m : Move) (s : State) : (s.putMove e m).tier.moves.get? [e] = some m :=
  Map.get?_set_same _ _ _

@[simp] theorem State.trk_putMove (e : Nat) (m : Move) (s : State) : (s.putMove e m).trk = s.trk := rfl

theorem changes_putMove (e : Nat) (m : Move) (s : State) : Changes [] [.tier] s (s.putMove e m) := changes_inTier _ s

theorem changes_startMove (e : Nat) (kind : MoveKind) (zero : Bool) (dst : Loc) (die : Nat) (s : State) :
    Changes [] [.tier] s (s.startMove e kind zero dst die) := changes_inTier _ s

theorem State.moves_startMove (e : Nat) (kind : MoveKind) (dst : Loc) (die : Nat) (s : State) :
    (s.startMove e kind false dst die).tier.moves.get? [e] =
      some { kind := kind, src := s.tier.loc.get? [e], dst := dst, die := die } := Map.get?_set_same _ _ _

/-- R213: where nothing waits on a lock, its end serves nothing. -/
theorem State.unlockWaiters_idle {e k : Nat} {m : Move} (hmove : s.tier.moves.get? [e] = some m) (hwait : m.wait = [])
    (hflow : s.trk.flowWait = []) : s.unlockWaiters e k = s.putMove e m := by
  have hsame : { m with wait := [] } = m := by rw [← hwait]
  rw [State.unlockWaiters, hmove]
  dsimp only
  rw [hwait, List.filter_nil, List.filter_nil, List.foldl_nil, hsame]
  exact State.turns_unqueued hflow

theorem changes_countColumns (u n : Nat) (s : State) : Changes [] [.tier] s (s.countColumns u n) := changes_inTier _ s

/-- R197: a copied chunk counts at the units it touches. -/
theorem changes_countCopy (src : Option Loc) (dst : Loc) (s : State) : Changes [] [.tier] s (s.countCopy src dst) := by
  have hcolumns (u : Nat) (k : List Nat) (t : State) :
      Changes [] [.tier] t ((t.countColumns u 2048).bumpBy R.MEM_CNT_count k 2048) :=
    (changes_countColumns u 2048 t).trans ((changes_bumpBy _ _ _).weaken (by simp))
  have hboard (k : List Nat) (n : Nat) (t : State) : Changes [] [.tier] t (t.bumpBy R.BRD_CNT_count k n) :=
    (changes_bumpBy _ _ t).weaken (by simp)
  have hsrc : Changes [] [.tier] s (match src with
      | some l => if l.board then s.bumpBy R.BRD_CNT_count [l.unit, 0] 512
        else (s.countColumns l.unit 2048).bumpBy R.MEM_CNT_count [l.unit, 0] 2048
      | none => if dst.board then s.bump R.BRD_CNT_count [dst.unit, 5] else s) := by
    split
    · exact Changes.ite (hboard _ _ s) (hcolumns _ _ s)
    · exact Changes.ite (hboard _ 1 s) (Changes.refl _ _ s)
  exact hsrc.trans (Changes.ite (hboard _ _ _) (hcolumns _ _ _))

theorem changes_setPoison (line : Nat) (p : Bool) (s : State) : Changes [] [.poison] s (s.setPoison line p) := by
  refine ⟨fun _ _ _ _ => rfl, fun q hq => ?_, fun _ _ _ => rfl⟩
  cases q
  case poison => exact absurd (by decide) hq
  all_goals rfl

/-- R202: lines of failed pseudo-channels are carried as poison. -/
theorem changes_carryPoison (e k : Nat) (s : State) : Changes [] [.poison] s (s.carryPoison e k) :=
  Changes.foldl _ (fun t _ => Changes.ite (changes_setPoison _ _ t) (Changes.refl _ _ t)) _ s

/-! ### Units that leave (R216, R217) -/

/-- A field whose reset value is not `v`, and no listed copy of which holds `v`, reads as `v` nowhere. -/
theorem State.rd_ne_of_listed {f : Fld} {ix : List Nat} {v : Nat} (hreset : f.resetAt ix ≠ v)
    (h : (s.listed f).all (fun k => decide (s.rd f k ≠ v)) = true) : s.rd f ix ≠ v := by
  by_cases hix : ix ∈ s.listed f
  · exact of_decide_eq_true (List.all_eq_true.mp h ix hix)
  · rwa [State.rd_of_not_listed hix]

/-- No stack is RETIRING and no board channel is DRAINING, by what their status registers read. -/
structure NoneLeaves (s : State) : Prop where
  noStack : ∀ u, s.rd R.MEM_STACK_STATUS_state [u] ≠ 2
  noChannel : ∀ c, s.rd R.BRD_CH_STATUS_state [c] ≠ 3

theorem noneLeaves_of_settled (h : Settled s) : NoneLeaves s :=
  ⟨fun _ => State.rd_ne_of_listed (show 0 ≠ 2 by decide) h.1, fun _ => State.rd_ne_of_listed (show 0 ≠ 3 by decide) h.2⟩

theorem NoneLeaves.of_rd (h : NoneLeaves s) (hrd : ∀ f ∈ [R.MEM_STACK_STATUS_state, R.BRD_CH_STATUS_state], ∀ ix,
    t.rd f ix = s.rd f ix) : NoneLeaves t :=
  ⟨fun u => by rw [hrd _ (by simp)]; exact h.noStack u, fun c => by rw [hrd _ (by simp)]; exact h.noChannel c⟩

theorem NoneLeaves.of_changes {l : List Fld} {ps : List Part} (h : NoneLeaves s) (hc : Changes l ps s t)
    (hl : ∀ f ∈ [R.MEM_STACK_STATUS_state, R.BRD_CH_STATUS_state], ∀ g ∈ l, f.num ≠ g.num := by decide) : NoneLeaves t := by
  have hreports : ∀ f ∈ [R.MEM_STACK_STATUS_state, R.BRD_CH_STATUS_state], ¬ Reports f := by decide
  exact h.of_rd (fun f hf ix => hc.regs f ix (hreports f hf) (hl f hf))

theorem NoneLeaves.leaving (h : NoneLeaves s) (l : Loc) : s.leaving l = false := by
  rw [State.leaving]
  split
  · exact decide_eq_false (h.noChannel _)
  · exact decide_eq_false (h.noStack _)

/-- R207: extents that are not LOST keep their slots. -/
theorem State.giveUpLost_none {board : Bool} {u : Nat}
    (h : ∀ en ∈ s.tier.loc.entries, en.2.board = board → en.2.unit = u → (s.ext s.node (en.1.headD 0)).state ≠ .lost) :
    s.giveUpLost board u = s := by
  have hnone : (s.sitting board u).filter (fun e => (s.ext s.node e).state = .lost) = [] := by
    refine List.filter_eq_nil_iff.mpr (fun e he => ?_)
    obtain ⟨en, hen, rfl⟩ := List.mem_map.mp he
    obtain ⟨hin, hsits⟩ := List.mem_filter.mp hen
    rw [decide_eq_true_iff] at hsits
    simpa using h en hin hsits.1 hsits.2
  rw [State.giveUpLost, hnone, List.foldl_nil]

/-- R216, R217: where no extent in a unit that leaves is LOST, those that have emptied leave service, and moves begin. -/
theorem State.leave_eq (h : ∀ en ∈ s.tier.loc.entries, s.leaving en.2 = true → (s.ext s.node (en.1.headD 0)).state ≠ .lost) :
    s.leave = s.emptied.pump := by
  have hstacks : ((List.range 20).filter (fun u => decide (s.rd R.MEM_STACK_STATUS_state [u] = 2))).foldl
      (fun t u => t.giveUpLost false u) s = s := by
    refine State.foldl_eq_self (fun u hu => State.giveUpLost_none (fun en hen hboard hunit => h en hen ?_))
    rw [State.leaving, hboard, hunit]
    exact (List.mem_filter.mp hu).2
  have hchannels : ((List.range 8).filter (fun c => decide (s.rd R.BRD_CH_STATUS_state [c] = 3))).foldl
      (fun t c => t.giveUpLost true c) s = s := by
    refine State.foldl_eq_self (fun c hc => State.giveUpLost_none (fun en hen hboard hunit => h en hen ?_))
    rw [State.leaving, hboard, hunit]
    exact (List.mem_filter.mp hc).2
  rw [State.leave, hstacks, hchannels]

/-- A unit that leaves and still has slots taken stays as it is. -/
theorem State.emptied_eq_self (hstacks : ∀ u, s.rd R.MEM_STACK_STATUS_state [u] = 2 → s.taken false u ≠ [])
    (hchannels : ∀ c, s.rd R.BRD_CH_STATUS_state [c] = 3 → s.taken true c ≠ []) : s.emptied = s := by
  have hst : (List.range 20).filter (fun u => decide (s.rd R.MEM_STACK_STATUS_state [u] = 2 ∧ s.taken false u = [])) = [] :=
    List.filter_eq_nil_iff.mpr (fun u _ => by simpa using hstacks u)
  have hch : (List.range 8).filter (fun c => decide (s.rd R.BRD_CH_STATUS_state [c] = 3 ∧ s.taken true c = [])) = [] :=
    List.filter_eq_nil_iff.mpr (fun c _ => by simpa using hchannels c)
  rw [State.emptied]
  dsimp only
  rw [hst, hch, List.foldl_nil, List.foldl_nil]

theorem State.pump_eq_self (h : ∀ en ∈ s.tier.loc.entries, s.leaving en.2 = false) : s.pump = s := by
  have hnone : s.tier.loc.entries.filter (fun e => s.leaving e.2) = [] :=
    List.filter_eq_nil_iff.mpr (fun en hen => by simp [h en hen])
  rw [State.pump, hnone, List.foldl_nil]

theorem NoneLeaves.leave_eq (h : NoneLeaves s) : s.leave = s := by
  rw [State.leave_eq (fun en _ hleaves => absurd hleaves (by simp [h.leaving])),
    State.emptied_eq_self (fun u hu => absurd hu (h.noStack u)) (fun c hc => absurd hc (h.noChannel c)),
    State.pump_eq_self (fun en _ => h.leaving en.2)]

/-- R217: a DRAINING channel that has emptied is OFFLINE, its slots out of service. -/
def State.drained (c : Nat) (s : State) : State :=
  ((s.wr R.BRD_CH_STATUS_state [c] 4).loseSlots (s.rd R.BRD_CH_STATUS_slots [c])).goneAt c (s.rd R.BRD_CH_STATUS_slots [c])

theorem State.emptied_channel {c : Nat} (hstacks : ∀ u, s.rd R.MEM_STACK_STATUS_state [u] ≠ 2)
    (hchannels : ∀ k, s.rd R.BRD_CH_STATUS_state [k] = 3 ∧ s.taken true k = [] ↔ k = c) (hc : c < 8) :
    s.emptied = s.drained c := by
  have hst : (List.range 20).filter (fun u => decide (s.rd R.MEM_STACK_STATUS_state [u] = 2 ∧ s.taken false u = [])) = [] :=
    List.filter_eq_nil_iff.mpr (fun u _ => by simp [hstacks u])
  have hch : (List.range 8).filter (fun k => decide (s.rd R.BRD_CH_STATUS_state [k] = 3 ∧ s.taken true k = [])) = [c] := by
    simp only [hchannels]
    rw [List.filter_eq, List.nodup_range.count, if_pos (List.mem_range.mpr hc)]
    rfl
  rw [State.emptied]
  dsimp only
  rw [hst, hch]
  rfl

end Machine

end Sys2Proof
end

section
/-! PROOF. The statement on the tiers' moves (R208, R210 to R217), the part on extents: ages and heat, demotion and
promotion, the copy of an extent, moves by command, and the retirement of a stack. -/

namespace Sys2Proof.Machine

open Sys2Proof.Safety

variable {s t : State}

/-! ### Ages and heat (R208) -/

/-- R208: each placed extent one older, every heat halved. -/
def State.agesTicked (s : State) : State :=
  { s with tier := { s.tier with
    ageAt := s.beat + 1,
    age := s.aged.foldl (fun m e => m.set [e] (min 65535 (m.get 0 [e] + 1))) s.tier.age,
    heat := ⟨(s.tier.heat.each (fun _ h => h / 2)).entries.filter (fun e => decide (e.2 ≠ 0))⟩ } }

theorem exec_ageTick (hbeat : s.beat % 2 ^ s.rd R.MEM_AGE_CFG_period_log2 [] = 0) (hfirst : s.tier.ageAt ≠ s.beat + 1) :
    exec .ageTick s = serving s s.agesTicked := by
  change execAgeTick s = _
  rw [execAgeTick, if_neg (by simp [hbeat, hfirst])]
  rfl

theorem State.age_agesTicked (hnodup : s.aged.Nodup) {e : Nat} (he : e ∈ s.aged) :
    s.agesTicked.tier.age.get 0 [e] = min 65535 (s.tier.age.get 0 [e] + 1) :=
  (Map.get_foldl_set (f := fun a => min 65535 (a + 1)) hnodup).trans (if_pos he)

theorem gives_ageTick (h : Serves s) (hbeat : s.beat % 2 ^ s.rd R.MEM_AGE_CFG_period_log2 [] = 0)
    (hfirst : s.tier.ageAt ≠ s.beat + 1) (hnodup : s.aged.Nodup) (hwf : s.tier.heat.wf = true) :
    Gives .ageTick s (fun t => (∀ e ∈ s.aged, t.tier.age.get 0 [e] = min 65535 (s.tier.age.get 0 [e] + 1)) ∧ (∀ k,
      t.tier.heat.get 0 k = s.tier.heat.get 0 k / 2) ∧ t.tier.loc = s.tier.loc ∧ RegsBut [] s t ∧ PartsBut [.tier] s t) :=
  gives_serving (exec_ageTick hbeat hfirst) h
    ⟨fun _ he => State.age_agesTicked hnodup he, Map.get_halved hwf, rfl, (changes_inTier _ s).after⟩

/-! ### Demotion and promotion (R210, R211) -/

/-- A die goes on demoting until `high_free` of its slots are free (R210). -/
def State.demotes (d : Nat) (s : State) : State :=
  { s with tier := { s.tier with demoting := s.tier.demoting.set [d] () } }

theorem exec_demotion {d e : Nat} {l : Loc} (hon : s.on R.MEM_TIER_CFG_enable [] = true)
    (hfree : s.stackFree d < s.rd R.MEM_TIER_CFG_low_free []) (hmay : s.mayMove d = true)
    (hold : s.oldestEligible d = some e) (hdst : s.boardDst d = some l) :
    exec (.demotion d) s = serving s ((s.demotes d).startMove e .demotion false l d) := by
  have hmay' : (s.demotes d).mayMove d = true := hmay
  have hold' : (s.demotes d).oldestEligible d = some e := hold
  have hdst' : (s.demotes d).boardDst d = some l := hdst
  have hdemotes : (decide (s.stackFree d < s.rd R.MEM_TIER_CFG_low_free []) ||
      (s.tier.demoting.has [d] && decide (s.stackFree d < s.rd R.MEM_TIER_CFG_high_free []))) = true := by simp [hfree]
  change execDemotion d s = _
  rw [execDemotion, if_neg (by simp [hon])]
  dsimp only
  rw [hdemotes, if_pos rfl]
  change serving s (if ¬ true = true ∨ ¬ (s.demotes d).mayMove d = true then _ else
    match (s.demotes d).oldestEligible d, (s.demotes d).boardDst d with
    | some e, some l => (s.demotes d).startMove e .demotion false l d
    | _, _ => s.demotes d) = _
  rw [if_neg (by simp [hmay']), hold', hdst']

theorem gives_demotion (h : Serves s) {d e : Nat} {l : Loc} (hon : s.on R.MEM_TIER_CFG_enable [] = true)
    (hfree : s.stackFree d < s.rd R.MEM_TIER_CFG_low_free []) (hmay : s.mayMove d = true)
    (hold : s.oldestEligible d = some e) (hdst : s.boardDst d = some l) :
    Gives (.demotion d) s (fun t => t.tier.moves.get? [e] =
      some { kind := .demotion, src := s.tier.loc.get? [e], dst := l, die := d } ∧ t.tier.loc = s.tier.loc ∧ t.mem = s.mem ∧
      RegsBut [] s t ∧ PartsBut [.tier] s t) :=
  gives_serving (exec_demotion hon hfree hmay hold hdst) h
    ⟨State.moves_startMove e .demotion l d (s.demotes d), rfl, rfl,
      ((changes_inTier _ s).trans (changes_startMove e .demotion false l d (s.demotes d))).after⟩

theorem gives_promotion (h : Serves s) {e : Nat} {l : Loc} (hon : s.on R.MEM_TIER_CFG_enable [] = true)
    (hboard : s.inBoard e = true) (hstill : s.tier.moves.has [e] = false) (hheld : (s.ext s.node e).state = .held)
    (hhot : s.rd R.MEM_TIER_CFG_promote_heat [] ≤ s.tier.heat.get 0 [e]) (hmay : s.mayMove (s.ext s.node e).die = true)
    (hhub : s.pkg.hubLost.has [(s.ext s.node e).die] = false) (hunit : s.movesAt true (s.tier.loc.get {} [e]).unit = 0)
    (hswap : s.tier.swaps.vals.contains e = false) (hdst : s.promoteTo (s.ext s.node e).die = some l) :
    Gives (.promotion e) s (fun t => t.tier.moves.get? [e] =
      some { kind := .promotion, src := s.tier.loc.get? [e], dst := l, die := (s.ext s.node e).die } ∧
      t.tier.loc = s.tier.loc ∧ t.mem = s.mem ∧ RegsBut [] s t ∧ PartsBut [.tier] s t) := by
  have hexec : exec (.promotion e) s = serving s (s.startMove e .promotion false l (s.ext s.node e).die) := by
    change execPromotion e s = _
    rw [execPromotion]
    dsimp only
    rw [hswap, if_neg (by simp [hon, hboard, hstill, hheld, hmay, hhub, hunit, Nat.not_lt.mpr hhot]), hdst]
  exact gives_serving hexec h ⟨State.moves_startMove e .promotion l _ s, rfl, rfl, (changes_startMove _ _ _ _ _ s).after⟩

/-! ### The copy of an extent (R212 to R214) -/

theorem State.lockChunk_next {e k : Nat} {m : Move} (hmove : s.tier.moves.get? [e] = some m) (hlock : m.lock = none)
    (hwhole : m.whole = none) (hresume : m.resumeAt = none) (hurgent : m.urgent = none) (hgap : m.gapUntil ≤ s.now)
    (hcut : s.moveCut e m = false) (hheld : (s.ext s.node e).state = .held)
    (hnext : (List.range 1024).find? (fun k => !bitAt m.copied k) = some k) :
    s.lockChunk e = s.putMove e { m with lock := some (k, s.now) } := by
  rw [State.lockChunk, hmove]
  dsimp only
  rw [if_neg (by simp [hlock, hwhole, hresume, hcut, hheld, Nat.not_lt.mpr hgap]), hurgent, Option.none_or, hnext]
  rfl

theorem gives_migrationChunk (h : Serves s) {e k : Nat} {m : Move} (hsettled : Settled s)
    (hmove : s.tier.moves.get? [e] = some m) (hlock : m.lock = none) (hwhole : m.whole = none) (hresume : m.resumeAt = none)
    (hurgent : m.urgent = none) (hgap : m.gapUntil ≤ s.now) (hcut : s.moveCut e m = false)
    (hheld : (s.ext s.node e).state = .held)
    (hnext : (List.range 1024).find? (fun k => !bitAt m.copied k) = some k) :
    Gives (.migrationChunk e) s (fun t => t.tier.moves.get? [e] = some { m with lock := some (k, s.now) } ∧
      RegsBut [] s t ∧ PartsBut [.tier] s t) := by
  have hexec : exec (.migrationChunk e) s = serving s (s.putMove e { m with lock := some (k, s.now) }) := by
    change execMigrationChunk e s = _
    rw [execMigrationChunk, (noneLeaves_of_settled hsettled).leave_eq,
      State.lockChunk_next hmove hlock hwhole hresume hurgent hgap hcut hheld hnext]
  exact gives_serving hexec h ⟨State.moves_putMove _ _ s, (changes_putMove _ _ s).after⟩

/-- R197, R202, R212: a chunk copied in time carries its poison and is counted. -/
def State.chunkCounted (e k : Nat) (m : Move) (s : State) : State :=
  ((s.carryPoison e k).countCopy m.src m.dst).bump R.MEM_DIE_CNT_count [(s.ext s.node e).die, 3]

theorem changes_chunkCounted (e k : Nat) (m : Move) (s : State) :
    Changes [] [.tier, .poison] s (s.chunkCounted e k m) :=
  (((changes_carryPoison e k s).weaken (by simp)).trans ((changes_countCopy _ _ _).weaken (by simp))).trans
    ((changes_bump _ _).weaken (by simp))

/-- The record of a move with its chunk copied in time. -/
def Move.withChunk (m : Move) (k gapUntil : Nat) : Move :=
  { m with lock := none, gapUntil := gapUntil, abandons := 0, copied := m.copied ||| 1 <<< k, whole := none }

theorem State.copyDone_inTime {e k t0 : Nat} {m : Move} (hmove : s.tier.moves.get? [e] = some m)
    (hlock : m.lock = some (k, t0)) (hin : s.now ≤ t0 + 2000) (hwait : m.wait = []) (hflow : s.trk.flowWait = [])
    (hmore : (m.copied ||| 1 <<< k) % 2 ^ 1024 ≠ 2 ^ 1024 - 1) :
    s.copyDone e = ((s.chunkCounted e k m).putMove e (m.withChunk k (s.now + 8 * s.rd R.MEM_MIG_CFG_gap []))).putMove e
      (m.withChunk k (s.now + 8 * s.rd R.MEM_MIG_CFG_gap [])) := by
  have hflow' : (s.chunkCounted e k m).trk.flowWait = [] := by
    rw [show (s.chunkCounted e k m).trk = s.trk from (changes_chunkCounted e k m s).parts .trk (by decide), hflow]
  have hmore' : decide ((m.copied ||| 1 <<< k) % 2 ^ 1024 = 2 ^ 1024 - 1) = false := decide_eq_false hmore
  have hidle := State.unlockWaiters_idle (k := k) (s := (s.chunkCounted e k m).putMove e
    (m.withChunk k (s.now + 8 * s.rd R.MEM_MIG_CFG_gap []))) (State.moves_putMove e _ _) hwait hflow'
  rw [State.copyDone, hmove]
  dsimp only
  rw [hlock]
  dsimp only
  rw [if_neg (Nat.not_lt.mpr hin), hmore']
  exact hidle

theorem gives_chunkCopyDone (h : Serves s) {e k t0 : Nat} {m : Move} (hmove : s.tier.moves.get? [e] = some m)
    (hlock : m.lock = some (k, t0)) (hin : s.now ≤ t0 + 2000) (hwait : m.wait = []) (hflow : s.trk.flowWait = [])
    (hmore : (m.copied ||| 1 <<< k) % 2 ^ 1024 ≠ 2 ^ 1024 - 1) :
    Gives (.chunkCopyDone e) s (fun t => t.tier.moves.get? [e] = some
      { m with lock := none, gapUntil := s.now + 8 * s.rd R.MEM_MIG_CFG_gap [], abandons := 0,
               copied := m.copied ||| 1 <<< k, whole := none } ∧ t.mem = s.mem ∧
      RegsBut [] s t ∧ PartsBut [.tier, .poison] s t) := by
  have hcopied := changes_chunkCounted e k m s
  have hexec : exec (.chunkCopyDone e) s = serving s (s.copyDone e) := rfl
  rw [State.copyDone_inTime hmove hlock hin hwait hflow hmore] at hexec
  have hall := (hcopied.trans ((changes_putMove e (m.withChunk k (s.now + 8 * s.rd R.MEM_MIG_CFG_gap [])) _).weaken
    (by simp))).trans ((changes_putMove e (m.withChunk k (s.now + 8 * s.rd R.MEM_MIG_CFG_gap [])) _).weaken (by simp))
  exact gives_serving hexec h ⟨State.moves_putMove _ _ _, hall.parts .mem (by decide), hall.after⟩

/-- The record of a move whose chunk's copy took too long. -/
def Move.abandoned (m : Move) (gapUntil : Nat) : Move :=
  { m with lock := none, gapUntil := gapUntil, abandons := m.abandons + 1 }

/-- R212: a copy that took too long is counted and signalled. -/
def State.chunkAbandoned (e : Nat) (m : Move) (s : State) : State :=
  (((s.putMove e m).bump R.MEM_DIE_CNT_count [(s.ext s.node e).die, 4]).event B.mem 6)

theorem changes_chunkAbandoned (e : Nat) (m : Move) (s : State) :
    Changes [] [.tier, .out, .hif] s (s.chunkAbandoned e m) :=
  (((changes_putMove e m s).weaken (by simp)).trans ((changes_bump _ _).weaken (by simp))).told
    ((Told.refl _).event _ _)

theorem State.copyDone_late {e k t0 : Nat} {m : Move} (hmove : s.tier.moves.get? [e] = some m)
    (hlock : m.lock = some (k, t0)) (hlate : t0 + 2000 < s.now) (hwait : m.wait = []) (hflow : s.trk.flowWait = [])
    (hfew : m.abandons < 7) (hresume : m.resumeAt = none) :
    s.copyDone e = (s.chunkAbandoned e (m.abandoned (s.now + 8 * s.rd R.MEM_MIG_CFG_gap []))).putMove e
      (m.abandoned (s.now + 8 * s.rd R.MEM_MIG_CFG_gap [])) := by
  generalize hm' : m.abandoned (s.now + 8 * s.rd R.MEM_MIG_CFG_gap []) = m'
  have hrecord : { m with lock := none, gapUntil := s.now + 8 * s.rd R.MEM_MIG_CFG_gap [], abandons := m.abandons + 1,
                          resumeAt := none } = m' := by rw [← hm', Move.abandoned, ← hresume]
  have htrk : (s.chunkAbandoned e m').trk = s.trk := (changes_chunkAbandoned e m' s).parts .trk (by decide)
  have hmoves : (s.chunkAbandoned e m').tier.moves.get? [e] = some m' := by
    rw [State.chunkAbandoned, State.event_tier_eq, State.bump_tier_eq, State.moves_putMove]
  have hidle := State.unlockWaiters_idle (k := k) hmoves (by rw [← hm']; exact hwait) (by rw [htrk, hflow])
  rw [State.copyDone, hmove]
  dsimp only
  rw [hlock]
  dsimp only
  rw [if_pos hlate, if_neg (by omega), if_neg (by omega), hrecord]
  exact hidle

theorem gives_chunkCopyDone_late (h : Serves s) {e k t0 : Nat} {m : Move} (hmove : s.tier.moves.get? [e] = some m)
    (hlock : m.lock = some (k, t0)) (hlate : t0 + 2000 < s.now) (hwait : m.wait = []) (hflow : s.trk.flowWait = [])
    (hfew : m.abandons < 7) (hresume : m.resumeAt = none) :
    Gives (.chunkCopyDone e) s (fun t => t.tier.moves.get? [e] = some
      { m with lock := none, gapUntil := s.now + 8 * s.rd R.MEM_MIG_CFG_gap [], abandons := m.abandons + 1 } ∧
      RegsBut [] s t ∧ PartsBut [.tier, .out, .hif] s t) := by
  have hexec : exec (.chunkCopyDone e) s = serving s (s.copyDone e) := rfl
  rw [State.copyDone_late hmove hlock hlate hwait hflow hfew hresume] at hexec
  exact gives_serving hexec h ⟨State.moves_putMove _ _ _,
    ((changes_chunkAbandoned _ _ s).trans ((changes_putMove _ _ _).weaken (by simp))).after⟩

theorem gives_movePauseEnd (h : Serves s) {e b : Nat} {m : Move} (hmove : s.tier.moves.get? [e] = some m)
    (hresume : m.resumeAt = some b) (hdue : b ≤ s.now) :
    Gives (.movePauseEnd e) s (fun t => t.tier.moves.get? [e] = some { m with resumeAt := none } ∧ RegsBut [] s t ∧
      PartsBut [.tier] s t) := by
  have hexec : exec (.movePauseEnd e) s = serving s (s.putMove e { m with resumeAt := none }) := by
    change execMovePauseEnd e s = _
    rw [execMovePauseEnd, hmove]
    dsimp only
    rw [hresume]
    dsimp only
    rw [if_pos hdue]
    rfl
  exact gives_serving hexec h ⟨State.moves_putMove _ _ s, (changes_putMove _ _ s).after⟩


/-! ### An extent at its destination (R212, R214) -/

/-- R212, R214: the extent lies at the move's destination, its home die with it, and no move or swap of it is left. -/
def State.relocated (e : Nat) (m : Move) (tags : Map Nat) (s : State) : State :=
  let t := s.setExt s.node e { s.ext s.node e with die := m.die }
  { t with tier := { t.tier with moves := t.tier.moves.erase [e], loc := t.tier.loc.set [e] m.dst,
                                 heat := t.tier.heat.erase [e], swaps := t.tier.swaps.erase [e], tags := tags } }

theorem changes_relocated (e : Nat) (m : Move) (tags : Map Nat) (s : State) :
    Changes [] [.pool, .tier] s (s.relocated e m tags) := ((Changes.refl _ _ s).inPool _).inTier _

theorem State.ext_relocated {e : Nat} (h : e < s.extents s.node) (m : Move) (tags : Map Nat) :
    (s.relocated e m tags).ext s.node e = { s.ext s.node e with die := m.die } := State.ext_setExt h _

/-- Beside counters the end of a move relocates its extent; no swap waits for it then. -/
theorem State.endOfMove_eq (e : Nat) (m : Move) (s : State) :
    ∃ u tags, Changes [] [] s u ∧ s.endOfMove e m = (u.relocated e m tags).leave := by
  unfold State.endOfMove
  dsimp only
  rw [Map.get?_erase_same]
  refine ⟨_, _, ?_, rfl⟩
  have hkind : Changes [] [] s (match m.kind with
      | .demotion => s.bump R.MEM_DIE_CNT_count [(s.ext s.node e).die, 0]
      | .promotion => s.bump R.MEM_DIE_CNT_count [(s.ext s.node e).die, 1]
      | _ => s) := by
    split
    · exact changes_bump _ s
    · exact changes_bump _ s
    · exact Changes.refl _ _ s
  exact Changes.ite hkind (hkind.trans (changes_bump _ _))

theorem gives_homeDieSwitch (h : Serves s) {e b : Nat} {m : Move} (hsettled : Settled s)
    (hmove : s.tier.moves.get? [e] = some m) (hwhole : m.whole = some b) (hbeat : s.beat ≠ b) (he : e < s.extents s.node) :
    Gives (.homeDieSwitch e) s (fun t => t.tier.moves.has [e] = false ∧ t.tier.loc.get? [e] = some m.dst ∧
      (t.ext s.node e) = { s.ext s.node e with die := m.die } ∧ t.mem = s.mem ∧ RegsBut [] s t ∧
      PartsBut [.pool, .tier] s t) := by
  obtain ⟨u, tags, hcounted, hend⟩ := s.endOfMove_eq e m
  have hnode : u.node = s.node := hcounted.ownNode
  have hext := State.ext_relocated (s := u) (by rwa [hnode, hcounted.extentCount]) m tags
  have hall := (hcounted.weaken (by simp)).trans (changes_relocated e m tags u)
  rw [((noneLeaves_of_settled hsettled).of_changes hall).leave_eq] at hend
  have hexec : exec (.homeDieSwitch e) s = serving s (u.relocated e m tags) := by
    change execHomeDieSwitch e s = _
    rw [execHomeDieSwitch, hmove]
    dsimp only
    rw [hwhole]
    dsimp only
    rw [if_neg hbeat, hend]
  refine gives_serving hexec h ⟨Map.has_erase_same _ _, Map.get?_set_same _ _ _, ?_, hall.parts .mem (by decide), hall.after⟩
  rw [hnode, hcounted.extRecord] at hext
  exact hext

/-! ### MEM_MOVE_CMD (R215) -/

theorem moveCmd_fields {e die : Nat} (he : e < 2 ^ 18) (hdie : die < 2) :
    bitsOf (e + die <<< 19) 0 18 = e ∧ bitAt (e + die <<< 19) 18 = false ∧ bitsOf (e + die <<< 19) 19 1 = die := by
  simp only [bitsOf, bitAt, Nat.shiftLeft_eq, Nat.shiftRight_eq_div_pow, decide_eq_false_iff_not]
  omega

theorem State.moveCmd_stack {e die : Nat} {l dst : Loc} (he : e < 2 ^ 18) (hdie : die < 2) (hready : s.isReady B.mem = true)
    (hheld : (s.ext s.node e).state = .held) (hstill : s.tier.moves.has [e] = false) (hbind : s.bindOf e = none)
    (hmay : s.mayMove (s.ext s.node e).die = true) (hloc : s.tier.loc.get? [e] = some l)
    (hunit : s.movesAt l.board l.unit = 0) (hpick : s.pick false true (stacksOf die) = some dst) :
    s.moveCmd (e + die <<< 19) = (s.startMove e .command false dst die).wr R.MEM_MOVE_RESULT_status [] 0 := by
  obtain ⟨hextent, hboard, hfield⟩ := moveCmd_fields he hdie
  obtain ⟨u, hu, hfree⟩ := State.freeSlots_of_pick hpick
  have hroom : ¬ (stacksOf die).all (fun u => s.freeSlots false u = 0) = true := by
    intro hfull
    exact Nat.ne_of_gt hfree (of_decide_eq_true (List.all_eq_true.mp hfull u hu))
  have hidle : ¬ (if l.board then 1 else 2) ≤ s.movesAt l.board l.unit := by
    rw [hunit]
    split <;> decide
  rw [State.moveCmd]
  dsimp only
  rw [hextent, hboard, hfield, if_neg (by simp [hready, hheld, hstill, hbind, hmay])]
  simp only [Bool.false_eq_true, if_false]
  rw [hloc]
  dsimp only
  rw [if_neg hroom, if_neg hidle, hpick]

theorem gives_moveCmd (h : Serves s) {e die : Nat} {l dst : Loc} (he : e < 2 ^ 18) (hdie : die < 2)
    (hready : s.isReady B.mem = true) (hheld : (s.ext s.node e).state = .held) (hstill : s.tier.moves.has [e] = false)
    (hbind : s.bindOf e = none) (hmay : s.mayMove (s.ext s.node e).die = true) (hloc : s.tier.loc.get? [e] = some l)
    (hunit : s.movesAt l.board l.unit = 0) (hpick : s.pick false true (stacksOf die) = some dst) :
    Gives (.moveCmd (e + die <<< 19)) s (fun t => t.tier.moves.get? [e] =
      some { kind := .command, src := some l, dst := dst, die := die } ∧ t.rd R.MEM_MOVE_RESULT_status [] = 0 ∧
      t.tier.loc = s.tier.loc ∧ RegsBut [R.MEM_MOVE_RESULT_status] s t ∧ PartsBut [.tier] s t) := by
  have hresult := State.moveCmd_stack he hdie hready hheld hstill hbind hmay hloc hunit hpick
  refine gives_hosted (f := fun s => s.moveCmd (e + die <<< 19)) rfl h ?_
  rw [hresult]
  refine ⟨?_, ?_, ?_,
    (((changes_startMove e .command false dst die s).weaken (by simp)).wr (List.mem_singleton.mpr rfl) _ _).after⟩
  · rw [State.after_tier_eq, State.wr_tier_eq, State.moves_startMove, hloc]
  · rw [State.rd_after, State.rd_wr_same]
    rfl
  · rw [State.after_tier_eq, State.wr_tier_eq]
    rfl

/-! ### A stack that is retired (R216) -/

section

/-! Where a move may go, of two states that differ in the status of stacks alone (R216, R480). -/

variable (h : Changes [R.MEM_STACK_STATUS_state, R.MEM_STACK_STATUS_result] [] s t)
  (hstate : ∀ u, t.rd R.MEM_STACK_STATUS_state [u] = s.rd R.MEM_STACK_STATUS_state [u])

include h

theorem Changes.taken_of_status (board : Bool) (u : Nat) : t.taken board u = s.taken board u := by
  rw [State.taken, show t.tier = s.tier from h.parts .tier (by simp), State.taken]

theorem Changes.capacity_of_status (board : Bool) (u : Nat) : t.capacity board u = s.capacity board u := by
  rw [State.capacity, h.rd R.BRD_CH_STATUS_slots, State.capacity]

theorem Changes.movesAt_of_status (board : Bool) (u : Nat) : t.movesAt board u = s.movesAt board u := by
  rw [State.movesAt, show t.tier = s.tier from h.parts .tier (by simp)]
  rfl

theorem Changes.lowestSlot_of_status (board : Bool) (u : Nat) : t.lowestSlot board u = s.lowestSlot board u := by
  rw [State.lowestSlot, h.taken_of_status, h.capacity_of_status, State.lowestSlot]

theorem Changes.bindOf_of_status (e : Nat) : t.bindOf e = s.bindOf e := by
  simp only [State.bindOf, h.lists R.COH_BIND_valid (by decide) (by decide), h.rd R.COH_BIND_first_extent,
    h.rd R.COH_BIND_last_extent, h.rd R.COH_BIND_domain]

include hstate

theorem Changes.freeSlots_of_status (board : Bool) (u : Nat) : t.freeSlots board u = s.freeSlots board u := by
  have hready : t.unitReady board u = s.unitReady board u := by
    rw [State.unitReady, hstate, h.rd R.BRD_CH_STATUS_state, State.unitReady]
  rw [State.freeSlots, hready, h.capacity_of_status, h.taken_of_status, State.freeSlots]

theorem Changes.pick_of_status (board move : Bool) (units : List Nat) :
    t.pick board move units = s.pick board move units := by
  have hfree : t.freeSlots board = s.freeSlots board := funext (h.freeSlots_of_status hstate board)
  have hlowest : t.lowestSlot board = s.lowestSlot board := funext (h.lowestSlot_of_status board)
  simp only [State.pick, hfree, hlowest, h.movesAt_of_status]

/-- The destination of an extent that leaves its unit does not turn on the result shown. -/
theorem Changes.refuge_of_status (e : Nat) : t.refuge e = s.refuge e := by
  have hboard : t.inBoard e = s.inBoard e := by
    rw [State.inBoard, show t.tier = s.tier from h.parts .tier (by simp), State.inBoard]
  have hdst (d : Nat) : t.boardDst d = s.boardDst d := by
    rw [State.boardDst, h.pick_of_status hstate, show t.pkg = s.pkg from h.parts .pkg (by simp), State.boardDst]
  have hext : t.ext t.node e = s.ext s.node e := by rw [h.extRecord, h.ownNode]
  have hboardFree : t.boardFree = s.boardFree := by simp only [State.boardFree, h.freeSlots_of_status hstate]
  have hstackFree (d : Nat) : t.stackFree d = s.stackFree d := by simp only [State.stackFree, h.freeSlots_of_status hstate]
  rw [State.refuge, State.refuge, hext]
  dsimp only
  simp only [h.bindOf_of_status, h.pick_of_status hstate, hboard, hdst, hboardFree, hstackFree]

end

/-- The accepted retirement: its result shown, and the stack RETIRING. -/
def State.retiring (u : Nat) (s : State) : State := (s.wr R.MEM_STACK_STATUS_result [u] 0).wr R.MEM_STACK_STATUS_state [u] 2

theorem changes_retiring (u : Nat) (s : State) :
    Changes [R.MEM_STACK_STATUS_state, R.MEM_STACK_STATUS_result] [] s (s.retiring u) :=
  ((Changes.refl _ _ s).wr (by simp) _ _).wr (by simp) _ _

theorem State.rd_retiring (u : Nat) (s : State) : (s.retiring u).rd R.MEM_STACK_STATUS_state [u] = 2 :=
  State.rd_wr_same _ _ _ _

theorem State.rd_retiring_other {u v : Nat} (h : v ≠ u) (s : State) :
    (s.retiring u).rd R.MEM_STACK_STATUS_state [v] = s.rd R.MEM_STACK_STATUS_state [v] := by
  rw [State.retiring, State.rd_wr_index _ _ (by simpa using h), State.rd_wr_num _ _ _ _ (by decide)]

theorem State.refuge_retiring (u e : Nat) (s : State) :
    (s.retiring u).refuge e = (s.wr R.MEM_STACK_STATUS_state [u] 2).refuge e := by
  have hstate : Changes [R.MEM_STACK_STATUS_state, R.MEM_STACK_STATUS_result] [] s (s.wr R.MEM_STACK_STATUS_state [u] 2) :=
    (Changes.refl _ _ s).wr (by simp) _ _
  refine Changes.refuge_of_status (hstate.symm.trans (changes_retiring u s)) (fun v => ?_) e
  by_cases hv : v = u
  · rw [hv, State.rd_retiring, State.rd_wr_same]
    rfl
  · rw [State.rd_retiring_other hv, State.rd_wr_index _ _ (by simpa using hv)]

/-- R207, R480: the slots taken where one extent is placed and none moves. -/
theorem State.taken_one {e : Nat} {l : Loc} (hloc : s.tier.loc.entries = [([e], l)]) (hmoves : s.tier.moves = Map.empty) :
    s.taken l.board l.unit = [l.slot] := by
  simp [State.taken, Map.vals, hloc, hmoves, Map.empty, List.eraseDups_cons]

/-- R216: a stack with one extent, held and not bound to stay, is retired. -/
theorem State.retire_accepted {u e : Nat} {l : Loc} (hready : s.isReady B.mem = true)
    (hstate : s.rd R.MEM_STACK_STATUS_state [u] = 1) (hloc : s.tier.loc.entries = [([e], l)]) (hboard : l.board = false)
    (hunit : l.unit = u) (hmoves : s.tier.moves = Map.empty) (hslots : s.freeSlots false u < s.slotsFree)
    (hdie : s.freeSlots false u < s.stackFree (dieOfStack u)) : s.retire u = (s.retiring u).leave := by
  have htaken : (s.taken false u).length = 1 := by
    rw [← hboard, ← hunit, State.taken_one hloc hmoves]
    rfl
  have hone : (s.extentsIn false u).length ≤ 1 := by
    rw [State.extentsIn]
    dsimp only
    rw [List.length_map, hloc]
    exact List.length_filter_le _ _
  have hfixed := Nat.le_trans (List.length_filter_le (fun e => (s.ext s.node e).state = .internal || (s.bindOf e).isSome)
    (s.extentsIn false u)) hone
  rw [State.retire, State.started_ready hready, if_neg (by simp [hstate]), if_neg (by omega)]
  rfl

/-- R212, R216: the one extent of a RETIRING stack begins its move. -/
theorem State.pump_one {e die : Nat} {l dst : Loc} (hloc : s.tier.loc.entries = [([e], l)]) (hboard : l.board = false)
    (hleaves : s.rd R.MEM_STACK_STATUS_state [l.unit] = 2) (hmoves : s.tier.moves = Map.empty)
    (hheld : (s.ext s.node e).state = .held) (hmax : 0 < s.rd R.MEM_MIG_CFG_max_moves [])
    (hrefuge : s.refuge e = some (dst, die)) : s.pump = s.startMove e .retirement false dst die := by
  have hleaving : s.leaving l = true := by
    rw [State.leaving, hboard, hleaves]
    rfl
  have hmay : s.mayMove (s.ext s.node e).die = true := by
    rw [State.mayMove, State.movesOf, hmoves]
    exact decide_eq_true hmax
  have hidle : s.movesAt false l.unit = 0 := by
    rw [State.movesAt, hmoves]
    rfl
  have hfilter : [([e], l)].filter (fun en : Key × Loc => s.leaving en.2) = [([e], l)] := by simp [hleaving]
  rw [State.pump, hloc, hfilter, List.foldl_cons, List.foldl_nil]
  dsimp only
  rw [List.headD_cons, hboard, if_neg (by simp [hmoves, hmay, hidle]), if_pos (.inl hheld), hrefuge]
  dsimp only
  rw [hheld]
  rfl

theorem gives_retire (h : Serves s) {u e die : Nat} {l dst : Loc} (hsettled : Settled s) (hready : s.isReady B.mem = true)
    (hstate : s.rd R.MEM_STACK_STATUS_state [u] = 1) (hloc : s.tier.loc.entries = [([e], l)]) (hboard : l.board = false)
    (hunit : l.unit = u) (hmoves : s.tier.moves = Map.empty) (hheld : (s.ext s.node e).state = .held)
    (hmax : 0 < s.rd R.MEM_MIG_CFG_max_moves []) (hslots : s.freeSlots false u < s.slotsFree)
    (hdie : s.freeSlots false u < s.stackFree (dieOfStack u))
    (hrefuge : (s.wr R.MEM_STACK_STATUS_state [u] 2).refuge e = some (dst, die)) :
    Gives (.retire u) s (fun t => t.rd R.MEM_STACK_STATUS_state [u] = 2 ∧ t.rd R.MEM_STACK_STATUS_result [u] = 0 ∧
      t.tier.moves.get? [e] = some { kind := .retirement, src := some l, dst := dst, die := die } ∧ t.mem = s.mem ∧
      RegsBut [R.MEM_STACK_STATUS_state, R.MEM_STACK_STATUS_result] s t ∧ PartsBut [.tier] s t) := by
  subst hunit
  have hnone := noneLeaves_of_settled hsettled
  have hchanges := changes_retiring l.unit s
  have htier : (s.retiring l.unit).tier = s.tier := hchanges.parts .tier (by simp)
  have hloc' : (s.retiring l.unit).tier.loc.entries = [([e], l)] := by rw [htier, hloc]
  have hmoves' : (s.retiring l.unit).tier.moves = Map.empty := by rw [htier, hmoves]
  have hheld' : ((s.retiring l.unit).ext (s.retiring l.unit).node e).state = .held := by
    rw [hchanges.extRecord, hchanges.ownNode, hheld]
  have hstays : (s.retiring l.unit).emptied = s.retiring l.unit := by
    refine State.emptied_eq_self (fun v hv => ?_) (fun c hc => ?_)
    · by_cases hvu : v = l.unit
      · rw [hvu, ← hboard, State.taken_one hloc' hmoves']
        exact List.cons_ne_nil _ _
      · rw [State.rd_retiring_other hvu] at hv
        exact absurd hv (hnone.noStack v)
    · rw [hchanges.rd R.BRD_CH_STATUS_state] at hc
      exact absurd hc (hnone.noChannel c)
  have hleave : (s.retiring l.unit).leave = (s.retiring l.unit).startMove e .retirement false dst die := by
    rw [State.leave_eq, hstays, State.pump_one hloc' hboard (State.rd_retiring _ s) hmoves' hheld'
      (by rw [hchanges.rd R.MEM_MIG_CFG_max_moves]; exact hmax) (by rw [State.refuge_retiring, hrefuge])]
    intro en hen _
    rw [hloc', List.mem_singleton] at hen
    rw [hen, List.headD_cons, hheld']
    exact ExtState.noConfusion
  have hsource : s.tier.loc.get? [e] = some l := by simp [Map.get?, hloc, Map.find]
  refine gives_hosted (f := fun s => s.retire l.unit) rfl h ?_
  rw [State.retire_accepted hready hstate hloc hboard rfl hmoves hslots hdie, hleave]
  refine ⟨State.rd_retiring l.unit s, ?_, ?_, hchanges.parts .mem (by simp),
    ((hchanges.weaken (by simp)).trans ((changes_startMove e .retirement false dst die _).weaken (by simp))).after⟩
  · exact (State.rd_wr_num _ _ _ _ (by decide)).trans (State.rd_wr_same _ _ _ s)
  · rw [State.after_tier_eq, State.moves_startMove, htier, hsource]

end Sys2Proof.Machine
end

section
/-! PROOF. The statement on the tiers' moves (R203, R217), the part on board channels, and the whole from its clauses. -/

namespace Sys2Proof.Machine

open Sys2Proof.Safety

variable {s : State}

/-- A channel that takes another state than DRAINING. -/
theorem NoneLeaves.setChannel {c v : Nat} (h : NoneLeaves s) (hv : v % 2 ^ 3 ≠ 3) :
    NoneLeaves (s.wr R.BRD_CH_STATUS_state [c] v) := by
  refine ⟨fun u => ?_, fun k => ?_⟩
  · rw [State.rd_wr_num _ _ _ _ (by decide)]
    exact h.noStack u
  · by_cases hk : k = c
    · rw [hk, State.rd_wr_same]
      exact hv
    · rw [State.rd_wr_index _ _ (by simpa using hk)]
      exact h.noChannel k

/-! ### Power and training (R203, R204, R217) -/

theorem gives_channelEnable (h : Serves s) {c : Nat} (hready : s.isReady B.brd = true)
    (hstate : s.chState c = 0 ∨ s.chState c = 5) :
    Gives (.channelEnable c) s (fun t => t.chState c = 1 ∧ t.out = s.out ++ [.pin (2 + c) 1] ∧
      RegsBut [R.BRD_CH_STATUS_state] s t ∧ PartsBut [.out] s t) := by
  have henabled : s.enableChannel c = (s.wr R.BRD_CH_STATUS_state [c] 1).emit (.pin (2 + c) 1) := by
    rw [State.enableChannel, State.started_ready hready, if_pos hstate]
  refine gives_hosted (f := fun s => s.enableChannel c) rfl h ?_
  rw [henabled]
  exact ⟨State.rd_wr_same _ _ _ s, by rw [State.after_out_eq, State.emit, State.wr_out_eq],
    (((Changes.refl _ _ s).wr (List.mem_singleton.mpr rfl) _ _).emit _).after⟩

theorem gives_powerOff (h : Serves s) {c : Nat} (hready : s.isReady B.brd = true)
    (hstate : s.chState c = 4 ∨ s.chState c = 6) :
    Gives (.powerOff c) s (fun t => t.chState c = 5 ∧ t.out = s.out ++ [.pin (2 + c) 0] ∧
      RegsBut [R.BRD_CH_STATUS_state] s t ∧ PartsBut [.out] s t) := by
  have hoff : s.powerOffChannel c = (s.wr R.BRD_CH_STATUS_state [c] 5).emit (.pin (2 + c) 0) := by
    rw [State.powerOffChannel, State.started_ready hready, if_pos hstate]
  refine gives_hosted (f := fun s => s.powerOffChannel c) rfl h ?_
  rw [hoff]
  exact ⟨State.rd_wr_same _ _ _ s, by rw [State.after_out_eq, State.emit, State.wr_out_eq],
    (((Changes.refl _ _ s).wr (List.mem_singleton.mpr rfl) _ _).emit _).after⟩

/-- A trained channel: its module shown, no slot of it gone, READY and signalled. -/
def State.channelUp (c : Nat) (d : Spd) (s : State) : State :=
  let t := s.showModule c d
  let t : State := { t with tier := { t.tier with gone := t.tier.gone.erase [c] } }
  (t.wr R.BRD_CH_STATUS_state [c] 2).event B.brd 0

theorem changes_channelUp (c : Nat) (d : Spd) (s : State) :
    Changes [R.BRD_CH_STATUS_state, R.BRD_CH_STATUS_mrdimm, R.BRD_CH_STATUS_capacity] [.tier, .out, .hif] s
      (s.channelUp c d) :=
  (((((Changes.refl _ _ s).wr (by simp) _ _).wr (by simp) _ _).inTier _).wr (by simp) _ _).told ((Told.refl _).event _ _)

theorem State.rd_channelUp_state (c : Nat) (d : Spd) (s : State) : (s.channelUp c d).rd R.BRD_CH_STATUS_state [c] = 2 := by
  rw [State.channelUp, State.rd_event_other _ _ _ _ (by decide), State.rd_wr_same]
  rfl

theorem State.rd_channelUp_capacity {d : Spd} (hd : d.capacityGiB ≤ 512) (c : Nat) (s : State) :
    (s.channelUp c d).rd R.BRD_CH_STATUS_capacity [c] = d.capacityGiB := by
  rw [State.channelUp, State.rd_event_other _ _ _ _ (by decide), State.rd_wr_num _ _ _ _ (by decide)]
  exact (State.rd_wr_same _ _ _ _).trans (Nat.mod_eq_of_lt (Nat.lt_of_le_of_lt hd (by decide)))

theorem noneLeaves_channelUp (h : NoneLeaves s) (c : Nat) (d : Spd) : NoneLeaves (s.channelUp c d) := by
  have hshown : Changes [R.BRD_CH_STATUS_mrdimm, R.BRD_CH_STATUS_capacity] [] s (s.showModule c d) :=
    ((Changes.refl _ _ s).wr (by simp) _ _).wr (by simp) _ _
  exact ((h.of_changes hshown).of_changes (changes_inTier _ _)).setChannel (by decide) |>.of_changes
    ((Changes.refl [] [.out, .hif] _).told ((Told.refl _).event _ _))

theorem exec_channelTrained {c : Nat} {d : Spd} (hnone : NoneLeaves s) (hstate : s.chState c = 1) (hd : accepted d = true)
    (hboot : s.tier.boot.get 0 [c] ≤ 16 * d.capacityGiB) (hgone : s.tier.gone.get 0 [c] = 0) :
    exec (.channelTrained c (some d)) s = serving s (s.channelUp c d) := by
  have htier : (s.showModule c d).tier = s.tier := by rw [State.showModule, State.wr_tier_eq, State.wr_tier_eq]
  have hleave := (noneLeaves_channelUp hnone c d).leave_eq
  change execChannelTrained c (some d) s = _
  rw [execChannelTrained, if_neg (by simp [hstate])]
  dsimp only
  rw [if_neg (by simp [hd]), if_neg (by rw [htier]; omega), htier, hgone, State.regainSlots_zero]
  exact congrArg (serving s) (by rw [← htier]; exact hleave)

theorem gives_channelTrained (h : Serves s) {c : Nat} {d : Spd} (hsettled : Settled s) (hstate : s.chState c = 1)
    (hd : accepted d = true) (hboot : s.tier.boot.get 0 [c] ≤ 16 * d.capacityGiB) (hgone : s.tier.gone.get 0 [c] = 0) :
    Gives (.channelTrained c (some d)) s (fun t => t.chState c = 2 ∧ t.rd R.BRD_CH_STATUS_capacity [c] = d.capacityGiB ∧
      RegsBut [R.BRD_CH_STATUS_state, R.BRD_CH_STATUS_mrdimm, R.BRD_CH_STATUS_capacity] s t ∧
      PartsBut [.tier, .out, .hif] s t) := by
  have hsize : d.capacityGiB ≤ 512 := by
    simp only [accepted, Bool.and_eq_true, decide_eq_true_eq] at hd
    exact hd.2.2.1
  exact gives_serving (exec_channelTrained (noneLeaves_of_settled hsettled) hstate hd hboot hgone) h
    ⟨State.rd_channelUp_state c d s, State.rd_channelUp_capacity hsize c s, (changes_channelUp c d s).after⟩

theorem gives_channelTrained_none (h : Serves s) {c : Nat} (hstate : s.chState c = 1) :
    Gives (.channelTrained c none) s (fun t => t.chState c = 0 ∧ RegsBut [R.BRD_CH_STATUS_state] s t ∧ PartsBut [] s t) := by
  have hexec : exec (.channelTrained c none) s = serving s (s.wr R.BRD_CH_STATUS_state [c] 0) := by
    change execChannelTrained c none s = _
    rw [execChannelTrained, if_neg (by simp [hstate])]
  exact gives_serving hexec h
    ⟨State.rd_wr_same _ _ _ s, ((Changes.refl _ _ s).wr (List.mem_singleton.mpr rfl) _ _).after⟩

/-! ### Draining and failure (R217) -/

/-- An accepted drain: its result shown, and the channel DRAINING. -/
def State.draining (c : Nat) (s : State) : State := (s.wr R.BRD_CH_STATUS_result [c] 0).wr R.BRD_CH_STATUS_state [c] 3

theorem changes_draining (c : Nat) (s : State) :
    Changes [R.BRD_CH_STATUS_state, R.BRD_CH_STATUS_result] [] s (s.draining c) :=
  ((Changes.refl _ _ s).wr (by simp) _ _).wr (by simp) _ _

theorem State.rd_draining_iff (hnone : NoneLeaves s) (c k : Nat) :
    (s.draining c).rd R.BRD_CH_STATUS_state [k] = 3 ↔ k = c := by
  constructor
  · refine fun hk => Decidable.byContradiction (fun hne => ?_)
    rw [State.draining, State.rd_wr_index _ _ (by simpa using hne), State.rd_wr_num _ _ _ _ (by decide)] at hk
    exact hnone.noChannel k hk
  · rintro rfl
    exact State.rd_wr_same _ _ _ _

theorem changes_drained (c : Nat) (s : State) : Changes [R.BRD_CH_STATUS_state] [.tier, .pool] s (s.drained c) :=
  (((Changes.refl _ _ s).wr (by simp) _ _).trans ((reslots_loseSlots _ _).changes.weaken (by simp))).trans
    ((changes_goneAt _ _ _).weaken (by simp))

theorem State.loc_drained (c : Nat) (s : State) : (s.drained c).tier.loc = s.tier.loc :=
  (reslots_loseSlots _ _).loc_eq.trans (by rw [State.wr_tier_eq])

theorem State.rd_drained (c : Nat) (s : State) : (s.drained c).rd R.BRD_CH_STATUS_state [c] = 4 := by
  have hlost := (reslots_loseSlots (s.rd R.BRD_CH_STATUS_slots [c]) (s.wr R.BRD_CH_STATUS_state [c] 4)).changes
  exact (hlost.rd R.BRD_CH_STATUS_state [c]).trans (State.rd_wr_same _ _ _ s)

/-- R217: a channel in which no extent lies drains at once. -/
theorem State.drainChannel_empty {c : Nat} (hnone : NoneLeaves s) (hready : s.isReady B.brd = true) (hc : c < 8)
    (hstate : s.chState c = 2) (hloc : s.tier.loc = Map.empty) (hmoves : s.tier.moves = Map.empty) :
    s.drainChannel c = (s.draining c).drained c := by
  have htier : (s.draining c).tier = s.tier := (changes_draining c s).parts .tier (by simp)
  have hfree (k : Nat) : (s.draining c).taken true k = [] := by
    rw [State.taken, htier, hloc, hmoves]
    rfl
  have hextents : s.extentsIn true c = [] := by
    rw [State.extentsIn, hloc]
    rfl
  have hemptied : (s.draining c).emptied = (s.draining c).drained c := by
    refine State.emptied_channel (fun u => ?_) (fun k => ?_) hc
    · rw [(changes_draining c s).rd R.MEM_STACK_STATUS_state]
      exact hnone.noStack u
    · rw [State.rd_draining_iff hnone]
      exact and_iff_left (hfree k)
  have hunplaced {t : State} {p : Key × Loc → Prop} (ht : t.tier.loc = s.tier.loc) : ∀ en ∈ t.tier.loc.entries, p en := by
    rw [ht, hloc]
    exact fun _ hen => absurd hen List.not_mem_nil
  have hleave : (s.draining c).leave = (s.draining c).drained c := by
    rw [State.leave_eq (hunplaced (by rw [htier])), hemptied,
      State.pump_eq_self (hunplaced (by rw [State.loc_drained, htier]))]
  rw [State.drainChannel]
  dsimp only
  rw [State.started_ready hready, if_neg (by simp [hstate]), hextents, if_neg (by simp)]
  exact hleave

theorem gives_channelDrain (h : Serves s) {c : Nat} (hsettled : Settled s) (hready : s.isReady B.brd = true) (hc : c < 8)
    (hstate : s.chState c = 2) (hloc : s.tier.loc = Map.empty) (hmoves : s.tier.moves = Map.empty) :
    Gives (.channelDrain c) s (fun t => t.chState c = 4 ∧ t.rd R.BRD_CH_STATUS_result [c] = 0 ∧
      t.tier.gone.get? [c] = some (s.rd R.BRD_CH_STATUS_slots [c]) ∧
      RegsBut [R.BRD_CH_STATUS_state, R.BRD_CH_STATUS_result] s t ∧ PartsBut [.tier, .pool] s t) := by
  have hdraining := changes_draining c s
  have hdrained := changes_drained c (s.draining c)
  refine gives_hosted (f := fun s => s.drainChannel c) rfl h ?_
  rw [State.drainChannel_empty (noneLeaves_of_settled hsettled) hready hc hstate hloc hmoves]
  refine ⟨State.rd_drained c _, ?_, ?_, ((hdraining.weaken (by simp)).trans (hdrained.weaken (by simp))).after⟩
  · rw [State.rd_after, hdrained.rd R.BRD_CH_STATUS_result, State.draining, State.rd_wr_num _ _ _ _ (by decide),
      State.rd_wr_same]
    rfl
  · rw [← hdraining.rd R.BRD_CH_STATUS_slots]
    exact Map.get?_set_same _ _ _

/-- A failed channel: its free slots out of service, recorded as gone, and signalled. -/
def State.channelLost (c : Nat) (s : State) : State :=
  (((s.wr R.BRD_CH_STATUS_state [c] 6).loseSlots (s.freeSlots true c)).goneAt c
    (s.tier.gone.get 0 [c] + s.freeSlots true c)).event B.brd 1

theorem changes_channelLost (c : Nat) (s : State) :
    Changes [R.BRD_CH_STATUS_state] [.pool, .tier, .out, .hif] s (s.channelLost c) :=
  ((((Changes.refl _ _ s).wr (by simp) _ _).trans ((reslots_loseSlots _ _).changes.weaken (by simp))).trans
    ((changes_goneAt _ _ _).weaken (by simp))).told ((Told.refl _).event _ _)

theorem State.rd_channelLost (c : Nat) (s : State) : (s.channelLost c).rd R.BRD_CH_STATUS_state [c] = 6 := by
  have hlost := (reslots_loseSlots (s.freeSlots true c) (s.wr R.BRD_CH_STATUS_state [c] 6)).changes
  rw [State.channelLost, State.rd_event_other _ _ _ _ (by decide)]
  exact (hlost.rd R.BRD_CH_STATUS_state [c]).trans (State.rd_wr_same _ _ _ s)

theorem exec_channelFailed {c : Nat} (hstate : s.chState c = 2) (hempty : s.extentsIn true c = []) :
    exec (.channelFailed c) s = serving s ((s.channelLost c).degraded 2 B.brd c 0) := by
  have hgone : ((s.wr R.BRD_CH_STATUS_state [c] 6).loseSlots (s.freeSlots true c)).tier.gone = s.tier.gone := by
    rw [(reslots_loseSlots _ _).gone_eq, State.wr_tier_eq]
  change execChannelFailed c s = _
  rw [execChannelFailed, if_pos (.inr (.inl hstate))]
  dsimp only
  rw [State.unitFails_empty hempty, State.channelLost]
  generalize (s.wr R.BRD_CH_STATUS_state [c] 6).loseSlots (s.freeSlots true c) = u at hgone ⊢
  rw [← hgone]
  rfl

theorem gives_channelFailed (h : Serves s) {c : Nat} (hstate : s.chState c = 2) (hempty : s.extentsIn true c = []) :
    Gives (.channelFailed c) s (fun t => t.chState c = 6 ∧ t.mem = s.mem ∧
      RegsBut [R.BRD_CH_STATUS_state, R.GLB_DEGRADED_degraded] s t ∧ PartsBut [.out, .hif, .sw, .ports, .ras, .answers,
      .pool, .tier] s t) := by
  have hdegraded := conveys_degraded 2 B.brd c 0 (s.channelLost c)
  have hall := ((changes_channelLost c s).weaken (l' := [R.BRD_CH_STATUS_state, R.GLB_DEGRADED_degraded])
    (ps' := [.out, .hif, .sw, .ports, .ras, .answers, .pool, .tier]) (by simp)).trans (hdegraded.changes.weaken (by simp))
  refine gives_serving (exec_channelFailed hstate hempty) h ⟨?_, ?_, hall.after⟩
  · rw [State.chState, State.rd_after, hdegraded.regs _ _ (by decide) (by decide), State.rd_channelLost]
  · rw [State.after_mem_eq]
    exact hall.parts .mem (by decide)

/-! ### The statement -/

/-- Settles O26: each command of a move changes the move's record, and where the part is Settled what a change of the tiers
sets off is nothing; a unit that a command sets RETIRING or DRAINING is the only one that leaves, and its one extent moves,
or it has none and leaves service. -/
theorem tierMoves : Obligations.TierMoves :=
  fun _ h => ⟨gives_ageTick h, fun _ _ _ => gives_demotion h, fun _ _ => gives_promotion h,
    fun _ _ _ => gives_migrationChunk h, fun _ _ _ _ => gives_chunkCopyDone h, fun _ _ _ _ => gives_chunkCopyDone_late h,
    fun _ _ _ => gives_movePauseEnd h,
    fun _ _ _ hsettled hmove hwhole hbeat _ => gives_homeDieSwitch h hsettled hmove hwhole hbeat,
    fun _ _ _ _ => gives_moveCmd h,
    fun _ _ _ _ _ hsettled hready hstate hloc hboard hunit _ =>
      gives_retire h hsettled hready hstate hloc hboard hunit,
    fun _ => gives_channelEnable h, fun _ _ => gives_channelTrained h, fun _ => gives_channelTrained_none h,
    fun _ => gives_channelDrain h, fun _ => gives_powerOff h, fun _ => gives_channelFailed h⟩

end Sys2Proof.Machine
end

section
/-! PROOF. The refutation of the statement on stacks: it speaks of every state, also of one in which the one-bit field
MEM_PC_STATUS.powered_down holds a number that no write leaves there. -/

namespace Sys2Proof.Machine

open Sys2Proof.Safety

variable {s : State} {u p : Nat}

/-! ### The clause on a field within its one bit (R196) -/

/-- R196: an idle pseudo-channel that is not powered down powers down. -/
theorem exec_powerDownEntry_awake (hruns : s.stackRuns u = true) (hservice : s.pcState u p = 0)
    (hreads : (s.pc u p).reads = []) (hwrites : (s.pc u p).writes = []) (htimer : 0 < s.rd R.MEM_PD_CFG_pd_timer [])
    (hidle : (s.pc u p).lastUse + 16 * s.rd R.MEM_PD_CFG_pd_timer [] ≤ s.now)
    (hawake : s.on R.MEM_PC_STATUS_powered_down [u, p] = false) :
    exec (.powerDownEntry u p) s =
      serving s ((s.wr R.MEM_PC_STATUS_powered_down [u, p] 1).bump R.MEM_CNT_count [u, 5]) := by
  change execPowerDownEntry u p s = _
  rw [execPowerDownEntry]
  dsimp only
  rw [if_pos ⟨hruns, hservice, hreads, hwrites, by omega, hidle, by simp [hawake]⟩]

/-- R196: one that is powered down stays so. -/
theorem exec_powerDownEntry_down (hdown : s.on R.MEM_PC_STATUS_powered_down [u, p] = true) :
    exec (.powerDownEntry u p) s = serving s s := by
  change execPowerDownEntry u p s = _
  rw [execPowerDownEntry]
  dsimp only
  rw [if_neg (by simp [hdown])]

/-- R196: what the clause on an idle pseudo-channel says, of a part whose field is within its one bit. -/
theorem gives_powerDownEntry_of_fits (h : Serves s) (hfits : s.rd R.MEM_PC_STATUS_powered_down [u, p] < 2)
    (hruns : s.stackRuns u = true) (hservice : s.pcState u p = 0) (hreads : (s.pc u p).reads = [])
    (hwrites : (s.pc u p).writes = []) (htimer : 0 < s.rd R.MEM_PD_CFG_pd_timer [])
    (hidle : (s.pc u p).lastUse + 16 * s.rd R.MEM_PD_CFG_pd_timer [] ≤ s.now) :
    Gives (.powerDownEntry u p) s (fun t => t.rd R.MEM_PC_STATUS_powered_down [u, p] = 1 ∧
      RegsBut [R.MEM_PC_STATUS_powered_down] s t ∧ PartsBut [] s t) := by
  cases hon : s.on R.MEM_PC_STATUS_powered_down [u, p]
  case false =>
    have hchanges : Changes [R.MEM_PC_STATUS_powered_down] [] s
        ((s.wr R.MEM_PC_STATUS_powered_down [u, p] 1).bump R.MEM_CNT_count [u, 5]) :=
      ((Changes.refl _ _ s).wr (List.mem_singleton.mpr rfl) _ _).trans ((changes_bump _ _).weaken (by simp))
    refine gives_serving (exec_powerDownEntry_awake hruns hservice hreads hwrites htimer hidle hon) h ⟨?_, hchanges.after⟩
    rw [State.rd_after, State.rd_bump_other _ _ _ (by decide), State.rd_wr_same]
    rfl
  case true =>
    have hone : s.rd R.MEM_PC_STATUS_powered_down [u, p] = 1 := by
      have := State.on_iff.mp hon
      omega
    exact gives_serving (exec_powerDownEntry_down hon) h ⟨hone, (Changes.refl _ _ s).after⟩

/-! ### The counterexample -/

/-- Stack 0 is READY, its pseudo-channel 0 has been idle for the 1,024 ns of MEM_PD_CFG.pd_timer, and
MEM_PC_STATUS.powered_down, one bit wide, holds 2. -/
def overwidePoweredDown : State :=
  { State.reset with
    now := 1024
    regs := (Map.empty.set [R.MEM_STACK_STATUS_state.num, 0] 1).set [R.MEM_PC_STATUS_powered_down.num, 0, 0] 2 }

/-- R196: the field is not 0, so the command leaves it as it is. -/
theorem powerDownEntry_keeps_overwide_field :
    ∃ t, exec (.powerDownEntry 0 0) overwidePoweredDown = .next t ∧ t.rd R.MEM_PC_STATUS_powered_down [0, 0] = 2 :=
  ⟨_, rfl, by decide +kernel⟩

/-- Refutes O25: the clause on power-down says that MEM_PC_STATUS.powered_down then reads 1, and no hypothesis keeps the
field within its one bit. In `overwidePoweredDown` it holds 2; a pseudo-channel whose field is not 0 is taken to be powered
down already, so it reads 2 afterwards. Every write cuts a field to its width, so none gives this value; with
`s.rd R.MEM_PC_STATUS_powered_down [u, p] < 2` the clause holds (`gives_powerDownEntry_of_fits`). -/
theorem not_stackColumns : ¬ Obligations.StackColumns := by
  intro h
  obtain ⟨-, -, -, -, hpowerDown, -⟩ := h overwidePoweredDown (by decide +kernel)
  obtain ⟨t, hexec, hdown, -⟩ := hpowerDown 0 0 (by decide +kernel) (by decide +kernel) (by decide +kernel)
    (by decide +kernel) (by decide +kernel) (by decide +kernel)
  obtain ⟨u, hrun, hkept⟩ := powerDownEntry_keeps_overwide_field
  obtain rfl : t = u := Host.Outcome.next.inj (hexec.symm.trans hrun)
  exact absurd (hdown.symm.trans hkept) (by decide)

end Sys2Proof.Machine
end

section
/-! LAWS. Cores and issue: what a change of a core does to the state, and what an instruction that issues and completes
leaves (R218, R248, R258). -/

namespace Sys2Proof

/-- Setting an entry twice leaves what the second setting gives. -/
theorem Map.put_put {α : Type} (l : List (Key × α)) (k : Key) (v v' : α) : Map.put (Map.put l k v) k v' = Map.put l k v' := by
  induction l with
  | nil => simp [Map.put]
  | cons e t ih =>
    obtain ⟨k₁, v₁⟩ := e
    by_cases heq : k₁ = k
    · simp [Map.put, heq]
    · by_cases hlt : keyLt k k₁ = true
      · simp [Map.put, heq, hlt]
      · simp [Map.put, heq, hlt, ih]

@[simp] theorem Map.set_set {α : Type} (m : Map α) (k : Key) (v v' : α) : (m.set k v).set k v' = m.set k v' :=
  congrArg Map.mk (Map.put_put m.entries k v v')

end Sys2Proof

namespace Sys2Proof.Machine

open Sys2Proof.Safety

variable {s u : State} {n op : Nat} {w : BitVec 64}

/-! ### A core of the state -/

@[simp] theorem State.core_modCore_same (n : Nat) (f : Core → Core) (s : State) : (s.modCore n f).core n = f (s.core n) :=
  Map.get_set_same _ _ _ _

theorem State.core_modCore_other {n m : Nat} (f : Core → Core) (s : State) (h : m ≠ n) : (s.modCore n f).core m = s.core m :=
  Map.get_set_other _ _ _ (by simpa using h)

@[simp] theorem State.core_after (s t : State) (n : Nat) : (s.after t).core n = t.core n := rfl

@[simp] theorem State.modCore_modCore (n : Nat) (f g : Core → Core) (s : State) :
    (s.modCore n f).modCore n g = s.modCore n (fun k => g (f k)) := by
  have hcore : (s.modCore n f).core n = f (s.core n) := State.core_modCore_same n f s
  rw [State.modCore, hcore]
  simp [State.modCore]

theorem State.codeOf_eq {k k' : Core} (himages : u.images = s.images) (htask : k'.task = k.task) : u.codeOf k' = s.codeOf k := by
  rw [State.codeOf, State.codeOf, htask, himages]

theorem changes_modCore (n : Nat) (f : Core → Core) (s : State) : Changes [] [.cores] s (s.modCore n f) := by
  refine ⟨fun _ _ _ _ => rfl, fun p hp => ?_, fun _ _ _ => rfl⟩
  cases p
  case cores => exact absurd (List.mem_singleton.mpr rfl) hp
  all_goals rfl

/-- Setting FLAGS bits before a change of the core is part of that change (R256). -/
theorem State.flag_modCore (n bits : Nat) (g : Core → Core) (s : State) :
    (s.flag n bits).modCore n g = s.modCore n (fun k => g { k with flags := k.flags ||| bits }) := by
  by_cases hbits : bits = 0
  · subst hbits
    simp [State.flag]
  · rw [State.flag, if_neg hbits, State.modCore_modCore]

/-! ### What writing a register leaves of a core -/

@[simp] theorem Core.task_setS (k : Core) (i v : Nat) : (k.setS i v).task = k.task := by
  unfold Core.setS
  split <;> rfl

@[simp] theorem Core.task_setV (k : Core) (i v : Nat) : (k.setV i v).task = k.task := rfl

@[simp] theorem Core.task_setP (k : Core) (i v : Nat) : (k.setP i v).task = k.task := by
  unfold Core.setP
  split <;> rfl

theorem Core.setP_eq {i : Nat} (hi : i ≠ 0) (k : Core) (v : Nat) : k.setP i v = { k with p := k.p.set [i] (v % 2 ^ 64) } :=
  if_neg hi

theorem Core.pr_setP_same {i : Nat} (hi : i ≠ 0) (k : Core) (v : Nat) : (k.setP i v).pr i = v % 2 ^ 64 := by
  rw [Core.setP_eq hi, Core.pr, if_neg hi]
  exact Map.get_set_same _ _ _ _

theorem Core.pr_setP_other {i j : Nat} (hj : j ≠ i) (k : Core) (v : Nat) : (k.setP i v).pr j = k.pr j := by
  by_cases hi : i = 0
  · rw [Core.setP, if_pos hi]
  · rw [Core.setP_eq hi, Core.pr, Core.pr]
    exact congrArg (ite _ _) (Map.get_set_other _ _ _ (by simpa using hj))

@[simp] theorem vecRun_task (x t : Nat) (f : Core → Nat → Nat → Nat × Nat) (r : Nat) (k : Core) :
    (vecRun x t f r k).task = k.task := by
  induction r with
  | zero => rfl
  | succ r ih => exact ih

/-! ### Issue and completion -/

/-- The word at the pc issues as the instruction of its opcode. -/
theorem State.issueAt_of_issues (hi : Issues s n op w) (g : Nat → State → Done) :
    s.issueAt n op w g = s.complete n (g w.toNat s) := by
  obtain ⟨hpc, hop, howed, -⟩ := hi
  rw [State.issueAt, if_neg (not_not.mpr hpc), if_neg (not_not.mpr hop), howed]
  simp

/-- A complete instruction that leaves the core its task steps the pc, and the core runs on. -/
theorem State.complete_next (hi : Issues s n op w) (himages : u.images = s.images)
    (htask : (u.core n).task = (s.core n).task) :
    s.complete n (.next u) = u.modCore n (fun k => { k with pc := nextPc s n }) := by
  have hcode : (u.modCore n (fun k => { k with pc := nextPc s n })).codeOf (u.core n) = s.codeOf (s.core n) :=
    State.codeOf_eq himages htask
  rw [State.complete, State.setPc, hcode, if_pos hi.2.2.2]

section

variable {c : Instr} {g : Nat → State → Done}

/-- An instruction that issues and changes its core only, keeping the task, completes so. -/
theorem gives_steps {f f' : Core → Core} (hexec : exec c s = serving s (s.issueAt n op w g)) (h : Serves s)
    (hi : Issues s n op w) (hnext : g w.toNat s = .next (s.modCore n f')) (hf : f' (s.core n) = f (s.core n))
    (htask : (f (s.core n)).task = (s.core n).task) : Gives c s (Steps s n f) := by
  refine gives_serving hexec h ?_
  have htask' : ((s.modCore n f').core n).task = (s.core n).task := by rw [State.core_modCore_same, hf, htask]
  rw [State.issueAt_of_issues hi, hnext, State.complete_next hi (u := s.modCore n f') rfl htask', State.modCore_modCore]
  exact ⟨by rw [State.core_after, State.core_modCore_same, hf],
    fun m hm => (State.core_after s _ m).trans (State.core_modCore_other _ s hm), (changes_modCore n _ s).after⟩

/-- An instruction of `State.alu` with its fields in range writes sd and FLAGS (R253 to R256). -/
theorem gives_alu {fields : List Nat} {ok : Nat → Bool} {f : Core → Nat → Nat × Nat} {r : Core → Nat × Nat} {x : Nat}
    (hexec : exec c s = serving s (s.alu n op w fields ok f)) (h : Serves s) (hi : Issues s n op w) (hx : w.toNat = x)
    (honly : only x fields = true) (hok : ok x = true) (hr : f (s.core n) x = r (s.core n)) :
    Gives c s (Steps s n (fun k => takes (fD x) (r k) k)) := by
  subst hx
  refine gives_steps hexec h hi (f' := takes (fD w.toNat) (f (s.core n) w.toNat)) ?_ (by rw [hr])
    (Core.task_setS _ _ _)
  rw [honly, hok, Bool.and_self, if_pos rfl]
  exact congrArg Done.next (State.flag_modCore n _ _ s)

end

end Sys2Proof.Machine
end

section
/-! PROOF. The integer and immediate instructions (R253, R254). -/

namespace Sys2Proof.Machine

open Sys2Proof.Safety

variable {s : State} {n op x : Nat} {w : BitVec 64} {c : Instr}

/-- A two-operand integer instruction of type u64 or s64. -/
theorem gives_intOp {f : Nat → Nat → Nat → Nat × Nat} {r : Core → Nat × Nat}
    (hexec : exec c s = serving s (s.intOp n op w f)) (h : Serves s)
    (hr : ∀ k : Core, f (fT x) (k.sr (fA x)) (k.sr (fB x)) = r k) (hi : Issues s n op w) (hx : w.toNat = x)
    (honly : only x [mD, mA, mB, mT] = true) (ht : fT x ≤ 1) : Gives c s (Steps s n (fun k => takes (fD x) (r k) k)) :=
  gives_alu hexec h hi hx honly (decide_eq_true ht) (hr _)

/-- An immediate instruction that the type code 0 alone defines. -/
theorem gives_immOp {ok : Nat → Bool} {f : Nat → Nat → Nat} {r : Core → Nat}
    (hexec : exec c s = serving s (s.immOp n op w ok f)) (h : Serves s) (hr : ∀ k : Core, f (k.sr (fA x)) x = r k)
    (hi : Issues s n op w) (hx : w.toNat = x) (honly : only x [mD, mA, mIT, mImm] = true) (hok : ok x = true) :
    Gives c s (Steps s n (fun k => takes (fD x) (r k, 0) k)) :=
  gives_alu hexec h hi hx honly hok (by rw [hr])

/-- The high half of a 128-bit product is the product over 2^64, modulo 2^64. -/
theorem fieldOfInt_high_half (p : Int) : fieldOfInt 128 p >>> 64 = fieldOfInt 64 (p / 2 ^ 64) := by
  rw [fieldOfInt, fieldOfInt, Nat.shiftRight_eq_div_pow]
  omega

theorem tZero_and_of_eq {p : Prop} [Decidable p] (ht : iT x = 0) (hp : p) : (tZero x && decide p) = true := by
  rw [tZero, decide_eq_true ht, decide_eq_true hp, Bool.and_self]

/-- Settles O27: each instruction is one use of the rule of `State.alu`; where the statement writes a result otherwise than
the model (a shift as a product, the high half of a product as a quotient), the two are equal. -/
theorem scalarIntegers : Obligations.ScalarIntegers :=
  fun _ h => ⟨fun _ _ _ => gives_intOp rfl h fun _ => rfl,
    fun _ _ _ => gives_intOp rfl h fun _ => rfl,
    fun _ _ _ => gives_intOp rfl h fun _ => rfl,
    fun _ _ _ => gives_intOp rfl h fun _ => by rw [fieldOfInt_high_half],
    fun _ _ _ => gives_intOp rfl h fun _ => rfl,
    fun _ _ _ => gives_intOp rfl h fun _ => rfl,
    fun _ _ _ => gives_intOp rfl h fun _ => rfl,
    fun _ _ _ => gives_intOp rfl h fun _ => by rw [Nat.shiftLeft_eq],
    fun _ _ _ => gives_intOp rfl h fun _ => rfl,
    fun _ _ _ => gives_intOp rfl h fun _ => rfl,
    fun _ _ _ => gives_intOp rfl h fun _ => rfl,
    fun _ _ _ hi hx honly ht hf => gives_alu rfl h hi hx honly (decide_eq_true ⟨ht, hf⟩) rfl,
    fun _ _ _ hi hx honly ht => gives_alu rfl h hi hx honly (decide_eq_true ht) (by rw [ite_not]),
    fun _ _ _ => gives_intOp rfl h fun _ => rfl,
    fun _ _ _ => gives_intOp rfl h fun _ => rfl,
    fun _ _ _ hi hx honly ht => gives_immOp rfl h (fun _ => rfl) hi hx honly (decide_eq_true ht),
    fun _ _ _ hi hx honly ht => gives_immOp rfl h (fun _ => rfl) hi hx honly (decide_eq_true ht),
    fun _ _ _ hi hx honly ht => gives_immOp rfl h (fun _ => rfl) hi hx honly (decide_eq_true ht),
    fun _ _ _ hi hx honly ht => gives_immOp rfl h (fun _ => rfl) hi hx honly (decide_eq_true ht),
    fun _ _ _ hi hx honly ht hm =>
      gives_immOp rfl h (fun _ => Nat.shiftLeft_eq _ _) hi hx honly (tZero_and_of_eq ht hm),
    fun _ _ _ hi hx honly ht hm => gives_immOp rfl h (fun _ => rfl) hi hx honly (decide_eq_true ⟨ht, hm⟩),
    fun _ _ _ hi hx honly ht ha => gives_immOp rfl h (fun _ => rfl) hi hx honly (tZero_and_of_eq ht ha),
    fun _ _ _ hi hx honly ht ha =>
      gives_alu rfl h hi hx honly (tZero_and_of_eq ht ha) (by rw [Nat.shiftLeft_eq])⟩

end Sys2Proof.Machine
end

section
/-! PROOF. Conversions, packing, predicates and reductions (R263 to R265). -/

namespace Sys2Proof.Machine

open Sys2Proof.Safety

variable {s : State} {n op x : Nat} {w : BitVec 64} {c : Instr}

/-! ### Runs of registers (R262, R263) -/

/-- A vector instruction of format A with its fields in range processes the registers of its run. -/
theorem gives_vec {fields : List Nat} {ok : Nat → Bool} {f : Nat → Core → Nat → Nat → Nat × Nat}
    {r : Core → Nat → Nat → Nat × Nat} (hexec : exec c s = serving s (s.vec n op w fields ok f)) (h : Serves s)
    (hi : Issues s n op w) (hx : w.toNat = x) (honly : only x ([mD, mG, mZ, mR, mE, mT] ++ fields) = true)
    (hok : ok x = true) (hd : fD x + fR x ≤ 32) (hr : f x = r) :
    Gives c s (Steps s n (fun k => vecRun x (fT x) r (fR x) k)) := by
  subst hx
  refine gives_steps hexec h hi (f' := vecRun w.toNat (fT w.toNat) (f w.toNat) (fR w.toNat)) ?_ (by rw [hr])
    (vecRun_task _ _ _ _ _)
  rw [honly, hok, decide_eq_true hd]
  rfl

theorem cvtOk_of_ranges (ht : tyVec (fT x) = true) (ht2 : tyVec (fT2 x) = true) (hregs : cvtRegs x ≠ 0)
    (ha : fA x + cvtRegs x ≤ 32) (hsat : fSat x = true → 4 ≤ fT x) : cvtOk x = true := by
  rw [cvtOk, ht, ht2, decide_eq_true ⟨hregs, ha⟩]
  cases hs : fSat x
  · rfl
  · simp [hsat hs]

theorem isByte_and_of_range {t : Nat} {p : Prop} [Decidable p] (ht : t = 12 ∨ t = 13) (hp : p) :
    (isByte t && decide p) = true := by
  rw [decide_eq_true hp, Bool.and_true]
  rcases ht with rfl | rfl <;> rfl

/-! ### Predicates (R264) -/

/-- A number added up from one bit at each place has those bits. -/
theorem testBit_sum_of_bits (b : Nat → Bool) (m j : Nat) :
    ((List.range m).foldl (fun a i => a + b2n (b i) <<< i) 0).testBit j = (decide (j < m) && b j) := by
  induction m generalizing j with
  | zero => simp
  | succ m ih =>
    rw [List.range_succ, List.foldl_append, List.foldl_cons, List.foldl_nil]
    have hlt : decide (j < m + 1) = (decide (j = m) || decide (j < m)) := by
      rw [← Bool.decide_or, decide_eq_decide, Nat.lt_succ_iff_lt_or_eq, or_comm]
    cases hb : b m
    · rw [b2n, if_neg Bool.false_ne_true, Nat.zero_shiftLeft, Nat.add_zero, ih, hlt]
      by_cases hj : j = m <;> simp [hj, hb]
    · rw [b2n, if_pos rfl, Nat.one_shiftLeft, testBit_add_two_pow (by simp [ih]), ih, hlt]
      by_cases hj : j = m <;> simp [hj, hb]

/-- A predicate instruction with its fields in range writes pd. -/
theorem gives_predOp {fields : List Nat} {ok : Nat → Bool} {f : Core → Nat → Nat} {r : Core → Nat}
    (hexec : exec c s = serving s (s.predOp n op w fields ok f)) (h : Serves s) (hi : Issues s n op w) (hx : w.toNat = x)
    (honly : only x (mD :: fields) = true) (hok : ok x = true) (hd : 1 ≤ fD x) (hd7 : fD x ≤ 7)
    (hr : ∀ k, f k x = r k) : Gives c s (Steps s n (fun k => k.setP (fD x) (r k))) := by
  subst hx
  refine gives_steps hexec h hi (f' := fun k => k.setP (fD w.toNat) (f k w.toNat)) ?_ (by rw [hr]) (Core.task_setP _ _ _)
  rw [honly, hok, decide_eq_true ⟨hd, hd7⟩]
  rfl

/-- Whether lane `l` of vcmp's operands compares true (R264). -/
def laneHolds (k : Core) (x l : Nat) : Bool :=
  if tyVFloat (fT x) then cmpFV (fF x) (tyValue (fT x) (laneA x k 0 l)) (tyValue (fT x) (laneB x k 0 l))
  else cmpInt (fF x) (tyInt (fT x) (laneA x k 0 l)) (tyInt (fT x) (laneB x k 0 l))

/-- Whether every lane of predicate bit `j` compares true. -/
def groupHolds (k : Core) (x j : Nat) : Bool :=
  (List.range (lanes (fT x) / 64)).all (fun i => laneHolds k x (j * (lanes (fT x) / 64) + i))

/-- The predicate that vcmp writes. -/
def cmpMask (k : Core) (x : Nat) : Nat := (List.range 64).foldl (fun a j => a + b2n (groupHolds k x j) <<< j) 0

theorem bitAt_cmpMask (k : Core) (x : Nat) {j : Nat} (hj : j < 64) : bitAt (cmpMask k x % 2 ^ 64) j = groupHolds k x j := by
  rw [bitAt_eq_testBit, Nat.testBit_mod_two_pow, cmpMask, testBit_sum_of_bits]
  simp [hj]

theorem gives_vcmp (h : Serves s) (hi : Issues s n 0x53 w) (hx : w.toNat = x)
    (honly : only x [mD, mA, mB, mT, mF] = true) (ht : tyVec (fT x) = true) (hd : 1 ≤ fD x) (hd7 : fD x ≤ 7)
    (hf : fF x ≤ 3) :
    Gives (.vcmp n w) s (Steps s n (fun k => k.setP (fD x) (cmpMask k x))) := by
  subst hx
  refine gives_steps rfl h hi (f' := fun k => k.setP (fD w.toNat) (cmpMask (s.core n) w.toNat)) ?_ rfl (Core.task_setP _ _ _)
  rw [honly, anyVec, ht, decide_eq_true ⟨hd, hd7, hf⟩]
  rfl

/-- A write of one predicate, said of the predicates one by one. -/
theorem steps_setP {t : State} {d : Nat} {v : Core → Nat} (hd : d ≠ 0) (h : Steps s n (fun k => k.setP d (v k)) t) :
    t.core n = { s.core n with pc := nextPc s n, p := (t.core n).p } ∧ (∀ m, m ≠ n → t.core m = s.core m) ∧
      (t.core n).pr d = v (s.core n) % 2 ^ 64 ∧ (∀ i, i ≠ d → (t.core n).pr i = (s.core n).pr i) ∧ RegsBut [] s t ∧
      PartsBut [.cores] s t := by
  obtain ⟨hcore, hothers, hregs, hparts⟩ := h
  refine ⟨?_, hothers, ?_, fun i hne => ?_, hregs, hparts⟩
  · rw [hcore]
    dsimp only
    rw [Core.setP_eq hd]
  · rw [hcore]
    exact Core.pr_setP_same hd (s.core n) _
  · rw [hcore]
    exact Core.pr_setP_other hne (s.core n) _

/-! ### Reductions (R265) -/

theorem redOk_of_ranges (ht : tyVec (fT x) = true) (ha : fA x + fR x ≤ 32) : redOk x = true := by
  rw [redOk, anyVec, ht, runA, decide_eq_true ha, Bool.and_self]

theorem tyVec_of_tyVFloat {t : Nat} (h : tyVFloat t = true) : tyVec t = true := by
  simp only [tyVFloat, tyVec, Bool.and_eq_true, decide_eq_true_eq] at h ⊢
  omega

theorem tyVec_of_tyVInt {t : Nat} (h : tyVInt t = true) : tyVec t = true := by
  simp only [tyVInt, tyVec, Bool.and_eq_true, decide_eq_true_eq] at h ⊢
  omega

theorem not_tyVFloat_of_tyVInt {t : Nat} (h : tyVInt t = true) : ¬ tyVFloat t = true := by
  simp only [tyVInt, tyVFloat, Bool.and_eq_true, decide_eq_true_eq] at h ⊢
  omega

/-- A maximum that no free value enters writes sd. -/
theorem gives_vredmax {v : Nat} (h : Serves s) (hi : Issues s n 0x59 w) (hx : w.toNat = x)
    (honly : only x [mD, mA, mG, mR, mE, mT] = true) (ht : tyVec (fT x) = true) (ha : fA x + fR x ≤ 32)
    (hv : (∃ i y, maxOfRun (s.core n) x = some (i, y) ∧ v = scalarForm (fT x) y) ∨
      ∃ f, maxOfRun (s.core n) x = none ∧ tyFmt (fT x) = some f ∧ v = f.qnan) :
    Gives (.vredmax n w) s (Steps s n (fun k => k.setS (fD x) v)) := by
  subst hx
  refine gives_steps rfl h hi (f' := fun k => k.setS (fD w.toNat) v) ?_ rfl (Core.task_setS _ _ _)
  rw [honly, redOk_of_ranges ht ha, Bool.and_self, if_pos rfl]
  obtain ⟨i, y, hmax, rfl⟩ | ⟨f, hmax, hfmt, rfl⟩ := hv
  · rw [hmax]
  · rw [hmax, hfmt]

/-- With no guarded lane an integer maximum draws a free value (log 63). -/
theorem gives_vredmax_free (h : Serves s) (hi : Issues s n 0x59 w) (hx : w.toNat = x)
    (honly : only x [mD, mA, mG, mR, mE, mT] = true) (ht : tyVec (fT x) = true) (ha : fA x + fR x ≤ 32)
    (hfmt : tyFmt (fT x) = none) (hmax : maxOfRun (s.core n) x = none) :
    Gives (.vredmax n w) s (fun t => t.core n = { (s.core n).setS (fD x) (scalarForm (fT x) s.freeVal) with
      pc := nextPc s n } ∧ t.fresh = s.fresh + 1 ∧ (∀ m, m ≠ n → t.core m = s.core m) ∧ RegsBut [] s t ∧
      PartsBut [.cores, .fresh] s t) := by
  subst hx
  refine gives_serving rfl h ?_
  rw [State.issueAt_of_issues hi, honly, redOk_of_ranges ht ha, Bool.and_self, if_pos rfl, hmax, hfmt]
  dsimp only
  rw [State.complete_next hi (u := s.drew.modCore n _) rfl
    (by rw [State.core_modCore_same, Core.task_setS]; rfl), State.modCore_modCore]
  have hdrew : Changes [] [.cores, .fresh] s s.drew := (changes_drew s).weaken (by simp)
  refine ⟨?_, rfl, fun m hm => ?_, (hdrew.trans ((changes_modCore n _ _).weaken (by simp))).after⟩
  · rw [State.core_after, State.core_modCore_same]
    rfl
  · rw [State.core_after, State.core_modCore_other _ _ hm]
    rfl

/-! ### The statement -/

/-- Settles O31: each instruction is one use of the rule of its form (`gives_vec`, `gives_predOp`, `gives_alu`, `gives_steps`);
the predicate that vcmp adds up from its bits has those bits. As logs 63 and 64 read R263 to R265: an integer maximum with no
guarded lane is a free value, vcvt between integers goes modulo the destination or clamps, a source element is read just
before its destination register is written, and vcmp leaves the bits of unguarded lanes 0. -/
theorem vectorConversion : Obligations.VectorConversion :=
  fun s h => ⟨
    fun _ _ _ hi hx honly ht ht2 hregs ha hsat hd =>
      gives_vec rfl h hi hx honly (cvtOk_of_ranges ht ht2 hregs ha hsat) hd rfl,
    fun _ _ _ hi hx honly ht ht2 heven ha hd =>
      gives_vec rfl h hi hx honly (isByte_and_of_range ht ⟨ht2, heven, ha⟩) hd rfl,
    fun _ _ _ hi hx honly ht2 ht ha hsat hd =>
      gives_vec rfl h hi hx honly (isByte_and_of_range ht2 ⟨ht, ha⟩) hd (by simp [hsat]),
    fun _ _ _ hi hx honly ht2 ht ha hsat hd =>
      gives_vec rfl h hi hx honly (isByte_and_of_range ht2 ⟨ht, ha⟩) hd
        (by rcases ht2 with e | e <;> simp [hsat, e]),
    fun n x w hi hx honly ht hd hd7 hf => by
      obtain ⟨t, hexec, hsteps⟩ := gives_vcmp h hi hx honly ht hd hd7 hf
      obtain ⟨hcore, hothers, hpr, hkept, hregs, hparts⟩ := steps_setP (by omega) hsteps
      exact ⟨t, hexec, hcore, hothers, fun j hj => by rw [hpr, bitAt_cmpMask _ _ hj]; rfl, hkept, hregs, hparts⟩,
    fun _ _ _ hi hx honly ha hb hd hd7 => gives_predOp rfl h hi hx honly (decide_eq_true ⟨ha, hb⟩) hd hd7
        fun _ => rfl,
    fun _ _ _ hi hx honly ha hb hd hd7 => gives_predOp rfl h hi hx honly (decide_eq_true ⟨ha, hb⟩) hd hd7
        fun _ => rfl,
    fun _ _ _ hi hx honly ha hb hd hd7 => gives_predOp rfl h hi hx honly (decide_eq_true ⟨ha, hb⟩) hd hd7
        fun _ => rfl,
    fun _ _ _ hi hx honly ha hd hd7 => gives_predOp rfl h hi hx honly (decide_eq_true ha) hd hd7
        fun _ => rfl,
    fun _ _ _ hi hx honly hd hd7 => gives_predOp rfl h hi hx honly rfl hd hd7
        fun _ => rfl,
    fun _ _ _ hi hx honly ha => gives_alu rfl h hi hx honly (decide_eq_true ha) rfl,
    fun _ _ _ hi hx honly ht ha =>
      gives_alu rfl h hi hx honly (redOk_of_ranges (tyVec_of_tyVFloat ht) ha) (if_pos ht),
    fun _ _ _ hi hx honly ht ha =>
      gives_alu rfl h hi hx honly (redOk_of_ranges (tyVec_of_tyVInt ht) ha) (if_neg (not_tyVFloat_of_tyVInt ht)),
    fun _ _ i y _ hi hx honly ht ha hmax => gives_vredmax h hi hx honly ht ha (.inl ⟨i, y, hmax, rfl⟩),
    fun _ _ f _ hi hx honly ha hfmt hmax ht => gives_vredmax h hi hx honly ht ha (.inr ⟨f, hmax, hfmt, rfl⟩),
    fun _ _ _ hi hx honly ht ha hfmt hmax => gives_vredmax_free h hi hx honly ht ha hfmt hmax,
    fun _ _ _ hi hx honly ht ha => gives_alu rfl h hi hx honly (redOk_of_ranges ht ha) (by cases maxOfRun _ _ <;> rfl),
    fun _ _ _ hi hx honly ht => gives_alu rfl h hi hx honly ht rfl⟩

end Sys2Proof.Machine
end

section
/-! PROOF. What every command has in common: it answers a next state, by way of one of four endings; and the steps of the
queue of commands (logs 1 and 3). -/

namespace Sys2Proof.Machine

-- One proof after another: proofs under way at once are more threads than one process has memory for.
set_option Elab.async false

open Sys2Proof.Safety

/-! ### The four endings of a command -/

/-- The outcome is that of a command that computed some state: the queue and elapsed time are as they were. -/
def Ends (s : State) (o : Host.Outcome State Fault Refusal) : Prop := ∃ t, o = finish s t

theorem ends_finish (s t : State) : Ends s (finish s t) := ⟨t, rfl⟩

theorem ends_clocked (s t : State) : Ends s (clocked s t) := ends_finish _ _

theorem ends_serving (s t : State) : Ends s (serving s t) := ends_clocked _ _

theorem ends_hosted (s : State) (f : State → State) : Ends s (hosted s f) := ends_clocked _ _

/-- Each command of the table has one of the four endings. -/
theorem exec_ends (c : Instr) (s : State) : Ends s (exec c s) := by
  cases c <;> exact ends_finish _ _

theorem exec_answers (c : Instr) (s : State) : ∃ t, exec c s = .next t ∧ t.pending = s.pending ∧ t.now = s.now := by
  obtain ⟨t, ht⟩ := exec_ends c s
  exact ⟨s.after t, ht, rfl, rfl⟩

theorem exec_pending {c : Instr} {s t : State} (h : exec c s = .next t) : t.pending = s.pending := by
  obtain ⟨u, hu, hpending, -⟩ := exec_answers c s
  obtain rfl : t = u := by simpa using h.symm.trans hu
  exact hpending

theorem exec_now {c : Instr} {s t : State} (h : exec c s = .next t) : t.now = s.now := by
  obtain ⟨u, hu, -, hnow⟩ := exec_answers c s
  obtain rfl : t = u := by simpa using h.symm.trans hu
  exact hnow

/-- Settles O53: each command has one of four endings, and all of them answer a next state with the queue and elapsed time
as they were. -/
theorem everyCommandAnswers : Obligations.EveryCommandAnswers := exec_answers

/-! ### A step -/

theorem step_cons {s : State} {c : Instr} {l : List Instr} (h : s.pending = c :: l) :
    step s = exec c { s with pending := l } := by
  rw [step, h]

theorem step_nil {s : State} (h : s.pending = []) : step s = .next s.tick := by
  rw [step, h]

/-- Settles O52: both are what `step` says of the two forms of the queue, and the table gives no word a command. -/
theorem stepRunsTheFront : Obligations.StepRunsTheFront :=
  ⟨fun _ _ _ h => step_cons h, fun _ h => ⟨_, step_nil h, h, rfl, rfl, rfl⟩, fun _ _ _ => ⟨rfl, rfl⟩⟩

/-- A step takes the first command away, and time does not run back. -/
theorem step_pending {s t : State} (h : step s = .next t) : t.pending = s.pending.tail ∧ s.now ≤ t.now := by
  cases hp : s.pending with
  | nil =>
    rw [step_nil hp] at h
    obtain rfl : s.tick = t := by simpa using h
    exact ⟨hp, Nat.le_succ _⟩
  | cons c l =>
    rw [step_cons hp] at h
    exact ⟨exec_pending h, (exec_now h).ge⟩

/-- Settles O54: what waits after a step is the tail of what waited before it. -/
theorem stepKeepsQueue : Obligations.StepKeepsQueue := by
  intro s t hok hstep
  obtain ⟨hpending, hnow⟩ := step_pending hstep
  exact ⟨fun c hc => hok c (List.mem_of_mem_tail (hpending ▸ hc)), hpending, hnow⟩

/-! ### After a FATAL error, and in Rest (R405, R447) -/

theorem serving_out {s : State} (t : State) (h : s.pkg.fatal = true ∨ s.resting = true) : serving s t = .next s := by
  have hout : (s.pkg.fatal || s.resting) = true := by simpa using h
  unfold serving clocked finish
  rw [if_pos hout, ite_self]
  rfl

/-- Every command of a port, an agent, a core or a unit of the fabric dies ends as one that they serve. -/
theorem beyondFabric_or_serving (c : Instr) (s : State) : beyondFabric c = true ∨ ∃ t, exec c s = serving s t := by
  cases c <;> first | exact .inl rfl | exact .inr ⟨_, rfl⟩

/-- Settles O57: all these commands have the ending of a command that the fabric dies serve. -/
theorem outOfService : Obligations.OutOfService := by
  intro c s hout hfabric
  obtain hbeyond | ⟨t, ht⟩ := beyondFabric_or_serving c s
  · exact absurd hbeyond (by simp [hfabric])
  · rw [ht, serving_out t hout]

end Sys2Proof.Machine
end

section
/-! PROOF. The statement on ZERO and NAN blocks (R320), and on temperatures, the trip and the rails (R465, R470 to R472). -/

namespace Sys2Proof.Machine

-- One proof after another: proofs under way at once are more threads than one process has memory for.
set_option Elab.async false

open Sys2Proof.Safety

/-! ### Blocks in ZERO and NAN modes (R320) -/

section
variable {t bcode blk count x : Nat} {out : Fmt}

/-- A step that is not 0 is an error of the format in modes 2 and 3. -/
theorem decodeBlock_stepped (hmode : 2 ≤ bitsOf x 0 2) (hstep : bitsOf x 16 8 * 8 + bitsOf x 13 3 ≠ 0) :
    decodeBlock t bcode blk count out x = .inl Cause.format := by
  unfold decodeBlock
  rw [if_pos (.inr (.inr (.inr ⟨hmode, hstep⟩)))]

/-- A body that is not 0 is an error in modes 2 and 3, whatever the rest of the header says. -/
theorem decodeBlock_bodied (hmode : bitsOf x 0 2 = 2 ∨ bitsOf x 0 2 = 3) (hbody : bitsOf x 32 (256 * bitsFor bcode) ≠ 0) :
    ∃ e, decodeBlock t bcode blk count out x = .inl e := by
  unfold decodeBlock
  dsimp only
  rw [if_pos hmode, if_pos hbody]
  split
  · exact ⟨_, rfl⟩
  · split <;> exact ⟨_, rfl⟩

/-- A block of a well-formed header in mode 2 or 3, with no step and no body, is `count` times one value. -/
theorem decodeBlock_empty (hmode : bitsOf x 0 2 = 2 ∨ bitsOf x 0 2 = 3) (hm : bitsOf x 13 3 = 0) (he : bitsOf x 16 8 = 0)
    (hbody : bitsOf x 32 (256 * bitsFor bcode) = 0) (hcode : bitsOf x 2 3 = bcode) (hblk : bitsOf x 24 8 = blk % 256)
    (hcount : bitsOf x 5 8 + 1 = count) :
    decodeBlock t bcode blk count out x = .inr (List.replicate count (if bitsOf x 0 2 = 2 then 0 else out.qnan)) := by
  have hformat : ¬ (bitsOf x 2 3 ≠ bcode ∨ bitsOf x 16 8 = 255 ∨ bitsOf x 24 8 ≠ blk % 256 ∨
      (2 ≤ bitsOf x 0 2 ∧ bitsOf x 16 8 * 8 + bitsOf x 13 3 ≠ 0)) := by
    simp [hcode, he, hblk, hm]
  unfold decodeBlock
  dsimp only
  rw [if_neg hformat, if_neg (not_not.mpr hcount), if_pos hmode, if_neg (not_not.mpr hbody)]

end

/-- Settles O60: a step is refused with the format, a body after it, and what is left is a run of one value. -/
theorem zeroAndNanBlocks : Obligations.ZeroAndNanBlocks := by
  refine ⟨by decide, by decide, fun t bcode blk count x out hmode => ⟨?_, fun hm he hbody hcode hblk hcount =>
    decodeBlock_empty hmode hm he hbody hcode hblk hcount⟩⟩
  rintro (hstep | hstep | hbody)
  · exact ⟨_, decodeBlock_stepped (by omega) (by omega)⟩
  · exact ⟨_, decodeBlock_stepped (by omega) (by omega)⟩
  · exact decodeBlock_bodied hmode hbody

/-! ### Changes of one part of the state -/

/-- A state with the same registers and other parts the same but those named. -/
theorem changes_of_parts {l : List Fld} {ps : List Part} {s t : State} (hregs : t.regs = s.regs) (hparts : PartsBut ps s t) :
    Changes l ps s t :=
  ⟨fun f ix _ _ => State.rd_of_regs hregs f ix, hparts, fun f _ _ => by rw [State.listed, hregs, State.listed]⟩

theorem changes_wr (f : Fld) (ix : List Nat) (v : Nat) (s : State) : Changes [f] [] s (s.wr f ix v) :=
  (Changes.refl _ _ s).wr (List.mem_singleton_self f) ix v

theorem changes_inPkg (k : Pkg) (s : State) : Changes [] [.pkg] s { s with pkg := k } :=
  changes_of_parts rfl (partsBut_inPkg s k)

/-! ### Temperatures (R470 to R472) -/

section
variable {s : State}

theorem changes_retarget (s : State) : Changes [R.PWR_THROTTLE_stack_cap] [.pkg] s s.retarget := by
  obtain ⟨k, hk, -, -⟩ := s.retarget_cases
  rw [hk]
  exact ((changes_wr _ _ _ s).weaken (by simp)).trans ((changes_inPkg k _).weaken (by simp))

/-- What the thermal controller's step writes beside what reports. -/
abbrev thermalFields : List Fld :=
  [R.PWR_THERMAL_STATUS_steps, R.PWR_THERMAL_STATUS_throttling, R.PWR_THROTTLE_stack_cap]

/-- The controller's own values after a step down, a step back or neither (R470). -/
def State.thermalAsked (die stack : Nat) (s : State) : State :=
  if s.rd R.PWR_THERMAL_CFG_die_throttle [] ≤ die ∨ s.rd R.PWR_THERMAL_CFG_stack_throttle [] ≤ stack then
    let r := stepDown s.pkg.thermEclk s.pkg.thermCap s.eclkTarget s.capTarget
    let t : State := { s with pkg := { s.pkg with thermEclk := r.1, thermCap := r.2.1 } }
    if r.2.2 = 0 then t else t.wr R.PWR_THERMAL_STATUS_steps [] (s.rd R.PWR_THERMAL_STATUS_steps [] + 1)
  else if die + s.rd R.PWR_THERMAL_CFG_hysteresis [] < s.rd R.PWR_THERMAL_CFG_die_throttle [] ∧
      stack + s.rd R.PWR_THERMAL_CFG_hysteresis [] < s.rd R.PWR_THERMAL_CFG_stack_throttle [] then
    let r := stepUp s.pkg.thermEclk s.pkg.thermCap (modeEclk s.mode) (modeCap s.mode)
    let t : State := { s with pkg := { s.pkg with thermEclk := r.1, thermCap := r.2.1 } }
    t.wr R.PWR_THERMAL_STATUS_steps []
      (if r.1 = 18 ∧ r.2.1 = 100 then 0 else max 1 (s.rd R.PWR_THERMAL_STATUS_steps [] - 1))
  else s

/-- Whether the thermal controller holds anything back is shown, and is an event where it does. -/
def State.thermalTold (s : State) : State :=
  let t := s.wr R.PWR_THERMAL_STATUS_throttling [] (b2n (s.rd R.PWR_THERMAL_STATUS_steps [] ≠ 0))
  if s.rd R.PWR_THERMAL_STATUS_steps [] ≠ 0 then t.event B.pwr 6 else t

theorem State.thermalStep_eq (die stack : Nat) (s : State) :
    s.thermalStep die stack = (s.thermalAsked die stack).thermalTold.retarget := by
  unfold State.thermalStep State.thermalTold
  simp only
  rfl

theorem changes_thermalAsked (die stack : Nat) (s : State) :
    Changes [R.PWR_THERMAL_STATUS_steps] [.pkg] s (s.thermalAsked die stack) := by
  have hpkg (k : Pkg) : Changes [R.PWR_THERMAL_STATUS_steps] [.pkg] s { s with pkg := k } :=
    (changes_inPkg k s).weaken (by simp)
  have hsteps (k : Pkg) (v : Nat) := (hpkg k).wr (List.mem_singleton_self _) [] v
  unfold State.thermalAsked
  exact Changes.ite (Changes.ite (hpkg _) (hsteps _ _)) (Changes.ite (hsteps _ _) (Changes.refl _ _ s))

theorem changes_thermalTold (s : State) :
    Changes [R.PWR_THERMAL_STATUS_throttling] [.out, .hif] s s.thermalTold := by
  have hshown (v : Nat) : Changes [R.PWR_THERMAL_STATUS_throttling] [.out, .hif] s
      (s.wr R.PWR_THERMAL_STATUS_throttling [] v) := (changes_wr _ _ _ s).weaken (by simp)
  exact Changes.ite ((hshown _).told ((Told.refl _).event _ _)) (hshown _)

theorem changes_thermalStep (die stack : Nat) (s : State) :
    Changes thermalFields [.pkg, .out, .hif] s (s.thermalStep die stack) := by
  rw [s.thermalStep_eq]
  exact (((changes_thermalAsked die stack s).weaken (by decide)).trans ((changes_thermalTold _).weaken (by decide))).trans
    ((changes_retarget _).weaken (by decide))

theorem State.rd_setTemps (west east hub stack i : Nat) (s : State) :
    (s.setTemps west east hub stack i).rd R.PWR_TEMP_west [] = west % 2 ^ 8 ∧
    (s.setTemps west east hub stack i).rd R.PWR_TEMP_east [] = east % 2 ^ 8 ∧
    (s.setTemps west east hub stack i).rd R.PWR_TEMP_hub [] = hub % 2 ^ 8 ∧
    (s.setTemps west east hub stack i).rd R.PWR_TEMP_stack [] = stack % 2 ^ 8 ∧
    (s.setTemps west east hub stack i).rd R.PWR_TEMP_stack_index [] = i % 2 ^ 5 ∧
    (s.setTemps west east hub stack i).rd R.MEM_STACK_STATUS_temp [i] = stack % 2 ^ 8 := by
  unfold State.setTemps
  refine ⟨?_, ?_, ?_, ?_, ?_, ?_⟩ <;> simp (disch := decide) only [State.rd_wr_num, State.rd_wr_same] <;> rfl

/-- The readings are stored, and the critical level ends below the thresholds (R470, R472). -/
def State.tempsTaken (west east hub stack i : Nat) (s : State) : State :=
  if max west (max east hub) < s.rd R.PWR_THERMAL_CFG_die_throttle [] ∧ stack < s.rd R.PWR_THERMAL_CFG_stack_throttle [] then
    (s.setTemps west east hub stack i).wr R.PWR_THERMAL_STATUS_critical [] 0
  else s.setTemps west east hub stack i

/-- Nothing after the readings writes them. -/
theorem changes_after_temps (west east hub stack i : Nat) (s : State) :
    Changes (R.PWR_THERMAL_STATUS_critical :: thermalFields) [.pkg, .out, .hif] (s.setTemps west east hub stack i)
      (if s.resting then s.tempsTaken west east hub stack i
       else (s.tempsTaken west east hub stack i).thermalStep (max west (max east hub)) stack) := by
  have htaken : Changes (R.PWR_THERMAL_STATUS_critical :: thermalFields) [.pkg, .out, .hif]
      (s.setTemps west east hub stack i) (s.tempsTaken west east hub stack i) :=
    Changes.ite ((changes_wr _ _ _ _).weaken (by simp)) (Changes.refl _ _ _)
  exact Changes.ite htaken (htaken.trans ((changes_thermalStep _ _ _).weaken (by simp)))

theorem gives_thermalWindow (h : Runs s) {west east hub stack i : Nat} (hwest : west < 256) (heast : east < 256)
    (hhub : hub < 256) (hstack : stack < 256) (hi : i < 20) :
    Gives (.thermalWindow west east hub stack i) s (fun t => t.rd R.PWR_TEMP_west [] = west ∧ t.rd R.PWR_TEMP_east [] = east ∧
      t.rd R.PWR_TEMP_hub [] = hub ∧ t.rd R.PWR_TEMP_stack [] = stack ∧ t.rd R.PWR_TEMP_stack_index [] = i ∧
      t.rd R.MEM_STACK_STATUS_temp [i] = stack) := by
  obtain ⟨hw, he, hh, hs, hx, ht⟩ := s.rd_setTemps west east hub stack i
  have hkept := changes_after_temps west east hub stack i s
  exact gives_clocked rfl h ⟨(hkept.rd R.PWR_TEMP_west []).trans (by omega), (hkept.rd R.PWR_TEMP_east []).trans (by omega),
    (hkept.rd R.PWR_TEMP_hub []).trans (by omega), (hkept.rd R.PWR_TEMP_stack []).trans (by omega),
    (hkept.rd R.PWR_TEMP_stack_index []).trans (by omega), (hkept.rd R.MEM_STACK_STATUS_temp [i]).trans (by omega)⟩

/-! ### The critical level and the trip (R472) -/

theorem gives_thermalCritical (h : Runs s) {die stack : Nat} (hhot : 112 ≤ die ∨ 100 ≤ stack) :
    Gives (.thermalCritical die stack) s (fun t => t.rd R.PWR_THERMAL_STATUS_critical [] = 1 ∧
      t.rd R.PWR_THROTTLE_stack_cap [] = 10 ∧
      RegsBut [R.PWR_THERMAL_STATUS_critical, R.PWR_THROTTLE_stack_cap] s t ∧ PartsBut [.pkg] s t) := by
  have hcritical : (s.wr R.PWR_THERMAL_STATUS_critical [] 1).rd R.PWR_THERMAL_STATUS_critical [] = 1 := State.rd_wr_same _ _ _ s
  have hcap : (s.wr R.PWR_THERMAL_STATUS_critical [] 1).capTarget = 10 := if_pos (by simp [State.on, hcritical])
  have hchanges := (changes_retarget (s.wr R.PWR_THERMAL_STATUS_critical [] 1))
  have hall : Changes [R.PWR_THERMAL_STATUS_critical, R.PWR_THROTTLE_stack_cap] [.pkg] s
      (s.wr R.PWR_THERMAL_STATUS_critical [] 1).retarget :=
    ((changes_wr _ _ _ s).weaken (by simp)).trans (hchanges.weaken (by simp))
  refine gives_clocked rfl h ?_
  rw [if_pos hhot]
  refine ⟨(hchanges.rd _ _).trans hcritical, ?_, hall.after⟩
  obtain ⟨k, hk, -, -⟩ := (s.wr R.PWR_THERMAL_STATUS_critical [] 1).retarget_cases
  rw [hk, hcap]
  exact State.rd_wr_same _ _ _ _

theorem gives_thermalTrip {source temp : Nat} (hhot : 125 ≤ temp) (hcold : s.pkg.tripped = false) :
    Gives (.thermalTrip source temp) s (fun t => t.stopped = true ∧ t.rd R.PWR_THERMAL_STATUS_tripped [] = 1 ∧
      t.rd R.PWR_THERMAL_STATUS_trip_source [] = source % 4 ∧ t.out = s.out ++ [.pin 0 0] ∧
      RegsBut [R.PWR_THERMAL_STATUS_tripped, R.PWR_THERMAL_STATUS_trip_source] s t ∧ PartsBut [.out, .pkg] s t) := by
  have hwritten : Changes [R.PWR_THERMAL_STATUS_tripped, R.PWR_THERMAL_STATUS_trip_source] [.out, .pkg] s
      ((s.wr R.PWR_THERMAL_STATUS_tripped [] 1).wr R.PWR_THERMAL_STATUS_trip_source [] source) :=
    ((Changes.refl _ _ s).wr (by simp) _ _).wr (by simp) _ _
  refine gives_finish rfl ?_
  rw [if_pos ⟨hhot, by simp [hcold]⟩]
  refine ⟨?_, (State.rd_wr_num _ _ _ _ (by decide)).trans (State.rd_wr_same _ _ _ _), State.rd_wr_same _ _ _ _, ?_,
    ((hwritten.emit _).trans ((changes_inPkg _ _).weaken (by simp))).after⟩
  · simp [State.stopped]
  · simp [State.emit]

/-! ### Rails and the part reset (R445, R465) -/

/-- The three registers of a part reset that are not at their reset values are those it writes. -/
theorem State.partReset_cases (cause : Nat) (s : State) :
    Changes [R.GLB_RESET_CAUSE_cause, R.PWR_THERMAL_STATUS_tripped, R.PWR_THERMAL_STATUS_trip_source]
      [.fresh, .out, .sec, .flash] State.reset (s.partReset cause) ∧
    (s.partReset cause).rd R.GLB_RESET_CAUSE_cause [] = cause % 8 ∧
    (s.partReset cause).rd R.PWR_THERMAL_STATUS_tripped [] = s.rd R.PWR_THERMAL_STATUS_tripped [] % 2 ∧
    (s.partReset cause).flash = s.flash := by
  have hreset (r : State) (hr : Changes [] [.fresh, .out, .sec, .flash] State.reset r) :
      Changes [R.GLB_RESET_CAUSE_cause, R.PWR_THERMAL_STATUS_tripped, R.PWR_THERMAL_STATUS_trip_source]
        [.fresh, .out, .sec, .flash] State.reset
        (((r.wr R.GLB_RESET_CAUSE_cause [] cause).wr R.PWR_THERMAL_STATUS_tripped []
          (s.rd R.PWR_THERMAL_STATUS_tripped [])).wr R.PWR_THERMAL_STATUS_trip_source []
          (s.rd R.PWR_THERMAL_STATUS_trip_source [])) :=
    (((hr.weaken (by simp)).wr (by simp) _ _).wr (by simp) _ _).wr (by simp) _ _
  refine ⟨hreset _ (changes_of_parts rfl (fun p hp => ?_)), ?_, ?_, ?_⟩
  · cases p <;> first | rfl | exact absurd (by decide) hp
  · exact ((State.rd_wr_num _ _ _ _ (by decide)).trans (State.rd_wr_num _ _ _ _ (by decide))).trans (State.rd_wr_same _ _ _ _)
  · exact (State.rd_wr_num _ _ _ _ (by decide)).trans (State.rd_wr_same _ _ _ _)
  · simp [State.partReset]

theorem gives_railFault {ns : Nat} (hlong : 2000 < ns) :
    Gives (.railFault ns) s (fun t => t.pkg.railHeld = true ∧ t.rd R.GLB_RESET_CAUSE_cause [] = 0 ∧ t.flash = s.flash ∧
      t.mem = [] ∧ t.rd R.PWR_THERMAL_STATUS_tripped [] = s.rd R.PWR_THERMAL_STATUS_tripped [] % 2) := by
  obtain ⟨hchanges, hcause, htripped, hflash⟩ := s.partReset_cases 0
  refine gives_finish rfl ?_
  rw [if_pos hlong]
  exact ⟨rfl, hcause, hflash, hchanges.parts .mem (by simp), htripped⟩

theorem gives_railRecovery {ns : Nat} (hlong : 1000000 ≤ ns) :
    Gives (.railRecovery ns) s (fun t => t.pkg.railHeld = false ∧ RegsBut [] s t ∧ PartsBut [.pkg] s t) := by
  refine gives_finish rfl ?_
  rw [if_pos hlong]
  exact ⟨rfl, (changes_inPkg _ s).after⟩

end

/-- Settles O3: nothing after the readings writes them again; the critical level sets the target of the stack cap, and a rail
fault is a part reset held. -/
theorem thermalAndRails : Obligations.ThermalAndRails :=
  fun _ => ⟨fun _ _ _ _ _ h hwest heast hhub hstack hi => gives_thermalWindow h hwest heast hhub hstack hi,
    fun _ _ h hhot => gives_thermalCritical h hhot, fun _ _ hhot hcold => gives_thermalTrip hhot hcold,
    fun _ hlong => gives_railFault hlong, fun _ hlong => gives_railRecovery hlong⟩

end Sys2Proof.Machine
end

section
/-! PROOF. The statement on resets (R445, R446, R454). -/

namespace Sys2Proof.Map

variable {α : Type}

/-- Keeping entries by their index reads as before where the index is kept. -/
theorem find_filter_key (p : Key → Bool) (l : List (Key × α)) (k : Key) :
    find (l.filter (fun e => p e.1)) k = if p k then find l k else none := by
  induction l with
  | nil => simp [find]
  | cons e t ih =>
    obtain ⟨k', v⟩ := e
    by_cases hk : k' = k
    · subst hk
      by_cases hp : p k' <;> simp [hp, find, ih]
    · by_cases hp' : p k' <;> simp [hp', hk, find, ih]

theorem get_keep_key (m : Map α) (p : Key → Bool) (d : α) (k : Key) :
    (m.keep (fun k _ => p k)).get d k = if p k then m.get d k else d := by
  rw [get, keep, find_filter_key, get]
  split <;> rfl

theorem has_keep_key (m : Map α) (p : Key → Bool) (k : Key) : (m.keep (fun k _ => p k)).has k = (p k && m.has k) := by
  rw [has, keep, find_filter_key, has]
  split <;> simp [*]

end Sys2Proof.Map

namespace Sys2Proof.Machine

-- One proof after another: proofs under way at once are more threads than one process has memory for.
set_option Elab.async false

open Sys2Proof.Safety

variable {s : State} {f g : Nat}

/-! ### A reset of the part (R445) -/

theorem State.partReset_pkg (cause : Nat) (s : State) : (s.partReset cause).pkg = State.reset.pkg := by simp [State.partReset]

/-- What every part reset of the running part shows. -/
theorem gives_partReset {c : Instr} {cause : Nat} (h : Runs s) (hexec : exec c s = clocked s (s.partReset cause)) :
    Gives c s (fun t => t.rd R.GLB_RESET_CAUSE_cause [] = cause % 8 ∧ t.flash = s.flash ∧
      RegsBut [R.GLB_RESET_CAUSE_cause, R.PWR_THERMAL_STATUS_tripped, R.PWR_THERMAL_STATUS_trip_source] State.reset t ∧
      PartsBut [.fresh, .out, .sec, .flash] State.reset t) := by
  obtain ⟨hchanges, hcause, -, hflash⟩ := s.partReset_cases cause
  exact gives_clocked hexec h ⟨hcause, hflash, hchanges.after⟩

theorem gives_partReset_pin (htripped : s.rd R.PWR_THERMAL_STATUS_tripped [] < 2) :
    Gives (.partReset 1) s (fun t => t.rd R.GLB_RESET_CAUSE_cause [] = 1 ∧
      t.rd R.PWR_THERMAL_STATUS_tripped [] = s.rd R.PWR_THERMAL_STATUS_tripped [] ∧ t.flash = s.flash ∧
      t.pkg = { State.reset.pkg with railHeld := s.pkg.railHeld } ∧
      RegsBut [R.GLB_RESET_CAUSE_cause, R.PWR_THERMAL_STATUS_tripped, R.PWR_THERMAL_STATUS_trip_source] State.reset t ∧
      PartsBut [.fresh, .out, .pkg, .sec, .flash] State.reset t) := by
  obtain ⟨hchanges, hcause, htrip, hflash⟩ := s.partReset_cases 1
  exact gives_finish rfl ⟨hcause, htrip.trans (Nat.mod_eq_of_lt htripped), hflash,
    congrArg (fun k : Pkg => { k with railHeld := s.pkg.railHeld }) (s.partReset_pkg 1),
    ((hchanges.weaken (by simp)).trans ((changes_inPkg _ _).weaken (by simp))).after⟩

theorem State.regs_wr (f : Fld) (ix : List Nat) (v : Nat) (s : State) :
    (s.wr f ix v).regs = if v % 2 ^ f.w = f.resetAt ix then s.regs.erase (f.num :: ix)
      else s.regs.set (f.num :: ix) (v % 2 ^ f.w) := by
  unfold State.wr
  split <;> rfl

/-- Writing the two fields of the retention cell, and clearing them again, leaves no entry. -/
theorem State.regs_powerOn (s : State) :
    (((s.partReset 0).wr R.PWR_THERMAL_STATUS_tripped [] 0).wr R.PWR_THERMAL_STATUS_trip_source [] 0).regs = Map.empty := by
  have hcause (r : State) : (r.wr R.GLB_RESET_CAUSE_cause [] 0).regs = r.regs.erase [R.GLB_RESET_CAUSE_cause.num] :=
    (State.regs_wr _ _ _ r).trans (if_pos (by decide))
  rw [State.regs_wr, if_pos (by decide), State.regs_wr, if_pos (by decide)]
  unfold State.partReset
  dsimp only
  rw [State.regs_wr, State.regs_wr, hcause]
  split <;> split <;> rfl

theorem gives_partReset_powerOn :
    Gives (.partReset 0) s (fun t => t.rd R.GLB_RESET_CAUSE_cause [] = 0 ∧ t.rd R.PWR_THERMAL_STATUS_tripped [] = 0 ∧
      t.flash = s.flash ∧ RegsBut [] State.reset t ∧ PartsBut [.fresh, .out, .pkg, .sec, .flash] State.reset t) := by
  obtain ⟨hchanges, -, -, hflash⟩ := s.partReset_cases 0
  have hregs (f : Fld) (ix : List Nat) := State.rd_of_regs (s := State.reset) s.regs_powerOn f ix
  have hparts := ((hchanges.weaken (ps' := [.fresh, .out, .pkg, .sec, .flash]) (fun _ h => h)).wr
    (f := R.PWR_THERMAL_STATUS_tripped) (by simp) [] 0).wr (f := R.PWR_THERMAL_STATUS_trip_source) (by simp) [] 0
  exact gives_finish rfl ⟨hregs _ _, hregs _ _, by simpa using hflash, fun f ix _ _ => hregs f ix,
    (hparts.trans ((changes_inPkg _ _).weaken (by simp))).parts.after⟩

/-! ### A reset of one function -/

/-- The registers that a reset of a function clears. -/
abbrev functionFields : List Fld :=
  [R.MRN_REQ_word, R.MRN_REPLY_word, R.MRN_REPLY_HDR_seq, R.MRN_REPLY_HDR_status, R.MRN_REPLY_HDR_length, R.MRN_CFG_vector,
    R.MRN_CFG_int_en, R.MRN_BUSY_pending, R.SEC_SESSION_state, R.SEC_SESSION_status, R.SEC_SESSION_seq_in,
    R.SEC_SESSION_seq_out, R.SEC_TENANT_session_open]

/-- What is left of a register's index when the mailbox of function `f` is cleared. -/
def outOfMail (f : Nat) (k : Key) : Bool := !(mailFields.contains (k.headD 0) && decide (k[1]? = some f))

/-- The state of a function is cleared, but for its bit of MRN_BUSY and its session. -/
def State.functionCleared (f : Nat) (s : State) : State :=
  { s with
    regs := s.regs.keep (fun k _ => outOfMail f k),
    sec := { s.sec with evidence := s.sec.evidence.filter (fun e => !(decide (e.fn = f) && e.via.isNone)) },
    hif := { s.hif with
      msixOpen := s.hif.msixOpen.keep (fun k _ => decide (k.head? ≠ some f)),
      msixPending := s.hif.msixPending.keep (fun k _ => decide (k.head? ≠ some f)),
      mbox := match s.hif.mbox.get? [f] with
        | some q => if s.hif.waiting.contains (some f) then (s.hif.mbox.erase [f]).set [f + 32 * (s.hif.mbox.size + 1)] q
          else s.hif.mbox.erase [f]
        | none => s.hif.mbox,
      waiting := s.hif.waiting.map (fun x => if x = some f then some (f + 32 * (s.hif.mbox.size + 1)) else x),
      bar4 := s.hif.bar4.keep (fun k _ => decide (k.head? ≠ some f)),
      doe := s.hif.doe.erase [f],
      bar2 := s.hif.bar2.each (fun k l => if decide (k.head? ≠ some f) then l
        else (l.filter (fun a => a.issued)).map (fun a => { a with dead := true })) } }

theorem State.resetFunction_eq (f : Nat) (s : State) :
    s.resetFunction f = ((s.functionCleared f).setBusyBit f false).endSession f := rfl

theorem outOfMail_of_num {k : Key} (h : mailFields.contains (k.headD 0) = false) : outOfMail f k = true := by
  rw [outOfMail, h]
  rfl

theorem State.rd_functionCleared (f : Nat) (s : State) (F : Fld) (ix : List Nat) :
    (s.functionCleared f).rd F ix = if outOfMail f (F.num :: ix) then s.rd F ix else F.resetAt ix :=
  Map.get_keep_key _ _ _ _

theorem contains_mailFields_false {n : Nat} (h : ∀ F ∈ functionFields, n ≠ F.num) : mailFields.contains n = false := by
  have hsub : ∀ m ∈ mailFields, m ∈ functionFields.map Fld.num := by decide
  rw [← Bool.not_eq_true, List.contains_iff_mem]
  intro hn
  obtain ⟨F, hF, rfl⟩ := List.mem_map.mp (hsub n hn)
  exact h F hF rfl

theorem changes_functionCleared (f : Nat) (s : State) : Changes functionFields [.sec, .hif] s (s.functionCleared f) := by
  refine ⟨fun F ix _ hF => ?_, fun p hp => ?_, fun F _ hF => ?_⟩
  · rw [State.rd_functionCleared, if_pos (outOfMail_of_num (k := F.num :: ix) (contains_mailFields_false hF))]
  · cases p <;> first | rfl | exact absurd (by decide) hp
  · unfold State.listed State.functionCleared Map.keep
    rw [List.filter_filter]
    congr 1
    refine List.filter_congr (fun e _ => ?_)
    by_cases he : e.1.head? = some F.num
    · have hk : e.1.headD 0 = F.num := by rw [List.headD_eq_head?_getD, he, Option.getD_some]
      have hkept : outOfMail f e.1 = true := outOfMail_of_num (hk ▸ contains_mailFields_false hF)
      simp [he, hkept]
    · simp [he]

theorem changes_setBusyBit (f : Nat) (b : Bool) (s : State) : Changes [R.MRN_BUSY_pending] [] s (s.setBusyBit f b) :=
  changes_wr _ _ _ s

theorem changes_endSession (f : Nat) (s : State) : Changes functionFields [.sec] s (s.endSession f) := by
  have hsec (k : Sec) : Changes functionFields [.sec] s { s with sec := k } :=
    changes_of_parts rfl (fun p hp => by cases p <;> first | rfl | exact absurd (by decide) hp)
  exact (((((hsec _).wr (by simp) _ _).wr (by simp) _ _).wr (by simp) _ _).wr (by simp) _ _).wr (by simp) _ _

theorem changes_resetFunction (f : Nat) (s : State) : Changes functionFields [.sec, .hif] s (s.resetFunction f) := by
  rw [State.resetFunction_eq]
  exact ((changes_functionCleared f s).trans ((changes_setBusyBit _ _ _).weaken (by simp))).trans
    ((changes_endSession _ _).weaken (by simp))

/-! What the function is left with, and what the others keep. -/

@[simp] theorem State.hif_endSession (f : Nat) (s : State) : (s.endSession f).hif = s.hif := by simp [State.endSession]

@[simp] theorem State.hif_setBusyBit (f : Nat) (b : Bool) (s : State) : (s.setBusyBit f b).hif = s.hif := State.wr_hif_eq _ _ _ s

theorem State.hif_resetFunction (f : Nat) (s : State) : (s.resetFunction f).hif = (s.functionCleared f).hif := by
  rw [State.resetFunction_eq, State.hif_endSession, State.hif_setBusyBit]

theorem State.bar4_resetFunction (f g off area : Nat) (s : State) :
    (s.resetFunction f).bar4 g off area = if g = f then 0 else s.bar4 g off area := by
  rw [State.bar4, State.hif_resetFunction]
  refine (Map.get_keep_key _ (fun k => decide (k.head? ≠ some f)) _ _).trans ?_
  by_cases hg : g = f <;> simp [hg, State.bar4]

theorem State.msixOpen_resetFunction (f g v : Nat) (s : State) :
    (s.resetFunction f).hif.msixOpen.has [g, v] = (decide (g ≠ f) && s.hif.msixOpen.has [g, v]) := by
  rw [State.hif_resetFunction]
  refine (Map.has_keep_key _ (fun k => decide (k.head? ≠ some f)) _).trans ?_
  simp

theorem State.bounce_resetFunction (f : Nat) (s : State) : (s.resetFunction f).sec.bounce.get? [f] = none := by
  simp [State.resetFunction_eq, State.endSession]

theorem State.rd_endSession_state (f : Nat) (s : State) : (s.endSession f).rd R.SEC_SESSION_state [f] = 0 := by
  unfold State.endSession
  simp (disch := decide) only [State.rd_wr_num, State.rd_wr_same]
  rfl

theorem State.rd_resetFunction_state (f : Nat) (s : State) : (s.resetFunction f).rd R.SEC_SESSION_state [f] = 0 :=
  State.rd_endSession_state _ _

theorem State.rd_resetFunction_mail {F : Fld} (hF : mailFields.contains F.num = true)
    (hother : ∀ G ∈ [R.MRN_BUSY_pending, R.SEC_SESSION_state, R.SEC_SESSION_status, R.SEC_SESSION_seq_in,
      R.SEC_SESSION_seq_out, R.SEC_TENANT_session_open], F.num ≠ G.num) (f : Nat) (s : State) :
    (s.resetFunction f).rd F [f] = F.resetAt [f] := by
  simp only [List.forall_mem_cons] at hother
  obtain ⟨hbusy, hstate, hstatus, hin, hout, hopen, -⟩ := hother
  rw [State.resetFunction_eq, State.endSession, State.rd_wr_num _ _ _ _ hopen, State.rd_wr_num _ _ _ _ hout,
    State.rd_wr_num _ _ _ _ hin, State.rd_wr_num _ _ _ _ hstatus, State.rd_wr_num _ _ _ _ hstate]
  refine (State.rd_wr_num _ _ _ _ hbusy).trans ?_
  rw [State.rd_functionCleared, if_neg]
  rw [outOfMail, List.headD_cons, hF]
  simp

/-- A register of another function is as before. -/
theorem State.rd_resetFunction_other (h : g ≠ f) (F : Fld) (s : State) : (s.resetFunction f).rd F [g] = s.rd F [g] := by
  have hkey (G : Fld) : F.num :: [g] ≠ G.num :: [f] := by simp [h]
  rw [State.resetFunction_eq, State.endSession, State.rd_wr_other _ _ (hkey _), State.rd_wr_other _ _ (hkey _),
    State.rd_wr_other _ _ (hkey _), State.rd_wr_other _ _ (hkey _), State.rd_wr_other _ _ (hkey _)]
  refine (State.rd_wr_other _ _ (by simp)).trans ?_
  rw [State.rd_functionCleared, if_pos]
  simp [outOfMail, h]

theorem gives_functionLevelReset (h : Runs s) (hpos : 0 < f) (hlt : f < 32) :
    Gives (.functionLevelReset f) s (fun t => t.rd R.SEC_SESSION_state [f] = 0 ∧ t.sec.bounce.get? [f] = none ∧
      (∀ off area, t.bar4 f off area = 0) ∧ (∀ g off area, g ≠ f → t.bar4 g off area = s.bar4 g off area) ∧
      (∀ g, g ≠ f → t.rd R.SEC_SESSION_state [g] = s.rd R.SEC_SESSION_state [g] ∧
        t.rd R.MRN_REPLY_HDR_seq [g] = s.rd R.MRN_REPLY_HDR_seq [g]) ∧
      RegsBut functionFields s t ∧ PartsBut [.sec, .hif] s t) := by
  refine gives_clocked rfl h ?_
  rw [if_neg (Nat.ne_of_gt hpos), if_pos hlt]
  exact ⟨s.rd_resetFunction_state f, s.bounce_resetFunction f, fun off area => (s.bar4_resetFunction f f off area).trans (if_pos rfl),
    fun g off area hg => (s.bar4_resetFunction f g off area).trans (if_neg hg),
    fun g hg => ⟨State.rd_resetFunction_other hg _ s, State.rd_resetFunction_other hg _ s⟩, (changes_resetFunction f s).after⟩

/-! ### A reset of the endpoint: of all 32 functions -/

/-- Function `f` has been reset, and its session, its mailbox, its vectors and its page of BAR4 with it. -/
structure Cleared (f : Nat) (t : State) : Prop where
  session : t.rd R.SEC_SESSION_state [f] = 0
  seq : t.rd R.MRN_REPLY_HDR_seq [f] = 0
  intEn : t.rd R.MRN_CFG_int_en [f] = 0
  vectors : ∀ v, t.hif.msixOpen.has [f, v] = false
  page : ∀ off area, t.bar4 f off area = 0

theorem cleared_resetFunction (f : Nat) (s : State) : Cleared f (s.resetFunction f) where
  session := s.rd_resetFunction_state f
  seq := State.rd_resetFunction_mail (by decide) (by decide) f s
  intEn := State.rd_resetFunction_mail (by decide) (by decide) f s
  vectors v := by simp [State.msixOpen_resetFunction]
  page off area := (s.bar4_resetFunction f f off area).trans (if_pos rfl)

theorem Cleared.resetFunction (h : Cleared f s) (g : Nat) : Cleared f (s.resetFunction g) := by
  by_cases hfg : f = g
  · exact hfg ▸ cleared_resetFunction f s
  · exact ⟨(State.rd_resetFunction_other hfg _ s).trans h.session, (State.rd_resetFunction_other hfg _ s).trans h.seq,
      (State.rd_resetFunction_other hfg _ s).trans h.intEn, fun v => by simp [State.msixOpen_resetFunction, h.vectors],
      fun off area => (s.bar4_resetFunction g f off area).trans ((if_neg hfg).trans (h.page off area))⟩

theorem Cleared.resetFunctions (h : Cleared f s) (l : List Nat) : Cleared f (l.foldl (fun t g => t.resetFunction g) s) := by
  induction l generalizing s with
  | nil => exact h
  | cons g l ih => exact ih (h.resetFunction g)

theorem cleared_resetFunctions {l : List Nat} (hf : f ∈ l) (s : State) :
    Cleared f (l.foldl (fun t g => t.resetFunction g) s) := by
  induction l generalizing s with
  | nil => cases hf
  | cons g l ih =>
    rcases List.mem_cons.mp hf with rfl | hf
    · exact (cleared_resetFunction f s).resetFunctions l
    · exact ih hf _

/-- The endpoint after its reset: every function cleared, and the link down. -/
def State.endpointDown (s : State) : State := { s.resetEndpoint with hif := { s.resetEndpoint.hif with linkUp := false } }

theorem cleared_endpointDown (hf : f < 32) (s : State) : Cleared f s.endpointDown := by
  obtain ⟨hsession, hseq, hint, hvectors, hpage⟩ := cleared_resetFunctions (List.mem_range.mpr hf) s
  exact ⟨hsession, hseq, hint, hvectors, hpage⟩

theorem changes_inHif (k : Hif) (s : State) : Changes [] [.hif] s { s with hif := k } :=
  changes_of_parts rfl (fun p hp => by cases p <;> first | rfl | exact absurd (by decide) hp)

theorem changes_endpointDown (s : State) : Changes functionFields [.sec, .hif] s s.endpointDown :=
  (Changes.foldl _ (fun t g => changes_resetFunction g t) (List.range 32) s).trans ((changes_inHif _ _).weaken (by simp))

theorem gives_perst_endpoint (h : Runs s) (hpart : s.on R.GLB_CFG_perst_part [] = false) :
    Gives .perst s (fun t => t.hif.linkUp = false ∧ t.rd R.SEC_SESSION_state [5] = 0 ∧
      (∀ f off area, f < 32 → t.bar4 f off area = 0) ∧ RegsBut functionFields s t ∧ PartsBut [.sec, .hif] s t) := by
  refine gives_clocked rfl h ?_
  rw [if_neg (by simp [hpart])]
  exact ⟨rfl, (cleared_endpointDown (by decide) s).session, fun _ off area hf => (cleared_endpointDown hf s).page off area,
    (changes_endpointDown s).after⟩

theorem gives_endpointReset (h : Runs s) :
    Gives .endpointReset s (fun t => t.hif.linkUp = false ∧
      (∀ f, f < 32 → t.rd R.SEC_SESSION_state [f] = 0 ∧ t.rd R.MRN_REPLY_HDR_seq [f] = 0 ∧ t.rd R.MRN_CFG_int_en [f] = 0) ∧
      (∀ f v, f < 32 → t.hif.msixOpen.has [f, v] = false) ∧ (∀ f off area, f < 32 → t.bar4 f off area = 0) ∧
      RegsBut functionFields s t ∧ PartsBut [.sec, .hif] s t) :=
  gives_clocked rfl h ⟨rfl, fun _ hf => ⟨(cleared_endpointDown hf s).session, (cleared_endpointDown hf s).seq,
    (cleared_endpointDown hf s).intEn⟩, fun _ v hf => (cleared_endpointDown hf s).vectors v,
    fun _ off area hf => (cleared_endpointDown hf s).page off area, (changes_endpointDown s).after⟩

/-- Settles O43: a part reset starts from the reset state and writes three fields; an endpoint reset clears each function, and
clearing another keeps one cleared. -/
theorem resets : Obligations.Resets := by
  intro s h
  refine ⟨?_, ?_, ?_, ?_, gives_partReset (c := .i3cReset) h rfl, ?_, gives_perst_endpoint h, gives_endpointReset h,
    fun f hpos hlt => gives_functionLevelReset h hpos hlt, gives_clocked rfl h ⟨rfl, (changes_inHif _ s).after⟩,
    fun a => gives_clocked rfl h ⟨rfl, (changes_inHif _ s).after⟩⟩
  · rintro c rfl htripped
    exact gives_partReset_pin htripped
  · rintro c rfl
    exact gives_partReset_powerOn
  · rintro k rfl
    exact gives_partReset (c := .softwarePartReset 0xA5) (cause := 3) h rfl
  · exact fun k hk => gives_clocked rfl h (by rw [if_neg hk]; exact (Changes.refl [] [] s).after)
  · intro hpart
    obtain ⟨t, ht, hcause, -, hframe⟩ := gives_partReset (c := .perst) (cause := 2) h (congrArg (clocked s) (if_pos hpart))
    exact ⟨t, ht, hcause, hframe⟩

end Sys2Proof.Machine
end

section
/-! PROOF. The statements on tenants and isolation (R394, R395, R402) and on evidence and sessions (R388 to R390, R398). -/

namespace Sys2Proof.Machine

-- One proof after another: proofs under way at once are more threads than one process has memory for.
set_option Elab.async false

open Sys2Proof.Safety

variable {s : State} {c : Instr}

/-! ### Commands that run on the clocks -/

theorem clocked_eq_serving (h : Serves s) (t : State) : clocked s t = serving s t := by
  obtain ⟨-, hfatal, hrest⟩ := h
  rw [serving, if_neg (by simp [hfatal, hrest])]

/-- A command whose condition does not hold changes nothing, with or without clocks. -/
theorem gives_idle (hexec : exec c s = clocked s s) : Gives c s (fun t => RegsBut [] s t ∧ PartsBut [] s t) :=
  gives_finish (hexec.trans (congrArg (finish s) (ite_self s))) (Changes.refl [] [] s).after

theorem changes_inSec (k : Sec) (s : State) : Changes [] [.sec] s { s with sec := k } :=
  changes_of_parts rfl (fun p hp => by cases p <;> first | rfl | exact absurd (by decide) hp)

theorem changes_drewTwice (s : State) : Changes [] [.fresh] s s.drew.drew := (changes_drew s).trans (changes_drew _)

/-! ### Keys and tenants (R205, R395) -/

abbrev keyFields : List Fld := [R.SEC_TENANT_key_valid, R.BRD_KEY_STATUS_valid]

/-- Drawing a key takes two free values, puts the key in the table and shows it. -/
theorem State.drawKey_cases (k : Nat) (s : State) :
    Changes keyFields [.fresh, .sec] s (s.drawKey k) ∧ (s.drawKey k).sec.keys.has [k] = true ∧
    (s.drawKey k).fresh = s.fresh + 2 ∧ (k < 32 → (s.drawKey k).rd R.SEC_TENANT_key_valid [k] = 1) := by
  refine ⟨?_, ?_, ?_, fun hk => ?_⟩
  · have hdrawn (x : Sec) : Changes keyFields [.fresh, .sec] s { s.drew.drew with sec := x } :=
      ((changes_drewTwice s).weaken (by simp)).trans ((changes_inSec x _).weaken (by simp))
    exact ((hdrawn _).wr (f := R.BRD_KEY_STATUS_valid) (by simp) _ _).wr (by simp) _ _
  · simp [State.drawKey]
  · simp [State.drawKey, State.drew]
  · rw [State.drawKey, State.rd_wr_same, if_pos hk]
    rfl

theorem State.tenantState_of_pos {k : Nat} (hk : 0 < k) : s.tenantState k = s.rd R.SEC_TENANT_state [k] := if_neg (by omega)

theorem gives_tenantCreate (h : Applies s B.sec) {k : Nat} (hpos : 0 < k) (hlt : k < 32)
    (hfree : s.rd R.SEC_TENANT_state [k] = 0) :
    Gives (.tenantCreate k) s (fun t => t.rd R.SEC_TENANT_state [k] = 1 ∧ t.rd R.SEC_TENANT_key_valid [k] = 1 ∧
      t.sec.keys.has [k] = true ∧ t.fresh = s.fresh + 2 ∧ t.answers = s.answers ++ [(0x0501, .ok)] ∧
      RegsBut [R.SEC_TENANT_state, R.SEC_TENANT_key_valid, R.BRD_KEY_STATUS_valid] s t ∧
      PartsBut [.fresh, .sec, .answers] s t) := by
  obtain ⟨hdrawn, hkeys, hfresh, hvalid⟩ := (s.wr R.SEC_TENANT_state [k] 1).drawKey_cases k
  have hcmd : s.cmdTenantCreate k = (.ok, (s.wr R.SEC_TENANT_state [k] 1).drawKey k) := by
    rw [State.cmdTenantCreate, if_neg (by omega), if_neg (by simp [State.tenantState_of_pos hpos, hfree])]
  have hchanges : Changes [R.SEC_TENANT_state, R.SEC_TENANT_key_valid, R.BRD_KEY_STATUS_valid] [.fresh, .sec] s
      ((s.wr R.SEC_TENANT_state [k] 1).drawKey k) :=
    ((changes_wr _ _ _ s).weaken (by simp)).trans (hdrawn.weaken (by simp))
  exact gives_applied (op := 0x0501) h hcmd hchanges (clocked_eq_serving h.1 _)
    ⟨(hdrawn.rd R.SEC_TENANT_state [k]).trans (State.rd_wr_same _ _ _ s), hvalid hlt, hkeys,
      hfresh.trans (by simp), hchanges.answers_listAnswer _ _,
      ((hchanges.listAnswer _ _).weaken (fun _ hf => hf)).after⟩

/-- A command that is refused tells its status and changes nothing else. -/
theorem gives_tenant_refused {op : Nat} {r : Status × State} {st : Status} (h : Applies s B.sec) (hop : op / 256 = 5)
    (hexec : exec c s = clocked s (State.told op (s.gated op r))) (hcmd : r = (st, s)) :
    Gives c s (fun t => t.answers = s.answers ++ [(op, st)] ∧ RegsBut [] s t ∧ PartsBut [.answers] s t) :=
  gives_applied (by rw [opBlock, hop]; exact h) hcmd (Changes.refl [] [] s)
    (hexec.trans (clocked_eq_serving h.1 _)) ⟨rfl, ((Changes.refl [] [] s).listAnswer _ _).after⟩

theorem gives_tenantRetire (h : Applies s B.sec) {k : Nat} (hpos : 0 < k) (hlt : k < 32)
    (hactive : s.rd R.SEC_TENANT_state [k] = 1) :
    Gives (.tenantRetire k) s (fun t => t.rd R.SEC_TENANT_state [k] = 2 ∧ t.answers = s.answers ++ [(0x0502, .ok)] ∧
      RegsBut [R.SEC_TENANT_state] s t ∧ PartsBut [.answers] s t) := by
  have hcmd : s.cmdTenantRetire k = (.ok, s.wr R.SEC_TENANT_state [k] 2) := by
    rw [State.cmdTenantRetire, if_neg (by omega), if_neg (by simp [State.tenantState_of_pos hpos, hactive])]
  have hchanges := changes_wr R.SEC_TENANT_state [k] 2 s
  exact gives_applied (op := 0x0502) h hcmd hchanges (clocked_eq_serving h.1 _)
    ⟨State.rd_wr_same _ _ _ s, hchanges.answers_listAnswer _ _, (hchanges.listAnswer _ _).after⟩

theorem gives_keyRotate (h : Applies s B.sec) {k : Nat} (hlt : k < 32) (hactive : s.tenantState k = 1)
    (huntagged : s.tagSlots k = 0) :
    Gives (.keyRotate k) s (fun t => t.sec.keys.has [k] = true ∧ t.fresh = s.fresh + 2 ∧
      t.rd R.SEC_TENANT_state [k] = s.rd R.SEC_TENANT_state [k] ∧ t.answers = s.answers ++ [(0x0503, .ok)] ∧
      RegsBut [R.SEC_TENANT_key_valid, R.BRD_KEY_STATUS_valid, R.SEC_TENANT_rotations] s t ∧
      PartsBut [.fresh, .sec, .answers] s t) := by
  obtain ⟨hdrawn, hkeys, hfresh, -⟩ := s.drawKey_cases k
  have hcmd : s.cmdKeyRotate k =
      (.ok, (s.drawKey k).wr R.SEC_TENANT_rotations [k] (s.rd R.SEC_TENANT_rotations [k] + 1)) := by
    rw [State.cmdKeyRotate, if_neg (by omega), if_neg (by simp [hactive, huntagged])]
  have hchanges : Changes [R.SEC_TENANT_key_valid, R.BRD_KEY_STATUS_valid, R.SEC_TENANT_rotations] [.fresh, .sec] s
      ((s.drawKey k).wr R.SEC_TENANT_rotations [k] (s.rd R.SEC_TENANT_rotations [k] + 1)) :=
    (hdrawn.weaken (by simp)).wr (by simp) _ _
  exact gives_applied (op := 0x0503) h hcmd hchanges (clocked_eq_serving h.1 _)
    ⟨by simpa [State.listAnswer] using hkeys, by simpa [State.listAnswer] using hfresh, hchanges.rd R.SEC_TENANT_state [k],
      hchanges.answers_listAnswer _ _, ((hchanges.listAnswer _ _).weaken (fun _ hf => hf)).after⟩

theorem gives_keyRotate_tagged (h : Applies s B.sec) {k : Nat} (hlt : k < 32) (htagged : s.tagSlots k ≠ 0) :
    Gives (.keyRotate k) s (fun t => t.answers = s.answers ++ [(0x0503, .retry)] ∧ t.sec.keys = s.sec.keys ∧
      RegsBut [] s t ∧ PartsBut [.answers] s t) := by
  obtain ⟨t, ht, hanswers, hregs, hparts⟩ := gives_tenant_refused (c := .keyRotate k) (op := 0x0503) (st := .retry) h rfl rfl
    ((if_neg (by omega)).trans (if_pos (.inr htagged)))
  exact ⟨t, ht, hanswers, congrArg Sec.keys (hparts .sec (by simp)), hregs, hparts⟩

theorem gives_tenantFreed (h : Runs s) {k : Nat} (hpos : 0 < k) (hretiring : s.rd R.SEC_TENANT_state [k] = 2)
    (hnone : s.objects k = 0) :
    Gives (.tenantFreed k) s (fun t => t.rd R.SEC_TENANT_state [k] = 0 ∧ t.rd R.SEC_TENANT_key_valid [k] = 0 ∧
      t.rd R.BRD_KEY_STATUS_valid [k] = 0 ∧ t.sec.keys.has [k] = false ∧
      RegsBut [R.SEC_TENANT_state, R.SEC_TENANT_key_valid, R.BRD_KEY_STATUS_valid] s t ∧ PartsBut [.sec] s t) := by
  refine gives_clocked rfl h ?_
  rw [if_pos ⟨(State.tenantState_of_pos hpos).trans hretiring, hnone⟩]
  refine ⟨?_, ?_, State.rd_wr_same _ _ _ _, ?_, Changes.after (l := [R.SEC_TENANT_state, R.SEC_TENANT_key_valid,
    R.BRD_KEY_STATUS_valid]) (((((Changes.refl _ [.sec] s).wr (by simp) [k] 0).wr (f := R.SEC_TENANT_key_valid)
    (by simp) [k] 0).wr (f := R.BRD_KEY_STATUS_valid) (by simp) [k] 0).trans ((changes_inSec _ _).weaken (by simp)))⟩
  · exact ((State.rd_wr_num _ _ _ _ (by decide)).trans (State.rd_wr_num _ _ _ _ (by decide))).trans (State.rd_wr_same _ _ _ _)
  · exact (State.rd_wr_num _ _ _ _ (by decide)).trans (State.rd_wr_same _ _ _ _)
  · exact Map.has_erase_same _ _

/-! ### Strict isolation (R402) -/

theorem State.wakeUp_of_serves (h : Serves s) (cause : Nat) : s.wakeUp cause = s := by
  rw [State.wakeUp, if_pos (by simp [h.2.2])]

theorem gives_strictIsolation (h : Serves s) {v : Nat} (hopen : s.on R.SEC_LOCK_lock [] = false)
    (hdirs : bitsOf v 0 1 = 0 ∨ s.on R.COH_CFG_enable [0] = false ∧ s.on R.COH_CFG_enable [1] = false) :
    Gives (.strictIsolation v) s (fun t => t.rd R.SEC_ISO_strict [] = bitsOf v 0 1 ∧
      t.sec = { s.sec with isoBeat := some ((s.beat + 1) % 2 ^ 32) } ∧ t.rd R.SEC_ISO_active [] = s.rd R.SEC_ISO_active [] ∧
      RegsBut [R.SEC_ISO_strict] s t ∧ PartsBut [.sec] s t) := by
  have hwrite := changes_wr R.SEC_ISO_strict [] (bitsOf v 0 1) s
  have hbeat : (s.wr R.SEC_ISO_strict [] (bitsOf v 0 1)).beat = s.beat := by simp [State.beat, State.ftHub]
  refine gives_clocked rfl h.1 ?_
  rw [State.wakeUp_of_serves h, State.writeIso, if_neg (by simp [hopen]), if_neg]
  · refine ⟨(State.rd_wr_same _ _ _ s).trans (Nat.mod_eq_of_lt (bitsOf_lt v 0 1)), ?_, hwrite.rd _ _,
      ((hwrite.weaken (fun _ hf => hf)).trans ((changes_inSec _ _).weaken (by simp))).after⟩
    exact congrArg₂ (fun (k : Sec) b => ({ k with isoBeat := some ((b + 1) % 2 ^ 32) } : Sec)) (State.wr_sec_eq _ _ _ s) hbeat
  · rintro ⟨hbit, hany⟩
    rcases hdirs with hzero | ⟨hwest, heast⟩
    · omega
    · simp [hwest, heast] at hany

theorem gives_strictIsolation_locked (h : Serves s) {v : Nat} (hlocked : s.on R.SEC_LOCK_lock [] = true) :
    Gives (.strictIsolation v) s (fun t => RegsBut [] s t ∧ PartsBut [] s t) :=
  gives_idle (congrArg (clocked s) (by rw [State.wakeUp_of_serves h, State.writeIso, if_pos hlocked]))

theorem exec_strictApply {b : Nat} (hbeat : s.sec.isoBeat = some b) :
    exec .strictApply s = clocked s (if ahead b s.beat then s
      else { s.wr R.SEC_ISO_active [] (s.rd R.SEC_ISO_strict []) with
        sec := { (s.wr R.SEC_ISO_active [] (s.rd R.SEC_ISO_strict [])).sec with isoBeat := none } }) := by
  change execStrictApply s = _
  rw [execStrictApply, hbeat]

theorem gives_strictApply (h : Runs s) {b : Nat} (hbeat : s.sec.isoBeat = some b) (hcome : ahead b s.beat = false)
    (hbit : s.rd R.SEC_ISO_strict [] < 2) :
    Gives .strictApply s (fun t => t.rd R.SEC_ISO_active [] = s.rd R.SEC_ISO_strict [] ∧
      t.sec = { s.sec with isoBeat := none } ∧ RegsBut [R.SEC_ISO_active] s t ∧ PartsBut [.sec] s t) := by
  refine gives_clocked (exec_strictApply hbeat) h ?_
  rw [if_neg (by simp [hcome])]
  exact ⟨(State.rd_wr_same _ _ _ s).trans (Nat.mod_eq_of_lt hbit),
    congrArg (fun k : Sec => { k with isoBeat := none }) (State.wr_sec_eq _ _ _ s),
    (((changes_wr _ _ _ s).weaken (fun _ hf => hf)).trans ((changes_inSec _ _).weaken (by simp))).after⟩

/-- Settles O46: a tenant's command tells its status and writes the tenant's fields, and a key drawn takes two free values;
the bit of strict isolation is copied at its beat. -/
theorem tenantsAndIsolation : Obligations.TenantsAndIsolation :=
  fun s h => ⟨fun _ hexp hready hpos hlt hfree => gives_tenantCreate ⟨h, hexp, hready⟩ hpos hlt hfree,
    fun _ hexp hready hpos hlt hused => gives_tenant_refused ⟨h, hexp, hready⟩ rfl rfl
      ((if_neg (by omega)).trans (if_pos ((State.tenantState_of_pos hpos).trans_ne hused))),
    fun _ hexp hready hpos hlt hactive => gives_tenantRetire ⟨h, hexp, hready⟩ hpos hlt hactive,
    fun _ hexp hready hk => gives_tenant_refused ⟨h, hexp, hready⟩ rfl rfl (if_pos hk),
    fun _ hexp hready hlt hactive huntagged => gives_keyRotate ⟨h, hexp, hready⟩ hlt hactive huntagged,
    fun _ hexp hready hlt htagged => gives_keyRotate_tagged ⟨h, hexp, hready⟩ hlt htagged,
    fun _ hpos hretiring hnone => gives_tenantFreed h.1 hpos hretiring hnone,
    fun _ hsome => gives_idle (congrArg (clocked s) (if_neg (fun hc => hsome hc.2))),
    fun _ hopen hdirs => gives_strictIsolation h hopen hdirs, fun _ hlocked => gives_strictIsolation_locked h hlocked,
    fun _ hbeat hcome hbit => gives_strictApply h.1 hbeat hcome hbit,
    fun _ hbeat hwait => gives_idle ((exec_strictApply hbeat).trans (congrArg (clocked s) (if_pos hwait)))⟩

/-! ### Objects for a function to read (R388) -/

theorem State.giveObject_none (fn : Nat) (b : List Byte) (s : State) :
    s.giveObject fn none b = { s with hif := { s.hif with doe := s.hif.doe.set [fn] b } } := rfl

theorem changes_giveObject (fn : Nat) (b : List Byte) (s : State) : Changes [] [.hif] s (s.giveObject fn none b) :=
  changes_inHif _ s

theorem State.doe_giveObject (fn : Nat) (b : List Byte) (s : State) :
    (s.giveObject fn none b).hif.doe.get? [fn] = some b := Map.get?_set_same _ _ _

/-! ### Evidence requested (R390, R398) -/

theorem gives_evidenceReq (h : Runs s) {fn n x : Nat} (hok : s.evidenceRefusal fn none n false = .ok) :
    Gives (.evidenceReq fn n false x) s (fun t =>
      t.sec = { s.sec with evidence := s.sec.evidence ++ [{ fn := fn, scope := n, nonce := x % 2 ^ 256 }] } ∧
      RegsBut [] s t ∧ PartsBut [.sec] s t) := by
  refine gives_clocked rfl h ?_
  rw [State.evidenceReq, if_neg (not_not.mpr hok)]
  exact ⟨rfl, (changes_inSec _ s).after⟩

theorem gives_evidenceReq_kem (h : Runs s) {fn x : Nat} (hok : s.evidenceRefusal fn none fn true = .ok)
    (hidle : s.rd R.SEC_SESSION_state [fn] = 0) :
    Gives (.evidenceReq fn fn true x) s (fun t =>
      t.sec.evidence = s.sec.evidence ++ [{ fn := fn, scope := fn, nonce := x % 2 ^ 256, kem := some s.fresh }] ∧
      t.sec.dks.get? [fn] = some { kem := s.fresh, nonce := x % 2 ^ 256, since := s.now } ∧
      t.rd R.SEC_SESSION_state [fn] = 1 ∧ RegsBut [R.SEC_SESSION_state] s t ∧ PartsBut [.fresh, .sec] s t) := by
  have htaken (k : Sec) : Changes [R.SEC_SESSION_state] [.fresh, .sec] s { s.drew with sec := k } :=
    ((changes_drew s).weaken (by simp)).trans ((changes_inSec k _).weaken (by simp))
  refine gives_clocked rfl h ?_
  rw [State.evidenceReq, if_neg (not_not.mpr hok)]
  dsimp only
  rw [if_pos ⟨rfl, hidle⟩]
  exact ⟨by simp, by simp, State.rd_wr_same _ _ _ _, ((htaken _).wr (by simp) _ _).after⟩

/-- The decapsulation key of a function out of its table. -/
def State.dkGone (fn : Nat) (s : State) : State := { s with sec := { s.sec with dks := s.sec.dks.erase [fn] } }

/-- A session that waits for the key is idle again. -/
theorem State.dropDk_eq (fn : Nat) (s : State) :
    s.dropDk fn = if s.rd R.SEC_SESSION_state [fn] = 1 then (s.dkGone fn).wr R.SEC_SESSION_state [fn] 0 else s.dkGone fn := rfl

theorem changes_dropDk (fn : Nat) (s : State) : Changes [R.SEC_SESSION_state] [.sec] s (s.dropDk fn) := by
  have hgone : Changes [R.SEC_SESSION_state] [.sec] s (s.dkGone fn) := (changes_inSec _ s).weaken (by simp)
  rw [State.dropDk_eq]
  exact Changes.ite (hgone.wr (by simp) _ _) hgone

theorem State.sec_dropDk (fn : Nat) (s : State) : (s.dropDk fn).sec = { s.sec with dks := s.sec.dks.erase [fn] } := by
  rw [State.dropDk_eq]
  split
  · exact State.wr_sec_eq _ _ _ _
  · rfl

theorem changes_evidenceRefused (fn : Nat) (st : Status) (s : State) :
    Changes [] [.out, .hif] s (s.evidenceRefused fn none st) :=
  ((Changes.refl _ _ s).told (((Told.refl s).bump (by decide) _).event _ _)).trans
    ((changes_giveObject _ _ _).weaken (by simp))

theorem gives_evidenceReq_refused (h : Runs s) {fn n x : Nat} {k : Bool} {st : Status}
    (hrefusal : s.evidenceRefusal fn none n k = st) (hbad : st ≠ .ok) :
    Gives (.evidenceReq fn n k x) s (fun t => t.hif.doe.get? [fn] = some (bytesOfNat 4 st.code ++ bytesOfNat 4 0) ∧
      t.sec = (if k then { s.sec with dks := s.sec.dks.erase [fn] } else s.sec) ∧ RegsBut [R.SEC_SESSION_state] s t ∧
      PartsBut [.out, .hif, .sec] s t) := by
  subst hrefusal
  have hrefused (u : State) := changes_evidenceRefused fn (s.evidenceRefusal fn none n k) u
  refine gives_clocked rfl h ?_
  rw [State.evidenceReq, if_pos hbad]
  refine ⟨State.doe_giveObject _ _ _, ?_⟩
  cases k
  · exact ⟨(hrefused s).parts .sec (by simp), ((hrefused s).weaken (by simp)).after⟩
  · exact ⟨((hrefused _).parts .sec (by simp)).trans (s.sec_dropDk fn),
      (((changes_dropDk fn s).weaken (by simp)).trans ((hrefused _).weaken (by simp))).after⟩

/-! ### Evidence formed (R389) -/

theorem gives_evidenceRsp (h : Runs s) {q : EvReq} {l : List EvReq} (hqueue : s.sec.evidence = q :: l) (hvia : q.via = none) :
    Gives .evidenceRsp s (fun t => t.sec = { s.sec with evidence := l } ∧ t.fresh = s.fresh + 1 ∧
      t.hif.doe.get? [q.fn] = some (bytesOfNat 4 0 ++ bytesOfNat 4 ((s.evidence q).length + 7856) ++ s.evidence q ++
        bytesOfNat 7856 (Config.sign s.fresh ([0x03] ++ s.evidence q)) ++ s.flashArea Fl.endorse 65536 ++ ekOf q.kem) ∧
      RegsBut [] s t ∧ PartsBut [.fresh, .out, .hif, .sec] s t) := by
  obtain ⟨u, hu⟩ : ∃ u : State, u = State.bump R.SEC_CNT_count [0] { s.drew with sec := { s.sec with evidence := l } } :=
    ⟨_, rfl⟩
  have hchanges : Changes [] [.fresh, .out, .hif, .sec] s u := by
    rw [hu]
    exact ((((changes_drew s).weaken (by simp)).trans ((changes_inSec _ _).weaken (by simp)))).trans
      ((changes_bump _ _).weaken (by simp))
  have hexec : exec .evidenceRsp s = clocked s (u.giveObject q.fn none (bytesOfNat 4 0 ++
      bytesOfNat 4 ((s.evidence q).length + 7856) ++ s.evidence q ++
      bytesOfNat 7856 (Config.sign s.fresh ([0x03] ++ s.evidence q)) ++ s.flashArea Fl.endorse 65536 ++ ekOf q.kem)) := by
    change execEvidenceRsp s = _
    rw [execEvidenceRsp, hqueue, hu]
    dsimp only
    rw [hvia, List.length_append, length_bytesOfNat, sigLength]
    simp only [List.append_assoc]
    rfl
  refine gives_clocked hexec h ⟨?_, ?_, State.doe_giveObject _ _ _, (hchanges.trans ((changes_giveObject _ _ _).weaken (by simp))).after⟩
  · simp [State.giveObject_none, hu]
  · simp [State.giveObject_none, hu, State.drew]

/-! ### Sessions (R398) -/

abbrev sessionFields : List Fld :=
  [R.SEC_SESSION_state, R.SEC_SESSION_status, R.SEC_SESSION_seq_in, R.SEC_SESSION_seq_out, R.SEC_TENANT_session_open,
    R.SEC_TENANT_sessions]

/-- The session of a function has its keys, and its key pair is used up. -/
def State.sessionKeyed (fn keys : Nat) (s : State) : State :=
  (s.modBnc fn (fun b => { b with keys := keys, recs := [] })).dkGone fn

/-- The session is shown as open, at the start of its sequences. -/
def State.sessionShown (fn : Nat) (s : State) : State :=
  let t := (((s.wr R.SEC_SESSION_state [fn] 2).wr R.SEC_SESSION_status [fn] 0).wr R.SEC_SESSION_seq_in [fn] 0).wr
    R.SEC_SESSION_seq_out [fn] 0
  ((t.wr R.SEC_TENANT_session_open [fn] 1).wr R.SEC_TENANT_sessions [fn] (t.rd R.SEC_TENANT_sessions [fn] + 1)).bump
    R.SEC_CNT_count [2]

theorem changes_sessionShown (fn : Nat) (s : State) : Changes sessionFields [] s (s.sessionShown fn) :=
  (((((((Changes.refl _ _ s).wr (by simp) _ _).wr (f := R.SEC_SESSION_status) (by simp) _ _).wr (f := R.SEC_SESSION_seq_in)
    (by simp) _ _).wr (f := R.SEC_SESSION_seq_out) (by simp) _ _).wr (f := R.SEC_TENANT_session_open) (by simp) _ _).wr
    (by simp) _ _).trans ((changes_bump _ _).weaken (by simp))

theorem State.rd_sessionShown (fn : Nat) (s : State) :
    (s.sessionShown fn).rd R.SEC_SESSION_state [fn] = 2 ∧ (s.sessionShown fn).rd R.SEC_SESSION_seq_in [fn] = 0 ∧
    (s.sessionShown fn).rd R.SEC_SESSION_seq_out [fn] = 0 ∧ (s.sessionShown fn).rd R.SEC_TENANT_session_open [fn] = 1 := by
  unfold State.sessionShown
  refine ⟨?_, ?_, ?_, ?_⟩ <;>
    simp (disch := decide) only [State.rd_bump_other, State.rd_wr_num, State.rd_wr_same] <;> rfl

theorem State.sec_sessionShown (fn : Nat) (s : State) : (s.sessionShown fn).sec = s.sec := by simp [State.sessionShown]

/-- The keys that R398 derives for a function from its key pair and the ciphertext. -/
def sessionKeys (k : Dk) (fn ct : Nat) : Nat :=
  Config.bounceKeys (Config.kemSecret k.kem ct) k.nonce fn (sha (ekOf (some k.kem))) % 2 ^ 704

theorem exec_sessionFinish {fn ct : Nat} {k : Dk} (hkey : s.sec.dks.get? [fn] = some k)
    (hring : s.bar4 fn 0x10 1 = s.bar4 fn 0x18 1) (hrecs : (s.bnc fn).recs = []) :
    exec (.sessionFinish fn ct) s =
      clocked s (((s.sessionKeyed fn (sessionKeys k fn ct)).sessionShown fn).giveObject fn none (bytesOfNat 4 0)) := by
  change execSessionFinish fn ct s = _
  rw [execSessionFinish, hkey]
  dsimp only
  rw [if_neg (by simp [hring, hrecs])]
  rfl

theorem gives_sessionFinish (h : Runs s) {fn ct : Nat} {k : Dk} (hkey : s.sec.dks.get? [fn] = some k)
    (hring : s.bar4 fn 0x10 1 = s.bar4 fn 0x18 1) (hrecs : (s.bnc fn).recs = []) :
    Gives (.sessionFinish fn ct) s (fun t => t.rd R.SEC_SESSION_state [fn] = 2 ∧ t.rd R.SEC_SESSION_seq_in [fn] = 0 ∧
      t.rd R.SEC_SESSION_seq_out [fn] = 0 ∧ t.rd R.SEC_TENANT_session_open [fn] = 1 ∧
      (t.bnc fn).keys = sessionKeys k fn ct ∧ t.sec.dks.has [fn] = false ∧
      t.hif.doe.get? [fn] = some (bytesOfNat 4 0) ∧ RegsBut sessionFields s t ∧ PartsBut [.sec, .hif] s t) := by
  obtain ⟨hstate, hin, hout, hopen⟩ := (s.sessionKeyed fn (sessionKeys k fn ct)).rd_sessionShown fn
  have hkeyed : Changes [] [.sec] s (s.sessionKeyed fn (sessionKeys k fn ct)) :=
    (changes_inSec _ s).trans (changes_inSec _ _)
  have hshown := (hkeyed.weaken (l' := sessionFields) (ps' := [.sec]) (by simp)).trans
    ((changes_sessionShown fn _).weaken (by simp))
  have hkeys : (((s.sessionKeyed fn (sessionKeys k fn ct)).sessionShown fn).bnc fn).keys = sessionKeys k fn ct := by
    simp [State.bnc, State.sec_sessionShown, State.sessionKeyed, State.modBnc, State.dkGone]
  have hgone : ((s.sessionKeyed fn (sessionKeys k fn ct)).sessionShown fn).sec.dks.has [fn] = false := by
    simp [State.sec_sessionShown, State.sessionKeyed, State.dkGone]
  have hexec := exec_sessionFinish (ct := ct) hkey hring hrecs
  generalize (s.sessionKeyed fn (sessionKeys k fn ct)).sessionShown fn = u at *
  exact gives_clocked hexec h ⟨hstate, hin, hout, hopen, hkeys, hgone, State.doe_giveObject _ _ u,
    ((hshown.weaken (by simp)).trans ((changes_giveObject _ _ u).weaken (by simp))).after⟩

theorem gives_sessionFinish_none (h : Runs s) {fn ct : Nat} (hnone : s.sec.dks.get? [fn] = none) :
    Gives (.sessionFinish fn ct) s (fun t => t.hif.doe.get? [fn] = some (bytesOfNat 4 Status.unsupported.code) ∧
      RegsBut [] s t ∧ PartsBut [.hif] s t) := by
  have hexec : exec (.sessionFinish fn ct) s = clocked s (s.giveObject fn none (bytesOfNat 4 Status.unsupported.code)) := by
    change execSessionFinish fn ct s = _
    rw [execSessionFinish, hnone]
  exact gives_clocked hexec h ⟨State.doe_giveObject _ _ _, (changes_giveObject _ _ s).after⟩

theorem exec_dkExpiry {fn : Nat} {k : Dk} (hkey : s.sec.dks.get? [fn] = some k) :
    exec (.dkExpiry fn) s = clocked s (if s.now < k.since + 1000000000 then s else s.dropDk fn) := by
  change execDkExpiry fn s = _
  rw [execDkExpiry, hkey]

theorem gives_dkExpiry (h : Runs s) {fn : Nat} {k : Dk} (hkey : s.sec.dks.get? [fn] = some k)
    (hold : k.since + 1000000000 ≤ s.now) (hwaits : s.rd R.SEC_SESSION_state [fn] = 1) :
    Gives (.dkExpiry fn) s (fun t => t.sec.dks.has [fn] = false ∧ t.rd R.SEC_SESSION_state [fn] = 0 ∧
      RegsBut [R.SEC_SESSION_state] s t ∧ PartsBut [.sec] s t) := by
  refine gives_clocked (exec_dkExpiry hkey) h ?_
  rw [if_neg (by omega)]
  refine ⟨?_, ?_, (changes_dropDk fn s).after⟩
  · simp [State.sec_dropDk]
  · rw [State.dropDk_eq, if_pos hwaits]
    exact State.rd_wr_same _ _ _ _

/-- Settles O45: a request is queued or its status given as an object; the oldest is answered as an object; a session's keys
are put in place before its registers show it open. -/
theorem evidenceAndSessions : Obligations.EvidenceAndSessions :=
  fun _ => ⟨fun _ _ _ h hok => gives_evidenceReq h hok, fun _ _ h hok hidle => gives_evidenceReq_kem h hok hidle,
    fun _ _ _ _ _ h hrefusal hbad => gives_evidenceReq_refused h hrefusal hbad,
    fun _ _ h hqueue hvia => gives_evidenceRsp h hqueue hvia,
    fun _ _ _ h hkey hring hrecs => gives_sessionFinish h hkey hring hrecs,
    fun _ _ h hnone => gives_sessionFinish_none h hnone,
    fun _ _ h hkey hold hwaits => gives_dkExpiry h hkey hold hwaits,
    fun _ _ hkey hyoung => gives_idle ((exec_dkExpiry hkey).trans (congrArg (clocked _) (if_pos hyoung)))⟩

end Sys2Proof.Machine
end

section
/-! LAWS. The mailbox: what a reply writes, and what a request that the firmware takes at once comes to (R451, R452). -/

namespace Sys2Proof.Machine

-- One proof after another: proofs under way at once are more threads than one process has memory for.
set_option Elab.async false

open Sys2Proof.Safety

variable {s t : State} {c : Instr} {fn op : Nat} {st : Status}

/-- The signal of a reply: the event, and the function's vector where it is enabled. -/
def State.replySignal (fn : Nat) (s : State) : State :=
  if (s.event B.mrn 1).on R.MRN_CFG_int_en [fn] then (s.event B.mrn 1).msix fn ((s.event B.mrn 1).rd R.MRN_CFG_vector [fn])
  else s.event B.mrn 1

theorem told_replySignal (fn : Nat) (s : State) : Told s (s.replySignal fn) :=
  Told.ite (((Told.refl s).event _ _).msix _ _) ((Told.refl s).event _ _)

/-- The header of a reply, which validates it and ends the request. -/
def State.replyHeader (fn seq : Nat) (st : Status) (n : Nat) (s : State) : State :=
  (((s.wr R.MRN_REPLY_HDR_length [fn] n).wr R.MRN_REPLY_HDR_status [fn] st.code).wr R.MRN_REPLY_HDR_seq [fn] seq).setBusyBit fn false

/-- The reply buffer. -/
def State.replyWords (fn : Nat) (data : List Byte) (s : State) : State :=
  (List.range (ceilDiv data.length 8)).foldl (fun t k =>
    t.wr R.MRN_REPLY_word [fn, k] (natOfBytes ((data.drop (8 * k)).take 8))) s

theorem State.mailReply_eq (fn seq : Nat) (st : Status) (data : List Byte) (s : State) :
    s.mailReply fn seq st data = ((s.replyWords fn data).replyHeader fn seq st data.length).replySignal fn := rfl

theorem changes_replyHeader (fn seq : Nat) (st : Status) (n : Nat) (s : State) :
    Changes replyFields [] s (s.replyHeader fn seq st n) :=
  ((((Changes.refl _ _ s).wr (f := R.MRN_REPLY_HDR_length) (by simp [replyFields]) _ _).wr (f := R.MRN_REPLY_HDR_status)
    (by simp [replyFields]) _ _).wr (f := R.MRN_REPLY_HDR_seq) (by simp [replyFields]) _ _).trans
    ((changes_setBusyBit _ _ _).weaken (by simp [replyFields]))

theorem status_code_lt (st : Status) : st.code < 16 := by cases st <;> decide

theorem State.rd_replyHeader (fn seq : Nat) (st : Status) (n : Nat) (s : State) :
    (s.replyHeader fn seq st n).rd R.MRN_REPLY_HDR_status [fn] = st.code ∧
    (s.replyHeader fn seq st n).rd R.MRN_REPLY_HDR_seq [fn] = seq % 2 ^ 16 ∧
    (s.replyHeader fn seq st n).rd R.MRN_REPLY_HDR_length [fn] = n % 2 ^ 13 := by
  unfold State.replyHeader State.setBusyBit
  refine ⟨?_, ?_, ?_⟩ <;> simp (disch := decide) only [State.rd_wr_num, State.rd_wr_same]
  · exact Nat.mod_eq_of_lt (status_code_lt st)
  · rfl
  · rfl

theorem changes_replyWords (fn : Nat) (data : List Byte) (s : State) :
    Changes [R.MRN_REPLY_word] [] s (s.replyWords fn data) :=
  Changes.foldl _ (fun t _ => changes_wr _ _ _ t) _ s

/-- A reply changes the registers of a reply, with its buffer, and tells of it. -/
theorem changes_mailReply (fn seq : Nat) (st : Status) (data : List Byte) (s : State) :
    Changes (R.MRN_REPLY_word :: replyFields) reporting s (s.mailReply fn seq st data) := by
  rw [State.mailReply_eq]
  exact (((changes_replyWords fn data s).weaken (by simp)).trans ((changes_replyHeader _ _ _ _ _).weaken (by simp_all))).told
    (told_replySignal _ _)

/-- A reply without data leaves the buffer as it is. -/
theorem changes_mailReply_nil (fn seq : Nat) (st : Status) (s : State) :
    Changes replyFields reporting s (s.mailReply fn seq st []) := by
  rw [State.mailReply_eq]
  exact ((changes_replyHeader fn seq st 0 s).weaken (fun _ hf => hf)).told (told_replySignal _ _)

theorem State.rd_mailReply (fn seq : Nat) (st : Status) (data : List Byte) (s : State) :
    (s.mailReply fn seq st data).rd R.MRN_REPLY_HDR_status [fn] = st.code ∧
    (s.mailReply fn seq st data).rd R.MRN_REPLY_HDR_seq [fn] = seq % 2 ^ 16 ∧
    (s.mailReply fn seq st data).rd R.MRN_REPLY_HDR_length [fn] = data.length % 2 ^ 13 := by
  obtain ⟨hstatus, hseq, hlength⟩ := (s.replyWords fn data).rd_replyHeader fn seq st data.length
  have htold := told_replySignal fn ((s.replyWords fn data).replyHeader fn seq st data.length)
  rw [State.mailReply_eq]
  exact ⟨(htold.regs _ _ (by decide)).trans hstatus, (htold.regs _ _ (by decide)).trans hseq,
    (htold.regs _ _ (by decide)).trans hlength⟩

/-- The end of a request: the reply, and an event where it was refused. -/
def State.mailAnswered (fn : Nat) (s : State) (r : Status × State) : State :=
  if r.1 = .ok then r.2.mailReply fn (s.nextMail fn) r.1 [] else (r.2.mailReply fn (s.nextMail fn) r.1 []).event B.sec 6

theorem State.mailed_of_taken {operands bulk : List Byte} {f : State → Status × State} (hexpelled : s.pkg.expelled = false)
    (hbox : s.hif.mbox.has [fn] = false) (hrun : s.firmware = true ∨ s.inRecovery = true ∧ op = Op.fwPush)
    (hrestart : s.sec.restarted = none) : s.mailed fn op operands bulk f = s.mailAnswered fn (f s) := by
  rw [State.mailed, if_neg (by simp [hexpelled, hbox]), if_neg (by tauto), if_neg (by simp [hrestart])]
  rfl

theorem changes_answered_mail (fn : Nat) (s : State) (r : Status × State) :
    Changes replyFields reporting r.2 (s.mailAnswered fn r) :=
  Changes.ite (changes_mailReply_nil _ _ _ _) ((changes_mailReply_nil _ _ _ _).told ((Told.refl _).event _ _))

theorem replied_answered (fn : Nat) (s : State) (r : Status × State) : Replied fn r.1 s (s.mailAnswered fn r) := by
  obtain ⟨hstatus, hseq, hlength⟩ := r.2.rd_mailReply fn (s.nextMail fn) r.1 []
  have hnext : s.nextMail fn % 2 ^ 16 = s.nextMail fn := Nat.mod_eq_of_lt (Nat.mod_lt _ (by decide))
  have htold : Told (r.2.mailReply fn (s.nextMail fn) r.1 []) (s.mailAnswered fn r) :=
    Told.ite (Told.refl _) ((Told.refl _).event _ _)
  exact ⟨(htold.regs _ _ (by decide)).trans hstatus, ((htold.regs _ _ (by decide)).trans hseq).trans hnext,
    (htold.regs _ _ (by decide)).trans hlength⟩

/-- A request that the firmware takes at once has its effect `t`, and its reply changes only what a reply does. -/
theorem gives_mailed {operands bulk : List Byte} {f : State → Status × State} {P : State → Prop} (h : Mails s fn)
    (hexec : exec c s = clocked s (s.mailed fn op operands bulk f)) (hcmd : f s = (st, t))
    (p : ∀ u, Changes replyFields reporting t u → Replied fn st s u → P (s.after u)) : Gives c s P := by
  obtain ⟨hruns, hexpelled, hbox, hfirmware, hrestart, -⟩ := h
  rw [State.mailed_of_taken hexpelled hbox (.inl hfirmware) hrestart, hcmd] at hexec
  exact gives_clocked hexec hruns (p _ (changes_answered_mail fn s (st, t)) (replied_answered fn s (st, t)))

/-- A request that is answered without any other effect. -/
theorem gives_mailed_only {operands bulk : List Byte} {f : State → Status × State} (h : Mails s fn)
    (hexec : exec c s = clocked s (s.mailed fn op operands bulk f)) (hcmd : f s = (st, s)) :
    Gives c s (fun t => Replied fn st s t ∧ RegsBut replyFields s t ∧ PartsBut [.out, .hif] s t) :=
  gives_mailed h hexec hcmd (fun _ hchanges hreplied => ⟨hreplied, hchanges.after⟩)

end Sys2Proof.Machine
end

section
/-! PROOF. The statement on boot, firmware, records, debug, pool bring-up and program images (R249, R381 to R393, R444). -/

namespace Sys2Proof.Machine

-- One proof after another: proofs under way at once are more threads than one process has memory for.
set_option Elab.async false

open Sys2Proof.Safety

variable {s t : State} {fn : Nat}

/-! ### What is read from the flash (R379 to R381) -/

theorem State.header_of_flash (h : t.flash = s.flash) : t.header = s.header := by
  rw [State.header, State.flashRead, h, State.header, State.flashRead]

theorem State.headNum_of_flash (h : t.flash = s.flash) : t.headNum = s.headNum := by
  rw [State.headNum, State.flashRead, h, State.headNum, State.flashRead]

theorem State.sectionOk_of_flash (h : t.flash = s.flash) (i : Nat) : t.sectionOk i = s.sectionOk i := by
  rw [State.sectionOk, State.headNum_of_flash h, State.flashRead, h, State.sectionOk, State.flashRead]

theorem changes_flashWrite (a n : Nat) (b : List Byte) (s : State) : Changes [] [.flash] s (s.flashWrite a n b) :=
  changes_of_parts rfl (fun p hp => by cases p <;> first | rfl | exact absurd (by decide) hp)

/-! ### Measurements (R387) -/

theorem changes_setMs (k v : Nat) (s : State) : Changes [R.SEC_MEAS_bytes] [] s (s.setMs k v) :=
  Changes.foldl _ (fun t _ => changes_wr _ _ _ t) _ s

theorem changes_extendMs (k x : Nat) (s : State) : Changes [R.SEC_MEAS_bytes] [] s (s.extendMs k x) := changes_setMs _ _ s

theorem State.rd_setMs_same (k v : Nat) {j : Nat} (hj : j < 4) (s : State) :
    (s.setMs k v).rd R.SEC_MEAS_bytes [k, j] = bitsOf v (64 * j) 64 := by
  have hword (i : Nat) : bitsOf v (64 * i) 64 % 2 ^ R.SEC_MEAS_bytes.w = bitsOf v (64 * i) 64 :=
    Nat.mod_eq_of_lt (bitsOf_lt v (64 * i) 64)
  change ((((s.wr R.SEC_MEAS_bytes [k, 0] (bitsOf v (64 * 0) 64)).wr R.SEC_MEAS_bytes [k, 1] (bitsOf v (64 * 1) 64)).wr
    R.SEC_MEAS_bytes [k, 2] (bitsOf v (64 * 2) 64)).wr R.SEC_MEAS_bytes [k, 3] (bitsOf v (64 * 3) 64)).rd
    R.SEC_MEAS_bytes [k, j] = _
  obtain rfl | rfl | rfl | rfl : j = 0 ∨ j = 1 ∨ j = 2 ∨ j = 3 := by omega
  · rw [State.rd_wr_index _ _ (by simp), State.rd_wr_index _ _ (by simp), State.rd_wr_index _ _ (by simp), State.rd_wr_same, hword]
  · rw [State.rd_wr_index _ _ (by simp), State.rd_wr_index _ _ (by simp), State.rd_wr_same, hword]
  · rw [State.rd_wr_index _ _ (by simp), State.rd_wr_same, hword]
  · rw [State.rd_wr_same, hword]

theorem State.rd_setMs_other {k k' : Nat} (h : k' ≠ k) (v j : Nat) (s : State) :
    (s.setMs k v).rd R.SEC_MEAS_bytes [k', j] = s.rd R.SEC_MEAS_bytes [k', j] := by
  unfold State.setMs
  induction List.range 4 generalizing s with
  | nil => rfl
  | cons i l ih =>
    rw [List.foldl_cons, ih]
    exact State.rd_wr_index _ _ (by simp [h])

theorem State.ms_eq (s : State) (k : Nat) :
    s.ms k = s.rd R.SEC_MEAS_bytes [k, 0] + s.rd R.SEC_MEAS_bytes [k, 1] * 2 ^ 64 + s.rd R.SEC_MEAS_bytes [k, 2] * 2 ^ 128 +
      s.rd R.SEC_MEAS_bytes [k, 3] * 2 ^ 192 := by
  change 0 + _ <<< 0 + _ <<< 64 + _ <<< 128 + _ <<< 192 = _
  simp only [Nat.shiftLeft_eq, Nat.pow_zero, Nat.mul_one, Nat.zero_add]

theorem State.ms_after (k : Nat) (s u : State) : (s.after u).ms k = u.ms k := by
  have hword (j : Nat) : (s.after u).rd R.SEC_MEAS_bytes [k, j] = u.rd R.SEC_MEAS_bytes [k, j] := rfl
  rw [State.ms_eq, State.ms_eq, hword, hword, hword, hword]

theorem State.ms_setMs (k v : Nat) (s : State) : (s.setMs k v).ms k = v % 2 ^ 256 := by
  rw [State.ms_eq, State.rd_setMs_same k v (by decide), State.rd_setMs_same k v (by decide),
    State.rd_setMs_same k v (by decide), State.rd_setMs_same k v (by decide)]
  simp only [bitsOf, Nat.shiftRight_eq_div_pow]
  omega

/-! ### Blocks made ready (R443) -/

theorem State.bit_ready_of_bit {b blk : Nat} (hb : b < 32) (s : State) (h : bitAt (s.rd R.GLB_READY_ready []) b = true) :
    bitAt ((s.ready blk).rd R.GLB_READY_ready []) b = true := by
  unfold State.ready
  split
  case isTrue => exact h
  case isFalse hclear =>
    rw [State.rd_event _ _ _ _ (by decide), State.rd_wr_same, bitAt_eq_testBit, Nat.testBit_mod_two_pow, Nat.one_shiftLeft,
      testBit_add_two_pow (by simpa [bitAt_eq_testBit] using hclear)]
    rw [bitAt_eq_testBit] at h
    rw [h, Bool.or_true, Bool.and_true]
    exact decide_eq_true hb

theorem changes_readyAll (l : List Nat) (s : State) :
    Changes [R.GLB_READY_ready] [.out, .hif] s (l.foldl (fun t b => t.ready b) s) :=
  Changes.foldl _ (fun t b => changes_ready b t) l s

theorem State.isReady_readyAll_of_ready {b : Nat} (hb : b < 32) (l : List Nat) (h : s.isReady b = true) :
    (l.foldl (fun t b => t.ready b) s).isReady b = true := by
  induction l generalizing s with
  | nil => exact h
  | cons x l ih => exact ih (State.bit_ready_of_bit hb s h)

theorem State.isReady_readyAll {b : Nat} (hb : b < 32) {l : List Nat} (hmem : b ∈ l) (s : State) :
    (l.foldl (fun t b => t.ready b) s).isReady b = true := by
  induction l generalizing s with
  | nil => cases hmem
  | cons x l ih =>
    rcases List.mem_cons.mp hmem with rfl | hmem
    · exact State.isReady_readyAll_of_ready hb l (State.bit_ready hb s)
    · exact ih hmem _

/-! ### The boot ROM (R382 to R387) -/

/-- What the boot ROM has settled stays: the stage, the measurement of the ROM, the flash, and every READY bit. -/
structure KeepsBoot (s t : State) : Prop where
  stage : t.rd R.SEC_BOOT_STATUS_stage [] = s.rd R.SEC_BOOT_STATUS_stage []
  measured : ∀ j, t.rd R.SEC_MEAS_bytes [0, j] = s.rd R.SEC_MEAS_bytes [0, j]
  flash : t.flash = s.flash
  ready : ∀ b, b < 32 → s.isReady b = true → t.isReady b = true

theorem KeepsBoot.refl (s : State) : KeepsBoot s s := ⟨rfl, fun _ => rfl, rfl, fun _ _ h => h⟩

theorem KeepsBoot.trans {u : State} (h₁ : KeepsBoot s t) (h₂ : KeepsBoot t u) : KeepsBoot s u :=
  ⟨h₂.stage.trans h₁.stage, fun j => (h₂.measured j).trans (h₁.measured j), h₂.flash.trans h₁.flash,
    fun b hb h => h₂.ready b hb (h₁.ready b hb h)⟩

theorem KeepsBoot.of_changes {l : List Fld} {ps : List Part} (h : Changes l ps s t)
    (hstage : ∀ g ∈ l, R.SEC_BOOT_STATUS_stage.num ≠ g.num := by decide)
    (hmeas : ∀ g ∈ l, R.SEC_MEAS_bytes.num ≠ g.num := by decide)
    (hready : ∀ g ∈ l, R.GLB_READY_ready.num ≠ g.num := by decide) (hflash : Part.flash ∉ ps := by decide) :
    KeepsBoot s t :=
  ⟨h.rd _ _ (by decide) hstage, fun j => h.rd _ _ (by decide) hmeas, h.parts .flash hflash,
    fun b _ hb => by rwa [State.isReady, h.rd R.GLB_READY_ready [] (by decide) hready]⟩

theorem keepsBoot_setMs {k : Nat} (hk : k ≠ 0) (v : Nat) (s : State) : KeepsBoot s (s.setMs k v) :=
  ⟨(changes_setMs k v s).rd _ _, fun j => State.rd_setMs_other hk.symm v j s, (changes_setMs k v s).parts .flash (by simp),
    fun b _ hb => by rwa [State.isReady, (changes_setMs k v s).rd R.GLB_READY_ready []]⟩

theorem keepsBoot_readyAll (l : List Nat) (s : State) : KeepsBoot s (l.foldl (fun t b => t.ready b) s) :=
  ⟨(changes_readyAll l s).rd _ _, fun _ => (changes_readyAll l s).rd _ _, (changes_readyAll l s).parts .flash (by simp),
    fun _ hb h => State.isReady_readyAll_of_ready hb l h⟩

theorem changes_enablePort (p : Nat) (s : State) :
    Changes [R.PRT_PORT_CTL_enable, R.PRT_PORT_STATUS_state] [.ports, .out, .hif] s (s.enablePort p) := by
  have hbad : Changes [R.PRT_PORT_CTL_enable, R.PRT_PORT_STATUS_state] [.ports, .out, .hif] s
      (s.badWrite R.PRT_PORT_CTL_enable [p]) := (Changes.refl _ _ s).told ((Told.refl s).badWrite _ _)
  refine Changes.ite (Changes.refl _ _ s) (Changes.ite hbad (Changes.modPort ?_ _ _))
  exact ((changes_wr _ _ _ s).weaken (by simp)).trans ((changes_setPst _ _ _).weaken (by simp))

/-- What the boot ROM writes for the recovery ports. -/
abbrev recoveryFields : List Fld :=
  [R.PRT_PORT_CFG_first_lane, R.PRT_PORT_CFG_width, R.PRT_LANE_CFG_reach, R.PRT_PORT_CTL_enable, R.PRT_PORT_STATUS_state]

theorem changes_recoveryPorts (s : State) : Changes recoveryFields [.ports, .out, .hif] s s.recoveryPorts := by
  refine Changes.foldl _ (fun t e => ?_) _ s
  exact ((((changes_wr _ _ _ t).weaken (by simp)).wr (f := R.PRT_PORT_CFG_width) (by simp) _ _).trans
    (Changes.foldl _ (fun u _ => (changes_wr _ _ _ u).weaken (by simp)) _ _)).trans
    ((changes_enablePort _ _).weaken (by simp))

abbrev delayFields : List Fld :=
  [R.MEM_DLY_DQ_rd_fine, R.MEM_DLY_DQ_rd_coarse, R.MEM_DLY_DQ_wr_fine, R.MEM_DLY_DQ_wr_coarse, R.MEM_DLY_CA_fine,
    R.MEM_DLY_CA_coarse]

theorem changes_loadDelays (b : List Byte) (s : State) : Changes delayFields [] s (s.loadDelays b) := by
  refine Changes.foldl _ (fun t k => Changes.ite ?_ (Changes.ite ?_ (Changes.refl _ _ t))) _ s
  · exact ((((Changes.refl _ _ t).wr (f := R.MEM_DLY_DQ_rd_fine) (by simp) _ _).wr (f := R.MEM_DLY_DQ_rd_coarse)
      (by simp) _ _).wr (f := R.MEM_DLY_DQ_wr_fine) (by simp) _ _).wr (by simp) _ _
  · exact ((Changes.refl _ _ t).wr (f := R.MEM_DLY_CA_fine) (by simp) _ _).wr (by simp) _ _

/-- The record in flash is valid: it is measured, and its owner's key and entries are kept (R382, R383, R387). -/
def State.recordTaken (bytes : List Byte) (pk : Nat) (l : List (Nat × Bool × List Byte)) (s : State) : State :=
  let s := (((s.wr R.SEC_BOOT_STATUS_config_ok [] 1).setMs 2 (sha bytes)).setMs 3 (sha (bytesOfNat 32 pk))).bumpBy
    R.SEC_CNT_count [9] (l.filter (fun e => !knownEntry e.1)).length
  { s with sec := { s.sec with ownerPk := pk, entries := (l.filter (fun e => knownEntry e.1)).map (fun e => (e.1, e.2.2)) } }

theorem keepsBoot_recordTaken (bytes : List Byte) (pk : Nat) (l : List (Nat × Bool × List Byte)) (s : State) :
    KeepsBoot s (s.recordTaken bytes pk l) :=
  ((((KeepsBoot.of_changes (changes_wr R.SEC_BOOT_STATUS_config_ok [] 1 s)).trans (keepsBoot_setMs (by decide) _ _)).trans
    (keepsBoot_setMs (by decide) _ _)).trans (KeepsBoot.of_changes (changes_bumpBy (f := R.SEC_CNT_count) _ _ _))).trans
    (KeepsBoot.of_changes (changes_inSec _ _))

/-- Entry 4 of the record sets strict isolation and its lock (R402). -/
def State.recordIso (iso : Nat) (s : State) : State :=
  let s := (s.wr R.SEC_ISO_strict [] (bitsOf iso 0 1)).wr R.SEC_LOCK_lock [] (bitsOf iso 1 1)
  if bitAt iso 0 then { s with sec := { s.sec with isoBeat := some (s.beat + 1) } } else s

theorem keepsBoot_recordIso (iso : Nat) (s : State) : KeepsBoot s (s.recordIso iso) := by
  have hwritten (a b : Nat) : KeepsBoot s ((s.wr R.SEC_ISO_strict [] a).wr R.SEC_LOCK_lock [] b) :=
    (KeepsBoot.of_changes (changes_wr R.SEC_ISO_strict [] a s)).trans (KeepsBoot.of_changes (changes_wr R.SEC_LOCK_lock [] b _))
  unfold State.recordIso
  split
  · exact (hwritten _ _).trans (KeepsBoot.of_changes (changes_inSec _ _))
  · exact hwritten _ _

theorem State.bootRecord_eq (s : State) :
    s.bootRecord = match s.record with
      | none => s.event B.sec 0
      | some (bytes, pk, l) =>
        let t := s.recordTaken bytes pk l
        let u := t.recordIso (natOfBytes ((t.entry 4).getD []))
        u.loadDelays ((u.entry 1).getD []) := by
  unfold State.bootRecord
  generalize s.record = r
  cases r <;> rfl

theorem keepsBoot_bootRecord (s : State) : KeepsBoot s s.bootRecord := by
  rw [State.bootRecord_eq]
  cases s.record with
  | none => exact KeepsBoot.of_changes ((Changes.refl [] reporting s).told ((Told.refl s).event _ _))
  | some r =>
    exact ((keepsBoot_recordTaken _ _ _ s).trans (keepsBoot_recordIso _ _)).trans
      (KeepsBoot.of_changes (changes_loadDelays _ _))

/-- Identity formed, and the ROM measured: the state in which the boot ROM reads the header (R384, R387). -/
def State.bootMeasured (s : State) : State := s.bootIdentity.setMs 0 Config.romDigest

theorem State.flash_bootMeasured (s : State) : s.bootMeasured.flash = s.flash := by
  have hidentity : Changes [R.SEC_BOOT_STATUS_identity_ok, R.SEC_IDENTITY_PK_bytes] [] s s.bootIdentity := by
    refine Changes.ite ?_ ((changes_wr _ _ _ s).weaken (by simp))
    exact ((changes_wr _ _ _ s).weaken (by simp)).trans (Changes.foldl _ (fun t _ => (changes_wr _ _ _ t).weaken (by simp)) _ _)
  exact ((changes_setMs 0 Config.romDigest _).parts .flash (by simp)).trans (hidentity.parts .flash (by simp))

/-- What a header's fault and the check of the resident section refuse the image for. -/
def imageFault (header : Option Nat) (resident : Bool) : Option Nat :=
  match header with
  | some c => some c
  | none => if resident then none else some 4

theorem imageFault_eq_none_iff (header : Option Nat) (resident : Bool) :
    imageFault header resident = none ↔ header.isNone ∧ resident = true := by
  cases header <;> simp [imageFault]

/-- What the image in flash is refused for at boot (R385). -/
def State.bootFault (s : State) : Option Nat := imageFault (headerFault s.header) (s.sectionOk (Hd.resident s.headNum))

theorem State.bootFault_of_flash (h : t.flash = s.flash) : t.bootFault = s.bootFault := by
  rw [State.bootFault, State.header_of_flash h, State.headNum_of_flash h, State.sectionOk_of_flash h, State.bootFault]

/-- What SEC_BOOT_STATUS and SEC_FW_STATUS show at the jump into the resident section (R385). -/
def State.bootVersion (s : State) : State :=
  ((((s.wr R.SEC_BOOT_STATUS_stage [] 2).wr R.SEC_BOOT_STATUS_fail [] 0).wr R.SEC_BOOT_STATUS_key_index []
    (fieldOf s.headNum 4 16 8)).wr R.SEC_BOOT_STATUS_booted_version [] (Hd.version s.headNum)).wr
    R.SEC_FW_STATUS_running_version [] (Hd.version s.headNum)

/-- The jump into the resident section, which is measured (R385, R387). -/
def State.bootJump (s : State) : State :=
  let t := s.bootVersion.setMs 1 (sha (s.flashRead 0 3136))
  { t with sec := { t.sec with running := sha (s.flashRead 0 3136) } }

theorem keepsBoot_bootJump (s : State) : KeepsBoot (s.wr R.SEC_BOOT_STATUS_stage [] 2) s.bootJump := by
  have hshown : Changes [R.SEC_BOOT_STATUS_fail, R.SEC_BOOT_STATUS_key_index, R.SEC_BOOT_STATUS_booted_version,
      R.SEC_FW_STATUS_running_version] [] (s.wr R.SEC_BOOT_STATUS_stage [] 2) s.bootVersion :=
    ((((changes_wr R.SEC_BOOT_STATUS_fail [] 0 _).weaken (by simp)).wr (f := R.SEC_BOOT_STATUS_key_index) (by simp) _ _).wr
      (f := R.SEC_BOOT_STATUS_booted_version) (by simp) _ _).wr (f := R.SEC_FW_STATUS_running_version) (by simp) _ _
  exact ((KeepsBoot.of_changes hshown).trans (keepsBoot_setMs (by decide) _ _)).trans (KeepsBoot.of_changes (changes_inSec _ _))

/-- The blocks that are ready in recovery, and in firmware (R443). -/
def recoveryBlocks : List Nat := [B.glb, B.sec, B.mrn]

def firmwareBlocks : List Nat :=
  [B.glb, B.sec, B.ras, B.pwr, B.dbg, B.mrn, B.prt, B.swc, B.edg, B.trk, B.cdc, B.mem, B.brd, B.cmp]

/-- The end of the boot ROM: recovery or the jump (R385, R386). -/
def State.bootEnd (fault : Option Nat) (s : State) : State :=
  match fault with
  | some c => (recoveryBlocks.foldl (fun t b => t.ready b)
      ((s.wr R.SEC_BOOT_STATUS_stage [] 1).wr R.SEC_BOOT_STATUS_fail [] c)).recoveryPorts
  | none => firmwareBlocks.foldl (fun t b => t.ready b) s.bootJump.bootRecord

theorem State.bootEnd_some (c : Nat) (s : State) : s.bootEnd (some c) = (recoveryBlocks.foldl (fun t b => t.ready b)
    ((s.wr R.SEC_BOOT_STATUS_stage [] 1).wr R.SEC_BOOT_STATUS_fail [] c)).recoveryPorts := rfl

theorem exec_bootCheckDone (s : State) : exec .bootCheckDone s =
    clocked s (if s.rd R.SEC_BOOT_STATUS_stage [] ≠ 0 then s else s.bootMeasured.bootEnd s.bootMeasured.bootFault) := by
  change execBootCheckDone s = _
  delta execBootCheckDone
  refine congrArg (clocked s) (if_congr Iff.rfl rfl ?_)
  extract_lets +onlyGivenNames t h bad
  have hbad : bad = t.bootFault := by
    change (match headerFault t.header with | some c => some c | none => _) = imageFault (headerFault t.header) _
    generalize headerFault t.header = f
    cases f <;> rfl
  clear_value bad
  subst hbad
  change _ = t.bootEnd t.bootFault
  generalize t.bootFault = f
  cases f <;> rfl

/-- The boot ROM's end: the stage, the measurement of the ROM and the blocks that both outcomes have ready. -/
theorem State.bootEnd_settled (f : Option Nat) (s : State) :
    (s.bootEnd f).rd R.SEC_BOOT_STATUS_stage [] = (if f = none then 2 else 1) ∧
    (∀ j, (s.bootEnd f).rd R.SEC_MEAS_bytes [0, j] = s.rd R.SEC_MEAS_bytes [0, j]) ∧ (s.bootEnd f).flash = s.flash ∧
    (s.bootEnd f).isReady B.sec = true ∧ (s.bootEnd f).isReady B.mrn = true := by
  have hstage (n : Nat) (t : State) (h : KeepsBoot (s.wr R.SEC_BOOT_STATUS_stage [] n) t) :
      t.rd R.SEC_BOOT_STATUS_stage [] = n % 2 ^ R.SEC_BOOT_STATUS_stage.w ∧
      (∀ j, t.rd R.SEC_MEAS_bytes [0, j] = s.rd R.SEC_MEAS_bytes [0, j]) ∧ t.flash = s.flash := by
    have hwritten := changes_wr R.SEC_BOOT_STATUS_stage [] n s
    exact ⟨h.stage.trans (State.rd_wr_same _ _ _ _), fun j => (h.measured j).trans (hwritten.rd _ _),
      h.flash.trans (hwritten.parts .flash (by simp))⟩
  cases f with
  | some c =>
    have hports (u : State) : KeepsBoot u u.recoveryPorts := KeepsBoot.of_changes (changes_recoveryPorts u)
    have hkeeps := ((KeepsBoot.of_changes (changes_wr R.SEC_BOOT_STATUS_fail [] c (s.wr R.SEC_BOOT_STATUS_stage [] 1))).trans
      (keepsBoot_readyAll recoveryBlocks _)).trans (hports _)
    have hready {b : Nat} (hb : b < 32) (hmem : b ∈ recoveryBlocks) :=
      (hports _).ready b hb (State.isReady_readyAll hb hmem ((s.wr R.SEC_BOOT_STATUS_stage [] 1).wr R.SEC_BOOT_STATUS_fail [] c))
    rw [State.bootEnd_some]
    obtain ⟨hst, hms, hflash⟩ := hstage 1 _ hkeeps
    exact ⟨hst, hms, hflash, hready (by decide) (by decide), hready (by decide) (by decide)⟩
  | none =>
    obtain ⟨hst, hms, hflash⟩ := hstage 2 _ (((keepsBoot_bootJump s).trans (keepsBoot_bootRecord _)).trans
      (keepsBoot_readyAll firmwareBlocks _))
    exact ⟨hst, hms, hflash, State.isReady_readyAll (by decide) (by decide) _, State.isReady_readyAll (by decide) (by decide) _⟩

theorem State.bootFault_bootMeasured (s : State) : s.bootMeasured.bootFault = none ↔
    (headerFault s.header).isNone ∧ s.sectionOk (Hd.resident s.headNum) = true := by
  have h : s.bootMeasured.bootFault = s.bootFault := State.bootFault_of_flash s.flash_bootMeasured
  rw [h]
  unfold State.bootFault
  generalize headerFault s.header = f
  exact imageFault_eq_none_iff f _

/-- What the boot ROM settles, of the state it ends in. -/
theorem gives_settled {c : Instr} {f : Option Nat} {g : Prop} [Decidable g] {n : Nat} {u : State} (hexec : exec c s = clocked s u)
    (hstopped : s.stopped = false) (hfault : f = none ↔ g) (hmeasured : t.ms 0 = n) (hflash : t.flash = s.flash)
    (h : u.rd R.SEC_BOOT_STATUS_stage [] = (if f = none then 2 else 1) ∧
      (∀ j, u.rd R.SEC_MEAS_bytes [0, j] = t.rd R.SEC_MEAS_bytes [0, j]) ∧ u.flash = t.flash ∧ u.isReady B.sec = true ∧
      u.isReady B.mrn = true) :
    Gives c s (fun t => t.rd R.SEC_BOOT_STATUS_stage [] = (if g then 2 else 1) ∧ t.ms 0 = n ∧ t.isReady B.sec = true ∧
      t.isReady B.mrn = true ∧ t.flash = s.flash) := by
  obtain ⟨hst, hms, hkept, hsec, hmrn⟩ := h
  have hsame : u.ms 0 = t.ms 0 := by rw [State.ms_eq, State.ms_eq, hms, hms, hms, hms]
  exact gives_clocked hexec hstopped ⟨hst.trans (if_congr hfault rfl rfl),
    ((State.ms_after 0 s u).trans hsame).trans hmeasured, hsec, hmrn, hkept.trans hflash⟩

theorem gives_bootCheckDone (hstopped : s.stopped = false) (hstage : s.rd R.SEC_BOOT_STATUS_stage [] = 0) :
    Gives .bootCheckDone s (fun t => t.rd R.SEC_BOOT_STATUS_stage [] =
      (if (headerFault s.header).isNone ∧ s.sectionOk (Hd.resident s.headNum) = true then 2 else 1) ∧
      t.ms 0 = Config.romDigest % 2 ^ 256 ∧ t.isReady B.sec = true ∧ t.isReady B.mrn = true ∧ t.flash = s.flash) := by
  have hexec := exec_bootCheckDone s
  rw [if_neg (by simp [hstage])] at hexec
  exact gives_settled hexec hstopped s.bootFault_bootMeasured (State.ms_setMs 0 Config.romDigest s.bootIdentity)
    s.flash_bootMeasured (State.bootEnd_settled _ _)

theorem gives_bootCheckDone_again (hstage : s.rd R.SEC_BOOT_STATUS_stage [] ≠ 0) :
    Gives .bootCheckDone s (fun t => RegsBut [] s t ∧ PartsBut [] s t) := by
  have hexec := exec_bootCheckDone s
  rw [if_pos hstage] at hexec
  exact gives_idle hexec

end Sys2Proof.Machine
end

section
/-! PROOF. Pool bring-up, and the firmware's requests (R249, R383, R384, R391, R393, R444). -/

namespace Sys2Proof.Machine

-- One proof after another: proofs under way at once are more threads than one process has memory for.
set_option Elab.async false

open Sys2Proof.Safety

variable {s t : State} {fn : Nat}

/-! ### Pool bring-up (R444) -/

/-- The image store takes a slot and an extent, where both are found (R163, R444). -/
def State.storeAt (l : Option Loc) (e : Option Nat) (s : State) : State :=
  match l, e with
  | some l, some e =>
    let t := s.setExt s.node e { state := .internal }
    { t with tier := { t.tier with loc := t.tier.loc.set [e] l, store := some e } }
  | _, _ => s

/-- The slot that the image store would take: the stack with the most free slots, or one that has not failed. -/
def State.storeSlot (s : State) : Option Loc :=
  match s.pick false false (stacksOf 0) with
  | some l => some l
  | none => ((stacksOf 0).find? (fun u => decide (s.rd R.MEM_STACK_STATUS_state [u] ≠ 4))).map (fun u => { unit := u })

/-- The lowest FREE extent of the own node. -/
def State.freeExtent (s : State) : Option Nat :=
  (List.range (s.extents s.node)).find? (fun e => decide ((s.ext s.node e).state = .free))

theorem State.takeStore_eq (s : State) : s.takeStore = s.storeAt s.storeSlot s.freeExtent := by
  unfold State.takeStore
  extract_lets +onlyGivenNames unit
  have hunit : s.storeSlot = unit := by
    unfold State.storeSlot
    generalize hpick : s.pick false false (stacksOf 0) = l
    cases l <;> simp [unit, hpick]
  have hext : s.freeExtent = (List.range (s.extents s.node)).find? (fun e => decide ((s.ext s.node e).state = .free)) := rfl
  rw [hunit, hext]
  generalize (List.range (s.extents s.node)).find? _ = e
  clear_value unit
  cases unit <;> cases e <;> rfl

theorem changes_storeAt (l : Option Loc) (e : Option Nat) (s : State) : Changes [] [.pool, .tier] s (s.storeAt l e) := by
  cases l with
  | none => exact Changes.refl _ _ s
  | some l =>
    cases e with
    | none => exact Changes.refl _ _ s
    | some e => exact changes_of_parts rfl (fun p hp => by cases p <;> first | rfl | exact absurd (by decide) hp)

theorem changes_takeStore (s : State) : Changes [] [.pool, .tier] s s.takeStore :=
  s.takeStore_eq ▸ changes_storeAt _ _ s

/-- A stack of West that has not failed, and a FREE extent, give the image store its place. -/
theorem State.store_takeStore {e : Nat} (hstack : s.rd R.MEM_STACK_STATUS_state [0] ≠ 4) (he : e < s.extents s.node)
    (hfree : (s.ext s.node e).state = .free) : s.takeStore.tier.store.isSome = true := by
  have hunit : s.storeSlot.isSome = true := by
    unfold State.storeSlot
    cases s.pick false false (stacksOf 0) with
    | some l => rfl
    | none =>
      rw [Option.isSome_map, List.find?_isSome]
      exact ⟨0, by decide, by simpa using hstack⟩
  have hext : s.freeExtent.isSome = true := List.find?_isSome.mpr ⟨e, List.mem_range.mpr he, by simpa using hfree⟩
  obtain ⟨l, hl⟩ := Option.isSome_iff_exists.mp hunit
  obtain ⟨x, hx⟩ := Option.isSome_iff_exists.mp hext
  rw [State.takeStore_eq, hl, hx]
  rfl

theorem State.loseSlots_zero (s : State) : s.loseSlots 0 = s := rfl

theorem State.rd_drawKey_valid (k : Nat) (s : State) : (s.drawKey k).rd R.BRD_KEY_STATUS_valid [k] = 1 := by
  rw [State.drawKey, State.rd_wr_num _ _ _ _ (by decide), State.rd_wr_same]
  rfl

theorem State.rd_drawKey_other {k k' : Nat} (h : k' ≠ k) (s : State) :
    (s.drawKey k).rd R.BRD_KEY_STATUS_valid [k'] = s.rd R.BRD_KEY_STATUS_valid [k'] := by
  rw [State.drawKey, State.rd_wr_num _ _ _ _ (by decide), State.rd_wr_index _ _ (by simp [h])]
  rfl

/-- The pool with `n` extents, the image store and the keys of the board (R205, R444). -/
def State.poolMade (n : Nat) (s : State) : State := (((s.wr R.POL_STATUS_extents [] n).takeStore.drawKey 32).drawKey 0)

def poolBlocks : List Nat := [B.pol, B.coh, B.qpe, B.clt, B.gth]

theorem exec_poolBringup (hrun : s.firmware = true) (hrecord : s.on R.SEC_BOOT_STATUS_config_ok [] = true)
    (hunready : s.isReady B.pol = false)
    (hstacks : (List.range 20).all (fun u => decide (s.rd R.MEM_STACK_STATUS_state [u] ≠ 4)) = true)
    (hslots : (List.range 8).all (fun c => decide (s.rd R.BRD_CH_STATUS_slots [c] = 0)) = true) :
    exec (.poolBringup []) s = clocked s (poolBlocks.foldl (fun t b => t.ready b) (s.poolMade 23040)) := by
  have hboard : (List.range 8).foldl (fun a c => a + s.rd R.BRD_CH_STATUS_slots [c]) 0 = 0 :=
    List.foldl_ext _ (fun a _ => a) 0 (fun a c hc => by rw [of_decide_eq_true (List.all_eq_true.mp hslots c hc), Nat.add_zero])
  have hfailed (n : Nat) : (List.range 20).filter (fun u =>
      decide ((s.wr R.POL_STATUS_extents [] n).rd R.MEM_STACK_STATUS_state [u] = 4)) = [] := by
    refine List.filter_eq_nil_iff.mpr (fun u hu => ?_)
    rw [State.rd_wr_num _ _ _ _ (by decide)]
    simpa using List.all_eq_true.mp hstacks u hu
  have hspds : (List.range 8).foldl (fun t c => State.readSpd c (([] : List (Option Spd)).getD c none) t) s = s := rfl
  change execPoolBringup [] s = _
  unfold execPoolBringup
  rw [if_neg (by simp [hrun, hrecord, hunready]), hspds]
  extract_lets +onlyGivenNames r n t failed
  have hn : n = 23040 := congrArg (23040 + ·) hboard
  have hnone : failed = [] := hfailed n
  clear_value failed
  subst hnone
  rw [show t = s.wr R.POL_STATUS_extents [] 23040 from congrArg (fun k => s.wr R.POL_STATUS_extents [] k) hn]
  rfl

theorem State.isReady_after (b : Nat) (s u : State) : (s.after u).isReady b = u.isReady b := rfl

/-- What pool bring-up leaves: N, the keys of the board, the image store, and memory as it was. -/
theorem State.poolMade_cases (hstack : s.rd R.MEM_STACK_STATUS_state [0] ≠ 4) (hfree : s.ext s.node 0 = {}) :
    (s.poolMade 23040).rd R.POL_STATUS_extents [] = 23040 ∧ (s.poolMade 23040).rd R.BRD_KEY_STATUS_valid [32] = 1 ∧
    (s.poolMade 23040).rd R.BRD_KEY_STATUS_valid [0] = 1 ∧ (s.poolMade 23040).tier.store.isSome = true ∧
    (s.poolMade 23040).fresh = s.fresh + 4 ∧ (s.poolMade 23040).mem = s.mem := by
  have hwritten := changes_wr R.POL_STATUS_extents [] 23040 s
  have hstored := changes_takeStore (s.wr R.POL_STATUS_extents [] 23040)
  obtain ⟨hdrawn, -, hfresh, -⟩ := (s.wr R.POL_STATUS_extents [] 23040).takeStore.drawKey_cases 32
  obtain ⟨hdrawn', -, hfresh', -⟩ := ((s.wr R.POL_STATUS_extents [] 23040).takeStore.drawKey 32).drawKey_cases 0
  have hextents : (s.wr R.POL_STATUS_extents [] 23040).rd R.POL_STATUS_extents [] = 23040 := State.rd_wr_same _ _ _ _
  have hnode : (s.wr R.POL_STATUS_extents [] 23040).node = s.node := State.rd_wr_num _ _ _ s (by decide)
  have hnumber : (s.wr R.POL_STATUS_extents [] 23040).extents (s.wr R.POL_STATUS_extents [] 23040).node = 23040 := by
    rw [State.extents, if_pos rfl, hextents]
  have hfirst : ((s.wr R.POL_STATUS_extents [] 23040).ext (s.wr R.POL_STATUS_extents [] 23040).node 0).state = .free := by
    rw [State.ext, if_pos (by rw [hnumber]; decide), hnode]
    rw [State.ext] at hfree
    split at hfree
    · exact congrArg Ext.state hfree
    · exact absurd (congrArg Ext.state hfree) (by decide)
  refine ⟨?_, ?_, State.rd_drawKey_valid 0 _, ?_, ?_, ?_⟩
  · exact ((hdrawn'.rd _ _).trans (hdrawn.rd _ _)).trans ((hstored.rd _ _).trans hextents)
  · exact (State.rd_drawKey_other (by decide) _).trans (State.rd_drawKey_valid 32 _)
  · have hkept := (hdrawn'.parts .tier (by decide)).trans (hdrawn.parts .tier (by decide))
    have hstore := State.store_takeStore (s := s.wr R.POL_STATUS_extents [] 23040)
      (by rwa [State.rd_wr_num _ _ _ _ (by decide)]) (by rw [hnumber]; decide) hfirst
    exact (congrArg (fun x => x.store.isSome) hkept).trans hstore
  · have hkept : (s.wr R.POL_STATUS_extents [] 23040).takeStore.fresh = s.fresh := hstored.parts .fresh (by decide)
    exact hfresh'.trans (by rw [hfresh, hkept])
  · exact ((hdrawn'.parts .mem (by decide)).trans (hdrawn.parts .mem (by decide))).trans (hstored.parts .mem (by decide))

theorem gives_poolBringup (hstopped : s.stopped = false) (hrun : s.firmware = true)
    (hrecord : s.on R.SEC_BOOT_STATUS_config_ok [] = true) (hunready : s.isReady B.pol = false)
    (hstacks : (List.range 20).all (fun u => decide (s.rd R.MEM_STACK_STATUS_state [u] ≠ 4)) = true)
    (hslots : (List.range 8).all (fun c => decide (s.rd R.BRD_CH_STATUS_slots [c] = 0)) = true)
    (hfree : s.ext s.node 0 = {}) :
    Gives (.poolBringup []) s (fun t => t.rd R.POL_STATUS_extents [] = 23040 ∧ t.isReady B.pol = true ∧
      t.isReady B.gth = true ∧ t.rd R.BRD_KEY_STATUS_valid [32] = 1 ∧ t.rd R.BRD_KEY_STATUS_valid [0] = 1 ∧
      t.tier.store.isSome = true ∧ t.fresh = s.fresh + 4 ∧ t.mem = s.mem) := by
  have hstack : s.rd R.MEM_STACK_STATUS_state [0] ≠ 4 := of_decide_eq_true (List.all_eq_true.mp hstacks 0 (by decide))
  obtain ⟨hextents, hboard, hpool, hstore, hfresh, hmem⟩ := State.poolMade_cases hstack hfree
  have hready := changes_readyAll poolBlocks (s.poolMade 23040)
  have hblock {b : Nat} (hb : b < 32) (hmem : b ∈ poolBlocks) := State.isReady_readyAll hb hmem (s.poolMade 23040)
  exact gives_clocked (exec_poolBringup hrun hrecord hunready hstacks hslots) hstopped
    ⟨(hready.rd _ _).trans hextents, hblock (by decide) (by decide), hblock (by decide) (by decide),
      (hready.rd _ _).trans hboard, (hready.rd _ _).trans hpool,
      (congrArg (fun x => x.store.isSome) (hready.parts .tier (by decide))).trans hstore,
      (hready.parts .fresh (by decide)).trans hfresh, (hready.parts .mem (by decide)).trans hmem⟩

/-! ### Images written (R386, R391) -/

/-- The image is in flash, and what was staged is no longer good. -/
def State.imagePut (image : List Byte) (s : State) : State :=
  (s.flashWrite 0 Fl.config (image.take Fl.config)).wr R.SEC_FW_STATUS_staged_ok [] 0

/-- What writing an image leaves: its fault, or the image in flash and whether its sections read back. -/
def State.putWith (fault : Option Nat) (image : List Byte) (s : State) : Status × State :=
  match fault with
  | some c => (.unsupported, if s.inRecovery then s.wr R.SEC_BOOT_STATUS_fail [] c else s)
  | none =>
    if (s.imagePut image).sectionsOk then (.ok, s.imagePut image)
    else (.unsupported, if (s.imagePut image).inRecovery then (s.imagePut image).wr R.SEC_BOOT_STATUS_fail [] 4
      else (s.imagePut image).event B.sec 4)

theorem State.putImage_eq (image : List Byte) (s : State) : s.putImage image = s.putWith (headerFault image) image := by
  unfold State.putImage
  generalize headerFault image = f
  cases f <;> rfl

theorem changes_imagePut (image : List Byte) (s : State) :
    Changes [R.SEC_FW_STATUS_staged_ok] [.flash] s (s.imagePut image) :=
  ((changes_flashWrite _ _ _ s).weaken (by simp)).trans ((changes_wr _ _ _ _).weaken (by simp))

/-- A part that is not in recovery writes no SEC_BOOT_STATUS.fail. -/
theorem changes_putWith (l : List Fld) (fault : Option Nat) (image : List Byte) (s : State)
    (hl : R.SEC_FW_STATUS_staged_ok ∈ l) (h : s.inRecovery = true → R.SEC_BOOT_STATUS_fail ∈ l) :
    Changes l [.out, .hif, .flash] s (s.putWith fault image).2 := by
  have hput : Changes l [.out, .hif, .flash] s (s.imagePut image) := (changes_imagePut image s).weaken (by simpa using hl)
  have hmode : (s.imagePut image).inRecovery = s.inRecovery := by
    rw [State.inRecovery, (changes_imagePut image s).rd R.SEC_BOOT_STATUS_stage [], State.inRecovery]
  cases fault with
  | some c =>
    by_cases hrec : s.inRecovery = true
    · rw [State.putWith, if_pos hrec]
      exact (changes_wr _ _ _ s).weaken (by simpa using h hrec)
    · rw [State.putWith, if_neg hrec]
      exact Changes.refl _ _ s
  | none =>
    rw [State.putWith]
    split
    · exact hput
    · by_cases hrec : s.inRecovery = true
      · rw [if_pos (hmode.trans hrec)]
        exact hput.wr (f := R.SEC_BOOT_STATUS_fail) (h hrec) [] 4
      · rw [if_neg (by rwa [hmode])]
        exact hput.told ((Told.refl _).event _ _) 

theorem State.flash_putWith (fault : Option Nat) (image : List Byte) (s : State) : (s.putWith fault image).2.flash =
    if fault.isSome then s.flash else (s.flashWrite 0 Fl.config (image.take Fl.config)).flash := by
  cases fault with
  | some c =>
    change (if s.inRecovery then s.wr R.SEC_BOOT_STATUS_fail [] c else s).flash = s.flash
    split
    · exact State.wr_flash_eq _ _ _ s
    · rfl
  | none =>
    have hput : (s.imagePut image).flash = (s.flashWrite 0 Fl.config (image.take Fl.config)).flash :=
      State.wr_flash_eq _ _ _ _
    refine Eq.trans ?_ hput
    rw [State.putWith]
    split
    · rfl
    · change (if (s.imagePut image).inRecovery then (s.imagePut image).wr R.SEC_BOOT_STATUS_fail [] 4
        else (s.imagePut image).event B.sec 4).flash = _
      split
      · exact State.wr_flash_eq _ _ _ _
      · exact ((Told.refl _).event _ _).parts .flash (by decide)

theorem State.putWith_status (fault : Option Nat) (image : List Byte) (s : State) :
    (s.putWith fault image).1 = .ok ∨ (s.putWith fault image).1 = .unsupported := by
  cases fault with
  | some c => exact .inr rfl
  | none =>
    rw [State.putWith]
    split
    · exact .inl rfl
    · exact .inr rfl

/-- Where the image was written, a field shows it. -/
def shownThen (f : Fld) (v : Nat) (r : Status × State) : Status × State := if r.1 = .ok then (.ok, r.2.wr f [] v) else r

/-- A request to write an image: flash as its header has it, and a refusal or what shows the image. -/
theorem gives_imageWrite {c : Instr} {op : Nat} {operands : List Byte} {f : Fld} {v : Nat} {l : List Fld} {fault : Option Nat}
    {image : List Byte} {put : State → Status × State} (hstopped : s.stopped = false) (hexpelled : s.pkg.expelled = false)
    (hbox : s.hif.mbox.has [0] = false) (hrun : s.firmware = true ∨ s.inRecovery = true ∧ op = Op.fwPush)
    (hrestart : s.sec.restarted = none) (hexec : exec c s = clocked s (s.mailed 0 op operands image put))
    (hput : put s = shownThen f v (s.putWith fault image)) (hf : ¬ Reports f) (hreply : ∀ g ∈ replyFields, f.num ≠ g.num)
    (hv : v < 2 ^ f.w) (hl : f ∈ l) (hstaged : R.SEC_FW_STATUS_staged_ok ∈ l)
    (hfail : s.inRecovery = true → R.SEC_BOOT_STATUS_fail ∈ l) (hlreply : ∀ g ∈ replyFields, g ∈ l) :
    Gives c s (fun t => t.flash = (if fault.isSome then s.flash else
        (s.flashWrite 0 Fl.config (image.take Fl.config)).flash) ∧
      t.rd R.MRN_REPLY_HDR_seq [0] = s.nextMail 0 ∧
      (t.rd R.MRN_REPLY_HDR_status [0] = Status.unsupported.code ∨ t.rd f [] = v) ∧
      RegsBut l s t ∧ PartsBut [.out, .hif, .flash] s t) := by
  have hput' := changes_putWith l fault image s hstaged hfail
  have hflash := s.flash_putWith fault image
  have hstatus := s.putWith_status fault image
  rw [State.mailed_of_taken hexpelled hbox hrun hrestart, hput] at hexec
  generalize s.putWith fault image = r at *
  have hshown : Changes l [.out, .hif, .flash] s (shownThen f v r).2 ∧ (shownThen f v r).2.flash = r.2.flash ∧
      ((shownThen f v r).1 = .unsupported ∨ (shownThen f v r).2.rd f [] = v) := by
    unfold shownThen
    split
    · exact ⟨hput'.wr hl _ _, (changes_wr f [] v _).parts .flash (by simp), .inr ((State.rd_wr_same _ _ _ _).trans (Nat.mod_eq_of_lt hv))⟩
    · next hno => exact ⟨hput', rfl, .inl (hstatus.resolve_left hno)⟩
  obtain ⟨hchanges, hsame, houtcome⟩ := hshown
  generalize shownThen f v r = q at *
  have hmail := changes_answered_mail 0 s q
  obtain ⟨hcode, hseq, -⟩ := replied_answered 0 s q
  refine gives_clocked hexec hstopped ⟨(hmail.parts .flash (by decide)).trans (hsame.trans hflash), hseq, ?_,
    (hchanges.trans (hmail.weaken hlreply)).after⟩
  rcases houtcome with h | h
  · exact .inl (hcode.trans (congrArg Status.code h))
  · exact .inr ((hmail.rd f [] hf hreply).trans h)

theorem gives_fwPush (image : List Byte) (hstopped : s.stopped = false) (hexpelled : s.pkg.expelled = false)
    (hbox : s.hif.mbox.has [0] = false) (hrec : s.inRecovery = true) (hrestart : s.sec.restarted = none) :
    Gives (.fwPush image) s (fun t => (t.flash = if (headerFault image).isSome then s.flash else
        (s.flashWrite 0 Fl.config (image.take Fl.config)).flash) ∧
      t.rd R.MRN_REPLY_HDR_seq [0] = s.nextMail 0 ∧
      (t.rd R.MRN_REPLY_HDR_status [0] = Status.unsupported.code ∨ t.rd R.SEC_BOOT_STATUS_stage [] = 0) ∧
      RegsBut [R.SEC_BOOT_STATUS_stage, R.SEC_BOOT_STATUS_fail, R.SEC_FW_STATUS_staged_ok, R.MRN_REPLY_HDR_status,
        R.MRN_REPLY_HDR_seq, R.MRN_REPLY_HDR_length, R.MRN_BUSY_pending] s t ∧ PartsBut [.out, .hif, .flash] s t) := by
  have hput : s.fwPush image = shownThen R.SEC_BOOT_STATUS_stage 0 (s.putWith (headerFault image) image) := by
    rw [State.fwPush, if_neg (by simp [hrec]), State.putImage_eq]
    rfl
  exact gives_imageWrite hstopped hexpelled hbox (.inr ⟨hrec, rfl⟩) hrestart rfl hput (by decide) (by decide) (by decide)
    (by simp) (by simp) (by simp) (by simp [replyFields])

theorem gives_fwWrite (image : List Byte) (h : Mails s 0) (hfree : s.fwBusy = false) :
    Gives (.fwWrite 0 image) s (fun t => (t.flash = if (headerFault image).isSome then s.flash else
        (s.flashWrite 0 Fl.config (image.take Fl.config)).flash) ∧
      t.rd R.MRN_REPLY_HDR_seq [0] = s.nextMail 0 ∧
      (t.rd R.MRN_REPLY_HDR_status [0] = Status.unsupported.code ∨ t.on R.SEC_FW_STATUS_staged_ok [] = true) ∧
      RegsBut [R.SEC_FW_STATUS_staged_ok, R.MRN_REPLY_HDR_status, R.MRN_REPLY_HDR_seq, R.MRN_REPLY_HDR_length,
        R.MRN_BUSY_pending] s t ∧ PartsBut [.out, .hif, .flash] s t) := by
  obtain ⟨hstopped, hexpelled, hbox, hrun, hrestart, -⟩ := h
  have hnone : s.inRecovery = false := by
    have hstage : s.rd R.SEC_BOOT_STATUS_stage [] = 2 := of_decide_eq_true hrun
    rw [State.inRecovery, hstage]
    rfl
  have hidle : s.on R.SEC_FW_STATUS_handover_pending [] = false := (Bool.or_eq_false_iff.mp hfree).1
  have hput : pfOnly 0 s (if s.fwBusy then (.retry, s) else s.fwWrite image) =
      shownThen R.SEC_FW_STATUS_staged_ok 1 (s.putWith (headerFault image) image) := by
    rw [pfOnly, if_pos rfl, if_neg (by simp [hfree]), State.fwWrite, if_neg (by simp [hidle]), State.putImage_eq]
    rfl
  obtain ⟨t, hexec, hflash, hseq, houtcome, hframe⟩ := gives_imageWrite (c := .fwWrite 0 image) (op := Op.fwWrite) (operands := [])
    (f := R.SEC_FW_STATUS_staged_ok) (v := 1) (l := R.SEC_FW_STATUS_staged_ok :: replyFields) (fault := headerFault image)
    (put := fun t => pfOnly 0 t (if t.fwBusy then (.retry, t) else t.fwWrite image)) hstopped hexpelled hbox (.inl hrun)
    hrestart rfl hput (by decide) (by decide) (by decide) (by simp) (by simp) (by simp [hnone]) (fun g hg => by simp [hg])
  exact ⟨t, hexec, hflash, hseq, houtcome.imp_right (fun h => State.on_iff.mpr (by rw [h]; decide)), hframe⟩

/-! ### Hand-over (R391) -/

theorem gives_fwHandover {b : Nat} (h : Mails s 0) (hstaged : s.on R.SEC_FW_STATUS_staged_ok [] = true)
    (hfree : s.fwBusy = false) :
    Gives (.fwHandover 0 b) s (fun t => Replied 0 .ok s t ∧ t.on R.SEC_FW_STATUS_handover_pending [] = true ∧
      t.rd R.SEC_FW_BEAT_beat [] = launchBeat b s.beat ∧ RegsBut [R.SEC_FW_STATUS_handover_pending, R.SEC_FW_BEAT_beat,
      R.TIM_LATE_COUNT_count, R.MRN_REPLY_HDR_status, R.MRN_REPLY_HDR_seq, R.MRN_REPLY_HDR_length, R.MRN_BUSY_pending] s t ∧
      PartsBut [.out, .hif] s t) := by
  have hput : pfOnly 0 s (s.fwHandover b) = (.ok, State.lateIf b s.beat ((s.wr R.SEC_FW_STATUS_handover_pending [] 1).wr
      R.SEC_FW_BEAT_beat [] (launchBeat b s.beat))) := by
    rw [pfOnly, if_pos rfl, State.fwHandover, if_neg (by simp [hstaged]), if_neg (by simp [hfree])]
  refine gives_mailed h rfl hput (fun u hmail hreplied => ⟨hreplied, ?_, ?_, ?_⟩)
  · have hset : u.rd R.SEC_FW_STATUS_handover_pending [] = 1 := by
      rw [hmail.rd _ _, State.rd_lateIf _ _ _ _ (by decide), State.rd_wr_num _ _ _ _ (by decide), State.rd_wr_same]
      rfl
    exact State.on_iff.mpr (by change u.rd _ _ ≠ 0; rw [hset]; decide)
  · change u.rd _ _ = _
    rw [hmail.rd _ _, State.rd_lateIf _ _ _ _ (by decide), State.rd_wr_same]
    exact Nat.mod_eq_of_lt (launchBeat_lt b s.beat)
  · have hset : Changes [R.SEC_FW_STATUS_handover_pending, R.SEC_FW_BEAT_beat, R.TIM_LATE_COUNT_count, R.MRN_REPLY_HDR_status,
        R.MRN_REPLY_HDR_seq, R.MRN_REPLY_HDR_length, R.MRN_BUSY_pending] reporting s
        ((s.wr R.SEC_FW_STATUS_handover_pending [] 1).wr R.SEC_FW_BEAT_beat [] (launchBeat b s.beat)) :=
      ((changes_wr _ _ _ s).weaken (by simp)).wr (f := R.SEC_FW_BEAT_beat) (by simp) _ _
    exact ((hset.told ((Told.refl _).lateIf _ _)).trans (hmail.weaken (by simp [replyFields]))).after

/-- The Marionette in a hand-over: restarted into the staged section, which is measured (R391). -/
def State.handedOver (s : State) : State :=
  let t := s.extendMs 5 (sha (s.flashRead 0 3136))
  { t with sec := { t.sec with running := sha (s.flashRead 0 3136),
                               restarted := some (t.now, t.sec.running, t.rd R.SEC_FW_STATUS_running_version []) } }

/-- A hand-over that fails: nothing is pending, and two events say why. -/
def State.handoverFailed (s : State) : State :=
  ((s.wr R.SEC_FW_STATUS_handover_pending [] 0).event B.sec 2).event B.sec 4

theorem State.now_setMs (k v : Nat) (s : State) : (s.setMs k v).now = s.now := by
  unfold State.setMs
  induction List.range 4 generalizing s with
  | nil => rfl
  | cons j l ih => exact (ih _).trans (State.wr_now_eq _ _ _ s)

theorem State.restarted_handedOver (s : State) :
    s.handedOver.sec.restarted = some (s.now, s.sec.running, s.rd R.SEC_FW_STATUS_running_version []) := by
  have hextended := changes_extendMs 5 (sha (s.flashRead 0 3136)) s
  have hsec : (s.extendMs 5 (sha (s.flashRead 0 3136))).sec = s.sec := hextended.parts .sec (by simp)
  change some ((s.extendMs 5 (sha (s.flashRead 0 3136))).now, (s.extendMs 5 (sha (s.flashRead 0 3136))).sec.running,
    (s.extendMs 5 (sha (s.flashRead 0 3136))).rd R.SEC_FW_STATUS_running_version []) = _
  rw [State.extendMs, State.now_setMs, ← State.extendMs, hextended.rd R.SEC_FW_STATUS_running_version [], hsec]

theorem exec_handover (hpending : s.on R.SEC_FW_STATUS_handover_pending [] = true) (hrestart : s.sec.restarted = none)
    (hbeat : ahead (s.rd R.SEC_FW_BEAT_beat []) s.beat = false) : exec .handover s =
      clocked s (if s.sectionOk (Hd.resident s.headNum) = true then s.handedOver else s.handoverFailed) := by
  change execHandover s = _
  unfold execHandover
  rw [if_neg (by simp [hpending, hrestart, hbeat]), ite_not]
  rfl

theorem gives_handover (hstopped : s.stopped = false) (hpending : s.on R.SEC_FW_STATUS_handover_pending [] = true)
    (hrestart : s.sec.restarted = none) (hbeat : ahead (s.rd R.SEC_FW_BEAT_beat []) s.beat = false) :
    Gives .handover s (fun t => (t.sec.restarted = if s.sectionOk (Hd.resident s.headNum) then
        some (s.now, s.sec.running, s.rd R.SEC_FW_STATUS_running_version []) else none) ∧
      t.on R.SEC_FW_STATUS_handover_pending [] = s.sectionOk (Hd.resident s.headNum) ∧
      RegsBut [R.SEC_FW_STATUS_handover_pending, R.SEC_MEAS_bytes] s t ∧ PartsBut [.out, .hif, .sec] s t) := by
  have hexec := exec_handover hpending hrestart hbeat
  cases hgood : s.sectionOk (Hd.resident s.headNum) with
  | true =>
    rw [if_pos hgood] at hexec
    have hextended := changes_extendMs 5 (sha (s.flashRead 0 3136)) s
    have hchanges : Changes [R.SEC_FW_STATUS_handover_pending, R.SEC_MEAS_bytes] [.out, .hif, .sec] s s.handedOver :=
      (hextended.weaken (by simp)).trans ((changes_inSec _ _).weaken (by simp))
    have hstays : s.handedOver.rd R.SEC_FW_STATUS_handover_pending [] = s.rd R.SEC_FW_STATUS_handover_pending [] :=
      hextended.rd R.SEC_FW_STATUS_handover_pending []
    exact gives_clocked hexec hstopped ⟨s.restarted_handedOver, State.on_iff.mpr (hstays.trans_ne (State.on_iff.mp hpending)),
      hchanges.after⟩
  | false =>
    rw [if_neg (by simp [hgood])] at hexec
    have htold : Told (s.wr R.SEC_FW_STATUS_handover_pending [] 0) s.handoverFailed := ((Told.refl _).event _ _).event _ _
    have hchanges : Changes [R.SEC_FW_STATUS_handover_pending, R.SEC_MEAS_bytes] [.out, .hif, .sec] s s.handoverFailed :=
      ((changes_wr _ _ _ s).weaken (by simp)).told htold
    have hcleared : s.handoverFailed.rd R.SEC_FW_STATUS_handover_pending [] = 0 :=
      (htold.regs _ _ (by decide)).trans (State.rd_wr_same _ _ _ _)
    have hsec : s.handoverFailed.sec = s.sec := (htold.parts .sec (by decide)).trans (State.wr_sec_eq _ _ _ s)
    exact gives_clocked hexec hstopped ⟨(congrArg Sec.restarted hsec).trans hrestart, State.on_eq_false hcleared,
      hchanges.after⟩

/-- With nothing held back, the end of a hand-over carries nothing out. -/
theorem State.runLater_of_none (hwaiting : s.hif.waiting = []) (hobjects : s.ras.objects = Map.empty) :
    s.runLater = { s with hif := { s.hif with waiting := [] } } := by
  unfold State.runLater
  rw [hwaiting]
  change List.foldl _ _ (List.filter _ s.ras.objects.entries) = _
  rw [hobjects]
  rfl

theorem changes_runLater (hwaiting : s.hif.waiting = []) (hobjects : s.ras.objects = Map.empty) :
    Changes [] [.hif] s s.runLater := by
  rw [State.runLater_of_none hwaiting hobjects]
  exact changes_inHif _ s

/-- At the end of a hand-over: the version that runs, with no hand-over pending. -/
def State.handoverShown (v : Nat) (s : State) : State :=
  (s.wr R.SEC_FW_STATUS_running_version [] v).wr R.SEC_FW_STATUS_handover_pending [] 0

theorem changes_handoverShown (v : Nat) (s : State) :
    Changes [R.SEC_FW_STATUS_running_version, R.SEC_FW_STATUS_handover_pending] [] s (s.handoverShown v) :=
  ((changes_wr _ _ _ s).weaken (by simp)).wr (f := R.SEC_FW_STATUS_handover_pending) (by simp) _ _

theorem State.rd_handoverShown {v : Nat} (hv : v < 2 ^ 32) (s : State) :
    (s.handoverShown v).rd R.SEC_FW_STATUS_running_version [] = v ∧
    (s.handoverShown v).rd R.SEC_FW_STATUS_handover_pending [] = 0 := by
  refine ⟨?_, State.rd_wr_same _ _ _ _⟩
  rw [State.handoverShown, State.rd_wr_num _ _ _ _ (by decide), State.rd_wr_same]
  exact Nat.mod_eq_of_lt hv

/-- The host interface is the same but for the Pending Bits, which an event's interrupt may set (R441). -/
def PendsOnly (s t : State) : Prop := ∃ p, t.hif = { s.hif with msixPending := p }

theorem PendsOnly.refl (s : State) : PendsOnly s s := ⟨s.hif.msixPending, rfl⟩

theorem PendsOnly.trans {u : State} (h₁ : PendsOnly s t) (h₂ : PendsOnly t u) : PendsOnly s u := by
  obtain ⟨p, h₁⟩ := h₁
  obtain ⟨q, h₂⟩ := h₂
  exact ⟨q, by rw [h₂, h₁]⟩

theorem PendsOnly.of_hif (h : t.hif = s.hif) : PendsOnly s t := ⟨s.hif.msixPending, h⟩

theorem pendsOnly_msix (fn vec : Nat) (s : State) : PendsOnly s (s.msix fn vec) := by
  unfold State.msix
  split
  · exact .refl s
  · exact ⟨_, rfl⟩

theorem pendsOnly_event (blk b : Nat) (s : State) : PendsOnly s (s.event blk b) := by
  have hset (v : Nat) : PendsOnly s (s.wr (evtBit blk b).1 [] v) := .of_hif (State.wr_hif_eq _ _ _ s)
  unfold State.event
  split
  · exact .refl s
  · dsimp only
    split <;> split
    · exact ((hset _).trans (pendsOnly_msix _ _ _)).trans ⟨_, rfl⟩
    · exact (hset _).trans ⟨_, rfl⟩
    · exact ((hset _).trans (pendsOnly_msix _ _ _)).trans ⟨_, rfl⟩
    · exact hset _

theorem State.waiting_event (blk b : Nat) (s : State) : (s.event blk b).hif.waiting = s.hif.waiting := by
  obtain ⟨p, hp⟩ := pendsOnly_event blk b s
  rw [hp]

/-- A hand-over ends: what changes with it beside what it shows, what it reports, and what was held back, of which there is
nothing. -/
theorem gives_handoverEnd {c : Instr} {v : Nat} {k : Sec} {l : List Fld} {u : State} (hexec : exec c s = clocked s u.runLater)
    (hstopped : s.stopped = false) (hv : v < 2 ^ 32) (hended : Changes l [.out, .hif, .sec] (s.handoverShown v) u)
    (hl : ∀ g ∈ l, R.SEC_FW_STATUS_running_version.num ≠ g.num ∧ R.SEC_FW_STATUS_handover_pending.num ≠ g.num)
    (hsec : u.sec = k) (hwaiting : u.hif.waiting = []) (hobjects : s.ras.objects = Map.empty) :
    Gives c s (fun t => t.sec = k ∧ t.rd R.SEC_FW_STATUS_running_version [] = v ∧
      t.on R.SEC_FW_STATUS_handover_pending [] = false ∧
      RegsBut (R.SEC_FW_STATUS_running_version :: R.SEC_FW_STATUS_handover_pending :: l) s t ∧
      PartsBut [.out, .hif, .sec, .ras] s t) := by
  have hstart := changes_handoverShown v s
  obtain ⟨hversion, hpending⟩ := s.rd_handoverShown hv
  have hnone : u.ras.objects = Map.empty := by
    rw [show u.ras = (s.handoverShown v).ras from hended.parts .ras (by decide),
      show (s.handoverShown v).ras = s.ras from hstart.parts .ras (by decide), hobjects]
  have hlater := changes_runLater hwaiting hnone
  have hkept : Changes l [.out, .hif, .sec] (s.handoverShown v) u.runLater := hended.trans (hlater.weaken (by simp))
  have hall := ((hstart.weaken (ps' := [.out, .hif, .sec, .ras]) (l' := R.SEC_FW_STATUS_running_version ::
    R.SEC_FW_STATUS_handover_pending :: l) (by simp)).trans (hkept.weaken (fun f hf => by simp [hf])))
  generalize u.runLater = w at *
  exact gives_clocked hexec hstopped ⟨(hlater.parts .sec (by decide)).trans hsec,
    (hkept.rd _ _ (by decide) (fun g hg => (hl g hg).1)).trans hversion,
    State.on_eq_false ((hkept.rd _ _ (by decide) (fun g hg => (hl g hg).2)).trans hpending), hall.after⟩

theorem version_lt (h : Nat) : Hd.version h < 2 ^ 32 := bitsOf_lt h (8 * 8 + 0) 32

/-- Step 3: the version is shown, and the Marionette has restarted. -/
def State.handoverOver (v : Nat) (s : State) : State :=
  let t := s.handoverShown v
  { t with sec := { t.sec with restarted := none } }

theorem exec_handoverDone {x : Nat × Nat × Nat} (hrestart : s.sec.restarted = some x) : exec .handoverDone s =
    clocked s (State.runLater (((s.handoverOver (Hd.version s.headNum)).bump R.SEC_CNT_count [8]).event B.sec 1)) := by
  change execHandoverDone s = _
  unfold execHandoverDone
  exact congrArg (clocked s) (if_neg (by simp [hrestart]))

theorem gives_handoverOver {c : Instr} {v : Nat} (hexec : exec c s =
    clocked s (State.runLater (((s.handoverOver v).bump R.SEC_CNT_count [8]).event B.sec 1)))
    (hstopped : s.stopped = false) (hv : v < 2 ^ 32) (hwaiting : s.hif.waiting = []) (hobjects : s.ras.objects = Map.empty) :
    Gives c s (fun t => t.sec = { s.sec with restarted := none } ∧
      t.rd R.SEC_FW_STATUS_running_version [] = v ∧ t.on R.SEC_FW_STATUS_handover_pending [] = false ∧
      RegsBut [R.SEC_FW_STATUS_running_version, R.SEC_FW_STATUS_handover_pending] s t ∧
      PartsBut [.out, .hif, .sec, .ras] s t) := by
  have hsec : (s.handoverOver v).sec = { s.sec with restarted := none } :=
    congrArg (fun k => ({ k with restarted := none } : Sec)) ((changes_handoverShown v s).parts .sec (by decide))
  have hhif : (s.handoverOver v).hif = s.hif := (changes_handoverShown v s).parts .hif (by decide)
  have hended : Changes [] [.out, .hif, .sec] (s.handoverShown v) (s.handoverOver v) := (changes_inSec _ _).weaken (by simp)
  have htold (u : State) : Told u ((u.bump R.SEC_CNT_count [8]).event B.sec 1) := ((Told.refl _).bump (by decide) _).event _ _
  refine gives_handoverEnd hexec hstopped hv (hended.told (htold _)) (by simp)
    (((htold _).parts .sec (by decide)).trans hsec) ?_ hobjects
  rw [State.waiting_event, State.bump_hif_eq, hhif, hwaiting]

theorem gives_handoverDone {x : Nat × Nat × Nat} (hstopped : s.stopped = false) (hrestart : s.sec.restarted = some x)
    (hwaiting : s.hif.waiting = []) (hobjects : s.ras.objects = Map.empty) :
    Gives .handoverDone s (fun t => t.sec = { s.sec with restarted := none } ∧
      t.rd R.SEC_FW_STATUS_running_version [] = Hd.version s.headNum ∧ t.on R.SEC_FW_STATUS_handover_pending [] = false ∧
      RegsBut [R.SEC_FW_STATUS_running_version, R.SEC_FW_STATUS_handover_pending] s t ∧
      PartsBut [.out, .hif, .sec, .ras] s t) :=
  gives_handoverOver (exec_handoverDone hrestart) hstopped (version_lt _) hwaiting hobjects

theorem gives_handoverTimeout {x y v : Nat} (hstopped : s.stopped = false) (hrestart : s.sec.restarted = some (x, y, v))
    (hlate : x + 10000000 ≤ s.now) (hwaiting : s.hif.waiting = []) (hobjects : s.ras.objects = Map.empty) (hv : v < 2 ^ 32) :
    Gives .handoverTimeout s (fun t => t.sec = { s.sec with restarted := none, running := y } ∧
      t.rd R.SEC_FW_STATUS_running_version [] = v ∧ t.on R.SEC_FW_STATUS_handover_pending [] = false ∧
      RegsBut [R.SEC_FW_STATUS_running_version, R.SEC_FW_STATUS_handover_pending, R.SEC_MEAS_bytes] s t ∧
      PartsBut [.out, .hif, .sec, .ras] s t) := by
  have hextended := changes_extendMs 5 y (s.handoverShown v)
  have hsec : ((s.handoverShown v).extendMs 5 y).sec = s.sec :=
    (hextended.parts .sec (by decide)).trans ((changes_handoverShown _ s).parts .sec (by decide))
  have hhif : ((s.handoverShown v).extendMs 5 y).hif = s.hif :=
    (hextended.parts .hif (by decide)).trans ((changes_handoverShown _ s).parts .hif (by decide))
  have hexec : exec .handoverTimeout s = clocked s (State.runLater (State.event B.sec 2
      { (s.handoverShown v).extendMs 5 y with sec := { s.sec with restarted := none, running := y } })) := by
    change execHandoverTimeout s = _
    unfold execHandoverTimeout
    rw [hrestart, ← hsec]
    exact congrArg (clocked s) (if_neg (by omega))
  have hended := (hextended.weaken (l' := [R.SEC_MEAS_bytes]) (ps' := [.out, .hif, .sec]) (by simp)).trans
    ((changes_inSec { s.sec with restarted := none, running := y } _).weaken (by simp))
  have htold (u : State) : Told u (u.event B.sec 2) := (Told.refl _).event _ _
  refine gives_handoverEnd hexec hstopped hv (hended.told (htold _)) (by decide)
    ((htold _).parts .sec (by decide)) ?_ hobjects
  rw [State.waiting_event]
  exact (congrArg Hif.waiting hhif).trans hwaiting

theorem gives_handoverTimeout_early {x y v : Nat} (hrestart : s.sec.restarted = some (x, y, v)) (hearly : s.now < x + 10000000) :
    Gives .handoverTimeout s (fun t => RegsBut [] s t ∧ PartsBut [] s t) := by
  refine gives_idle ?_
  change execHandoverTimeout s = _
  unfold execHandoverTimeout
  rw [hrestart]
  exact congrArg (clocked s) (if_pos hearly)

/-! ### The record, the endorsement and debug (R383, R384, R393) -/

/-- A request to write an area of the flash. -/
theorem gives_areaWrite {c : Instr} {op a n : Nat} {b : List Byte} {put : State → Status × State} (h : Mails s 0)
    (hexec : exec c s = clocked s (s.mailed 0 op [] b put)) (hput : put s = (.ok, s.flashWrite a n b)) :
    Gives c s (fun t => Replied 0 .ok s t ∧ t.flash = (s.flashWrite a n b).flash ∧ RegsBut replyFields s t ∧
      PartsBut [.out, .hif, .flash] s t) :=
  gives_mailed h hexec hput (fun _ hmail hreplied => ⟨hreplied, hmail.parts .flash (by decide),
    (((changes_flashWrite a n b s).weaken (by simp)).trans (hmail.weaken (fun _ hf => hf))).after⟩)

theorem gives_configWrite {b : List Byte} (h : Mails s 0) (hlength : b.length ≤ 2 ^ 20) :
    Gives (.configWrite 0 b) s (fun t => Replied 0 .ok s t ∧ t.flash = (s.flashWrite Fl.config (2 ^ 20) b).flash ∧
      RegsBut replyFields s t ∧ PartsBut [.out, .hif, .flash] s t) :=
  gives_areaWrite (put := fun t => pfOnly 0 t (t.configWrite b)) h rfl (if_neg (Nat.not_lt.mpr hlength))

theorem gives_endorseWrite {b : List Byte} (h : Mails s 0) (hlength : b.length ≤ 65536) :
    Gives (.endorseWrite 0 b) s (fun t => Replied 0 .ok s t ∧ t.flash = (s.flashWrite Fl.endorse 65536 b).flash ∧
      RegsBut replyFields s t ∧ PartsBut [.out, .hif, .flash] s t) :=
  gives_areaWrite (put := fun t => pfOnly 0 t (t.endorseWrite b)) h rfl (if_neg (Nat.not_lt.mpr hlength))

/-- A debug attempt draws a new nonce, whatever its outcome. -/
theorem State.debugAuth_cases (b : List Byte) (s : State) :
    Changes [R.SEC_MEAS_bytes, R.DBG_AUTH_STATUS_open] [.fresh, .out, .hif, .sec] s (s.debugAuth b).2 ∧
    (s.debugAuth b).2.sec.nonce = s.fresh ∧ (s.debugAuth b).2.fresh = s.fresh + 1 := by
  have hdrawn (k : Sec) : Changes [R.SEC_MEAS_bytes, R.DBG_AUTH_STATUS_open] [.fresh, .out, .hif, .sec] s
      { s.drew with sec := k } := ((changes_drew s).weaken (by simp)).trans ((changes_inSec k _).weaken (by simp))
  unfold State.debugAuth
  extract_lets body x good u k t
  split
  · have hopen : Changes [R.SEC_MEAS_bytes, R.DBG_AUTH_STATUS_open] [] t
        ((t.extendMs 4 (sha b)).wr R.DBG_AUTH_STATUS_open [] (t.rd R.DBG_AUTH_STATUS_open [] ||| fieldOf x 48 0 32)) :=
      ((changes_extendMs _ _ _).weaken (by simp)).wr (f := R.DBG_AUTH_STATUS_open) (by simp) _ _
    have htold (w : State) : Told w (w.event B.sec 5) := (Told.refl _).event _ _
    exact ⟨((hdrawn _).trans (hopen.weaken (by simp))).told (htold _),
      (congrArg Sec.nonce ((htold _).parts .sec (by decide))).trans (congrArg Sec.nonce (hopen.parts .sec (by decide))),
      ((htold _).parts .fresh (by decide)).trans (hopen.parts .fresh (by decide))⟩
  · exact ⟨hdrawn _, rfl, rfl⟩

theorem gives_debugAuth {b : List Byte} (h : Mails s 0) (hfrozen : s.pkg.frozen = false) :
    Gives (.debugAuth 0 b) s (fun t => t.sec.nonce = s.fresh ∧ t.fresh = s.fresh + 1 ∧
      t.rd R.MRN_REPLY_HDR_seq [0] = s.nextMail 0 ∧ RegsBut [R.SEC_MEAS_bytes, R.DBG_AUTH_STATUS_open,
      R.MRN_REPLY_HDR_status, R.MRN_REPLY_HDR_seq, R.MRN_REPLY_HDR_length, R.MRN_BUSY_pending] s t ∧
      PartsBut [.fresh, .out, .hif, .sec] s t) := by
  have hexec : exec (.debugAuth 0 b) s = clocked s (s.mailed 0 Op.debugAuth [] b (fun t => pfOnly 0 t (t.debugAuth b))) := by
    change execDebugAuth 0 b s = _
    rw [execDebugAuth, hfrozen, h.1, clocked, h.1]
    rfl
  obtain ⟨hchanges, hnonce, hfresh⟩ := s.debugAuth_cases b
  have hcmd : pfOnly 0 s (s.debugAuth b) = ((s.debugAuth b).1, (s.debugAuth b).2) := if_pos rfl
  exact gives_mailed h hexec hcmd (fun u hmail hreplied =>
    ⟨(congrArg Sec.nonce (hmail.parts .sec (by decide))).trans hnonce, (hmail.parts .fresh (by decide)).trans hfresh,
      hreplied.2.1, ((hchanges.weaken (by simp)).trans (hmail.weaken (by simp [replyFields]))).after⟩)

/-! ### Program images (R249) -/

theorem changes_images (m : Map Image) (s : State) : Changes [] [.images] s { s with images := m } :=
  changes_of_parts rfl (fun p hp => by cases p <;> first | rfl | exact absurd (by decide) hp)

theorem State.imageLoad_eq {k i : Nat} {b : List Byte} (hact : mayAct fn k = true) (htenant : s.tenantActive k = true)
    (hready : s.isReady B.cmp = true) (hstore : s.storeReady = true) (hfree : s.images.has [k, i] = false)
    (hroom : s.loadedBytes k + (b.length - 64) ≤ 262144) : s.imageLoad fn k i b =
      (if imageOk i b then (.ok, { s with images := s.images.set [k, i] { code := codeWords (b.drop 64), digest := sha (b.drop 64) } })
        else (.unsupported, s)) := by
  rw [State.imageLoad, if_neg (by simp [hact, htenant])]
  cases imageOk i b with
  | false => rfl
  | true => 
    rw [if_neg (by simp), if_neg (by simp [hready, hstore, hfree]), if_neg (by omega)]
    rfl

/-- A request about the images, in its effect and reply. -/
theorem gives_imageCommand {c : Instr} {op : Nat} {operands bulk : List Byte} {f : State → Status × State} {st : Status}
    {m : Map Image} (h : Mails s fn) (hexec : exec c s = clocked s (s.mailed fn op operands bulk f))
    (hcmd : f s = (st, { s with images := m })) :
    Gives c s (fun t => t.images = m ∧ Replied fn st s t ∧ RegsBut replyFields s t ∧ PartsBut [.out, .hif, .images] s t) :=
  gives_mailed h hexec hcmd (fun _ hmail hreplied => ⟨hmail.parts .images (by decide), hreplied,
    (((changes_images m s).weaken (by simp)).trans (hmail.weaken (fun _ hf => hf))).after⟩)

theorem gives_imageLoad {k i : Nat} {b : List Byte} (h : Mails s fn) (hact : mayAct fn k = true)
    (htenant : s.tenantActive k = true) (hready : s.isReady B.cmp = true) (hstore : s.storeReady = true)
    (hfree : s.images.has [k, i] = false) (hroom : s.loadedBytes k + (b.length - 64) ≤ 262144) :
    Gives (.imageLoad fn k i b) s (fun t => (t.images = if imageOk i b then
        s.images.set [k, i] { code := codeWords (b.drop 64), digest := sha (b.drop 64) } else s.images) ∧
      Replied fn (if imageOk i b then .ok else .unsupported) s t ∧ RegsBut replyFields s t ∧ PartsBut [.out, .hif, .images] s t) := by
  refine gives_imageCommand (f := fun t => t.imageLoad fn k i b) h rfl ?_
  rw [State.imageLoad_eq hact htenant hready hstore hfree hroom]
  split <;> rfl

theorem gives_imageUnload {k i : Nat} (h : Mails s fn) (hact : mayAct fn k = true) (hready : s.isReady B.cmp = true)
    (hunused : s.imageUsed k i = false) :
    Gives (.imageUnload fn k i) s (fun t => t.images.has [k, i] = false ∧
      (∀ a b, (a ≠ k ∨ b ≠ i) → t.images.get? [a, b] = s.images.get? [a, b]) ∧ Replied fn .ok s t ∧
      RegsBut replyFields s t ∧ PartsBut [.out, .hif, .images] s t) := by
  have hcmd : s.imageUnload fn k i = (.ok, { s with images := s.images.erase [k, i] }) := by
    rw [State.imageUnload, if_neg (by simp [hact]), if_neg (by simp [hready, hunused])]
  obtain ⟨t, hexec, himages, hrest⟩ := gives_imageCommand (f := fun t => t.imageUnload fn k i) (c := .imageUnload fn k i) h rfl hcmd
  refine ⟨t, hexec, ?_, fun a b hne => ?_, hrest⟩
  · rw [himages]
    simp
  · rw [himages]
    exact Map.get?_erase_other _ (by simp only [ne_eq, List.cons.injEq, and_true]; tauto)

theorem gives_imageUnload_used {k i : Nat} (h : Mails s fn) (hact : mayAct fn k = true) (hused : s.imageUsed k i = true) :
    Gives (.imageUnload fn k i) s (fun t => Replied fn .retry s t ∧ RegsBut replyFields s t ∧ PartsBut [.out, .hif] s t) := by
  refine gives_mailed_only (f := fun t => t.imageUnload fn k i) h rfl ?_
  rw [State.imageUnload, if_neg (by simp [hact]), if_pos (by simp [hused])]

theorem gives_fwWrite_other {image : List Byte} (h : Mails s fn) (hfn : fn ≠ 0) :
    Gives (.fwWrite fn image) s (fun t => Replied fn .protViolation s t ∧ RegsBut replyFields s t ∧ PartsBut [.out, .hif] s t) :=
  gives_mailed_only (f := fun t => pfOnly fn t (if t.fwBusy then (.retry, t) else t.fwWrite image)) h rfl (if_neg hfn)

/-- Settles O44: the boot ROM settles the stage and the measurement of itself before either outcome; a request of the
Marionette is its effect, then its reply. -/
theorem bootAndFirmware : Obligations.BootAndFirmware :=
  fun _ => ⟨gives_bootCheckDone, fun _ => gives_bootCheckDone_again, gives_poolBringup, gives_fwPush, gives_fwWrite,
    fun _ _ => gives_fwWrite_other, fun _ => gives_fwHandover, gives_handover,
    fun _ hstopped hrestart hwaiting _ => gives_handoverDone hstopped hrestart hwaiting,
    fun _ _ _ hstopped hrestart hlate hwaiting _ => gives_handoverTimeout hstopped hrestart hlate hwaiting,
    fun _ _ _ => gives_handoverTimeout_early, fun _ => gives_configWrite, fun _ => gives_endorseWrite, fun _ => gives_debugAuth,
    fun _ _ _ _ => gives_imageLoad, fun _ _ _ => gives_imageUnload, fun _ _ _ h hact _ => gives_imageUnload_used h hact⟩

end Sys2Proof.Machine
end

section
/-! PROOF. The mailbox's requests and Rest (R447 to R453). -/

namespace Sys2Proof.Machine

-- One proof after another: proofs under way at once are more threads than one process has memory for.
set_option Elab.async false

open Sys2Proof.Safety

variable {s t : State} {fn : Nat}

/-! ### Requests that the Marionette takes (R452) -/

/-- A request stands in its function's mailbox, which is busy. -/
def State.mailHeld (fn : Nat) (q : MReq) (s : State) : State :=
  State.setBusyBit fn true { s with hif := { s.hif with mbox := s.hif.mbox.set [fn] q } }

theorem changes_mailHeld (fn : Nat) (q : MReq) (s : State) : Changes [R.MRN_BUSY_pending] [.hif] s (s.mailHeld fn q) :=
  ((changes_inHif _ s).weaken (by simp)).trans ((changes_setBusyBit fn true _).weaken (by simp))

theorem State.hif_mailHeld (fn : Nat) (q : MReq) (s : State) :
    (s.mailHeld fn q).hif = { s.hif with mbox := s.hif.mbox.set [fn] q } := State.hif_setBusyBit _ _ _

theorem State.mailTake_of_mails (h : Mails s fn) (seq op : Nat) (operands bulk : List Byte) : s.mailTake fn seq op operands bulk =
    (s.mailHeld fn { seq := seq, op := op, operands := operands, bulk := bulk }).runMail fn := by
  obtain ⟨-, hexpelled, -, hfirmware, hrestart, -⟩ := h
  have hsec (q : MReq) : (s.mailHeld fn q).sec.restarted = none := by
    rw [show (s.mailHeld fn q).sec = s.sec from (changes_mailHeld fn q s).parts .sec (by decide), hrestart]
  unfold State.mailTake
  rw [if_neg (by simp [hexpelled]), if_neg (by simp [hfirmware])]
  exact if_neg (by rw [← State.mailHeld, hsec]; decide)

/-- The mailbox of a function without its request. -/
def State.mailGone (fn : Nat) (s : State) : State := { s with hif := { s.hif with mbox := s.hif.mbox.erase [fn] } }

theorem changes_mailGone (fn : Nat) (s : State) : Changes [] [.hif] s (s.mailGone fn) := changes_inHif _ s

theorem State.runMail_of_done {q : MReq} {st : Status} {data : List Byte} (hq : s.hif.mbox.get? [fn] = some q) (hfn : fn < 32)
    (hop : s.mailOp fn q = (some st, data, t)) : s.runMail fn = (t.mailGone fn).mailReply fn q.seq st data := by
  unfold State.runMail
  simp only [hq, Nat.mod_eq_of_lt hfn, hop, if_pos hfn]
  rfl

theorem State.runMail_of_waiting {q : MReq} {data : List Byte} (hq : s.hif.mbox.get? [fn] = some q) (hfn : fn < 32)
    (hop : s.mailOp fn q = (none, data, t)) : s.runMail fn = t := by
  unfold State.runMail
  simp only [hq, Nat.mod_eq_of_lt hfn, hop, if_pos hfn]

/-- A request that is carried out at once: its effect `t`, its mailbox free, and its reply. -/
theorem State.mailTake_of_done {seq op : Nat} {operands bulk data : List Byte} {st : Status} (h : Mails s fn)
    (hop : (s.mailHeld fn { seq := seq, op := op, operands := operands, bulk := bulk }).mailOp fn
      { seq := seq, op := op, operands := operands, bulk := bulk } = (some st, data, t)) :
    s.mailTake fn seq op operands bulk = (t.mailGone fn).mailReply fn seq st data := by
  rw [State.mailTake_of_mails h, State.runMail_of_done ?_ h.2.2.2.2.2 hop]
  rw [State.hif_mailHeld]
  exact Map.get?_set_same _ _ _

theorem State.wakeUp_of_awake (h : s.resting = false) (cause : Nat) : s.wakeUp cause = s := if_pos (by simp [h])

theorem State.mailDoorbell_busy (hbox : s.hif.mbox.has [fn] = true) (q : Nat) (b : List Byte) :
    s.mailDoorbell fn q b = (s.event B.mrn 0).badWrite R.MRN_DOORBELL_seq [fn] := if_pos (.inl hbox)

theorem pendsOnly_contained (at_ blk : Nat) (st : Status) (source info : Nat) (s : State) :
    PendsOnly s (s.contained at_ blk st source info) := by
  have hbump : PendsOnly s (s.bump R.RAS_CNT_count [1]) := .of_hif (State.bump_hif_eq _ _ s)
  refine .trans (hbump.trans ?_) (pendsOnly_event _ _ _)
  unfold State.ringPut
  dsimp only
  split
  · exact (PendsOnly.of_hif (State.bump_hif_eq _ _ _)).trans (pendsOnly_event _ _ _)
  · exact .of_hif (by simp)

theorem pendsOnly_badWrite (f : Fld) (ix : List Nat) (s : State) : PendsOnly s (s.badWrite f ix) := by
  refine .trans (.trans ?_ (pendsOnly_contained _ _ _ _ _ _)) (pendsOnly_event _ _ _)
  split
  · exact .refl s
  · exact .of_hif (by simp)

/-- A doorbell that is told of, and changes no request. -/
theorem gives_told_mbox {c : Instr} (h : Runs s) (hexec : exec c s = clocked s t) (htold : Told s t)
    (hmbox : t.hif.mbox = s.hif.mbox) :
    Gives c s (fun t => t.hif.mbox = s.hif.mbox ∧ t.rd R.MRN_REPLY_HDR_seq [fn] = s.rd R.MRN_REPLY_HDR_seq [fn] ∧
      RegsBut [] s t ∧ PartsBut reporting s t) :=
  gives_clocked hexec h ⟨hmbox, htold.regs _ _ (by decide), ((Changes.refl [] reporting s).told htold).after⟩

/-- A request that waits in its mailbox is an error of the doorbell. -/
theorem gives_mailboxDoorbell_busy (h : Runs s) {q : Nat} {b : List Byte} (hfn : fn < 32) (hawake : s.resting = false)
    (hbox : s.hif.mbox.has [fn] = true) :
    Gives (.mailboxDoorbell fn q b) s (fun t => t.hif.mbox = s.hif.mbox ∧
      t.rd R.MRN_REPLY_HDR_seq [fn] = s.rd R.MRN_REPLY_HDR_seq [fn] ∧ RegsBut [] s t ∧ PartsBut reporting s t) := by
  have hdone : (s.wakeUp 2).mailDoorbell fn q b = (s.event B.mrn 0).badWrite R.MRN_DOORBELL_seq [fn] := by
    rw [State.wakeUp_of_awake hawake, State.mailDoorbell_busy hbox]
  refine gives_told_mbox h (congrArg (clocked s) ((if_pos hfn).trans hdone)) (((Told.refl s).event _ _).badWrite _ _) ?_
  obtain ⟨p, hp⟩ := (pendsOnly_event B.mrn 0 s).trans (pendsOnly_badWrite R.MRN_DOORBELL_seq [fn] _)
  rw [hp]

/-! ### Rest (R447 to R449) -/

/-- Rest is refused: the state and the result say so. -/
def State.restRetry (s : State) : State :=
  (s.wr R.PWR_REST_STATUS_state [] 0).wr R.PWR_REST_STATUS_result [] Status.retry.code

theorem told_restRefused (s : State) : Told s.restRetry s.restRefused := ((Told.refl _).bump (by decide) _).event _ _

theorem changes_restRefused (s : State) :
    Changes [R.PWR_REST_STATUS_state, R.PWR_REST_STATUS_result] reporting s s.restRefused :=
  (((changes_wr _ _ _ s).weaken (by simp)).wr (f := R.PWR_REST_STATUS_result) (by simp) _ _).told (told_restRefused s)

theorem State.rd_restRefused (s : State) : s.restRefused.rd R.PWR_REST_STATUS_state [] = 0 ∧
    s.restRefused.rd R.PWR_REST_STATUS_result [] = Status.retry.code := by
  refine ⟨((told_restRefused s).regs _ _ (by decide)).trans ?_, ((told_restRefused s).regs _ _ (by decide)).trans ?_⟩
  · rw [State.restRetry, State.rd_wr_num _ _ _ _ (by decide), State.rd_wr_same]
    rfl
  · rw [State.restRetry, State.rd_wr_same]
    rfl

/-- The write of PWR_REST_CTL that enables the wake beat. -/
def State.wakeEnabled (v : Nat) (s : State) : State := s.wr R.PWR_REST_CTL_wake_en [] (bitsOf v 1 1)

theorem changes_wakeEnabled (v : Nat) (s : State) : Changes [R.PWR_REST_CTL_wake_en] [] s (s.wakeEnabled v) := changes_wr _ _ _ s

theorem State.rd_wakeEnabled (v : Nat) (s : State) : (s.wakeEnabled v).rd R.PWR_REST_CTL_wake_en [] = bitsOf v 1 1 :=
  (State.rd_wr_same _ _ _ s).trans (Nat.mod_eq_of_lt (bitsOf_lt v 1 1))

/-- Rest awaits its beat. -/
def State.restAwaits (b : Nat) (s : State) : State :=
  State.wr R.PWR_REST_STATUS_state [] 1 { s with pkg := { s.pkg with restAt := some (launchBeat b s.beat) } }

theorem changes_restAwaits (b : Nat) (s : State) : Changes [R.PWR_REST_STATUS_state] [.pkg] s (s.restAwaits b) :=
  ((changes_inPkg _ s).weaken (by simp)).trans ((changes_wr _ _ _ _).weaken (by simp))

theorem State.noLaunch_of_tst (h : t.tst = s.tst) : t.noLaunch = s.noLaunch := by
  rw [State.noLaunch, State.timeless, h, State.noLaunch, State.timeless]

theorem State.beat_of_tim (h : t.tim = s.tim) : t.beat = s.beat := by rw [State.beat, State.ftHub, h, State.beat, State.ftHub]

theorem State.restRequest_eq {v : Nat} (hrest : bitAt v 0 = true) (hwake : bitAt v 2 = false)
    (hstate : s.rd R.PWR_REST_STATUS_state [] = 0) : s.restRequest v =
      (if ¬ s.isReady B.pwr = true ∨ s.noLaunch = true then (s.wakeEnabled v).restRefused
      else State.lateIf (s.rd R.PWR_REST_enter_beat []) s.beat ((s.wakeEnabled v).restAwaits (s.rd R.PWR_REST_enter_beat []))) := by
  have hchanges := changes_wakeEnabled v s
  have hready : (s.wakeEnabled v).isReady B.pwr = s.isReady B.pwr := by
    rw [State.isReady, hchanges.rd R.GLB_READY_ready [], State.isReady]
  have hbeat : (s.wakeEnabled v).beat = s.beat := State.beat_of_tim (hchanges.parts .tim (by decide))
  rw [State.restRequest, hwake]
  change (if bitAt v 0 = true ∧ (s.wakeEnabled v).rd R.PWR_REST_STATUS_state [] = 0 then
    if ¬ (s.wakeEnabled v).isReady B.pwr = true ∨ (s.wakeEnabled v).noLaunch = true then (s.wakeEnabled v).restRefused
    else State.lateIf ((s.wakeEnabled v).rd R.PWR_REST_enter_beat []) (s.wakeEnabled v).beat
      ((s.wakeEnabled v).restAwaits ((s.wakeEnabled v).rd R.PWR_REST_enter_beat [])) else _) = _
  rw [hchanges.rd R.PWR_REST_STATUS_state [], if_pos ⟨hrest, hstate⟩, hready, hbeat, hchanges.rd R.PWR_REST_enter_beat [],
    State.noLaunch_of_tst (hchanges.rd R.TIM_STATUS_state [])]

theorem gives_restRequest (h : Runs s) {v : Nat} (hrest : bitAt v 0 = true) (hwake : bitAt v 2 = false)
    (hstate : s.rd R.PWR_REST_STATUS_state [] = 0) (hready : s.isReady B.pwr = true) (hlaunch : s.noLaunch = false) :
    Gives (.restRequest v) s (fun t => t.rd R.PWR_REST_STATUS_state [] = 1 ∧ t.rd R.PWR_REST_CTL_wake_en [] = bitsOf v 1 1 ∧
      t.pkg = { s.pkg with restAt := some (launchBeat (s.rd R.PWR_REST_enter_beat []) s.beat) } ∧
      RegsBut [R.PWR_REST_CTL_wake_en, R.PWR_REST_STATUS_state, R.TIM_LATE_COUNT_count] s t ∧ PartsBut [.out, .hif, .pkg] s t) := by
  have hexec : exec (.restRequest v) s = clocked s _ := congrArg (clocked s) ((State.restRequest_eq hrest hwake hstate).trans
    (if_neg (by simp [hready, hlaunch])))
  generalize s.rd R.PWR_REST_enter_beat [] = b at *
  have hset := changes_wakeEnabled v s
  have hawaits := changes_restAwaits b (s.wakeEnabled v)
  have htold : Told ((s.wakeEnabled v).restAwaits b) (State.lateIf b s.beat ((s.wakeEnabled v).restAwaits b)) :=
    (Told.refl _).lateIf _ _
  have hpkg : ((s.wakeEnabled v).restAwaits b).pkg = { s.pkg with restAt := some (launchBeat b s.beat) } := by
    rw [State.restAwaits, State.wr_pkg_eq, State.beat_of_tim (s := s) (hset.parts .tim (by decide)),
      show (s.wakeEnabled v).pkg = s.pkg from hset.parts .pkg (by decide)]
  have hall := ((hset.weaken (l' := [R.PWR_REST_CTL_wake_en, R.PWR_REST_STATUS_state, R.TIM_LATE_COUNT_count])
    (ps' := [.out, .hif, .pkg]) (by simp)).trans (hawaits.weaken (by simp))).told htold
  have hstate' : ((s.wakeEnabled v).restAwaits b).rd R.PWR_REST_STATUS_state [] = 1 := State.rd_wr_same _ _ _ _
  have henabled := (hawaits.rd R.PWR_REST_CTL_wake_en []).trans (s.rd_wakeEnabled v)
  exact gives_clocked hexec h ⟨(State.rd_after s _ _ _).trans ((htold.regs _ _ (by decide)).trans hstate'),
    (State.rd_after s _ _ _).trans ((htold.regs _ _ (by decide)).trans henabled),
    (State.after_pkg_eq s _).trans (htold.pkg_eq.trans hpkg), hall.after⟩

theorem gives_restRequest_refused (h : Runs s) {v : Nat} (hrest : bitAt v 0 = true) (hwake : bitAt v 2 = false)
    (hstate : s.rd R.PWR_REST_STATUS_state [] = 0) (hlaunch : s.noLaunch = true) :
    Gives (.restRequest v) s (fun t => t.rd R.PWR_REST_STATUS_state [] = 0 ∧
      t.rd R.PWR_REST_STATUS_result [] = Status.retry.code ∧ RegsBut [R.PWR_REST_CTL_wake_en, R.PWR_REST_STATUS_state,
      R.PWR_REST_STATUS_result] s t ∧ PartsBut reporting s t) := by
  have hexec : exec (.restRequest v) s = clocked s _ := congrArg (clocked s) ((State.restRequest_eq hrest hwake hstate).trans
    (if_pos (.inr hlaunch)))
  obtain ⟨hcleared, hresult⟩ := (s.wakeEnabled v).rd_restRefused
  exact gives_clocked hexec h ⟨hcleared, hresult, (((changes_wakeEnabled v s).weaken (by simp)).trans
    ((changes_restRefused _).weaken (by simp))).after⟩

/-- The beat of Rest has come: nothing awaits it any more. -/
def State.restDue (s : State) : State := { s with pkg := { s.pkg with restAt := none } }

/-- Rest is entered. -/
def State.restEntered (s : State) : State :=
  (((s.wr R.PWR_REST_STATUS_state [] 2).wr R.PWR_REST_STATUS_result [] Status.ok.code).bump R.PWR_CNT_count [4]).event B.pwr 3

theorem exec_restEntry {b : Nat} (hat : s.pkg.restAt = some b) (hfatal : s.pkg.fatal = false) (hbeat : ahead b s.beat = false) :
    exec .restEntry s = clocked s (if s.restDue.mayRest = true ∧ ¬ s.restDue.noLaunch = true then s.restDue.restEntered
      else s.restDue.restRefused) := by
  change execRestEntry s = _
  rw [execRestEntry, hat]
  exact congrArg (clocked s) (if_neg (by simp [hfatal, hbeat]))

theorem State.mayRest_restDue (s : State) : s.restDue.mayRest = s.mayRest := rfl

theorem gives_restEntry (h : Runs s) {b : Nat} (hat : s.pkg.restAt = some b) (hfatal : s.pkg.fatal = false)
    (hbeat : ahead b s.beat = false) (hlaunch : s.noLaunch = false) (hmay : s.mayRest = true) :
    Gives .restEntry s (fun t => t.resting = true ∧ t.rd R.PWR_REST_STATUS_result [] = Status.ok.code ∧
      RegsBut [R.PWR_REST_STATUS_state, R.PWR_REST_STATUS_result] s t ∧ PartsBut [.out, .hif, .pkg] s t) := by
  have hexec := exec_restEntry hat hfatal hbeat
  rw [State.mayRest_restDue, if_pos ⟨hmay, by rw [show s.restDue.noLaunch = s.noLaunch from rfl, hlaunch]; decide⟩] at hexec
  have htold : Told ((s.restDue.wr R.PWR_REST_STATUS_state [] 2).wr R.PWR_REST_STATUS_result [] Status.ok.code)
    s.restDue.restEntered := ((Told.refl _).bump (by decide) _).event _ _
  have hentered : s.restDue.restEntered.rd R.PWR_REST_STATUS_state [] = 2 := by
    rw [htold.regs _ _ (by decide), State.rd_wr_num _ _ _ _ (by decide), State.rd_wr_same]
    rfl
  have hall := (((changes_inPkg { s.pkg with restAt := none } s).weaken (l' := [R.PWR_REST_STATUS_state, R.PWR_REST_STATUS_result])
    (ps' := [.out, .hif, .pkg]) (by simp)).wr (f := R.PWR_REST_STATUS_state) (by simp) [] 2).wr
    (f := R.PWR_REST_STATUS_result) (by simp) [] Status.ok.code
  exact gives_clocked hexec h ⟨decide_eq_true hentered, (htold.regs _ _ (by decide)).trans (State.rd_wr_same _ _ _ _),
    (hall.told htold).after⟩

theorem gives_restEntry_refused (h : Runs s) {b : Nat} (hat : s.pkg.restAt = some b) (hfatal : s.pkg.fatal = false)
    (hbeat : ahead b s.beat = false) (hmay : s.mayRest = false) :
    Gives .restEntry s (fun t => t.rd R.PWR_REST_STATUS_state [] = 0 ∧ t.rd R.PWR_REST_STATUS_result [] = Status.retry.code ∧
      RegsBut [R.PWR_REST_STATUS_state, R.PWR_REST_STATUS_result] s t ∧ PartsBut [.out, .hif, .pkg] s t) := by
  have hexec := exec_restEntry hat hfatal hbeat
  rw [State.mayRest_restDue, if_neg (by simp [hmay])] at hexec
  obtain ⟨hcleared, hresult⟩ := s.restDue.rd_restRefused
  exact gives_clocked hexec h ⟨hcleared, hresult, (((changes_inPkg _ s).weaken (by simp)).trans
    ((changes_restRefused _).weaken (fun _ hf => hf))).after⟩

/-- Clocks return; with no port enabled, none retrains. -/
theorem State.wakeUp_noPorts {c : Nat} (hrest : s.resting = true)
    (hports : (List.range 256).all (fun p => !s.on R.PRT_PORT_CTL_enable [p]) = true) :
    s.wakeUp c = (s.wr R.PWR_REST_STATUS_state [] 3).wr R.PWR_REST_STATUS_cause [] c := by
  have hnone : (List.range 256).filter (fun p =>
      ((s.wr R.PWR_REST_STATUS_state [] 3).wr R.PWR_REST_STATUS_cause [] c).on R.PRT_PORT_CTL_enable [p]) = [] := by
    refine List.filter_eq_nil_iff.mpr (fun p hp => ?_)
    rw [State.on, State.rd_wr_num _ _ _ _ (by decide), State.rd_wr_num _ _ _ _ (by decide)]
    simpa [State.on] using List.all_eq_true.mp hports p hp
  rw [State.wakeUp, if_neg (by simp [hrest])]
  dsimp only
  rw [hnone]
  rfl

theorem gives_wakeUp {c : Instr} {k : Nat} (h : Runs s) (hexec : exec c s = clocked s (s.wakeUp k)) (hk : k < 8)
    (hrest : s.resting = true) (hports : (List.range 256).all (fun p => !s.on R.PRT_PORT_CTL_enable [p]) = true) :
    Gives c s (fun t => t.rd R.PWR_REST_STATUS_state [] = 3 ∧ t.rd R.PWR_REST_STATUS_cause [] = k ∧ t.mem = s.mem ∧
      RegsBut [R.PWR_REST_STATUS_state, R.PWR_REST_STATUS_cause] s t ∧ PartsBut [] s t) := by
  rw [State.wakeUp_noPorts hrest hports] at hexec
  have hall : Changes [R.PWR_REST_STATUS_state, R.PWR_REST_STATUS_cause] [] s
      ((s.wr R.PWR_REST_STATUS_state [] 3).wr R.PWR_REST_STATUS_cause [] k) :=
    ((changes_wr _ _ _ s).weaken (by simp)).wr (f := R.PWR_REST_STATUS_cause) (by simp) _ _
  refine gives_clocked hexec h ⟨?_, (State.rd_wr_same _ _ _ _).trans (Nat.mod_eq_of_lt hk), hall.parts .mem (by simp), hall.after⟩
  exact (State.rd_wr_num _ _ _ _ (by decide)).trans (State.rd_wr_same _ _ _ _)

theorem gives_wake (h : Runs s) {c : Nat} (hrest : s.resting = true) (hc : c = 1 ∨ c = 2)
    (hports : (List.range 256).all (fun p => !s.on R.PRT_PORT_CTL_enable [p]) = true) :
    Gives (.wake c) s (fun t => t.rd R.PWR_REST_STATUS_state [] = 3 ∧ t.rd R.PWR_REST_STATUS_cause [] = c ∧ t.mem = s.mem ∧
      RegsBut [R.PWR_REST_STATUS_state, R.PWR_REST_STATUS_cause] s t ∧ PartsBut [] s t) := by
  rcases hc with rfl | rfl
  · exact gives_wakeUp h rfl (by decide) hrest hports
  · exact gives_wakeUp h rfl (by decide) hrest hports

/-- A part that is awake is not woken. -/
theorem gives_wake_awake {c : Nat} (hawake : s.resting = false) : Gives (.wake c) s (fun t => RegsBut [] s t ∧ PartsBut [] s t) := by
  refine gives_idle (congrArg (clocked s) ?_)
  split <;> simp [State.wakeUp_of_awake hawake]

theorem gives_i3cWake (h : Runs s) (hrest : s.resting = true)
    (hports : (List.range 256).all (fun p => !s.on R.PRT_PORT_CTL_enable [p]) = true) :
    Gives .i3cWake s (fun t => t.rd R.PWR_REST_STATUS_state [] = 3 ∧ t.rd R.PWR_REST_STATUS_cause [] = 4 ∧
      RegsBut [R.PWR_REST_STATUS_state, R.PWR_REST_STATUS_cause] s t ∧ PartsBut [] s t) := by
  obtain ⟨t, hexec, hstate, hcause, -, hframe⟩ := gives_wakeUp (c := .i3cWake) (k := 4) h rfl (by decide) hrest hports
  exact ⟨t, hexec, hstate, hcause, hframe⟩

/-! ### What was passed over in Rest (R448) -/

/-- What falls late changes: the beats shown, and what the launches, passes and cores hold. -/
abbrev lateFields : List Fld :=
  [R.PWR_MODE_STATUS_pending_beat, R.SWC_MAP_STATUS_pending_beat, R.SEC_FW_BEAT_beat, R.CLT_COLL_STATUS_beat,
    R.CMP_FAULT_INFO_core, R.CMP_FAULT_INFO_cause, R.CMP_FAULT_INFO_image, R.CMP_FAULT_INFO_offset, R.CMP_FAULT_USER_user]

abbrev lateParts : List Part := [.out, .hif, .pkg, .tier, .pair, .cores]

/-- What falls late changes the fields and parts that hold it. -/
abbrev FallsLate (s t : State) : Prop := Changes lateFields lateParts s t

theorem fallsLate_told (h : Told s t) : FallsLate s t := (Changes.refl _ _ s).told h

theorem fallsLate_fallLate {gone : Nat → Bool} {next : Nat} {b : Option Nat} {put : Nat → State → State}
    (hput : ∀ x u, FallsLate u (put x u)) (s : State) : FallsLate s (s.fallLate gone next b put) :=
  Changes.ite ((hput _ s).trans (fallsLate_told (Told.refl _).late)) (Changes.refl _ _ s)

theorem fallsLate_modCore (n : Nat) (f : Core → Core) (s : State) : FallsLate s (s.modCore n f) :=
  (changes_modCore n f s).weaken (by simp)

theorem fallsLate_taskFault (n c : Nat) (s : State) : FallsLate s (s.taskFault n c) := by
  have hinfo : FallsLate s (if bitAt (s.rd R.CMP_EVT_events []) 0 then s else
      ((((s.wr R.CMP_FAULT_INFO_core [] n).wr R.CMP_FAULT_INFO_cause [] c).wr R.CMP_FAULT_INFO_image []
        (dImage ((s.core n).task.getD 0))).wr R.CMP_FAULT_INFO_offset [] (s.core n).pc).wr R.CMP_FAULT_USER_user []
        (dUser ((s.core n).task.getD 0))) :=
    Changes.ite (Changes.refl _ _ s) ((((((Changes.refl _ _ s).wr (f := R.CMP_FAULT_INFO_core) (by simp) _ _).wr
      (f := R.CMP_FAULT_INFO_cause) (by simp) _ _).wr (f := R.CMP_FAULT_INFO_image) (by simp) _ _).wr
      (f := R.CMP_FAULT_INFO_offset) (by simp) _ _).wr (f := R.CMP_FAULT_USER_user) (by simp) _ _)
  exact (hinfo.trans (fallsLate_modCore _ _ _)).trans
    (fallsLate_told (((Told.refl _).event _ _).bump (by decide) _))

theorem fallsLate_wake (n d v : Nat) (s : State) : FallsLate s (s.wake n d v) :=
  (fallsLate_modCore _ _ s).trans ((fallsLate_modCore _ _ _).trans (Changes.ite (Changes.refl _ _ _) (fallsLate_taskFault _ _ _)))

theorem fallsLate_flag (n b : Nat) (s : State) : FallsLate s (s.flag n b) :=
  Changes.ite (Changes.refl _ _ s) (fallsLate_modCore _ _ s)

theorem fallsLate_coreLate (gone : Nat → Bool) (next n : Nat) (s : State) : FallsLate s (s.coreLate gone next n) := by
  unfold State.coreLate
  extract_lets k t
  have hlaunches : FallsLate s t := (fallsLate_modCore _ _ s).trans
    (Changes.foldl _ (fun u _ => fallsLate_told (Told.refl u).late) _ _)
  split
  · exact Changes.ite (((hlaunches.trans (fallsLate_wake _ _ _ _)).trans (fallsLate_told (Told.refl _).late)).trans
      (fallsLate_flag _ _ _)) hlaunches
  · exact hlaunches

/-- What falls late in the registers that show a pending operation. -/
def State.lateShown (gone : Nat → Bool) (next : Nat) (l : List (Fld × Fld)) (s : State) : State :=
  l.foldl (fun t e => t.fallLate gone next (if t.on e.1 [] then some (t.rd e.2 []) else none) (fun b => State.wr e.2 [] b)) s

theorem fallsLate_lateShown (gone : Nat → Bool) (next : Nat) {l : List (Fld × Fld)} (hl : ∀ e ∈ l, e.2 ∈ lateFields) (s : State) :
    FallsLate s (s.lateShown gone next l) := by
  induction l generalizing s with
  | nil => exact Changes.refl _ _ s
  | cons e l ih =>
    refine Changes.trans (fallsLate_fallLate (fun b u => ?_) s) (ih (fun x hx => hl x (List.mem_cons_of_mem _ hx)) _)
    exact (Changes.refl _ _ u).wr (hl e List.mem_cons_self) _ _

theorem fallsLate_inPair (k : Pair) (s : State) : FallsLate s { s with pair := k } :=
  changes_of_parts rfl (fun p hp => by cases p <;> first | rfl | exact absurd (by decide) hp)

theorem fallsLate_collBeat (k : Key) (b : Nat) (s : State) :
    FallsLate s ((s.wr R.CLT_COLL_STATUS_beat k b).event B.clt 2) :=
  ((changes_wr R.CLT_COLL_STATUS_beat k b s).weaken (by simp)).trans (fallsLate_told ((Told.refl _).event _ _))

/-- A collective's step whose beat was passed over. -/
def State.stepLate (gone : Nat → Bool) (next : Nat) (k : Key) (s : State) : State :=
  s.fallLate gone next (if s.rd R.CLT_COLL_STATUS_state k = Cl.scheduled then some (s.rd R.CLT_COLL_STATUS_beat k) else none)
    (fun b u => (u.wr R.CLT_COLL_STATUS_beat k b).event B.clt 2)

theorem fallsLate_stepLate (gone : Nat → Bool) (next : Nat) (k : Key) (s : State) : FallsLate s (s.stepLate gone next k) :=
  fallsLate_fallLate (fun b u => fallsLate_collBeat k b u) s

theorem fallsLate_lateSkipped (gone : Nat → Bool) (next : Nat) (s : State) : FallsLate s (s.lateSkipped gone next) := by
  unfold State.lateSkipped
  extract_lets s₁ s₂ s₃ s₄ s₅
  have h₁ : FallsLate s s₁ := fallsLate_lateShown _ _ (by simp [scheduled]) s
  clear_value s₁
  have h₂ : FallsLate s₁ s₂ := fallsLate_fallLate (fun _ u => (changes_inTier _ u).weaken (by simp)) _
  clear_value s₂
  have h₃ : FallsLate s₂ s₃ := fallsLate_fallLate (fun _ u => fallsLate_inPair _ u) _
  clear_value s₃
  have h₄ : FallsLate s₃ s₄ := fallsLate_fallLate (fun _ u => (changes_inPkg _ u).weaken (by simp)) _
  clear_value s₄
  have h₅ : FallsLate s₄ s₅ :=
    Changes.foldl (fun (u : State) (e : Key × Coll) => u.stepLate gone next e.1) (fun u e => fallsLate_stepLate _ _ e.1 u) _ _
  clear_value s₅
  exact (((h₁.trans h₂).trans (h₃.trans h₄)).trans h₅).trans (Changes.foldl _ (fun u e => fallsLate_coreLate _ _ _ u) _ _)

theorem gives_wakeComplete (h : Runs s) (hstate : s.rd R.PWR_REST_STATUS_state [] = 3) (hleases : s.listed R.POL_LEASE_valid = []) :
    Gives .wakeComplete s (fun t => t.rd R.PWR_REST_STATUS_state [] = 0 ∧ t.mem = s.mem) := by
  have hlate : FallsLate (s.wr R.PWR_REST_STATUS_state [] 0) (s.wr R.PWR_REST_STATUS_state [] 0).lateInRest := fallsLate_lateSkipped _ _ _
  have hnone : (s.wr R.PWR_REST_STATUS_state [] 0).lateInRest.expireDue = (s.wr R.PWR_REST_STATUS_state [] 0).lateInRest :=
    State.expireDue_noLease ((hlate.lists _ (by decide) (by decide)).trans
      ((changes_wr R.PWR_REST_STATUS_state [] 0 s).lists _ (by decide) (by decide) |>.trans hleases))
  have hexec : exec .wakeComplete s = clocked s ((s.wr R.PWR_REST_STATUS_state [] 0).lateInRest.event B.pwr 5) := by
    rw [← hnone]
    exact congrArg (clocked s) (if_neg (by simp [hstate]))
  have hall := hlate.told ((Told.refl _).event B.pwr 5)
  exact gives_clocked hexec h ⟨(State.rd_after s _ _ _).trans ((hall.rd _ _).trans (State.rd_wr_same _ _ _ _)),
    (State.after_mem_eq s _).trans ((hall.parts .mem (by decide)).trans (State.wr_mem_eq _ _ _ s))⟩

end Sys2Proof.Machine
end

section
/-! PROOF. What sending leaves of the RAS block's own state and of the host interface. -/

namespace Sys2Proof.Machine

-- One proof after another: proofs under way at once are more threads than one process has memory for.
set_option Elab.async false

open Sys2Proof.Safety

variable {s t u : State}

/-- The RAS block's own state is the same, and the host interface but for its Pending Bits. -/
structure KeepsMail (s t : State) : Prop where
  ras : t.ras = s.ras
  hif : PendsOnly s t

theorem KeepsMail.refl (s : State) : KeepsMail s s := ⟨rfl, .refl s⟩

theorem KeepsMail.trans (h₁ : KeepsMail s t) (h₂ : KeepsMail t u) : KeepsMail s u := ⟨h₂.ras.trans h₁.ras, h₁.hif.trans h₂.hif⟩

theorem KeepsMail.of_eq (hras : t.ras = s.ras) (hhif : t.hif = s.hif) : KeepsMail s t := ⟨hras, .of_hif hhif⟩

theorem KeepsMail.mbox (h : KeepsMail s t) : t.hif.mbox = s.hif.mbox := by
  obtain ⟨p, hp⟩ := h.hif
  rw [hp]

theorem KeepsMail.ite {a b : State} {c : Prop} [Decidable c] (ha : KeepsMail s a) (hb : KeepsMail s b) :
    KeepsMail s (if c then a else b) := by
  split
  · exact ha
  · exact hb

theorem KeepsMail.foldl {α : Type} (g : State → α → State) (hg : ∀ s a, KeepsMail s (g s a)) (l : List α) (s : State) :
    KeepsMail s (l.foldl g s) := by
  induction l generalizing s with
  | nil => exact .refl s
  | cons a l ih => exact (hg s a).trans (ih _)

theorem keepsMail_wr (f : Fld) (ix : List Nat) (v : Nat) (s : State) : KeepsMail s (s.wr f ix v) :=
  .of_eq (State.wr_ras_eq _ _ _ s) (State.wr_hif_eq _ _ _ s)

theorem keepsMail_bump (f : Fld) (ix : List Nat) (s : State) : KeepsMail s (s.bump f ix) := keepsMail_wr _ _ _ s

theorem keepsMail_event (blk b : Nat) (s : State) : KeepsMail s (s.event blk b) :=
  ⟨State.event_ras_eq _ _ s, pendsOnly_event _ _ s⟩

theorem keepsMail_contained (at_ blk : Nat) (st : Status) (source info : Nat) (s : State) :
    KeepsMail s (s.contained at_ blk st source info) := ⟨State.contained_ras_eq _ _ _ _ _ s, pendsOnly_contained _ _ _ _ _ s⟩

theorem keepsMail_modPort (p : Nat) (f : Port → Port) (s : State) : KeepsMail s (s.modPort p f) := .of_eq rfl rfl

theorem keepsMail_inSw (w : Sw) (s : State) : KeepsMail s { s with sw := w } := .of_eq rfl rfl

theorem keepsMail_takeAgentCells (d t n : Nat) (s : State) : KeepsMail s (s.takeAgentCells d t n) := .of_eq rfl rfl

theorem keepsMail_toInput (d : Nat) (q : QMsg) (s : State) : KeepsMail s (s.toInput d q) := .of_eq rfl rfl

theorem keepsMail_freeCells (q : QMsg) (n : Nat) (s : State) : KeepsMail s (s.freeCells q n) := by
  unfold State.freeCells
  split
  · exact keepsMail_modPort _ _ s
  · exact .of_eq rfl rfl

theorem keepsMail_dropReader (q : QMsg) (s : State) : KeepsMail s (s.dropReader q) := keepsMail_freeCells _ _ s

theorem keepsMail_deliverOut (o : Nat) (q : QMsg) (s : State) : KeepsMail s (s.deliverOut o q) :=
  .ite (.of_eq rfl rfl) (.of_eq rfl rfl)

theorem keepsMail_deliverAll (o : Nat) (l : List QMsg) (s : State) : KeepsMail s (s.deliverAll o l) :=
  .foldl _ (fun s q => keepsMail_deliverOut o q s) l s

theorem keepsMail_countAt (o k : Nat) (s : State) : KeepsMail s (s.countAt o k) := .ite (keepsMail_bump _ _ s) (.refl s)

theorem keepsMail_gap (o : Nat) (s : State) : KeepsMail s (s.gap o) :=
  (keepsMail_countAt o 4 s).trans (.trans (.ite (keepsMail_wr _ _ _ _) (.refl _)) (keepsMail_event _ _ _))

theorem keepsMail_setFlow (o flow : Nat) (f : Flow) (s : State) : KeepsMail s (s.setFlow o flow f) := .of_eq rfl rfl

theorem keepsMail_skipHole (o flow : Nat) (s : State) : KeepsMail s (s.skipHole o flow) := by
  unfold State.skipHole
  dsimp only
  split
  · exact .refl s
  · exact ((keepsMail_deliverAll _ _ _).trans (keepsMail_setFlow _ _ _ _)).trans (keepsMail_gap _ _)

theorem keepsMail_fitHeld (o n : Nat) (s : State) : KeepsMail s (State.fitHeld o n s) := by
  induction n generalizing s with
  | zero => exact .refl s
  | succ n ih =>
    unfold State.fitHeld
    refine .ite (.refl s) ?_
    split
    · exact (keepsMail_skipHole _ _ s).trans (ih _)
    · exact .refl s

theorem keepsMail_resequence (o : Nat) (q : QMsg) (s : State) : KeepsMail s (s.resequence o q) := by
  have hlate : KeepsMail s ((s.countAt o 5).dropReader q) := (keepsMail_countAt _ _ s).trans (keepsMail_dropReader _ _)
  unfold State.resequence
  dsimp only
  refine .ite (((keepsMail_deliverOut _ _ _).trans (keepsMail_deliverAll _ _ _)).trans (keepsMail_setFlow _ _ _ _))
    (.ite (.ite hlate ((keepsMail_setFlow _ _ _ _).trans (keepsMail_fitHeld _ _ _))) (.ite ?_ hlate))
  exact (((keepsMail_deliverAll _ _ _).trans (keepsMail_deliverOut _ _ _)).trans (keepsMail_setFlow _ _ _ _)).trans
    (keepsMail_gap _ _)

theorem keepsMail_toOutput (o : Nat) (final : Bool) (q : QMsg) (s : State) : KeepsMail s (s.toOutput o final q) :=
  .ite (.ite (keepsMail_resequence _ _ s) (.of_eq rfl rfl)) (keepsMail_deliverOut _ _ s)

theorem keepsMail_logCompletion (d : Nat) (m : Msg) (st : Status) (s : State) : KeepsMail s (s.logCompletion d m st) :=
  .ite (keepsMail_contained _ _ _ _ _ s) (.refl s)

theorem keepsMail_selfAnswer (d : Nat) (m : Msg) (st : Status) (s : State) : KeepsMail s (s.selfAnswer d m st) :=
  (keepsMail_logCompletion d m st s).trans (.foldl _ (fun s _ =>
    ((keepsMail_inSw _ s).trans (keepsMail_takeAgentCells _ _ _ _)).trans (keepsMail_toInput _ _ _)) _ _)

theorem keepsMail_failSend (d : Nat) (m : Msg) (st : Status) (q : QMsg) (s : State) : KeepsMail s (s.failSend d m st q) :=
  (keepsMail_freeCells q q.total s).trans (.ite (keepsMail_selfAnswer _ _ _ _) (.refl _))

theorem keepsMail_place (d : Nat) (m : Msg) (q : QMsg) (s : State) : KeepsMail s (s.place d m q) := by
  have hfail (st : Status) : KeepsMail s (s.failSend d m st q) := keepsMail_failSend d m st q s
  have hcounted (f : Fld) (ix : List Nat) (st : Status) : KeepsMail s ((s.bump f ix).failSend d m st q) :=
    (keepsMail_bump f ix s).trans (keepsMail_failSend _ _ _ _ _)
  unfold State.place
  split
  · exact hfail _
  · refine .ite (hcounted _ _ _) (.ite (.ite (hcounted _ _ _) (keepsMail_toOutput _ _ _ _)) ?_)
    split
    · split
      · exact (keepsMail_inSw _ s).trans (keepsMail_toOutput _ _ _ _)
      · exact hfail _
    · exact .ite (keepsMail_freeCells _ _ s) (.foldl _ (fun s o => keepsMail_deliverOut o _ s) _ s)
    · exact hfail _

theorem keepsMail_route (d : Nat) (m : Msg) (s : State) : KeepsMail s (s.route d m) :=
  .trans (t := { s with sw := { s.sw with nextId := s.sw.nextId + 1 } }) (.of_eq rfl rfl) (keepsMail_place _ _ _ _)

theorem keepsMail_flushList (d : Nat) (ms : List Msg) (s : State) : KeepsMail s (State.flushList d ms s) := by
  induction ms generalizing s with
  | nil => exact .of_eq rfl rfl
  | cons m ms ih =>
    exact .ite ((keepsMail_takeAgentCells _ _ _ s).trans ((keepsMail_route _ _ _).trans (ih _)))
      (.of_eq rfl rfl)

/-- Sending changes neither the RAS block's own state nor a mailbox. -/
theorem keepsMail_send (d : Nat) (m : Msg) (s : State) : KeepsMail s (s.send d m) := keepsMail_flushList _ _ s

theorem keepsMail_sendAll (d : Nat) (l : List Msg) (s : State) : KeepsMail s (s.sendAll d l) :=
  .foldl _ (fun s m => keepsMail_send d m s) l s

theorem keepsMail_answer (d : Nat) (m : Msg) (st : Status) (load : Nat) (data : Option Nat) (s : State) :
    KeepsMail s (s.answer d m st load data) := (keepsMail_logCompletion _ _ _ s).trans (keepsMail_sendAll _ _ _)

/-- Reading a message changes neither the RAS block's own state nor a mailbox. -/
theorem keepsMail_consume (d : Nat) (m : Msg) (s : State) : KeepsMail s (s.consume d m) := by
  unfold State.consume
  split
  · exact (((keepsMail_inSw _ s).trans (keepsMail_freeCells _ _ _)).trans (keepsMail_flushList _ _ _)).trans
      (keepsMail_flushList _ _ _)
  · exact .refl s

end Sys2Proof.Machine
end

section
/-! PROOF. The manager's mailbox requests: reports fetched, commands carried out and relayed, expels (R411, R418, R453). -/

namespace Sys2Proof.Machine

-- One proof after another: proofs under way at once are more threads than one process has memory for.
set_option Elab.async false

open Sys2Proof.Safety

variable {s t : State} {fn : Nat}

/-! ### Numbers as bytes -/

theorem natOfBytes_append (a b : List Byte) : natOfBytes (a ++ b) = natOfBytes a + 2 ^ (8 * a.length) * natOfBytes b := by
  induction a with
  | nil => simp [natOfBytes]
  | cons x a ih =>
    rw [List.cons_append, natOfBytes, ih, natOfBytes, List.length_cons, Nat.mul_add, Nat.mul_add 8, Nat.pow_add]
    ring

theorem natOfBytes_bytesOfNat (n x : Nat) : natOfBytes (bytesOfNat n x) = x % 2 ^ (8 * n) := by
  induction n generalizing x with
  | zero => simp [natOfBytes, bytesOfNat, Nat.mod_one]
  | succ n ih =>
    rw [bytesOfNat, natOfBytes, ih, BitVec.toNat_ofNat, Nat.mul_add, Nat.add_comm (8 * n), Nat.pow_add, Nat.mod_mul]

theorem natOfBytes_lt (b : List Byte) : natOfBytes b < 2 ^ (8 * b.length) := by
  induction b with
  | nil => decide
  | cons x b ih =>
    rw [natOfBytes, List.length_cons, Nat.mul_add, Nat.pow_add]
    have := x.isLt
    omega

/-! ### Reports fetched (R453) -/

theorem State.isManager_mailHeld (fn : Nat) (q : MReq) (s : State) : (s.mailHeld fn q).isManager = s.isManager := by
  rw [State.isManager, (changes_mailHeld fn q s).rd R.RAS_MGR_CFG_role [], State.isManager]

/-- The reports kept but the oldest. -/
def State.fetched (s : State) : State := { s with ras := { s.ras with fetch := s.ras.fetch.tail } }

theorem State.mailOp_reportFetch {q : MReq} {x : List Byte} (hop : q.op = 0x0012) (hmanager : s.isManager = true)
    (hfirst : s.ras.fetch.head? = some x) : s.mailOp 0 q = (some .ok, x, s.fetched) := by
  obtain ⟨rest, hfetch⟩ := List.head?_eq_some_iff.mp hfirst
  unfold State.mailOp State.fetched
  rw [hop]
  simp [hfetch, hmanager]

theorem changes_inRas (k : Ras) (s : State) : Changes [] [.ras] s { s with ras := k } :=
  changes_of_parts rfl (fun p hp => by cases p <;> first | rfl | exact absurd (by decide) hp)

theorem changes_fetched (s : State) : Changes [] [.ras] s s.fetched := changes_inRas _ s

/-- The reply to a REPORT_FETCH. -/
theorem gives_fetchReply {c : Instr} {u : State} {seq : Nat} {x : List Byte} (h : s.stopped = false)
    (hheld : Changes [R.MRN_BUSY_pending] [.hif] s u) (hlength : x.length < 4096) (hseq : seq < 2 ^ 16)
    (hexec : exec c s = clocked s ((u.fetched.mailGone 0).mailReply 0 seq .ok x)) :
    Gives c s (fun t => t.ras.fetch = s.ras.fetch.tail ∧ t.rd R.MRN_REPLY_HDR_status [0] = Status.ok.code ∧
      t.rd R.MRN_REPLY_HDR_seq [0] = seq ∧ t.rd R.MRN_REPLY_HDR_length [0] = x.length ∧ RegsBut [R.MRN_REPLY_word,
      R.MRN_REPLY_HDR_status, R.MRN_REPLY_HDR_seq, R.MRN_REPLY_HDR_length, R.MRN_BUSY_pending] s t ∧
      PartsBut [.out, .hif, .ras] s t) := by
  have hreply := changes_mailReply 0 seq .ok x (u.fetched.mailGone 0)
  obtain ⟨hstatus, hnumber, hlen⟩ := (u.fetched.mailGone 0).rd_mailReply 0 seq .ok x
  have hras : u.ras = s.ras := hheld.parts .ras (by decide)
  have hfetch : (u.fetched.mailGone 0).ras.fetch = s.ras.fetch.tail := by
    change u.ras.fetch.tail = _
    rw [hras]
  have hkept : ((u.fetched.mailGone 0).mailReply 0 seq .ok x).ras = (u.fetched.mailGone 0).ras := hreply.parts .ras (by decide)
  have hall := ((hheld.weaken (l' := R.MRN_REPLY_word :: replyFields) (ps' := [.out, .hif, .ras]) (by simp [replyFields])).trans
    ((changes_fetched u).weaken (by simp))).trans (((changes_mailGone 0 u.fetched).weaken (by simp)).trans
    (hreply.weaken (fun _ hf => hf)))
  exact gives_clocked hexec h ⟨(congrArg Ras.fetch ((State.after_ras_eq s _).trans hkept)).trans hfetch,
    (State.rd_after s _ _ _).trans hstatus, (State.rd_after s _ _ _).trans (hnumber.trans (Nat.mod_eq_of_lt hseq)),
    (State.rd_after s _ _ _).trans (hlen.trans (Nat.mod_eq_of_lt (by omega))), hall.after⟩

/-- REPORT_FETCH, however it was asked for, answers the oldest report. -/
theorem gives_reportFetched {c : Instr} {seq : Nat} {x : List Byte} (h : Mails s 0) (hmanager : s.isManager = true)
    (hfirst : s.ras.fetch.head? = some x) (hlength : x.length < 4096) (hseq : seq < 2 ^ 16)
    (hexec : exec c s = clocked s (s.mailTake 0 seq 0x0012 [] [])) :
    Gives c s (fun t => t.ras.fetch = s.ras.fetch.tail ∧ t.rd R.MRN_REPLY_HDR_status [0] = Status.ok.code ∧
      t.rd R.MRN_REPLY_HDR_seq [0] = seq ∧ t.rd R.MRN_REPLY_HDR_length [0] = x.length ∧ RegsBut [R.MRN_REPLY_word,
      R.MRN_REPLY_HDR_status, R.MRN_REPLY_HDR_seq, R.MRN_REPLY_HDR_length, R.MRN_BUSY_pending] s t ∧
      PartsBut [.out, .hif, .ras] s t) := by
  have hheld := changes_mailHeld 0 { seq := seq, op := 0x0012, operands := [], bulk := [] } s
  rw [State.mailTake_of_done h (State.mailOp_reportFetch rfl (by rwa [State.isManager_mailHeld])
    ((congrArg (fun r => r.fetch.head?) (hheld.parts .ras (by decide))).trans hfirst))] at hexec
  exact gives_fetchReply h.1 hheld hlength hseq hexec

theorem gives_reportFetch {x : List Byte} (h : Mails s 0) (hmanager : s.isManager = true)
    (hfirst : s.ras.fetch.head? = some x) (hlength : x.length < 4096) :
    Gives .reportFetch s (fun t => t.ras.fetch = s.ras.fetch.tail ∧ t.rd R.MRN_REPLY_HDR_status [0] = Status.ok.code ∧
      t.rd R.MRN_REPLY_HDR_length [0] = x.length ∧ RegsBut [R.MRN_REPLY_word, R.MRN_REPLY_HDR_status, R.MRN_REPLY_HDR_seq,
      R.MRN_REPLY_HDR_length, R.MRN_BUSY_pending] s t ∧ PartsBut [.out, .hif, .ras] s t) := by
  obtain ⟨t, hexec, hfetch, hstatus, -, hrest⟩ := gives_reportFetched (c := .reportFetch) h hmanager hfirst hlength
    (Nat.mod_lt _ (by decide)) (congrArg (clocked s) (if_neg (by simp [h.2.2.1])))
  exact ⟨t, hexec, hfetch, hstatus, hrest⟩

/-! ### The doorbell (R452) -/

/-- The doorbell of a free mailbox with a new sequence number. -/
theorem State.mailDoorbell_free {q : Nat} (hbox : s.hif.mbox.has [fn] = false) (hseq : q % 65536 ≠ s.rd R.MRN_REPLY_HDR_seq [fn])
    (b : List Byte) : s.mailDoorbell fn q b =
      (if (fieldOf (natOfBytes (s.mailBytes fn 32)) 0 16 16 ≠ 0 ∨ fieldOf (natOfBytes (s.mailBytes fn 32)) 4 13 19 ≠ 0 ∨
          fieldOf (natOfBytes (s.mailBytes fn 32)) 20 0 96 ≠ 0 ∨ 4064 < fieldOf (natOfBytes (s.mailBytes fn 32)) 4 0 13) ∧
          s.firmware = true then s.mailReply fn (q % 65536) .unsupported []
        else s.mailTake fn (q % 65536) (fieldOf (natOfBytes (s.mailBytes fn 32)) 0 0 16)
          ((s.mailBytes fn (32 + fieldOf (natOfBytes (s.mailBytes fn 32)) 4 0 13)).drop 32)
          (if fieldOf (natOfBytes (s.mailBytes fn 32)) 8 0 64 = 0 then [] else
            b.take (fieldOf (natOfBytes (s.mailBytes fn 32)) 16 0 32))) := by
  rw [State.mailDoorbell, if_neg (by simp [hbox, hseq])]

theorem exec_mailboxDoorbell {q : Nat} {b : List Byte} (hfn : fn < 32) (hawake : s.resting = false) :
    exec (.mailboxDoorbell fn q b) s = clocked s (s.mailDoorbell fn q b) :=
  congrArg (clocked s) ((if_pos hfn).trans (by rw [State.wakeUp_of_awake hawake]))

theorem gives_mailboxDoorbell_bad {q : Nat} {b : List Byte} (h : Mails s fn) (hawake : s.resting = false)
    (hseq : q % 65536 ≠ s.rd R.MRN_REPLY_HDR_seq [fn]) (hbad : fieldOf (natOfBytes (s.mailBytes fn 32)) 0 16 16 ≠ 0) :
    Gives (.mailboxDoorbell fn q b) s (fun t => t.rd R.MRN_REPLY_HDR_status [fn] = Status.unsupported.code ∧
      t.rd R.MRN_REPLY_HDR_seq [fn] = q % 65536 ∧ RegsBut [R.MRN_REPLY_HDR_status, R.MRN_REPLY_HDR_seq,
      R.MRN_REPLY_HDR_length, R.MRN_BUSY_pending] s t ∧ PartsBut [.out, .hif] s t) := by
  have hexec := exec_mailboxDoorbell (q := q) (b := b) h.2.2.2.2.2 hawake
  rw [State.mailDoorbell_free h.2.2.1 hseq, if_pos ⟨.inl hbad, h.2.2.2.1⟩] at hexec
  obtain ⟨hstatus, hnumber, -⟩ := s.rd_mailReply fn (q % 65536) .unsupported []
  exact gives_clocked hexec h.1 ⟨(State.rd_after s _ _ _).trans hstatus,
    (State.rd_after s _ _ _).trans (hnumber.trans (Nat.mod_mod _ _)), (changes_mailReply_nil _ _ _ s).after⟩

theorem gives_mailboxDoorbell_fetch {q : Nat} {b x : List Byte} (h : Mails s 0) (hawake : s.resting = false)
    (hseq : q % 65536 ≠ s.rd R.MRN_REPLY_HDR_seq [0]) (hhead : natOfBytes (s.mailBytes 0 32) = 0x0012)
    (hmanager : s.isManager = true) (hfirst : s.ras.fetch.head? = some x) (hlength : x.length < 4096) :
    Gives (.mailboxDoorbell 0 q b) s (fun t => t.ras.fetch = s.ras.fetch.tail ∧
      t.rd R.MRN_REPLY_HDR_status [0] = Status.ok.code ∧ t.rd R.MRN_REPLY_HDR_seq [0] = q % 65536 ∧
      t.rd R.MRN_REPLY_HDR_length [0] = x.length ∧ RegsBut [R.MRN_REPLY_word, R.MRN_REPLY_HDR_status, R.MRN_REPLY_HDR_seq,
      R.MRN_REPLY_HDR_length, R.MRN_BUSY_pending] s t ∧ PartsBut [.out, .hif, .ras] s t) := by
  have hexec := exec_mailboxDoorbell (fn := 0) (q := q) (b := b) (by decide) hawake
  have hempty : (s.mailBytes 0 (32 + fieldOf 0x0012 4 0 13)).drop 32 = [] :=
    List.drop_eq_nil_of_le (List.length_take_le _ _)
  rw [State.mailDoorbell_free h.2.2.1 hseq, hhead, if_neg (fun hbad => absurd hbad.1 (by decide)), hempty, if_pos (by decide)] at hexec
  exact gives_reportFetched h hmanager hfirst hlength (Nat.mod_lt _ (by decide)) hexec

/-! ### Commands of the fabric manager (R411, R414, R453) -/

/-- A request that was carried out and answered without data: its effect `t`, with what a reply changes. -/
theorem gives_requestDone {c : Instr} {u : State} {st : Status} {P : State → Prop} (h : s.stopped = false)
    (hexec : exec c s = clocked s ((u.mailGone fn).mailReply fn (s.nextMail fn) st []))
    (p : ∀ w, Changes replyFields reporting u w → Replied fn st s w → P (s.after w)) : Gives c s P := by
  obtain ⟨hstatus, hnumber, hlength⟩ := (u.mailGone fn).rd_mailReply fn (s.nextMail fn) st []
  exact gives_clocked hexec h (p _ (((changes_mailGone fn u).weaken (by simp)).trans (changes_mailReply_nil _ _ _ _))
    ⟨hstatus, hnumber.trans (Nat.mod_eq_of_lt (Nat.mod_lt _ (by decide))), hlength⟩)

/-- The head of an FM_COMMAND's operands: the target and the op. -/
def fmHead (target op : Nat) : List Byte := bytesOfNat 2 target ++ bytesOfNat 2 op ++ bytesOfNat 4 0

theorem natOfBytes_fmHead {target op : Nat} (htarget : target < 2 ^ 16) (hop : op < 2 ^ 16) (b : List Byte) :
    natOfBytes (fmHead target op ++ b) = target + 2 ^ 16 * op + 2 ^ 64 * natOfBytes b := by
  simp only [fmHead, natOfBytes_append, natOfBytes_bytesOfNat, List.length_append, length_bytesOfNat]
  rw [Nat.mod_eq_of_lt htarget, Nat.mod_eq_of_lt hop]
  norm_num

theorem fieldOf_fmHead {target op : Nat} (htarget : target < 2 ^ 16) (hop : op < 2 ^ 16) (b : List Byte) :
    fieldOf (natOfBytes (fmHead target op ++ b)) 0 0 16 = target ∧ fieldOf (natOfBytes (fmHead target op ++ b)) 2 0 16 = op ∧
    fieldOf (natOfBytes (fmHead target op ++ b)) 4 0 32 = 0 := by
  rw [natOfBytes_fmHead htarget hop]
  simp only [fieldOf, bitsOf, Nat.shiftRight_eq_div_pow]
  omega

theorem drop_fmHead (target op : Nat) (b : List Byte) : (fmHead target op ++ b).drop 8 = b :=
  List.drop_left' (by simp [fmHead, length_bytesOfNat])

/-- A fabric manager's command, to this part or to a worker. -/
def State.fmCarried (target op : Nat) (b bulk : List Byte) (s : State) : Option Status × State :=
  if target = s.eid then s.applyOp op b bulk .mailbox else s.relay target op b bulk

theorem State.mailOp_fmCommand {q : MReq} {target op : Nat} {b : List Byte} (hop : q.op = 0x0010)
    (hoperands : q.operands = fmHead target op ++ b) (htarget : target < 2 ^ 16) (hlt : op < 2 ^ 16)
    (hmanager : s.isManager = true) :
    s.mailOp 0 q = ((s.fmCarried target op b q.bulk).1, [], (s.fmCarried target op b q.bulk).2) := by
  obtain ⟨ht, ho, hz⟩ := fieldOf_fmHead htarget hlt b
  have hlong : ¬ ((fmHead target op ++ b).length < 4 ∨ fieldOf (natOfBytes (fmHead target op ++ b)) 4 0 32 ≠ 0) := by
    rintro (hshort | hne)
    · simp [fmHead, length_bytesOfNat] at hshort
      omega
    · exact hne hz
  unfold State.mailOp State.fmCarried
  rw [hop]
  simp only [hoperands, drop_fmHead, hmanager, ht, ho]
  rw [if_neg hlong]
  simp

theorem exec_fmCommand {e op : Nat} {b : List Byte} (h : Mails s 0) (himage : isImageOp op = false) :
    exec (.fmCommand e op b) s = clocked s (s.mailTake 0 (s.nextMail 0) 0x0010 (fmHead e op ++ b) []) := by
  refine congrArg (clocked s) ((if_neg (by simp [h.2.2.1])).trans ?_)
  exact if_neg (by simp [himage])

theorem State.eid_mailHeld (fn : Nat) (q : MReq) (s : State) : (s.mailHeld fn q).eid = s.eid := 
  (changes_mailHeld fn q s).rd R.GLB_NODE_eid []

/-- TENANT_RETIRE of an ACTIVE tenant, as a command's operands. -/
theorem State.applyOp_tenantRetire {k : Byte} {bulk : List Byte} {who : Asker} (hfirmware : s.firmware = true)
    (hexpelled : s.pkg.expelled = false) (hready : s.isReady B.sec = true) (hk : k ≠ 0) (hlt : k.toNat < 32)
    (hactive : s.rd R.SEC_TENANT_state [k.toNat] = 1) :
    s.applyOp 0x0502 [k] bulk who = (some .ok, s.wr R.SEC_TENANT_state [k.toNat] 2) := by
  have hpos : 0 < k.toNat := Nat.pos_of_ne_zero (fun h => hk (BitVec.eq_of_toNat_eq h))
  have hfield : fieldOf (natOfBytes [k]) 0 0 8 = k.toNat := by
    change (k.toNat + 256 * 0) % 2 ^ 8 = k.toNat
    exact Nat.mod_eq_of_lt k.isLt
  have hshape : ¬ ¬ ((opShape 0x0502 [k]).map (fun l => shapeOk l [k])).getD false = true := by
    have hlayout : layout [(0, 0, 8, k.toNat)] = natOfBytes [k] := by
      rw [layout, layout, natOfBytes, natOfBytes, Nat.mod_eq_of_lt k.isLt]
      simp
    rw [not_not, show opShape 0x0502 [k] = some [(0, 8)] from rfl, Option.map_some, Option.getD_some, shapeOk]
    simp [hfield, hlayout]
  have hcmd : s.cmdTenantRetire k.toNat = (.ok, s.wr R.SEC_TENANT_state [k.toNat] 2) := by
    rw [State.cmdTenantRetire, if_neg (by omega), if_neg (by rw [State.tenantState_of_pos hpos, hactive]; decide)]
  have hgated : s.gated 0x0502 (s.cmdTenantRetire k.toNat) = s.cmdTenantRetire k.toNat := by
    rw [State.gated, hexpelled, if_neg (by decide), show opBlock 0x0502 = B.sec from rfl, if_pos hready]
  unfold State.applyOp
  dsimp only
  rw [if_neg hshape, if_neg (by simp [hfirmware])]
  change ((some (s.gated 0x0502 (s.cmdTenantRetire (fieldOf (natOfBytes [k]) 0 0 8))).1,
    (s.gated 0x0502 (s.cmdTenantRetire (fieldOf (natOfBytes [k]) 0 0 8))).2) : Option Status × State) = _
  rw [hfield, hgated, hcmd]

theorem gives_fmRetire {k : Byte} {e : Nat} (h : Mails s 0) (hmanager : s.isManager = true) (he : e = s.eid) (hlt : e < 2 ^ 16)
    (hready : s.isReady B.sec = true) (hk : k ≠ 0) (hsmall : k.toNat < 32) (hactive : s.rd R.SEC_TENANT_state [k.toNat] = 1) :
    Gives (.fmCommand e 0x0502 [k]) s (fun t => t.rd R.SEC_TENANT_state [k.toNat] = 2 ∧ Replied 0 .ok s t ∧
      RegsBut [R.SEC_TENANT_state, R.MRN_REPLY_HDR_status, R.MRN_REPLY_HDR_seq, R.MRN_REPLY_HDR_length, R.MRN_BUSY_pending]
        s t ∧ PartsBut [.out, .hif] s t) := by
  have hexec := exec_fmCommand (e := e) (b := [k]) h (show isImageOp 0x0502 = false from rfl)
  generalize hq : ({ seq := s.nextMail 0, op := 0x0010, operands := fmHead e 0x0502 ++ [k], bulk := [] } : MReq) = q at *
  have hheld := changes_mailHeld 0 q s
  have hfirmware : (s.mailHeld 0 q).firmware = true := by
    rw [State.firmware, hheld.rd R.SEC_BOOT_STATUS_stage []]
    exact h.2.2.2.1
  have hpkg : (s.mailHeld 0 q).pkg = s.pkg := hheld.parts .pkg (by decide)
  have hexpelled : (s.mailHeld 0 q).pkg.expelled = false := by rw [hpkg]; exact h.2.1
  have hready' : (s.mailHeld 0 q).isReady B.sec = true := by rwa [State.isReady, hheld.rd R.GLB_READY_ready []]
  have hdone : (s.mailHeld 0 q).mailOp 0 q = (some .ok, [], (s.mailHeld 0 q).wr R.SEC_TENANT_state [k.toNat] 2) := by
    rw [State.mailOp_fmCommand (op := 0x0502) (target := e) (b := [k]) (by rw [← hq]) (by rw [← hq]) hlt (by decide)
      (by rwa [State.isManager_mailHeld]), State.fmCarried, if_pos (by rw [State.eid_mailHeld, he]),
      State.applyOp_tenantRetire hfirmware hexpelled hready' hk hsmall (by rwa [hheld.rd _ _])]
  subst hq
  rw [State.mailTake_of_done h hdone] at hexec
  have hset := (hheld.weaken (l' := [R.SEC_TENANT_state, R.MRN_REPLY_HDR_status, R.MRN_REPLY_HDR_seq, R.MRN_REPLY_HDR_length,
    R.MRN_BUSY_pending]) (ps' := [.out, .hif]) (by simp)).wr (f := R.SEC_TENANT_state) (by simp) [k.toNat] 2
  exact gives_requestDone h.1 hexec (fun w hw hreplied => ⟨(hw.rd R.SEC_TENANT_state _).trans (State.rd_wr_same _ _ _ _), hreplied,
    (hset.trans (hw.weaken (by simp [replyFields]))).after⟩)

/-! ### Commands relayed to a worker (R411, R415) -/

/-- The mailbox request waits for a worker's update. -/
def State.mailAwaits (e seq : Nat) (q : MReq) (s : State) : State :=
  { s with hif := { s.hif with mbox := s.hif.mbox.set [0] { q with target := some (e, seq) } } }

/-- The update of a command, and its worker once it is sent. -/
def relayUpd (w : Worker) (op : Nat) (b : List Byte) : Upd := { seq := w.next, op := op, operands := withLength b }

def Worker.sentUpd (u : Upd) (now : Nat) (w : Worker) : Worker := { w with out := w.out ++ [{ upd := u, sentAt := now }] }

def Worker.advanced (w : Worker) : Worker := { w with next := (w.next + 1) % 2 ^ 32 }

/-- An update that has room among those outstanding is kept and sent. -/
theorem State.sendUpd_of_room {e : Nat} {u : Upd} (h : (s.ras.workers.get {} [e]).out.length < 64) : s.sendUpd e u =
    (s.modWorker e (Worker.sentUpd u s.now)).send 0 (s.mgMsg 0xB0 e u.seq u.op .ok u.operands) := if_pos h

theorem State.worker_modWorker (e : Nat) (f : Worker → Worker) (s : State) :
    (s.modWorker e f).ras.workers.get {} [e] = f (s.ras.workers.get {} [e]) := Map.get_set_same _ _ _ _

theorem changes_modWorker (e : Nat) (f : Worker → Worker) (s : State) : Changes [] [.ras] s (s.modWorker e f) := changes_inRas _ s

/-- A command relayed: the worker's update is outstanding and sent, and the request waits for it. -/
theorem State.relay_sent {e op : Nat} {b bulk : List Byte} {q : MReq} {w : Worker} (hw : s.ras.workers.get {} [e] = w)
    (hlost : w.lost = false) (hroom : w.out.length < 64) (himage : isImageOp op = false) (hbox : s.hif.mbox.get? [0] = some q) :
    ∃ t, s.relay e op b bulk = (none, t) ∧ Changes [] [.out, .hif, .sw, .ports, .ras, .answers] s t ∧
      t.ras.workers.get {} [e] = w.advanced.sentUpd (relayUpd w op b) s.now ∧
      t.hif.mbox.get? [0] = some { q with target := some (e, w.next) } := by
  have hadvanced : (s.modWorker e Worker.advanced).ras.workers.get {} [e] = w.advanced := by
    rw [State.worker_modWorker, hw]
  have hsend := State.sendUpd_of_room (s := s.modWorker e Worker.advanced) (e := e) (u := relayUpd w op b)
    (by rw [hadvanced]; exact hroom)
  generalize hm : (s.modWorker e Worker.advanced).mgMsg 0xB0 e (relayUpd w op b).seq (relayUpd w op b).op .ok
    (relayUpd w op b).operands = m at hsend
  generalize hv : (s.modWorker e Worker.advanced).modWorker e (Worker.sentUpd (relayUpd w op b) (s.modWorker e Worker.advanced).now)
    = v at hsend
  have hkeeps := keepsMail_send 0 m v
  have hmbox : (v.send 0 m).hif.mbox.get? [0] = some q := by
    rw [hkeeps.mbox, ← hv]
    exact hbox
  have hworker : (v.send 0 m).ras.workers.get {} [e] = w.advanced.sentUpd (relayUpd w op b) s.now := by
    rw [hkeeps.ras, ← hv, State.worker_modWorker, hadvanced]
    rfl
  have hchanges : Changes [] [.out, .hif, .sw, .ports, .ras, .answers] s (v.send 0 m) := by
    rw [← hv]
    exact (((changes_modWorker _ _ s).trans (changes_modWorker _ _ _)).weaken (by simp)).trans
      ((conveys_send (l := []) 0 m _).changes)
  refine ⟨(v.send 0 m).mailAwaits e w.next q, ?_, hchanges.trans ((changes_inHif _ _).weaken (by simp)), hworker, ?_⟩
  · unfold State.relay
    extract_lets +onlyGivenNames w' u v₁ v₂ mb
    have hv₂ : v₂ = v.send 0 m := by
      change (if isImageOp op = true then _ else v₁) = _
      rw [himage, if_neg (by decide), ← hsend, ← hw]
      rfl
    have hmb : mb = (v.send 0 m).hif.mbox.set [0] { q with target := some (e, w.next) } := by
      change (match v₂.hif.mbox.get? [0] with | some q => _ | none => _) = _
      rw [hv₂, hmbox, ← hw]
    rw [if_neg (by change ¬ (s.ras.workers.get {} [e]).lost = true; rw [hw, hlost]; decide)]
    clear_value mb v₂
    subst hmb hv₂
    rfl
  · exact Map.get?_set_same _ _ _

theorem gives_fmRelay {e : Nat} {b : List Byte} {w : Worker} (h : Mails s 0) (hmanager : s.isManager = true) (hne : e ≠ s.eid)
    (hlt : e < 2 ^ 16) (hw : s.ras.workers.get {} [e] = w) (hlost : w.lost = false) (hroom : w.out.length < 64) :
    Gives (.fmCommand e 0x0502 b) s (fun t => t.ras.workers.get {} [e] =
      { w with next := (w.next + 1) % 2 ^ 32, out := w.out ++ [{ upd := { seq := w.next, op := 0x0502, operands := withLength b }, sentAt := s.now }] } ∧
      (t.hif.mbox.get? [0]).map (fun q => q.target) = some (some (e, w.next)) ∧ RegsBut [R.MRN_BUSY_pending] s t ∧
      PartsBut [.out, .hif, .sw, .ports, .ras, .answers] s t) := by
  have hexec := exec_fmCommand (e := e) (b := b) h (show isImageOp 0x0502 = false from rfl)
  rw [State.mailTake_of_mails h] at hexec
  generalize hq : ({ seq := s.nextMail 0, op := 0x0010, operands := fmHead e 0x0502 ++ b, bulk := [] } : MReq) = q at hexec
  have hheld := changes_mailHeld 0 q s
  have hbox : (s.mailHeld 0 q).hif.mbox.get? [0] = some q := by
    rw [State.hif_mailHeld]
    exact Map.get?_set_same _ _ _
  have hras : (s.mailHeld 0 q).ras = s.ras := hheld.parts .ras (by decide)
  have hnow : (s.mailHeld 0 q).now = s.now := State.wr_now_eq _ _ _ _
  obtain ⟨t, hrelay, hchanges, hworker, hwaits⟩ := State.relay_sent (s := s.mailHeld 0 q) (e := e) (op := 0x0502) (b := b)
    (bulk := q.bulk) (by rw [hras, hw]) hlost hroom rfl hbox
  have hdone : (s.mailHeld 0 q).mailOp 0 q = (none, [], t) := by
    rw [State.mailOp_fmCommand (op := 0x0502) (target := e) (b := b) (by rw [← hq]) (by rw [← hq]) hlt (by decide)
      (by rwa [State.isManager_mailHeld]), State.fmCarried, if_neg (by rwa [State.eid_mailHeld]), hrelay]
  rw [State.runMail_of_waiting hbox (by decide) hdone] at hexec
  refine gives_clocked hexec h.1 ⟨?_, ?_, ((hheld.weaken (by simp)).trans (hchanges.weaken (by simp))).after⟩
  · rw [State.after_ras_eq, hworker, hnow]
    rfl
  · rw [State.after_hif_eq, hwaits]
    rfl

/-! ### Expels (R418) -/

/-- What an accepted expel will do, at the next beat. -/
def State.expelDue (b : List Byte) (s : State) : Expel :=
  { target := fieldOf (natOfBytes (b.take 32)) 0 0 16, apold := fieldOf (natOfBytes (b.take 32)) 0 16 1 = 1,
    newManager := fieldOf (natOfBytes (b.take 32)) 4 0 16, promote := fieldOf (natOfBytes (b.take 32)) 4 16 16,
    beat := (s.beat + 1) % 2 ^ 32 }

/-- An expel that is accepted: the statement is known, and it is due. -/
def State.expelTaken (b : List Byte) (s : State) : State :=
  let l := s.sec.expels ++ [sha (b.take 32)]
  { s with sec := { s.sec with expels := l.drop (l.length - 256), due := s.sec.due ++ [s.expelDue b] } }

theorem State.takeExpel_eq (b : List Byte) (s : State) : s.takeExpel b =
    (if s.expelStatus b ≠ .ok then (s.expelStatus b, (s.bump R.RAS_CNT_count [6]).event B.ras 7)
    else if s.sec.expels.contains (sha (b.take 32)) = true then (.ok, s) else (.ok, (s.expelTaken b).event B.ras 6)) := rfl

/-- Taking an expel: refused, one taken before, or accepted to act at the next beat. -/
theorem State.takeExpel_cases (b : List Byte) (s : State) : (s.takeExpel b).1 = s.expelStatus b ∧
    Changes [] [.out, .hif, .sec] s (s.takeExpel b).2 ∧ (s.takeExpel b).2.sec.due =
      (if s.expelStatus b = .ok ∧ s.sec.expels.contains (sha (b.take 32)) = false then s.sec.due ++ [s.expelDue b] else s.sec.due) := by
  have htold : Told s ((s.bump R.RAS_CNT_count [6]).event B.ras 7) := ((Told.refl s).bump (by decide) _).event _ _
  have htaken : Changes [] [.out, .hif, .sec] s (s.expelTaken b) := (changes_inSec _ s).weaken (by simp)
  rw [State.takeExpel_eq]
  by_cases hok : s.expelStatus b = .ok
  · rw [if_neg (not_not.mpr hok)]
    by_cases hknown : s.sec.expels.contains (sha (b.take 32)) = true
    · rw [if_pos hknown, if_neg (by rw [hknown]; simp)]
      exact ⟨hok.symm, Changes.refl _ _ s, rfl⟩
    · rw [if_neg hknown, if_pos ⟨hok, Bool.eq_false_iff.mpr hknown⟩]
      exact ⟨hok.symm, htaken.told ((Told.refl _).event _ _), congrArg Sec.due (State.event_sec_eq _ _ _)⟩
  · rw [if_pos hok, if_neg (fun h => hok h.1)]
    exact ⟨rfl, (Changes.refl _ _ s).told htold, congrArg Sec.due htold.sec_eq⟩

theorem State.expelStatus_of_same (htst : t.tst = s.tst) (hsec : t.sec = s.sec) (htim : t.tim = s.tim) (b : List Byte) :
    t.expelStatus b = s.expelStatus b := by
  rw [State.expelStatus, State.expelStatus, htst, State.entry, hsec, State.beat_of_tim htim, State.entry]

/-- The expel passed on to every other part of the manager's. -/
def State.expelRelayed (b : List Byte) (s : State) : State :=
  s.otherApolds.foldl (fun t e => t.sendObject 0xB4 e 0 0 b) s

theorem conveys_expelRelayed (b : List Byte) (s : State) : Conveys [] s (s.expelRelayed b) :=
  Conveys.foldl _ (fun _ _ => Conveys.foldl _ (fun _ _ => conveys_send _ _ _) _ _) _ s

theorem State.mailOp_fmExpel {q : MReq} (hop : q.op = 0x0011) (hmanager : s.isManager = true) :
    s.mailOp 0 q = (some (s.takeExpel q.bulk).1, [], (s.takeExpel q.bulk).2.expelRelayed q.bulk) := by
  unfold State.mailOp State.expelRelayed
  rw [hop]
  simp [hmanager]

theorem gives_fmExpel {b : List Byte} (h : Mails s 0) (hmanager : s.isManager = true) :
    Gives (.fmExpel b) s (fun t => (t.sec.due = if s.expelStatus b = .ok ∧ s.sec.expels.contains (sha (b.take 32)) = false then
        s.sec.due ++ [s.expelDue b] else s.sec.due) ∧
      Replied 0 (s.expelStatus b) s t ∧ RegsBut [R.MRN_REPLY_HDR_status, R.MRN_REPLY_HDR_seq, R.MRN_REPLY_HDR_length,
      R.MRN_BUSY_pending] s t ∧ PartsBut [.out, .hif, .sw, .ports, .ras, .answers, .sec] s t) := by
  have hexec : exec (.fmExpel b) s = clocked s (s.mailTake 0 (s.nextMail 0) 0x0011 [] b) :=
    congrArg (clocked s) (if_neg (by simp [h.2.2.1]))
  rw [State.mailTake_of_done h (State.mailOp_fmExpel rfl (by rwa [State.isManager_mailHeld]))] at hexec
  generalize hq : ({ seq := s.nextMail 0, op := 0x0011, operands := [], bulk := b } : MReq) = q at hexec
  have hbulk : q.bulk = b := by rw [← hq]
  have hheld := changes_mailHeld 0 q s
  obtain ⟨hstatus, htaken, hdue⟩ := (s.mailHeld 0 q).takeExpel_cases b
  have hrelayed := conveys_expelRelayed b ((s.mailHeld 0 q).takeExpel b).2
  have hsec : (s.mailHeld 0 q).sec = s.sec := hheld.parts .sec (by decide)
  have htim : (s.mailHeld 0 q).tim = s.tim := hheld.parts .tim (by decide)
  have hsame := State.expelStatus_of_same (hheld.rd R.TIM_STATUS_state []) hsec htim b
  have hexpel : (s.mailHeld 0 q).expelDue b = s.expelDue b := by rw [State.expelDue, State.beat_of_tim htim, State.expelDue]
  rw [hbulk, hstatus, hsame] at hexec
  rw [hsame, hsec, hexpel] at hdue
  have hall := ((hheld.weaken (l' := replyFields) (ps' := [.out, .hif, .sw, .ports, .ras, .answers, .sec]) (by simp [replyFields])).trans
    (htaken.weaken (by simp))).trans (hrelayed.changes.weaken (by simp))
  exact gives_requestDone h.1 hexec (fun w hw hreplied => ⟨((congrArg Sec.due (hw.parts .sec (by decide))).trans
    (congrArg Sec.due hrelayed.sec_eq)).trans hdue, hreplied, (hall.trans (hw.weaken (fun _ hf => hf))).after⟩)

/-- Settles O48: a request is held, carried out and answered; Rest is its state, its beat and what it refuses. -/
theorem mailboxAndRest : Obligations.MailboxAndRest :=
  fun _ h => ⟨fun _ _ _ => gives_mailboxDoorbell_bad, fun _ _ _ => gives_mailboxDoorbell_fetch,
    fun _ _ _ => gives_mailboxDoorbell_busy h, fun _ => gives_reportFetch, fun _ _ => gives_fmRetire, fun _ _ _ => gives_fmRelay,
    fun _ => gives_fmExpel, fun _ => gives_restRequest h, fun _ => gives_restRequest_refused h, fun _ => gives_restEntry h,
    fun _ => gives_restEntry_refused h, fun _ => gives_wake h, fun _ => gives_wake_awake,
    gives_i3cWake h, gives_wakeComplete h⟩

end Sys2Proof.Machine
end

section
/-! PROOF. Updates, reports, objects and evidence between the manager device and its workers (R412 to R416). -/

namespace Sys2Proof.Machine

-- One proof after another: proofs under way at once are more threads than one process has memory for.
set_option Elab.async false

open Sys2Proof.Safety

variable {s t : State} {m : Msg}

/-! ### A management message read -/

abbrev conveyed : List Part := [.out, .hif, .sw, .ports, .ras, .answers]

theorem changes_consume (d : Nat) (m : Msg) (s : State) : Changes [] conveyed s (s.consume d m) := (conveys_consume d m s).changes

theorem changes_send (d : Nat) (m : Msg) (s : State) : Changes [] conveyed s (s.send d m) := (conveys_send d m s).changes

theorem State.isManager_consume (d : Nat) (m : Msg) (s : State) : (s.consume d m).isManager = s.isManager := by
  rw [State.isManager, (changes_consume d m s).rd R.RAS_MGR_CFG_role [], State.isManager]

theorem State.managerEid_consume (d : Nat) (m : Msg) (s : State) : (s.consume d m).managerEid = s.managerEid :=
  (changes_consume d m s).rd R.RAS_MGR_CFG_manager_eid []

theorem State.fromManager_consume (d : Nat) (m : Msg) (s : State) : (s.consume d m).fromManager m = s.fromManager m := by
  rw [State.fromManager, State.isManager_consume, State.managerEid_consume, State.fromManager]

theorem State.ras_consume (d : Nat) (m : Msg) (s : State) : (s.consume d m).ras = s.ras := (keepsMail_consume d m s).ras

theorem State.pkg_consume (d : Nat) (m : Msg) (s : State) : (s.consume d m).pkg = s.pkg :=
  (changes_consume d m s).parts .pkg (by decide)

theorem State.sec_consume (d : Nat) (m : Msg) (s : State) : (s.consume d m).sec = s.sec :=
  (changes_consume d m s).parts .sec (by decide)

theorem State.now_consume (d : Nat) (m : Msg) (s : State) : (s.consume d m).now = s.now := by
  obtain ⟨⟨r, o, i, w, p, a, n, hshape⟩, -⟩ := conveys_consume (l := []) d m s
  rw [hshape]

theorem State.ras_send (d : Nat) (m : Msg) (s : State) : (s.send d m).ras = s.ras := (keepsMail_send d m s).ras

theorem fromManager_iff : s.fromManager m = true ↔ s.isManager = false ∧ m.src = s.managerEid := by simp [State.fromManager]

/-- A command that reads a message and ends in a state of the RAS block. -/
theorem gives_keptRas {c : Instr} {P : Ras → Prop} (h : Serves s) (hexec : exec c s = serving s t)
    (hframe : Changes [] conveyed s t) (p : P t.ras) : Gives c s (fun t => P t.ras ∧ RegsBut [] s t ∧ PartsBut conveyed s t) :=
  gives_serving hexec h ⟨p, hframe.after⟩

theorem changes_readInRas (k : Ras) : Changes [] conveyed s { s.consume m.die m with ras := k } :=
  (changes_consume _ _ s).trans ((changes_inRas k _).weaken (by simp))

/-! ### Updates at a worker (R415) -/

/-- The update a message carries. -/
def updOf (m : Msg) : Upd := { seq := m.f 0 0 32, op := m.f 4 0 16, operands := m.bytes 16 (m.len - 16) }

/-- What an update that was read does. -/
def State.updRead (m : Msg) (s : State) : State :=
  if s.pkg.expelled then s
  else if ¬ s.fromManager m then s.discardUpd
  else if dist 32 (m.f 0 0 32) s.ras.expected = 0 then (s.takeUpd (updOf m)).takeHeld 64
  else if dist 32 (m.f 0 0 32) s.ras.expected < 64 then
    if s.ras.held.any (fun v => v.seq = m.f 0 0 32) then s
    else { s with ras := { s.ras with held := s.ras.held ++ [updOf m] } }
  else if 2 ^ 32 - 65 < dist 32 (m.f 0 0 32) s.ras.expected then
    match s.ras.acks.find? (fun a => a.1 = m.f 0 0 32) with
    | some a => s.send 0 (s.mgMsg 0xB1 s.managerEid a.1 a.2.1 a.2.2 [])
    | none => s
  else s.discardUpd

theorem exec_mgUpdate (hty : m.ty = 0xB0) : exec (.mgUpdate m) s = serving s ((s.consume m.die m).updRead m) :=
  congrArg (serving s) (if_neg (not_not.mpr hty))

theorem State.takeHeld_nil (h : s.ras.held = []) : ∀ n, s.takeHeld n = s
  | 0 => rfl
  | n + 1 => by rw [State.takeHeld, h, List.find?_nil]

/-- The update expected next. -/
def State.expecting (q : Nat) (s : State) : State := { s with ras := { s.ras with expected := q } }

theorem State.takeUpd_of_running (h : s.sec.restarted = none) (u : Upd) :
    s.takeUpd u = (s.expecting ((u.seq + 1) % 2 ^ 32)).runUpd u := by
  unfold State.takeUpd State.expecting
  exact if_neg (by simp [h])

theorem length_withLength (b : List Byte) : (withLength b).length = b.length + 8 := by
  simp [withLength, length_bytesOfNat]
  omega

theorem natOfBytes_withLength {b : List Byte} (hb : b.length + 8 < 2 ^ 32) :
    natOfBytes ((withLength b).take 4) = b.length + 8 ∧ natOfBytes (((withLength b).drop 4).take 4) = 0 := by
  rw [withLength, List.append_assoc, List.take_left' (length_bytesOfNat 4 _), List.drop_left' (length_bytesOfNat 4 _),
    List.take_left' (length_bytesOfNat 4 _), natOfBytes_bytesOfNat, natOfBytes_bytesOfNat]
  exact ⟨Nat.mod_eq_of_lt hb, rfl⟩

theorem drop_withLength (b : List Byte) : (withLength b).drop 8 = b :=
  List.drop_left' (by simp [length_bytesOfNat])

/-- An update whose operands hold and which is no image command is carried out. -/
theorem State.runUpd_withLength {q op : Nat} {b : List Byte} (himage : isImageOp op = false) (hb : b.length + 8 < 2 ^ 32) :
    s.runUpd { seq := q, op := op, operands := withLength b } = State.endUpd q op (s.applyOp op b [] (.relayed q)) := by
  obtain ⟨hlength, hzero⟩ := natOfBytes_withLength hb
  unfold State.runUpd
  rw [length_withLength, hlength, hzero, drop_withLength]
  exact (if_neg (by omega)).trans (if_neg (by rw [himage]; decide))

/-- The acknowledgement of an update is kept, and sent. -/
def State.acked (q op : Nat) (st : Status) (s : State) : State :=
  { s with ras := { s.ras with acks := (s.ras.acks ++ [(q, op, st)]).drop (s.ras.acks.length + 1 - 64) } }

theorem State.mem_acked (q op : Nat) (st : Status) (s : State) : (q, op, st) ∈ (s.acked q op st).ras.acks := by
  have hkept : s.ras.acks.length + 1 - 64 ≤ s.ras.acks.length := by omega
  change _ ∈ (s.ras.acks ++ [(q, op, st)]).drop _
  rw [List.drop_append_of_le_length hkept]
  exact List.mem_append_right _ List.mem_cons_self

theorem State.endUpd_ok {q op : Nat} (hexpelled : t.pkg.expelled = false) : State.endUpd q op (some .ok, t) =
    ((t.bump R.RAS_CNT_count [3]).acked q op .ok).send 0
      ((t.bump R.RAS_CNT_count [3]).mgMsg 0xB1 (t.bump R.RAS_CNT_count [3]).managerEid q op .ok []) := by
  change State.tell (.relayed q) op .ok (t.bump R.RAS_CNT_count [3]) = _
  unfold State.tell
  exact if_neg (by rw [State.bump_pkg_eq, hexpelled]; decide)

theorem changes_discardUpd (s : State) : Changes [] conveyed s s.discardUpd :=
  (Changes.refl _ _ s).told ((Told.refl s).bump (by decide) _)

theorem gives_mgUpdate_expected {q : Nat} {k : Byte} (h : Managed s) (hty : m.ty = 0xB0) (hfirmware : s.firmware = true)
    (hrestart : s.sec.restarted = none) (hworker : s.isManager = false) (hsrc : m.src = s.managerEid) (hq : m.f 0 0 32 = q)
    (hexpected : q = s.ras.expected) (hop : m.f 4 0 16 = 0x0502) (hbytes : m.bytes 16 (m.len - 16) = withLength [k])
    (hheld : s.ras.held = []) (hready : s.isReady B.sec = true) (hk : k ≠ 0) (hlt : k.toNat < 32)
    (hactive : s.rd R.SEC_TENANT_state [k.toNat] = 1) :
    Gives (.mgUpdate m) s (fun t => t.rd R.SEC_TENANT_state [k.toNat] = 2 ∧ t.ras.expected = (q + 1) % 2 ^ 32 ∧
      (q, 0x0502, .ok) ∈ t.ras.acks ∧ RegsBut [R.SEC_TENANT_state] s t ∧ PartsBut conveyed s t) := by
  have hread := changes_consume m.die m s
  generalize hu : (s.consume m.die m).expecting ((q + 1) % 2 ^ 32) = u
  have htaken : Changes [] conveyed s u := by
    rw [← hu]
    exact hread.trans ((changes_inRas _ _).weaken (by simp))
  have hexpelled : u.pkg.expelled = false := by rw [htaken.parts .pkg (by decide), h.2]
  have happly := State.applyOp_tenantRetire (s := u) (k := k) (bulk := []) (who := .relayed q)
    (by rwa [State.firmware, htaken.rd R.SEC_BOOT_STATUS_stage []]) hexpelled
    (by rwa [State.isReady, htaken.rd R.GLB_READY_ready []]) hk hlt (by rwa [htaken.rd _ _])
  generalize hv : u.wr R.SEC_TENANT_state [k.toNat] 2 = v at happly
  have hset : Changes [R.SEC_TENANT_state] conveyed s v := by
    rw [← hv]
    exact (htaken.weaken (by simp)).wr (by simp) _ _
  have hrasv : v.ras = u.ras := by rw [← hv, State.wr_ras_eq]
  have hrasu : u.ras = { s.ras with expected := (q + 1) % 2 ^ 32 } := by
    rw [← hu, State.expecting, State.ras_consume]
  have hdone : (s.consume m.die m).takeUpd (updOf m) = State.endUpd q 0x0502 (some .ok, v) := by
    have hupd : updOf m = { seq := q, op := 0x0502, operands := withLength [k] } := by rw [updOf, hq, hop, hbytes]
    rw [hupd, State.takeUpd_of_running (by rw [State.sec_consume, hrestart]), hu, State.runUpd_withLength rfl (by simp), happly]
  rw [State.endUpd_ok (by rw [← hv, State.wr_pkg_eq, hexpelled])] at hdone
  generalize hw : v.bump R.RAS_CNT_count [3] = w at hdone
  have hbumped : Changes [R.SEC_TENANT_state] conveyed s w := by
    rw [← hw]
    exact hset.told ((Told.refl v).bump (by decide) _)
  have hrasw : w.ras = { s.ras with expected := (q + 1) % 2 ^ 32 } := by rw [← hw, State.bump_ras_eq, hrasv, hrasu]
  generalize w.mgMsg 0xB1 w.managerEid q 0x0502 .ok [] = reply at hdone
  have hras : ((w.acked q 0x0502 .ok).send 0 reply).ras = (w.acked q 0x0502 .ok).ras := State.ras_send _ _ _
  have hupdated : (s.consume m.die m).updRead m = (w.acked q 0x0502 .ok).send 0 reply := by
    have hfrom : (s.consume m.die m).fromManager m = true := by rw [State.fromManager_consume, fromManager_iff]; exact ⟨hworker, hsrc⟩
    rw [State.updRead, if_neg (by simp [State.pkg_consume, h.2]), if_neg (not_not.mpr hfrom),
      if_pos (by rw [hq, hexpected, State.ras_consume, dist_self]), hdone, State.takeHeld_nil]
    rw [hras, State.acked, hrasw]
    exact hheld
  have hall : Changes [R.SEC_TENANT_state] conveyed s ((w.acked q 0x0502 .ok).send 0 reply) :=
    (hbumped.trans ((changes_inRas _ _).weaken (by simp))).trans ((changes_send _ _ _).weaken (by simp))
  have hstate : w.rd R.SEC_TENANT_state [k.toNat] = 2 := by
    rw [← hw, ← hv]
    exact (((Told.refl _).bump (by decide) _).regs _ _ (by decide)).trans (State.rd_wr_same _ _ _ _)
  refine gives_serving ((exec_mgUpdate hty).trans (congrArg (serving s) hupdated)) h.1 ⟨?_, ?_, ?_, hall.after⟩
  · exact (State.rd_after s _ _ _).trans (((changes_send 0 reply _).rd _ _).trans hstate)
  · rw [State.after_ras_eq, hras, State.acked, hrasw]
  · rw [State.after_ras_eq, hras]
    exact State.mem_acked _ _ _ _

theorem gives_mgUpdate_early {q : Nat} (h : Managed s) (hty : m.ty = 0xB0) (hworker : s.isManager = false)
    (hsrc : m.src = s.managerEid) (hq : m.f 0 0 32 = q) (hahead : 0 < dist 32 q s.ras.expected)
    (hnear : dist 32 q s.ras.expected < 64) (hheld : s.ras.held = []) :
    Gives (.mgUpdate m) s (fun t => t.ras.held = [{ seq := q, op := m.f 4 0 16, operands := m.bytes 16 (m.len - 16) }] ∧
      t.ras.expected = s.ras.expected ∧ RegsBut [] s t ∧ PartsBut conveyed s t) := by
  have hras := State.ras_consume m.die m s
  have hfrom : (s.consume m.die m).fromManager m = true := by rw [State.fromManager_consume, fromManager_iff]; exact ⟨hworker, hsrc⟩
  have hkept : (s.consume m.die m).updRead m = { s.consume m.die m with ras := { s.ras with held := [updOf m] } } := by
    rw [State.updRead, if_neg (by simp [State.pkg_consume, h.2]), if_neg (not_not.mpr hfrom), hras, hq, if_neg (by omega),
      if_pos hnear, hheld, if_neg (by simp), List.nil_append]
  refine gives_serving ((exec_mgUpdate hty).trans (congrArg (serving s) hkept)) h.1 ⟨?_, rfl, (changes_readInRas _).after⟩
  change [updOf m] = _
  rw [updOf, hq]

theorem gives_mgUpdate_foreign (h : Managed s) (hty : m.ty = 0xB0) (hforeign : s.isManager = true ∨ m.src ≠ s.managerEid) :
    Gives (.mgUpdate m) s (fun t => t.ras.expected = s.ras.expected ∧ RegsBut [] s t ∧ PartsBut conveyed s t) := by
  have hfrom : ¬ (s.consume m.die m).fromManager m = true := by
    rw [State.fromManager_consume, fromManager_iff]
    rintro ⟨hworker, hsrc⟩
    rcases hforeign with hm | hne
    · rw [hm] at hworker
      cases hworker
    · exact hne hsrc
  have hdropped : (s.consume m.die m).updRead m = (s.consume m.die m).discardUpd := by
    rw [State.updRead, if_neg (by simp [State.pkg_consume, h.2]), if_pos hfrom]
  refine gives_serving ((exec_mgUpdate hty).trans (congrArg (serving s) hdropped)) h.1
    ⟨?_, ((changes_consume _ _ s).trans (changes_discardUpd _)).after⟩
  rw [State.after_ras_eq, State.discardUpd, State.bump_ras_eq, State.ras_consume]

/-! ### Updates at the manager device (R415) -/

/-- What an acknowledgement that was read does. -/
def State.ackRead (m : Msg) (s : State) : State :=
  if ¬ s.isManager ∨ ¬ (s.ras.workers.get {} [m.src]).out.any (fun u => u.upd.seq = m.f 0 0 32) then s
  else
    let t := (s.modWorker m.src (fun w => { w with out := w.out.filter (fun u => decide (u.upd.seq ≠ m.f 0 0 32)), wait := w.wait.tail })).mailTarget
      m.src (m.f 0 0 32) (Status.ofCode (m.f 4 16 4))
    match (s.ras.workers.get {} [m.src]).wait with
    | u :: _ => t.sendUpd m.src u
    | [] => t

theorem exec_mgAck (hty : m.ty = 0xB1) : exec (.mgAck m) s = serving s ((s.consume m.die m).ackRead m) :=
  congrArg (serving s) (if_neg (not_not.mpr hty))

theorem Map.get_of_get? {α : Type} {k : Map α} {key : Key} {v d : α} (h : k.get? key = some v) : k.get d key = v :=
  congrArg (fun o => o.getD d) h

theorem Map.has_of_get? {α : Type} {k : Map α} {key : Key} {v : α} (h : k.get? key = some v) : k.has key = true :=
  congrArg Option.isSome h

theorem State.mailTarget_empty (h : s.hif.mbox = Map.empty) (e q : Nat) (st : Status) : s.mailTarget e q st = s := by
  unfold State.mailTarget
  rw [h]
  rfl

/-- The updates of a worker but the one acknowledged. -/
def Worker.acked (q : Nat) (w : Worker) : Worker :=
  { w with out := w.out.filter (fun u => decide (u.upd.seq ≠ q)), wait := w.wait.tail }

theorem State.ackRead_last {w : Worker} (hmanager : s.isManager = true) (hw : s.ras.workers.get {} [m.src] = w)
    (hwait : w.wait = []) (hout : w.out.any (fun u => decide (u.upd.seq = m.f 0 0 32)) = true) (hbox : s.hif.mbox = Map.empty) :
    s.ackRead m = s.modWorker m.src (Worker.acked (m.f 0 0 32)) := by
  unfold State.ackRead
  rw [if_neg (by rw [hw, hmanager, hout]; decide), hw, hwait]
  exact State.mailTarget_empty (s := s.modWorker m.src (Worker.acked (m.f 0 0 32))) hbox _ _ _

theorem gives_mgAck {w : Worker} (h : Managed s) (hty : m.ty = 0xB1) (hmanager : s.isManager = true)
    (hw : s.ras.workers.get? [m.src] = some w) (hwait : w.wait = [])
    (hout : w.out.any (fun u => decide (u.upd.seq = m.f 0 0 32)) = true) (hbox : s.hif.mbox = Map.empty) :
    Gives (.mgAck m) s (fun t => t.ras.workers.get? [m.src] =
      some { w with out := w.out.filter (fun u => decide (u.upd.seq ≠ m.f 0 0 32)) } ∧ RegsBut [] s t ∧ PartsBut conveyed s t) := by
  have hworker : (s.consume m.die m).ras.workers.get {} [m.src] = w := by rw [State.ras_consume, Map.get_of_get? hw]
  have hmbox : (s.consume m.die m).hif.mbox = Map.empty := (keepsMail_consume m.die m s).mbox.trans hbox
  have hrole : (s.consume m.die m).isManager = true := by rw [State.isManager_consume, hmanager]
  have hdone := State.ackRead_last (s := s.consume m.die m) hrole hworker hwait hout hmbox
  have hkept : ((s.consume m.die m).modWorker m.src (Worker.acked (m.f 0 0 32))).ras.workers.get? [m.src] =
      some { w with out := w.out.filter (fun u => decide (u.upd.seq ≠ m.f 0 0 32)) } := by
    refine (Map.get?_set_same _ _ _).trans ?_
    rw [hworker, Worker.acked, hwait, List.tail_nil, ← hwait]
  exact gives_serving ((exec_mgAck hty).trans (congrArg (serving s) hdone)) h.1 ⟨hkept, (changes_readInRas _).after⟩

/-- The update of a worker that was sent, sent once more. -/
def Worker.resent (q now : Nat) (w : Worker) : Worker :=
  { w with out := w.out.map (fun v => if v.upd.seq = q then { v with sentAt := now, sends := v.sends + 1 } else v) }

/-- A worker out of reach. -/
def Worker.unreachable (w : Worker) : Worker := { w with out := [], wait := [], lost := true }

section

variable {e q : Nat} {w : Worker} {u : SentUpd}

theorem find_onlyUpd (hw : s.ras.workers.get? [e] = some w) (hout : w.out = [u]) (hseq : u.upd.seq = q) :
    (s.ras.workers.get {} [e]).out.find? (fun u => decide (u.upd.seq = q)) = some u := by
  simp [Map.get_of_get? hw, hout, hseq]

theorem exec_updateResend (hw : s.ras.workers.get? [e] = some w) (hout : w.out = [u]) (hseq : u.upd.seq = q)
    (hdue : u.sentAt + 1000000 ≤ s.now) (hsends : u.sends < 16) : exec (.updateResend e q) s =
      serving s ((s.modWorker e (Worker.resent q s.now)).send 0 (s.mgMsg 0xB0 e u.upd.seq u.upd.op .ok u.upd.operands)) := by
  change execUpdateResend e q s = _
  unfold execUpdateResend
  rw [find_onlyUpd hw hout hseq]
  exact congrArg (serving s) ((if_neg (by omega)).trans (if_neg (by omega)))

theorem exec_updateResend_lost (hw : s.ras.workers.get? [e] = some w) (hout : w.out = [u]) (hseq : u.upd.seq = q)
    (hdue : u.sentAt + 1000000 ≤ s.now) (hsends : 16 ≤ u.sends) (hbox : s.hif.mbox = Map.empty) :
    exec (.updateResend e q) s = serving s (s.modWorker e Worker.unreachable) := by
  have hnone : s.hif.mbox.get? [0] = none := by rw [hbox]; rfl
  change execUpdateResend e q s = _
  unfold execUpdateResend
  rw [find_onlyUpd hw hout hseq]
  refine congrArg (serving s) ((if_neg (by omega)).trans ((if_pos hsends).trans ?_))
  change (match s.hif.mbox.get? [0] with | some q => _ | none => _) = _
  rw [hnone]
  rfl

theorem gives_updateResend (h : Managed s) (hw : s.ras.workers.get? [e] = some w) (hout : w.out = [u]) (hseq : u.upd.seq = q)
    (hdue : u.sentAt + 1000000 ≤ s.now) (hsends : u.sends < 16) :
    Gives (.updateResend e q) s (fun t => t.ras.workers.get? [e] =
      some { w with out := [{ u with sentAt := s.now, sends := u.sends + 1 }] } ∧ RegsBut [] s t ∧ PartsBut conveyed s t) := by
  refine gives_serving (exec_updateResend hw hout hseq hdue hsends) h.1
    ⟨?_, (((changes_modWorker _ _ s).weaken (by simp)).trans (changes_send _ _ _)).after⟩
  rw [State.after_ras_eq, State.ras_send]
  refine (Map.get?_set_same _ _ _).trans ?_
  rw [Map.get_of_get? hw, Worker.resent, hout]
  simp [hseq]

theorem gives_updateResend_lost (h : Managed s) (hw : s.ras.workers.get? [e] = some w) (hout : w.out = [u])
    (hseq : u.upd.seq = q) (hdue : u.sentAt + 1000000 ≤ s.now) (hsends : 16 ≤ u.sends) (hbox : s.hif.mbox = Map.empty) :
    Gives (.updateResend e q) s (fun t => t.ras.workers.get? [e] = some { w with out := [], wait := [], lost := true } ∧
      RegsBut [] s t ∧ PartsBut [.ras] s t) := by
  refine gives_serving (exec_updateResend_lost hw hout hseq hdue hsends hbox) h.1 ⟨?_, (changes_modWorker _ _ s).after⟩
  refine (Map.get?_set_same _ _ _).trans ?_
  rw [Map.get_of_get? hw, Worker.unreachable]

end

theorem gives_mgFwAck {w : Worker} (h : Managed s) (hty : m.ty = 0xB7) (hw : s.ras.workers.get? [m.src] = some w) :
    Gives (.mgFwAck m) s (fun t => t.ras.workers.get? [m.src] =
      some { w with out := w.out.map (fun v => if v.upd.seq = m.f 0 0 32 then { v with sentAt := s.now, sends := 1 } else v) } ∧
      RegsBut [] s t ∧ PartsBut conveyed s t) := by
  have hras := State.ras_consume m.die m s
  have hexec : exec (.mgFwAck m) s = serving s _ := congrArg (serving s) ((if_neg (not_not.mpr hty)).trans
    (if_neg (not_not.mpr (by rw [hras]; exact Map.has_of_get? hw))))
  refine gives_serving hexec h.1 ⟨?_, (changes_readInRas _).after⟩
  refine (Map.get?_set_same _ _ _).trans ?_
  rw [hras, Map.get_of_get? hw, State.now_consume]

/-! ### Reports (R416, R453, R481) -/

theorem State.mem_keep (b : List Byte) (s : State) : b ∈ (s.keep b).ras.fetch := by
  unfold State.keep
  split
  next hknown => exact List.contains_iff_mem.mp hknown
  next => exact List.mem_append_right _ List.mem_cons_self

theorem changes_keep (b : List Byte) (s : State) : Changes [] [.ras] s (s.keep b) :=
  Changes.ite (Changes.refl _ _ s) (changes_inRas _ s)

theorem gives_mgReport (h : Managed s) (hty : m.ty = 0xB2) (hmanager : s.isManager = true) :
    Gives (.mgReport m) s (fun t => m.bytes 0 m.len ∈ t.ras.fetch ∧ RegsBut [] s t ∧ PartsBut conveyed s t) := by
  have hexec : exec (.mgReport m) s = serving s _ := congrArg (serving s) ((if_neg (not_not.mpr hty)).trans
    (if_pos (by rw [State.isManager_consume, hmanager])))
  refine gives_serving hexec h.1 ⟨?_, (((changes_consume _ _ s).trans ((changes_keep _ _).weaken (by simp))).trans
    (changes_send _ _ _)).after⟩
  rw [State.after_ras_eq, State.ras_send]
  exact State.mem_keep _ _

theorem gives_mgExpelAck (h : Managed s) (hty : m.ty = 0xB5) (hmanager : s.isManager = true) :
    Gives (.mgExpelAck m) s (fun t => m.bytes 0 m.len ∈ t.ras.fetch ∧ RegsBut [] s t ∧ PartsBut conveyed s t) := by
  have hexec : exec (.mgExpelAck m) s = serving s _ := congrArg (serving s) ((if_neg (not_not.mpr hty)).trans
    (if_pos (by rw [State.isManager_consume, hmanager])))
  exact gives_serving hexec h.1 ⟨State.mem_keep _ _, ((changes_consume _ _ s).trans ((changes_keep _ _).weaken (by simp))).after⟩

theorem gives_mgReportAck (h : Managed s) (hty : m.ty = 0xB3) (hworker : s.isManager = false) (hsrc : m.src = s.managerEid) :
    Gives (.mgReportAck m) s (fun t => t.ras.reports.all (fun r => decide (r.seq ≠ m.f 0 0 32)) = true ∧ RegsBut [] s t ∧
      PartsBut conveyed s t) := by
  have hexec : exec (.mgReportAck m) s = serving s _ := congrArg (serving s) ((if_neg (not_not.mpr hty)).trans
    (if_pos (by rw [State.fromManager_consume, fromManager_iff]; exact ⟨hworker, hsrc⟩)))
  refine gives_serving hexec h.1 ⟨?_, (changes_readInRas _).after⟩
  exact List.all_eq_true.mpr (fun r hr => (List.mem_filter.mp hr).2)

theorem State.find_report {q : Nat} {p : Report} (hreports : s.ras.reports = [p]) (hseq : p.seq = q) :
    s.ras.reports.find? (fun r => decide (r.seq = q)) = some p := by
  simp [hreports, hseq]

/-- The reports with the time of the one that is sent again. -/
def State.reportsSent (r : List Report) (s : State) : State := { s with ras := { s.ras with reports := r } }

theorem gives_reportResend {q : Nat} {p : Report} (h : Managed s) (hreports : s.ras.reports = [p]) (hseq : p.seq = q)
    (hdue : p.sentAt + 1000000 ≤ s.now) :
    Gives (.reportResend q) s (fun t => (∃ u : State, u.ras = { s.ras with reports := [{ p with sentAt := s.now }] } ∧
      t = s.after ((u.sendReport p).bump R.RAS_CNT_count [5])) ∧ RegsBut [] s t ∧ PartsBut conveyed s t) := by
  have hexec : exec (.reportResend q) s = serving s (((s.reportsSent [{ p with sentAt := s.now }]).sendReport p).bump
      R.RAS_CNT_count [5]) := by
    change execReportResend q s = _
    unfold execReportResend
    simp only [State.find_report hreports hseq]
    rw [if_neg (by omega), hreports]
    simp [hseq, State.reportsSent]
  refine gives_serving hexec h.1 ⟨⟨_, rfl, rfl⟩, ?_⟩
  exact (((changes_inRas _ s).weaken (by simp)).trans ((conveys_sendReport p _).changes.told
    ((Told.refl _).bump (by decide) _))).after

theorem gives_reportResend_early {q : Nat} {p : Report} (hreports : s.ras.reports = [p]) (hsoon : s.now < p.sentAt + 1000000) :
    Gives (.reportResend q) s (fun t => RegsBut [] s t ∧ PartsBut [] s t) := by
  have hsame : serving s s = clocked s s := congrArg (clocked s) (ite_self s)
  refine gives_idle (Eq.trans ?_ hsame)
  change execReportResend q s = serving s s
  unfold execReportResend
  refine congrArg (serving s) ?_
  by_cases hseq : p.seq = q
  · rw [State.find_report hreports hseq]
    exact if_pos hsoon
  · have hnone : s.ras.reports.find? (fun r => decide (r.seq = q)) = none := by simp [hreports, hseq]
    rw [hnone]

/-! ### Objects and evidence (R388, R412, R413) -/

/-- A piece of an object is acknowledged, and the object kept with it. -/
def State.pieceKept (m : Msg) (x : Transfer) (s : State) : State :=
  let ack := s.mgMsg 0xB7 m.src (m.f 0 0 32) (m.f 4 0 16) .ok []
  let t := s.send 0 { ack with body := ack.body + m.f 12 0 32 <<< 96 }
  { t with ras := { t.ras with objects := t.ras.objects.set [m.src, m.f 0 0 32] x } }

theorem changes_pieceKept (m : Msg) (x : Transfer) (s : State) : Changes [] conveyed s (s.pieceKept m x) :=
  (changes_send 0 _ s).trans ((changes_inRas _ _).weaken (by simp))

theorem exec_mgFwData {x : Transfer} (hty : m.ty = 0xB6) (hexpelled : (s.consume m.die m).pkg.expelled = false)
    (hfrom : (s.consume m.die m).fromManager m = true) (hrecovery : (s.consume m.die m).inRecovery = false)
    (hx : (s.consume m.die m).ras.objects.get? [m.src, m.f 0 0 32] = some x)
    (hpart : (x.add (m.f 12 0 32) (m.bytes 16 (m.len - 16))).whole = false) :
    exec (.mgFwData m) s = serving s ((s.consume m.die m).pieceKept m (x.add (m.f 12 0 32) (m.bytes 16 (m.len - 16)))) := by
  have hobject : (if ((s.consume m.die m).inRecovery && decide (m.f 4 0 16 = 0x0605)) = true then
      some ((s.consume m.die m).ras.objects.get { op := m.f 4 0 16 } [m.src, m.f 0 0 32])
      else (s.consume m.die m).ras.objects.get? [m.src, m.f 0 0 32]) = some x :=
    (if_neg (by simp [hrecovery])).trans hx
  refine congrArg (serving s) ((if_neg (not_not.mpr hty)).trans ((if_neg (by simp [hexpelled])).trans
    ((if_neg (by simp [hfrom])).trans ?_)))
  rw [hobject]
  exact if_neg (by simp [hpart])

theorem gives_mgFwData {x : Transfer} (h : Managed s) (hty : m.ty = 0xB6) (hworker : s.isManager = false)
    (hsrc : m.src = s.managerEid) (hrecovery : s.inRecovery = false) (hx : s.ras.objects.get? [m.src, m.f 0 0 32] = some x)
    (hpart : (x.add (m.f 12 0 32) (m.bytes 16 (m.len - 16))).whole = false) :
    Gives (.mgFwData m) s (fun t => t.ras.objects.get? [m.src, m.f 0 0 32] =
      some (x.add (m.f 12 0 32) (m.bytes 16 (m.len - 16))) ∧ RegsBut [] s t ∧ PartsBut conveyed s t) := by
  have hread := changes_consume m.die m s
  have hfrom : (s.consume m.die m).fromManager m = true := by rw [State.fromManager_consume, fromManager_iff]; exact ⟨hworker, hsrc⟩
  have hrunning : (s.consume m.die m).inRecovery = false := by
    rwa [State.inRecovery, hread.rd R.SEC_BOOT_STATUS_stage []]
  have hexec := exec_mgFwData hty (by rw [State.pkg_consume, h.2]) hfrom hrunning (by rw [State.ras_consume, hx]) hpart
  exact gives_serving hexec h.1 ⟨Map.get?_set_same _ _ _, (hread.trans (changes_pieceKept _ _ _)).after⟩

theorem gives_mgEvidRsp (h : Managed s) (hty : m.ty = 0xB9) (hmanager : s.isManager = true)
    (hnone : s.ras.evidence = Map.empty) (hpart : (({ op := 0 } : Transfer).add (m.f 12 0 32) (m.bytes 16 (m.len - 16))).whole = false) :
    Gives (.mgEvidRsp m) s (fun t => t.ras.evidence.get? [m.src, m.f 0 0 32] =
      some (({ op := 0 } : Transfer).add (m.f 12 0 32) (m.bytes 16 (m.len - 16))) ∧ RegsBut [] s t ∧ PartsBut conveyed s t) := by
  have hfirst : (s.consume m.die m).ras.evidence.get { op := 0 } [m.src, m.f 0 0 32] = { op := 0 } := by
    rw [State.ras_consume, hnone]
    rfl
  have hexec : exec (.mgEvidRsp m) s = serving s _ := congrArg (serving s) ((if_neg (not_not.mpr hty)).trans
    ((if_neg (by simp [State.isManager_consume, hmanager])).trans (if_neg (by rw [hfirst, hpart]; decide))))
  refine gives_serving hexec h.1 ⟨?_, (changes_readInRas _).after⟩
  rw [hfirst]
  exact Map.get?_set_same _ _ _

theorem State.evidenceRefusal_consume (d : Nat) (m : Msg) (fn : Nat) (via : Option (Nat × Nat)) (scope : Nat) (kem : Bool) (s : State) :
    (s.consume d m).evidenceRefusal fn via scope kem = s.evidenceRefusal fn via scope kem := by
  have hread := changes_consume d m s
  rw [State.evidenceRefusal, State.evidenceRefusal, State.sec_consume, State.on, State.firmware,
    hread.rd R.SEC_BOOT_STATUS_stage [], hread.rd R.SEC_BOOT_STATUS_identity_ok [], State.on, State.firmware]

/-- An evidence request that draws no key pair is queued. -/
theorem State.evidenceReq_queued {fn : Nat} {via : Option (Nat × Nat)} {scope nonce : Nat}
    (hok : s.evidenceRefusal fn via scope false = .ok) : s.evidenceReq fn via scope false nonce =
      { s with sec := { s.sec with evidence := s.sec.evidence ++ [{ fn := fn, via := via, scope := scope, nonce := nonce % 2 ^ 256 }] } } := by
  rw [State.evidenceReq, if_neg (not_not.mpr hok)]
  exact if_neg (by simp)

theorem gives_mgEvidReq (h : Managed s) (hty : m.ty = 0xB8) (hworker : s.isManager = false) (hsrc : m.src = s.managerEid)
    (hok : s.evidenceRefusal 0 (some (m.src, m.f 0 0 32)) (m.f 16 0 8) (m.f 16 8 1 = 1) = .ok) (hplain : m.f 16 8 1 = 0) :
    Gives (.mgEvidReq m) s (fun t => t.sec = { s.sec with evidence := s.sec.evidence ++
        [{ fn := 0, via := some (m.src, m.f 0 0 32), scope := m.f 16 0 8, nonce := m.f 20 0 256 % 2 ^ 256 }] } ∧ RegsBut [] s t ∧
      PartsBut [.out, .hif, .sw, .ports, .ras, .answers, .sec] s t) := by
  have hkem : decide (m.f 16 8 1 = 1) = false := by rw [hplain]; decide
  rw [hkem] at hok
  have hfrom : (s.consume m.die m).fromManager m = true := by rw [State.fromManager_consume, fromManager_iff]; exact ⟨hworker, hsrc⟩
  have hexec : exec (.mgEvidReq m) s = serving s _ := congrArg (serving s) ((if_neg (not_not.mpr hty)).trans
    ((if_neg (by simp [State.pkg_consume, h.2])).trans (if_neg (not_not.mpr hfrom))))
  rw [hkem, State.evidenceReq_queued (by rwa [State.evidenceRefusal_consume]), State.sec_consume] at hexec
  exact gives_serving hexec h.1 ⟨rfl, (((changes_consume _ _ s).weaken (by simp)).trans
    ((changes_inSec _ _).weaken (by simp))).after⟩

end Sys2Proof.Machine
end

section
/-! PROOF. Expels (R418, R419): what a port that goes down leaves of memory, and the expel of this part or of another. -/

namespace Sys2Proof.Machine

-- One proof after another: proofs under way at once are more threads than one process has memory for.
set_option Elab.async false

open Sys2Proof.Safety

variable {s t u : State} {m : Msg}

/-! ### What a port that goes down leaves of memory (R78, R186, R479) -/

/-- While no request waits for its turn, none gets it, and memory and the security unit stay. -/
def KeepsStores (s t : State) : Prop := s.trk.flowWait = [] → t.trk.flowWait = [] ∧ t.mem = s.mem ∧ t.sec = s.sec

theorem KeepsStores.refl (s : State) : KeepsStores s s := fun h => ⟨h, rfl, rfl⟩

theorem KeepsStores.trans (h₁ : KeepsStores s t) (h₂ : KeepsStores t u) : KeepsStores s u := fun h => by
  obtain ⟨hflow, hmem, hsec⟩ := h₁ h
  obtain ⟨hflow', hmem', hsec'⟩ := h₂ hflow
  exact ⟨hflow', hmem'.trans hmem, hsec'.trans hsec⟩

theorem KeepsStores.ite {a b : State} {c : Prop} [Decidable c] (ha : KeepsStores s a) (hb : KeepsStores s b) :
    KeepsStores s (if c then a else b) := by
  split
  · exact ha
  · exact hb

theorem KeepsStores.foldl {α : Type} (g : State → α → State) (hg : ∀ s a, KeepsStores s (g s a)) (l : List α) (s : State) :
    KeepsStores s (l.foldl g s) := by
  induction l generalizing s with
  | nil => exact .refl s
  | cons a l ih => exact (hg s a).trans (ih _)

theorem KeepsStores.of_changes {l : List Fld} {ps : List Part} (h : Changes l ps s t) (htrk : Part.trk ∉ ps := by decide)
    (hmem : Part.mem ∉ ps := by decide) (hsec : Part.sec ∉ ps := by decide) : KeepsStores s t := fun hflow => by
  have hsame : t.trk = s.trk := h.parts .trk htrk
  exact ⟨by rw [hsame, hflow], h.parts .mem hmem, h.parts .sec hsec⟩

theorem KeepsStores.of_conveys {l : List Fld} (h : Conveys l s t) : KeepsStores s t := .of_changes h.changes

theorem KeepsStores.of_told (h : Told s t) : KeepsStores s t := .of_changes ((Changes.refl [] reporting s).told h)

theorem keepsStores_wr (f : Fld) (ix : List Nat) (v : Nat) (s : State) : KeepsStores s (s.wr f ix v) :=
  .of_changes (changes_wr f ix v s)

theorem keepsStores_inPair (k : Pair) (s : State) : KeepsStores s { s with pair := k } := fun h => ⟨h, rfl, rfl⟩

theorem keepsStores_inSw (k : Sw) (s : State) : KeepsStores s { s with sw := k } := fun h => ⟨h, rfl, rfl⟩

theorem keepsStores_send (d : Nat) (m : Msg) (s : State) : KeepsStores s (s.send d m) := .of_conveys (conveys_send (l := []) d m s)

theorem keepsStores_bump (f : Fld) (ix : List Nat) (s : State) : KeepsStores s (s.bump f ix) := keepsStores_wr _ _ _ s

theorem keepsStores_event (blk b : Nat) (s : State) : KeepsStores s (s.event blk b) := .of_told ((Told.refl s).event blk b)

theorem keepsStores_answer (d : Nat) (m : Msg) (st : Status) (load : Nat) (data : Option Nat) (s : State) :
    KeepsStores s (s.answer d m st load data) := .of_conveys (conveys_answer (l := []) _ _ _ _ _ s)

theorem keepsStores_dropReader (q : QMsg) (s : State) : KeepsStores s (s.dropReader q) :=
  .of_conveys (conveys_dropReader (l := []) q s)

/-- What a request's entries change beside the order in which requests are performed. -/
theorem keepsStores_inTrk {k : Trk} (h : k.flowWait = s.trk.flowWait) : KeepsStores s { s with trk := k } :=
  fun hflow => ⟨h.trans hflow, rfl, rfl⟩

theorem keepsStores_inTables {k : Coh} {trk : Trk} {pool : Pool} {tier : Tier} (h : trk.flowWait = []) (s : State) :
    KeepsStores s (s.inTables k trk pool tier) := fun _ => ⟨h, rfl, rfl⟩

theorem keepsStores_dropHome (d i : Nat) (s : State) : KeepsStores s (s.dropHome d i) := keepsStores_inTrk rfl

theorem keepsStores_finishHome (d i : Nat) (st : Status) (data : Option Nat) (s : State) :
    KeepsStores s (s.finishHome d i st data) := by
  unfold State.finishHome
  split
  · exact (keepsStores_dropHome d i s).trans (.ite (keepsStores_answer _ _ _ _ _ _)
      (.foldl _ (fun s _ => keepsStores_answer _ _ _ _ _ s) _ _))
  · exact .refl s

theorem keepsStores_forward (d i : Nat) (s : State) : KeepsStores s (s.forward d i) := by
  unfold State.forward
  split
  · exact .refl s
  next h _ =>
    split
    · exact keepsStores_finishHome _ _ _ _ s
    next =>
      refine .ite (keepsStores_finishHome _ _ _ _ s) (.ite (keepsStores_inTrk rfl) ?_)
      extract_lets n r m m' v f sw trk w
      have hv : KeepsStores s v := (keepsStores_dropHome d i s).trans (keepsStores_bump _ _ _)
      clear_value v
      have hw : KeepsStores v w := fun hflow => ⟨hflow, rfl, rfl⟩
      clear_value w
      exact (hv.trans hw).trans (.of_conveys (l := []) ((conveys_takeAgentCells _ _ _ w).trans (conveys_toOutput _ _ _ _)))

theorem keepsStores_dropFwd (d n : Nat) (s : State) : KeepsStores s (s.dropFwd d n) := by
  unfold State.dropFwd
  exact KeepsStores.trans (t := { s with trk := { s.trk with fwd := s.trk.fwd.erase [d, n], fwdWait := s.trk.fwdWait.erase [d] } })
    (fun hflow => ⟨hflow, rfl, rfl⟩) (.foldl _ (fun t i => keepsStores_forward d i t) (s.trk.fwdWait.get [] [d]) _)

theorem keepsStores_endForwards (p : Fwd → Bool) (s : State) : KeepsStores s (s.endForwards p) :=
  .foldl _ (fun s _ => KeepsStores.trans (.foldl _ (fun s _ => keepsStores_answer _ _ _ _ _ s) _ s) (keepsStores_dropFwd _ _ _)) _ s

theorem keepsStores_purge (s : State) : KeepsStores s s.purge := fun hflow => by
  obtain ⟨w, q, tier, hpurge⟩ := State.purge_unqueued hflow
  rw [hpurge]
  exact ⟨rfl, rfl, rfl⟩

theorem keepsStores_endLive (p : Msg → Bool) (st : Msg → Status) (s : State) : KeepsStores s (s.endLive p st) :=
  KeepsStores.trans (.foldl _ (fun s _ => keepsStores_finishHome _ _ _ _ s) _ s) (keepsStores_purge _)

theorem keepsStores_tellHolders (kind node e : Nat) (x : Ext) (s : State) : KeepsStores s (s.tellHolders kind node e x) :=
  .foldl _ (fun s _ => .of_conveys (conveys_send (l := []) _ _ s)) _ s

theorem keepsStores_mirror (op : Nat) (b : List Byte) (s : State) : KeepsStores s (s.mirror op b) := by
  refine .ite ?_ (.refl s)
  unfold State.sendShadow
  exact (keepsStores_bump _ _ s).trans ((keepsStores_inPair _ _).trans (keepsStores_send _ _ _))

theorem keepsStores_setExt (node e : Nat) (x : Ext) (s : State) : KeepsStores s (s.setExt node e x) := fun h => ⟨h, rfl, rfl⟩

theorem keepsStores_setOwn (e : Nat) (x : Ext) (s : State) : KeepsStores s (s.setOwn e x) := by
  unfold State.setOwn
  extract_lets t
  have ht : KeepsStores s t := keepsStores_setExt s.node e x s
  clear_value t
  split
  · exact ht.trans (.ite (fun h => ⟨h, rfl, rfl⟩) (.refl _))
  · exact ht

theorem keepsStores_endMove (e : Nat) (s : State) : KeepsStores s (s.endMove e) := by
  unfold State.endMove
  split
  · exact fun h => ⟨h, rfl, rfl⟩
  · exact .refl s

theorem keepsStores_tidyGroup (g : Option Nat) (s : State) : KeepsStores s (s.tidyGroup g) := by
  cases g with
  | none => exact .refl s
  | some g =>
    exact .ite (.refl s) (.foldl _ (fun s _ => (keepsStores_wr _ _ _ s).trans (keepsStores_wr _ _ _ _)) _ s)

theorem keepsStores_loseExtent (node e : Nat) (s : State) : KeepsStores s (s.loseExtent node e) := by
  unfold State.loseExtent
  extract_lets x v w y pr z lost
  have hended : KeepsStores s v := (keepsStores_endLive _ _ s).trans (keepsStores_endForwards _ _)
  have htold : KeepsStores v w := .ite (keepsStores_tellHolders _ _ _ _ v) (.refl v)
  have hevent : KeepsStores w y := .of_told ((Told.refl w).event _ _)
  have hmirror : KeepsStores y z :=
    .ite (KeepsStores.trans (t := { y with pair := { y.pair with chunks := y.pair.chunks.erase [e] } })
      (fun h => ⟨h, rfl, rfl⟩) (keepsStores_mirror _ _ _)) (.refl y)
  clear_value v w y z
  exact .ite (.refl s) (hended.trans (htold.trans (hevent.trans (hmirror.trans (.trans
    (.ite ((keepsStores_endMove e z).trans (keepsStores_setOwn _ _ _)) (keepsStores_setExt _ _ _ z)) (keepsStores_tidyGroup _ _))))))

theorem keepsStores_loseExtents (node : Nat) (l : List Nat) (s : State) : KeepsStores s (s.loseExtents node l) :=
  .foldl _ (fun s e => keepsStores_loseExtent node e s) l s

theorem keepsStores_lenderGone (p : Nat) (s : State) : KeepsStores s (s.lenderGone p) :=
  (keepsStores_endForwards _ s).trans (.foldl _ (fun s _ => keepsStores_loseExtents _ _ s) _ _)

theorem keepsStores_discardUnrouted (q : QMsg) (s : State) : KeepsStores s (s.discardUnrouted q) := by
  unfold State.discardUnrouted
  extract_lets v w
  have hv : KeepsStores s v := by
    change KeepsStores s (match q.inPort with | some p => _ | none => _)
    split
    · exact .of_told ((Told.refl s).bump (by decide) _)
    · exact .refl s
  clear_value v
  exact (hv.trans (keepsStores_dropReader q v)).trans (.ite (keepsStores_answer _ _ _ _ _ _) (.refl _))

theorem keepsStores_requeue (q : QMsg) (s : State) : KeepsStores s (s.requeue q) := by
  unfold State.requeue
  split
  · refine .ite ?_ (keepsStores_discardUnrouted q s)
    split
    · exact fun h => ⟨h, rfl, rfl⟩
    · exact keepsStores_discardUnrouted q s
  · exact .ite (keepsStores_dropReader q s) (keepsStores_discardUnrouted q s)

theorem keepsStores_failIncomplete (p : Nat) (vc : Option Nat) (kind : Nat) (s : State) :
    KeepsStores s (s.failIncomplete p vc kind) := by
  unfold State.failIncomplete
  exact (keepsStores_inSw _ s).trans (.foldl _ (fun s q => keepsStores_dropReader q s) _ _)

/-- A port that goes down, whatever hangs on it, leaves memory and the security unit. -/
theorem keepsStores_goDown (p st : Nat) (s : State) : KeepsStores s (s.goDown p st) := by
  unfold State.goDown
  extract_lets up v r z
  have hv : KeepsStores s v := (KeepsStores.of_changes (changes_clearLink p s)).trans
    ((KeepsStores.of_changes (changes_setPst p st _)).trans (.of_conveys (conveys_modPort (l := []) _ _ _)))
  have hr : KeepsStores v r.2 := (keepsStores_wr _ _ _ v).trans ((KeepsStores.of_told ((Told.refl _).event _ _)).trans (fun h => ⟨h, rfl, rfl⟩))
  have hz : KeepsStores r.2 z := .foldl _ (fun s q => .ite (keepsStores_requeue q s) (keepsStores_dropReader q s)) _ _
  clear_value v r z
  exact .ite (hv.trans (hr.trans (hz.trans ((keepsStores_failIncomplete _ _ _ z).trans (keepsStores_lenderGone _ _))))) hv

theorem keepsStores_disablePort (p : Nat) (s : State) : KeepsStores s (s.disablePort p) :=
  (keepsStores_wr _ _ _ s).trans (keepsStores_goDown _ _ _)

/-! ### Expels received (R418) -/

theorem conveys_readExpel (src : Nat) (s : State) : Conveys [] s (s.readExpel src) :=
  Conveys.foldl _ (fun s (q : QMsg) => conveys_consume 0 q.msg s) _ s

/-- The verdict on an expel is sent to the part that passed it on. -/
def State.expelAnswered (b : List Byte) (src : Nat) (s : State) : State :=
  (s.takeExpel b).2.send 0 ((s.takeExpel b).2.mgMsg 0xB5 src 0 0 (s.takeExpel b).1 [])

theorem State.expelAnswered_cases (b : List Byte) (src : Nat) (s : State) :
    Changes [] [.out, .hif, .sw, .ports, .ras, .answers, .sec] s (s.expelAnswered b src) ∧
    (s.expelAnswered b src).sec.due = (if s.expelStatus b = .ok ∧ s.sec.expels.contains (sha (b.take 32)) = false then
      s.sec.due ++ [s.expelDue b] else s.sec.due) := by
  obtain ⟨-, htaken, hdue⟩ := s.takeExpel_cases b
  have hsent := conveys_send (l := []) 0 ((s.takeExpel b).2.mgMsg 0xB5 src 0 0 (s.takeExpel b).1 []) (s.takeExpel b).2
  exact ⟨(htaken.weaken (by simp)).trans (hsent.changes.weaken (by simp)), (congrArg Sec.due hsent.sec_eq).trans hdue⟩

theorem gives_mgExpel {e : Nat} {b : List Byte} (h : Managed s) (hfirmware : s.firmware = true) :
    Gives (.mgExpel b e) s (fun t => (t.sec.due = if s.expelStatus b = .ok ∧ s.sec.expels.contains (sha (b.take 32)) = false then
        s.sec.due ++ [s.expelDue b] else s.sec.due) ∧ RegsBut [] s t ∧
      PartsBut [.out, .hif, .sw, .ports, .ras, .answers, .sec] s t) := by
  have hread := conveys_readExpel e s
  have hrunning : ¬ ((s.readExpel e).pkg.expelled = true ∨ ¬ (s.readExpel e).firmware = true) := by
    rw [hread.pkg_eq, h.2, State.firmware, hread.changes.rd R.SEC_BOOT_STATUS_stage [], ← State.firmware, hfirmware]
    decide
  have hexec : exec (.mgExpel b e) s = serving s ((s.readExpel e).expelAnswered b e) := congrArg (serving s) (if_neg hrunning)
  obtain ⟨hall, hdue⟩ := (s.readExpel e).expelAnswered_cases b e
  have hstatus := State.expelStatus_of_same (hread.changes.rd R.TIM_STATUS_state []) hread.sec_eq hread.tim_eq b
  have hexpel : (s.readExpel e).expelDue b = s.expelDue b := by rw [State.expelDue, State.beat_of_tim hread.tim_eq, State.expelDue]
  rw [hstatus, hread.sec_eq, hexpel] at hdue
  exact gives_serving hexec h.1 ⟨hdue, ((hread.changes.weaken (by simp)).trans hall).after⟩

/-! ### Expels at their beat (R419) -/

variable {x : Expel} {l : List Expel}

/-- The expels still due. -/
def State.dueLeft (l : List Expel) (s : State) : State := { s with sec := { s.sec with due := l } }

/-- Every port is DISABLED. -/
def State.portsDown (s : State) : State := (List.range 256).foldl (fun t p => t.disablePort p) s

/-- The part is expelled. -/
def State.cutOff (s : State) : State := { s with pkg := { s.pkg with expelled := true } }

theorem keepsStores_portsDown (s : State) : KeepsStores s s.portsDown := .foldl _ (fun s p => keepsStores_disablePort p s) _ s

theorem exec_expelApply (hdue : s.sec.due = x :: l) (hbeat : ahead x.beat s.beat = false) :
    exec .expelApply s = serving s ((s.dueLeft l).applyExpel x) := by
  change execExpelApply s = _
  unfold execExpelApply
  rw [hdue]
  exact congrArg (serving s) (if_neg (by simp [hbeat]))

theorem State.applyExpel_self (hapold : x.apold = true) (htarget : x.target = s.eid) (hmanager : x.newManager = 0xFFFF)
    (hpromote : x.promote = 0xFFFF) : s.applyExpel x = s.portsDown.cutOff := by
  unfold State.applyExpel
  extract_lets +onlyGivenNames t p a b
  have ht : t = s.portsDown := rfl
  have ha : a = t.cutOff := (if_neg (not_not.mpr hapold)).trans (if_pos htarget)
  rw [ht] at ha
  have hb : b = a := if_pos hmanager
  clear_value a b
  exact (if_neg (fun h => h.2.1 hpromote)).trans (hb.trans ha)

theorem gives_expelApply_self (h : Managed s) (hdue : s.sec.due = x :: l) (hbeat : ahead x.beat s.beat = false)
    (hapold : x.apold = true) (htarget : x.target = s.eid) (hflow : s.trk.flowWait = []) (hmanager : x.newManager = 0xFFFF)
    (hpromote : x.promote = 0xFFFF) :
    Gives .expelApply s (fun t => t.pkg.expelled = true ∧ t.sec = { s.sec with due := l } ∧ t.mem = s.mem) := by
  have hexec := exec_expelApply hdue hbeat
  rw [State.applyExpel_self (s := s.dueLeft l) hapold htarget hmanager hpromote] at hexec
  obtain ⟨-, hmem, hsec⟩ := keepsStores_portsDown (s.dueLeft l) hflow
  generalize (s.dueLeft l).portsDown = u at hexec hmem hsec
  exact gives_serving hexec h.1 ⟨rfl, hsec, hmem⟩

/-- A new manager device: its name is written, and every sequence restarts. -/
def State.newManager (e : Nat) (s : State) : State := (s.wr R.RAS_MGR_CFG_manager_eid [] e).restartSeqs

theorem changes_restartSeqs (s : State) : Changes [] [.ras, .hif] s s.restartSeqs :=
  changes_of_parts rfl (fun p hp => by cases p <;> first | rfl | exact absurd (by decide) hp)

theorem State.applyExpel_other (hapold : x.apold = true) (htarget : x.target ≠ s.eid)
    (hports : (List.range 256).all (fun p => decide (s.partnerEid p ≠ x.target)) = true) (hmanager : x.newManager ≠ 0xFFFF)
    (hpromote : x.promote = 0xFFFF) : s.applyExpel x = s.newManager x.newManager := by
  have hnone : (List.range 256).filter (fun p => s.isUp p && !s.isEdge p && decide (s.partnerEid p = x.target)) = [] := by
    refine List.filter_eq_nil_iff.mpr (fun p hp => ?_)
    have hne := of_decide_eq_true (List.all_eq_true.mp hports p hp)
    simp [hne]
  unfold State.applyExpel
  extract_lets +onlyGivenNames t p a b
  have ha : a = s := by
    refine (if_neg (not_not.mpr hapold)).trans ((if_neg htarget).trans ?_)
    rw [hnone, List.foldl_nil]
  have hb : b = a.newManager x.newManager := if_neg hmanager
  clear_value a b
  subst ha
  exact (if_neg (fun h => h.2.1 hpromote)).trans hb

theorem gives_expelApply_other (h : Managed s) (hdue : s.sec.due = x :: l) (hbeat : ahead x.beat s.beat = false)
    (hapold : x.apold = true) (htarget : x.target ≠ s.eid)
    (hports : (List.range 256).all (fun p => decide (s.partnerEid p ≠ x.target)) = true) (hmanager : x.newManager < 0xFFFF)
    (hpromote : x.promote = 0xFFFF) :
    Gives .expelApply s (fun t => t.managerEid = x.newManager ∧ t.ras.expected = 0 ∧ t.ras.workers = Map.empty ∧
      t.sec = { s.sec with due := l } ∧ t.hif = { s.hif with waiting := s.hif.waiting.filter (fun w => w.isSome) } ∧
      RegsBut [R.RAS_MGR_CFG_manager_eid] s t ∧ PartsBut [.ras, .sec, .hif] s t) := by
  have hexec := (exec_expelApply hdue hbeat).trans (congrArg (serving s)
    (State.applyExpel_other (s := s.dueLeft l) hapold htarget hports (by omega) hpromote))
  generalize hu : s.dueLeft l = u at hexec
  have hdued : Changes [] [.sec] s u := by
    rw [← hu]
    exact changes_inSec _ s
  have hset := changes_restartSeqs (u.wr R.RAS_MGR_CFG_manager_eid [] x.newManager)
  have hnamed : (u.newManager x.newManager).managerEid = x.newManager :=
    (hset.rd R.RAS_MGR_CFG_manager_eid []).trans ((State.rd_wr_same _ _ _ u).trans (Nat.mod_eq_of_lt (by change _ < 2 ^ 16; omega)))
  have hsec : (u.newManager x.newManager).sec = { s.sec with due := l } := by
    refine (hset.parts .sec (by decide)).trans ((State.wr_sec_eq _ _ _ _).trans ?_)
    rw [← hu, State.dueLeft]
  have hhif : (u.newManager x.newManager).hif = { s.hif with waiting := s.hif.waiting.filter (fun w => w.isSome) } := by
    change ({ (u.wr R.RAS_MGR_CFG_manager_eid [] x.newManager).hif with waiting := _ } : Hif) = _
    rw [State.wr_hif_eq, ← hu]
    rfl
  have hall := ((hdued.weaken (l' := [R.RAS_MGR_CFG_manager_eid]) (ps' := [.ras, .sec, .hif]) (by simp)).wr
    (f := R.RAS_MGR_CFG_manager_eid) (by simp) [] x.newManager).trans (hset.weaken (by simp))
  exact gives_serving hexec h.1 ⟨hnamed, rfl, rfl, hsec, hhif, hall.after⟩

theorem gives_expelApply_early (hdue : s.sec.due = x :: l) (hbeat : ahead x.beat s.beat = true) :
    Gives .expelApply s (fun t => RegsBut [] s t ∧ PartsBut [] s t) := by
  have hsame : serving s s = clocked s s := congrArg (clocked s) (ite_self s)
  refine gives_idle (Eq.trans ?_ hsame)
  change execExpelApply s = serving s s
  unfold execExpelApply
  rw [hdue]
  exact congrArg (serving s) (if_pos hbeat)

/-- Settles O49: a message that was read is answered out of the RAS block's own state; an expel acts where its beat has come. -/
theorem managerAndWorkers : Obligations.ManagerAndWorkers :=
  fun _ h => ⟨fun _ _ _ => gives_mgUpdate_expected h, fun _ _ => gives_mgUpdate_early h, fun _ => gives_mgUpdate_foreign h,
    fun _ _ => gives_mgAck h, fun _ _ _ _ => gives_updateResend h, fun _ _ _ _ => gives_updateResend_lost h,
    fun _ => gives_mgReport h, fun _ => gives_mgReportAck h, fun _ _ => gives_reportResend h, fun _ _ => gives_reportResend_early,
    fun _ _ => gives_mgFwData h, fun _ _ => gives_mgFwAck h, fun _ => gives_mgEvidReq h, fun _ => gives_mgEvidRsp h,
    fun _ => gives_mgExpelAck h, fun _ _ => gives_mgExpel h, fun _ _ => gives_expelApply_self h,
    fun _ _ => gives_expelApply_other h, fun _ _ => gives_expelApply_early⟩

end Sys2Proof.Machine
end

section
/-! PROOF. A FATAL error while a lender hangs on a port: the extents it lends are lost, so the pool changes (R186, R405). -/

namespace Sys2Proof.Machine

-- One proof after another: proofs under way at once are more threads than one process has memory for.
set_option Elab.async false

open Sys2Proof.Safety

variable {s t : State}

/-! ### A FATAL error (R405) -/

/-- What a FATAL error reports and shows, before the ports are DISABLED. -/
def State.fatalTold (block cause source : Nat) (s : State) : State :=
  let ft := s.ftHub
  let seq := s.rd R.RAS_LOG_PROD_count []
  let s := (s.ringPut ft .fatal block .ok cause source 0).event B.ras 2
  let s := s.report 1 .ok (bytesOfNat 32 (logRecord ft .fatal block .ok cause source 0 seq))
  ((s.wr R.RAS_FATAL_INFO_block [] block).wr R.RAS_FATAL_INFO_cause [] cause).wr R.RAS_FATAL_INFO_source [] source

/-- The service ends. -/
def State.fatalEnd (s : State) : State :=
  { s with pkg := { s.pkg with fatal := true, frozen := s.pkg.frozen || s.on R.RAS_CFG_freeze_on_fatal [] } }

theorem State.pool_fatalEnd (s u : State) : (s.after u.fatalEnd).pool = u.pool := rfl

theorem exec_fatalError {block cause source : Nat} (h : s.pkg.fatal = false) :
    exec (.fatalError block cause source) s = clocked s (s.fatalTold block cause source).portsDown.fatalEnd := by
  change execFatalError block cause source s = _
  unfold execFatalError
  refine congrArg (clocked s) ((if_neg (by simp [h])).trans ?_)
  extract_lets +onlyGivenNames ft seq s₁ s₂ s₃ s₄
  have hdown : s₄ = (s.fatalTold block cause source).portsDown := rfl
  clear_value s₄
  rw [hdown, State.fatalEnd]

/-! ### Ports that are down already -/

theorem State.isUp_of_pst {p q : Nat} (h : t.pst q = s.pst p) : t.isUp q = s.isUp p := by rw [State.isUp, State.isUp, h]

theorem State.isUp_wr_enable (p q v : Nat) (s : State) : (s.wr R.PRT_PORT_CTL_enable [p] v).isUp q = s.isUp q :=
  State.isUp_of_pst (State.rd_wr_num _ _ _ _ (by decide))

theorem State.pst_downed {p q st : Nat} {f : Port → Port} (h : q ≠ p) (s : State) :
    ((s.setPst p st).modPort p f).pst q = s.pst q := State.rd_wr_index st s (by simpa using h)

/-- DISABLING a port that is down leaves every port down that is. -/
theorem State.isUp_disablePort {p q : Nat} (hp : s.isUp p = false) (hq : s.isUp q = false) : (s.disablePort p).isUp q = false := by
  have hdown : (s.wr R.PRT_PORT_CTL_enable [p] 0).isUp p = false := by rwa [State.isUp_wr_enable]
  by_cases h : q = p
  · subst h
    rw [State.isUp, State.disablePort, State.pst_goDown hdown (by decide)]
    rfl
  · refine (State.isUp_of_pst (s := s) (p := q) ?_).trans hq
    rw [State.disablePort, State.goDown_of_not_isUp hdown, State.pst_downed h]
    exact ((changes_clearLink p _).rd _ _).trans (State.rd_wr_num _ _ _ _ (by decide))

/-- DISABLING ports that are down leaves the pool. -/
theorem State.pool_disablePorts {l : List Nat} (hall : ∀ p, s.isUp p = false) :
    (l.foldl (fun t p => t.disablePort p) s).pool = s.pool := by
  induction l generalizing s with
  | nil => rfl
  | cons p l ih =>
    have hpool : (s.disablePort p).pool = s.pool := by
      have hgone := changes_goDown (s := s.wr R.PRT_PORT_CTL_enable [p] 0) (p := p) (by rw [State.isUp_wr_enable, hall]) Ps.disabled
      exact (hgone.parts .pool (by decide)).trans (State.wr_pool_eq _ _ _ s)
    exact (ih (fun q => State.isUp_disablePort (hall p) (hall q))).trans hpool

/-! ### A lender behind a port that is up -/

/-- Port 0 is up, and behind it a lender's node 5 with one extent. -/
def lenderUp : State :=
  (((State.reset.wr R.PRT_PORT_STATUS_state [0] Ps.active).wr R.POL_LEND_valid [0] 1).wr R.POL_LEND_node [0] 5).wr
    R.POL_LEND_extents [0] 1

/-- The port of the lender DISABLED after the report of a FATAL error. -/
def lenderCut : State := (lenderUp.fatalTold 0 0 0).disablePort 0

theorem serves_lenderUp : Serves lenderUp := by decide +kernel

theorem isUp_lenderCut (p : Nat) : lenderCut.isUp p = false := by
  have hnone : lenderCut.listed R.PRT_PORT_STATUS_state = [] := by decide +kernel
  rw [State.isUp, State.pst, State.rd_of_not_listed (by simp [hnone])]
  rfl

/-- The lent extent is lost, so the pool has a record that it did not have (R186). -/
theorem pool_lenderCut : lenderCut.pool.ext.has [5, 0] = true ∧ lenderUp.pool.ext.has [5, 0] = false := by decide +kernel

theorem portsDown_eq (s : State) : s.portsDown = ((List.range 255).map (· + 1)).foldl (fun t p => t.disablePort p) (s.disablePort 0) := by
  rw [State.portsDown, show List.range 256 = 0 :: (List.range 255).map (· + 1) from List.range_succ_eq_map, List.foldl_cons]

/-- Refutes O50: a FATAL error DISABLES the port of a lender, and what it lent is lost (R186), so the pool does not stay. -/
theorem not_puppetAndService : ¬ Obligations.PuppetAndService := by
  unfold Obligations.PuppetAndService
  intro h
  obtain ⟨-, -, -, -, -, -, -, -, -, -, -, -, hfatal, -⟩ := h lenderUp serves_lenderUp
  obtain ⟨t, hexec, -, -, -, -, -, hpool⟩ := hfatal 0 0 0 (by decide) (by decide) (by decide)
  rw [exec_fatalError serves_lenderUp.2.1, clocked_running _ serves_lenderUp.1] at hexec
  obtain rfl := Host.Outcome.next.inj hexec
  have hkept : (lenderUp.fatalTold 0 0 0).portsDown.pool = lenderCut.pool := by
    rw [portsDown_eq]
    exact State.pool_disablePorts isUp_lenderCut
  rw [State.pool_fatalEnd, hkept] at hpool
  obtain ⟨hlost, hnone⟩ := pool_lenderCut
  rw [hpool, hnone] at hlost
  cases hlost

end Sys2Proof.Machine
end

section
/-! PROOF. A write through the pool window: its requests are ordered, so they take sequence numbers of the function's flow
(R102, R437). -/

namespace Sys2Proof.Machine

-- One proof after another: proofs under way at once are more threads than one process has memory for.
set_option Elab.async false

open Sys2Proof.Safety

/-- After reset, with an aperture of the physical function onto node 0, and a window of West's agents that permits writes
of its first extent. -/
def windowOpen : State := { State.reset.setBar4 0 0 0x2 1 with edgeWin := Map.empty.set [256, 0] 7 }

theorem serves_windowOpen : Serves windowOpen := by decide +kernel

/-- A byte written through the window leaves under sequence number 0 of flow 128, so the next one is 1. -/
theorem flowSeq_bar2Write : ∃ t, exec (.bar2Write 0 0 [1]) windowOpen = .next t ∧ t.qpe.flowSeq.get 0 [65535, 0, 128] = 1 :=
  ⟨_, rfl, by decide +kernel⟩

/-- Refutes O47: the requests of a write through the pool window are ordered, and the sequence numbers they take (R102) stand
in a part that the statement says stays. -/
theorem not_hostWindows : ¬ Obligations.HostWindows := by
  unfold Obligations.HostWindows
  intro h
  obtain ⟨-, -, -, -, -, -, -, -, -, hwrite, -, -⟩ := h windowOpen serves_windowOpen
  obtain ⟨t, hexec, -, -, -, hparts⟩ := hwrite 0 0 0 [1] (by decide +kernel) rfl (by decide)
  obtain ⟨u, hexec', hnext⟩ := flowSeq_bar2Write
  have hsame : u = t := Host.Outcome.next.inj (hexec'.symm.trans hexec)
  have hqpe : t.qpe = windowOpen.qpe := hparts .qpe (by decide)
  rw [hsame, hqpe] at hnext
  exact absurd hnext (by decide +kernel)

end Sys2Proof.Machine
end

section
/-! PROOF. The commands of the queue engines (R291, R293, R295, R307, R310). -/

namespace Sys2Proof.Machine

-- One proof after another: proofs under way at once are more threads than one process has memory for.
set_option Elab.async false

open Sys2Proof.Safety

variable {s t : State}

/-! ### The part of the queue engines -/

theorem Changes.inQpe {l : List Fld} {ps : List Part} (h : Changes l ps s t) (k : Qpe)
    (hp : Part.qpe ∈ ps := by decide) : Changes l ps s { t with qpe := k } := by
  refine h.trans ⟨fun _ _ _ _ => rfl, fun p hn => ?_, fun _ _ _ => rfl⟩
  cases p
  case qpe => exact absurd hp hn
  all_goals rfl

theorem changes_inQpe (k : Qpe) (s : State) : Changes [] [.qpe] s { s with qpe := k } := (Changes.refl _ _ s).inQpe k

theorem changes_countQp (n k : Nat) (s : State) : Changes [] [] s (s.countQp n k) := changes_bump _ s

@[simp] theorem State.qpe_countQp (n k : Nat) (s : State) : (s.countQp n k).qpe = s.qpe := State.bump_qpe_eq _ _ s

/-- Work on a context moves it to the front of its die's cache, and counts where it was not there. -/
theorem State.qpe_touchQp (n : Nat) (s : State) : ∃ l, (s.touchQp n).qpe = { s.qpe with cached := l } := by
  have hcounted : ∀ b : Bool, (if b then s else s.countQp n 8).qpe = s.qpe := by
    intro b
    cases b
    · exact State.qpe_countQp n 8 s
    · rfl
  refine ⟨(s.touchQp n).qpe.cached, ?_⟩
  unfold State.touchQp
  simp only [hcounted]

theorem changes_touchQp (n : Nat) (s : State) : Changes [] [.qpe] s (s.touchQp n) :=
  Changes.inQpe (.ite (.refl _ _ s) ((changes_countQp n 8 s).weaken (by simp))) _

@[simp] theorem State.qps_touchQp (n : Nat) (s : State) : (s.touchQp n).qpe.qps = s.qpe.qps := by
  obtain ⟨l, hl⟩ := State.qpe_touchQp n s
  rw [hl]

@[simp] theorem State.cqs_touchQp (n : Nat) (s : State) : (s.touchQp n).qpe.cqs = s.qpe.cqs := by
  obtain ⟨l, hl⟩ := State.qpe_touchQp n s
  rw [hl]

@[simp] theorem State.pds_touchQp (n : Nat) (s : State) : (s.touchQp n).qpe.pds = s.qpe.pds := by
  obtain ⟨l, hl⟩ := State.qpe_touchQp n s
  rw [hl]

@[simp] theorem State.regions_touchQp (n : Nat) (s : State) : (s.touchQp n).qpe.regions = s.qpe.regions := by
  obtain ⟨l, hl⟩ := State.qpe_touchQp n s
  rw [hl]

/-! ### Contexts -/

theorem changes_modQp (n : Nat) (f : Qp → Qp) (s : State) : Changes [] [.qpe] s (s.modQp n f) := by
  unfold State.modQp
  split
  · exact changes_inQpe _ s
  · exact .refl _ _ s

/-- A change of a context that is in use. -/
theorem State.modQp_of_get? {n : Nat} {q : Qp} (h : s.qpe.qps.get? [n] = some q) (f : Qp → Qp) :
    s.modQp n f = { s with qpe := { s.qpe with qps := s.qpe.qps.set [n] (f q) } } := by
  rw [State.modQp, h]

theorem State.qps_modQp {n : Nat} {q : Qp} (h : s.qpe.qps.get? [n] = some q) (f : Qp → Qp) :
    (s.modQp n f).qpe.qps.get? [n] = some (f q) := by
  rw [State.modQp_of_get? h]
  exact Map.get?_set_same _ _ _

/-- Two changes of a context are one. -/
theorem State.modQp_modQp (n : Nat) (f g : Qp → Qp) (s : State) : (s.modQp n f).modQp n g = s.modQp n (fun q => g (f q)) := by
  cases h : s.qpe.qps.get? [n] with
  | none => simp [State.modQp, h]
  | some q => rw [State.modQp_of_get? (State.qps_modQp h f), State.modQp_of_get? h, State.modQp_of_get? h]; simp

/-! ### A connection with nothing to do (R304, R305) -/

/-- Nothing of the send ring is to be read: the connection does not run, a slot is being read or has been read, or the
doorbells cover no more. -/
def Qp.Fetched (q : Qp) : Prop := q.state ≠ Qs.active ∨ q.fetching = true ∨ q.fetched.isSome = true ∨ q.sqNext = q.sqProd

theorem State.pumpFetch_of_fetched {n : Nat} {q : Qp} (h : s.qpe.qps.get? [n] = some q) (hq : q.Fetched) :
    s.pumpFetch n = s := by
  unfold State.pumpFetch
  rw [h]
  exact if_pos hq

/-- Nothing is to be transmitted: the connection does not run, a packet is being formed, every packet has left, no more may
be unacknowledged, or no work request holds the next. -/
def Qp.Sent (q : Qp) : Prop :=
  q.state ≠ Qs.active ∨ q.build.isSome = true ∨ q.cur = q.alloc ∨ q.maxOut ≤ dist 24 q.cur q.unaPsn ∨ q.works = []

theorem State.pumpSend_of_sent {n : Nat} {q : Qp} (h : s.qpe.qps.get? [n] = some q) (hq : q.Sent) (fuel : Nat) :
    s.pumpSend n fuel = s := by
  cases fuel with
  | zero => rfl
  | succ k =>
    unfold State.pumpSend
    rw [h]
    simp only
    split
    · rfl
    next hrun =>
      have hnone : q.works = [] := by
        unfold Qp.Sent at hq
        tauto
      rw [hnone]
      rfl

theorem State.qpPump_of_idle {n : Nat} {q : Qp} (h : s.qpe.qps.get? [n] = some q) (hf : q.Fetched) (hs : q.Sent) :
    s.qpPump n = s := by
  unfold State.qpPump
  rw [h]
  simp only
  rw [State.pumpFetch_of_fetched h hf, State.pumpSend_of_sent h hs]

/-! ### What a command shows (R443, R478) -/

/-- The registers of a command's answer. -/
abbrev qpeResultFields : List Fld := [R.QPE_CMD_RESULT_status, R.QPE_CMD_RESULT_busy, R.QPE_CMD_RESULT_result]

theorem changes_qpeResult (fn : Nat) (st : Status) (b : Bool) (n : Nat) (s : State) :
    Changes qpeResultFields [] s (s.qpeResult fn st b n) :=
  (((Changes.refl _ _ s).wr (f := R.QPE_CMD_RESULT_status) (by simp) _ _).wr (f := R.QPE_CMD_RESULT_busy) (by simp) _ _).wr
    (f := R.QPE_CMD_RESULT_result) (by simp) _ _

@[simp] theorem State.qpe_qpeResult (fn : Nat) (st : Status) (b : Bool) (n : Nat) (s : State) :
    (s.qpeResult fn st b n).qpe = s.qpe := (changes_qpeResult fn st b n s).parts .qpe (by decide)

theorem State.rd_qpeResult_status (fn : Nat) (st : Status) (b : Bool) (n : Nat) (s : State) :
    (s.qpeResult fn st b n).rd R.QPE_CMD_RESULT_status [fn] = st.code := by
  unfold State.qpeResult
  rw [State.rd_wr_num _ _ _ _ (by decide), State.rd_wr_num _ _ _ _ (by decide), State.rd_wr_same]
  cases st <;> rfl

theorem State.rd_qpeResult_busy (fn : Nat) (st : Status) (b : Bool) (n : Nat) (s : State) :
    (s.qpeResult fn st b n).rd R.QPE_CMD_RESULT_busy [fn] = b2n b := by
  unfold State.qpeResult
  rw [State.rd_wr_num _ _ _ _ (by decide), State.rd_wr_same]
  cases b <;> rfl

theorem State.rd_qpeResult_result (fn : Nat) (st : Status) (b : Bool) {n : Nat} (h : n < 2 ^ 18) (s : State) :
    (s.qpeResult fn st b n).rd R.QPE_CMD_RESULT_result [fn] = n := by
  unfold State.qpeResult
  rw [State.rd_wr_same]
  exact Nat.mod_eq_of_lt h

theorem State.qpeCommand_of_ready {fn : Nat} (hbusy : s.on R.QPE_CMD_RESULT_busy [fn] = false) (hready : s.isReady B.qpe = true)
    (f : State → Status × Nat × State) : s.qpeCommand fn f = (f s).2.2.qpeResult fn (f s).1 false (f s).2.1 := by
  unfold State.qpeCommand
  rw [hbusy, hready]
  rfl

/-- A command of the queue engines that is done: its result, the status OK, and what its action changes. -/
theorem gives_qpeCommand {c : Instr} {fn n : Nat} {f : State → Status × Nat × State} {u : State} {P : State → Prop}
    (hserves : Serves s ∧ s.isReady B.qpe = true) (hbusy : s.on R.QPE_CMD_RESULT_busy [fn] = false)
    (hexec : exec c s = hosted s (fun s => s.qpeCommand fn f)) (hf : f s = (.ok, n, u))
    (hP : P (s.after (u.qpeResult fn .ok false n))) : Gives c s P := by
  refine gives_hosted hexec hserves.1 ?_
  rwa [State.qpeCommand_of_ready hbusy hserves.2, hf]

/-- The end of a command that changes the part of the queue engines alone. -/
theorem qpeDone {fn n : Nat} {u : State} (h : Changes [] [.qpe] s u) :
    (s.after (u.qpeResult fn .ok false n)).qpe = u.qpe ∧
    (s.after (u.qpeResult fn .ok false n)).rd R.QPE_CMD_RESULT_status [fn] = Status.ok.code ∧
    RegsBut qpeResultFields s (s.after (u.qpeResult fn .ok false n)) ∧
    PartsBut [.qpe] s (s.after (u.qpeResult fn .ok false n)) :=
  ⟨State.qpe_qpeResult _ _ _ _ u, State.rd_qpeResult_status _ _ _ _ u,
    ((h.weaken (by simp)).trans ((changes_qpeResult fn .ok false n u).weaken (fun _ h => h))).after⟩

end Sys2Proof.Machine
end

section
/-! PROOF. Each command of the queue engines (R291, R293, R295, R307, R310), and what it gives and takes. -/

namespace Sys2Proof.Machine

-- One proof after another: proofs under way at once are more threads than one process has memory for.
set_option Elab.async false

open Sys2Proof.Safety

variable {s t : State}

/-! ### Commands of the queue engines -/

theorem State.recordsOut_touchQp (n m : Nat) (s : State) : (s.touchQp n).recordsOut m = s.recordsOut m := by
  have h := changes_touchQp n s
  have htrk : (s.touchQp n).trk = s.trk := h.parts .trk (by decide)
  have hsw : (s.touchQp n).sw = s.sw := h.parts .sw (by decide)
  simp only [State.recordsOut, htrk, hsw, State.cqs_touchQp]

theorem State.now_touchQp (n : Nat) (s : State) : (s.touchQp n).now = s.now := by
  have hcounted : ∀ b : Bool, (if b then s else s.countQp n 8).now = s.now := by
    intro b
    cases b
    · exact State.bump_now_eq _ _ s
    · rfl
  exact hcounted _

theorem State.get?_touchQp {n : Nat} {q : Qp} (h : s.qpe.qps.get? [n] = some q) (m : Nat) :
    (s.touchQp m).qpe.qps.get? [n] = some q := (congrArg (·.get? [n]) (State.qps_touchQp m s)).trans h

theorem State.tenantActive_touchQp (n i : Nat) (s : State) : (s.touchQp n).tenantActive i = s.tenantActive i := by
  simp only [State.tenantActive, (changes_touchQp n s).rd R.SEC_TENANT_state]

theorem State.initRefusal_touchQp (n fn x : Nat) (s : State) : (s.touchQp n).initRefusal fn x = s.initRefusal fn x := by
  simp only [State.initRefusal, State.tenantActive_touchQp, State.pds_touchQp, State.cqs_touchQp]

/-- A context that returns to RESET, with its new conn_gen (R301, R310). -/
def State.returned (n g : Nat) (s : State) : State :=
  let now := s.now
  let u := s.modQp n (fun q => q.cleared g now)
  { u with qpe := { u.qpe with gens := u.qpe.gens.set [n] g } }

theorem changes_returned (n g : Nat) (s : State) : Changes [] [.qpe] s (s.returned n g) := (changes_modQp n _ s).inQpe _

theorem State.get?_returned {n : Nat} {q : Qp} (h : s.qpe.qps.get? [n] = some q) (g : Nat) :
    (s.returned n g).qpe.qps.get? [n] = some (q.cleared g s.now) := State.qps_modQp h (fun q => q.cleared g s.now)

/-- The words of a context's image, staged for a function. -/
def State.imageStaged (fn image : Nat) (s : State) : State :=
  (List.range 16).foldl (fun t k => t.wr R.QPE_CMD_STAGE_word [k, fn] (bitsOf image (64 * k) 64)) s

theorem changes_imageStaged (fn image : Nat) (s : State) : Changes [R.QPE_CMD_STAGE_word] [] s (s.imageStaged fn image) :=
  Changes.foldl _ (fun t _ => (Changes.refl _ _ t).wr (List.mem_singleton.mpr rfl) _ _) _ s

/-- Writing copies 0 to m - 1 of a field gives each its value. -/
theorem State.rd_writeCopies (f : Fld) (j : Nat) (g : Nat → Nat) (s : State) {k : Nat} :
    ∀ {m : Nat}, k < m → ((List.range m).foldl (fun t i => t.wr f [i, j] (g i)) s).rd f [k, j] = g k % 2 ^ f.w := by
  intro m
  induction m with
  | zero => exact fun h => absurd h (Nat.not_lt_zero k)
  | succ m ih =>
    intro h
    rw [List.range_succ, List.foldl_append]
    by_cases heq : k = m
    · subst heq
      exact State.rd_wr_same _ _ _ _
    · exact (State.rd_wr_index _ _ (by simp [heq])).trans (ih (by omega))

theorem State.rd_imageStaged (fn image : Nat) (s : State) {k : Nat} (h : k < 16) :
    (s.imageStaged fn image).rd R.QPE_CMD_STAGE_word [k, fn] = bitsOf image (64 * k) 64 :=
  (State.rd_writeCopies R.QPE_CMD_STAGE_word fn (fun k => bitsOf image (64 * k) 64) s h).trans
    (Nat.mod_eq_of_lt (bitsOf_lt _ _ 64))

section

variable (hserves : Serves s ∧ s.isReady B.qpe = true) {fn : Nat} (hbusy : s.on R.QPE_CMD_RESULT_busy [fn] = false)

include hserves hbusy

/-- CREATE_QP (R291). -/
theorem gives_createQp {x n : Nat} (hact : s.tenantActive fn = true)
    (hn : n = lowestFree (fun i => s.qpe.qps.has [i]) (bitsOf x 17 1 * 2 ^ 17) s.qpe.qps.size)
    (hroom : n < (bitsOf x 17 1 + 1) * 2 ^ 17) :
    Gives (.createQp fn x) s (fun t =>
      t.qpe.qps.get? [n] = some { tenant := fn, gen := (s.qpe.gens.get 255 [n] + 1) % 256, resetAt := s.now } ∧
      t.rd R.QPE_CMD_RESULT_status [fn] = Status.ok.code ∧ t.rd R.QPE_CMD_RESULT_busy [fn] = 0 ∧
      t.rd R.QPE_CMD_RESULT_result [fn] = n ∧ RegsBut qpeResultFields s t ∧ PartsBut [.qpe] s t) := by
  subst hn
  refine gives_qpeCommand hserves hbusy rfl ((if_neg (not_not.mpr hact)).trans (if_neg (Nat.not_le.mpr hroom))) ?_
  obtain ⟨hqpe, hst, hregs, hparts⟩ := qpeDone (fn := fn) (changes_inQpe _ s)
  refine ⟨?_, hst, State.rd_qpeResult_busy _ _ _ _ _, State.rd_qpeResult_result _ _ _ ?_ _, hregs, hparts⟩
  · rw [hqpe]
    exact Map.get?_set_same _ _ _
  · have := bitsOf_lt x 17 1
    omega

/-- MODIFY_QP to RESET (R310). -/
theorem gives_modifyQp_reset {n : Nat} {q : Qp} (hq : s.qpe.qps.get? [n] = some q) (hmay : mayAct fn q.tenant = true)
    (hto : fieldOf (s.qpeImage fn 16) 0 0 3 = 0) (hstate : q.state ≠ Qs.reset) (hflush : q.flushing = false)
    (hrec : s.recordsOut n = false) :
    Gives (.modifyQp fn n) s (fun t => t.qpe.qps.get? [n] = some (q.cleared ((q.gen + 1) % 256) s.now) ∧
      t.rd R.QPE_CMD_RESULT_status [fn] = Status.ok.code ∧ RegsBut qpeResultFields s t ∧ PartsBut [.qpe] s t) := by
  have hidle : ¬ (q.flushing = true ∨ (s.touchQp n).recordsOut n = true) := by
    rw [State.recordsOut_touchQp, hflush, hrec]
    simp
  refine gives_qpeCommand (n := 0) (u := (s.touchQp n).returned n ((q.gen + 1) % 256)) hserves hbusy rfl ?_ ?_
  · simp only [hq, hmay, hto, not_true, if_false, hstate, hidle]
    rfl
  · obtain ⟨hqpe, hend⟩ := qpeDone (fn := fn) (n := 0) ((changes_touchQp n s).trans (changes_returned n ((q.gen + 1) % 256) _))
    refine ⟨?_, hend⟩
    rw [hqpe, State.get?_returned (State.get?_touchQp hq n), State.now_touchQp]

/-- MODIFY_QP to INIT (R291, R301). -/
theorem gives_modifyQp_init {n : Nat} {q : Qp} (hq : s.qpe.qps.get? [n] = some q) (hmay : mayAct fn q.tenant = true)
    (hto : fieldOf (s.qpeImage fn 16) 0 0 3 = 1) (hstate : q.state = Qs.reset) (hlong : q.resetAt + 1000000 ≤ s.now)
    (htaken : s.initRefusal fn (s.qpeImage fn 16) = none) :
    Gives (.modifyQp fn n) s (fun t => t.qpe.qps.get? [n] = some (q.init (s.qpeImage fn 16)) ∧
      t.rd R.QPE_CMD_RESULT_status [fn] = Status.ok.code ∧ RegsBut qpeResultFields s t ∧ PartsBut [.qpe] s t) := by
  have hready : ¬ (q.state ≠ Qs.reset ∨ (s.touchQp n).now < q.resetAt + 1000000) := by
    rw [State.now_touchQp]
    omega
  refine gives_qpeCommand (n := 0) (u := (s.touchQp n).modQp n (fun q => q.init (s.qpeImage fn 16))) hserves hbusy rfl ?_ ?_
  · simp only [hq, hmay, hto, not_true, if_false, State.initRefusal_touchQp, htaken, hready]
  · obtain ⟨hqpe, hend⟩ := qpeDone (fn := fn) (n := 0)
      ((changes_touchQp n s).trans (changes_modQp n (fun q => q.init (s.qpeImage fn 16)) _))
    refine ⟨?_, hend⟩
    rw [hqpe, State.qps_modQp (State.get?_touchQp hq n)]

/-- MODIFY_QP to ACTIVE, with nothing yet to read or to send (R291). -/
theorem gives_modifyQp_active {n : Nat} {q : Qp} (hq : s.qpe.qps.get? [n] = some q) (hmay : mayAct fn q.tenant = true)
    (hto : fieldOf (s.qpeImage fn 16) 0 0 3 = 2) (hstate : q.state = Qs.init) (hread : q.sqNext = q.sqProd)
    (hsent : q.cur = q.alloc) :
    Gives (.modifyQp fn n) s (fun t => t.qpe.qps.get? [n] = some { q with state := Qs.active } ∧
      t.rd R.QPE_CMD_RESULT_status [fn] = Status.ok.code ∧ RegsBut qpeResultFields s t ∧ PartsBut [.qpe] s t) := by
  have hrun := State.qps_modQp (State.get?_touchQp hq n) (fun q => { q with state := Qs.active })
  refine gives_qpeCommand (n := 0) (u := (s.touchQp n).modQp n (fun q => { q with state := Qs.active })) hserves hbusy rfl ?_ ?_
  · simp only [hq, hmay, hto, not_true, if_false, hstate, ne_eq,
      State.qpPump_of_idle hrun (.inr (.inr (.inr hread))) (.inr (.inr (.inl hsent)))]
  · obtain ⟨hqpe, hend⟩ := qpeDone (fn := fn) (n := 0)
      ((changes_touchQp n s).trans (changes_modQp n (fun q => { q with state := Qs.active }) _))
    refine ⟨?_, hend⟩
    rw [hqpe, hrun]

/-- DESTROY_QP (R310). -/
theorem gives_destroyQp {n : Nat} {q : Qp} (hq : s.qpe.qps.get? [n] = some q) (hmay : mayAct fn q.tenant = true)
    (hstate : q.state = Qs.reset) :
    Gives (.destroyQp fn n) s (fun t => t.qpe.qps.has [n] = false ∧
      t.rd R.QPE_CMD_RESULT_status [fn] = Status.ok.code ∧ RegsBut qpeResultFields s t ∧ PartsBut [.qpe] s t) := by
  refine gives_qpeCommand (n := 0) hserves hbusy rfl (by simp only [hq, hmay, not_true, if_false, hstate, ne_eq]; rfl) ?_
  obtain ⟨hqpe, hend⟩ := qpeDone (fn := fn) (n := 0) (changes_inQpe _ s)
  refine ⟨?_, hend⟩
  rw [hqpe]
  exact Map.has_erase_same _ _

/-- QUERY_QP (R291). -/
theorem gives_queryQp {n : Nat} {q : Qp} (hq : s.qpe.qps.get? [n] = some q) (hmay : mayAct fn q.tenant = true) :
    Gives (.queryQp fn n) s (fun t => (∀ k, k < 16 → t.rd R.QPE_CMD_STAGE_word [k, fn] = bitsOf q.image (64 * k) 64) ∧
      t.qpe.qps.get? [n] = some q ∧ t.rd R.QPE_CMD_RESULT_status [fn] = Status.ok.code ∧
      RegsBut [R.QPE_CMD_RESULT_status, R.QPE_CMD_RESULT_busy, R.QPE_CMD_RESULT_result, R.QPE_CMD_STAGE_word] s t ∧
      PartsBut [.qpe] s t) := by
  have hstaged := changes_imageStaged fn q.image (s.touchQp n)
  have hshown := changes_qpeResult fn .ok false 0 ((s.touchQp n).imageStaged fn q.image)
  refine gives_qpeCommand (n := 0) (u := (s.touchQp n).imageStaged fn q.image) hserves hbusy rfl ?_ ⟨?_, ?_, ?_, ?_⟩
  · simp only [hq, hmay, not_true, if_false]
    rfl
  · exact fun k hk => (hshown.rd R.QPE_CMD_STAGE_word [k, fn]).trans (State.rd_imageStaged fn q.image _ hk)
  · have hqpe : ((s.touchQp n).imageStaged fn q.image).qpe = (s.touchQp n).qpe := hstaged.parts .qpe (by decide)
    rw [State.after_qpe_eq, State.qpe_qpeResult, hqpe]
    exact State.get?_touchQp hq n
  · exact State.rd_qpeResult_status fn .ok false 0 _
  · exact (((changes_touchQp n s).weaken (by simp)).trans ((hstaged.weaken (by simp)).trans (hshown.weaken (by simp)))).after

/-- CREATE_CQ (R307). -/
theorem gives_createCq {x n w0 w1 : Nat} (h0 : s.qpeStage fn 0 = w0) (h1 : s.qpeStage fn 1 = w1) (hhigh : bitsOf w0 56 8 = 0)
    (hlow : bitsOf w1 5 3 = 0) (hmid : bitsOf w1 10 6 = 0) (htop : bitsOf w1 48 16 = 0) (hmin : 4 ≤ bitsOf w1 0 5)
    (hmax : bitsOf w1 0 5 ≤ 20) (hring : ringOk w0 (32 * 2 ^ bitsOf w1 0 5) = true)
    (hvec : bitsOf w1 8 2 = 1 → bitsOf w1 16 16 < (if fn = 0 then 2048 else 64))
    (hn : n = lowestFree (fun i => s.qpe.cqs.has [i]) (bitsOf x 16 1 * 2 ^ 16) s.qpe.cqs.size)
    (hroom : n < (bitsOf x 16 1 + 1) * 2 ^ 16) :
    Gives (.createCq fn x) s (fun t => t.qpe.cqs.get? [n] = some
      { tenant := fn, base := w0, log2 := bitsOf w1 0 5, notify := bitsOf w1 8 2, vector := bitsOf w1 16 16, endpoint := bitsOf w1 32 16 } ∧
      t.rd R.QPE_CMD_RESULT_status [fn] = Status.ok.code ∧ t.rd R.QPE_CMD_RESULT_result [fn] = n ∧
      RegsBut qpeResultFields s t ∧ PartsBut [.qpe] s t) := by
  subst h0 h1 hn
  have hok : ¬ (bitsOf (s.qpeStage fn 0) 56 8 ≠ 0 ∨ bitsOf (s.qpeStage fn 1) 5 3 ≠ 0 ∨ bitsOf (s.qpeStage fn 1) 10 6 ≠ 0 ∨
      bitsOf (s.qpeStage fn 1) 48 16 ≠ 0 ∨ bitsOf (s.qpeStage fn 1) 0 5 < 4 ∨ 20 < bitsOf (s.qpeStage fn 1) 0 5 ∨
      ¬ ringOk (s.qpeStage fn 0) (32 * 2 ^ bitsOf (s.qpeStage fn 1) 0 5) = true ∨
      (bitsOf (s.qpeStage fn 1) 8 2 = 1 ∧ (if fn = 0 then 2048 else 64) ≤ bitsOf (s.qpeStage fn 1) 16 16)) := by
    have hvec' : ¬ (bitsOf (s.qpeStage fn 1) 8 2 = 1 ∧ (if fn = 0 then 2048 else 64) ≤ bitsOf (s.qpeStage fn 1) 16 16) :=
      fun h => absurd (hvec h.1) (Nat.not_lt.mpr h.2)
    simp only [hring, not_true, hvec', or_false]
    omega
  refine gives_qpeCommand hserves hbusy rfl ((if_neg hok).trans (if_neg (Nat.not_le.mpr hroom))) ?_
  obtain ⟨hqpe, hst, hframe⟩ := qpeDone (fn := fn) (changes_inQpe _ s)
  refine ⟨?_, hst, State.rd_qpeResult_result _ _ _ ?_ _, hframe⟩
  · rw [hqpe]
    exact Map.get?_set_same _ _ _
  · have := bitsOf_lt x 16 1
    omega

/-- DESTROY_CQ (R307). -/
theorem gives_destroyCq {n : Nat} {c : Cq} (hc : s.qpe.cqs.get? [n] = some c) (hmay : mayAct fn c.tenant = true)
    (hfree : s.qpe.qps.vals.any (fun q => decide (q.scq = n ∨ q.rcq = n) && decide (q.state ≠ Qs.reset)) = false) :
    Gives (.destroyCq fn n) s (fun t => t.qpe.cqs.has [n] = false ∧
      t.rd R.QPE_CMD_RESULT_status [fn] = Status.ok.code ∧ RegsBut qpeResultFields s t ∧ PartsBut [.qpe] s t) := by
  refine gives_qpeCommand (n := 0) hserves hbusy rfl
    (by simp only [hc, hmay, not_true, if_false, hfree, Bool.false_eq_true]; rfl) ?_
  obtain ⟨hqpe, hend⟩ := qpeDone (fn := fn) (n := 0) (changes_inQpe _ s)
  refine ⟨?_, hend⟩
  rw [hqpe]
  exact Map.has_erase_same _ _

/-- REG_REGION (R293). -/
theorem gives_regRegion {n x : Nat} (hx : s.qpeImage fn 3 = x) (hvalid : bitAt x 0 = true) (hmid : bitsOf x 40 24 = 0)
    (htop : bitsOf x 120 8 = 0) (hsize : x < 2 ^ 168) (hlen : Rg.length x ≠ 0) (hmay : mayAct fn (bitsOf x 5 5) = true)
    (hact : s.tenantActive (bitsOf x 5 5) = true) (hpd : s.qpe.pds.get? [bitsOf x 10 16] = some (bitsOf x 5 5))
    (hfree : bitAt (s.qpe.regions.get 0 [n]) 0 = false) (hinv : s.qpe.invals.any (fun v => decide (v.1 = n)) = false) :
    Gives (.regRegion fn n) s (fun t =>
      t.qpe.regions.get? [n] = some (setBits x 26 14 ((s.qpe.tags.get 0 [n] + 1) % 2 ^ 14)) ∧
      t.rd R.QPE_CMD_RESULT_status [fn] = Status.ok.code ∧
      t.rd R.QPE_CMD_RESULT_result [fn] = (s.qpe.tags.get 0 [n] + 1) % 2 ^ 14 ∧ RegsBut qpeResultFields s t ∧
      PartsBut [.qpe] s t) := by
  subst hx
  refine gives_qpeCommand hserves hbusy rfl (((if_neg ?_).trans (if_neg ?_)).trans (if_neg ?_)) ?_
  · simp only [hvalid, hmid, htop, hlen, Nat.not_le.mpr hsize, ne_eq, not_true, or_false, not_false_iff]
  · simp [hmay, hact, hpd]
  · simp only [hfree, hinv, Bool.false_eq_true, or_false, not_false_iff]
  · obtain ⟨hqpe, hst, hframe⟩ := qpeDone (fn := fn) (changes_inQpe _ s)
    refine ⟨?_, hst, State.rd_qpeResult_result _ _ _ ?_ _, hframe⟩
    · rw [hqpe]
      exact Map.get?_set_same _ _ _
    · have := Nat.mod_lt (s.qpe.tags.get 0 [n] + 1) (Nat.two_pow_pos 14)
      omega

/-- INVAL_REGION: under way until nothing checked against the region is (R295). -/
theorem gives_invalRegion {n : Nat} (hvalid : bitAt (s.qpe.regions.get 0 [n]) 0 = true)
    (hmay : mayAct fn (bitsOf (s.qpe.regions.get 0 [n]) 5 5) = true) :
    Gives (.invalRegion fn n) s (fun t => t.qpe.regions.has [n] = false ∧ t.qpe.invals = s.qpe.invals ++ [(n, fn)] ∧
      t.rd R.QPE_CMD_RESULT_busy [fn] = 1 ∧ RegsBut qpeResultFields s t ∧ PartsBut [.qpe] s t) := by
  have hrun : s.invalRegion fn n = State.qpeResult fn .ok true 0
      { s with qpe := { s.qpe with regions := s.qpe.regions.erase [n], invals := s.qpe.invals ++ [(n, fn)] } } :=
    if_neg (by simp [hbusy, hserves.2, hvalid, hmay])
  refine gives_hosted (f := fun s => s.invalRegion fn n) rfl hserves.1 ?_
  rw [hrun]
  exact ⟨(congrArg (fun k : Qpe => k.regions.has [n]) (State.qpe_qpeResult _ _ _ _ _)).trans (Map.has_erase_same _ _),
    congrArg Qpe.invals (State.qpe_qpeResult _ _ _ _ _), State.rd_qpeResult_busy _ _ _ _ _,
    (((changes_inQpe _ s).weaken (by simp)).trans ((changes_qpeResult fn .ok true 0 _).weaken (fun _ h => h))).after⟩

/-- ALLOC_PD. -/
theorem gives_allocPd {n : Nat} (hact : s.tenantActive fn = true)
    (hn : n = lowestFree (fun i => s.qpe.pds.has [i]) 0 s.qpe.pds.size) (hroom : n < 65536) :
    Gives (.allocPd fn 0) s (fun t => t.qpe.pds.get? [n] = some fn ∧ t.rd R.QPE_CMD_RESULT_status [fn] = Status.ok.code ∧
      t.rd R.QPE_CMD_RESULT_result [fn] = n ∧ RegsBut qpeResultFields s t ∧ PartsBut [.qpe] s t) := by
  subst hn
  refine gives_qpeCommand hserves hbusy rfl
    (((if_neg (by simp)).trans (if_neg (not_not.mpr hact))).trans (if_neg (Nat.not_le.mpr hroom))) ?_
  obtain ⟨hqpe, hst, hframe⟩ := qpeDone (fn := fn) (changes_inQpe _ s)
  refine ⟨?_, hst, State.rd_qpeResult_result _ _ _ (by omega) _, hframe⟩
  rw [hqpe]
  exact Map.get?_set_same _ _ _

/-- FREE_PD. -/
theorem gives_freePd {n te : Nat} (hpd : s.qpe.pds.get? [n] = some te) (hmay : mayAct fn te = true)
    (hqps : s.qpe.qps.vals.any (fun q => decide (q.pd = n ∧ q.state ≠ Qs.reset)) = false)
    (hregs : s.qpe.regions.vals.any (fun e => decide (bitsOf e 10 16 = n)) = false) :
    Gives (.freePd fn n) s (fun t => t.qpe.pds.has [n] = false ∧
      t.rd R.QPE_CMD_RESULT_status [fn] = Status.ok.code ∧ RegsBut qpeResultFields s t ∧ PartsBut [.qpe] s t) := by
  refine gives_qpeCommand (n := 0) hserves hbusy rfl
    (by simp only [hpd, hmay, not_true, if_false, hqps, hregs, Bool.false_eq_true, or_false]; rfl) ?_
  obtain ⟨hqpe, hend⟩ := qpeDone (fn := fn) (n := 0) (changes_inQpe _ s)
  refine ⟨?_, hend⟩
  rw [hqpe]
  exact Map.has_erase_same _ _

end

/-- R295. -/
theorem gives_invalRegionDone {key ix fn : Nat} (hserves : Serves s)
    (hfind : s.qpe.invals.find? (fun v => decide (v.1 = key % 2 ^ 18)) = some (ix, fn)) (hidle : s.regionBusy ix = false) :
    Gives (.invalRegionDone key) s (fun t => t.qpe.invals = s.qpe.invals.filter (fun v => decide (v ≠ (ix, fn))) ∧
      t.rd R.QPE_CMD_RESULT_busy [fn] = 0 ∧ t.rd R.QPE_CMD_RESULT_status [fn] = Status.ok.code ∧
      RegsBut qpeResultFields s t ∧ PartsBut [.qpe] s t) := by
  have hexec : exec (.invalRegionDone key) s = serving s (State.qpeResult fn .ok false 0
      { s with qpe := { s.qpe with invals := s.qpe.invals.filter (fun v => decide (v ≠ (ix, fn))) } }) := by
    change execInvalRegionDone key s = _
    simp only [execInvalRegionDone, hfind, hidle, Bool.false_eq_true, if_false]
  exact gives_serving hexec hserves ⟨congrArg Qpe.invals (State.qpe_qpeResult _ _ _ _ _), State.rd_qpeResult_busy _ _ _ _ _,
    State.rd_qpeResult_status _ _ _ _ _,
    (((changes_inQpe _ s).weaken (by simp)).trans ((changes_qpeResult fn .ok false 0 _).weaken (fun _ h => h))).after⟩

/-- Settles O38: each command that its checks let through answers OK with its result, and changes the queue engines' tables as
its rule says. -/
theorem queueCommands : Obligations.QueueCommands := by
  unfold Obligations.QueueCommands
  intro s hserves
  refine ⟨?_, ?_, ?_, ?_, ?_, ?_, ?_, ?_, ?_, ?_, ?_, ?_, ?_⟩
  · exact fun fn x n hbusy => gives_createQp hserves hbusy
  · exact fun fn n q hbusy => gives_modifyQp_reset hserves hbusy
  · exact fun fn n q hbusy => gives_modifyQp_init hserves hbusy
  · exact fun fn n q hbusy => gives_modifyQp_active hserves hbusy
  · exact fun fn n q hbusy => gives_destroyQp hserves hbusy
  · exact fun fn n q hbusy => gives_queryQp hserves hbusy
  · exact fun fn x n w0 w1 hbusy => gives_createCq hserves hbusy
  · exact fun fn n c hbusy => gives_destroyCq hserves hbusy
  · exact fun fn n x hbusy => gives_regRegion hserves hbusy
  · exact fun fn n hbusy => gives_invalRegion hserves hbusy
  · exact fun key ix fn => gives_invalRegionDone hserves.1
  · exact fun fn n hbusy => gives_allocPd hserves hbusy
  · exact fun fn n te hbusy => gives_freePd hserves hbusy

end Sys2Proof.Machine
end

section
/-! PROOF. Requests of the part's own agents (R107, R128, R129), and the instructions of a core that issue one (R273, R274,
R282 to R284). -/

namespace Sys2Proof.Machine

-- One proof after another: proofs under way at once are more threads than one process has memory for.
set_option Elab.async false

open Sys2Proof.Safety

variable {s t u : State}

/-! ### A request leaves (R102, R124, R125) -/

/-- The registers that hold the first refusal of a window (R125). -/
abbrev edgeInfo : List Fld := [R.EDG_VIOL_INFO_port, R.EDG_VIOL_INFO_agent, R.EDG_VIOL_INFO_step, R.EDG_VIOL_INFO_src_eid,
  R.EDG_VIOL_INFO_msg_type, R.EDG_VIOL_INFO_tenant, R.EDG_VIOL_ADDR_addr]

theorem conveys_edgeChecked (sel : Nat) (s : State) : Conveys edgeInfo s (s.edgeChecked sel) :=
  Conveys.ite (.told ((Told.refl _).bump (by decide) _)) (.told ((Told.refl _).bump (by decide) _))

theorem conveys_edgeRefused (sel step : Nat) (m : Msg) (s : State) : Conveys edgeInfo s (s.edgeRefused sel step m) := by
  unfold State.edgeRefused
  extract_lets +onlyGivenNames k s₁ s₂
  have h₁ : Conveys edgeInfo s s₁ := .ite (.told ((Told.refl _).bump (by decide) _)) (.told ((Told.refl _).bump (by decide) _))
  have h₂ : Conveys edgeInfo s₁ s₂ := .ite (.refl _ _)
    (((((((Conveys.wr (by simp) _ _ _).trans (.wr (by simp) _ _ _)).trans (.wr (by simp) _ _ _)).trans
      (.wr (by simp) _ _ _)).trans (.wr (by simp) _ _ _)).trans (.wr (by simp) _ _ _)).trans (.wr (by simp) _ _ _))
  exact (h₁.trans h₂).trans (.told ((Told.refl _).event _ _))

theorem State.stampFlow_of_unordered {m : Msg} (h : m.ordered = false) (s : State) : s.stampFlow m = (m, s) := by
  unfold State.stampFlow
  rw [h]
  rfl

/-- A request that is not ordered takes no sequence number: it only passes its check and is sent, or is refused. -/
theorem conveys_depart {m : Msg} (h : m.ordered = false) (d : Nat) (s : State) : Conveys edgeInfo s (s.depart d m) := by
  unfold State.depart
  simp only [State.stampFlow_of_unordered h]
  refine .ite (conveys_send d m s) ?_
  refine (conveys_edgeChecked (256 + d) s).trans ?_
  split
  · exact (conveys_edgeRefused _ _ m _).trans (conveys_selfAnswer d m _ _)
  · exact conveys_send d m _

/-! ### Issue (R107, R128, R129) -/

/-- The entry a request is issued under. -/
def State.newEntry (s : State) (d i : Nat) (who : Issuer) (why : Purpose) (m : Msg) : Issued :=
  let gen := (s.trk.gen.get 255 [d, i] + 1) % 256
  { gen := gen, msg := withTag m (tagFor d i gen), issuer := who, purpose := why, since := s.now,
    remaining := (withTag m (tagFor d i gen)).rlen }

/-- What issue changes: what sending does, the entries of the tracker, and what records a refusal of the window. -/
structure IssuesOne (s u : State) : Prop where
  changes : Changes edgeInfo [.out, .hif, .sw, .ports, .ras, .answers, .trk] s u
  now : u.now = s.now

theorem State.issueNow_of_free {d i : Nat} (h : s.freeEntry d = some i) (who : Issuer) (why : Purpose) {m : Msg}
    (hm : m.ordered = false) : ∃ u : State, Conveys edgeInfo u (s.issueNow d { msg := m, issuer := who, purpose := why }) ∧
      u.trk.issued.get? [d, i] = some (s.newEntry d i who why m) ∧ IssuesOne s u := by
  unfold State.issueNow
  rw [h]
  refine ⟨_, conveys_depart (m := withTag m _) hm d _, ?_, ?_, ?_⟩
  · rw [State.bump_trk_eq]
    exact Map.get?_set_same _ _ _
  · exact ((((Changes.refl _ _ s).inTrk _).inSw _).trans ((changes_bump _ _).weaken (by simp)))
  · exact State.bump_now_eq _ _ _

theorem IssuesOne.conveys {v : State} (h : IssuesOne s u) (hc : Conveys edgeInfo u v) : IssuesOne s v :=
  ⟨h.changes.trans (hc.changes.weaken (fun _ h => h)), hc.now_eq.trans h.now⟩

theorem issuesOne_issueNow (d : Nat) (who : Issuer) (why : Purpose) {m : Msg} (hm : m.ordered = false) (s : State) :
    IssuesOne s (s.issueNow d { msg := m, issuer := who, purpose := why }) := by
  cases h : s.freeEntry d with
  | none =>
    unfold State.issueNow
    rw [h]
    exact ⟨.refl _ _ s, rfl⟩
  | some i =>
    obtain ⟨u, hc, -, hu⟩ := State.issueNow_of_free h who why hm
    exact hu.conveys hc

theorem issuesOne_issue (d : Nat) (who : Issuer) (why : Purpose) {m : Msg} (hm : m.ordered = false) (s : State) :
    IssuesOne s (s.issue d who why m) := by
  unfold State.issue
  simp only
  split
  · exact ⟨(changes_inSw _ s).weaken (by simp), rfl⟩
  · exact issuesOne_issueNow d who why hm s

/-- Nothing is held on the die and there is room: the request is issued under the free entry. -/
theorem requests_issue {n : Nat} {m : Msg} (h : MayRequest s n m) (hm : m.ordered = false) (why : Purpose) :
    Requests s n why m (s.issue (dieOfCore n) (.core n) why m) := by
  obtain ⟨-, hheld, hroom⟩ := h
  have hnow : s.issue (dieOfCore n) (.core n) why m = s.issueNow (dieOfCore n) { msg := m, issuer := .core n, purpose := why } := by
    unfold State.issue
    simp only [hheld, hroom, heldBehind, List.any_nil, not_true, or_false, if_false, Bool.false_eq_true]
  rw [hnow]
  have hfree : (s.freeEntry (dieOfCore n)).isSome = true := by
    unfold State.canIssue at hroom
    simp only [Bool.and_eq_true] at hroom
    exact hroom.1.1
  obtain ⟨i, hi⟩ := Option.isSome_iff_exists.mp hfree
  obtain ⟨u, hc, hentry, -⟩ := State.issueNow_of_free hi (.core n) why hm
  refine ⟨i, _, hi, (congrArg (fun k : Trk => k.issued.get? [dieOfCore n, i]) hc.trk_eq).trans hentry, rfl, rfl, rfl, rfl⟩

/-! ### Instructions that issue a request (R248, R273) -/

theorem shiftRight_of_lt {a : Nat} (h : a < 2 ^ 56) : a >>> 56 = 0 := by
  rw [Nat.shiftRight_eq_div_pow]
  exact Nat.div_eq_of_lt h

theorem State.readLocal_of_none {n : Nat} (h : s.arriving n = []) (a len : Nat) : s.readLocal n a len = (s.peek n a len, s) := by
  unfold State.readLocal
  rw [h]
  simp [inGranule]

section

variable {c : Instr} {g : Nat → State → Done} {n op : Nat} {w : BitVec 64}

/-- An instruction that goes on to the next one, the code of its task being as it was. -/
theorem gives_next {P : State → Prop} (hexec : exec c s = serving s (s.issueAt n op w g)) (h : Serves s) (hi : Issues s n op w)
    (hnext : g w.toNat s = .next u) (himages : u.images = s.images) (htask : (u.core n).task = (s.core n).task)
    (hP : P (s.after (u.modCore n (fun k => { k with pc := nextPc s n })))) : Gives c s P := by
  refine gives_serving hexec h ?_
  rwa [State.issueAt_of_issues hi, hnext, State.complete_next hi himages htask]

/-- The parts that a core's request changes. -/
abbrev requestParts : List Part := [.out, .hif, .sw, .ports, .ras, .answers, .trk, .cores]

theorem changes_inCores (cs : Map Core) (s : State) : Changes [] [.cores] s { s with cores := cs } := by
  refine ⟨fun _ _ _ _ => rfl, fun p hp => ?_, fun _ _ _ => rfl⟩
  cases p
  case cores => exact absurd (List.mem_singleton.mpr rfl) hp
  all_goals rfl

/-- An instruction that issues a request, the cores being `cs` by then. -/
theorem gives_request {cs : Map Core} {k : Core} {why : Purpose} {m : Msg} (hexec : exec c s = serving s (s.issueAt n op w g))
    (h : Serves s) (hi : Issues s n op w) (hreq : MayRequest s n m) (hm : m.ordered = false)
    (hnext : g w.toNat s = .next (State.issue (dieOfCore n) (.core n) why m { s with cores := cs }))
    (hcore : State.core { s with cores := cs } n = k) (hothers : ∀ j, j ≠ n → State.core { s with cores := cs } j = s.core j)
    (htask : k.task = (s.core n).task) :
    Gives c s (fun t => t.core n = { k with pc := nextPc s n } ∧ (∀ j, j ≠ n → t.core j = s.core j) ∧ Requests s n why m t ∧
      RegsBut edgeInfo s t ∧ PartsBut requestParts s t) := by
  have hone := issuesOne_issue (dieOfCore n) (.core n) why hm { s with cores := cs }
  have hrequests : Requests s n why m (State.issue (dieOfCore n) (.core n) why m { s with cores := cs }) :=
    requests_issue (s := { s with cores := cs }) hreq hm why
  generalize State.issue (dieOfCore n) (.core n) why m { s with cores := cs } = u at hone hrequests hnext
  have hcores : u.cores = cs := hone.changes.parts .cores (by decide)
  have himages : u.images = s.images := hone.changes.parts .images (by decide)
  have hall : ∀ j, u.core j = State.core { s with cores := cs } j := fun j => congrArg (fun x : Map Core => x.get {} [j]) hcores
  refine gives_next hexec h hi hnext himages (by rw [hall, hcore, htask]) ⟨?_, fun j hj => ?_, hrequests, ?_⟩
  · rw [State.core_after, State.core_modCore_same, hall, hcore]
  · rw [State.core_after, State.core_modCore_other _ _ hj, hall, hothers j hj]
  · exact (((changes_inCores cs s).weaken (by simp)).trans ((hone.changes.weaken (fun _ h => h)).trans
      ((changes_modCore n _ u).weaken (by simp)))).after

end

end Sys2Proof.Machine
end

section
/-! PROOF. The instructions of a core that send a request (R273, R274, R282 to R284). -/

namespace Sys2Proof.Machine

-- One proof after another: proofs under way at once are more threads than one process has memory for.
set_option Elab.async false

open Sys2Proof.Safety

variable {s t u : State}

theorem isNone_of_isSome {α : Type} {o : Option α} (h : o.isSome = true) : ¬ o.isNone = true := by
  rw [Option.isNone_eq_false_iff.mpr h]
  exact Bool.false_ne_true

theorem high_of_lt {a : Nat} (h : a < 2 ^ 56) : ¬ a >>> 56 ≠ 0 := not_not.mpr (shiftRight_of_lt h)

/-- The core goes on as `k` at the next instruction, and its request is under way. -/
abbrev Leaves (s : State) (n : Nat) (k : Core) (why : Purpose) (m : Msg) (t : State) : Prop :=
  t.core n = { k with pc := nextPc s n } ∧ (∀ j, j ≠ n → t.core j = s.core j) ∧ Requests s n why m t ∧
    RegsBut edgeInfo s t ∧ PartsBut requestParts s t

section

variable (hserves : Serves s) {n : Nat} {w : BitVec 64}

include hserves

theorem gives_fld (hi : Issues s n 0xC0 w) (honly : only w.toNat [mA, mB, mC, mCn, mComb, mTc, mCnen] = true)
    (htc : gTc w.toNat ≠ 7) (hcomb : gComb w.toNat = true → (s.core n).sr (fC w.toNat) ≤ 4080)
    (haddr : (s.core n).sr (fA w.toNat) < 2 ^ 56) (hpos : 0 < (s.core n).sr (fC w.toNat))
    (hlen : (s.core n).sr (fC w.toNat) ≤ 65536)
    (hlocal : (s.localAt n ((s.core n).sr (fB w.toNat)) ((s.core n).sr (fC w.toNat))).isSome = true) {m : Msg}
    (hm : m = s.coreRequest n w.toNat (if (s.core n).sr (fC w.toNat) ≤ 4080 then 0x10 else 0x11) ((s.core n).sr (fA w.toNat))
      ((s.core n).sr (fC w.toNat)) 0 false 0 0) (hreq : MayRequest s n m) :
    Gives (.fld n w) s (Leaves s n (s.core n)
      (.load n ((s.core n).sr (fB w.toNat)) ((s.core n).sr (fC w.toNat)) (gCounter w.toNat)) m) := by
  subst hm
  refine gives_request (cs := s.cores) rfl hserves hi hreq rfl ?_ rfl (fun _ _ => rfl) rfl
  refine (if_neg ?_).trans ((if_neg (high_of_lt haddr)).trans ((if_neg ?_).trans ((if_neg (isNone_of_isSome hlocal)).trans
    (if_pos hreq.1))))
  · rintro (hfields | hclass | ⟨hcombined, hlong⟩)
    · exact hfields honly
    · exact htc hclass
    · exact absurd (hcomb hcombined) (Nat.not_le.mpr hlong)
  · omega

theorem gives_fst (hi : Issues s n 0xC1 w) (honly : only w.toNat [mA, mB, mC, mCn, mTc, mCnen] = true)
    (htc : gTc w.toNat ≠ 7) (haddr : (s.core n).sr (fA w.toNat) < 2 ^ 56) (hpos : 0 < (s.core n).sr (fC w.toNat))
    (hlen : (s.core n).sr (fC w.toNat) ≤ 4080)
    (hlocal : (s.localAt n ((s.core n).sr (fB w.toNat)) ((s.core n).sr (fC w.toNat))).isSome = true)
    (hnone : s.arriving n = []) {m : Msg}
    (hm : m = s.coreRequest n w.toNat 0x12 ((s.core n).sr (fA w.toNat)) ((s.core n).sr (fC w.toNat)) 0 false
      (s.peek n ((s.core n).sr (fB w.toNat)) ((s.core n).sr (fC w.toNat))) ((s.core n).sr (fC w.toNat)))
    (hreq : MayRequest s n m) :
    Gives (.fst n w) s (Leaves s n (s.core n) (.store n (gCounter w.toNat)) m) := by
  subst hm
  refine gives_request (cs := s.cores) rfl hserves hi hreq rfl ?_ rfl (fun _ _ => rfl) rfl
  refine (if_neg (not_or.mpr ⟨not_not.mpr honly, htc⟩)).trans ((if_neg (high_of_lt haddr)).trans ((if_neg ?_).trans
    ((if_neg (isNone_of_isSome hlocal)).trans ?_)))
  · omega
  · rw [State.readLocal_of_none hnone]
    exact if_pos hreq.1

theorem gives_fstm (hi : Issues s n 0xC2 w) (honly : only w.toNat [mA, mB, mCn, mTc, mCnen] = true) (htc : gTc w.toNat ≠ 7)
    (haddr : (s.core n).sr (fA w.toNat) < 2 ^ 56) (halign : (s.core n).sr (fB w.toNat) % 64 = 0)
    (hlocal : (s.localAt n ((s.core n).sr (fB w.toNat)) 144).isSome = true) (hnone : s.arriving n = []) {m : Msg}
    (hm : m = s.coreRequest n w.toNat 0x13 ((s.core n).sr (fA w.toNat)) 128 0 false
      (bitsOf (s.peek n ((s.core n).sr (fB w.toNat)) 144) 1024 128 +
        bitsOf (s.peek n ((s.core n).sr (fB w.toNat)) 144) 0 1024 <<< 128) 144)
    (hreq : MayRequest s n m) :
    Gives (.fstm n w) s (Leaves s n (s.core n) (.store n (gCounter w.toNat)) m) := by
  subst hm
  refine gives_request (cs := s.cores) rfl hserves hi hreq rfl ?_ rfl (fun _ _ => rfl) rfl
  refine (if_neg (not_or.mpr ⟨not_not.mpr honly, htc⟩)).trans ((if_neg (high_of_lt haddr)).trans
    ((if_neg (not_not.mpr halign)).trans ((if_neg (isNone_of_isSome hlocal)).trans ?_)))
  rw [State.readLocal_of_none hnone]
  exact if_pos hreq.1

theorem gives_fcas16 (hi : Issues s n 0xC4 w) (honly : only w.toNat [mA, mB, mCn, mTc, mCnen] = true) (htc : gTc w.toNat ≠ 7)
    (haddr : (s.core n).sr (fA w.toNat) < 2 ^ 56) (halign : (s.core n).sr (fB w.toNat) % 16 = 0)
    (hlocal : (s.localAt n ((s.core n).sr (fB w.toNat)) 48).isSome = true) (hnone : s.arriving n = []) {m : Msg}
    (hm : m = s.coreRequest n w.toNat 0x14 ((s.core n).sr (fA w.toNat)) 16 9 true
      (s.peek n ((s.core n).sr (fB w.toNat)) 32) 32)
    (hreq : MayRequest s n m) :
    Gives (.fcas16 n w) s (Leaves s n (s.core n)
      (.atomic n (some ((s.core n).sr (fB w.toNat) + 32)) none 16 (gCounter w.toNat)) m) := by
  subst hm
  refine gives_request (cs := s.cores) rfl hserves hi hreq rfl ?_ rfl (fun _ _ => rfl) rfl
  refine (if_neg (not_or.mpr ⟨not_not.mpr honly, htc⟩)).trans ((if_neg (high_of_lt haddr)).trans
    ((if_neg (not_not.mpr halign)).trans ((if_neg (isNone_of_isSome hlocal)).trans ?_)))
  rw [State.readLocal_of_none hnone]
  exact if_pos hreq.1

/-- The operands of an atomic: one value, or for the compare and swap two (R274). -/
abbrev atomData (k : Core) (x : Nat) : Nat :=
  if gAop x = 9 then bitsOf (k.sr (fB x)) 0 (8 * atomWidth (gT x)) + bitsOf (k.sr (fC x)) 0 (8 * atomWidth (gT x)) <<< (8 *
    atomWidth (gT x)) else bitsOf (k.sr (fB x)) 0 (8 * atomWidth (gT x))

/-- The fields of an atomic are in range (R274). -/
structure AtomOk (x : Nat) : Prop where
  fields : only x [mD, mA, mB, mC, mCn, mGT, mAop, mFetch, mComb, mTc, mCnen] = true
  tc : gTc x ≠ 7
  width : atomWidth (gT x) ≠ 0
  aop : gAop x ≤ 0xA
  float : tyFloat (gT x) = true → gAop x = 0xA
  comb : gComb x = true → gAop x ≤ 7
  swap : gAop x = 9 ∨ fC x = 0

/-- A register is owed its value (R273). -/
def Core.owes (d : Nat) (k : Core) : Core := { k with owed := d :: k.owed }

omit hserves in
theorem AtomOk.legal {x : Nat} (h : AtomOk x) (hd : gFetch x = true ∨ fD x = 0) :
    ¬ (¬ only x [mD, mA, mB, mC, mCn, mGT, mAop, mFetch, mComb, mTc, mCnen] = true ∨ gTc x = 7 ∨ atomWidth (gT x) = 0 ∨
      0xA < gAop x ∨ (tyFloat (gT x) = true ∧ gAop x ≠ 0xA) ∨ (gComb x = true ∧ 7 < gAop x) ∨
      (¬ gFetch x = true ∧ fD x ≠ 0) ∨ (¬ decide (gAop x = 9) = true ∧ fC x ≠ 0)) := by
  rintro (hfields | hclass | hwidth | haop | ⟨hfloat, hother⟩ | ⟨hcomb, hbig⟩ | ⟨hnofetch, hdest⟩ | ⟨hnoswap, hthird⟩)
  · exact hfields h.fields
  · exact h.tc hclass
  · exact h.width hwidth
  · exact absurd h.aop (Nat.not_le.mpr haop)
  · exact hother (h.float hfloat)
  · exact absurd (h.comb hcomb) (Nat.not_le.mpr hbig)
  · exact hd.elim hnofetch hdest
  · exact h.swap.elim (fun hswap => hnoswap (decide_eq_true hswap)) hthird

/-- An atomic whose old value is to come to a register, which is owed until then. -/
theorem gives_fatom_fetch (hi : Issues s n 0xC3 w) (hok : AtomOk w.toNat) (hfetch : gFetch w.toNat = true)
    (hd : fD w.toNat ≠ 0) (haddr : (s.core n).sr (fA w.toNat) < 2 ^ 56) {m : Msg}
    (hm : m = s.coreRequest n w.toNat 0x14 ((s.core n).sr (fA w.toNat)) (atomWidth (gT w.toNat)) (gAop w.toNat) true
      (atomData (s.core n) w.toNat)
      (if gAop w.toNat = 9 then 2 * atomWidth (gT w.toNat) else atomWidth (gT w.toNat)))
    (hreq : MayRequest s n m) :
    Gives (.fatom n w) s (Leaves s n { s.core n with owed := fD w.toNat :: (s.core n).owed }
      (.atomic n none (some (fD w.toNat)) (atomWidth (gT w.toNat)) (gCounter w.toNat)) m) := by
  subst hm
  refine gives_request (cs := (s.modCore n (Core.owes (fD w.toNat))).cores) rfl hserves hi hreq rfl ?_
    (State.core_modCore_same n (Core.owes (fD w.toNat)) s) (fun j hj => State.core_modCore_other (Core.owes (fD w.toNat)) s hj) rfl
  refine (if_neg (hok.legal (.inl hfetch))).trans ((if_neg (high_of_lt haddr)).trans ?_)
  simp only [hfetch, hd, ne_eq, not_false_iff, and_self, if_true, decide_eq_true_eq]
  exact if_pos hreq.1

/-- An atomic whose old value is not asked for. -/
theorem gives_fatom_post (hi : Issues s n 0xC3 w) (hok : AtomOk w.toNat) (hfetch : gFetch w.toNat = false)
    (hd : fD w.toNat = 0) (haddr : (s.core n).sr (fA w.toNat) < 2 ^ 56) {m : Msg}
    (hm : m = s.coreRequest n w.toNat 0x14 ((s.core n).sr (fA w.toNat)) (atomWidth (gT w.toNat)) (gAop w.toNat) false
      (atomData (s.core n) w.toNat)
      (if gAop w.toNat = 9 then 2 * atomWidth (gT w.toNat) else atomWidth (gT w.toNat)))
    (hreq : MayRequest s n m) :
    Gives (.fatom n w) s (Leaves s n (s.core n) (.atomic n none none (atomWidth (gT w.toNat)) (gCounter w.toNat)) m) := by
  subst hm
  refine gives_request (cs := s.cores) rfl hserves hi hreq rfl ?_ rfl (fun _ _ => rfl) rfl
  refine (if_neg (hok.legal (.inr hd))).trans ((if_neg (high_of_lt haddr)).trans ?_)
  simp only [hfetch, Bool.false_eq_true, false_and, if_false, decide_eq_true_eq]
  exact if_pos hreq.1

/-! ### Contributions (R282) -/

omit hserves in
theorem State.coreContribution_unordered {id t len tc data : Nat} {m : Msg}
    (h : s.coreContribution n id t len tc data = some m) : m.ordered = false := by
  unfold State.coreContribution at h
  split at h
  · exact absurd h (by simp)
  · simp only at h
    split at h
    · exact absurd h (by simp)
    · exact (Option.some.inj h) ▸ rfl

theorem gives_ccontrib (hi : Issues s n 0xE0 w) (honly : only w.toNat [mA, mB, mC, mCn, mGT, mTc, mCnen] = true)
    (htc : gTc w.toNat ≠ 7) (htype : coType (gT w.toNat) = true) (hpos : 0 < (s.core n).sr (fC w.toNat))
    (hlocal : (s.localAt n ((s.core n).sr (fB w.toNat)) ((s.core n).sr (fC w.toNat))).isSome = true)
    (hnone : s.arriving n = []) {m : Msg}
    (hm : s.coreContribution n ((s.core n).sr (fA w.toNat)) (gT w.toNat) ((s.core n).sr (fC w.toNat)) (gTc w.toNat)
      (s.peek n ((s.core n).sr (fB w.toNat)) ((s.core n).sr (fC w.toNat))) = some m)
    (hreq : MayRequest s n m) :
    Gives (.ccontrib n w) s (Leaves s n (s.core n) (.contribution n (gCounter w.toNat)) m) := by
  refine gives_request (cs := s.cores) rfl hserves hi hreq (State.coreContribution_unordered hm) ?_ rfl (fun _ _ => rfl) rfl
  refine (if_neg ?_).trans ((if_neg (Nat.pos_iff_ne_zero.mp hpos)).trans ((if_neg (isNone_of_isSome hlocal)).trans ?_))
  · rintro (hfields | hclass | hother)
    · exact hfields honly
    · exact htc hclass
    · rw [hother] at htype
      exact absurd htype (by decide)
  · rw [State.readLocal_of_none hnone]
    simp only [hm]
    exact if_pos hreq.1

end

end Sys2Proof.Machine
end

section
/-! PROOF. Lookups and posted work requests of a core (R283, R284), and with them every instruction that sends a request. -/

namespace Sys2Proof.Machine

-- One proof after another: proofs under way at once are more threads than one process has memory for.
set_option Elab.async false

open Sys2Proof.Safety

variable {s t u : State}

/-! ### A lookup that the unit of its home die takes (R283, R363) -/

theorem Changes.inGth {l : List Fld} {ps : List Part} (h : Changes l ps s t) (k : Gth)
    (hp : Part.gth ∈ ps := by decide) : Changes l ps s { t with gth := k } := by
  refine h.trans ⟨fun _ _ _ _ => rfl, fun p hn => ?_, fun _ _ _ => rfl⟩
  cases p
  case gth => exact absurd hp hn
  all_goals rfl

theorem changes_tableTally (s : State) : Changes [R.GTH_TABLE_STATUS_live, R.GTH_TABLE_STATUS_updates] [] s s.tableTally :=
  Changes.foldl _ (fun t _ => ((Changes.refl _ _ t).wr (f := R.GTH_TABLE_STATUS_live) (by simp) _ _).wr
    (f := R.GTH_TABLE_STATUS_updates) (by simp) _ _) _ s

/-- A refusal depends on the tables and on the unit's queues alone. -/
theorem State.gatherRefusal_inGth (k : Gth) (htables : k.tables = s.gth.tables) (hqueue : k.queue = s.gth.queue) (d : Nat)
    (filter : Bool) (tenant x bytes : Nat) :
    State.gatherRefusal { s with gth := k } d filter tenant x bytes = s.gatherRefusal d filter tenant x bytes := by
  have htable : State.tableOf { s with gth := k } = s.tableOf := by
    funext id
    simp only [State.tableOf, State.table, htables]
  unfold State.gatherRefusal
  rw [htable]
  simp only [hqueue]
  rfl

/-- The unit of the home die with the core's request in its queue. -/
def Gth.takes (d n h slot : Nat) (ctr : Option Nat) (kv : Bool) (x tenant : Nat) (k : Gth) : Gth :=
  { k with
    nextId := k.nextId + 2
    sets := k.sets.set [n, h] (k.sets.get [] [n, h] ++ [{ id := k.nextId, slot := slot, ctr := ctr }])
    reqs := k.reqs.set [d, k.nextId + 1] { origin := .core n h ctr k.nextId, slot := rqTable x % 1024, filter := kv, req := x, tenant := tenant }
    queue := k.queue.set [d] (k.queue.get [] [d] ++ [k.nextId + 1]) }

/-- A lookup of the part's own table that nothing refuses joins the queue. -/
theorem State.gissue_of_taken {n h : Nat} {k : Handle} (hk : (s.core n).handles.get? [h] = some k) {ctr : Option Nat}
    {x bytes : Nat} {kv : Bool} (hhome : rqHome x = s.eid) (hkv : (s.tableOf (rqTable x)).map (fun t => tbKv t.2.desc) = some kv)
    (htaken : s.gatherRefusal (rqDie x) kv (dTenant ((s.core n).task.getD 0)) x bytes = none) :
    s.gissue n h ctr x bytes = State.tableTally (State.countGth (rqDie x) (if kv then 1 else 0)
      { s with gth := s.gth.takes (rqDie x) n h k.slot ctr kv x (dTenant ((s.core n).task.getD 0)) }) := by
  have hslot : (((s.core n).handles.get? [h]).map (·.slot)).getD 256 = k.slot := by rw [hk]; rfl
  unfold State.gissue
  rw [hslot]
  extract_lets +onlyGivenNames set tenant k₁ s₁
  have hkv₁ : ((s₁.tableOf (rqTable x)).map (fun t => tbKv t.2.desc)).getD false = kv := by
    have h₁ : (s₁.tableOf (rqTable x)).map (fun t => tbKv t.2.desc) = some kv := hkv
    rw [h₁]
    rfl
  have htaken₁ : s₁.gatherRefusal (rqDie x) kv tenant x bytes = none :=
    (State.gatherRefusal_inGth _ rfl rfl _ _ _ _ _).trans htaken
  refine (if_pos hhome).trans ?_
  simp only [hkv₁, State.gatherTake, htaken₁]
  rfl

/-- What taking a lookup changes. -/
theorem State.tallied (d k : Nat) (g : Gth) (s : State) :
    (State.tableTally (State.countGth d k { s with gth := g })).gth = g ∧
      Changes [R.GTH_TABLE_STATUS_live, R.GTH_TABLE_STATUS_updates] [.gth] s
        (State.tableTally (State.countGth d k { s with gth := g })) := by
  have htally := changes_tableTally (State.countGth d k { s with gth := g })
  exact ⟨(htally.parts .gth (by decide)).trans (State.bump_gth_eq _ _ _),
    (((Changes.refl _ _ s).inGth g).trans ((changes_bump _ _).weaken (by simp))).trans (htally.weaken (by simp))⟩

theorem gives_gissue (hserves : Serves s) {n b : Nat} {w : BitVec 64} {h : Handle} {kv : Bool} (hi : Issues s n 0xE4 w)
    (honly : only w.toNat [mA, mH, mCn, mCnen] = true) (hnone : s.arriving n = [])
    (hb : max 32 (rqLen (s.peek n ((s.core n).sr (fA w.toNat)) 32)) = b)
    (hhead : (s.localAt n ((s.core n).sr (fA w.toNat)) 32).isSome = true)
    (hlocal : (s.localAt n ((s.core n).sr (fA w.toNat)) b).isSome = true)
    (hh : (s.core n).handles.get? [gH w.toNat] = some h) (hkind : h.producer = 2) {r : Nat}
    (hr : s.peek n ((s.core n).sr (fA w.toNat)) b = r) (hhome : rqHome r = s.eid)
    (hkv : (s.tableOf (rqTable r)).map (fun t => tbKv t.2.desc) = some kv)
    (htaken : s.gatherRefusal (rqDie r) kv (dTenant ((s.core n).task.getD 0)) r b = none) :
    Gives (.gissue n w) s (fun t => t.core n = { s.core n with pc := nextPc s n } ∧
      t.gth = s.gth.takes (rqDie r) n (gH w.toNat) h.slot (gCounter w.toNat) kv r (dTenant ((s.core n).task.getD 0)) ∧
      (∀ m, m ≠ n → t.core m = s.core m) ∧ RegsBut [R.GTH_TABLE_STATUS_live, R.GTH_TABLE_STATUS_updates] s t ∧
      PartsBut [.cores, .gth] s t) := by
  have htook := State.gissue_of_taken hh (ctr := gCounter w.toNat) hhome hkv htaken
  obtain ⟨hgth, hch⟩ := State.tallied (rqDie r) (if kv then 1 else 0)
    (s.gth.takes (rqDie r) n (gH w.toNat) h.slot (gCounter w.toNat) kv r (dTenant ((s.core n).task.getD 0))) s
  rw [← htook] at hgth hch
  have hcores : (s.gissue n (gH w.toNat) (gCounter w.toNat) r b).cores = s.cores := hch.parts .cores (by decide)
  have hall : ∀ j, (s.gissue n (gH w.toNat) (gCounter w.toNat) r b).core j = s.core j :=
    fun j => congrArg (fun x : Map Core => x.get {} [j]) hcores
  refine gives_next (u := s.gissue n (gH w.toNat) (gCounter w.toNat) r b) rfl hserves hi ?_ (hch.parts .images (by decide))
    (congrArg Core.task (hall n)) ⟨?_, hgth, fun j hj => ?_, ?_⟩
  · subst hb hr
    refine (if_neg (not_not.mpr honly)).trans ((if_neg (isNone_of_isSome hhead)).trans
      ((if_neg (isNone_of_isSome hlocal)).trans ?_))
    simp only [hh, hkind, ne_eq, not_true, if_false, State.readLocal_of_none hnone]
  · rw [State.core_after, State.core_modCore_same, hall]
  · rw [State.core_after, State.core_modCore_other _ _ hj, hall]
  · exact ((hch.weaken (fun _ h => h)).trans ((changes_modCore n _ _).weaken (by simp))).after

/-! ### A work request that a core posts (R284) -/

theorem issuesOne_qpAsk (n : Nat) (q : Qp) (why : Purpose) (ty addr len data nbytes : Nat) (s : State) :
    IssuesOne s (s.qpAsk n q why ty addr len data nbytes) := issuesOne_issue _ _ _ rfl s

@[simp] theorem State.qpe_qpAsk (n : Nat) (q : Qp) (why : Purpose) (ty addr len data nbytes : Nat) (s : State) :
    (s.qpAsk n q why ty addr len data nbytes).qpe = s.qpe :=
  (issuesOne_qpAsk n q why ty addr len data nbytes s).changes.parts .qpe (by decide)

/-- The next slot of the ring is taken, and its write is under way. -/
def State.posts (qpn : Nat) (q : Qp) (wr : Nat) (s : State) : State :=
  State.qpAsk qpn q (.qpPost qpn q.posted q.gen) 0x12 (q.sqBase + 64 * (q.posted % 2 ^ q.sqLog2)) 64 wr 64
    ((s.touchQp qpn).modQp qpn (fun q => { q with posted := (q.posted + 1) % 2 ^ 32 }))

theorem changes_posts (qpn : Nat) (q : Qp) (wr : Nat) (s : State) :
    Changes edgeInfo [.out, .hif, .sw, .ports, .ras, .answers, .trk, .qpe] s (s.posts qpn q wr) :=
  (((changes_touchQp qpn s).weaken (by simp)).trans ((changes_modQp qpn _ _).weaken (by simp))).trans
    ((issuesOne_qpAsk _ _ _ _ _ _ _ _ _).changes.weaken (fun _ h => h))

theorem State.get?_posts {qpn : Nat} {q : Qp} (h : s.qpe.qps.get? [qpn] = some q) (wr : Nat) :
    ((s.posts qpn q wr).qpe.qps.get? [qpn]).map (·.posted) = some ((q.posted + 1) % 2 ^ 32) := by
  unfold State.posts
  rw [State.qpe_qpAsk, State.qps_modQp (State.get?_touchQp h qpn)]
  rfl

theorem gives_qpost (hserves : Serves s) {n : Nat} {w : BitVec 64} {q : Qp} (hi : Issues s n 0xE8 w)
    (honly : only w.toNat [mD, mA, mB] = true) (hqpn : (s.core n).sr (fA w.toNat) < 2 ^ 18)
    (halign : (s.core n).sr (fB w.toNat) % 64 = 0) (hlocal : (s.localAt n ((s.core n).sr (fB w.toNat)) 64).isSome = true)
    (hnone : s.arriving n = []) (hq : s.qpe.qps.get? [(s.core n).sr (fA w.toNat)] = some q)
    (hok : s.qpostStatus n ((s.core n).sr (fA w.toNat)) (s.peek n ((s.core n).sr (fB w.toNat)) 64) = .ok) :
    Gives (.qpost n w) s (fun t => t.core n = { (s.core n).setS (fD w.toNat) 0 with pc := nextPc s n } ∧
      (t.qpe.qps.get? [(s.core n).sr (fA w.toNat)]).map (·.posted) = some ((q.posted + 1) % 2 ^ 32) ∧
      (∀ m, m ≠ n → t.core m = s.core m) ∧ RegsBut edgeInfo s t ∧
      PartsBut [.out, .hif, .sw, .ports, .ras, .answers, .trk, .cores, .qpe] s t) := by
  have hposted := State.get?_posts (s := s.modCore n (fun k => k.setS (fD w.toNat) 0)) hq
    (s.peek n ((s.core n).sr (fB w.toNat)) 64)
  have hch := changes_posts ((s.core n).sr (fA w.toNat)) q (s.peek n ((s.core n).sr (fB w.toNat)) 64)
    (s.modCore n (fun k => k.setS (fD w.toNat) 0))
  generalize hu : (s.modCore n (fun k => k.setS (fD w.toNat) 0)).posts ((s.core n).sr (fA w.toNat)) q
    (s.peek n ((s.core n).sr (fB w.toNat)) 64) = u at hposted hch
  have hcores : u.cores = (s.modCore n (fun k => k.setS (fD w.toNat) 0)).cores := hch.parts .cores (by decide)
  have hall : ∀ j, u.core j = (s.modCore n (fun k => k.setS (fD w.toNat) 0)).core j :=
    fun j => congrArg (fun x : Map Core => x.get {} [j]) hcores
  refine gives_next (u := u) rfl hserves hi ?_ (hch.parts .images (by decide))
    (by rw [hall, State.core_modCore_same, Core.task_setS]) ⟨?_, hposted, fun j hj => ?_, ?_⟩
  · refine (if_neg (not_or.mpr ⟨not_not.mpr honly, not_not.mpr ?_⟩)).trans ((if_neg (not_not.mpr halign)).trans
      ((if_neg (isNone_of_isSome hlocal)).trans ?_))
    · rw [Nat.shiftRight_eq_div_pow]
      exact Nat.div_eq_of_lt hqpn
    · have hq' : (s.modCore n (fun k => k.setS (fD w.toNat) Status.ok.code)).qpe.qps.get? [(s.core n).sr (fA w.toNat)] = some q := hq
      simp only [State.readLocal_of_none hnone, hok, hq', if_true]
      exact congrArg Done.next hu
  · rw [State.core_after, State.core_modCore_same, hall, State.core_modCore_same]
  · rw [State.core_after, State.core_modCore_other _ _ hj, hall, State.core_modCore_other _ _ hj]
  · exact (((changes_modCore n _ s).weaken (by simp)).trans ((hch.weaken (fun _ h => h)).trans
      ((changes_modCore n _ u).weaken (by simp)))).after

/-- Settles O33: each instruction passes its checks, and what it issues is under way with its core at the next instruction. -/
theorem fabricAccesses : Obligations.FabricAccesses := by
  unfold Obligations.FabricAccesses
  intro s hserves
  refine ⟨?_, ?_, ?_, ?_, ?_, ?_, ?_, ?_, ?_⟩
  · intro n x w hi hx honly htc hcomb haddr hpos hlen hlocal hreq
    subst hx
    exact gives_fld hserves hi honly htc hcomb haddr hpos hlen hlocal rfl hreq
  · intro n x w hi hx honly htc haddr hpos hlen hlocal hnone hreq
    subst hx
    exact gives_fst hserves hi honly htc haddr hpos hlen hlocal hnone rfl hreq
  · intro n x w hi hx honly htc haddr halign hlocal hnone hreq
    subst hx
    exact gives_fstm hserves hi honly htc haddr halign hlocal hnone rfl hreq
  · intro n x w hi hx honly htc hwidth haop hfloat hcomb hfetch hd hswap haddr hreq
    subst hx
    exact gives_fatom_fetch hserves hi ⟨honly, htc, hwidth, haop, hfloat, hcomb, hswap⟩ hfetch hd haddr rfl hreq
  · intro n x w hi hx honly htc hwidth haop hfloat hcomb hfetch hd hswap haddr hreq
    subst hx
    exact gives_fatom_post hserves hi ⟨honly, htc, hwidth, haop, hfloat, hcomb, hswap⟩ hfetch hd haddr rfl hreq
  · intro n x w hi hx honly htc haddr halign hlocal hnone hreq
    subst hx
    exact gives_fcas16 hserves hi honly htc haddr halign hlocal hnone rfl hreq
  · intro n x m w hi hx honly htc htype hpos hlocal hnone hm hreq
    subst hx
    exact gives_ccontrib hserves hi honly htc htype hpos hlocal hnone hm hreq
  · intro n x b r h kv w hi hx honly hnone hb hhead hlocal hh hkind hr hhome hkv htaken
    subst hx
    obtain ⟨t, hexec, hcore, hgth, hothers, hframe⟩ := gives_gissue hserves hi honly hnone hb hhead hlocal hh hkind hr hhome hkv htaken
    refine ⟨t, hexec, hcore, ?_, ?_, ?_, hothers, hframe⟩
    all_goals rw [hgth]
    · exact Map.get_set_same _ _ _ _
    · exact Map.get?_set_same _ _ _
    · exact Map.get_set_same _ _ _ _
  · intro n x q w hi hx honly hqpn halign hlocal hnone hq hok
    subst hx
    exact gives_qpost hserves hi honly hqpn halign hlocal hnone hq hok

end Sys2Proof.Machine
end

section
/-! PROOF. Doorbells (R297, R298) and work requests that start (R305). -/

namespace Sys2Proof.Machine

-- One proof after another: proofs under way at once are more threads than one process has memory for.
set_option Elab.async false

open Sys2Proof.Safety

variable {s t u : State}

/-! ### Doorbells (R297, R298) -/

/-- A context that takes doorbells: it is the tenant's, and is being set up or runs. -/
theorem listens {q : Qp} {tenant : Nat} (hten : q.tenant = tenant) (hstate : q.state = Qs.init ∨ q.state = Qs.active) :
    ¬ (q.tenant ≠ tenant ∨ (q.state ≠ Qs.init ∧ q.state ≠ Qs.active)) := by
  rintro (h | ⟨h, h'⟩)
  · exact h hten
  · exact hstate.elim h h'

/-- More of the send ring is covered; the slots a qpost has yet to fill stay ahead. -/
def Qp.sends (i : Nat) (q : Qp) : Qp :=
  { q with sqProd := i, posted := if dist 32 i q.posted < 2 ^ 31 then i else q.posted }

theorem State.doorbell_send {tenant v : Nat} {q : Qp} (hkind : bitsOf v 18 2 = 0)
    (hq : s.qpe.qps.get? [bitsOf v 0 18] = some q) (hten : q.tenant = tenant) (hstate : q.state = Qs.init ∨ q.state = Qs.active)
    (hbell : bell (bitsOf v 32 32) q.sqProd q.sqCons (2 ^ q.sqLog2) = some true) :
    s.doorbell tenant v = State.qpPump (bitsOf v 0 18)
      ((s.touchQp (bitsOf v 0 18)).modQp (bitsOf v 0 18) (Qp.sends (bitsOf v 32 32))) := by
  unfold State.doorbell
  simp only [hkind, Nat.zero_le, if_true, hq, listens hten hstate, if_false, hbell]
  rfl

theorem State.doorbell_recv {tenant v : Nat} {q : Qp} (hkind : bitsOf v 18 2 = 1)
    (hq : s.qpe.qps.get? [bitsOf v 0 18] = some q) (hten : q.tenant = tenant) (hstate : q.state = Qs.init ∨ q.state = Qs.active)
    (hbell : bell (bitsOf v 32 32) q.rqProd q.rqCons (2 ^ q.rqLog2) = some true) :
    s.doorbell tenant v =
      (s.touchQp (bitsOf v 0 18)).modQp (bitsOf v 0 18) (fun q => { q with rqProd := bitsOf v 32 32 }) := by
  unfold State.doorbell
  simp only [hkind, Nat.le_refl, if_true, hq, listens hten hstate, if_false, hbell, Nat.one_ne_zero]

theorem changes_modCq (n : Nat) (f : Cq → Cq) (s : State) : Changes [] [.qpe] s (s.modCq n f) := by
  unfold State.modCq
  split
  · exact changes_inQpe _ s
  · exact .refl _ _ s

theorem State.cqs_modCq {n : Nat} {c : Cq} (h : s.qpe.cqs.get? [n] = some c) (f : Cq → Cq) :
    (s.modCq n f).qpe.cqs.get? [n] = some (f c) := by
  unfold State.modCq
  rw [h]
  exact Map.get?_set_same _ _ _

theorem State.doorbell_arm {tenant v : Nat} {c : Cq} (hkind : bitsOf v 18 2 = 3)
    (hc : s.qpe.cqs.get? [bitsOf v 0 17] = some c) (hten : c.tenant = tenant) :
    s.doorbell tenant v = s.modCq (bitsOf v 0 17) (fun c => { c with armed := true }) := by
  unfold State.doorbell
  simp only [hkind, hc, hten, ne_eq, not_true, if_false, if_true, show ¬ (3 : Nat) ≤ 1 by decide]

theorem State.drainCq_of_empty {n : Nat} {c : Cq} (h : s.qpe.cqs.get? [n] = some c) (hempty : c.backlog = []) (fuel : Nat) :
    s.drainCq n fuel = s := by
  cases fuel with
  | zero => rfl
  | succ k =>
    unfold State.drainCq
    simp only [h, hempty]

theorem State.doorbell_consume {tenant v : Nat} {c : Cq} (hkind : bitsOf v 18 2 = 2)
    (hc : s.qpe.cqs.get? [bitsOf v 0 17] = some c) (hten : c.tenant = tenant) (hempty : c.backlog = [])
    (hbell : bell (bitsOf v 32 32) c.cons c.cons (2 ^ c.log2) = some true) :
    s.doorbell tenant v = s.modCq (bitsOf v 0 17) (fun c => { c with cons := bitsOf v 32 32 }) := by
  have hdrain := State.drainCq_of_empty (State.cqs_modCq hc (fun c => { c with cons := bitsOf v 32 32 })) hempty
    (c.backlog.length + 1)
  unfold State.doorbell
  simp only [hkind, hc, hten, ne_eq, not_true, if_false, hbell, show ¬ (2 : Nat) ≤ 1 by decide, show ¬ (2 : Nat) = 3 by decide]
  exact hdrain

/-- A function's doorbell while the queue engines are READY. -/
theorem gives_doorbell {fn v : Nat} {P : State → Prop} (hserves : Serves s) (hready : s.isReady B.qpe = true)
    (hP : P (s.after (s.doorbell fn v))) : Gives (.doorbell fn v) s P :=
  gives_hosted (f := fun s => if s.isReady B.qpe then s.doorbell fn v else s.progErr B.qpe 0) rfl hserves
    (by rwa [if_pos hready])

theorem gives_qpDoorbell {d : Nat} {m : Msg} {P : State → Prop} (hserves : Serves s) (hty : m.ty = 0x70)
    (hP : P (s.after ((s.consume d m).doorbell m.tenant (m.f 0 0 64)))) : Gives (.qpDoorbell d m) s P :=
  gives_serving (t := (s.consume d m).doorbell m.tenant (m.f 0 0 64)) (congrArg (serving s) (if_pos hty)) hserves hP

/-! ### Work requests that start (R305) -/

/-- A send work request that is done well and is not signalled writes no record. -/
theorem State.sendDone_of_quiet {n wr len : Nat} {q : Qp} (h : s.qpe.qps.get? [n] = some q) (hquiet : wSignal wr = false) :
    s.sendDone n wr len .ok = (s.countQp n 0).modQp n (fun q =>
      { q with sqCons := (q.sqCons + 1) % 2 ^ 32, compCount := (q.compCount + 1) % 2 ^ 32 }) := by
  unfold State.sendDone
  simp only [h, hquiet, decide_true, Bool.false_eq_true, not_false_iff, and_self, if_true, b2n]

/-- What a connection must hold for the request it has read to start. -/
structure Starts (s : State) (n wr : Nat) (q : Qp) : Prop where
  found : s.qpe.qps.get? [n] = some q
  active : q.state = Qs.active
  fetched : q.fetched = some wr
  scq : s.cqFull q.scq = false
  rcq : s.cqFull q.rcq = false
  ok : wOk false wr = true
  fence : wFence wr = false
  chain : s.chain q wr = .holds

theorem State.cqFull_touchQp (m n : Nat) (s : State) : (s.touchQp m).cqFull n = s.cqFull n := by
  simp only [State.cqFull, State.cqs_touchQp]

theorem State.chain_touchQp (m : Nat) (q : Qp) (wr : Nat) (s : State) : (s.touchQp m).chain q wr = s.chain q wr := by
  simp only [State.chain, State.qps_touchQp]

theorem State.regionOk_touchQp (m : Nat) (q : Qp) (key right addr n : Nat) (s : State) :
    (s.touchQp m).regionOk q key right addr n = s.regionOk q key right addr n := by
  simp only [State.regionOk, State.regions_touchQp]

theorem Starts.exec_eq {n wr : Nat} {q : Qp} (h : Starts s n wr q) :
    exec (.workRequestStart n) s = serving s ((s.touchQp n).startWork n q wr) := by
  change execWorkRequestStart n s = _
  unfold execWorkRequestStart
  simp only [h.found, h.active, h.fetched, h.ok, h.fence, h.chain, h.scq, h.rcq, State.cqFull_touchQp, State.chain_touchQp,
    ne_eq, not_true, if_false, or_self, Bool.false_eq_true, false_and]

/-- The work request that was read is in hand no longer. -/
def Qp.unfetched (q : Qp) : Qp := { q with fetched := none }

/-- A send work request is done: it advances sq_cons and comp_count (R305, R307). -/
def Qp.counted (q : Qp) : Qp := { q with sqCons := (q.sqCons + 1) % 2 ^ 32, compCount := (q.compCount + 1) % 2 ^ 32 }

/-- A work request that sends nothing completes at once. -/
theorem gives_workRequestStart_done (hserves : Serves s) {n wr : Nat} {q : Qp} (hstarts : Starts s n wr q) (hop : 6 ≤ wOp wr)
    (hquiet : wSignal wr = false) (hread : q.sqNext = q.sqProd) (hsent : q.cur = q.alloc) :
    Gives (.workRequestStart n) s (fun t => t.qpe.qps.get? [n] = some q.unfetched.counted ∧ RegsBut [] s t ∧
      PartsBut [.qpe] s t) := by
  have hfound := State.get?_touchQp hstarts.found n
  have hin : ((s.touchQp n).modQp n Qp.unfetched).qpe.qps.get? [n] = some q.unfetched := State.qps_modQp hfound _
  have hcounted : (((s.touchQp n).modQp n Qp.unfetched).countQp n 0).qpe.qps.get? [n] = some q.unfetched := by
    rw [State.qpe_countQp, hin]
  have hdone : ((((s.touchQp n).modQp n Qp.unfetched).countQp n 0).modQp n Qp.counted).qpe.qps.get? [n] =
      some q.unfetched.counted := State.qps_modQp hcounted _
  have hstart : (s.touchQp n).startWork n q wr = (((s.touchQp n).modQp n Qp.unfetched).countQp n 0).modQp n Qp.counted := by
    refine (if_pos hop).trans ?_
    refine (congrArg (State.qpPump n) (State.sendDone_of_quiet hin hquiet)).trans ?_
    exact State.qpPump_of_idle hdone (.inr (.inr (.inr hread))) (.inr (.inr (.inl hsent)))
  refine gives_serving (hstarts.exec_eq.trans (congrArg (serving s) hstart)) hserves ⟨hdone, ?_⟩
  exact ((changes_touchQp n s).trans ((changes_modQp n _ _).trans (((changes_countQp n 0 _).weaken (by simp)).trans
    (changes_modQp n _ _)))).after

/-- A work request joins those under way, with its sequence numbers. -/
def Qp.joined (w : SendWork) (q : Qp) : Qp := { q with works := q.works ++ [w], alloc := (q.alloc + w.count) % 2 ^ 24 }

/-- A WRITE as a work request under way: one packet for each 4,064 bytes (R300). -/
def Qp.write (q : Qp) (wr : Nat) : SendWork :=
  { wr := wr, slot := (q.sqNext + 2 ^ 32 - 1) % 2 ^ 32, psn := q.alloc, count := max 1 (ceilDiv (wLen wr) 4064) }

/-- A WRITE whose local buffer is the connection's is counted among the outstanding requests. -/
theorem gives_workRequestStart_write (hserves : Serves s) {n wr : Nat} {q : Qp} (hstarts : Starts s n wr q) (hop : wOp wr = 1)
    (hregion : s.regionOk q (wLkey wr) Rg.lrd (wLaddr wr) (wLen wr) = true) (hread : q.sqNext = q.sqProd)
    (hsent : q.maxOut ≤ dist 24 q.cur q.unaPsn) :
    Gives (.workRequestStart n) s (fun t => t.qpe.qps.get? [n] = some (q.unfetched.joined (q.write wr)) ∧ RegsBut [] s t ∧
      PartsBut [.qpe] s t) := by
  have hin : ((s.touchQp n).modQp n Qp.unfetched).qpe.qps.get? [n] = some q.unfetched :=
    State.qps_modQp (State.get?_touchQp hstarts.found n) _
  have hworks : (((s.touchQp n).modQp n Qp.unfetched).modQp n (Qp.joined (q.write wr))).qpe.qps.get? [n] =
      some (q.unfetched.joined (q.write wr)) := State.qps_modQp hin _
  have hlocal : ¬ 6 ≤ wOp wr := by omega
  have hallowed : ¬ ¬ (s.touchQp n).regionOk q (wLkey wr) (if wOp wr = 3 then Rg.lwr else Rg.lrd) (wLaddr wr) (wLen wr) = true := by
    rw [State.regionOk_touchQp, hop]
    exact not_not.mpr hregion
  have hlen : (if wOp wr = 3 then 1 else max 1 (ceilDiv (wLen wr) 4064)) = max 1 (ceilDiv (wLen wr) 4064) :=
    if_neg (by omega)
  have hstart : (s.touchQp n).startWork n q wr = ((s.touchQp n).modQp n Qp.unfetched).modQp n (Qp.joined (q.write wr)) := by
    refine (if_neg hlocal).trans ((if_neg hallowed).trans ?_)
    simp only [hlen]
    exact State.qpPump_of_idle hworks (.inr (.inr (.inr hread))) (.inr (.inr (.inr (.inl hsent))))
  refine gives_serving (hstarts.exec_eq.trans (congrArg (serving s) hstart)) hserves ⟨hworks, ?_⟩
  exact ((changes_touchQp n s).trans ((changes_modQp n _ _).trans (changes_modQp n _ _))).after

end Sys2Proof.Machine
end

section
/-! PROOF. Acknowledgements and their time-out (R303, R304). -/

namespace Sys2Proof.Machine

-- One proof after another: proofs under way at once are more threads than one process has memory for.
set_option Elab.async false

open Sys2Proof.Safety

variable {s t u : State}

/-! ### Distances between sequence numbers -/

theorem dist_add {a k : Nat} (ha : a < 2 ^ 24) (hk : k < 2 ^ 24) : dist 24 ((a + k) % 2 ^ 24) a = k := by
  unfold dist
  omega

/-! ### Changes of a context -/

theorem State.modQp_congr {n : Nat} {q : Qp} (h : s.qpe.qps.get? [n] = some q) {f g : Qp → Qp} (hfg : f q = g q) :
    s.modQp n f = s.modQp n g := by
  rw [State.modQp_of_get? h, State.modQp_of_get? h, hfg]

theorem State.now_modQp (n : Nat) (f : Qp → Qp) (s : State) : (s.modQp n f).now = s.now := by
  unfold State.modQp
  split <;> rfl

theorem State.responder_consume (d e : Nat) (m : Msg) (s : State) : (s.consume d m).responder e m = s.responder e m := by
  have hqpe : (s.consume d m).qpe = s.qpe := (conveys_consume (l := []) d m s).qpe_eq
  unfold State.responder
  rw [hqpe]

theorem State.responder_active {d n : Nat} {m : Msg} {q : Qp} (h : s.responder d m = some (n, q)) : q.state = Qs.active := by
  unfold State.responder at h
  split at h
  · split at h
    case isTrue hall =>
      obtain ⟨rfl, rfl⟩ := Prod.mk.inj (Option.some.inj h)
      exact hall.2.2.2
    case isFalse => exact absurd h (by simp)
  · exact absurd h (by simp)

/-! ### An acknowledgement of all that is under way (R303) -/

/-- The acknowledged numbers are released, and the time-out starts again. -/
def Qp.acked (una now : Nat) (q : Qp) : Qp := { q with unaPsn := una, retries := 0, ackSince := now }

def Qp.released (q : Qp) : Qp := { q with works := [] }

/-- One request under way, that reads nothing, and an acknowledgement of all its packets. -/
structure Covers (q : Qp) (w : SendWork) (a : Nat) : Prop where
  works : q.works = [w]
  read : w.read = false
  quiet : wSignal w.wr = false
  psn : w.psn = q.unaPsn
  all : a = (q.unaPsn + w.count) % 2 ^ 24
  pos : 0 < w.count
  few : w.count < 2 ^ 23
  una : q.unaPsn < 2 ^ 24
  next : q.nextPsn = a
  cur : q.cur = a

theorem Covers.dist_eq {q : Qp} {w : SendWork} {a : Nat} (h : Covers q w a) : dist 24 a q.unaPsn = w.count := by
  rw [h.all]
  exact dist_add h.una (h.few.trans (by decide))

theorem State.releaseWorks_of_acked {n : Nat} {q : Qp} {w : SendWork} (h : s.qpe.qps.get? [n] = some q)
    (hquiet : wSignal w.wr = false) (hdist : dist 24 q.unaPsn w.psn = w.count) (hfew : w.count < 2 ^ 23) :
    s.releaseWorks n [w] = ((s.countQp n 0).modQp n Qp.counted).modQp n Qp.released := by
  unfold State.releaseWorks
  have hkeep : ¬ (dist 24 q.unaPsn w.psn < w.count ∨ 2 ^ 23 ≤ dist 24 q.unaPsn w.psn) := by omega
  simp only [h, hkeep, if_false, State.sendDone_of_quiet h hquiet]
  rfl

theorem State.ackTo_of_covers {n a : Nat} {q : Qp} {w : SendWork} (h : s.qpe.qps.get? [n] = some q) (hc : Covers q w a) :
    s.ackTo n a = (((s.modQp n (Qp.acked a s.now)).countQp n 0).modQp n Qp.counted).modQp n Qp.released := by
  have hdist := hc.dist_eq
  have hacked : (s.modQp n (Qp.acked a s.now)).qpe.qps.get? [n] = some (q.acked a s.now) := State.qps_modQp h _
  have hrelease := State.releaseWorks_of_acked (w := w) hacked hc.quiet
    ((congrArg (dist 24 a) hc.psn).trans hdist) hc.few
  unfold State.ackTo
  have hnone : [w].find? (fun w => w.read && !w.whole) = none := by simp [hc.read]
  simp only [h, hc.works, hnone, hc.next, hdist, Nat.lt_irrefl, if_false, hc.pos.ne', ← hc.all]
  rw [← hrelease]
  refine congrArg (State.releaseWorks n [w]) (State.modQp_congr h ?_)
  have hcur : dist 24 q.cur q.unaPsn = w.count := by rw [hc.cur, hdist]
  simp only [hcur, Nat.lt_irrefl, if_false]
  rfl

theorem gives_rmaAck (hserves : Serves s) {d : Nat} {m : Msg} {q : Qp} {w : SendWork} (hty : m.ty = 0x79)
    (hresp : s.responder d m = some (m.qpn, q)) (hq : s.qpe.qps.get? [m.qpn] = some q) (hc : Covers q w m.psn)
    (halloc : q.alloc = m.psn) (hread : q.sqNext = q.sqProd) :
    Gives (.rmaAck d m) s (fun t => t.qpe.qps.get? [m.qpn] = some (q.acked m.psn s.now).counted.released ∧ RegsBut [] s t ∧
      PartsBut [.out, .hif, .sw, .ports, .ras, .answers, .qpe] s t) := by
  have hconsume := conveys_consume (l := []) d m s
  have hfound : ((s.consume d m).touchQp m.qpn).qpe.qps.get? [m.qpn] = some q :=
    State.get?_touchQp (by rw [hconsume.qpe_eq, hq]) _
  have hnow : ((s.consume d m).touchQp m.qpn).now = s.now := (State.now_touchQp _ _).trans hconsume.now_eq
  have hack := State.ackTo_of_covers hfound hc
  have hmatch : ∀ u : State, u.qpe.qps.get? [m.qpn] = some q → u.now = s.now →
      (((((u.modQp m.qpn (Qp.acked m.psn u.now)).countQp m.qpn 0).modQp m.qpn Qp.counted).modQp m.qpn
        Qp.released).qpe.qps.get? [m.qpn] = some (q.acked m.psn s.now).counted.released) ∧
      Changes [] [.qpe] u ((((u.modQp m.qpn (Qp.acked m.psn u.now)).countQp m.qpn 0).modQp m.qpn Qp.counted).modQp m.qpn
        Qp.released) := by
    intro u hu hunow
    refine ⟨State.qps_modQp (State.qps_modQp ?_ _) _, ?_⟩
    · rw [State.qpe_countQp, ← hunow]
      exact State.qps_modQp hu _
    · exact ((changes_modQp _ _ u).trans ((changes_countQp _ _ _).weaken (by simp))).trans
        ((changes_modQp _ _ _).trans (changes_modQp _ _ _))
  obtain ⟨hdone, hch⟩ := hmatch _ hfound hnow
  rw [← hack] at hdone hch
  have hexec : exec (.rmaAck d m) s = serving s (((s.consume d m).touchQp m.qpn).ackTo m.qpn m.psn) := by
    change execRmaAck d m s = _
    unfold execRmaAck
    simp only [hty, ne_eq, not_true, if_false, State.responder_consume, hresp]
    exact congrArg (serving s) (State.qpPump_of_idle hdone (.inr (.inr (.inr hread)))
      (.inr (.inr (.inl (hc.cur.trans halloc.symm)))))
  exact gives_serving hexec hserves ⟨hdone, (((hconsume.changes.weaken (by simp)).trans
    ((changes_touchQp _ _).weaken (by simp))).trans (hch.weaken (by simp))).after⟩

/-! ### No acknowledgement in time (R304) -/

/-- The connection goes back to the oldest packet not acknowledged. -/
def Qp.rewound (now : Nat) (q : Qp) : Qp :=
  { q with retries := q.retries + 1, cur := q.unaPsn, build := none, ackSince := now }

theorem gives_ackTimeout (hserves : Serves s) {n : Nat} {q : Qp} (hq : s.qpe.qps.get? [n] = some q) (hact : q.state = Qs.active)
    (hout : q.unaPsn ≠ q.nextPsn) (hlate : q.ackSince + 1000 * q.ackTimeout ≤ s.now) (hagain : q.retries + 1 < q.retryLimit)
    (hworks : q.works = []) (hreading : q.fetching = true) :
    Gives (.ackTimeout n) s (fun t => t.qpe.qps.get? [n] = some (q.rewound s.now) ∧ RegsBut [] s t ∧ PartsBut [.qpe] s t) := by
  have hfound : ((s.touchQp n).countQp n 5).qpe.qps.get? [n] = some q := by
    rw [State.qpe_countQp]
    exact State.get?_touchQp hq n
  have hnow : ((s.touchQp n).countQp n 5).now = s.now := (State.bump_now_eq _ _ _).trans (State.now_touchQp n s)
  have hch : Changes [] [.qpe] s ((s.touchQp n).countQp n 5) :=
    (changes_touchQp n s).trans ((changes_countQp n 5 _).weaken (by simp))
  have hexec : exec (.ackTimeout n) s = serving s (State.rewind n q.unaPsn
      (((s.touchQp n).countQp n 5).modQp n (fun q => { q with retries := q.retries + 1 }))) := by
    change execAckTimeout n s = _
    unfold execAckTimeout
    have hdue : ¬ (q.state ≠ Qs.active ∨ q.unaPsn = q.nextPsn ∨ s.now < q.ackSince + 1000 * q.ackTimeout) := by
      rintro (h | h | h)
      · exact h hact
      · exact hout h
      · omega
    simp only [hq, hdue, if_false, Nat.not_le.mpr hagain]
  generalize (s.touchQp n).countQp n 5 = u at hfound hnow hch hexec
  have hrewound : (u.modQp n (Qp.rewound s.now)).qpe.qps.get? [n] = some (q.rewound s.now) := State.qps_modQp hfound _
  have hrewind : State.rewind n q.unaPsn (u.modQp n (fun q => { q with retries := q.retries + 1 })) =
      u.modQp n (Qp.rewound s.now) := by
    unfold State.rewind
    simp only [State.modQp_modQp]
    refine (congrArg (State.qpPump n) (State.modQp_congr hfound (g := Qp.rewound s.now) ?_)).trans
      (State.qpPump_of_idle hrewound (.inr (.inl hreading)) (.inr (.inr (.inr (.inr hworks)))))
    simp only [Qp.rewound, hworks, List.map_nil, State.now_modQp, hnow]
  exact gives_serving (hexec.trans (congrArg (serving s) hrewind)) hserves ⟨hrewound, (hch.trans (changes_modQp n _ u)).after⟩

end Sys2Proof.Machine
end

section
/-! PROOF. Packets at their target (R301, R302, R306). -/

namespace Sys2Proof.Machine

-- One proof after another: proofs under way at once are more threads than one process has memory for.
set_option Elab.async false

open Sys2Proof.Safety

variable {s t u v : State}

/-! ### Several requests of a connection -/

/-- The parts that a connection's requests and packets change. -/
abbrev qpParts : List Part := [.out, .hif, .sw, .ports, .ras, .answers, .trk, .qpe]

theorem IssuesOne.trans (h : IssuesOne s u) (h' : IssuesOne u v) : IssuesOne s v :=
  ⟨h.changes.trans h'.changes, h'.now.trans h.now⟩

theorem IssuesOne.foldl {α : Type} (g : State → α → State) (hg : ∀ t c, IssuesOne t (g t c)) (l : List α) (s : State) :
    IssuesOne s (l.foldl g s) := by
  induction l generalizing s with
  | nil => exact ⟨.refl _ _ s, rfl⟩
  | cons c l ih => exact (hg s c).trans (ih _)

theorem IssuesOne.qpe (h : IssuesOne s u) : u.qpe = s.qpe := h.changes.parts .qpe (by decide)

/-! ### Cuts of a range (R114) -/

theorem cutsAt_ne_nil {size a off n : Nat} (fuel : Nat) (h : 0 < n) : cutsAt size a (fuel + 1) off n ≠ [] := by
  unfold cutsAt
  rw [if_neg (Nat.pos_iff_ne_zero.mp h)]
  exact List.cons_ne_nil _ _

theorem length_writeCuts_ne {a n : Nat} (h : 0 < n) : (writeCuts a n).length ≠ 0 :=
  fun hlen => cutsAt_ne_nil 2 h (List.length_eq_zero_iff.mp hlen)

theorem length_readCuts_ne {a n : Nat} (h : 0 < n) : (readCuts a n).length ≠ 0 := by
  unfold readCuts
  rw [List.length_map]
  exact fun hlen => cutsAt_ne_nil 2 h (List.length_eq_zero_iff.mp hlen)

/-! ### The next packet expected becomes a job (R302) -/

/-- The packet's job joins, and the next number is expected. -/
def Qp.accepts (j : Job) (q : Qp) : Qp :=
  { q with jobs := q.jobs ++ [j], nextJob := q.nextJob + 1, expPsn := (j.psn + 1) % 2 ^ 24, nak := none }

/-- The job a packet becomes. -/
def Qp.jobOf (q : Qp) (m : Msg) : Job := { id := q.nextJob, psn := m.psn, msg := m }

/-- A packet of a running connection's peer with the number expected, on its die. -/
structure Expected (s : State) (d : Nat) (m : Msg) (q : Qp) : Prop where
  found : s.qpe.qps.get? [m.qpn] = some q
  die : dieOfQp m.qpn = d
  gen : q.gen = m.gen
  active : q.state = Qs.active
  psn : m.psn = q.expPsn
  jobs : q.jobs = []

/-- The state in which an expected packet's job is to be carried on. -/
def State.accepting (s : State) (d : Nat) (m : Msg) (q : Qp) : State :=
  ((s.consume d m).touchQp m.qpn).modQp m.qpn (Qp.accepts (q.jobOf m))

theorem State.target_of_expected {d : Nat} {m : Msg} {q : Qp} (h : Expected s d m q)
    (hposted : ¬ (Job.takesRecv.takes m = true ∧ q.posted_ = 0)) :
    s.target d m = (s.accepting d m q).jobsGo m.qpn := by
  have hq : (s.consume d m).qpe.qps.get? [m.qpn] = some q := by
    rw [(conveys_consume (l := []) d m s).qpe_eq, h.found]
  have hnext : dist 24 m.psn q.expPsn = 0 := by rw [h.psn, dist_self]
  unfold State.target
  simp only [hq, h.die, h.gen, h.active, hnext, hposted, ne_eq, not_true, or_self, if_false, if_true,
    show ¬ Qs.active = Qs.error by decide]
  rfl

theorem State.get?_accepting {d : Nat} {m : Msg} {q : Qp} (h : Expected s d m q) :
    (s.accepting d m q).qpe.qps.get? [m.qpn] = some (q.accepts (q.jobOf m)) := by
  refine State.qps_modQp (State.get?_touchQp ?_ _) _
  rw [(conveys_consume (l := []) d m s).qpe_eq, h.found]

theorem changes_accepting (d : Nat) (m : Msg) (q : Qp) (s : State) : Changes edgeInfo qpParts s (s.accepting d m q) :=
  ((conveys_consume (l := []) d m s).changes.weaken (by simp)).trans (((changes_touchQp _ _).weaken (by simp)).trans
    ((changes_modQp _ _ _).weaken (by simp)))

theorem State.regionOk_modQp (n : Nat) (f : Qp → Qp) (q : Qp) (key right addr len : Nat) (s : State) :
    (s.modQp n f).regionOk q key right addr len = s.regionOk q key right addr len := by
  unfold State.modQp
  split <;> rfl

theorem State.regionOk_accepting {d : Nat} {m : Msg} {q : Qp} (key right addr len : Nat) :
    (s.accepting d m q).regionOk (q.accepts (q.jobOf m)) key right addr len = s.regionOk q key right addr len := by
  have hconsume : (s.consume d m).regionOk q key right addr len = s.regionOk q key right addr len := by
    unfold State.regionOk
    rw [(conveys_consume (l := []) d m s).qpe_eq]
  unfold State.accepting
  rw [State.regionOk_modQp, State.regionOk_touchQp]
  exact hconsume

/-! ### Carrying on a connection's only job (R306) -/

theorem State.jobsGo_of_issued {n : Nat} {q q' : Qp} {j j' : Job} (hq : u.qpe.qps.get? [n] = some q) (hjobs : q.jobs = [j])
    (hact : q.state = Qs.active) (hnew : j.phase = 0) (hissue : State.issueJobs n [j] true u = t)
    (hq' : t.qpe.qps.get? [n] = some q') (hjobs' : q'.jobs = [j']) (hwaits : ¬ (j'.phase = 2 ∧ j'.left = 0)) :
    u.jobsGo n = t := by
  unfold State.jobsGo
  simp only [hq, hjobs, List.length_singleton]
  unfold State.runJobs
  have hwaits' : ¬ (j'.phase = 2 ∧ j'.left = 0 ∧ True) := fun h => hwaits ⟨h.1, h.2.1⟩
  simp only [hq, hjobs, hact, hnew, ne_eq, not_true, if_false, hissue, hq', Option.bind_some, hjobs', List.head?_cons, hwaits',
    show ¬ (0 : Nat) = 5 by decide, show ¬ (0 : Nat) = 4 by decide, show ¬ (0 : Nat) = 2 by decide, false_and]

/-- A job as `f` leaves it. -/
def Qp.withJob (id : Nat) (f : Job → Job) (q : Qp) : Qp := { q with jobs := q.jobs.map (fun j => if j.id = id then f j else j) }

theorem Qp.jobs_withJob {q : Qp} {j : Job} (h : q.jobs = [j]) (f : Job → Job) : (q.withJob j.id f).jobs = [f j] := by
  simp [Qp.withJob, h]

/-- The rkey of the WRITE under way (R306). -/
def Qp.keyed (key : Nat) (q : Qp) : Qp := { q with key := key }

/-- A job at the homes with so many accesses. -/
def Job.athomes (left : Nat) (j : Job) : Job := { j with phase := 2, left := left }

theorem State.issueJobs_write {n : Nat} {q : Qp} {j : Job} (hq : u.qpe.qps.get? [n] = some q) (hnew : j.phase = 0)
    (hty : j.msg.ty = 0x71) (hfirst : j.msg.first = true)
    (hregion : u.regionOk q j.msg.key Rg.rwr j.msg.raddr j.msg.dataLen = true) :
    State.issueJobs n [j] true u = (u.modQp n (Qp.keyed j.msg.key)).jobWrites n q j j.msg.key j.msg.raddr := by
  have hregion' : (u.modQp n (fun q => { q with key := j.msg.key })).regionOk q j.msg.key Rg.rwr j.msg.raddr j.msg.dataLen = true := by
    rw [State.regionOk_modQp, hregion]
  simp only [State.issueJobs, hq, hnew, Job.isRead, hty, hfirst, ne_eq, not_true, if_false, if_true, hregion',
    show ¬ (0x71 : Nat) = 0x72 by decide, show ¬ (0x71 : Nat) = 0x73 by decide, decide_false, Bool.false_eq_true]
  rfl

theorem State.issueJobs_read {n : Nat} {q : Qp} {j : Job} (hq : u.qpe.qps.get? [n] = some q) (hnew : j.phase = 0)
    (hty : j.msg.ty = 0x72) (hregion : u.regionOk q j.msg.key Rg.rrd j.msg.raddr j.msg.total = true) :
    State.issueJobs n [j] true u = u.jobReads n q j := by
  simp only [State.issueJobs, hq, hnew, Job.isRead, hty, ne_eq, not_true, if_false, if_true, hregion, decide_true]

theorem State.issueJobs_send {n : Nat} {q : Qp} {j : Job} (hq : u.qpe.qps.get? [n] = some q) (hnew : j.phase = 0)
    (hty : j.msg.ty = 0x73) (hfirst : j.msg.first = true) (hrecv : q.recv = none) :
    State.issueJobs n [j] true u = u.fetchRecv n q j.id := by
  simp only [State.issueJobs, hq, hnew, Job.isRead, hty, hfirst, hrecv, ne_eq, not_true, if_false, if_true, Option.isNone_none,
    or_true, and_self, show ¬ (0x73 : Nat) = 0x72 by decide, decide_false, Bool.false_eq_true]

/-! ### The accesses of a job -/

theorem changes_modJob (n id : Nat) (f : Job → Job) (s : State) : Changes [] [.qpe] s (s.modJob n id f) := changes_modQp _ _ s

theorem State.get?_modJob {n : Nat} {q : Qp} (h : s.qpe.qps.get? [n] = some q) (id : Nat) (f : Job → Job) :
    (s.modJob n id f).qpe.qps.get? [n] = some (q.withJob id f) := State.qps_modQp h _

/-- A job changed and then requests sent for it: the context is as the change leaves it. -/
theorem carries {n id : Nat} {q : Qp} {f : Job → Job} (hq : u.qpe.qps.get? [n] = some q)
    (h : IssuesOne (u.modJob n id f) t) :
    t.qpe.qps.get? [n] = some (q.withJob id f) ∧ Changes edgeInfo qpParts u t := by
  refine ⟨?_, ((changes_modJob n id f u).weaken (by simp)).trans (h.changes.weaken (fun _ h => h))⟩
  rw [h.qpe]
  exact State.get?_modJob hq id f

theorem issuesOne_jobWrites (n : Nat) (q : Qp) (j : Job) (key a : Nat) (s : State) :
    IssuesOne (s.modJob n j.id (Job.athomes (writeCuts a j.msg.dataLen).length)) (s.jobWrites n q j key a) :=
  IssuesOne.foldl _ (fun t _ => issuesOne_qpAsk _ _ _ _ _ _ _ _ t) _ _

/-- A READ at the homes, with its part's data still to come. -/
def Job.reads (left : Nat) (j : Job) : Job := { j with phase := 2, left := left, data := 0 }

theorem issuesOne_jobReads (n : Nat) (q : Qp) (j : Job) (s : State) :
    IssuesOne (s.modJob n j.id (Job.reads (readCuts (j.msg.raddr + j.off) (min 4064 (j.msg.total - j.off))).length))
      (s.jobReads n q j) :=
  IssuesOne.foldl _ (fun t _ => issuesOne_qpAsk _ _ _ _ _ _ _ _ t) _ _

/-- A job that waits for its receive work request. -/
def Job.fetches (j : Job) : Job := { j with phase := 1 }

theorem issuesOne_fetchRecv (n : Nat) (q : Qp) (id : Nat) (s : State) :
    IssuesOne (s.modJob n id Job.fetches) (s.fetchRecv n q id) := issuesOne_qpAsk _ _ _ _ _ _ _ _ _

/-! ### WRITE, READ and SEND at their target (R302, R306) -/

section

variable {d : Nat} {m : Msg} {q : Qp}

/-- The packet is taken and its job carried on as far as `f` says, with requests sent. -/
theorem gives_target {c : Instr} (hserves : Serves s) (hexec : exec c s = serving s (s.target d m)) (h : Expected s d m q)
    (hposted : ¬ (Job.takesRecv.takes m = true ∧ q.posted_ = 0)) {f : Job → Job} {q' : Qp}
    (hjobs : q'.jobs = [q.jobOf m]) (hexp : q'.expPsn = (m.psn + 1) % 2 ^ 24)
    (hissue : State.issueJobs m.qpn [q.jobOf m] true (s.accepting d m q) = t)
    (ht : t.qpe.qps.get? [m.qpn] = some (q'.withJob (q.jobOf m).id f) ∧ Changes edgeInfo qpParts (s.accepting d m q) t)
    (hwaits : ¬ ((f (q.jobOf m)).phase = 2 ∧ (f (q.jobOf m)).left = 0)) :
    Gives c s (fun t => (t.qpe.qps.get? [m.qpn]).map (·.expPsn) = some ((m.psn + 1) % 2 ^ 24) ∧
      (t.qpe.qps.get? [m.qpn]).map (·.jobs) = some [f (q.jobOf m)] ∧ t.mem = s.mem ∧ RegsBut edgeInfo s t ∧
      PartsBut qpParts s t) := by
  obtain ⟨hq', hch⟩ := ht
  have hgo := State.jobsGo_of_issued (State.get?_accepting h) (j := q.jobOf m) (by simp [Qp.accepts, h.jobs]) h.active rfl hissue
    hq' (Qp.jobs_withJob hjobs f) hwaits
  have hall := (changes_accepting d m q s).trans hch
  refine gives_serving (hexec.trans (congrArg (serving s) ((State.target_of_expected h hposted).trans hgo))) hserves
    ⟨?_, ?_, hall.parts .mem (by decide), hall.after⟩
  · exact (congrArg (Option.map (·.expPsn)) hq').trans (congrArg some hexp)
  · exact (congrArg (Option.map (·.jobs)) hq').trans (congrArg some (Qp.jobs_withJob hjobs f))

theorem gives_rmaWrite (hserves : Serves s) (hty : m.ty = 0x71) (h : Expected s d m q) (himm : m.immValid = false)
    (hfirst : m.first = true) (hlen : 0 < m.dataLen) (hregion : s.regionOk q m.key Rg.rwr m.raddr m.dataLen = true) :
    Gives (.rmaWrite d m) s (fun t => (t.qpe.qps.get? [m.qpn]).map (·.expPsn) = some ((m.psn + 1) % 2 ^ 24) ∧
      (t.qpe.qps.get? [m.qpn]).map (·.jobs) =
        some [(q.jobOf m).athomes (writeCuts m.raddr m.dataLen).length] ∧ t.mem = s.mem ∧ RegsBut edgeInfo s t ∧
      PartsBut qpParts s t) := by
  have hfound := State.get?_accepting h
  have hkeyed : ((s.accepting d m q).modQp m.qpn (Qp.keyed m.key)).qpe.qps.get? [m.qpn] =
      some ((q.accepts (q.jobOf m)).keyed m.key) := State.qps_modQp hfound _
  have hissue := State.issueJobs_write (j := q.jobOf m) hfound rfl hty hfirst
    ((State.regionOk_accepting _ _ _ _).trans hregion)
  obtain ⟨hq', hch⟩ := carries hkeyed (issuesOne_jobWrites m.qpn (q.accepts (q.jobOf m)) (q.jobOf m) m.key m.raddr _)
  refine gives_target (c := .rmaWrite d m) hserves (congrArg (serving s) (if_pos hty)) h ?_ (q' := (q.accepts (q.jobOf m)).keyed m.key) ?_ rfl hissue
    ⟨hq', ((changes_modQp _ _ _).weaken (by simp)).trans hch⟩ (fun hw => length_writeCuts_ne hlen hw.2)
  · simp [Job.takesRecv.takes, hty, himm]
  · simp [Qp.keyed, Qp.accepts, h.jobs]

theorem gives_rmaRead (hserves : Serves s) (hty : m.ty = 0x72) (h : Expected s d m q) (hlen : 0 < m.total)
    (hregion : s.regionOk q m.key Rg.rrd m.raddr m.total = true) :
    Gives (.rmaRead d m) s (fun t => (t.qpe.qps.get? [m.qpn]).map (·.expPsn) = some ((m.psn + 1) % 2 ^ 24) ∧
      (t.qpe.qps.get? [m.qpn]).map (·.jobs) =
        some [(q.jobOf m).reads (readCuts m.raddr (min 4064 m.total)).length] ∧ t.mem = s.mem ∧ RegsBut edgeInfo s t ∧
      PartsBut qpParts s t) := by
  have hfound := State.get?_accepting h
  have hissue := State.issueJobs_read (j := q.jobOf m) hfound rfl hty ((State.regionOk_accepting _ _ _ _).trans hregion)
  refine gives_target (c := .rmaRead d m) hserves (congrArg (serving s) (if_pos hty)) h ?_ (q' := q.accepts (q.jobOf m)) ?_ rfl hissue
    (carries hfound (issuesOne_jobReads m.qpn (q.accepts (q.jobOf m)) (q.jobOf m) _))
    (fun hw => length_readCuts_ne (by omega) hw.2)
  · simp [Job.takesRecv.takes, hty]
  · simp [Qp.accepts, h.jobs]

theorem gives_rmaSend (hserves : Serves s) (hty : m.ty = 0x73) (h : Expected s d m q) (hfirst : m.first = true)
    (hrecv : q.recv = none) (hposted : q.rqProd ≠ q.rqCons) (hprod : q.rqProd < 2 ^ 32) (hcons : q.rqCons < 2 ^ 32) :
    Gives (.rmaSend d m) s (fun t => (t.qpe.qps.get? [m.qpn]).map (·.expPsn) = some ((m.psn + 1) % 2 ^ 24) ∧
      (t.qpe.qps.get? [m.qpn]).map (·.jobs) = some [(q.jobOf m).fetches] ∧ t.mem = s.mem ∧ RegsBut edgeInfo s t ∧
      PartsBut qpParts s t) := by
  have hfound := State.get?_accepting h
  have hissue := State.issueJobs_send (j := q.jobOf m) hfound rfl hty hfirst hrecv
  refine gives_target (c := .rmaSend d m) hserves (congrArg (serving s) (if_pos hty)) h ?_ (q' := q.accepts (q.jobOf m)) ?_ rfl hissue
    (carries hfound (issuesOne_fetchRecv m.qpn (q.accepts (q.jobOf m)) (q.jobOf m).id _))
    (fun hw => absurd hw.1 (show ¬ (1 : Nat) = 2 by decide))
  · rintro ⟨-, hnone⟩
    have hdist : dist 32 q.rqProd q.rqCons = 0 := by simpa [Qp.posted_, h.jobs] using hnone
    unfold dist at hdist
    omega
  · simp [Qp.accepts, h.jobs]

end

end Sys2Proof.Machine
end

section
/-! PROOF. The data of a READ, and connections that enter ERROR (R303, R304, R305, R309); with them the queue engines. -/

namespace Sys2Proof.Machine

-- One proof after another: proofs under way at once are more threads than one process has memory for.
set_option Elab.async false

open Sys2Proof.Safety

variable {s t u v : State}

/-! ### The data of a READ (R304) -/

/-- An acknowledgement of nothing new changes nothing. -/
theorem State.ackTo_self {n a : Nat} {q : Qp} (h : s.qpe.qps.get? [n] = some q) (ha : a = q.unaPsn) : s.ackTo n a = s := by
  unfold State.ackTo
  simp only [h, ha, dist_self, Nat.not_lt_zero, if_false]
  cases q.works.find? (fun w => w.read && !w.whole) with
  | none => rfl
  | some w => simp

/-- Data of a READ is in, and so many writes of it are under way. -/
def SendWork.received (off len k : Nat) (w : SendWork) : SendWork :=
  { w with got := (off, len) :: w.got, placing := w.placing + k }

/-- The request with a first number as `f` leaves it. -/
def Qp.withWork (psn : Nat) (f : SendWork → SendWork) (q : Qp) : Qp :=
  { q with works := q.works.map (fun w => if w.psn = psn then f w else w) }

theorem Qp.works_withWork {q : Qp} {w : SendWork} {psn : Nat} (h : q.works = [w]) (hpsn : w.psn = psn) (f : SendWork → SendWork) :
    (q.withWork psn f).works = [f w] := by
  simp [Qp.withWork, h, hpsn]

/-- While writes of its data are under way a READ is not released. -/
theorem State.readSettled_of_placing {n psn : Nat} {q : Qp} {w : SendWork} (h : s.qpe.qps.get? [n] = some q) (hworks : q.works = [w])
    (hplacing : w.placing ≠ 0) : s.readSettled n psn = s := by
  unfold State.readSettled
  simp [h, hworks, SendWork.whole, hplacing]

section

variable {d : Nat} {m : Msg} {q : Qp} {w : SendWork}

/-- The data of a running connection's only request, a READ, is within its buffer. -/
structure Answered (s : State) (d : Nat) (m : Msg) (q : Qp) (w : SendWork) : Prop where
  ty : m.ty = 0x78
  resp : s.responder d m = some (m.qpn, q)
  found : s.qpe.qps.get? [m.qpn] = some q
  una : m.psn = q.unaPsn
  works : q.works = [w]
  psn : w.psn = m.psn
  read : w.read = true
  got : w.got = []
  pos : 0 < m.dataLen
  fits : m.off + m.dataLen ≤ wLen w.wr
  region : s.regionOk q (wLkey w.wr) Rg.lwr (wLaddr w.wr + m.off) m.dataLen = true

/-- The cuts of the data, where it goes. -/
abbrev placed (m : Msg) (w : SendWork) : List (Nat × Nat) := writeCuts (wLaddr w.wr + m.off) m.dataLen

/-- The data is noted, and its writes are sent. -/
def State.placing (m : Msg) (q : Qp) (w : SendWork) (s : State) : State :=
  (placed m w).foldl (fun t c => t.qpAsk m.qpn q (.qpPlace m.qpn m.psn (wLkey w.wr) q.gen) 0x12 (wLaddr w.wr + m.off + c.1) c.2
    (bitsOf m.data (8 * c.1) (8 * c.2)) c.2)
    (s.modWork m.qpn m.psn (SendWork.received m.off m.dataLen (placed m w).length))

theorem State.get?_placing (h : s.qpe.qps.get? [m.qpn] = some q) :
    (s.placing m q w).qpe.qps.get? [m.qpn] =
      some (q.withWork m.psn (SendWork.received m.off m.dataLen (placed m w).length)) := by
  have hone : IssuesOne (s.modWork m.qpn m.psn (SendWork.received m.off m.dataLen (placed m w).length)) (s.placing m q w) :=
    IssuesOne.foldl _ (fun t _ => issuesOne_qpAsk _ _ _ _ _ _ _ _ t) _ _
  rw [hone.qpe]
  exact State.qps_modQp h _

theorem changes_placing (m : Msg) (q : Qp) (w : SendWork) (s : State) : Changes edgeInfo qpParts s (s.placing m q w) := by
  have hone : IssuesOne (s.modWork m.qpn m.psn (SendWork.received m.off m.dataLen (placed m w).length)) (s.placing m q w) :=
    IssuesOne.foldl _ (fun t _ => issuesOne_qpAsk _ _ _ _ _ _ _ _ t) _ _
  exact ((changes_modQp _ _ s).weaken (by simp)).trans (hone.changes.weaken (fun _ h => h))

theorem Answered.exec_eq (h : Answered s d m q w) :
    exec (.rmaReadData d m) s = serving s ((((s.consume d m).touchQp m.qpn).placing m q w).readSettled m.qpn m.psn) := by
  have hfound : ((s.consume d m).touchQp m.qpn).qpe.qps.get? [m.qpn] = some q :=
    State.get?_touchQp (by rw [(conveys_consume (l := []) d m s).qpe_eq, h.found]) _
  have hregion : ((s.consume d m).touchQp m.qpn).regionOk q (wLkey w.wr) Rg.lwr (wLaddr w.wr + m.off) m.dataLen = true := by
    rw [State.regionOk_touchQp]
    unfold State.regionOk
    rw [(conveys_consume (l := []) d m s).qpe_eq]
    exact h.region
  have hthis : [w].find? (fun w => decide (w.psn = m.psn) && w.read) = some w := by simp [h.psn, h.read]
  have hnew : ¬ (wLen w.wr < m.off + m.dataLen ∨
      w.got.any (fun r => decide (r.1 < m.off + m.dataLen ∧ m.off < r.1 + r.2)) = true ∨ (w.got ≠ [] ∧ m.dataLen = 0)) := by
    rw [h.got]
    simp [h.fits]
  change execRmaReadData d m s = _
  unfold execRmaReadData
  simp only [h.ty, ne_eq, not_true, if_false, State.responder_consume, h.resp, State.ackTo_self hfound h.una, h.works, hthis,
    hnew, hregion]
  rfl

theorem gives_rmaReadData (hserves : Serves s) (h : Answered s d m q w) :
    Gives (.rmaReadData d m) s (fun t => (t.qpe.qps.get? [m.qpn]).map (·.works) =
      some [{ w with got := [(m.off, m.dataLen)], placing := w.placing + (placed m w).length }] ∧
      t.mem = s.mem ∧ RegsBut edgeInfo s t ∧ PartsBut qpParts s t) := by
  have hfound : ((s.consume d m).touchQp m.qpn).qpe.qps.get? [m.qpn] = some q :=
    State.get?_touchQp (by rw [(conveys_consume (l := []) d m s).qpe_eq, h.found]) _
  have hplaced := State.get?_placing (w := w) hfound
  have hworks := Qp.works_withWork h.works h.psn (SendWork.received m.off m.dataLen (placed m w).length)
  have hsettled : (((s.consume d m).touchQp m.qpn).placing m q w).readSettled m.qpn m.psn =
      ((s.consume d m).touchQp m.qpn).placing m q w :=
    State.readSettled_of_placing hplaced hworks (fun hz => length_writeCuts_ne h.pos (Nat.add_eq_zero_iff.mp hz).2)
  have hch : Changes edgeInfo qpParts s (((s.consume d m).touchQp m.qpn).placing m q w) :=
    ((conveys_consume (l := []) d m s).changes.weaken (by simp)).trans (((changes_touchQp _ _).weaken (by simp)).trans
      (changes_placing m q w _))
  refine gives_serving (h.exec_eq.trans (congrArg (serving s) hsettled)) hserves ⟨?_, hch.parts .mem (by decide), hch.after⟩
  refine (congrArg (Option.map (·.works)) hplaced).trans (congrArg some (hworks.trans ?_))
  rw [SendWork.received, h.got]

end

/-! ### What goes on while a connection is in ERROR (R307, R309) -/

/-- Only what requests and records change differs, and the connection stays in its state. -/
structure Stays (n : Nat) (s u : State) : Prop where
  changes : Changes edgeInfo qpParts s u
  state : ∀ q, s.qpe.qps.get? [n] = some q → ∃ q', u.qpe.qps.get? [n] = some q' ∧ q'.state = q.state

theorem Stays.trans {n : Nat} (h : Stays n s u) (h' : Stays n u v) : Stays n s v := by
  refine ⟨h.changes.trans h'.changes, fun q hq => ?_⟩
  obtain ⟨q₁, hq₁, hs₁⟩ := h.state q hq
  obtain ⟨q₂, hq₂, hs₂⟩ := h'.state q₁ hq₁
  exact ⟨q₂, hq₂, hs₂.trans hs₁⟩

theorem Stays.of_qps {n : Nat} (h : Changes edgeInfo qpParts s u) (hqps : u.qpe.qps = s.qpe.qps) : Stays n s u :=
  ⟨h, fun q hq => ⟨q, by rw [hqps, hq], rfl⟩⟩

theorem Stays.refl (n : Nat) (s : State) : Stays n s s := .of_qps (.refl _ _ s) rfl

theorem stays_modQp (n : Nat) {f : Qp → Qp} (hf : ∀ q, (f q).state = q.state) (s : State) : Stays n s (s.modQp n f) :=
  ⟨(changes_modQp n f s).weaken (by simp), fun q hq => ⟨f q, State.qps_modQp hq f, hf q⟩⟩

theorem stays_countQp (n k : Nat) (s : State) : Stays n s (s.countQp n k) :=
  .of_qps ((changes_countQp n k s).weaken (by simp)) (congrArg Qpe.qps (State.qpe_countQp n k s))

theorem stays_qpAsk (n m : Nat) (q : Qp) (why : Purpose) (ty addr len data nbytes : Nat) (s : State) :
    Stays n s (s.qpAsk m q why ty addr len data nbytes) :=
  .of_qps ((issuesOne_qpAsk _ _ _ _ _ _ _ _ s).changes.weaken (fun _ h => h)) (congrArg Qpe.qps (State.qpe_qpAsk _ _ _ _ _ _ _ _ s))

theorem stays_event (n blk b : Nat) (s : State) : Stays n s (s.event blk b) :=
  .of_qps ((Changes.refl _ _ s).told ((Told.refl s).event blk b)) (congrArg Qpe.qps (State.event_qpe_eq blk b s))

theorem stays_modCq (n cqn : Nat) (f : Cq → Cq) (s : State) : Stays n s (s.modCq cqn f) := by
  refine .of_qps ((changes_modCq cqn f s).weaken (by simp)) ?_
  unfold State.modCq
  split <;> rfl

theorem stays_writeRecord (n cqn : Nat) (r : Nat × Nat × Option Nat) (s : State) : Stays n s (s.writeRecord cqn r) := by
  unfold State.writeRecord
  split
  · exact (stays_modCq n cqn _ s).trans (stays_qpAsk _ _ _ _ _ _ _ _ _ _)
  · exact .refl n s

theorem stays_putRecord (n cqn m rec_ : Nat) (job : Option Nat) (s : State) : Stays n s (s.putRecord cqn m rec_ job) := by
  unfold State.putRecord
  split
  · exact (stays_modCq n cqn _ s).trans (stays_event _ _ _ _)
  · exact stays_writeRecord _ _ _ s

theorem stays_sendDone (n wr len : Nat) (st : Status) (s : State) : Stays n s (s.sendDone n wr len st) := by
  unfold State.sendDone
  split
  · have hcounted := (stays_countQp n 0 s).trans (stays_modQp n (f := fun q => { q with
      sqCons := (q.sqCons + 1) % 2 ^ 32, compCount := (q.compCount + b2n (decide (st = .ok))) % 2 ^ 32 }) (fun _ => rfl) _)
    simp only
    split
    · exact hcounted
    · exact hcounted.trans (stays_putRecord _ _ _ _ _ _)
  · exact .refl n s

theorem stays_flushNext (n : Nat) (s : State) : Stays n s (s.flushNext n) := by
  unfold State.flushNext
  have hreads := stays_modQp n (f := fun q => { q with fetching := true }) (fun _ => rfl) s
  split
  · split
    · exact .refl n s
    · split
      · exact hreads.trans (stays_qpAsk _ _ _ _ _ _ _ _ _ _)
      · split
        · exact hreads.trans (stays_qpAsk _ _ _ _ _ _ _ _ _ _)
        · split
          · exact .refl n s
          · exact stays_modQp n (f := fun q => { q with flushing := false }) (fun _ => rfl) s
  · exact .refl n s

/-! ### Entering ERROR (R309) -/

/-- The registers an error of a connection may write. -/
abbrev qpErrorFields : List Fld := [R.QPE_ERR_INFO_qpn, R.QPE_ERR_INFO_status, R.QPE_ERR_INFO_psn, R.QPE_ERR_INFO_peer_eid,
  R.EDG_VIOL_INFO_port, R.EDG_VIOL_INFO_agent, R.EDG_VIOL_INFO_step, R.EDG_VIOL_INFO_src_eid, R.EDG_VIOL_INFO_msg_type,
  R.EDG_VIOL_INFO_tenant, R.EDG_VIOL_ADDR_addr]

/-- A context on entry to ERROR: nothing of it is under way any more. -/
def Qp.failed (psn : Nat) (q : Qp) : Qp :=
  { q with state := Qs.error, errPsn := psn, works := [], fetched := none, build := none, jobs := [], recv := none, nak := none, flushing := true }

/-- The first error is held, the event raised, and the context in ERROR. -/
def State.qpFailed (n psn : Nat) (st : Status) (q : Qp) (s : State) : State :=
  let s := if bitAt (s.rd R.QPE_EVT_events []) 1 then s else
    (((s.wr R.QPE_ERR_INFO_qpn [] n).wr R.QPE_ERR_INFO_status [] st.code).wr R.QPE_ERR_INFO_psn [] psn).wr
      R.QPE_ERR_INFO_peer_eid [] q.peerEid
  (s.event B.qpe 1).modQp n (Qp.failed psn)

theorem changes_qpFailed (n psn : Nat) (st : Status) (q : Qp) (s : State) :
    Changes qpErrorFields qpParts s (s.qpFailed n psn st q) := by
  refine Changes.trans (Changes.told (.ite (.refl _ _ s) ?_) ((Told.refl _).event _ _))
    ((changes_modQp n _ _).weaken (by simp))
  exact ((((Changes.refl _ _ s).wr (by simp) _ _).wr (by simp) _ _).wr (by simp) _ _).wr (by simp) _ _

theorem State.get?_qpFailed {n psn : Nat} {st : Status} {q : Qp} (h : s.qpe.qps.get? [n] = some q) :
    (s.qpFailed n psn st q).qpe.qps.get? [n] = some (q.failed psn) := by
  have hheld : (if bitAt (s.rd R.QPE_EVT_events []) 1 = true then s else
      (((s.wr R.QPE_ERR_INFO_qpn [] n).wr R.QPE_ERR_INFO_status [] st.code).wr R.QPE_ERR_INFO_psn [] psn).wr
        R.QPE_ERR_INFO_peer_eid [] q.peerEid).qpe = s.qpe := by
    split
    · rfl
    · simp only [State.wr_qpe_eq]
  refine State.qps_modQp ?_ _
  rw [State.event_qpe_eq, hheld, h]

/-- What is done while a connection is in ERROR leaves it there. -/
theorem Stays.failed {n psn : Nat} {st : Status} {q : Qp} (h : s.qpe.qps.get? [n] = some q)
    (hstays : Stays n (s.qpFailed n psn st q) u) :
    (u.qpe.qps.get? [n]).map (·.state) = some Qs.error ∧ Changes qpErrorFields qpParts s u := by
  obtain ⟨q', hq', hstate⟩ := hstays.state _ (State.get?_qpFailed h)
  exact ⟨(congrArg (Option.map (·.state)) hq').trans (congrArg some hstate),
    (changes_qpFailed n psn st q s).trans (hstays.changes.weaken (by simp))⟩

/-- A connection with nothing under way whose next request cannot start. -/
theorem State.qpError_next {n psn wr : Nat} {st : Status} {q : Qp} (h : s.qpe.qps.get? [n] = some q) (hact : q.state = Qs.active)
    (hfetched : q.fetched = some wr) (hworks : q.works = []) (hrecv : q.recv = none) :
    s.qpError n psn st .next = ((s.qpFailed n psn st q).sendDone n wr 0 st).flushNext n := by
  unfold State.qpError
  simp only [h, hact, hfetched, hworks, hrecv, ne_eq, not_true, false_and, if_false, List.filter_nil, List.foldl_nil]
  rfl

/-- A running connection with nothing under way. -/
theorem State.qpError_oldest {n psn : Nat} {st : Status} {q : Qp} (h : s.qpe.qps.get? [n] = some q) (hact : q.state = Qs.active)
    (hfetched : q.fetched = none) (hworks : q.works = []) (hrecv : q.recv = none) :
    s.qpError n psn st .oldest = (s.qpFailed n psn st q).flushNext n := by
  unfold State.qpError
  simp only [h, hact, hfetched, hworks, hrecv, ne_eq, not_true, false_and, if_false, List.filter_nil, List.foldl_nil,
    List.head?_nil]
  rfl

/-- A chain that has not come true in time (R305). -/
theorem gives_waitTimeout (hserves : Serves s) {n wr : Nat} {q : Qp} (h : s.qpe.qps.get? [n] = some q) (hact : q.state = Qs.active)
    (hfetched : q.fetched = some wr) (hok : wOk false wr = true) (hlimit : wWaitLimit wr ≠ 0) (hwaits : s.chain q wr = .waits)
    (hlate : wWaitLimit wr ≤ dist 32 (s.beatDie (dieOfQp n)) q.waitSince) (hworks : q.works = []) (hrecv : q.recv = none) :
    Gives (.waitTimeout n) s (fun t => (t.qpe.qps.get? [n]).map (·.state) = some Qs.error ∧ t.mem = s.mem ∧
      RegsBut qpErrorFields s t ∧ PartsBut qpParts s t) := by
  have hexec : exec (.waitTimeout n) s = serving s (s.qpError n 0 .timeout .next) := by
    change execWaitTimeout n s = _
    unfold execWaitTimeout
    simp only [h, hfetched, if_pos (show q.state = Qs.active ∧ wOk false wr = true ∧ wWaitLimit wr ≠ 0 ∧ s.chain q wr = .waits ∧
      wWaitLimit wr ≤ dist 32 (s.beatDie (dieOfQp n)) q.waitSince from ⟨hact, hok, hlimit, hwaits, hlate⟩)]
  rw [State.qpError_next h hact hfetched hworks hrecv] at hexec
  obtain ⟨hstate, hch⟩ := Stays.failed h ((stays_sendDone n wr 0 .timeout _).trans (stays_flushNext n _))
  exact gives_serving hexec hserves ⟨hstate, hch.parts .mem (by decide), hch.after⟩

/-- A refusal with REVOKED (R301, R303). -/
theorem gives_rmaNak (hserves : Serves s) {d : Nat} {m : Msg} {q : Qp} (hty : m.ty = 0x7A)
    (hresp : s.responder d m = some (m.qpn, q)) (h : s.qpe.qps.get? [m.qpn] = some q) (hpsn : m.psn = q.unaPsn)
    (hst : Status.ofCode m.status = .revoked) (hworks : q.works = []) (hfetched : q.fetched = none) (hrecv : q.recv = none) :
    Gives (.rmaNak d m) s (fun t => (t.qpe.qps.get? [m.qpn]).map (·.state) = some Qs.error ∧ t.mem = s.mem ∧
      RegsBut qpErrorFields s t ∧ PartsBut qpParts s t) := by
  have hconsume := conveys_consume (l := []) d m s
  have hfound : ((s.consume d m).touchQp m.qpn).qpe.qps.get? [m.qpn] = some q :=
    State.get?_touchQp (by rw [hconsume.qpe_eq, h]) _
  have hexec : exec (.rmaNak d m) s =
      serving s (State.qpError m.qpn m.psn .revoked .oldest ((s.consume d m).touchQp m.qpn)) := by
    have hfar : ¬ dist 24 q.nextPsn q.unaPsn < dist 24 m.psn q.unaPsn := by
      rw [hpsn, dist_self]
      exact Nat.not_lt_zero _
    change execRmaNak d m s = _
    unfold execRmaNak
    simp only [hty, ne_eq, not_true, if_false, State.responder_consume, hresp, Option.some_or, hfar, ite_self,
      State.ackTo_self hfound hpsn, hst]
  rw [State.qpError_oldest hfound (State.responder_active hresp) hfetched hworks hrecv] at hexec
  obtain ⟨hstate, hch⟩ := Stays.failed hfound (stays_flushNext m.qpn _)
  have hall := ((hconsume.changes.weaken (by simp)).trans ((changes_touchQp m.qpn _).weaken (by simp))).trans hch
  exact gives_serving hexec hserves ⟨hstate, hall.parts .mem (by decide), hall.after⟩

/-- Settles O37: doorbells, work requests that start, packets with the number expected, acknowledgements and errors of a
connection, each by the rule it follows. -/
theorem queueEngines : Obligations.QueueEngines := by
  unfold Obligations.QueueEngines
  intro s hserves
  refine ⟨?_, ?_, ?_, ?_, ?_, ?_, ?_, ?_, ?_, ?_, ?_, ?_, ?_, ?_, ?_⟩
  · intro fn v n i q hready hkind hn hi hq hten hinit hbell
    subst hn hi
    have hrung : (((s.touchQp (bitsOf v 0 18)).modQp (bitsOf v 0 18) (Qp.sends (bitsOf v 32 32)))).qpe.qps.get? [bitsOf v 0 18] =
        some (q.sends (bitsOf v 32 32)) := State.qps_modQp (State.get?_touchQp hq _) _
    have hstopped : (q.sends (bitsOf v 32 32)).state ≠ Qs.active := by
      change q.state ≠ Qs.active
      rw [hinit]
      decide
    refine gives_doorbell hserves hready ?_
    rw [State.doorbell_send hkind hq hten (.inl hinit) hbell, State.qpPump_of_idle hrung (.inl hstopped) (.inl hstopped)]
    exact ⟨hrung, ((changes_touchQp _ s).trans (changes_modQp _ _ _)).after⟩
  · intro fn v n i q hready hkind hn hi hq hten hstate hbell
    subst hn hi
    refine gives_doorbell hserves hready ?_
    rw [State.doorbell_recv hkind hq hten hstate hbell]
    exact ⟨State.qps_modQp (State.get?_touchQp hq _) _, ((changes_touchQp _ s).trans (changes_modQp _ _ _)).after⟩
  · intro fn v n c hready hkind hn hc hten
    subst hn
    refine gives_doorbell hserves hready ?_
    rw [State.doorbell_arm hkind hc hten]
    exact ⟨State.cqs_modCq hc _, (changes_modCq _ _ s).after⟩
  · intro fn v n i c hready hkind hn hi hc hten hempty hbell
    subst hn hi
    refine gives_doorbell hserves hready ?_
    rw [State.doorbell_consume hkind hc hten hempty hbell]
    exact ⟨State.cqs_modCq hc _, (changes_modCq _ _ s).after⟩
  · intro d m n i q hty hkind hn hi hq hten hstate hbell
    subst hn hi
    have hconsume := conveys_consume (l := []) d m s
    have hq' : (s.consume d m).qpe.qps.get? [bitsOf (m.f 0 0 64) 0 18] = some q := by rw [hconsume.qpe_eq, hq]
    refine gives_qpDoorbell hserves hty ?_
    rw [State.doorbell_recv hkind hq' hten hstate hbell]
    exact ⟨State.qps_modQp (State.get?_touchQp hq' _) _, ((hconsume.changes.weaken (by simp)).trans
      (((changes_touchQp _ _).weaken (by simp)).trans ((changes_modQp _ _ _).weaken (by simp)))).after⟩
  · intro n wr q hq hact hfetched hscq hrcq hok hop hquiet hfence hchain _ hread hsent
    exact gives_workRequestStart_done hserves ⟨hq, hact, hfetched, hscq, hrcq, hok, hfence, hchain⟩ hop hquiet hread hsent
  · intro n wr q hq hact hfetched hscq hrcq hok hop hfence hchain hregion _ hread hsent
    exact gives_workRequestStart_write hserves ⟨hq, hact, hfetched, hscq, hrcq, hok, hfence, hchain⟩ hop hregion hread hsent
  · exact fun n wr q => gives_waitTimeout hserves
  · intro d m q hty hq hdie hgen hact hpsn himm hfirst hjobs hlen hregion
    exact gives_rmaWrite hserves hty ⟨hq, hdie, hgen, hact, hpsn, hjobs⟩ himm hfirst hlen hregion
  · intro d m q hty hq hdie hgen hact hpsn hjobs hlen hregion
    exact gives_rmaRead hserves hty ⟨hq, hdie, hgen, hact, hpsn, hjobs⟩ hlen hregion
  · intro d m q hty hq hdie hgen hact hpsn hfirst hjobs hrecv hposted hprod hcons
    exact gives_rmaSend hserves hty ⟨hq, hdie, hgen, hact, hpsn, hjobs⟩ hfirst hrecv hposted hprod hcons
  · intro d m q w hty hresp hq huna hworks hpsn hread hgot hlen hfits hregion
    exact gives_rmaReadData hserves ⟨hty, hresp, hq, huna, hworks, hpsn, hread, hgot, hlen, hfits, hregion⟩
  · intro d m q w hty hresp hq hworks hread hquiet hpsn hall hpos hfew huna hnext hcur halloc _ hfetch
    exact gives_rmaAck hserves hty hresp hq ⟨hworks, hread, hquiet, hpsn, hall, hpos, hfew, huna, hnext, hcur⟩ halloc hfetch
  · exact fun d m q => gives_rmaNak hserves
  · exact fun n q => gives_ackTimeout hserves

end Sys2Proof.Machine
end

section
/-! PROOF. The commands of the collective units (R333 to R335, R340, R354). -/

namespace Sys2Proof.Machine

-- One proof after another: proofs under way at once are more threads than one process has memory for.
set_option Elab.async false

open Sys2Proof.Safety

variable {s t u : State}

/-! ### The part of the collective units -/

theorem Changes.inClt {l : List Fld} {ps : List Part} (h : Changes l ps s t) (k : Clt)
    (hp : Part.clt ∈ ps := by decide) : Changes l ps s { t with clt := k } := by
  refine h.trans ⟨fun _ _ _ _ => rfl, fun p hn => ?_, fun _ _ _ => rfl⟩
  cases p
  case clt => exact absurd hp hn
  all_goals rfl

theorem changes_inClt (k : Clt) (s : State) : Changes [] [.clt] s { s with clt := k } := (Changes.refl _ _ s).inClt k

theorem changes_modColl (n : Nat) (f : Coll → Coll) (s : State) : Changes [] [.clt] s (s.modColl n f) := by
  unfold State.modColl
  split
  · exact changes_inClt _ s
  · exact .refl _ _ s

theorem State.modColl_of_get? {n : Nat} {c : Coll} (h : s.clt.colls.get? [n] = some c) (f : Coll → Coll) :
    s.modColl n f = { s with clt := { s.clt with colls := s.clt.colls.set [n] (f c) } } := by
  rw [State.modColl, h]

theorem State.get?_modColl {n : Nat} {c : Coll} (h : s.clt.colls.get? [n] = some c) (f : Coll → Coll) :
    (s.modColl n f).clt.colls.get? [n] = some (f c) := by
  rw [State.modColl_of_get? h]
  exact Map.get?_set_same _ _ _

theorem changes_countClt (d k : Nat) (s : State) : Changes [] [] s (s.countClt d k) := changes_bump _ s

/-! ### What a command shows (R435, R443) -/

/-- The registers of a command's answer. -/
abbrev cltResultFields : List Fld := [R.CLT_CMD_RESULT_status, R.CLT_CMD_RESULT_busy]

/-- The answer, before a refusal is signalled. -/
def State.cltShown (fn : Nat) (st : Status) (s : State) : State :=
  (s.wr R.CLT_CMD_RESULT_status [fn] st.code).wr R.CLT_CMD_RESULT_busy [fn] 0

theorem changes_cltShown (fn : Nat) (st : Status) (s : State) : Changes cltResultFields [] s (s.cltShown fn st) :=
  ((Changes.refl _ _ s).wr (f := R.CLT_CMD_RESULT_status) (by simp) _ _).wr (f := R.CLT_CMD_RESULT_busy) (by simp) _ _

theorem State.cltResult_ok (fn : Nat) (s : State) : s.cltResult fn .ok = s.cltShown fn .ok := rfl

theorem State.cltResult_refused {st : Status} (h : st ≠ .ok) (fn : Nat) (s : State) :
    s.cltResult fn st = (s.cltShown fn st).event B.clt 6 := if_neg h

theorem State.rd_cltShown (fn : Nat) (st : Status) (s : State) :
    (s.cltShown fn st).rd R.CLT_CMD_RESULT_status [fn] = st.code := by
  unfold State.cltShown
  rw [State.rd_wr_num _ _ _ _ (by decide), State.rd_wr_same]
  cases st <;> rfl

theorem State.clt_cltShown (fn : Nat) (st : Status) (s : State) : (s.cltShown fn st).clt = s.clt :=
  (changes_cltShown fn st s).parts .clt (by decide)

section

variable (hserves : Serves s) (hready : s.isReady B.clt = true) {c : Instr} {fn : Nat} {P : State → Prop}

include hserves hready

/-- A command that is carried out. -/
theorem gives_cltCommand {f : State → Status × State} (hexec : exec c s = hosted s (fun s => s.cltCommand fn f))
    (hf : f s = (.ok, u)) (hP : P (s.after (u.cltShown fn .ok))) : Gives c s P := by
  refine gives_hosted hexec hserves ?_
  unfold State.cltCommand
  rw [hready, if_neg (by simp)]
  simp only [hf]
  exact hP

/-- A command that is refused: its status is shown and signalled. -/
theorem gives_cltRefused {f : State → Status × State} {st : Status} (hexec : exec c s = hosted s (fun s => s.cltCommand fn f))
    (hf : f s = (st, s)) (hst : st ≠ .ok) :
    Gives c s (fun t => t.rd R.CLT_CMD_RESULT_status [fn] = st.code ∧ RegsBut cltResultFields s t ∧ PartsBut reporting s t) := by
  have hevent : ((s.cltShown fn st).event B.clt 6).rd R.CLT_CMD_RESULT_status [fn] = st.code := by
    rw [State.rd_event_other _ _ _ _ (by decide), State.rd_cltShown]
  refine gives_hosted hexec hserves ?_
  unfold State.cltCommand
  rw [hready, if_neg (by simp)]
  simp only [hf, State.cltResult_refused hst]
  exact ⟨hevent, (((changes_cltShown fn st s).weaken (fun _ h => h)).told ((Told.refl _).event _ _)).after⟩

variable {n : Nat} {k : Coll} (hk : s.clt.colls.get? [n] = some k) (hmay : mayAct fn (coTenant k.desc) = true)

include hk

/-- A command on an installed collective of another tenant. -/
theorem gives_cltOn_foreign (hforeign : mayAct fn (coTenant k.desc) = false) {f : Coll → State → Status × State}
    (hexec : exec c s = hosted s (fun s => s.cltOn fn n f)) :
    Gives c s (fun t => t.rd R.CLT_CMD_RESULT_status [fn] = Status.protViolation.code ∧ RegsBut cltResultFields s t ∧
      PartsBut reporting s t) := by
  refine gives_cltRefused hserves hready hexec ?_ (by decide)
  simp only [hk, hforeign, Bool.false_eq_true, if_false]

include hmay

/-- A command on an installed collective, carried out. -/
theorem gives_cltOn {f : Coll → State → Status × State} (hexec : exec c s = hosted s (fun s => s.cltOn fn n f))
    (hf : f k s = (.ok, u)) (hP : P (s.after (u.cltShown fn .ok))) : Gives c s P := by
  refine gives_cltCommand hserves hready hexec ?_ hP
  simp only [hk, hmay, if_true, hf]

/-- A command on an installed collective, refused. -/
theorem gives_cltOn_refused {f : Coll → State → Status × State} {st : Status}
    (hexec : exec c s = hosted s (fun s => s.cltOn fn n f)) (hf : f k s = (st, s)) (hst : st ≠ .ok) :
    Gives c s (fun t => t.rd R.CLT_CMD_RESULT_status [fn] = st.code ∧ RegsBut cltResultFields s t ∧ PartsBut reporting s t) := by
  refine gives_cltRefused hserves hready hexec ?_ hst
  simp only [hk, hmay, if_true, hf]

end

/-- A command that changes the units' tables alone. -/
theorem cltDone {fn : Nat} (h : Changes [] [.clt] s u) :
    (s.after (u.cltShown fn .ok)).clt = u.clt ∧ (s.after (u.cltShown fn .ok)).rd R.CLT_CMD_RESULT_status [fn] = Status.ok.code ∧
      RegsBut cltResultFields s (s.after (u.cltShown fn .ok)) ∧ PartsBut [.clt] s (s.after (u.cltShown fn .ok)) :=
  ⟨State.clt_cltShown fn .ok u, State.rd_cltShown fn .ok u,
    ((h.weaken (by simp)).trans ((changes_cltShown fn .ok u).weaken (fun _ h => h))).after⟩

end Sys2Proof.Machine
end

section
/-! PROOF. Collectives installed, their entries, steps scheduled, and collectives destroyed (R333 to R335, R340, R354). -/

namespace Sys2Proof.Machine

-- One proof after another: proofs under way at once are more threads than one process has memory for.
set_option Elab.async false

open Sys2Proof.Safety

variable {s t u : State}

/-- A step waits for its beat. -/
def State.scheduled (n step b : Nat) (s : State) : State :=
  ((s.wr R.CLT_COLL_STATUS_state [n] Cl.scheduled).wr R.CLT_COLL_STATUS_beat [n] b).modColl n
    (fun c => { c with next := some (step, b) })

theorem changes_scheduled (n step b : Nat) (s : State) :
    Changes [R.CLT_COLL_STATUS_state, R.CLT_COLL_STATUS_beat] [.clt] s (s.scheduled n step b) :=
  (((Changes.refl _ _ s).wr (f := R.CLT_COLL_STATUS_state) (by simp) _ _).wr (f := R.CLT_COLL_STATUS_beat) (by simp) _ _).trans
    ((changes_modColl n _ _).weaken (by simp))

theorem State.clst_scheduled (n step b : Nat) (s : State) : (s.scheduled n step b).clst n = Cl.scheduled := by
  refine ((changes_modColl n _ _).rd R.CLT_COLL_STATUS_state [n]).trans ?_
  rw [State.rd_wr_num _ _ _ _ (by decide), State.rd_wr_same]
  rfl

theorem State.beat_scheduled (n step : Nat) {b : Nat} (hb : b < 2 ^ 32) (s : State) :
    (s.scheduled n step b).rd R.CLT_COLL_STATUS_beat [n] = b := by
  refine ((changes_modColl n _ _).rd R.CLT_COLL_STATUS_beat [n]).trans ?_
  rw [State.rd_wr_same]
  exact Nat.mod_eq_of_lt hb

theorem State.get?_scheduled {n : Nat} {c : Coll} (h : s.clt.colls.get? [n] = some c) (step b : Nat) :
    (s.scheduled n step b).clt.colls.get? [n] = some { c with next := some (step, b) } := by
  refine State.get?_modColl ?_ _
  rw [State.wr_clt_eq, State.wr_clt_eq, h]

section

variable (hserves : Serves s) (hready : s.isReady B.clt = true) {fn n : Nat}

include hserves hready

/-! ### Installed (R333) -/

/-- A collective in its slot, IDLE, with its tenant and tag shown. -/
def State.installed (n x : Nat) (s : State) : State :=
  let s := ((s.wr R.CLT_COLL_STATUS_state [n] Cl.idle).wr R.CLT_COLL_STATUS_tenant [n] (coTenant x)).wr
    R.CLT_COLL_STATUS_tag [n] (fieldOf x 0 12 20)
  { s with clt := { s.clt with colls := s.clt.colls.set [n] { desc := x } } }

omit hserves hready in
theorem changes_installed (n x : Nat) (s : State) : Changes [R.CLT_COLL_STATUS_state, R.CLT_COLL_STATUS_tenant,
    R.CLT_COLL_STATUS_tag] [.clt] s (s.installed n x) :=
  ((((Changes.refl _ _ s).wr (f := R.CLT_COLL_STATUS_state) (by simp) _ _).wr (f := R.CLT_COLL_STATUS_tenant) (by simp) _ _).wr
    (f := R.CLT_COLL_STATUS_tag) (by simp) _ _).inClt _

omit hserves hready in
theorem State.clst_installed (n x : Nat) (s : State) : (s.installed n x).clst n = Cl.idle := by
  unfold State.installed State.clst
  change State.rd (State.wr _ _ _ _) R.CLT_COLL_STATUS_state [n] = _
  rw [State.rd_wr_num _ _ _ _ (by decide), State.rd_wr_num _ _ _ _ (by decide), State.rd_wr_same]
  rfl

omit hserves hready in
theorem State.tenant_installed (n x : Nat) (s : State) : (s.installed n x).rd R.CLT_COLL_STATUS_tenant [n] = coTenant x := by
  unfold State.installed
  change State.rd (State.wr _ _ _ _) R.CLT_COLL_STATUS_tenant [n] = _
  rw [State.rd_wr_num _ _ _ _ (by decide), State.rd_wr_same]
  exact Nat.mod_eq_of_lt (bitsOf_lt _ _ 5)

theorem gives_collectiveCreate {x : Nat} (hx : s.cltStage fn 16 = x) (hok : collOk n x = true)
    (hmay : mayAct fn (coTenant x) = true) (hact : s.tenantActive (coTenant x) = true) (hfree : s.clt.colls.has [n] = false)
    (hnever : s.clt.freed.get? [n] = none) :
    Gives (.collectiveCreate fn n) s (fun t => t.clt.colls.get? [n] = some { desc := x } ∧ t.clst n = Cl.idle ∧
      t.rd R.CLT_COLL_STATUS_tenant [n] = coTenant x ∧ t.rd R.CLT_CMD_RESULT_status [fn] = Status.ok.code ∧
      RegsBut [R.CLT_COLL_STATUS_state, R.CLT_COLL_STATUS_tenant, R.CLT_COLL_STATUS_tag, R.CLT_CMD_RESULT_status,
        R.CLT_CMD_RESULT_busy] s t ∧ PartsBut [.clt] s t) := by
  subst hx
  have hroom : ¬ (s.clt.colls.has [n] = true ∨
      ((s.clt.freed.get? [n]).map (fun t => decide (s.now < t + 1000000))).getD false = true) := by
    simp [hfree, hnever]
  refine gives_cltCommand hserves hready (u := s.installed n (s.cltStage fn 16)) rfl
    ((if_neg (not_not.mpr hok)).trans ((if_neg (by simp [hmay, hact])).trans (if_neg hroom))) ⟨?_, ?_, ?_, ?_, ?_⟩
  · rw [State.after_clt_eq, State.clt_cltShown]
    exact Map.get?_set_same _ _ _
  · exact ((changes_cltShown fn .ok _).rd R.CLT_COLL_STATUS_state [n]).trans (State.clst_installed n _ s)
  · exact ((changes_cltShown fn .ok _).rd R.CLT_COLL_STATUS_tenant [n]).trans (State.tenant_installed n _ s)
  · exact State.rd_cltShown fn .ok _
  · exact (((changes_installed n _ s).weaken (by simp)).trans ((changes_cltShown fn .ok _).weaken (by simp))).after

theorem gives_collectiveCreate_inUse {x : Nat} (hx : s.cltStage fn 16 = x) (hok : collOk n x = true)
    (hmay : mayAct fn (coTenant x) = true) (hact : s.tenantActive (coTenant x) = true) (hused : s.clt.colls.has [n] = true) :
    Gives (.collectiveCreate fn n) s (fun t => t.rd R.CLT_CMD_RESULT_status [fn] = Status.retry.code ∧ RegsBut cltResultFields s t ∧ PartsBut reporting s t) := by
  subst hx
  exact gives_cltRefused hserves hready rfl
    ((if_neg (not_not.mpr hok)).trans ((if_neg (by simp [hmay, hact])).trans (if_pos (.inl hused)))) (by decide)

section

variable {k : Nat} {c : Coll} (hc : s.clt.colls.get? [n] = some c)

include hc

theorem gives_memberEntry_foreign (hmay : mayAct fn (coTenant c.desc) = false) :
    Gives (.member fn n k) s (fun t => t.rd R.CLT_CMD_RESULT_status [fn] = Status.protViolation.code ∧ RegsBut cltResultFields s t ∧ PartsBut reporting s t) := by
  exact gives_cltOn_foreign hserves hready hc hmay rfl

variable (hmay : mayAct fn (coTenant c.desc) = true)

include hmay

/-! ### Entries (R334, R335) -/

theorem gives_ownerEntry (hk : k < coOwners c.desc) (hmid : fieldOf (s.cltStage fn 2) 4 12 20 = 0)
    (htop : fieldOf (s.cltStage fn 2) 12 5 27 = 0) (hslots : owSlots (s.cltStage fn 2) ≤ 16)
    (haway : owEid (s.cltStage fn 2) ≠ s.eid) :
    Gives (.owner fn n k) s (fun t =>
      t.clt.colls.get? [n] = some { c with owners := c.owners.set [k] (s.cltStage fn 2) } ∧
      t.rd R.CLT_CMD_RESULT_status [fn] = Status.ok.code ∧ RegsBut cltResultFields s t ∧ PartsBut [.clt] s t) := by
  refine gives_cltOn hserves hready hc hmay
    (u := s.modColl n (fun c => { c with owners := c.owners.set [k] (s.cltStage fn 2) })) rfl
    ((if_neg ?_).trans (if_pos haway)) ?_
  · rintro (h | h | h | h) <;> omega
  · obtain ⟨hclt, hend⟩ := cltDone (fn := fn) (changes_modColl n _ s)
    refine ⟨?_, hend⟩
    rw [hclt, State.get?_modColl hc]

theorem gives_ownerEntry_beyond (hk : coOwners c.desc ≤ k) :
    Gives (.owner fn n k) s (fun t => t.rd R.CLT_CMD_RESULT_status [fn] = Status.unsupported.code ∧ RegsBut cltResultFields s t ∧ PartsBut reporting s t) :=
  gives_cltOn_refused hserves hready hc hmay rfl (if_pos (.inl hk)) (by decide)

theorem gives_memberEntry (hk : k < coMembers c.desc) (hsize : s.cltStage fn 1 < 2 ^ 34) (hcore : mbCore (s.cltStage fn 1) = true) :
    Gives (.member fn n k) s (fun t =>
      t.clt.colls.get? [n] = some { c with members := c.members.set [k] (s.cltStage fn 1) } ∧
      t.rd R.CLT_CMD_RESULT_status [fn] = Status.ok.code ∧ RegsBut cltResultFields s t ∧ PartsBut [.clt] s t) := by
  refine gives_cltOn hserves hready hc hmay
    (u := s.modColl n (fun c => { c with members := c.members.set [k] (s.cltStage fn 1) })) rfl (if_neg ?_) ?_
  · rintro (h | h | h)
    · omega
    · exact h (by rw [Nat.shiftRight_eq_div_pow]; exact Nat.div_eq_of_lt hsize)
    · simp [State.memberLacks, hcore] at h
  · obtain ⟨hclt, hend⟩ := cltDone (fn := fn) (changes_modColl n _ s)
    refine ⟨?_, hend⟩
    rw [hclt, State.get?_modColl hc]

/-! ### A step is scheduled (R340) -/

theorem gives_collStep (hidle : s.clst n = Cl.idle) (hlaunch : s.noLaunch = false) (hnone : s.ownHere c = []) {step b : Nat}
    (hstep : bitsOf (s.cltStage fn 1) 0 32 = step) (hb : bitsOf (s.cltStage fn 1) 32 32 = b) (hahead : ahead b s.beat = true) :
    Gives (.collStep fn n) s (fun t => t.clst n = Cl.scheduled ∧ t.rd R.CLT_COLL_STATUS_beat [n] = b ∧
      t.clt.colls.get? [n] = some { c with next := some (step, b) } ∧ t.rd R.CLT_CMD_RESULT_status [fn] = Status.ok.code ∧
      RegsBut [R.CLT_COLL_STATUS_state, R.CLT_COLL_STATUS_beat, R.CLT_CMD_RESULT_status, R.CLT_CMD_RESULT_busy] s t ∧
      PartsBut [.clt] s t) := by
  have hfree : ¬ (s.clst n ≠ Cl.idle ∨ s.noLaunch = true ∨
      (s.ownHere c).any (fun e => decide (s.cst (owCluster e.2) = Cs.offlining)) = true) := by
    simp [hidle, hlaunch, hnone]
  have hlaunched : launchBeat b s.beat = b := by
    rw [launchBeat, if_pos hahead, ← hb]
    exact Nat.mod_eq_of_lt (bitsOf_lt _ 32 32)
  have hshown := changes_cltShown fn .ok (s.scheduled n step b)
  refine gives_cltOn hserves hready hc hmay (u := s.scheduled n step b) rfl ?_ ⟨?_, ?_, ?_, ?_, ?_⟩
  · refine (if_neg hfree).trans ?_
    simp only [hstep, hb, hahead, if_true, hlaunched, State.scheduled]
  · exact (hshown.rd R.CLT_COLL_STATUS_state [n]).trans (State.clst_scheduled n step b s)
  · exact (hshown.rd R.CLT_COLL_STATUS_beat [n]).trans (State.beat_scheduled n step (hb ▸ bitsOf_lt _ 32 32) s)
  · rw [State.after_clt_eq, State.clt_cltShown]
    exact State.get?_scheduled hc step b
  · exact State.rd_cltShown fn .ok _
  · exact (((changes_scheduled n step b s).weaken (by simp)).trans (hshown.weaken (by simp))).after

theorem gives_collStep_busy (hbusy : s.clst n ≠ Cl.idle) :
    Gives (.collStep fn n) s (fun t => t.rd R.CLT_CMD_RESULT_status [fn] = Status.retry.code ∧ RegsBut cltResultFields s t ∧ PartsBut reporting s t) :=
  gives_cltOn_refused hserves hready hc hmay rfl (if_pos (.inl hbusy)) (by decide)

/-! ### Destroyed (R354) -/

/-- The slot is FREE, and shows nothing. -/
def State.slotFreed (n : Nat) (s : State) : State :=
  let s := (((s.wr R.CLT_COLL_STATUS_state [n] 0).wr R.CLT_COLL_STATUS_tenant [n] 0).wr R.CLT_COLL_STATUS_tag [n] 0).wr
    R.CLT_COLL_STATUS_live [n] 0
  { s with clt := { s.clt with colls := s.clt.colls.erase [n], freed := s.clt.freed.set [n] s.now } }

theorem gives_collectiveDestroy (hidle : s.clst n = Cl.idle) (hbound : c.bound = []) :
    Gives (.collectiveDestroy fn n) s (fun t => t.clt.colls.get? [n] = none ∧ t.clst n = Cl.free ∧
      t.clt.freed.get? [n] = some s.now ∧
      RegsBut [R.CLT_COLL_STATUS_state, R.CLT_COLL_STATUS_tenant, R.CLT_COLL_STATUS_tag, R.CLT_COLL_STATUS_live,
        R.CLT_CMD_RESULT_status, R.CLT_CMD_RESULT_busy] s t ∧ PartsBut [.clt] s t) := by
  have hshown := changes_cltShown fn .ok (s.slotFreed n)
  have hch : Changes [R.CLT_COLL_STATUS_state, R.CLT_COLL_STATUS_tenant, R.CLT_COLL_STATUS_tag, R.CLT_COLL_STATUS_live] [.clt] s
      (s.slotFreed n) :=
    (((((Changes.refl _ _ s).wr (f := R.CLT_COLL_STATUS_state) (by simp) _ _).wr (f := R.CLT_COLL_STATUS_tenant) (by simp)
      _ _).wr (f := R.CLT_COLL_STATUS_tag) (by simp) _ _).wr (f := R.CLT_COLL_STATUS_live) (by simp) _ _).inClt _
  refine gives_cltOn hserves hready hc hmay (u := s.slotFreed n) rfl ?_ ⟨?_, ?_, ?_, ?_⟩
  · refine (if_neg (not_not.mpr hidle)).trans ?_
    simp only [hbound, List.foldl_nil]
    rfl
  · rw [State.after_clt_eq, State.clt_cltShown]
    exact Map.get?_erase_same _ _
  · refine (hshown.rd R.CLT_COLL_STATUS_state [n]).trans ?_
    change State.rd (State.wr _ _ _ _) R.CLT_COLL_STATUS_state [n] = _
    rw [State.rd_wr_num _ _ _ _ (by decide), State.rd_wr_num _ _ _ _ (by decide), State.rd_wr_num _ _ _ _ (by decide),
      State.rd_wr_same]
    rfl
  · rw [State.after_clt_eq, State.clt_cltShown]
    unfold State.slotFreed
    simp only [State.wr_now_eq, Map.get?_set_same]
  · exact ((hch.weaken (by simp)).trans (hshown.weaken (by simp))).after

theorem gives_collectiveDestroy_busy (hbusy : s.clst n ≠ Cl.idle) :
    Gives (.collectiveDestroy fn n) s (fun t => t.rd R.CLT_CMD_RESULT_status [fn] = Status.retry.code ∧ RegsBut cltResultFields s t ∧ PartsBut reporting s t) :=
  gives_cltOn_refused hserves hready hc hmay rfl (if_pos hbusy) (by decide)

end

end

end Sys2Proof.Machine
end

section
/-! PROOF. Steps that open and steps that run out of time (R340, R346, R347). -/

namespace Sys2Proof.Machine

-- One proof after another: proofs under way at once are more threads than one process has memory for.
set_option Elab.async false

open Sys2Proof.Safety

variable {s t u : State} {n k i : Nat} {c : Coll}

/-! ### Records counted (R343) -/

/-- The registers that show how many records live. -/
abbrev tallyFields : List Fld := [R.CLT_COLL_STATUS_live, R.CMP_CLUSTER_STATUS_accums]

theorem changes_tally (s : State) : Changes tallyFields [] s s.tally :=
  (Changes.foldl _ (fun t _ => (Changes.refl _ _ t).wr (f := R.CLT_COLL_STATUS_live) (by simp) _ _) _ s).trans
    (Changes.foldl _ (fun t _ => (Changes.refl _ _ t).wr (f := R.CMP_CLUSTER_STATUS_accums) (by simp) _ _) _ _)

theorem State.clt_tally (s : State) : s.tally.clt = s.clt := (changes_tally s).parts .clt (by decide)

/-! ### Owners and steps (R340, R346) -/

theorem State.get?_modOwned (h : s.clt.colls.get? [n] = some c) (f : Owned → Owned) :
    (s.modOwned n k f).clt.colls.get? [n] = some { c with own := c.own.set [k] (f (c.owned k)) } := State.get?_modColl h _

/-- An owner that has a chunk neither delivered nor failed goes on. -/
theorem State.ownerGo_of_waiting (h : s.clt.colls.get? [n] = some c) (hi : i ∈ ownedChunks c.desc k)
    (hwaits : (c.owned k).finished.has [i] = false) : s.ownerGo n k = s := by
  unfold State.ownerGo
  simp only [h]
  refine if_pos (.inr (.inr ?_))
  exact List.any_eq_true.mpr ⟨i, hi, by rw [hwaits]; rfl⟩

/-- A step none of whose owners has ended stays open. -/
theorem State.stepGo_of_open (h : s.clt.colls.get? [n] = some c) {ow : Nat} (hhere : s.ownHere c = [(k, ow)])
    (hopen : (c.owned k).ended = false) : s.stepGo n = s := by
  unfold State.stepGo
  simp only [h, hhere, List.any_cons, List.any_nil, hopen, Bool.not_false, Bool.or_false, if_true, Bool.false_eq_true, if_false]
  exact ite_self s

/-- The end of a step without a next one, before the records are counted. -/
def State.stepEnded (n : Nat) (st : Status) (s : State) : State :=
  State.event B.clt 0 (((s.wr R.CLT_COLL_STATUS_last_status [n] st.code).wr R.CLT_COLL_STATUS_state [n] Cl.idle).modColl n
    (fun c => { c with last := some c.step, accs := Map.empty, groups := Map.empty }))

/-- A step ends with its only owner. -/
theorem State.stepGo_of_ended (h : s.clt.colls.get? [n] = some c) {ow : Nat} (hhere : s.ownHere c = [(k, ow)])
    (hrun : s.running n = true) (hended : (c.owned k).ended = true) (hlast : c.next = none)
    {st : Status} (hst : Status.join .ok (c.owned k).worst = st) : s.stepGo n = (s.stepEnded n st).tally := by
  subst hst
  unfold State.stepGo
  simp only [h, hhere, hrun, hlast, hended, List.any_cons, List.any_nil, Bool.not_true, Bool.or_false, not_true, if_false,
    Bool.false_eq_true, List.foldl_cons, List.foldl_nil]
  rfl

theorem changes_stepEnded (n : Nat) (st : Status) (s : State) :
    Changes [R.CLT_COLL_STATUS_state, R.CLT_COLL_STATUS_last_status] [.out, .hif, .clt] s (s.stepEnded n st) :=
  Changes.told ((((Changes.refl _ _ s).wr (f := R.CLT_COLL_STATUS_last_status) (by simp) _ _).wr
    (f := R.CLT_COLL_STATUS_state) (by simp) _ _).trans ((changes_modColl n _ _).weaken (by simp))) ((Told.refl _).event _ _)

theorem State.get?_stepEnded (h : s.clt.colls.get? [n] = some c) (st : Status) :
    (s.stepEnded n st).clt.colls.get? [n] = some { c with last := some c.step, accs := Map.empty, groups := Map.empty } := by
  unfold State.stepEnded
  rw [State.event_clt_eq]
  refine State.get?_modColl ?_ _
  rw [State.wr_clt_eq, State.wr_clt_eq, h]

theorem State.clst_stepEnded (n : Nat) (st : Status) (s : State) : (s.stepEnded n st).clst n = Cl.idle := by
  unfold State.stepEnded State.clst
  rw [State.rd_event_other _ _ _ _ (by decide)]
  refine ((changes_modColl n _ _).rd R.CLT_COLL_STATUS_state [n]).trans ?_
  rw [State.rd_wr_same]
  rfl

theorem State.lastStatus_stepEnded (n : Nat) (st : Status) (s : State) :
    (s.stepEnded n st).rd R.CLT_COLL_STATUS_last_status [n] = st.code := by
  unfold State.stepEnded
  rw [State.rd_event_other _ _ _ _ (by decide)]
  refine ((changes_modColl n _ _).rd R.CLT_COLL_STATUS_last_status [n]).trans ?_
  rw [State.rd_wr_num _ _ _ _ (by decide), State.rd_wr_same]
  cases st <;> rfl

/-! ### A step opens (R340) -/

/-- A collective at the start of a step. -/
def Coll.opened (step b p : Nat) (c : Coll) : Coll :=
  { c with step := step, own := Map.empty, accs := Map.empty, groups := Map.empty, spilled := false, next := if p = 0 then none else some ((step + 1) % 2 ^ 32, (b + p) % 2 ^ 32) }

/-- The step is OPEN with its number shown. -/
def State.stepOpened (n step b p : Nat) (s : State) : State :=
  ((s.wr R.CLT_COLL_STATUS_state [n] Cl.open_).wr R.CLT_COLL_STATUS_step [n] step).modColl n (Coll.opened step b p)

theorem changes_stepOpened (n step b p : Nat) (s : State) :
    Changes [R.CLT_COLL_STATUS_state, R.CLT_COLL_STATUS_step] [.clt] s (s.stepOpened n step b p) :=
  (((Changes.refl _ _ s).wr (f := R.CLT_COLL_STATUS_state) (by simp) _ _).wr (f := R.CLT_COLL_STATUS_step) (by simp) _ _).trans
    ((changes_modColl n _ _).weaken (by simp))

theorem State.get?_stepOpened (h : s.clt.colls.get? [n] = some c) (step b p : Nat) :
    (s.stepOpened n step b p).clt.colls.get? [n] = some (c.opened step b p) := by
  refine State.get?_modColl ?_ _
  rw [State.wr_clt_eq, State.wr_clt_eq, h]

theorem State.ownHere_of_changes {l : List Fld} {ps : List Part} (h : Changes l ps s t)
    (hl : ∀ g ∈ l, R.GLB_NODE_eid.num ≠ g.num := by decide) (c : Coll) : t.ownHere c = s.ownHere c := by
  unfold State.ownHere State.eid
  rw [h.rd R.GLB_NODE_eid [] (by decide) hl]

theorem gives_stepOpen (hserves : Serves s) {ow step b p : Nat} (hc : s.clt.colls.get? [n] = some c)
    (hstate : s.clst n = Cl.scheduled) (hnext : c.next = some (step, b))
    (hcome : ahead (s.rd R.CLT_COLL_STATUS_beat [n]) s.beat = false) (hplain : coUpdate c.desc = false)
    (hhere : s.ownHere c = [(k, ow)]) (hchunks : ownedChunks c.desc k ≠ []) (hstep : step < 2 ^ 32) (hp : coPeriod c.desc = p) :
    Gives (.stepOpen n) s (fun t => t.clst n = Cl.open_ ∧ t.rd R.CLT_COLL_STATUS_step [n] = step ∧
      t.clt.colls.get? [n] = some (c.opened step b p) ∧ RegsBut [R.CLT_COLL_STATUS_state, R.CLT_COLL_STATUS_step] s t ∧
      PartsBut [.clt] s t) := by
  have hch := changes_stepOpened n step b p s
  have hin := State.get?_stepOpened hc step b p
  obtain ⟨i, hi⟩ := List.exists_mem_of_ne_nil _ hchunks
  have howner : (s.stepOpened n step b p).ownerGo n k = s.stepOpened n step b p :=
    State.ownerGo_of_waiting (i := i) hin hi (Map.has_empty _)
  have hhere' : (s.stepOpened n step b p).ownHere (c.opened step b p) = [(k, ow)] := (State.ownHere_of_changes hch (by decide) _).trans hhere
  have hgo : (s.stepOpened n step b p).stepGo n = s.stepOpened n step b p := State.stepGo_of_open hin hhere' rfl
  have hhere'' : (s.stepOpened n step b p).ownHere c = [(k, ow)] := (State.ownHere_of_changes hch (by decide) _).trans hhere
  have hexec : exec (.stepOpen n) s = serving s (s.stepOpened n step b p) := by
    change execStepOpen n s = _
    unfold execStepOpen
    have hdue : ¬ (s.clst n ≠ Cl.scheduled ∨ ahead (s.rd R.CLT_COLL_STATUS_beat [n]) s.beat = true) := by
      simp [hstate, hcome]
    simp only [hc, hnext, hdue, hp, if_false, hplain, Bool.false_eq_true, not_false_iff, if_true]
    change serving s (State.stepGo n (List.foldl _ (s.stepOpened n step b p) ((s.stepOpened n step b p).ownHere c))) = _
    rw [hhere'', List.foldl_cons, List.foldl_nil, howner, hgo]
  refine gives_serving hexec hserves ⟨?_, ?_, hin, hch.after⟩
  · refine ((changes_modColl n _ _).rd R.CLT_COLL_STATUS_state [n]).trans ?_
    rw [State.rd_wr_num _ _ _ _ (by decide), State.rd_wr_same]
    rfl
  · refine ((changes_modColl n _ _).rd R.CLT_COLL_STATUS_step [n]).trans ?_
    rw [State.rd_wr_same]
    exact Nat.mod_eq_of_lt hstep

theorem gives_stepOpen_early (hserves : Serves s) {step b : Nat} (hc : s.clt.colls.get? [n] = some c)
    (hnext : c.next = some (step, b)) (hahead : ahead (s.rd R.CLT_COLL_STATUS_beat [n]) s.beat = true) :
    Gives (.stepOpen n) s (fun t => RegsBut [] s t ∧ PartsBut [] s t) := by
  have hexec : exec (.stepOpen n) s = serving s s := by
    change execStepOpen n s = _
    unfold execStepOpen
    simp only [hc, hnext, hahead, or_true, if_true]
  exact gives_serving hexec hserves (Changes.refl [] [] s).after

/-! ### Chunks that fail (R347, R353) -/

/-- The registers that hold the first failure. -/
abbrev failInfoFields : List Fld := [R.CLT_FAIL_INFO_slot, R.CLT_FAIL_INFO_status, R.CLT_FAIL_INFO_chunk, R.CLT_FAIL_INFO_step]

/-- The first failure is held, and signalled. -/
def State.failTold (n i : Nat) (st : Status) (step : Nat) (s : State) : State :=
  State.event B.clt 1 (if bitAt (s.rd R.CLT_EVT_events []) 1 then s else (((s.wr R.CLT_FAIL_INFO_slot [] n).wr
    R.CLT_FAIL_INFO_status [] st.code).wr R.CLT_FAIL_INFO_chunk [] i).wr R.CLT_FAIL_INFO_step [] step)

/-- A collective one of whose chunks has ended. -/
def Coll.finish (k i : Nat) (st : Status) (c : Coll) : Coll :=
  { c with accs := c.accs.erase [i], own := c.own.set [k] { c.owned k with finished := (c.owned k).finished.set [i] (), worst := Status.join (c.owned k).worst st } }

theorem Coll.owned_finish (k i : Nat) (st : Status) (c : Coll) : (c.finish k i st).owned k =
    { c.owned k with finished := (c.owned k).finished.set [i] (), worst := Status.join (c.owned k).worst st } :=
  Map.get_set_same _ _ _ _

theorem changes_finishChunk (n k i : Nat) (st : Status) (s : State) : Changes [] [.clt] s (s.finishChunk n k i st) :=
  (changes_modColl n _ s).trans (changes_modColl n _ _)

theorem State.get?_finishChunk (h : s.clt.colls.get? [n] = some c) (st : Status) :
    (s.finishChunk n k i st).clt.colls.get? [n] = some (c.finish k i st) :=
  State.get?_modOwned (State.get?_modColl h _) _

theorem changes_failTold (n i : Nat) (st : Status) (step : Nat) (s : State) : Changes failInfoFields [.out, .hif] s (s.failTold n i st step) :=
  (Changes.ite (.refl _ _ s) (((((Changes.refl _ _ s).wr (f := R.CLT_FAIL_INFO_slot) (by simp) _ _).wr
    (f := R.CLT_FAIL_INFO_status) (by simp) _ _).wr (f := R.CLT_FAIL_INFO_chunk) (by simp) _ _).wr
    (f := R.CLT_FAIL_INFO_step) (by simp) _ _)).told ((Told.refl _).event _ _)

/-- A chunk that has not ended fails. -/
theorem State.failChunk_of_waiting (h : s.clt.colls.get? [n] = some c) (hwaits : (c.owned k).finished.has [i] = false) (st : Status) :
    s.failChunk n k i st = (s.failTold n i st c.step).finishChunk n k i st := by
  unfold State.failChunk
  simp only [h, hwaits, Bool.false_eq_true, if_false]
  rfl

theorem State.get?_failTold (h : s.clt.colls.get? [n] = some c) (st : Status) (step : Nat) :
    (s.failTold n i st step).clt.colls.get? [n] = some c := by
  rw [(changes_failTold n i st step s).parts .clt (by decide), h]

/-! ### Owners that end (R346) -/

theorem conveys_sendDone_ (n k : Nat) (s : State) : Conveys [] s (s.sendDone_ n k) := by
  unfold State.sendDone_
  split
  · exact .refl _ s
  · refine Conveys.foldl _ (fun t r => ?_) _ _
    split
    · exact .refl _ t
    · exact conveys_send _ _ t

/-- An owner that does not end well ends its step. -/
def State.ownerEnded (n k d : Nat) (s : State) : State :=
  State.countClt d 10 ((s.sendDone_ n k).modOwned n k (fun o => { o with ended := true }))

/-- An owner all of whose chunks have ended, not all of them well, ends its step. -/
theorem State.ownerGo_of_failed (h : s.clt.colls.get? [n] = some c) (hrun : s.running n = true) (hopen : (c.owned k).ended = false)
    (hall : ∀ i ∈ ownedChunks c.desc k, (c.owned k).finished.has [i] = true) (hbad : (c.owned k).worst ≠ .ok) :
    s.ownerGo n k = (s.ownerEnded n k (dieOfOwner c k)).stepGo n := by
  have hdone : (ownedChunks c.desc k).any (fun i => !(c.owned k).finished.has [i]) = false := by
    rw [List.any_eq_false]
    intro i hi
    rw [hall i hi]
    decide
  unfold State.ownerGo
  simp only [h, hrun, hopen, hdone, hbad, not_true, Bool.false_eq_true, or_self, if_false]
  rfl

/-- A collective one of whose owners has ended. -/
def Coll.endOwner (k : Nat) (c : Coll) : Coll := { c with own := c.own.set [k] { c.owned k with ended := true } }

theorem Coll.owned_endOwner (k : Nat) (c : Coll) : (c.endOwner k).owned k = { c.owned k with ended := true } :=
  Map.get_set_same _ _ _ _

theorem changes_ownerEnded (n k d : Nat) (s : State) :
    Changes [] [.out, .hif, .sw, .ports, .ras, .answers, .clt] s (s.ownerEnded n k d) :=
  (((conveys_sendDone_ n k s).changes.weaken (fun _ h => h)).trans ((changes_modColl n _ _).weaken (fun _ h => h))).trans
    ((changes_countClt d 10 _).weaken (fun _ h => h))

theorem State.get?_ownerEnded (h : s.clt.colls.get? [n] = some c) (d : Nat) :
    (s.ownerEnded n k d).clt.colls.get? [n] = some (c.endOwner k) := by
  have hin : (s.sendDone_ n k).clt.colls.get? [n] = some c := by rw [(conveys_sendDone_ n k s).clt_eq, h]
  unfold State.ownerEnded
  rw [(changes_countClt d 10 _).parts .clt (by decide)]
  exact State.get?_modOwned hin _

/-! ### The step's time has passed (R347) -/

theorem State.running_of_changes {l : List Fld} {ps : List Part} (h : Changes l ps s t)
    (hl : ∀ g ∈ l, R.CLT_COLL_STATUS_state.num ≠ g.num) (n : Nat) : t.running n = s.running n := by
  unfold State.running State.clst
  rw [h.rd R.CLT_COLL_STATUS_state [n] (by decide) hl]

/-- The step's only chunk has failed, and with it the step's only owner. -/
def State.onlyFailed (n k i d step : Nat) (st : Status) (s : State) : State :=
  State.ownerEnded n k d ((s.failTold n i st step).finishChunk n k i st)

theorem changes_onlyFailed (n k i d step : Nat) (st : Status) (s : State) :
    Changes failInfoFields [.out, .hif, .sw, .ports, .ras, .answers, .clt] s (s.onlyFailed n k i d step st) :=
  (((changes_failTold n i st step s).weaken (fun _ h => h)).trans ((changes_finishChunk n k i st _).weaken (by simp))).trans
    ((changes_ownerEnded n k d _).weaken (by simp))

/-- What the end of a step by its timeout changes. -/
def State.stepTimedOut (n k i d step : Nat) (s : State) : State :=
  ((s.onlyFailed n k i d step .timeout).stepEnded n .timeout).tally.tally

theorem changes_stepTimedOut (n k i d step : Nat) (s : State) : Changes [R.CLT_COLL_STATUS_state, R.CLT_COLL_STATUS_last_status,
    R.CLT_COLL_STATUS_live, R.CMP_CLUSTER_STATUS_accums, R.CLT_FAIL_INFO_slot, R.CLT_FAIL_INFO_status, R.CLT_FAIL_INFO_chunk,
    R.CLT_FAIL_INFO_step] [.out, .hif, .sw, .ports, .ras, .answers, .clt] s (s.stepTimedOut n k i d step) :=
  ((((changes_onlyFailed n k i d step .timeout s).weaken (by simp)).trans ((changes_stepEnded n .timeout _).weaken (by simp))).trans
    ((changes_tally _).weaken (by simp))).trans ((changes_tally _).weaken (by simp))

section

variable {ow : Nat} (hc : s.clt.colls.get? [n] = some c) (hrun : s.running n = true) (hplain : coUpdate c.desc = false)
  (hhere : s.ownHere c = [(k, ow)]) (hchunks : ownedChunks c.desc k = [i]) (hwaits : (c.owned k).finished.has [i] = false)
  (hopen : (c.owned k).ended = false) (hwell : (c.owned k).worst = .ok) (hlast : c.next = none)

include hc hrun hhere hchunks hopen hwell hlast

theorem State.ownerGo_of_onlyFailed : ((s.failTold n i .timeout c.step).finishChunk n k i .timeout).ownerGo n k =
    ((s.onlyFailed n k i (dieOfOwner c k) c.step .timeout).stepEnded n .timeout).tally := by
  have hin : ((s.failTold n i .timeout c.step).finishChunk n k i .timeout).clt.colls.get? [n] = some (c.finish k i .timeout) :=
    State.get?_finishChunk (State.get?_failTold hc _ _) _
  have howned := Coll.owned_finish k i .timeout c
  have hworst : ((c.finish k i .timeout).owned k).worst = .timeout := by
    rw [howned]
    exact congrArg (fun w => Status.join w .timeout) hwell
  have hch : Changes failInfoFields [.out, .hif, .clt] s ((s.failTold n i .timeout c.step).finishChunk n k i .timeout) :=
    ((changes_failTold n i _ _ s).weaken (fun _ h => h)).trans ((changes_finishChunk n k i _ _).weaken (by simp))
  rw [State.ownerGo_of_failed hin ((State.running_of_changes hch (by decide) n).trans hrun) (by rw [howned]; exact hopen) ?_ ?_]
  · have hlate := changes_onlyFailed n k i (dieOfOwner c k) c.step .timeout s
    have hend := Coll.owned_endOwner k (c.finish k i .timeout)
    refine State.stepGo_of_ended (k := k) (ow := ow) (State.get?_ownerEnded hin _)
      ((State.ownHere_of_changes hlate (by decide) c).trans hhere) ((State.running_of_changes hlate (by decide) n).trans hrun)
      (congrArg Owned.ended hend) hlast ?_
    rw [hend]
    exact congrArg (Status.join .ok) (hworst)
  · intro j hj
    have hj : j = i := List.mem_singleton.mp (hchunks ▸ hj)
    rw [howned, hj]
    exact Map.has_set_same _ _ _
  · rw [hworst]
    decide

include hplain hwaits

theorem gives_stepTimeout (hserves : Serves s) (hpassed : ahead (s.rd R.CLT_COLL_STATUS_beat [n] + coTimeout c.desc) s.beat = false)
    (hnone : c.accs.get? [i] = none) :
    Gives (.stepTimeout n) s (fun t => t.clst n = Cl.idle ∧ t.rd R.CLT_COLL_STATUS_last_status [n] = Status.timeout.code ∧
      (t.clt.colls.get? [n]).map (fun c' => (c'.last, c'.accs)) = some (some c.step, Map.empty) ∧
      RegsBut [R.CLT_COLL_STATUS_state, R.CLT_COLL_STATUS_last_status, R.CLT_COLL_STATUS_live, R.CMP_CLUSTER_STATUS_accums,
        R.CLT_FAIL_INFO_slot, R.CLT_FAIL_INFO_status, R.CLT_FAIL_INFO_chunk, R.CLT_FAIL_INFO_step] s t ∧
      PartsBut [.out, .hif, .sw, .ports, .ras, .answers, .clt] s t) := by
  have hexec : exec (.stepTimeout n) s = serving s (s.stepTimedOut n k i (dieOfOwner c k) c.step) := by
    change execStepTimeout n s = _
    unfold execStepTimeout
    have hfail : s.failWith n k i .timeout = (s.failTold n i .timeout c.step).finishChunk n k i .timeout := by
      unfold State.failWith
      simp only [hc, hplain, Bool.false_eq_true, if_false]
      exact State.failChunk_of_waiting hc hwaits _
    simp only [hc, hrun, hpassed, hhere, hchunks, hnone, hwaits, not_true, Bool.false_eq_true, or_self, if_false, List.foldl_cons,
      List.foldl_nil, List.filter_cons, List.filter_nil, Option.map_none, Option.getD_none, Bool.not_false, if_true, hfail,
      State.ownerGo_of_onlyFailed hc hrun hhere hchunks hopen hwell hlast]
    rfl
  have htally : Changes tallyFields [] ((s.onlyFailed n k i (dieOfOwner c k) c.step .timeout).stepEnded n .timeout)
      (s.stepTimedOut n k i (dieOfOwner c k) c.step) := (changes_tally _).trans (changes_tally _)
  have hin : (s.onlyFailed n k i (dieOfOwner c k) c.step .timeout).clt.colls.get? [n] = some ((c.finish k i .timeout).endOwner k) :=
    State.get?_ownerEnded (State.get?_finishChunk (State.get?_failTold hc _ _) _) _
  have hidle := (htally.rd R.CLT_COLL_STATUS_state [n]).trans (State.clst_stepEnded n .timeout _)
  have hstatus := (htally.rd R.CLT_COLL_STATUS_last_status [n]).trans (State.lastStatus_stepEnded n .timeout _)
  have hkept : (s.stepTimedOut n k i (dieOfOwner c k) c.step).clt.colls.get? [n] =
      some { (c.finish k i .timeout).endOwner k with last := some c.step, accs := Map.empty, groups := Map.empty } :=
    (congrArg (fun x => x.colls.get? [n]) ((State.clt_tally _).trans (State.clt_tally _))).trans (State.get?_stepEnded hin _)
  refine gives_serving hexec hserves ⟨?_, ?_, ?_, (changes_stepTimedOut n k i (dieOfOwner c k) c.step s).after⟩
  · rw [State.clst, State.rd_after, hidle]
  · rw [State.rd_after, hstatus]
  · rw [State.after_clt_eq, hkept]
    rfl

end

/-- Settles O40: installation, entries, schedules and destruction each by the answer of a command of the units; a step that
opens leaves its owner waiting for its chunks, and one that runs out of time ends with its only owner. -/
theorem collectiveCommands : Obligations.CollectiveCommands := by
  intro s hs
  refine ⟨?create, ?inUse, ?owner, ?beyond, ?member, ?foreign, ?step, ?busy, ?opens, ?early, ?late, ?destroy, ?kept⟩
  case create =>
    intro fn n x hready hx hok hmay hact hfree hnever _ _
    exact gives_collectiveCreate hs hready hx hok hmay hact hfree hnever
  case inUse =>
    intro fn n x hready hx hok hmay hact hused _
    exact gives_collectiveCreate_inUse hs hready hx hok hmay hact hused
  case owner =>
    intro fn n k c hready hc hmay hk hmid htop hslots haway _
    exact gives_ownerEntry hs hready hc hmay hk hmid htop hslots haway
  case beyond =>
    intro fn n k c hready hc hmay hk _
    exact gives_ownerEntry_beyond hs hready hc hmay hk
  case member =>
    intro fn n k c hready hc hmay hk hsize hcore _
    exact gives_memberEntry hs hready hc hmay hk hsize hcore
  case foreign =>
    intro fn n c hready hc hmay _
    exact gives_memberEntry_foreign hs hready hc hmay
  case step =>
    intro fn n b st c hready hc hmay hidle hlaunch hnone hstep hb hahead _ _
    exact gives_collStep hs hready hc hmay hidle hlaunch hnone hstep hb hahead
  case busy =>
    intro fn n c hready hc hmay hbusy _
    exact gives_collStep_busy hs hready hc hmay hbusy
  case opens =>
    intro n k ow st b c hc hstate hnext hcome hplain hhere hchunks hperiod _ hstep
    have hopens := gives_stepOpen hs hc hstate hnext hcome hplain hhere hchunks hstep rfl
    rwa [Coll.opened, if_neg hperiod] at hopens
  case early =>
    intro n st b c hc hnext hahead
    exact gives_stepOpen_early hs hc hnext hahead
  case late =>
    intro n k ow i c hc hrun hpassed hplain hhere hchunks hwaits hopen hwell hnone hlast _
    exact gives_stepTimeout hc hrun hplain hhere hchunks hwaits hopen hwell hlast hs hpassed hnone
  case destroy =>
    intro fn n c hready hc hmay hidle hbound _ _
    exact gives_collectiveDestroy hs hready hc hmay hidle hbound
  case kept =>
    intro fn n c hready hc hmay hbusy _
    exact gives_collectiveDestroy_busy hs hready hc hmay hbusy

end Sys2Proof.Machine
end

section
/-! PROOF. What the unit decides about a contribution, and contributions summed (R338, R342 to R344). -/

namespace Sys2Proof.Machine

-- One proof after another: proofs under way at once are more threads than one process has memory for.
set_option Elab.async false

open Sys2Proof.Safety

variable {s t u : State} {d n i sh k : Nat} {m : Msg} {c : Coll} {a : Accum}

/-! ### The collective a message names (R331) -/

theorem State.get?_of_collOf {x : Nat} (h : s.collOf x = some (n, c)) :
    s.clt.colls.get? [n] = some c ∧ x % 4096 = n ∧ fieldOf c.desc 0 0 32 = x := by
  unfold State.collOf at h
  split at h
  case h_1 c' hget =>
    split at h
    case isTrue htag =>
      obtain ⟨rfl, rfl⟩ := Prod.mk.inj (Option.some.inj h)
      exact ⟨hget, rfl, htag⟩
    case isFalse => cases h
  case h_2 => cases h

theorem State.collOf_of_get? {x : Nat} (h : s.clt.colls.get? [n] = some c) (hn : x % 4096 = n) (htag : fieldOf c.desc 0 0 32 = x) :
    s.collOf x = some (n, c) := by
  subst hn
  unfold State.collOf
  simp only [h, htag, if_true]

theorem State.collOf_congr (h : t.clt = s.clt) (x : Nat) : t.collOf x = s.collOf x := by
  unfold State.collOf
  rw [h]

/-- A contribution that an owner of this part can take: its collective, its chunk and its shard are installed here (R338). -/
structure Fits (s : State) (m : Msg) (n i sh k : Nat) (c : Coll) : Prop where
  coll : s.collOf (m.f 0 0 32) = some (n, c)
  chunk : m.f 8 0 16 = i
  shard : m.f 8 16 16 = sh
  owner : i / coPer c.desc = k
  chunks : i < coChunks c.desc
  owns : c.owners.has [k] = true
  here : owEid (ownerOf c k) = s.eid
  shards : sh < coShards c.desc
  shape : plainShape c.desc m = true
  tenant : m.tenant = coTenant c.desc

theorem Fits.of_conveys (h : Fits s m n i sh k c) (ht : Conveys [] s t) : Fits t m n i sh k c :=
  ⟨(State.collOf_congr ht.clt_eq _).trans h.coll, h.chunk, h.shard, h.owner, h.chunks, h.owns,
    h.here.trans (ht.changes.rd R.GLB_NODE_eid []).symm, h.shards, h.shape, h.tenant⟩

/-- A collective with the record of a chunk. -/
def Coll.hold (i : Nat) (a : Accum) (c : Coll) : Coll := { c with accs := c.accs.set [i] a }

theorem Coll.hold_hold (i : Nat) (a b : Accum) (c : Coll) : (c.hold i a).hold i b = c.hold i b := by
  simp [Coll.hold]

/-! ### The step of a contribution against the open one (R342) -/

/-- A contribution to the next step. -/
theorem State.judge_next (h : Fits s m n i sh k c) {o : Nat} (hopen : s.openStep n c = some o) (hnext : dist 32 (m.f 4 0 32) o = 1) :
    s.judge m = ((.retry, false), s.countClt (dieOfOwner c k) 3) := by
  obtain ⟨hcoll, rfl, rfl, rfl, hchunks, howns, hhere, hshards, hshape, htenant⟩ := h
  unfold State.judge
  simp only [hcoll, Nat.not_le.mpr hchunks, howns, hhere, Nat.not_le.mpr hshards, hshape, htenant, hopen, hnext, not_true, ne_eq,
    or_true, or_self, if_false, if_true]

/-- A contribution to the open step, whose owner has ended neither the step nor the chunk. -/
structure InTime (s : State) (m : Msg) (n i k : Nat) (c : Coll) : Prop where
  running : s.running n = true
  step : m.f 4 0 32 = c.step
  ended : (c.owned k).ended = false
  waits : (c.owned k).finished.has [i] = false
  paceless : coPace c.desc = 0

theorem InTime.of_conveys (h : InTime s m n i k c) (ht : Conveys [] s t) : InTime t m n i k c :=
  ⟨(State.running_of_changes ht.changes (by simp) n).trans h.running, h.step, h.ended, h.waits, h.paceless⟩

/-- What is decided about a contribution in time: whether the chunk's record, made if need be, takes it in (R343). -/
def State.takeInto (n k i sh : Nat) (c : Coll) (s : State) : (Status × Bool) × State :=
  match c.accs.get? [i] with
  | some a =>
    if bitAt a.bits sh then ((.ok, false), s.countClt (dieOfOwner c k) 1)
    else ((.ok, true), s.modColl n (fun c => { c with accs := c.accs.set [i] { a with bits := a.bits + 2 ^ sh, open_ := a.open_ + 1 } }))
  | none =>
    match s.allocAcc n k i sh c with
    | some t => ((.ok, true), t.tally)
    | none => ((.retry, false), (s.countClt (dieOfOwner c k) 3).event B.clt 4)

section

variable (hf : Fits s m n i sh k c) (hin : InTime s m n i k c)

include hf hin

theorem State.judge_inTime : s.judge m = s.takeInto n k i sh c := by
  obtain ⟨hcoll, rfl, rfl, rfl, hchunks, howns, hhere, hshards, hshape, htenant⟩ := hf
  obtain ⟨hrun, hstep, hended, hwaits, hpace⟩ := hin
  unfold State.judge
  simp only [hcoll, Nat.not_le.mpr hchunks, howns, hhere, Nat.not_le.mpr hshards, hshape, htenant, State.openStep, hrun, hstep,
    dist_self, hended, hwaits, hpace, not_true, ne_eq, or_true, or_self, if_false, if_true, Bool.false_eq_true, false_and,
    and_false, zero_ne_one]
  rfl

/-- One that its record holds already is not summed again. -/
theorem State.judge_held (hacc : c.accs.get? [i] = some a) (hbit : bitAt a.bits sh = true) :
    s.judge m = ((.ok, false), s.countClt (dieOfOwner c k) 1) := by
  rw [State.judge_inTime hf hin, State.takeInto, hacc]
  exact if_pos hbit

/-- A later one is summed into the record. -/
theorem State.judge_adds (hacc : c.accs.get? [i] = some a) (hbit : bitAt a.bits sh = false) :
    s.judge m = ((.ok, true), s.modColl n (Coll.hold i { a with bits := a.bits + 2 ^ sh, open_ := a.open_ + 1 })) := by
  rw [State.judge_inTime hf hin, State.takeInto, hacc]
  exact if_neg (by rw [hbit]; decide)

/-- The first one makes the record, in the owner cluster's share. -/
theorem State.judge_first (hnone : c.accs.get? [i] = none) (hup : s.clusterUp (owCluster (ownerOf c k)) = true)
    (hroom : s.accumUsed (owCluster (ownerOf c k)) + accBytes c.desc ≤
      262144 * s.rd R.CMP_CSRAM_CFG_accum [owCluster (ownerOf c k)]) :
    s.judge m = ((.ok, true), (s.modColl n (Coll.hold i { owner := k, bits := 2 ^ sh, open_ := 1 })).tally) := by
  have halloc : s.allocAcc n k i sh c = some (s.modColl n (Coll.hold i { owner := k, bits := 2 ^ sh, open_ := 1 })) :=
    if_pos ⟨hup, hroom⟩
  rw [State.judge_inTime hf hin, State.takeInto, hnone, halloc]

end

/-! ### Contributions summed (R344) -/

/-- A record with one more contribution's elements. -/
def Accum.sum (x : Nat) (v : List Nat) (bad : Bool) (a : Accum) : Accum :=
  { a with elems := if a.elems = [] then v else List.zipWith (reduceStep (coRedop x) (coIn x)) a.elems v, open_ := a.open_ - 1, bad := a.bad || bad }

/-- The elements are summed into the chunk's record, and counted. -/
def State.summed (n i d : Nat) (a : Accum) (s : State) : State :=
  let s := (s.modColl n (Coll.hold i a)).countClt d 0
  if a.spill.isSome then s.countClt d 7 else s

theorem changes_summed (n i d : Nat) (a : Accum) (s : State) : Changes [] [.clt] s (s.summed n i d a) := by
  have h := (changes_modColl n (Coll.hold i a) s).trans ((changes_countClt d 0 _).weaken (by simp))
  exact Changes.ite (h.trans ((changes_countClt d 7 _).weaken (by simp))) h

theorem State.get?_summed (h : s.clt.colls.get? [n] = some c) (d : Nat) (a : Accum) :
    (s.summed n i d a).clt.colls.get? [n] = some (c.hold i a) := by
  have hin := State.get?_modColl h (Coll.hold i a)
  unfold State.summed
  split
  · rw [(changes_countClt d 7 _).parts .clt (by decide), (changes_countClt d 0 _).parts .clt (by decide), hin]
  · rw [(changes_countClt d 0 _).parts .clt (by decide), hin]

/-- A record that is not complete with the contribution stays. -/
theorem State.sumInto_incomplete (h : s.clt.colls.get? [n] = some c) (hacc : c.accs.get? [i] = some a) (elems : List Nat) (ty : Nat)
    (bad : Bool) (hmore : popcount 1024 a.bits ≠ coShards c.desc) : s.sumInto n i elems ty bad =
      (s.summed n i (dieOfOwner c a.owner) (a.sum c.desc (elems.map (toAccum ty)) bad)).tally := by
  have hopen : (a.sum c.desc (elems.map (toAccum ty)) bad).complete c.desc = false := by
    simp [Accum.complete, Accum.sum, hmore]
  unfold State.sumInto
  simp only [h, hacc]
  refine congrArg State.tally ((if_neg ?_).trans rfl)
  exact fun hdone => Bool.false_ne_true (hopen.symm.trans hdone)


/-! ### Plain contributions (R338, R343) -/

theorem State.judge_unknown (h : s.collOf (m.f 0 0 32) = none) : s.judge m = ((.unsupported, false), s) := by
  unfold State.judge
  simp only [h]

/-- What an answer changes. -/
abbrev answerParts : List Part := [.out, .hif, .sw, .ports, .ras, .answers]

theorem exec_clContribPlain_refused (hty : m.ty = 0x91) {st : Status} (hj : (s.consume d m).judge m = ((st, false), u)) :
    exec (.clContribPlain d m) s = serving s (u.answer d m st 0 none) := by
  change execClContribPlain d m s = _
  unfold execClContribPlain
  simp only [hty, hj, ne_eq, not_true, if_false, Bool.false_eq_true]
  split <;> rfl

theorem exec_clContribPlain_summed (hty : m.ty = 0x91) {st : Status} (hj : (s.consume d m).judge m = ((st, true), u))
    (hcoll : u.collOf (m.f 0 0 32) = some (n, c)) : exec (.clContribPlain d m) s =
      serving s ((u.answer d m st 0 none).sumInto n (m.f 8 0 16) ((List.range (coLen c.desc)).map (fun j =>
        m.f 16 (tyBits (coIn c.desc) * j) (tyBits (coIn c.desc)))) (coIn c.desc) false) := by
  have hsame : (u.answer d m st 0 none).collOf (m.f 0 0 32) = some (n, c) :=
    (State.collOf_congr (conveys_answer (l := []) d m st 0 none u).clt_eq _).trans hcoll
  change execClContribPlain d m s = _
  unfold execClContribPlain
  simp only [hty, hj, hsame, ne_eq, not_true, if_false, if_true]

/-- A plain contribution that is not summed is answered. -/
theorem gives_plain_refused (hserves : Serves s) (hty : m.ty = 0x91) {st : Status}
    (hj : (s.consume d m).judge m = ((st, false), u)) (hu : Changes [] [] (s.consume d m) u) :
    Gives (.clContribPlain d m) s (fun t => Answers d m st 0 none s t ∧ t.clt = s.clt ∧ RegsBut [] s t ∧
      PartsBut answerParts s t) := by
  have h : Changes [] answerParts s (u.answer d m st 0 none) :=
    ((conveys_consume d m s).changes.trans (hu.weaken (fun _ h => h))).trans (conveys_answer d m st 0 none u).changes
  exact gives_serving (exec_clContribPlain_refused hty hj) hserves ⟨⟨u, rfl⟩, h.parts .clt (by decide), h.after⟩

/-- A plain contribution that is summed into a record that it does not complete. -/
theorem gives_plain_summed (hserves : Serves s) (hty : m.ty = 0x91) (hchunk : m.f 8 0 16 = i) (hcoll : u.collOf (m.f 0 0 32) = some (n, c))
    (hj : (s.consume d m).judge m = ((.ok, true), u)) (hu : Changes tallyFields [.clt] (s.consume d m) u)
    (hacc : c.accs.get? [i] = some a) (hmore : popcount 1024 a.bits ≠ coShards c.desc) :
    Gives (.clContribPlain d m) s (fun t => (t.clt.colls.get? [n]).bind (fun c' => c'.accs.get? [i]) =
        some (a.sum c.desc ((List.range (coLen c.desc)).map (fun j =>
          toAccum (coIn c.desc) (m.f 16 (tyBits (coIn c.desc) * j) (tyBits (coIn c.desc))))) false) ∧
      RegsBut tallyFields s t ∧ PartsBut [.out, .hif, .sw, .ports, .ras, .answers, .clt] s t) := by
  subst hchunk
  have hanswer := conveys_answer (l := []) d m .ok 0 none u
  have hin : (u.answer d m .ok 0 none).clt.colls.get? [n] = some c := by
    rw [hanswer.clt_eq, (State.get?_of_collOf hcoll).1]
  have hch : Changes tallyFields [.out, .hif, .sw, .ports, .ras, .answers, .clt] s (u.answer d m .ok 0 none) :=
    (((conveys_consume (l := []) d m s).changes.weaken (by simp)).trans (hu.weaken (fun _ h => h))).trans
      (hanswer.changes.weaken (by simp))
  refine gives_serving ((exec_clContribPlain_summed hty hj hcoll).trans
    (congrArg (serving s) (State.sumInto_incomplete hin hacc _ _ _ hmore))) hserves ⟨?_, ?_⟩
  · rw [State.after_clt_eq, State.clt_tally, State.get?_summed hin, List.map_map]
    exact Map.get?_set_same _ _ _
  · exact ((hch.trans ((changes_summed n _ _ _ _).weaken (by simp))).trans ((changes_tally _).weaken (fun _ h => h))).after

theorem gives_plain_held (hserves : Serves s) (hty : m.ty = 0x91) (hf : Fits s m n i sh k c) (hin : InTime s m n i k c)
    (hacc : c.accs.get? [i] = some a) (hbit : bitAt a.bits sh = true) :
    Gives (.clContribPlain d m) s (fun t => Answers d m .ok 0 none s t ∧ t.clt = s.clt ∧ RegsBut [] s t ∧
      PartsBut answerParts s t) :=
  gives_plain_refused hserves hty (State.judge_held (hf.of_conveys (conveys_consume d m s)) (hin.of_conveys (conveys_consume d m s))
    hacc hbit) (changes_countClt _ _ _)

theorem gives_plain_next (hserves : Serves s) (hty : m.ty = 0x91) (hf : Fits s m n i sh k c)
    (hopen : s.openStep n c = some (m.f 4 0 32 - 1)) (hpos : 1 ≤ m.f 4 0 32) :
    Gives (.clContribPlain d m) s (fun t => Answers d m .retry 0 none s t ∧ t.clt = s.clt ∧ RegsBut [] s t ∧
      PartsBut answerParts s t) := by
  have hconsume := conveys_consume (l := []) d m s
  have hsame : (s.consume d m).openStep n c = some (m.f 4 0 32 - 1) := by
    unfold State.openStep at hopen ⊢
    rw [State.running_of_changes hconsume.changes (by simp), hopen]
  have hnext : dist 32 (m.f 4 0 32) (m.f 4 0 32 - 1) = 1 := by
    have hsize : m.f 4 0 32 < 2 ^ 32 := bitsOf_lt _ _ 32
    unfold dist
    omega
  exact gives_plain_refused hserves hty (State.judge_next (hf.of_conveys hconsume) hsame hnext) (changes_countClt _ _ _)

theorem gives_plain_adds (hserves : Serves s) (hty : m.ty = 0x91) (hf : Fits s m n i sh k c) (hin : InTime s m n i k c)
    (hacc : c.accs.get? [i] = some a) (hbit : bitAt a.bits sh = false) (helems : a.elems ≠ [])
    (hmore : popcount 1024 (a.bits + 2 ^ sh) ≠ coShards c.desc) :
    Gives (.clContribPlain d m) s (fun t => (t.clt.colls.get? [n]).bind (fun c' => c'.accs.get? [i]) =
        some { a with bits := a.bits + 2 ^ sh, elems := List.zipWith (reduceStep (coRedop c.desc) (coIn c.desc)) a.elems ((List.range (coLen c.desc)).map (fun j => toAccum (coIn c.desc) (m.f 16 (tyBits (coIn c.desc) * j) (tyBits (coIn c.desc))))) } ∧
      RegsBut tallyFields s t ∧ PartsBut [.out, .hif, .sw, .ports, .ras, .answers, .clt] s t) := by
  have hconsume := conveys_consume (l := []) d m s
  have hfits := hf.of_conveys hconsume
  obtain ⟨hget, hn, htag⟩ := State.get?_of_collOf hfits.coll
  have hadds := gives_plain_summed (a := { a with bits := a.bits + 2 ^ sh, open_ := a.open_ + 1 }) hserves hty hf.chunk
    (State.collOf_of_get? (State.get?_modColl hget _) hn htag) (State.judge_adds hfits (hin.of_conveys hconsume) hacc hbit)
    ((changes_modColl n _ _).weaken (by simp)) (Map.get?_set_same _ _ _) hmore
  simpa [Accum.sum, helems, Coll.hold] using hadds

theorem gives_plain_first (hserves : Serves s) (hty : m.ty = 0x91) (hf : Fits s m n i sh k c) (hin : InTime s m n i k c)
    (hnone : c.accs.get? [i] = none) (hup : s.clusterUp (owCluster (ownerOf c k)) = true)
    (hroom : s.accumUsed (owCluster (ownerOf c k)) + accBytes c.desc ≤
      262144 * s.rd R.CMP_CSRAM_CFG_accum [owCluster (ownerOf c k)])
    (hmore : popcount 1024 (2 ^ sh) ≠ coShards c.desc) :
    Gives (.clContribPlain d m) s (fun t => (t.clt.colls.get? [n]).bind (fun c' => c'.accs.get? [i]) =
        some { owner := k, bits := 2 ^ sh, open_ := 0, elems := (List.range (coLen c.desc)).map (fun j => toAccum (coIn c.desc) (m.f 16 (tyBits (coIn c.desc) * j) (tyBits (coIn c.desc)))) } ∧
      RegsBut tallyFields s t ∧ PartsBut [.out, .hif, .sw, .ports, .ras, .answers, .clt] s t) := by
  have hconsume := conveys_consume (l := []) d m s
  have hfits := hf.of_conveys hconsume
  obtain ⟨hget, hn, htag⟩ := State.get?_of_collOf hfits.coll
  have hup' : (s.consume d m).clusterUp (owCluster (ownerOf c k)) = true := by
    rw [← hup]
    unfold State.clusterUp State.isReady State.cst
    rw [hconsume.changes.rd R.CMP_CLUSTER_STATUS_state, hconsume.changes.rd R.GLB_READY_ready]
  have hroom' : (s.consume d m).accumUsed (owCluster (ownerOf c k)) + accBytes c.desc ≤
      262144 * (s.consume d m).rd R.CMP_CSRAM_CFG_accum [owCluster (ownerOf c k)] := by
    unfold State.accumUsed State.allAccs at hroom ⊢
    rwa [hconsume.clt_eq, hconsume.changes.rd R.CMP_CSRAM_CFG_accum]
  have hfirst := gives_plain_summed (c := c.hold i { owner := k, bits := 2 ^ sh, open_ := 1 }) hserves hty hf.chunk
    (State.collOf_of_get? ((congrArg (fun x => x.colls.get? [n]) (State.clt_tally _)).trans (State.get?_modColl hget (Coll.hold i _)))
      hn htag)
    (State.judge_first hfits (hin.of_conveys hconsume) hnone hup' hroom')
    (((changes_modColl n _ _).weaken (by simp)).trans ((changes_tally _).weaken (fun _ h => h))) (Map.get?_set_same _ _ _) hmore
  simpa [Accum.sum, Coll.hold] using hfirst

/-! ### Expanded contributions (R343) -/

variable {e : Expansion}

/-- The messages that are being expanded. -/
def State.withWork (l : List Expansion) (s : State) : State := { s with cdc := { s.cdc with work := l } }

theorem changes_withWork (l : List Expansion) (s : State) : Changes [] [.cdc] s (s.withWork l) := by
  refine ⟨fun _ _ _ _ => rfl, fun p hp => ?_, fun _ _ _ => rfl⟩
  cases p
  case cdc => exact absurd (by decide) hp
  all_goals rfl

theorem State.frontOf_only (hwork : s.cdc.work = [e]) (hmsg : e.msg = m) : s.frontOf m = some e := by
  unfold State.frontOf
  simp [hwork, hmsg]

/-- Nothing is left to take of a message that has been taken whole. -/
theorem State.absorb_taken (hwork : s.cdc.work = [e]) (htaken : e.taken = e.written) : s.absorb e = (e, s.withWork [e]) := by
  have hnone : e.written - e.taken = 0 := by omega
  unfold State.absorb
  rw [hnone]
  simp only [State.takeBlocks, hwork, replaceFirst, if_true]
  rfl

theorem State.doneWith_only (hwork : s.cdc.work = [e]) : s.doneWith e = s.withWork [] := by
  unfold State.doneWith
  simp only [hwork, replaceFirst, if_true]
  rfl

theorem Expansion.whole_of_taken (hblocks : e.blocks = []) (htaken : e.taken = e.written) : e.whole = true := by
  simp [Expansion.whole, hblocks, htaken]

/-- A contribution taken whole is answered as it was judged, and then summed. -/
theorem exec_clContrib_whole (hty : m.ty = 0x90) (hwork : s.cdc.work = [e]) (hmsg : e.msg = m) (hblocks : e.blocks = [])
    (htaken : e.taken = e.written) (hbad : e.bad = false) {v : Status × Bool}
    (hj : e.verdict = some v ∨ e.verdict = none ∧ s.judge m = (v, s)) : exec (.clContrib d m) s = serving s
      (if v.2 then State.sumInto (m.f 0 0 12) (m.f 8 0 16) e.elems e.out false ((s.withWork []).answer d m v.1 0 none)
        else (s.withWork []).answer d m v.1 0 none) := by
  have habsorb : State.absorb { e with verdict := some v } (s.withWork [{ e with verdict := some v }]) =
      ({ e with verdict := some v }, s.withWork [{ e with verdict := some v }]) := State.absorb_taken rfl htaken
  have hwhole : Expansion.whole { e with verdict := some v } = true := Expansion.whole_of_taken hblocks htaken
  have hend : State.doneWith { e with verdict := some v } (s.withWork [{ e with verdict := some v }]) = s.withWork [] :=
    State.doneWith_only rfl
  simp only [State.withWork] at habsorb hend
  change execClContrib d m s = _
  unfold execClContrib
  rcases hj with hverdict | ⟨hverdict, hjudge⟩
  · simp only [hty, State.frontOf_only hwork hmsg, hverdict, hwork, replaceFirst, habsorb, hwhole, hend, if_true, if_false,
      ne_eq, not_true]
    simp only [hbad, Bool.false_eq_true, false_and, if_false]
    rfl
  · simp only [hty, State.frontOf_only hwork hmsg, hverdict, hjudge, hwork, replaceFirst, habsorb, hwhole, hend, if_true,
      if_false, ne_eq, not_true]
    simp only [hbad, Bool.false_eq_true, false_and, if_false]
    rfl


section

variable (hserves : Serves s) (hty : m.ty = 0x90) (hwork : s.cdc.work = [e]) (hmsg : e.msg = m) (hblocks : e.blocks = [])
  (htaken : e.taken = e.written) (hbad : e.bad = false)

include hserves hty hwork hmsg hblocks htaken hbad

theorem gives_expanded_unknown (hverdict : e.verdict = none) (hnone : s.collOf (m.f 0 0 32) = none) :
    Gives (.clContrib d m) s (fun t => Answers d m .unsupported 0 none s t ∧ t.cdc.work = [] ∧ RegsBut [] s t ∧
      PartsBut [.out, .hif, .sw, .ports, .ras, .answers, .cdc] s t) := by
  have hanswer := conveys_answer (l := []) d m .unsupported 0 none (s.withWork [])
  refine gives_serving (exec_clContrib_whole hty hwork hmsg hblocks htaken hbad (.inr ⟨hverdict, State.judge_unknown hnone⟩))
    hserves ⟨⟨s.withWork [], rfl⟩, ?_, ?_⟩
  · exact congrArg Cdc.work hanswer.cdc_eq
  · exact (((changes_withWork [] s).weaken (by simp)).trans (hanswer.changes.weaken (by simp))).after

theorem gives_expanded_summed (hverdict : e.verdict = some (.ok, true)) (hn : m.f 0 0 12 = n) (hi : m.f 8 0 16 = i)
    (hc : s.clt.colls.get? [n] = some c) (hacc : c.accs.get? [i] = some a) (helems : a.elems ≠ [])
    (hmore : popcount 1024 a.bits ≠ coShards c.desc) :
    Gives (.clContrib d m) s (fun t => t.cdc.work = [] ∧ (t.clt.colls.get? [n]).bind (fun c' => c'.accs.get? [i]) =
        some { a with open_ := a.open_ - 1, elems := List.zipWith (reduceStep (coRedop c.desc) (coIn c.desc)) a.elems (e.elems.map (toAccum e.out)) } ∧
      RegsBut tallyFields s t ∧ PartsBut [.out, .hif, .sw, .ports, .ras, .answers, .cdc, .clt] s t) := by
  subst hn hi
  have hanswer := conveys_answer (l := []) d m .ok 0 none (s.withWork [])
  have hin : ((s.withWork []).answer d m .ok 0 none).clt.colls.get? [m.f 0 0 12] = some c := by
    rw [hanswer.clt_eq]
    exact hc
  have hsum := changes_summed (m.f 0 0 12) (m.f 8 0 16) (dieOfOwner c a.owner) (a.sum c.desc (e.elems.map (toAccum e.out)) false)
    ((s.withWork []).answer d m .ok 0 none)
  have htally := hsum.weaken (l' := tallyFields) (ps' := [.clt]) (by simp) |>.trans ((changes_tally _).weaken (fun _ h => h))
  refine gives_serving ((exec_clContrib_whole hty hwork hmsg hblocks htaken hbad (.inl hverdict)).trans
    (congrArg (serving s) (State.sumInto_incomplete hin hacc _ _ _ hmore))) hserves ⟨?_, ?_, ?_⟩
  · rw [State.after_cdc_eq, htally.parts .cdc (by decide), hanswer.cdc_eq]
    rfl
  · rw [State.after_clt_eq, State.clt_tally, State.get?_summed hin]
    refine (Map.get?_set_same _ _ _).trans ?_
    simp [Accum.sum, helems]
  · exact ((((changes_withWork [] s).weaken (by simp)).trans (hanswer.changes.weaken (by simp))).trans (htally.weaken (fun _ h => h))).after

end


end Sys2Proof.Machine
end

section
/-! PROOF. Results delivered to core members, and CL_DONE (R234, R335). -/

namespace Sys2Proof.Machine

-- One proof after another: proofs under way at once are more threads than one process has memory for.
set_option Elab.async false

open Sys2Proof.Safety

variable {s t u : State} {n i j d mb : Nat} {m : Msg} {c : Coll} {h : Handle} {e : Expansion}

/-! ### Slots filled (R234) -/

theorem changes_poke (n x len v : Nat) (s : State) : Changes [] [.spm, .csram] s (s.poke n x len v) := by
  unfold State.poke
  split
  case h_3 => exact .refl _ _ s
  all_goals
    refine ⟨fun _ _ _ _ => rfl, fun p hp => ?_, fun _ _ _ => rfl⟩
    cases p
    case spm => exact absurd (by decide) hp
    case csram => exact absurd (by decide) hp
    all_goals rfl

theorem State.core_poke (n x len v : Nat) (s : State) (q : Nat) : (s.poke n x len v).core q = s.core q := by
  unfold State.core
  rw [(changes_poke n x len v s).parts .cores (by decide)]

theorem changes_settleHandle (n i : Nat) (s : State) : Changes [] [.cores] s (s.settleHandle n i) := by
  unfold State.settleHandle
  split
  · exact changes_modCore _ _ _
  · exact .refl _ _ s

theorem settleList_handles (i : Nat) (h : Handle) (l : List Acq) (k : Core) : (settleList i h l k).2.handles = k.handles := by
  induction l generalizing k with
  | nil => rfl
  | cons a l ih =>
    rw [settleList]
    split
    · exact ih k
    · split
      · rw [ih, Core.setS]
        split <;> rfl
      · rfl

theorem State.handles_settleHandle (n i : Nat) (s : State) : ((s.settleHandle n i).core n).handles = (s.core n).handles := by
  unfold State.settleHandle
  split
  · rw [State.core_modCore_same]
    exact settleList_handles _ _ _ _
  · rfl

theorem State.produce_bound (hh : (s.core n).handles.get? [i] = some h) (len v : Nat) : s.produce n i len v =
    ((s.poke n (h.at_ h.p) (min len h.slot) v).setHandle n i { h with p := (h.p + 1) % 2 ^ 32 }).settleHandle n i := by
  unfold State.produce
  rw [hh]

/-- P advances. -/
theorem State.handle_produce (hh : (s.core n).handles.get? [i] = some h) (len v : Nat) :
    ((s.produce n i len v).core n).handles.get? [i] = some { h with p := (h.p + 1) % 2 ^ 32 } := by
  rw [State.produce_bound hh, State.handles_settleHandle, State.setHandle, State.core_modCore_same]
  exact Map.get?_set_same _ _ _

theorem changes_filled (n i x len v : Nat) (h : Handle) (s : State) :
    Changes [] [.cores, .spm, .csram] s (((s.poke n x len v).setHandle n i h).settleHandle n i) :=
  (((changes_poke n x len v s).weaken (by simp)).trans ((changes_modCore n _ _).weaken (by simp))).trans
    ((changes_settleHandle n i _).weaken (by simp))

theorem changes_produce (hh : (s.core n).handles.get? [i] = some h) (len v : Nat) :
    Changes [] [.cores, .spm, .csram] s (s.produce n i len v) := by
  rw [State.produce_bound hh]
  exact changes_filled n i _ _ _ _ s

/-! A range below 2 MiB lies in the core's own memory. -/

theorem State.localAt_low {x len : Nat} (hlow : x + len ≤ 0x200000) : s.localAt n x len = some (false, n * 2 ^ 21 + x) := if_pos hlow

theorem State.peek_low {x len : Nat} (hlow : x + len ≤ 0x200000) :
    s.peek n x len = natOfBytes (Mem.readN s.spm (n * 2 ^ 21 + x) len) := by
  unfold State.peek
  rw [State.localAt_low hlow]

/-- The core's own memory with a number written. -/
def State.spmFilled (x len v : Nat) (s : State) : State := { s with spm := Mem.writeAll s.spm x (bytesOfNat len v) }

theorem State.poke_low {x len : Nat} (hlow : x + len ≤ 0x200000) (v : Nat) :
    s.poke n x len v = s.spmFilled (n * 2 ^ 21 + x) len v := by
  unfold State.poke
  rw [State.localAt_low hlow]
  rfl

theorem changes_spmFilled (x len v : Nat) (s : State) : Changes [] [.spm] s (s.spmFilled x len v) := by
  refine ⟨fun _ _ _ _ => rfl, fun p hp => ?_, fun _ _ _ => rfl⟩
  cases p
  case spm => exact absurd (by decide) hp
  all_goals rfl

/-- A slot in the core's own memory reads as what was put in it. -/
theorem State.peek_produce (hh : (s.core n).handles.get? [i] = some h) {len : Nat} (hfits : len ≤ h.slot)
    (hlow : h.at_ h.p + len ≤ 0x200000) (hwf : Memory.wf s.spm = true) {v : Nat} (hv : v < 2 ^ (8 * len)) :
    (s.produce n i len v).peek n (h.at_ h.p) len = v := by
  have hspm : (s.produce n i len v).spm = Mem.writeAll s.spm (n * 2 ^ 21 + h.at_ h.p) (bytesOfNat len v) := by
    rw [State.produce_bound hh, Nat.min_eq_left hfits, State.poke_low hlow, (changes_settleHandle n i _).parts .spm (by decide)]
    rfl
  have hread := Mem.readN_writeAll (n * 2 ^ 21 + h.at_ h.p) (bytesOfNat len v) hwf
  rw [length_bytesOfNat] at hread
  rw [State.peek_low hlow, hspm, hread, natOfBytes_bytesOfNat, Nat.mod_eq_of_lt hv]

theorem changes_produce_low (hh : (s.core n).handles.get? [i] = some h) {len : Nat} (hfits : len ≤ h.slot)
    (hlow : h.at_ h.p + len ≤ 0x200000) (v : Nat) : Changes [] [.cores, .spm] s (s.produce n i len v) := by
  rw [State.produce_bound hh, Nat.min_eq_left hfits, State.poke_low hlow]
  exact (((changes_spmFilled _ _ _ s).weaken (by simp)).trans ((changes_modCore n _ _).weaken (by simp))).trans
    ((changes_settleHandle n i _).weaken (by simp))

/-! ### A result's only ring (R335) -/

/-- The only core member a result of chunk `j` goes to, with its ring. -/
structure OneTaker (s : State) (c : Coll) (j mb : Nat) (h : Handle) : Prop where
  members : coreMembers c (some j) = [mb]
  bound : (s.core (mbN mb)).handles.get? [mbHandle mb] = some h
  producer : h.producer = 3
  fits : coLen c.desc * tyBytes (coOut c.desc) ≤ h.slot

theorem OneTaker.of_cores (ht : OneTaker s c j mb h) (hcores : t.cores = s.cores) : OneTaker t c j mb h := by
  obtain ⟨hmembers, hbound, hproducer, hfits⟩ := ht
  refine ⟨hmembers, ?_, hproducer, hfits⟩
  unfold State.core at hbound ⊢
  rw [hcores, hbound]

theorem OneTaker.takers (ht : OneTaker s c j mb h) : s.takers c j = [(mb, h)] := by
  obtain ⟨hmembers, hbound, hproducer, hfits⟩ := ht
  unfold State.takers
  simp [hmembers, hbound, hproducer, hfits]

theorem OneTaker.deliver (ht : OneTaker s c j mb h) (hroom : h.full < h.slots) (data : Nat) :
    s.deliverResult c j data = some (s.produce (mbN mb) (mbHandle mb) (coLen c.desc * tyBytes (coOut c.desc)) data) := by
  have hhas := Map.has_of_get? ht.bound
  unfold State.deliverResult
  simp [ht.takers, ht.members, hroom, hhas]

theorem OneTaker.full (ht : OneTaker s c j mb h) (hfull : h.slots ≤ h.full) (data : Nat) : s.deliverResult c j data = none := by
  unfold State.deliverResult
  simp [ht.takers, Nat.not_lt.mpr hfull]

/-! ### Results in plain form -/

section

variable (hserves : Serves s) (hty : m.ty = 0x9A) (hcoll : s.collOf (m.f 0 0 32) = some (n, c))
  (ht : OneTaker s c (m.f 8 0 16) mb h)

include hserves hty hcoll ht

theorem gives_plainResult_full (hfull : h.slots ≤ h.full) :
    Gives (.clResultPlain d m) s (fun t => RegsBut [] s t ∧ PartsBut [] s t) := by
  have hexec : exec (.clResultPlain d m) s = serving s s := by
    change execClResultPlain d m s = _
    unfold execClResultPlain
    simp only [hty, hcoll, (ht.of_cores (conveys_consume (l := []) d m s).cores_eq).full hfull, ne_eq, not_true, if_false]
  exact gives_serving hexec hserves (Changes.refl [] [] s).after

omit hserves in
theorem exec_clResultPlain_delivered (hroom : h.full < h.slots) : exec (.clResultPlain d m) s =
    serving s ((s.consume d m).produce (mbN mb) (mbHandle mb) (coLen c.desc * tyBytes (coOut c.desc))
      (bitsOf m.body 128 (8 * (m.len - 16)))) := by
  change execClResultPlain d m s = _
  unfold execClResultPlain
  simp only [hty, hcoll, (ht.of_cores (conveys_consume (l := []) d m s).cores_eq).deliver hroom, ne_eq, not_true, if_false]

theorem gives_plainResult (hroom : h.full < h.slots) (hlow : h.at_ h.p + coLen c.desc * tyBytes (coOut c.desc) ≤ 0x200000)
    (hlen : m.len = 16 + coLen c.desc * tyBytes (coOut c.desc)) (hwf : Memory.wf s.spm = true) :
    Gives (.clResultPlain d m) s (fun t => (t.core (mbN mb)).handles.get? [mbHandle mb] = some { h with p := (h.p + 1) % 2 ^ 32 } ∧
      t.peek (mbN mb) (h.at_ h.p) (m.len - 16) = bitsOf m.body 128 (8 * (m.len - 16)) ∧ RegsBut [] s t ∧
      PartsBut [.out, .hif, .sw, .ports, .ras, .answers, .cores, .spm] s t) := by
  obtain ⟨len, hsize⟩ : ∃ len, coLen c.desc * tyBytes (coOut c.desc) = len := ⟨_, rfl⟩
  have hconsume := conveys_consume (l := []) d m s
  obtain ⟨hmembers, hbound, hproducer, hfits⟩ := ht.of_cores hconsume.cores_eq
  rw [hsize] at hlow hlen hfits
  have hbody : m.len - 16 = len := by omega
  have hexec := exec_clResultPlain_delivered (d := d) hty hcoll ht hroom
  rw [hsize, hbody] at hexec
  rw [hbody]
  refine gives_serving hexec hserves ⟨?_, ?_, ?_⟩
  · rw [State.core_after]
    exact State.handle_produce hbound _ _
  · exact State.peek_produce hbound hfits hlow (by rw [hconsume.spm_eq, hwf]) (bitsOf_lt _ _ _)
  · exact ((hconsume.changes.weaken (by simp)).trans ((changes_produce_low hbound hfits hlow _).weaken (by simp))).after


end

/-! ### Results that have been expanded -/

section

variable (hserves : Serves s) (hty : m.ty = 0x99) (hwork : s.cdc.work = [e]) (hmsg : e.msg = m) (hblocks : e.blocks = [])
  (htaken : e.taken = e.written)

include hserves hty hwork hmsg hblocks htaken

theorem gives_result_unknown (hnone : s.collOf (m.f 0 0 32) = none) :
    Gives (.clResult d m) s (fun t => t.cdc.work = [] ∧ RegsBut [] s t ∧ PartsBut [.cdc] s t) := by
  have hnone' : (s.withWork [e]).collOf (m.f 0 0 32) = none := (State.collOf_congr rfl _).trans hnone
  have hend : (s.withWork [e]).doneWith e = s.withWork [] := State.doneWith_only rfl
  have hexec : exec (.clResult d m) s = serving s (s.withWork []) := by
    change execClResult d m s = _
    unfold execClResult
    simp only [hty, State.frontOf_only hwork hmsg, State.absorb_taken hwork htaken, Expansion.whole_of_taken hblocks htaken, hnone',
      hend, ne_eq, not_true, if_false]
  exact gives_serving hexec hserves ⟨rfl, (changes_withWork [] s).after⟩

theorem gives_result (hcoll : s.collOf (m.f 0 0 32) = some (n, c)) (ht : OneTaker s c (m.f 8 0 16) mb h) (hroom : h.full < h.slots) :
    Gives (.clResult d m) s (fun t => t.cdc.work = [] ∧
      (t.core (mbN mb)).handles.get? [mbHandle mb] = some { h with p := (h.p + 1) % 2 ^ 32 } ∧ RegsBut [] s t ∧
      PartsBut [.cores, .spm, .csram, .cdc] s t) := by
  have hcoll' : (s.withWork [e]).collOf (m.f 0 0 32) = some (n, c) := (State.collOf_congr rfl _).trans hcoll
  have hend : (s.withWork [e]).doneWith e = s.withWork [] := State.doneWith_only rfl
  have ht' : OneTaker (s.withWork []) c (m.f 8 0 16) mb h := ht.of_cores rfl
  have hexec : ∃ data, exec (.clResult d m) s = serving s
      ((s.withWork []).produce (mbN mb) (mbHandle mb) (coLen c.desc * tyBytes (coOut c.desc)) data) := by
    refine ⟨packElems (tyBits (coOut c.desc)) (e.elems.map (fun v => (convert e.out (coOut c.desc) true v).1)), ?_⟩
    change execClResult d m s = _
    unfold execClResult
    simp only [hty, State.frontOf_only hwork hmsg, State.absorb_taken hwork htaken, Expansion.whole_of_taken hblocks htaken, hcoll',
      hend, ht'.deliver hroom, ne_eq, not_true, if_false]
  obtain ⟨data, hexec⟩ := hexec
  have hproduced := changes_produce ht'.bound (coLen c.desc * tyBytes (coOut c.desc)) data
  refine gives_serving hexec hserves ⟨?_, ?_, ?_⟩
  · rw [State.after_cdc_eq, hproduced.parts .cdc (by decide)]
    rfl
  · rw [State.core_after]
    exact State.handle_produce ht'.bound _ _
  · exact (((changes_withWork [] s).weaken (by simp)).trans (hproduced.weaken (by simp))).after

end

/-! ### CL_DONE (R335) -/

/-- A counter that nothing waits for is incremented. -/
theorem State.increment_of_idle {k : Nat} (hwait : (s.core k).wait = none) (cn amount : Nat) (st : Status) :
    s.increment k cn amount st = s.modCore k (fun q => { q with ctr := q.ctr.set [cn] ((((s.core k).counter cn).1 + amount) % 2 ^ 32, Status.join ((s.core k).counter cn).2 st) }) := by
  have hwait' : ((s.modCore k (fun q => { q with ctr := q.ctr.set [cn] ((((s.core k).counter cn).1 + amount) % 2 ^ 32, Status.join ((s.core k).counter cn).2 st) })).core k).wait = none := by
    rw [State.core_modCore_same]
    exact hwait
  unfold State.increment
  simp only [hwait']

theorem gives_done (hserves : Serves s) (hty : m.ty = 0x9B) (hcoll : s.collOf (m.f 0 0 32) = some (n, c))
    (hmembers : coreMembers c none = [mb]) (hwait : (s.core (mbN mb)).wait = none) :
    Gives (.clDone d m) s (fun t => t.core (mbN mb) =
        { s.core (mbN mb) with ctr := (s.core (mbN mb)).ctr.set [mbCtr mb] ((((s.core (mbN mb)).counter (mbCtr mb)).1 + 1) % 2 ^ 32, Status.join ((s.core (mbN mb)).counter (mbCtr mb)).2 (Status.ofCode m.status)) } ∧
      RegsBut [] s t ∧ PartsBut [.out, .hif, .sw, .ports, .ras, .answers, .cores] s t) := by
  have hconsume := conveys_consume (l := []) d m s
  have hcore : (s.consume d m).core (mbN mb) = s.core (mbN mb) := by rw [State.core, State.core, hconsume.cores_eq]
  have hexec : exec (.clDone d m) s = serving s ((s.consume d m).increment (mbN mb) (mbCtr mb) 1 (Status.ofCode m.status)) := by
    change execClDone d m s = _
    unfold execClDone
    simp only [hty, (State.collOf_congr hconsume.clt_eq _).trans hcoll, hmembers, List.foldl_cons, List.foldl_nil, ne_eq, not_true,
      if_false]
  rw [State.increment_of_idle (hcore ▸ hwait)] at hexec
  refine gives_serving hexec hserves ⟨?_, ?_⟩
  · rw [State.core_after, State.core_modCore_same, hcore]
  · exact ((hconsume.changes.weaken (by simp)).trans ((changes_modCore (mbN mb) _ _).weaken (by simp))).after


end Sys2Proof.Machine
end

section
/-! PROOF. Update groups delivered and timed out (R352). -/

namespace Sys2Proof.Machine

-- One proof after another: proofs under way at once are more threads than one process has memory for.
set_option Elab.async false

open Sys2Proof.Safety

variable {s t : State} {n k g i j : Nat} {c : Coll} {u : UGroup}

/-! ### What the owners of a collective keep -/

/-- What the owners of the collective in slot `n` keep of its step. -/
def State.ownAt (n : Nat) (s : State) : Option (Map Owned) := (s.clt.colls.get? [n]).map Coll.own

theorem State.ownAt_congr (h : t.clt = s.clt) : t.ownAt n = s.ownAt n := by
  unfold State.ownAt
  rw [h]

theorem State.ownAt_modColl (f : Coll → Coll) (hf : ∀ c, (f c).own = c.own) (m : Nat) (s : State) :
    (s.modColl m f).ownAt n = s.ownAt n := by
  unfold State.modColl
  split
  case h_1 c hc =>
    by_cases hn : n = m
    · subst hn
      change Option.map Coll.own ((s.clt.colls.set [n] (f c)).get? [n]) = _
      rw [Map.get?_set_same, State.ownAt, hc, Option.map_some, Option.map_some, hf]
    · change Option.map Coll.own ((s.clt.colls.set [m] (f c)).get? [n]) = _
      rw [Map.get?_set_other _ _ (by simpa using hn)]
      rfl
  case h_2 => rfl

theorem State.ownAt_foldl {α : Type} (f : State → α → State) (hf : ∀ s a, (f s a).ownAt n = s.ownAt n) (l : List α) (s : State) :
    (l.foldl f s).ownAt n = s.ownAt n := by
  induction l generalizing s with
  | nil => rfl
  | cons a l ih => rw [List.foldl_cons, ih, hf]

/-! ### Groups dispatched (R350) -/

theorem State.clt_push (desc q : Nat) (any : Bool) (s : State) : (s.push desc q any).2.clt = s.clt :=
  (apply_ite State.clt _ _ _).trans (ite_self s.clt)

theorem State.clt_agentPush (x : Nat) (core : Option Nat) (desc : Nat) (s : State) : (s.agentPush x core desc).2.clt = s.clt := by
  unfold State.agentPush
  dsimp only
  split
  · rfl
  · split
    · exact ((changes_bump _ _).parts .clt (by decide)).trans (State.clt_push _ _ _ _)
    · rw [State.event_clt_eq, State.clt_push]

theorem State.ownAt_dispatchGroup (m k g q params : Nat) (c : Coll) (s : State) : (s.dispatchGroup m k g q params c).ownAt n = s.ownAt n := by
  unfold State.dispatchGroup
  dsimp only
  rw [State.ownAt_congr ((changes_countClt _ _ _).parts .clt (by decide)), State.ownAt_congr (State.clt_agentPush _ _ _ _)]
  refine (State.ownAt_modColl _ ?_ _ _).trans ?_
  · exact fun _ => rfl
  rw [State.ownAt_congr ((changes_modCore _ _ _).parts .clt (by decide)),
    State.ownAt_congr ((changes_poke _ _ _ _ _).parts .clt (by decide))]
  exact State.ownAt_foldl _ (fun _ _ => State.ownAt_congr ((changes_poke _ _ _ _ _).parts .clt (by decide))) _ _

theorem State.ownAt_updateGo (m : Nat) (s : State) : (s.updateGo m).ownAt n = s.ownAt n := by
  unfold State.updateGo
  split
  · rfl
  · split
    · rfl
    · refine State.ownAt_foldl _ (fun t e => ?_) _ _
      split
      · rfl
      · refine State.ownAt_foldl _ (fun v g => ?_) _ _
        split
        · exact State.ownAt_dispatchGroup _ _ _ _ _ _ _
        · rfl

/-- Counting the records and dispatching what may be dispatched leaves what owners keep. -/
theorem State.ownAt_updateAll_tally (s : State) : s.tally.updateAll.ownAt n = s.ownAt n := by
  unfold State.updateAll
  exact (State.ownAt_foldl _ (fun _ _ => State.ownAt_updateGo _ _) _ _).trans (State.ownAt_congr (State.clt_tally s))

/-- The owner of an installed collective, where it is kept. -/
theorem State.map_owned_of_ownAt {α : Type} (h : t.ownAt n = s.ownAt n) (hc : s.clt.colls.get? [n] = some c) (f : Owned → α) :
    (t.clt.colls.get? [n]).map (fun c' => f (c'.owned k)) = some (f (c.owned k)) := by
  have hown : t.ownAt n = some c.own := by rw [h, State.ownAt, hc, Option.map_some]
  have hmap := congrArg (Option.map (fun o => f (Map.get o {} [k]))) hown
  rw [State.ownAt, Option.map_map] at hmap
  exact hmap

/-! ### A group delivers its chunk (R352) -/

/-- A chunk that is not the one ended still waits. -/
theorem Coll.waits_finish (st : Status) (hj : j ≠ i) (hwaits : (c.owned k).finished.has [j] = false) :
    ((c.finish k i st).owned k).finished.has [j] = false := by
  rw [Coll.owned_finish]
  change (Map.get? _ _).isSome = false
  rw [Map.get?_set_other _ _ (by simpa using hj)]
  exact hwaits

/-- Sending a result leaves what its owner keeps but the results it counts. -/
theorem State.get?_sendResult (hc : s.clt.colls.get? [n] = some c) (data : Nat) (st : Status) :
    ∃ r, (s.sendResult n k i data st).clt.colls.get? [n] = some { c with own := r } ∧
      (r.get {} [k]).finished = (c.owned k).finished ∧ (r.get {} [k]).updated = (c.owned k).updated ∧
      (r.get {} [k]).ended = (c.owned k).ended := by
  have hkept : s.clt.colls.get? [n] = some { c with own := c.own } := hc
  unfold State.sendResult
  simp only [hc]
  split
  · exact ⟨c.own, hkept, rfl, rfl, rfl⟩
  split
  · exact ⟨c.own, hkept, rfl, rfl, rfl⟩
  · refine ⟨_, State.get?_modOwned (c := c) ?_ _, ?_⟩
    · rw [(changes_countClt _ _ _).parts .clt (by decide), (conveys_send (l := []) _ _ _).clt_eq, hc]
    · rw [Map.get_set_same]
      exact ⟨rfl, rfl, rfl⟩

section

variable (hserves : Serves s) (hc : s.clt.colls.get? [n] = some c) (hu : c.groups.get? [k, g] = some u) (hrun : s.running n = true)
  (honly : groupChunks c.desc k g = [i]) (hj : j ∈ ownedChunks c.desc k) (hother : j ≠ i)
  (hwaits : (c.owned k).finished.has [j] = false)

include hserves hc hu hrun honly hj hother hwaits

/-- A group whose counter has reached 1 delivers its chunk; its owner, with a chunk left, goes on. -/
theorem gives_updateDone (hcount : (s.core u.core).counter (coCtr c.desc) = (1, .ok)) :
    Gives (.updateDone n k g) s (fun t => (t.clt.colls.get? [n]).map (fun c' => (c'.owned k).finished.has [i]) = some true ∧
      (t.clt.colls.get? [n]).map (fun c' => ((c'.owned k).updated, (c'.owned k).ended)) =
        some ((c.owned k).updated + 1, (c.owned k).ended)) := by
  obtain ⟨freed, hfreed⟩ : ∃ t, s.modColl n (fun c => { c with groups := c.groups.erase [k, g] }) = t := ⟨_, rfl⟩
  have hin : freed.clt.colls.get? [n] = some { c with groups := c.groups.erase [k, g] } := hfreed ▸ State.get?_modColl hc _
  obtain ⟨data, hdata⟩ : ∃ x, freed.peek u.core (outputsAt c.desc + coLen c.desc * tyBytes (coOut c.desc) * 0)
    (coLen c.desc * tyBytes (coOut c.desc)) = x := ⟨_, rfl⟩
  obtain ⟨r, hsent, hfinished, hupdated, hended⟩ := State.get?_sendResult (k := k) (i := i) hin data .ok
  obtain ⟨c', hc'⟩ : ∃ c', { c with groups := c.groups.erase [k, g], own := r } = c' := ⟨_, rfl⟩
  have howned : c'.owned k = r.get {} [k] := by subst hc'; rfl
  replace hsent : (freed.sendResult n k i data .ok).clt.colls.get? [n] = some c' := hsent.trans (congrArg some hc')
  have hdone := State.get?_modOwned (k := k) (State.get?_finishChunk (k := k) (i := i) hsent .ok)
    (fun o => { o with updated := o.updated + 1 })
  have hkept : ∀ o, ({ c'.finish k i .ok with own := (c'.finish k i .ok).own.set [k] o } : Coll).owned k = o :=
    fun o => Map.get_set_same _ _ _ _
  have hgo := State.ownerGo_of_waiting hdone (i := j) (k := k) (by subst hc'; exact hj)
    (by rw [hkept]; exact Coll.waits_finish .ok hother (by rw [howned, hfinished]; exact hwaits))
  have hexec : exec (.updateDone n k g) s = serving s (((freed.sendResult n k i data .ok).finishChunk n k i .ok).modOwned n k
      (fun o => { o with updated := o.updated + 1 })).tally.updateAll := by
    change execUpdateDone n k g s = _
    unfold execUpdateDone
    simp only [hc, hu, hcount, hrun, honly, hfreed, hdata, hgo, List.mapIdx_cons, List.mapIdx_nil, List.foldl_cons, List.foldl_nil,
      List.length_cons, List.length_nil, Nat.zero_add, ne_eq, not_true, or_self, if_false]
  have hown := State.ownAt_updateAll_tally (n := n) (((freed.sendResult n k i data .ok).finishChunk n k i .ok).modOwned n k
    (fun o => { o with updated := o.updated + 1 }))
  refine gives_serving hexec hserves ?_
  rw [State.after_clt_eq]
  refine ⟨(State.map_owned_of_ownAt hown hdone (fun o => o.finished.has [i])).trans ?_,
    (State.map_owned_of_ownAt hown hdone (fun o => (o.updated, o.ended))).trans ?_⟩
  · rw [hkept, Coll.owned_finish]
    exact congrArg some (Map.has_set_same _ _ _)
  · rw [hkept, Coll.owned_finish, howned, hupdated, hended]
    rfl

/-- A group that runs out of time fails its chunk; its owner, with a chunk left, goes on. -/
theorem gives_updateTimeout (hpassed : u.since + 1000 * coLimit c.desc ≤ s.now) (hfree : (c.owned k).finished.has [i] = false) :
    Gives (.updateTimeout n k g) s (fun t => (t.clt.colls.get? [n]).map (fun c' => (c'.owned k).finished.has [i]) = some true ∧
      (t.clt.colls.get? [n]).map (fun c' => (c'.owned k).worst) = some (Status.join (c.owned k).worst .timeout)) := by
  obtain ⟨freed, hfreed⟩ : ∃ t, ((s.event B.clt 5).countClt (dieOfOwner c k) 9).modColl n
    (fun c => { c with groups := c.groups.erase [k, g] }) = t := ⟨_, rfl⟩
  have htold : ((s.event B.clt 5).countClt (dieOfOwner c k) 9).clt.colls.get? [n] = some c := by
    rw [(changes_countClt _ _ _).parts .clt (by decide), State.event_clt_eq, hc]
  obtain ⟨c', hc'⟩ : ∃ c', { c with groups := c.groups.erase [k, g] } = c' := ⟨_, rfl⟩
  have howned : c'.owned k = c.owned k := by subst hc'; rfl
  have hin : freed.clt.colls.get? [n] = some c' := hc' ▸ hfreed ▸ State.get?_modColl htold _
  have hdone := State.get?_finishChunk (k := k) (i := i) (State.get?_failTold (i := i) hin .timeout c'.step) .timeout
  have hfail := State.failChunk_of_waiting (k := k) (i := i) hin (by rw [howned, hfree]) .timeout
  have hgroup : ((s.event B.clt 5).countClt (dieOfOwner c k) 9).failGroup n k g .timeout =
      (freed.failTold n i .timeout c'.step).finishChunk n k i .timeout := by
    unfold State.failGroup
    simp only [htold, hfreed, honly, List.foldl_cons, List.foldl_nil, hfail]
  have hgo := State.ownerGo_of_waiting hdone (i := j) (k := k) (by subst hc'; exact hj)
    (Coll.waits_finish .timeout hother (by rw [howned, hwaits]))
  have hexec : exec (.updateTimeout n k g) s =
      serving s ((freed.failTold n i .timeout c'.step).finishChunk n k i .timeout).tally.updateAll := by
    change execUpdateTimeout n k g s = _
    unfold execUpdateTimeout
    simp only [hc, hu, hrun, Nat.not_lt.mpr hpassed, hgroup, hgo, not_true, or_self, if_false]
  have hown := State.ownAt_updateAll_tally (n := n) ((freed.failTold n i .timeout c'.step).finishChunk n k i .timeout)
  refine gives_serving hexec hserves ?_
  rw [State.after_clt_eq]
  refine ⟨(State.map_owned_of_ownAt hown hdone (fun o => o.finished.has [i])).trans ?_,
    (State.map_owned_of_ownAt hown hdone Owned.worst).trans ?_⟩
  · rw [Coll.owned_finish]
    exact congrArg some (Map.has_set_same _ _ _)
  · rw [Coll.owned_finish, howned]

end

/-- Settles O41: contributions by what the unit decides of them and the record they are summed into, results by the slot of
the ring they fill, and groups by what their owner keeps of the step. -/
theorem collectiveMessages : Obligations.CollectiveMessages := by
  intro s hs
  refine ⟨?unknown, ?next, ?first, ?held, ?adds, ?expandedUnknown, ?expanded, ?resultUnknown, ?result, ?plainResult, ?plainFull,
    ?done, ?updated, ?timeout⟩
  case unknown =>
    intro d m hty hnone
    have hnone' := (State.collOf_congr (conveys_consume (l := []) d m s).clt_eq _).trans hnone
    obtain ⟨t, hexec, hanswers, _, hframe⟩ := gives_plain_refused hs hty (State.judge_unknown hnone') (.refl _ _ _)
    exact ⟨t, hexec, hanswers, hframe⟩
  case next =>
    intro d m n i sh k x c hty hcoll hx hi hsh hk hchunks howns hhere hshards hshape htenant hopen hpos
    subst hx
    exact gives_plain_next hs hty ⟨hcoll, hi, hsh, hk, hchunks, howns, hhere, hshards, hshape, htenant⟩ hopen hpos
  case first =>
    intro d m n i sh k x c hty hcoll hx hi hsh hk hchunks howns hhere hshards hshape htenant hrun hstep hended hwaits hpace hnone
      hup hroom hmore
    subst hx
    exact gives_plain_first hs hty ⟨hcoll, hi, hsh, hk, hchunks, howns, hhere, hshards, hshape, htenant⟩
      ⟨hrun, hstep, hended, hwaits, hpace⟩ hnone hup hroom (Nat.ne_of_lt hmore)
  case held =>
    intro d m n i sh k x c a hty hcoll hx hi hsh hk hchunks howns hhere hshards hshape htenant hrun hstep hended hwaits hpace hacc
      hbit
    subst hx
    exact gives_plain_held hs hty ⟨hcoll, hi, hsh, hk, hchunks, howns, hhere, hshards, hshape, htenant⟩
      ⟨hrun, hstep, hended, hwaits, hpace⟩ hacc hbit
  case adds =>
    intro d m n i sh k x c a hty hcoll hx hi hsh hk hchunks howns hhere hshards hshape htenant hrun hstep hended hwaits hpace hacc
      hbit helems hmore
    subst hx
    exact gives_plain_adds hs hty ⟨hcoll, hi, hsh, hk, hchunks, howns, hhere, hshards, hshape, htenant⟩
      ⟨hrun, hstep, hended, hwaits, hpace⟩ hacc hbit helems hmore
  case expandedUnknown =>
    intro d m e hty hwork hmsg hblocks htaken hverdict hbad hnone
    exact gives_expanded_unknown hs hty hwork hmsg hblocks htaken hbad hverdict hnone
  case expanded =>
    intro d m n i e c a hty hwork hmsg hblocks htaken hverdict hbad hn hi hc hacc helems hmore
    exact gives_expanded_summed hs hty hwork hmsg hblocks htaken hbad hverdict hn hi hc hacc helems hmore
  case resultUnknown =>
    intro d m e hty hwork hmsg hblocks htaken hnone
    exact gives_result_unknown hs hty hwork hmsg hblocks htaken hnone
  case result =>
    intro d m e n c mb h hty hwork hmsg hblocks htaken hcoll hmembers hbound hproducer hfits hroom
    exact gives_result hs hty hwork hmsg hblocks htaken hcoll ⟨hmembers, hbound, hproducer, hfits⟩ hroom
  case plainResult =>
    intro d m n c mb h hty hcoll hmembers hbound hproducer hfits hroom hlow hlen hwf
    exact gives_plainResult hs hty hcoll ⟨hmembers, hbound, hproducer, hfits⟩ hroom hlow hlen hwf
  case plainFull =>
    intro d m n c mb h hty hcoll hmembers hbound hproducer hfits hfull
    exact gives_plainResult_full hs hty hcoll ⟨hmembers, hbound, hproducer, hfits⟩ hfull
  case done =>
    intro d m n c mb hty hcoll hmembers hwait
    exact gives_done hs hty hcoll hmembers hwait
  case updated =>
    intro n k g i j c u hc hu hcount hrun honly hj hother hwaits
    exact gives_updateDone hs hc hu hrun honly hj hother hwaits hcount
  case timeout =>
    intro n k g i j c u hc hu hpassed hrun honly hfree hj hother hwaits
    exact gives_updateTimeout hs hc hu hrun honly hj hother hwaits hpassed hfree

end Sys2Proof.Machine
end
